-- ==== Sys2Proof/Word.lean ====
section
/-! DEFINITION. The plain words of the QX8 model: bytes, register words, dies, PCIe functions, rings, descriptors. -/
namespace Sys2Proof

/-- One byte of memory or of a descriptor. -/
abbrev Byte := BitVec 8

/-- One 32-bit set-up register (R8). -/
abbrev Word := BitVec 32

/-- One 64-byte submission descriptor, byte 0 in the lowest bits (R64, 0.7: little-endian). -/
abbrev Desc := BitVec 512

/-- The two dies of the device (R13). -/
inductive Die where
  | a
  | b
deriving DecidableEq, Repr

/-- One PCIe function of one endpoint: 0 PF0, 1–31 VF1–VF31, 63 PF1 (R52; the coding of R86 GRANTEE). -/
structure Fun where
  ep : Die
  fn : Nat
deriving DecidableEq, Repr

/-- One ring of one function (R54). -/
structure RingId where
  fn : Fun
  ring : Nat
deriving DecidableEq, Repr

/-- The level of a request (R107). -/
inductive Level where
  | s
  | h
  | n
deriving DecidableEq, Repr

/-- A field of a register: its lowest bit and its width. -/
structure Fld where
  lo : Nat
  len : Nat
deriving DecidableEq, Repr

end Sys2Proof
end

