-- ==== Sys2Proof/Syntax.lean ====
section
/-! DEFINITION. The commands of the QX8: one constructor per row of the command table. The outcome of what lies outside the
block (a measured count, a reply, a lock, an error) is an operand of the command that brings it. -/
namespace Sys2Proof

/-- What the debug port presents after a challenge (R119): the switches asked for, whether the certificate chains to the
integrator or the vendor key (by the SHA-384 of the key), the unique ID it is bound to, and whether the signature over the
challenge, the unique ID and the mask verifies. -/
structure DebugCert where
  switches : Nat
  keyHash : Nat
  boundUid : Option Nat
  signatureOk : Bool
deriving DecidableEq, Repr

/-- An AUX reply (R139): 0 ACK, 1 NACK, 2 DEFER; bytes transferred; bytes read. -/
structure AuxReply where
  code : Nat
  count : Nat
  bytes : List Byte
deriving DecidableEq, Repr

/-- A source of genlock reference events (R153): a camera stream's frame start, a head's frame start, an edge of a die's VSYNC_IN. -/
inductive GenSource where
  | camera (port vc : Nat)
  | head (g : Nat)
  | vsync (d : Die) (rising : Bool)
deriving DecidableEq, Repr

/-- A genlock reference event (R153–R155): its source, pixel clocks into the line at which it comes, and whether the source's frame period
is one that the trim can reach. -/
structure GenEvent where
  src : GenSource
  pix : Nat
  inRange : Bool
deriving DecidableEq, Repr

/-- What is not there at a layer deadline, by layer: data from memory (R152); data for an uncorrectable word that was read, of a line store
or the frame tier (R145, R223). -/
structure LateLayers where
  incomplete : Nat
  ecc : Nat
deriving DecidableEq, Repr

/-- A CSI-2 short packet (R218): virtual channel; header 0 good, 1 corrected, 2 uncorrectable, 3 lost to a SoT error. -/
structure ShortPacket where
  vc : Nat
  header : Nat
deriving DecidableEq, Repr

/-- What the display island sees at a line start: the pixels that the composer had finished, where it had not finished the line
(R152); frame tier words read corrected and uncorrectable, by word offset (R145); columns at which the plane word failed in both copies
(R207), and pixels that left stage 12 wrong, by column, R, G and B (R208); windows whose shadow CRC mismatches (R211); at a frame start,
the least slack of the last frame per camera layer, in 1/16 line (R228). -/
structure LineObs where
  unfinished : Option Nat
  eccCorr : Nat
  eccUncorr : List Nat
  planeBlack : List Nat
  wrong : List (Nat × Nat × Nat × Nat)
  shadowBad : List Nat
  slacks : List (Nat × Int)
deriving DecidableEq, Repr

/-- A camera long packet as the receiver sees it (R217, R218): data type; header good (0), with a corrected error (1), uncorrectable (2),
or the packet lost to a SoT error (3); payload CRC wrong; samples in CSI-2 order: one per pixel for RGB and RAW, Cb, Y, Cr, Y per pair
of pixels for YUV422. -/
structure CamPacket where
  dt : Nat
  header : Nat
  crcBad : Bool
  samples : List Nat
deriving DecidableEq, Repr

/-- What a vertex shader, whose code is opaque, gives for one vertex (R262): the four FP32 words of its position, and its point size. -/
structure VertexOut where
  pos : List Nat
  size : Nat
deriving DecidableEq, Repr

/-- What the vertex shaders of a draw packet give: its vertices by instance and place in the instance, through the draws of an indirect
packet; and, of each primitive that survives clipping and culling, the bytes its data takes in the bin pool (R265). -/
structure DrawOut where
  verts : List VertexOut
  bytes : List Nat
deriving DecidableEq, Repr

/-- What a fragment shader gives for one fragment (R260): the primitive, by its place among those of the pass, the pixel, and with
PER_SAMPLE the sample, else 0; four words per colour target, FP32 or the unsigned integer of R32UI; DISCARD; and the FP32 word of depth. -/
structure FragOut where
  prim : Nat
  x : Nat
  y : Nat
  sample : Nat
  words : List Nat
  discard : Bool
  depth : Nat
deriving DecidableEq, Repr

/-- An access of a shader, whose code is opaque, through a resource table (R249, R250): which of the tables that the job has in
use, the entry; of a buffer the byte offset, of an image the unit: column, row, layer, mip level and plane; the bytes written or, of a read, as
many bytes as it reads. -/
structure ShaderAccess where
  table : Nat
  entry : Nat
  offset : Nat
  x : Nat
  y : Nat
  layer : Nat
  mip : Nat
  plane : Nat
  bytes : List Byte
  write : Bool
deriving DecidableEq, Repr

/-- What a partial render shows of its shaders: their accesses since the last command, and the fragments of its tiles. -/
structure Shaded where
  accesses : List ShaderAccess
  frags : List FragOut
deriving DecidableEq, Repr

/-- What the end of a GPU job shows of its shaders: their accesses since the last command, the fragments of the final render, an
uncorrectable word of tile memory, corrected words per local cluster, and fragments shaded and waves issued (R289). -/
structure JobObs where
  accesses : List ShaderAccess
  frags : List FragOut
  tileEcc : Bool
  corrected : List (Nat × Nat)
  fragments : Nat
  waves : Nat
deriving DecidableEq, Repr

/-- A request that waits at a memory channel (R300–R302): port, function, die-local offset, length, write, device time of arrival;
time left to the line deadline and the line period in ns (deadline urgency); occupancy and capacity of the unit's buffer (fill
urgency); E of the GPU job; class and urgency that came over the Ebrum link (port 22); whether its translation leaves set CACHE (R299). -/
structure MemReq where
  port : Nat
  fn : Fun
  addr : Nat
  len : Nat
  write : Bool
  since : Nat
  rem : Nat
  period : Nat
  fill : Nat
  capacity : Nat
  e : Nat
  cls : Nat
  urgency : Nat
  alloc : Bool
deriving DecidableEq, Repr

/-- Errors found while a request is served: corrected words, uncorrectable words by die-local offset (R295, R296), and those of
the system cache (R299). -/
structure MemErrs where
  corrected : Nat
  uncorrectable : List Nat
  cacheCorrected : Nat
  cacheUncorrectable : List Nat
deriving DecidableEq, Repr

/-- What reaches the audio engine for a block (R318, R319): blocks missed before it, and the samples of the slots of the TDM ports that
enter the sums with it: port, slot, integers of DATA_BITS bits. -/
structure AudioObs where
  missed : Nat
  tdm : List (Nat × Nat × List Int)
deriving DecidableEq, Repr

/-- What a haptic channel senses in a control period (R343, R345, R346): supply in mV; the accelerometer's 16-bit sample, or the
back-EMF in mV; whether the read saturated; and, in closed loop, the drive command in mV that the loop forms (its algorithm is not
stated). -/
structure HapObs where
  vsup : Nat
  sample : Nat
  saturated : Bool
  drive : Nat
deriving DecidableEq, Repr


/-- Raw counts that a touch scan gives, by measurement (a self channel, the RX channel of a mutual key, 0x100 + matrix node), and
whether the scan completed while the previous one was outstanding (R361, R386). -/
structure TouchObs where
  counts : List (Nat × Nat)
  overrun : Bool
deriving DecidableEq, Repr

/-- A touchscreen read: the report, or its failure: 0 NACK, 1 arbitration, 2 SCL held (R381). -/
inductive TshReply where
  | report (bytes : List Byte)
  | failed (why : Nat)
deriving DecidableEq, Repr

/-- What a link test unit has counted since it was last looked at (R461): bit errors by lane, and bits checked per locked lane. -/
structure LtObs where
  errs : List (Nat × Nat)
  bits : Nat
deriving DecidableEq, Repr

/-- What a die sees of the link at its 10 µs check (R443, R449, R450): time since the last heartbeat on any bundle, on the sideband, and
since PEER_OK fell (0 while high), µs; the narrowest eye of each bundle's receive lanes. -/
structure HealthObs where
  mainUs : Nat
  sideUs : Nat
  okLowUs : Nat
  eyes : List Nat
deriving DecidableEq, Repr

/-- A message of the sideband (R447, R453): a heartbeat, or whether the peer's REJOIN is held. -/
inductive SbMsg where
  | heartbeat
  | rejoin (held : Bool)
deriving DecidableEq, Repr

/-- A signed configuration (R430): the memory fitted, the ECC regions (base and size, 2 MiB units), the rates of the set-points, the
requester IDs and IDE rules of PF1, the watchdog timeout in ms (0: none stated), the PCIe identity and the number of VFs. -/
structure BootConfig where
  chCap : Nat
  ranks2 : Bool
  regions : List (Nat × Nat)
  rates : List Nat
  reqids : List Nat
  ideStream : Nat
  ideRequired : Bool
  watchdogMs : Nat
  identity : Nat
  vfs : Nat
deriving DecidableEq, Repr

/-- An image slot as the boot ROM finds it: the signature chains to the fused key, its security version, and its bytes (R430). -/
structure BootSlot where
  signed : Bool
  version : Nat
  size : Nat
deriving DecidableEq, Repr

/-- What the boot ROM of a die reads (R429–R432): the flash answers, its 32-byte header, what stands at the firmware slots, and at
the configuration slots with what they hold, slot 0 first. Die B reads what die A sends it, unless it boots split. -/
structure BootObs where
  flashOk : Bool
  header : List Byte
  firmware : List BootSlot
  config : List (BootSlot × BootConfig)
deriving DecidableEq, Repr

/-- A command to the block. -/
inductive Instr where
  /-- REGISTER_WRITE (R41). A write to a set-up register that has no row of its own completes on the fabric-side shadow and is carried to its island as a held value. -/
  | registerWrite (f : Fun) (off : Nat) (v : Word)
  /-- MISALIGNED_ACCESS (R8). An access of the wrong size or alignment to set-up space is discarded, or reads zero, and is logged in the GLOBAL block. -/
  | misalignedAccess (f : Fun) (write : Bool) (off size : Nat)
  /-- LO_WRITE (R10). A write to the _LO half of a 64-bit pair is staged separately for the requesting function. -/
  | loWrite (f : Fun) (off : Nat) (v : Word)
  /-- HI_WRITE (R10). A write to the _HI half commits the staged _LO, or the committed _LO, together with the new _HI in one step. -/
  | hiWrite (f : Fun) (off : Nat) (v : Word)
  /-- LO_READ (R11). A read of _LO returns the committed value and latches the committed _HI for the next _HI read by that function. -/
  | loRead (f : Fun) (off : Nat)
  /-- PACE_WINDOW (R26). Every 256 REFCLK cycles the pace copies' counts close, and PACE_STATUS.PACE takes the lowest count. `counts`: what the sixteen copies counted. -/
  | paceWindow (d : Die) (counts : List Nat)
  /-- FLOOR_RAISE_TIMEOUT (R31). The pace has not reached the raised floor 1 ms after the raise, so the unit starts anyway. -/
  | floorRaiseTimeout (d : Die)
  /-- AVS_FRAME_DONE (R34). An AVSBus frame ends and is accepted, or is retried after a CRC failure, missing response or refusal, and sets AVS_FAULT after the third failed retry. `result`: 0 accepted, 1 CRC failure, 2 no response, 3 action not taken; `alert`: the status alert. -/
  | avsFrameDone (d : Die) (result : Nat) (alert : Bool)
  /-- AVS_READBACK (R33). Every 1 ms while READBACK_EN is 1 the device reads the regulator voltage into AVS_READBACK. `result`: 0 read, else the last failure after the retries, as AVS_FRAME_DONE. -/
  | avsReadback (d : Die) (result mv : Nat)
  /-- AVS_FAULT_CLEAR (R34). Writing 1 to AVS_FAULT clears it, and the loop resumes from the next window. -/
  | avsFaultClear (f : Fun)
  /-- PACE_MANUAL_WRITE (R36). With LOOP_EN at 0, a write of PACE_MANUAL is sent once to the regulator, clamped to the limits. -/
  | paceManualWrite (f : Fun) (v : Word)
  /-- PACE_LOOP_CTRL_WRITE (R36). A write of PACE_LOOP_CTRL sets the steps and event enables, ignores a zero up step, and on clearing LOOP_EN writes the manual voltage once. -/
  | paceLoopCtrlWrite (f : Fun) (v : Word)
  /-- AVS_LIMITS_WRITE (R51). A write of AVS_LIMITS clamps each half to 600–900 mV and is ignored whole if VMIN exceeds VMAX. -/
  | avsLimitsWrite (f : Fun) (v : Word)
  /-- VALUE_CROSSING (R39). A held value crosses between fabric and island with a take flag and a synchronised acknowledge. -/
  | valueCrossing (d : Die) (n : Nat)
  /-- XING_PULSE (R42). A pulse arrives at an event crossing and is sent, merged into a count, or lost with OVERRUN by its mode. -/
  | xingPulse (d : Die) (n : Nat)
  /-- XING_ACK (R44). The acknowledge of an event is seen at the sender, and pending merged pulses go out as one further event. -/
  | xingAck (d : Die) (n : Nat)
  /-- XING_MODE_WRITE (R45). A write of XING_CFG.MODE takes effect after the handshake in progress completes. -/
  | xingModeWrite (f : Fun) (n : Nat) (v : Word)
  /-- XING_STALL_TIMEOUT (R46). Held data not taken by the island for 256 REFCLK cycles sets XING_STATUS.STALLED. -/
  | xingStallTimeout (d : Die) (n : Nat)
  /-- ISLAND_CLOCK_STOP (R46). An island clock stops, and its crossings hold their data while the fabric back-pressures. `island`: its place in Table 2.3, one for each head, channel, port and bundle: 0–3 displays, 4–11 DRAM, 12 PCIe, 13–16 CSI-2, 17 TDM and PDM, 18 touch, 19–20 I²C, 21–24 haptic, 25–28 bundles, 29 Garnet link, 30 time base. -/
  | islandClockStop (d : Die) (island : Nat)
  /-- ISLAND_CLOCK_RESUME (R46). An island clock returns, and transfer resumes from the handshake phase at which it stopped. -/
  | islandClockResume (d : Die) (island : Nat)
  /-- XING_PEER_RESET (R47). One side of a crossing enters reset, and the other side discards items in flight, counts them and sets PEER_RESET. -/
  | xingPeerReset (d : Die) (n : Nat)
  /-- XING_RESYNC (R48). The reset side is released and both sides align their pointers, clearing PEER_RESET within 2 µs. -/
  | xingResync (d : Die) (n : Nat)
  /-- ROUTE_CREATE (R86). SETUP command that creates a route and returns its handle. -/
  | routeCreate (q : RingId) (desc : Desc)
  /-- ROUTE_MODIFY (R89). SETUP command that replaces a route's sink or parameters from the effect point of its kind. -/
  | routeModify (q : RingId) (desc : Desc)
  /-- ROUTE_DELETE (R89). SETUP command that deletes a route at the effect point of its kind. -/
  | routeDelete (q : RingId) (desc : Desc)
  /-- ROUTE_QUERY (R88). SETUP command that writes a 64-byte record of a route. -/
  | routeQuery (q : RingId) (desc : Desc)
  /-- ROUTE_CHANGE_EFFECT (R23). A pending route change or deletion reaches the effect point of its kind and posts its FURTHER completion. -/
  | routeChangeEffect (handle : Nat)
  /-- IMAGE_APPLY (R90). SETUP command that reads, checks and applies a whole set-up image in one step. -/
  | imageApply (q : RingId) (desc : Desc)
  /-- RING_ENABLE (R55). A RING_CFG write with a non-zero SIZE_LOG2 enables a ring after its checks, or is refused with CFG_ERR. -/
  | ringEnable (f : Fun) (q : RingId) (v : Word)
  /-- RING_DISABLE (R58). A RING_CFG write with SIZE_LOG2 zero disables a ring, unless it is a COMPLETION ring that is still owed a completion. -/
  | ringDisable (f : Fun) (q : RingId) (v : Word)
  /-- RING_CFG_MODIFY (R57). A RING_CFG write on an enabled ring changes PRIORITY and EVICTABLE, or is ignored with CFG_ERR. -/
  | ringCfgModify (f : Fun) (q : RingId) (v : Word)
  /-- DOORBELL (R60). A doorbell write on a submission ring is accepted as the new producer index or rejected with DB_BAD. -/
  | doorbell (q : RingId) (v : Word)
  /-- CONSUMER_DOORBELL (R60). A doorbell on a COMPLETION or EVENT ring sets the host consumer index and frees entries for held completions and events. -/
  | consumerDoorbell (q : RingId) (v : Word)
  /-- DESCRIPTOR_FETCH (R66). The device fetches a covered descriptor or chain and runs the checks of Table 3.4 in order. -/
  | descriptorFetch (q : RingId)
  /-- INT_DELAY_EXPIRY (R79). DELAY_US passes since the first counted entry, and the MSI-X message is sent. -/
  | intDelayExpiry (q : RingId)
  /-- RING_INT_WRITE (R80). A write of RING_INT on an enabled ring takes effect at once and may send a pending message. -/
  | ringIntWrite (f : Fun) (q : RingId) (v : Word)
  /-- NOP (R65). Common opcode that completes with OK. -/
  | nop (q : RingId) (desc : Desc)
  /-- WAIT_VALUE (R65). Common opcode that holds its ring until a 64-bit word meets a condition or a time limit passes. -/
  | waitValue (q : RingId) (desc : Desc)
  /-- WAIT_VALUE_POLL (R65). At least once every 1 µs the device reads the word of a WAIT_VALUE and completes it when COND holds. -/
  | waitValuePoll (q : RingId)
  /-- WAIT_VALUE_TIMEOUT (R65). TIMEOUT_US passes before COND holds, and the WAIT_VALUE completes with TIMEOUT. -/
  | waitValueTimeout (q : RingId)
  /-- WRITE_VALUE (R65). Common opcode that writes a 64-bit value once every earlier descriptor of the ring has completed. -/
  | writeValue (q : RingId) (desc : Desc)
  /-- TIMESTAMP (R65). Common opcode that writes device time when it reaches the head of the ring. -/
  | timestamp (q : RingId) (desc : Desc)
  /-- FENCE_WAIT_RELEASE (R72). Every earlier descriptor has completed, so a descriptor held under FENCE_WAIT or WRITE_VALUE begins. -/
  | fenceWaitRelease (q : RingId)
  /-- FENCE_SIGNAL (R73). Once the descriptor and every earlier one have completed, the fence count advances and is written before the DONE completion. -/
  | fenceSignal (q : RingId)
  /-- TENANT_CREATE (R96). SETUP command that creates a tenant on a VF with grants drawn from the pools. -/
  | tenantCreate (q : RingId) (desc : Desc)
  /-- TENANT_MODIFY (R96). SETUP command that changes an existing tenant's grants and windows. -/
  | tenantModify (q : RingId) (desc : Desc)
  /-- TENANT_DESTROY (R97). SETUP command that deletes a tenant's routes, scrubs its units and returns its grants. -/
  | tenantDestroy (q : RingId) (desc : Desc)
  /-- TENANT_DESTROY_DONE (R97). The last route of a destroyed tenant has been deleted and its units scrubbed, so the FURTHER completion is posted. -/
  | tenantDestroyDone (f : Fun) (scrubFails : List Nat)
  /-- PIN_ASSIGN (R109). SETUP command that assigns a pin's world and owner and returns the pin to its inactive state. -/
  | pinAssign (q : RingId) (desc : Desc)
  /-- SECURE_CLAIM (R498). SETUP command from PF1 that adds one to a unit's SECURE_CLAIM count. -/
  | secureClaim (q : RingId) (desc : Desc)
  /-- SECURE_RELEASE (R498). SETUP command from PF1 that takes one from a unit's SECURE_CLAIM count and carries out held votes when the claim ends. -/
  | secureRelease (q : RingId) (desc : Desc)
  /-- STATE_SIZE (R121). SETUP command that returns the size of a tenant's state image. -/
  | stateSize (q : RingId) (desc : Desc)
  /-- TENANT_FREEZE (R121). SETUP command that brings a tenant to the frozen state of Table 4.4. -/
  | tenantFreeze (q : RingId) (desc : Desc)
  /-- TENANT_FREEZE_DONE (R121). Every part of the tenant is frozen, so DONE is posted and FROZEN sets. -/
  | tenantFreezeDone (f : Fun)
  /-- TENANT_SAVE (R122). SETUP command that writes a frozen tenant's state image. -/
  | tenantSave (q : RingId) (desc : Desc)
  /-- TENANT_RESTORE (R123). SETUP command that loads a state image into a target tenant and leaves it frozen. -/
  | tenantRestore (q : RingId) (desc : Desc)
  /-- TENANT_THAW (R124). SETUP command that resumes a frozen tenant. -/
  | tenantThaw (q : RingId) (desc : Desc)
  /-- PCIE_FLR (R99). A PCIe function-level reset of a VF starts the sequence of Table 4.2. -/
  | pcieFlr (f : Fun)
  /-- FLR_CTRL_WRITE (R99). The manager writes FLR_CTRL.FLR to start a function-level reset of a VF. -/
  | flrCtrlWrite (f : Fun) (target : Nat) (v : Word)
  /-- FLR_DONE (R99). The reset function's heads have reached their next frame start and its units are scrubbed, so FLR_DONE is posted and FLR_ACTIVE clears. -/
  | flrDone (f : Fun) (scrubFails : List Nat)
  /-- MMU_INVALIDATE (R127). A write of MMU_INV_CTRL with GO starts an invalidation of cached translations. -/
  | mmuInvalidate (f : Fun) (v : Word)
  /-- MMU_INVALIDATE_DONE (R127). An invalidation ends, and BUSY clears within 10 µs of GO. -/
  | mmuInvalidateDone (d : Die)
  /-- PF1_REQUEST_REJECTED (R108). A request to PF1 from an unlisted requester or without the required IDE stream is refused and counted. -/
  | pf1RequestRejected (d : Die) (posted : Bool) (rid : Nat) (ide : Option Nat)
  /-- CARVE_LOCK (R111). S writes CARVE_SIZE.LOCK, which locks both carve-out registers until the memory domain is reset. -/
  | carveLock (f : Fun) (v : Word)
  /-- CACHE_S_WAYS_WRITE (R112). A write of S_MASK is taken, or ignored if it sets fewer than 2 ways or an S route lives on the die. -/
  | cacheSWaysWrite (f : Fun) (v : Word)
  /-- DEBUG_CHALLENGE (R119). The debug port asks for a challenge, and the device issues a 48-byte random challenge. -/
  | debugChallenge (d : Die)
  /-- DEBUG_CERTIFICATE (R119). A certificate and signature presented at the debug port are checked and enable the requested debug switches. -/
  | debugCertificate (d : Die) (cert : DebugCert)
  /-- HEAD_ENABLE (R135). SETUP command that starts a head after its checks, raising the floor, locking the PLL and starting the port. -/
  | headEnable (q : RingId) (desc : Desc)
  /-- HEAD_DISABLE (R136). SETUP command that stops a head's scan-out from the next line start. -/
  | headDisable (q : RingId) (desc : Desc)
  /-- HEAD_MODE (R136). SETUP command that changes a head between stored and through mode or changes its lookahead. -/
  | headMode (q : RingId) (desc : Desc)
  /-- PORT_CONFIG (R138). SETUP command that sets up an output port's protocol, lanes, rate and depth. -/
  | portConfig (q : RingId) (desc : Desc)
  /-- PORT_AUX (R139). SETUP command that runs one DP AUX transaction. -/
  | portAux (q : RingId) (desc : Desc)
  /-- AUX_REPLY (R139). An AUX reply arrives or is missing, and the transaction completes or is retried up to 7 attempts. -/
  | auxReply (port : Nat) (reply : Option AuxReply)
  /-- DSI_CMD (R140). SETUP command that sends one DSI packet in blanking. -/
  | dsiCmd (q : RingId) (desc : Desc)
  /-- DSI_READ_TIMEOUT (R140). A DSI read has no response within 10 ms and completes with TIMEOUT. -/
  | dsiReadTimeout (port : Nat)
  /-- TIMING_WRITE (R131). A write of a head timing register is refused with TIMING_ERR or carried to the display island. -/
  | timingWrite (f : Fun) (n reg : Nat) (v : Word)
  /-- HEAD_PCLK_WRITE (R133). A write of HEAD_PCLK is taken while the head is disabled and ignored with TIMING_ERR otherwise. -/
  | headPclkWrite (f : Fun) (n : Nat) (v : Word)
  /-- LINE_START (R129). A head's line begins, applying landed timing and starting the line fetches that begin there. -/
  | lineStart (h : Nat) (obs : LineObs)
  /-- LAYER_DEADLINE (R152). Half a line before line k, a layer whose data is incomplete underruns and goes transparent for the rest of the frame. -/
  | layerDeadline (h line : Nat) (late : LateLayers)
  /-- COMPOSE_WINDOW_OPEN (R148). At line VACTIVE of a stored-mode head the pending commits are taken and a compose pass starts if anything is pending. -/
  | composeWindowOpen (h : Nat)
  /-- COMPOSE_LINE (R149). The composer begins a line of a stored pass, taking commits that landed during the pass. -/
  | composeLine (h : Nat)
  /-- COMPOSE_PASS_END (R150). A compose pass writes its last line, setting FT_VALID and ending the pass. -/
  | composePassEnd (h : Nat)
  /-- FT_PATROL_SCRUB (R145). The frame tier patrol scrub runs once every PERIOD_S seconds. -/
  | ftPatrolScrub (d : Die) (corrected : Nat) (uncorrectable : List Nat)
  /-- PIXEL_PLL_LOST (R157). A head's pixel PLL loses lock, stopping the island clock and setting PLL_LOST. -/
  | pixelPllLost (h : Nat)
  /-- PIXEL_PLL_RELOCK (R157). The pixel PLL relocks on its own, and the island resumes. -/
  | pixelPllRelock (h : Nat)
  /-- PORT_HPD (R138). A plug, unplug or HPD interrupt on a DE port posts PORT_HPD and may start link training. -/
  | portHpd (port kind : Nat) (lost : Bool)
  /-- LINK_TRAINING (R138). DP or eDP link training runs with fallback, and its outcome posts PORT_LINK. -/
  | linkTraining (port : Nat) (result : Option (Nat × Nat))
  /-- GENLOCK_REFERENCE (R153). A genlock reference event arrives at a head and is used to measure its phase. -/
  | genlockReference (h : Nat) (event : GenEvent)
  /-- GENLOCK_SOURCE_TIMEOUT (R155). No reference event for 3 nominal frame periods makes the head free-run and post GENLOCK. -/
  | genlockSourceTimeout (h : Nat)
  /-- LAYER_COMMIT (R181). DISPLAY opcode that commits a layer's buffer and geometry. -/
  | layerCommit (q : RingId) (desc : Desc)
  /-- LAYER_COLOUR (R183). DISPLAY opcode that commits a layer's colour state. -/
  | layerColour (q : RingId) (desc : Desc)
  /-- HEAD_COLOUR (R178). SETUP command that loads a head's background, regamma, 3D LUT, range and dither. -/
  | headColour (q : RingId) (desc : Desc)
  /-- BUFFER_RELEASE (R185). The last fetch that reads a replaced buffer completes, and a RELEASED completion is posted. -/
  | bufferRelease (h layer : Nat)
  /-- GLINK_FRAME_START (R195). GLINK_CS_n falls, a new frame begins at byte 0 and the status block is shifted out. -/
  | glinkFrameStart (d : Die)
  /-- GLINK_FRAME_END (R196). GLINK_CS_n rises and the frame is checked by CRC, format, SEQ and commands, then accepted or discarded. -/
  | glinkFrameEnd (d : Die) (bytes : List Byte)
  /-- GARNET_NOP (R200). Garnet link command NOP, which does nothing. -/
  | garnetNop (d : Die) (slot : Nat)
  /-- ICON (R200). Garnet command that replaces a slot with an atlas entry. -/
  | icon (d : Die) (slot entry colour : Nat)
  /-- NUMBER (R200). Garnet command that replaces a slot with a decimal value in glyphs. -/
  | number (d : Die) (slot : Nat) (value : Int) (digits decimals glyphBase colour align : Nat)
  /-- TEXT (R200). Garnet command that replaces a slot with a row of atlas entries. -/
  | text (d : Die) (slot colour : Nat) (entries : List Nat)
  /-- BAR (R200). Garnet command that replaces a slot with a fill bar. -/
  | bar (d : Die) (slot fill dir colour : Nat)
  /-- RECT (R200). Garnet command that draws a filled rectangle in a slot. -/
  | rect (d : Die) (slot x y w h colour : Nat)
  /-- LINE (R200). Garnet command that draws a line in a slot. -/
  | line (d : Die) (slot x0 y0 x1 y1 colour width : Nat)
  /-- CLEAR (R200). Garnet command that fills a slot with its window's background. -/
  | clear (d : Die) (slot : Nat)
  /-- CLEAR_ALL (R200). Garnet command that clears every slot of the die. -/
  | clearAll (d : Die) (slot : Nat)
  /-- ACK_FAULT (R213). Garnet command that clears every latched fault cause whose condition is gone and may release SAFE_FAULT_n. -/
  | ackFault (d : Die) (slot : Nat)
  /-- REPORT (R200). Garnet command that selects the window whose CRC the status block reports. -/
  | report (d : Die) (slot head window : Nat)
  /-- GARNET_RENDER (R205). The renderer takes an accepted frame from its queue and redraws the changed slots into back buffers. -/
  | garnetRender (d : Die) (ecc : List (Bool × Nat × Nat))
  /-- GARNET_RENDER_DONE (R205). A render completes, so its windows flip at the next frame start. -/
  | garnetRenderDone (d : Die)
  /-- GLINK_STALE_TIMEOUT (R198). No frame accepted for TIMEOUT_MS makes the link stale, latching LINK_STALE. -/
  | glinkStaleTimeout (d : Die)
  /-- GARNET_LINK_EN_WRITE (R197). A write of GARNET_LINK_CFG.EN enables or disables the link, setting RESYNC_WAIT on 0 to 1. -/
  | garnetLinkEnWrite (f : Fun) (v : Word)
  /-- GARNET_ATLAS (R201). SETUP command that loads the Garnet atlas in two copies into the secure region. -/
  | garnetAtlas (q : RingId) (desc : Desc)
  /-- GARNET_PALETTE (R202). SETUP command that loads the 256-entry Garnet palette. -/
  | garnetPalette (q : RingId) (desc : Desc)
  /-- GARNET_WINDOW (R203). SETUP command that creates a Garnet window on a head as a Garnet route. -/
  | garnetWindow (q : RingId) (desc : Desc)
  /-- GARNET_SLOT (R204). SETUP command that defines, moves or deletes a Garnet slot. -/
  | garnetSlot (q : RingId) (desc : Desc)
  /-- GARNET_SCAN_FORCE (R210). GARNET_SCAN action that forces the Garnet scan to take over a head. -/
  | garnetScanForce (q : RingId) (desc : Desc)
  /-- GARNET_SCAN_RELEASE (R210). GARNET_SCAN action that returns the port to a clean head at its next frame start. -/
  | garnetScanRelease (q : RingId) (desc : Desc)
  /-- COMPOSER_HEARTBEAT_TIMEOUT (R209). No composer heartbeat for 20 µs fires the takeover detector. -/
  | composerHeartbeatTimeout (h : Nat)
  /-- GARNET_TAKEOVER (R209). A detector of Table 7.3 fires and the Garnet scan drives the head's port from the next pixel. -/
  | garnetTakeover (h cause line : Nat)
  /-- CAM_PORT_ENABLE (R219). CAM_PORT with EN 1 raises the floor, asks for leave and starts the D-PHY of a camera port. -/
  | camPortEnable (q : RingId) (desc : Desc)
  /-- CAM_PORT_DISABLE (R219). CAM_PORT with EN 0 stops the receiver at once and loses every stream of the port. -/
  | camPortDisable (q : RingId) (desc : Desc)
  /-- CAM_PORT_READY (R219). Every lane of an enabling port reaches the stop state, and DONE is posted. -/
  | camPortReady (port : Nat)
  /-- CAM_FRAME_START (R218). A CSI-2 Frame Start begins line count 0, advances STREAM_FRAME and applies route changes and capture buffers. -/
  | camFrameStart (port : Nat) (packet : ShortPacket)
  /-- CAM_LINE (R223). A camera long packet completes a line in the line store, with its errors handled. -/
  | camLine (port vc : Nat) (packet : CamPacket)
  /-- CAM_FRAME_END (R218). A Frame End closes a stream frame and completes its capture buffer. -/
  | camFrameEnd (port : Nat) (packet : ShortPacket)
  /-- CAM_STREAM_TIMEOUT (R226). No Frame Start for TIMEOUT_MS makes the stream lost and posts CAM_STREAM_LOST. -/
  | camStreamTimeout (port vc : Nat)
  /-- CAM_LANES_LOST (R226). A camera port loses its lanes, and every stream of the port becomes lost. -/
  | camLanesLost (port : Nat)
  /-- CAM_LANE_STATE (R237). A camera lane changes between stop state and ULPS, updating port status. -/
  | camLaneState (port : Nat) (clk : Bool) (hs ulps : Nat) (deskew : Bool)
  /-- CAM_PORT_CLEAR (R239). A write of CAM_PORT_CLR.CLEAR clears the port's and its streams' error counters. -/
  | camPortClear (f : Fun) (n : Nat) (v : Word)
  /-- CAP_BUFFER (R231). CAMERA opcode that posts one frame buffer for capture. -/
  | capBuffer (q : RingId) (desc : Desc)
  /-- WARP_MESH (R234). CAMERA opcode that loads and checks a warp mesh into the inactive bank. -/
  | warpMesh (q : RingId) (desc : Desc)
  /-- WARP_FRAME (R235). CAMERA opcode that gives a memory-frame warp input a new frame. -/
  | warpFrame (q : RingId) (desc : Desc)
  /-- RENDER_PASS (R243). GFX opcode that submits one render pass. -/
  | renderPass (q : RingId) (desc : Desc)
  /-- DISPATCH (R243). COMPUTE opcode that submits one compute dispatch. -/
  | dispatch (q : RingId) (desc : Desc)
  /-- DISPATCH_INDIRECT (R243). COMPUTE opcode that submits a dispatch whose group counts are read at start. -/
  | dispatchIndirect (q : RingId) (desc : Desc)
  /-- DRAW_NOP (R255). Draw packet NOP, which is skipped. -/
  | drawNop (d : Die)
  /-- PIPELINE (R257). Draw packet that binds a pipeline object after checking its shaders. -/
  | pipeline (d : Die)
  /-- RESOURCES (R255). Draw packet that binds a resource table. -/
  | resources (d : Die)
  /-- CONSTANTS (R258). Draw packet that writes constant words. -/
  | constants (d : Die)
  /-- VERTEX_BUFFERS (R255). Draw packet that sets vertex buffer bindings. -/
  | vertexBuffers (d : Die)
  /-- INDEX_BUFFER (R255). Draw packet that sets the index buffer. -/
  | indexBuffer (d : Die)
  /-- VIEWPORT (R255). Draw packet that sets the viewport and scissor. -/
  | viewport (d : Die)
  /-- DYNAMIC (R255). Draw packet that sets stencil references, line width, blend constant and biases. -/
  | dynamic (d : Die)
  /-- DRAW (R255). Draw packet that bins a non-indexed draw. -/
  | draw (d : Die) (out : DrawOut) (accesses : List ShaderAccess)
  /-- DRAW_INDEXED (R255). Draw packet that bins an indexed draw. -/
  | drawIndexed (d : Die) (out : DrawOut) (accesses : List ShaderAccess)
  /-- DRAW_INDIRECT (R255). Draw packet that reads and bins indirect draw records. -/
  | drawIndirect (d : Die) (out : DrawOut) (accesses : List ShaderAccess)
  /-- END (R266). Draw packet that ends the stream and starts the final render of every tile. -/
  | endStream (d : Die)
  /-- PARTIAL_RENDER_DONE (R266). A partial render has drawn and spilled its tiles, the pool is reclaimed and binning resumes. -/
  | partialRenderDone (d : Die) (shown : Shaded)
  /-- JOB_DONE (R245). A GPU pass or dispatch finishes and posts its DONE completion, with DEADLINE_MISSED if late. -/
  | jobDone (d : Die) (q : RingId) (obs : JobObs)
  /-- JOB_SCHEDULE (R274). Clusters become free or a job becomes ready, and the scheduler hands clusters out by effective priority. -/
  | jobSchedule (d : Die) (scrubBad : List Nat)
  /-- SLICE_EXPIRY (R279). A context has run for SLICE_US while an equal-rank job waits, and is asked to give way. -/
  | sliceExpiry (d : Die) (q : RingId)
  /-- PREEMPT_BOUNDARY (R281). A context reaches its pre-emption boundary, is saved, and the incoming context is restored. -/
  | preemptBoundary (d : Die) (q : RingId) (scrubBad : List Nat)
  /-- GRACE_EXPIRY (R282). GRACE_US passes without the dispatch reaching its boundary, so it is evicted or GPU_PREEMPT_SLOW follows. -/
  | graceExpiry (d : Die) (q : RingId) (abandoned oldestUs : Nat)
  /-- GPU_SHARE_WINDOW (R273). A 10 ms cluster-time window closes and GPU_FUNC_USE is updated. -/
  | gpuShareWindow (d : Die)
  /-- CLUSTER_IDLE_OFF (R281). A cluster idle for IDLE_OFF_US powers off unless KEEP_ON is set. -/
  | clusterIdleOff (d : Die) (c : Nat)
  /-- GPU_SAMPLE (R288). SETUP command that writes a record of the GPU performance counters. -/
  | gpuSample (q : RingId) (desc : Desc)
  /-- GPU_CTX_STORE_LOCK (R272). A write of GPU_CTX_STORE.LOCK places the context store and fills the die's context pool. -/
  | gpuCtxStoreLock (f : Fun) (v : Word)
  /-- GPU_PC_CLEAR (R289). A write of GPU_PC_CTRL.CLEAR clears every GPU counter and PREEMPT_MAX_US. -/
  | gpuPcClear (f : Fun) (v : Word)
  /-- MEM_REQUEST_SERVE (R301). A memory channel chooses and serves its next waiting request by class, urgency and the rules of R301. -/
  | memRequestServe (d : Die) (ch : Nat) (waiting : List MemReq) (errs : MemErrs)
  /-- AGE_PROMOTION (R303). A waiting request passes its port's AGE_LIMIT_US and is promoted a class. -/
  | agePromotion (d : Die) (port : Nat)
  /-- RD_WINDOW (R305). A 32 ms row-disturbance window ends and every activation count and throttle clears. -/
  | rdWindow (d : Die)
  /-- DRAM_SHARE_WINDOW (R304). A 1 ms bandwidth window closes and DRAM_FUNC_USE is updated. -/
  | dramShareWindow (d : Die)
  /-- DRAM_PATROL_SCRUB (R298). The patrol scrub reads the ECC regions, correcting words and poisoning uncorrectable ones. -/
  | dramPatrolScrub (d : Die) (corrected : List (Nat × Nat)) (uncorrectable : List Nat)
  /-- TRAIN_PERIODIC (R308). Every PERIOD_S seconds a periodic training pass begins over the channels. -/
  | trainPeriodic (d : Die)
  /-- TRAIN_STEP_START (R308). A training step closes its channel to gather samples, or is deferred 10 µs behind urgent traffic. -/
  | trainStepStart (d : Die) (waiting : List MemReq)
  /-- TRAIN_STEP_DONE (R308). A training step ends, and a finished type forms its result for the next refresh or posts TRAIN_FAIL. -/
  | trainStepDone (d : Die) (outside : Bool)
  /-- FSP_CHANGE (R309). A write of DRAM_FSP_CTRL with GO starts a change of frequency set-point. -/
  | fspChange (f : Fun) (v : Word)
  /-- FSP_DONE (R310). The set-point change completes, requests resume and FSP_DONE is posted. -/
  | fspDone (d : Die) (closureNs : Nat)
  /-- AUDIO_PORT (R321). SETUP command that enables or disables a TDM port. -/
  | audioPort (q : RingId) (desc : Desc)
  /-- AUDIO_PDM (R323). SETUP command that enables PDM microphones and sets their clock. -/
  | audioPdm (q : RingId) (desc : Desc)
  /-- AUDIO_BUS (R324). SETUP command that sets up a mix bus. -/
  | audioBus (q : RingId) (desc : Desc)
  /-- AUDIO_FX (R332). SETUP command that sets a bus's biquads, delay and limiter. -/
  | audioFx (q : RingId) (desc : Desc)
  /-- AUDIO_DUCK (R335). SETUP command from PF1 that sets the duck depth and times. -/
  | audioDuck (q : RingId) (desc : Desc)
  /-- AUDIO_TICK (R319). At each 0.5 ms tick the engine processes one block of 48 samples through every stage. -/
  | audioTick (obs : AudioObs)
  /-- AUDIO_CLOCK_LOSS (R322). A slave TDM port loses its frame sync or leaves the rate window, fades its inputs and posts AUDIO_CLOCK. -/
  | audioClockLoss (port : Nat)
  /-- AUDIO_CLOCK_BACK (R322). A lost slave port has 8 frames in window and relocks, posting AUDIO_CLOCK and ramping its inputs in. -/
  | audioClockBack (port rate : Nat)
  /-- PLAY_BUFFER (R337). AUDIO_PLAY opcode that queues a playback buffer. -/
  | playBuffer (q : RingId) (desc : Desc)
  /-- SET_GAIN (R336). AUDIO_PLAY opcode that sets a route's gain and mute. -/
  | setGain (q : RingId) (desc : Desc)
  /-- TONE (R336). AUDIO_PLAY opcode that sets a tone generator's wave, level and frequency. -/
  | tone (q : RingId) (desc : Desc)
  /-- AUDIO_CAP_BUFFER (R338). AUDIO_CAP opcode CAP_BUFFER that posts a capture buffer. -/
  | audioCapBuffer (q : RingId) (desc : Desc)
  /-- METER_SNAPSHOT (R338). AUDIO_CAP opcode that writes a 128-byte record of a bus's meters. -/
  | meterSnapshot (q : RingId) (desc : Desc)
  /-- HAPTIC_CHANNEL (R344). SETUP command that enables or disables a haptic channel. -/
  | hapticChannel (q : RingId) (desc : Desc)
  /-- PLAY (R348). HAPTIC opcode that plays an effect on a channel. -/
  | play (q : RingId) (desc : Desc)
  /-- STOP (R356). HAPTIC opcode that brakes the running effect and ends it with END 2. -/
  | stop (q : RingId) (desc : Desc)
  /-- LOAD (R356). HAPTIC opcode that loads or empties a RAM effect slot. -/
  | load (q : RingId) (desc : Desc)
  /-- ARM (R356). HAPTIC opcode that arms or disarms a trigger route's arm slot. -/
  | arm (q : RingId) (desc : Desc)
  /-- HTRIG_EDGE (R348). An edge on an HTRIG pin starts the armed effect of its trigger route, or is ignored or queued. -/
  | htrigEdge (d : Die) (pin : Nat) (level : Bool)
  /-- HAPTIC_CONTROL_PERIOD (R345). Every 125 µs the channel reads its motion, sets the drive and advances its effect, braking and protections. -/
  | hapticControlPeriod (ch : Nat) (obs : HapObs)
  /-- TOUCH_UNIT (R365). SETUP command that enables or disables a touch unit. -/
  | touchUnit (q : RingId) (desc : Desc)
  /-- TOUCH_SENSOR (R366). SETUP command that defines, replaces or deletes a sensor. -/
  | touchSensor (q : RingId) (desc : Desc)
  /-- TOUCH_REGION (R376). SETUP command that defines or deletes a touch region. -/
  | touchRegion (q : RingId) (desc : Desc)
  /-- TOUCH_I2C (R379). SETUP command that enables or disables an I²C touchscreen host port. -/
  | touchI2c (q : RingId) (desc : Desc)
  /-- TOUCH_REF_STORE (R372). TOUCH_REF action 0 that stores the present baselines as references. -/
  | touchRefStore (q : RingId) (desc : Desc)
  /-- TOUCH_REF_RELOAD (R372). TOUCH_REF action 1 that reloads baselines from references at the next scan. -/
  | touchRefReload (q : RingId) (desc : Desc)
  /-- TOUCH_REF_ERASE (R372). TOUCH_REF action 2 that erases the references. -/
  | touchRefErase (q : RingId) (desc : Desc)
  /-- TOUCH_SELFTEST (R384). SETUP command that stops scanning and tests each channel. -/
  | touchSelftest (q : RingId) (desc : Desc)
  /-- TOUCH_SELFTEST_DONE (R384). The self-test ends, writes its records and posts DONE with the failing count. -/
  | touchSelftestDone (d : Die) (counts : List (Nat × Nat × Nat))
  /-- TOUCH_SCAN (R363). A scan period ends and detection, positions, baselines and events of that scan are processed. -/
  | touchScan (d : Die) (obs : TouchObs)
  /-- TOUCH_LP_SCAN (R382). In PEARL a low-power scan of the ganged electrode ends and may request wake. -/
  | touchLpScan (d : Die) (count : Nat)
  /-- TSH_INT (R380). TSH_INT_p goes low and reads of the touchscreen controller begin. -/
  | tshInt (port : Nat)
  /-- TSH_READ (R380). A read of an I²C touchscreen controller starts by poll timer or interrupt. -/
  | tshRead (port : Nat)
  /-- TSH_READ_DONE (R380). A touchscreen read ends, and its contacts are routed or the failure is retried or marks the port lost. -/
  | tshReadDone (port : Nat) (reply : TshReply)
  /-- COPY (R395). COPY opcode that copies LEN bytes. -/
  | copy (q : RingId) (desc : Desc)
  /-- COPY_APPEND (R395). COPY opcode that copies data, runs the check and appends the result. -/
  | copyAppend (q : RingId) (desc : Desc)
  /-- COPY_CHECK (R395). COPY opcode that copies data, runs the check and compares the stored value. -/
  | copyCheck (q : RingId) (desc : Desc)
  /-- CRC_SCAN (R395). COPY opcode that runs a check over memory and may compare and record it. -/
  | crcScan (q : RingId) (desc : Desc)
  /-- CRC_GET (R395). COPY opcode that writes a check route's running value. -/
  | crcGet (q : RingId) (desc : Desc)
  /-- CRC_SET (R395). COPY opcode that sets a check route's running value. -/
  | crcSet (q : RingId) (desc : Desc)
  /-- CRC_ENGINE_SWITCH (R392). At a 4 KiB boundary a CRC engine chooses the next route to serve, completing finished descriptors. -/
  | crcEngineSwitch (engine : Nat)
  /-- COPY_ENGINE_SWITCH (R499). At a 4 KiB boundary the COPY engine chooses the next descriptor, completing finished ones. -/
  | copyEngineSwitch (d : Die)
  /-- POWER_STATE_PEARL (R407). POWER_STATE with STATE 1 starts entry to PEARL, or is held under a claim. -/
  | powerStatePearl (q : RingId) (desc : Desc)
  /-- POWER_STATE_ONYX (R410). POWER_STATE with STATE 2 starts entry to ONYX, or is held under a claim. -/
  | powerStateOnyx (q : RingId) (desc : Desc)
  /-- PEARL_ENTRY_COMPLETE (R407). Heads have stopped and memory has entered self-refresh, so units are gated and PEARL is reached. -/
  | pearlEntryComplete (d : Die)
  /-- ONYX_ENTRY_COMPLETE (R410). Entry steps are done, the snapshot is taken, completions are posted and the enables go low. -/
  | onyxEntryComplete
  /-- UNIT_POWER (R414). SETUP command that sets a unit's power policy. -/
  | unitPower (q : RingId) (desc : Desc)
  /-- WAKEN_LOW (R408). WAKEn held low for 10 µs in PEARL, or 100 µs in ONYX, starts a wake. -/
  | wakenLow (us : Nat)
  /-- WAKE_TIMER_REACHED (R408). Device time reaches WAKE_TIMER and wakes the device from PEARL. -/
  | wakeTimerReached (d : Die)
  /-- PEARL_EXIT (R409). A wake source fires, PWREN_FT rises and the floors are raised to leave PEARL. -/
  | pearlExit (d : Die)
  /-- FT_RAIL_SETTLED (R409). FT_RAIL_WAIT_US has passed and the frame tier asks for leave for its bulk refresh. -/
  | ftRailSettled (d : Die)
  /-- FT_BULK_REFRESH_DONE (R409). The bulk refresh ends, memory leaves self-refresh and FULL is reached with ring fetch resumed. -/
  | ftBulkRefreshDone (d : Die)
  /-- ONYX_WAKE (R411). WAKEn held low in ONYX raises PWREN_AON and starts a cold start. -/
  | onyxWake
  /-- PERMIT_REQUEST (R416). A unit asks the permit arbiter for leave, which is granted if it fits or queued. -/
  | permitRequest (d : Die)
  /-- PERMIT_HOLD_END (R417). A granted step's hold ends, the step is returned and waiting requests that fit are granted. -/
  | permitHoldEnd (d : Die) (kind : Nat)
  /-- PERMIT_AGED (R417). A waiting request reaches AGE_US and posts PERMIT_AGED. -/
  | permitAged (d : Die) (kind unit : Nat)
  /-- CLUSTER_GAP_EXPIRY (R418). CLUSTER_GAP_US passes and a waiting cluster activation that fits is granted. -/
  | clusterGapExpiry (d : Die)
  /-- PERMIT_RAIL_WRITE (R421). A write of PERMIT_RAIL sets a rail's budget and reserve, or is ignored if the reserve exceeds the budget. -/
  | permitRailWrite (f : Fun) (r : Nat) (v : Word)
  /-- POR (R422). The power-on reset asserts or releases, putting every domain in reset or starting the release order. -/
  | por (asserted : Bool)
  /-- RESETN_ASSERT (R425). RESETn goes low and every domain from step 2 onward enters reset. -/
  | resetnAssert
  /-- RESETN_RELEASE (R424). RESETn has stayed high for 16 REFCLK cycles, and the release order starts from step 2. -/
  | resetnRelease
  /-- DOMAIN_RELEASE (R423). A step's gap ends and the next reset domain in Table 17.1 is released. -/
  | domainRelease
  /-- ISLAND_RELEASE (R426). An island's PLL locks or its REFCLK delay passes, and 64 cycles later the island leaves reset. Islands are numbered by their place in Table 2.3. -/
  | islandRelease (d : Die) (island : Nat)
  /-- ISLAND_PLL_TIMEOUT (R427). An island's PLL has not locked 1 ms after it was due, so it stays in reset with CLOCK_NOT_STABLE. -/
  | islandPllTimeout (d : Die) (island : Nat)
  /-- FIRMWARE_START (R433). Accepted firmware runs, LIFE starts, PF1_ACCESS and configuration space are loaded and training begins. -/
  | firmwareStart (d : Die) (obs : BootObs)
  /-- PEER_BOOT_TIMEOUT (R432). The Ebrum link is not up 200 ms after step 3, so die B boots from its own flash or keeps waiting. -/
  | peerBootTimeout
  /-- TRAINING_READY (R433). Initial training passes on every channel, so READY sets and set-up space opens. `failed`: the channels that failed, as a mask. -/
  | trainingReady (d : Die) (failed : Nat)
  /-- PCIE_HOT_RESET (R434). A PCIe hot reset or link loss acts as an FLR of PF0 and a reset of PF1's rings. `lost`: the link was lost. -/
  | pcieHotReset (d : Die) (lost : Bool)
  /-- WATCHDOG_EXPIRY (R435). The watchdog times out, setting EXPIRED and driving WDOG_OUT low. -/
  | watchdogExpiry (d : Die)
  /-- LOCKSTEP_FAILURE (R435). The supervisor pair's lockstep compare fails, the pair halts and the watchdog fires. -/
  | lockstepFailure (d : Die)
  /-- BLOCK_RESET_ASSERT (R436). Setting a BLOCK_RESET bit puts the unit in reset, or is refused under an S claim. A write of BLOCK_RESET; `unstable`: units whose island clock is not stable, as a mask. -/
  | blockResetAssert (f : Fun) (v : Word) (unstable : Nat)
  /-- BLOCK_RESET_RELEASE (R438). Clearing a BLOCK_RESET bit releases the unit after 64 cycles once its island clock is stable. -/
  | blockResetRelease (f : Fun) (v : Word) (unstable : Nat)
  /-- BLOCK_RELEASE_TIMEOUT (R438). No lock 1 ms after a block release, so the unit stays in reset with CLOCK_NOT_STABLE. -/
  | blockReleaseTimeout (d : Die) (bit : Nat)
  /-- BLOCK_QUIESCE (R439). Setting a BLOCK_QUIESCE bit stops the unit taking new work. -/
  | blockQuiesce (f : Fun) (v : Word)
  /-- BLOCK_QUIESCED (R439). No request of a quiesced unit is left in flight, so its BLOCK_QUIESCED bit sets. -/
  | blockQuiesced (d : Die) (bit : Nat)
  /-- EBRUM_FLIT_REPLAY (R444). A flit with a CRC error or sequence gap is refused and the sender replays from it. -/
  | ebrumFlitReplay (d : Die) (bundle flits : Nat)
  /-- EBRUM_LANE_FAIL (R445). A receive lane fails and a spare replaces it, or the bundle goes DOWN. -/
  | ebrumLaneFail (d : Die) (bundle lane : Nat)
  /-- EBRUM_REMAP_DONE (R445). A lane remap completes and replay and new traffic resume on the bundle. -/
  | ebrumRemapDone (bundle : Nat)
  /-- EBRUM_HEALTH_CHECK (R450). Every 10 µs each die checks heartbeats and health lines for main-link loss and split causes. -/
  | ebrumHealthCheck (d : Die) (obs : HealthObs)
  /-- EBRUM_SIDEBAND_MSG (R447). A sideband message or heartbeat arrives from the peer die. -/
  | ebrumSidebandMsg (d : Die) (msg : SbMsg)
  /-- LINK_RETRAIN (R452). SETUP command that retrains and tests named Ebrum bundles. -/
  | linkRetrain (q : RingId) (desc : Desc)
  /-- LINK_RETRAIN_DONE (R452). Retraining and testing of the named bundles end, and DONE and EBRUM_TEST are posted. -/
  | linkRetrainDone (d : Die) (passed lanes : Nat)
  /-- REJOIN (R453). SETUP command that asks to rejoin the dies and is held until the peer also asks. -/
  | rejoin (q : RingId) (desc : Desc)
  /-- REJOIN_TIMEOUT (R453). The peer's REJOIN has not arrived within 1 s, so the request completes with TIMEOUT. -/
  | rejoinTimeout (d : Die)
  /-- REJOIN_DONE (R453). Both dies have aligned time and pool sums, so PEER_LOST clears and REJOIN is posted. -/
  | rejoinDone
  /-- LT_START (R459). A write of LT_CTRL.START starts or arms a link test unit if its link is free. -/
  | ltStart (f : Fun) (u : Nat) (v : Word) (obs : LtObs)
  /-- LT_STOP (R462). A write of LT_CTRL.STOP ends a running test with cause 1. -/
  | ltStop (f : Fun) (u : Nat) (v : Word) (obs : LtObs)
  /-- LINK_TEST_END (R462). A test's DURATION_MS passes, or PEARL or a block reset ends it, and LINK_TEST_DONE is posted. -/
  | linkTestEnd (d : Die) (u : Nat) (obs : LtObs)
  /-- LT_PCIE_RUN (R463). An armed PCIe test runs when the link next leaves L0 for Detect. -/
  | ltPcieRun (d : Die)
  /-- LT_EYE_GO (R464). A write of LT_EYE_CTRL.GO measures one eye-scan point. -/
  | ltEyeGo (f : Fun) (v : Word)
  /-- LT_EYE_DONE (R464). An eye-scan point ends after its dwell and DONE sets with its error count. -/
  | ltEyeDone (d : Die) (errors : Nat)
  /-- LANE_MARGINING (R465). A PCIe lane margining command from the host is carried out with the eye-scan sampler. -/
  | laneMargining (d : Die) (lane : Nat) (step : Nat)
  /-- RINLAR_PERIODIC (R469). Every 600 s in FULL and PEARL a periodic snapshot is taken. -/
  | rinlarPeriodic (d : Die)
  /-- PWRFAIL (R469). PWRFAIL_n falls and stays low 1 µs, and a power-fail snapshot is taken. -/
  | pwrfail
  /-- RINLAR_SNAP (R469). A write of RINLAR_CTRL.SNAP requests a snapshot of cause 4, rate-limited to one per 10 s. -/
  | rinlarSnap (f : Fun) (v : Word)
  /-- RINLAR_SNAPSHOT_DONE (R472). A snapshot is written and read back, and a slot that fails twice is retired. -/
  | rinlarSnapshotDone (d : Die) (badReads : Nat)
  /-- RINLAR_SECOND (R474). Once per second each histogram adds one to its bin. -/
  | rinlarSecond (d : Die) (tj : Int)
  /-- RINLAR_LATCH (R476). A write of RINLAR_CTRL.LATCH copies an image into the readout buffer and sets LATCH_DONE. -/
  | rinlarLatch (f : Fun) (v : Word)
  /-- THERMTRIP (R492). A junction sensor reaches 125 °C and THERMTRIP_n is driven low until the next POR. -/
  | thermtrip (d : Die)
  /-- LIFE_TOGGLE (R487). Every 500 µs while the supervisor runs, LIFE changes level. -/
  | lifeToggle (d : Die)
  /-- DSI_READ_RESPONSE (R140). A DSI read response arrives from the panel after a DSI_CMD with READ, and the command completes with the bytes received. -/
  | dsiReadResponse (port : Nat) (bytes : List Byte)
  /-- DRAM_REFRESH (R308). A channel's refresh is issued ahead of every request, and a pending training result is applied at it. -/
  | dramRefresh (d : Die) (ch : Nat)
  /-- MAIN_LINK_BACK (R449). A bundle passes its automatic retraining after a main-link loss, the link is back, EBRUM_MAIN is posted and held requests proceed. -/
  | mainLinkBack (bundle : Nat)
  /-- FORWARDED_CLOCK_LOSS (R446). A bundle loses its forwarded clock and goes DOWN, its unacknowledged flits replayed on the lowest remaining UP bundle. -/
  | forwardedClockLoss (d : Die) (bundle : Nat)
  /-- CHECKER_LOCK (R461). A link-test checker lane locks on its pattern, or loses lock after 32 errors in 64 bits and advances RELOCKS. -/
  | checkerLock (d : Die) (u lane : Nat) (lock : Bool) (obs : LtObs)
  /-- VSTBY_RISE (R423). VSTBY rises and resets the wake logic and WAKE_CAUSE. -/
  | vstbyRise
  /-- MSIX_VECTOR_UNMASK (R53). The host clears a vector's mask bit in the BAR2 MSI-X table, and a pending message is sent. -/
  | msixVectorUnmask (f : Fun) (vec : Nat)
deriving DecidableEq, Repr

end Sys2Proof
end

