-- ==== Sys2Proof/Config.lean ====
section
/-! DEFINITION. What the manual leaves open: values that every claim must hold for. -/
namespace Sys2Proof

/-- The free values: the n-th value the machine needs where the manual names none. It has no body, so nothing can be proved
of it; State.free counts the uses (notes/assumptions/2.md). -/
opaque Config.freeValue : Nat → BitVec 64

/-- A number in a format that cannot hold it exactly, by format code and FP32 word: the manual states no rounding
(notes/assumptions/12.md). -/
opaque Config.narrow : Nat → Nat → BitVec 32

/-- Whether num/den is rounded up where the manual states no rounding (notes/assumptions/16.md). -/
opaque Config.roundsUp : Int → Nat → Bool

/-- A sample times 10^(G/2,000) for G = num/den, as the engine rounds it (notes/assumptions/16.md). -/
opaque Config.gained : Int → Nat → Int → Int

/-- 2,000 · log10(num/den) without its fraction (notes/assumptions/16.md). -/
opaque Config.logCb : Nat → Nat → Int

/-- The running mean square of the RMS meter: time constant in ms, the value before, the samples since (notes/assumptions/16.md). -/
opaque Config.meanSquare : Nat → Nat → List Int → Nat

/-- The square root that the RMS meter reports (notes/assumptions/16.md). -/
opaque Config.rootOf : Nat → Nat

/-- The set of the system cache that a 64-byte line falls to: the manual states no index (notes/assumptions/95.md). -/
opaque Config.cacheSet : Nat → Nat

end Sys2Proof
end

