-- ==== Sys2Proof/Machine/Regs.lean ====
section
/-! DEFINITION. The set-up registers of the QX8: the address and the fields of every register entry of the manual, and
the table of their reset domains, world access, reset words and access masks. An address is the number of the BAR0 space
times 2²⁶ plus the BAR0 offset (R494): space 0 is die A's BAR0, 1 is die B's, 2 and 3 hold what PF1 of die A and of
die B sees of its own (R91, R126, R495). -/
namespace Sys2Proof

def Die.idx : Die → Nat
  | .a => 0
  | .b => 1

def Die.other : Die → Die
  | .a => .b
  | .b => .a

/-- Die of a device-wide number, `per` units on each die (R7). -/
def dieOf (per n : Nat) : Die := if n < per then .a else .b

def isPf1 (f : Fun) : Bool := f.fn == 63

/-- Level of a function (R107). -/
def Fun.level (f : Fun) : Level := if f.fn = 63 then .s else if f.fn = 0 then .h else .n

def pf0 (d : Die) : Fun := ⟨d, 0⟩

def pf1 (d : Die) : Fun := ⟨d, 63⟩

/-- A key for the tables that hold something per function. -/
def Fun.key (f : Fun) : Nat := f.ep.idx * 64 + f.fn

def RingId.key (q : RingId) : Nat := q.fn.key * 16 + q.ring

/-- Slot of a function in its register blocks: PF1 has slot 0 of its own space (R91, R126). -/
def Fun.slot (f : Fun) : Nat := if f.fn = 63 then 0 else f.fn

def dieSpace (d : Die) : Nat := 0x4000000 * d.idx

def fnSpace (f : Fun) : Nat := 0x4000000 * (f.ep.idx + (if f.fn = 63 then 2 else 0))

/-- The die whose space holds an address. -/
def addrDie (a : Nat) : Die := if a / 0x4000000 % 2 = 0 then .a else .b

/-- BAR0 offset of an address. -/
def addrOff (a : Nat) : Nat := a % 0x4000000

/-- The reset domains: the steps of Table 17.1, and VSTBY outside it. -/
inductive Domain where
  | vstby | alwaysOn | rinlar | supervisor | fabric | memory | frameTier | ebrum | pcie | heads | composer | camera | gpu
  | audio | haptic | touch
deriving DecidableEq, Repr

/-- One register entry: BAR0 offset, two index counts and strides, reset domain, world access (S, H), reset word,
masks of its RW, W1C and W1P bits, and whether it is the low (1) or high (2) half of a 64-bit pair. A reset value that the
manual gives per part, die or variant stands in `specialReset`. -/
structure RegRow where
  off : Nat
  n1 : Nat
  s1 : Nat
  n2 : Nat
  s2 : Nat
  dom : Domain
  s : Bool
  h : Bool
  rst : Nat
  rw : Nat
  w1c : Nat
  w1p : Nat
  pair : Nat
deriving DecidableEq, Repr

/-- PACE_STATUS · 0x0000 · fabric · S, H (R50). -/
def PACE_STATUS (d : Die) : Nat := dieSpace d + 0x200000
def PACE_STATUS_TARGET_EFF : Fld := ⟨16, 16⟩
def PACE_STATUS_PACE : Fld := ⟨0, 16⟩
/-- PACE_FLOOR · 0x0004 · fabric · S, H (R50). -/
def PACE_FLOOR (d : Die) : Nat := dieSpace d + 0x200004
def PACE_FLOOR_RAISING : Fld := ⟨20, 1⟩
def PACE_FLOOR_DOMINANT : Fld := ⟨17, 3⟩
def PACE_FLOOR_SHORTFALL : Fld := ⟨16, 1⟩
def PACE_FLOOR_FLOOR : Fld := ⟨0, 16⟩
/-- PACE_TARGET · 0x0008 · fabric · S, H (R50). -/
def PACE_TARGET (d : Die) : Nat := dieSpace d + 0x200008
def PACE_TARGET_TARGET : Fld := ⟨0, 16⟩
/-- PACE_MARGIN · 0x000C · fabric · S, H (R50). -/
def PACE_MARGIN (d : Die) : Nat := dieSpace d + 0x20000C
def PACE_MARGIN_HYST : Fld := ⟨8, 8⟩
def PACE_MARGIN_MARGIN : Fld := ⟨0, 8⟩
/-- PACE_LOOP_CTRL · 0x0010 · fabric · S, H (R50). -/
def PACE_LOOP_CTRL (d : Die) : Nat := dieSpace d + 0x200010
def PACE_LOOP_CTRL_STEP_DOWN_MV : Fld := ⟨16, 8⟩
def PACE_LOOP_CTRL_STEP_UP_MV : Fld := ⟨8, 8⟩
def PACE_LOOP_CTRL_EV_AVS_FAULT : Fld := ⟨2, 1⟩
def PACE_LOOP_CTRL_EV_SHORTFALL : Fld := ⟨1, 1⟩
def PACE_LOOP_CTRL_LOOP_EN : Fld := ⟨0, 1⟩
/-- PACE_MANUAL · 0x0014 · fabric · S, H (R50). -/
def PACE_MANUAL (d : Die) : Nat := dieSpace d + 0x200014
def PACE_MANUAL_MV : Fld := ⟨0, 16⟩
/-- AVS_CTRL · 0x0020 · fabric · S, H (R50). -/
def AVS_CTRL (d : Die) : Nat := dieSpace d + 0x200020
def AVS_CTRL_READBACK_EN : Fld := ⟨16, 1⟩
def AVS_CTRL_CLK_DIV : Fld := ⟨8, 4⟩
def AVS_CTRL_RAIL_SEL : Fld := ⟨0, 4⟩
/-- AVS_LIMITS · 0x0024 · fabric · S, H (R50). -/
def AVS_LIMITS (d : Die) : Nat := dieSpace d + 0x200024
def AVS_LIMITS_VMAX_MV : Fld := ⟨16, 16⟩
def AVS_LIMITS_VMIN_MV : Fld := ⟨0, 16⟩
/-- AVS_STATUS · 0x0028 · fabric · S, H (R51). -/
def AVS_STATUS (d : Die) : Nat := dieSpace d + 0x200028
def AVS_STATUS_RETRIES : Fld := ⟨24, 8⟩
def AVS_STATUS_ALERT : Fld := ⟨17, 1⟩
def AVS_STATUS_AVS_FAULT : Fld := ⟨16, 1⟩
def AVS_STATUS_VOUT_MV : Fld := ⟨0, 16⟩
/-- AVS_READBACK · 0x002C · fabric · S, H (R51). -/
def AVS_READBACK (d : Die) : Nat := dieSpace d + 0x20002C
def AVS_READBACK_VREAD_MV : Fld := ⟨0, 16⟩
/-- XING_CFG[n] · 0x1000 + 0x10 × n · fabric · S, H (R51). -/
def XING_CFG (d : Die) (n : Nat) : Nat := dieSpace d + 0x201000 + 0x10 * n
def XING_CFG_PRESENT : Fld := ⟨2, 1⟩
def XING_CFG_KIND : Fld := ⟨1, 1⟩
def XING_CFG_MODE : Fld := ⟨0, 1⟩
/-- XING_STATUS[n] · 0x1004 + 0x10 × n · fabric · S, H (R51). -/
def XING_STATUS (d : Die) (n : Nat) : Nat := dieSpace d + 0x201004 + 0x10 * n
def XING_STATUS_OVERRUN_COUNT : Fld := ⟨16, 16⟩
def XING_STATUS_OUTSTANDING : Fld := ⟨4, 1⟩
def XING_STATUS_COUNT_SAT : Fld := ⟨3, 1⟩
def XING_STATUS_OVERRUN : Fld := ⟨2, 1⟩
def XING_STATUS_STALLED : Fld := ⟨1, 1⟩
def XING_STATUS_PEER_RESET : Fld := ⟨0, 1⟩
/-- XING_COUNT[n] · 0x1008 + 0x10 × n · fabric · S, H (R51). -/
def XING_COUNT (d : Die) (n : Nat) : Nat := dieSpace d + 0x201008 + 0x10 * n
def XING_COUNT_LAST_COUNT : Fld := ⟨0, 16⟩
/-- XING_DROPPED[n] · 0x100C + 0x10 × n · fabric · S, H (R51). -/
def XING_DROPPED (d : Die) (n : Nat) : Nat := dieSpace d + 0x20100C + 0x10 * n
def XING_DROPPED_DROPPED_ON_PEER_RESET : Fld := ⟨0, 32⟩
/-- RING_BASE_LO · +0x00 · PCIe · H (S in PF1) (R91). -/
def RING_BASE_LO (q : RingId) : Nat := fnSpace q.fn + 0x310000 + 0x800 * q.fn.slot + 0x40 * q.ring
def RING_BASE_LO_BASE : Fld := ⟨12, 20⟩
/-- RING_BASE_HI · +0x04 · PCIe · H (S in PF1) (R91). -/
def RING_BASE_HI (q : RingId) : Nat := fnSpace q.fn + 0x310004 + 0x800 * q.fn.slot + 0x40 * q.ring
def RING_BASE_HI_BASE : Fld := ⟨0, 16⟩
/-- RING_CFG · +0x08 · PCIe · H (S in PF1) (R91). -/
def RING_CFG (q : RingId) : Nat := fnSpace q.fn + 0x310008 + 0x800 * q.fn.slot + 0x40 * q.ring
def RING_CFG_CQ : Fld := ⟨16, 4⟩
def RING_CFG_EVICTABLE : Fld := ⟨15, 1⟩
def RING_CFG_PRIORITY : Fld := ⟨12, 3⟩
def RING_CFG_QTYPE : Fld := ⟨8, 4⟩
def RING_CFG_SIZE_LOG2 : Fld := ⟨0, 5⟩
/-- RING_INT · +0x0C · PCIe · H (S in PF1) (R91). -/
def RING_INT (q : RingId) : Nat := fnSpace q.fn + 0x31000C + 0x800 * q.fn.slot + 0x40 * q.ring
def RING_INT_INT_EN : Fld := ⟨31, 1⟩
def RING_INT_DELAY_US : Fld := ⟨16, 10⟩
def RING_INT_BATCH_M1 : Fld := ⟨8, 6⟩
def RING_INT_VECTOR : Fld := ⟨0, 6⟩
/-- RING_SHADOW_LO · +0x10 and RING_SHADOW_HI · +0x14 · PCIe · H (S in PF1) (R91). -/
def RING_SHADOW_LO (q : RingId) : Nat := fnSpace q.fn + 0x310010 + 0x800 * q.fn.slot + 0x40 * q.ring
def RING_SHADOW_LO_ADDR : Fld := ⟨3, 29⟩
/-- RING_SHADOW_LO · +0x10 and RING_SHADOW_HI · +0x14 · PCIe · H (S in PF1) (R91). -/
def RING_SHADOW_HI (q : RingId) : Nat := fnSpace q.fn + 0x310014 + 0x800 * q.fn.slot + 0x40 * q.ring
def RING_SHADOW_HI_ADDR : Fld := ⟨0, 16⟩
/-- RING_FENCE_LO · +0x18 and RING_FENCE_HI · +0x1C · PCIe · H (S in PF1) (R91). -/
def RING_FENCE_LO (q : RingId) : Nat := fnSpace q.fn + 0x310018 + 0x800 * q.fn.slot + 0x40 * q.ring
def RING_FENCE_LO_ADDR : Fld := ⟨3, 29⟩
/-- RING_FENCE_LO · +0x18 and RING_FENCE_HI · +0x1C · PCIe · H (S in PF1) (R91). -/
def RING_FENCE_HI (q : RingId) : Nat := fnSpace q.fn + 0x31001C + 0x800 * q.fn.slot + 0x40 * q.ring
def RING_FENCE_HI_ADDR : Fld := ⟨0, 16⟩
/-- RING_FENCE_COUNT_LO · +0x20 and RING_FENCE_COUNT_HI · +0x24 · PCIe · H (S in PF1) (R91). -/
def RING_FENCE_COUNT_LO (q : RingId) : Nat := fnSpace q.fn + 0x310020 + 0x800 * q.fn.slot + 0x40 * q.ring
def RING_FENCE_COUNT_LO_COUNT : Fld := ⟨0, 32⟩
/-- RING_FENCE_COUNT_LO · +0x20 and RING_FENCE_COUNT_HI · +0x24 · PCIe · H (S in PF1) (R91). -/
def RING_FENCE_COUNT_HI (q : RingId) : Nat := fnSpace q.fn + 0x310024 + 0x800 * q.fn.slot + 0x40 * q.ring
def RING_FENCE_COUNT_HI_COUNT : Fld := ⟨0, 32⟩
/-- RING_PRODUCER · +0x28 · PCIe · H (S in PF1) (R91). -/
def RING_PRODUCER (q : RingId) : Nat := fnSpace q.fn + 0x310028 + 0x800 * q.fn.slot + 0x40 * q.ring
def RING_PRODUCER_INDEX : Fld := ⟨0, 32⟩
/-- RING_CONSUMER · +0x2C · PCIe · H (S in PF1) (R91). -/
def RING_CONSUMER (q : RingId) : Nat := fnSpace q.fn + 0x31002C + 0x800 * q.fn.slot + 0x40 * q.ring
def RING_CONSUMER_INDEX : Fld := ⟨0, 32⟩
/-- RING_STATUS · +0x30 · PCIe · H (S in PF1) (R91). -/
def RING_STATUS (q : RingId) : Nat := fnSpace q.fn + 0x310030 + 0x800 * q.fn.slot + 0x40 * q.ring
def RING_STATUS_CFG_ERR : Fld := ⟨8, 8⟩
def RING_STATUS_FENCE_FAULT : Fld := ⟨7, 1⟩
def RING_STATUS_ENTRY_FAULT : Fld := ⟨6, 1⟩
def RING_STATUS_FETCH_FAULT : Fld := ⟨5, 1⟩
def RING_STATUS_SHADOW_FAULT : Fld := ⟨4, 1⟩
def RING_STATUS_DB_BAD : Fld := ⟨3, 1⟩
def RING_STATUS_CQ_FULL : Fld := ⟨2, 1⟩
def RING_STATUS_STATE : Fld := ⟨0, 2⟩
/-- FUNC_STATUS · +0x400 · PCIe · H (S in PF1) (R91). -/
def FUNC_STATUS (f : Fun) : Nat := fnSpace f + 0x310400 + 0x800 * f.slot
def FUNC_STATUS_PEER_LOST : Fld := ⟨2, 1⟩
def FUNC_STATUS_FLR_ACTIVE : Fld := ⟨1, 1⟩
def FUNC_STATUS_FROZEN : Fld := ⟨0, 1⟩
/-- FUNC_EVENTS_LOST · +0x404 · PCIe · H (S in PF1) (R91). -/
def FUNC_EVENTS_LOST (f : Fun) : Nat := fnSpace f + 0x310404 + 0x800 * f.slot
def FUNC_EVENTS_LOST_COUNT : Fld := ⟨0, 32⟩
/-- FUNC_DB_DROPPED · +0x408 · PCIe · H (S in PF1) (R91). -/
def FUNC_DB_DROPPED (f : Fun) : Nat := fnSpace f + 0x310408 + 0x800 * f.slot
def FUNC_DB_DROPPED_COUNT : Fld := ⟨0, 32⟩
/-- CARVE_BASE · 0x0000 · memory · S (R126). -/
def CARVE_BASE (d : Die) : Nat := dieSpace d + 0x400000
def CARVE_BASE_BASE_2M : Fld := ⟨0, 14⟩
/-- CARVE_SIZE · 0x0004 · memory · S (R126). -/
def CARVE_SIZE (d : Die) : Nat := dieSpace d + 0x400004
def CARVE_SIZE_LOCK : Fld := ⟨31, 1⟩
def CARVE_SIZE_SIZE_2M : Fld := ⟨0, 14⟩
/-- CACHE_S_WAYS · 0x0008 · memory · S (R126). -/
def CACHE_S_WAYS (d : Die) : Nat := dieSpace d + 0x400008
def CACHE_S_WAYS_S_MASK : Fld := ⟨0, 16⟩
/-- CACHE_N_WAYS · 0x000C · memory · S, H (R126). -/
def CACHE_N_WAYS (d : Die) : Nat := dieSpace d + 0x40000C
def CACHE_N_WAYS_OPAL_MASK : Fld := ⟨0, 16⟩
/-- CLAIM_STATUS · 0x0010 · fabric · S, H (R126). -/
def CLAIM_STATUS (d : Die) : Nat := dieSpace d + 0x400010
def CLAIM_STATUS_DEVICE : Fld := ⟨28, 1⟩
def CLAIM_STATUS_CLUSTER : Fld := ⟨20, 8⟩
def CLAIM_STATUS_CRC : Fld := ⟨16, 4⟩
def CLAIM_STATUS_TOUCH : Fld := ⟨15, 1⟩
def CLAIM_STATUS_HAPTIC : Fld := ⟨11, 4⟩
def CLAIM_STATUS_AUDIO : Fld := ⟨10, 1⟩
def CLAIM_STATUS_WARP : Fld := ⟨9, 1⟩
def CLAIM_STATUS_CAMERA : Fld := ⟨5, 4⟩
def CLAIM_STATUS_COMPOSER : Fld := ⟨4, 1⟩
def CLAIM_STATUS_HEAD : Fld := ⟨0, 4⟩
/-- VOTE_PENDING · 0x0014 · fabric · S, H (R126). -/
def VOTE_PENDING (d : Die) : Nat := dieSpace d + 0x400014
def VOTE_PENDING_VOTES : Fld := ⟨0, 29⟩
/-- DEBUG_STATUS · 0x0018 · supervisor · S, H (R126). -/
def DEBUG_STATUS (d : Die) : Nat := dieSpace d + 0x400018
def DEBUG_STATUS_CHALLENGE_OPEN : Fld := ⟨8, 1⟩
def DEBUG_STATUS_ENABLED : Fld := ⟨4, 4⟩
def DEBUG_STATUS_FUSED_OFF : Fld := ⟨0, 4⟩
/-- PF1_ACCESS · 0x001C · supervisor · S (R126). -/
def PF1_ACCESS (d : Die) : Nat := dieSpace d + 0x40001C
def PF1_ACCESS_LOADED : Fld := ⟨16, 1⟩
def PF1_ACCESS_IDE_STREAM : Fld := ⟨8, 8⟩
def PF1_ACCESS_IDE_REQUIRED : Fld := ⟨0, 1⟩
/-- PF1_REJECTED · 0x0020 · PCIe · S (R126). -/
def PF1_REJECTED (d : Die) : Nat := dieSpace d + 0x400020
def PF1_REJECTED_COUNT : Fld := ⟨0, 32⟩
/-- PF1_REQID[i] · 0x0030 + 4 × i, i = 0–3 · supervisor · S (R126). -/
def PF1_REQID (d : Die) (i : Nat) : Nat := dieSpace d + 0x400030 + 0x4 * i
def PF1_REQID_VALID : Fld := ⟨31, 1⟩
def PF1_REQID_RID : Fld := ⟨0, 16⟩
/-- MMU_INV_ADDR_LO · 0x0040 and MMU_INV_ADDR_HI · 0x0044 · PCIe · S, H (R126). -/
def MMU_INV_ADDR_LO (d : Die) : Nat := dieSpace d + 0x400040
def MMU_INV_ADDR_LO_ADDR : Fld := ⟨12, 20⟩
/-- MMU_INV_ADDR_LO · 0x0040 and MMU_INV_ADDR_HI · 0x0044 · PCIe · S, H (R126). -/
def MMU_INV_ADDR_HI (d : Die) : Nat := dieSpace d + 0x400044
def MMU_INV_ADDR_HI_ADDR : Fld := ⟨0, 16⟩
/-- MMU_INV_CTRL · 0x0048 · PCIe · S, H (R126). -/
def MMU_INV_CTRL (d : Die) : Nat := dieSpace d + 0x400048
def MMU_INV_CTRL_BUSY : Fld := ⟨31, 1⟩
def MMU_INV_CTRL_GO : Fld := ⟨30, 1⟩
def MMU_INV_CTRL_STAGE : Fld := ⟨28, 2⟩
def MMU_INV_CTRL_ALL : Fld := ⟨27, 1⟩
def MMU_INV_CTRL_FUNC : Fld := ⟨20, 6⟩
def MMU_INV_CTRL_PAGES : Fld := ⟨0, 20⟩
/-- TENANT_CFG · 0x1000 + 0x40 × F · PCIe · S, H (R127). -/
def TENANT_CFG (f : Fun) : Nat := fnSpace f + 0x401000 + 0x40 * f.slot
def TENANT_CFG_CREATED : Fld := ⟨31, 1⟩
def TENANT_CFG_FROZEN : Fld := ⟨30, 1⟩
def TENANT_CFG_FLR_ACTIVE : Fld := ⟨29, 1⟩
def TENANT_CFG_CLASS : Fld := ⟨24, 2⟩
def TENANT_CFG_GPU_DIE : Fld := ⟨23, 1⟩
def TENANT_CFG_GPU_CTX : Fld := ⟨16, 5⟩
def TENANT_CFG_GPU_SHARE : Fld := ⟨8, 8⟩
def TENANT_CFG_DRAM_SHARE : Fld := ⟨0, 8⟩
/-- XLATE_CTRL · +0x04 · PCIe · S, H (R127). -/
def XLATE_CTRL (f : Fun) : Nat := fnSpace f + 0x401004 + 0x40 * f.slot
def XLATE_CTRL_S2_EN : Fld := ⟨1, 1⟩
def XLATE_CTRL_S1_EN : Fld := ⟨0, 1⟩
/-- S1_ROOT_LO · +0x08 and S1_ROOT_HI · +0x0C · PCIe · S, H (R127). -/
def S1_ROOT_LO (f : Fun) : Nat := fnSpace f + 0x401008 + 0x40 * f.slot
def S1_ROOT_LO_ADDR : Fld := ⟨12, 20⟩
/-- S1_ROOT_LO · +0x08 and S1_ROOT_HI · +0x0C · PCIe · S, H (R127). -/
def S1_ROOT_HI (f : Fun) : Nat := fnSpace f + 0x40100C + 0x40 * f.slot
def S1_ROOT_HI_ADDR : Fld := ⟨0, 16⟩
/-- S2_ROOT_LO · +0x10 and S2_ROOT_HI · +0x14 · PCIe · S, H (R127). -/
def S2_ROOT_LO (f : Fun) : Nat := fnSpace f + 0x401010 + 0x40 * f.slot
def S2_ROOT_LO_ADDR : Fld := ⟨12, 20⟩
def S2_ROOT_LO_LOCAL : Fld := ⟨0, 1⟩
/-- S2_ROOT_LO · +0x10 and S2_ROOT_HI · +0x14 · PCIe · S, H (R127). -/
def S2_ROOT_HI (f : Fun) : Nat := fnSpace f + 0x401014 + 0x40 * f.slot
def S2_ROOT_HI_ADDR : Fld := ⟨0, 20⟩
/-- FAULT_INFO · +0x18 · PCIe · S, H (R128). -/
def FAULT_INFO (f : Fun) : Nat := fnSpace f + 0x401018 + 0x40 * f.slot
def FAULT_INFO_VALID : Fld := ⟨31, 1⟩
def FAULT_INFO_MULTI : Fld := ⟨30, 1⟩
def FAULT_INFO_DETAIL : Fld := ⟨0, 24⟩
/-- FAULT_ADDR_LO · +0x1C and FAULT_ADDR_HI · +0x20 · PCIe · S, H (R128). -/
def FAULT_ADDR_LO (f : Fun) : Nat := fnSpace f + 0x40101C + 0x40 * f.slot
def FAULT_ADDR_LO_ADDR : Fld := ⟨0, 32⟩
/-- FAULT_ADDR_LO · +0x1C and FAULT_ADDR_HI · +0x20 · PCIe · S, H (R128). -/
def FAULT_ADDR_HI (f : Fun) : Nat := fnSpace f + 0x401020 + 0x40 * f.slot
def FAULT_ADDR_HI_ADDR : Fld := ⟨0, 16⟩
/-- FLR_CTRL · +0x24 · PCIe · H (R128). -/
def FLR_CTRL (f : Fun) : Nat := fnSpace f + 0x401024 + 0x40 * f.slot
def FLR_CTRL_FLR : Fld := ⟨0, 1⟩
/-- PIN_ATTR[PIN] · 0x4000 + 4 × PIN · fabric · S, H (R128). -/
def PIN_ATTR (d : Die) (pin : Nat) : Nat := dieSpace d + 0x404000 + 0x4 * pin
def PIN_ATTR_ASSIGNED : Fld := ⟨31, 1⟩
def PIN_ATTR_WORLD : Fld := ⟨30, 1⟩
def PIN_ATTR_FIXED : Fld := ⟨29, 1⟩
def PIN_ATTR_OWNER : Fld := ⟨0, 6⟩
/-- HEAD_CFG · 0x0000 · heads · S, H (R159). -/
def HEAD_CFG (d : Die) (n : Nat) : Nat := dieSpace d + 0x800000 + 0x10000 * n
def HEAD_CFG_ENABLED : Fld := ⟨31, 1⟩
def HEAD_CFG_MODE : Fld := ⟨30, 1⟩
def HEAD_CFG_STORE_FMT : Fld := ⟨29, 1⟩
def HEAD_CFG_STREAM : Fld := ⟨28, 1⟩
def HEAD_CFG_PORT : Fld := ⟨26, 2⟩
def HEAD_CFG_LOOKAHEAD_M1 : Fld := ⟨23, 3⟩
def HEAD_CFG_MODE_PENDING : Fld := ⟨0, 1⟩
/-- HEAD_PCLK · 0x0004 · heads · S, H (R159). -/
def HEAD_PCLK (d : Die) (n : Nat) : Nat := dieSpace d + 0x800004 + 0x10000 * n
def HEAD_PCLK_PIXCLK_KHZ : Fld := ⟨0, 20⟩
/-- HEAD_PCLK_CEIL · 0x0008 · heads · S, H (R159). -/
def HEAD_PCLK_CEIL (d : Die) (n : Nat) : Nat := dieSpace d + 0x800008 + 0x10000 * n
def HEAD_PCLK_CEIL_CEIL_KHZ : Fld := ⟨0, 20⟩
/-- TIMING_HA · 0x0010, TIMING_HB · 0x0014, TIMING_VA · 0x0018, TIMING_VB · 0x001C · heads · S, H (R159). -/
def TIMING_HA (d : Die) (n : Nat) : Nat := dieSpace d + 0x800010 + 0x10000 * n
def TIMING_HA_HACTIVE : Fld := ⟨16, 16⟩
def TIMING_HA_HFP : Fld := ⟨0, 16⟩
/-- TIMING_HA · 0x0010, TIMING_HB · 0x0014, TIMING_VA · 0x0018, TIMING_VB · 0x001C · heads · S, H (R159). -/
def TIMING_HB (d : Die) (n : Nat) : Nat := dieSpace d + 0x800014 + 0x10000 * n
def TIMING_HB_HSYNC : Fld := ⟨16, 16⟩
def TIMING_HB_HBP : Fld := ⟨0, 16⟩
/-- TIMING_HA · 0x0010, TIMING_HB · 0x0014, TIMING_VA · 0x0018, TIMING_VB · 0x001C · heads · S, H (R159). -/
def TIMING_VA (d : Die) (n : Nat) : Nat := dieSpace d + 0x800018 + 0x10000 * n
def TIMING_VA_VACTIVE : Fld := ⟨16, 16⟩
def TIMING_VA_VFP : Fld := ⟨0, 16⟩
/-- TIMING_HA · 0x0010, TIMING_HB · 0x0014, TIMING_VA · 0x0018, TIMING_VB · 0x001C · heads · S, H (R159). -/
def TIMING_VB (d : Die) (n : Nat) : Nat := dieSpace d + 0x80001C + 0x10000 * n
def TIMING_VB_VSYNC : Fld := ⟨16, 16⟩
def TIMING_VB_VBP : Fld := ⟨0, 16⟩
/-- TIMING_POL · 0x0020 · heads · S, H (R159). -/
def TIMING_POL (d : Die) (n : Nat) : Nat := dieSpace d + 0x800020 + 0x10000 * n
def TIMING_POL_DE_LOW : Fld := ⟨2, 1⟩
def TIMING_POL_VSYNC_LOW : Fld := ⟨1, 1⟩
def TIMING_POL_HSYNC_LOW : Fld := ⟨0, 1⟩
/-- HEAD_STATUS · 0x0030 · heads · S, H (R159). -/
def HEAD_STATUS (d : Die) (n : Nat) : Nat := dieSpace d + 0x800030 + 0x10000 * n
def HEAD_STATUS_IN_VBLANK : Fld := ⟨31, 1⟩
def HEAD_STATUS_TIMING_ERR : Fld := ⟨30, 1⟩
def HEAD_STATUS_COMPOSING : Fld := ⟨29, 1⟩
def HEAD_STATUS_VBLANK_LEFT : Fld := ⟨16, 13⟩
def HEAD_STATUS_FT_VALID : Fld := ⟨15, 1⟩
def HEAD_STATUS_PLL_LOST : Fld := ⟨14, 1⟩
def HEAD_STATUS_LINE : Fld := ⟨0, 13⟩
/-- HEAD_FRAME_LO · 0x0034 and HEAD_FRAME_HI · 0x0038 · heads · S, H (R159). -/
def HEAD_FRAME_LO (d : Die) (n : Nat) : Nat := dieSpace d + 0x800034 + 0x10000 * n
def HEAD_FRAME_LO_FRAME : Fld := ⟨0, 32⟩
/-- HEAD_FRAME_LO · 0x0034 and HEAD_FRAME_HI · 0x0038 · heads · S, H (R159). -/
def HEAD_FRAME_HI (d : Die) (n : Nat) : Nat := dieSpace d + 0x800038 + 0x10000 * n
def HEAD_FRAME_HI_FRAME : Fld := ⟨0, 32⟩
/-- HEAD_FT · 0x0040 · heads · S, H (R159). -/
def HEAD_FT (d : Die) (n : Nat) : Nat := dieSpace d + 0x800040 + 0x10000 * n
def HEAD_FT_FT_BASE : Fld := ⟨16, 16⟩
def HEAD_FT_FT_SIZE : Fld := ⟨0, 16⟩
/-- HEAD_SNAP · 0x0044 · heads · S, H (R159). -/
def HEAD_SNAP (d : Die) (n : Nat) : Nat := dieSpace d + 0x800044 + 0x10000 * n
def HEAD_SNAP_PERIOD : Fld := ⟨0, 8⟩
/-- HEAD_EVENT_CFG · 0x0048 · heads · S, H (R159). -/
def HEAD_EVENT_CFG (d : Die) (n : Nat) : Nat := dieSpace d + 0x800048 + 0x10000 * n
def HEAD_EVENT_CFG_EV_TENANT_VBLANK : Fld := ⟨10, 1⟩
def HEAD_EVENT_CFG_EV_COMPOSE_LATE : Fld := ⟨9, 1⟩
def HEAD_EVENT_CFG_EV_VBLANK : Fld := ⟨8, 1⟩
def HEAD_EVENT_CFG_VBLANK_DIV_M1 : Fld := ⟨0, 8⟩
/-- GENLOCK_CTRL · 0x0050 · heads · S, H (R159). -/
def GENLOCK_CTRL (d : Die) (n : Nat) : Nat := dieSpace d + 0x800050 + 0x10000 * n
def GENLOCK_CTRL_SRC : Fld := ⟨30, 2⟩
def GENLOCK_CTRL_SNAP : Fld := ⟨29, 1⟩
def GENLOCK_CTRL_VSYNC_FALL : Fld := ⟨28, 1⟩
def GENLOCK_CTRL_SRC_UNIT : Fld := ⟨20, 8⟩
def GENLOCK_CTRL_OFFSET : Fld := ⟨0, 14⟩
/-- GENLOCK_STATUS · 0x0054 · heads · S, H (R159). -/
def GENLOCK_STATUS (d : Die) (n : Nat) : Nat := dieSpace d + 0x800054 + 0x10000 * n
def GENLOCK_STATUS_LOCKED : Fld := ⟨31, 1⟩
def GENLOCK_STATUS_FREE_RUN : Fld := ⟨30, 1⟩
def GENLOCK_STATUS_TRIM_PPM : Fld := ⟨16, 14⟩
def GENLOCK_STATUS_PHASE_LINES : Fld := ⟨0, 14⟩
/-- UNDERRUN_COUNT · 0x0060 and COMPOSE_LATE_COUNT · 0x0064 · heads · S, H (R159). -/
def UNDERRUN_COUNT (d : Die) (n : Nat) : Nat := dieSpace d + 0x800060 + 0x10000 * n
def UNDERRUN_COUNT_COUNT : Fld := ⟨0, 32⟩
/-- UNDERRUN_COUNT · 0x0060 and COMPOSE_LATE_COUNT · 0x0064 · heads · S, H (R159). -/
def COMPOSE_LATE_COUNT (d : Die) (n : Nat) : Nat := dieSpace d + 0x800064 + 0x10000 * n
def COMPOSE_LATE_COUNT_COUNT : Fld := ⟨0, 32⟩
/-- PORT_CFG · 0x4_0000 + 0x1_0000 × p · heads · S, H (R159). -/
def PORT_CFG (d : Die) (p : Nat) : Nat := dieSpace d + 0x840000 + 0x10000 * p
def PORT_CFG_PROTO : Fld := ⟨28, 4⟩
def PORT_CFG_RATE : Fld := ⟨24, 4⟩
def PORT_CFG_BPC : Fld := ⟨20, 4⟩
def PORT_CFG_LANES : Fld := ⟨17, 3⟩
def PORT_CFG_SSC : Fld := ⟨16, 1⟩
def PORT_CFG_LVDS_MAP : Fld := ⟨15, 1⟩
def PORT_CFG_DSI_MBPS : Fld := ⟨0, 13⟩
/-- PORT_STATUS · 0x4_0004 + 0x1_0000 × p · heads · S, H (R159). -/
def PORT_STATUS (d : Die) (p : Nat) : Nat := dieSpace d + 0x840004 + 0x10000 * p
def PORT_STATUS_HPD : Fld := ⟨31, 1⟩
def PORT_STATUS_LINK_UP : Fld := ⟨30, 1⟩
def PORT_STATUS_STREAMS : Fld := ⟨28, 2⟩
def PORT_STATUS_TRAINED_RATE : Fld := ⟨24, 4⟩
def PORT_STATUS_TRAINED_LANES : Fld := ⟨21, 3⟩
/-- FT_SECURE_BASE · 0x0000 · frame tier · S (R159). -/
def FT_SECURE_BASE (d : Die) : Nat := dieSpace d + 0x2400000
def FT_SECURE_BASE_BASE_64K : Fld := ⟨0, 11⟩
/-- FT_SECURE_SIZE · 0x0004 · frame tier · S (R159). -/
def FT_SECURE_SIZE (d : Die) : Nat := dieSpace d + 0x2400004
def FT_SECURE_SIZE_LOCK : Fld := ⟨31, 1⟩
def FT_SECURE_SIZE_SIZE_64K : Fld := ⟨0, 12⟩
/-- FT_ECC_CORR · 0x0010 and FT_ECC_UNCORR · 0x0014 · frame tier · S, H (R159). -/
def FT_ECC_CORR (d : Die) : Nat := dieSpace d + 0x2400010
def FT_ECC_CORR_COUNT : Fld := ⟨0, 32⟩
/-- FT_ECC_CORR · 0x0010 and FT_ECC_UNCORR · 0x0014 · frame tier · S, H (R159). -/
def FT_ECC_UNCORR (d : Die) : Nat := dieSpace d + 0x2400014
def FT_ECC_UNCORR_COUNT : Fld := ⟨0, 32⟩
/-- FT_ECC_ADDR · 0x0018 · frame tier · S, H (R159). -/
def FT_ECC_ADDR (d : Die) : Nat := dieSpace d + 0x2400018
def FT_ECC_ADDR_VALID : Fld := ⟨31, 1⟩
def FT_ECC_ADDR_WORD : Fld := ⟨0, 25⟩
/-- FT_SCRUB · 0x0020 · frame tier · S, H (R159). -/
def FT_SCRUB (d : Die) : Nat := dieSpace d + 0x2400020
def FT_SCRUB_PERIOD_S : Fld := ⟨0, 8⟩
/-- COMP_STATUS · 0x0000 · composer · S, H (R192). -/
def COMP_STATUS (d : Die) : Nat := dieSpace d + 0xC00000
def COMP_STATUS_RATE_MPIX : Fld := ⟨16, 16⟩
def COMP_STATUS_RATIO_X1000 : Fld := ⟨0, 16⟩
/-- COMP_CFG · 0x0004 · composer · S, H (R192). -/
def COMP_CFG (d : Die) : Nat := dieSpace d + 0xC00004
def COMP_CFG_EV_OVERLOAD : Fld := ⟨1, 1⟩
def COMP_CFG_OPAQUE_SKIP : Fld := ⟨0, 1⟩
/-- HEAD_LOAD · 0x0100 + 0x20 × n · composer · S, H (R192). -/
def HEAD_LOAD (d : Die) (n : Nat) : Nat := dieSpace d + 0xC00100 + 0x20 * n
def HEAD_LOAD_PEAK : Fld := ⟨16, 16⟩
def HEAD_LOAD_BUDGET : Fld := ⟨0, 16⟩
/-- HEAD_COLOUR_STATE · 0x0104 + 0x20 × n · composer · S, H (R192). -/
def HEAD_COLOUR_STATE (d : Die) (n : Nat) : Nat := dieSpace d + 0xC00104 + 0x20 * n
def HEAD_COLOUR_STATE_PENDING : Fld := ⟨31, 1⟩
def HEAD_COLOUR_STATE_BANK : Fld := ⟨30, 1⟩
def HEAD_COLOUR_STATE_LUT_EN : Fld := ⟨29, 1⟩
def HEAD_COLOUR_STATE_LIMITED : Fld := ⟨28, 1⟩
def HEAD_COLOUR_STATE_DITHER_EN : Fld := ⟨27, 1⟩
def HEAD_COLOUR_STATE_DITHER_MODE : Fld := ⟨26, 1⟩
def HEAD_COLOUR_STATE_REGAMMA : Fld := ⟨0, 4⟩
/-- HEAD_BACKGROUND · 0x0108 + 0x20 × n · composer · S, H (R192). -/
def HEAD_BACKGROUND (d : Die) (n : Nat) : Nat := dieSpace d + 0xC00108 + 0x20 * n
def HEAD_BACKGROUND_COLOUR : Fld := ⟨0, 30⟩
/-- JCRC_MISMATCH_COUNT · 0x010C + 0x20 × n · composer · S, H (R192). -/
def JCRC_MISMATCH_COUNT (d : Die) (n : Nat) : Nat := dieSpace d + 0xC0010C + 0x20 * n
def JCRC_MISMATCH_COUNT_COUNT : Fld := ⟨0, 32⟩
/-- LAYER_STATUS · 0x1000 + 0x100 × n + 4 × l · composer · S, H (R192). -/
def LAYER_STATUS (d : Die) (n l : Nat) : Nat := dieSpace d + 0xC01000 + 0x100 * n + 0x4 * l
def LAYER_STATUS_ENABLED : Fld := ⟨31, 1⟩
def LAYER_STATUS_OFF_UNDERRUN : Fld := ⟨30, 1⟩
def LAYER_STATUS_OFF_FAULT : Fld := ⟨29, 1⟩
def LAYER_STATUS_CAMERA : Fld := ⟨28, 1⟩
def LAYER_STATUS_PENDING : Fld := ⟨27, 1⟩
def LAYER_STATUS_CLASS : Fld := ⟨16, 3⟩
def LAYER_STATUS_ROUTE : Fld := ⟨0, 16⟩
/-- GARNET_LINK_CFG · 0x0000 · supervisor · S (R215). -/
def GARNET_LINK_CFG (d : Die) : Nat := dieSpace d + 0x1000000
def GARNET_LINK_CFG_EN : Fld := ⟨31, 1⟩
def GARNET_LINK_CFG_STALE_BLANK : Fld := ⟨30, 1⟩
def GARNET_LINK_CFG_TAKEOVER_FAULT : Fld := ⟨29, 1⟩
def GARNET_LINK_CFG_TIMEOUT_MS : Fld := ⟨0, 10⟩
/-- GARNET_LINK_STATUS · 0x0004 · supervisor · S (R215). -/
def GARNET_LINK_STATUS (d : Die) : Nat := dieSpace d + 0x1000004
def GARNET_LINK_STATUS_RESYNC_WAIT : Fld := ⟨31, 1⟩
def GARNET_LINK_STATUS_SEQ_LOST : Fld := ⟨30, 1⟩
def GARNET_LINK_STATUS_LINK_STALE : Fld := ⟨29, 1⟩
def GARNET_LINK_STATUS_BUSY : Fld := ⟨28, 1⟩
def GARNET_LINK_STATUS_QUEUED : Fld := ⟨24, 4⟩
def GARNET_LINK_STATUS_LAST_SEQ : Fld := ⟨0, 16⟩
/-- GARNET_LINK_ERR0 · 0x0008, GARNET_LINK_ERR1 · 0x000C, GARNET_LINK_ERR2 · 0x0010 · supervisor · S (R215). -/
def GARNET_LINK_ERR0 (d : Die) : Nat := dieSpace d + 0x1000008
def GARNET_LINK_ERR0_CRC_FAIL : Fld := ⟨16, 16⟩
def GARNET_LINK_ERR0_FORMAT_FAIL : Fld := ⟨0, 16⟩
/-- GARNET_LINK_ERR0 · 0x0008, GARNET_LINK_ERR1 · 0x000C, GARNET_LINK_ERR2 · 0x0010 · supervisor · S (R215). -/
def GARNET_LINK_ERR1 (d : Die) : Nat := dieSpace d + 0x100000C
def GARNET_LINK_ERR1_CMD_ERR : Fld := ⟨16, 16⟩
def GARNET_LINK_ERR1_OVERFLOW : Fld := ⟨0, 16⟩
/-- GARNET_LINK_ERR0 · 0x0008, GARNET_LINK_ERR1 · 0x000C, GARNET_LINK_ERR2 · 0x0010 · supervisor · S (R215). -/
def GARNET_LINK_ERR2 (d : Die) : Nat := dieSpace d + 0x1000010
def GARNET_LINK_ERR2_DUP : Fld := ⟨0, 16⟩
/-- GARNET_FAULT · 0x0020 · supervisor · S (R215). -/
def GARNET_FAULT (d : Die) : Nat := dieSpace d + 0x1000020
def GARNET_FAULT_ASSERTED : Fld := ⟨31, 1⟩
def GARNET_FAULT_DEBUG : Fld := ⟨17, 1⟩
def GARNET_FAULT_INIT : Fld := ⟨16, 1⟩
def GARNET_FAULT_TAKEOVER : Fld := ⟨12, 4⟩
def GARNET_FAULT_MISMATCH : Fld := ⟨8, 4⟩
def GARNET_FAULT_PLANE_STALE : Fld := ⟨4, 4⟩
def GARNET_FAULT_LINK_STALE : Fld := ⟨2, 1⟩
def GARNET_FAULT_SEQ_LOST : Fld := ⟨1, 1⟩
/-- GARNET_RENDER · 0x0024 · supervisor · S (R215). -/
def GARNET_RENDER (d : Die) : Nat := dieSpace d + 0x1000024
def GARNET_RENDER_RATE_MPIX : Fld := ⟨16, 16⟩
def GARNET_RENDER_RENDERS : Fld := ⟨0, 16⟩
/-- GARNET_STORE · 0x0028 · supervisor · S (R215). -/
def GARNET_STORE (d : Die) : Nat := dieSpace d + 0x1000028
def GARNET_STORE_ATLAS_LOADED : Fld := ⟨31, 1⟩
def GARNET_STORE_ATLAS_UNITS : Fld := ⟨12, 12⟩
def GARNET_STORE_PLANE_UNITS : Fld := ⟨0, 12⟩
/-- GARNET_PIXELS · 0x002C · supervisor · S (R215). -/
def GARNET_PIXELS (d : Die) : Nat := dieSpace d + 0x100002C
def GARNET_PIXELS_PIXELS : Fld := ⟨0, 20⟩
/-- GSCAN_STATUS · 0x1000 + 0x100 × n · heads · S (R215). -/
def GSCAN_STATUS (d : Die) (n : Nat) : Nat := dieSpace d + 0x1001000 + 0x100 * n
def GSCAN_STATUS_ACTIVE : Fld := ⟨31, 1⟩
def GSCAN_STATUS_FORCED : Fld := ⟨30, 1⟩
def GSCAN_STATUS_CLEAN : Fld := ⟨29, 1⟩
def GSCAN_STATUS_SHADOW_FAULT : Fld := ⟨28, 1⟩
def GSCAN_STATUS_CAUSE : Fld := ⟨24, 4⟩
def GSCAN_STATUS_TAKEOVERS : Fld := ⟨0, 16⟩
/-- GWIN_MASK · 0x1004 + 0x100 × n · heads · S (R215). -/
def GWIN_MASK (d : Die) (n : Nat) : Nat := dieSpace d + 0x1001004 + 0x100 * n
def GWIN_MASK_LIVE : Fld := ⟨16, 8⟩
def GWIN_MASK_CHECKED : Fld := ⟨8, 8⟩
def GWIN_MASK_MISMATCH : Fld := ⟨0, 8⟩
/-- GWIN_CRC[w] · 0x1010 + 0x100 × n + 4 × w and GWIN_EXPECT[w] · 0x1030 + 0x100 × n + 4 × w, w = 0–7 · heads · S (R215). -/
def GWIN_CRC (d : Die) (n w : Nat) : Nat := dieSpace d + 0x1001010 + 0x100 * n + 0x4 * w
def GWIN_CRC_VALUE : Fld := ⟨0, 32⟩
/-- GWIN_CRC[w] · 0x1010 + 0x100 × n + 4 × w and GWIN_EXPECT[w] · 0x1030 + 0x100 × n + 4 × w, w = 0–7 · heads · S (R215). -/
def GWIN_EXPECT (d : Die) (n w : Nat) : Nat := dieSpace d + 0x1001030 + 0x100 * n + 0x4 * w
def GWIN_EXPECT_VALUE : Fld := ⟨0, 32⟩
/-- CAM_PORT_CFG · 0x0000 · camera · S, H (R239). -/
def CAM_PORT_CFG (d : Die) (n : Nat) : Nat := dieSpace d + 0x1400000 + 0x1000 * n
def CAM_PORT_CFG_EN : Fld := ⟨31, 1⟩
def CAM_PORT_CFG_LANES : Fld := ⟨28, 3⟩
def CAM_PORT_CFG_TIMEOUT_MS : Fld := ⟨20, 8⟩
def CAM_PORT_CFG_EV_FRAME : Fld := ⟨19, 1⟩
def CAM_PORT_CFG_MAX_MBPS : Fld := ⟨0, 13⟩
/-- CAM_PORT_MAP · 0x0004 · camera · S, H (R239). -/
def CAM_PORT_MAP (d : Die) (n : Nat) : Nat := dieSpace d + 0x1400004 + 0x1000 * n
def CAM_PORT_MAP_POL : Fld := ⟨8, 5⟩
def CAM_PORT_MAP_LANE_MAP : Fld := ⟨0, 8⟩
/-- CAM_PORT_STATUS · 0x0008 · camera · S, H (R239). -/
def CAM_PORT_STATUS (d : Die) (n : Nat) : Nat := dieSpace d + 0x1400008 + 0x1000 * n
def CAM_PORT_STATUS_READY : Fld := ⟨31, 1⟩
def CAM_PORT_STATUS_CLK_ACTIVE : Fld := ⟨30, 1⟩
def CAM_PORT_STATUS_LANE_HS : Fld := ⟨26, 4⟩
def CAM_PORT_STATUS_LANE_ULPS : Fld := ⟨22, 4⟩
def CAM_PORT_STATUS_DESKEW_DONE : Fld := ⟨21, 1⟩
/-- CAM_PORT_ERR0 · 0x0010, CAM_PORT_ERR1 · 0x0014, CAM_PORT_ERR2 · 0x0018 · camera · S, H (R239). -/
def CAM_PORT_ERR0 (d : Die) (n : Nat) : Nat := dieSpace d + 0x1400010 + 0x1000 * n
def CAM_PORT_ERR0_ECC_CORR : Fld := ⟨16, 16⟩
def CAM_PORT_ERR0_ECC_UNCORR : Fld := ⟨0, 16⟩
/-- CAM_PORT_ERR0 · 0x0010, CAM_PORT_ERR1 · 0x0014, CAM_PORT_ERR2 · 0x0018 · camera · S, H (R239). -/
def CAM_PORT_ERR1 (d : Die) (n : Nat) : Nat := dieSpace d + 0x1400014 + 0x1000 * n
def CAM_PORT_ERR1_CRC_ERR : Fld := ⟨16, 16⟩
def CAM_PORT_ERR1_SOT_ERR : Fld := ⟨0, 16⟩
/-- CAM_PORT_ERR0 · 0x0010, CAM_PORT_ERR1 · 0x0014, CAM_PORT_ERR2 · 0x0018 · camera · S, H (R239). -/
def CAM_PORT_ERR2 (d : Die) (n : Nat) : Nat := dieSpace d + 0x1400018 + 0x1000 * n
def CAM_PORT_ERR2_UNROUTED : Fld := ⟨16, 16⟩
def CAM_PORT_ERR2_OTHER_DT : Fld := ⟨0, 16⟩
/-- CAM_PORT_CLR · 0x001C · camera · S, H (R239). -/
def CAM_PORT_CLR (d : Die) (n : Nat) : Nat := dieSpace d + 0x140001C + 0x1000 * n
def CAM_PORT_CLR_CLEAR : Fld := ⟨0, 1⟩
/-- STREAM_STATUS · 0x4000 + 0x100 × (4n + v) · camera · S, H (R239). -/
def STREAM_STATUS (d : Die) (n v : Nat) : Nat := dieSpace d + 0x1404000 + 0x400 * n + 0x100 * v
def STREAM_STATUS_LOST : Fld := ⟨31, 1⟩
def STREAM_STATUS_IN_FRAME : Fld := ⟨30, 1⟩
def STREAM_STATUS_DT : Fld := ⟨24, 6⟩
def STREAM_STATUS_LINES : Fld := ⟨0, 13⟩
/-- STREAM_FRAME_LO · +0x04 and STREAM_FRAME_HI · +0x08 · camera · S, H (R239). -/
def STREAM_FRAME_LO (d : Die) (n v : Nat) : Nat := dieSpace d + 0x1404004 + 0x400 * n + 0x100 * v
def STREAM_FRAME_LO_FRAME : Fld := ⟨0, 32⟩
/-- STREAM_FRAME_LO · +0x04 and STREAM_FRAME_HI · +0x08 · camera · S, H (R239). -/
def STREAM_FRAME_HI (d : Die) (n v : Nat) : Nat := dieSpace d + 0x1404008 + 0x400 * n + 0x100 * v
def STREAM_FRAME_HI_FRAME : Fld := ⟨0, 32⟩
/-- STREAM_ERR0 · +0x0C and STREAM_ERR1 · +0x10 · camera · S, H (R239). -/
def STREAM_ERR0 (d : Die) (n v : Nat) : Nat := dieSpace d + 0x140400C + 0x400 * n + 0x100 * v
def STREAM_ERR0_LINE_LEN_ERR : Fld := ⟨16, 16⟩
def STREAM_ERR0_MISSING_LINES : Fld := ⟨0, 16⟩
/-- STREAM_ERR0 · +0x0C and STREAM_ERR1 · +0x10 · camera · S, H (R239). -/
def STREAM_ERR1 (d : Die) (n v : Nat) : Nat := dieSpace d + 0x1404010 + 0x400 * n + 0x100 * v
def STREAM_ERR1_SHORT_FRAMES : Fld := ⟨16, 16⟩
def STREAM_ERR1_EXTRA_LINES : Fld := ⟨0, 16⟩
/-- STREAM_SLACK · +0x14 · camera · S, H (R239). -/
def STREAM_SLACK (d : Die) (n v : Nat) : Nat := dieSpace d + 0x1404014 + 0x400 * n + 0x100 * v
def STREAM_SLACK_SLACK_Q4 : Fld := ⟨0, 16⟩
/-- CAM_LINESTORE · 0x6000 · camera · S, H (R239). -/
def CAM_LINESTORE (d : Die) : Nat := dieSpace d + 0x1406000
def CAM_LINESTORE_USED_KIB : Fld := ⟨16, 16⟩
def CAM_LINESTORE_SIZE_KIB : Fld := ⟨0, 16⟩
/-- WARP_STATUS · 0x8000 · camera · S, H (R239). -/
def WARP_STATUS (d : Die) : Nat := dieSpace d + 0x1408000
def WARP_STATUS_MESH_VALID : Fld := ⟨31, 1⟩
def WARP_STATUS_MESH_PENDING : Fld := ⟨30, 1⟩
def WARP_STATUS_INPUTS_LIVE : Fld := ⟨26, 4⟩
def WARP_STATUS_INPUTS_LOST : Fld := ⟨22, 4⟩
def WARP_STATUS_SPAN : Fld := ⟨0, 8⟩
/-- WARP_MESH_DIM · 0x8004 · camera · S, H (R239). -/
def WARP_MESH_DIM (d : Die) : Nat := dieSpace d + 0x1408004
def WARP_MESH_DIM_GY : Fld := ⟨16, 8⟩
def WARP_MESH_DIM_GX : Fld := ⟨0, 8⟩
/-- WARP_STORE · 0x8008 · camera · S, H (R239). -/
def WARP_STORE (d : Die) : Nat := dieSpace d + 0x1408008
def WARP_STORE_USED_KIB : Fld := ⟨16, 16⟩
def WARP_STORE_SIZE_KIB : Fld := ⟨0, 16⟩
/-- WARP_SLACK · 0x800C · camera · S, H (R239). -/
def WARP_SLACK (d : Die) : Nat := dieSpace d + 0x140800C
def WARP_SLACK_SLACK_Q4 : Fld := ⟨0, 16⟩
/-- WARP_RATE · 0x8010 · camera · S, H (R239). -/
def WARP_RATE (d : Die) : Nat := dieSpace d + 0x1408010
def WARP_RATE_RATE_MPIX : Fld := ⟨0, 16⟩
/-- GPU_CLUSTERS · 0x0000 · GPU · S, H (R270). -/
def GPU_CLUSTERS (d : Die) : Nat := dieSpace d + 0x1800000
def GPU_CLUSTERS_BUSY : Fld := ⟨8, 8⟩
def GPU_CLUSTERS_PRESENT : Fld := ⟨0, 8⟩
/-- GPU_RATE · 0x0004 · GPU · S, H (R270). -/
def GPU_RATE (d : Die) : Nat := dieSpace d + 0x1800004
def GPU_RATE_GFLOPS : Fld := ⟨16, 16⟩
def GPU_RATE_RASTER_MPIX : Fld := ⟨0, 16⟩
/-- GPU_STREAM_ERR · 0x0010 · GPU · S, H (R270). -/
def GPU_STREAM_ERR (d : Die) : Nat := dieSpace d + 0x1800010
def GPU_STREAM_ERR_VALID : Fld := ⟨31, 1⟩
def GPU_STREAM_ERR_CTX : Fld := ⟨27, 4⟩
def GPU_STREAM_ERR_FUNC : Fld := ⟨21, 6⟩
def GPU_STREAM_ERR_EP : Fld := ⟨20, 1⟩
def GPU_STREAM_ERR_REASON : Fld := ⟨16, 4⟩
def GPU_STREAM_ERR_TYPE : Fld := ⟨0, 8⟩
/-- GPU_STREAM_ERR_OFF · 0x0014 · GPU · S, H (R270). -/
def GPU_STREAM_ERR_OFF (d : Die) : Nat := dieSpace d + 0x1800014
def GPU_STREAM_ERR_OFF_OFFSET : Fld := ⟨0, 32⟩
/-- GPU_BIN_LAST · 0x0018 · GPU · S, H (R270). -/
def GPU_BIN_LAST (d : Die) : Nat := dieSpace d + 0x1800018
def GPU_BIN_LAST_PARTIALS : Fld := ⟨24, 8⟩
def GPU_BIN_LAST_BIN_PEAK : Fld := ⟨0, 16⟩
/-- GPU_BIN_OVERFLOWS · 0x001C · GPU · S, H (R270). -/
def GPU_BIN_OVERFLOWS (d : Die) : Nat := dieSpace d + 0x180001C
def GPU_BIN_OVERFLOWS_COUNT : Fld := ⟨0, 32⟩
/-- GPU_OUT_OF_BIN · 0x0020 · GPU · S, H (R270). -/
def GPU_OUT_OF_BIN (d : Die) : Nat := dieSpace d + 0x1800020
def GPU_OUT_OF_BIN_COUNT : Fld := ⟨0, 32⟩
/-- GPU_CLUSTER[c] · 0x0100 + 4 × c · GPU · S, H (R270). -/
def GPU_CLUSTER (d : Die) (c : Nat) : Nat := dieSpace d + 0x1800100 + 0x4 * c
def GPU_CLUSTER_PRESENT : Fld := ⟨31, 1⟩
def GPU_CLUSTER_POWERED : Fld := ⟨30, 1⟩
def GPU_CLUSTER_WORLD : Fld := ⟨29, 1⟩
def GPU_CLUSTER_SCRUBBING : Fld := ⟨28, 1⟩
def GPU_CLUSTER_OWNER : Fld := ⟨22, 6⟩
def GPU_CLUSTER_OWNER_EP : Fld := ⟨21, 1⟩
def GPU_CLUSTER_CTX : Fld := ⟨17, 4⟩
def GPU_CLUSTER_KIND : Fld := ⟨16, 1⟩
def GPU_CLUSTER_WAVES : Fld := ⟨8, 8⟩
def GPU_CLUSTER_ECC_CORR : Fld := ⟨0, 8⟩
/-- GPU_SCHED_CFG · 0x0200 · GPU · S, H (R289). -/
def GPU_SCHED_CFG (d : Die) : Nat := dieSpace d + 0x1800200
def GPU_SCHED_CFG_SLICE_US : Fld := ⟨16, 16⟩
def GPU_SCHED_CFG_GRACE_US : Fld := ⟨0, 16⟩
/-- GPU_DL_CFG · 0x0204 · GPU · S, H (R289). -/
def GPU_DL_CFG (d : Die) : Nat := dieSpace d + 0x1800204
def GPU_DL_CFG_LEAD_US : Fld := ⟨16, 16⟩
def GPU_DL_CFG_MARGIN_US : Fld := ⟨0, 16⟩
/-- GPU_POWER_CFG · 0x0208 · GPU · S, H (R289). -/
def GPU_POWER_CFG (d : Die) : Nat := dieSpace d + 0x1800208
def GPU_POWER_CFG_KEEP_ON : Fld := ⟨16, 1⟩
def GPU_POWER_CFG_IDLE_OFF_US : Fld := ⟨0, 16⟩
/-- GPU_CTX_STORE · 0x020C · GPU · S, H (R289). -/
def GPU_CTX_STORE (d : Die) : Nat := dieSpace d + 0x180020C
def GPU_CTX_STORE_LOCK : Fld := ⟨31, 1⟩
def GPU_CTX_STORE_BASE_2M : Fld := ⟨0, 14⟩
/-- GPU_SCHED_STATUS · 0x0210 · GPU · S, H (R289). -/
def GPU_SCHED_STATUS (d : Die) : Nat := dieSpace d + 0x1800210
def GPU_SCHED_STATUS_E_RUN : Fld := ⟨28, 4⟩
def GPU_SCHED_STATUS_E_WAIT : Fld := ⟨24, 4⟩
def GPU_SCHED_STATUS_CTX_SAVED : Fld := ⟨16, 8⟩
def GPU_SCHED_STATUS_PREEMPT_MAX_US : Fld := ⟨0, 16⟩
/-- GPU_PC_CTRL · 0x0300 · GPU · S, H (R289). -/
def GPU_PC_CTRL (d : Die) : Nat := dieSpace d + 0x1800300
def GPU_PC_CTRL_CLEAR : Fld := ⟨1, 1⟩
def GPU_PC_CTRL_FREEZE : Fld := ⟨0, 1⟩
/-- GPU_PC[i] · 0x0400 + 4 × i, i = 0–23 · GPU · S, H (R289). -/
def GPU_PC (d : Die) (i : Nat) : Nat := dieSpace d + 0x1800400 + 0x4 * i
def GPU_PC_COUNT : Fld := ⟨0, 32⟩
/-- GPU_FUNC_USE[i] · 0x0800 + 4 × i, i = 32 × EP + F · GPU · S, H (R289). -/
def GPU_FUNC_USE (d : Die) (i : Nat) : Nat := dieSpace d + 0x1800800 + 0x4 * i
def GPU_FUNC_USE_USED : Fld := ⟨24, 8⟩
def GPU_FUNC_USE_SHARE : Fld := ⟨16, 8⟩
def GPU_FUNC_USE_CTX_LIVE : Fld := ⟨0, 5⟩
/-- DRAM_CFG · 0x0000 · memory · S, H (R315). -/
def DRAM_CFG (d : Die) : Nat := dieSpace d + 0x2000000
def DRAM_CFG_RANKS2 : Fld := ⟨7, 1⟩
def DRAM_CFG_CH_CAP : Fld := ⟨0, 4⟩
/-- DRAM_STATUS · 0x0004 · memory · S, H (R315). -/
def DRAM_STATUS (d : Die) : Nat := dieSpace d + 0x2000004
def DRAM_STATUS_READY : Fld := ⟨31, 1⟩
def DRAM_STATUS_FSP_BUSY : Fld := ⟨30, 1⟩
def DRAM_STATUS_FSP_CUR : Fld := ⟨28, 2⟩
def DRAM_STATUS_SELF_REFRESH : Fld := ⟨27, 1⟩
def DRAM_STATUS_INIT_FAIL : Fld := ⟨8, 8⟩
def DRAM_STATUS_GATHERING : Fld := ⟨0, 8⟩
/-- DRAM_FSP[i] · 0x0010 + 4 × i, i = 0–2 · memory · S, H (R315). -/
def DRAM_FSP (d : Die) (i : Nat) : Nat := dieSpace d + 0x2000010 + 0x4 * i
def DRAM_FSP_RATE_MTS : Fld := ⟨0, 16⟩
/-- DRAM_FSP_CTRL · 0x001C · memory · S, H (R315). -/
def DRAM_FSP_CTRL (d : Die) : Nat := dieSpace d + 0x200001C
def DRAM_FSP_CTRL_GO : Fld := ⟨31, 1⟩
def DRAM_FSP_CTRL_TARGET : Fld := ⟨0, 2⟩
/-- DRAM_TRAIN_CFG · 0x0020 · memory · S, H (R315). -/
def DRAM_TRAIN_CFG (d : Die) : Nat := dieSpace d + 0x2000020
def DRAM_TRAIN_CFG_PERIODIC_EN : Fld := ⟨31, 1⟩
def DRAM_TRAIN_CFG_PERIOD_S : Fld := ⟨0, 6⟩
/-- DRAM_TRAIN_STATUS · 0x0024 · memory · S, H (R315). -/
def DRAM_TRAIN_STATUS (d : Die) : Nat := dieSpace d + 0x2000024
def DRAM_TRAIN_STATUS_RESTARTS : Fld := ⟨16, 16⟩
def DRAM_TRAIN_STATUS_FAILS : Fld := ⟨0, 16⟩
/-- DRAM_ECC_REGION_BASE[i] · 0x0040 + 8 × i and DRAM_ECC_REGION_SIZE[i] · 0x0044 + 8 × i, i = 0–7 · memory · S, H (R315). -/
def DRAM_ECC_REGION_BASE (d : Die) (i : Nat) : Nat := dieSpace d + 0x2000040 + 0x8 * i
def DRAM_ECC_REGION_BASE_BASE_2M : Fld := ⟨0, 15⟩
/-- DRAM_ECC_REGION_BASE[i] · 0x0040 + 8 × i and DRAM_ECC_REGION_SIZE[i] · 0x0044 + 8 × i, i = 0–7 · memory · S, H (R315). -/
def DRAM_ECC_REGION_SIZE (d : Die) (i : Nat) : Nat := dieSpace d + 0x2000044 + 0x8 * i
def DRAM_ECC_REGION_SIZE_SIZE_2M : Fld := ⟨0, 15⟩
/-- DRAM_ECC_CORR[n] · 0x0080 + 4 × n and DRAM_ECC_UNCORR[n] · 0x00A0 + 4 × n, n = 0–7 · memory · S, H (R315). -/
def DRAM_ECC_CORR (d : Die) (n : Nat) : Nat := dieSpace d + 0x2000080 + 0x4 * n
def DRAM_ECC_CORR_COUNT : Fld := ⟨0, 32⟩
/-- DRAM_ECC_CORR[n] · 0x0080 + 4 × n and DRAM_ECC_UNCORR[n] · 0x00A0 + 4 × n, n = 0–7 · memory · S, H (R315). -/
def DRAM_ECC_UNCORR (d : Die) (n : Nat) : Nat := dieSpace d + 0x20000A0 + 0x4 * n
def DRAM_ECC_UNCORR_COUNT : Fld := ⟨0, 32⟩
/-- DRAM_ECC_POISON · 0x00C0 · memory · S, H (R315). -/
def DRAM_ECC_POISON (d : Die) : Nat := dieSpace d + 0x20000C0
def DRAM_ECC_POISON_COUNT : Fld := ⟨0, 32⟩
/-- DRAM_ECC_INFO · 0x00C4 · memory · S, H (R315). -/
def DRAM_ECC_INFO (d : Die) : Nat := dieSpace d + 0x20000C4
def DRAM_ECC_INFO_VALID : Fld := ⟨31, 1⟩
def DRAM_ECC_INFO_POISON : Fld := ⟨30, 1⟩
def DRAM_ECC_INFO_SCRUB : Fld := ⟨29, 1⟩
def DRAM_ECC_INFO_CH : Fld := ⟨26, 3⟩
def DRAM_ECC_INFO_PORT : Fld := ⟨21, 5⟩
def DRAM_ECC_INFO_FUNC : Fld := ⟨15, 6⟩
def DRAM_ECC_INFO_EP : Fld := ⟨14, 1⟩
/-- DRAM_ECC_ADDR_LO · 0x00C8 and DRAM_ECC_ADDR_HI · 0x00CC · memory · S, H (R315). -/
def DRAM_ECC_ADDR_LO (d : Die) : Nat := dieSpace d + 0x20000C8
def DRAM_ECC_ADDR_LO_ADDR : Fld := ⟨2, 30⟩
/-- DRAM_ECC_ADDR_LO · 0x00C8 and DRAM_ECC_ADDR_HI · 0x00CC · memory · S, H (R315). -/
def DRAM_ECC_ADDR_HI (d : Die) : Nat := dieSpace d + 0x20000CC
def DRAM_ECC_ADDR_HI_ADDR : Fld := ⟨0, 3⟩
/-- DRAM_ECC_THRESH · 0x00D0 · memory · S, H (R315). -/
def DRAM_ECC_THRESH (d : Die) : Nat := dieSpace d + 0x20000D0
def DRAM_ECC_THRESH_CORR_THRESH : Fld := ⟨0, 16⟩
/-- DRAM_SCRUB · 0x00D4 · memory · S, H (R315). -/
def DRAM_SCRUB (d : Die) : Nat := dieSpace d + 0x20000D4
def DRAM_SCRUB_PERIOD_H : Fld := ⟨0, 8⟩
/-- DRAM_RD_CFG · 0x0100 · memory · S, H (R315). -/
def DRAM_RD_CFG (d : Die) : Nat := dieSpace d + 0x2000100
def DRAM_RD_CFG_THRESH : Fld := ⟨16, 16⟩
def DRAM_RD_CFG_RFM_STRIDE : Fld := ⟨0, 16⟩
/-- DRAM_RD_GAP · 0x0104 · memory · S, H (R315). -/
def DRAM_RD_GAP (d : Die) : Nat := dieSpace d + 0x2000104
def DRAM_RD_GAP_GAP_NS : Fld := ⟨0, 16⟩
/-- DRAM_RD_STATUS · 0x0108 · memory · S, H (R315). -/
def DRAM_RD_STATUS (d : Die) : Nat := dieSpace d + 0x2000108
def DRAM_RD_STATUS_THROTTLES : Fld := ⟨0, 32⟩
/-- DRAM_RD_THROTTLED · 0x010C · memory · S, H (R315). -/
def DRAM_RD_THROTTLED (d : Die) : Nat := dieSpace d + 0x200010C
def DRAM_RD_THROTTLED_PORTS : Fld := ⟨0, 24⟩
/-- DRAM_PORT_CFG[p] · 0x1000 + 0x10 × p · memory · S, H (R315). -/
def DRAM_PORT_CFG (d : Die) (p : Nat) : Nat := dieSpace d + 0x2001000 + 0x10 * p
def DRAM_PORT_CFG_CLASS : Fld := ⟨30, 2⟩
def DRAM_PORT_CFG_AGE_LIMIT_US : Fld := ⟨16, 14⟩
def DRAM_PORT_CFG_LAT_TARGET_NS : Fld := ⟨0, 16⟩
/-- DRAM_PORT_STATUS[p] · +0x04 · memory · S, H (R315). -/
def DRAM_PORT_STATUS (d : Die) (p : Nat) : Nat := dieSpace d + 0x2001004 + 0x10 * p
def DRAM_PORT_STATUS_THROTTLED : Fld := ⟨31, 1⟩
def DRAM_PORT_STATUS_PRESENT : Fld := ⟨30, 1⟩
def DRAM_PORT_STATUS_URG_MAX : Fld := ⟨27, 3⟩
def DRAM_PORT_STATUS_PROMOTIONS : Fld := ⟨0, 16⟩
/-- DRAM_PORT_BYTES_LO · +0x08 and DRAM_PORT_BYTES_HI · +0x0C · memory · S, H (R315). -/
def DRAM_PORT_BYTES_LO (d : Die) (p : Nat) : Nat := dieSpace d + 0x2001008 + 0x10 * p
def DRAM_PORT_BYTES_LO_BYTES : Fld := ⟨0, 32⟩
/-- DRAM_PORT_BYTES_LO · +0x08 and DRAM_PORT_BYTES_HI · +0x0C · memory · S, H (R315). -/
def DRAM_PORT_BYTES_HI (d : Die) (p : Nat) : Nat := dieSpace d + 0x200100C + 0x10 * p
def DRAM_PORT_BYTES_HI_BYTES : Fld := ⟨0, 32⟩
/-- DRAM_FUNC_USE[i] · 0x2000 + 4 × i, i = 32 × EP + F · memory · S, H (R315). -/
def DRAM_FUNC_USE (d : Die) (i : Nat) : Nat := dieSpace d + 0x2002000 + 0x4 * i
def DRAM_FUNC_USE_USED : Fld := ⟨24, 8⟩
def DRAM_FUNC_USE_SHARE : Fld := ⟨16, 8⟩
/-- AUDIO_STATUS · 0x0000 · audio · S, H (R341). -/
def AUDIO_STATUS (d : Die) : Nat := dieSpace d + 0x2800000
def AUDIO_STATUS_PLL_LOCKED : Fld := ⟨31, 1⟩
def AUDIO_STATUS_DUCKING : Fld := ⟨30, 1⟩
def AUDIO_STATUS_BUSES_EN : Fld := ⟨0, 16⟩
/-- AUDIO_LATE_BLOCKS · 0x0004 · audio · S, H (R341). -/
def AUDIO_LATE_BLOCKS (d : Die) : Nat := dieSpace d + 0x2800004
def AUDIO_LATE_BLOCKS_COUNT : Fld := ⟨0, 32⟩
/-- AUDIO_DUCK_STATE · 0x0008 · audio · S, H (R341). -/
def AUDIO_DUCK_STATE (d : Die) : Nat := dieSpace d + 0x2800008
def AUDIO_DUCK_STATE_DUCK_CB : Fld := ⟨16, 16⟩
def AUDIO_DUCK_STATE_ATTEN_CB : Fld := ⟨0, 16⟩
/-- AUDIO_PDM_CFG · 0x000C · audio · S, H (R341). -/
def AUDIO_PDM_CFG (d : Die) : Nat := dieSpace d + 0x280000C
def AUDIO_PDM_CFG_CLK : Fld := ⟨8, 2⟩
def AUDIO_PDM_CFG_MIC_EN : Fld := ⟨0, 8⟩
/-- AUDIO_TDM_CFG[p] · 0x0100 + 0x20 × p · audio · S, H (R341). -/
def AUDIO_TDM_CFG (d : Die) (p : Nat) : Nat := dieSpace d + 0x2800100 + 0x20 * p
def AUDIO_TDM_CFG_EN : Fld := ⟨31, 1⟩
def AUDIO_TDM_CFG_MASTER : Fld := ⟨30, 1⟩
def AUDIO_TDM_CFG_FS_PULSE : Fld := ⟨29, 1⟩
def AUDIO_TDM_CFG_FS_INV : Fld := ⟨28, 1⟩
def AUDIO_TDM_CFG_BCLK_INV : Fld := ⟨27, 1⟩
def AUDIO_TDM_CFG_DELAY1 : Fld := ⟨26, 1⟩
def AUDIO_TDM_CFG_SLOTS : Fld := ⟨19, 5⟩
def AUDIO_TDM_CFG_SLOT_BITS : Fld := ⟨13, 6⟩
def AUDIO_TDM_CFG_DATA_BITS : Fld := ⟨7, 6⟩
/-- AUDIO_TDM_RATE[p] · +0x04 · audio · S, H (R341). -/
def AUDIO_TDM_RATE (d : Die) (p : Nat) : Nat := dieSpace d + 0x2800104 + 0x20 * p
def AUDIO_TDM_RATE_RATE_HZ : Fld := ⟨0, 18⟩
/-- AUDIO_TDM_STATUS[p] · +0x08 · audio · S, H (R341). -/
def AUDIO_TDM_STATUS (d : Die) (p : Nat) : Nat := dieSpace d + 0x2800108 + 0x20 * p
def AUDIO_TDM_STATUS_CLOCKED : Fld := ⟨31, 1⟩
def AUDIO_TDM_STATUS_INJECTED : Fld := ⟨30, 1⟩
def AUDIO_TDM_STATUS_LOSSES : Fld := ⟨0, 16⟩
/-- AUDIO_TDM_CLIP[p] · +0x0C · audio · S, H (R341). -/
def AUDIO_TDM_CLIP (d : Die) (p : Nat) : Nat := dieSpace d + 0x280010C + 0x20 * p
def AUDIO_TDM_CLIP_COUNT : Fld := ⟨0, 32⟩
/-- AUDIO_DP_CLIP[h] · 0x0300 + 4 × h, h = device-wide head 0–7 · audio · S, H (R341). -/
def AUDIO_DP_CLIP (d : Die) (h : Nat) : Nat := dieSpace d + 0x2800300 + 0x4 * h
def AUDIO_DP_CLIP_COUNT : Fld := ⟨0, 32⟩
/-- AUDIO_BUS_CFG[b] · 0x1000 + 0x100 × b · audio · S, H (R341). -/
def AUDIO_BUS_CFG (d : Die) (b : Nat) : Nat := dieSpace d + 0x2801000 + 0x100 * b
def AUDIO_BUS_CFG_EN : Fld := ⟨31, 1⟩
def AUDIO_BUS_CFG_AUTOSCALE : Fld := ⟨30, 1⟩
def AUDIO_BUS_CFG_CLASS : Fld := ⟨28, 2⟩
def AUDIO_BUS_CFG_OWNER : Fld := ⟨22, 6⟩
def AUDIO_BUS_CFG_OWNER_EP : Fld := ⟨21, 1⟩
def AUDIO_BUS_CFG_CHANNELS : Fld := ⟨17, 4⟩
def AUDIO_BUS_CFG_RAMP_MS : Fld := ⟨0, 10⟩
/-- AUDIO_BUS_STATE[b] · +0x04 · audio · S, H (R341). -/
def AUDIO_BUS_STATE (d : Die) (b : Nat) : Nat := dieSpace d + 0x2801004 + 0x100 * b
def AUDIO_BUS_STATE_N_ACTIVE : Fld := ⟨26, 6⟩
def AUDIO_BUS_STATE_DUCKED : Fld := ⟨25, 1⟩
def AUDIO_BUS_STATE_GAIN_CB : Fld := ⟨0, 16⟩
/-- AUDIO_BUS_CLIP[b] · +0x08 · audio · S, H (R341). -/
def AUDIO_BUS_CLIP (d : Die) (b : Nat) : Nat := dieSpace d + 0x2801008 + 0x100 * b
def AUDIO_BUS_CLIP_COUNT : Fld := ⟨0, 32⟩
/-- AUDIO_METER_PEAK[b][c] · +0x10 + 4 × c, AUDIO_METER_RMS[b][c] · +0x30 + 4 × c, AUDIO_METER_HOLD[b][c] · +0x50 + 4 × c, c = 0–7 · audio · S, H (R341). -/
def AUDIO_METER_PEAK (d : Die) (b c : Nat) : Nat := dieSpace d + 0x2801010 + 0x100 * b + 0x4 * c
def AUDIO_METER_PEAK_VALUE : Fld := ⟨0, 32⟩
/-- AUDIO_METER_PEAK[b][c] · +0x10 + 4 × c, AUDIO_METER_RMS[b][c] · +0x30 + 4 × c, AUDIO_METER_HOLD[b][c] · +0x50 + 4 × c, c = 0–7 · audio · S, H (R341). -/
def AUDIO_METER_RMS (d : Die) (b c : Nat) : Nat := dieSpace d + 0x2801030 + 0x100 * b + 0x4 * c
def AUDIO_METER_RMS_VALUE : Fld := ⟨0, 32⟩
/-- AUDIO_METER_PEAK[b][c] · +0x10 + 4 × c, AUDIO_METER_RMS[b][c] · +0x30 + 4 × c, AUDIO_METER_HOLD[b][c] · +0x50 + 4 × c, c = 0–7 · audio · S, H (R341). -/
def AUDIO_METER_HOLD (d : Die) (b c : Nat) : Nat := dieSpace d + 0x2801050 + 0x100 * b + 0x4 * c
def AUDIO_METER_HOLD_VALUE : Fld := ⟨0, 32⟩
/-- HAP_SPI_CFG · 0x0000 · haptic · S, H (R360). -/
def HAP_SPI_CFG (d : Die) : Nat := dieSpace d + 0x2C00000
def HAP_SPI_CFG_DIV : Fld := ⟨0, 4⟩
/-- HAP_CFG · +0x00 · haptic · S, H (R360). -/
def HAP_CFG (d : Die) (n : Nat) : Nat := dieSpace d + 0x2C00100 + 0x40 * n
def HAP_CFG_EN : Fld := ⟨31, 1⟩
def HAP_CFG_SENSE : Fld := ⟨29, 2⟩
def HAP_CFG_POLICY : Fld := ⟨28, 1⟩
def HAP_CFG_BRIDGE : Fld := ⟨27, 1⟩
def HAP_CFG_ACC_CS : Fld := ⟨25, 2⟩
def HAP_CFG_VLIM : Fld := ⟨17, 8⟩
def HAP_CFG_F0_HZ : Fld := ⟨7, 10⟩
def HAP_CFG_PWM_KHZ : Fld := ⟨0, 7⟩
/-- HAP_LIMITS · +0x04 · haptic · S, H (R360). -/
def HAP_LIMITS (d : Die) (n : Nat) : Nat := dieSpace d + 0x2C00104 + 0x40 * n
def HAP_LIMITS_TLIM_MS : Fld := ⟨18, 14⟩
def HAP_LIMITS_DUTY_PCT : Fld := ⟨11, 7⟩
def HAP_LIMITS_DUTY_WIN_S : Fld := ⟨5, 6⟩
/-- HAP_STATUS · +0x08 · haptic · S, H (R360). -/
def HAP_STATUS (d : Die) (n : Nat) : Nat := dieSpace d + 0x2C00108 + 0x40 * n
def HAP_STATUS_PHASE : Fld := ⟨30, 2⟩
def HAP_STATUS_QUEUED : Fld := ⟨29, 1⟩
def HAP_STATUS_SENSOR_FAIL : Fld := ⟨28, 1⟩
def HAP_STATUS_CHANGE_PENDING : Fld := ⟨27, 1⟩
def HAP_STATUS_DUTY_PERMIL : Fld := ⟨17, 10⟩
def HAP_STATUS_EFFECT : Fld := ⟨0, 8⟩
/-- HAP_SENSE · +0x0C · haptic · S, H (R360). -/
def HAP_SENSE (d : Die) (n : Nat) : Nat := dieSpace d + 0x2C0010C + 0x40 * n
def HAP_SENSE_VSUP_MV : Fld := ⟨16, 16⟩
def HAP_SENSE_AMP : Fld := ⟨8, 8⟩
/-- HAP_TRIPS · +0x10 · haptic · S, H (R360). -/
def HAP_TRIPS (d : Die) (n : Nat) : Nat := dieSpace d + 0x2C00110 + 0x40 * n
def HAP_TRIPS_TLIM : Fld := ⟨24, 8⟩
def HAP_TRIPS_DUTY : Fld := ⟨16, 8⟩
def HAP_TRIPS_REFUSED : Fld := ⟨8, 8⟩
def HAP_TRIPS_SUPPLY : Fld := ⟨0, 8⟩
/-- HAP_COUNTS · +0x14 · haptic · S, H (R360). -/
def HAP_COUNTS (d : Die) (n : Nat) : Nat := dieSpace d + 0x2C00114 + 0x40 * n
def HAP_COUNTS_TRIG_IGNORED : Fld := ⟨16, 16⟩
def HAP_COUNTS_VLIM_CLAMPS : Fld := ⟨0, 16⟩
/-- HAP_ARM[a] · +0x20 + 4 × a, a = 0–3 · haptic · S, H (R360). -/
def HAP_ARM (d : Die) (n a : Nat) : Nat := dieSpace d + 0x2C00120 + 0x40 * n + 0x4 * a
def HAP_ARM_ARMED : Fld := ⟨31, 1⟩
def HAP_ARM_PIN : Fld := ⟨24, 3⟩
def HAP_ARM_EFFECT : Fld := ⟨16, 8⟩
def HAP_ARM_ROUTE : Fld := ⟨0, 16⟩
/-- HTRIG_STATUS · 0x1000 · haptic · S, H (R360). -/
def HTRIG_STATUS (d : Die) : Nat := dieSpace d + 0x2C01000
def HTRIG_STATUS_ROUTED : Fld := ⟨8, 8⟩
def HTRIG_STATUS_LEVEL : Fld := ⟨0, 8⟩
/-- TOUCH_STATUS · 0x0000 · touch · S, H (R388). -/
def TOUCH_STATUS (d : Die) : Nat := dieSpace d + 0x3000000
def TOUCH_STATUS_EN : Fld := ⟨31, 1⟩
def TOUCH_STATUS_LP_ACTIVE : Fld := ⟨30, 1⟩
def TOUCH_STATUS_OVERRUN : Fld := ⟨29, 1⟩
def TOUCH_STATUS_SCAN_HZ : Fld := ⟨16, 9⟩
def TOUCH_STATUS_SCAN_US : Fld := ⟨0, 16⟩
/-- TOUCH_COUNTS · 0x0004 · touch · S, H (R388). -/
def TOUCH_COUNTS (d : Die) : Nat := dieSpace d + 0x3000004
def TOUCH_COUNTS_UNROUTED : Fld := ⟨16, 16⟩
def TOUCH_COUNTS_STUCK : Fld := ⟨0, 16⟩
/-- TOUCH_RAW[c] · 0x1000 + 8 × c · touch · S, H (R388). -/
def TOUCH_RAW (d : Die) (c : Nat) : Nat := dieSpace d + 0x3001000 + 0x8 * c
def TOUCH_RAW_FAULTY : Fld := ⟨31, 1⟩
def TOUCH_RAW_NO_REF : Fld := ⟨30, 1⟩
def TOUCH_RAW_USE : Fld := ⟨28, 2⟩
def TOUCH_RAW_COUNT : Fld := ⟨0, 16⟩
/-- TOUCH_BASE[c] · 0x1004 + 8 × c · touch · S, H (R388). -/
def TOUCH_BASE (d : Die) (c : Nat) : Nat := dieSpace d + 0x3001004 + 0x8 * c
def TOUCH_BASE_REF : Fld := ⟨16, 16⟩
def TOUCH_BASE_BASE : Fld := ⟨0, 16⟩
/-- TOUCH_SENSOR_STATUS[s] · 0x2000 + 4 × s · touch · S, H (R388). -/
def TOUCH_SENSOR_STATUS (d : Die) (k : Nat) : Nat := dieSpace d + 0x3002000 + 0x4 * k
def TOUCH_SENSOR_STATUS_KIND : Fld := ⟨29, 3⟩
def TOUCH_SENSOR_STATUS_TOUCHED : Fld := ⟨28, 1⟩
def TOUCH_SENSOR_STATUS_FROZEN : Fld := ⟨27, 1⟩
def TOUCH_SENSOR_STATUS_FAULT : Fld := ⟨26, 1⟩
def TOUCH_SENSOR_STATUS_CONTACTS : Fld := ⟨22, 4⟩
def TOUCH_SENSOR_STATUS_POSITION : Fld := ⟨0, 8⟩
/-- TOUCH_REGION_STATUS[r] · 0x3000 + 4 × r · touch · S, H (R388). -/
def TOUCH_REGION_STATUS (d : Die) (r : Nat) : Nat := dieSpace d + 0x3003000 + 0x4 * r
def TOUCH_REGION_STATUS_SRC : Fld := ⟨30, 2⟩
def TOUCH_REGION_STATUS_HELD : Fld := ⟨29, 1⟩
def TOUCH_REGION_STATUS_CHANGE_PENDING : Fld := ⟨28, 1⟩
def TOUCH_REGION_STATUS_ROUTE : Fld := ⟨0, 16⟩
/-- TSH_STATUS[p] · 0x4000 + 0x10 × p · touch · S, H (R388). -/
def TSH_STATUS (d : Die) (p : Nat) : Nat := dieSpace d + 0x3004000 + 0x10 * p
def TSH_STATUS_EN : Fld := ⟨31, 1⟩
def TSH_STATUS_LOST : Fld := ⟨30, 1⟩
def TSH_STATUS_CONTACTS : Fld := ⟨26, 4⟩
def TSH_STATUS_FAILS : Fld := ⟨0, 16⟩
/-- CRC_ENGINE_STATUS[e] · 0x0000 + 0x10 × e · fabric · S, H (R399). -/
def CRC_ENGINE_STATUS (d : Die) (e : Nat) : Nat := dieSpace d + 0x3400000 + 0x10 * e
def CRC_ENGINE_STATUS_BUSY : Fld := ⟨31, 1⟩
def CRC_ENGINE_STATUS_GARNET : Fld := ⟨30, 1⟩
def CRC_ENGINE_STATUS_ROUTES : Fld := ⟨23, 7⟩
def CRC_ENGINE_STATUS_ROUTE : Fld := ⟨0, 16⟩
/-- CRC_ENGINE_BYTES_LO[e] · 0x0004 + 0x10 × e and CRC_ENGINE_BYTES_HI[e] · 0x0008 + 0x10 × e · fabric · S, H (R399). -/
def CRC_ENGINE_BYTES_LO (d : Die) (e : Nat) : Nat := dieSpace d + 0x3400004 + 0x10 * e
def CRC_ENGINE_BYTES_LO_BYTES : Fld := ⟨0, 32⟩
/-- CRC_ENGINE_BYTES_LO[e] · 0x0004 + 0x10 × e and CRC_ENGINE_BYTES_HI[e] · 0x0008 + 0x10 × e · fabric · S, H (R399). -/
def CRC_ENGINE_BYTES_HI (d : Die) (e : Nat) : Nat := dieSpace d + 0x3400008 + 0x10 * e
def CRC_ENGINE_BYTES_HI_BYTES : Fld := ⟨0, 32⟩
/-- COPY_STATUS · 0x0100 · fabric · S, H (R399). -/
def COPY_STATUS (d : Die) : Nat := dieSpace d + 0x3400100
def COPY_STATUS_BUSY : Fld := ⟨31, 1⟩
def COPY_STATUS_RATE_GBS : Fld := ⟨0, 16⟩
/-- COPY_BYTES_LO · 0x0104 and COPY_BYTES_HI · 0x0108 · fabric · S, H (R399). -/
def COPY_BYTES_LO (d : Die) : Nat := dieSpace d + 0x3400104
def COPY_BYTES_LO_BYTES : Fld := ⟨0, 32⟩
/-- COPY_BYTES_LO · 0x0104 and COPY_BYTES_HI · 0x0108 · fabric · S, H (R399). -/
def COPY_BYTES_HI (d : Die) : Nat := dieSpace d + 0x3400108
def COPY_BYTES_HI_BYTES : Fld := ⟨0, 32⟩
/-- POWER_STATUS · 0x1000 · always-on · S, H (R420). -/
def POWER_STATUS (d : Die) : Nat := dieSpace d + 0x101000
def POWER_STATUS_STATE : Fld := ⟨29, 3⟩
def POWER_STATUS_HELD : Fld := ⟨28, 1⟩
def POWER_STATUS_FT_RAIL_ON : Fld := ⟨27, 1⟩
def POWER_STATUS_LAST_WAKE : Fld := ⟨0, 6⟩
/-- POWER_CFG · 0x1004 · always-on · S, H (R420). -/
def POWER_CFG (d : Die) : Nat := dieSpace d + 0x101004
def POWER_CFG_FT_RAIL_WAIT_US : Fld := ⟨16, 16⟩
def POWER_CFG_WAKE_EN : Fld := ⟨0, 6⟩
/-- WAKE_TIMER_LO · 0x1008 and WAKE_TIMER_HI · 0x100C · always-on · S, H (R420). -/
def WAKE_TIMER_LO (d : Die) : Nat := dieSpace d + 0x101008
def WAKE_TIMER_LO_TIME : Fld := ⟨0, 32⟩
/-- WAKE_TIMER_LO · 0x1008 and WAKE_TIMER_HI · 0x100C · always-on · S, H (R420). -/
def WAKE_TIMER_HI (d : Die) : Nat := dieSpace d + 0x10100C
def WAKE_TIMER_HI_TIME : Fld := ⟨0, 32⟩
/-- WAKE_CAUSE · 0x1010 · VSTBY · S, H (R420). -/
def WAKE_CAUSE (d : Die) : Nat := dieSpace d + 0x101010
def WAKE_CAUSE_ONYX_EXIT : Fld := ⟨31, 1⟩
def WAKE_CAUSE_ONYX_EXITS : Fld := ⟨0, 16⟩
/-- UNIT_POWERED · 0x1014, UNIT_KEEP_ON · 0x1018, UNIT_OFF_IDLE · 0x101C · fabric · S, H (R420). -/
def UNIT_POWERED (d : Die) : Nat := dieSpace d + 0x101014
def UNIT_POWERED_UNITS : Fld := ⟨0, 29⟩
/-- UNIT_POWERED · 0x1014, UNIT_KEEP_ON · 0x1018, UNIT_OFF_IDLE · 0x101C · fabric · S, H (R420). -/
def UNIT_KEEP_ON (d : Die) : Nat := dieSpace d + 0x101018
def UNIT_KEEP_ON_UNITS : Fld := ⟨0, 29⟩
/-- UNIT_POWERED · 0x1014, UNIT_KEEP_ON · 0x1018, UNIT_OFF_IDLE · 0x101C · fabric · S, H (R420). -/
def UNIT_OFF_IDLE (d : Die) : Nat := dieSpace d + 0x10101C
def UNIT_OFF_IDLE_UNITS : Fld := ⟨0, 29⟩
/-- PERMIT_RAIL[r] · 0x8000 + 0x10 × r, r = 0–3 · fabric · S, H (R420). -/
def PERMIT_RAIL (d : Die) (r : Nat) : Nat := dieSpace d + 0x208000 + 0x10 * r
def PERMIT_RAIL_RESERVED_MA : Fld := ⟨16, 16⟩
def PERMIT_RAIL_BUDGET_MA : Fld := ⟨0, 16⟩
/-- PERMIT_RAIL_STATUS[r] · 0x8004 + 0x10 × r · fabric · S, H (R421). -/
def PERMIT_RAIL_STATUS (d : Die) (r : Nat) : Nat := dieSpace d + 0x208004 + 0x10 * r
def PERMIT_RAIL_STATUS_HELD_MA : Fld := ⟨16, 16⟩
def PERMIT_RAIL_STATUS_WAITING : Fld := ⟨8, 8⟩
def PERMIT_RAIL_STATUS_AGED : Fld := ⟨0, 8⟩
/-- PERMIT_RAIL_WAIT[r] · 0x8008 + 0x10 × r · fabric · S, H (R421). -/
def PERMIT_RAIL_WAIT (d : Die) (r : Nat) : Nat := dieSpace d + 0x208008 + 0x10 * r
def PERMIT_RAIL_WAIT_WAIT_MAX_US : Fld := ⟨0, 16⟩
/-- PERMIT_RAIL_GRANTS[r] · 0x800C + 0x10 × r · fabric · S, H (R421). -/
def PERMIT_RAIL_GRANTS (d : Die) (r : Nat) : Nat := dieSpace d + 0x20800C + 0x10 * r
def PERMIT_RAIL_GRANTS_COUNT : Fld := ⟨0, 32⟩
/-- PERMIT_KIND[k] · 0x8100 + 4 × k, k = 0–5 · fabric · S, H (R421). -/
def PERMIT_KIND (d : Die) (k : Nat) : Nat := dieSpace d + 0x208100 + 0x4 * k
def PERMIT_KIND_STEP_MA : Fld := ⟨16, 16⟩
def PERMIT_KIND_RAIL : Fld := ⟨14, 2⟩
def PERMIT_KIND_DEADLINE : Fld := ⟨13, 1⟩
def PERMIT_KIND_HOLD_US : Fld := ⟨0, 13⟩
/-- PERMIT_CFG · 0x8200 · fabric · S, H (R421). -/
def PERMIT_CFG (d : Die) : Nat := dieSpace d + 0x208200
def PERMIT_CFG_AGE_US : Fld := ⟨16, 16⟩
def PERMIT_CFG_EV_AGED : Fld := ⟨8, 1⟩
def PERMIT_CFG_CLUSTER_GAP_US : Fld := ⟨0, 8⟩
/-- PERMIT_BURST · 0x8204 · fabric · S, H (R421). -/
def PERMIT_BURST (d : Die) : Nat := dieSpace d + 0x208204
def PERMIT_BURST_BURST_KIB : Fld := ⟨0, 16⟩
/-- RESET_CAUSE · 0x0000 · always-on · S, H (R440). -/
def RESET_CAUSE (d : Die) : Nat := dieSpace d + 0x100000
def RESET_CAUSE_LAST : Fld := ⟨31, 1⟩
def RESET_CAUSE_WDOG_SEEN : Fld := ⟨30, 1⟩
def RESET_CAUSE_RESETN_COUNT : Fld := ⟨0, 16⟩
/-- STRAPS · 0x0004 · always-on · S, H (R440). -/
def STRAPS (d : Die) : Nat := dieSpace d + 0x100004
def STRAPS_STRAP_ERR : Fld := ⟨31, 1⟩
def STRAPS_TEST_EN : Fld := ⟨4, 1⟩
def STRAPS_FLASH_B : Fld := ⟨3, 1⟩
def STRAPS_XSPI_OCTAL : Fld := ⟨2, 1⟩
def STRAPS_SENIOR_SEL_B : Fld := ⟨1, 1⟩
def STRAPS_SENIOR_SEL_A : Fld := ⟨0, 1⟩
/-- SEQ_STATUS · 0x0008 · always-on · S, H (R440). -/
def SEQ_STATUS (d : Die) : Nat := dieSpace d + 0x100008
def SEQ_STATUS_DONE : Fld := ⟨31, 1⟩
def SEQ_STATUS_STEP : Fld := ⟨0, 4⟩
/-- BOOT_STATUS · 0x0010 · supervisor · S, H (R440). -/
def BOOT_STATUS (d : Die) : Nat := dieSpace d + 0x100010
def BOOT_STATUS_READY : Fld := ⟨31, 1⟩
def BOOT_STATUS_SPLIT_BOOT : Fld := ⟨30, 1⟩
def BOOT_STATUS_FW_SLOT : Fld := ⟨29, 1⟩
def BOOT_STATUS_CFG_SLOT : Fld := ⟨28, 1⟩
def BOOT_STATUS_ERROR : Fld := ⟨8, 8⟩
def BOOT_STATUS_STAGE : Fld := ⟨0, 4⟩
/-- WDOG_STATUS · 0x0020 · supervisor · S, H (R440). -/
def WDOG_STATUS (d : Die) : Nat := dieSpace d + 0x100020
def WDOG_STATUS_EXPIRED : Fld := ⟨31, 1⟩
def WDOG_STATUS_LOCKSTEP : Fld := ⟨30, 1⟩
def WDOG_STATUS_TIMEOUT_MS : Fld := ⟨0, 14⟩
/-- WDOG_COUNT · 0x0024 · always-on · S, H (R440). -/
def WDOG_COUNT (d : Die) : Nat := dieSpace d + 0x100024
def WDOG_COUNT_COUNT : Fld := ⟨0, 16⟩
/-- BLOCK_QUIESCE · 0x0100 · fabric · S, H (R440). -/
def BLOCK_QUIESCE (d : Die) : Nat := dieSpace d + 0x100100
def BLOCK_QUIESCE_UNITS : Fld := ⟨0, 28⟩
/-- BLOCK_QUIESCED · 0x0104 · fabric · S, H (R440). -/
def BLOCK_QUIESCED (d : Die) : Nat := dieSpace d + 0x100104
def BLOCK_QUIESCED_UNITS : Fld := ⟨0, 28⟩
/-- BLOCK_RESET · 0x0108 · fabric · S, H (R440). -/
def BLOCK_RESET (d : Die) : Nat := dieSpace d + 0x100108
def BLOCK_RESET_UNITS : Fld := ⟨0, 28⟩
/-- BLOCK_PENDING · 0x010C · fabric · S, H (R440). -/
def BLOCK_PENDING (d : Die) : Nat := dieSpace d + 0x10010C
def BLOCK_PENDING_RELEASE_PENDING : Fld := ⟨0, 28⟩
/-- BLOCK_CLK_FAIL · 0x0110 · fabric · S, H (R440). -/
def BLOCK_CLK_FAIL (d : Die) : Nat := dieSpace d + 0x100110
def BLOCK_CLK_FAIL_ISLAND_CLK_FAIL : Fld := ⟨28, 4⟩
def BLOCK_CLK_FAIL_CLOCK_NOT_STABLE : Fld := ⟨0, 28⟩
/-- BLOCK_REFUSED · 0x0114 · fabric · S, H (R440). -/
def BLOCK_REFUSED (d : Die) : Nat := dieSpace d + 0x100114
def BLOCK_REFUSED_UNITS : Fld := ⟨0, 28⟩
/-- EBRUM_CFG · 0x0000 · Ebrum · S, H (R457). -/
def EBRUM_CFG (d : Die) : Nat := dieSpace d + 0x3E00000
def EBRUM_CFG_MAIN_HOLD_MS : Fld := ⟨24, 8⟩
def EBRUM_CFG_LANE_ERR_TH : Fld := ⟨16, 8⟩
def EBRUM_CFG_TEST_MS : Fld := ⟨8, 8⟩
def EBRUM_CFG_MIN_BUNDLES : Fld := ⟨0, 3⟩
/-- EBRUM_STATUS · 0x0004 · Ebrum · S, H (R457). -/
def EBRUM_STATUS (d : Die) : Nat := dieSpace d + 0x3E00004
def EBRUM_STATUS_STATE : Fld := ⟨29, 3⟩
def EBRUM_STATUS_SB_UP : Fld := ⟨28, 1⟩
def EBRUM_STATUS_PEER_OK : Fld := ⟨27, 1⟩
def EBRUM_STATUS_PEER_PEARL : Fld := ⟨26, 1⟩
def EBRUM_STATUS_CAUSE : Fld := ⟨24, 2⟩
def EBRUM_STATUS_BUNDLES_UP : Fld := ⟨20, 4⟩
def EBRUM_STATUS_PEER_REJOIN : Fld := ⟨19, 1⟩
/-- EBRUM_BUNDLE[n] · 0x0010 + 4 × n, n = 0–3 · Ebrum · S, H (R457). -/
def EBRUM_BUNDLE (d : Die) (n : Nat) : Nat := dieSpace d + 0x3E00010 + 0x4 * n
def EBRUM_BUNDLE_STATE : Fld := ⟨30, 2⟩
def EBRUM_BUNDLE_SPARES_AB : Fld := ⟨28, 2⟩
def EBRUM_BUNDLE_SPARES_BA : Fld := ⟨26, 2⟩
def EBRUM_BUNDLE_LAST_FAIL : Fld := ⟨8, 6⟩
def EBRUM_BUNDLE_EYE_MIN : Fld := ⟨0, 8⟩
/-- EBRUM_COUNTS0 · 0x0020 · Ebrum · S, H (R457). -/
def EBRUM_COUNTS0 (d : Die) : Nat := dieSpace d + 0x3E00020
def EBRUM_COUNTS0_REMAPS : Fld := ⟨16, 16⟩
def EBRUM_COUNTS0_BUNDLES_DOWN : Fld := ⟨0, 16⟩
/-- EBRUM_COUNTS1 · 0x0024 · Ebrum · S, H (R457). -/
def EBRUM_COUNTS1 (d : Die) : Nat := dieSpace d + 0x3E00024
def EBRUM_COUNTS1_SPLITS : Fld := ⟨16, 16⟩
def EBRUM_COUNTS1_REJOINS : Fld := ⟨0, 16⟩
/-- EBRUM_REPLAYS · 0x0028 · Ebrum · S, H (R457). -/
def EBRUM_REPLAYS (d : Die) : Nat := dieSpace d + 0x3E00028
def EBRUM_REPLAYS_COUNT : Fld := ⟨0, 32⟩
/-- LT_CTRL · 0x40 × u · fabric · S, H (R467). -/
def LT_CTRL (d : Die) (u : Nat) : Nat := dieSpace d + 0x3800000 + 0x40 * u
def LT_CTRL_STOP : Fld := ⟨1, 1⟩
def LT_CTRL_START : Fld := ⟨0, 1⟩
/-- LT_CFG · +0x04 · fabric · S, H (R467). -/
def LT_CFG (d : Die) (u : Nat) : Nat := dieSpace d + 0x3800004 + 0x40 * u
def LT_CFG_DURATION_MS : Fld := ⟨16, 16⟩
def LT_CFG_LANES_HI : Fld := ⟨8, 2⟩
def LT_CFG_MODE : Fld := ⟨6, 2⟩
def LT_CFG_INVERT : Fld := ⟨4, 1⟩
def LT_CFG_PATTERN : Fld := ⟨0, 4⟩
/-- LT_LANES · +0x08 · fabric · S, H (R467). -/
def LT_LANES (d : Die) (u : Nat) : Nat := dieSpace d + 0x3800008 + 0x40 * u
def LT_LANES_LANES : Fld := ⟨0, 32⟩
/-- LT_RATE · +0x0C · fabric · S, H (R467). -/
def LT_RATE (d : Die) (u : Nat) : Nat := dieSpace d + 0x380000C + 0x40 * u
def LT_RATE_MBPS : Fld := ⟨0, 15⟩
/-- LT_STATUS · +0x10 · fabric · S, H (R467). -/
def LT_STATUS (d : Die) (u : Nat) : Nat := dieSpace d + 0x3800010 + 0x40 * u
def LT_STATUS_STATE : Fld := ⟨30, 2⟩
def LT_STATUS_CAUSE : Fld := ⟨28, 2⟩
def LT_STATUS_START_ERR : Fld := ⟨25, 3⟩
def LT_STATUS_RETRAIN : Fld := ⟨24, 1⟩
def LT_STATUS_RELOCKS : Fld := ⟨16, 8⟩
def LT_STATUS_NOLOCK_HI : Fld := ⟨0, 2⟩
/-- LT_NOLOCK · +0x14 · fabric · S, H (R467). -/
def LT_NOLOCK (d : Die) (u : Nat) : Nat := dieSpace d + 0x3800014 + 0x40 * u
def LT_NOLOCK_LANES : Fld := ⟨0, 32⟩
/-- LT_BITS_LO · +0x18 and LT_BITS_HI · +0x1C · fabric · S, H (R467). -/
def LT_BITS_LO (d : Die) (u : Nat) : Nat := dieSpace d + 0x3800018 + 0x40 * u
def LT_BITS_LO_BITS : Fld := ⟨0, 32⟩
/-- LT_BITS_LO · +0x18 and LT_BITS_HI · +0x1C · fabric · S, H (R467). -/
def LT_BITS_HI (d : Die) (u : Nat) : Nat := dieSpace d + 0x380001C + 0x40 * u
def LT_BITS_HI_BITS : Fld := ⟨0, 32⟩
/-- LT_USER_LO · 0x0800 and LT_USER_HI · 0x0804 · fabric · S, H (R467). -/
def LT_USER_LO (d : Die) : Nat := dieSpace d + 0x3800800
def LT_USER_LO_PATTERN : Fld := ⟨0, 32⟩
/-- LT_USER_LO · 0x0800 and LT_USER_HI · 0x0804 · fabric · S, H (R467). -/
def LT_USER_HI (d : Die) : Nat := dieSpace d + 0x3800804
def LT_USER_HI_PATTERN : Fld := ⟨0, 32⟩
/-- LT_EYE_CTRL · 0x0900 · fabric · S, H (R467). -/
def LT_EYE_CTRL (d : Die) : Nat := dieSpace d + 0x3800900
def LT_EYE_CTRL_GO : Fld := ⟨31, 1⟩
def LT_EYE_CTRL_UNIT : Fld := ⟨26, 5⟩
def LT_EYE_CTRL_LANE : Fld := ⟨20, 6⟩
def LT_EYE_CTRL_T_STEP : Fld := ⟨14, 6⟩
def LT_EYE_CTRL_V_STEP : Fld := ⟨8, 6⟩
def LT_EYE_CTRL_DWELL : Fld := ⟨0, 6⟩
/-- LT_EYE_RESULT · 0x0904 · fabric · S, H (R467). -/
def LT_EYE_RESULT (d : Die) : Nat := dieSpace d + 0x3800904
def LT_EYE_RESULT_DONE : Fld := ⟨31, 1⟩
def LT_EYE_RESULT_INVALID : Fld := ⟨30, 1⟩
def LT_EYE_RESULT_ERRORS : Fld := ⟨0, 30⟩
/-- LT_ERR[u][l] · 0x1000 + 0x100 × u + 4 × l · fabric · S, H (R467). -/
def LT_ERR (d : Die) (u l : Nat) : Nat := dieSpace d + 0x3801000 + 0x100 * u + 0x4 * l
def LT_ERR_COUNT : Fld := ⟨0, 32⟩
/-- RINLAR_STATUS · 0x0000 · always-on · S, H (R478). -/
def RINLAR_STATUS (d : Die) : Nat := dieSpace d + 0x3C00000
def RINLAR_STATUS_BUSY : Fld := ⟨31, 1⟩
def RINLAR_STATUS_DEGRADED : Fld := ⟨30, 1⟩
def RINLAR_STATUS_SLOTS_GOOD : Fld := ⟨24, 6⟩
def RINLAR_STATUS_LAST_CAUSE : Fld := ⟨21, 3⟩
def RINLAR_STATUS_NEWEST : Fld := ⟨0, 5⟩
/-- RINLAR_SEQ_LO · 0x0004 and RINLAR_SEQ_HI · 0x0008 · always-on · S, H (R478). -/
def RINLAR_SEQ_LO (d : Die) : Nat := dieSpace d + 0x3C00004
def RINLAR_SEQ_LO_SEQ : Fld := ⟨0, 32⟩
/-- RINLAR_SEQ_LO · 0x0004 and RINLAR_SEQ_HI · 0x0008 · always-on · S, H (R478). -/
def RINLAR_SEQ_HI (d : Die) : Nat := dieSpace d + 0x3C00008
def RINLAR_SEQ_HI_SEQ : Fld := ⟨0, 32⟩
/-- RINLAR_CTRL · 0x000C · Rinlar record · S, H (R478). -/
def RINLAR_CTRL (d : Die) : Nat := dieSpace d + 0x3C0000C
def RINLAR_CTRL_LATCH : Fld := ⟨31, 1⟩
def RINLAR_CTRL_LIVE : Fld := ⟨30, 1⟩
def RINLAR_CTRL_SNAP : Fld := ⟨29, 1⟩
def RINLAR_CTRL_LATCH_DONE : Fld := ⟨28, 1⟩
/-- RINLAR_WIN[i] · 0x1000 + 4 × i, i = 0–4,095 · Rinlar record · S, H (R478). -/
def RINLAR_WIN (d : Die) (i : Nat) : Nat := dieSpace d + 0x3C01000 + 0x4 * i
def RINLAR_WIN_WORD : Fld := ⟨0, 32⟩
/-- GPIO_DIR · 0x2000 · fabric · S, H (R490). -/
def GPIO_DIR (d : Die) : Nat := dieSpace d + 0x102000
def GPIO_DIR_OE : Fld := ⟨0, 16⟩
/-- GPIO_OUT · 0x2004 · fabric · S, H (R490). -/
def GPIO_OUT (d : Die) : Nat := dieSpace d + 0x102004
def GPIO_OUT_LEVEL : Fld := ⟨0, 16⟩
/-- GPIO_IN · 0x2008 · fabric · S, H (R490). -/
def GPIO_IN (d : Die) : Nat := dieSpace d + 0x102008
def GPIO_IN_LEVEL : Fld := ⟨0, 16⟩
/-- GPIO_PULL · 0x200C · fabric · S, H (R490). -/
def GPIO_PULL (d : Die) : Nat := dieSpace d + 0x10200C
def GPIO_PULL_UP : Fld := ⟨16, 16⟩
def GPIO_PULL_DOWN : Fld := ⟨0, 16⟩
/-- GPIO_DRIVE · 0x2010 · fabric · S, H (R490). -/
def GPIO_DRIVE (d : Die) : Nat := dieSpace d + 0x102010
def GPIO_DRIVE_STRENGTH : Fld := ⟨0, 32⟩
/-- GLOBAL_ID · 0x0000 · always-on · S, H (R495). -/
def GLOBAL_ID (d : Die) : Nat := dieSpace d + 0x0
def GLOBAL_ID_PART : Fld := ⟨16, 16⟩
def GLOBAL_ID_STEPPING : Fld := ⟨8, 8⟩
def GLOBAL_ID_VARIANT : Fld := ⟨4, 4⟩
def GLOBAL_ID_GRADE : Fld := ⟨0, 4⟩
/-- GLOBAL_DIE · 0x0004 · always-on · S, H (R495). -/
def GLOBAL_DIE (d : Die) : Nat := dieSpace d + 0x4
def GLOBAL_DIE_SENIOR : Fld := ⟨1, 1⟩
def GLOBAL_DIE_DIE : Fld := ⟨0, 1⟩
/-- UNIT_PRESENT · 0x0008 · always-on · S, H (R495). -/
def UNIT_PRESENT (d : Die) : Nat := dieSpace d + 0x8
def UNIT_PRESENT_UNITS : Fld := ⟨0, 29⟩
/-- CAP_DISPLAY · 0x0010 · always-on · S, H (R495). -/
def CAP_DISPLAY (d : Die) : Nat := dieSpace d + 0x10
def CAP_DISPLAY_PCLK_MAX_MHZ : Fld := ⟨22, 10⟩
def CAP_DISPLAY_FT_MIB : Fld := ⟨14, 8⟩
def CAP_DISPLAY_LAYERS : Fld := ⟨9, 5⟩
def CAP_DISPLAY_PORTS : Fld := ⟨6, 3⟩
def CAP_DISPLAY_HEADS : Fld := ⟨3, 3⟩
/-- CAP_MEDIA · 0x0014 · always-on · S, H (R495). -/
def CAP_MEDIA (d : Die) : Nat := dieSpace d + 0x14
def CAP_MEDIA_AUDIO_PLAY : Fld := ⟨24, 8⟩
def CAP_MEDIA_AUDIO_BUSES : Fld := ⟨19, 5⟩
def CAP_MEDIA_TOUCH_CH : Fld := ⟨12, 7⟩
def CAP_MEDIA_I2C_PORTS : Fld := ⟨9, 3⟩
def CAP_MEDIA_HAPTIC : Fld := ⟨6, 3⟩
def CAP_MEDIA_CAM_PORTS : Fld := ⟨3, 3⟩
def CAP_MEDIA_VC_PER_PORT : Fld := ⟨0, 3⟩
/-- CAP_COMPUTE · 0x0018 · supervisor · S, H (R495). -/
def CAP_COMPUTE (d : Die) : Nat := dieSpace d + 0x18
def CAP_COMPUTE_LOCAL_GIB : Fld := ⟨24, 8⟩
def CAP_COMPUTE_CACHE_MIB : Fld := ⟨16, 8⟩
def CAP_COMPUTE_L2_MIB : Fld := ⟨8, 8⟩
def CAP_COMPUTE_CLUSTERS : Fld := ⟨4, 4⟩
/-- ACCESS_LOG_INFO · 0x0020 · PCIe · S, H (R495). -/
def ACCESS_LOG_INFO (f : Fun) : Nat := fnSpace f + 0x20
def ACCESS_LOG_INFO_VALID : Fld := ⟨31, 1⟩
def ACCESS_LOG_INFO_WRITE : Fld := ⟨30, 1⟩
def ACCESS_LOG_INFO_SIZE : Fld := ⟨27, 3⟩
/-- ACCESS_LOG_ADDR · 0x0024 · PCIe · S, H (R495). -/
def ACCESS_LOG_ADDR (f : Fun) : Nat := fnSpace f + 0x24
def ACCESS_LOG_ADDR_OFFSET : Fld := ⟨0, 26⟩
/-- ACCESS_LOG_COUNT · 0x0028 · PCIe · S, H (R495). -/
def ACCESS_LOG_COUNT (f : Fun) : Nat := fnSpace f + 0x28
def ACCESS_LOG_COUNT_COUNT : Fld := ⟨0, 32⟩

/-- Register rows of the Global block (Table 22.3). -/
def rowsGlobal : List RegRow := [
  ⟨0x0, 1, 0x4000000, 1, 0x4, .alwaysOn, true, true, 0x5138B000, 0x0, 0x0, 0x0, 0⟩,
  ⟨0x4, 1, 0x4000000, 1, 0x4, .alwaysOn, true, true, 0x0, 0x0, 0x0, 0x0, 0⟩,
  ⟨0x8, 1, 0x4000000, 1, 0x4, .alwaysOn, true, true, 0x0, 0x0, 0x0, 0x0, 0⟩,
  ⟨0x10, 1, 0x4000000, 1, 0x4, .alwaysOn, true, true, 0x96202120, 0x0, 0x0, 0x0, 0⟩,
  ⟨0x14, 1, 0x4000000, 1, 0x4, .alwaysOn, true, true, 0x404, 0x0, 0x0, 0x0, 0⟩,
  ⟨0x18, 1, 0x4000000, 1, 0x4, .supervisor, true, true, 0x100400, 0x0, 0x0, 0x0, 0⟩,
  ⟨0x20, 1, 0x4000000, 1, 0x4, .pcie, true, true, 0x0, 0x0, 0x80000000, 0x0, 0⟩,
  ⟨0x24, 1, 0x4000000, 1, 0x4, .pcie, true, true, 0x0, 0x0, 0x0, 0x0, 0⟩,
  ⟨0x28, 1, 0x4000000, 1, 0x4, .pcie, true, true, 0x0, 0x0, 0x0, 0x0, 0⟩]

/-- Register rows of the ResetPower block (Table 22.3). -/
def rowsResetPower : List RegRow := [
  ⟨0x101000, 1, 0x4000000, 1, 0x4, .alwaysOn, true, true, 0x8000000, 0x0, 0x0, 0x0, 0⟩,
  ⟨0x101004, 1, 0x4000000, 1, 0x4, .alwaysOn, true, true, 0x1F4003F, 0xFFFF003F, 0x0, 0x0, 0⟩,
  ⟨0x101008, 1, 0x4000000, 1, 0x4, .alwaysOn, true, true, 0x0, 0xFFFFFFFF, 0x0, 0x0, 1⟩,
  ⟨0x10100C, 1, 0x4000000, 1, 0x4, .alwaysOn, true, true, 0x0, 0xFFFFFFFF, 0x0, 0x0, 2⟩,
  ⟨0x101010, 1, 0x4000000, 1, 0x4, .vstby, true, true, 0x0, 0x0, 0x0, 0x0, 0⟩,
  ⟨0x101014, 1, 0x4000000, 1, 0x4, .fabric, true, true, 0x0, 0x0, 0x0, 0x0, 0⟩,
  ⟨0x101018, 1, 0x4000000, 1, 0x4, .fabric, true, true, 0x0, 0x0, 0x0, 0x0, 0⟩,
  ⟨0x10101C, 1, 0x4000000, 1, 0x4, .fabric, true, true, 0x0, 0x0, 0x0, 0x0, 0⟩,
  ⟨0x100000, 1, 0x4000000, 1, 0x4, .alwaysOn, true, true, 0x0, 0x0, 0x0, 0x0, 0⟩,
  ⟨0x100004, 1, 0x4000000, 1, 0x4, .alwaysOn, true, true, 0x0, 0x0, 0x0, 0x0, 0⟩,
  ⟨0x100008, 1, 0x4000000, 1, 0x4, .alwaysOn, true, true, 0x0, 0x0, 0x0, 0x0, 0⟩,
  ⟨0x100010, 1, 0x4000000, 1, 0x4, .supervisor, true, true, 0x0, 0x0, 0x0, 0x0, 0⟩,
  ⟨0x100020, 1, 0x4000000, 1, 0x4, .supervisor, true, true, 0x7D0, 0x0, 0x0, 0x0, 0⟩,
  ⟨0x100024, 1, 0x4000000, 1, 0x4, .alwaysOn, true, true, 0x0, 0x0, 0x0, 0x0, 0⟩,
  ⟨0x100100, 1, 0x4000000, 1, 0x4, .fabric, true, true, 0x0, 0xFFFFFFF, 0x0, 0x0, 0⟩,
  ⟨0x100104, 1, 0x4000000, 1, 0x4, .fabric, true, true, 0x0, 0x0, 0x0, 0x0, 0⟩,
  ⟨0x100108, 1, 0x4000000, 1, 0x4, .fabric, true, true, 0x0, 0xFFFFFFF, 0x0, 0x0, 0⟩,
  ⟨0x10010C, 1, 0x4000000, 1, 0x4, .fabric, true, true, 0x0, 0x0, 0x0, 0x0, 0⟩,
  ⟨0x100110, 1, 0x4000000, 1, 0x4, .fabric, true, true, 0x0, 0x0, 0xFFFFFFFF, 0x0, 0⟩,
  ⟨0x100114, 1, 0x4000000, 1, 0x4, .fabric, true, true, 0x0, 0x0, 0xFFFFFFF, 0x0, 0⟩,
  ⟨0x102000, 1, 0x4000000, 1, 0x4, .fabric, true, true, 0x0, 0xFFFF, 0x0, 0x0, 0⟩,
  ⟨0x102004, 1, 0x4000000, 1, 0x4, .fabric, true, true, 0x0, 0xFFFF, 0x0, 0x0, 0⟩,
  ⟨0x102008, 1, 0x4000000, 1, 0x4, .fabric, true, true, 0x0, 0x0, 0x0, 0x0, 0⟩,
  ⟨0x10200C, 1, 0x4000000, 1, 0x4, .fabric, true, true, 0xFFFF, 0xFFFFFFFF, 0x0, 0x0, 0⟩,
  ⟨0x102010, 1, 0x4000000, 1, 0x4, .fabric, true, true, 0x55555555, 0xFFFFFFFF, 0x0, 0x0, 0⟩]

/-- Register rows of the Fabric block (Table 22.3). -/
def rowsFabric : List RegRow := [
  ⟨0x200000, 1, 0x4000000, 1, 0x4, .fabric, true, true, 0x0, 0x0, 0x0, 0x0, 0⟩,
  ⟨0x200004, 1, 0x4000000, 1, 0x4, .fabric, true, true, 0x258, 0x0, 0x0, 0x0, 0⟩,
  ⟨0x200008, 1, 0x4000000, 1, 0x4, .fabric, true, true, 0x5DC, 0xFFFF, 0x0, 0x0, 0⟩,
  ⟨0x20000C, 1, 0x4000000, 1, 0x4, .fabric, true, true, 0x1E32, 0xFFFF, 0x0, 0x0, 0⟩,
  ⟨0x200010, 1, 0x4000000, 1, 0x4, .fabric, true, true, 0x51407, 0xFFFF07, 0x0, 0x0, 0⟩,
  ⟨0x200014, 1, 0x4000000, 1, 0x4, .fabric, true, true, 0x2EE, 0xFFFF, 0x0, 0x0, 0⟩,
  ⟨0x200020, 1, 0x4000000, 1, 0x4, .fabric, true, true, 0x10900, 0x10F0F, 0x0, 0x0, 0⟩,
  ⟨0x200024, 1, 0x4000000, 1, 0x4, .fabric, true, true, 0x3840258, 0xFFFFFFFF, 0x0, 0x0, 0⟩,
  ⟨0x200028, 1, 0x4000000, 1, 0x4, .fabric, true, true, 0x0, 0x0, 0x10000, 0x0, 0⟩,
  ⟨0x20002C, 1, 0x4000000, 1, 0x4, .fabric, true, true, 0x0, 0x0, 0x0, 0x0, 0⟩,
  ⟨0x201000, 256, 0x10, 1, 0x4, .fabric, true, true, 0x0, 0x1, 0x0, 0x0, 0⟩,
  ⟨0x201004, 256, 0x10, 1, 0x4, .fabric, true, true, 0x0, 0x0, 0xC, 0x0, 0⟩,
  ⟨0x201008, 256, 0x10, 1, 0x4, .fabric, true, true, 0x0, 0x0, 0x0, 0x0, 0⟩,
  ⟨0x20100C, 256, 0x10, 1, 0x4, .fabric, true, true, 0x0, 0x0, 0x0, 0x0, 0⟩,
  ⟨0x208000, 4, 0x10, 1, 0x4, .fabric, true, true, 0x0, 0xFFFFFFFF, 0x0, 0x0, 0⟩,
  ⟨0x208004, 4, 0x10, 1, 0x4, .fabric, true, true, 0x0, 0x0, 0x0, 0x0, 0⟩,
  ⟨0x208008, 4, 0x10, 1, 0x4, .fabric, true, true, 0x0, 0x0, 0x0, 0x0, 0⟩,
  ⟨0x20800C, 4, 0x10, 1, 0x4, .fabric, true, true, 0x0, 0x0, 0x0, 0x0, 0⟩,
  ⟨0x208100, 6, 0x4, 1, 0x4, .fabric, true, true, 0x0, 0xFFFF1FFF, 0x0, 0x0, 0⟩,
  ⟨0x208200, 1, 0x4000000, 1, 0x4, .fabric, true, true, 0x640101, 0xFFFF01FF, 0x0, 0x0, 0⟩,
  ⟨0x208204, 1, 0x4000000, 1, 0x4, .fabric, true, true, 0x400, 0xFFFF, 0x0, 0x0, 0⟩]

/-- Register rows of the Rings block (Table 22.3). -/
def rowsRings : List RegRow := [
  ⟨0x310000, 32, 0x800, 16, 0x40, .pcie, true, true, 0x0, 0xFFFFF000, 0x0, 0x0, 1⟩,
  ⟨0x310004, 32, 0x800, 16, 0x40, .pcie, true, true, 0x0, 0xFFFF, 0x0, 0x0, 2⟩,
  ⟨0x310008, 32, 0x800, 16, 0x40, .pcie, true, true, 0x0, 0xFFF1F, 0x0, 0x0, 0⟩,
  ⟨0x31000C, 32, 0x800, 16, 0x40, .pcie, true, true, 0x0, 0x83FF3F3F, 0x0, 0x0, 0⟩,
  ⟨0x310010, 32, 0x800, 16, 0x40, .pcie, true, true, 0x0, 0xFFFFFFF8, 0x0, 0x0, 1⟩,
  ⟨0x310014, 32, 0x800, 16, 0x40, .pcie, true, true, 0x0, 0xFFFF, 0x0, 0x0, 2⟩,
  ⟨0x310018, 32, 0x800, 16, 0x40, .pcie, true, true, 0x0, 0xFFFFFFF8, 0x0, 0x0, 1⟩,
  ⟨0x31001C, 32, 0x800, 16, 0x40, .pcie, true, true, 0x0, 0xFFFF, 0x0, 0x0, 2⟩,
  ⟨0x310020, 32, 0x800, 16, 0x40, .pcie, true, true, 0x0, 0x0, 0x0, 0x0, 1⟩,
  ⟨0x310024, 32, 0x800, 16, 0x40, .pcie, true, true, 0x0, 0x0, 0x0, 0x0, 2⟩,
  ⟨0x310028, 32, 0x800, 16, 0x40, .pcie, true, true, 0x0, 0x0, 0x0, 0x0, 0⟩,
  ⟨0x31002C, 32, 0x800, 16, 0x40, .pcie, true, true, 0x0, 0x0, 0x0, 0x0, 0⟩,
  ⟨0x310030, 32, 0x800, 16, 0x40, .pcie, true, true, 0x0, 0x0, 0xF8, 0x0, 0⟩,
  ⟨0x310400, 32, 0x800, 1, 0x4, .pcie, true, true, 0x0, 0x0, 0x0, 0x0, 0⟩,
  ⟨0x310404, 32, 0x800, 1, 0x4, .pcie, true, true, 0x0, 0x0, 0x0, 0x0, 0⟩,
  ⟨0x310408, 32, 0x800, 1, 0x4, .pcie, true, true, 0x0, 0x0, 0x0, 0x0, 0⟩]

/-- Register rows of the MmuIso block (Table 22.3). -/
def rowsMmuIso : List RegRow := [
  ⟨0x400000, 1, 0x4000000, 1, 0x4, .memory, true, false, 0x0, 0x3FFF, 0x0, 0x0, 0⟩,
  ⟨0x400004, 1, 0x4000000, 1, 0x4, .memory, true, false, 0x0, 0x80003FFF, 0x0, 0x0, 0⟩,
  ⟨0x400008, 1, 0x4000000, 1, 0x4, .memory, true, false, 0xC000, 0xFFFF, 0x0, 0x0, 0⟩,
  ⟨0x40000C, 1, 0x4000000, 1, 0x4, .memory, true, true, 0xFFFF, 0xFFFF, 0x0, 0x0, 0⟩,
  ⟨0x400010, 1, 0x4000000, 1, 0x4, .fabric, true, true, 0x0, 0x0, 0x0, 0x0, 0⟩,
  ⟨0x400014, 1, 0x4000000, 1, 0x4, .fabric, true, true, 0x0, 0x0, 0x0, 0x0, 0⟩,
  ⟨0x400018, 1, 0x4000000, 1, 0x4, .supervisor, true, true, 0x0, 0x0, 0x0, 0x0, 0⟩,
  ⟨0x40001C, 1, 0x4000000, 1, 0x4, .supervisor, true, false, 0x0, 0x0, 0x0, 0x0, 0⟩,
  ⟨0x400020, 1, 0x4000000, 1, 0x4, .pcie, true, false, 0x0, 0x0, 0x0, 0x0, 0⟩,
  ⟨0x400030, 4, 0x4, 1, 0x4, .supervisor, true, false, 0x0, 0x0, 0x0, 0x0, 0⟩,
  ⟨0x400040, 1, 0x4000000, 1, 0x4, .pcie, true, true, 0x0, 0xFFFFF000, 0x0, 0x0, 1⟩,
  ⟨0x400044, 1, 0x4000000, 1, 0x4, .pcie, true, true, 0x0, 0xFFFF, 0x0, 0x0, 2⟩,
  ⟨0x400048, 1, 0x4000000, 1, 0x4, .pcie, true, true, 0x30000000, 0x3BFFFFFF, 0x0, 0x40000000, 0⟩,
  ⟨0x401000, 32, 0x40, 1, 0x4, .pcie, true, true, 0x0, 0x0, 0x0, 0x0, 0⟩,
  ⟨0x401004, 32, 0x40, 1, 0x4, .pcie, true, true, 0x0, 0x3, 0x0, 0x0, 0⟩,
  ⟨0x401008, 32, 0x40, 1, 0x4, .pcie, true, true, 0x0, 0xFFFFF000, 0x0, 0x0, 1⟩,
  ⟨0x40100C, 32, 0x40, 1, 0x4, .pcie, true, true, 0x0, 0xFFFF, 0x0, 0x0, 2⟩,
  ⟨0x401010, 32, 0x40, 1, 0x4, .pcie, true, true, 0x0, 0xFFFFF001, 0x0, 0x0, 1⟩,
  ⟨0x401014, 32, 0x40, 1, 0x4, .pcie, true, true, 0x0, 0xFFFFF, 0x0, 0x0, 2⟩,
  ⟨0x401018, 32, 0x40, 1, 0x4, .pcie, true, true, 0x0, 0x0, 0x80000000, 0x0, 0⟩,
  ⟨0x40101C, 32, 0x40, 1, 0x4, .pcie, true, true, 0x0, 0x0, 0x0, 0x0, 1⟩,
  ⟨0x401020, 32, 0x40, 1, 0x4, .pcie, true, true, 0x0, 0x0, 0x0, 0x0, 2⟩,
  ⟨0x401024, 32, 0x40, 1, 0x4, .pcie, false, true, 0x0, 0x0, 0x0, 0x1, 0⟩,
  ⟨0x404000, 4096, 0x4, 1, 0x4, .fabric, true, true, 0x0, 0x0, 0x0, 0x0, 0⟩]

/-- Register rows of the Heads block (Table 22.3). -/
def rowsHeads : List RegRow := [
  ⟨0x800000, 4, 0x10000, 1, 0x4, .heads, true, true, 0x800000, 0x0, 0x0, 0x0, 0⟩,
  ⟨0x800004, 4, 0x10000, 1, 0x4, .heads, true, true, 0x0, 0xFFFFF, 0x0, 0x0, 0⟩,
  ⟨0x800008, 4, 0x10000, 1, 0x4, .heads, true, true, 0x0, 0x0, 0x0, 0x0, 0⟩,
  ⟨0x800010, 4, 0x10000, 1, 0x4, .heads, true, true, 0x0, 0xFFFFFFFF, 0x0, 0x0, 0⟩,
  ⟨0x800014, 4, 0x10000, 1, 0x4, .heads, true, true, 0x0, 0xFFFFFFFF, 0x0, 0x0, 0⟩,
  ⟨0x800018, 4, 0x10000, 1, 0x4, .heads, true, true, 0x0, 0xFFFFFFFF, 0x0, 0x0, 0⟩,
  ⟨0x80001C, 4, 0x10000, 1, 0x4, .heads, true, true, 0x0, 0xFFFFFFFF, 0x0, 0x0, 0⟩,
  ⟨0x800020, 4, 0x10000, 1, 0x4, .heads, true, true, 0x0, 0x7, 0x0, 0x0, 0⟩,
  ⟨0x800030, 4, 0x10000, 1, 0x4, .heads, true, true, 0x0, 0x0, 0x40000000, 0x0, 0⟩,
  ⟨0x800034, 4, 0x10000, 1, 0x4, .heads, true, true, 0x0, 0x0, 0x0, 0x0, 1⟩,
  ⟨0x800038, 4, 0x10000, 1, 0x4, .heads, true, true, 0x0, 0x0, 0x0, 0x0, 2⟩,
  ⟨0x800040, 4, 0x10000, 1, 0x4, .heads, true, true, 0x0, 0x0, 0x0, 0x0, 0⟩,
  ⟨0x800044, 4, 0x10000, 1, 0x4, .heads, true, true, 0x0, 0xFF, 0x0, 0x0, 0⟩,
  ⟨0x800048, 4, 0x10000, 1, 0x4, .heads, true, true, 0x600, 0x7FF, 0x0, 0x0, 0⟩,
  ⟨0x800050, 4, 0x10000, 1, 0x4, .heads, true, true, 0x0, 0xFFF03FFF, 0x0, 0x0, 0⟩,
  ⟨0x800054, 4, 0x10000, 1, 0x4, .heads, true, true, 0x0, 0x0, 0x0, 0x0, 0⟩,
  ⟨0x800060, 4, 0x10000, 1, 0x4, .heads, true, true, 0x0, 0x0, 0x0, 0x0, 0⟩,
  ⟨0x800064, 4, 0x10000, 1, 0x4, .heads, true, true, 0x0, 0x0, 0x0, 0x0, 0⟩,
  ⟨0x840000, 4, 0x10000, 1, 0x4, .heads, true, true, 0x0, 0x0, 0x0, 0x0, 0⟩,
  ⟨0x840004, 4, 0x10000, 1, 0x4, .heads, true, true, 0x0, 0x0, 0x0, 0x0, 0⟩]

/-- Register rows of the Composer block (Table 22.3). -/
def rowsComposer : List RegRow := [
  ⟨0xC00000, 1, 0x4000000, 1, 0x4, .composer, true, true, 0x0, 0x0, 0x0, 0x0, 0⟩,
  ⟨0xC00004, 1, 0x4000000, 1, 0x4, .composer, true, true, 0x3, 0x3, 0x0, 0x0, 0⟩,
  ⟨0xC00100, 4, 0x20, 1, 0x4, .composer, true, true, 0x0, 0x0, 0x0, 0x0, 0⟩,
  ⟨0xC00104, 4, 0x20, 1, 0x4, .composer, true, true, 0x8000001, 0x0, 0x0, 0x0, 0⟩,
  ⟨0xC00108, 4, 0x20, 1, 0x4, .composer, true, true, 0x0, 0x0, 0x0, 0x0, 0⟩,
  ⟨0xC0010C, 4, 0x20, 1, 0x4, .composer, true, true, 0x0, 0x0, 0x0, 0x0, 0⟩,
  ⟨0xC01000, 4, 0x100, 16, 0x4, .composer, true, true, 0x0, 0x0, 0x0, 0x0, 0⟩]

/-- Register rows of the Garnet block (Table 22.3). -/
def rowsGarnet : List RegRow := [
  ⟨0x1000000, 1, 0x4000000, 1, 0x4, .supervisor, true, false, 0x64, 0xE00003FF, 0x0, 0x0, 0⟩,
  ⟨0x1000004, 1, 0x4000000, 1, 0x4, .supervisor, true, false, 0x80000000, 0x0, 0x0, 0x0, 0⟩,
  ⟨0x1000008, 1, 0x4000000, 1, 0x4, .supervisor, true, false, 0x0, 0x0, 0x0, 0x0, 0⟩,
  ⟨0x100000C, 1, 0x4000000, 1, 0x4, .supervisor, true, false, 0x0, 0x0, 0x0, 0x0, 0⟩,
  ⟨0x1000010, 1, 0x4000000, 1, 0x4, .supervisor, true, false, 0x0, 0x0, 0x0, 0x0, 0⟩,
  ⟨0x1000020, 1, 0x4000000, 1, 0x4, .supervisor, true, false, 0x80010000, 0x0, 0x0, 0x0, 0⟩,
  ⟨0x1000024, 1, 0x4000000, 1, 0x4, .supervisor, true, false, 0x0, 0x0, 0x0, 0x0, 0⟩,
  ⟨0x1000028, 1, 0x4000000, 1, 0x4, .supervisor, true, false, 0x0, 0x0, 0x0, 0x0, 0⟩,
  ⟨0x100002C, 1, 0x4000000, 1, 0x4, .supervisor, true, false, 0x0, 0x0, 0x0, 0x0, 0⟩,
  ⟨0x1001000, 4, 0x100, 1, 0x4, .heads, true, false, 0x0, 0x0, 0x10000000, 0x0, 0⟩,
  ⟨0x1001004, 4, 0x100, 1, 0x4, .heads, true, false, 0x0, 0x0, 0x0, 0x0, 0⟩,
  ⟨0x1001010, 4, 0x100, 8, 0x4, .heads, true, false, 0x0, 0x0, 0x0, 0x0, 0⟩,
  ⟨0x1001030, 4, 0x100, 8, 0x4, .heads, true, false, 0x0, 0x0, 0x0, 0x0, 0⟩]

/-- Register rows of the Camera block (Table 22.3). -/
def rowsCamera : List RegRow := [
  ⟨0x1400000, 4, 0x1000, 1, 0x4, .camera, true, true, 0x0, 0x0, 0x0, 0x0, 0⟩,
  ⟨0x1400004, 4, 0x1000, 1, 0x4, .camera, true, true, 0xE4, 0x0, 0x0, 0x0, 0⟩,
  ⟨0x1400008, 4, 0x1000, 1, 0x4, .camera, true, true, 0x0, 0x0, 0x0, 0x0, 0⟩,
  ⟨0x1400010, 4, 0x1000, 1, 0x4, .camera, true, true, 0x0, 0x0, 0x0, 0x0, 0⟩,
  ⟨0x1400014, 4, 0x1000, 1, 0x4, .camera, true, true, 0x0, 0x0, 0x0, 0x0, 0⟩,
  ⟨0x1400018, 4, 0x1000, 1, 0x4, .camera, true, true, 0x0, 0x0, 0x0, 0x0, 0⟩,
  ⟨0x140001C, 4, 0x1000, 1, 0x4, .camera, true, true, 0x0, 0x0, 0x0, 0x1, 0⟩,
  ⟨0x1404000, 4, 0x400, 4, 0x100, .camera, true, true, 0x80000000, 0x0, 0x0, 0x0, 0⟩,
  ⟨0x1404004, 4, 0x400, 4, 0x100, .camera, true, true, 0x0, 0x0, 0x0, 0x0, 1⟩,
  ⟨0x1404008, 4, 0x400, 4, 0x100, .camera, true, true, 0x0, 0x0, 0x0, 0x0, 2⟩,
  ⟨0x140400C, 4, 0x400, 4, 0x100, .camera, true, true, 0x0, 0x0, 0x0, 0x0, 0⟩,
  ⟨0x1404010, 4, 0x400, 4, 0x100, .camera, true, true, 0x0, 0x0, 0x0, 0x0, 0⟩,
  ⟨0x1404014, 4, 0x400, 4, 0x100, .camera, true, true, 0x8000, 0x0, 0x0, 0x0, 0⟩,
  ⟨0x1406000, 1, 0x4000000, 1, 0x4, .camera, true, true, 0x800, 0x0, 0x0, 0x0, 0⟩,
  ⟨0x1408000, 1, 0x4000000, 1, 0x4, .camera, true, true, 0x0, 0x0, 0x0, 0x0, 0⟩,
  ⟨0x1408004, 1, 0x4000000, 1, 0x4, .camera, true, true, 0x0, 0x0, 0x0, 0x0, 0⟩,
  ⟨0x1408008, 1, 0x4000000, 1, 0x4, .camera, true, true, 0xA00, 0x0, 0x0, 0x0, 0⟩,
  ⟨0x140800C, 1, 0x4000000, 1, 0x4, .camera, true, true, 0x8000, 0x0, 0x0, 0x0, 0⟩,
  ⟨0x1408010, 1, 0x4000000, 1, 0x4, .camera, true, true, 0x0, 0x0, 0x0, 0x0, 0⟩]

/-- Register rows of the Gpu block (Table 22.3). -/
def rowsGpu : List RegRow := [
  ⟨0x1800000, 1, 0x4000000, 1, 0x4, .gpu, true, true, 0x0, 0x0, 0x0, 0x0, 0⟩,
  ⟨0x1800004, 1, 0x4000000, 1, 0x4, .gpu, true, true, 0x0, 0x0, 0x0, 0x0, 0⟩,
  ⟨0x1800010, 1, 0x4000000, 1, 0x4, .gpu, true, true, 0x0, 0x0, 0x80000000, 0x0, 0⟩,
  ⟨0x1800014, 1, 0x4000000, 1, 0x4, .gpu, true, true, 0x0, 0x0, 0x0, 0x0, 0⟩,
  ⟨0x1800018, 1, 0x4000000, 1, 0x4, .gpu, true, true, 0x0, 0x0, 0x0, 0x0, 0⟩,
  ⟨0x180001C, 1, 0x4000000, 1, 0x4, .gpu, true, true, 0x0, 0x0, 0x0, 0x0, 0⟩,
  ⟨0x1800020, 1, 0x4000000, 1, 0x4, .gpu, true, true, 0x0, 0x0, 0x0, 0x0, 0⟩,
  ⟨0x1800100, 8, 0x4, 1, 0x4, .gpu, true, true, 0x0, 0x0, 0x0, 0x0, 0⟩,
  ⟨0x1800200, 1, 0x4000000, 1, 0x4, .gpu, true, true, 0x7D000C8, 0xFFFFFFFF, 0x0, 0x0, 0⟩,
  ⟨0x1800204, 1, 0x4000000, 1, 0x4, .gpu, true, true, 0xFA00064, 0xFFFFFFFF, 0x0, 0x0, 0⟩,
  ⟨0x1800208, 1, 0x4000000, 1, 0x4, .gpu, true, true, 0x1F4, 0x1FFFF, 0x0, 0x0, 0⟩,
  ⟨0x180020C, 1, 0x4000000, 1, 0x4, .gpu, true, true, 0x0, 0x80003FFF, 0x0, 0x0, 0⟩,
  ⟨0x1800210, 1, 0x4000000, 1, 0x4, .gpu, true, true, 0x0, 0x0, 0x0, 0x0, 0⟩,
  ⟨0x1800300, 1, 0x4000000, 1, 0x4, .gpu, true, true, 0x0, 0x1, 0x0, 0x2, 0⟩,
  ⟨0x1800400, 24, 0x4, 1, 0x4, .gpu, true, true, 0x0, 0x0, 0x0, 0x0, 0⟩,
  ⟨0x1800800, 64, 0x4, 1, 0x4, .gpu, true, true, 0x0, 0x0, 0x0, 0x0, 0⟩]

/-- Register rows of the Dram block (Table 22.3). -/
def rowsDram : List RegRow := [
  ⟨0x2000000, 1, 0x4000000, 1, 0x4, .memory, true, true, 0x0, 0x0, 0x0, 0x0, 0⟩,
  ⟨0x2000004, 1, 0x4000000, 1, 0x4, .memory, true, true, 0x0, 0x0, 0x0, 0x0, 0⟩,
  ⟨0x2000010, 3, 0x4, 1, 0x4, .memory, true, true, 0x0, 0x0, 0x0, 0x0, 0⟩,
  ⟨0x200001C, 1, 0x4000000, 1, 0x4, .memory, true, true, 0x0, 0x3, 0x0, 0x80000000, 0⟩,
  ⟨0x2000020, 1, 0x4000000, 1, 0x4, .memory, true, true, 0x8000000A, 0x8000003F, 0x0, 0x0, 0⟩,
  ⟨0x2000024, 1, 0x4000000, 1, 0x4, .memory, true, true, 0x0, 0x0, 0x0, 0x0, 0⟩,
  ⟨0x2000040, 8, 0x8, 1, 0x4, .memory, true, true, 0x0, 0x0, 0x0, 0x0, 0⟩,
  ⟨0x2000044, 8, 0x8, 1, 0x4, .memory, true, true, 0x0, 0x0, 0x0, 0x0, 0⟩,
  ⟨0x2000080, 8, 0x4, 1, 0x4, .memory, true, true, 0x0, 0x0, 0x0, 0x0, 0⟩,
  ⟨0x20000A0, 8, 0x4, 1, 0x4, .memory, true, true, 0x0, 0x0, 0x0, 0x0, 0⟩,
  ⟨0x20000C0, 1, 0x4000000, 1, 0x4, .memory, true, true, 0x0, 0x0, 0x0, 0x0, 0⟩,
  ⟨0x20000C4, 1, 0x4000000, 1, 0x4, .memory, true, true, 0x0, 0x0, 0x80000000, 0x0, 0⟩,
  ⟨0x20000C8, 1, 0x4000000, 1, 0x4, .memory, true, true, 0x0, 0x0, 0x0, 0x0, 1⟩,
  ⟨0x20000CC, 1, 0x4000000, 1, 0x4, .memory, true, true, 0x0, 0x0, 0x0, 0x0, 2⟩,
  ⟨0x20000D0, 1, 0x4000000, 1, 0x4, .memory, true, true, 0x100, 0xFFFF, 0x0, 0x0, 0⟩,
  ⟨0x20000D4, 1, 0x4000000, 1, 0x4, .memory, true, true, 0x18, 0xFF, 0x0, 0x0, 0⟩,
  ⟨0x2000100, 1, 0x4000000, 1, 0x4, .memory, true, true, 0x10000100, 0xFFFFFFFF, 0x0, 0x0, 0⟩,
  ⟨0x2000104, 1, 0x4000000, 1, 0x4, .memory, true, true, 0xC8, 0xFFFF, 0x0, 0x0, 0⟩,
  ⟨0x2000108, 1, 0x4000000, 1, 0x4, .memory, true, true, 0x0, 0x0, 0x0, 0x0, 0⟩,
  ⟨0x200010C, 1, 0x4000000, 1, 0x4, .memory, true, true, 0x0, 0x0, 0x0, 0x0, 0⟩,
  ⟨0x2001000, 24, 0x10, 1, 0x4, .memory, true, true, 0x0, 0xFFFFFFFF, 0x0, 0x0, 0⟩,
  ⟨0x2001004, 24, 0x10, 1, 0x4, .memory, true, true, 0x0, 0x0, 0x0, 0x0, 0⟩,
  ⟨0x2001008, 24, 0x10, 1, 0x4, .memory, true, true, 0x0, 0x0, 0x0, 0x0, 1⟩,
  ⟨0x200100C, 24, 0x10, 1, 0x4, .memory, true, true, 0x0, 0x0, 0x0, 0x0, 2⟩,
  ⟨0x2002000, 64, 0x4, 1, 0x4, .memory, true, true, 0x0, 0x0, 0x0, 0x0, 0⟩]

/-- Register rows of the FrameTier block (Table 22.3). -/
def rowsFrameTier : List RegRow := [
  ⟨0x2400000, 1, 0x4000000, 1, 0x4, .frameTier, true, false, 0x0, 0x7FF, 0x0, 0x0, 0⟩,
  ⟨0x2400004, 1, 0x4000000, 1, 0x4, .frameTier, true, false, 0x0, 0x80000FFF, 0x0, 0x0, 0⟩,
  ⟨0x2400010, 1, 0x4000000, 1, 0x4, .frameTier, true, true, 0x0, 0x0, 0x0, 0x0, 0⟩,
  ⟨0x2400014, 1, 0x4000000, 1, 0x4, .frameTier, true, true, 0x0, 0x0, 0x0, 0x0, 0⟩,
  ⟨0x2400018, 1, 0x4000000, 1, 0x4, .frameTier, true, true, 0x0, 0x0, 0x80000000, 0x0, 0⟩,
  ⟨0x2400020, 1, 0x4000000, 1, 0x4, .frameTier, true, true, 0x3C, 0xFF, 0x0, 0x0, 0⟩]

/-- Register rows of the Audio block (Table 22.3). -/
def rowsAudio : List RegRow := [
  ⟨0x2800000, 1, 0x4000000, 1, 0x4, .audio, true, true, 0x0, 0x0, 0x0, 0x0, 0⟩,
  ⟨0x2800004, 1, 0x4000000, 1, 0x4, .audio, true, true, 0x0, 0x0, 0x0, 0x0, 0⟩,
  ⟨0x2800008, 1, 0x4000000, 1, 0x4, .audio, true, true, 0x0, 0x0, 0x0, 0x0, 0⟩,
  ⟨0x280000C, 1, 0x4000000, 1, 0x4, .audio, true, true, 0x0, 0x0, 0x0, 0x0, 0⟩,
  ⟨0x2800100, 4, 0x20, 1, 0x4, .audio, true, true, 0x0, 0x0, 0x0, 0x0, 0⟩,
  ⟨0x2800104, 4, 0x20, 1, 0x4, .audio, true, true, 0x0, 0x0, 0x0, 0x0, 0⟩,
  ⟨0x2800108, 4, 0x20, 1, 0x4, .audio, true, true, 0x0, 0x0, 0x0, 0x0, 0⟩,
  ⟨0x280010C, 4, 0x20, 1, 0x4, .audio, true, true, 0x0, 0x0, 0x0, 0x0, 0⟩,
  ⟨0x2800300, 8, 0x4, 1, 0x4, .audio, true, true, 0x0, 0x0, 0x0, 0x0, 0⟩,
  ⟨0x2801000, 16, 0x100, 1, 0x4, .audio, true, true, 0x0, 0x0, 0x0, 0x0, 0⟩,
  ⟨0x2801004, 16, 0x100, 1, 0x4, .audio, true, true, 0x0, 0x0, 0x0, 0x0, 0⟩,
  ⟨0x2801008, 16, 0x100, 1, 0x4, .audio, true, true, 0x0, 0x0, 0x0, 0x0, 0⟩,
  ⟨0x2801010, 16, 0x100, 8, 0x4, .audio, true, true, 0x0, 0x0, 0x0, 0x0, 0⟩,
  ⟨0x2801030, 16, 0x100, 8, 0x4, .audio, true, true, 0x0, 0x0, 0x0, 0x0, 0⟩,
  ⟨0x2801050, 16, 0x100, 8, 0x4, .audio, true, true, 0x0, 0x0, 0x0, 0x0, 0⟩]

/-- Register rows of the Haptic block (Table 22.3). -/
def rowsHaptic : List RegRow := [
  ⟨0x2C00000, 1, 0x4000000, 1, 0x4, .haptic, true, true, 0xF, 0xF, 0x0, 0x0, 0⟩,
  ⟨0x2C00100, 4, 0x40, 1, 0x4, .haptic, true, true, 0x0, 0x0, 0x0, 0x0, 0⟩,
  ⟨0x2C00104, 4, 0x40, 1, 0x4, .haptic, true, true, 0x1F40F140, 0x0, 0x0, 0x0, 0⟩,
  ⟨0x2C00108, 4, 0x40, 1, 0x4, .haptic, true, true, 0x0, 0x0, 0x10000000, 0x0, 0⟩,
  ⟨0x2C0010C, 4, 0x40, 1, 0x4, .haptic, true, true, 0x0, 0x0, 0x0, 0x0, 0⟩,
  ⟨0x2C00110, 4, 0x40, 1, 0x4, .haptic, true, true, 0x0, 0x0, 0x0, 0x0, 0⟩,
  ⟨0x2C00114, 4, 0x40, 1, 0x4, .haptic, true, true, 0x0, 0x0, 0x0, 0x0, 0⟩,
  ⟨0x2C00120, 4, 0x40, 4, 0x4, .haptic, true, true, 0x0, 0x0, 0x0, 0x0, 0⟩,
  ⟨0x2C01000, 1, 0x4000000, 1, 0x4, .haptic, true, true, 0x0, 0x0, 0x0, 0x0, 0⟩]

/-- Register rows of the Touch block (Table 22.3). -/
def rowsTouch : List RegRow := [
  ⟨0x3000000, 1, 0x4000000, 1, 0x4, .touch, true, true, 0x0, 0x0, 0x20000000, 0x0, 0⟩,
  ⟨0x3000004, 1, 0x4000000, 1, 0x4, .touch, true, true, 0x0, 0x0, 0x0, 0x0, 0⟩,
  ⟨0x3001000, 96, 0x8, 1, 0x4, .touch, true, true, 0x0, 0x0, 0x0, 0x0, 0⟩,
  ⟨0x3001004, 96, 0x8, 1, 0x4, .touch, true, true, 0x0, 0x0, 0x0, 0x0, 0⟩,
  ⟨0x3002000, 64, 0x4, 1, 0x4, .touch, true, true, 0x0, 0x0, 0x0, 0x0, 0⟩,
  ⟨0x3003000, 256, 0x4, 1, 0x4, .touch, true, true, 0x0, 0x0, 0x0, 0x0, 0⟩,
  ⟨0x3004000, 2, 0x10, 1, 0x4, .touch, true, true, 0x0, 0x0, 0x0, 0x0, 0⟩]

/-- Register rows of the Crc block (Table 22.3). -/
def rowsCrc : List RegRow := [
  ⟨0x3400000, 4, 0x10, 1, 0x4, .fabric, true, true, 0x0, 0x0, 0x0, 0x0, 0⟩,
  ⟨0x3400004, 4, 0x10, 1, 0x4, .fabric, true, true, 0x0, 0x0, 0x0, 0x0, 1⟩,
  ⟨0x3400008, 4, 0x10, 1, 0x4, .fabric, true, true, 0x0, 0x0, 0x0, 0x0, 2⟩,
  ⟨0x3400100, 1, 0x4000000, 1, 0x4, .fabric, true, true, 0x0, 0x0, 0x0, 0x0, 0⟩,
  ⟨0x3400104, 1, 0x4000000, 1, 0x4, .fabric, true, true, 0x0, 0x0, 0x0, 0x0, 1⟩,
  ⟨0x3400108, 1, 0x4000000, 1, 0x4, .fabric, true, true, 0x0, 0x0, 0x0, 0x0, 2⟩]

/-- Register rows of the LinkTest block (Table 22.3). -/
def rowsLinkTest : List RegRow := [
  ⟨0x3800000, 21, 0x40, 1, 0x4, .fabric, true, true, 0x0, 0x0, 0x0, 0x3, 0⟩,
  ⟨0x3800004, 21, 0x40, 1, 0x4, .fabric, true, true, 0x0, 0xFFFF03DF, 0x0, 0x0, 0⟩,
  ⟨0x3800008, 21, 0x40, 1, 0x4, .fabric, true, true, 0x0, 0xFFFFFFFF, 0x0, 0x0, 0⟩,
  ⟨0x380000C, 21, 0x40, 1, 0x4, .fabric, true, true, 0x0, 0x7FFF, 0x0, 0x0, 0⟩,
  ⟨0x3800010, 21, 0x40, 1, 0x4, .fabric, true, true, 0x0, 0x0, 0x0, 0x0, 0⟩,
  ⟨0x3800014, 21, 0x40, 1, 0x4, .fabric, true, true, 0x0, 0x0, 0x0, 0x0, 0⟩,
  ⟨0x3800018, 21, 0x40, 1, 0x4, .fabric, true, true, 0x0, 0x0, 0x0, 0x0, 1⟩,
  ⟨0x380001C, 21, 0x40, 1, 0x4, .fabric, true, true, 0x0, 0x0, 0x0, 0x0, 2⟩,
  ⟨0x3800800, 1, 0x4000000, 1, 0x4, .fabric, true, true, 0x0, 0xFFFFFFFF, 0x0, 0x0, 1⟩,
  ⟨0x3800804, 1, 0x4000000, 1, 0x4, .fabric, true, true, 0x0, 0xFFFFFFFF, 0x0, 0x0, 2⟩,
  ⟨0x3800900, 1, 0x4000000, 1, 0x4, .fabric, true, true, 0x14, 0x7FFFFF3F, 0x0, 0x80000000, 0⟩,
  ⟨0x3800904, 1, 0x4000000, 1, 0x4, .fabric, true, true, 0x0, 0x0, 0x0, 0x0, 0⟩,
  ⟨0x3801000, 21, 0x100, 34, 0x4, .fabric, true, true, 0x0, 0x0, 0x0, 0x0, 0⟩]

/-- Register rows of the Rinlar block (Table 22.3). -/
def rowsRinlar : List RegRow := [
  ⟨0x3C00000, 1, 0x4000000, 1, 0x4, .alwaysOn, true, true, 0x0, 0x0, 0x0, 0x0, 0⟩,
  ⟨0x3C00004, 1, 0x4000000, 1, 0x4, .alwaysOn, true, true, 0x0, 0x0, 0x0, 0x0, 1⟩,
  ⟨0x3C00008, 1, 0x4000000, 1, 0x4, .alwaysOn, true, true, 0x0, 0x0, 0x0, 0x0, 2⟩,
  ⟨0x3C0000C, 1, 0x4000000, 1, 0x4, .rinlar, true, true, 0x0, 0x40000000, 0x0, 0xA0000000, 0⟩,
  ⟨0x3C01000, 4096, 0x4, 1, 0x4, .rinlar, true, true, 0x0, 0x0, 0x0, 0x0, 0⟩]

/-- Register rows of the Ebrum block (Table 22.3). -/
def rowsEbrum : List RegRow := [
  ⟨0x3E00000, 1, 0x4000000, 1, 0x4, .ebrum, true, true, 0x14106404, 0xFFFFFF07, 0x0, 0x0, 0⟩,
  ⟨0x3E00004, 1, 0x4000000, 1, 0x4, .ebrum, true, true, 0x0, 0x0, 0x0, 0x0, 0⟩,
  ⟨0x3E00010, 4, 0x4, 1, 0x4, .ebrum, true, true, 0xC0003F00, 0x0, 0x0, 0x0, 0⟩,
  ⟨0x3E00020, 1, 0x4000000, 1, 0x4, .ebrum, true, true, 0x0, 0x0, 0x0, 0x0, 0⟩,
  ⟨0x3E00024, 1, 0x4000000, 1, 0x4, .ebrum, true, true, 0x0, 0x0, 0x0, 0x0, 0⟩,
  ⟨0x3E00028, 1, 0x4000000, 1, 0x4, .ebrum, true, true, 0x0, 0x0, 0x0, 0x0, 0⟩]

/-- The rows of the block that a BAR0 offset lies in (Table 22.1). -/
def blockRows (off : Nat) : List RegRow :=
  if off < 0x100000 then rowsGlobal
  else if off < 0x200000 then rowsResetPower
  else if off < 0x300000 then rowsFabric
  else if off < 0x400000 then rowsRings
  else if off < 0x800000 then rowsMmuIso
  else if off < 0xC00000 then rowsHeads
  else if off < 0x1000000 then rowsComposer
  else if off < 0x1400000 then rowsGarnet
  else if off < 0x1800000 then rowsCamera
  else if off < 0x2000000 then rowsGpu
  else if off < 0x2400000 then rowsDram
  else if off < 0x2800000 then rowsFrameTier
  else if off < 0x2C00000 then rowsAudio
  else if off < 0x3000000 then rowsHaptic
  else if off < 0x3400000 then rowsTouch
  else if off < 0x3800000 then rowsCrc
  else if off < 0x3C00000 then rowsLinkTest
  else if off < 0x3E00000 then rowsRinlar
  else rowsEbrum

/-- The offset lies in the row: base + i × s1 + j × s2 with i < n1 and j < n2. -/
def RegRow.has (r : RegRow) (off : Nat) : Bool :=
  decide (r.off ≤ off) && decide ((off - r.off) / r.s1 < r.n1) && decide ((off - r.off) % r.s1 / r.s2 < r.n2)
    && decide ((off - r.off) % r.s1 % r.s2 = 0)

/-- First index of a register within its row. -/
def RegRow.i1 (r : RegRow) (off : Nat) : Nat := (off - r.off) / r.s1

/-- Second index of a register within its row. -/
def RegRow.i2 (r : RegRow) (off : Nat) : Nat := (off - r.off) % r.s1 / r.s2

/-- The register entry at a BAR0 offset, if one occupies it (R494). -/
def findRow (off : Nat) : Option RegRow := (blockRows off).find? (fun r => r.has off)

/-- The value of a field in a register word. -/
def Fld.get (f : Fld) (w : Word) : Nat := w.toNat / 2 ^ f.lo % 2 ^ f.len

/-- The register word with a field replaced, every other bit unchanged. -/
def Fld.put (f : Fld) (v : Nat) (w : Word) : Word :=
  BitVec.ofNat 32 (w.toNat / 2 ^ (f.lo + f.len) * 2 ^ (f.lo + f.len) + v % 2 ^ f.len * 2 ^ f.lo + w.toNat % 2 ^ f.lo)

end Sys2Proof
end

