-- ==== Sys2Proof/Machine/Tab.lean ====
section
/-! DEFINITION. Sparse tables keyed by a number, as plain data: what State holds per register, unit, ring or function. -/
namespace Sys2Proof

/-- A sparse table: pairs of a key and a value. -/
abbrev Tab (α : Type) := List (Nat × α)

/-- The value at a key; `d` where the table lists none. -/
def tget {α : Type} (d : α) (k : Nat) : Tab α → α
  | [] => d
  | (j, v) :: t => if j = k then v else tget d k t

/-- The table with the value at a key replaced; keys stay in rising order. -/
def tset {α : Type} (k : Nat) (v : α) : Tab α → Tab α
  | [] => [(k, v)]
  | (j, w) :: t => if j = k then (k, v) :: t else if k < j then (k, v) :: (j, w) :: t else (j, w) :: tset k v t

/-- The value at a key, if the table lists one. -/
def tfind {α : Type} (k : Nat) : Tab α → Option α
  | [] => none
  | (j, v) :: t => if j = k then some v else tfind k t

/-- The table without the keys for which `p` fails. -/
def tkeep {α : Type} (p : Nat → Bool) : Tab α → Tab α
  | [] => []
  | (j, w) :: t => if p j then (j, w) :: tkeep p t else tkeep p t

/-- A list with entry `i` replaced; unchanged where it has none. -/
def lset {α : Type} (i : Nat) (v : α) : List α → List α
  | [] => []
  | x :: t => match i with
    | 0 => v :: t
    | j + 1 => x :: lset j v t

/-- The numbers below n, lowest first. -/
def upto (n : Nat) : List Nat := List.range n

/-- Bit i of a number. -/
def nbit (x i : Nat) : Bool := x / 2 ^ i % 2 == 1

/-- A number with bit i set or cleared. -/
def setBit (x i : Nat) (v : Bool) : Nat := x - (x / 2 ^ i % 2) * 2 ^ i + (if v then 2 ^ i else 0)

/-- The n low bits of x from bit lo. -/
def bitsAt (x lo n : Nat) : Nat := x / 2 ^ lo % 2 ^ n

/-- Little-endian bytes of a number (0.7). -/
def leBytes : Nat → Nat → List Byte
  | 0, _ => []
  | n + 1, x => BitVec.ofNat 8 x :: leBytes n (x / 256)

/-- The number that little-endian bytes spell. -/
def ofLe : List Byte → Nat
  | [] => 0
  | b :: t => b.toNat + 256 * ofLe t

def b2n (b : Bool) : Nat := if b then 1 else 0

/-- Rounded-up quotient. -/
def cdiv (a b : Nat) : Nat := (a + b - 1) / b

end Sys2Proof
end

