-- ==== Sys2Proof/Machine/State.lean ====
section
/-! DEFINITION. The state of the QX8, as plain data: every register, unit, queue and buffer the manual gives it, and the
queue of commands that wait. -/
namespace Sys2Proof.Machine

/-- The model never stops a run with a fault: the manual reports every error as a completion, a flag, an event or a pin. -/
inductive Fault where
  /-- Raised by nobody; it stands here because an outcome needs a fault type. Safe: no run ends in it. -/
  | none
deriving DecidableEq, Repr

/-- Why a command has no meaning. -/
inductive Refusal where
  /-- Raised by an arm of `exec` whose command has no meaning yet. Safe: the run stops where the device goes on. -/
  | notModelled (mnemonic : String)
deriving DecidableEq, Repr

/-- What the package and the board fix before power-on: plain data that no command changes (R1, R4, R119, R290). -/
structure Part where
  /-- 1 QX8-F, 2 QX8-D, 3 QX8-C (GLOBAL_ID.VARIANT). -/
  variant : Nat
  grade : Nat
  /-- Debug switches fused off (DEBUG_STATUS.FUSED_OFF). -/
  fusedOff : Nat
  /-- Fused hashes of the vendor and the integrator key, and the unique ID of each die (R119, R430). -/
  vendorKey : Nat
  integratorKey : Nat
  uidA : Nat
  uidB : Nat
  /-- Fused anti-rollback counts of firmware and configuration (R430). -/
  fwMin : Nat
  cfgMin : Nat
  /-- Strap balls as the board ties them: bit 0 SENIOR_SEL_A, 1 SENIOR_SEL_B, 2 XSPI_OCTAL, 3 FLASH_B, 4 TEST_EN. -/
  strapPins : Nat
  /-- The two endpoints lead to two hosts with a memory each. -/
  twoHosts : Bool
  /-- Units whose scrub on a change of owner cannot complete (R116), by unit key (notes/assumptions/108.md). -/
  scrubBad : List Nat
deriving DecidableEq, Repr

/-- What leaves the device in a step, oldest first: writes to memory and messages. -/
inductive Out where
  | mem (key : Nat) (bytes : List Byte)
  /-- The message of an MSI-X vector: its address and data (R53). -/
  | msix (f : Fun) (vec addr data : Nat)
  /-- An AVSBus frame (R33): the rail of AVS_CTRL.RAIL_SEL; 0 a voltage write of `mv`, 1 a voltage read, 2 a status read. -/
  | avs (d : Die) (rail kind mv : Nat)
  | sideband (d : Die) (code arg : Nat)
  /-- Traffic that a die sends over a bundle of the main link (R442): the device local address of a memory request, none of other traffic. -/
  | link (d : Die) (bundle : Nat) (addr : Option Nat)
  | aux (d : Die) (port : Nat) (request : Desc)
  | dsi (d : Die) (port : Nat) (packet : Desc)
  /-- Samples that a sink of the audio engine sends for a block, where no rate conversion stands between: TDM port 0–3 by slot, or
  4 + DP head (R318). -/
  | audio (sink : Nat) (frames : List (List Int))
  /-- A refresh-management command to a bank (R306). -/
  | rfm (d : Die) (ch bank : Nat)
  /-- A line that leaves the system cache dirty, with the class and urgency of the request that put it out (R299). -/
  | writeBack (d : Die) (line cls urgency : Nat)
  /-- An accelerometer read (R345): chip select, the byte sent, and the divisor of 100 MHz. -/
  | spi (d : Die) (cs cmd div : Nat)
  /-- The PWM of a haptic channel in a control period (R343): its duty as a fraction. -/
  | pwm (chan num den : Nat)
  /-- A read of an I²C port (R380): target address, bytes of REG written first, bytes read. -/
  | i2c (d : Die) (port : Nat) (addr : Nat) (reg : List Nat) (len : Nat)
  | miso (d : Die) (bytes : List Byte)
  | unsupported (f : Fun)
  | challenge (d : Die) (words : List Nat)
  /-- A lane of a link test unit begins to send (R460): pattern code, the exponents of its polynomial, its seed or the user pattern, whether
  the complement is sent, and the rate in Mb/s where Table 19.4 gives one. -/
  | pattern (d : Die) (u lane code : Nat) (poly : Nat × Nat) (word : Nat) (invert : Bool) (mbps : Option Nat)
  /-- A margining report (R465): timing steps, maximum timing offset, voltage steps, maximum voltage offset. -/
  | margin (d : Die) (lane : Nat) (report : List Nat)
  /-- Local memory loses its contents (R410). -/
  | localLost
deriving DecidableEq, Repr

/-- A completion not yet written: Table of R67 but for PHASE and TIME. -/
structure Cqe where
  seq : Nat
  status : Nat
  detail : Nat
  ring : Nat
  ckind : Nat
  opcode : Nat
deriving DecidableEq, Repr

/-- An event record (R76) with its time, and the die of the unit it comes from. -/
structure Event where
  typ : Nat
  source : Nat
  count : Nat
  time : Nat
  /-- Bytes 16–31, byte 16 lowest. -/
  payload : Nat
  die : Die
deriving DecidableEq, Repr

/-- What a later completion needs of its descriptor: ring, COMPLETION ring, SEQ, OPCODE, and the flight it belongs to. -/
structure Ticket where
  ring : RingId
  cq : Nat
  seq : Nat
  opcode : Nat
  tag : Nat
deriving DecidableEq, Repr

/-- A pending change of a route: what it becomes, and whom its FURTHER completion goes to (R89). -/
structure RouteChange where
  delete : Bool
  sink : BitVec 64
  params : BitVec 128
  ticket : Option Ticket
  /-- A change of a camera route that feeds a layer: the stream's frame start has come (R222). -/
  due : Bool
deriving DecidableEq, Repr

/-- A live route (R19, R86). Source and sink are endpoint records, byte 0 lowest. -/
structure Route where
  kind : Nat
  cls : Nat
  grantee : Fun
  creator : Fun
  source : BitVec 64
  sink : BitVec 64
  params : BitVec 128
  change : Option RouteChange
deriving DecidableEq, Repr

/-- A descriptor, or a chain, that was fetched and whose DONE completion is not yet posted (R68, R72). -/
structure Flight where
  tag : Nat
  descs : List Desc
  /-- Members that have acted. -/
  acted : Nat
  /-- 0 waits to begin, 1 running, 2 completed. -/
  phase : Nat
  status : Nat
  detail : Nat
  /-- Some member did work (R75). -/
  worked : Bool
  cq : Nat
  /-- RELEASED and FURTHER completions that follow the DONE (R68). -/
  after : List Cqe
  /-- Parts that landed and have not taken effect (R146, R147). -/
  parts : Nat
  /-- The routes that its members name, as they stood when it was fetched (R23). -/
  routes : List (Nat × Route)
deriving DecidableEq, Repr

/-- What a ring holds beside its registers. -/
structure RingAux where
  /-- Fetched and not yet completed in order, oldest first. -/
  flights : List Flight
  /-- Completions held for want of a free entry (R70). -/
  held : List Cqe
  /-- Entries fetched or written since the last shadow write (R62). -/
  unshadowed : Nat
  /-- Entries counted toward the next message, and the time of the first (R79). -/
  intCount : Nat
  intFirst : Nat
  /-- A WAIT_VALUE that holds the ring: flight, address, value, condition, time limit (R65). -/
  wait : Option (Nat × Nat × Nat × Nat × Nat)
  /-- The next covered chain waits for the doorbell to cover its last member (R74). -/
  chain : Bool
deriving DecidableEq, Repr

/-- What a function holds beside its registers. -/
structure FnAux where
  /-- Events lost since the last EVENTS_LOST record, and the time of the first (R78). -/
  gap : Nat
  gapTime : Nat
  /-- Touch and camera events held while the function is frozen (R121). -/
  frozenEvents : List Event
  /-- MSI-X vectors whose mask bit is clear, and pending vectors (R53). -/
  unmasked : List Nat
  pba : List Nat
  /-- Descriptors, GPU contexts and events abandoned in a function-level reset (Table 4.6). -/
  flrDescs : Nat
  flrCtxs : Nat
  flrEvents : Nat
  /-- The function-level reset destroys the tenant when it ends (R100). -/
  flrDestroys : Bool
  /-- The MSI-X table of BAR2 (R52, R53): message address and data of each vector. -/
  vectors : Tab (Nat × Nat)
deriving DecidableEq, Repr

/-- A tenant's grants (R95) beyond TENANT_CFG, and what becomes of it. -/
structure Tenant where
  /-- Bytes 8–63 of the TENANT_CREATE in force, as a descriptor. -/
  grants : Desc
  /-- TENANT_DESTROY under way: its FURTHER completion (R97). -/
  destroying : Option (Option Ticket)
  /-- A TENANT_FREEZE that is not yet complete (R121). -/
  freezing : Option Ticket
deriving DecidableEq, Repr

/-- A translation invalidation in progress (R127), as it stood at GO: function, first page, pages, STAGE, ALL. -/
structure MmuInv where
  f : Fun
  first : Nat
  pages : Nat
  stage : Nat
  all : Bool
deriving DecidableEq, Repr

/-- A translation held in the device: function, input page, intermediate page, output page key, leaf permissions (R105). -/
structure TlbEntry where
  f : Fun
  page : Nat
  ipa : Nat
  out : Nat
  local_ : Bool
  rd : Bool
  wr : Bool
  cache : Bool
deriving DecidableEq, Repr

/-- A crossing beside its registers (R39–R49). -/
structure Xing where
  /-- Pulses counted while an event is outstanding (R42). -/
  count : Nat
  /-- Count that the event in flight carries. -/
  sent : Nat
  /-- Mode that takes effect after the handshake in progress (R45). -/
  nextMode : Option Nat
  /-- Register values waiting to be carried: address and value, oldest first (R41). -/
  queue : List (Nat × Word)
  /-- The island's clock is stopped (R46). -/
  stopped : Bool
  /-- Items that the reset side discarded on its own side, to be reported when the sides resynchronise (R47). -/
  ownDropped : Nat
deriving DecidableEq, Repr

/-- A unit that waits for the pace to reach a raised floor: kind 1 head, 2 camera port, 3 warp route, 4 audio route; unit
or route; the flight that starts it; the descriptor (R31). -/
structure Raise where
  kind : Nat
  unit : Nat
  tag : Option Ticket
  desc : Desc
  /-- The floor that the pace has to reach. -/
  floor : Nat
deriving DecidableEq, Repr

/-- The pace loop of a die beside its registers (R26–R36). -/
structure Pace where
  raises : List Raise
  /-- Windows in a row below, and at or above, the floor (R35). -/
  below : Nat
  above : Nat
  /-- A voltage write in flight: its voltage and retries so far (R34). -/
  frame : Option (Nat × Nat)
  /-- Retries so far of the voltage read, and of the status read, in progress (R34). -/
  readTries : Nat
  statusTries : Nat
deriving DecidableEq, Repr

/-- The time base island of a die (R38): the device-time counter, ns; its PCIe PTM alignment, ns; the offset that a rejoin has still to
remove by slewing, ns, and the REFCLK cycles since its last nanosecond. -/
structure TimeBase where
  counter : Nat
  ptm : Int
  slew : Int
  cycles : Nat
deriving DecidableEq, Repr

/-- A held vote of PF0 under a secure claim (R117): the request's completion and its descriptor. -/
structure Vote where
  ticket : Ticket
  desc : Desc
  detail : Nat
deriving DecidableEq, Repr

/-- Debug of a die (R119): the open challenge. -/
structure Debug where
  challenge : List Nat
deriving DecidableEq, Repr

/-- A LAYER_COMMIT that landed or is in force: its completion, the sequence number of its buffer, and the descriptor. -/
structure Commit where
  ticket : Ticket
  desc : Desc
deriving DecidableEq, Repr

/-- A LAYER_COLOUR: its completion, the descriptor, and the degamma table it read (R175, R183). -/
structure Colour where
  ticket : Ticket
  desc : Desc
  table : List Nat
deriving DecidableEq, Repr

/-- One layer of a head (6.1). -/
structure Layer where
  /-- Handle of the layer route; 0 none. -/
  route : Nat
  /-- Handle of the camera route that feeds the layer; 0 none. -/
  camera : Nat
  cur : Option Commit
  colour : Option Colour
  pend : Option Commit
  pendColour : Option Colour
  /-- The commit took effect part-way through its CRC window in the present frame or pass: the window is not checked (R188). -/
  cut : Bool
  /-- The camera stream that feeds the layer is present: the layer draws (R222). -/
  camOn : Bool
  /-- FORMAT for which the preset matrix was formed at the frame start; 0 none (R174). -/
  preset : Nat
  /-- Sample units that the last line read, by address, and the flight and frame they belong to (R172). -/
  rows : Tab (List Byte)
  rowsOf : Nat × Nat
  /-- Units of the CRC window read in this frame or pass, by address; the frame's or pass's one check is made (R187, R188). -/
  win : Tab (List Byte)
  checked : Bool
  /-- Stream frames that the present frame shows, by warp input; a form A layer has them at 0 (R224). -/
  camFrames : Tab Nat
deriving DecidableEq, Repr

/-- A buffer that left use and whose last fetch has not completed (R185). -/
structure Release where
  layer : Nat
  ticket : Ticket
  frame : Nat
  status : Nat
deriving DecidableEq, Repr

/-- Head colour (R176): descriptor and tables. -/
structure HeadColour where
  desc : Desc
  regamma : List Nat
  lut : List Nat
deriving DecidableEq, Repr

/-- A pixel of three codes; the stage that it stands behind gives their width (Table 6.1). -/
structure Rgb where
  r : Nat
  g : Nat
  b : Nat
deriving DecidableEq, Repr

/-- A layer's pixel after stage 5: what it adds, and how much it hides (R179). -/
structure Src where
  r : Nat
  g : Nat
  b : Nat
  a : Nat
deriving DecidableEq, Repr

/-- A run of a layer's pixels on a line, before blending: its layer and flight, first column, BLEND, pixels. -/
structure LinePart where
  layer : Nat
  flight : Nat
  x0 : Nat
  blend : Nat
  px : List Src
deriving DecidableEq, Repr

/-- One line of a frame (R142, R151): the frame it was composed for, the commits it shows as layer and flight, the camera layers whose
lines it waits for (R224), its parts while it is not yet blended, the head colour it was fetched under, and, of a stored line, its pixels. -/
structure FtLine where
  frame : Nat
  layers : List (Nat × Nat)
  waits : List Nat
  parts : List LinePart
  colour : Option HeadColour
  pixels : List Rgb
deriving DecidableEq, Repr

/-- A HEAD_MODE that waits (R136): what it sets, the frames it still waits for, and whether its pass has begun. -/
structure ModeChange where
  ticket : Ticket
  mode : Nat
  lookahead : Nat
  wait : Nat
  passed : Bool
deriving DecidableEq, Repr

/-- A display head beside its registers. -/
structure Head where
  /-- 0 off, 1 waits for its floor, 2 starts at the next line start, 3 runs, 4 stops at the next line start. -/
  phase : Nat
  /-- The HEAD_ENABLE whose DONE waits for the first frame start. -/
  starting : Option Ticket
  /-- The timing in force: HA, HB, VA, VB (R132). -/
  ha : Word
  hb : Word
  va : Word
  vb : Word
  layers : Tab Layer
  recompose : Bool
  /-- A compose pass: the line it begins next, and the frame it feeds (R148). -/
  pass : Option (Nat × Nat)
  /-- Commits taken at the opening whose DONE waits for line 0 of the pass. -/
  taken : List Ticket
  mode : Option ModeChange
  colour : Option HeadColour
  /-- A HEAD_COLOUR that waits: its completion, its state, and whether its pass has begun (R178). -/
  pendColour : Option (Ticket × HeadColour × Nat)
  /-- GENLOCK_CTRL in force, frames in lock, frames in range, a reference since the last frame, and a snap: 1 at the next
  reference, 2 at the next line start that fits (R153–R156). -/
  genlock : Word
  lockRun : Nat
  rangeRun : Nat
  refSeen : Bool
  snapDue : Nat
  /-- The phase error that the last reference event measured, pixel clocks; line starts left until a snap ends the frame; a source's
  event that has not been measured (R153, R154, R156). -/
  err : Int
  snapIn : Option Nat
  refDue : Bool
  releases : List Release
  /-- Of the present frame: stale lines, layers that underran and the first line, COMPOSE_OVERLOAD posted, highest load. -/
  stale : Nat
  underMask : Nat
  underFirst : Nat
  underPosted : Bool
  overloaded : Bool
  peak : Nat
  /-- The head's frame tier region, by line, and what the last line showed. -/
  ft : Tab FtLine
  /-- Lines fetched ahead of scan-out, and the stored line that the composer is writing. -/
  ahead : Tab FtLine
  writing : Option (Nat × FtLine)
  /-- The frame that the last pass fed. -/
  fed : Nat
  shown : List (Nat × Nat)
  black : Bool
  /-- Device time of the last line start. -/
  lineStart : Nat
  /-- The vertical blanking began with this line; a pass runs that missed the window (R148, R150). -/
  opening : Bool
  passLate : Bool
  /-- Layers that underran at the deadline of line 0 of the next frame (R152). -/
  underNext : Nat
  /-- Width of the stored frame in the region, as the last pass wrote it; what the last line sent to the port. -/
  ftWidth : Nat
  output : List Rgb
  /-- Work fetched before this flight was numbered met the head disabled (R278). -/
  onTag : Nat
deriving DecidableEq, Repr

/-- An output port beside its registers: AUX transactions and DSI packets in order, and attempts of the first (R139, R140). -/
structure Port where
  aux : List (Ticket × Desc)
  attempts : Nat
  dsi : List (Ticket × Desc)
  /-- Training is to run at the next chance (R138). -/
  train : Bool
deriving DecidableEq, Repr
/-- A Garnet slot: its window (8 × local head + window), place and size in window pixels, the drawing records that make its
content, oldest first (R200, R204), and the atlas words both copies of which failed when they were drawn (R207). -/
structure GSlot where
  win : Nat
  x : Nat
  y : Nat
  w : Nat
  h : Nat
  recs : List (List Byte)
  bad : List Nat
deriving DecidableEq, Repr

/-- A Garnet window (R203): handle, fields, units of storage; whether it has appeared; the slots its front buffer shows and
those a complete render put in its back buffer, by slot number; the expected CRCs by blink phase, in force and from the next frame
start; the CRC of the present frame so far, and the last computed one since it appeared (R208). -/
structure GWindow where
  handle : Nat
  check : Bool
  isOpaque : Bool
  bg : Nat
  x : Nat
  y : Nat
  w : Nat
  h : Nat
  units : Nat
  shown : Bool
  front : Tab GSlot
  back : Option (Tab GSlot)
  expect : List Nat
  nextExpect : Option (List Nat)
  acc : Nat
  crc : Option Nat
deriving DecidableEq, Repr

/-- A job of the renderer: number, SEQ and records of a link frame, or (not `link`) windows to draw again, or a new palette. -/
structure GJob where
  id : Nat
  link : Bool
  seq : Nat
  recs : List (List Byte)
  wins : List Nat
  palette : Option (List Nat)
deriving DecidableEq, Repr

/-- An accepted change that is not yet in force: its job, SEQ, windows still to flip, frame starts seen per local head, heads found
stale (R205). -/
structure GChange where
  id : Nat
  seq : Nat
  wins : List Nat
  starts : Tab Nat
  stale : List Nat
deriving DecidableEq, Repr

/-- The Garnet scan of a local head (R209–R211): a detector is active, frame starts since the last fault, the windows that the takeover
cut, and the release that waits for a frame start; a line of the present frame was not delivered; the line of its own timing while the
pixel PLL is lost; windows checked in the present frame, and whether the last checked frame mismatched (R208); device time of the frame
start (R202). -/
structure GScan where
  detector : Bool
  frames : Nat
  cut : List Nat
  release : Option Ticket
  broken : Bool
  line : Option Nat
  seen : List Nat
  mismatched : Bool
  time : Nat
deriving DecidableEq, Repr

/-- The Garnet path of a die beside its registers. -/
structure Garnet where
  inFrame : Bool
  status : List Byte
  report : Option (Nat × Nat)
  atlas : Option (List Byte)
  palette : List Nat
  /-- The palette in force on each local head (R202). -/
  headPalette : Tab (List Nat)
  newPalette : Tab (List Nat)
  windows : Tab GWindow
  slots : Tab GSlot
  queue : List GJob
  rendering : Option (GJob × List Nat)
  unshown : List GChange
  scans : Tab GScan
deriving DecidableEq, Repr

/-- A camera port beside its registers: the CAM_PORT whose DONE waits, the D-PHY waits for leave or runs, and uncorrectable headers of no
stream's frame that are not yet posted (R238). -/
structure CamPort where
  ticket : Option Ticket
  started : Bool
  ecc : Nat
deriving DecidableEq, Repr

/-- A line of a camera as a line store holds it: stream frame, line number, samples in CSI-2 order; none: black (R223, R225). -/
structure CamLine where
  frame : Nat
  line : Nat
  px : List Nat
deriving DecidableEq, Repr

/-- A stream beside its registers (R218, R223, R225): lines counted in the frame, lines lost and not yet filled in, the newest 16
lines of the line store, and the errors of the frame: uncorrectable headers, CRC, length, missing. -/
structure Stream where
  lines : Nat
  lost : Nat
  store : List CamLine
  eccUncorr : Nat
  crcErr : Nat
  lenErr : Nat
  missing : Nat
deriving DecidableEq, Repr

/-- A form C route (R231): posted buffers, the one being filled with the failure that stopped it, frames dropped. -/
structure Capture where
  posted : List (Ticket × Desc)
  filling : Option (Ticket × Desc)
  failed : Option (Nat × Nat)
  lineErr : Bool
  missing : Bool
  dropped : Nat
deriving DecidableEq, Repr

/-- A warp mesh (R232): GX, GY, its image, and SPAN. -/
structure Mesh where
  gx : Nat
  gy : Nat
  image : List Byte
  span : Nat
deriving DecidableEq, Repr

/-- The warp engine of a die: the mesh in force and the one pending, per form E input the frame in use and those pending, and per live
input the newest SPAN + 8 lines. -/
structure Warp where
  mesh : Option Mesh
  pendMesh : Option (Ticket × Mesh)
  frames : Tab (Ticket × Desc)
  pendFrames : List (Nat × Ticket × Desc)
  stores : Tab (List CamLine)
deriving DecidableEq, Repr

/-- A fraction; its denominator is not 0. -/
structure Frac where
  num : Int
  den : Nat
deriving DecidableEq, Repr

/-- A vertex in the window (R262): place in 1/256 pixel of the target, and depth. -/
structure WinVert where
  x : Int
  y : Int
  z : Frac
deriving DecidableEq, Repr

/-- What a primitive covers once clipped and snapped (R262): a point with its size in pixels, a line, or the triangles that its clipped
polygon makes, with its facing. -/
inductive Shape where
  | point (v : WinVert) (size : Frac)
  | line (a b : WinVert)
  | tris (ts : List (WinVert × WinVert × WinVert)) (front : Bool)
deriving DecidableEq, Repr

/-- A bound pipeline (R256): the object, VARYINGS of its vertex shader, the resource entries its shaders use, the header of its
fragment binary, and the waves a cluster can hold of its shaders (R240). -/
structure Pipe where
  obj : List Byte
  vary : Nat
  res : Nat
  frag : Option (List Byte)
  waves : Nat
deriving DecidableEq, Repr

/-- The state in force at a draw (R259): the pipeline, the bodies of the last VIEWPORT and DYNAMIC, and QUERY. -/
structure DrawState where
  pipe : Pipe
  view : List Byte
  dyn : List Byte
  query : Nat
deriving DecidableEq, Repr

/-- A primitive that survives clipping and culling (R265): its place among those of the pass, its draw, what it covers, the bin tiles
it touches, the bytes it asks of the pool, and the vertex bytes of it alone. -/
structure Prim where
  id : Nat
  draw : DrawState
  shape : Shape
  tiles : List Nat
  bytes : Nat
  share : Nat
deriving DecidableEq, Repr

/-- The tile state of one pixel (R254): per plane, colours first, the code of each sample. -/
abbrev TilePx := List (List Nat)

/-- A render pass that has read its descriptor (9.4–9.7). -/
structure Pass where
  /-- The render-pass descriptor. -/
  rpd : List Byte
  /-- Byte offset of the next packet of the draw stream. -/
  pos : Nat
  pipe : Option Pipe
  res : Nat
  consts : Tab Nat
  /-- Vertex bindings: address and SIZE. -/
  vbs : Tab (Nat × Nat)
  /-- Index buffer: address, SIZE, 32-bit. -/
  ib : Option (Nat × Nat × Bool)
  viewport : List Byte
  dynamic : List Byte
  /-- Bytes of data in the bin pool, and the most there were. -/
  use : Nat
  peak : Nat
  /-- Bytes of the pool that the pass has touched. -/
  touched : Nat
  /-- Primitives in the lists of the tiles, in submission order (R264), and how many the pass has had. -/
  prims : List Prim
  count : Nat
  /-- Tiles whose list is not empty, tiles that hold a spill slot by slot, and what the slots hold (R266, R267). -/
  lists : List Nat
  slots : List Nat
  spilled : Tab (List TilePx)
  /-- Samples counted for each QUERY (R255). -/
  queries : Tab Nat
  /-- Partial renders completed, primitives of the stopped draw that wait for the pool, and what is left of its vertex term. -/
  partials : Nat
  rest : List Prim
  restExtra : Nat
deriving DecidableEq, Repr

/-- A request to give way (R279): trigger 1 a waiting E of 8 or more, 2 a higher E, 3 a slice, 4 a freeze; its time; the clusters. -/
structure GiveWay where
  trigger : Nat
  time : Nat
  clusters : List Nat
deriving DecidableEq, Repr

/-- A GPU job (R243, R271): kind 0 a pass, 1 a dispatch, 2 an indirect dispatch. -/
structure Job where
  ticket : Ticket
  kind : Nat
  desc : Desc
  /-- 0 has not read its structures, 1 binning or dispatching, 2 partial render, 3 final render. -/
  phase : Nat
  /-- The deadline is in force (R278). -/
  deadline : Bool
  /-- Clusters it holds, since when (R279), and the waves that one of them can hold (R240, R248). -/
  clusters : List Nat
  sliceFrom : Nat
  waves : Nat
  asked : Option GiveWay
  /-- Its grace ended without eviction (R282). -/
  slow : Bool
  pass : Option Pass
  /-- Workgroups of a dispatch. -/
  groups : Nat
  /-- Resource tables in use, as read (R249). -/
  tables : List (List Byte)
deriving DecidableEq, Repr

/-- The GPU of a die beside its registers. -/
structure Gpu where
  /-- Jobs in the order in which their work began. -/
  jobs : List Job
  /-- Flights in the order in which they became ready to start (R271). -/
  ready : List Nat
  /-- Function that last owned each cluster (R114). -/
  owners : Tab Fun
  /-- Cluster time of each function in the open window, ns, and nanoseconds of each cluster not yet counted (R273, R289). -/
  usage : Tab Nat
  busyNs : Tab Nat
  /-- Device time of the last accounting. -/
  mark : Nat
  /-- Fragments shaded that make no whole 1,024 yet (R289). -/
  frags : Nat
deriving DecidableEq, Repr
/-- A periodic training pass (R308): channel, type (0 oscillator, 1 read DQ, 2 write DQ), steps done, and whether the step being
gathered is to be discarded (R311). -/
structure Training where
  ch : Nat
  kind : Nat
  step : Nat
  discard : Bool
deriving DecidableEq, Repr

/-- A line of the system cache (R299): its place in local memory in lines of 64 bytes, changed since it was filled, and filled by S. -/
structure CacheLine where
  line : Nat
  dirty : Bool
  secure : Bool
deriving DecidableEq, Repr

/-- The memory controller of a die beside its registers. Banks are numbered 16 × rank + bank, and 32 to a channel. -/
structure Dram where
  /-- Open row of each bank, hits in a row on it, and device time of the last activation of each bank by each port. -/
  openRow : Tab Nat
  hits : Tab Nat
  lastAct : Tab Nat
  /-- Activations of each row group in the window (R305), and the ports throttled, with bank (R306). -/
  acts : Tab Nat
  throttled : List (Nat × Nat)
  /-- Bytes served for each function and highest urgency of each port in the 1 ms window (R304). -/
  bytes : Tab Nat
  urgency : Tab Nat
  training : Option Training
  /-- Results formed and not yet applied, by place, and the values in force: 32 × set-point + 4 × channel + type (R308). -/
  results : Tab Nat
  phy : Tab Nat
  /-- Set-point change: target; one that waits for self-refresh exit (R309). -/
  target : Option Nat
  waitTarget : Option Nat
  /-- Device time at which GO was latched. -/
  goTime : Nat
  /-- Activations of each row group at its last RFM command in the window: mitigation runs (R306). -/
  rfmAt : Tab Nat
  /-- Lines of the system cache, by 16 × set + way (R299). -/
  cache : Tab CacheLine
deriving DecidableEq, Repr

/-- A gain that moves from one value to another, 0.01 dB, over a time (R329). -/
structure Ramp where
  src : Int
  dst : Int
  start : Nat
  len : Nat
deriving DecidableEq, Repr

/-- A playback or capture buffer (R337, R338): started, frames done, LATE, GAP, and the fault that silenced the rest. -/
structure AudioBuf where
  ticket : Ticket
  desc : Desc
  started : Bool
  frames : Nat
  late : Bool
  gap : Bool
  failed : Option (Nat × Nat)
deriving DecidableEq, Repr

/-- An audio route beside its record: gain and mute, its envelope and when its ramp ends, buffers, the fraction of a frame carried
between blocks (in 1/2,000), whether its queue has run dry, and frames dropped, with whether the gap was posted. -/
structure AudioRoute where
  gain : Int
  mute : Bool
  up : Bool
  envEnd : Nat
  /-- The envelope when its ramp began, as a fraction, and the length of the ramp; the route gain as it moves; when the new end of a
  crossfade began to ramp in (R329, R331). -/
  envFrom : Nat × Nat
  envLen : Nat
  level : Ramp
  fade : Option Nat
  bufs : List AudioBuf
  frac : Nat
  dry : Bool
  dropped : Nat
  gapPosted : Bool
deriving DecidableEq, Repr

/-- A mix bus beside its registers: the AUDIO_BUS and AUDIO_FX in force with the coefficients, master gain, auto-scale (the N in
force and the end of its ramp), block peaks of the last 10 ms, held peaks with their times, clips of the second, and when it began. -/
structure AudioBus where
  setup : Desc
  fx : Desc
  coef : List Nat
  /-- An AUDIO_FX that takes effect at the next tick. -/
  nextFx : Option (Desc × List Nat)
  master : Ramp
  scale : Nat
  scaleEnd : Nat
  scaleRamp : Ramp
  /-- Biquad states by channel and biquad; the delay line, newest first; the delay in force, and the place in the ramp of a change
  (0 none); the limiter's look-ahead, newest first, and when its release ends; mean squares of the RMS meters (R332, R333). -/
  filt : List (List (List Int))
  line : List (List Int)
  delay : Nat
  delayPos : Nat
  ahead : List (List Int)
  limUntil : Nat
  meanSq : List Nat
  peaks : List (List Nat)
  holds : List (Nat × Nat)
  sumClips : Nat
  sinkClips : Nat
  clipFrom : Option Nat
deriving DecidableEq, Repr

/-- The audio engine beside its registers. Duck phases: 0 none, 1 ducking, 2 hold, 3 release. -/
structure Audio where
  buses : Tab AudioBus
  routes : Tab AudioRoute
  /-- Tone generators: WAVE, LEVEL_CB, FREQ_HZ. -/
  tones : Tab (Nat × Int × Nat)
  toneLevels : Tab Ramp
  /-- Gains and tones that take effect at the next tick: route, mute and gain; generator and setting. -/
  nextGains : List (Nat × Bool × Int)
  nextTones : List (Nat × Nat × Int × Nat)
  /-- Slave ports that were clocked and are lost. -/
  lost : List Nat
  /-- AUDIO_DUCK as set, and as latched for the present duck. -/
  duck : Desc
  ducking : Desc
  phase : Nat
  atten : Ramp
  holdEnd : Nat
deriving DecidableEq, Repr
/-- A segment of an effect (R353): KIND, amplitudes in 1/4,080 of FULL_SCALE, frequency (0 tracked), time in µs; for LOOP the
amplitudes are target and repeats. -/
structure Seg where
  kind : Nat
  a0 : Nat
  a1 : Nat
  freq : Nat
  us : Nat
deriving DecidableEq, Repr

/-- An effect that starts: number, gain, its segments, and the PLAY it belongs to with the plays left. -/
structure HapStart where
  effect : Nat
  gain : Nat
  segs : List Seg
  play : Option (Ticket × Nat)
deriving DecidableEq, Repr

/-- The effect that runs: segment, time in it, LOOPs taken, braking with its time and the periods below BRAKE_STOP, the END it is to
have, and drive time, all times in µs. -/
structure HapRun where
  start : HapStart
  seg : Nat
  us : Nat
  loops : Tab Nat
  braking : Bool
  brakeUs : Nat
  below : Nat
  code : Nat
  driveUs : Nat
deriving DecidableEq, Repr

/-- An arm slot (R355, R356): trigger route, armed, and the copy of the effect. -/
structure HapArm where
  route : Nat
  armed : Bool
  start : HapStart
deriving DecidableEq, Repr

/-- A haptic channel beside its registers. -/
structure HapChan where
  setup : Desc
  /-- HAPTIC_CHANNELs whose DONE waits: for leave, and for the stop. -/
  ticket : Option Ticket
  stopping : Option Ticket
  ram : Tab (List Seg)
  arms : Tab HapArm
  run : Option HapRun
  queued : Option HapStart
  /-- PLAYs that wait (R348). -/
  plays : List (Ticket × Desc)
  /-- Failed sensor reads in a row, and open loop after eight (R346). -/
  fails : Nat
  openLoop : Bool
  /-- Continuous drive and zero drive so far, in control periods (R351). -/
  cont : Nat
  zero : Nat
  /-- Drive in the 100 buckets of the duty window, newest first, in control periods, and periods of the newest bucket. -/
  buckets : List Nat
  inBucket : Nat
  /-- New starts are refused: after TLIM, after the duty limit. -/
  blockTlim : Bool
  blockDuty : Bool
  clampRem : Nat
deriving DecidableEq, Repr

/-- A contact of a sensor, or of an I²C port (64 + local port): its ID and the controller's, its region, whether its touch-down was
reported, position, the position last reported, delta, the stuck timer and the position it started at, scans without a node at
REL_TH, and a stuck condition raised on a Garnet sensor (R368–R378). -/
structure Contact where
  src : Nat
  id : Nat
  key : Nat
  region : Option Nat
  reported : Bool
  x : Nat
  y : Nat
  repX : Nat
  repY : Nat
  delta : Int
  since : Nat
  ax : Nat
  ay : Nat
  low : Nat
  stuck : Bool
deriving DecidableEq, Repr

/-- A sensor: its TOUCH_SENSOR, scans of the debounce in progress, matrix peaks within it (X, Y, scans), an anti-touch condition
raised on a Garnet sensor, frozen. -/
structure Sensor where
  setup : Desc
  count : Nat
  peaks : List (Nat × Nat × Nat)
  antiFault : Bool
  frozen : Bool
  last : Nat
deriving DecidableEq, Repr

/-- A measurement: raw count, baseline in 1/256, no valid reference, scans in a row out of range and in range, faulty, and when
its delta fell to the anti-touch limit. -/
structure Meas where
  raw : Nat
  base : Nat
  noRef : Bool
  bad : Nat
  good : Nat
  faulty : Bool
  anti : Option Nat
deriving DecidableEq, Repr

/-- An I²C host port: its TOUCH_I2C, a read in progress and whether it is the retry, failed reads in a row, and the last failure. -/
structure TshPort where
  setup : Desc
  reading : Bool
  retry : Bool
  fails : Nat
  why : Nat
deriving DecidableEq, Repr

/-- Touch sensing of a die beside its registers. Measurements are numbered by self channel, by RX channel of a mutual key, and as
0x100 + node. -/
structure Touch where
  /-- The TOUCH_UNIT of the last enabling, and whether the unit is enabled. -/
  setup : Desc
  enabled : Bool
  /-- The next scan is the first of a unit start; worlds (0 N, 1 S) whose baselines are to be reloaded. -/
  fresh : Bool
  reload : List Nat
  sensors : Tab Sensor
  meas : Tab Meas
  contacts : List Contact
  regions : Tab Desc
  ports : Tab TshPort
  test : Option (Ticket × Desc)
  /-- The low-power electrode: baseline in 1/256, scans at LP_TH, delta at wake. -/
  lpBase : Option Nat
  lpRun : Nat
  lpDelta : Option Nat
deriving DecidableEq, Repr

/-- A COPY-ring descriptor that runs or waits (15.3): its check route with the algorithm and byte order it was fetched under (handle 0
for COPY), the engine, bytes done, the running value once it has begun, and whether it holds the leave it needs. -/
structure CheckJob where
  ticket : Ticket
  desc : Desc
  handle : Nat
  engine : Nat
  poly : Nat
  big : Bool
  pos : Nat
  value : Option Nat
  leave : Bool
deriving DecidableEq, Repr

/-- The COPY and CRC engines of a die: work, oldest first; the flight the COPY engine and each CRC engine serves; running values by
route; the 1 ms window and each function's bytes in it (R392). -/
structure Checks where
  jobs : List CheckJob
  copying : Option Nat
  serving : Tab Nat
  values : Tab Nat
  window : Nat
  used : Tab Nat
deriving DecidableEq, Repr
/-- A request for leave: kind, unit (a CLAIM_STATUS bit or a number of the kind), made for a Jade tenant or for none, device
time of the request, aged (R415–R418). -/
structure Ask where
  kind : Nat
  unit : Nat
  jade : Bool
  since : Nat
  aged : Bool
deriving DecidableEq, Repr

/-- The permit arbiter of a die beside its registers. -/
structure Permit where
  /-- Requests that units are about to make, oldest first. -/
  asks : List Ask
  /-- Requests that wait, oldest first. -/
  waiting : List Ask
  /-- Held steps: kind, step in mA. -/
  held : List (Nat × Nat)
  /-- Leaves granted whose unit has not yet used them. -/
  granted : List (Nat × Nat)
  /-- Device time of the last cluster grant (R418). -/
  lastCluster : Option Nat
deriving DecidableEq, Repr


/-- The power state of a die beside its registers (R402–R412): the POWER_STATE that runs with the state it asks for (1 PEARL, 2 ONYX)
and whether its completion is a FURTHER; the step of the exit (1 PWREN_FT high, 2 leave asked for, 3 refreshed); device time at which
the last state was reached; the wake sources that have fired; for how long WAKEn has been low, µs; in ONYX. -/
structure Power where
  request : Option (Ticket × Nat × Bool)
  step : Nat
  since : Nat
  wakes : List Nat
  wakeLow : Nat
  onyx : Bool
deriving DecidableEq, Repr

/-- Start-up and supervisor of a die beside their registers (R426–R438, R487–R492): the firmware runs, the pair has halted, the levels of
LIFE and FAILOVER_n, THERMTRIP_n driven low, PWREN_AON and PWREN_MAIN, and the security versions in force. -/
structure Boot where
  running : Bool
  halted : Bool
  life : Bool
  failover : Bool
  tripped : Bool
  pwrenAon : Bool
  pwrenMain : Bool
  fwVersion : Nat
  cfgVersion : Nat
  /-- Islands out of reset, and islands due for release, by their place in Table 2.3 (R426). -/
  islandsOut : List Nat
  due : List Nat
  /-- Units that stay in reset after a release without lock (R438). -/
  stuck : List Nat
  /-- The cold start in progress follows ONYX (R411). -/
  onyxExit : Bool
  /-- The signed configuration in force (R430). -/
  config : Option BootConfig
deriving DecidableEq, Repr
/-- The Ebrum link as a die sees it, beside its registers (R445–R453): per bundle the remap in progress and those behind it
(receiving die, lane); device time of the main-link loss; the LINK_RETRAIN that runs, with its bundles; the REJOIN that is held; a split
cause that waits for FULL, or for PEER_OK to stay low. -/
structure Ebrum where
  remaps : Tab (List (Die × Nat))
  lost : Option Nat
  retrain : Option (Ticket × Nat)
  rejoin : Option Ticket
  splitDue : Option Nat
  /-- Device-time offset that the rejoin in progress found, ns (Table 18.4). -/
  offset : Int
  /-- The sets of bundles that carried traffic, the newest first, each with the device time of its change (R442). -/
  sets : List (Nat × List Nat)
deriving DecidableEq, Repr

/-- The link test units of a die beside their registers (R461, R464, R465): the lanes locked per unit, the eye-scan point (0 none, 1
waits for a margining command, 2 runs), the PCIe lanes being margined. -/
structure LinkTests where
  locked : Tab (List Nat)
  eye : Nat
  margin : List Nat
deriving DecidableEq, Repr


/-- The Rinlar record of a die beside its registers (R468–R476). Images are tables of 32-bit words by word index. -/
structure Rinlar where
  /-- The running counters, histograms and touch references, laid out as a slot. -/
  live : Tab Nat
  /-- The 32 slots of the MRAM. -/
  slots : Tab (Tab Nat)
  retired : List Nat
  /-- Snapshots that wait, oldest first: cause, and the TOUCH_REF that waits for it. -/
  queue : List (Nat × Option Ticket)
  /-- The snapshot being written: cause, slot, the TOUCH_REF that waits for it. -/
  writing : Option (Nat × Nat × Option Ticket)
  /-- Device time from which a snapshot of cause 3 or 4 may start, and from which a power-fail snapshot is taken (R469, R470). -/
  requestFrom : Nat
  powerFailFrom : Nat
  /-- An unannounced loss was found at the last load and is not yet posted (R471). -/
  lossDue : Bool
deriving DecidableEq, Repr

/-- What the state image of a tenant carries (R122, R123): ring registers word by word, S1_ROOT and XLATE_CTRL, what the rings hold,
completions owed, routes by handle and kind, held commits, GPU contexts, audio and haptic state, held events, lost events. -/
structure Image where
  regs : List Word
  root : Word × Word × Word
  rings : List RingAux
  owed : List Ticket
  routes : List (Nat × Nat)
  commits : List (Nat × Option Commit × Option Colour)
  jobs : List Job
  audio : List (Nat × AudioRoute)
  haptics : List (Nat × HapChan)
  events : List Event
  gap : Nat × Nat
deriving DecidableEq, Repr


/-- The machine. -/
structure State where
  part : Part
  /-- Commands that wait, first in, first out. -/
  pending : List Instr
  /-- Memory of the hosts and of both dies (hostKey and localKey number the bytes). -/
  mem : List Host.Cell
  /-- Set-up registers; an address not listed holds its reset word. -/
  regs : Tab Word
  /-- Values carried to the islands (R41). -/
  island : Tab Word
  /-- Staged _LO writes and latched _HI reads, per function and register (R10, R11). -/
  staged : Tab Word
  latched : Tab Word
  /-- What the last read of set-up space returned. -/
  readData : Word
  /-- Device time of each die as last carried across crossing 0xC4, ns, and the time base islands (R38). -/
  timeA : Nat
  timeB : Nat
  tbases : Tab TimeBase
  /-- Free values used so far: the model's own. -/
  free : Nat
  /-- What left the device in the last step. -/
  out : List Out
  nextTag : Nat
  rings : Tab RingAux
  fns : Tab FnAux
  owed : List Ticket
  routes : Tab Route
  tenants : Tab Tenant
  tlb : List TlbEntry
  /-- The invalidation in progress, by die (R126, R127). -/
  invs : Tab MmuInv
  /-- 32-bit words of local memory marked poisoned (R295), by byte key. -/
  poison : List Nat
  xings : Tab Xing
  pace : Tab Pace
  votes : Tab Vote
  /-- SECURE_CLAIM counts, and counts of Garnet uses, by die and CLAIM_STATUS bit (R498). -/
  claims : Tab Nat
  garnetClaims : Tab Nat
  /-- Units taken out of service by a failed scrub (R116). -/
  outOfService : List Nat
  debug : Tab Debug
  /-- Domains in reset; POR and RESETn as last seen (R424). -/
  inReset : List Domain
  porLow : Bool
  resetnHigh : Bool
  split : Bool
  rinlar : Tab Rinlar
  /-- Heads by device-wide number, ports by 4 × die + local port. -/
  heads : Tab Head
  ports : Tab Port
  permits : Tab Permit
  garnets : Tab Garnet
  /-- Camera ports by device-wide number, streams by 4 × port + virtual channel, captures by route, warp engines by die. -/
  camPorts : Tab CamPort
  streams : Tab Stream
  captures : Tab Capture
  warps : Tab Warp
  gpus : Tab Gpu
  drams : Tab Dram
  audio : Audio
  /-- Haptic channels by device-wide number. -/
  haptics : Tab HapChan
  touches : Tab Touch
  checks : Tab Checks
  powers : Tab Power
  linkTests : Tab LinkTests
  ebrums : Tab Ebrum
  boots : Tab Boot
deriving DecidableEq, Repr

/-- The domains of Table 17.1 in the order of its steps (R423). -/
def releaseOrder : List Domain :=
  [.alwaysOn, .rinlar, .supervisor, .fabric, .memory, .frameTier, .ebrum, .pcie, .heads, .composer, .camera, .gpu, .audio, .haptic, .touch]

/-- A device of a part with every domain of Table 17.1 in reset (R424): registers at their reset values, nothing set up. -/
def State.initial (p : Part) : State :=
  { part := p, pending := [], mem := [], regs := [], island := [], staged := [], latched := [], readData := 0, timeA := 0, timeB := 0, tbases := [],
    free := 0, out := [], nextTag := 1, rings := [], fns := [], owed := [], routes := [], tenants := [], tlb := [], invs := [], poison := [],
    xings := [], pace := [], votes := [], claims := [], garnetClaims := [], outOfService := [], debug := [], inReset := releaseOrder,
    porLow := false, resetnHigh := false, split := false, rinlar := [], heads := [], ports := [], permits := [], garnets := [],
    camPorts := [], streams := [], captures := [], warps := [], gpus := [], drams := [],
    audio := ⟨[], [], [], [], [], [], [], 0, 0, 0, ⟨0, 0, 0, 0⟩, 0⟩, haptics := [], touches := [], checks := [], powers := [], linkTests := [],
    ebrums := [], boots := [] }

/-- The part that the model resets (notes/assumptions/1.md): a QX8-F whose straps name die A the senior die. -/
def Part.default : Part := ⟨1, 1, 0, 0, 0, 0, 0, 0, 0, 1, false, []⟩

/-- The device right after the power-on reset has been released, RESETn still low (R422, R425). -/
def State.reset : State := State.initial Part.default

end Sys2Proof.Machine
end

