-- ==== Sys2Proof/Machine/Flags.lean ====
section
/-! DEFINITION. Codes and flags: the status codes of Table 3.5, the reasons of R71, reset words, register reads and field
updates, saturating and wrapping counters. -/
namespace Sys2Proof.Machine

/-! Status codes (Table 3.5). -/
def stOk : Nat := 0x00
def stOkEmpty : Nat := 0x01
def stInvalidDesc : Nat := 0x10
def stUnitAbsent : Nat := 0x11
def stNoRoute : Nat := 0x12
def stXlateFault : Nat := 0x20
def stEccUncorr : Nat := 0x21
def stTimeout : Nat := 0x22
def stEvicted : Nat := 0x23
def stOutOfBin : Nat := 0x24
def stPeerLost : Nat := 0x25
def stAbortedReset : Nat := 0x26
def stSecureHeld : Nat := 0x30
def stDeadlineMissed : Nat := 0x31
def stPeerReset : Nat := 0x32

/-! Bit numbers of the units in CLAIM_STATUS (R126). -/
def bitHead (n : Nat) : Nat := n
def bitComposer : Nat := 4
def bitCamera (n : Nat) : Nat := 5 + n
def bitWarp : Nat := 9
def bitAudio : Nat := 10
def bitHaptic (n : Nat) : Nat := 11 + n
def bitTouch : Nat := 15
def bitCrc (n : Nat) : Nat := 16 + n
def bitCluster (n : Nat) : Nat := 20 + n
def bitDevice : Nat := 28

/-- Key of a unit of a die in the claim and service tables. -/
def unitKey (d : Die) (bit : Nat) : Nat := d.idx * 32 + bit

/-- UNIT_PRESENT of a die (Table 22.2). -/
def unitsPresent (p : Part) (d : Die) : Nat :=
  match p.variant, d with
  | 2, .a => 0x1FFF7BFF
  | 2, .b => 0x1FFF03FF
  | 3, .a => 0x10FFFE7F
  | 3, .b => 0x10FFFA7F
  | _, .a => 0x1FFFFFFF
  | _, .b => 0x1FFFFBFF

/-- The unit of a CLAIM_STATUS bit is present on the die (R126, R496). -/
def unitPresent (p : Part) (d : Die) (bit : Nat) : Bool := nbit (unitsPresent p d) bit

/-- Kind (0 value, 1 event) and reset mode (0 MERGE, 1 FLAG) of the crossing of an index, where the manual defines one
(Tables 2.3a, 3.10 and those of the unit chapters). -/
def xingForm (n : Nat) : Option (Nat × Nat) :=
  if n < 0x20 then
    (if n % 8 = 5 then some (1, 1) else if n % 8 = 3 ∨ n % 8 = 4 ∨ n % 8 = 6 then some (1, 0) else some (0, 0))
  else if n < 0x40 then (if n % 4 = 3 then some (1, 0) else some (0, 0))
  else if n < 0x48 then (if n = 0x47 then some (1, 0) else some (0, 0))
  else if n < 0x68 then
    (if n % 8 = 7 then some (1, 1) else if 3 ≤ n % 8 then some (1, 0) else some (0, 0))
  else if n < 0x78 then (if n % 4 = 3 then some (1, 0) else some (0, 0))
  else if n < 0x7C then (if n = 0x7B then some (1, 1) else if n = 0x7A then some (1, 0) else some (0, 0))
  else if n < 0x80 then none
  else if n < 0x85 then (if n = 0x82 ∨ n = 0x83 then some (1, 1) else some (0, 0))
  else if n < 0x88 then none
  else if n < 0xA0 then (if 2 ≤ n % 4 then some (1, 0) else some (0, 0))
  else if n < 0xC0 then
    (if n % 8 = 4 ∨ n % 8 = 5 then some (1, 0) else if n % 8 < 4 then some (0, 0)
     else if n < 0xA8 then some (0, 0) else none)
  else if n < 0xC4 then (if 0xC2 ≤ n then some (1, 1) else some (0, 0))
  else if n < 0xC8 then (if n = 0xC7 then some (1, 1) else if n = 0xC6 then some (1, 0) else some (0, 0))
  else none

/-- The crossing exists on this die and variant (R37). -/
def xingPresent (p : Part) (d : Die) (n : Nat) : Bool :=
  (xingForm n).isSome &&
  (if 0x48 ≤ n ∧ n < 0x68 then unitPresent p d (bitCamera ((n - 0x48) / 8))
   else if 0x68 ≤ n ∧ n < 0x80 then unitPresent p d bitAudio
   else if 0x80 ≤ n ∧ n < 0x88 then unitPresent p d bitTouch
   else if 0x90 ≤ n ∧ n < 0xA0 then unitPresent p d (bitHaptic ((n - 0x90) / 4))
   else true)

/-- Reset word of XING_CFG. -/
def xingCfgReset (p : Part) (d : Die) (n : Nat) : Nat :=
  if xingPresent p d n then
    match xingForm n with
    | some (k, m) => 4 + 2 * k + m
    | none => 0
  else 0

/-- CAP_MEDIA of a die and variant. -/
def capMediaReset (p : Part) (d : Die) : Nat :=
  let audio := unitPresent p d bitAudio
  (if audio then 64 else 0) * 2 ^ 24 + (if audio then 16 else 0) * 2 ^ 19 + (if p.variant = 2 then 0 else 96) * 2 ^ 12
    + 2 * 2 ^ 9 + (if unitPresent p d (bitHaptic 0) then 4 else 0) * 2 ^ 6 + (if p.variant = 3 then 2 else 4) * 2 ^ 3 + 4

/-- Reset word of DRAM_PORT_CFG (Table 11.1): class, age limit, latency target. -/
def dramPortReset (p : Nat) : Nat :=
  let w (c age lat : Nat) : Nat := c * 2 ^ 30 + age * 2 ^ 16 + lat
  if p = 0 then w 0 0 500 else if p = 1 then w 0 0 1000 else if p ≤ 8 then w 1 0 0
  else if p = 9 then w 2 20 2000 else if p = 10 then w 2 20 1000 else if p = 11 then w 2 20 2000
  else if p ≤ 19 then w 3 50 4000 else if p ≤ 21 then w 3 200 20000 else if p = 22 then 0 else w 3 1000 60000

/-- Reset word of PERMIT_RAIL (R420): reserve and budget. -/
def permitRailReset (r : Nat) : Nat :=
  if r = 0 then 2400 else if r = 1 then 1500 * 2 ^ 16 + 2000 else if r = 2 then 1600 else 480 * 2 ^ 16 + 600

/-- Reset word of PERMIT_KIND (Table 16.9): step, rail, deadline, hold. -/
def permitKindReset (k : Nat) : Nat :=
  let w (step rail dl hold : Nat) : Nat := step * 2 ^ 16 + rail * 2 ^ 14 + dl * 2 ^ 13 + hold
  if k = 0 then w 1200 0 0 2 else if k = 1 then w 800 2 0 10 else if k = 2 then w 1500 1 1 100
  else if k = 3 then w 120 3 1 20 else if k = 4 then w 40 3 0 10 else w 20 3 0 10

/-- What the manual adds per part, die or variant to the reset word of a row. -/
def specialReset (p : Part) (d : Die) (r : RegRow) (off : Nat) : Nat :=
  if r.off = 0x0 then p.variant % 16 * 16 + p.grade % 16
  else if r.off = 0x4 then d.idx
  else if r.off = 0x8 then unitsPresent p d
  else if r.off = 0x14 then capMediaReset p d - r.rst
  else if r.off = 0x18 then (if p.variant = 3 then 4 else 8) * 16
  else if r.off = 0x201000 then xingCfgReset p d (r.i1 off)
  else if r.off = 0x400018 then p.fusedOff % 16
  else if r.off = 0x1800000 then (if p.variant = 3 then 0x0F else 0xFF)
  else if r.off = 0x1800100 then (if unitPresent p d (bitCluster (r.i1 off)) then 2 ^ 31 else 0)
  else if r.off = 0x2001000 then (if r.i1 off = 8 ∧ unitPresent p d bitAudio = false then 0 else dramPortReset (r.i1 off))
  else if r.off = 0x2001004 then (if r.i1 off = 8 ∧ unitPresent p d bitAudio = false then 0 else 2 ^ 30)
  else if r.off = 0x208000 then permitRailReset (r.i1 off)
  else if r.off = 0x208100 then permitKindReset (r.i1 off)
  else 0

/-- The word a register holds after reset (0.6, R424); an offset that no register occupies reads zero (R494). -/
def resetWord (p : Part) (a : Nat) : Word :=
  match findRow (addrOff a) with
  | none => 0
  | some r => BitVec.ofNat 32 (r.rst + specialReset p (addrDie a) r (addrOff a))

/-- The value a register holds. -/
def State.rd (s : State) (a : Nat) : Word := tget (resetWord s.part a) a s.regs

/-- Give a register a value. -/
def wr (a : Nat) (v : Word) (s : State) : State := { s with regs := tset a v s.regs }

/-- The value of a field. -/
def State.rdF (s : State) (a : Nat) (f : Fld) : Nat := f.get (s.rd a)

/-- Give a field a value; the register's other bits are unchanged. -/
def wrF (a : Nat) (f : Fld) (v : Nat) (s : State) : State := wr a (f.put v (s.rd a)) s

/-- A one-bit field as a flag. -/
def State.flag (s : State) (a : Nat) (f : Fld) : Bool := s.rdF a f == 1

/-- Set or clear a flag. -/
def wrB (a : Nat) (f : Fld) (v : Bool) (s : State) : State := wrF a f (b2n v) s

/-- Add to a counter that saturates at its largest value. -/
def satF (a : Nat) (f : Fld) (n : Nat) (s : State) : State := wrF a f (min (2 ^ f.len - 1) (s.rdF a f + n)) s

/-- Raise a field to n if n is larger (a maximum). -/
def maxF (a : Nat) (f : Fld) (n : Nat) (s : State) : State := wrF a f (max (s.rdF a f) (min (2 ^ f.len - 1) n)) s

/-- The 64-bit value of a pair whose low half is at `a`. -/
def State.rd64 (s : State) (a : Nat) : Nat := (s.rd a).toNat + 2 ^ 32 * (s.rd (a + 4)).toNat

/-- Give a 64-bit pair a value, modulo 2⁶⁴. -/
def wr64 (a v : Nat) (s : State) : State :=
  s |> wr a (BitVec.ofNat 32 v) |> wr (a + 4) (BitVec.ofNat 32 (v / 2 ^ 32))

/-- Add to a 64-bit counter that wraps modulo 2⁶⁴. -/
def add64 (a n : Nat) (s : State) : State := wr64 a (s.rd64 a + n) s

/-- Device time of a die (R38). -/
def State.now (s : State) (d : Die) : Nat :=
  match d with
  | .a => s.timeA
  | .b => s.timeB

def TimeBase.empty : TimeBase := ⟨0, 0, 0, 0⟩
def State.tbase (s : State) (d : Die) : TimeBase := tget TimeBase.empty d.idx s.tbases
def setTbase (d : Die) (x : TimeBase) (s : State) : State := { s with tbases := tset d.idx x s.tbases }

/-- Device time as carried to the fabric of a die. -/
def setNow (d : Die) (t : Nat) (s : State) : State :=
  match d with
  | .a => { s with timeA := t }
  | .b => { s with timeB := t }

/-- The next free value, and the state in which it is used up. -/
def State.freeNat (s : State) (k : Nat) : Nat := (Config.freeValue (s.free + k)).toNat

def useFree (n : Nat) (s : State) : State := { s with free := s.free + n }

/-- Something leaves the device. -/
def emit (o : Out) (s : State) : State := { s with out := s.out ++ [o] }

def Rinlar.empty : Rinlar := ⟨[], [], [], [], none, 0, 0, false⟩
def State.rin (s : State) (d : Die) : Rinlar := tget Rinlar.empty d.idx s.rinlar
def setRin (d : Die) (r : Rinlar) (s : State) : State := { s with rinlar := tset d.idx r s.rinlar }

/-- Add to a 32-bit word of the running record, saturating (R473). -/
def rinlarAdd (d : Die) (w n : Nat) (s : State) : State :=
  setRin d { s.rin d with live := tset w (min 0xFFFFFFFF (tget 0 w (s.rin d).live + n)) (s.rin d).live } s

/-- Advance a counter of the Rinlar record of a die by n (R473; counter i of Table 20.3). -/
def rinlarCount (d : Die) (i n : Nat) (s : State) : State := rinlarAdd d (0x10 + i) n s

def Boot.empty : Boot := ⟨false, false, false, false, false, true, false, 0, 0, [], [], [], false, none⟩
def State.boot (s : State) (d : Die) : Boot := tget Boot.empty d.idx s.boots
def setBoot (d : Die) (x : Boot) (s : State) : State := { s with boots := tset d.idx x s.boots }

def bothDies : List Die := [.a, .b]

/-- The supervisor of the die runs: the condition on which LIFE toggles (R448, R487). -/
def supRuns (s : State) (d : Die) : Bool := (s.boot d).running && !(s.boot d).halted

/-- The island is out of reset (R426). -/
def islandOut (s : State) (d : Die) (i : Nat) : Bool := (s.boot d).islandsOut.contains i

/-- An island becomes due for release (R426): its unit is enabled. -/
def dueIsland (d : Die) (i : Nat) (s : State) : State :=
  if islandOut s d i ∨ (s.boot d).due.contains i then s else setBoot d { s.boot d with due := (s.boot d).due ++ [i] } s

/-- The unit is in reset: asserted, or its release is held or has failed (R436, R438). -/
def unitReset (s : State) (d : Die) (bit : Nat) : Bool :=
  nbit (s.rd (BLOCK_RESET d)).toNat bit || nbit (s.rd (BLOCK_PENDING d)).toNat bit || (s.boot d).stuck.contains bit

/-- The unit is quiesced (R439). -/
def unitQuiet (s : State) (d : Die) (bit : Nat) : Bool := nbit (s.rd (BLOCK_QUIESCE d)).toNat bit

end Sys2Proof.Machine
end

