-- ==== Sys2Proof/Machine/Ops.lean ====
section
/-! DEFINITION. The named operations over memory, translation, interrupts, events and completions, and the one frame in which
every command runs. -/
namespace Sys2Proof.Machine

/-! ## Memory -/

/-- The byte at a key; a byte that nothing has written reads 0 (notes/assumptions/3.md). -/
def memGet (k : Nat) : List Host.Cell → Byte
  | [] => 0
  | (j, b) :: t => if j = k then b else memGet k t

/-- Write one byte, keeping the canonical form: keys strictly rising, no entry of value 0. -/
def memSet (k : Nat) (b : Byte) : List Host.Cell → List Host.Cell
  | [] => if b = 0 then [] else [(k, b)]
  | (j, c) :: t =>
    if j = k then (if b = 0 then t else (k, b) :: t)
    else if k < j then (if b = 0 then (j, c) :: t else (k, b) :: (j, c) :: t)
    else (j, c) :: memSet k b t

/-- Write bytes at rising keys. -/
def memPut (k : Nat) : List Byte → List Host.Cell → List Host.Cell
  | [], m => m
  | b :: t, m => memPut (k + 1) t (memSet k b m)

/-- Every key of the list is above `lo`, keys rise strictly, and no entry is 0. -/
def memWfFrom (lo : Nat) : List Host.Cell → Bool
  | [] => true
  | (k, b) :: t => decide (lo ≤ k) && decide (b ≠ 0) && memWfFrom (k + 1) t

/-- The canonical form of memory. -/
def Memory.wf (m : List Host.Cell) : Bool := memWfFrom 0 m

/-- The entries below a key. -/
def memBelow (k : Nat) : List Host.Cell → List Host.Cell
  | [] => []
  | (j, b) :: t => if j < k then (j, b) :: memBelow k t else []

/-- The memory writes among what left the device, applied in order. -/
def applyOut : List Out → List Host.Cell → List Host.Cell
  | [], m => m
  | .mem k bs :: t, m => applyOut t (memPut k bs m)
  | .localLost :: t, m => applyOut t (memBelow (2 ^ 54) m)
  | _ :: t, m => applyOut t m

/-- The byte that a write among `o` left at a key, the newest winning. -/
def outByte (k : Nat) : List Out → Option Byte
  | [] => none
  | .mem j bs :: t =>
    match outByte k t with
    | some b => some b
    | none => if j ≤ k then bs[k - j]? else none
  | .localLost :: t =>
    match outByte k t with
    | some b => some b
    | none => if 2 ^ 54 ≤ k then some 0 else none
  | _ :: t => outByte k t

/-- The byte at a key, after the writes of the present step. -/
def State.byte (s : State) (k : Nat) : Byte :=
  match outByte k s.out with
  | some b => b
  | none => memGet k s.mem

/-- n bytes from a key. -/
def State.bytes (s : State) (k n : Nat) : List Byte := (upto n).map (fun i => s.byte (k + i))

/-- The number that n bytes from a key spell. -/
def State.word (s : State) (k n : Nat) : Nat := ofLe (s.bytes k n)

/-- What left the device before is forgotten. -/
def fresh (s : State) : State := { s with out := [] }

/-- The state in which a command has acted: what left the device before is forgotten, the command acts, its memory writes reach
memory, and neither the queue nor memory changes otherwise. -/
def ran (f : State → State) (s : State) : State :=
  let t := f (fresh s)
  { t with mem := applyOut t.out s.mem, pending := s.pending }

/-- Every command runs in this frame, and answers a next state. -/
def run (f : State → State) (s : State) : Host.Outcome State Fault Refusal := .next (ran f s)

/-! ## Addresses and translation (4.3) -/

/-- Key of a byte of host memory, seen from an endpoint. -/
def hostKey (s : State) (ep : Die) (a : Nat) : Nat :=
  if s.part.twoHosts then a + 2 ^ 53 * ep.idx else a

/-- Key of a byte of device local memory (R16). -/
def localKey (a : Nat) : Nat := 2 ^ 54 + a

/-- Why a DMA does not take place: a translation fault (stage, level, kind of R106), the other die in a split, or an
uncorrectable error. -/
inductive DmaErr where
  | xlate (stage level kind : Nat)
  | peer
  | ecc
deriving DecidableEq, Repr

/-- DETAIL of R106. -/
def xlateDetail (stage level kind : Nat) : Nat := stage * 2 ^ 23 + level * 2 ^ 20 + kind * 2 ^ 16

/-- Status and DETAIL of a completion for a failed DMA. -/
def DmaErr.completion : DmaErr → Nat × Nat
  | .xlate st lv k => (stXlateFault, xlateDetail st lv k)
  | .peer => (stPeerLost, 0)
  | .ecc => (stEccUncorr, 0)

/-- Fitted local memory of a die, bytes (R290, CAP_COMPUTE). -/
def fitted (s : State) (d : Die) : Nat := s.rdF (CAP_COMPUTE d) CAP_COMPUTE_LOCAL_GIB * 2 ^ 30

/-- The offset lies in the check part of an ECC region of the die (R293, R294). -/
def inCheckPart (s : State) (d : Die) (off : Nat) : Bool :=
  (upto 8).any (fun i =>
    let b := s.rdF (DRAM_ECC_REGION_BASE d i) DRAM_ECC_REGION_BASE_BASE_2M * 2 ^ 21
    let z := s.rdF (DRAM_ECC_REGION_SIZE d i) DRAM_ECC_REGION_SIZE_SIZE_2M * 2 ^ 21
    decide (b + 4 * z / 5 ≤ off ∧ off < b + z))

/-- The offset lies in the data part of an ECC region of the die (R293). -/
def inEccData (s : State) (d : Die) (off : Nat) : Bool :=
  (upto 8).any (fun i =>
    let b := s.rdF (DRAM_ECC_REGION_BASE d i) DRAM_ECC_REGION_BASE_BASE_2M * 2 ^ 21
    let z := s.rdF (DRAM_ECC_REGION_SIZE d i) DRAM_ECC_REGION_SIZE_SIZE_2M * 2 ^ 21
    decide (b ≤ off ∧ off < b + 4 * z / 5))

/-- The offset lies in the secure carve-out of the die (R111). -/
def inCarve (s : State) (d : Die) (off : Nat) : Bool :=
  let b := s.rdF (CARVE_BASE d) CARVE_BASE_BASE_2M * 2 ^ 21
  let z := s.rdF (CARVE_SIZE d) CARVE_SIZE_SIZE_2M * 2 ^ 21
  decide (b ≤ off ∧ off < b + z)

/-- Die and die-local offset of a device local address (R16). -/
def localDie (a : Nat) : Die := if a < 2 ^ 35 then .a else .b
def localOff (a : Nat) : Nat := a % 2 ^ 35

/-- Bits of the grants of a function's tenant, from byte 8 of its TENANT_CREATE. -/
def dget (d : Desc) (byte bit n : Nat) : Nat := d.toNat / 2 ^ (8 * byte + bit) % 2 ^ n

/-- The device local address lies in one of the tenant's local memory windows (R95, R103). -/
def inWindow (s : State) (f : Fun) (a : Nat) : Bool :=
  match tfind f.key s.tenants with
  | none => false
  | some t => (upto 4).any (fun i =>
      let b := dget t.grants (24 + 8 * i) 0 32 * 2 ^ 21
      let z := dget t.grants (28 + 8 * i) 0 32 * 2 ^ 21
      decide (b ≤ a ∧ a < b + z))

/-- The checks of a device local address: R16, the windows of R103, the carve-out of R111, and the split (R17). `d` is the
die of the unit that asks. In a split the other die's window answers PEER_LOST also where it is not populated: R16 and R17 both apply
(DESIGN CHOICE, notes/assumptions/99.md). -/
def checkLocal (s : State) (d : Die) (f : Fun) (a : Nat) : Except DmaErr Nat :=
  if 2 ^ 36 ≤ a then .error (.xlate 1 7 3)
  else if s.split ∧ localDie a ≠ d then .error .peer
  else if fitted s (localDie a) ≤ localOff a then .error (.xlate 1 7 3)
  else if inCheckPart s (localDie a) (localOff a) then .error (.xlate 1 7 3)
  else if f.fn ≠ 0 ∧ f.fn ≠ 63 ∧ inWindow s f a = false then .error (.xlate 1 7 5)
  else if inCarve s (localDie a) (localOff a) ∧ f.fn ≠ 63 then .error (.xlate 1 7 4)
  else .ok (localKey a)

/-- A host address as the unit's die reaches it: in a split, the other die's endpoint is lost (R17). -/
def checkHost (s : State) (d : Die) (f : Fun) (a : Nat) : Except DmaErr Nat :=
  if s.split ∧ f.ep ≠ d then .error .peer else .ok (hostKey s f.ep a)

/-- A translation leaf: output address, LOCAL, permissions, CACHE, and the level it stands at. -/
structure Leaf where
  addr : Nat
  loc : Bool
  rd : Bool
  wr : Bool
  cache : Bool
  level : Nat
deriving DecidableEq, Repr

/-- Walk a table (R101, R102): `n` levels remain, `fetch` reads the 8-byte entry at an address. -/
def walk (fetch : Nat → Bool → Except DmaErr Nat) (stage : Nat) (input : Nat) : Nat → Nat → Bool → Except DmaErr Leaf
  | 0, _, _ => .error (.xlate stage 3 2)
  | n + 1, tbl, tloc =>
    let level := 3 - n
    match fetch (tbl + 8 * (input / 2 ^ (12 + 9 * n) % 512)) tloc with
    | .error (.xlate s' l k) => .error (.xlate s' (if s' = stage ∧ l = 7 then level else l) k)
    | .error _ => .error (.xlate stage level 6)
    | .ok e =>
      let loc := nbit e 5
      let addr := e / 2 ^ 12 % 2 ^ 40 * 2 ^ 12
      let size := 2 ^ (12 + 9 * n)
      if nbit e 0 = false then .error (.xlate stage level 0)
      else if nbit e 4 ∨ e / 2 ^ 6 % 2 ^ 6 ≠ 0 ∨ e / 2 ^ 52 % 2 ^ 11 ≠ 0 ∨ (stage = 0 ∧ loc) then .error (.xlate stage level 2)
      else if nbit e 1 then
        if n = 0 ∨ nbit e 2 ∨ nbit e 3 ∨ nbit e 63 then .error (.xlate stage level 2)
        else walk fetch stage input n addr loc
      else if n = 3 ∨ addr % size ≠ 0 then .error (.xlate stage level 2)
      else .ok ⟨addr + input % size, loc, nbit e 2, nbit e 3, nbit e 63, level⟩

/-- The word a table walk reads (R103): poisoned words fail the walk (R295). -/
def fetchPhys (s : State) (d : Die) (f : Fun) (a : Nat) (loc : Bool) : Except DmaErr Nat :=
  match (if loc then checkLocal s d ⟨f.ep, if f.fn = 63 then 63 else 0⟩ a else checkHost s d f a) with
  | .error e => .error e
  | .ok k => if s.poison.any (fun p => decide (k ≤ p + 3 ∧ p < k + 8)) then .error .ecc else .ok (s.word k 8)

/-- Stage 2 of an intermediate address (R103, R104). -/
def stage2 (s : State) (d : Die) (f : Fun) (ipa : Nat) (write : Bool) : Except DmaErr Leaf :=
  if s.rdF (XLATE_CTRL f) XLATE_CTRL_S2_EN = 0 then .ok ⟨ipa, false, true, true, true, 7⟩
  else if 2 ^ 48 ≤ ipa then .error (.xlate 1 7 3)
  else
    let root := s.rd64 (S2_ROOT_LO f)
    match walk (fetchPhys s d f) 1 ipa 4 (root / 2 ^ 12 % 2 ^ 40 * 2 ^ 12) (nbit root 0) with
    | .error e => .error e
    | .ok l => if (write ∧ l.wr = false) ∨ (write = false ∧ l.rd = false) then .error (.xlate 1 l.level 1) else .ok l

/-- A stage 1 table entry, read through stage 2 (R103). -/
def fetchIpa (s : State) (d : Die) (f : Fun) (ipa : Nat) (_ : Bool) : Except DmaErr Nat :=
  match stage2 s d f ipa false with
  | .error e => .error e
  | .ok l =>
    match (if l.loc then checkLocal s d f l.addr else checkHost s d f l.addr) with
    | .error e => .error e
    | .ok k => if s.poison.any (fun p => decide (k ≤ p + 3 ∧ p < k + 8)) then .error .ecc else .ok (s.word k 8)

/-- Stage 1 of an input address (R104). While stage 1 is off, a wide address is stage 2's fault (DEDUCED, notes/assumptions/22.md). -/
def stage1 (s : State) (d : Die) (f : Fun) (va : Nat) (write : Bool) : Except DmaErr Leaf :=
  if 2 ^ 48 ≤ va then .error (.xlate (if s.rdF (XLATE_CTRL f) XLATE_CTRL_S1_EN = 0 then 1 else 0) 7 3)
  else if s.rdF (XLATE_CTRL f) XLATE_CTRL_S1_EN = 0 then .ok ⟨va, false, true, true, true, 7⟩
  else
    match walk (fetchIpa s d f) 0 va 4 (s.rd64 (S1_ROOT_LO f) / 2 ^ 12 % 2 ^ 36 * 2 ^ 12) false with
    | .error e => .error e
    | .ok l => if (write ∧ l.wr = false) ∨ (write = false ∧ l.rd = false) then .error (.xlate 0 l.level 1) else .ok l

/-- Both stages by the tables as they stand: the intermediate address and the stage 2 leaf (R101–R104). -/
def walkBoth (s : State) (d : Die) (f : Fun) (va : Nat) (write : Bool) : Except DmaErr (Leaf × Leaf) :=
  if f.fn ≠ 0 ∧ f.fn ≠ 63 ∧ s.rdF (XLATE_CTRL f) XLATE_CTRL_S2_EN = 0 then .error (.xlate 1 7 7)
  else
    match stage1 s d f va write with
    | .error e => .error e
    | .ok l1 =>
      match stage2 s d f l1.addr write with
      | .error e => .error e
      | .ok l2 => .ok (l1, l2)

/-- The translation the device holds for a page, if it allows the access (R105). -/
def tlbFind (s : State) (f : Fun) (va : Nat) (write : Bool) : Option TlbEntry :=
  s.tlb.find? (fun e => e.f == f && e.page == va / 4096 && (if write then e.wr else e.rd))

/-- Translate one address: the walk, or, where the device still holds another translation of the page, one of the two as a
free value decides (R105, notes/assumptions/5.md). A walk that succeeds is held. -/
def xlate (d : Die) (f : Fun) (va : Nat) (write : Bool) (s : State) : Except DmaErr Nat × State :=
  let w := walkBoth s d f va write
  let fin (out : Nat) (loc : Bool) : Except DmaErr Nat := if loc then checkLocal s d f out else checkHost s d f out
  match tlbFind s f va write, w with
  | some e, .ok (l1, l2) =>
    if e.out = l2.addr / 4096 ∧ e.local_ = l2.loc then (fin l2.addr l2.loc, s)
    else if s.freeNat 0 % 2 = 0 then (fin (e.out * 4096 + va % 4096) e.local_, useFree 1 s)
    else (fin l2.addr l2.loc,
      useFree 1 { s with tlb := ⟨f, va / 4096, l1.addr / 4096, l2.addr / 4096, l2.loc, l1.rd && l2.rd, l1.wr && l2.wr, l1.cache && l2.cache⟩
                           :: s.tlb.filter (fun x => !(x.f == f && x.page == va / 4096)) })
  | some e, .error x =>
    if s.freeNat 0 % 2 = 0 then (fin (e.out * 4096 + va % 4096) e.local_, useFree 1 s) else (.error x, useFree 1 s)
  | none, .ok (l1, l2) =>
    (fin l2.addr l2.loc,
      { s with tlb := ⟨f, va / 4096, l1.addr / 4096, l2.addr / 4096, l2.loc, l1.rd && l2.rd, l1.wr && l2.wr, l1.cache && l2.cache⟩
                        :: s.tlb.filter (fun x => !(x.f == f && x.page == va / 4096)) })
  | none, .error x => (.error x, s)

/-- Keys of the bytes of an access of n bytes, page by page; `fuel` bounds the pages. -/
def xlateRange (d : Die) (f : Fun) (write : Bool) : Nat → Nat → Nat → State → Except DmaErr (List (Nat × Nat)) × State
  | 0, _, _, s => (.ok [], s)
  | fuel + 1, va, n, s =>
    if n = 0 then (.ok [], s)
    else
      let m := min n (4096 - va % 4096)
      match xlate d f va write s with
      | (.error e, s1) => (.error e, s1)
      | (.ok k, s1) =>
        match xlateRange d f write fuel (va + m) (n - m) s1 with
        | (.error e, s2) => (.error e, s2)
        | (.ok ks, s2) => (.ok ((k, m) :: ks), s2)

/-- A 32-bit word of local memory that a read of n bytes at k touches is poisoned. -/
def poisoned (s : State) (k n : Nat) : Bool := s.poison.any (fun p => decide (p < k + n ∧ k < p + 4))

/-- Words wholly covered by a write lose their poison (R296). -/
def unpoison (k n : Nat) (s : State) : State :=
  { s with poison := s.poison.filter (fun p => !(decide (k ≤ p) && decide (p + 4 ≤ k + n))) }

/-- Write bytes at keys. -/
def putChunks : List (Nat × Nat) → List Byte → State → State
  | [], _, s => s
  | (k, m) :: t, bs, s => putChunks t (bs.drop m) (s |> emit (.mem k (bs.take m)) |> unpoison k m)

/-- Read bytes at keys. -/
def getChunks (s : State) : List (Nat × Nat) → List Byte
  | [] => []
  | (k, m) :: t => s.bytes k m ++ getChunks s t

/-- The device writes bytes at an input address of a function, for a unit of die `d`; on a fault nothing is written (R106). -/
def dmaWriteRaw (d : Die) (f : Fun) (va : Nat) (bs : List Byte) (s : State) : Option DmaErr × State :=
  match xlateRange d f true (bs.length / 4096 + 2) va bs.length s with
  | (.error e, s1) => (some e, s1)
  | (.ok ks, s1) => (none, putChunks ks bs s1)

/-! ## Interrupts and events (3.8) -/

def RingAux.empty : RingAux := ⟨[], [], 0, 0, 0, none, false⟩
def FnAux.empty : FnAux := ⟨0, 0, [], [], [], 0, 0, 0, false, []⟩

def State.ringAux (s : State) (q : RingId) : RingAux := tget RingAux.empty q.key s.rings
def setRing (q : RingId) (r : RingAux) (s : State) : State := { s with rings := tset q.key r s.rings }
def State.fnAux (s : State) (f : Fun) : FnAux := tget FnAux.empty f.key s.fns
def setFn (f : Fun) (x : FnAux) (s : State) : State := { s with fns := tset f.key x s.fns }

/-- The ring is enabled: SIZE_LOG2 is not 0 (R54). -/
def ringOn (s : State) (q : RingId) : Bool := s.rdF (RING_CFG q) RING_CFG_SIZE_LOG2 != 0
def ringType (s : State) (q : RingId) : Nat := s.rdF (RING_CFG q) RING_CFG_QTYPE
def ringSize (s : State) (q : RingId) : Nat := 2 ^ s.rdF (RING_CFG q) RING_CFG_SIZE_LOG2
def ringProd (s : State) (q : RingId) : Nat := (s.rd (RING_PRODUCER q)).toNat
def ringCons (s : State) (q : RingId) : Nat := (s.rd (RING_CONSUMER q)).toNat
def ringBase (s : State) (q : RingId) : Nat := s.rd64 (RING_BASE_LO q)

/-- Entries between two free-running indices, modulo 2³² (R56). -/
def idxDiff (p c : Nat) : Nat := (p + 2 ^ 32 - c) % 2 ^ 32

def flrActive (s : State) (f : Fun) : Bool := s.flag (FUNC_STATUS f) FUNC_STATUS_FLR_ACTIVE
def frozen (s : State) (f : Fun) : Bool := s.flag (FUNC_STATUS f) FUNC_STATUS_FROZEN

/-- The message of a vector leaves, with the address and data of its table entry (R53). -/
def sendVector (f : Fun) (vec : Nat) (s : State) : State :=
  let e := tget (0, 0) vec (s.fnAux f).vectors
  emit (.msix f vec e.1 e.2) s

/-- The MSI-X message of a vector is sent, or becomes pending while the vector is masked (R53). -/
def sendMsix (f : Fun) (vec : Nat) (s : State) : State :=
  if (s.fnAux f).unmasked.contains vec then sendVector f vec s
  else setFn f { s.fnAux f with pba := if (s.fnAux f).pba.contains vec then (s.fnAux f).pba else vec :: (s.fnAux f).pba } s

/-- The counted entries of a ring reach a message (R79). -/
def sendRingInt (q : RingId) (s : State) : State :=
  s |> setRing q { s.ringAux q with intCount := 0, intFirst := 0 }
    |> sendMsix q.fn (s.rdF (RING_INT q) RING_INT_VECTOR)

/-- An entry was written: it counts toward the ring's message (R79). -/
def countInt (d : Die) (q : RingId) (s : State) : State :=
  if s.flag (RING_INT q) RING_INT_INT_EN then
    let r := s.ringAux q
    let s1 := setRing q { r with intCount := r.intCount + 1, intFirst := if r.intCount = 0 then s.now d else r.intFirst } s
    if s.rdF (RING_INT q) RING_INT_DELAY_US = 0 ∨ s.rdF (RING_INT q) RING_INT_BATCH_M1 < r.intCount + 1 then sendRingInt q s1
    else s1
  else s

/-- The function's enabled EVENT ring (R55 allows one). -/
def eventRing (s : State) (f : Fun) : Option RingId :=
  ((upto 16).map (fun n => RingId.mk f n)).find? (fun q => ringOn s q && ringType s q == 9)

/-- Free entries of a COMPLETION or EVENT ring. -/
def freeEntries (s : State) (q : RingId) : Nat := ringSize s q - idxDiff (ringProd s q) (ringCons s q)

/-- An event that is not written: it is counted, and opens or widens the gap (R78). -/
def loseEvent (f : Fun) (t : Nat) (s : State) : State :=
  let x := s.fnAux f
  s |> setFn f { x with gap := x.gap + 1, gapTime := if x.gap = 0 then t else x.gapTime }
    |> satF (FUNC_EVENTS_LOST f) FUNC_EVENTS_LOST_COUNT 1

/-- PHASE of the entry at a producer index (R67). -/
def phaseBit (p size : Nat) : Nat := 1 - p / size % 2

/-- The 32 bytes of an event record (R76). -/
def eventBytes (e : Event) (phase : Nat) : List Byte :=
  leBytes 2 e.typ ++ leBytes 1 e.source ++ leBytes 1 (phase * 128) ++ leBytes 4 e.count ++ leBytes 8 e.time ++ leBytes 16 e.payload

/-- Record the first translation fault of a function; a later one sets MULTI (R106). -/
def recordFault (f : Fun) (va detail : Nat) (s : State) : State :=
  if s.flag (FAULT_INFO f) FAULT_INFO_VALID then wrB (FAULT_INFO f) FAULT_INFO_MULTI true s
  else s |> wrF (FAULT_INFO f) FAULT_INFO_DETAIL detail |> wrB (FAULT_INFO f) FAULT_INFO_VALID true
         |> wr64 (FAULT_ADDR_LO f) (va % 2 ^ 48)

/-- Write the shadow of a ring (R62): the 32-bit index, four bytes of zero, and what a fault leaves. -/
def shadowWrite (d : Die) (q : RingId) (idx : Nat) (s : State) : Option DmaErr × State :=
  dmaWriteRaw d q.fn (s.rd64 (RING_SHADOW_LO q)) (leBytes 8 (idx % 2 ^ 32)) s

/-- Code of a function as SOURCE of its events: 0 PF0, 1–31 VF, 0x3F PF1 (R125). -/
def fnSource (f : Fun) : Nat := f.fn % 256

/-- The XLATE_FAULT record of a fault (Table 4.6). -/
def xlateEvent (d : Die) (t : Nat) (f : Fun) (va detail ring : Nat) : Event :=
  ⟨0x0010, fnSource f, 1, t, va % 2 ^ 64 + detail * 2 ^ 64 + ring * 2 ^ 88, d⟩

/-- The RING_ERROR record (Table 3.8). -/
def ringErrorEvent (d : Die) (t : Nat) (q : RingId) (kind info : Nat) : Event :=
  ⟨0x0002, q.ring, 1, t, kind + info % 2 ^ 32 * 2 ^ 32, d⟩

/-- The error of a write that the device makes on its own behalf, as FAULT_INFO records it; of a write lost in a split the
manual names no DETAIL, so it is free (R497). -/
def ownDetail (s : State) : DmaErr → Nat
  | .xlate st lv k => xlateDetail st lv k
  | _ => s.freeNat 0 % 2 ^ 24

/-- Bundles that carry traffic of the main link: UP ones, and those being remapped, whose traffic waits (R442, Table 18.1). -/
def bundleState (s : State) (n : Nat) : Nat := s.rdF (EBRUM_BUNDLE .a n) EBRUM_BUNDLE_STATE
def liveBundles (s : State) : List Nat := (upto 4).filter (fun n => decide (bundleState s n ≤ 1))

/-- The lowest UP bundle; while the only ones left are being remapped, the lowest of them (DESIGN CHOICE, notes/assumptions/122.md). -/
def lowestUp (s : State) : Option Nat := ((upto 4).find? (fun n => bundleState s n == 0)).or (liveBundles s).head?

/-- Traffic without an address takes the lowest UP bundle (R442); with none the sideband carries it (R447). -/
def sendAcross (d : Die) (s : State) : State :=
  match lowestUp s with
  | some b => emit (.link d b none) s
  | none => s

/-- The entry of an EVENT ring could not be written: the event is lost with the record of it, and the fault is the function's, in
stage 2 also PF0's (R106, R497). `again` posts the events that this causes. -/
def entryLost (again : Fun → Event → State → State) (f : Fun) (e : Event) (q : RingId) (va dt : Nat) (s : State) : State :=
  let s1 := s |> useFree 1 |> recordFault f va dt |> wrB (RING_STATUS q) RING_STATUS_ENTRY_FAULT true
              |> loseEvent f e.time |> loseEvent f e.time
  if f.fn ≠ 0 ∧ f.fn ≠ 63 ∧ nbit dt 23 then again (pf0 f.ep) (xlateEvent e.die e.time f va dt q.ring) s1 else s1

/-- The shadow of an EVENT ring could not be written (R62); `p` is the index it should show (notes/assumptions/7.md). -/
def shadowLost (again : Fun → Event → State → State) (f : Fun) (e : Event) (q : RingId) (va p dt : Nat) (s : State) : State :=
  let s1 := s |> useFree 1 |> recordFault f va dt |> wrB (RING_STATUS q) RING_STATUS_SHADOW_FAULT true
  if e.typ = 0x0002 ∨ e.typ = 0x0010 then s1
  else s1 |> again f (xlateEvent e.die e.time f va dt q.ring) |> again f (ringErrorEvent e.die e.time q 3 p)

/-- Write an event into its ring: entry, shadow, message, in that order (R76, R79). -/
def writeEvent (again : Fun → Event → State → State) (f : Fun) (e : Event) (q : RingId) (s : State) : State :=
  let p := ringProd s q
  let va := ringBase s q + 32 * (p % ringSize s q)
  let (err, s1) := dmaWriteRaw e.die f va (eventBytes e (phaseBit p (ringSize s q))) s
  let s2 := wr (RING_PRODUCER q) (BitVec.ofNat 32 (p + 1)) s1
  let (err2, s3) := shadowWrite e.die q (p + 1) s2
  let s4 := countInt e.die q s3
  let s5 := match err with
    | none => s4
    | some x => entryLost again f e q va (ownDetail s x) s4
  match err2 with
  | none => s5
  | some x => shadowLost again f e q (s.rd64 (RING_SHADOW_LO q)) (p + 1) (ownDetail s5 x) s5

/-- Post an event to a function (R76–R79, R497); in a split, one for the other endpoint is lost (R158). `fuel` bounds the events that a fault of the EVENT ring itself causes;
such an event of the same function is lost. While the function is frozen, touch and camera frame events are held and others are lost
(R121; DESIGN CHOICE, notes/assumptions/109.md). A fault of the EVENT ring's shadow is reported for every event but those that
report faults (notes/assumptions/7.md). -/
def postEvent : Nat → Fun → Event → State → State
  | 0, f, e, s => loseEvent f e.time s
  | fuel + 1, f, e, s =>
    if s.split ∧ f.ep ≠ e.die then loseEvent f e.time s
    else if flrActive s f then
      setFn f { s.fnAux f with flrEvents := (s.fnAux f).flrEvents + 1 } s
    else if frozen s f then
      if (e.typ / 256 = 9 ∨ e.typ = 0x0400) ∧ (s.fnAux f).frozenEvents.length < 64 then
        setFn f { s.fnAux f with frozenEvents := (s.fnAux f).frozenEvents ++ [e] } s
      else loseEvent f e.time s
    else
      match eventRing s f with
      | none => loseEvent f e.time s
      | some q =>
        if freeEntries s q ≤ (if e.typ = 0x0001 then 0 else 1) then loseEvent f e.time s
        else writeEvent (fun g x t => postEvent fuel g x t) f e q s

/-- Post an event to a function; one for the other endpoint crosses the link. -/
def post (f : Fun) (e : Event) (s : State) : State := postEvent 3 f e (if f.ep ≠ e.die ∧ s.split = false then sendAcross e.die s else s)

/-- Post an event of a type to PF0 of its die, with the die's time. -/
def postPf0 (d : Die) (typ source payload : Nat) (s : State) : State :=
  post (pf0 d) ⟨typ, source, 1, s.now d, payload, d⟩ s

/-- Post an event to PF1 of its die. -/
def postPf1 (d : Die) (typ source payload : Nat) (s : State) : State :=
  post (pf1 d) ⟨typ, source, 1, s.now d, payload, d⟩ s

/-- A translation fault of a function: recorded, and posted to it, and to PF0 where a VF faults in stage 2 (R106, R125). -/
def faultSeen (d : Die) (f : Fun) (va detail ring : Nat) (s : State) : State :=
  let e := xlateEvent d (s.now d) f va detail ring
  let s1 := s |> recordFault f va detail |> post f e
  if f.fn ≠ 0 ∧ f.fn ≠ 63 ∧ nbit detail 23 then post (pf0 f.ep) e s1 else s1

/-- Write for a descriptor's work: a translation fault is recorded and posted (R106). -/
def dmaWrite (d : Die) (f : Fun) (ring va : Nat) (bs : List Byte) (s : State) : Option DmaErr × State :=
  match dmaWriteRaw d f va bs s with
  | (some (.xlate st lv k), s1) => (some (.xlate st lv k), faultSeen d f va (xlateDetail st lv k) ring s1)
  | r => r

/-- A poisoned word was read (R295): counted, recorded, and posted (R314). -/
def poisonRead (f : Fun) (key port : Nat) (s : State) : State :=
  let a := key - localKey 0
  let m := localDie a
  let off := localOff a
  let ch := Nat.xor (Nat.xor (off / 2 ^ 8 % 8) (off / 2 ^ 13 % 8)) (off / 2 ^ 18 % 8)
  let ep := b2n (f.ep != m)
  let s1 := satF (DRAM_ECC_POISON m) DRAM_ECC_POISON_COUNT 1 s
  let s2 := if s1.flag (DRAM_ECC_INFO m) DRAM_ECC_INFO_VALID then s1
    else s1 |> wrB (DRAM_ECC_INFO m) DRAM_ECC_INFO_VALID true |> wrB (DRAM_ECC_INFO m) DRAM_ECC_INFO_POISON true
            |> wrB (DRAM_ECC_INFO m) DRAM_ECC_INFO_SCRUB false |> wrF (DRAM_ECC_INFO m) DRAM_ECC_INFO_CH ch
            |> wrF (DRAM_ECC_INFO m) DRAM_ECC_INFO_PORT port |> wrF (DRAM_ECC_INFO m) DRAM_ECC_INFO_FUNC f.fn
            |> wrF (DRAM_ECC_INFO m) DRAM_ECC_INFO_EP ep |> wr64 (DRAM_ECC_ADDR_LO m) (off / 4 * 4)
  let pay (a : Nat) : Nat := a + port * 2 ^ 64 + f.fn * 2 ^ 72 + (ep + 2) * 2 ^ 80
  let carve := inCarve s m off
  let s3 := postPf0 m 0x0600 ch (pay (if carve then 0 else off / 4 * 4)) s2
  if carve then postPf1 m 0x0600 ch (pay (off / 4 * 4)) s3 else s3

/-- Read for a descriptor's work (R106, R295). The bytes come with a flag: some of them are poisoned. -/
def dmaReadP (d : Die) (f : Fun) (ring va n port : Nat) (s : State) : Except DmaErr (List Byte × Bool) × State :=
  match xlateRange d f false (n / 4096 + 2) va n s with
  | (.error (.xlate st lv k), s1) => (.error (.xlate st lv k), faultSeen d f va (xlateDetail st lv k) ring s1)
  | (.error e, s1) => (.error e, s1)
  | (.ok ks, s1) =>
    match ks.find? (fun c => poisoned s1 c.1 c.2) with
    | none => (.ok (getChunks s1 ks, false), s1)
    | some c =>
      let p := (s1.poison.find? (fun p => decide (p < c.1 + c.2 ∧ c.1 < p + 4))).getD c.1
      (.ok (getChunks s1 ks, true), poisonRead f p port s1)

/-- Read for a descriptor's work; a poisoned datum is an uncorrectable error. -/
def dmaRead (d : Die) (f : Fun) (ring va n port : Nat) (s : State) : Except DmaErr (List Byte) × State :=
  match dmaReadP d f ring va n port s with
  | (.error e, s1) => (.error e, s1)
  | (.ok (bs, false), s1) => (.ok bs, s1)
  | (.ok (_, true), s1) => (.error .ecc, s1)

/-- Once the host frees entries, or a new EVENT ring is enabled, a gap is reported before any other event (R78). -/
def reportGap (d : Die) (f : Fun) (s : State) : State :=
  let x := s.fnAux f
  if x.gap = 0 ∨ frozen s f ∨ flrActive s f then s
  else
    s |> setFn f { x with gap := 0, gapTime := 0 }
      |> post f ⟨0x0001, 0xFF, min x.gap (2 ^ 32 - 1), x.gapTime, (s.rd (FUNC_EVENTS_LOST f)).toNat, d⟩

/-! ## Access to set-up space (R8, R9, R18, R433, R496) -/

/-- The domain of the register is not in reset. -/
def domainUp (s : State) (r : RegRow) : Bool := !s.inReset.contains r.dom

/-- Set-up space answers at this offset: before READY only GLOBAL and RESET_POWER do (R433). -/
def spaceOpen (s : State) (d : Die) (off : Nat) : Bool :=
  decide (off < 0x200000) || s.flag (BOOT_STATUS d) BOOT_STATUS_READY

/-- The function takes part in set-up: PF0, or PF1 once its configuration is loaded (R18, R126). -/
def setupFn (s : State) (f : Fun) : Bool :=
  f.fn == 0 || (f.fn == 63 && s.flag (PF1_ACCESS f.ep) PF1_ACCESS_LOADED)

/-- The address that a function's BAR0 offset leads to: the RINGS block, the per-function entries of MMU_ISO and the access
log are PF1's own in PF1's BAR0 (R91, R126, R495). -/
def setupAddr (f : Fun) (off : Nat) : Nat :=
  if (0x300000 ≤ off ∧ off < 0x400000) ∨ (0x401000 ≤ off ∧ off < 0x402000) ∨ (0x20 ≤ off ∧ off < 0x2C) then fnSpace f + off
  else dieSpace f.ep + off

/-- The entry that a function reaches at an offset, with the world access of its level: crossings 0xC0–0xC3 are S only
(2.7), and PF1's own blocks hold slot 0 only (R91, R126). -/
def accessRow (s : State) (f : Fun) (off : Nat) : Option RegRow :=
  match findRow off with
  | none => none
  | some r =>
    let world :=
      if f.fn = 63 then
        r.s && !((decide (0x310000 ≤ off ∧ off < 0x400000) || decide (0x401000 ≤ off ∧ off < 0x402000)) && r.i1 off != 0)
      else r.h && !(decide (0x201C00 ≤ off ∧ off < 0x201C40))
    if setupFn s f && spaceOpen s f.ep off && domainUp s r && world then some r else none

/-! ## Completions (3.5) -/

/-- The 16 bytes of a completion (R67). -/
def cqeBytes (e : Cqe) (phase time : Nat) : List Byte :=
  leBytes 2 e.seq ++ leBytes 1 e.status ++ leBytes 3 e.detail ++ leBytes 1 (e.ring % 16 + e.ckind % 8 * 16 + phase * 128)
    ++ leBytes 1 e.opcode ++ leBytes 8 time

/-- Write one completion into its ring: entry, shadow, message, in that order (R67, R79, R497). -/
def writeCqe (d : Die) (cq : RingId) (e : Cqe) (s : State) : State :=
  let p := ringProd s cq
  let va := ringBase s cq + 16 * (p % ringSize s cq)
  let t := s.now d
  let (err, s1) := dmaWriteRaw d cq.fn va (cqeBytes e (phaseBit p (ringSize s cq)) t) s
  let s2 := wr (RING_PRODUCER cq) (BitVec.ofNat 32 (p + 1)) s1
  let (err2, s3) := shadowWrite d cq (p + 1) s2
  let s4 := countInt d cq s3
  let s5 := match err with
    | none => s4
    | some x =>
      let dt := ownDetail s4 x
      s4 |> useFree 1 |> wrB (RING_STATUS cq) RING_STATUS_ENTRY_FAULT true
         |> faultSeen d cq.fn va dt cq.ring |> post cq.fn (ringErrorEvent d t cq 4 p)
  match err2 with
  | none => s5
  | some x =>
    let dt := ownDetail s5 x
    s5 |> useFree 1 |> wrB (RING_STATUS cq) RING_STATUS_SHADOW_FAULT true
       |> faultSeen d cq.fn (s.rd64 (RING_SHADOW_LO cq)) dt cq.ring |> post cq.fn (ringErrorEvent d t cq 3 (p + 1))

/-- RING_STATUS.STATE of an enabled ring that is not stopped: 2 while something waits, else 1. -/
def refreshState (q : RingId) (s : State) : State :=
  if ringOn s q = false then wrF (RING_STATUS q) RING_STATUS_STATE 0 s
  else if s.rdF (RING_STATUS q) RING_STATUS_STATE = 3 then s
  else
    let r := s.ringAux q
    let cqFull := ringType s q < 9 && s.flag (RING_STATUS ⟨q.fn, s.rdF (RING_CFG q) RING_CFG_CQ⟩) RING_STATUS_CQ_FULL
    if r.chain ∨ r.wait.isSome ∨ r.flights.any (fun f => f.phase == 0) ∨ cqFull then wrF (RING_STATUS q) RING_STATUS_STATE 2 s
    else wrF (RING_STATUS q) RING_STATUS_STATE 1 s

/-- Every submission ring of a function shows whether it waits: its COMPLETION ring has filled, or has room again (R91). -/
def refreshRings (f : Fun) (s : State) : State :=
  ((upto 16).map (fun n => RingId.mk f n)).foldl (fun t r => if ringOn t r ∧ ringType t r < 9 then refreshState r t else t) s

/-- Post a completion: written if the ring has a free entry and nothing waits before it, else held (R70). A frozen function
is written nothing (R121); a function in reset, or a ring that is not enabled, takes none (R99). -/
def postCqe (d : Die) (cq : RingId) (e : Cqe) (s : State) : State :=
  if flrActive s cq.fn ∨ ringOn s cq = false then s
  else if frozen s cq.fn then setRing cq { s.ringAux cq with held := (s.ringAux cq).held ++ [e] } s
  else if (s.ringAux cq).held ≠ [] ∨ freeEntries s cq = 0 then
    s |> setRing cq { s.ringAux cq with held := (s.ringAux cq).held ++ [e] } |> wrB (RING_STATUS cq) RING_STATUS_CQ_FULL true |> refreshRings cq.fn
  else writeCqe d cq e s

/-- Write held completions while entries are free (R70). -/
def drainHeld (d : Die) (cq : RingId) : Nat → State → State
  | 0, s => s
  | n + 1, s =>
    match (s.ringAux cq).held with
    | [] => wrB (RING_STATUS cq) RING_STATUS_CQ_FULL false s
    | e :: t =>
      if freeEntries s cq = 0 then s
      else drainHeld d cq n (s |> setRing cq { s.ringAux cq with held := t } |> writeCqe d cq e)

/-- n free bytes. -/
def freeBytes (n : Nat) (s : State) : List Byte × State := ((upto n).map (fun i => BitVec.ofNat 8 (s.freeNat i)), useFree n s)

end Sys2Proof.Machine
end

