-- ==== Sys2Proof/Machine/Operands.lean ====
section
/-! DEFINITION. The operand forms of a descriptor (R64), its checks in the order of Table 3.4, and its way from fetch to its
completions (R68–R75). -/
namespace Sys2Proof.Machine

/-! ## Fields (R64) -/

def dOpcode (d : Desc) : Nat := dget d 0 0 8
def dQtype (d : Desc) : Nat := dget d 1 0 4
def dFenceWait (d : Desc) : Bool := dget d 1 4 1 == 1
def dFenceSignal (d : Desc) : Bool := dget d 1 5 1 == 1
def dNoCompletion (d : Desc) : Bool := dget d 1 6 1 == 1
def dChain (d : Desc) : Bool := dget d 1 7 1 == 1
def dSeq (d : Desc) : Nat := dget d 2 0 16
def dRoute (d : Desc) : Nat := dget d 4 0 16
def dHeader67 (d : Desc) : Nat := dget d 6 0 16

/-- The descriptor that 64 bytes spell. -/
def descOf (bs : List Byte) : Desc := BitVec.ofNat 512 (ofLe bs)

/-- DETAIL of an INVALID_DESC completion outside a chain (R71). -/
def invalidDetail (reason off : Nat) : Nat := reason * 256 + off

/-- The INVALID_DESC outcome of a check. -/
def invalid (reason off : Nat) : Option (Nat × Nat) := some (stInvalidDesc, invalidDetail reason off)

/-- The first of two checks that fails decides (R66). -/
def andThen (a b : Option (Nat × Nat)) : Option (Nat × Nat) :=
  match a with
  | some x => some x
  | none => b

/-- A check that fails with INVALID_DESC where `bad` holds. -/
def bad (b : Bool) (reason off : Nat) : Option (Nat × Nat) := if b then invalid reason off else none

/-- The first failing check of a list. -/
def firstFail : List (Option (Nat × Nat)) → Option (Nat × Nat)
  | [] => none
  | c :: t => andThen c (firstFail t)

/-- What an opcode needs and does: the type of its rings (Table 3.2; a common opcode takes any); reserved fields of its layout (byte, bit, width; lowest offset first), whether it takes
a route, the keys of the units it names, its range checks (check 4), whether its length or count is zero (check 5), and its work, which
answers status and DETAIL, or nothing while it runs on. -/
structure OpSpec where
  opcode : Nat
  ring : Nat
  needsRoute : Bool
  resv : List (Nat × Nat × Nat)
  units : RingId → Desc → State → List Nat
  range : RingId → Desc → State → Option (Nat × Nat)
  empty : Desc → State → Bool
  work : Ticket → Desc → State → Option (Nat × Nat) × State
  /-- What must succeed for every member before any member acts (R75, R183). -/
  pre : RingId → Desc → State → Option (Nat × Nat) × State
  /-- A member that runs on lets the next member act at once: a display commit lands with its chain (R146). -/
  lands : Bool
  /-- Its work is the unit's own: it waits unfetched while the unit is quiesced or in reset (R439). -/
  held : Bool
  /-- It is not fetched yet: the unit takes no further descriptor now (R231 and the like). -/
  defer : RingId → Desc → State → Bool
  /-- The crossings that its work needs: while one resynchronises it completes with PEER_RESET (R47). -/
  xings : RingId → Desc → State → List (Die × Nat)

/-- The common form: nothing to do before the work, and members act one after the other. -/
def mkOp (opcode : Nat) (needsRoute : Bool) (resv : List (Nat × Nat × Nat)) (units : RingId → Desc → State → List Nat)
    (range : RingId → Desc → State → Option (Nat × Nat)) (empty : Desc → State → Bool)
    (work : Ticket → Desc → State → Option (Nat × Nat) × State) : OpSpec :=
  ⟨opcode, 0, needsRoute, resv, units, range, empty, work, fun _ _ s => (none, s), false, true, fun _ _ _ => false, fun _ _ _ => []⟩

/-- An opcode of another ring type than SETUP. -/
def OpSpec.onRing (n : Nat) (o : OpSpec) : OpSpec := { o with ring := n }

/-- The opcode is one of the ring type: the common opcodes are on every type (R65). -/
def OpSpec.fits (o : OpSpec) (qtype : Nat) (d : Desc) : Bool := dOpcode d == o.opcode && (decide (o.opcode < 16) || o.ring == qtype)

/-- An opcode whose work needs crossings. -/
def OpSpec.crossing (x : RingId → Desc → State → List (Die × Nat)) (o : OpSpec) : OpSpec := { o with xings := x }

/-- Die of a handle (R85): that of the unit which carries the route out. -/
def handleDie (h : Nat) : Die := if h < 0x8000 then .a else .b

/-- In a split, the work of a route of the other die (R14, R451). -/
def OpSpec.across (o : OpSpec) (q : RingId) (d : Desc) (s : State) : Bool := s.split && o.needsRoute && handleDie (dRoute d) != q.fn.ep

/-- Every unit of a list of unit keys is present on its die. -/
def unitsThere (s : State) (us : List Nat) : Bool :=
  us.all (fun k => unitPresent s.part (if k < 32 then .a else .b) (k % 32))

/-- A unit of the list is quiesced or in reset (R436, R439; notes/assumptions/9.md). -/
def unitsStopped (s : State) (us : List Nat) : Bool :=
  us.any (fun k =>
    let d : Die := if k < 32 then .a else .b
    unitQuiet s d (k % 32) || unitReset s d (k % 32))

/-- The live route of a handle. -/
def State.route (s : State) (h : Nat) : Option Route := tfind h s.routes

/-- Check 3 (R20, R88): the handle names a live route granted to the submitting function; on the SETUP ring, one that the
function created. -/
def routeOk (q : RingId) (d : Desc) (s : State) : Bool :=
  match s.route (dRoute d) with
  | none => false
  | some r => if ringType s q = 0 then r.creator == q.fn else r.grantee == q.fn

/-- Checks 1 to 4 of Table 3.4 on member `i` of a chain; the first that fails gives status and DETAIL, with the member's index
(R75; for UNIT_ABSENT and NO_ROUTE in the place of R71, notes/assumptions/100.md). -/
def checkDesc (op : Option OpSpec) (q : RingId) (i : Nat) (d : Desc) (s : State) : Option (Nat × Nat) :=
  let r := firstFail [
    bad (dget d 6 0 8 != 0) 0x01 6,
    bad (dget d 7 0 8 != 0) 0x01 7,
    bad (dQtype d != ringType s q) 0x02 1,
    (match op with
     | none => invalid 0x03 0
     | some o => firstFail [
        (match o.resv.find? (fun f => dget d f.1 f.2.1 f.2.2 != 0) with
         | none => none
         | some f => invalid 0x01 f.1),
        bad (!o.needsRoute && dRoute d != 0) 0x04 4,
        bad (i != 0 && (dFenceWait d || dFenceSignal d || dNoCompletion d)) 0x05 1,
        (if unitsThere s (o.units q d s) then none else some (stUnitAbsent, 0)),
        (if o.needsRoute && !routeOk q d s then some (stNoRoute, 0) else none),
        o.range q d s])]
  match r with
  | some (st, dt) => some (st, dt + i * 2 ^ 16)
  | none => none

/-- The first member of a chain that fails a check. -/
def checkAll (opOf : Desc → Option OpSpec) (q : RingId) (s : State) : Nat → List Desc → Option (Nat × Nat)
  | _, [] => none
  | i, d :: t => andThen (checkDesc (opOf d) q i d s) (checkAll opOf q s (i + 1) t)

/-! ## Posting completions of a ring -/

/-- The completion of a ticket. -/
def Ticket.cqe (t : Ticket) (ckind st dt : Nat) : Cqe := ⟨t.seq, st, dt % 2 ^ 24, t.ring.ring, ckind, t.opcode⟩

def Ticket.cqRing (t : Ticket) : RingId := ⟨t.ring.fn, t.cq⟩

/-- The ticket of a flight of a ring. -/
def Flight.ticket (q : RingId) (f : Flight) : Ticket :=
  match f.descs.getLast? with
  | some d => ⟨q, f.cq, dSeq d, dOpcode d, f.tag⟩
  | none => ⟨q, f.cq, 0, 0, f.tag⟩

def owe (t : Ticket) (s : State) : State := { s with owed := t :: s.owed }
def unowe (t : Ticket) (s : State) : State := { s with owed := s.owed.erase t }

/-- Post a RELEASED (1) or FURTHER (2) completion, never ahead of the DONE it belongs to (R68). -/
def postLater (t : Ticket) (ckind st dt : Nat) (s : State) : State :=
  let r := s.ringAux t.ring
  if r.flights.any (fun f => f.tag == t.tag) then
    setRing t.ring { r with flights := r.flights.map (fun f => if f.tag = t.tag then { f with after := f.after ++ [t.cqe ckind st dt] } else f) } s
  else postCqe t.ring.fn.ep t.cqRing (t.cqe ckind st dt) s

/-- Post the last later completion of a ticket: it is owed no more (R58). -/
def postLast (t : Ticket) (ckind st dt : Nat) (s : State) : State := s |> postLater t ckind st dt |> unowe t

/-- Post the completions that follow a DONE. -/
def postAfter (t : Ticket) : List Cqe → State → State
  | [], s => s
  | e :: r, s => postAfter t r (postCqe t.ring.fn.ep t.cqRing e s)

/-- The first member's flags rule the chain (R74). -/
def Flight.first (f : Flight) : Desc := f.descs.headD 0

/-- Post the DONE of a completed flight, unless suppressed (R69), and what follows it. -/
def postDone (q : RingId) (f : Flight) (s : State) : State :=
  let t := f.ticket q
  let s1 := if dNoCompletion f.first ∧ (f.status = stOk ∨ f.status = stOkEmpty) then s
            else postCqe q.fn.ep t.cqRing (t.cqe 0 f.status f.detail) s
  postAfter t f.after s1

/-- Post the DONEs of the completed flights at the front, in submission order (R68); one with FENCE_SIGNAL waits for its
fence (R73). -/
def drainRing (q : RingId) : Nat → State → State
  | 0, s => s
  | n + 1, s =>
    match (s.ringAux q).flights with
    | [] => s
    | f :: t =>
      if f.phase = 2 ∧ dFenceSignal f.first = false then
        drainRing q n (s |> setRing q { s.ringAux q with flights := t } |> postDone q f)
      else s

def settle (q : RingId) (s : State) : State :=
  s |> drainRing q ((s.ringAux q).flights.length) |> refreshState q

/-! ## Beginning work -/

/-- Replace a flight of a ring by its tag. -/
def setFlight (q : RingId) (f : Flight) (s : State) : State :=
  setRing q { s.ringAux q with flights := (s.ringAux q).flights.map (fun x => if x.tag = f.tag then f else x) } s

/-- Flights of the ring before the one with a tag. -/
def earlier (q : RingId) (tag : Nat) (s : State) : List Flight :=
  (s.ringAux q).flights.takeWhile (fun f => f.tag != tag)

/-- The descriptor waits for every earlier one: FENCE_WAIT, or WRITE_VALUE as its next member (R65, R72). -/
def mustWait (f : Flight) : Bool :=
  (dFenceWait f.first && f.acted == 0) ||
  (match f.descs[f.acted]? with
   | some d => dOpcode d == 0x02
   | none => false)

/-- Nothing holds the flight back: no earlier flight waits to begin, no WAIT_VALUE holds the ring, and, where it must, every
earlier descriptor has completed (R72). -/
def mayBegin (q : RingId) (f : Flight) (s : State) : Bool :=
  let es := earlier q f.tag s
  es.all (fun e => e.phase != 0) && !(es.any (fun e => (s.ringAux q).wait.any (fun w => w.1 == e.tag)))
    && (!mustWait f || es.all (fun e => e.phase == 2))

/-- The flight completes. -/
def complete (f : Flight) (st dt : Nat) : Flight := { f with phase := 2, status := st, detail := dt }

/-- The flight as its member's work left it; the members and how many have acted are this machine's own. -/
def workedFlight (q : RingId) (f : Flight) (s : State) : Flight :=
  { ((s.ringAux q).flights.find? (fun x => x.tag == f.tag)).getD f with acted := f.acted, descs := f.descs }

/-- Members act in order (R75): from member `acted` on, until one runs on, fails, must wait, or none is left. -/
def actMembers (opOf : Desc → Option OpSpec) (q : RingId) : Nat → Flight → State → State
  | 0, f, s => setFlight q f s
  | n + 1, f, s =>
    match f.descs[f.acted]? with
    | none =>
      if f.parts ≠ 0 then setFlight q f s
      else setFlight q (complete f (if f.worked then stOk else stOkEmpty) f.detail) s
    | some d =>
      if f.acted ≠ 0 ∧ mayBegin q f s = false then setFlight q { f with phase := 0 } s
      else
        match opOf d with
        | none => setFlight q (complete f stInvalidDesc (invalidDetail 0x03 0 + f.acted * 2 ^ 16)) s
        | some o =>
          if o.empty d s then actMembers opOf q n { f with acted := f.acted + 1 } s
          else if (o.units q d s).any (fun k => s.outOfService.contains k) then setFlight q (complete f stEccUncorr 0) s
          else if (o.xings q d s).any (fun x => s.flag (XING_STATUS x.1 x.2) XING_STATUS_PEER_RESET) then setFlight q (complete f stPeerReset 0) s
          else if o.across q d s then setFlight q (complete f stPeerLost 0) s
          else
            let f1 := { f with acted := f.acted + 1, phase := 1, parts := if o.lands then f.parts + 1 else f.parts }
            match o.work (f.ticket q) d (setFlight q f1 s) with
            | (none, s1) =>
              if o.lands ∧ f1.acted < f1.descs.length then
                actMembers opOf q n (workedFlight q f1 s1) s1
              else s1
            | (some (st, dt), s1) =>
              let f2 := workedFlight q f1 s1
              if st = stOk then actMembers opOf q n { f2 with worked := true, detail := dt } s1
              else if st = stOkEmpty then actMembers opOf q n { f2 with detail := dt } s1
              else setFlight q (complete f2 st (if st = stInvalidDesc then dt + f.acted * 2 ^ 16 else dt)) s1

/-- What must succeed before any member acts; the first failure, with its member. -/
def preAll (opOf : Desc → Option OpSpec) (q : RingId) : Nat → List Desc → State → Option (Nat × Nat) × State
  | _, [], s => (none, s)
  | i, d :: t, s =>
    match opOf d with
    | none => preAll opOf q (i + 1) t s
    | some o =>
      match o.pre q d s with
      | (some (st, dt), s1) => (some (st, if st = stInvalidDesc then dt + i * 2 ^ 16 else dt), s1)
      | (none, s1) => preAll opOf q (i + 1) t s1

/-- Begin, or go on with, a flight that waits. -/
def begin_ (opOf : Desc → Option OpSpec) (q : RingId) (f : Flight) (s : State) : State :=
  match (if f.acted = 0 then preAll opOf q 0 f.descs s else (none, s)) with
  | (some (st, dt), s1) => setFlight q (complete f st dt) s1
  | (none, s1) => actMembers opOf q (f.descs.length + 1) f s1

/-- A TENANT_FREEZE of the function is under way (R121). -/
def freezing (s : State) (f : Fun) : Bool := (tfind f.key s.tenants).any (fun t => t.freezing.isSome)

/-- The ring takes work: a submission ring that is enabled and not stopped, of a function neither in reset nor frozen,
whose COMPLETION ring is not full, in FULL (R58, R63, R70, R99, R407). -/
def ringServes (s : State) (q : RingId) : Bool :=
  ringOn s q && decide (ringType s q < 9) && (s.rdF (RING_STATUS q) RING_STATUS_STATE != 3)
    && !flrActive s q.fn && !frozen s q.fn && !freezing s q.fn && (s.rdF (POWER_STATUS q.fn.ep) POWER_STATUS_STATE == 0)
    && !(s.flag (RING_STATUS ⟨q.fn, s.rdF (RING_CFG q) RING_CFG_CQ⟩) RING_STATUS_CQ_FULL)

/-- The routes that descriptors of a data ring name, as they stand (R23). -/
def namedRoutes (q : RingId) (ds : List Desc) (s : State) : List (Nat × Route) :=
  if ringType s q = 0 then [] else ds.filterMap (fun d => (s.route (dRoute d)).map (fun r => (dRoute d, { r with change := none })))

/-- A fetched descriptor or chain: the checks on every member, then its work, or its wait (R66, R72, R75). A chain that is too long
completes with that reason, whatever its members (DESIGN CHOICE, notes/assumptions/101.md). -/
def submitAll (opOf : Desc → Option OpSpec) (q : RingId) (ds : List Desc) (fail : Option (Nat × Nat)) (s : State) : State :=
  let f : Flight := ⟨s.nextTag, ds, 0, 0, 0, 0, false, s.rdF (RING_CFG q) RING_CFG_CQ, [], 0, namedRoutes q ds s⟩
  let add (x : Flight) (t : State) : State :=
    setRing q { t.ringAux q with flights := (t.ringAux q).flights ++ [x] } { t with nextTag := t.nextTag + 1 }
  match andThen fail (checkAll opOf q s 0 ds) with
  | some (st, dt) => s |> add (complete f st dt) |> settle q
  | none =>
    let s1 := add f s
    if mayBegin q f s1 then s1 |> begin_ opOf q f |> settle q else settle q s1

/-- One descriptor of an opcode, as its ring hands it over. A member of a chain waits for the rest of its chain (R74). -/
def submit (o : OpSpec) (q : RingId) (d : Desc) (s : State) : State :=
  if ringServes s q = false ∨ (o.held ∧ unitsStopped s (o.units q d s)) ∨ o.defer q d s then s
  else if dChain d then wrF (RING_STATUS q) RING_STATUS_STATE 2 s
  else submitAll (fun x => if o.fits (ringType s q) x then some o else none) q [d] none s

/-- The ticket is that of an entry of a set-up image: the entry has no DONE of its own (R90). -/
def imageEntry (f : Flight) (t : Ticket) : Bool := t.opcode != 0x18 && f.descs.any (fun d => dOpcode d == 0x18 && dQtype d == 0)

/-- Work that ran on ends: the flight completes, or waits to go on with its next member. An INVALID_DESC names the member (R71). -/
def finish (t : Ticket) (st dt : Nat) (s : State) : State :=
  match (s.ringAux t.ring).flights.find? (fun f => f.tag == t.tag && f.phase != 2 && !imageEntry f t) with
  | none => s
  | some f =>
    let f1 :=
      if (st = stOk ∨ st = stOkEmpty) ∧ f.acted < f.descs.length then
        { f with phase := 0, worked := f.worked || st == stOk, detail := dt }
      else complete f (if st = stOkEmpty ∧ f.worked then stOk else st) (if st = stInvalidDesc then dt + (f.acted - 1) * 2 ^ 16 else dt)
    s |> setFlight t.ring f1 |> settle t.ring

/-- Work ends whose DONE may already be posted: the end is then its FURTHER (R118). -/
def finishAny (t : Ticket) (st dt : Nat) (s : State) : State := if s.owed.contains t then postLast t 2 st dt s else finish t st dt s

/-- One of the parts of a flight that landed takes effect, or is replaced (`shown` = false); the last one completes it, with
the DETAIL of the last part that was shown (R147). -/
def finishPart (t : Ticket) (shown : Bool) (dt : Nat) (s : State) : State :=
  match (s.ringAux t.ring).flights.find? (fun f => f.tag == t.tag) with
  | none => s
  | some f =>
    let f1 := { f with parts := f.parts - 1, worked := f.worked || shown, detail := if shown ∨ f.worked = false then dt else f.detail }
    let f2 := if f1.parts = 0 ∧ f.descs.length ≤ f.acted then complete f1 stOk f1.detail else f1
    s |> setFlight t.ring f2 |> settle t.ring

/-! ## Grants and classes -/

/-- Class of a function: PF1 Garnet, PF0 Jade, a tenant as created (R24, 4.1). -/
def classOf (s : State) (f : Fun) : Nat :=
  if f.fn = 63 then 0 else if f.fn = 0 then 1 else s.rdF (TENANT_CFG f) TENANT_CFG_CLASS

/-- The tenant's grants, as the descriptor that gave them. -/
def grantsOf (s : State) (f : Fun) : Desc :=
  match tfind f.key s.tenants with
  | some t => t.grants
  | none => 0

/-- A SETUP ring of the die that owns the unit of a device-wide number (`per` units a die); else reason 0x09. -/
def onDie (q : RingId) (per n off : Nat) : Option (Nat × Nat) := if 2 * per ≤ n then invalid 0x08 off else bad (dieOf per n != q.fn.ep) 0x09 off

/-- The ticket's function and die. -/
def Ticket.fn (t : Ticket) : Fun := t.ring.fn
def Ticket.die (t : Ticket) : Die := t.ring.fn.ep

/-- A flag of an endpoint record, little-endian: byte, bit, width. -/
def rget {w : Nat} (r : BitVec w) (byte bit n : Nat) : Nat := r.toNat / 2 ^ (8 * byte + bit) % 2 ^ n

/-! ## CRC-32C -/

def crcBits (poly : Nat) : Nat → Nat → Nat
  | 0, c => c
  | n + 1, c => crcBits poly n (if c % 2 = 1 then Nat.xor (c / 2) poly else c / 2)

/-- One byte into a reflected CRC register. -/
def crcByte (poly c : Nat) (b : Byte) : Nat := crcBits poly 8 (Nat.xor c b.toNat)

/-- CRC-32C: the register over more bytes, what it is preset to, its complement, and all three of bytes (R187). -/
def crcMore (c : Nat) (bs : List Byte) : Nat := bs.foldl (crcByte 0x82F63B78) c
def crcPreset : Nat := 0xFFFFFFFF
def crcEnd (c : Nat) : Nat := Nat.xor c 0xFFFFFFFF
def crc32c (bs : List Byte) : Nat := crcEnd (crcMore crcPreset bs)

/-! ## Common forms -/

/-- Bytes a to b − 1 of a layout are reserved, byte by byte. -/
def rsv (a b : Nat) : List (Nat × Nat × Nat) := (upto (b - a)).map (fun i => (a + i, 0, 8))

def noUnits : RingId → Desc → State → List Nat := fun _ _ _ => []
def noRange : RingId → Desc → State → Option (Nat × Nat) := fun _ _ _ => none
def notEmpty : Desc → State → Bool := fun _ _ => false

/-- A SETUP opcode that only some functions may submit (Table 4.1 and the like): INVALID_DESC, reason 0x08. -/
def onlyPf0 (q : RingId) : Option (Nat × Nat) := bad (q.fn.fn != 0) 0x08 0
def onlyPf1 (q : RingId) : Option (Nat × Nat) := bad (q.fn.fn != 63) 0x08 0

end Sys2Proof.Machine
end

