-- ==== Sys2Proof/Machine/Shared.lean ====
section
/-! DEFINITION. What several units share: endpoint records of routes, the pace floor and its raises (2.3), leave (16.8),
secure claims and held votes (4.7). -/
namespace Sys2Proof.Machine

/-! ## Routes -/

/-- TYPE, UNIT, SUB and ARG of an endpoint record (R86). -/
def epType (r : BitVec 64) : Nat := rget r 0 0 8
def epUnit (r : BitVec 64) : Nat := rget r 1 0 8
def epSub (r : BitVec 64) : Nat := rget r 2 0 16
def epArg (r : BitVec 64) : Nat := rget r 4 0 32

/-- A field of a route's PARAMS, by the byte it has in ROUTE_CREATE (32 and up). -/
def pget (r : Route) (byte bit n : Nat) : Nat := rget r.params (byte - 32) bit n

/-- Checks an endpoint record's fields: the first bad one of TYPE, UNIT, SUB and ARG is the offending field (R71, R86). -/
def badEp (byte : Nat) (ty unit sub arg : Bool) : Option (Nat × Nat) :=
  firstFail [bad ty 0x08 byte, bad unit 0x08 (byte + 1), bad sub 0x08 (byte + 2), bad arg 0x08 (byte + 4)]

/-- The record is TENANT, with all other fields 0 (R86). -/
def isTenant (byte : Nat) (r : BitVec 64) : Option (Nat × Nat) :=
  badEp byte (epType r != 0xF0) (epUnit r != 0) (epSub r != 0) (epArg r != 0)

/-- Bytes of PARAMS that are reserved are zero. -/
def zeroParams (r : Route) (a b : Nat) : Option (Nat × Nat) :=
  firstFail ((upto (b - a)).map (fun i => bad (pget r (a + i) 0 8 != 0) 0x01 (a + i)))

/-- Live routes of a kind. -/
def routesOf (s : State) (kind : Nat) : List (Nat × Route) := s.routes.filter (fun x => x.2.kind == kind)

/-- The handle of the first route that meets a test. -/
def routeWhere (s : State) (p : Route → Bool) : Option (Nat × Route) := s.routes.find? (fun x => p x.2)

/-- World and owner of an assignable pin (R109). -/
def pinSecure (s : State) (d : Die) (pin : Nat) : Bool := s.flag (PIN_ATTR d pin) PIN_ATTR_WORLD
def pinOwner (s : State) (d : Die) (pin : Nat) : Fun := ⟨d, s.rdF (PIN_ATTR d pin) PIN_ATTR_OWNER⟩

/-- Two's complement of n bits. -/
def sgn (n x : Nat) : Int := if x < 2 ^ (n - 1) then (x : Int) else (x : Int) - 2 ^ n

/-- n bits of a signed number. -/
def unsgn (n : Nat) (x : Int) : Nat := (x % 2 ^ n).toNat

/-! ## The pace floor (R28–R31) -/

/-- A route of the warp engine: forms B, D and E of Table 8.2. -/
def isWarpRoute (r : Route) : Bool := r.kind == 2 && (epType r.source == 0x13 || epType r.sink == 0x11)

/-- Die of the unit a camera route lives on: its port, warp output or warp input. -/
def camRouteDie (r : Route) : Die :=
  if epType r.source = 0x10 then dieOf 4 (epUnit r.source)
  else if epType r.source = 0x13 then (if epUnit r.source = 0 then .a else .b)
  else if epUnit r.sink = 0 then .a else .b

/-- The terms of Table 2.2, base first. -/
def floorTerms (s : State) (d : Die) : List Nat :=
  [600,
   ((upto 4).map (fun n => if s.flag (HEAD_CFG d n) HEAD_CFG_ENABLED
      then cdiv (s.rdF (HEAD_PCLK_CEIL d n) HEAD_PCLK_CEIL_CEIL_KHZ * 15) 32000 else 0)).sum,
   ((upto 4).map (fun n => if s.flag (CAM_PORT_CFG d n) CAM_PORT_CFG_EN
      then cdiv (s.rdF (CAM_PORT_CFG d n) CAM_PORT_CFG_LANES * s.rdF (CAM_PORT_CFG d n) CAM_PORT_CFG_MAX_MBPS * 12) 1000 else 0)).sum,
   (if s.routes.any (fun x => isWarpRoute x.2 && camRouteDie x.2 == d) then 700 else 0),
   (if d = .a ∧ s.routes.any (fun x => x.2.kind == 3) then 400 else 0)]

/-- In PEARL, and on the way there, the units with terms are gated: only the base counts (R28, R403). -/
def inPearl (s : State) (d : Die) : Bool := s.rdF (POWER_STATUS d) POWER_STATUS_STATE == 2

/-- The floor and the term that gives it, the first of equals. -/
def floorOf (s : State) (d : Die) : Nat × Nat :=
  if inPearl s d then (600, 0)
  else
    let ts := floorTerms s d
    let m := ts.foldl max 0
    (m, (ts.findIdx? (fun t => t == m)).getD 0)

/-- TARGET_EFF (R30); in PEARL PACE_TARGET is ignored (R403). -/
def targetEff (s : State) (d : Die) (floor : Nat) : Nat :=
  let m := floor + s.rdF (PACE_MARGIN d) PACE_MARGIN_MARGIN
  min 0xFFFF (if inPearl s d then m else max (s.rdF (PACE_TARGET d) PACE_TARGET_TARGET) m)

/-- Sum of the pixel clock ceilings of a die's enabled heads, kHz. -/
def ceilSum (s : State) (d : Die) : Nat :=
  ((upto 4).map (fun n => if s.flag (HEAD_CFG d n) HEAD_CFG_ENABLED then s.rdF (HEAD_PCLK_CEIL d n) HEAD_PCLK_CEIL_CEIL_KHZ else 0)).sum

def Layer.empty : Layer := ⟨0, 0, none, none, none, none, false, false, 0, [], (0, 0), [], false, []⟩
def Head.empty : Head :=
  ⟨0, none, 0, 0, 0, 0, [], false, none, [], none, none, none, 0, 0, 0, false, 0, 0, none, false, [], 0, 0, 0xFFFF, false, false, 0, [], [], none, 0, [], true, 0,
    false, false, 0, 0, [], 0⟩
def State.head (s : State) (h : Nat) : Head := tget Head.empty h s.heads
def setHead (h : Nat) (x : Head) (s : State) : State := { s with heads := tset h x s.heads }

/-- Pixels per line of the timing in force. -/
def Head.htotal (x : Head) : Nat := x.ha.toNat / 2 ^ 16 + x.ha.toNat % 2 ^ 16 + x.hb.toNat / 2 ^ 16 + x.hb.toNat % 2 ^ 16
def Head.hactive (x : Head) : Nat := x.ha.toNat / 2 ^ 16
def Head.vactive (x : Head) : Nat := x.va.toNat / 2 ^ 16
def Head.vtotal (x : Head) : Nat := x.va.toNat / 2 ^ 16 + x.va.toNat % 2 ^ 16 + x.vb.toNat / 2 ^ 16 + x.vb.toNat % 2 ^ 16

/-- Line budget of a head (R189): T × HTOTAL ÷ ΣP, with T = 4 Gpix/s × pace ÷ 1,500. -/
def budgetOf (s : State) (d : Die) (n : Nat) : Nat :=
  let p := ceilSum s d
  if p = 0 then 0 else 4000000 * s.rdF (PACE_STATUS d) PACE_STATUS_PACE * (s.head (4 * d.idx + n)).htotal / (1500 * p)

/-- Registers that follow the measured pace and the ceilings (R189, R205, R232, R240, R241, R389). -/
def refreshRates (d : Die) (s : State) : State :=
  let pace := s.rdF (PACE_STATUS d) PACE_STATUS_PACE
  let p := ceilSum s d
  let s1 := s |> wrF (COMP_STATUS d) COMP_STATUS_RATE_MPIX (4000 * pace / 1500)
              |> wrF (COMP_STATUS d) COMP_STATUS_RATIO_X1000 (if p = 0 then 0 else min 0xFFFF (4000000 * pace * 1000 / (1500 * p)))
              |> wrF (WARP_RATE d) WARP_RATE_RATE_MPIX (600 * pace / 1500)
              |> wrF (GARNET_RENDER d) GARNET_RENDER_RATE_MPIX (400 * pace / 1500)
              |> wrF (GPU_RATE d) GPU_RATE_GFLOPS (192 * ((upto 8).filter (fun c => unitPresent s.part d (bitCluster c))).length * pace / 1500)
              |> wrF (GPU_RATE d) GPU_RATE_RASTER_MPIX (24000 * pace / 1500)
              |> wrF (COPY_STATUS d) COPY_STATUS_RATE_GBS (32 * pace / 1500)
  (upto 4).foldl (fun t n => if t.flag (HEAD_CFG d n) HEAD_CFG_ENABLED
    then wrF (HEAD_LOAD d n) HEAD_LOAD_BUDGET (min 0xFFFF (budgetOf t d n)) t else t) s1

/-- The floor follows the units that run (R28, R30). -/
def refreshFloor (d : Die) (s : State) : State :=
  let (f, k) := floorOf s d
  s |> wrF (PACE_FLOOR d) PACE_FLOOR_FLOOR f |> wrF (PACE_FLOOR d) PACE_FLOOR_DOMINANT k
    |> wrF (PACE_STATUS d) PACE_STATUS_TARGET_EFF (targetEff s d f) |> refreshRates d

def Pace.empty : Pace := ⟨[], 0, 0, none, 0, 0⟩
def State.paceOf (s : State) (d : Die) : Pace := tget Pace.empty d.idx s.pace
def setPace (d : Die) (p : Pace) (s : State) : State := { s with pace := tset d.idx p s.pace }

/-- The measured pace has reached the floor. -/
def paceReached (s : State) (d : Die) : Bool :=
  decide (s.rdF (PACE_FLOOR d) PACE_FLOOR_FLOOR ≤ s.rdF (PACE_STATUS d) PACE_STATUS_PACE)

/-- A unit waits for the pace to reach the floor as it stands now. -/
def addRaise (d : Die) (r : Raise) (s : State) : State :=
  s |> setPace d { s.paceOf d with raises := (s.paceOf d).raises ++ [{ r with floor := s.rdF (PACE_FLOOR d) PACE_FLOOR_FLOOR }] }
    |> wrB (PACE_FLOOR d) PACE_FLOOR_RAISING true

/-- A unit waits no longer. -/
def dropRaise (d : Die) (kind unit : Nat) (s : State) : State :=
  let rs := (s.paceOf d).raises.filter (fun r => !(r.kind == kind && r.unit == unit))
  s |> setPace d { s.paceOf d with raises := rs } |> wrB (PACE_FLOOR d) PACE_FLOOR_RAISING (rs != [])

/-- A raise: the floor rises first; the unit starts when the pace has reached it, at once if it has (R31). -/
def raiseFloor (d : Die) (r : Raise) (start : State → State) (s : State) : State :=
  let s1 := refreshFloor d s
  if paceReached s1 d then start s1
  else addRaise d r s1

/-! ## Crossings -/

def Xing.empty : Xing := ⟨0, 0, none, [], false, 0⟩
def xingKey (d : Die) (n : Nat) : Nat := d.idx * 256 + n
def State.xing (s : State) (d : Die) (n : Nat) : Xing := tget Xing.empty (xingKey d n) s.xings
def setXing (d : Die) (n : Nat) (x : Xing) (s : State) : State := { s with xings := tset (xingKey d n) x s.xings }

/-- Values that wait, with a register's new one: a value not yet carried is replaced where it stands (R41). -/
def queueBehind (a : Nat) (v : Word) : List (Nat × Word) → List (Nat × Word)
  | [] => [(a, v)]
  | (b, w) :: t => if b = a then (b, v) :: t else (b, w) :: queueBehind a v t

/-- The queue with a register's value: the front one is in flight, and the sender holds it until its acknowledge (R39). -/
def queueValue (a : Nat) (v : Word) : List (Nat × Word) → List (Nat × Word)
  | [] => [(a, v)]
  | x :: t => x :: queueBehind a v t

/-- A register of an island is written: the shadow at once, then the crossing carries it (R41); while the island is in reset the
value is discarded (R47). -/
def carry (d : Die) (n a : Nat) (v : Word) (s : State) : State :=
  let st := XING_STATUS d n
  if s.flag st XING_STATUS_PEER_RESET then s |> wr a v |> satF (XING_DROPPED d n) XING_DROPPED_DROPPED_ON_PEER_RESET 1
  else s |> wr a v |> setXing d n { s.xing d n with queue := queueValue a v (s.xing d n).queue } |> wrB st XING_STATUS_OUTSTANDING true

/-- The value an island register holds on its own side. -/
def State.isl (s : State) (a : Nat) : Word := tget (resetWord s.part a) a s.island

/-- A value lands on the island's side. -/
def setIsl (a : Nat) (v : Word) (s : State) : State := { s with island := tset a v s.island }

/-- A unit that starts sets its island's register as it stands on the fabric side: an island that its unit's enabling releases takes it
with its release (R426). -/
def islTakes (a : Nat) (s : State) : State := setIsl a (s.rd a) s

/-- The crossing is there and its other side is not in reset. -/
def xingUp (s : State) (d : Die) (n : Nat) : Bool :=
  xingPresent s.part d n && !s.flag (XING_STATUS d n) XING_STATUS_PEER_RESET && !s.inReset.contains .fabric

def xingFlagMode (s : State) (d : Die) (n : Nat) : Bool := s.flag (XING_CFG d n) XING_CFG_MODE

/-- An event leaves the sender. -/
def sendEvent (d : Die) (n count : Nat) (s : State) : State :=
  let st := XING_STATUS d n
  let s1 := s |> wrB st XING_STATUS_OUTSTANDING true |> wrB st XING_STATUS_STALLED false |> setXing d n { s.xing d n with count := 0, sent := count }
  if (s.xing d n).stopped then s1 else wrF (XING_COUNT d n) XING_COUNT_LAST_COUNT count s1

/-- The mode that waits for the handshake to complete is in effect (R45). -/
def applyMode (d : Die) (n : Nat) (s : State) : State :=
  match (s.xing d n).nextMode with
  | none => s
  | some m => s |> setXing d n { s.xing d n with nextMode := none } |> wrF (XING_CFG d n) XING_CFG_MODE m

/-- A pulse arrives (R42, R43). A scan complete that crossing 0x82 loses is a scan overrun (R386). -/
def xingPulse (d : Die) (n : Nat) (s : State) : State :=
  let st := XING_STATUS d n
  let x := s.xing d n
  if xingPresent s.part d n = false ∨ s.inReset.contains .fabric ∨ s.flag (XING_CFG d n) XING_CFG_KIND = false then s
  else if s.flag st XING_STATUS_PEER_RESET then satF (XING_DROPPED d n) XING_DROPPED_DROPPED_ON_PEER_RESET 1 s
  else if s.flag st XING_STATUS_OUTSTANDING = false then sendEvent d n 1 s
  else if xingFlagMode s d n then
    s |> wrB st XING_STATUS_OVERRUN true |> satF st XING_STATUS_OVERRUN_COUNT 1 |> (if n = 0x82 then wrB (TOUCH_STATUS d) TOUCH_STATUS_OVERRUN true else id)
  else
    let c := min 0xFFFF (x.count + 1)
    s |> setXing d n { x with count := c } |> (if c = 0xFFFF then wrB st XING_STATUS_COUNT_SAT true else id)

/-- The crossings of an island hold their data (R46). -/
def haltXings (d : Die) (ns : List Nat) (s : State) : State :=
  ns.foldl (fun t n => setXing d n { t.xing d n with stopped := true } t) s

/-- The crossings of an island, by its place in Table 2.3. -/
def islandXings (i : Nat) : List Nat :=
  let span (a n : Nat) : List Nat := (upto n).map (fun k => a + k)
  if i < 4 then span (8 * i) 8
  else if i < 12 then span (0x20 + 4 * (i - 4)) 4
  else if i = 12 then span 0x40 8
  else if i < 17 then span (0x48 + 8 * (i - 13)) 8
  else if i = 17 then span 0x68 24
  else if i = 18 then span 0x80 8
  else if i < 21 then span (0x88 + 4 * (i - 19)) 4
  else if i < 25 then span (0x90 + 4 * (i - 21)) 4
  else if i < 29 then span (0xA0 + 8 * (i - 25)) 8
  else if i = 29 then span 0xC0 4
  else if i = 30 then span 0xC4 4
  else []

/-- A crossing whose island's clock returns goes on from where it stopped: an event that was held is delivered (R46). -/
def xingResumes (d : Die) (n : Nat) (s : State) : State :=
  let x := s.xing d n
  if x.stopped then
    let u := setXing d n { x with stopped := false } s
    if x.sent = 0 then u else u |> wrF (XING_COUNT d n) XING_COUNT_LAST_COUNT x.sent |> wrB (XING_STATUS d n) XING_STATUS_STALLED false
  else s

/-- The island's clock returns (R46). -/
def islandBack (d : Die) (i : Nat) (s : State) : State := (islandXings i).foldl (fun t n => xingResumes d n t) s

/-! ## The time base (R38) -/

/-- Where the rejoin slew crosses to, low and high half: two words beyond the registers of set-up space. -/
def slewLo (d : Die) : Nat := dieSpace d + 0x3FFFFF8
def slewHi (d : Die) : Nat := dieSpace d + 0x3FFFFFC

/-- A value lands on the island's side. The two halves of a slew begin it when the second has landed. -/
def lands (d : Die) (a : Nat) (v : Word) (s : State) : State :=
  let s1 := setIsl a v s
  if a = slewHi d then setTbase d { s1.tbase d with slew := sgn 64 ((s1.isl (slewLo d)).toNat + 2 ^ 32 * v.toNat), cycles := 0 } s1 else s1

/-- An offset of device time is to be removed by slewing: it crosses to the time base (Tables 2.3a and 18.4). -/
def slewBy (d : Die) (off : Int) (s : State) : State :=
  let x := unsgn 64 off
  s |> carry d 0xC5 (slewLo d) (BitVec.ofNat 32 x) |> carry d 0xC5 (slewHi d) (BitVec.ofNat 32 (x / 2 ^ 32))

/-- One REFCLK cycle of the counter: 40 ns, and while it slews at 100 ppm one more or less in 250 cycles (Table 18.4). -/
def TimeBase.tick (x : TimeBase) : TimeBase :=
  if x.slew = 0 then { x with counter := x.counter + 40 }
  else if x.cycles < 249 then { x with counter := x.counter + 40, cycles := x.cycles + 1 }
  else if 0 < x.slew then { x with counter := x.counter + 39, slew := x.slew - 1, cycles := 0 }
  else { x with counter := x.counter + 41, slew := x.slew + 1, cycles := 0 }

/-- A REFCLK cycle passes on a die: crossing 0xC4 carries the counter as it stood, and the counter goes on (R38). While the fabric domain
is in reset, device time is too (Table 17.1). -/
def refclk (d : Die) (s : State) : State :=
  if s.inReset.contains .fabric then s
  else
    let s1 := if xingUp s d 0xC4 ∧ (s.xing d 0xC4).stopped = false then setNow d (s.tbase d).counter s else s
    setTbase d (s.tbase d).tick s1

/-! ## Leave (R415) -/

def Permit.empty : Permit := ⟨[], [], [], [], none⟩
def State.permit (s : State) (d : Die) : Permit := tget Permit.empty d.idx s.permits
def setPermit (d : Die) (p : Permit) (s : State) : State := { s with permits := tset d.idx p s.permits }

/-- A unit is about to ask for leave; PERMIT_REQUEST hands the request to the arbiter. -/
def askLeave (d : Die) (kind unit : Nat) (jade : Bool) (s : State) : State :=
  setPermit d { s.permit d with asks := (s.permit d).asks ++ [⟨kind, unit, jade, s.now d, false⟩] } s

/-- The unit holds a leave it has not used. -/
def hasLeave (s : State) (d : Die) (kind unit : Nat) : Bool := (s.permit d).granted.contains (kind, unit)

/-- The unit uses its leave. -/
def useLeave (d : Die) (kind unit : Nat) (s : State) : State :=
  setPermit d { s.permit d with granted := (s.permit d).granted.erase (kind, unit) } s

/-- The unit no longer wants leave. -/
def dropLeave (d : Die) (kind unit : Nat) (s : State) : State :=
  let p := s.permit d
  let keep (a : Ask) : Bool := !(a.kind == kind && a.unit == unit)
  setPermit d { p with asks := p.asks.filter keep, waiting := p.waiting.filter keep, granted := p.granted.filter (fun g => g != (kind, unit)) } s

/-! ## Power of units (16.6) -/

/-- UNIT_POWERED of one unit. -/
def setPowered (d : Die) (bit : Nat) (on : Bool) (s : State) : State :=
  wr (UNIT_POWERED d) (BitVec.ofNat 32 (setBit (s.rd (UNIT_POWERED d)).toNat bit on)) s

/-- A unit falls idle: it is gated unless it is set to keep on (R413, R414). -/
def gateIdle (d : Die) (bit : Nat) (s : State) : State :=
  if nbit (s.rd (UNIT_KEEP_ON d)).toNat bit then s else setPowered d bit false s

/-- The power state beside its registers, and the die whose POWER_CFG governs a die (R420). -/
def Power.empty : Power := ⟨none, 0, 0, [], 0, false⟩
def State.power (s : State) (d : Die) : Power := tget Power.empty d.idx s.powers
def setPower (d : Die) (x : Power) (s : State) : State := { s with powers := tset d.idx x s.powers }
def powerDie (s : State) (d : Die) : Die := if s.split then d else .a

/-- A wake source fires (R408): it counts in PEARL and on the way there (R412), unless WAKE_EN leaves it out. -/
def wakeUp (d : Die) (src : Nat) (s : State) : State :=
  let g := powerDie s d
  let st := s.rdF (POWER_STATUS g) POWER_STATUS_STATE
  if (st = 1 ∨ st = 2) ∧ nbit (s.rdF (POWER_CFG g) POWER_CFG_WAKE_EN) src ∧ (s.power g).wakes.contains src = false then
    setPower g { s.power g with wakes := (s.power g).wakes ++ [src] } s
  else s

/-! ## Secure claims and votes (4.7) -/

/-- The unit holds an S claim (R498). -/
def claimed (s : State) (d : Die) (bit : Nat) : Bool :=
  tget 0 (unitKey d bit) s.claims != 0 || tget 0 (unitKey d bit) s.garnetClaims != 0

/-- CLAIM_STATUS follows the counts. -/
def refreshClaim (d : Die) (bit : Nat) (s : State) : State :=
  wr (CLAIM_STATUS d) (BitVec.ofNat 32 (setBit (s.rd (CLAIM_STATUS d)).toNat bit (claimed s d bit))) s

/-- A Garnet use of a unit begins or ends. -/
def garnetUse (d : Die) (bit : Nat) (begins : Bool) (s : State) : State :=
  let k := unitKey d bit
  let n := tget 0 k s.garnetClaims
  refreshClaim d bit { s with garnetClaims := tset k (if begins then n + 1 else n - 1) s.garnetClaims }

/-- DETAIL of SECURE_HELD (R117). -/
def heldDetail (d : Die) (bit : Nat) : Nat := bit + 256 * d.idx

/-- VOTE_PENDING of a unit. -/
def setVoteBit (d : Die) (bit : Nat) (on : Bool) (s : State) : State :=
  wr (VOTE_PENDING d) (BitVec.ofNat 32 (setBit (s.rd (VOTE_PENDING d)).toNat bit on)) s

/-- The vote on a unit is replaced by a later request: FURTHER with SECURE_HELD and DETAIL[23] (R118). -/
def dropVote (d : Die) (bit : Nat) (s : State) : State :=
  match tfind (unitKey d bit) s.votes with
  | none => s
  | some v => { s with votes := tkeep (fun k => k != unitKey d bit) s.votes } |> setVoteBit d bit false
                |> postLast v.ticket 2 stSecureHeld (v.detail % 512 + 2 ^ 23)

/-- A lowering request on a unit under an S claim becomes the vote (R117). -/
def holdVote (d : Die) (bit : Nat) (t : Ticket) (desc : Desc) (s : State) : Option (Nat × Nat) × State :=
  let dt := heldDetail d bit
  let s1 := s |> dropVote d bit |> owe t |> setVoteBit d bit true
  (some (stSecureHeld, dt), { s1 with votes := tset (unitKey d bit) ⟨t, desc, dt⟩ s1.votes })

/-- A power request from PF0: held under a claim, else obeyed; either way it replaces a held vote (R117, R118). -/
def powerRequest (d : Die) (bit : Nat) (t : Ticket) (desc : Desc) (act : State → Option (Nat × Nat) × State) (s : State) :
    Option (Nat × Nat) × State :=
  if claimed s d bit ∧ t.fn.fn = 0 then holdVote d bit t desc s else act (dropVote d bit s)

/-! ## Scrubs (R114, R116) -/

/-- A unit whose scrub cannot complete leaves service (R116). -/
def scrubFault (d : Die) (bit : Nat) (last : Fun) (s : State) : State :=
  let s1 := { s with outOfService := unitKey d bit :: s.outOfService } |> postPf0 d 0x0012 bit last.fn
  if last.fn = 63 then postPf1 d 0x0012 bit last.fn s1 else s1

/-- The owner of a unit changes, or ends: the unit is scrubbed, or leaves service if it cannot be. -/
def scrub (d : Die) (bit : Nat) (last : Fun) (s : State) : State :=
  if s.part.scrubBad.contains (unitKey d bit) ∧ s.outOfService.contains (unitKey d bit) = false then scrubFault d bit last s else s

/-! ## Garnet injections (R334) -/

def Ramp.flat (g : Int) : Ramp := ⟨g, g, 0, 0⟩
def AudioBus.empty : AudioBus := ⟨0, 0, [], none, Ramp.flat 0, 1, 0, Ramp.flat 0, [], [], 0, 0, [], 0, [], [], [], 0, 0, none⟩
def State.bus (s : State) (b : Nat) : AudioBus := tget AudioBus.empty b s.audio.buses
def busOn (s : State) (b : Nat) : Bool := s.flag (AUDIO_BUS_CFG .a b) AUDIO_BUS_CFG_EN

/-- Injection i of a Garnet bus (R334): TYPE, UNIT, SUB, MAP. -/
def inject (x : AudioBus) (i : Nat) : Nat × Nat × Nat × Nat :=
  (dget x.setup (24 + 8 * i) 0 8, dget x.setup (25 + 8 * i) 0 8, dget x.setup (26 + 8 * i) 0 16, dget x.setup (28 + 8 * i) 0 32)

/-- Every injection of every enabled bus. -/
def injections (s : State) : List (Nat × Nat × Nat × Nat) :=
  ((upto 16).filter (busOn s)).flatMap (fun b => ((upto 4).map (inject (s.bus b))).filter (fun x => x.1 != 0))

def portInjected (s : State) (p : Nat) : Bool := (injections s).any (fun x => x.1 == 0x25 && x.2.1 == p)
def headInjected (s : State) (h : Nat) : Bool := (injections s).any (fun x => x.1 == 0x26 && x.2.1 == h)

def Dram.empty : Dram := ⟨[], [], [], [], [], [], [], none, [], [], none, none, 0, [], []⟩
def State.dram (s : State) (d : Die) : Dram := tget Dram.empty d.idx s.drams
def setDram (d : Die) (x : Dram) (s : State) : State := { s with drams := tset d.idx x s.drams }

/-! ## The die link (R449) -/

/-- The main link is lost, as a die sees it. -/
def mainLost (s : State) (d : Die) : Bool := s.rdF (EBRUM_STATUS d) EBRUM_STATUS_STATE == 1

/-! ## Lines of the system cache (R113) -/

/-- An S route lives on the die. -/
def sRouteLives (s : State) (d : Die) : Bool := s.routes.any (fun x => x.2.cls == 0 && handleDie x.1 == d)

/-- Lines are written back and invalidated; memory holds what they held already. -/
def cacheFlush (d : Die) (gone : Nat → CacheLine → Bool) (s : State) : State :=
  if (s.dram d).cache.any (fun e => gone e.1 e.2) then setDram d { s.dram d with cache := (s.dram d).cache.filter (fun e => !gone e.1 e.2) } s else s

/-- A way of S_MASK. -/
def inSWay (s : State) (d : Die) (k : Nat) : Bool := nbit (s.rdF (CACHE_S_WAYS d) CACHE_S_WAYS_S_MASK) (k % 16)

/-- Before the first S route of a die, the lines of N leave the S ways (R113). -/
def sRouteComes (d : Die) (s : State) : State :=
  if sRouteLives s d then s else cacheFlush d (fun k l => inSWay s d k && !l.secure) s

/-- After the last S route of a die, the S ways are emptied (R113). -/
def sRouteGoes (d : Die) (s : State) : State := if sRouteLives s d then s else cacheFlush d (fun k _ => inSWay s d k) s

end Sys2Proof.Machine
end

