-- ==== Sys2Proof/Machine/Pixels.lean ====
section
/-! DEFINITION. The pixel pipeline (Table 6.1, R164–R179) and the sources it samples: units of a plane, lines of a camera, the mesh of
the warp engine. A value between 0 and 1 is exact until the manual gives it a width; what it then becomes is one of the two codes beside it
(notes/assumptions/10.md). -/
namespace Sys2Proof

/-- A value `num / den` that no code of a stage holds exactly becomes the code above it: by stage. -/
opaque Config.roundUp : Nat → Nat → Nat → Bool

/-- Coefficients of the 8-tap filter, in 1/32,768: by ratio band (0 up, 1 above 1/2, 2 above 1/3, 3 the rest), phase and tap (R172). -/
opaque Config.filterTap : Nat → Nat → Nat → Int

/-- Thresholds of the ordered 4×4 dither, in sixteenths: by frame of the rotation, column and row (R176). -/
opaque Config.dither : Nat → Nat → Nat → BitVec 4

namespace Machine

/-! ## Numbers -/

/-- Local head number. -/
def headNo (h : Nat) : Nat := h % 4
def headDie (h : Nat) : Die := dieOf 4 h

/-- The code in 0 to `top` of num / den, of the two beside it where it is neither. -/
def toCode (top stage num den : Nat) : Nat :=
  if den = 0 then 0
  else
    let v := num * top
    min top (if v % den = 0 then v / den else v / den + b2n (Config.roundUp stage num den))

/-- 16 bits (stages 2 to 6): 1.0 is 0x8000, as in the tables of R175 and R177. -/
def one16 : Nat := 32768
def q16 (stage num den : Nat) : Nat := toCode one16 stage num den

/-- The nearest code; half-way between two, either. -/
def nearestCode (top stage num den : Nat) : Nat :=
  if den = 0 then 0
  else
    let v := 2 * num * top
    min top (if v % (2 * den) = den then v / (2 * den) + b2n (Config.roundUp stage num den) else (v + den) / (2 * den))

/-- The greatest v below 2^n, added to `acc`, with p; p holds up to some number. -/
def bisect (p : Nat → Bool) : Nat → Nat → Nat
  | 0, acc => acc
  | n + 1, acc => if p (acc + 2 ^ n) then bisect p n (acc + 2 ^ n) else bisect p n acc

/-- A code component in units in which every component of Table 6.2, and an eighth of it, is whole. -/
def unit1 : Nat := 14608440
def comp (top k : Nat) : Nat := min top k * (unit1 / top)

/-- A pixel after stage 1: components in format order and alpha, in unit1. -/
structure Px where
  c0 : Nat
  c1 : Nat
  c2 : Nat
  a : Nat
deriving DecidableEq, Repr

/-! ## Fields of a LAYER_COMMIT (R181) -/

def cAddr (p : Nat) (d : Desc) : Nat := dget d (8 + 8 * p) 0 64
def cPitch (p : Nat) (d : Desc) : Nat := dget d (24 + 2 * p) 0 16 * 64
def cSx (d : Desc) : Nat := dget d 28 0 16
def cSy (d : Desc) : Nat := dget d 30 0 16
def cSw (d : Desc) : Nat := dget d 32 0 16
def cSh (d : Desc) : Nat := dget d 34 0 16
def cDx (d : Desc) : Int := sgn 16 (dget d 36 0 16)
def cDy (d : Desc) : Int := sgn 16 (dget d 38 0 16)
def cDw (d : Desc) : Nat := dget d 40 0 16
def cDh (d : Desc) : Nat := dget d 42 0 16
def cFmt (d : Desc) : Nat := dget d 44 0 4
def cQxt (d : Desc) : Bool := dget d 44 4 1 == 1
def cRot (d : Desc) : Nat := dget d 45 0 2
def cMirH (d : Desc) : Bool := dget d 45 2 1 == 1
def cMirV (d : Desc) : Bool := dget d 45 3 1 == 1
def cTap8 (d : Desc) : Bool := dget d 45 4 1 == 1
def cIgnA (d : Desc) : Bool := dget d 45 5 1 == 1
def cBlend (d : Desc) : Nat := dget d 46 0 2
def cEn (d : Desc) : Bool := dget d 46 2 1 == 1
def cCrcEn (d : Desc) : Bool := dget d 46 3 1 == 1
def cAlpha (d : Desc) : Nat := dget d 47 0 8
def cCrcX0 (d : Desc) : Nat := dget d 52 0 16
def cCrcY0 (d : Desc) : Nat := dget d 54 0 16
def cCrcX1 (d : Desc) : Nat := dget d 56 0 16
def cCrcY1 (d : Desc) : Nat := dget d 58 0 16

/-- Bytes per sample unit of a plane (Tables 6.2 and 6.3, R168). -/
def unitBytes (fmt plane : Nat) : Nat :=
  if plane = 1 then (if fmt = 5 then 2 else 4)
  else if fmt = 1 ∨ fmt = 2 ∨ fmt = 3 then 4 else if fmt = 5 then 1 else 2

def twoPlanes (fmt : Nat) : Bool := fmt == 5 || fmt == 6
def isYuv (fmt : Nat) : Bool := fmt == 5 || fmt == 6 || fmt == 7
def hasAlpha (fmt : Nat) : Bool := fmt == 1 || fmt == 3

/-! ## Stage 1: units and samples (R165–R168) -/

/-- Address of unit (x, y) of a plane. -/
def unitAddr (d : Desc) (p x y : Nat) : Nat :=
  let b := unitBytes (cFmt d) p
  if cQxt d then cAddr p d + y / 8 * cPitch p d + x / 8 * (64 * b) + (y % 8 * 8 + x % 8) * b else cAddr p d + y * cPitch p d + x * b

/-- Chroma rows of a line, with their weights in quarters: vertically centred between the two lines they serve, edge rows repeated. -/
def chromaRows (d : Desc) (y : Nat) : List (Nat × Nat) :=
  let lo := cSy d / 2
  let hi := (cSy d + cSh d) / 2 - 1
  let cl (v : Nat) : Nat := max lo (min hi v)
  if y % 2 = 0 then [(cl (y / 2), 3), (max lo (y / 2 - 1), 1)] else [(cl (y / 2), 3), (cl (y / 2 + 1), 1)]

/-- Chroma columns of a pixel, with their weights in halves: co-sited with the left pixel of the pair; the edge is repeated. -/
def chromaCols (d : Desc) (x : Nat) : List (Nat × Nat) :=
  if x % 2 = 0 then [(x / 2, 2)] else [(x / 2, 1), (min ((cSx d + cSw d) / 2 - 1) (x / 2 + 1), 1)]

/-- Units, by address and bytes, that buffer pixel (x, y) needs. -/
def pixelUnits (d : Desc) (x y : Nat) : List (Nat × Nat) :=
  let f := cFmt d
  if f = 7 then
    ((x / 2) :: (chromaCols d x).map (fun c => c.1)).eraseDups.map (fun i => (cAddr 0 d + y * cPitch 0 d + 4 * i, 4))
  else
    (unitAddr d 0 x y, unitBytes f 0) ::
    (if twoPlanes f then (chromaRows d y).flatMap (fun r => (chromaCols d x).map (fun c => (unitAddr d 1 c.1 r.1, unitBytes f 1))) else [])

/-- Two chroma components of weighted samples: weights in eighths add up to eight. -/
def mixChroma (top : Nat) (xs : List (Nat × Nat × Nat)) : Nat × Nat :=
  ((xs.map (fun x => comp top x.1 * x.2.2)).sum / 8, (xs.map (fun x => comp top x.2.1 * x.2.2)).sum / 8)

/-- Buffer pixel (x, y) after stage 1, from the bytes of its units (Table 6.2). -/
def pixelAt (d : Desc) (unit : Nat → List Byte) (x y : Nat) : Px :=
  let f := cFmt d
  let w := ofLe (unit (unitAddr d 0 x y))
  let at8 (i : Nat) : Nat := w / 2 ^ i % 256
  if f = 1 ∨ f = 2 then ⟨comp 255 (at8 16), comp 255 (at8 8), comp 255 (at8 0), if f = 1 then comp 255 (at8 24) else unit1⟩
  else if f = 3 then ⟨comp 1023 (w % 1024), comp 1023 (w / 1024 % 1024), comp 1023 (w / 2 ^ 20 % 1024), comp 3 (w / 2 ^ 30 % 4)⟩
  else if f = 4 then ⟨comp 31 (w / 2 ^ 11 % 32), comp 63 (w / 32 % 64), comp 31 (w % 32), unit1⟩
  else if f = 7 then
    let pair (i : Nat) : Nat := ofLe (unit (cAddr 0 d + y * cPitch 0 d + 4 * i))
    let (cb, cr) := mixChroma 255 ((chromaCols d x).map (fun c => (pair c.1 / 2 ^ 8 % 256, pair c.1 / 2 ^ 24 % 256, 4 * c.2)))
    ⟨comp 255 (pair (x / 2) / 2 ^ (16 * (x % 2)) % 256), cb, cr, unit1⟩
  else
    let top := if f = 5 then 255 else 1023
    let half (v i : Nat) : Nat := if f = 5 then v / 2 ^ (8 * i) % 256 else v / 2 ^ (16 * i) % 65536 / 64
    let (cb, cr) := mixChroma top ((chromaRows d y).flatMap (fun r => (chromaCols d x).map (fun c =>
      let v := ofLe (unit (unitAddr d 1 c.1 r.1))
      (half v 0, half v 1, r.2 * c.2))))
    ⟨comp top (half w 0), cb, cr, unit1⟩

/-- Buffer pixel of column u and row v of the mirrored and rotated source (R169). -/
def unrotate (d : Desc) (u v : Nat) : Nat × Nat :=
  let w := cSw d
  let h := cSh d
  let (x, y) :=
    if cRot d = 0 then (u, v) else if cRot d = 1 then (v, h - 1 - u) else if cRot d = 2 then (w - 1 - u, h - 1 - v) else (w - 1 - v, u)
  (cSx d + if cMirH d then w - 1 - x else x, cSy d + if cMirV d then h - 1 - y else y)

/-- Row of the mirrored and rotated source in which a buffer pixel of the source rectangle lies. -/
def rotRow (d : Desc) (x y : Nat) : Nat :=
  let sx := if cMirH d then cSw d - 1 - (x - cSx d) else x - cSx d
  let sy := if cMirV d then cSh d - 1 - (y - cSy d) else y - cSy d
  if cRot d = 0 then sy else if cRot d = 1 then sx else if cRot d = 2 then cSh d - 1 - sy else cSw d - 1 - sx

/-! ## Stage 2: scaling (R170, R172) -/

/-- Filter taps of an axis: source samples with their weights, and what the weights add up to. -/
structure Taps where
  ws : List (Nat × Int)
  den : Nat
deriving DecidableEq, Repr

/-- Taps of destination sample i, of n source and m destination samples; a tap outside takes the edge, one of zero weight is not read. -/
def tapsOf (n m : Nat) (tap8 : Bool) (i : Int) : Taps :=
  let num : Int := (2 * i + 1) * n - m
  let den : Int := 2 * (m : Int)
  let f := num / den
  let r := num % den
  let cl (v : Int) : Nat := min (n - 1) v.toNat
  if n = m then ⟨[(cl i, 1)], 1⟩
  else if tap8 then
    let band := if n ≤ m then 0 else if n < 2 * m then 1 else if n < 3 * m then 2 else 3
    ⟨(upto 8).map (fun t => (cl (f - 3 + (t : Nat)), Config.filterTap band (r * 64 / den).toNat t)), 32768⟩
  else ⟨(if r = 0 then [(cl f, den)] else [(cl f, den - r), (cl (f + 1), r)]), 2 * m⟩

/-- The sum of weighted samples, at least 0. -/
def weigh (ts us : Taps) (px : Nat → Nat → Nat) : Nat :=
  let sum : Int := (us.ws.map (fun v => (ts.ws.map (fun u => u.2 * v.2 * (px u.1 v.1 : Int))).sum)).sum
  sum.toNat

/-- A scaled pixel, 16 bits per component: `px` gives the pixel of a column and a row. -/
def scaled (cols rows : Taps) (px : Nat → Nat → Px) : Px :=
  let den := unit1 * cols.den * rows.den
  let go (c : Px → Nat) : Nat := q16 2 (weigh cols rows (fun u v => c (px u v))) den
  ⟨go Px.c0, go Px.c1, go Px.c2, go Px.a⟩

/-! ## Stages 3 and 4: layer colour (R173–R175) -/

/-- A component as one clamped to 0 and 1. -/
def clamp16 (num : Int) (den : Nat) : Nat := q16 3 (min num.toNat den) den

/-- Bits per component of a format's colour. -/
def fmtDepth (fmt : Nat) : Nat := if fmt = 3 ∨ fmt = 6 then 10 else 8

/-- A range-expanded component, over 219 × 2^depth × 0x8000: limited range starts at 16 of 256 codes and spans 219. -/
def expandNum (depth c : Nat) : Int := 256 * (c * (2 ^ depth - 1) : Nat) - 16 * 2 ^ depth * (one16 : Int)

/-- Y'CbCr to R'G'B' with KR and KB in 1/10,000 (PRESUMED from BT.709 and BT.2020, notes/assumptions/114.md). -/
def ycc (kr kb : Nat) (limited : Bool) (depth : Nat) (p : Px) : Px :=
  let top : Int := 2 ^ depth - 1
  let yd : Nat := if limited then 219 * 2 ^ depth * one16 else one16
  let yn : Int := if limited then expandNum depth p.c0 else p.c0
  let cd : Nat := (if limited then 224 * 2 ^ depth else 256 * (2 ^ depth - 1)) * one16
  let cn (c : Nat) : Int := 256 * ((c : Int) * top - 2 ^ (depth - 1) * (one16 : Int))
  let den : Nat := yd * cd * 10000
  let r : Int := yn * cd * 10000 + 2 * (10000 - kr) * cn p.c2 * yd
  let b : Int := yn * cd * 10000 + 2 * (10000 - kb) * cn p.c1 * yd
  let g : Int := (yn * cd * 10000 * 10000 - kr * r - kb * b)
  ⟨clamp16 r den, clamp16 g (den * (10000 - kr - kb)), clamp16 b den, p.a⟩

/-- Stage 3 (Table 6.4): the preset of a space for a format, or the custom matrix of a LAYER_COLOUR. -/
def matrix (space : Nat) (yuv : Bool) (depth : Nat) (custom : Nat → Int) (p : Px) : Px :=
  if space = 0 then
    let row (i : Nat) : Nat :=
      clamp16 (custom (4 * i) * p.c0 + custom (4 * i + 1) * p.c1 + custom (4 * i + 2) * p.c2 + custom (4 * i + 3) * (one16 : Int)) (4096 * one16)
    ⟨row 0, row 1, row 2, p.a⟩
  else if yuv then (if space = 4 ∨ space = 5 then ycc 2627 593 (space == 5) depth p else ycc 2126 722 (space == 3) depth p)
  else if space = 3 ∨ space = 5 then
    let go (c : Nat) : Nat := clamp16 (expandNum depth c) (219 * 2 ^ depth * one16)
    ⟨go p.c0, go p.c1, go p.c2, p.a⟩
  else p

/-- Entry i of a preset degamma table (R175): the sRGB curve for space 1, power 2.4 for 2 to 5 (PRESUMED, notes/assumptions/114.md). -/
def degammaEntry (space i : Nat) : Nat :=
  let exact (a b : Nat) : Nat :=
    -- the code of (a / b) ^ (12 / 5)
    let lo := bisect (fun v => decide (v ^ 5 * b ^ 12 ≤ a ^ 12 * one16 ^ 5)) 16 0
    if lo ^ 5 * b ^ 12 = a ^ 12 * one16 ^ 5 then lo else min one16 (lo + b2n (Config.roundUp 4 a b))
  if space = 1 then
    (if i * 100000 ≤ 4045 * 1023 then q16 4 (i * 100) (1023 * 1292) else exact (1000 * i + 55 * 1023) (1055 * 1023))
  else exact i 1023

/-- Stage 4: a table of 1,024 entries over equal steps, interpolated linearly. -/
def degamma (entry : Nat → Nat) (c : Nat) : Nat :=
  let p := c * 1023
  let i := p / one16
  let r := p % one16
  if r = 0 then entry i else q16 4 (entry i * (one16 - r) + entry (i + 1) * r) (one16 * one16)

/-- Stages 3 and 4: SPACE, DEGAMMA, the custom matrix and the custom table; a space without a preset degamma has none (Table 6.4). -/
def colourStages (space how : Nat) (custom : Nat → Int) (table : List Nat) (yuv : Bool) (depth : Nat) (p : Px) : Px :=
  let m := matrix space yuv depth custom p
  let f : Nat → Nat :=
    if how = 2 then degamma (fun i => min one16 (table.getD i 0))
    else if how = 1 ∨ space = 0 ∨ space = 6 then id
    else degamma (degammaEntry space)
  ⟨f m.c0, f m.c1, f m.c2, m.a⟩

/-- The colour state of a layer: what its LAYER_COLOUR brought, else SPACE 1 and DEGAMMA 0 (R173). -/
def layerColour (c : Option Colour) (yuv : Bool) (depth : Nat) (p : Px) : Px :=
  match c with
  | some x => colourStages (dget x.desc 8 0 4) (dget x.desc 9 0 2) (fun i => sgn 16 (dget x.desc (16 + 2 * i) 0 16)) x.table yuv depth p
  | none => colourStages 1 0 (fun _ => 0) [] yuv depth p

/-! ## Stages 5 and 6: plane alpha and blending (R179) -/

/-- Stage 5: what blending adds of a pixel, and how much it hides. -/
def planeAlpha (blend alpha : Nat) (ignore : Bool) (p : Px) : Src :=
  let a := if ignore then one16 else p.a
  let go (c : Nat) : Nat := if blend = 0 then q16 5 (c * alpha) (one16 * 255) else q16 5 (c * a * alpha) (one16 * one16 * 255)
  ⟨go p.c0, go p.c1, go p.c2, q16 5 (a * alpha) (one16 * 255)⟩

/-- Stage 6 for one component. -/
def blend1 (blend s a d : Nat) : Nat :=
  if blend = 2 then min one16 (s + d) else min one16 (q16 6 (s * one16 + d * (one16 - a)) (one16 * one16))

def blendPx (blend : Nat) (d : Rgb) (s : Src) : Rgb := ⟨blend1 blend s.r s.a d.r, blend1 blend s.g s.a d.g, blend1 blend s.b s.a d.b⟩

/-- A part of a layer's line over a line. -/
def blendPart (line : List Rgb) (p : LinePart) : List Rgb :=
  line.take p.x0 ++ List.zipWith (blendPx p.blend) (line.drop p.x0) p.px ++ line.drop (p.x0 + p.px.length)

/-! ## Stages 7 to 9: head colour (R176, R177) -/

/-- The head colour that no HEAD_COLOUR has changed: the reset values of HEAD_COLOUR_STATE and HEAD_BACKGROUND (R192). -/
def HeadColour.start : HeadColour := ⟨BitVec.ofNat 512 (2 ^ 72 + 4 * 2 ^ 80), [], []⟩

/-- The background colour, linear. -/
def backgroundOf (c : HeadColour) : Rgb :=
  let w := dget c.desc 12 0 30
  ⟨q16 6 (w / 2 ^ 20 % 1024) 1023, q16 6 (w / 2 ^ 10 % 1024) 1023, q16 6 (w % 1024) 1023⟩

/-- Entry i of a regamma table: the output for (i ÷ 1,023)² (R177; presets PRESUMED, notes/assumptions/114.md). -/
def regammaEntry (c : HeadColour) (i : Nat) : Nat :=
  let how := dget c.desc 9 0 4
  if how = 0 then min one16 (c.regamma.getD i 0)
  else
    -- codes v with v' / one16 ≤ (i / 1,023) ^ (5 / 6), v' = v for a power of 1 ÷ 2.4, (1000 v + 55 one16) / 1055 for sRGB
    let ok (v : Nat) : Bool :=
      if how = 2 then decide (v ^ 6 * 1023 ^ 5 ≤ i ^ 5 * one16 ^ 6)
      else decide ((1000 * v + 55 * one16) ^ 6 * 1023 ^ 5 ≤ i ^ 5 * (1055 * one16) ^ 6)
    if how = 1 ∧ i * i * 10000000 ≤ 31308 * 1023 * 1023 then q16 7 (i * i * 1292) (1023 * 1023 * 100)
    else
      let lo := bisect ok 16 0
      if i = 1023 then lo else min one16 (lo + b2n (Config.roundUp 7 i 1023))

/-- Stage 7: 12 bits. Between two entries the value is linear in the input. -/
def regamma (c : HeadColour) (v : Nat) : Nat :=
  if dget c.desc 9 0 4 = 3 then toCode 4095 7 v one16
  else
    let p := v * 1023 * 1023
    let i := bisect (fun k => decide (k * k * one16 ≤ p)) 10 0
    let r := p - i * i * one16
    let w := (2 * i + 1) * one16
    toCode 4095 7 (regammaEntry c i * (w - r) + (if r = 0 then 0 else regammaEntry c (i + 1)) * r) (w * one16)

/-- A component of the 3D LUT at a grid point. -/
def lutAt (c : HeadColour) (shift r g b : Nat) : Nat := c.lut.getD ((r * 33 + g) * 33 + b) 0 / 2 ^ shift % 1024

/-- Stage 8: tetrahedral interpolation, 12 bits. From the grid point below the pixel, one step along each axis in the order of the fractions. -/
def lut3 (c : HeadColour) (p : Rgb) : Rgb :=
  if dget c.desc 10 1 1 = 0 then p
  else
    let cell (v : Nat) : Nat × Nat := if v = 4095 then (31, 4095) else (v * 32 / 4095, v * 32 % 4095)
    let (r, fr) := cell p.r
    let (g, fg) := cell p.g
    let (b, fb) := cell p.b
    let step (t : Nat) : Nat × Nat × Nat := (r + b2n (decide (t < fr)), g + b2n (decide (t < fg)), b + b2n (decide (t < fb)))
    -- at threshold t the vertex has moved along the axes whose fraction is above t; each vertex weighs as many thresholds as it holds
    let cuts := [0, min fr (min fg fb), max (min fr fg) (min (max fr fg) fb), max fr (max fg fb), 4095]
    let out (shift : Nat) : Nat :=
      toCode 4095 8 (((upto 4).map (fun i =>
        let lo := cuts.getD i 0
        let (x, y, z) := step lo
        lutAt c shift x y z * (cuts.getD (i + 1) 0 - lo))).sum) (1023 * 4095)
    ⟨out 20, out 10, out 0⟩

def mapRgb (f : Nat → Nat) (p : Rgb) : Rgb := ⟨f p.r, f p.g, f p.b⟩

/-- Stages 6 to 8 of a line: its parts over the background, as wide as the head; 12 bits. -/
def composed (c : HeadColour) (width : Nat) (parts : List LinePart) : List Rgb :=
  (parts.foldl blendPart (List.replicate width (backgroundOf c))).map (fun p => lut3 c (mapRgb (regamma c) p))

/-- Stage 9: the stored format, 0 RGB888, 1 RGB101010 (R142). -/
def storedPx (fmt : Nat) (p : Rgb) : Rgb := mapRgb (fun v => nearestCode (if fmt = 0 then 255 else 1023) 9 v 4095) p

/-- Cut to a width, or filled. -/
def fitTo (width : Nat) (fill : Rgb) (xs : List Rgb) : List Rgb := xs.take width ++ List.replicate (width - xs.length) fill

/-! ## Stages 11 and 12: range and dither (R176) -/

/-- Stage 11 at the bits of stage 10: 16–235 of 8 bits; 64–940 of 10 bits where the port sends 10 (notes/assumptions/114.md). -/
def limited (c : HeadColour) (bpc top v : Nat) : Nat :=
  if dget c.desc 10 0 1 = 0 then v
  else if bpc = 10 then toCode top 11 (64 * top + 876 * v) (1023 * top) else toCode top 11 (16 * top + 219 * v) (255 * top)

/-- Stage 12: the port's bits; `frame` numbers the frames of the rotating pattern. -/
def dithered (c : HeadColour) (bpc top frame x y v : Nat) : Nat :=
  let m := 2 ^ bpc - 1
  if dget c.desc 10 2 1 = 0 then nearestCode m 12 v top
  else
    let t := (Config.dither (if dget c.desc 10 3 1 = 1 then frame % 4 else 0) (x % 4) (y % 4)).toNat
    min m ((16 * v * m + t * top) / (16 * top))

/-- Stages 11 and 12 of a pixel; in a Garnet window without dither (R206). -/
def sentPx (c : HeadColour) (bpc top : Nat) (frame x y : Nat) (p : Rgb) : Rgb :=
  mapRgb (fun v => dithered c bpc top frame x y (limited c bpc top v)) p
def roundedPx (c : HeadColour) (bpc top : Nat) (p : Rgb) : Rgb :=
  mapRgb (fun v => nearestCode (2 ^ bpc - 1) 12 (limited c bpc top v) top) p

def blackRgb : Rgb := ⟨0, 0, 0⟩

/-! ## Camera lines (R217, R225) -/

def dtYuv (dt : Nat) : Bool := dt == 0x1E || dt == 0x1F
def dtDepth (dt : Nat) : Nat := if dt = 0x1F then 10 else 8

/-- Black in a data type's colour model; `limited`: the space has a limited range. -/
def blackPx (dt : Nat) (limited : Bool) : Px :=
  let top := 2 ^ dtDepth dt - 1
  let k := 2 ^ (dtDepth dt - 8)
  let y := if limited then comp top (16 * k) else 0
  if dtYuv dt then ⟨y, comp top (128 * k), comp top (128 * k), unit1⟩ else ⟨y, y, y, unit1⟩

/-- The pairs of pixels whose chroma pixel x takes, half of each (R166). -/
def chromaPairs (width x : Nat) : Nat × Nat := (x / 2, if x % 2 = 0 then x / 2 else min (width / 2 - 1) (x / 2 + 1))

/-- Pixel x of a line of YUV422 pairs; `pair` gives Cb, Y, Cr, Y of one. -/
def yuvPx (dt width : Nat) (pair : Nat → List Nat) (x : Nat) : Px :=
  let top := 2 ^ dtDepth dt - 1
  let at_ (i o : Nat) : Nat := comp top ((pair i).getD o 0 % (top + 1))
  let (i, j) := chromaPairs width x
  ⟨at_ i (1 + 2 * (x % 2)), (at_ i 0 + at_ j 0) / 2, (at_ i 2 + at_ j 2) / 2, unit1⟩

def rgbPx (w : Nat) : Px := ⟨comp 255 (w / 2 ^ 16 % 256), comp 255 (w / 2 ^ 8 % 256), comp 255 (w % 256), unit1⟩

/-- Pixel x of a camera line in CSI-2 order, chroma upsampled (R166, R218); no samples: black. -/
def camPx (dt width : Nat) (limited : Bool) (xs : List Nat) (x : Nat) : Px :=
  if xs = [] then blackPx dt limited
  else if dtYuv dt then yuvPx dt width (fun i => (xs.drop (4 * i)).take 4) x
  else rgbPx (xs.getD x 0)

/-- Bytes per pixel in memory (Table 8.1). -/
def dtBytes (dt : Nat) : Nat :=
  if dt = 0x1F ∨ dt = 0x24 then 4 else if dt = 0x1E ∨ dt = 0x2B ∨ dt = 0x2C then 2 else 1

/-- Units of a memory frame that pixel x of the line at `a` needs: a pixel, or the pairs of a YUV422 line (Table 8.1). -/
def memUnits (dt width a x : Nat) : List (Nat × Nat) :=
  let b := dtBytes dt
  if dtYuv dt then
    let (i, j) := chromaPairs width x
    [i, j].eraseDups.map (fun k => (a + 2 * b * k, 2 * b))
  else [(a + b * x, b)]

/-- Pixel x of the line at `a` of a memory frame. -/
def memPx (dt width a : Nat) (unit : Nat → List Byte) (x : Nat) : Px :=
  let b := dtBytes dt
  if dtYuv dt then
    yuvPx dt width (fun i =>
      let bs := unit (a + 2 * b * i)
      let y (k : Nat) : Nat := if dt = 0x1E then ofLe ((bs.drop k).take 1) else ofLe ((bs.drop (2 * k)).take 2) / 64
      [y 1, y 0, y 3, y 2]) x
  else rgbPx (ofLe (unit (a + b * x)))

/-- A camera layer's pixel after stage 5: opaque, with the degamma preset of its SPACE (R221). -/
def cameraSrc (space : Nat) (dt : Nat) (p : Px) : Src :=
  planeAlpha 0 255 true (colourStages space 0 (fun _ => 0) [] (dtYuv dt) (dtDepth dt) p)

/-- A pixel of stage 1 at the precision of stage 2. -/
def px16 (p : Px) : Px := ⟨q16 2 p.c0 unit1, q16 2 p.c1 unit1, q16 2 p.c2 unit1, q16 2 p.a unit1⟩

/-! ## The warp engine's sampling (R232) -/

/-- Fields of vertex (i, j) of a mesh image. -/
def vtx (m : List Byte) (gx i j off n : Nat) : Nat := ofLe ((m.drop (16 + 16 * (j * gx + i) + off)).take n)

/-- A vertex field at output position (x, y), bilinear within its cell, over (w − 1)(h − 1). -/
def meshAt (m : Mesh) (w h x y off : Nat) : Nat :=
  let i := min (m.gx - 2) (x * (m.gx - 1) / (w - 1))
  let j := min (m.gy - 2) (y * (m.gy - 1) / (h - 1))
  let rx := x * (m.gx - 1) - i * (w - 1)
  let ry := y * (m.gy - 1) - j * (h - 1)
  let v (a b : Nat) : Nat := vtx m.image m.gx a b off 2
  (v i j * (w - 1 - rx) + v (i + 1) j * rx) * (h - 1 - ry) + (v i (j + 1) * (w - 1 - rx) + v (i + 1) (j + 1) * rx) * ry

/-- IN0 (8) or IN1 (9) of the cell of an output position. -/
def meshInput (m : Mesh) (w h x y off : Nat) : Nat :=
  vtx m.image m.gx (min (m.gx - 2) (x * (m.gx - 1) / (w - 1))) (min (m.gy - 2) (y * (m.gy - 1) / (h - 1))) off 1

/-- Taps of a U12.4 coordinate, over 16 (w − 1)(h − 1), among n samples. -/
def meshTaps (n den num : Nat) : Taps :=
  let f := num / den
  let r := num % den
  ⟨(if r = 0 then [(min (n - 1) f, (den : Int))] else [(min (n - 1) f, (den : Int) - r), (min (n - 1) (f + 1), (r : Int))]), den⟩

/-- The two samples of an output position: input, column and row taps, weight over 256 (w − 1)(h − 1); those of zero weight are left out. -/
def meshSamples (m : Mesh) (w h : Nat) (size : Nat → Nat × Nat) (x y : Nat) : List (Nat × Taps × Taps × Nat) :=
  let den := 16 * (w - 1) * (h - 1)
  let w0 := meshAt m w h x y 10
  let go (off inOff wt : Nat) : List (Nat × Taps × Taps × Nat) :=
    let i := meshInput m w h x y inOff
    if wt = 0 then [] else [(i, meshTaps (size i).1 den (meshAt m w h x y off), meshTaps (size i).2 den (meshAt m w h x y (off + 2)), wt)]
  go 0 8 w0 ++ go 4 9 (256 * (w - 1) * (h - 1) - w0)

/-- An output pixel of the warp engine, 16 bits; `px` gives the pixel of an input. -/
def warpPx (w h : Nat) (ss : List (Nat × Taps × Taps × Nat)) (px : Nat → Nat → Nat → Px) : Px :=
  let den := 16 * (w - 1) * (h - 1)
  let go (c : Px → Nat) : Nat :=
    q16 2 ((ss.map (fun z => z.2.2.2 * weigh z.2.1 z.2.2.1 (fun u v => c (px z.1 u v)))).sum) (256 * (w - 1) * (h - 1) * den * den * unit1)
  ⟨go Px.c0, go Px.c1, go Px.c2, one16⟩

end Machine
end Sys2Proof
end

