-- ==== Sys2Proof/Machine/Layers.lean ====
section
/-! DEFINITION. Layers (chapter 6): commits, colour, geometry, loads, the CRC window, releases. -/
namespace Sys2Proof.Machine

def State.headFrame (s : State) (h : Nat) : Nat := s.rd64 (HEAD_FRAME_LO (headDie h) (headNo h))
def headOn (s : State) (h : Nat) : Bool := s.flag (HEAD_CFG (headDie h) (headNo h)) HEAD_CFG_ENABLED
def headThrough (s : State) (h : Nat) : Bool := s.flag (HEAD_CFG (headDie h) (headNo h)) HEAD_CFG_MODE
def headLook (s : State) (h : Nat) : Nat := s.rdF (HEAD_CFG (headDie h) (headNo h)) HEAD_CFG_LOOKAHEAD_M1 + 1

def Head.layer (x : Head) (l : Nat) : Layer := tget Layer.empty l x.layers
def setLayer (h l : Nat) (y : Layer) (s : State) : State := setHead h { s.head h with layers := tset l y (s.head h).layers } s

/-! ## Checks (R182) -/

/-- The first non-zero field of a commit with ENABLE = 0. -/
def offField (d : Desc) : Option (Nat × Nat) :=
  let fs : List (Nat × Nat) := [(8, 8), (16, 8), (24, 2), (26, 2), (28, 2), (30, 2), (32, 2), (34, 2), (36, 2), (38, 2), (40, 2),
    (42, 2), (44, 1), (45, 1), (46, 1), (47, 1), (48, 4), (52, 2), (54, 2), (56, 2), (58, 2)]
  match fs.find? (fun f => dget d f.1 0 (8 * f.2) != 0) with
  | some f => invalid 0x08 f.1
  | none => none

/-- A destination field within −8,192 to 8,191. -/
def dstOk (x : Int) : Bool := decide (-8192 ≤ x ∧ x ≤ 8191)

/-- Width and height of the source after rotation (R169). -/
def rotSize (d : Desc) : Nat × Nat := if cRot d % 2 = 1 then (cSh d, cSw d) else (cSw d, cSh d)

/-- A pitch at least as large as the row, or tile row, that the source rectangle reaches; a multiple of T in QXT (R167). -/
def pitchOk (d : Desc) (p : Nat) : Bool :=
  let b := unitBytes (cFmt d) p
  let w := (cSx d + cSw d) / (if p = 1 then 2 else 1)
  if cQxt d then decide (cdiv w 8 * 64 * b ≤ cPitch p d) && cPitch p d % (64 * b) == 0 else decide (w * b ≤ cPitch p d)

/-- The conditions of R182 on a commit of a layer route. -/
def commitRange (q : RingId) (d : Desc) (s : State) : Option (Nat × Nat) :=
  let two := twoPlanes (cFmt d)
  let al := if cQxt d then 256 else 64
  let (rw, rh) := rotSize d
  let odd (off : Nat) : Option (Nat × Nat) := bad (dget d off 0 1 != 0) 0x08 off
  let _ := q
  match s.route (dRoute d) with
  | none => none
  | some r =>
    if r.kind ≠ 1 then invalid 0x08 4
    else if cEn d = false then offField d
    else firstFail [
      bad (cSw d == 0) 0x07 32, bad (cSh d == 0) 0x07 34, bad (cDw d == 0) 0x07 40, bad (cDh d == 0) 0x07 42,
      bad (cFmt d == 0 || decide (7 < cFmt d)) 0x08 44, bad (cBlend d == 3) 0x08 46, bad (cQxt d && cFmt d == 7) 0x08 44,
      bad (decide (2 ^ 48 ≤ cAddr 0 d)) 0x08 8,
      bad (if two then decide (2 ^ 48 ≤ cAddr 1 d) else cAddr 1 d != 0) 0x08 16,
      bad (!two && cPitch 1 d != 0) 0x08 26,
      bad (decide (8192 < cSw d)) 0x08 32, bad (decide (8192 < cSh d)) 0x08 34,
      bad (!dstOk (cDx d)) 0x08 36, bad (!dstOk (cDy d)) 0x08 38,
      bad (decide (8192 < cDw d)) 0x08 40, bad (decide (8192 < cDh d)) 0x08 42,
      bad (decide (8192 < cSx d + cSw d)) 0x08 28, bad (decide (8192 < cSy d + cSh d)) 0x08 30,
      bad (decide (4 * cDw d < rw ∨ 8 * rw < cDw d)) 0x08 40, bad (decide (4 * cDh d < rh ∨ 8 * rh < cDh d)) 0x08 42,
      bad (cAddr 0 d % al != 0) 0x08 8, bad (two && cAddr 1 d % al != 0) 0x08 16,
      bad (!pitchOk d 0) 0x08 24, bad (two && !pitchOk d 1) 0x08 26,
      (if isYuv (cFmt d) then firstFail [odd 28, if two then odd 30 else none, odd 32, if two then odd 34 else none] else none),
      (if cCrcEn d then firstFail [
        bad (r.cls != 1) 0x08 46,
        bad (decide (cCrcX0 d < cSx d)) 0x08 52, bad (decide (cCrcY0 d < cSy d)) 0x08 54,
        bad (decide (cSx d + cSw d ≤ cCrcX1 d ∨ cCrcX1 d < cCrcX0 d)) 0x08 56,
        bad (decide (cSy d + cSh d ≤ cCrcY1 d ∨ cCrcY1 d < cCrcY0 d)) 0x08 58] else none)]

/-! ## Landing, taking effect, release (R146, R147, R184, R185) -/

/-- DETAIL of a commit's DONE (R147). -/
def commitDetail (frame line : Nat) : Nat := frame % 4096 * 4096 + line

/-- DETAIL of a commit that was never shown (R146). -/
def neverShown : Nat := 0xFFF

/-- DETAIL of RELEASED (R184). -/
def releaseDetail (frame layer : Nat) (never : Bool) (h : Nat) : Nat := frame % 4096 * 4096 + layer * 256 + b2n never * 128 + h

/-- LAYER_STATUS of a layer follows its state and its route. -/
def refreshLayer (h l : Nat) (s : State) : State :=
  let a := LAYER_STATUS (headDie h) (headNo h) l
  let y := (s.head h).layer l
  let on := match y.cur with
    | some c => cEn c.desc
    | none => false
  let hd := if y.camera = 0 then y.route else y.camera
  let cls := match s.route hd with
    | some r => r.cls
    | none => 0
  s |> wrB a LAYER_STATUS_ENABLED on |> wrB a LAYER_STATUS_PENDING (y.pend.isSome || y.pendColour.isSome)
    |> wrB a LAYER_STATUS_CAMERA (y.camera != 0) |> wrF a LAYER_STATUS_ROUTE hd |> wrF a LAYER_STATUS_CLASS cls

/-- A commit that never takes effect: its DONE, and the release of its buffer with NEVER (R146, R184). The FRAME of that
release is free: no fetch read the buffer. -/
def dropCommit (h l : Nat) (c : Commit) (s : State) : State :=
  let s1 := finishPart c.ticket false neverShown s
  if cEn c.desc then s1 |> useFree 1 |> postLast c.ticket 1 stOk (releaseDetail (s1.freeNat 0 % 4096) l true h) else s1

/-- A colour commit that never takes effect. -/
def dropColour (c : Colour) (s : State) : State := finishPart c.ticket false neverShown s

/-- A LAYER_COMMIT lands in the pending set (R146). -/
def landCommit (t : Ticket) (d : Desc) (s : State) : Option (Nat × Nat) × State :=
  match s.route (dRoute d) with
  | none => (some (stNoRoute, 0), s)
  | some r =>
    let h := epUnit r.sink
    let l := epSub r.sink
    let t1 : Ticket := { t with seq := dSeq d, opcode := dOpcode d }
    let s1 := match ((s.head h).layer l).pend with
      | some old => dropCommit h l old s
      | none => s
    let s2 := setLayer h l { (s1.head h).layer l with pend := some ⟨t1, d⟩ } s1
    (none, (if cEn d then owe t1 s2 else s2) |> refreshLayer h l)

def opLayerCommit : OpSpec := .onRing 4 <|
  { mkOp 0x10 true ([(44, 5, 3), (45, 6, 2), (46, 4, 4)] ++ rsv 60 64) (fun _ d s => match s.route (dRoute d) with
      | some r => [unitKey (headDie (epUnit r.sink)) (bitHead (headNo (epUnit r.sink))), unitKey (headDie (epUnit r.sink)) bitComposer]
      | none => []) commitRange notEmpty landCommit with lands := true }

/-- Read the degamma table of a LAYER_COLOUR (R183): 1,024 entries of 2 bytes. -/
def colourTable (q : RingId) (d : Desc) (s : State) : Except DmaErr (List Nat) × State :=
  if dget d 9 0 2 = 2 then
    match dmaRead q.fn.ep q.fn q.ring (dget d 40 0 64) 2048 2 s with
    | (.error e, s1) => (.error e, s1)
    | (.ok bs, s1) => (.ok ((upto 1024).map (fun i => ofLe ((bs.drop (2 * i)).take 2))), s1)
  else (.ok [], s)

def opLayerColour : OpSpec := .onRing 4 <|
  { mkOp 0x11 true ([(8, 4, 4), (9, 2, 6)] ++ rsv 10 16 ++ rsv 48 64) (fun _ d s => match s.route (dRoute d) with
      | some r => [unitKey (headDie (epUnit r.sink)) (bitHead (headNo (epUnit r.sink))), unitKey (headDie (epUnit r.sink)) bitComposer]
      | none => [])
     (fun _ d s => firstFail [
        (match s.route (dRoute d) with
         | some r => bad (r.kind != 1) 0x08 4
         | none => none),
        bad (decide (6 < dget d 8 0 4)) 0x08 8, bad (dget d 9 0 2 == 3) 0x08 9,
        bad (dget d 8 0 4 != 0 && dget d 16 0 192 != 0) 0x08 16,
        bad (if dget d 9 0 2 = 2 then dget d 40 0 6 != 0 else dget d 40 0 64 != 0) 0x08 40])
     notEmpty
     (fun t d s =>
       match s.route (dRoute d) with
       | none => (some (stNoRoute, 0), s)
       | some r =>
         match colourTable t.ring d s with
         | (.error e, s1) => (some e.completion, s1)
         | (.ok tb, s1) =>
           let h := epUnit r.sink
           let l := epSub r.sink
           let s2 := match ((s1.head h).layer l).pendColour with
             | some old => dropColour old s1
             | none => s1
           (none, s2 |> setLayer h l { (s2.head h).layer l with pendColour := some ⟨t, d, tb⟩ } |> refreshLayer h l)) with
    lands := true
    pre := fun q d s =>
      match colourTable q d s with
      | (.error e, s1) => (some e.completion, s1)
      | (.ok _, s1) => (none, s1) }

/-! ## Layers that are off (R152, R186) -/

/-- The layer is switched off for the rest of the frame. -/
def layerOff (s : State) (h l : Nat) : Bool :=
  let a := LAYER_STATUS (headDie h) (headNo h) l
  s.flag a LAYER_STATUS_OFF_UNDERRUN || s.flag a LAYER_STATUS_OFF_FAULT

/-- KIND of LAYER_FAULT (Table 6.7). -/
def faultKind : DmaErr → Nat
  | .xlate _ _ _ => 0
  | .ecc => 1
  | .peer => 2

/-- The owner of a layer: the grantee of its route. -/
def layerOwner (s : State) (h l : Nat) : Option Fun :=
  let y := (s.head h).layer l
  match s.route (if y.camera = 0 then y.route else y.camera) with
  | some r => some r.grantee
  | none => none

/-- An event of a head to PF0 and to the owner of a layer. -/
def postLayer (h l typ payload : Nat) (s : State) : State :=
  let d := headDie h
  let s1 := postPf0 d typ h payload s
  match layerOwner s h l with
  | some f => if f = pf0 d then s1 else post f ⟨typ, h, 1, s.now d, payload, d⟩ s1
  | none => s1

/-- A layer fetch fails: the layer is off for the rest of the frame, and LAYER_FAULT is posted (R186). -/
def layerFault (h l k frame : Nat) (e : DmaErr) (s : State) : State :=
  s |> wrB (LAYER_STATUS (headDie h) (headNo h) l) LAYER_STATUS_OFF_FAULT true
    |> postLayer h l 0x0280 (l + faultKind e * 2 ^ 8 + k % 2 ^ 16 * 2 ^ 16 + frame % 2 ^ 32 * 2 ^ 32)

/-! ## Layer window CRC (R187, R188) -/

/-- Pixels whose unit the window covers, row by row in source order; a YUYV pair once, at its even pixel. -/
def windowPixels (d : Desc) : List (Nat × Nat) :=
  (upto (cCrcY1 d + 1 - cCrcY0 d)).flatMap (fun j =>
    ((upto (cCrcX1 d + 1 - cCrcX0 d)).filter (fun i => cFmt d != 7 || (cCrcX0 d + i) % 2 == 0)).map (fun i => (cCrcX0 d + i, cCrcY0 d + j)))

/-- The plane-0 unit of a pixel: address and bytes. -/
def windowUnit (d : Desc) (p : Nat × Nat) : Nat × Nat :=
  if cFmt d = 7 then (cAddr 0 d + p.2 * cPitch 0 d + 4 * (p.1 / 2), 4) else (unitAddr d 0 p.1 p.2, unitBytes (cFmt d) 0)

/-- Rows of the mirrored and rotated source that the lines up to k reach: those that their taps touch, all with the last line that the
destination or the head has (DESIGN CHOICE, notes/assumptions/113.md). -/
def reach (d : Desc) (vactive k : Nat) : Nat :=
  let sh := (rotSize d).2
  let y : Int := (k : Int) - cDy d
  if vactive ≤ k + 1 ∨ (cDh d : Int) ≤ y + 1 then sh
  else if y < 0 then 0
  else ((tapsOf sh (cDh d) (cTap8 d) y).ws.map (fun w => w.1 + 1)).foldl max 0

/-- Units of the window that the lines up to k have to read. -/
def windowDue (d : Desc) (vactive k : Nat) : List (Nat × Nat) :=
  if cEn d ∧ cCrcEn d then
    let n := reach d vactive k
    ((windowPixels d).filter (fun p => decide (rotRow d p.1 p.2 < n))).map (windowUnit d)
  else []

/-- The whole window has been read. -/
def windowRead (d : Desc) (win : Tab (List Byte)) : Bool :=
  cEn d && cCrcEn d && (windowPixels d).all (fun p => (tfind (windowUnit d p).1 win).isSome)

/-- The check of one layer's window, once it was read whole from the buffer of one commit. -/
def windowCheck (h frame : Nat) (s : State) (l : Nat) : State :=
  let y := (s.head h).layer l
  match y.cur with
  | none => s
  | some c =>
    if windowRead c.desc y.win ∧ y.cut = false ∧ y.checked = false ∧ layerOff s h l = false then
      let crc := crc32c ((windowPixels c.desc).flatMap (fun p => (tfind (windowUnit c.desc p).1 y.win).getD []))
      let s1 := setLayer h l { y with checked := true } s
      if crc = dget c.desc 48 0 32 then s1
      else s1 |> satF (JCRC_MISMATCH_COUNT (headDie h) (headNo h)) JCRC_MISMATCH_COUNT_COUNT 1
              |> postLayer h l 0x0281 (l + frame % 2 ^ 32 * 2 ^ 32 + crc * 2 ^ 64 + dget c.desc 48 0 32 * 2 ^ 96)
    else s

def windowChecks (h frame : Nat) (s : State) : State := (upto 16).foldl (windowCheck h frame) s

/-! ## Commits take effect (R146–R151) -/

/-- The function whose layer this is is frozen: its commits stay pending (R146). -/
def layerFrozen (s : State) (y : Layer) : Bool :=
  match s.route y.route with
  | some r => frozen s r.grantee || freezing s r.grantee
  | none => false

/-- How a commit takes effect: in through mode, at a compose window, or at a line of a running pass. -/
inductive Take where
  | through
  | window
  | pass
deriving DecidableEq, Repr

/-- The buffer in force leaves use (R185, Table 6.5). -/
def releaseCur (h l frame line : Nat) (how : Take) (s : State) : State :=
  match ((s.head h).layer l).cur with
  | none => s
  | some c =>
    if cEn c.desc = false then s
    else
      match how, line with
      | .window, _ | .pass, 0 => postLast c.ticket 1 stOk (releaseDetail (s.head h).fed l false h) s
      | .through, _ => setHead h { s.head h with releases := (s.head h).releases ++ [⟨l, c.ticket, if line = 0 then frame - 1 else frame, stOk⟩] } s
      | .pass, _ => setHead h { s.head h with releases := (s.head h).releases ++ [⟨l, c.ticket, frame, stOk⟩] } s

/-- A part takes effect: DONE at once, or with line 0 of the pass that takes it (R147, R148). -/
def shownPart (h : Nat) (t : Ticket) (frame line : Nat) (how : Take) (s : State) : State :=
  match how with
  | .window => setHead h { s.head h with taken := (s.head h).taken ++ [t] } s
  | _ => finishPart t true (commitDetail frame line) s

/-- A commit that takes effect at a line does so part-way through its window: lines before it reach some row of the window. -/
def partWay (d : Desc) (vactive line : Nat) : Bool := decide (line ≠ 0) && windowDue d vactive (line - 1) != []

/-- The pending commits of a layer take effect (R147–R151). A window that was read whole from the commit that goes is checked (R188). -/
def takeLayer (h frame line : Nat) (how : Take) (s : State) (l : Nat) : State :=
  if layerFrozen s ((s.head h).layer l) then s
  else
    let y := (s.head h).layer l
    let s1 := match y.pend with
      | none => s
      | some c =>
        let s0 := releaseCur h l frame line how (if line = 0 then s else windowCheck h frame s l)
        s0 |> setLayer h l { (s0.head h).layer l with cur := some c, pend := none, cut := partWay c.desc (s.head h).vactive line,
                                                      win := [], rows := [] }
           |> shownPart h c.ticket frame line how
    let s2 := match y.pendColour with
      | none => s1
      | some c => s1 |> setLayer h l { (s1.head h).layer l with colour := some c, pendColour := none }
                     |> shownPart h c.ticket frame line how
    refreshLayer h l s2

/-- Some layer of the head has a commit that can take effect. -/
def anyPending (s : State) (h : Nat) : Bool :=
  (upto 16).any (fun l => let y := (s.head h).layer l; (y.pend.isSome || y.pendColour.isSome) && !layerFrozen s y)

/-- Every pending commit of the head takes effect. -/
def takeAll (h frame line : Nat) (how : Take) (s : State) : State := (upto 16).foldl (takeLayer h frame line how) s

/-- The last fetch of a replaced buffer completes: RELEASED is posted (R185). -/
def bufferRelease (h l : Nat) (s : State) : State :=
  match (s.head h).releases.find? (fun r => r.layer == l) with
  | none => s
  | some r => s |> setHead h { s.head h with releases := (s.head h).releases.erase r }
                |> postLast r.ticket 1 r.status (releaseDetail r.frame l false h)

/-! ## What a layer shows on a line (R162, R169–R172, R180, R190) -/

/-- Geometry of a layer that is drawn: source size after rotation, destination, clip, opaque, cost factor, and its commit. -/
structure Geo where
  sw : Nat
  sh : Nat
  dx : Int
  dy : Int
  dw : Nat
  dh : Nat
  cx0 : Int
  cy0 : Int
  cx1 : Int
  cy1 : Int
  opaque_ : Bool
  cost : Nat
  commit : Option Commit
deriving DecidableEq, Repr

/-- What layer l of a head draws, if it draws anything. -/
def layerGeo (s : State) (h l : Nat) : Option Geo :=
  let y := (s.head h).layer l
  let x := s.head h
  if layerOff s h l then none
  else if y.camera ≠ 0 then
    match s.route y.camera with
    | none => none
    | some r =>
      if y.camOn = false then none
      else
        let dw := pget r 42 0 16
        let dh := pget r 44 0 16
        let form := epType r.source
        some ⟨if form = 0x13 then dw else pget r 34 0 16, if form = 0x13 then dh else pget r 36 0 16,
          sgn 16 (pget r 38 0 16), sgn 16 (pget r 40 0 16), dw, dh, 0, 0, (x.hactive : Int) - 1, (x.vactive : Int) - 1, true, 1, none⟩
  else
    match y.cur, s.route y.route with
    | some c, some r =>
      if cEn c.desc then
        let (rw, rh) := rotSize c.desc
        some ⟨rw, rh, cDx c.desc, cDy c.desc, cDw c.desc, cDh c.desc, pget r 32 0 16, pget r 34 0 16, pget r 36 0 16, pget r 38 0 16,
          cBlend c.desc != 2 && cAlpha c.desc == 255 && (!hasAlpha (cFmt c.desc) || cIgnA c.desc),
          if cRot c.desc % 2 = 1 ∧ cQxt c.desc = false then 4 else 1, some c⟩
      else none
    | _, _ => none

/-- Output pixels of line k that the layer covers: first and last, if any (R162). -/
def coverage (x : Head) (g : Geo) (k : Nat) : Option (Int × Int) :=
  let y : Int := k
  let lo := max (max g.dx g.cx0) 0
  let hi := min (min (g.dx + g.dw - 1) g.cx1) ((x.hactive : Int) - 1)
  if g.dy ≤ y ∧ y < g.dy + g.dh ∧ g.cy0 ≤ y ∧ y ≤ g.cy1 ∧ k < x.vactive ∧ lo ≤ hi then some (lo, hi) else none

/-- Intervals less one interval. -/
def cutOut (i : Int × Int) (xs : List (Int × Int)) : List (Int × Int) :=
  (xs.map (fun x =>
    (if x.1 ≤ min x.2 (i.1 - 1) then [(x.1, min x.2 (i.1 - 1))] else []) ++
    (if max x.1 (i.2 + 1) ≤ x.2 then [(max x.1 (i.2 + 1), x.2)] else []))).flatten

/-- What of layer l is visible on line k: its coverage, less what opaque higher layers hide while OPAQUE_SKIP is 1 (R180). -/
def visible (s : State) (h l k : Nat) : List (Int × Int) :=
  let x := s.head h
  match layerGeo s h l with
  | none => []
  | some g =>
    match coverage x g k with
    | none => []
    | some i =>
      if s.flag (COMP_CFG (headDie h)) COMP_CFG_OPAQUE_SKIP then
        (upto 16).foldl (fun is m =>
          if m ≤ l then is
          else match layerGeo s h m with
            | none => is
            | some gm => if gm.opaque_ then (match coverage x gm k with
                                            | some j => cutOut j is
                                            | none => is) else is) [i]
      else [i]

/-- Load of line k as a fraction (R190). -/
def lineLoad (s : State) (h k : Nat) : Nat × Nat :=
  (upto 16).foldl (fun (acc : Nat × Nat) l =>
    match layerGeo s h l with
    | none => acc
    | some g =>
      let w := ((visible s h l k).map (fun i => (i.2 - i.1 + 1).toNat)).sum
      if w = 0 ∨ g.dh * g.dw = 0 then acc
      else (acc.1 * (g.dh * g.dw) + g.cost * g.sw * g.sh * w * acc.2, acc.2 * (g.dh * g.dw))) (0, 1)

/-- The layers that a line shows, each with the flight of its commit. -/
def lineShows (s : State) (h k : Nat) : List (Nat × Nat) :=
  ((upto 16).map (fun l =>
    match layerGeo s h l with
    | none => []
    | some g =>
      if visible s h l k = [] then []
      else match g.commit with
        | some c => [(l, c.ticket.tag)]
        | none => [(l, 0)])).flatten

/-- Overload and peak of a line (R190). -/
def chargeLine (h k frame : Nat) (s : State) : State :=
  let d := headDie h
  let (a, b) := lineLoad s h k
  let x := s.head h
  let tooMuch := decide (4000000 * s.rdF (PACE_STATUS d) PACE_STATUS_PACE * x.htotal * b < a * (1500 * ceilSum s d))
  let peak := max x.peak (a / b)
  let s1 := setHead h { x with peak := peak, overloaded := x.overloaded || tooMuch } s
  if tooMuch ∧ x.overloaded = false ∧ s.flag (COMP_CFG d) COMP_CFG_EV_OVERLOAD then
    postPf0 d 0x0282 h (min 0xFFFF peak + s.rdF (HEAD_LOAD d (headNo h)) HEAD_LOAD_BUDGET * 2 ^ 16 + frame % 2 ^ 32 * 2 ^ 32) s1
  else s1

/-! ## Fetching units (R162, R172) -/

/-- Read the units that are not in hand, in aligned 64-byte blocks, each block once; the first error ends it. `old` holds units that are
in hand, `got` what is gathered. -/
def readUnits (d : Die) (f : Fun) (ring port : Nat) (old : Tab (List Byte)) :
    List (Nat × Nat) → Tab (List Byte) → Tab (List Byte) → State → Except DmaErr (Tab (List Byte)) × State
  | [], _, got, s => (.ok got, s)
  | (a, n) :: t, bl, got, s =>
    let k := a / 64 * 64
    match tfind a got, tfind a old, tfind k bl with
    | some _, _, _ => readUnits d f ring port old t bl got s
    | none, some b, _ => readUnits d f ring port old t bl (tset a b got) s
    | none, none, some b => readUnits d f ring port old t bl (tset a ((b.drop (a - k)).take n) got) s
    | none, none, none =>
      match dmaReadP d f ring k 64 port s with
      | (.error e, s1) => (.error e, s1)
      | (.ok (_, true), s1) => (.error .ecc, s1)
      | (.ok (b, false), s1) => readUnits d f ring port old t (tset k b bl) (tset a ((b.drop (a - k)).take n) got) s1

/-- Source columns that the output pixels of an interval tap. -/
def tapCols (g : Geo) (tap8 : Bool) (i : Int × Int) : List Nat :=
  ((upto (i.2 + 1 - i.1).toNat).flatMap (fun (j : Nat) => (tapsOf g.sw g.dw tap8 (i.1 + j - g.dx)).ws.map (fun w => w.1))).eraseDups

/-- Units that the fetch of line k reads for the visible intervals of a commit (R162). -/
def lineUnits (d : Desc) (g : Geo) (k : Nat) (is : List (Int × Int)) : List (Nat × Nat) :=
  let rows := (tapsOf g.sh g.dh (cTap8 d) ((k : Int) - g.dy)).ws.map (fun w => w.1)
  is.flatMap (fun i => rows.flatMap (fun v => (tapCols g (cTap8 d) i).flatMap (fun u =>
    let p := unrotate d u v
    pixelUnits d p.1 p.2)))

/-- Stages 1 to 5 of a visible interval of a commit's line, from its units (Table 6.1). -/
def commitPart (l : Nat) (c : Commit) (y : Layer) (g : Geo) (k : Nat) (unit : Nat → List Byte) (i : Int × Int) : LinePart :=
  let d := c.desc
  let fmt := if y.preset = 0 then cFmt d else y.preset
  let rows := tapsOf g.sh g.dh (cTap8 d) ((k : Int) - g.dy)
  let px (u v : Nat) : Px := let p := unrotate d u v; pixelAt d unit p.1 p.2
  ⟨l, c.ticket.tag, i.1.toNat, cBlend d, (upto (i.2 + 1 - i.1).toNat).map (fun (j : Nat) =>
    planeAlpha (cBlend d) (cAlpha d) (cIgnA d)
      (layerColour y.colour (isYuv fmt) (fmtDepth fmt) (scaled (tapsOf g.sw g.dw (cTap8 d) (i.1 + j - g.dx)) rows px)))⟩

/-- The fetch of line k for a layer that a commit feeds: what it draws, and the CRC window as far as it has come (R162, R187). -/
def fetchCommit (h k frame l : Nat) (g : Geo) (c : Commit) (s : State) : List LinePart × State :=
  let y := (s.head h).layer l
  let is := visible s h l k
  let us := lineUnits c.desc g k is
  let due := (windowDue c.desc (s.head h).vactive k).filter (fun u => (tfind u.1 y.win).isNone)
  let old := if y.rowsOf = (c.ticket.tag, frame) then y.rows else []
  match readUnits (headDie h) c.ticket.fn c.ticket.ring.ring (2 + headNo h) old (us ++ due) [] [] s with
  | (.error e, s1) => ([], layerFault h l k frame e s1)
  | (.ok got, s1) =>
    let y1 := (s1.head h).layer l
    let y2 := { y1 with rows := got, rowsOf := (c.ticket.tag, frame), win := due.foldl (fun w u => tset u.1 ((tfind u.1 got).getD []) w) y1.win }
    (is.map (commitPart l c y2 g k (fun a => (tfind a got).getD [])), setLayer h l y2 s1)

/-- Layers that were off are shown again (R152, R186). -/
def layersOn (h : Nat) (s : State) : State :=
  (upto 16).foldl (fun t l =>
    t |> wrB (LAYER_STATUS (headDie h) (headNo h) l) LAYER_STATUS_OFF_UNDERRUN false
      |> wrB (LAYER_STATUS (headDie h) (headNo h) l) LAYER_STATUS_OFF_FAULT false) s

/-- What a layer holds of the frame or pass before. -/
def Layer.fresh (y : Layer) : Layer := { y with cut := false, rows := [], win := [], checked := false, camFrames := [] }

/-- A new frame or pass begins to be fetched. -/
def freshLayers (h : Nat) (s : State) : State :=
  layersOn h (setHead h { s.head h with layers := (s.head h).layers.map (fun x => (x.1, x.2.fresh)) } s)

/-- The preset matrices are formed for the formats of the layers (R174). -/
def formPresets (h : Nat) (s : State) : State :=
  setHead h { s.head h with layers := (s.head h).layers.map (fun x =>
    (x.1, { x.2 with preset := (x.2.cur.map (fun c => cFmt c.desc)).getD 0 })) } s

/-! ## HEAD_COLOUR (R176–R178) -/

/-- Entries of a table of n values of k bytes. -/
def tableOf (bs : List Byte) (n k : Nat) : List Nat := (upto n).map (fun i => ofLe ((bs.drop (k * i)).take k))

def opHeadColour : OpSpec :=
  mkOp 0x38 false ([(9, 4, 4), (10, 4, 4), (11, 0, 8), (15, 6, 2)] ++ rsv 32 64)
   (fun _ d _ => if dget d 8 0 8 < 8 then [unitKey (headDie (dget d 8 0 8)) (bitHead (headNo (dget d 8 0 8)))] else [])
   (fun q d s => firstFail [onlyPf0 q, onDie q 4 (dget d 8 0 8) 8,
      bad (decide (3 < dget d 9 0 4)) 0x08 9,
      bad (if dget d 9 0 4 = 0 then dget d 16 0 6 != 0 else dget d 16 0 64 != 0) 0x08 16,
      bad (if dget d 10 1 1 = 1 then dget d 24 0 6 != 0 else dget d 24 0 64 != 0) 0x08 24,
      bad ((s.head (dget d 8 0 8)).pendColour.isSome) 0x0A 8])
   notEmpty
   (fun t d s =>
    let h := dget d 8 0 8
    let rd (on : Bool) (va n : Nat) (s : State) : Except DmaErr (List Byte) × State :=
      if on then dmaRead t.die t.fn t.ring.ring va n (2 + headNo h) s else (.ok [], s)
    match rd (dget d 9 0 4 == 0) (dget d 16 0 64) 2048 s with
    | (.error e, s1) => (some e.completion, s1)
    | (.ok rg, s1) =>
      match rd (dget d 10 1 1 == 1) (dget d 24 0 64) 143748 s1 with
      | (.error e, s2) => (some e.completion, s2)
      | (.ok lut, s2) =>
        let c : HeadColour := ⟨d, tableOf rg (rg.length / 2) 2, tableOf lut (lut.length / 4) 4⟩
        (some (stOk, 0), s2 |> owe t |> setHead h { s2.head h with pendColour := some (t, c, 0), recompose := (s2.head h).recompose || !headThrough s2 h }
          |> wrB (HEAD_COLOUR_STATE (headDie h) (headNo h)) HEAD_COLOUR_STATE_PENDING true))

/-- A HEAD_COLOUR is in effect: registers, bank, FURTHER (R178). -/
def colourInEffect (h : Nat) (s : State) : State :=
  match (s.head h).pendColour with
  | none => s
  | some (t, c, _) =>
    let a := HEAD_COLOUR_STATE (headDie h) (headNo h)
    s |> setHead h { s.head h with colour := some c, pendColour := none }
      |> wrB a HEAD_COLOUR_STATE_PENDING false
      |> wrF a HEAD_COLOUR_STATE_BANK ((s.rdF a HEAD_COLOUR_STATE_BANK + dget c.desc 10 1 1) % 2)
      |> wrF a HEAD_COLOUR_STATE_LUT_EN (dget c.desc 10 1 1) |> wrF a HEAD_COLOUR_STATE_LIMITED (dget c.desc 10 0 1)
      |> wrF a HEAD_COLOUR_STATE_DITHER_EN (dget c.desc 10 2 1) |> wrF a HEAD_COLOUR_STATE_DITHER_MODE (dget c.desc 10 3 1)
      |> wrF a HEAD_COLOUR_STATE_REGAMMA (dget c.desc 9 0 4)
      |> wrF (HEAD_BACKGROUND (headDie h) (headNo h)) HEAD_BACKGROUND_COLOUR (dget c.desc 12 0 30)
      |> postLast t 2 stOk 0

/-! ## Meanings -/

def execLayerCommit (q : RingId) (desc : Desc) (s : State) : Host.Outcome State Fault Refusal := run (submit opLayerCommit q desc) s

def execLayerColour (q : RingId) (desc : Desc) (s : State) : Host.Outcome State Fault Refusal := run (submit opLayerColour q desc) s

def execHeadColour (q : RingId) (desc : Desc) (s : State) : Host.Outcome State Fault Refusal := run (submit opHeadColour q desc) s

def execBufferRelease (h layer : Nat) (s : State) : Host.Outcome State Fault Refusal := run (bufferRelease h layer) s

end Sys2Proof.Machine
end

