-- ==== Sys2Proof/Machine/Cameras.lean ====
section
/-! DEFINITION. Camera ports, streams, captures and the warp engine (chapter 8). -/
namespace Sys2Proof.Machine

def camDie (p : Nat) : Die := dieOf 4 p
def camNo (p : Nat) : Nat := p % 4
def CamPort.empty : CamPort := ⟨none, false, 0⟩
def Stream.empty : Stream := ⟨0, 0, [], 0, 0, 0, 0⟩
def Capture.empty : Capture := ⟨[], none, none, false, false, 0⟩
def Warp.empty : Warp := ⟨none, none, [], [], []⟩
def State.camPort (s : State) (p : Nat) : CamPort := tget CamPort.empty p s.camPorts
def setCamPort (p : Nat) (x : CamPort) (s : State) : State := { s with camPorts := tset p x s.camPorts }
def State.stream (s : State) (p v : Nat) : Stream := tget Stream.empty (4 * p + v) s.streams
def setStream (p v : Nat) (x : Stream) (s : State) : State := { s with streams := tset (4 * p + v) x s.streams }
def State.capture (s : State) (h : Nat) : Capture := tget Capture.empty h s.captures
def setCapture (h : Nat) (x : Capture) (s : State) : State := { s with captures := tset h x s.captures }
def State.warp (s : State) (d : Die) : Warp := tget Warp.empty d.idx s.warps
def setWarp (d : Die) (x : Warp) (s : State) : State := { s with warps := tset d.idx x s.warps }

/-! ## Routes (R220, R221) -/

/-- Form of a camera route (Table 8.2). -/
inductive CamForm where
  | a
  | b
  | c
  | d
  | e
deriving DecidableEq, Repr

def camForm (r : Route) : Option CamForm :=
  match epType r.source, epType r.sink with
  | 0x10, 0x01 => some .a
  | 0x10, 0x11 => some .b
  | 0x10, 0x12 => some .c
  | 0x13, 0x01 => some .d
  | 0xF0, 0x11 => some .e
  | _, _ => none

/-- Live routes whose source is the stream. -/
def streamRoutes (s : State) (p v : Nat) : List (Nat × Route) :=
  (routesOf s 2).filter (fun x => epType x.2.source == 0x10 && epUnit x.2.source == p && epSub x.2.source == v)

def rDt (r : Route) : Nat := pget r 32 0 8
def rWidth (r : Route) : Nat := pget r 34 0 16
def rHeight (r : Route) : Nat := pget r 36 0 16

/-- The form D route of a die's warp engine. -/
def warpOut (s : State) (d : Die) : Option (Nat × Route) :=
  (routesOf s 2).find? (fun x => epType x.2.source == 0x13 && epUnit x.2.source == d.idx)

/-- The route that feeds a warp input. -/
def warpInput (s : State) (d : Die) (i : Nat) : Option (Nat × Route) :=
  (routesOf s 2).find? (fun x => epType x.2.sink == 0x11 && epUnit x.2.sink == d.idx && epSub x.2.sink == i)

/-- The stream of a route, if its source is one. -/
def routeStream (r : Route) : Option (Nat × Nat) := if epType r.source = 0x10 then some (epUnit r.source, epSub r.source) else none

def streamLost (s : State) (p v : Nat) : Bool := s.flag (STREAM_STATUS (camDie p) (camNo p) v) STREAM_STATUS_LOST

/-- The stream on which a form A or D layer depends: for form D that of warp input 0 (R222). -/
def layerStream (s : State) (r : Route) : Option (Nat × Nat) :=
  if epType r.source = 0x13 then (warpInput s (camRouteDie r) 0).bind (fun x => routeStream x.2) else routeStream r

/-- Grantees of the routes that depend on a stream: its own, and the warp output that one of them feeds (R226, R238). -/
def dependents (s : State) (p v : Nat) : List Fun :=
  let rs := streamRoutes s p v
  let out := if rs.any (fun x => epType x.2.sink == 0x11) then
      (match warpOut s (camDie p) with
       | some x => [x.2.grantee]
       | none => [])
    else []
  (rs.map (fun x => x.2.grantee) ++ out).eraseDups

/-- An event of a stream to PF0 and the grantees that depend on it. -/
def postStream (p v typ payload : Nat) (s : State) : State :=
  let d := camDie p
  let s1 := postPf0 d typ p payload s
  ((dependents s p v).filter (fun f => f != pf0 d)).foldl (fun t f => post f ⟨typ, p, 1, t.now d, payload, d⟩ t) s1

/-- The line store, and what the warp engine's inputs are (R223, R232). -/
def refreshCamera (d : Die) (s : State) : State :=
  let used := (((routesOf s 2).filter (fun x => camForm x.2 == some .a && camRouteDie x.2 == d)).map (fun x => 16 * rWidth x.2 * 4)).sum
  let ins := (upto 4).map (fun i => warpInput s d i)
  let bits (p : (Nat × Route) → Bool) : Nat :=
    ((upto 4).map (fun i => if ((ins[i]?).getD none).any p then 2 ^ i else 0)).sum
  let span := s.rdF (WARP_STATUS d) WARP_STATUS_SPAN
  let live := (ins.filterMap (fun x => x)).filter (fun x => epType x.2.source == 0x10)
  s |> wrF (CAM_LINESTORE d) CAM_LINESTORE_USED_KIB (cdiv used 1024)
    |> wrF (WARP_STATUS d) WARP_STATUS_INPUTS_LIVE (bits (fun _ => true))
    |> wrF (WARP_STATUS d) WARP_STATUS_INPUTS_LOST (bits (fun x => (routeStream x.2).any (fun k => streamLost s k.1 k.2)))
    |> wrF (WARP_STORE d) WARP_STORE_USED_KIB (cdiv ((live.map (fun x => (span + 8) * rWidth x.2 * 4)).sum) 1024)

/-! ## Ports (R219) -/

/-- A camera port starts once the pace allows: it asks for leave. -/
def startCam (p : Nat) (s : State) : State :=
  if (s.camPort p).ticket.isSome ∧ (s.camPort p).started = false then
    s |> setCamPort p { s.camPort p with started := true } |> askLeave (camDie p) 3 (camNo p) true
  else s

/-- LANE_MAP carries logical lanes 0 to n − 1 on a permutation of those lanes. -/
def laneMapOk (n m : Nat) : Bool :=
  let ls := (upto n).map (fun i => bitsAt m (2 * i) 2)
  ls.all (fun x => decide (x < n)) && ls.eraseDups.length == n

def camRange (q : RingId) (d : Desc) (s : State) : Option (Nat × Nat) :=
  let p := dget d 8 0 8
  let a := CAM_PORT_CFG q.fn.ep (camNo p)
  let lanes := dget d 10 0 3
  firstFail [onlyPf0 q, onDie q 4 p 8,
    (if dget d 9 0 1 = 0 then firstFail [bad (dget d 9 1 1 != 0) 0x08 9, bad (lanes != 0) 0x08 10, bad (dget d 11 0 8 != 0) 0x08 11,
        bad (dget d 12 0 16 != 0) 0x08 12, bad (dget d 14 0 8 != 0) 0x08 14, bad (dget d 15 0 5 != 0) 0x08 15]
     else firstFail [bad (lanes == 0) 0x07 10, bad (dget d 11 0 8 == 0) 0x07 11,
        bad (lanes != 1 && lanes != 2 && lanes != 4) 0x08 10, bad (decide (dget d 12 0 16 < 80 ∨ 4500 < dget d 12 0 16)) 0x08 12,
        bad (!laneMapOk lanes (dget d 14 0 8)) 0x08 14, bad (s.flag a CAM_PORT_CFG_EN) 0x09 9])]

/-- A stream is lost: posted once, its camera layers go transparent (R226). -/
def loseStream (p v cause : Nat) (s : State) : State :=
  let d := camDie p
  let a := STREAM_STATUS d (camNo p) v
  if s.flag a STREAM_STATUS_LOST then s
  else
    let s1 := wrB a STREAM_STATUS_LOST true s
    let s2 := (routesOf s 2).foldl (fun t x =>
      if epType x.2.sink = 0x01 ∧ layerStream s x.2 = some (p, v) then
        setLayer (epUnit x.2.sink) (epSub x.2.sink) { (t.head (epUnit x.2.sink)).layer (epSub x.2.sink) with camOn := false } t
      else t) s1
    s2 |> refreshCamera d |> postStream p v 0x0401 (v + cause * 2 ^ 8)

/-- The receiver of a port stops: every stream is lost, and the floor falls afterwards. -/
def stopCam (p cause : Nat) (s : State) : State :=
  let d := camDie p
  let n := camNo p
  let s1 := match (s.camPort p).ticket with
    | some t => finish t stAbortedReset 0 s
    | none => s
  let s2 := s1 |> setCamPort p CamPort.empty |> dropLeave d 3 n
    |> wrB (CAM_PORT_CFG d n) CAM_PORT_CFG_EN false |> wr (CAM_PORT_STATUS d n) 0
    |> dropRaise d 2 p
  (upto 4).foldl (fun t v => loseStream p v cause t) s2 |> gateIdle d (bitCamera n) |> refreshFloor d

/-- CAM_PORT. With EN 0 the port is disabled at once, also under a secure claim (DESIGN CHOICE, notes/assumptions/110.md). -/
def opCamPort : OpSpec :=
  .crossing (fun q d _ => [(q.fn.ep, 0x49 + 8 * (dget d 8 0 8 % 4))]) <|
  mkOp 0x50 false ([(9, 2, 6), (10, 3, 5), (15, 5, 3)] ++ rsv 16 64)
   (fun _ d _ => if dget d 8 0 8 < 8 then [unitKey (camDie (dget d 8 0 8)) (bitCamera (camNo (dget d 8 0 8)))] else [])
   camRange notEmpty
   (fun t d s =>
    let p := dget d 8 0 8
    let e := t.die
    let n := camNo p
    if dget d 9 0 1 = 0 then (some (stOk, 0), if s.flag (CAM_PORT_CFG e n) CAM_PORT_CFG_EN then stopCam p 1 s else s)
    else
      let a := CAM_PORT_CFG e n
      let s1 := s |> wrB a CAM_PORT_CFG_EN true |> wrF a CAM_PORT_CFG_EV_FRAME (dget d 9 1 1) |> wrF a CAM_PORT_CFG_LANES (dget d 10 0 3)
        |> wrF a CAM_PORT_CFG_TIMEOUT_MS (dget d 11 0 8) |> wrF a CAM_PORT_CFG_MAX_MBPS (dget d 12 0 16)
        |> wrF (CAM_PORT_MAP e n) CAM_PORT_MAP_LANE_MAP (dget d 14 0 8) |> wrF (CAM_PORT_MAP e n) CAM_PORT_MAP_POL (dget d 15 0 5)
        |> setCamPort p { CamPort.empty with ticket := some t }
      (none, raiseFloor e ⟨2, p, some t, d, 0⟩ (startCam p) s1))

/-- Every lane is in the stop state: the port has used its leave, and the DONE is posted. -/
def camReady (p : Nat) (s : State) : State :=
  match (s.camPort p).ticket with
  | none => s
  | some t =>
    if (s.camPort p).started ∧ hasLeave s (camDie p) 3 (camNo p) then
      s |> setCamPort p { CamPort.empty with started := true } |> useLeave (camDie p) 3 (camNo p) |> setPowered (camDie p) (bitCamera (camNo p)) true
        |> wrB (CAM_PORT_STATUS (camDie p) (camNo p)) CAM_PORT_STATUS_READY true |> finish t stOk 0
    else s

/-- The port receives: enabled, ready, not quiesced. -/
def camReceives (s : State) (p : Nat) : Bool :=
  decide (p < 8) && s.flag (CAM_PORT_STATUS (camDie p) (camNo p)) CAM_PORT_STATUS_READY
    && !unitsStopped s [unitKey (camDie p) (bitCamera (camNo p))] && islandOut s (camDie p) (13 + camNo p)

/-- Lanes change state (Table 8.5, 0x4F). -/
def laneState (p : Nat) (clk : Bool) (hs ulps : Nat) (deskew : Bool) (s : State) : State :=
  let a := CAM_PORT_STATUS (camDie p) (camNo p)
  if 8 ≤ p ∨ s.flag (CAM_PORT_CFG (camDie p) (camNo p)) CAM_PORT_CFG_EN = false then s
  else s |> wrB a CAM_PORT_STATUS_CLK_ACTIVE clk |> wrF a CAM_PORT_STATUS_LANE_HS hs |> wrF a CAM_PORT_STATUS_LANE_ULPS ulps
         |> (if deskew then wrB a CAM_PORT_STATUS_DESKEW_DONE true else id)

def lanesLost (p : Nat) (s : State) : State :=
  if 8 ≤ p ∨ s.flag (CAM_PORT_CFG (camDie p) (camNo p)) CAM_PORT_CFG_EN = false then s
  else (upto 4).foldl (fun t v => loseStream p v 2 t) s

/-- A write of CAM_PORT_CLR (R239). -/
def portClear (f : Fun) (n : Nat) (v : Word) (s : State) : State :=
  let d := f.ep
  if 4 ≤ n ∨ (accessRow s f (addrOff (CAM_PORT_CLR d n))).isNone ∨ CAM_PORT_CLR_CLEAR.get v = 0 then s
  else
    let s1 := s |> wr (CAM_PORT_ERR0 d n) 0 |> wr (CAM_PORT_ERR1 d n) 0 |> wr (CAM_PORT_ERR2 d n) 0
    (upto 4).foldl (fun t v => t |> wr (STREAM_ERR0 d n v) 0 |> wr (STREAM_ERR1 d n v) 0) s1

/-! ## What a camera layer shows (R221–R226, R232–R236) -/

/-- The frame of a stream that a head frame shows: the one that is being received, else the next (DEDUCED, notes/assumptions/115.md). -/
def streamFrameNow (s : State) (p v : Nat) : Nat :=
  s.rd64 (STREAM_FRAME_LO (camDie p) (camNo p) v) + b2n (!s.flag (STREAM_STATUS (camDie p) (camNo p) v) STREAM_STATUS_IN_FRAME)

/-- The newest n of a list. -/
def newest {α : Type} (n : Nat) (xs : List α) : List α := xs.drop (xs.length - n)

/-- A line of a frame, if the store holds it. -/
def heldLine (st : List CamLine) (frame n : Nat) : Option CamLine := st.find? (fun c => c.frame == frame && c.line == n)

/-- SPACE of a camera layer has a limited range. -/
def rLimited (r : Route) : Bool := pget r 33 4 4 == 3 || pget r 33 4 4 == 5
def rMirror (r : Route) : Bool := pget r 33 1 1 == 1

/-- Samples cut at WIDTH, or padded by repeating the last pixel; of YUV422, with the chroma of its pair (R218). -/
def fitLine (dt width : Nat) (xs : List Nat) : List Nat :=
  if dtYuv dt then
    let n := xs.length
    let px := n / 2
    if px = 0 then []
    else
      -- the pair of the last pixel, complete: an odd last pixel is repeated within it
      let i := (px - 1) / 2
      let at_ (k : Nat) : Nat := xs.getD k 0
      let cr := if 4 * i + 2 < n then at_ (4 * i + 2) else at_ (4 * i)
      let y := at_ (2 * px - 1)
      let whole := if px % 2 = 0 then xs.take (2 * px) else xs.take (4 * i) ++ [at_ (4 * i), at_ (4 * i + 1), cr, y]
      (whole ++ (List.replicate (width / 2 + 1) [at_ (4 * i), y, cr, y]).flatten).take (2 * width)
  else (xs ++ List.replicate (width - xs.length) ((xs.getLast?).getD 0)).take width

/-- Samples of a line as wide as a route; none: black. -/
def routeLine (r : Route) (c : Option CamLine) : List Nat :=
  match c with
  | some x => if x.px = [] then [] else fitLine (rDt r) (rWidth r) x.px
  | none => []

/-- A part of a camera layer: `px` gives its pixels at stage 2, by output column of the layer. -/
def cameraPart (l : Nat) (g : Geo) (r : Route) (dt : Nat) (px : Nat → Px) (i : Int × Int) : LinePart :=
  ⟨l, 0, i.1.toNat, 0, (upto (i.2 + 1 - i.1).toNat).map (fun (j : Nat) => cameraSrc (pget r 33 4 4) dt (px (i.1 + j - g.dx).toNat))⟩

/-- Line k of a form A layer; none while a camera line that it needs is not in the store (R224). -/
def streamParts (s : State) (h k l : Nat) (g : Geo) (r : Route) (is : List (Int × Int)) : Option (List LinePart) :=
  let tap8 := pget r 33 0 1 == 1
  let w := rWidth r
  let rows := tapsOf g.sh g.dh tap8 ((k : Int) - g.dy)
  let line (n : Nat) : Option CamLine := heldLine (s.stream (epUnit r.source) (epSub r.source)).store (tget 0 0 ((s.head h).layer l).camFrames) n
  if rows.ws.all (fun v => (line v.1).isSome) then
    let px (u n : Nat) : Px := camPx (rDt r) w (rLimited r) (routeLine r (line n)) (if rMirror r then w - 1 - u else u)
    some (is.map (cameraPart l g r (rDt r) (fun x => scaled (tapsOf g.sw g.dw tap8 x) rows px)))
  else none

/-- The route of a warp input that gives pixels: a stream that is not lost, or a memory frame in effect; every other reads black. -/
def warpSource (s : State) (d : Die) (i : Nat) : Option Route :=
  match warpInput s d i with
  | none => none
  | some (_, r) =>
    match routeStream r with
    | some (p, v) => if streamLost s p v then none else some r
    | none => if (tfind i (s.warp d).frames).isSome then some r else none

/-- DT of the warp output: that of the live inputs, else of the first input (R232). -/
def warpDt (s : State) (d : Die) : Nat :=
  let rs := (upto 4).filterMap (fun i => (warpInput s d i).map (fun x => x.2))
  (((rs.filter (fun r => epType r.source == 0x10)) ++ rs).map rDt).headD 0x24

/-- What output columns of line y sample: input, column and row taps, and weight, by column (R232). -/
def warpSamples (s : State) (d : Die) (m : Mesh) (g : Geo) (r : Route) (y x : Nat) : List (Nat × Taps × Taps × Nat) :=
  let size (i : Nat) : Nat × Nat := match warpInput s d i with
    | some (_, q) => (rWidth q, rHeight q)
    | none => (1, 1)
  meshSamples m g.dw g.dh size (if rMirror r then g.dw - 1 - x else x) y

/-- Layer columns of the visible intervals. -/
def shownCols (g : Geo) (is : List (Int × Int)) : List Nat :=
  is.flatMap (fun i => (upto (i.2 + 1 - i.1).toNat).map (fun (j : Nat) => (i.1 + j - g.dx).toNat))

/-- The live inputs hold every line that the samples need (R236). -/
def warpReady (s : State) (d : Die) (frames : Tab Nat) (ss : List (Nat × Taps × Taps × Nat)) : Bool :=
  ss.all (fun z => match warpSource s d z.1 with
    | some q => epType q.source != 0x10 || z.2.2.1.ws.all (fun v => (heldLine (tget [] z.1 (s.warp d).stores) (tget 0 z.1 frames) v.1).isSome)
    | none => true)

/-- Address of a line of the memory frame in use of an input. -/
def frameLine (s : State) (d : Die) (i n : Nat) : Nat :=
  match tfind i (s.warp d).frames with
  | some (_, x) => dget x 8 0 64 + n * dget x 16 0 16 * 64
  | none => 0

/-- Read what the samples need of the memory frame of an input (R235). -/
def readFrame (d : Die) (ss : List (Nat × Taps × Taps × Nat)) (acc : Except DmaErr (Tab (Tab (List Byte))) × State) (i : Nat) :
    Except DmaErr (Tab (Tab (List Byte))) × State :=
  let s := acc.2
  match acc.1, warpSource s d i, tfind i (s.warp d).frames with
  | .ok got, some q, some (t, _) =>
    if epType q.source = 0x10 then acc
    else
      let us := (ss.filter (fun z => z.1 == i)).flatMap (fun z => z.2.2.1.ws.flatMap (fun v => z.2.1.ws.flatMap (fun u =>
        memUnits (rDt q) (rWidth q) (frameLine s d i v.1) u.1)))
      match readUnits d t.fn t.ring.ring 7 [] us [] [] s with
      | (.error e, s1) => (.error e, s1)
      | (.ok g, s1) => (.ok (tset i g got), s1)
  | _, _, _ => acc

/-- A pixel of a warp input, black where it gives none. -/
def inputPx (s : State) (d : Die) (frames : Tab Nat) (mem : Tab (Tab (List Byte))) (black : Px) (i u v : Nat) : Px :=
  match warpSource s d i with
  | none => black
  | some q =>
    if epType q.source = 0x10 then
      camPx (rDt q) (rWidth q) false (routeLine q (heldLine (tget [] i (s.warp d).stores) (tget 0 i frames) v)) u
    else memPx (rDt q) (rWidth q) (frameLine s d i v) (fun a => (tfind a (tget [] i mem)).getD []) u

/-- Line k of a form D layer: black until a mesh is in force; none while a line that a live input has to give is not in the store. -/
def warpParts (s : State) (h k l : Nat) (g : Geo) (r : Route) (is : List (Int × Int)) : Except DmaErr (Option (List LinePart)) × State :=
  let d := camRouteDie r
  let dt := warpDt s d
  let black := blackPx dt (rLimited r)
  let frames := ((s.head h).layer l).camFrames
  match (s.warp d).mesh with
  | none => (.ok (some (is.map (cameraPart l g r dt (fun _ => px16 black)))), s)
  | some m =>
    let at_ := warpSamples s d m g r ((k : Int) - g.dy).toNat
    let ss := (shownCols g is).flatMap at_
    if warpReady s d frames ss then
      match (upto 4).foldl (readFrame d ss) (.ok [], s) with
      | (.error e, s1) => (.error e, s1)
      | (.ok mem, s1) => (.ok (some (is.map (cameraPart l g r dt (fun x => warpPx g.dw g.dh (at_ x) (inputPx s1 d frames mem black))))), s1)
    else (.ok none, s)

/-- The first line of a head frame that shows a camera layer fixes the stream frames it shows. -/
def latchFrames (h l : Nat) (r : Route) (s : State) : State :=
  let y := (s.head h).layer l
  if y.camFrames ≠ [] then s
  else
    let of (i : Nat) (q : Route) : Tab Nat := match routeStream q with
      | some (p, v) => [(i, streamFrameNow s p v)]
      | none => []
    setLayer h l { y with camFrames := if epType r.source = 0x13 then (upto 4).flatMap (fun i => match warpInput s (camRouteDie r) i with
                                          | some (_, q) => of i q
                                          | none => [])
                                        else of 0 r } s

/-- The fetch of line k for a layer that a camera route feeds: its parts, and whether it has to wait (R224, R235, R236). -/
def fetchCamera (h k frame l : Nat) (g : Geo) (s : State) : List LinePart × Bool × State :=
  match s.route ((s.head h).layer l).camera, visible s h l k with
  | none, _ => ([], false, s)
  | _, [] => ([], false, s)
  | some r, is =>
    let s1 := latchFrames h l r s
    if epType r.source = 0x13 then
      match warpParts s1 h k l g r is with
      | (.error e, s2) => ([], false, layerFault h l k frame e s2)
      | (.ok (some ps), s2) => (ps, false, s2)
      | (.ok none, s2) => ([], true, s2)
    else
      match streamParts s1 h k l g r is with
      | some ps => (ps, false, s1)
      | none => ([], true, s1)

/-- A layer's wait on a line is tried again: its parts join the line once every camera line that it needs is there. -/
def retryWait (h : Nat) (s : State) (z : Nat × Nat) : State :=
  match tfind z.1 (s.head h).ahead, layerGeo s h z.2 with
  | some x, some g =>
    if x.waits.contains z.2 ∧ g.commit.isNone then
      match fetchCamera h z.1 x.frame z.2 g s with
      | (ps, false, s1) =>
        let x1 := { x with waits := x.waits.erase z.2,
                           parts := x.parts.filter (fun p => p.layer < z.2) ++ ps ++ x.parts.filter (fun p => z.2 < p.layer) }
        setHead h { s1.head h with ahead := tset z.1 x1 (s1.head h).ahead } s1
      | (_, true, s1) => s1
    else s
  | _, _ => s

/-- Every wait of the heads of a die is tried again. -/
def retryWaits (d : Die) (s : State) : State :=
  (upto 4).foldl (fun t n =>
    let h := 4 * d.idx + n
    ((t.head h).ahead.flatMap (fun x => x.2.waits.map (fun l => (x.1, l)))).foldl (retryWait h) t) s

/-! ## Frames and lines (R218, R223, R225, R231) -/

/-- The form C route of a stream. -/
def captureRoute (s : State) (p v : Nat) : Option (Nat × Route) := (streamRoutes s p v).find? (fun x => camForm x.2 == some .c)

/-- DETAIL of a capture completion (R231). -/
def captureDetail (frame : Nat) (short lineErr missing : Bool) (dropped : Nat) : Nat :=
  frame % 4096 * 4096 + b2n short * 2048 + b2n lineErr * 1024 + b2n missing * 512 + min 0xFF dropped

/-- A line enters the line stores of the routes that take the stream (R223, R232): the newest 16 lines, and for a warp input the newest
SPAN + 8. Fetches that waited for it go on. `px` gives its samples from the store that it enters. -/
def storeLine (p v n : Nat) (px : List CamLine → List Nat) (s : State) : State :=
  let d := camDie p
  let fr := s.rd64 (STREAM_FRAME_LO d (camNo p) v)
  let enter (keep : Nat) (st : List CamLine) : List CamLine := newest keep (st ++ [⟨fr, n, px st⟩])
  ((streamRoutes s p v).foldl (fun t x =>
    match camForm x.2 with
    | some .a => setStream p v { t.stream p v with store := enter 16 (t.stream p v).store } t
    | some .b =>
      let i := epSub x.2.sink
      setWarp d { t.warp d with stores := tset i (enter (s.rdF (WARP_STATUS d) WARP_STATUS_SPAN + 8) (tget [] i (t.warp d).stores)) (t.warp d).stores } t
    | _ => t) s) |> retryWaits d

/-- A missing line repeats the line before it of the same frame, or is black (R225). -/
def lineBefore (s : State) (p v n : Nat) (st : List CamLine) : List Nat :=
  if n = 0 then [] else ((heldLine st (s.rd64 (STREAM_FRAME_LO (camDie p) (camNo p) v)) (n - 1)).map (fun c => c.px)).getD []

/-- Lines lost are filled in (R225). -/
def fillMissing (p v : Nat) (s : State) : State :=
  let x := s.stream p v
  if x.lost = 0 then s
  else
    let s0 := (upto x.lost).foldl (fun t i => storeLine p v (x.lines + i) (lineBefore s p v (x.lines + i)) t) s
    let s1 := s0 |> setStream p v { s0.stream p v with lines := x.lines + x.lost, lost := 0, missing := x.missing + x.lost }
                 |> satF (STREAM_ERR0 (camDie p) (camNo p) v) STREAM_ERR0_MISSING_LINES x.lost
    match captureRoute s p v with
    | some (h, _) => if (s1.capture h).filling.isSome then setCapture h { s1.capture h with missing := true } s1 else s1
    | none => s1

/-- Uncorrectable headers of no stream's frame are posted at a frame end of the port, under 0xFF (R238). -/
def postPortErrors (p : Nat) (s : State) : State :=
  let n := (s.camPort p).ecc
  if n = 0 then s else s |> setCamPort p { s.camPort p with ecc := 0 } |> postPf0 (camDie p) 0x0403 p (0xFF + min 0xFFFF n * 2 ^ 32)

/-- The stream frame ends, whole or short (R218). -/
def endFrame (p v : Nat) (s0 : State) : State :=
  let s := fillMissing p v s0
  let d := camDie p
  let n := camNo p
  let x := s.stream p v
  let a := STREAM_STATUS d n v
  let height := match streamRoutes s p v with
    | (_, r) :: _ => rHeight r
    | [] => 0
  let short := decide (x.lines < height)
  let s1 := s |> wrB a STREAM_STATUS_IN_FRAME false |> wrF a STREAM_STATUS_LINES x.lines
              |> (if short then satF (STREAM_ERR1 d n v) STREAM_ERR1_SHORT_FRAMES 1 else id)
  let s2 := if x.eccUncorr + x.crcErr + x.lenErr + x.missing = 0 then s1
    else postPf0 d 0x0403 p (v + min 0xFFFF x.eccUncorr * 2 ^ 32 + min 0xFFFF x.crcErr * 2 ^ 48 + min 0xFFFF x.lenErr * 2 ^ 64 + min 0xFFFF x.missing * 2 ^ 80) s1
  let s3 := s2 |> setStream p v { x with eccUncorr := 0, crcErr := 0, lenErr := 0, missing := 0 } |> postPortErrors p
  match captureRoute s3 p v with
  | none => s3
  | some (h, r) =>
    let c := s3.capture h
    match c.filling with
    | none => s3
    | some (t, _) =>
      let dt := captureDetail (s3.rd64 (STREAM_FRAME_LO d n v)) (decide (x.lines < rHeight r)) c.lineErr c.missing c.dropped
      let (st, det) := c.failed.getD (stOk, dt)
      s3 |> setCapture h { c with filling := none, failed := none, lineErr := false, missing := false, dropped := 0 } |> finish t st det

/-- The header of a packet (R218): 1 corrected; 2 uncorrectable, or 3 lost to a SoT error: the packet is gone. -/
def headerSeen (p header : Nat) (s : State) : State :=
  let d := camDie p
  let n := camNo p
  if header = 1 then satF (CAM_PORT_ERR0 d n) CAM_PORT_ERR0_ECC_CORR 1 s
  else if header = 2 then s |> satF (CAM_PORT_ERR0 d n) CAM_PORT_ERR0_ECC_UNCORR 1 |> rinlarCount d 65 1
  else if header = 3 then satF (CAM_PORT_ERR1 d n) CAM_PORT_ERR1_SOT_ERR 1 s
  else s

/-- A short packet that is gone: of an uncorrectable header the port keeps count. -/
def shortGone (p header : Nat) (s : State) : State :=
  let s1 := headerSeen p header s
  if header = 2 then setCamPort p { s1.camPort p with ecc := (s1.camPort p).ecc + 1 } s1 else s1

/-- A Frame Start, once the route changes of the stream have taken effect: `changes` applies them, and `brings` what the frame start
means elsewhere. -/
def frameBegins (p v : Nat) (changes brings : State → State) (s : State) : State :=
  let d := camDie p
  let n := camNo p
  let a := STREAM_STATUS d n v
  if camReceives s p = false ∨ 4 ≤ v then s
  else if streamRoutes s p v = [] then satF (CAM_PORT_ERR2 d n) CAM_PORT_ERR2_UNROUTED 1 s
  else
    let s1 := if s.flag a STREAM_STATUS_IN_FRAME then endFrame p v s else s
    let s2 := changes s1
    let back := s2.flag a STREAM_STATUS_LOST
    let s3 := s2 |> add64 (STREAM_FRAME_LO d n v) 1 |> wrB a STREAM_STATUS_IN_FRAME true |> wrB a STREAM_STATUS_LOST false
                 |> setStream p v { Stream.empty with store := (s2.stream p v).store } |> refreshCamera d
    let s4 := if back then postStream p v 0x0402 v s3 else s3
    let fr := s4.rd64 (STREAM_FRAME_LO d n v)
    let s5 := if s4.flag (CAM_PORT_CFG d n) CAM_PORT_CFG_EV_FRAME then
        (((streamRoutes s4 p v).filter (fun x => camForm x.2 == some .a || camForm x.2 == some .c)).map (fun x => x.2.grantee)).eraseDups.foldl
          (fun t f => post f ⟨0x0400, p, 1, t.now d, v + fr % 2 ^ 32 * 2 ^ 32, d⟩ t) s4
      else s4
    let s6 := brings s5
    match captureRoute s6 p v with
    | none => s6
    | some (h, r) =>
      let c := s6.capture h
      if frozen s6 r.grantee ∨ freezing s6 r.grantee then s6
      else match c.posted with
      | [] => setCapture h { c with dropped := c.dropped + 1 } s6
      | b :: rest => setCapture h { c with posted := rest, filling := some b, failed := none, lineErr := false, missing := false } s6

/-- A line as it lies in memory (Table 8.1): YUV422 reordered from Cb, Y, Cr, Y. -/
def lineBytes (dt : Nat) : List Nat → List Byte
  | cb :: y0 :: cr :: y1 :: t =>
    if dtYuv dt then
      (if dt = 0x1E then [y0, cb, y1, cr].map (fun v => BitVec.ofNat 8 v)
       else ([y0, cb, y1, cr].map (fun v => leBytes 2 (v % 1024 * 64))).flatten) ++ lineBytes dt t
    else (([cb, y0, cr, y1].map (fun v => leBytes (dtBytes dt) (v % 2 ^ (if dt = 0x24 then 24 else if dt = 0x2B then 10 else if dt = 0x2C then 12 else 8)))).flatten)
         ++ lineBytes dt t
  | xs =>
    if dtYuv dt then []
    else (xs.map (fun v => leBytes (dtBytes dt) (v % 2 ^ (if dt = 0x24 then 24 else if dt = 0x2B then 10 else if dt = 0x2C then 12 else 8)))).flatten

/-- One row of a capture (R230, R231): the first fault stops the frame's writing. -/
def captureRow (p v y : Nat) (dt : Nat) (xs : List Nat) (lineErr : Bool) (s : State) : State :=
  match captureRoute s p v with
  | none => s
  | some (h, r) =>
    let c := s.capture h
    match c.filling with
    | none => s
    | some (t, d) =>
      let s1 := if lineErr then setCapture h { c with lineErr := true } s else s
      if c.failed.isSome ∨ rHeight r ≤ y then s1
      else
        match dmaWrite (camDie p) r.grantee t.ring.ring (dget d 8 0 64 + y * dget d 16 0 16 * 64) (lineBytes dt (fitLine dt (rWidth r) xs)) s1 with
        | (none, s2) => s2
        | (some e, s2) => setCapture h { s2.capture h with failed := some e.completion } s2

/-- A camera long packet (R217, R218). -/
def camPacket (p v : Nat) (k : CamPacket) (s : State) : State :=
  let d := camDie p
  let n := camNo p
  if camReceives s p = false ∨ 4 ≤ v then s
  else
    let s0 := headerSeen p k.header s
    if 2 ≤ k.header then
      let x := s0.stream p v
      if s0.flag (STREAM_STATUS d n v) STREAM_STATUS_IN_FRAME then
        setStream p v { x with lost := x.lost + 1, eccUncorr := if k.header = 2 then x.eccUncorr + 1 else x.eccUncorr } s0
      else if k.header = 2 then setCamPort p { s0.camPort p with ecc := (s0.camPort p).ecc + 1 } s0
      else s0
    else
      match streamRoutes s0 p v with
      | [] => satF (CAM_PORT_ERR2 d n) CAM_PORT_ERR2_UNROUTED 1 s0
      | (_, r) :: _ =>
        if k.dt ≠ rDt r then satF (CAM_PORT_ERR2 d n) CAM_PORT_ERR2_OTHER_DT 1 s0
        else if s0.flag (STREAM_STATUS d n v) STREAM_STATUS_IN_FRAME = false then s0
        else
          let s1 := fillMissing p v s0
          let x := s1.stream p v
          if rHeight r ≤ x.lines then satF (STREAM_ERR1 d n v) STREAM_ERR1_EXTRA_LINES 1 s1
          else
            let len := if dtYuv k.dt then k.samples.length / 2 else k.samples.length
            let lenBad := len != rWidth r
            let s2 := s1 |> (if k.crcBad then fun t => t |> satF (CAM_PORT_ERR1 d n) CAM_PORT_ERR1_CRC_ERR 1 |> rinlarCount d 65 1 else id)
                         |> (if lenBad then satF (STREAM_ERR0 d n v) STREAM_ERR0_LINE_LEN_ERR 1 else id)
                         |> wrF (STREAM_STATUS d n v) STREAM_STATUS_DT k.dt
            s2 |> setStream p v { x with lines := x.lines + 1, crcErr := x.crcErr + b2n k.crcBad, lenErr := x.lenErr + b2n lenBad }
               |> storeLine p v x.lines (fun _ => k.samples)
               |> captureRow p v x.lines k.dt k.samples (k.crcBad || lenBad)

/-- A Frame End; it is taken while the port is quiesced too: captures complete (Table 17.4). -/
def frameEnds (p v header : Nat) (s : State) : State :=
  let d := camDie p
  let n := camNo p
  if p < 8 ∧ s.flag (CAM_PORT_STATUS d n) CAM_PORT_STATUS_READY ∧ unitReset s d (bitCamera n) = false ∧ islandOut s d (13 + n) ∧ v < 4 then
    if 2 ≤ header then shortGone p header s
    else
      let s1 := headerSeen p header s
      if streamRoutes s1 p v = [] then satF (CAM_PORT_ERR2 d n) CAM_PORT_ERR2_UNROUTED 1 s1
      else if s1.flag (STREAM_STATUS d n v) STREAM_STATUS_IN_FRAME then endFrame p v s1
      else s1
  else s

/-- No Frame Start for TIMEOUT_MS. -/
def streamTimeout (p v : Nat) (s : State) : State :=
  if 8 ≤ p ∨ 4 ≤ v ∨ s.flag (CAM_PORT_CFG (camDie p) (camNo p)) CAM_PORT_CFG_EN = false then s else loseStream p v 0 s

/-! ## CAMERA ring (R229–R235) -/

/-- The route of a descriptor has a form, else reason 0x08. -/
def needForm (f : CamForm) (d : Desc) (s : State) : Option (Nat × Nat) :=
  match s.route (dRoute d) with
  | none => none
  | some r => bad (r.kind != 2 || camForm r != some f) 0x08 4

/-- ADDR and PITCH of a frame buffer (R230). -/
def bufferRange (d : Desc) (s : State) : Option (Nat × Nat) :=
  match s.route (dRoute d) with
  | none => none
  | some r => firstFail [bad (dget d 8 0 6 != 0 || decide (2 ^ 48 ≤ dget d 8 0 64)) 0x08 8,
      bad (decide (dget d 16 0 16 * 64 < rWidth r * dtBytes (rDt r))) 0x08 16]

def camUnits (d : Desc) (s : State) : List Nat :=
  match s.route (dRoute d) with
  | none => []
  | some r => if epType r.source = 0x10 then [unitKey (camRouteDie r) (bitCamera (camNo (epUnit r.source)))] else [unitKey (camRouteDie r) bitWarp]

def opCapBuffer : OpSpec := .onRing 5 <|
  { mkOp 0x10 true (rsv 18 64) (fun _ d s => camUnits d s) (fun _ d s => andThen (needForm .c d s) (bufferRange d s)) notEmpty
     (fun t d s => (none, setCapture (dRoute d) { s.capture (dRoute d) with posted := (s.capture (dRoute d)).posted ++ [(t, d)] } s)) with
    defer := fun _ d s => decide (8 ≤ (s.capture (dRoute d)).posted.length + b2n (s.capture (dRoute d)).filling.isSome) }

/-- The header, the vertices and the cells of a mesh are right (R232, R234). -/
def meshOk (m : List Byte) (len : Nat) : Bool :=
  let gx := ofLe ((m.drop 4).take 2)
  let gy := ofLe ((m.drop 6).take 2)
  let inOk (v : Nat) : Bool := decide (v < 4) || v == 0xFF
  ofLe (m.take 4) == 0x5158574D && decide (2 ≤ gx ∧ gx ≤ 129 ∧ 2 ≤ gy ∧ gy ≤ 129) && len == 16 + 16 * gx * gy
    && ofLe ((m.drop 12).take 4) == 0 && ofLe ((m.drop 8).take 4) == crc32c (m.drop 16)
    && (upto gy).all (fun j => (upto gx).all (fun i =>
        let in1 := vtx m gx i j 9 1
        let w := vtx m gx i j 10 2
        vtx m gx i j 12 4 == 0 && inOk (vtx m gx i j 8 1) && inOk in1 && decide (w ≤ 256) && (in1 != 0xFF || w == 256)))
    && (upto (gy - 1)).all (fun j => (upto (gx - 1)).all (fun i =>
        let k := vtx m gx i j 8 2
        vtx m gx (i + 1) j 8 2 == k && vtx m gx i (j + 1) 8 2 == k && vtx m gx (i + 1) (j + 1) 8 2 == k))

/-- V of input s at the two vertex columns of a cell on output line y, over 16 n, where its weight is not zero (R233). `n` is DST_H − 1. -/
def cellLines (m : List Byte) (gx gy n s y i : Nat) : List Nat :=
  let pos := y * (gy - 1)
  let j := min (gy - 2) (pos / n)
  let r := pos - j * n
  let mix (c off : Nat) : Nat := vtx m gx c j off 2 * (n - r) + vtx m gx c (j + 1) off 2 * r
  let v (off : Nat) : List Nat := [mix i off, mix (i + 1) off]
  let in0 := vtx m gx i j 8 1
  let in1 := vtx m gx i j 9 1
  let w0 := mix i 10 + mix (i + 1) 10
  (if in0 = s ∧ w0 ≠ 0 then v 2 else []) ++ (if in1 = s ∧ w0 ≠ 2 * 256 * n then v 6 else [])

/-- lo and hi of input s on output line y: at a whole V the second tap has no weight, and is not counted. -/
def lineBounds (m : List Byte) (gx gy n s y : Nat) : Option (Nat × Nat) :=
  match ((upto (gx - 1)).map (fun i => cellLines m gx gy n s y i)).flatten with
  | [] => none
  | x :: xs => some (xs.foldl min x / (16 * n), cdiv (xs.foldl max x) (16 * n))

/-- SPAN over one input, from the last output line upward, with lo* so far. -/
def spanUp (m : List Byte) (gx gy n s : Nat) : Nat → Option Nat → Nat → Nat
  | 0, _, best => best
  | y + 1, lo, best =>
    match lineBounds m gx gy n s y with
    | none => spanUp m gx gy n s y lo best
    | some (l, h) =>
      let l1 := match lo with
        | some k => min k l
        | none => l
      spanUp m gx gy n s y (some l1) (max best (h + 1 - l1))

/-- SPAN of a mesh over the live inputs (R233). -/
def meshSpan (s : State) (d : Die) (m : List Byte) (dstH : Nat) : Nat :=
  let gx := ofLe ((m.drop 4).take 2)
  let gy := ofLe ((m.drop 6).take 2)
  ((upto 4).map (fun i =>
    match warpInput s d i with
    | some x => if epType x.2.source = 0x10 then spanUp m gx gy (dstH - 1) i dstH none 0 else 0
    | none => 0)).foldl max 0

/-- Line store that the live inputs take at a span. -/
def warpBytes (s : State) (d : Die) (span : Nat) : Nat :=
  ((upto 4).map (fun i =>
    match warpInput s d i with
    | some x => if epType x.2.source = 0x10 then (span + 8) * rWidth x.2 * 4 else 0
    | none => 0)).sum

def opWarpMesh : OpSpec := .onRing 5 <|
  mkOp 0x11 true (rsv 20 64) (fun _ d s => camUnits d s)
   (fun _ d s => firstFail [needForm .d d s, bad (dget d 8 0 6 != 0) 0x08 8, bad (decide (16 + 16 * 129 * 129 < dget d 16 0 32)) 0x08 16,
      (match s.route (dRoute d) with
       | some r => bad ((s.warp (camRouteDie r)).pendMesh.isSome) 0x0A 0
       | none => none)])
   (fun d _ => dget d 16 0 32 == 0)
   (fun t d s =>
    match s.route (dRoute d) with
    | none => (some (stNoRoute, 0), s)
    | some r =>
      let e := camRouteDie r
      let len := dget d 16 0 32
      match dmaRead e t.fn t.ring.ring (dget d 8 0 64) len 7 s with
      | (.error x, s1) => (some x.completion, s1)
      | (.ok m, s1) =>
        let span := meshSpan s1 e m (pget r 44 0 16)
        if meshOk m len = false then (invalid 0x08 8, s1)
        else if 32 < span ∨ 2621440 < warpBytes s1 e span then (invalid 0x0B 8, s1)
        else
          (some (stOk, span), s1 |> owe t
            |> setWarp e { s1.warp e with pendMesh := some (t, ⟨ofLe ((m.drop 4).take 2), ofLe ((m.drop 6).take 2), m, span⟩) }
            |> wrB (WARP_STATUS e) WARP_STATUS_MESH_PENDING true))

def opWarpFrame : OpSpec := .onRing 5 <|
  mkOp 0x12 true (rsv 18 64) (fun _ d s => camUnits d s) (fun _ d s => andThen (needForm .e d s) (bufferRange d s)) notEmpty
   (fun t d s =>
    match s.route (dRoute d) with
    | none => (some (stNoRoute, 0), s)
    | some r =>
      let e := camRouteDie r
      (none, s |> owe t |> setWarp e { s.warp e with pendFrames := (s.warp e).pendFrames ++ [(epSub r.sink, t, d)] }))

/-- A frame of a form E input takes effect, or replaces the one in use, whose FURTHER is posted (R235). -/
def warpFrameEffect (d : Die) (s : State) (x : Nat × Ticket × Desc) : State :=
  let w := s.warp d
  let s1 := match tfind x.1 w.frames with
    | some (t, _) => postLast t 2 stOk 0 s
    | none => s
  s1 |> setWarp d { s1.warp d with frames := tset x.1 x.2 (s1.warp d).frames } |> finish x.2.1 stOk 0

/-- The line 0 fetch of a head's next frame: camera layers whose stream is present are shown, a pending mesh and pending memory
frames take effect (R226, R234, R235). -/
def cameraFrame (h : Nat) (s : State) : State :=
  let d := headDie h
  let s1 := (upto 16).foldl (fun t l =>
    let y := (t.head h).layer l
    match s.route y.camera with
    | none => t
    | some r =>
      let lost := match layerStream t r with
        | some (p, v) => streamLost t p v
        | none => false
      setLayer h l { y with camOn := !lost } t) s
  match warpOut s1 d with
  | none => s1
  | some (_, r) =>
    if epUnit r.sink ≠ h then s1
    else
      let s2 := match (s1.warp d).pendMesh with
        | none => s1
        | some (t, m) =>
          s1 |> setWarp d { s1.warp d with mesh := some m, pendMesh := none } |> wrB (WARP_STATUS d) WARP_STATUS_MESH_PENDING false
             |> wrB (WARP_STATUS d) WARP_STATUS_MESH_VALID true |> wrF (WARP_STATUS d) WARP_STATUS_SPAN m.span
             |> wrF (WARP_MESH_DIM d) WARP_MESH_DIM_GX m.gx |> wrF (WARP_MESH_DIM d) WARP_MESH_DIM_GY m.gy
             |> refreshCamera d |> postLast t 2 stOk 0
      (s2.warp d).pendFrames.foldl (warpFrameEffect d) (setWarp d { s2.warp d with pendFrames := [] } s2)

/-- SLACK_Q4 of a camera layer, over the last head frame (R228). -/
def setSlack (h : Nat) (s : State) (x : Nat × Int) : State :=
  match s.route ((s.head h).layer x.1).camera with
  | none => s
  | some r =>
    let d := camRouteDie r
    if epType r.source = 0x10 then wrF (STREAM_SLACK d (camNo (epUnit r.source)) (epSub r.source)) STREAM_SLACK_SLACK_Q4 (unsgn 16 x.2) s
    else wrF (WARP_SLACK d) WARP_SLACK_SLACK_Q4 (unsgn 16 x.2) s

/-! ## Meanings -/

def execCamPortReady (port : Nat) (s : State) : Host.Outcome State Fault Refusal := run (camReady port) s

def execCamLine (port vc : Nat) (packet : CamPacket) (s : State) : Host.Outcome State Fault Refusal := run (camPacket port vc packet) s

def execCamFrameEnd (port : Nat) (packet : ShortPacket) (s : State) : Host.Outcome State Fault Refusal :=
  run (frameEnds port packet.vc packet.header) s

def execCamStreamTimeout (port vc : Nat) (s : State) : Host.Outcome State Fault Refusal := run (streamTimeout port vc) s

def execCamLanesLost (port : Nat) (s : State) : Host.Outcome State Fault Refusal := run (lanesLost port) s

def execCamLaneState (port : Nat) (clk : Bool) (hs ulps : Nat) (deskew : Bool) (s : State) : Host.Outcome State Fault Refusal :=
  run (laneState port clk hs ulps deskew) s

def execCamPortClear (f : Fun) (n : Nat) (v : Word) (s : State) : Host.Outcome State Fault Refusal := run (portClear f n v) s

def execCapBuffer (q : RingId) (desc : Desc) (s : State) : Host.Outcome State Fault Refusal := run (submit opCapBuffer q desc) s

def execWarpMesh (q : RingId) (desc : Desc) (s : State) : Host.Outcome State Fault Refusal := run (submit opWarpMesh q desc) s

def execWarpFrame (q : RingId) (desc : Desc) (s : State) : Host.Outcome State Fault Refusal := run (submit opWarpFrame q desc) s

end Sys2Proof.Machine
end

