-- ==== Sys2Proof/Machine/Rings.lean ====
section
/-! DEFINITION. Rings, doorbells, shadows, interrupts and the common opcodes (chapter 3). -/
namespace Sys2Proof.Machine

/-! ## Setting up a ring (R54–R58) -/

/-- The rings of a function. -/
def ringsOf (f : Fun) : List RingId := (upto 16).map (fun n => RingId.mk f n)

/-- What the enabling write is refused with (R55), the first failing condition deciding; none where it is accepted. -/
def enableError (s : State) (q : RingId) (v : Word) : Option Nat :=
  let t := RING_CFG_QTYPE.get v
  let z := RING_CFG_SIZE_LOG2.get v
  let others (k : Nat) : Bool := (ringsOf q.fn).any (fun r => r.ring != q.ring && ringOn s r && ringType s r == k)
  if 0xA < t then some stInvalidDesc
  else if z < 4 ∨ 16 < z then some stInvalidDesc
  else if ringBase s q % 4096 ≠ 0 then some stInvalidDesc
  else if t = 0 ∧ ((q.fn.fn ≠ 0 ∧ q.fn.fn ≠ 63) ∨ others 0) then some stInvalidDesc
  else if t = 9 ∧ others 9 then some stInvalidDesc
  else if t < 9 ∧ (let c : RingId := ⟨q.fn, RING_CFG_CQ.get v⟩; c.ring = q.ring ∨ ringOn s c = false ∨ ringType s c ≠ 0xA) then
    some stInvalidDesc
  else if (t = 6 ∨ t = 7) ∧ unitPresent s.part .a bitAudio = false then some stUnitAbsent
  else none

/-- The shadow of a ring is written, with what a translation fault leaves (R62). -/
def writeShadow (q : RingId) (idx : Nat) (s : State) : State :=
  let d := q.fn.ep
  match shadowWrite d q idx s with
  | (none, s1) => setRing q { s1.ringAux q with unshadowed := 0 } s1
  | (some x, s1) =>
    let dt := ownDetail s1 x
    s1 |> useFree 1 |> wrB (RING_STATUS q) RING_STATUS_SHADOW_FAULT true
       |> faultSeen d q.fn (s.rd64 (RING_SHADOW_LO q)) dt q.ring
       |> post q.fn (ringErrorEvent d (s.now d) q 3 idx)

/-- Bits of RING_CFG that a write can set. -/
def ringCfgMask : Word := 0x000FFF1F

/-- RING_CFG on a disabled ring, SIZE_LOG2 not 0 (R54, R55). -/
def ringEnable (q : RingId) (v : Word) (s : State) : State :=
  match enableError s q v with
  | some e => wrF (RING_STATUS q) RING_STATUS_CFG_ERR e s
  | none =>
    let s1 := s |> wr (RING_CFG q) (v &&& ringCfgMask) |> wr (RING_PRODUCER q) 0 |> wr (RING_CONSUMER q) 0
                |> wr64 (RING_FENCE_COUNT_LO q) 0 |> wrF (RING_STATUS q) RING_STATUS_STATE 1
                |> setRing q { s.ringAux q with intCount := 0, intFirst := 0, unshadowed := 0, chain := false }
                |> refreshState q |> writeShadow q 0
    if RING_CFG_QTYPE.get v = 9 then reportGap q.fn.ep q.fn s1 else s1

/-- A completion is owed to a COMPLETION ring (R58). -/
def cqOwed (s : State) (c : RingId) : Bool :=
  (ringsOf c.fn).any (fun r => ringOn s r && decide (ringType s r < 9) && s.rdF (RING_CFG r) RING_CFG_CQ == c.ring)
    || (ringsOf c.fn).any (fun r => (s.ringAux r).flights.any (fun f => f.cq == c.ring))
    || s.owed.any (fun t => t.ring.fn == c.fn && t.cq == c.ring)
    || (s.ringAux c).held != []

/-- RING_CFG with SIZE_LOG2 0 on an enabled ring (R57, R58). -/
def ringDisable (q : RingId) (v : Word) (s : State) : State :=
  if ringType s q = 0xA ∧ cqOwed s q then wrF (RING_STATUS q) RING_STATUS_CFG_ERR stInvalidDesc s
  else s |> wr (RING_CFG q) (v &&& ringCfgMask) |> wrF (RING_STATUS q) RING_STATUS_STATE 0

/-- RING_CFG with a size on an enabled ring (R57). -/
def ringModify (q : RingId) (v : Word) (s : State) : State :=
  if RING_CFG_SIZE_LOG2.get v = s.rdF (RING_CFG q) RING_CFG_SIZE_LOG2 ∧ RING_CFG_QTYPE.get v = ringType s q
      ∧ RING_CFG_CQ.get v = s.rdF (RING_CFG q) RING_CFG_CQ then
    s |> wrF (RING_CFG q) RING_CFG_PRIORITY (RING_CFG_PRIORITY.get v)
      |> wrF (RING_CFG q) RING_CFG_EVICTABLE (RING_CFG_EVICTABLE.get v)
  else wrF (RING_STATUS q) RING_STATUS_CFG_ERR stInvalidDesc s

/-- A write of RING_CFG, by what the ring is and what it asks (R54, R57). -/
def ringCfgWrite (q : RingId) (v : Word) (s : State) : State :=
  if ringOn s q then (if RING_CFG_SIZE_LOG2.get v = 0 then ringDisable q v s else ringModify q v s)
  else if RING_CFG_SIZE_LOG2.get v = 0 then wr (RING_CFG q) (v &&& ringCfgMask) s
  else ringEnable q v s

/-- Offset of a ring's RING_CFG in its owner's BAR0. -/
def ringCfgOff (q : RingId) : Nat := addrOff (RING_CFG q)

/-- The function may write the ring's registers: PF0 those of PF0 and of its VFs, PF1 its own (R54, R91). -/
def ringWriter (s : State) (f : Fun) (q : RingId) : Bool :=
  f.ep == q.fn.ep && (if q.fn.fn = 63 then f.fn == 63 else f.fn == 0) && decide (q.ring < 16)
    && (accessRow s f (ringCfgOff q)).isSome

/-! ## Doorbells (R59–R63) -/

def dropDoorbell (f : Fun) (s : State) : State := satF (FUNC_DB_DROPPED f) FUNC_DB_DROPPED_COUNT 1 s

/-- A doorbell value that is not accepted (R60). -/
def badDoorbell (q : RingId) (v : Word) (s : State) : State :=
  s |> wrB (RING_STATUS q) RING_STATUS_DB_BAD true
    |> post q.fn (ringErrorEvent q.fn.ep (s.now q.fn.ep) q 1 v.toNat)

/-- The acceptance test of a submission ring (R60). -/
def doorbellOk (s : State) (q : RingId) (v : Word) : Bool :=
  decide (idxDiff v.toNat (ringProd s q) ≤ (ringCons s q + ringSize s q + 2 ^ 32 - ringProd s q) % 2 ^ 32)

/-- A doorbell on a submission ring. -/
def producerDoorbell (q : RingId) (v : Word) (s : State) : State :=
  if doorbellOk s q v then wr (RING_PRODUCER q) v s else badDoorbell q v s

/-- A doorbell on a COMPLETION or EVENT ring: it frees entries for what is held (R60, R70, R78). -/
def hostDoorbell (q : RingId) (v : Word) (s : State) : State :=
  if idxDiff v.toNat (ringCons s q) ≤ idxDiff (ringProd s q) (ringCons s q) then
    let s1 := wr (RING_CONSUMER q) v s
    if ringType s q = 9 then
      (if v.toNat = ringCons s q then s1 else reportGap q.fn.ep q.fn s1)
    else if frozen s q.fn then s1
    else
      let s2 := drainHeld q.fn.ep q ((s1.ringAux q).held.length + 1) s1
      refreshRings q.fn s2
  else badDoorbell q v s

/-- A doorbell write (R59, R63); in PEARL it is a wake source (R408). -/
def ringDoorbell (q : RingId) (v : Word) (s0 : State) : State :=
  let s := wakeUp q.fn.ep (2 + q.fn.ep.idx) s0
  if ringOn s q = false ∨ flrActive s q.fn then dropDoorbell q.fn s
  else if ringType s q < 9 then producerDoorbell q v s
  else hostDoorbell q v s

/-! ## Interrupt moderation (R79, R80) -/

def ringIntMask : Word := 0x83FF3F3F

/-- A write of RING_INT on an enabled ring takes effect at once (R80). -/
def ringIntWrite (q : RingId) (v : Word) (s : State) : State :=
  let r := s.ringAux q
  let was := s.flag (RING_INT q) RING_INT_INT_EN
  let s1 := wr (RING_INT q) (v &&& ringIntMask) s
  if RING_INT_INT_EN.get v = 0 ∨ was = false then setRing q { r with intCount := 0, intFirst := 0 } s1
  else if r.intCount ≠ 0 ∧ (RING_INT_BATCH_M1.get v < r.intCount
      ∨ r.intFirst + 1000 * RING_INT_DELAY_US.get v ≤ s.now q.fn.ep) then sendRingInt q s1
  else s1

/-- DELAY_US has passed since the first counted entry (R79). -/
def intDelay (q : RingId) (s : State) : State :=
  if s.flag (RING_INT q) RING_INT_INT_EN ∧ (s.ringAux q).intCount ≠ 0 then sendRingInt q s else s

/-- The host clears a vector's mask bit: a pending message is sent (R53). -/
def unmaskVector (f : Fun) (vec : Nat) (s : State) : State :=
  let x := s.fnAux f
  let s1 := setFn f { x with unmasked := if x.unmasked.contains vec then x.unmasked else vec :: x.unmasked,
                             pba := x.pba.filter (fun p => p != vec) } s
  if x.pba.contains vec then sendVector f vec s1 else s1

/-- A word of the MSI-X table in BAR2: entry and field (0 address low, 1 address high, 2 data, 3 vector control with the mask in bit 0). -/
def vectorWord (s : State) (f : Fun) (vec field : Nat) : Nat :=
  let x := s.fnAux f
  let e := tget (0, 0) vec x.vectors
  if field = 0 then e.1 % 2 ^ 32 else if field = 1 then e.1 / 2 ^ 32 else if field = 2 then e.2 else b2n (!x.unmasked.contains vec)

/-- A write of a word of the table (R53, notes/assumptions/102.md). -/
def vectorWrite (f : Fun) (vec field : Nat) (v : Word) (s : State) : State :=
  let x := s.fnAux f
  let e := tget (0, 0) vec x.vectors
  let put (y : Nat × Nat) : State := setFn f { x with vectors := tset vec y x.vectors } s
  if field = 0 then put (e.1 / 2 ^ 32 * 2 ^ 32 + v.toNat / 4 * 4, e.2)
  else if field = 1 then put (e.1 % 2 ^ 32 + v.toNat * 2 ^ 32, e.2)
  else if field = 2 then put (e.1, v.toNat)
  else if v.toNat % 2 = 0 then unmaskVector f vec s
  else setFn f { x with unmasked := x.unmasked.filter (fun p => p != vec) } s

/-- The word of BAR2 at an offset: the MSI-X table, then from 0x1000 the pending bits; the rest reads zero (R52). -/
def bar2Word (s : State) (f : Fun) (o : Nat) : Nat :=
  if o < 0x400 then vectorWord s f (o / 16) (o % 16 / 4)
  else if o = 0x1000 ∨ o = 0x1004 then ((upto 32).map (fun i => if (s.fnAux f).pba.contains (i + 8 * (o - 0x1000)) then 2 ^ i else 0)).sum
  else 0

/-- A write of BAR2: only the table takes it. -/
def bar2Write (f : Fun) (o : Nat) (v : Word) (s : State) : State := if o < 0x400 then vectorWrite f (o / 16) (o % 16 / 4) v s else s

/-! ## Common opcodes (R65) -/

def opNop : OpSpec := mkOp 0x00 false (rsv 8 64) noUnits noRange notEmpty (fun _ _ s => (some (stOk, 0), s))

/-- COND of a WAIT_VALUE on the word read. -/
def condHolds (cond word value : Nat) : Bool :=
  if cond = 0 then decide (value ≤ word) else if cond = 1 then word == value else word != value

def aligned8 (d : Desc) : Option (Nat × Nat) := bad (dget d 8 0 3 != 0) 0x08 8

/-- The read of a WAIT_VALUE: its outcome, or nothing while COND does not hold. -/
def waitRead (q : RingId) (addr value cond : Nat) (s : State) : Option (Nat × Nat) × State :=
  match dmaRead q.fn.ep q.fn q.ring addr 8 9 s with
  | (.error e, s1) => (some e.completion, s1)
  | (.ok bs, s1) => (if condHolds cond (ofLe bs) value then some (stOk, 0) else none, s1)

def opWaitValue : OpSpec :=
  mkOp 0x01 false (rsv 25 28 ++ rsv 32 64) noUnits
   (fun _ d _ => firstFail [aligned8 d, bad (decide (2 < dget d 24 0 8)) 0x08 24])
   notEmpty
   (fun t d s =>
    match waitRead t.ring (dget d 8 0 64) (dget d 16 0 64) (dget d 24 0 8) s with
    | (some r, s1) => (some r, s1)
    | (none, s1) =>
      (none, setRing t.ring { s1.ringAux t.ring with
                wait := some (t.tag, dget d 8 0 64, dget d 16 0 64, dget d 24 0 8, dget d 28 0 32) } s1))

def opWriteValue : OpSpec :=
  mkOp 0x02 false (rsv 24 64) noUnits (fun _ d _ => aligned8 d) notEmpty
   (fun t d s =>
    match dmaWrite t.ring.fn.ep t.ring.fn t.ring.ring (dget d 8 0 64) (leBytes 8 (dget d 16 0 64)) s with
    | (some e, s1) => (some e.completion, s1)
    | (none, s1) => (some (stOk, 0), s1))

/-- The time is that at which the descriptor begins, its turn in the ring having come; earlier ones may still run (DESIGN CHOICE,
notes/assumptions/103.md). -/
def opTimestamp : OpSpec :=
  mkOp 0x03 false (rsv 16 64) noUnits (fun _ d _ => aligned8 d) notEmpty
   (fun t d s =>
    match dmaWrite t.ring.fn.ep t.ring.fn t.ring.ring (dget d 8 0 64) (leBytes 8 (s.now t.ring.fn.ep)) s with
    | (some e, s1) => (some e.completion, s1)
    | (none, s1) => (some (stOk, 0), s1))

/-- The flight of a WAIT_VALUE ends. -/
def endWait (q : RingId) (tag st dt : Nat) (s : State) : State :=
  s |> setRing q { s.ringAux q with wait := none } |> finish ⟨q, 0, 0, 0, tag⟩ st dt

/-- One poll of the ring's WAIT_VALUE. -/
def pollWait (q : RingId) (s : State) : State :=
  match (s.ringAux q).wait with
  | none => s
  | some (tag, addr, value, cond, _) =>
    match waitRead q addr value cond s with
    | (none, s1) => s1
    | (some (st, dt), s1) => endWait q tag st dt s1

/-- The time limit of the ring's WAIT_VALUE passes; a limit of 0 is no limit (R82). -/
def timeoutWait (q : RingId) (s : State) : State :=
  match (s.ringAux q).wait with
  | none => s
  | some (tag, _, _, _, limit) => if limit = 0 then s else endWait q tag stTimeout 0 s

/-- The completed flight at the front carries FENCE_SIGNAL: count, fence word, DONE, in that order (R73). -/
def fenceStep (q : RingId) (s : State) : State :=
  match (s.ringAux q).flights with
  | [] => s
  | f :: t =>
    if f.phase = 2 ∧ dFenceSignal f.first then
      let d := q.fn.ep
      let c := (s.rd64 (RING_FENCE_COUNT_LO q) + 1) % 2 ^ 64
      let s1 := s |> wr64 (RING_FENCE_COUNT_LO q) c |> setRing q { s.ringAux q with flights := t }
      let s2 :=
        match dmaWriteRaw d q.fn (s.rd64 (RING_FENCE_LO q)) (leBytes 8 c) s1 with
        | (none, s2) => s2
        | (some x, s2) =>
          let dt := ownDetail s2 x
          s2 |> useFree 1 |> wrB (RING_STATUS q) RING_STATUS_FENCE_FAULT true
             |> faultSeen d q.fn (s.rd64 (RING_FENCE_LO q)) dt q.ring
             |> post q.fn (ringErrorEvent d (s.now d) q 5 c)
      s2 |> postDone q f |> settle q
    else s

/-! ## Meanings -/

def execRingEnable (f : Fun) (q : RingId) (v : Word) (s : State) : Host.Outcome State Fault Refusal :=
  run (fun s => if ringWriter s f q then ringCfgWrite q v s else s) s

def execRingDisable (f : Fun) (q : RingId) (v : Word) (s : State) : Host.Outcome State Fault Refusal :=
  run (fun s => if ringWriter s f q then ringCfgWrite q v s else s) s

def execRingCfgModify (f : Fun) (q : RingId) (v : Word) (s : State) : Host.Outcome State Fault Refusal :=
  run (fun s => if ringWriter s f q then ringCfgWrite q v s else s) s

def execDoorbell (q : RingId) (v : Word) (s : State) : Host.Outcome State Fault Refusal := run (ringDoorbell q v) s

def execConsumerDoorbell (q : RingId) (v : Word) (s : State) : Host.Outcome State Fault Refusal := run (ringDoorbell q v) s

def execIntDelayExpiry (q : RingId) (s : State) : Host.Outcome State Fault Refusal := run (intDelay q) s

def execRingIntWrite (f : Fun) (q : RingId) (v : Word) (s : State) : Host.Outcome State Fault Refusal :=
  run (fun s => if ringWriter s f q then ringIntWrite q v s else s) s

def execNop (q : RingId) (desc : Desc) (s : State) : Host.Outcome State Fault Refusal := run (submit opNop q desc) s

def execWaitValue (q : RingId) (desc : Desc) (s : State) : Host.Outcome State Fault Refusal := run (submit opWaitValue q desc) s

def execWaitValuePoll (q : RingId) (s : State) : Host.Outcome State Fault Refusal := run (pollWait q) s

def execWaitValueTimeout (q : RingId) (s : State) : Host.Outcome State Fault Refusal := run (timeoutWait q) s

def execWriteValue (q : RingId) (desc : Desc) (s : State) : Host.Outcome State Fault Refusal := run (submit opWriteValue q desc) s

def execTimestamp (q : RingId) (desc : Desc) (s : State) : Host.Outcome State Fault Refusal := run (submit opTimestamp q desc) s

def execFenceSignal (q : RingId) (s : State) : Host.Outcome State Fault Refusal := run (fenceStep q) s

def execMsixVectorUnmask (f : Fun) (vec : Nat) (s : State) : Host.Outcome State Fault Refusal := run (unmaskVector f vec) s

end Sys2Proof.Machine
end

