-- ==== Sys2Proof/Machine/Raster.lean ====
section
/-! DEFINITION. The raster front end (9.3–9.6): numbers of the GPU formats, clipping and snapping, coverage, tests, blending and the resolve
of a tile's samples. A number is exact until a format or the grid of 1/256 pixel gives it a width; what it then becomes is one of the two
codes beside it (notes/assumptions/117.md). -/
namespace Sys2Proof

/-- What a shader, whose code is opaque, gives where the command that carries its results names none: by job, kind of result and place. -/
opaque Config.shaded : List Nat → BitVec 64

/-- What an FP32 word that is no finite number stands for in a position, a viewport, a size or a bias, in 2^-149. -/
opaque Config.notFinite : Nat → Int

/-- A channel blended or resolved from values for which no exact arithmetic is stated: an infinity, NaN, or an sRGB code. -/
opaque Config.mixed : List Nat → Nat

namespace Machine

/-- A field of a structure in memory. -/
def fb (bs : List Byte) (off n : Nat) : Nat := ofLe ((bs.drop off).take n)
def fbit (bs : List Byte) (off lo n : Nat) : Nat := bitsAt (fb bs off 1) lo n
def allZero (bs : List Byte) (off n : Nat) : Bool := ((bs.drop off).take n).all (fun b => b == 0)

/-! ## Numbers -/

/-- A fraction in lowest terms. -/
def mkFrac (n : Int) (d : Nat) : Frac := ⟨n / (Nat.gcd n.natAbs d : Nat), d / Nat.gcd n.natAbs d⟩

def Frac.zero : Frac := ⟨0, 1⟩
def Frac.one : Frac := ⟨1, 1⟩
def Frac.add (a b : Frac) : Frac := mkFrac (a.num * b.den + b.num * a.den) (a.den * b.den)
def Frac.neg (a : Frac) : Frac := ⟨-a.num, a.den⟩
def Frac.sub (a b : Frac) : Frac := a.add b.neg
def Frac.mul (a b : Frac) : Frac := mkFrac (a.num * b.num) (a.den * b.den)
def Frac.le (a b : Frac) : Bool := decide (a.num * b.den ≤ b.num * a.den)
def Frac.least (a b : Frac) : Frac := if a.le b then a else b
def Frac.most (a b : Frac) : Frac := if a.le b then b else a
def Frac.clamp (v lo hi : Frac) : Frac := (v.most lo).least hi

/-- A fraction times n / d, d not 0. -/
def Frac.scale (a : Frac) (n d : Int) : Frac := mkFrac (a.num * n * d.sign) (a.den * d.natAbs)

/-- A float code in units of its least subnormal; none where it is no finite number. -/
def floatUnits (eb mb code : Nat) : Option Int :=
  let e := code / 2 ^ mb % 2 ^ eb
  let m := code % 2 ^ mb
  if e = 2 ^ eb - 1 then none
  else
    let u : Nat := if e = 0 then m else (2 ^ mb + m) * 2 ^ (e - 1)
    some (if nbit code (eb + mb) then -(u : Int) else u)

def f32 (w : Nat) : Option Frac := (floatUnits 8 23 w).map (fun u => ⟨u, 2 ^ 149⟩)
def f16 (w : Nat) : Option Frac := (floatUnits 5 10 w).map (fun u => ⟨u, 2 ^ 24⟩)

/-- An FP32 word in units of 2^-149. -/
def fix32 (w : Nat) : Int := (floatUnits 8 23 w).getD (Config.notFinite w)
def num32 (w : Nat) : Frac := ⟨fix32 w, 2 ^ 149⟩

/-- The float code of a number: its own, or one of the two beside it. -/
def floatCode (stage eb mb : Nat) (v : Frac) : Nat :=
  let top := (2 ^ eb - 1) * 2 ^ mb
  let n := v.num.natAbs * 2 ^ (2 ^ (eb - 1) - 2 + mb)
  let e := Nat.log2 (n / v.den) - mb
  let m := n / v.den / 2 ^ e
  let c := e * 2 ^ mb + m
  let up := b2n (Config.roundUp stage n v.den)
  (if v.num < 0 then 2 ^ (eb + mb) else 0) + if top ≤ c then top - 1 + up else if m * 2 ^ e * v.den = n then c else c + up

/-- A unorm code of n bits, clamped to 0–1 (R264). -/
def unormCode (stage n : Nat) (v : Frac) : Nat := toCode (2 ^ n - 1) stage v.num.toNat v.den

/-- The sRGB code of 8 bits. -/
def srgbCode (v : Frac) : Nat :=
  let n := v.num.toNat
  let below (c : Nat) : Bool :=
    if c ≤ 10 then decide (100 * c * v.den ≤ 329460 * n) else decide ((1000 * c + 14025) ^ 12 * v.den ^ 5 ≤ n ^ 5 * 269025 ^ 12)
  if v.den ≤ n then 255
  else
    let c := bisect below 8 0
    if c ≤ 10 ∧ 100 * c * v.den = 329460 * n then c else c + b2n (Config.roundUp 23 n v.den)

/-! ## Formats (Table 9.1) -/

/-- Bytes per sample; 0 where the code is no format. -/
def fmtBytes (f : Nat) : Nat :=
  if f = 0x01 ∨ f = 0x02 ∨ f = 0x03 ∨ f = 0x13 ∨ f = 0x15 ∨ f = 0x18 ∨ f = 0x19 ∨ f = 0x21 ∨ f = 0x22 then 4
  else if f = 0x04 ∨ f = 0x11 ∨ f = 0x12 ∨ f = 0x20 then 2 else if f = 0x10 then 1
  else if f = 0x14 ∨ f = 0x16 then 8 else if f = 0x17 then 16 else if f = 0x23 then 5 else 0

def isTarget (f : Nat) : Bool := decide ((1 ≤ f ∧ f ≤ 4) ∨ (0x10 ≤ f ∧ f ≤ 0x19))
def isSampled (f : Nat) : Bool := decide ((1 ≤ f ∧ f ≤ 7) ∨ (0x10 ≤ f ∧ f ≤ 0x19) ∨ (0x20 ≤ f ∧ f ≤ 0x23))

/-- What the bits of a channel stand for. -/
inductive Kind where
  | unorm
  | half
  | float
  | uint
  | srgb
deriving DecidableEq, Repr

/-- A channel of a unit: the component it holds (0 R, 1 G, 2 B, 3 A), its bits, and their kind. -/
structure Chan where
  comp : Nat
  lo : Nat
  len : Nat
  kind : Kind
deriving DecidableEq, Repr

/-- Channels of a colour target (Tables 6.2 and 9.1); R, G, B, A from the lowest bits where the name says no other order. -/
def chans (f : Nat) : List Chan :=
  let row (n len : Nat) (k : Kind) : List Chan := (upto n).map (fun i => ⟨i, i * len, len, k⟩)
  if f = 0x01 ∨ f = 0x02 then [⟨2, 0, 8, .unorm⟩, ⟨1, 8, 8, .unorm⟩, ⟨0, 16, 8, .unorm⟩, ⟨3, 24, 8, .unorm⟩]
  else if f = 0x03 then row 3 10 .unorm ++ [⟨3, 30, 2, .unorm⟩]
  else if f = 0x04 then [⟨2, 0, 5, .unorm⟩, ⟨1, 5, 6, .unorm⟩, ⟨0, 11, 5, .unorm⟩]
  else if f = 0x10 then row 1 8 .unorm
  else if f = 0x11 then row 2 8 .unorm
  else if f = 0x12 then row 1 16 .half
  else if f = 0x13 then row 2 16 .half
  else if f = 0x14 then row 4 16 .half
  else if f = 0x15 then row 1 32 .float
  else if f = 0x16 then row 2 32 .float
  else if f = 0x17 then row 4 32 .float
  else if f = 0x18 then row 1 32 .uint
  else if f = 0x19 then row 3 8 .srgb ++ [⟨3, 24, 8, .unorm⟩]
  else []

/-- An FP32 word as a unorm of n bits: infinities clamp (R264), NaN is free (notes/assumptions/12.md). -/
def toUnorm (n w : Nat) : Nat :=
  match f32 w with
  | some v => unormCode 22 n v
  | none => if w = 0x7F800000 then 2 ^ n - 1 else if w = 0xFF800000 then 0 else (Config.narrow n w).toNat % 2 ^ n

/-- An FP32 word as a half-float, its sign kept. -/
def toHalf (w : Nat) : Nat :=
  match f32 w with
  | some v => if v.num = 0 then w / 2 ^ 31 % 2 * 2 ^ 15 else floatCode 22 5 10 v
  | none => if w % 2 ^ 23 = 0 then w / 2 ^ 31 % 2 * 2 ^ 15 + 0x7C00 else (Config.narrow 0x100 w).toNat % 2 ^ 16

/-- An FP32 word as an sRGB code. -/
def toSrgb (w : Nat) : Nat :=
  match f32 w with
  | some v => srgbCode v
  | none => if w = 0x7F800000 then 255 else if w = 0xFF800000 then 0 else (Config.narrow 0x119 w).toNat % 256

/-- The code of a channel from a word of a shader or of a clear colour. -/
def Chan.ofWord (c : Chan) (w : Nat) : Nat :=
  match c.kind with
  | .unorm => toUnorm c.len w
  | .half => toHalf w
  | .float | .uint => w % 2 ^ 32
  | .srgb => toSrgb w

/-- The number that a channel's code stands for, where it is a finite fraction. -/
def Chan.value (c : Chan) (code : Nat) : Option Frac :=
  match c.kind with
  | .unorm => some ⟨code, 2 ^ c.len - 1⟩
  | .half => f16 code
  | .float => f32 code
  | .uint => some ⟨code, 1⟩
  | .srgb => if code = 0 then some .zero else if code = 255 then some .one else none

/-- The code of a channel for a number. -/
def Chan.ofValue (c : Chan) (v : Frac) : Nat :=
  match c.kind with
  | .unorm => unormCode 22 c.len v
  | .half => floatCode 22 5 10 v
  | .float => floatCode 22 8 23 v
  | .uint => toCode 1 22 (v.num.toNat % v.den) v.den + v.num.toNat / v.den
  | .srgb => srgbCode v

def Chan.get (c : Chan) (code : Nat) : Nat := bitsAt code c.lo c.len
def Chan.set (c : Chan) (code v : Nat) : Nat := code - c.get code * 2 ^ c.lo + v % 2 ^ c.len * 2 ^ c.lo

/-- A colour of four words in a format. -/
def packColour (f : Nat) (ws : List Nat) : Nat := (chans f).foldl (fun v c => c.set v (c.ofWord (ws.getD c.comp 0))) 0

/-- A clear colour in a format (R251), as memory holds it. -/
def clearColour (f : Nat) (ws : List Nat) : List Byte := leBytes (fmtBytes f) (packColour f ws)

/-- The mean of a pixel's samples (R254). -/
def resolve (f : Nat) (codes : List Nat) : Nat :=
  let x := codes.headD 0
  if codes.all (fun c => c == x) then x
  else
    (chans f).foldl (fun v c =>
      let vs := codes.map (fun k => c.value (c.get k))
      c.set v (if vs.all Option.isSome then c.ofValue (((vs.filterMap id).foldl Frac.add .zero).scale 1 codes.length)
        else Config.mixed ([f, c.comp] ++ codes))) 0

/-! ## Blending (R256, R264) -/

/-- An operation on two numbers, where both are finite fractions. -/
def both (f : Frac → Frac → Frac) : Option Frac → Option Frac → Option Frac
  | some a, some b => some (f a b)
  | _, _ => none

/-- A blend factor of component c (Table 9.4). -/
def blendFactor (code c : Nat) (src dst con : Nat → Option Frac) : Option Frac :=
  let inv (x : Option Frac) : Option Frac := both Frac.sub (some .one) x
  if code = 0 then some .zero else if code = 1 then some .one
  else if code = 2 then src c else if code = 3 then inv (src c)
  else if code = 4 then dst c else if code = 5 then inv (dst c)
  else if code = 6 then src 3 else if code = 7 then inv (src 3)
  else if code = 8 then dst 3 else if code = 9 then inv (dst 3)
  else if code = 10 then con c else if code = 11 then inv (con c)
  else if c = 3 then some .one else both Frac.least (src 3) (inv (dst 3))

/-- A blend operation (Table 9.4). -/
def blendOp (op : Nat) (s fs d fd : Option Frac) : Option Frac :=
  if op = 0 then both Frac.add (both Frac.mul s fs) (both Frac.mul d fd)
  else if op = 1 then both Frac.sub (both Frac.mul s fs) (both Frac.mul d fd)
  else if op = 2 then both Frac.sub (both Frac.mul d fd) (both Frac.mul s fs)
  else if op = 3 then both Frac.least s d else both Frac.most s d

/-- A colour is written to a sample of a target, through BLEND[n]: constant colour, shader words, the sample's code (notes/assumptions/120.md). -/
def writeColour (f blend : Nat) (con : List Nat) (ws : List Nat) (old : Nat) : Nat :=
  let fixed := (chans f).any (fun c => c.kind == .unorm)
  let cl (v : Option Frac) : Option Frac := if fixed then v.map (fun x => x.clamp .zero .one) else v
  let src (i : Nat) : Option Frac := cl (f32 (ws.getD i 0))
  let cst (i : Nat) : Option Frac := cl (f16 (con.getD i 0))
  let dst (i : Nat) : Option Frac :=
    match (chans f).find? (fun c => c.comp == i && !(i == 3 && f == 0x02)) with
    | some c => c.value (c.get old)
    | none => some (if i = 3 then .one else .zero)
  (chans f).foldl (fun v c =>
    if nbit (bitsAt blend 23 4) c.comp = false then v
    else if nbit blend 0 = false ∨ c.kind = .uint then c.set v (c.ofWord (ws.getD c.comp 0))
    else
      let k := if c.comp = 3 then 11 else 0
      let r := blendOp (bitsAt blend (9 + k) 3) (src c.comp) (blendFactor (bitsAt blend (1 + k) 4) c.comp src dst cst)
        (dst c.comp) (blendFactor (bitsAt blend (5 + k) 4) c.comp src dst cst)
      c.set v (match r with
        | some x => c.ofValue x
        | none => Config.mixed ([f, c.comp, blend, old] ++ ws ++ con))) old

/-! ## Depth and stencil (R256, R263) -/

/-- A comparison of Table 9.4: the new value stands on the left. -/
def compares (code : Nat) (a b : Int) : Bool :=
  if code = 0 then false else if code = 1 then decide (a < b) else if code = 2 then decide (a = b) else if code = 3 then decide (a ≤ b)
  else if code = 4 then decide (b < a) else if code = 5 then decide (a ≠ b) else if code = 6 then decide (b ≤ a) else true

/-- A stencil operation of Table 9.4. -/
def stencilOp (code ref v : Nat) : Nat :=
  if code = 0 then v else if code = 1 then 0 else if code = 2 then ref else if code = 3 then min 255 (v + 1) else if code = 4 then v - 1
  else if code = 5 then 255 - v else if code = 6 then (v + 1) % 256 else (v + 255) % 256

/-- A depth in the format of the depth plane. -/
def depthCode (ds : Nat) (z : Frac) : Nat :=
  if ds = 0x20 then unormCode 21 16 z else if ds = 0x21 then unormCode 21 24 z else floatCode 21 8 23 z

/-- The depth that a shader writes. -/
def depthWord (ds : Nat) (clamped : Frac → Frac) (w : Nat) : Nat :=
  match f32 w with
  | some v => depthCode ds (clamped v)
  | none => (Config.narrow ds w).toNat % 2 ^ (if ds = 0x20 then 16 else if ds = 0x21 then 24 else 32)

/-- Depth codes in their order. -/
def depthKey (ds code : Nat) : Int := if 0x22 ≤ ds ∧ 2 ^ 31 ≤ code then -((code - 2 ^ 31 : Nat) : Int) else code

/-! ## Clipping (R262) -/

/-- A position in clip space, in units of its own. -/
structure Pos where
  x : Int
  y : Int
  z : Int
  w : Int
deriving DecidableEq, Repr

/-- The viewport in 2^-149 pixel and depth, and the scissor in target pixels, inclusive. -/
structure View where
  x : Int
  y : Int
  w : Int
  h : Int
  lo : Int
  hi : Int
  sx0 : Nat
  sy0 : Nat
  sx1 : Nat
  sy1 : Nat
deriving DecidableEq, Repr

/-- A rectangle of target pixels. -/
structure Area where
  x : Nat
  y : Nat
  w : Nat
  h : Nat
deriving DecidableEq, Repr

/-- What VIEWPORT set, or the render area with depth 0–1 where none did (R255). -/
def viewOf (a : Area) (v : List Byte) : View :=
  if v = [] then ⟨a.x * 2 ^ 149, a.y * 2 ^ 149, a.w * 2 ^ 149, a.h * 2 ^ 149, 0, 2 ^ 149, a.x, a.y, a.x + a.w - 1, a.y + a.h - 1⟩
  else
    let n (i : Nat) : Int := fix32 (fb v (4 * i) 4)
    ⟨n 0, n 1, n 2, n 3, n 4, n 5, fb v 24 2, fb v 26 2, fb v 28 2, fb v 30 2⟩

/-- LINE_WIDTH in 1/256 pixel: 1.0 where DYNAMIC set none, within 1–8. -/
def lineWidth (dyn : List Byte) : Nat := if dyn = [] then 256 else max 256 (min 2048 (fb dyn 2 2))

/-- A half-space of clip space, and the place of a position in it. -/
def Pos.dot (c p : Pos) : Int := c.x * p.x + c.y * p.y + c.z * p.z + c.w * p.w

/-- The half-spaces that bound what is drawn: near and far, unless depth is clamped, and the guard band of ±16,384 pixels. -/
def clipPlanes (v : View) (clampZ : Bool) : List Pos :=
  let g : Int := 32768 * 2 ^ 149
  (if clampZ then [] else [⟨0, 0, 1, 0⟩, ⟨0, 0, -1, 1⟩]) ++
    [⟨v.w, 0, 0, g + 2 * v.x + v.w⟩, ⟨-v.w, 0, 0, g - 2 * v.x - v.w⟩, ⟨0, v.h, 0, g + 2 * v.y + v.h⟩, ⟨0, -v.h, 0, g - 2 * v.y - v.h⟩]

/-- Where an edge between two positions on either side of a half-space leaves it. -/
def meet (c p q : Pos) : Pos :=
  let a : Int := (c.dot q).natAbs
  let b : Int := (c.dot p).natAbs
  let r : Pos := ⟨a * p.x + b * q.x, a * p.y + b * q.y, a * p.z + b * q.z, a * p.w + b * q.w⟩
  let g : Int := (max 1 (Nat.gcd (Nat.gcd r.x.natAbs r.y.natAbs) (Nat.gcd r.z.natAbs r.w.natAbs)) : Nat)
  ⟨r.x / g, r.y / g, r.z / g, r.w / g⟩

/-- A polygon cut to a half-space. -/
def clipPoly (ps : List Pos) (c : Pos) : List Pos :=
  (ps.zip (ps.drop 1 ++ ps.take 1)).flatMap (fun e =>
    (if 0 ≤ c.dot e.1 then [e.1] else []) ++ (if decide (0 ≤ c.dot e.1) = decide (0 ≤ c.dot e.2) then [] else [meet c e.1 e.2]))

/-- A line cut to a half-space. -/
def clipLine (l : Option (Pos × Pos)) (c : Pos) : Option (Pos × Pos) :=
  l.bind (fun e =>
    if 0 ≤ c.dot e.1 then (if 0 ≤ c.dot e.2 then some e else some (e.1, meet c e.1 e.2))
    else if 0 ≤ c.dot e.2 then some (meet c e.1 e.2, e.2) else none)

/-- The grid line beside n / d. -/
def snap (n : Int) (d : Nat) : Int :=
  n / (d : Int) + if n % (d : Int) = 0 then 0 else b2n (Config.roundUp 20 (2 * n.natAbs + b2n (decide (n < 0))) d)

/-- A clipped position in the window, snapped to 1/256 pixel. -/
def toWindow (v : View) (p : Pos) : WinVert :=
  let d := p.w.toNat * 2 ^ 149
  ⟨snap (128 * ((2 * v.x + v.w) * p.w + v.w * p.x)) d, snap (128 * ((2 * v.y + v.h) * p.w + v.h * p.y)) d,
    mkFrac (v.lo * p.w + (v.hi - v.lo) * p.z) d⟩

/-- Twice the area of a triangle; positive where it runs clockwise on the screen. -/
def area2 (a b c : WinVert) : Int := (b.x - a.x) * (c.y - a.y) - (b.y - a.y) * (c.x - a.x)

/-- The primitive that vertices make once clipped, culled and snapped: none where nothing of it is left (R262). -/
def shapeOf (a : Area) (st : DrawState) (vs : List (Pos × Nat)) : Option Shape :=
  let o := st.pipe.obj
  let v := viewOf a st.view
  let planes := clipPlanes v (fbit o 17 3 1 == 1)
  match vs with
  | [(p, size)] =>
    if planes.all (fun c => decide (0 ≤ c.dot p)) && decide (0 < p.w) then
      some (.point (toWindow v p) ((num32 size).clamp .one ⟨64, 1⟩)) else none
  | [(p, _), (q, _)] =>
    match planes.foldl clipLine (some (p, q)) with
    | some (p1, q1) =>
      if 0 < p1.w ∧ 0 < q1.w then
        let x := toWindow v p1
        let y := toWindow v q1
        if x.x = y.x ∧ x.y = y.y then none else some (.line x y)
      else none
    | none => none
  | _ =>
    let ps := planes.foldl clipPoly (vs.map (fun x => x.1))
    if ps.any (fun p => decide (p.w ≤ 0)) then none
    else
      match ps.map (toWindow v) with
      | x :: t =>
        let ts := (t.zip (t.drop 1)).map (fun e => (x, e.1, e.2))
        let area := (ts.map (fun t => area2 t.1 t.2.1 t.2.2)).sum
        let front := decide (0 < area) == (fbit o 17 2 1 == 1)
        if area = 0 ∨ fbit o 17 0 2 = (if front then 1 else 2) then none else some (.tris ts front)
      | [] => none

/-! ## Coverage (R262) -/

/-- Place of sample k in its pixel, in 1/256. -/
def samplePos (samples k : Nat) : Int × Int :=
  if samples = 1 then (128, 128) else if k = 0 then (96, 32) else if k = 1 then (224, 96) else if k = 2 then (32, 160) else (160, 224)

/-- An edge that has the inside in this direction is a left or a top edge. -/
def topLeft (dx dy : Int) : Bool := decide (0 < dx ∨ (dx = 0 ∧ 0 < dy))

/-- The side of an edge on which a point lies: positive inside a clockwise triangle. -/
def edgeSide (a b : WinVert) (x y : Int) : Int := (b.x - a.x) * (y - a.y) - (b.y - a.y) * (x - a.x)

def insideEdge (a b : WinVert) (x y : Int) : Bool :=
  decide (0 < edgeSide a b x y) || (decide (edgeSide a b x y = 0) && topLeft (a.y - b.y) (b.x - a.x))

/-- Depth at a point, and the largest slope per pixel, of a triangle that covers it. -/
def coverTri (t : WinVert × WinVert × WinVert) (x y : Int) : Option (Frac × Frac) :=
  let a := t.1
  let (b, c) := if area2 t.1 t.2.1 t.2.2 < 0 then (t.2.2, t.2.1) else (t.2.1, t.2.2)
  let s := area2 a b c
  if s ≠ 0 ∧ insideEdge a b x y ∧ insideEdge b c x y ∧ insideEdge c a x y then
    let z := ((a.z.scale (edgeSide b c x y) s).add (b.z.scale (edgeSide c a x y) s)).add (c.z.scale (edgeSide a b x y) s)
    let zx := ((b.z.sub a.z).scale (256 * (c.y - a.y)) s).sub ((c.z.sub a.z).scale (256 * (b.y - a.y)) s)
    let zy := ((c.z.sub a.z).scale (256 * (b.x - a.x)) s).sub ((b.z.sub a.z).scale (256 * (c.x - a.x)) s)
    some (z, (zx.most zx.neg).most (zy.most zy.neg))
  else none

/-- Depth and slope at a point of the target, in 1/256 pixel, where a primitive covers it: triangles by the top-left rule, a point as a
square, a line as the rectangle of its width. -/
def coverAt (width : Nat) (sh : Shape) (x y : Int) : Option (Frac × Frac) :=
  match sh with
  | .tris ts _ => ts.findSome? (fun t => coverTri t x y)
  | .point v size =>
    let inside (d : Int) : Bool := decide (-(256 * size.num) ≤ 2 * d * size.den ∧ 2 * d * size.den < 256 * size.num)
    if inside (x - v.x) && inside (y - v.y) then some (v.z, .zero) else none
  | .line a b =>
    let ux := b.x - a.x
    let uy := b.y - a.y
    let len2 := ux * ux + uy * uy
    let along := (x - a.x) * ux + (y - a.y) * uy
    let side := ux * (y - a.y) - uy * (x - a.x)
    let w2 := (width * width : Nat) * len2
    let ends := (decide (0 < along) || (decide (along = 0) && topLeft ux uy)) && (decide (along < len2) || (decide (along = len2) && topLeft (-ux) (-uy)))
    let sides := decide (4 * side * side < w2) ||
      (decide (4 * side * side = w2) && (if 0 ≤ side then topLeft uy (-ux) else topLeft (-uy) ux))
    if ends && sides then some (a.z.add ((b.z.sub a.z).scale along len2), .zero) else none

def Shape.front : Shape → Bool
  | .tris _ f => f
  | _ => true

/-- The bounding box of a primitive touches the pixels x0 to x1 - 1 and y0 to y1 - 1 (R265). -/
def boxTouches (width : Nat) (sh : Shape) (x0 y0 x1 y1 : Nat) : Bool :=
  let span (lo hi : Int) (p q : Nat) : Bool := decide (lo < 256 * (q : Int) ∧ 256 * (p : Int) ≤ hi)
  match sh with
  | .tris ts _ =>
    let vs := ts.flatMap (fun t => [t.1, t.2.1, t.2.2])
    let hit (f : WinVert → Int) (p q : Nat) : Bool :=
      match vs.map f with
      | a :: t => span (t.foldl min a) (t.foldl max a) p q
      | [] => false
    hit (fun v => v.x) x0 x1 && hit (fun v => v.y) y0 y1
  | .point v size =>
    let hit (c : Int) (p q : Nat) : Bool :=
      decide (2 * (c - 256 * (q : Int)) * size.den < 256 * size.num ∧ 2 * (256 * (p : Int) - c) * size.den ≤ 256 * size.num)
    hit v.x x0 x1 && hit v.y y0 y1
  | .line a b =>
    let len2 := (b.x - a.x) * (b.x - a.x) + (b.y - a.y) * (b.y - a.y)
    -- beyond the ends of the line by at most width × cross / (2 × length)
    let near (d cross : Int) : Bool := decide (d ≤ 0 ∨ 4 * d * d * len2 ≤ (width * width : Nat) * (cross * cross))
    let hit (p q : Int) (cross : Int) (lo hi : Nat) : Bool := near (min p q - (256 * (hi : Int) - 1)) cross && near (256 * (lo : Int) - max p q) cross
    hit a.x b.x (b.y - a.y) x0 x1 && hit a.y b.y (b.x - a.x) y0 y1

/-! ## Fragments (R260, R263, R264) -/

def rColours (r : List Byte) : Nat := fb r 1 1
def rSamples (r : List Byte) : Nat := if fbit r 0 2 1 = 1 then 4 else 1

/-- What the fragment shader gives for a fragment of job `tag`. -/
def fragOf (tag : Nat) (frags : List FragOut) (id x y k : Nat) : FragOut :=
  (frags.find? (fun f => f.prim == id && f.x == x && f.y == y && f.sample == k)).getD
    ⟨id, x, y, k, (upto 16).map (fun i => (Config.shaded [tag, 1, id, x, y, k, i]).toNat % 2 ^ 32),
      nbit (Config.shaded [tag, 1, id, x, y, k, 16]).toNat 0, (Config.shaded [tag, 1, id, x, y, k, 17]).toNat % 2 ^ 32⟩

/-- Bits of a value under a mask replaced. -/
def maskIn (m old new : Nat) : Nat := Nat.lor (Nat.land new m) (Nat.land old (255 - m))

/-- Sample k of pixel (x, y) under a primitive: its codes after scissor, stencil test, depth test and blending (R263), and whether it
passed depth and stencil. `old` holds the codes of the colours, then depth and stencil. -/
def drawSample (tag : Nat) (r : List Byte) (a : Area) (frags : List FragOut) (p : Prim) (x y k : Nat) (old : List Nat) : List Nat × Bool :=
  let o := p.draw.pipe.obj
  let dyn := p.draw.dyn
  let v := viewOf a p.draw.view
  let n := rColours r
  let ds := fb r 2 1
  let at_ := samplePos (rSamples r) k
  match coverAt (lineWidth dyn) p.shape (256 * x + at_.1) (256 * y + at_.2) with
  | none => (old, false)
  | some (z, slope) =>
    let h := p.draw.pipe.frag.getD []
    let fr := fragOf tag frags p.id x y (if fbit h 13 2 1 = 1 then k else 0)
    if x < v.sx0 ∨ v.sx1 < x ∨ y < v.sy0 ∨ v.sy1 < y ∨ (fbit h 13 0 1 = 1 ∧ fr.discard = true) then (old, false)
    else
      let front := p.shape.front
      let sOn := fbit o 19 0 1 == 1 && (ds == 0x21 || ds == 0x23)
      let sw := fb o (if front then 20 else 24) 4
      let ref := fb dyn (if front then 0 else 1) 1
      let s0 := old.getD (n + 1) 0
      let cm := bitsAt sw 12 8
      let sPass := !sOn || compares (bitsAt sw 9 3) (Nat.land ref cm) (Nat.land s0 cm)
      let dOn := fbit o 18 0 1 == 1 && ds != 0
      let clamped (d : Frac) : Frac :=
        if fbit o 17 3 1 = 1 then d.clamp ⟨min v.lo v.hi, 2 ^ 149⟩ ⟨max v.lo v.hi, 2 ^ 149⟩ else d
      let tri : Bool := match p.shape with
        | .tris _ _ => true
        | _ => false
      let biased := if fbit o 17 4 1 = 1 ∧ tri = true then
          z.add (((num32 (fb dyn 12 4)).scale 1 (2 ^ 24)).add ((num32 (fb dyn 16 4)).mul slope)) else z
      let z0 := if fbit h 13 1 1 = 1 then depthWord ds clamped fr.depth else depthCode ds (clamped biased)
      let dPass := !dOn || compares (fbit o 18 2 3) (depthKey ds z0) (depthKey ds (old.getD n 0))
      let pass := sPass && dPass
      let op := bitsAt sw (if sPass = false then 0 else if dPass = false then 6 else 3) 3
      let c1 := if sOn then lset (n + 1) (maskIn (bitsAt sw 20 8) s0 (stencilOp op ref s0)) old else old
      let c2 := if pass && dOn && fbit o 18 1 1 == 1 then lset n z0 c1 else c1
      let con := (upto 4).map (fun i => fb dyn (4 + 2 * i) 2)
      ((if pass && p.draw.pipe.frag.isSome then
          (upto n).foldl (fun c i => if nbit (fbit h 15 0 4) i then
            lset i (writeColour (fb r (74 + 48 * i) 1) (fb o (32 + 4 * i) 4) con ((fr.words.drop (4 * i)).take 4) (c.getD i 0)) c else c) c2
        else c2), pass)

/-- Every sample of a pixel under a primitive, and how many passed depth and stencil. -/
def drawPixel (tag : Nat) (r : List Byte) (a : Area) (frags : List FragOut) (p : Prim) (x y : Nat) (px : TilePx) : TilePx × Nat :=
  (upto (rSamples r)).foldl (fun (c : TilePx × Nat) k =>
    let s := drawSample tag r a frags p x y k (c.1.map (fun pl => pl.getD k 0))
    ((c.1.zip s.1).map (fun e => lset k e.2 e.1), c.2 + b2n s.2)) (px, 0)

/-- A pixel under the primitives of its tile in submission order (R264), and the samples counted for each QUERY (R255). -/
def drawPrims (tag : Nat) (r : List Byte) (a : Area) (frags : List FragOut) (ps : List Prim) (x y : Nat) (px : TilePx) (qs : Tab Nat) :
    TilePx × Tab Nat :=
  ps.foldl (fun (c : TilePx × Tab Nat) p =>
    let s := drawPixel tag r a frags p x y c.1
    (s.1, if p.draw.query = 0 ∨ s.2 = 0 then c.2 else tset p.draw.query (tget 0 p.draw.query c.2 + s.2) c.2)) (px, qs)

/-- A tile's pixels under its list. -/
def drawTile (tag : Nat) (r : List Byte) (a : Area) (frags : List FragOut) (ps : List Prim) :
    List (Nat × Nat) → List TilePx → Tab Nat → List TilePx × Tab Nat
  | xy :: t, px :: u, qs =>
    let s := drawPrims tag r a frags ps xy.1 xy.2 px qs
    let rest := drawTile tag r a frags ps t u s.2
    (s.1 :: rest.1, rest.2)
  | _, _, qs => ([], qs)

/-! ## Primitive assembly (R256) -/

/-- Primitives of a run of vertices, by place; strips and fans in the order of Vulkan (R262). -/
def groups (topology : Nat) (ks : List Nat) : List (List Nat) :=
  let n := ks.length
  let g (i : Nat) : Nat := ks.getD i 0
  if topology = 0 then ks.map (fun k => [k])
  else if topology = 1 then (upto (n / 2)).map (fun i => [g (2 * i), g (2 * i + 1)])
  else if topology = 2 then (upto (n - 1)).map (fun i => [g i, g (i + 1)])
  else if topology = 3 then (upto (n / 3)).map (fun i => [g (3 * i), g (3 * i + 1), g (3 * i + 2)])
  else if topology = 4 then (upto (n - 2)).map (fun i => if i % 2 = 0 then [g i, g (i + 1), g (i + 2)] else [g i, g (i + 2), g (i + 1)])
  else (upto (n - 2)).map (fun i => [g (i + 1), g (i + 2), g 0])

/-- The runs between restarts: places of the vertices of a draw, `none` where a restart stands. -/
def runs : List (Option Int) → Nat → List Nat → List (List Nat)
  | [], _, acc => [acc]
  | some _ :: t, k, acc => runs t (k + 1) (acc ++ [k])
  | none :: t, k, acc => acc :: runs t (k + 1) []

end Machine
end Sys2Proof
end

