-- ==== Sys2Proof/Machine/Gpu.lean ====
section
/-! DEFINITION. GPU jobs: descriptors, shader binaries, resource tables, render passes, draw streams, bin pool and spill
(chapter 9). -/
namespace Sys2Proof.Machine

def Gpu.empty : Gpu := ⟨[], [], [], [], [], 0, 0⟩
def State.gpu (s : State) (d : Die) : Gpu := tget Gpu.empty d.idx s.gpus
def setGpu (d : Die) (x : Gpu) (s : State) : State := { s with gpus := tset d.idx x s.gpus }

/-- Replace a job, known by its flight. -/
def setJob (d : Die) (j : Job) (s : State) : State :=
  setGpu d { s.gpu d with jobs := (s.gpu d).jobs.map (fun k => if k.ticket.tag = j.ticket.tag then j else k) } s

/-- The job of a ring on a die: its first, for the jobs of a ring run one at a time (R271). -/
def State.job (s : State) (d : Die) (q : RingId) : Option Job := (s.gpu d).jobs.find? (fun j => j.ticket.ring == q)

/-- Do something with every entry of a list until one fails. -/
def tryAll {α : Type} (f : α → State → Option DmaErr × State) : List α → State → Option DmaErr × State
  | [], s => (none, s)
  | x :: t, s =>
    match f x s with
    | (some e, s1) => (some e, s1)
    | (none, s1) => tryAll f t s1

/-- Do something with every entry of a list until one fails, and keep what each gives. -/
def collect {α β ε : Type} (f : α → State → Except ε β × State) : List α → State → Except ε (List β) × State
  | [], s => (.ok [], s)
  | x :: t, s =>
    match f x s with
    | (.error e, s1) => (.error e, s1)
    | (.ok y, s1) =>
      match collect f t s1 with
      | (.error e, s2) => (.error e, s2)
      | (.ok ys, s2) => (.ok (y :: ys), s2)


/-- Advance a counter of GPU_PC, unless the counters are frozen (R289). -/
def pcAdd (d : Die) (i n : Nat) (s : State) : State :=
  if s.flag (GPU_PC_CTRL d) GPU_PC_CTRL_FREEZE then s else wr (GPU_PC d i) (s.rd (GPU_PC d i) + BitVec.ofNat 32 n) s

/-! ## Jobs -/

/-- Die whose clusters carry a function's jobs (R15). -/
def gpuDie (s : State) (f : Fun) : Die := if s.rdF (TENANT_CFG f) TENANT_CFG_GPU_DIE = 0 then .a else .b

def jobCtx (j : Job) : Nat := dget j.desc (if j.kind = 0 then 28 else 32) 0 4
def dlHead (kind : Nat) (d : Desc) : Nat := dget d (if kind = 0 then 30 else 34) 0 8
def dlFrame (kind : Nat) (d : Desc) : Nat := dget d (if kind = 0 then 32 else 36) 0 32
def dlSet (kind : Nat) (d : Desc) : Bool := dget d (if kind = 0 then 29 else 33) 0 1 == 1

def Job.fn (j : Job) : Fun := j.ticket.ring.fn

/-- The die's job that holds a cluster. -/
def clusterJob (s : State) (d : Die) (c : Nat) : Option Job := (s.gpu d).jobs.find? (fun j => j.clusters.contains c)

/-- The cluster registers follow the jobs (R270, R289); how many of the waves that a cluster can hold are resident is free
(notes/assumptions/57.md). -/
def refreshGpu (d : Die) (s : State) : State :=
  let js := (s.gpu d).jobs
  let busy := ((upto 8).map (fun c => if (clusterJob s d c).isSome then 2 ^ c else 0)).sum
  let s1 := s |> wrF (GPU_CLUSTERS d) GPU_CLUSTERS_BUSY busy
    |> wrF (GPU_SCHED_STATUS d) GPU_SCHED_STATUS_CTX_SAVED (min 0xFF (js.filter (fun j => j.phase != 0 && j.clusters == [])).length)
  let s2 := (upto 8).foldl (fun t c =>
    let a := GPU_CLUSTER d c
    match clusterJob s d c with
    | some j => t |> wrF a GPU_CLUSTER_OWNER j.fn.fn |> wrF a GPU_CLUSTER_OWNER_EP (b2n (j.fn.ep != d)) |> wrF a GPU_CLUSTER_CTX (jobCtx j)
                  |> wrF a GPU_CLUSTER_KIND (b2n (j.kind != 0)) |> wrF a GPU_CLUSTER_WAVES (t.freeNat 0 % (min 16 j.waves + 1)) |> useFree 1
    | none => t |> wrF a GPU_CLUSTER_OWNER 0 |> wrF a GPU_CLUSTER_OWNER_EP 0 |> wrF a GPU_CLUSTER_CTX 0
                |> wrF a GPU_CLUSTER_KIND 0 |> wrF a GPU_CLUSTER_WAVES 0) s1
  (upto 64).foldl (fun t i =>
    let f : Fun := ⟨if i < 32 then d else d.other, i % 32⟩
    let live := if t.rdF (GPU_FUNC_USE d i) GPU_FUNC_USE_SHARE = 0 then 0 else ((js.filter (fun j => j.fn == f && j.phase != 0)).map jobCtx).eraseDups.length
    if t.rdF (GPU_FUNC_USE d i) GPU_FUNC_USE_CTX_LIVE = live then t else wrF (GPU_FUNC_USE d i) GPU_FUNC_USE_CTX_LIVE live t) s2

/-- Cluster time up to now is counted for the functions and the clusters (R273, R289). -/
def account (d : Die) (s : State) : State :=
  let g := s.gpu d
  let dt := s.now d - g.mark
  let use (u : Tab Nat) (j : Job) : Tab Nat := tset j.fn.key (tget 0 j.fn.key u + dt * j.clusters.length) u
  let s1 := setGpu d { g with usage := g.jobs.foldl use g.usage, mark := s.now d } s
  (upto 8).foldl (fun t c =>
    if (clusterJob s d c).isSome then
      let ns := tget 0 c (t.gpu d).busyNs + dt
      t |> setGpu d { t.gpu d with busyNs := tset c (ns % 1000) (t.gpu d).busyNs } |> pcAdd d (16 + c) (ns / 1000)
    else t) s1

/-- A job leaves its die with a status. -/
def endJob (d : Die) (j : Job) (st dt : Nat) (s : State) : State :=
  let g := (account d s).gpu d
  let tag := j.ticket.tag
  account d s |> setGpu d { g with jobs := g.jobs.filter (fun k => k.ticket.tag != tag), ready := g.ready.filter (fun k => k != tag) }
    |> refreshGpu d |> finish j.ticket st dt

/-- Address of a pixel's sample unit in a plane (R167, R168). -/
def pixelAddr (base pitch : Nat) (qxt : Bool) (b x y : Nat) : Nat :=
  if qxt then base + y / 8 * pitch + x / 8 * (64 * b) + ((y % 8) * 8 + x % 8) * b else base + y * pitch + x * b

/-! ## Shader binaries and resource tables (R247–R249) -/

/-- The header of a binary of a stage is right. -/
def shaderOk (bs : List Byte) (stage : Nat) : Bool :=
  let frag := stage == 1
  let comp := stage == 2
  let wg := fb bs 20 2 * fb bs 22 2 * fb bs 24 2
  fb bs 0 4 == 0x51585342 && fb bs 4 2 == 1 && fb bs 6 1 == stage && fb bs 7 1 == 0 && decide (64 ≤ fb bs 8 4 ∧ fb bs 8 4 ≤ 16777216)
    && decide (1 ≤ fb bs 12 1 ∧ fb bs 12 1 ≤ 128) && fbit bs 13 3 5 == 0 && (frag || fbit bs 13 0 3 == 0)
    && (if comp then fb bs 14 1 == 0 else decide (fb bs 14 1 ≤ 16)) && fbit bs 15 4 4 == 0 && (frag || fbit bs 15 0 4 == 0)
    && (if comp then decide (fb bs 16 4 ≤ 65536) else fb bs 16 4 == 0)
    && (if comp then decide (1 ≤ wg ∧ wg ≤ 1024) else fb bs 20 2 == 0 && fb bs 22 2 == 0 && fb bs 24 2 == 0)
    && decide (fb bs 26 2 ≤ 256 ∧ fb bs 26 2 % 4 = 0) && decide (fb bs 28 2 ≤ 4096) && allZero bs 30 34

/-- A binary of a stage: its header, or why the job ends. -/
def readShader (d : Die) (j : Job) (off stage addr : Nat) (s : State) : Except (Nat × Nat) (List Byte) × State :=
  match dmaRead d j.fn j.ticket.ring.ring addr 64 12 s with
  | (.error e, s1) => (.error e.completion, s1)
  | (.ok h, s1) =>
    if shaderOk h stage = false then (.error (stInvalidDesc, invalidDetail 0x08 off), s1)
    else
      match dmaRead d j.fn j.ticket.ring.ring addr (fb h 8 4) 12 s1 with
      | (.error e, s2) => (.error e.completion, s2)
      | (.ok _, s2) => (.ok h, s2)

/-- Bytes of a unit of an image's plane; of YUYV, per pixel (R168); of 0x23, its depth. -/
def unitOf (fmt plane : Nat) : Nat :=
  if fmt = 0x05 ∨ fmt = 0x06 then unitBytes fmt plane else if fmt = 0x07 then 2 else if fmt = 0x23 then 4 else fmtBytes fmt

/-- An entry of a resource table is right (R249). -/
def entryOk (e : List Byte) : Bool :=
  let t := fb e 0 1
  if t = 0 then allZero e 0 32
  else if t = 1 then allZero e 1 7 && allZero e 20 12
  else if t = 2 ∨ t = 3 then
    let fmt := fb e 18 1
    let qxt := fbit e 19 0 1 == 1
    let b := unitOf fmt 0
    allZero e 1 7 && isSampled fmt && fbit e 19 1 7 == 0 && allZero e 27 1 && !(qxt && fmt == 0x07)
      && (if t = 3 then fb e 26 1 == 1 else decide (1 ≤ fb e 26 1 ∧ fb e 26 1 ≤ 14))
      && (if qxt then fb e 8 8 % 256 == 0 && fb e 16 2 * 64 % (64 * b) == 0 else fb e 8 8 % 64 == 0)
  else if t = 4 then
    fbit e 1 3 5 == 0 && decide (fb e 2 1 ≤ 3 ∧ fb e 3 1 ≤ 3 ∧ fb e 4 1 ≤ 3 ∧ fb e 5 1 ≤ 2) && decide (fb e 6 1 ≤ 8) && allZero e 7 1 && allZero e 14 18
  else false

/-- A resource table of n entries. -/
def readTable (d : Die) (j : Job) (off addr n : Nat) (s : State) : Except (Nat × Nat) (List Byte) × State :=
  match dmaRead d j.fn j.ticket.ring.ring addr (32 * n) 12 s with
  | (.error e, s1) => (.error e.completion, s1)
  | (.ok bs, s1) =>
    if (upto n).all (fun i => entryOk ((bs.drop (32 * i)).take 32)) then (.ok bs, s1) else (.error (stInvalidDesc, invalidDetail 0x08 off), s1)

/-! ### Images (R249, R250): a level's second plane follows its first, as a level follows the one before (notes/assumptions/121.md) -/

def imgFmt (e : List Byte) : Nat := fb e 18 1
def imgQxt (e : List Byte) : Bool := fbit e 19 0 1 == 1
def up256 (n : Nat) : Nat := cdiv n 256 * 256

/-- Columns and rows of units in a plane of a mip level. -/
def imgSide (side m plane : Nat) : Nat := if side = 0 then 0 else if plane = 1 then cdiv (max 1 (side / 2 ^ m)) 2 else max 1 (side / 2 ^ m)
def imgCols (e : List Byte) (m plane : Nat) : Nat := imgSide (fb e 20 2) m plane
def imgRows (e : List Byte) (m plane : Nat) : Nat := imgSide (fb e 22 2) m plane

/-- Bytes of a plane of a level at a pitch. -/
def planeSize (e : List Byte) (m plane pitch : Nat) : Nat := (if imgQxt e then cdiv (imgRows e m plane) 8 else imgRows e m plane) * pitch

/-- The smallest pitch that the width of a level allows. -/
def leastPitch (e : List Byte) (m : Nat) : Nat :=
  let b := unitOf (imgFmt e) 0
  if imgQxt e then cdiv (imgCols e m 0) 8 * (64 * b) else cdiv (imgCols e m 0 * b) 64 * 64

/-- Where the planes of a level that starts at `base` begin and end. -/
def secondPlane (e : List Byte) (m base pitch : Nat) : Nat := up256 (base + planeSize e m 0 pitch)
def levelEnd (e : List Byte) (m base pitch : Nat) : Nat :=
  if twoPlanes (imgFmt e) then secondPlane e m base pitch + planeSize e m 1 pitch else base + planeSize e m 0 pitch

/-- Offset and pitch of a mip level. -/
def mipLevel (e : List Byte) : Nat → Nat × Nat
  | 0 => (0, fb e 16 2 * 64)
  | m + 1 =>
    let l := mipLevel e m
    (up256 (levelEnd e m l.1 l.2), leastPitch e (m + 1))

/-- Address and bytes of a unit of an image, if it lies inside its extent. -/
def imgUnit (e : List Byte) (a : ShaderAccess) : Option (Nat × Nat) :=
  let l := mipLevel e a.mip
  let base := fb e 8 8 + a.layer * (fb e 28 4 * 4096) + (if a.plane = 0 then l.1 else secondPlane e a.mip l.1 l.2)
  if a.mip < fb e 26 1 ∧ a.layer < fb e 24 2 ∧ a.plane ≤ b2n (twoPlanes (imgFmt e)) ∧ a.x < imgCols e a.mip a.plane ∧ a.y < imgRows e a.mip a.plane
  then
    some (if imgFmt e = 0x07 then (pixelAddr base l.2 false 2 (a.x / 2 * 2) a.y, 4)
      else (pixelAddr base l.2 (imgQxt e) (unitOf (imgFmt e) a.plane) a.x a.y, unitOf (imgFmt e) a.plane))
  else none

/-- Address and bytes that an access reaches: nothing beyond SIZE or outside the extent (R250). -/
def reached (e : List Byte) (a : ShaderAccess) : Option (Nat × Nat) :=
  let ty := fb e 0 1
  if ty = 1 then some (fb e 8 8 + a.offset, min a.bytes.length (fb e 16 4 - a.offset))
  else if ty = 2 ∨ ty = 3 then (imgUnit e a).map (fun u => (u.1, min a.bytes.length u.2))
  else none

/-- An access of a shader: beyond what is there it reads zero and writes nothing; a translation fault ends the job (R250). -/
def shaderAccess (d : Die) (j : Job) (a : ShaderAccess) (s : State) : Option DmaErr × State :=
  match j.tables[a.table]? with
  | none => (none, s)
  | some t =>
    let e := (t.drop (32 * a.entry)).take 32
    match reached e a with
    | none => (none, s)
    | some (va, n) =>
      if n = 0 ∨ e.length < 32 then (none, s)
      else if a.write then
        if fb e 0 1 = 2 then (none, s) else dmaWrite d j.fn j.ticket.ring.ring va (a.bytes.take n) s
      else
        match dmaRead d j.fn j.ticket.ring.ring va n 12 s with
        | (.error x, s1) => (some x, s1)
        | (.ok _, s1) => (none, s1)

/-- Bytes as they lie in memory, where a function's addresses lead to any: for what a failed job leaves undefined. -/
def peek (d : Die) (f : Fun) (va n : Nat) (s : State) : List Byte :=
  match xlateRange d f false (n / 4096 + 2) va n s with
  | (.ok ks, _) => getChunks s ks
  | (.error _, _) => []

/-! ## Render passes (R251–R254) -/

def passOf (j : Job) : Pass := j.pass.getD ⟨[], 0, none, 0, [], [], none, [], [], 0, 0, 0, [], 0, [], [], [], [], 0, [], 0⟩
def setPass (d : Die) (j : Job) (p : Pass) (s : State) : State := setJob d { j with pass := some p } s

def areaX (j : Job) : Nat := dget j.desc 36 0 16
def areaY (j : Job) : Nat := dget j.desc 38 0 16
def areaW (j : Job) : Nat := dget j.desc 40 0 16
def areaH (j : Job) : Nat := dget j.desc 42 0 16
def streamAddr (j : Job) : Nat := dget j.desc 16 0 64
def streamLen (j : Job) : Nat := dget j.desc 24 0 32

/-- Bin tiles of the render area (R252). -/
def tileCount (j : Job) : Nat := cdiv (areaW j) 32 * cdiv (areaH j) 32

/-- Σb: bytes per sample of every plane. -/
def rSum (r : List Byte) : Nat := ((upto (rColours r)).map (fun n => fmtBytes (fb r (74 + 48 * n) 1))).sum + fmtBytes (fb r 2 1)

/-- Tile storage (R252). -/
def rStorage (r : List Byte) : Nat :=
  (if fbit r 0 0 2 = 0 then 1024 else if fbit r 0 0 2 = 1 then 512 else 256) * rSamples r * rSum r

/-- A field out of range, a format that is no target, or a reserved byte (R253, first row). -/
def rpdBad (r : List Byte) : Bool :=
  let n := rColours r
  let ds := fb r 2 1
  let cd := fb r 60 4
  fbit r 0 0 2 == 3 || fbit r 0 3 5 != 0 || decide (4 < n) || (ds != 0 && !decide (0x20 ≤ ds ∧ ds ≤ 0x23)) || fb r 3 1 != 0
    || !decide (8 ≤ fb r 4 2 ∧ fb r 4 2 ≤ 4096) || fb r 6 2 != 0 || fb r 8 8 % 65536 != 0 || fb r 20 4 != 0 || fb r 24 8 % 4096 != 0
    || (fb r 16 4 == 0 && fb r 24 8 != 0) || fb r 32 8 % 8 != 0 || (ds != 0x23 && fb r 48 8 != 0)
    || fb r 40 8 % 64 != 0 || fb r 48 8 % 64 != 0
    || decide (2 < fbit r 58 0 2) || decide (1 < fbit r 58 2 2) || decide (2 < fbit r 58 4 2) || decide (1 < fbit r 58 6 2)
    || !decide (cd ≤ 0x3F800000 ∨ cd = 0x80000000)
    || (upto n).any (fun i =>
        let o := 48 * i
        let qxt := fbit r (75 + o) 0 1 == 1
        !isTarget (fb r (74 + o) 1) || decide (2 < fbit r (75 + o) 1 2) || fbit r (75 + o) 4 4 != 0 || !allZero r (76 + o) 4
          || !allZero r (96 + o) 16
          || (if qxt then fb r (64 + o) 8 % 256 != 0 || fb r (72 + o) 2 * 64 % (64 * fmtBytes (fb r (74 + o) 1)) != 0 else fb r (64 + o) 8 % 64 != 0))
    || !allZero r (64 + 48 * n) (192 - 48 * n)

/-- A plane of a pass: its format if it is a colour target, where it lies, bytes per pixel there, the part of the pixel it is, its load
and store, its clear value. -/
structure Plane where
  fmt : Nat
  addr : Nat
  pitch : Nat
  qxt : Bool
  b : Nat
  off : Nat
  len : Nat
  load : Nat
  store : Nat
  clear : List Byte
deriving DecidableEq, Repr

def planesOf (r : List Byte) : List Plane :=
  let ds := fb r 2 1
  let pitch := fb r 56 2 * 64
  let dl := fbit r 58 0 2
  let dst := fbit r 58 2 2
  let sl := fbit r 58 4 2
  let sst := fbit r 58 6 2
  let cd := fb r 60 4
  let depth (b n : Nat) (v : List Byte) : Plane := ⟨0, fb r 40 8, pitch, false, b, 0, n, dl, dst, v⟩
  (upto (min 4 (rColours r))).map (fun i =>
      let o := 48 * i
      let f := fb r (74 + o) 1
      Plane.mk f (fb r (64 + o) 8) (fb r (72 + o) 2 * 64) (fbit r (75 + o) 0 1 == 1) (fmtBytes f) 0 (fmtBytes f) (fbit r (75 + o) 1 2) (fbit r (75 + o) 3 1)
        (clearColour f ((upto 4).map (fun k => fb r (80 + o + 4 * k) 4))))
    ++ (if ds = 0x20 then [depth 2 2 (leBytes 2 (toUnorm 16 cd))]
        else if ds = 0x21 then [depth 4 3 (leBytes 3 (toUnorm 24 cd)), ⟨0, fb r 40 8, pitch, false, 4, 3, 1, sl, sst, leBytes 1 (fb r 59 1)⟩]
        else if ds = 0x22 then [depth 4 4 (leBytes 4 cd)]
        else if ds = 0x23 then [depth 4 4 (leBytes 4 cd), ⟨0, fb r 48 8, pitch, false, 1, 0, 1, sl, sst, leBytes 1 (fb r 59 1)⟩]
        else [])

/-- Pixels of the area in a bin tile. -/
def tilePixels (j : Job) (t : Nat) : List (Nat × Nat) :=
  let across := cdiv (areaW j) 32
  let x0 := t % across * 32
  let y0 := t / across * 32
  (upto (min 32 (areaH j - y0))).flatMap (fun y => (upto (min 32 (areaW j - x0))).map (fun x => (areaX j + x0 + x, areaY j + y0 + y)))

/-- A plane's part of a pixel is loaded (R254): read, cleared or left undefined; a value read goes to every sample. -/
def loadPlane (d : Die) (j : Job) (xy : Nat × Nat) (p : Plane) (s : State) : Except DmaErr (List Nat) × State :=
  let n := rSamples (passOf j).rpd
  if p.load = 0 then
    match dmaRead d j.fn j.ticket.ring.ring (pixelAddr p.addr p.pitch p.qxt p.b xy.1 xy.2 + p.off) p.len 12 s with
    | (.error e, s1) => (.error e, s1)
    | (.ok bs, s1) => (.ok (List.replicate n (ofLe bs)), s1)
  else if p.load = 1 then (.ok (List.replicate n (ofLe p.clear)), s)
  else (.ok ((upto n).map (fun k => ofLe (freeBytes p.len (useFree (k * p.len) s)).1)), useFree (n * p.len) s)

/-- A tile that holds no spill slot is loaded. -/
def loadTile (d : Die) (j : Job) (t : Nat) (s : State) : Except DmaErr (List TilePx) × State :=
  collect (fun xy u => collect (loadPlane d j xy) (planesOf (passOf j).rpd) u) (tilePixels j t) s

/-- A tile is stored (R254): each colour as the mean of its samples, depth and stencil from sample 0. -/
def storeTile (d : Die) (j : Job) (x : Nat × List TilePx) (s : State) : Option DmaErr × State :=
  let ps := planesOf (passOf j).rpd
  tryAll (fun (i : Nat) u =>
    match ps[i]? with
    | none => (none, u)
    | some p =>
      if p.store ≠ 0 then (none, u)
      else tryAll (fun (c : (Nat × Nat) × TilePx) v =>
        let codes := c.2.getD i []
        dmaWrite d j.fn j.ticket.ring.ring (pixelAddr p.addr p.pitch p.qxt p.b c.1.1 c.1.2 + p.off)
          (leBytes p.len (if p.fmt = 0 then codes.headD 0 else resolve p.fmt codes)) v) ((tilePixels j x.1).zip x.2) u) (upto ps.length) s

def jobArea (j : Job) : Area := ⟨areaX j, areaY j, areaW j, areaH j⟩

/-- Tiles under their lists, and the samples counted for each QUERY. -/
def drawTiles (j : Job) (frags : List FragOut) : List (Nat × List TilePx) → Tab Nat → List (Nat × List TilePx) × Tab Nat
  | [], qs => ([], qs)
  | (t, px) :: rest, qs =>
    let r := drawTile j.ticket.tag (passOf j).rpd (jobArea j) frags ((passOf j).prims.filter (fun p => p.tiles.contains t)) (tilePixels j t) px qs
    let u := drawTiles j frags rest r.2
    ((t, r.1) :: u.1, u.2)

/-- What a failed job leaves in its targets and its storage is undefined (R246, R261): free bytes. -/
def scribble (d : Die) (j : Job) (s : State) : State :=
  let f := j.fn
  let put (va n : Nat) (u : State) : State :=
    let (bs, v) := freeBytes n u
    (dmaWriteRaw d f va bs v).2
  let s1 := if j.pass.isNone then s
    else (upto (tileCount j)).foldl (fun u t => (planesOf (passOf j).rpd).foldl (fun v p =>
      (tilePixels j t).foldl (fun w xy => put (pixelAddr p.addr p.pitch p.qxt p.b xy.1 xy.2 + p.off) p.len w) v) u) s
  j.tables.foldl (fun u t => (upto (t.length / 32)).foldl (fun v i =>
    let e := (t.drop (32 * i)).take 32
    if fb e 0 1 = 1 then put (fb e 8 8) (fb e 16 4) v
    else if fb e 0 1 = 3 then
      (upto (fb e 24 2)).foldl (fun w l => put (fb e 8 8 + l * (fb e 28 4 * 4096)) (levelEnd e 0 0 (fb e 16 2 * 64)) w) v
    else v) u) s1

/-- A job ends with a failing status. -/
def failJob (d : Die) (j : Job) (st dt : Nat) (s : State) : State := s |> scribble d j |> endJob d j st dt

def failDma (d : Die) (j : Job) (e : DmaErr) (s : State) : State := failJob d j e.completion.1 e.completion.2 s

/-! ## Bin pool and spill (R265–R269) -/

def poolBytes (p : Pass) : Nat := fb p.rpd 4 2 * 2 ^ 20
def fixedUse (j : Job) : Nat := 65536 + 64 * tileCount j

/-- BIN_PEAK so far, 64 KiB units. -/
def binPeak (j : Job) : Nat := min 0xFFFF (cdiv (fixedUse j + (passOf j).peak) 65536)

/-- Outcome of a job's step: it goes on, or ends with a status. -/
abbrev Go := Except (Nat × Nat) Job

/-- The pool is used up to `upTo` bytes: each page must translate to local memory of the die (R253, reason 0x09, though
Table 1.2 would let a pool lie on the other die: notes/assumptions/104.md); what it then holds is opaque. -/
def poolPages (d : Die) (j : Job) : Nat → Nat → State → Option (Nat × Nat) × State
  | 0, _, s => (none, s)
  | n + 1, page, s =>
    let va := fb (passOf j).rpd 8 8 + 4096 * page
    match xlate d j.fn va true s with
    | (.error (.xlate st lv k), s1) => (some (stXlateFault, xlateDetail st lv k), faultSeen d j.fn va (xlateDetail st lv k) j.ticket.ring.ring s1)
    | (.error e, s1) => (some e.completion, s1)
    | (.ok k, s1) =>
      if k < localKey 0 ∨ localDie (k - localKey 0) ≠ d then (some (stInvalidDesc, invalidDetail 0x09 8), s1)
      else
        let (bs, s2) := freeBytes 4096 s1
        poolPages d j n (page + 1) (putChunks [(k, 4096)] bs s2)

def touchPool (d : Die) (j : Job) (s : State) : Option (Nat × Nat) × Job × State :=
  let p := passOf j
  let want := cdiv (fixedUse j + p.use) 4096
  if want ≤ p.touched then (none, j, s)
  else
    let r := poolPages d j (want - p.touched) p.touched s
    (r.1, { j with pass := some { p with touched := want } }, r.2)

/-- Spill slots (R267). -/
def slotBytes (r : List Byte) : Nat := cdiv (1024 * rSamples r * rSum r) 4096 * 4096
def slotTotal (r : List Byte) : Nat := if slotBytes r = 0 then 0 else fb r 16 4 * 65536 / slotBytes r

def passEnded (d : Die) (partials peak : Nat) (s : State) : State :=
  s |> wrF (GPU_BIN_LAST d) GPU_BIN_LAST_PARTIALS (min 0xFF partials) |> wrF (GPU_BIN_LAST d) GPU_BIN_LAST_BIN_PEAK (min 0xFFFF peak)

/-- DETAIL of a pass (R245). -/
def passDetail (partials peak : Nat) : Nat := min 0xFF partials * 65536 + min 0xFFFF peak

/-- A pass ends with OUT_OF_BIN, or with XLATE_FAULT of a spill slot: counted and shown (R269, R270). -/
def outOfBin (d : Die) (j : Job) (slots : Nat) (s : State) : State :=
  s |> satF (GPU_OUT_OF_BIN d) GPU_OUT_OF_BIN_COUNT 1 |> passEnded d (passOf j).partials slots

/-- A read or write of a spill slot fails: a translation fault ends the pass as R269 says. -/
def slotFails (d : Die) (j : Job) (e : DmaErr) (s : State) : State :=
  match e with
  | .xlate _ _ _ => s |> outOfBin d j (passOf j).slots.length |> failDma d j e
  | _ => failDma d j e s

/-- Binning stops for want of room: the slot check, then a partial render begins, or the pass ends (R266, R269). -/
def startPartial (d : Die) (j : Job) (s : State) : State :=
  let p := passOf j
  let slots := p.slots ++ p.lists.filter (fun t => !p.slots.contains t)
  if slotTotal p.rpd < slots.length then
    s |> outOfBin d j slots.length |> failJob d j stOutOfBin (passDetail p.partials slots.length)
  else setJob d { j with phase := 2, pass := some { p with slots := slots } } s

def slotAddr (p : Pass) (t : Nat) : Nat := fb p.rpd 24 8 + slotBytes p.rpd * p.slots.idxOf t

/-- A tile's state before its list is drawn: from its spill slot if it holds one, else by the load fields (R266). The flag tells a failed slot. -/
def takeTile (d : Die) (j : Job) (t : Nat) (s : State) : Except (Bool × DmaErr) (Nat × List TilePx) × State :=
  match tfind t (passOf j).spilled with
  | some px =>
    match dmaRead d j.fn j.ticket.ring.ring (slotAddr (passOf j) t) (slotBytes (passOf j).rpd) 12 s with
    | (.error e, s1) => (.error (true, e), s1)
    | (.ok _, s1) => (.ok (t, px), s1)
  | none =>
    match loadTile d j t s with
    | (.error e, s1) => (.error (false, e), s1)
    | (.ok px, s1) => (.ok (t, px), s1)

def takeFails (d : Die) (j : Job) (x : Bool × DmaErr) (s : State) : State := if x.1 then slotFails d j x.2 s else failDma d j x.2 s

/-- The tile states go to their slots; the layout of a slot is opaque: free bytes (R266, R267). -/
def spillTile (d : Die) (j : Job) (t : Nat) (s : State) : Option DmaErr × State :=
  let (bs, s1) := freeBytes (slotBytes (passOf j).rpd) s
  dmaWrite d j.fn j.ticket.ring.ring (slotAddr (passOf j) t) bs s1

/-- Place primitives in the pool, each within its bound (R265); `extra` is what is left of the draw's vertex term. -/
def placePrims (pool fixed : Nat) : List Prim → Nat → Pass → Pass
  | [], _, p => { p with rest := [] }
  | b :: t, extra, p =>
    let own := 4 + 8 * b.tiles.length
    let cost := min b.bytes (own + min extra b.share)
    if pool < fixed + p.use + cost then { p with rest := b :: t, restExtra := extra }
    else placePrims pool fixed t (extra - (cost - own))
      { p with use := p.use + cost, peak := max p.peak (p.use + cost), lists := (p.lists ++ b.tiles).eraseDups, prims := p.prims ++ [b] }

/-- Bin primitives: on a full pool a partial render begins, or the pass ends. -/
def binPrims (d : Die) (j : Job) (prims : List Prim) (extra : Nat) (s : State) : State :=
  let p := placePrims (poolBytes (passOf j)) (fixedUse j) prims extra (passOf j)
  let (e, j2, s1) := touchPool d { j with pass := some p } (pcAdd d 8 (prims.length - p.rest.length) s)
  match e with
  | some (st, dt) => failJob d j2 st dt s1
  | none => if p.rest = [] then setJob d j2 s1 else startPartial d j2 s1

/-- The pass after a partial render: the tiles' states are in their slots, the pool's data terms are reclaimed (R266). -/
def reclaimed (p : Pass) (r : List (Nat × List TilePx) × Tab Nat) : Pass :=
  { p with use := 0, lists := [], prims := [], partials := p.partials + 1, rest := [], queries := r.2,
           spilled := r.1.foldl (fun t x => tset x.1 x.2 t) p.spilled }

/-- A partial render is done: each listed tile was loaded, drawn and spilled; binning resumes with the stopped primitive, whose
vertices are run again (R260, R266). -/
def partialDone (d : Die) (acc : List ShaderAccess) (frags : List FragOut) (s : State) : State :=
  match (s.gpu d).jobs.find? (fun j => j.kind == 0 && j.phase == 2 && j.clusters != []) with
  | none => s
  | some j =>
    let p := passOf j
    match collect (takeTile d j) p.lists s with
    | (.error x, s1) => takeFails d j x s1
    | (.ok tiles, s1) =>
      match tryAll (shaderAccess d j) acc s1 with
      | (some e, s2) => failDma d j e s2
      | (none, s2) =>
        match tryAll (spillTile d j) p.lists s2 with
        | (some e, s3) => slotFails d j e s3
        | (none, s3) =>
          let j1 := { j with phase := 1, pass := some (reclaimed p (drawTiles j frags tiles p.queries)) }
          s3 |> pcAdd d 9 p.lists.length |> satF (GPU_BIN_OVERFLOWS d) GPU_BIN_OVERFLOWS_COUNT 1
            |> binPrims d j1 p.rest (p.restExtra + ((p.rest.head?).map (fun b => b.share)).getD 0)

/-! ## Draw stream (R255–R261) -/

/-- A stream error ends the pass and is recorded (R261, R270). -/
def streamErr (d : Die) (j : Job) (reason ty : Nat) (s : State) : State :=
  let a := GPU_STREAM_ERR d
  let s1 := if s.flag a GPU_STREAM_ERR_VALID then s
    else s |> wrB a GPU_STREAM_ERR_VALID true |> wrF a GPU_STREAM_ERR_CTX (jobCtx j) |> wrF a GPU_STREAM_ERR_FUNC j.fn.fn
           |> wrF a GPU_STREAM_ERR_EP (b2n (j.fn.ep != d)) |> wrF a GPU_STREAM_ERR_REASON reason |> wrF a GPU_STREAM_ERR_TYPE ty
           |> wr (GPU_STREAM_ERR_OFF d) (BitVec.ofNat 32 (passOf j).pos)
  failJob d j stInvalidDesc (invalidDetail 0x08 16) s1

/-- LEN of a packet (Table 9.2). -/
def lenOk (ty len : Nat) : Bool :=
  if ty = 0 then decide (1 ≤ len) else if ty = 1 ∨ ty = 2 then len == 3 else if ty = 3 then decide (2 ≤ len ∧ len ≤ 65)
  else if ty = 4 then decide (4 ≤ len ∧ len ≤ 25 ∧ len % 3 = 1) else if ty = 5 then len == 4 else if ty = 6 then len == 9
  else if ty = 7 then len == 6 else if ty = 8 then len == 5 else if ty = 9 then len == 6 else if ty = 10 then len == 5 else len == 1

/-- ARG and reserved bytes of a packet. -/
def argOk (ty arg len : Nat) (b : List Byte) : Bool :=
  if ty = 3 then decide (arg + (len - 1) ≤ 64) else if ty = 4 then decide (arg + (len - 1) / 3 ≤ 8) else if ty = 5 then decide (arg ≤ 1)
  else if ty = 8 ∨ ty = 9 then true
  else if ty = 10 then fbit b 16 1 7 == 0 && allZero b 17 3 && fb b 14 2 % 4 == 0 && decide (16 ≤ fb b 14 2 ∧ fb b 14 2 ≤ 2048)
  else arg == 0

/-- Waves of a shader that a cluster can hold (R240). -/
def waveLimit (regs : Nat) : Nat := min 16 (2048 / regs)

/-- A pipeline object's own fields (R256). -/
def pipeOk (o : List Byte) : Bool :=
  let blend (n : Nat) : Bool :=
    let w := fb o (32 + 4 * n) 4
    decide (bitsAt w 1 4 ≤ 12 ∧ bitsAt w 5 4 ≤ 12 ∧ bitsAt w 9 3 ≤ 4 ∧ bitsAt w 12 4 ≤ 12 ∧ bitsAt w 16 4 ≤ 12 ∧ bitsAt w 20 3 ≤ 4 ∧ bitsAt w 27 5 = 0)
  let attr (n : Nat) : Bool :=
    let w := fb o (48 + 4 * n) 4
    decide (bitsAt w 0 4 ≤ 7 ∧ bitsAt w 4 8 ≤ 0x0A ∧ bitsAt w 24 8 = 0)
  decide (fbit o 16 0 4 ≤ 5) && fbit o 16 5 3 == 0 && decide (fbit o 17 0 2 ≤ 2) && fbit o 17 5 3 == 0 && fbit o 18 5 3 == 0 && fbit o 19 1 7 == 0
    && bitsAt (fb o 20 4) 28 4 == 0 && bitsAt (fb o 24 4) 28 4 == 0 && allZero o 28 4
    && (upto 4).all blend && (upto 16).all attr && (upto 8).all (fun b => bitsAt (fb o (112 + 2 * b) 2) 12 3 == 0)

/-- A PIPELINE packet: the object and its shaders are read and checked (R246, R257). -/
def bindPipe (d : Die) (j : Job) (addr : Nat) (s : State) : Except (Nat × Nat) Pipe × State :=
  let wrong : Except (Nat × Nat) Pipe := .error (stInvalidDesc, invalidDetail 0x08 16)
  if addr % 64 ≠ 0 then (wrong, s)
  else
    match dmaRead d j.fn j.ticket.ring.ring addr 128 12 s with
    | (.error e, s1) => (.error e.completion, s1)
    | (.ok o, s1) =>
      if pipeOk o = false then (wrong, s1)
      else
        match readShader d j 16 0 (fb o 0 8) s1 with
        | (.error e, s2) => (.error e, s2)
        | (.ok v, s2) =>
          if fb o 8 8 = 0 then (.ok ⟨o, fb v 14 1, fb v 28 2, none, waveLimit (fb v 12 1)⟩, s2)
          else
            match readShader d j 16 1 (fb o 8 8) s2 with
            | (.error e, s3) => (.error e, s3)
            | (.ok f, s3) =>
              if fb v 14 1 < fb f 14 1 ∨ 2 ^ rColours (passOf j).rpd ≤ fbit f 15 0 4 then (wrong, s3)
              else (.ok ⟨o, fb v 14 1, max (fb v 28 2) (fb f 28 2), some f, max (waveLimit (fb v 12 1)) (waveLimit (fb f 12 1))⟩, s3)

/-- A draw: vertex or index count, instances, first vertex or index, vertex offset, first instance. -/
structure DrawCall where
  count : Nat
  inst : Nat
  first : Nat
  voff : Int
  finst : Nat
deriving DecidableEq, Repr

def drawOf (indexed : Bool) (b : List Byte) : DrawCall :=
  if indexed then ⟨fb b 0 4, fb b 4 4, fb b 8 4, sgn 32 (fb b 12 4), fb b 16 4⟩ else ⟨fb b 0 4, fb b 4 4, fb b 8 4, 0, fb b 12 4⟩

/-- Bytes of a vertex input (Table 9.3). -/
def attrBytes (f : Nat) : Nat :=
  if f = 1 ∨ f = 5 ∨ f = 6 ∨ f = 7 ∨ f = 9 then 4 else if f = 2 ∨ f = 8 ∨ f = 10 then 8 else if f = 3 then 12 else 16

/-- Vertex inputs in use: binding, bytes, offset, stride, per instance. -/
def attrsOf (o : List Byte) : List (Nat × Nat × Nat × Nat × Bool) :=
  (upto 16).filterMap (fun n =>
    let w := fb o (48 + 4 * n) 4
    let b := bitsAt w 0 4
    let st := fb o (112 + 2 * b) 2
    if bitsAt w 4 8 = 0 then none else some (b, attrBytes (bitsAt w 4 8), bitsAt w 12 12, bitsAt st 0 12, nbit st 15))

/-- Vertex fetch of one vertex: what lies beyond SIZE reads zero (R250). -/
def fetchVertex (d : Die) (j : Job) (attrs : List (Nat × Nat × Nat × Nat × Bool)) (v : Int) (inst : Nat) (s : State) : Option DmaErr × State :=
  tryAll (fun (a : Nat × Nat × Nat × Nat × Bool) u =>
    match tfind a.1 (passOf j).vbs with
    | none => (none, u)
    | some (addr, size) =>
      let i : Int := if a.2.2.2.2 then inst else v
      let off := (i * a.2.2.2.1 + a.2.2.1).toNat
      if i < 0 ∨ size < off + a.2.1 then (none, u)
      else
        match dmaRead d j.fn j.ticket.ring.ring (addr + off) a.2.1 12 u with
        | (.error e, w) => (some e, w)
        | (.ok _, w) => (none, w)) attrs s

/-- A restart stands at an index: only strips and fans have any (R256). -/
def restarts (o : List Byte) (n i : Nat) : Bool :=
  fbit o 16 4 1 == 1 && (fbit o 16 0 4 == 2 || fbit o 16 0 4 == 4 || fbit o 16 0 4 == 5) && i == 2 ^ (8 * n) - 1

/-- The vertex at place k of a draw: none where a restart stands; an index beyond SIZE reads zero (R250). -/
def fetchIndex (d : Die) (j : Job) (o : List Byte) (indexed : Bool) (c : DrawCall) (k : Nat) (s : State) : Except DmaErr (Option Int) × State :=
  if indexed = false then (.ok (some (c.first + k : Nat)), s)
  else
    match (passOf j).ib with
    | none => (.ok none, s)
    | some (addr, size, wide) =>
      let n := if wide then 4 else 2
      if size < (c.first + k + 1) * n then (.ok (some c.voff), s)
      else
        match dmaRead d j.fn j.ticket.ring.ring (addr + (c.first + k) * n) n 12 s with
        | (.error e, s1) => (.error e, s1)
        | (.ok bs, s1) => (.ok (if restarts o n (ofLe bs) then none else some ((ofLe bs : Int) + c.voff)), s1)

/-- Index and vertex fetches of a draw: its vertices by place. -/
def fetchDraw (d : Die) (j : Job) (o : List Byte) (indexed : Bool) (c : DrawCall) (s : State) : Except DmaErr (List (Option Int)) × State :=
  match collect (fetchIndex d j o indexed c) (upto c.count) s with
  | (.error e, s1) => (.error e, s1)
  | (.ok vs, s1) =>
    match tryAll (fun (m : Nat) u => tryAll (fun (v : Int) w => fetchVertex d j (attrsOf o) v (c.finst + m) w) (vs.filterMap id) u) (upto c.inst) s1 with
    | (some e, s2) => (.error e, s2)
    | (none, s2) => (.ok vs, s2)

/-- What the vertex shader gives for vertex i of the draw packet at byte `pos` of the stream. -/
def vertexOf (j : Job) (pos : Nat) (out : DrawOut) (i : Nat) : Pos × Nat :=
  let v := (out.verts[i]?).getD
    ⟨(upto 4).map (fun c => (Config.shaded [j.ticket.tag, 0, pos, i, c]).toNat % 2 ^ 32), (Config.shaded [j.ticket.tag, 0, pos, i, 4]).toNat % 2 ^ 32⟩
  let w (c : Nat) : Int := fix32 (v.pos.getD c 0)
  (⟨w 0, w 1, w 2, w 3⟩, v.size)

/-- Bin tiles that a shape's bounding box touches within the area (R265). -/
def touchedTiles (j : Job) (width : Nat) (sh : Shape) : List Nat :=
  let across := cdiv (areaW j) 32
  (upto (tileCount j)).filter (fun t =>
    let x := t % across * 32
    let y := t / across * 32
    boxTouches width sh (areaX j + x) (areaY j + y) (areaX j + min (areaW j) (x + 32)) (areaY j + min (areaH j) (y + 32)))

/-- The primitives of a draw that survive clipping and culling, in order of instance and place (R264, R265); `base` counts the vertices of
the packet's earlier draws, and each primitive comes with its number of vertices. -/
def drawShapes (j : Job) (st : DrawState) (out : DrawOut) (pos base : Nat) (c : DrawCall) (vs : List (Option Int)) : List (Shape × Nat) :=
  (upto c.inst).flatMap (fun m => ((runs vs 0 []).flatMap (groups (fbit st.pipe.obj 16 0 4))).filterMap (fun g =>
    (shapeOf (jobArea j) st (g.map (fun k => vertexOf j pos out (base + m * c.count + k)))).map (fun sh => (sh, g.length))))

def packetShapes (j : Job) (st : DrawState) (out : DrawOut) (pos : Nat) : List (DrawCall × List (Option Int)) → Nat → List (Shape × Nat)
  | [], _ => []
  | (c, vs) :: t, base => drawShapes j st out pos base c vs ++ packetShapes j st out pos t (base + c.count * c.inst)

/-- Surviving primitives, numbered on from those the pass has had. -/
def numbered (j : Job) (st : DrawState) (out : DrawOut) (pos : Nat) : List (Shape × Nat) → Nat → List Prim
  | [], _ => []
  | (sh, n) :: t, i =>
    ⟨(passOf j).count + i, st, sh, touchedTiles j (lineWidth st.dyn) sh,
      (out.bytes[i]?).getD (Config.shaded [j.ticket.tag, 2, pos, i]).toNat, 16 * (1 + st.pipe.vary) * n⟩ :: numbered j st out pos t (i + 1)

/-- One draw packet of `len` words, or the draws of an indirect one: state checks, fetches, shader accesses, assembly, clipping and culling,
binning (R259, R261–R265). -/
def runDraws (d : Die) (j : Job) (ty len query : Nat) (indexed : Bool) (cs : List DrawCall) (out : DrawOut) (acc : List ShaderAccess) (s : State) :
    State :=
  let p := passOf j
  let j0 := { j with pass := some { p with pos := p.pos + 4 * len } }
  let n := match p.ib with
    | some (_, _, true) => 4
    | _ => 2
  let size := match p.ib with
    | some (_, z, _) => z
    | none => 0
  match p.pipe with
  | none => streamErr d j 4 ty s
  | some pipe =>
    let work := cs.filter (fun c => c.count != 0 && c.inst != 0)
    if (attrsOf pipe.obj).any (fun a => (tfind a.1 p.vbs).isNone) ∨ (indexed ∧ p.ib.isNone) then streamErr d j 4 ty s
    else if indexed ∧ work.any (fun c => decide (size ≤ c.first * n)) then streamErr d j 5 ty s
    else if work = [] then setJob d j0 s
    else
      let (tab, s1) : Except (Nat × Nat) (List Byte) × State := if p.res = 0 ∨ pipe.res = 0 then (.ok [], s) else readTable d j 16 p.res pipe.res s
      match tab with
      | .error (st, dt) => failJob d { j with tables := j.tables ++ [peek d j.fn p.res (32 * pipe.res) s] } st dt s1
      | .ok t =>
        let j1 := if t = [] ∨ j.tables.contains t then j0 else { j0 with tables := j.tables ++ [t] }
        match collect (fetchDraw d j1 pipe.obj indexed) work s1 with
        | (.error e, s2) => failDma d j1 e s2
        | (.ok vs, s2) =>
          match tryAll (shaderAccess d j1) acc s2 with
          | (some e, s3) => failDma d j1 e s3
          | (none, s3) =>
            let st : DrawState := ⟨pipe, p.viewport, p.dynamic, query⟩
            let ps := numbered j st out p.pos (packetShapes j st out p.pos (work.zip vs) 0) 0
            binPrims d { j1 with pass := some { passOf j1 with count := p.count + ps.length } } ps
              (16 * (1 + pipe.vary) * ((work.map (fun c => c.count * c.inst)).sum)) s3

/-- The indirect records, as they lie in memory. -/
def readRecords (d : Die) (j : Job) (addr stride size n : Nat) (s : State) : Except DmaErr (List (List Byte)) × State :=
  collect (fun (i : Nat) u => dmaRead d j.fn j.ticket.ring.ring (addr + i * stride) size 12 u) (upto n) s

/-- The binner reads the packet at its place in the stream, if it is of the given type: a malformed packet ends the pass. -/
def packet (d : Die) (want : Nat) (out : DrawOut) (acc : List ShaderAccess) (s : State) : State :=
  match (s.gpu d).jobs.find? (fun j => j.kind == 0 && j.phase == 1 && j.clusters != []) with
  | none => s
  | some j =>
    let p := passOf j
    let ring := j.ticket.ring.ring
    if streamLen j < p.pos + 4 then streamErr d j 6 0 s
    else
      match dmaRead d j.fn ring (streamAddr j + p.pos) 4 12 s with
      | (.error e, s1) => failDma d j e s1
      | (.ok h, s1) =>
        let ty := fb h 0 1
        let arg := fb h 1 1
        let len := fb h 2 2
        if 0x0B < ty then streamErr d j 1 ty s1
        else if ty ≠ want then s
        else if lenOk ty len = false then streamErr d j 2 ty s1
        else if streamLen j < p.pos + 4 * len then streamErr d j 6 ty s1
        else
          match dmaRead d j.fn ring (streamAddr j + p.pos) (4 * len) 12 s1 with
          | (.error e, s2) => failDma d j e s2
          | (.ok b, s2) =>
            if argOk ty arg len b = false then streamErr d j 3 ty s2
            else
              let q := { p with pos := p.pos + 4 * len }
              let go (x : Pass) (t : State) : State := setPass d j x t
              if ty = 0x00 then go q s2
              else if ty = 0x01 then
                match bindPipe d j (fb b 4 8) s2 with
                | (.error (st, dt), s3) => failJob d j st dt s3
                | (.ok o, s3) => setPass d { j with waves := max j.waves o.waves } { q with pipe := some o } s3
              else if ty = 0x02 then go { q with res := fb b 4 8 } s2
              else if ty = 0x03 then go { q with consts := (upto (len - 1)).foldl (fun c i => tset (arg + i) (fb b (4 + 4 * i) 4) c) q.consts } s2
              else if ty = 0x04 then
                go { q with vbs := (upto ((len - 1) / 3)).foldl (fun v i => tset (arg + i) (fb b (4 + 12 * i) 8, fb b (12 + 12 * i) 4) v) q.vbs } s2
              else if ty = 0x05 then go { q with ib := some (fb b 4 8, fb b 12 4, arg == 1) } s2
              else if ty = 0x06 then go { q with viewport := b.drop 4 } s2
              else if ty = 0x07 then go { q with dynamic := b.drop 4 } s2
              else if ty = 0x08 then runDraws d j ty len arg false [drawOf false (b.drop 4)] out acc s2
              else if ty = 0x09 then runDraws d j ty len arg true [drawOf true (b.drop 4)] out acc s2
              else if ty = 0x0A then
                let ix := fbit b 16 0 1 == 1
                let n := fb b 12 2
                let size := if ix then 20 else 16
                if fb b 4 8 % 4 ≠ 0 then streamErr d j 3 ty s2
                else if n ≠ 0 ∧ 2 ^ 48 < fb b 4 8 + (n - 1) * fb b 14 2 + size then streamErr d j 5 ty s2
                else
                  match readRecords d j (fb b 4 8) (fb b 14 2) size n s2 with
                  | (.error e, s3) => failDma d j e s3
                  | (.ok rs, s3) => runDraws d j ty len arg ix (rs.map (drawOf ix)) out acc s3
              else
                -- END: the final render takes every tile (R266).
                setJob d { j with phase := 3, pass := some q } s2

/-! ## Starting a job (R246) -/

/-- A pass reads its render-pass descriptor. -/
def startPass (d : Die) (j : Job) (s : State) : State :=
  match dmaRead d j.fn j.ticket.ring.ring (dget j.desc 8 0 64) 256 12 s with
  | (.error e, s1) => failDma d j e s1
  | (.ok r, s1) =>
    let j1 := { j with phase := 1, pass := some { passOf { j with pass := none } with rpd := r } }
    if rpdBad r then failJob d j1 stInvalidDesc (invalidDetail 0x08 8) s1
    else if 65536 < rStorage r then failJob d j1 stInvalidDesc (invalidDetail 0x0B 8) s1
    else
      let (e, j2, s2) := touchPool d j1 s1
      match e with
      | some (st, dt) => failJob d j2 st dt s2
      | none => setJob d j2 s2

/-- Waves and workgroups of a compute shader: waves of one workgroup, and waves that a cluster can hold (R240, R248). -/
def groupWaves (h : List Byte) : Nat := cdiv (fb h 20 2 * fb h 22 2 * fb h 24 2) 64
def computeWaves (h : List Byte) : Nat :=
  min (waveLimit (fb h 12 1)) (if fb h 16 4 = 0 then 16 else 65536 / fb h 16 4 * groupWaves h)

/-- A dispatch of a number of workgroups reads its binary, resource table and constants. -/
def loadDispatch (d : Die) (j : Job) (groups : Nat) (s : State) : State :=
  let ring := j.ticket.ring.ring
  let res := dget j.desc 16 0 64
  -- what a dispatch that fails leaves undefined: the storage that its table names, as it lies
  let jf := { j with tables := [peek d j.fn res (32 * min 4096 (fb (peek d j.fn (dget j.desc 8 0 64) 64 s) 28 2)) s] }
  match readShader d j 8 2 (dget j.desc 8 0 64) s with
  | (.error (st, dt), s1) => failJob d jf st dt s1
  | (.ok h, s1) =>
    let (tab, s2) : Except (Nat × Nat) (List Byte) × State := if fb h 28 2 = 0 then (.ok [], s1) else readTable d j 16 res (fb h 28 2) s1
    match tab with
    | .error (st, dt) => failJob d jf st dt s2
    | .ok t =>
      match dmaRead d j.fn ring (dget j.desc 40 0 64) (fb h 26 2) 12 s2 with
      | (.error e, s3) => failDma d jf e s3
      | (.ok _, s3) => setJob d { j with phase := 1, tables := if t = [] then [] else [t], waves := computeWaves h, groups := groups } s3

/-- A dispatch starts; an indirect one reads its counts first, and touches nothing more where they are zero (R244). -/
def startDispatch (d : Die) (j : Job) (s : State) : State :=
  if j.kind = 1 then loadDispatch d j (dget j.desc 24 0 32 * dget j.desc 28 0 16 * dget j.desc 30 0 16) s
  else
    match dmaRead d j.fn j.ticket.ring.ring (dget j.desc 24 0 64) 12 12 s with
    | (.error e, s1) => failDma d j e s1
    | (.ok b, s1) =>
      if fb b 0 4 * fb b 4 4 * fb b 8 4 = 0 then endJob d j stOkEmpty 0 s1 else loadDispatch d j (fb b 0 4 * fb b 4 4 * fb b 8 4) s1

def startJob (d : Die) (j : Job) (s : State) : State :=
  if s.split ∧ j.fn.ep ≠ d then endJob d j stPeerLost 0 s else if j.kind = 0 then startPass d j s else startDispatch d j s

/-! ## Descriptors (R243, R244) -/

/-- CTX and the deadline fields. -/
def jobRange (kind : Nat) (q : RingId) (d : Desc) (s : State) : Option (Nat × Nat) :=
  let cOff := if kind = 0 then 28 else 32
  let ctx := dget d cOff 0 4
  let n := if q.fn.fn = 0 ∨ q.fn.fn = 63 then 0 else s.rdF (TENANT_CFG q.fn) TENANT_CFG_GPU_CTX
  let h := dlHead kind d
  firstFail [bad (n == 0) 0x0B cOff, bad (decide (n ≤ ctx)) 0x08 cOff,
    bad (dlSet kind d && classOf s q.fn != 1) 0x08 (cOff + 1),
    bad (if dlSet kind d then decide (8 ≤ h) || !unitPresent s.part (headDie h) (bitHead (headNo h)) else h != 0) 0x08 (cOff + 2),
    bad (!dlSet kind d && dlFrame kind d != 0) 0x08 (cOff + 4)]

/-- The deadline of a fetched descriptor is in force: its head has been enabled since, and no split parts it from the die (R278). -/
def dlInForce (s : State) (d : Die) (tag kind : Nat) (desc : Desc) : Bool :=
  let h := dlHead kind desc
  dlSet kind desc && headOn s h && decide ((s.head h).onTag ≤ tag) && !(s.split && headDie h != d)

/-- A job is fetched: it waits for clusters. -/
def addJob (kind : Nat) (t : Ticket) (desc : Desc) (s : State) : Option (Nat × Nat) × State :=
  let d := gpuDie s t.fn
  if s.split ∧ t.fn.ep ≠ d then (some (stPeerLost, 0), s)
  else
    let j : Job := ⟨t, kind, desc, 0, dlInForce s d t.tag kind desc, [], 0, 0, none, false, none, 0, []⟩
    (none, setGpu d { s.gpu d with jobs := (s.gpu d).jobs ++ [j] } s)

def opRenderPass : OpSpec := .onRing 1 <|
  mkOp 0x10 false ([(28, 4, 4), (29, 1, 7), (31, 0, 8)] ++ rsv 44 64) noUnits
   (fun q d s => firstFail [jobRange 0 q d s, bad (dget d 8 0 8 != 0) 0x08 8, bad (dget d 16 0 2 != 0) 0x08 16,
      bad (decide (dget d 24 0 32 % 4 ≠ 0 ∨ 64 * 2 ^ 20 < dget d 24 0 32)) 0x08 24,
      bad (decide (8192 < dget d 36 0 16 + dget d 40 0 16)) 0x08 36, bad (decide (8192 < dget d 38 0 16 + dget d 42 0 16)) 0x08 38])
   (fun d _ => dget d 24 0 32 == 0 || dget d 40 0 16 == 0 || dget d 42 0 16 == 0)
   (fun t d s => addJob 0 t d s)

/-- Addresses of a dispatch. -/
def dispatchAddrs (d : Desc) : Option (Nat × Nat) :=
  firstFail [bad (dget d 8 0 8 != 0) 0x08 8, bad (dget d 16 0 6 != 0) 0x08 16, bad (dget d 40 0 2 != 0) 0x08 40]

def opDispatch : OpSpec := .onRing 2 <|
  mkOp 0x10 false ([(32, 4, 4), (33, 1, 7), (35, 0, 8)] ++ rsv 48 64) noUnits
   (fun q d s => firstFail [jobRange 1 q d s, dispatchAddrs d, bad (decide (16777215 < dget d 24 0 32)) 0x08 24])
   (fun d _ => dget d 24 0 32 == 0 || dget d 28 0 16 == 0 || dget d 30 0 16 == 0)
   (fun t d s => addJob 1 t d s)

def opDispatchIndirect : OpSpec := .onRing 2 <|
  mkOp 0x11 false ([(32, 4, 4), (33, 1, 7), (35, 0, 8)] ++ rsv 48 64) noUnits
   (fun q d s => firstFail [jobRange 1 q d s, dispatchAddrs d, bad (dget d 24 0 3 != 0) 0x08 24]) notEmpty
   (fun t d s => addJob 2 t d s)

/-! ## Meanings -/

def execRenderPass (q : RingId) (desc : Desc) (s : State) : Host.Outcome State Fault Refusal := run (submit opRenderPass q desc) s

def execDispatch (q : RingId) (desc : Desc) (s : State) : Host.Outcome State Fault Refusal := run (submit opDispatch q desc) s

def execDispatchIndirect (q : RingId) (desc : Desc) (s : State) : Host.Outcome State Fault Refusal := run (submit opDispatchIndirect q desc) s

/-- A packet that draws nothing. -/
def noDraw : DrawOut := ⟨[], []⟩

def execDrawNop (d : Die) (s : State) : Host.Outcome State Fault Refusal := run (packet d 0x00 noDraw []) s

def execPipeline (d : Die) (s : State) : Host.Outcome State Fault Refusal := run (packet d 0x01 noDraw []) s

def execResources (d : Die) (s : State) : Host.Outcome State Fault Refusal := run (packet d 0x02 noDraw []) s

def execConstants (d : Die) (s : State) : Host.Outcome State Fault Refusal := run (packet d 0x03 noDraw []) s

def execVertexBuffers (d : Die) (s : State) : Host.Outcome State Fault Refusal := run (packet d 0x04 noDraw []) s

def execIndexBuffer (d : Die) (s : State) : Host.Outcome State Fault Refusal := run (packet d 0x05 noDraw []) s

def execViewport (d : Die) (s : State) : Host.Outcome State Fault Refusal := run (packet d 0x06 noDraw []) s

def execDynamic (d : Die) (s : State) : Host.Outcome State Fault Refusal := run (packet d 0x07 noDraw []) s

def execDraw (d : Die) (out : DrawOut) (accesses : List ShaderAccess) (s : State) : Host.Outcome State Fault Refusal :=
  run (packet d 0x08 out accesses) s

def execDrawIndexed (d : Die) (out : DrawOut) (accesses : List ShaderAccess) (s : State) : Host.Outcome State Fault Refusal :=
  run (packet d 0x09 out accesses) s

def execDrawIndirect (d : Die) (out : DrawOut) (accesses : List ShaderAccess) (s : State) : Host.Outcome State Fault Refusal :=
  run (packet d 0x0A out accesses) s

def execEndStream (d : Die) (s : State) : Host.Outcome State Fault Refusal := run (packet d 0x0B noDraw []) s

def execPartialRenderDone (d : Die) (shown : Shaded) (s : State) : Host.Outcome State Fault Refusal := run (partialDone d shown.accesses shown.frags) s

end Sys2Proof.Machine
end

