-- ==== Sys2Proof/Machine/Samples.lean ====
section
/-! DEFINITION. Audio samples: formats, gains, ramps, biquads, delay and limiter of Table 12.1 (chapter 12). What a rounding, a power
of ten or a converter decides is open (notes/assumptions/16.md). -/
namespace Sys2Proof.Machine

/-- Samples of all channels at one instant, Q7.24 (R316). -/
abbrev Frame := List Int

/-- Sums and products saturate at ±128 (R317). -/
def satQ (x : Int) : Int := max (-2147483648) (min 2147483647 x)

/-- A quotient as a whole number: exact where it is one, else a neighbour, for the rounding is not stated. -/
def openRound (num : Int) (den : Nat) : Int := num / (den : Int) + (if num % (den : Int) = 0 then 0 else (b2n (Config.roundsUp num den) : Int))

/-- The nearest whole number; which one of two equally near is not stated. -/
def roundNear (num : Int) (den : Nat) : Int :=
  let r := 2 * (num % (den : Int))
  num / (den : Int) + (if r < den then 0 else if (den : Int) < r then 1 else (b2n (Config.roundsUp num den) : Int))

/-! ## Formats (R317) -/

/-- An integer sample of `bits` bits: its full scale is 1.0. -/
def fromInt (bits : Nat) (v : Int) : Int := if bits ≤ 25 then v * 2 ^ (25 - bits) else openRound v (2 ^ (bits - 25))

/-- An F32 sample, clamped to ±128; a NaN gives an open value. -/
def fromF32 (w : Nat) : Int :=
  let e := bitsAt w 23 8
  let m : Int := (bitsAt w 0 23 : Int) + (if e = 0 then 0 else 8388608)
  let x : Int := if bitsAt w 31 1 = 1 then -m else m
  if e = 255 ∧ bitsAt w 0 23 ≠ 0 then satQ (sgn 32 (Config.narrow 0 w).toNat)
  else satQ (if 126 ≤ e then x * 2 ^ (e - 126) else openRound x (2 ^ (126 - max 1 e)))

/-- A sample of a playback frame, by FMT (R327). -/
def fromMem (fmt : Nat) (bs : List Byte) : Int :=
  let w := ofLe bs
  if fmt = 0 then fromInt 16 (sgn 16 (w % 2 ^ 16)) else if fmt = 1 then fromInt 24 (sgn 24 (w % 2 ^ 24))
  else if fmt = 2 then fromInt 32 (sgn 32 (w % 2 ^ 32)) else fromF32 (w % 2 ^ 32)

/-- Full scale, 1.0. -/
def oneQ : Int := 16777216

/-- A sample lies beyond ±1.0: at a sink it is a clip. -/
def clips (v : Int) : Bool := decide (v < -oneQ ∨ oneQ < v)

/-- A sample as an integer of `bits` bits, saturated to full scale. -/
def toInt (bits : Nat) (v : Int) : Int := min (2 ^ (bits - 1) - 1) (roundNear (max (-oneQ) (min oneQ v) * 2 ^ (bits - 1)) (2 ^ 24))

/-- A sample as an F32 word, saturated to full scale: 25 bits of magnitude, of which the lowest is 0 where the highest is set. -/
def toF32 (v : Int) : Nat :=
  let c := max (-oneQ) (min oneQ v)
  let a := c.natAbs
  let e := Nat.log2 a
  if a = 0 then 0 else (if c < 0 then 2 ^ 31 else 0) + (e + 103) * 2 ^ 23 + (if e ≤ 23 then a * 2 ^ (23 - e) else a / 2) % 2 ^ 23

/-- A sample of a captured frame, by FMT. -/
def toMem (fmt : Nat) (v : Int) : List Byte :=
  if fmt = 0 then leBytes 2 (unsgn 16 (toInt 16 v)) else if fmt = 1 then leBytes 4 (unsgn 32 (toInt 24 v))
  else if fmt = 2 then leBytes 4 (unsgn 32 (toInt 32 v)) else leBytes 4 (toF32 v)

/-! ## Gains and ramps (R324, R329) -/

def muteCb : Int := -12000

/-- A sample under a gain of num/den hundredths of a dB: the factor 10^(G/2,000) is exact at 0 only. -/
def gained (num : Int) (den : Nat) (x : Int) : Int := if num = 0 ∨ x = 0 then x else satQ (Config.gained num den x)

/-- A sample under a settled gain; −12,000 is mute. -/
def gainBy (cb x : Int) : Int := if cb = muteCb then 0 else gained cb 1 x

/-- Value of a ramp at a time, 0.01 dB, fractions dropped; from or to mute it is linear in amplitude. -/
def Ramp.at (r : Ramp) (t : Nat) : Int :=
  let k := t - r.start
  if r.start + r.len ≤ t then r.dst
  else if r.src = muteCb then (if k = 0 then muteCb else r.dst + Config.logCb k r.len)
  else if r.dst = muteCb then r.src + Config.logCb (r.len - k) r.len
  else r.src + (r.dst - r.src) * (k : Int) / (r.len : Int)

/-- A sample under a gain that moves linearly in dB. -/
def rampDb (r : Ramp) (t : Nat) (x : Int) : Int :=
  let k : Int := ((t - r.start : Nat) : Int)
  if r.start + r.len ≤ t then gained r.dst 1 x else gained (r.src * ((r.len : Int) - k) + r.dst * k) r.len x

/-- A sample under a gain that moves (R329): a ramp from or to mute is linear in amplitude. -/
def rampGain (r : Ramp) (t : Nat) (x : Int) : Int :=
  let k := t - r.start
  if r.start + r.len ≤ t then gainBy r.dst x
  else if r.src = muteCb then gainBy r.dst (openRound (x * k) r.len)
  else if r.dst = muteCb then gainBy r.src (openRound (x * ((r.len - k : Nat) : Int)) r.len)
  else rampDb r t x

/-- Device time of sample i of a block of 48. -/
def sampleTime (t i : Nat) : Nat := t + i * 500000 / 48

/-! ## Envelopes (R329, R331) -/

/-- Envelope of a route at a time, as a fraction. -/
def AudioRoute.env (y : AudioRoute) (t : Nat) : Nat × Nat :=
  if y.envEnd ≤ t then (b2n y.up, 1)
  else
    let k := t + y.envLen - y.envEnd
    (y.envFrom.1 * (y.envLen - k) + (if y.up then y.envFrom.2 * k else 0), y.envFrom.2 * y.envLen)

/-- A ramp-in that began at a time. -/
def rampIn (start len t : Nat) : Nat × Nat := if start + len ≤ t then (1, 1) else (t - start, len)

def faded (e : Nat × Nat) (x : Int) : Int := if e.1 = e.2 then x else openRound (x * e.1) e.2

/-! ## Biquads (R332) -/

/-- A biquad: coefficients b0, b1, b2, a1, a2 in S2.29; state x₁, x₂, y₁, y₂. -/
def biquad (k st : List Int) (x : Int) : Int × List Int :=
  let c (i : Nat) : Int := k.getD i 0
  let z (i : Nat) : Int := st.getD i 0
  let y := satQ (openRound (c 0 * x + c 1 * z 0 + c 2 * z 1 - c 3 * z 2 - c 4 * z 3) (2 ^ 29))
  (y, [x, z 0, y, z 2])

/-- The enabled biquads of a channel in order, from biquad n; `st`: their states. -/
def biquads (coef : List Nat) (en : Nat) : Nat → List (List Int) → Int → Int × List (List Int)
  | _, [], x => (x, [])
  | n, s :: t, x =>
    let (y, s1) := if nbit en n then biquad ((upto 5).map (fun i => sgn 32 (coef.getD (5 * n + i) 0))) s x else (x, s)
    let (z, t1) := biquads coef en (n + 1) t y
    (z, s1 :: t1)

/-! ## A bus (Table 12.1, stages 4–7) -/

/-- Hundredths of a dB of the auto-scale factor 1/N. -/
def scaleCb (n : Nat) : Int := if n ≤ 1 then 0 else Config.logCb 1 n

/-- Stage 4: master gain, auto-scale, duck. -/
def busStage4 (x : AudioBus) (duck : Option Ramp) (t : Nat) (v : Int) : Int :=
  let m := rampGain x.master t v
  let a := if x.scaleEnd ≤ t then (if x.scale ≤ 1 then m else openRound m x.scale) else rampDb x.scaleRamp t m
  match duck with
  | none => a
  | some r => rampDb ⟨-r.src, -r.dst, r.start, r.len⟩ t a

/-- Largest magnitude. -/
def peakOf (f : Frame) : Nat := (f.map Int.natAbs).foldl max 0

/-- Amplitude of the limiter's threshold. -/
def limitAt (fx : Desc) : Nat := (gained (sgn 16 (dget fx 14 0 16)) 1 oneQ).toNat

/-- Stage 6: the delay, a change of which is made at the bottom of a 1 ms ramp down and up. -/
def busDelay (x : AudioBus) (v : Frame) : Frame × AudioBus :=
  let hist := (v :: x.line).take 961
  let p := x.delayPos
  let dl := if p = 96 then dget x.fx 12 0 16 else x.delay
  let w := if p = 0 then 96 else if p ≤ 96 then 96 - p else p - 96
  ((hist.getD dl []).map (fun s => faded (w, 96) s),
    { x with line := hist.take 960, delay := dl, delayPos := if p = 0 ∨ 192 ≤ p then 0 else p + 1 })

/-- Stage 7: 1 ms of look-ahead; while the limiter is at work its gain is open, but the threshold is met, for all channels alike. -/
def busLimit (x : AudioBus) (t gain : Nat) (v : Frame) : Frame × AudioBus :=
  let win := v :: x.ahead
  let out := win.getD 96 []
  let thr := limitAt x.fx
  let on := dget x.fx 9 0 1 == 1
  let exceeds := decide (thr < peakOf out)
  let works := on && (decide (t < x.limUntil) || win.any (fun f => decide (thr < peakOf f)))
  let g := gain % 65537
  (if works then out.map (fun s => if peakOf out * g ≤ thr * 65536 then openRound (s * g) 65536 else openRound (s * thr) (peakOf out)) else out,
    { x with ahead := win.take 96, limUntil := if on && exceeds then t + 1000000 * dget x.fx 16 0 16 else x.limUntil })

/-- One sample of a bus, from its sum to stage 8. -/
def busSample (x : AudioBus) (duck : Option Ramp) (t gain : Nat) (v : Frame) : Frame × AudioBus :=
  let r := (upto v.length).map (fun c =>
    biquads x.coef (dget x.fx 10 0 8) 0 (x.filt.getD c (List.replicate 8 [])) (busStage4 x duck t (v.getD c 0)))
  let (d, x1) := busDelay { x with filt := r.map (fun y => y.2) } (r.map (fun y => y.1))
  let (l, x2) := busLimit x1 t gain (if d = [] then v.map (fun _ => 0) else d)
  (if l = [] then v.map (fun _ => 0) else l, x2)

/-- A block of a bus; `gain` gives the limiter's open gains. -/
def busBlock (duck : Option Ramp) (t : Nat) (gain : Nat → Nat) : Nat → List Frame → AudioBus → List Frame × AudioBus
  | _, [], x => ([], x)
  | i, v :: vs, x =>
    let (o, x1) := busSample x duck (sampleTime t i) (gain i) v
    let (os, x2) := busBlock duck t gain (i + 1) vs x1
    (o :: os, x2)

end Sys2Proof.Machine
end

