-- ==== Sys2Proof/Machine/Audio.lean ====
section
/-! DEFINITION. The audio engine of die A: ports, buses, routes, effects, meters, ducking, playback and capture (chapter 12). What
converters decide is free (notes/assumptions/16.md). -/
namespace Sys2Proof.Machine

def AudioRoute.empty : AudioRoute := ⟨0, false, true, 0, (0, 1), 0, Ramp.flat 0, none, [], 0, false, 0, false⟩
def Audio.empty : Audio := ⟨[], [], [], [], [], [], [], 0, 0, 0, Ramp.flat 0, 0⟩

def setBus (b : Nat) (x : AudioBus) (s : State) : State := { s with audio := { s.audio with buses := tset b x s.audio.buses } }
def State.aroute (s : State) (h : Nat) : AudioRoute := tget AudioRoute.empty h s.audio.routes
def setARoute (h : Nat) (x : AudioRoute) (s : State) : State := { s with audio := { s.audio with routes := tset h x s.audio.routes } }

def busClass (s : State) (b : Nat) : Nat := s.rdF (AUDIO_BUS_CFG .a b) AUDIO_BUS_CFG_CLASS
def busChannels (s : State) (b : Nat) : Nat := s.rdF (AUDIO_BUS_CFG .a b) AUDIO_BUS_CFG_CHANNELS
def busOwner (s : State) (b : Nat) : Fun :=
  ⟨if s.rdF (AUDIO_BUS_CFG .a b) AUDIO_BUS_CFG_OWNER_EP = 0 then .a else .b, s.rdF (AUDIO_BUS_CFG .a b) AUDIO_BUS_CFG_OWNER⟩

/-- Ramp time of a bus, ns. -/
def busRamp (s : State) (b : Nat) : Nat := 1000000 * s.rdF (AUDIO_BUS_CFG .a b) AUDIO_BUS_CFG_RAMP_MS

/-! ## Routes (R326–R331) -/

/-- Form A: a source into a bus. Form B: a bus into a sink. -/
def audioA (r : Route) : Bool := r.kind == 3 && epType r.sink == 0x24
def audioB (r : Route) : Bool := r.kind == 3 && epType r.source == 0x24
def isPlayback (r : Route) : Bool := audioA r && epType r.source == 0xF0
def isCapture (r : Route) : Bool := audioB r && epType r.sink == 0x27
def aChannels (r : Route) : Nat := pget r 32 0 4
def aFmt (r : Route) : Nat := pget r 32 4 4
def aGain (r : Route) : Int := sgn 16 (pget r 34 0 16)
def aRate (r : Route) : Nat := pget r 36 0 32
def aMap (r : Route) : Nat := pget r 40 0 32
def frameBytes (r : Route) : Nat := aChannels r * (if aFmt r = 0 then 2 else 4)

/-- Bus of a route. -/
def busOf (r : Route) : Nat := if audioA r then epSub r.sink else epSub r.source

def audioRoutes (s : State) : List (Nat × Route) := routesOf s 3
def busInputs (s : State) (b : Nat) : List (Nat × Route) := (audioRoutes s).filter (fun x => audioA x.2 && epSub x.2.sink == b)
def busLive (s : State) (b : Nat) : Bool := (audioRoutes s).any (fun x => busOf x.2 == b)

def gainOk (g : Int) : Bool := decide (-12000 ≤ g ∧ g ≤ 2400)

/-- The channel map of a route or an injection: `n` channels on the sink side, `m` on the source side. -/
def mapOk (map n m : Nat) : Bool :=
  (upto 8).all (fun c => let v := bitsAt map (4 * c) 4; v == 0xF || (decide (c < n) && decide (v < m)))

/-- Two routes take a source in common: slots of a TDM port, microphones, a tone generator. -/
def sameSource (a b : Route) : Bool :=
  let cross (x y : Nat) (n m : Nat) : Bool := decide (x < y + m ∧ y < x + n)
  epType a.source == epType b.source &&
  (if epType a.source = 0x21 then epUnit a.source == epUnit b.source && cross (epSub a.source) (epSub b.source) (aChannels a) (aChannels b)
   else if epType a.source = 0x22 then cross (epSub a.source) (epSub b.source) (aChannels a) (aChannels b)
   else if epType a.source = 0x23 then epSub a.source == epSub b.source else false)

/-- Contributions to one channel of a sink: form B routes, but for handle `self`, and injections. -/
def sinkLoad (s : State) (self ty unit ch : Nat) : Nat :=
  ((audioRoutes s).filter (fun x => x.1 != self && audioB x.2 && epType x.2.sink == ty && epUnit x.2.sink == unit
      && decide (epSub x.2.sink ≤ ch ∧ ch < epSub x.2.sink + aChannels x.2) && bitsAt (aMap x.2) (4 * (ch - epSub x.2.sink)) 4 != 0xF)).length
    + ((injections s).filter (fun x => x.1 == ty && x.2.1 == unit && decide (x.2.2.1 ≤ ch ∧ ch < x.2.2.1 + 8)
        && bitsAt x.2.2.2 (4 * (ch - x.2.2.1)) 4 != 0xF)).length

/-- Checks of an audio route but for pools (R326–R328): `self` is the handle of the route it replaces, 0 for none. -/
def audioCheck (s : State) (self : Nat) (r : Route) : Option (Nat × Nat) :=
  let st := epType r.source
  let kt := epType r.sink
  let a := kt == 0x24
  let b := epSub (if a then r.sink else r.source)
  let n := aChannels r
  let rate := aRate r
  let srcCh := if a then n else busChannels s b
  let dstCh := if a then busChannels s b else n
  let old := (audioRoutes s).filter (fun x => x.1 != self)
  firstFail [
    bad (!((a && (st == 0xF0 || st == 0x21 || st == 0x22 || st == 0x23)) || (st == 0x24 && (kt == 0x25 || kt == 0x26 || kt == 0x27)))) 0x08 16,
    (if st = 0xF0 then isTenant 16 r.source else none), bad (st != 0x21 && epUnit r.source != 0) 0x08 17,
    badEp 16 false (st == 0x21 && decide (3 < epUnit r.source)) ((st == 0x21 && decide (16 < epSub r.source + n)) || (st == 0x22 && decide (8 < epSub r.source + n))
      || (st == 0x23 && decide (3 < epSub r.source)) || (st == 0x24 && decide (15 < epSub r.source))) (epArg r.source != 0),
    badEp 24 false ((kt == 0x24 && epUnit r.sink != 0) || (kt == 0x25 && decide (3 < epUnit r.sink)) || (kt == 0x26 && decide (7 < epUnit r.sink))
        || (kt == 0x27 && epUnit r.sink != 0))
      ((kt == 0x24 && decide (15 < epSub r.sink)) || (kt == 0x25 && decide (16 < epSub r.sink + n)) || (kt == 0x26 && epSub r.sink != 0)
        || (kt == 0x27 && epSub r.sink != 0)) (epArg r.sink != 0),
    bad (n == 0) 0x07 32, bad ((st == 0xF0 || kt == 0x26 || kt == 0x27) && rate == 0) 0x07 36,
    bad (decide (8 < n) || (kt == 0x26 && n != 2 && n != 8)) 0x08 32,
    bad (if st = 0xF0 ∨ kt = 0x27 then decide (3 < aFmt r) else aFmt r != 0) 0x08 32,
    bad (pget r 33 0 8 != 0) 0x01 33, bad (!gainOk (aGain r)) 0x08 34,
    bad (if st = 0xF0 then !decide (8000 ≤ rate ∧ rate ≤ 192000) else if kt = 0x27 then rate != 16000 && rate != 48000 && rate != 96000
      else if kt = 0x26 then rate != 48000 && rate != 96000 else rate != 0) 0x08 36,
    bad (!mapOk (aMap r) dstCh srcCh) 0x08 40, zeroParams r 44 48,
    bad (a && (r.cls != busClass s b || !busOn s b)) 0x09 24,
    bad (a && old.any (fun x => audioA x.2 && sameSource x.2 r)) 0x09 16,
    bad (a && decide (32 ≤ (old.filter (fun x => audioA x.2 && epSub x.2.sink == b)).length)) 0x09 24,
    bad (!a && (r.grantee != busOwner s b || busClass s b == 0 || !busOn s b)) 0x09 16,
    bad (kt == 0x26 && (let h := epUnit r.sink
                        let pr := s.rdF (PORT_CFG (headDie h) (s.rdF (HEAD_CFG (headDie h) (headNo h)) HEAD_CFG_PORT)) PORT_CFG_PROTO
                        pr != 1 && pr != 2)) 0x09 24,
    bad (st == 0x21 && (pinSecure s .a (0x300 + epUnit r.source) != isPf1 r.grantee || pinOwner s .a (0x300 + epUnit r.source) != r.grantee)) 0x09 16,
    bad (kt == 0x25 && (pinSecure s .a (0x300 + epUnit r.sink) != isPf1 r.grantee || pinOwner s .a (0x300 + epUnit r.sink) != r.grantee)) 0x09 24,
    bad (!a && kt != 0x27 && (upto n).any (fun c => bitsAt (aMap r) (4 * c) 4 != 0xF && decide (4 ≤ sinkLoad s self kt (epUnit r.sink) (epSub r.sink + c)))) 0x09 24,
    bad (st == 0xF0 && decide (64 ≤ (old.filter (fun x => isPlayback x.2)).length)) 0x0B 16]

/-- The envelope of a route ramps in or out over its bus's ramp time (R329). -/
def setEnv (h : Nat) (up : Bool) (s : State) : State :=
  match s.route h with
  | none => s
  | some r => setARoute h { s.aroute h with up := up, envFrom := (s.aroute h).env s.timeA, envLen := busRamp s (busOf r), envEnd := s.timeA + busRamp s (busOf r) } s

/-- The route gain moves to a new value over its bus's ramp time (R329). -/
def aimGain (h : Nat) (mute : Bool) (g : Int) (s : State) : State :=
  let y := s.aroute h
  let want := if mute then muteCb else g
  let len := match s.route h with
    | some r => busRamp s (busOf r)
    | none => 0
  setARoute h { y with gain := g, mute := mute, level := if y.level.dst = want then y.level else ⟨y.level.at s.timeA, want, s.timeA, len⟩ } s

/-- The new end of a crossfade begins to ramp in (R331). -/
def startFade (h : Nat) (s : State) : State := setARoute h { s.aroute h with fade := some s.timeA } s

/-- An audio route is created: it ramps in from 0. -/
def audioBegins (h : Nat) (r : Route) (s : State) : State :=
  s |> setARoute h { AudioRoute.empty with gain := aGain r, level := Ramp.flat (aGain r), up := false } |> setEnv h true

/-- Completions of the buffers of a route that is gone (R337, R338). -/
def audioGone (h : Nat) (r : Route) (s : State) : State :=
  let x := s.aroute h
  let s1 := { s with audio := { s.audio with routes := tkeep (fun k => k != h) s.audio.routes } }
  x.bufs.foldl (fun t b =>
    if isCapture r ∧ b.frames ≠ 0 then
      let n := dget b.desc 16 0 32 - b.frames
      let (e, u) := dmaWrite .a r.grantee b.ticket.ring.ring (dget b.desc 8 0 64 + b.frames * frameBytes r) (List.replicate (n * frameBytes r) 0) t
      match e with
      | some y => finish b.ticket y.completion.1 y.completion.2 u
      | none => finish b.ticket stOk (2 ^ 23 + min 0x7FFFFF x.dropped) u
    else finish b.ticket stNoRoute 0 t) s1

/-- A route steps to silence: its buffers end with a status, or, after a function-level reset, with none (R99, R331). -/
def audioSilence (h : Nat) (st : Option Nat) (s : State) : State :=
  let x := s.aroute h
  let s1 := setARoute h { x with bufs := [], up := false, envEnd := s.timeA } s
  match st with
  | some c => x.bufs.foldl (fun t b => finish b.ticket c 0 t) s1
  | none => s1

/-! ## Set-up (R320–R325, R332, R335) -/

/-- Where and by whom a set-up opcode is submitted (R320). -/
def audioFrom (q : RingId) (ok : Bool) (off : Nat) : Option (Nat × Nat) := andThen (bad (q.fn.ep != .a) 0x09 0) (bad (!ok) 0x08 off)

def aeUnits : RingId → Desc → State → List Nat := fun _ _ _ => [unitKey .a bitAudio]

def masterRates : List Nat := [8000, 11025, 16000, 22050, 24000, 32000, 44100, 48000, 88200, 96000, 176400, 192000]

def portRange (q : RingId) (d : Desc) (s : State) : Option (Nat × Nat) :=
  let p := dget d 8 0 2
  let slots := dget d 10 0 8
  let bits := dget d 11 0 8
  let data := dget d 12 0 8
  let rate := dget d 16 0 32
  let sec := pinSecure s .a (0x300 + p)
  firstFail [audioFrom q (if sec then q.fn.fn == 63 else q.fn.fn == 0) 0,
    (if dget d 9 0 1 = 0 then firstFail [bad (dget d 9 1 5 != 0) 0x08 9, bad (slots != 0) 0x08 10, bad (bits != 0) 0x08 11, bad (data != 0) 0x08 12,
        bad (rate != 0) 0x08 16]
     else firstFail [bad (slots == 0) 0x07 10, bad (bits == 0) 0x07 11, bad (data == 0) 0x07 12, bad (rate == 0) 0x07 16,
        bad (!([2, 4, 8, 16].contains slots)) 0x08 10, bad (!([16, 24, 32].contains bits)) 0x08 11,
        bad (!([16, 24, 32].contains data) || decide (bits < data)) 0x08 12,
        bad (if dget d 9 1 1 = 1 then !masterRates.contains rate else !decide (8000 ≤ rate ∧ rate ≤ 192000)) 0x08 16,
        bad (decide (24576000 < rate * slots * bits)) 0x08 16, bad (s.flag (AUDIO_TDM_CFG .a p) AUDIO_TDM_CFG_EN) 0x09 9])]

/-- AUDIO_TDM_CFG of a set-up. -/
def tdmWord (d : Desc) : Word :=
  BitVec.ofNat 32 (dget d 9 0 1 * 2 ^ 31 + dget d 9 1 1 * 2 ^ 30 + dget d 9 2 1 * 2 ^ 29 + dget d 9 3 1 * 2 ^ 28 + dget d 9 4 1 * 2 ^ 27
    + dget d 9 5 1 * 2 ^ 26 + dget d 10 0 8 % 32 * 2 ^ 19 + dget d 11 0 8 % 64 * 2 ^ 13 + dget d 12 0 8 % 64 * 2 ^ 7)

/-- A TDM port stops. -/
def stopPort (p : Nat) (s : State) : State :=
  s |> carry .a (0x6A + 4 * p) (AUDIO_TDM_CFG .a p) 0 |> wr (AUDIO_TDM_RATE .a p) 0 |> wrB (AUDIO_TDM_STATUS .a p) AUDIO_TDM_STATUS_CLOCKED false
    |> (fun t => { t with audio := { t.audio with lost := t.audio.lost.filter (fun k => k != p) } })

def opAudioPort : OpSpec :=
  .crossing (fun _ d _ => [(.a, 0x6A + 4 * dget d 8 0 2)]) <|
  mkOp 0x70 false ([(8, 2, 6), (9, 6, 2)] ++ rsv 13 16 ++ rsv 20 64) aeUnits portRange notEmpty
   (fun t d s =>
    let p := dget d 8 0 2
    if dget d 9 0 1 = 0 then
      (if portInjected s p ∧ t.fn.fn = 0 then holdVote .a bitAudio t d s else (some (stOk, 0), stopPort p s))
    else
      let s1 := carry .a (0x6A + 4 * p) (AUDIO_TDM_CFG .a p) (tdmWord d) s
      (some (stOk, 0), if dget d 9 1 1 = 1 then s1 |> wrF (AUDIO_TDM_RATE .a p) AUDIO_TDM_RATE_RATE_HZ (dget d 16 0 32)
                                                   |> wrB (AUDIO_TDM_STATUS .a p) AUDIO_TDM_STATUS_CLOCKED true else s1))

/-- Microphones that live routes use. -/
def micsUsed (s : State) : List Nat :=
  (audioRoutes s).flatMap (fun x => if epType x.2.source = 0x22 then (upto (aChannels x.2)).map (fun i => epSub x.2.source + i) else [])

def opAudioPdm : OpSpec :=
  .crossing (fun _ _ _ => [(.a, 0x79)]) <|
  mkOp 0x71 false (rsv 10 64) aeUnits
   (fun q d s => firstFail [audioFrom q (q.fn.fn == 0) 0, bad (dget d 9 0 8 == 0) 0x07 9, bad (decide (2 < dget d 9 0 8)) 0x08 9,
      bad ((micsUsed s).any (fun m => !nbit (dget d 8 0 8) m)) 0x09 8]) notEmpty
   (fun _ d s => (some (stOk, 0), carry .a 0x79 (AUDIO_PDM_CFG .a) (BitVec.ofNat 32 (dget d 9 0 2 * 2 ^ 8 + dget d 8 0 8)) s))

def busRange (q : RingId) (d : Desc) (s : State) : Option (Nat × Nat) :=
  let b := dget d 8 0 4
  let cls := dget d 11 0 8
  let own : Fun := ⟨if dget d 12 6 1 = 0 then .a else .b, dget d 12 0 6⟩
  let m := sgn 16 (dget d 16 0 16)
  firstFail ([audioFrom q (if cls = 0 then q.fn.fn == 63 else q.fn.fn == 0) 11,
    bad (dget d 10 0 8 == 0) 0x07 10, bad (dget d 18 0 16 == 0) 0x07 18, bad (decide (8 < dget d 10 0 8)) 0x08 10, bad (decide (2 < cls)) 0x08 11,
    bad (if cls = 0 then own.fn != 63 else decide (31 < own.fn)) 0x08 12, bad (cls != classOf s own) 0x08 11,
    bad (decide (100 < dget d 13 0 8)) 0x08 13, bad (decide (1000 < dget d 14 0 16)) 0x08 14, bad (!gainOk m) 0x08 16,
    bad (!decide (10 ≤ dget d 18 0 16 ∧ dget d 18 0 16 ≤ 1000)) 0x08 18]
   ++ (upto 4).map (fun i =>
      let o := 24 + 8 * i
      let ty := dget d o 0 8
      if ty = 0 ∨ cls ≠ 0 then bad (dget d o 0 64 != 0) 0x08 o
      else firstFail [bad (ty != 0x25 && ty != 0x26) 0x08 o, bad (decide ((if ty = 0x25 then 3 else 7) < dget d (o + 1) 0 8)) 0x08 (o + 1),
        bad (decide (15 < dget d (o + 2) 0 16) || (ty == 0x26 && dget d (o + 2) 0 16 != 0)) 0x08 (o + 2), bad (!mapOk (dget d (o + 4) 0 32) 8 (dget d 10 0 8)) 0x08 (o + 4),
        bad ((upto 8).any (fun c => bitsAt (dget d (o + 4) 0 32) (4 * c) 4 != 0xF
          && decide (4 < sinkLoad (setBus b { s.bus b with setup := d } (wrB (AUDIO_BUS_CFG .a b) AUDIO_BUS_CFG_EN true s)) 0 ty (dget d (o + 1) 0 8)
                (dget d (o + 2) 0 16 + c)))) 0x09 o])
   ++ [bad (busLive s b && dget d 9 0 1 == 0) 0x09 9, bad (busLive s b && dget d 10 0 8 != busChannels s b) 0x09 10,
       bad (busLive s b && cls != busClass s b) 0x09 11, bad (busLive s b && own != busOwner s b) 0x09 12])

/-- INJECTED flags and the S claim of the engine follow the injections (R334). -/
def refreshInject (before : Bool) (s : State) : State :=
  let s1 := (upto 4).foldl (fun t p => wrB (AUDIO_TDM_STATUS .a p) AUDIO_TDM_STATUS_INJECTED (portInjected s p) t) s
  let after := injections s != []
  if before = after then s1 else garnetUse .a bitAudio after s1

/-- The effect DSP of a bus loses its coefficients and its delay line as its owner `last` goes (R114, Table 4.3). -/
def scrubDsp (b : Nat) (last : Fun) (s : State) : State :=
  s |> setBus b { s.bus b with fx := 0, coef := [], nextFx := none, filt := [], line := [], delay := 0, delayPos := 0, ahead := [], limUntil := 0 } |> scrub .a bitAudio last

/-- The effect DSPs of the buses that a function owns. -/
def scrubDsps (f : Fun) (s : State) : State := ((upto 16).filter (fun b => busOwner s b == f)).foldl (fun t b => scrubDsp b f t) s

def opAudioBus : OpSpec :=
  mkOp 0x72 false ([(8, 4, 4), (9, 2, 6), (12, 7, 1)] ++ rsv 20 24 ++ rsv 56 64) aeUnits busRange notEmpty
   (fun _ d s =>
    let b := dget d 8 0 4
    let x := s.bus b
    let a := AUDIO_BUS_CFG .a b
    let before := injections s != []
    let fresh := busOn s b = false ∨ dget d 12 0 7 ≠ dget x.setup 12 0 7 ∨ dget d 11 0 8 ≠ busClass s b
    let moved := dget d 12 0 7 ≠ dget x.setup 12 0 7 ∨ dget d 11 0 8 ≠ busClass s b
    let len := 1000000 * dget d 14 0 16
    let m := sgn 16 (dget d 16 0 16)
    let master := if busOn s b = false then Ramp.flat m else if x.master.dst = m then x.master else ⟨x.master.at s.timeA, m, s.timeA, len⟩
    let x1 := if fresh then { AudioBus.empty with fx := x.fx, coef := x.coef, nextFx := x.nextFx, delay := dget x.fx 12 0 16 } else x
    let s1 := s |> wrF a AUDIO_BUS_CFG_EN (dget d 9 0 1) |> wrF a AUDIO_BUS_CFG_AUTOSCALE (dget d 9 1 1) |> wrF a AUDIO_BUS_CFG_CLASS (dget d 11 0 8)
      |> wrF a AUDIO_BUS_CFG_OWNER (dget d 12 0 6) |> wrF a AUDIO_BUS_CFG_OWNER_EP (dget d 12 6 1) |> wrF a AUDIO_BUS_CFG_CHANNELS (dget d 10 0 8)
      |> wrF a AUDIO_BUS_CFG_RAMP_MS (dget d 14 0 16) |> setBus b { x1 with setup := d, master := master }
    let on := ((upto 16).map (fun i => if busOn s1 i then 2 ^ i else 0)).sum
    let s2 := s1 |> wrF (AUDIO_STATUS .a) AUDIO_STATUS_BUSES_EN on |> refreshInject before
      |> (if moved then scrubDsp b (busOwner s b) else id)
    (some (stOk, 0), if on = 0 then gateIdle .a bitAudio s2 else setPowered .a bitAudio true s2))

def opAudioFx : OpSpec :=
  mkOp 0x73 false ([(8, 4, 4), (9, 1, 7), (11, 0, 8)] ++ rsv 18 24 ++ rsv 32 64) aeUnits
   (fun q d s =>
    let th := sgn 16 (dget d 14 0 16)
    firstFail [audioFrom q (if busClass s (dget d 8 0 4) = 0 ∧ busOn s (dget d 8 0 4) then q.fn.fn == 63 else q.fn.fn == 0) 0,
      bad (dget d 16 0 16 == 0) 0x07 16, bad (decide (960 < dget d 12 0 16)) 0x08 12, bad (!decide (-4000 ≤ th ∧ th ≤ 0)) 0x08 14,
      bad (!decide (10 ≤ dget d 16 0 16 ∧ dget d 16 0 16 ≤ 2000)) 0x08 16,
      bad (dget d 24 0 3 != 0 || (dget d 10 0 8 == 0 && dget d 24 0 64 != 0)) 0x08 24]) notEmpty
   (fun t d s =>
    let b := dget d 8 0 4
    if dget d 10 0 8 = 0 then (some (stOk, 0), setBus b { s.bus b with nextFx := some (d, []) } s)
    else
      match dmaRead .a t.fn t.ring.ring (dget d 24 0 64) 160 8 s with
      | (.error e, s1) => (some e.completion, s1)
      | (.ok bs, s1) => (some (stOk, 0), setBus b { s1.bus b with nextFx := some (d, (upto 40).map (fun i => fb bs (4 * i) 4)) } s1))

def opAudioDuck : OpSpec :=
  mkOp 0x74 false (rsv 16 64) aeUnits
   (fun q d _ => firstFail [audioFrom q (q.fn.fn == 63) 0, bad (decide (6000 < dget d 8 0 16)) 0x08 8, bad (decide (1000 < dget d 10 0 16)) 0x08 10,
      bad (decide (5000 < dget d 12 0 16)) 0x08 12, bad (decide (5000 < dget d 14 0 16)) 0x08 14]) notEmpty
   (fun _ d s => (some (stOk, 0), wrF (AUDIO_DUCK_STATE .a) AUDIO_DUCK_STATE_DUCK_CB (dget d 8 0 16) { s with audio := { s.audio with duck := d } }))

/-! ## Clocks (R322) -/

def postClock (p state rate : Nat) (s : State) : State :=
  let own := pinOwner s .a (0x300 + p)
  let s1 := postPf0 .a 0x0702 p (state + rate % 2 ^ 32 * 2 ^ 32) s
  if own = pf0 .a then s1 else post own ⟨0x0702, p, 1, s1.timeA, state + rate % 2 ^ 32 * 2 ^ 32, .a⟩ s1

/-- Routes fed by a TDM port. -/
def portRoutes (s : State) (p : Nat) : List (Nat × Route) := (audioRoutes s).filter (fun x => epType x.2.source == 0x21 && epUnit x.2.source == p)

def slaveOn (s : State) (p : Nat) : Bool :=
  decide (p < 4) && s.flag (AUDIO_TDM_CFG .a p) AUDIO_TDM_CFG_EN && !s.flag (AUDIO_TDM_CFG .a p) AUDIO_TDM_CFG_MASTER

/-- A slave port is lost: its inputs fade out over 1 ms. -/
def clockLoss (p : Nat) (s : State) : State :=
  if slaveOn s p ∧ s.flag (AUDIO_TDM_STATUS .a p) AUDIO_TDM_STATUS_CLOCKED then
    let s1 := s |> wrB (AUDIO_TDM_STATUS .a p) AUDIO_TDM_STATUS_CLOCKED false |> satF (AUDIO_TDM_STATUS .a p) AUDIO_TDM_STATUS_LOSSES 1
      |> wr (AUDIO_TDM_RATE .a p) 0 |> (fun t => { t with audio := { t.audio with lost := p :: t.audio.lost } })
    let s2 := (portRoutes s1 p).foldl (fun t x => setARoute x.1 { t.aroute x.1 with up := false, envFrom := (t.aroute x.1).env t.timeA, envLen := 1000000, envEnd := t.timeA + 1000000 } t) s1
    postClock p 0 0 s2
  else s

/-- A slave port is clocked: for the first time, or back after a loss, when its inputs ramp in. -/
def clockBack (p rate : Nat) (s : State) : State :=
  if slaveOn s p ∧ s.flag (AUDIO_TDM_STATUS .a p) AUDIO_TDM_STATUS_CLOCKED = false then
    let s1 := s |> wrB (AUDIO_TDM_STATUS .a p) AUDIO_TDM_STATUS_CLOCKED true |> wrF (AUDIO_TDM_RATE .a p) AUDIO_TDM_RATE_RATE_HZ rate
    if s.audio.lost.contains p then
      let s2 := { s1 with audio := { s1.audio with lost := s1.audio.lost.filter (fun k => k != p) } }
      (portRoutes s2 p).foldl (fun t x => setEnv x.1 true t) s2 |> postClock p 1 rate
    else s1
  else s

/-! ## The tick (R318, R319, R329, R330, R333, R335, R337, R338) -/

/-- The source of a form A route is active, and its envelope is not ramping out (R330). -/
def inputActive (s : State) (x : Nat × Route) : Bool :=
  let y := s.aroute x.1
  let t := epType x.2.source
  y.up && !(x.2.change.any (fun c => c.delete)) &&
  (if t = 0xF0 then y.bufs.any (fun b => b.started)
   else if t = 0x21 then s.flag (AUDIO_TDM_CFG .a (epUnit x.2.source)) AUDIO_TDM_CFG_EN && s.flag (AUDIO_TDM_STATUS .a (epUnit x.2.source)) AUDIO_TDM_STATUS_CLOCKED
   else if t = 0x22 then (upto (aChannels x.2)).all (fun i => nbit (s.rdF (AUDIO_PDM_CFG .a) AUDIO_PDM_CFG_MIC_EN) (epSub x.2.source + i))
   else (tget (0, 0, 0) (epSub x.2.source) s.audio.tones).1 != 0)

def activeInputs (s : State) (b : Nat) : Nat := ((busInputs s b).filter (inputActive s)).length

/-- Frames of zeros. -/
def silence (n ch : Nat) : List Frame := List.replicate n (List.replicate ch 0)

/-- Frames that a converter gives (R318): free, but silence converts to silence. -/
def converted (n ch : Nat) (silent : Bool) (s : State) : List Frame × State :=
  if silent then (silence n ch, s)
  else ((upto n).map (fun i => (upto ch).map (fun c => sgn 32 (s.freeNat (i * ch + c) % 2 ^ 32))), useFree (n * ch) s)

def isSilent (fs : List Frame) : Bool := fs.all (fun f => f.all (fun v => v == 0))

/-- Frames of memory as frames of the engine. -/
def memFrames (r : Route) (k : Nat) (bs : List Byte) : List Frame :=
  let w := frameBytes r / aChannels r
  (upto k).map (fun i => (upto (aChannels r)).map (fun c => fromMem (aFmt r) ((bs.drop (i * frameBytes r + c * w)).take w)))

/-- A block of a playback route of `n` frames at its rate, from frame `used`: a buffer starts in the sample that START_NS falls in, or
after its predecessor; one that ends posts its DONE (R318, R337). -/
def playFrames (h : Nat) (r : Route) (n : Nat) : Nat → Nat → State → List Frame × State
  | 0, used, s => (silence (n - used) (aChannels r), s)
  | fuel + 1, used, s =>
    let x := s.aroute h
    match x.bufs with
    | [] => (silence (n - used) (aChannels r), s)
    | b :: rest =>
      let start := dget b.desc 24 0 64
      let from_ := if b.started ∨ start ≤ s.timeA then used else max used ((start - s.timeA) * aRate r / 1000000000)
      if n ≤ from_ then (silence (n - used) (aChannels r), s)
      else
        let total := dget b.desc 16 0 32
        let k := min (n - from_) (total - b.frames)
        let (err, fs, s1) :=
          if b.failed.isSome ∨ k = 0 then (none, silence k (aChannels r), s)
          else
            match dmaRead .a r.grantee b.ticket.ring.ring (dget b.desc 8 0 64 + b.frames * frameBytes r) (k * frameBytes r) 8 s with
            | (.error e, u) => (some e.completion, silence k (aChannels r), u)
            | (.ok bs, u) => (none, memFrames r k bs, u)
        let b1 := { b with started := true, frames := b.frames + k, failed := if b.failed.isSome then b.failed else err }
        let lead := silence (from_ - used) (aChannels r) ++ fs
        if b1.frames < total then (lead ++ silence (n - from_ - k) (aChannels r), setARoute h { s1.aroute h with bufs := b1 :: rest } s1)
        else
          let s2 := setARoute h { s1.aroute h with bufs := rest, dry := rest = [] } s1
          let s3 := match b1.failed with
            | some (st, dt) => finish b1.ticket st dt s2
            | none => finish b1.ticket stOk (b2n b1.late * 2 ^ 23 + b2n b1.gap * 2 ^ 22) s2
          let s4 := if rest = [] ∧ (s3.aroute h).bufs = [] then post r.grantee ⟨0x0700, busOf r, 1, s3.timeA, h, .a⟩ s3 else s3
          let (more, s5) := playFrames h r n fuel (from_ + k) s4
          (lead ++ more, s5)

/-- A block of a playback route at 96 kHz; the fraction of a frame at its own rate is carried. -/
def playBlock (x : Nat × Route) (s : State) : List Frame × State :=
  let y := s.aroute x.1
  let ch := aChannels x.2
  if y.bufs = [] ∨ frozen s x.2.grantee then (silence 48 ch, s)
  else
    let acc := y.frac + aRate x.2
    let (fs, s1) := playFrames x.1 x.2 (acc / 2000) 9 0 (setARoute x.1 { y with frac := acc % 2000 } s)
    if aRate x.2 = 96000 then (fs, s1) else converted 48 ch (isSilent fs) s1

/-- A block of a TDM input: as received where the device drives the clocks at 96 kHz, else converted; a lost port fades from what was
buffered (R318, R322). -/
def tdmBlock (o : AudioObs) (x : Nat × Route) (s : State) : List Frame × State :=
  let p := epUnit x.2.source
  let ch := aChannels x.2
  let cfg := AUDIO_TDM_CFG .a p
  let slot (c : Nat) : List Int := ((o.tdm.find? (fun e => e.1 == p && e.2.1 == epSub x.2.source + c)).map (fun e => e.2.2)).getD []
  let fs := (upto 48).map (fun i => (upto ch).map (fun c => fromInt (s.rdF cfg AUDIO_TDM_CFG_DATA_BITS) ((slot c).getD i 0)))
  if s.flag cfg AUDIO_TDM_CFG_EN ∧ s.flag (AUDIO_TDM_STATUS .a p) AUDIO_TDM_STATUS_CLOCKED then
    (if s.flag cfg AUDIO_TDM_CFG_MASTER ∧ s.rdF (AUDIO_TDM_RATE .a p) AUDIO_TDM_RATE_RATE_HZ = 96000 then (fs, s)
     else converted 48 ch ((upto ch).all (fun c => (slot c).all (fun v => v == 0))) s)
  else converted 48 ch (decide ((s.aroute x.1).envEnd ≤ s.timeA)) s

/-- A block of a tone: a sine within its level, or a square wave of it; the phase is open (R336). -/
def toneBlock (x : Nat × Route) (s : State) : List Frame × State :=
  let g := epSub x.2.source
  let wave := (tget (0, 0, 0) g s.audio.tones).1
  if wave = 0 then (silence 48 (aChannels x.2), s)
  else
    let v (i : Nat) : Int :=
      let a := (rampGain (tget (Ramp.flat 0) g s.audio.toneLevels) (sampleTime s.timeA i) oneQ).natAbs
      if wave = 2 then (if s.freeNat i % 2 = 0 then (a : Int) else -(a : Int)) else ((s.freeNat i % (2 * a + 1) : Nat) : Int) - (a : Int)
    ((upto 48).map (fun i => List.replicate (aChannels x.2) (v i)), useFree 48 s)

/-- A block of the source of a form A route, at 96 kHz in Q7.24 (Table 12.1, stage 1). -/
def sourceBlock (o : AudioObs) (x : Nat × Route) (s : State) : List Frame × State :=
  let t := epType x.2.source
  if t = 0xF0 then playBlock x s else if t = 0x21 then tdmBlock o x s else if t = 0x23 then toneBlock x s
  else converted 48 (aChannels x.2) (!(upto (aChannels x.2)).any (fun i => nbit (s.rdF (AUDIO_PDM_CFG .a) AUDIO_PDM_CFG_MIC_EN) (epSub x.2.source + i))) s

/-- The blocks of all sources, by route. -/
def sources (o : AudioObs) (s : State) : Tab (List Frame) × State :=
  ((audioRoutes s).filter (fun x => audioA x.2)).foldl (fun (a : Tab (List Frame) × State) x =>
    let (fs, t) := sourceBlock o x a.2
    (tset x.1 fs a.1, t)) ([], s)

/-! ## Sums (Table 12.1, stages 2, 3, 9 and 10) -/

/-- The ends of a route with their envelopes: during a crossfade the new end beside the old (R331). -/
def routeEnds (s : State) (t : Nat) (x : Nat × Route) : List (Nat × Route × (Nat × Nat)) :=
  let y := s.aroute x.1
  (x.1, x.2, y.env t) :: (match x.2.change, y.fade with
    | some c, some f =>
      let r := { x.2 with sink := c.sink, params := c.params }
      [(x.1, r, rampIn f (busRamp s (busOf r)) t)]
    | _, _ => [])

def allEnds (s : State) (t : Nat) : List (Nat × Route × (Nat × Nat)) := (audioRoutes s).flatMap (routeEnds s t)

/-- What an end gives to channel c of its sink side: the channel that MAP names, under route gain and envelope. -/
def endSample (s : State) (t c : Nat) (frame : Frame) (e : Nat × Route × (Nat × Nat)) : Int :=
  let v := bitsAt (aMap e.2.1) (4 * c) 4
  if v = 0xF then 0 else faded e.2.2 (rampGain (s.aroute e.1).level t (frame.getD v 0))

/-- Sample i of the sum of a bus, before it saturates. -/
def busSum (s : State) (src : Tab (List Frame)) (b i : Nat) : Frame :=
  let t := sampleTime s.timeA i
  let ends := (allEnds s t).filter (fun e => audioA e.2.1 && epSub e.2.1.sink == b)
  (upto (busChannels s b)).map (fun c => (ends.map (fun e => endSample s t c ((tget [] e.1 src).getD i []) e)).sum)

/-- Injections with their buses: bus, TYPE, UNIT, SUB, MAP. -/
def injecting (s : State) : List (Nat × Nat × Nat × Nat × Nat) :=
  ((upto 16).filter (busOn s)).flatMap (fun b => (((upto 4).map (inject (s.bus b))).filter (fun x => x.1 != 0)).map (fun x => (b, x)))

/-- Sample i of channel ch of a sink: its routes, and the injections after every gain of N (R334). -/
def sinkSample (s : State) (outs : Tab (List Frame)) (ty unit i ch : Nat) : Int :=
  let t := sampleTime s.timeA i
  let bus (b : Nat) : Frame := (tget [] b outs).getD i []
  let ends := (allEnds s t).filter (fun e => audioB e.2.1 && epType e.2.1.sink == ty && epUnit e.2.1.sink == unit
    && decide (epSub e.2.1.sink ≤ ch ∧ ch < epSub e.2.1.sink + aChannels e.2.1))
  let inj := (injecting s).filter (fun x => x.2.1 == ty && x.2.2.1 == unit && decide (x.2.2.2.1 ≤ ch ∧ ch < x.2.2.2.1 + 8)
    && bitsAt x.2.2.2.2 (4 * (ch - x.2.2.2.1)) 4 != 0xF)
  satQ ((ends.map (fun e => endSample s t (ch - epSub e.2.1.sink) (bus (busOf e.2.1)) e)).sum
    + (inj.map (fun x => (bus x.1).getD (bitsAt x.2.2.2.2 (4 * (ch - x.2.2.2.1)) 4) 0)).sum)

/-- Buses that feed a sink. -/
def sinkBuses (s : State) (ty unit : Nat) : List Nat :=
  (upto 16).filter (fun b => (audioRoutes s).any (fun x => audioB x.2 && epType x.2.sink == ty && epUnit x.2.sink == unit && busOf x.2 == b)
    || (injecting s).any (fun x => x.1 == b && x.2.1 == ty && x.2.2.1 == unit))

/-! ## Buses and meters (R332, R333) -/

/-- Meters of a bus over a block of its stage 8, with the saturated sums of the block. -/
def meterBus (b : Nat) (fs : List Frame) (sat : Nat) (s : State) : State :=
  let x := s.bus b
  let n := busChannels s b
  let chan (c : Nat) : List Int := fs.map (fun f => f.getD c 0)
  let peaks := (((upto n).map (fun c => peakOf (chan c))) :: x.peaks).take 20
  let peak (c : Nat) : Nat := (peaks.map (fun l => l.getD c 0)).foldl max 0
  let hold := 100000000 * dget x.setup 13 0 8
  let holds := (upto n).map (fun c =>
    let (v, t) := x.holds.getD c (0, 0)
    if v ≤ peak c then (peak c, s.timeA) else if t + hold ≤ s.timeA then (peak c, t) else (v, t))
  let sq := (upto n).map (fun c => let m := x.meanSq.getD c 0
                                   if m = 0 ∧ peakOf (chan c) = 0 then 0 else Config.meanSquare (dget x.setup 18 0 16) m (chan c))
  let s1 := setBus b { x with peaks := peaks, holds := holds, meanSq := sq, sumClips := x.sumClips + sat,
                              clipFrom := if sat ≠ 0 ∧ x.clipFrom.isNone then some s.timeA else x.clipFrom } s
  (upto 8).foldl (fun t c =>
    t |> wr (AUDIO_METER_PEAK .a b c) (BitVec.ofNat 32 (if c < n then peak c else 0))
      |> wr (AUDIO_METER_RMS .a b c) (BitVec.ofNat 32 (if sq.getD c 0 = 0 then 0 else Config.rootOf (sq.getD c 0)))
      |> wr (AUDIO_METER_HOLD .a b c) (BitVec.ofNat 32 (holds.getD c (0, 0)).1)) (satF (AUDIO_BUS_CLIP .a b) AUDIO_BUS_CLIP_COUNT sat s1)

/-- A block of a bus: its sums, stages 4 to 7, and its meters. -/
def runBus (src : Tab (List Frame)) (a : Tab (List Frame) × State) (b : Nat) : Tab (List Frame) × State :=
  let s := a.2
  if busOn s b = false then a
  else
    let sums := (upto 48).map (busSum s src b)
    let sat := (sums.map (fun f => (f.filter (fun v => v != satQ v)).length)).sum
    let (fs, x) := busBlock (if busClass s b = 2 then some s.audio.atten else none) s.timeA (fun i => s.freeNat i) 0 (sums.map (fun f => f.map satQ)) (s.bus b)
    (tset b fs a.1, s |> useFree 48 |> setBus b x |> meterBus b fs sat)

/-! ## Sinks (R317, R319, R338) -/

/-- Clips of a sink's block count for the buses that feed it. -/
def busClips (n : Nat) (bs : List Nat) (s : State) : State :=
  bs.foldl (fun t b => let x := t.bus b
                       setBus b { x with sinkClips := x.sinkClips + n, clipFrom := if n ≠ 0 ∧ x.clipFrom.isNone then some t.timeA else x.clipFrom } t) s

/-- A sink sends a block: as summed where it runs at 96 kHz, with its clips counted; converted to another rate, what it clips is open. -/
def sinkBlock (sink bits : Nat) (exact_ : Bool) (a : Nat) (f : Fld) (bs : List Nat) (fs : List Frame) (s : State) : State :=
  let n := if exact_ then (fs.map (fun g => (g.filter clips).length)).sum else if isSilent fs then 0 else s.freeNat 0 % 2 ^ 10
  s |> (if exact_ then emit (.audio sink (fs.map (fun g => g.map (toInt bits)))) else useFree 1) |> satF a f n |> busClips n bs

/-- The output of a TDM port: its slots. -/
def portOut (outs : Tab (List Frame)) (s : State) (p : Nat) : State :=
  let cfg := AUDIO_TDM_CFG .a p
  if s.flag cfg AUDIO_TDM_CFG_EN = false ∨ s.flag (AUDIO_TDM_STATUS .a p) AUDIO_TDM_STATUS_CLOCKED = false then s
  else
    let fs := (upto 48).map (fun i => (upto (s.rdF cfg AUDIO_TDM_CFG_SLOTS)).map (sinkSample s outs 0x25 p i))
    sinkBlock p (s.rdF cfg AUDIO_TDM_CFG_DATA_BITS) (s.flag cfg AUDIO_TDM_CFG_MASTER && s.rdF (AUDIO_TDM_RATE .a p) AUDIO_TDM_RATE_RATE_HZ == 96000)
      (AUDIO_TDM_CLIP .a p) AUDIO_TDM_CLIP_COUNT (sinkBuses s 0x25 p) fs s

/-- The audio of a DP head: none while it is disabled, and none across a split or a lost main link (R328, R449). -/
def dpOut (outs : Tab (List Frame)) (s : State) (h : Nat) : State :=
  let rs := (audioRoutes s).filter (fun x => audioB x.2 && epType x.2.sink == 0x26 && epUnit x.2.sink == h)
  if sinkBuses s 0x26 h = [] ∨ headOn s h = false ∨ ((s.split ∨ mainLost s .a) ∧ headDie h ≠ .a) then s
  else
    let fs := (upto 48).map (fun i => (upto 8).map (sinkSample s outs 0x26 h i))
    sinkBlock (4 + h) 24 (rs != [] && rs.all (fun x => aRate x.2 == 96000)) (AUDIO_DP_CLIP .a h) AUDIO_DP_CLIP_COUNT (sinkBuses s 0x26 h) fs s

/-- Frames reach a capture route (R338). -/
def captureFrames (h : Nat) (r : Route) : Nat → List (List Byte) → State → State
  | 0, _, s => s
  | fuel + 1, fs, s =>
    let x := s.aroute h
    if fs = [] then s
    else
      match x.bufs with
      | [] =>
        let n := x.dropped + fs.length
        let s1 := setARoute h { x with dropped := n, gapPosted := true } s
        if x.gapPosted then s1
        else post r.grantee ⟨0x0701, busOf r, 1, s.timeA, h + n % 2 ^ 32 * 2 ^ 32, .a⟩ s1
      | b :: rest =>
        let total := dget b.desc 16 0 32
        let k := min fs.length (total - b.frames)
        match dmaWrite .a r.grantee b.ticket.ring.ring (dget b.desc 8 0 64 + b.frames * frameBytes r) (fs.take k).flatten s with
        | (some e, s2) =>
          captureFrames h r fuel (fs.drop k) (s2 |> setARoute h { s2.aroute h with bufs := rest } |> finish b.ticket e.completion.1 e.completion.2)
        | (none, s2) =>
          if b.frames + k < total then setARoute h { s2.aroute h with bufs := { b with started := true, frames := b.frames + k } :: rest } s2
          else
            captureFrames h r fuel (fs.drop k)
              (s2 |> setARoute h { s2.aroute h with bufs := rest, dropped := 0, gapPosted := false } |> finish b.ticket stOk (min 0x7FFFFF x.dropped))

/-- A block of a capture route: the sink's output at 96 kHz, free at another rate. -/
def captureBlock (outs : Tab (List Frame)) (s : State) (x : Nat × Route) : State :=
  let y := s.aroute x.1
  let r := x.2
  if isCapture r = false ∨ frozen s r.grantee ∨ (y.up = false ∧ y.envEnd ≤ s.timeA) then s
  else
    let acc := y.frac + aRate r
    let n := acc / 2000
    let s1 := setARoute x.1 { y with frac := acc % 2000 } s
    let fs := (upto 48).map (fun i =>
      let t := sampleTime s.timeA i
      (upto (aChannels r)).map (fun c => endSample s t c ((tget [] (busOf r) outs).getD i []) (x.1, r, y.env t)))
    if aRate r = 96000 then
      captureFrames x.1 r 9 (fs.map (fun f => (f.map (toMem (aFmt r))).flatten)) (busClips (fs.map (fun g => (g.filter clips).length)).sum [busOf r] s1)
    else
      let zero := isSilent fs
      captureFrames x.1 r 9 ((upto n).map (fun i => (upto (frameBytes r)).map (fun j => if zero then 0 else BitVec.ofNat 8 (s.freeNat (i * frameBytes r + j)))))
        (if zero then s1 else useFree (n * frameBytes r) s1)

/-- All sinks send a block. -/
def sinks (outs : Tab (List Frame)) (s : State) : State :=
  let s1 := (upto 8).foldl (dpOut outs) ((upto 4).foldl (portOut outs) s)
  (audioRoutes s1).foldl (captureBlock outs) s1

/-- A missed block (R319): the inputs are discarded, and the sinks send zeros. -/
def missedBlock (s : State) : State := sinks [] (sources ⟨0, []⟩ s).2

/-- AUDIO_CLIP, at most once per second and bus. -/
def postClips (s : State) (b : Nat) : State :=
  let x := s.bus b
  match x.clipFrom with
  | none => s
  | some t =>
    if s.timeA < t + 1000000000 then s
    else
      let own := busOwner s b
      let one (kind n : Nat) (u : State) : State :=
        if n = 0 then u
        else
          let v := postPf0 .a 0x0703 b (kind + n % 2 ^ 32 * 2 ^ 32) u
          if own = pf0 .a then v else post own ⟨0x0703, b, 1, v.timeA, kind + n % 2 ^ 32 * 2 ^ 32, .a⟩ v
      s |> setBus b { x with sumClips := 0, sinkClips := 0, clipFrom := none } |> one 0 x.sumClips |> one 1 x.sinkClips

/-- Duck state of the engine (R335). -/
def duckStep (s : State) : State :=
  let a := s.audio
  let t := s.timeA
  let sounding := (upto 16).any (fun b => busOn s b && busClass s b == 0 && activeInputs s b != 0)
  let ms (d : Desc) (o : Nat) : Nat := 1000000 * dget d o 0 16
  let a1 :=
    if sounding then
      (if a.phase = 1 then a
       else { a with phase := 1, ducking := a.duck, atten := ⟨a.atten.at t, dget a.duck 8 0 16, t, ms a.duck 10⟩ })
    else if a.phase = 1 then { a with phase := 2, holdEnd := t + ms a.ducking 14 }
    else if a.phase = 2 ∧ a.holdEnd ≤ t then { a with phase := 3, atten := ⟨a.atten.at t, 0, t, ms a.ducking 12⟩ }
    else if a.phase = 3 ∧ a.atten.start + a.atten.len ≤ t then { a with phase := 0, atten := Ramp.flat 0 }
    else a
  let v := (a1.atten.at t).toNat
  { s with audio := a1 } |> wrF (AUDIO_DUCK_STATE .a) AUDIO_DUCK_STATE_ATTEN_CB v |> wrB (AUDIO_STATUS .a) AUDIO_STATUS_DUCKING (a1.phase != 0)

/-- Active inputs, auto-scale and the stage 4 gain of a bus (R329, R330); what the gain reads while muted is free. -/
def busGain (s : State) (b : Nat) : State :=
  if busOn s b = false then s
  else
    let x := s.bus b
    let n := activeInputs s b
    let t := s.timeA
    let auto := s.flag (AUDIO_BUS_CFG .a b) AUDIO_BUS_CFG_AUTOSCALE
    let want := if auto then (if n = 0 then x.scale else n) else 1
    let now := if x.scaleEnd ≤ t then scaleCb x.scale else x.scaleRamp.at t
    let x1 := if want = x.scale then x else { x with scale := want, scaleEnd := t + busRamp s b, scaleRamp := ⟨now, scaleCb want, t, busRamp s b⟩ }
    let duck := if busClass s b = 2 then s.audio.atten.at t else 0
    let s1 := s |> setBus b x1 |> wrF (AUDIO_BUS_STATE .a b) AUDIO_BUS_STATE_N_ACTIVE n |> wrB (AUDIO_BUS_STATE .a b) AUDIO_BUS_STATE_DUCKED (duck != 0)
    if x1.master.at t ≠ muteCb then
      wrF (AUDIO_BUS_STATE .a b) AUDIO_BUS_STATE_GAIN_CB (unsgn 16 (x1.master.at t + (if x1.scaleEnd ≤ t then scaleCb x1.scale else x1.scaleRamp.at t) - duck)) s1
    else s1 |> useFree 1 |> wrF (AUDIO_BUS_STATE .a b) AUDIO_BUS_STATE_GAIN_CB (s1.freeNat 0 % 2 ^ 16)

/-- The level of a tone moves over the ramp time of its bus; one that was off starts at it (R329, R336). -/
def toneAim (s : State) (g : Nat) (lv : Int) : Ramp :=
  let now := tget (Ramp.flat lv) g s.audio.toneLevels
  let len := match (audioRoutes s).find? (fun x => audioA x.2 && epType x.2.source == 0x23 && epSub x.2.source == g) with
    | some x => busRamp s (busOf x.2)
    | none => 0
  if (tget (0, 0, 0) g s.audio.tones).1 = 0 then Ramp.flat lv else ⟨now.at s.timeA, lv, s.timeA, len⟩

/-- Place in the ramp of a change of DELAY (R332): down from where the bus output stands, or on. -/
def delayMove (x : AudioBus) (want : Nat) : Nat :=
  if x.delayPos = 0 then (if want = x.delay then 0 else 1) else if x.delayPos ≤ 96 ∨ want = x.delay then x.delayPos else 193 - x.delayPos

/-- What was set since the last tick takes effect. -/
def audioPending (s : State) : State :=
  let a := s.audio
  let s1 := { s with audio := { a with nextGains := [], nextTones := [],
                                       tones := a.nextTones.foldl (fun t x => tset x.1 (x.2.1, x.2.2.1, x.2.2.2) t) a.tones,
                                       toneLevels := a.nextTones.foldl (fun t x => tset x.1 (toneAim s x.1 x.2.2.1) t) a.toneLevels } }
  let s2 := a.nextGains.foldl (fun t g => aimGain g.1 g.2.1 g.2.2 t) s1
  (upto 16).foldl (fun t b =>
    match (t.bus b).nextFx with
    | some (d, c) => setBus b { t.bus b with fx := d, coef := if c = [] then (t.bus b).coef else c, nextFx := none, delayPos := delayMove (t.bus b) (dget d 12 0 16) } t
    | none => t) s2

/-- A block of the engine: sources, duck and bus gains, buses, sinks (Table 12.1). -/
def audioBlock (o : AudioObs) (s : State) : State :=
  let (src, s1) := sources o s
  let (outs, s2) := (upto 16).foldl (runBus src) ([], (upto 16).foldl busGain (duckStep s1))
  sinks outs s2

/-- A tick of the engine. -/
def tick (o : AudioObs) (s : State) : State :=
  if unitPresent s.part .a bitAudio = false ∨ unitsStopped s [unitKey .a bitAudio] ∨ s.inReset.contains .audio ∨ islandOut s .a 17 = false
      ∨ s.rdF (POWER_STATUS .a) POWER_STATUS_STATE = 2 ∨ s.rdF (POWER_STATUS .a) POWER_STATUS_STATE = 3 then s
  else
    let s1 := if o.missed = 0 then s
      else s |> satF (AUDIO_LATE_BLOCKS .a) AUDIO_LATE_BLOCKS_COUNT o.missed |> postPf0 .a 0x0704 0 (o.missed % 2 ^ 16)
    let s2 := (upto o.missed).foldl (fun t _ => missedBlock t) s1
    (upto 16).foldl postClips (audioBlock o (audioPending s2))

/-! ## Ring descriptors (R336–R338) -/

/-- The route is an audio route of the form the opcode needs. -/
def needAudio (p : Route → Bool) (d : Desc) (s : State) : Option (Nat × Nat) :=
  match s.route (dRoute d) with
  | none => none
  | some r => bad (!p r) 0x08 4

def opPlayBuffer : OpSpec := .onRing 6 <|
  { mkOp 0x10 true (rsv 20 24 ++ rsv 32 64) aeUnits
     (fun _ d s => firstFail [needAudio isPlayback d s, bad (dget d 8 0 2 != 0) 0x08 8])
     (fun d _ => dget d 16 0 32 == 0)
     (fun t d s =>
      let h := dRoute d
      let x := s.aroute h
      let start := dget d 24 0 64
      let b : AudioBuf := ⟨t, d, false, 0, start != 0 && decide (start < s.timeA), x.dry && x.bufs == [], none⟩
      (none, setARoute h { x with bufs := x.bufs ++ [b], dry := false } s)) with
    defer := fun _ d s => decide (8 ≤ (s.aroute (dRoute d)).bufs.length) }

def opSetGain : OpSpec := .onRing 6 <|
  mkOp 0x11 true ([(8, 1, 7)] ++ rsv 9 10 ++ rsv 12 64) aeUnits
   (fun _ d s => firstFail [needAudio (fun r => audioA r || audioB r) d s, bad (!gainOk (sgn 16 (dget d 10 0 16))) 0x08 10]) notEmpty
   (fun _ d s => (some (stOk, 0), { s with audio := { s.audio with nextGains := s.audio.nextGains ++ [(dRoute d, dget d 8 0 1 == 1, sgn 16 (dget d 10 0 16))] } }))

def opTone : OpSpec := .onRing 6 <|
  mkOp 0x12 true ([(8, 2, 6)] ++ rsv 9 10 ++ rsv 14 64) aeUnits
   (fun _ d s =>
    let lv := sgn 16 (dget d 10 0 16)
    firstFail [needAudio (fun r => audioA r && epType r.source == 0x23) d s, bad (dget d 8 0 2 == 3) 0x08 8, bad (!decide (-12000 ≤ lv ∧ lv ≤ 0)) 0x08 10,
      bad (!decide (20 ≤ dget d 12 0 16 ∧ dget d 12 0 16 ≤ 20000)) 0x08 12]) notEmpty
   (fun _ d s =>
    match s.route (dRoute d) with
    | none => (some (stNoRoute, 0), s)
    | some r => (some (stOk, 0), { s with audio := { s.audio with nextTones := s.audio.nextTones ++
                  [(epSub r.source, dget d 8 0 2, sgn 16 (dget d 10 0 16), dget d 12 0 16)] } }))

def opAudioCap : OpSpec := .onRing 7 <|
  { mkOp 0x10 true (rsv 20 64) aeUnits (fun _ d s => firstFail [needAudio isCapture d s, bad (dget d 8 0 2 != 0) 0x08 8])
     (fun d _ => dget d 16 0 32 == 0)
     (fun t d s => (none, setARoute (dRoute d) { s.aroute (dRoute d) with bufs := (s.aroute (dRoute d)).bufs ++ [⟨t, d, false, 0, false, false, none⟩] } s)) with
    defer := fun _ d s => decide (8 ≤ (s.aroute (dRoute d)).bufs.length) }

def opMeter : OpSpec := .onRing 7 <|
  mkOp 0x11 true (rsv 16 64) aeUnits (fun _ d s => firstFail [needAudio audioB d s, bad (dget d 8 0 6 != 0) 0x08 8]) notEmpty
   (fun t d s =>
    match s.route (dRoute d) with
    | none => (some (stNoRoute, 0), s)
    | some r =>
      let b := busOf r
      let words (a : Nat → Nat) : List Byte := ((upto 8).map (fun c => leBytes 4 (s.rd (a c)).toNat)).flatten
      let bs := leBytes 8 s.timeA ++ words (AUDIO_METER_PEAK .a b) ++ words (AUDIO_METER_RMS .a b) ++ words (AUDIO_METER_HOLD .a b)
        ++ leBytes 4 (s.rd (AUDIO_BUS_CLIP .a b)).toNat ++ List.replicate 20 0
      match dmaWrite .a t.fn t.ring.ring (dget d 8 0 64) bs s with
      | (some e, s1) => (some e.completion, s1)
      | (none, s1) => (some (stOk, 0), s1))

/-! ## Meanings -/

def execAudioPort (q : RingId) (desc : Desc) (s : State) : Host.Outcome State Fault Refusal := run (submit opAudioPort q desc) s

def execAudioPdm (q : RingId) (desc : Desc) (s : State) : Host.Outcome State Fault Refusal := run (submit opAudioPdm q desc) s

def execAudioBus (q : RingId) (desc : Desc) (s : State) : Host.Outcome State Fault Refusal := run (submit opAudioBus q desc) s

def execAudioFx (q : RingId) (desc : Desc) (s : State) : Host.Outcome State Fault Refusal := run (submit opAudioFx q desc) s

def execAudioDuck (q : RingId) (desc : Desc) (s : State) : Host.Outcome State Fault Refusal := run (submit opAudioDuck q desc) s

def execAudioTick (obs : AudioObs) (s : State) : Host.Outcome State Fault Refusal := run (tick obs) s

def execAudioClockLoss (port : Nat) (s : State) : Host.Outcome State Fault Refusal := run (clockLoss port) s

def execAudioClockBack (port rate : Nat) (s : State) : Host.Outcome State Fault Refusal := run (clockBack port rate) s

def execPlayBuffer (q : RingId) (desc : Desc) (s : State) : Host.Outcome State Fault Refusal := run (submit opPlayBuffer q desc) s

def execSetGain (q : RingId) (desc : Desc) (s : State) : Host.Outcome State Fault Refusal := run (submit opSetGain q desc) s

def execTone (q : RingId) (desc : Desc) (s : State) : Host.Outcome State Fault Refusal := run (submit opTone q desc) s

def execAudioCapBuffer (q : RingId) (desc : Desc) (s : State) : Host.Outcome State Fault Refusal := run (submit opAudioCap q desc) s

def execMeterSnapshot (q : RingId) (desc : Desc) (s : State) : Host.Outcome State Fault Refusal := run (submit opMeter q desc) s

end Sys2Proof.Machine
end

