-- ==== Sys2Proof/Machine/Copy.lean ====
section
/-! DEFINITION. The COPY engine and the CRC engines of a die, and check routes (chapter 15). -/
namespace Sys2Proof.Machine

def Checks.empty : Checks := ⟨[], none, [], [], 0, []⟩
def State.check (s : State) (d : Die) : Checks := tget Checks.empty d.idx s.checks
def setCheck (d : Die) (x : Checks) (s : State) : State := { s with checks := tset d.idx x s.checks }

/-! ## Algorithms (R390) -/

/-- Width in bytes, polynomial (of reflected ones reflected), INIT, reflected, XOROUT of Table 15.1. -/
def algorithm (poly : Nat) : Nat × Nat × Nat × Bool × Nat :=
  match poly with
  | 1 => (4, 0xEDB88320, 0xFFFFFFFF, true, 0xFFFFFFFF)
  | 2 => (4, 0x82F63B78, 0xFFFFFFFF, true, 0xFFFFFFFF)
  | 3 => (2, 0x1021, 0xFFFF, false, 0)
  | 4 => (8, 0x42F0E1EBA9EA3693, 0, false, 0)
  | _ => (1, 0x1D, 0xFF, false, 0xFF)

def polyWidth (poly : Nat) : Nat := (algorithm poly).1
def polyInit (poly : Nat) : Nat := (algorithm poly).2.2.1

/-- n steps of a register of w bits that shifts to the left. -/
def crcLeft (w poly : Nat) : Nat → Nat → Nat
  | 0, c => c
  | n + 1, c => crcLeft w poly n (if nbit c (w - 1) then Nat.xor (c * 2 % 2 ^ w) poly else c * 2 % 2 ^ w)

/-- One byte into the running value. -/
def checkByte (poly : Nat) (c : Nat) (b : Byte) : Nat :=
  let a := algorithm poly
  if a.2.2.2.1 then crcByte a.2.1 c b else crcLeft (8 * a.1) a.2.1 8 (Nat.xor c (b.toNat * 2 ^ (8 * a.1 - 8)))

/-- Bytes into the running value. -/
def checkBytes (poly : Nat) (c : Nat) (bs : List Byte) : Nat := bs.foldl (checkByte poly) c

/-- The result: the running value XOR XOROUT. -/
def checkResult (poly c : Nat) : Nat := Nat.xor c (algorithm poly).2.2.2.2

/-- The result as bytes in ENDIAN order. -/
def resultBytes (j : CheckJob) (c : Nat) : List Byte :=
  let bs := leBytes (polyWidth j.poly) (checkResult j.poly c)
  if j.big then bs.reverse else bs

/-! ## Poison (R297) -/

/-- Which bytes of chunks are poisoned. -/
def poisonMarks (s : State) : List (Nat × Nat) → List Bool
  | [] => []
  | (k, n) :: t => (upto n).map (fun i => s.poison.any (fun p => decide (p ≤ k + i ∧ k + i < p + 4))) ++ poisonMarks s t

/-- Read for a copy: the bytes, with a mark on each poisoned one. -/
def copyRead (d : Die) (f : Fun) (ring va n port : Nat) (s : State) : Except DmaErr (List Byte × List Bool) × State :=
  match xlateRange d f false (n / 4096 + 2) va n s with
  | (.error (.xlate st lv k), s1) => (.error (.xlate st lv k), faultSeen d f va (xlateDetail st lv k) ring s1)
  | (.error e, s1) => (.error e, s1)
  | (.ok ks, s1) =>
    let marks := poisonMarks s1 ks
    let s2 := match s1.poison.find? (fun p => ks.any (fun c => decide (p < c.1 + c.2 ∧ c.1 < p + 4))) with
      | some p => poisonRead f p port s1
      | none => s1
    (.ok (getChunks s1 ks, marks), s2)

/-- Keys of the bytes of chunks. -/
def chunkKeys : List (Nat × Nat) → List Nat
  | [] => []
  | (k, n) :: t => (upto n).map (fun i => k + i) ++ chunkKeys t

/-- A byte of local memory lies in an ECC region. -/
def eccKey (s : State) (k : Nat) : Bool := decide (localKey 0 ≤ k) && inEccData s (localDie (k - localKey 0)) (localOff (k - localKey 0))

/-- Write for a copy: a marked byte poisons its word in an ECC region; outside, the poison is lost. -/
def copyWrite (d : Die) (f : Fun) (ring va : Nat) (bs : List Byte) (marks : List Bool) (s : State) : Option DmaErr × State :=
  match xlateRange d f true (bs.length / 4096 + 2) va bs.length s with
  | (.error (.xlate st lv k), s1) => (some (.xlate st lv k), faultSeen d f va (xlateDetail st lv k) ring s1)
  | (.error e, s1) => (some e, s1)
  | (.ok ks, s1) =>
    let s2 := putChunks ks bs s1
    let words := ((chunkKeys ks).zip marks).filterMap (fun x => if x.2 ∧ eccKey s2 x.1 then some (x.1 / 4 * 4) else none)
    (none, { s2 with poison := s2.poison ++ (words.eraseDups).filter (fun w => !s2.poison.contains w) })

/-! ## Jobs -/

/-- Die of a CRC engine. -/
def engineDie (e : Nat) : Die := dieOf 4 e
def jobOp (j : CheckJob) : Nat := dOpcode j.desc
def jobLen (j : CheckJob) : Nat := dget j.desc 24 0 32
/-- The job moves data through the COPY engine. -/
def usesCopy (j : CheckJob) : Bool := decide (jobOp j ≤ 0x12)
/-- The job runs a check. -/
def usesCrc (j : CheckJob) : Bool := jobOp j != 0x10
def jobStart (j : CheckJob) : Bool := dget j.desc 28 0 1 == 1
def jobFinal (j : CheckJob) : Bool := dget j.desc 28 1 1 == 1

/-- The running value of a route. -/
def routeValue (s : State) (d : Die) (h poly : Nat) : Nat := tget (polyInit poly) h (s.check d).values
def setRouteValue (d : Die) (h v : Nat) (s : State) : State := setCheck d { s.check d with values := tset h v (s.check d).values } s

/-- The value a job works from. -/
def jobValue (s : State) (d : Die) (j : CheckJob) : Nat :=
  match j.value with
  | some v => v
  | none => if jobStart j then polyInit j.poly else routeValue s d j.handle j.poly

/-- Status registers. -/
def refreshChecks (d : Die) (s : State) : State :=
  let x := s.check d
  let s1 := wrB (COPY_STATUS d) COPY_STATUS_BUSY x.copying.isSome s
  (upto 4).foldl (fun t e =>
    let a := CRC_ENGINE_STATUS d e
    let job := (tfind e x.serving).bind (fun g => x.jobs.find? (fun j => j.ticket.tag == g))
    t |> wrB a CRC_ENGINE_STATUS_BUSY job.isSome
      |> wrF a CRC_ENGINE_STATUS_ROUTE (match job with
          | some j => j.handle
          | none => 0)
      |> wrF a CRC_ENGINE_STATUS_ROUTES ((routesOf t 7).filter (fun r => epUnit r.2.source == 4 * d.idx + e)).length) s1

/-- Replace a job. -/
def setCheckJob (d : Die) (j : CheckJob) (s : State) : State :=
  setCheck d { s.check d with jobs := (s.check d).jobs.map (fun x => if x.ticket.tag = j.ticket.tag then j else x) } s

/-- The job leaves the engines. -/
def dropJob (d : Die) (tag : Nat) (s : State) : State :=
  let x := s.check d
  setCheck d { x with jobs := x.jobs.filter (fun j => j.ticket.tag != tag), copying := if x.copying = some tag then none else x.copying,
                      serving := x.serving.filter (fun g => g.2 != tag) } s

/-- CRC_GET and CRC_SET act. -/
def getSet (d : Die) (j : CheckJob) (s : State) : (Nat × Nat) × State :=
  if jobOp j = 0x15 then ((stOk, 0), setRouteValue d j.handle (dget j.desc 8 0 64) s)
  else
    match dmaWrite d j.ticket.fn j.ticket.ring.ring (dget j.desc 8 0 64) (leBytes 8 (routeValue s d j.handle j.poly)) s with
    | (some e, s1) => (e.completion, s1)
    | (none, s1) => ((stOk, 0), s1)

/-- The 16-byte record of a CRC_SCAN (R395). -/
def scanRecord (d : Die) (j : CheckJob) (v : Nat) (s : State) : Option DmaErr × State :=
  let a := dget j.desc 16 0 64
  if a = 0 then (none, s) else dmaWrite d j.ticket.fn j.ticket.ring.ring a (leBytes 8 v ++ leBytes 8 (checkResult j.poly v)) s

/-- DETAIL of a comparison. -/
def mismatch (b : Bool) : Nat := b2n b * 2 ^ 23

/-- What a CRC_SCAN compares (R395). -/
def scanMismatch (j : CheckJob) (v : Nat) : Bool := dget j.desc 28 2 1 == 1 && checkResult j.poly v != dget j.desc 32 0 64

/-- CRC_SCAN of length zero (R396). -/
def emptyScan (d : Die) (j : CheckJob) (s : State) : (Nat × Nat) × State :=
  let v := routeValue s d j.handle j.poly
  match scanRecord d j v s with
  | (some e, s1) => (e.completion, s1)
  | (none, s1) => ((stOkEmpty, mismatch (scanMismatch j v)), s1)

/-- Jobs that take no engine time: CRC_GET, CRC_SET and a CRC_SCAN of length zero. -/
def instant (j : CheckJob) : Bool := decide (0x14 ≤ jobOp j) || (jobOp j == 0x13 && jobLen j == 0)

def actInstant (d : Die) (j : CheckJob) (s : State) : (Nat × Nat) × State :=
  if 0x14 ≤ jobOp j then getSet d j s else emptyScan d j s

/-- Instant jobs at the front of a route act as soon as nothing of the route is before them (R393). -/
def routeNext (d : Die) (h : Nat) : Nat → State → State
  | 0, s => s
  | n + 1, s =>
    match (s.check d).jobs.find? (fun j => j.handle == h) with
    | none => s
    | some j =>
      if h ≠ 0 ∧ instant j then
        let (r, s1) := actInstant d j (dropJob d j.ticket.tag s)
        routeNext d h n (finish j.ticket r.1 r.2 s1)
      else s

/-- The job ends: the value is committed only with OK (R397). -/
def endJob_ (d : Die) (j : CheckJob) (st dt : Nat) (s : State) : State :=
  let s1 := dropJob d j.ticket.tag s
  let s2 := if st = stOk ∧ usesCrc j then setRouteValue d j.handle (jobValue s d j) s1 else s1
  let s3 := finish j.ticket st dt s2
  routeNext d j.handle ((s3.check d).jobs.length + 1) s3

/-- Source and destination ranges of a job overlap, the stored or appended value with them (R398). -/
def rangesMeet (j : CheckJob) : Bool :=
  let src := dget j.desc 8 0 64
  let dst := dget j.desc 16 0 64
  let w (op : Nat) : Nat := if jobOp j = op ∧ jobFinal j then polyWidth j.poly else 0
  usesCopy j && decide (src < dst + jobLen j + w 0x11 ∧ dst < src + jobLen j + w 0x12)

/-- What reaches the destination: the bytes, or undefined ones where the ranges overlap (R398). -/
def destBytes (j : CheckJob) (bs : List Byte) (s : State) : List Byte × State := if rangesMeet j then freeBytes bs.length s else (bs, s)

/-- What follows the last byte: the appended value, the stored one compared, or the record. -/
def lastStep (d : Die) (j : CheckJob) (s : State) : State :=
  let v := jobValue s d j
  let f := j.ticket.fn
  let w := polyWidth j.poly
  if jobOp j = 0x13 then
    match scanRecord d j v s with
    | (some e, s1) => endJob_ d j e.completion.1 e.completion.2 s1
    | (none, s1) => endJob_ d j stOk (mismatch (scanMismatch j v)) s1
  else if jobOp j = 0x10 ∨ jobFinal j = false then endJob_ d j stOk 0 s
  else if jobOp j = 0x11 then
    let (ws, s0) := destBytes j (resultBytes j v) s
    match dmaWrite d f j.ticket.ring.ring ((dget j.desc 16 0 64 + jobLen j) % 2 ^ 64) ws s0 with
    | (some e, s1) => endJob_ d j e.completion.1 e.completion.2 s1
    | (none, s1) => endJob_ d j stOk 0 s1
  else
    match dmaRead d f j.ticket.ring.ring ((dget j.desc 8 0 64 + jobLen j) % 2 ^ 64) w 20 s with
    | (.error e, s1) => endJob_ d j e.completion.1 e.completion.2 s1
    | (.ok bs, s1) => endJob_ d j stOk (mismatch (bs != resultBytes j v)) s1

/-- Bytes of a function in the share window. -/
def countShare (d : Die) (f : Fun) (n : Nat) (s : State) : State :=
  let x := s.check d
  let w := s.now d / 1000000
  let used := if x.window = w then x.used else []
  setCheck d { x with window := w, used := tset f.key (tget 0 f.key used + n) used } s

/-- One span, up to 4 KiB, of a job (R392, R499). Poisoned data is written on, and ends the descriptor (R297, R397). -/
def span (d : Die) (j : CheckJob) (s : State) : State :=
  let n := min 4096 (jobLen j - j.pos)
  let f := j.ticket.fn
  let ring := j.ticket.ring.ring
  match copyRead d f ring ((dget j.desc 8 0 64 + j.pos) % 2 ^ 64) n (if usesCopy j then 20 else 21) s with
  | (.error e, s1) => endJob_ d j e.completion.1 e.completion.2 s1
  | (.ok (bs, marks), s1) =>
    let s2 := if usesCrc j then s1 |> add64 (CRC_ENGINE_BYTES_LO d (j.engine % 4)) n |> countShare d f n else s1
    let (err, s3) := if usesCopy j then
        let (ws, s0) := destBytes j bs s2
        (match copyWrite d f ring ((dget j.desc 16 0 64 + j.pos) % 2 ^ 64) ws marks s0 with
         | (none, t) => (none, add64 (COPY_BYTES_LO d) n t)
         | r => r)
      else (none, s2)
    match err with
    | some e => endJob_ d j e.completion.1 e.completion.2 s3
    | none =>
      if marks.any id then endJob_ d j stEccUncorr 0 s3
      else
        let j1 := { j with pos := j.pos + n, value := if usesCrc j then some (checkBytes j.poly (jobValue s d j) bs) else none }
        let s4 := setCheckJob d j1 s3
        if jobLen j ≤ j1.pos then lastStep d j1 s4 else s4

/-! ## Choosing (R392, R499) -/

/-- The job may move data: it needs no leave, or its leave has come. -/
def mayMove (s : State) (d : Die) (j : CheckJob) : Bool := j.leave || hasLeave s d 1 j.ticket.tag

/-- Use up the leave of a job that is chosen. -/
def takeLeave (d : Die) (j : CheckJob) (s : State) : State :=
  if j.leave then s else s |> useLeave d 1 j.ticket.tag |> setCheckJob d { j with leave := true }

/-- The function's CRC engine time in the window is below its CRC_SHARE. -/
def crcBelowShare (s : State) (d : Die) (f : Fun) : Bool :=
  let x := s.check d
  let used := if x.window = s.now d / 1000000 then tget 0 f.key x.used else 0
  f.fn == 0 || f.fn == 63 || decide (used * 256 * 1500 < dget (grantsOf s f) 14 0 8 * 64000000 * s.rdF (PACE_STATUS d) PACE_STATUS_PACE)

def isOpal (s : State) (f : Fun) : Bool := classOf s f == 2

/-- The first of a list for which no other has a smaller rank. -/
def leastRank {α : Type} (rank : α → Nat) : List α → Option α
  | [] => none
  | x :: t =>
    match leastRank rank t with
    | none => some x
    | some y => if rank y < rank x then some y else some x

/-- Jobs at the front of their routes on an engine. -/
def engineFronts (s : State) (d : Die) (e : Nat) : List CheckJob :=
  let js := (s.check d).jobs
  js.filter (fun j => usesCrc j && j.engine % 4 == e && (js.find? (fun k => k.handle == j.handle)).any (fun k => k.ticket.tag == j.ticket.tag) && mayMove s d j)

/-- The COPY engine, if idle, chooses. -/
def pickCopy (d : Die) (s : State) : State :=
  let x := s.check d
  if x.copying.isSome then s
  else
    let served (j : CheckJob) : Bool := x.serving.any (fun g => g.2 == j.ticket.tag)
    let cands := x.jobs.filter (fun j => usesCopy j && mayMove s d j && (jobOp j == 0x10 || served j))
    match leastRank (fun j => (if served j then 0 else 2) + b2n (isOpal s j.ticket.fn)) cands with
    | none => refreshChecks d s
    | some j => setCheck d { x with copying := some j.ticket.tag } s |> takeLeave d j |> refreshChecks d

/-- A CRC engine, if idle, chooses. -/
def pickCrc (d : Die) (e : Nat) (s : State) : State :=
  let x := s.check d
  if (tfind e x.serving).isSome ∨ unitsStopped s [unitKey d (bitCrc e)] then s
  else
    match leastRank (fun j => (if crcBelowShare s d j.ticket.fn then 0 else 2) + b2n (isOpal s j.ticket.fn)) (engineFronts s d e) with
    | none => refreshChecks d s
    | some j => setCheck d { x with serving := tset e j.ticket.tag x.serving } s |> takeLeave d j |> pickCopy d |> refreshChecks d

/-- A CRC engine at a 4 KiB boundary of a scan (R392). The span of a copy is the COPY engine's. -/
def crcSwitch (engine : Nat) (s : State) : State :=
  let d := engineDie engine
  let e := engine % 4
  if 8 ≤ engine then s
  else
    match (tfind e (s.check d).serving).bind (fun g => (s.check d).jobs.find? (fun j => j.ticket.tag == g)) with
    | none => pickCrc d e s
    | some j =>
      if usesCopy j then s
      else
        let s1 := span d j s
        s1 |> setCheck d { s1.check d with serving := tkeep (fun k => k != e) (s1.check d).serving } |> pickCrc d e

/-- The COPY engine at a 4 KiB boundary (R499). -/
def copySwitch (d : Die) (s : State) : State :=
  match (s.check d).copying.bind (fun g => (s.check d).jobs.find? (fun j => j.ticket.tag == g)) with
  | none => pickCopy d s
  | some j =>
    let s1 := span d j s
    let s2 := setCheck d { s1.check d with copying := none, serving := (s1.check d).serving.filter (fun g => g.2 != j.ticket.tag) } s1
    (if usesCrc j then pickCrc d (j.engine % 4) s2 else s2) |> pickCopy d

/-- Work of a function stops at the next boundary of a function-level reset; how many descriptors are abandoned (R397). -/
def dropChecks (f : Fun) (s : State) : Nat × State :=
  [Die.a, Die.b].foldl (fun a d =>
    let x := a.2.check d
    let gone := x.jobs.filter (fun j => j.ticket.fn == f)
    (a.1 + gone.length, gone.foldl (fun t j => t |> dropJob d j.ticket.tag |> dropLeave d 1 j.ticket.tag) a.2 |> refreshChecks d)) (0, s)

/-! ## Descriptors (R394) -/

def needCheck (d : Desc) (s : State) : Option (Nat × Nat) :=
  match s.route (dRoute d) with
  | none => none
  | some r => bad (r.kind != 7) 0x08 4

def crcUnits : RingId → Desc → State → List Nat := fun _ d s =>
  match s.route (dRoute d) with
  | some r => if r.kind = 7 then [unitKey (engineDie (epUnit r.source)) (bitCrc (epUnit r.source % 4))] else []
  | none => []

def routePoly (d : Desc) (s : State) : Nat :=
  match s.route (dRoute d) with
  | some r => pget r 32 0 8
  | none => 0

/-- A value too wide for the route's algorithm. -/
def tooWide (d : Desc) (s : State) (v : Nat) : Bool := decide (2 ^ (8 * polyWidth (routePoly d s)) ≤ v)

/-- Take on a job: it asks for leave where it is a burst (R415), and an idle engine chooses at once. -/
def takeJob (t : Ticket) (d : Desc) (s : State) : Option (Nat × Nat) × State :=
  let r := s.route (dRoute d)
  let e := match r with
    | some x => epUnit x.source
    | none => 0
  let die := if dOpcode d = 0x10 then t.die else engineDie e
  let kib := s.rdF (PERMIT_BURST die) PERMIT_BURST_BURST_KIB
  let burst := decide (dOpcode d ≤ 0x13) && kib != 0 && decide (kib * 1024 ≤ dget d 24 0 32)
  let j : CheckJob := ⟨t, d, if dOpcode d = 0x10 then 0 else dRoute d, e, routePoly d s,
    (match r with
     | some x => pget x 33 0 1 == 1
     | none => false), 0, none, !burst⟩
  if s.split ∧ die ≠ t.die then (some (stPeerLost, 0), s)
  else if instant j ∧ (s.check die).jobs.all (fun k => k.handle != j.handle) then
    let (x, s1) := actInstant die j s
    (some x, s1)
  else
    let s1 := setCheck die { s.check die with jobs := (s.check die).jobs ++ [j] } s
    let s2 := if burst then askLeave die 1 t.tag (!isOpal s t.fn) s1 else s1
    (none, if jobOp j = 0x10 then pickCopy die s2 else pickCrc die (e % 4) s2)

def emptyLen : Desc → State → Bool := fun d _ => dget d 24 0 32 == 0

def opCopy : OpSpec := .onRing 3 <| mkOp 0x10 false (rsv 28 64) noUnits noRange emptyLen takeJob

def opCopyAppend : OpSpec := .onRing 3 <| mkOp 0x11 true ([(28, 2, 6)] ++ rsv 29 64) crcUnits (fun _ d s => needCheck d s) emptyLen takeJob

def opCopyCheck : OpSpec := .onRing 3 <| mkOp 0x12 true ([(28, 2, 6)] ++ rsv 29 64) crcUnits (fun _ d s => needCheck d s) emptyLen takeJob

def opCrcScan : OpSpec := .onRing 3 <|
  mkOp 0x13 true ([(28, 3, 5)] ++ rsv 29 32 ++ rsv 40 64) crcUnits
   (fun _ d s => firstFail [needCheck d s, bad (dget d 16 0 4 != 0) 0x08 16, bad (dget d 28 2 1 == 1 && dget d 28 1 1 == 0) 0x08 28,
      bad (tooWide d s (dget d 32 0 64)) 0x08 32]) notEmpty takeJob

def opCrcGet : OpSpec := .onRing 3 <| mkOp 0x14 true (rsv 16 64) crcUnits (fun _ d s => firstFail [needCheck d s, aligned d]) notEmpty takeJob
where aligned (d : Desc) : Option (Nat × Nat) := bad (dget d 8 0 3 != 0) 0x08 8

def opCrcSet : OpSpec := .onRing 3 <|
  mkOp 0x15 true (rsv 16 64) crcUnits (fun _ d s => firstFail [needCheck d s, bad (tooWide d s (dget d 8 0 64)) 0x08 8]) notEmpty takeJob

/-! ## Routes (R391) -/

def checkRouteCheck (s : State) (self : Nat) (r : Route) : Option (Nat × Nat) :=
  let e := epUnit r.source
  firstFail [
    badEp 16 (epType r.source != 0x50) (decide (7 < e)) (epSub r.source != 0) (epArg r.source != 0), isTenant 24 r.sink,
    bad (pget r 33 1 7 != 0) 0x01 33, zeroParams r 34 48,
    bad (pget r 32 0 8 == 0) 0x07 32, bad (decide (5 < pget r 32 0 8)) 0x08 32,
    (if unitPresent s.part (engineDie e) (bitCrc (e % 4)) then none else some (stUnitAbsent, 0)),
    bad (decide (64 ≤ ((routesOf s 7).filter (fun x => x.1 != self && epUnit x.2.source == e)).length)) 0x0B 17,
    bad (r.grantee.fn != 0 && r.grantee.fn != 63 && dget (grantsOf s r.grantee) 14 0 8 == 0) 0x0B 12]

/-- The route's running value starts at the INIT of its algorithm. -/
def checkBegins (h : Nat) (r : Route) (s : State) : State :=
  let d := engineDie (epUnit r.source)
  s |> setRouteValue d h (polyInit (pget r 32 0 8)) |> refreshChecks d

def checkGone (h : Nat) (r : Route) (s : State) : State :=
  let d := engineDie (epUnit r.source)
  s |> setCheck d { s.check d with values := tkeep (fun k => k != h) (s.check d).values } |> refreshChecks d

/-- A descriptor of the route runs or waits: a change waits for it (Table 1.4). -/
def checkBusy (s : State) (h : Nat) (r : Route) : Bool :=
  let d := engineDie (epUnit r.source)
  (s.check d).jobs.any (fun j => j.handle == h && (s.check d).serving.any (fun g => g.2 == j.ticket.tag))

/-! ## Meanings -/

def execCopy (q : RingId) (desc : Desc) (s : State) : Host.Outcome State Fault Refusal := run (submit opCopy q desc) s

def execCopyAppend (q : RingId) (desc : Desc) (s : State) : Host.Outcome State Fault Refusal := run (submit opCopyAppend q desc) s

def execCopyCheck (q : RingId) (desc : Desc) (s : State) : Host.Outcome State Fault Refusal := run (submit opCopyCheck q desc) s

def execCrcScan (q : RingId) (desc : Desc) (s : State) : Host.Outcome State Fault Refusal := run (submit opCrcScan q desc) s

def execCrcGet (q : RingId) (desc : Desc) (s : State) : Host.Outcome State Fault Refusal := run (submit opCrcGet q desc) s

def execCrcSet (q : RingId) (desc : Desc) (s : State) : Host.Outcome State Fault Refusal := run (submit opCrcSet q desc) s

def execCrcEngineSwitch (engine : Nat) (s : State) : Host.Outcome State Fault Refusal := run (crcSwitch engine) s

def execCopyEngineSwitch (d : Die) (s : State) : Host.Outcome State Fault Refusal := run (copySwitch d) s

end Sys2Proof.Machine
end

