-- ==== Sys2Proof/Machine/Haptics.lean ====
section
/-! DEFINITION. Haptic channels: set-up, effects, triggers, braking, protection (chapter 13). -/
namespace Sys2Proof.Machine

def HapChan.empty : HapChan := ⟨0, none, none, [], [], none, none, [], 0, false, 0, 0, [], 0, false, false, 0⟩
def State.hap (s : State) (c : Nat) : HapChan := tget HapChan.empty c s.haptics
def setHap (c : Nat) (x : HapChan) (s : State) : State := { s with haptics := tset c x s.haptics }
def hapDie (c : Nat) : Die := dieOf 4 c
def hapNo (c : Nat) : Nat := c % 4
def hapOn (s : State) (c : Nat) : Bool := s.flag (HAP_CFG (hapDie c) (hapNo c)) HAP_CFG_EN

/-- The haptic route of a channel. -/
def hapRoute (s : State) (c : Nat) : Option (Nat × Route) := (routesOf s 5).find? (fun x => epUnit x.2.source == c)
def hapChange (s : State) (c : Nat) : Bool := (hapRoute s c).any (fun x => x.2.change.isSome)

/-! ## Effects (R352, R353) -/

/-- Pulses of one length and amplitude, a time apart, with braking between if `brake`. -/
def pulses (n us gap amp freq : Nat) (brake : Bool) : List Seg :=
  match n with
  | 0 => []
  | 1 => [⟨1, amp, amp, freq, us⟩]
  | k + 2 => ⟨1, amp, amp, freq, us⟩ :: ⟨if brake then 5 else 2, 0, 0, 0, gap⟩ :: pulses (k + 1) us gap amp freq brake

/-- ROM effects (Table 13.1). Kind 5 is the braking between two pulses. -/
def romEffect (n : Nat) : List Seg :=
  if n < 24 then pulses 1 (8000 - 2000 * (n / 8)) 0 (510 * (n % 8 + 1)) 0 false
  else if n < 40 then pulses 2 (if n < 32 then 6000 else 4000) 60000 (510 * (n % 8 + 1)) 0 true
  else if n < 56 then pulses 1 2000 0 (255 * (n - 40 + 1)) 0 false
  else if n < 72 then pulses 1 (50000 * 2 ^ ((n - 56) % 4)) 0 (1020 * ((n - 56) / 4 + 1)) 0 false
  else if n < 80 then [⟨1, 0, 4080, 0, 100000 * (n % 8 + 1)⟩]
  else if n < 88 then [⟨1, 4080, 0, 0, 100000 * (n % 8 + 1)⟩]
  else pulses 3 100000 100000 (510 * (n - 88 + 1)) 150 false

/-- Segments of an effect of a channel; none where the RAM slot is empty. -/
def effectSegs (s : State) (c n : Nat) : Option (List Seg) := if n < 96 then some (romEffect n) else tfind n (s.hap c).ram

/-- A loaded segment. -/
def segOf (b : List Byte) : Seg :=
  let k := fb b 0 1
  if k = 4 then ⟨4, fb b 1 1, fb b 2 1, 0, 0⟩ else ⟨k, 16 * fb b 1 1, 16 * fb b 2 1, fb b 4 2, 100 * fb b 6 2⟩

/-- Segments before the first END. -/
def body (raw : List (List Byte)) : List (List Byte) := raw.takeWhile (fun b => fb b 0 1 != 0)

/-- Segments are valid (R353). -/
def segsOk (raw : List (List Byte)) : Bool :=
  let bs := body raw
  let n := bs.length
  (upto n).all (fun i =>
    let b := bs.getD i []
    let k := fb b 0 1
    fb b 3 1 == 0 &&
    (if k = 1 then (fb b 4 2 == 0 || decide (40 ≤ fb b 4 2 ∧ fb b 4 2 ≤ 1000)) && fb b 6 2 != 0
     else if k = 2 then fb b 6 2 != 0
     else if k = 3 then i + 1 == n
     else if k = 4 then decide (fb b 1 1 < i) && fb b 2 1 != 0
       && (upto n).all (fun j => j == i || fb (bs.getD j []) 0 1 != 4 || !decide (fb b 1 1 ≤ j ∧ j < i))
     else false))
  && raw.all (fun b => decide (fb b 0 1 ≤ 4))

/-! ## Registers -/

/-- Duty limit and window of a channel, in control periods (R351). -/
def dutyWindow (s : State) (c : Nat) : Nat := 8000 * s.rdF (HAP_LIMITS (hapDie c) (hapNo c)) HAP_LIMITS_DUTY_WIN_S
def dutyLimit (s : State) (c : Nat) : Nat := dutyWindow s c * s.rdF (HAP_LIMITS (hapDie c) (hapNo c)) HAP_LIMITS_DUTY_PCT / 100

/-- DUTY_PERMIL. -/
def dutyPermil (s : State) (c : Nat) : Nat :=
  if dutyWindow s c = 0 then 0 else min 1000 ((s.hap c).buckets.sum * 1000 / dutyWindow s c)

/-- The status registers follow the channel. -/
def refreshHap (c : Nat) (s : State) : State :=
  let d := hapDie c
  let n := hapNo c
  let x := s.hap c
  let a := HAP_STATUS d n
  let phase := match x.run with
    | some r => if r.braking then 2 else 1
    | none => if x.blockTlim || x.blockDuty then 3 else 0
  let s1 := s |> wrF a HAP_STATUS_PHASE phase |> wrB a HAP_STATUS_QUEUED x.queued.isSome |> wrB a HAP_STATUS_CHANGE_PENDING (hapChange s c)
    |> wrF a HAP_STATUS_DUTY_PERMIL (dutyPermil s c)
    |> wrF a HAP_STATUS_EFFECT (match x.run with
        | some r => r.start.effect
        | none => 0xFF)
  (upto 4).foldl (fun t i =>
    let b := HAP_ARM d n i
    match tfind i x.arms with
    | none => wr b 0 t
    | some m =>
      let pin := match t.route m.route with
        | some r => epSub r.source
        | none => 0
      t |> wrB b HAP_ARM_ARMED (m.armed && (hapRoute t c).isSome) |> wrF b HAP_ARM_PIN pin |> wrF b HAP_ARM_EFFECT m.start.effect
        |> wrF b HAP_ARM_ROUTE m.route) s1

/-- A haptic event: to the grantee of the channel's route and, if `toPf0`, to PF0 (R359). -/
def postHap (c typ payload : Nat) (toPf0 : Bool) (s : State) : State :=
  let d := hapDie c
  let e (t : State) : Event := ⟨typ, c, 1, t.now d, payload, d⟩
  let s1 := if toPf0 then postPf0 d typ c payload s else s
  match hapRoute s1 c with
  | none => s1
  | some (_, r) => if toPf0 ∧ r.grantee = pf0 d then s1 else post r.grantee (e s1) s1

/-- A trip of END 3–6: counted and posted (R351). -/
def trip (c code : Nat) (s : State) : State :=
  if code < 3 ∨ 6 < code then s
  else
    let a := HAP_TRIPS (hapDie c) (hapNo c)
    let f := if code = 3 then HAP_TRIPS_TLIM else if code = 4 then HAP_TRIPS_DUTY else if code = 5 then HAP_TRIPS_REFUSED else HAP_TRIPS_SUPPLY
    s |> satF a f 1 |> rinlarCount (hapDie c) (46 + 4 * hapNo c + (code - 3)) 1 |> postHap c 0x0801 (code + dutyPermil s c * 2 ^ 32) true

/-- The end of a PLAY (R357). -/
def endPlay (p : Option (Ticket × Nat)) (code driveUs : Nat) (s : State) : State :=
  match p with
  | none => s
  | some (t, _) =>
    finish t (if code ≤ 2 then stOk else if code ≤ 6 then stTimeout else stAbortedReset) (code * 2 ^ 20 + min 0xFFFF (driveUs / 1000)) s

/-! ## Starting (R348–R350) -/

/-- The channel can run effects. -/
def hapReady (s : State) (c : Nat) : Bool :=
  let x := s.hap c
  decide (c < 8) && hapOn s c && x.ticket.isNone && x.stopping.isNone && !unitsStopped s [unitKey (hapDie c) (bitHaptic (hapNo c))]
    && s.rdF (POWER_STATUS (hapDie c)) POWER_STATUS_STATE == 0 && !s.outOfService.contains (unitKey (hapDie c) (bitHaptic (hapNo c)))

/-- The tenant of a channel is frozen or being frozen: the current effect runs to the end of braking, and nothing starts (R121). -/
def hapHeld (s : State) (c : Nat) : Bool := (hapRoute s c).any (fun x => frozen s x.2.grantee || freezing s x.2.grantee)

/-- An effect starts; closed loop is tried again (R346). -/
def beginRun (c : Nat) (st : HapStart) (s : State) : State :=
  let x := s.hap c
  s |> setHap c { x with run := some ⟨st, 0, 0, [], false, 0, 0, 0, 0⟩, openLoop := false, fails := 0 } |> refreshHap c

/-- What becomes of a start (HAPTIC_TRIGGER result): 0 started, 1 merged, 2 queued, 3 ignored, 4 refused. -/
def startEffect (c : Nat) (st : HapStart) (s : State) : Nat × State :=
  let x := s.hap c
  let policy := s.flag (HAP_CFG (hapDie c) (hapNo c)) HAP_CFG_POLICY
  if hapChange s c then (4, s)
  else if x.blockTlim ∨ x.blockDuty then (4, trip c 5 (endPlay st.play 5 0 s))
  else
    match x.run with
    | none => (0, beginRun c st s)
    | some r =>
      if r.braking = false then (3, s)
      else if policy = false then (1, s |> setHap c { x with run := none } |> endPlay r.start.play 1 r.driveUs |> trip c r.code |> beginRun c st)
      else if x.queued.isNone then (2, s |> setHap c { x with queued := some st } |> refreshHap c)
      else (3, s)

/-- The PLAY that waits first starts, if the channel is not in a drive phase; blocked PLAYs are refused in turn. -/
def nextPlay (c : Nat) : Nat → State → State
  | 0, s => s
  | n + 1, s =>
    let x := s.hap c
    match x.plays with
    | [] => s
    | (t, d) :: rest =>
      if hapReady s c = false ∨ hapHeld s c ∨ x.run.any (fun r => !r.braking) ∨ (x.run.isSome ∧ x.queued.isSome) then s
      else if hapChange s c then s
      else
        let st : HapStart := ⟨dget d 8 0 8, dget d 9 0 8, (effectSegs s c (dget d 8 0 8)).getD [], some (t, dget d 10 0 8)⟩
        nextPlay c n (startEffect c st (setHap c { x with plays := rest } s)).2

/-- The effect ends with a code; the next play of its PLAY, or a queued start, follows. -/
def effectEnds (c code : Nat) (s : State) : State :=
  let x := s.hap c
  match x.run with
  | none => s
  | some r =>
    let s1 := setHap c { x with run := none, queued := none } s
    let s2 :=
      match r.start.play, code with
      | some (t, n), 0 =>
        if 1 < n then
          let again : HapStart := { r.start with play := some (t, n - 1) }
          if x.blockTlim ∨ x.blockDuty then s1 |> endPlay r.start.play 5 r.driveUs |> trip c 5
          else if hapChange s c then endPlay r.start.play 0 r.driveUs s1
          else
            let t1 := beginRun c again s1
            setHap c { t1.hap c with run := (t1.hap c).run.map (fun y => { y with driveUs := r.driveUs }) } t1
        else endPlay r.start.play 0 r.driveUs s1
      | p, k => s1 |> endPlay p k r.driveUs |> trip c k
    let s3 := match x.queued with
      | some st => if (s2.hap c).run.isNone ∧ hapHeld s2 c = false then (startEffect c st s2).2 else setHap c { s2.hap c with queued := some st } s2
      | none => s2
    s3 |> nextPlay c ((s3.hap c).plays.length + 1) |> refreshHap c

/-- The effect is to brake and end with a code. -/
def brakeWith (c code : Nat) (s : State) : State :=
  let x := s.hap c
  match x.run with
  | none => s
  | some r =>
    let open_ := s.rdF (HAP_CFG (hapDie c) (hapNo c)) HAP_CFG_SENSE = 0 ∨ x.openLoop
    if open_ then effectEnds c code s
    else s |> setHap c { x with run := some { r with braking := true, brakeUs := if r.braking then r.brakeUs else 0, code := code } } |> refreshHap c

/-! ## The control period (R345–R347, R351) -/

/-- Move through segments while the time in them has passed; `none` when none is left. -/
def advance (r : HapRun) : Nat → Option HapRun
  | 0 => some r
  | n + 1 =>
    match r.start.segs[r.seg]? with
    | none => none
    | some g =>
      if g.kind = 0 then none
      else if g.kind = 3 then some r
      else if g.kind = 4 then
        let k := tget 0 r.seg r.loops
        if k < g.a1 then advance { r with seg := g.a0, loops := tset r.seg (k + 1) r.loops } n
        else advance { r with seg := r.seg + 1, loops := tset r.seg 0 r.loops } n
      else if g.us ≤ r.us then advance { r with seg := r.seg + 1, us := r.us - g.us } n
      else some r

/-- Commanded amplitude of the present segment, 1/4,080. -/
def amplitude (r : HapRun) : Nat :=
  match r.start.segs[r.seg]? with
  | some g => if g.kind = 1 ∧ g.us ≠ 0 then (g.a0 * (g.us - min r.us g.us) + g.a1 * min r.us g.us) / g.us else 0
  | none => 0

/-- The channel drives in this period. -/
def drives (r : HapRun) (open_ : Bool) : Bool :=
  r.braking || (match r.start.segs[r.seg]? with
    | some g => (g.kind == 1 && amplitude r * r.start.gain != 0) || g.kind == 3 || (g.kind == 5 && !open_)
    | none => false)

/-- Time of the trailing BRAKE segment, µs: 0 means BRAKE_MAX_MS. -/
def brakeTime (x : HapChan) (r : HapRun) : Nat :=
  match r.start.segs[r.seg]? with
  | some g => if g.kind = 3 then (if g.us = 0 then 1000 * dget x.setup 22 0 8 else g.us) else 0
  | none => 0

/-- A sensor read fails: no response, which reads as 0xFF bytes, or saturation (R346). -/
def readFails (sense : Nat) (o : HapObs) : Bool :=
  o.saturated || (sense == 2 && (o.sample == 0xFFFF || o.sample == 0x7FFF || o.sample == 0x8000))

/-- Measured amplitude, 1/256 of FULL_SCALE: the back-EMF, or the size of the acceleration (R345). -/
def measuredAmp (x : HapChan) (sense : Nat) (o : HapObs) : Nat :=
  let full := dget x.setup 20 0 16
  min 255 (if sense = 2 then (if 0x8000 ≤ o.sample then 0x10000 - o.sample else o.sample) * dget x.setup 26 0 16 * 256 / (1000 * full)
    else o.sample * 256 / full)

/-- The drive command as a fraction, in mV: in open loop the amplitude is a drive voltage (R345). -/
def driveMv (x : HapChan) (sense : Nat) (o : HapObs) (r : HapRun) : Nat × Nat :=
  if sense = 0 then
    let a := match r.start.segs[r.seg]? with
      | some g => if g.kind = 3 then g.a0 else amplitude r
      | none => 0
    (a * r.start.gain * dget x.setup 20 0 16, 4080 * 128)
  else (o.drive, 1)

/-- The duty of a driven period, and whether VLIM clamps it (R343, R351). -/
def pwmDuty (x : HapChan) (sense : Nat) (o : HapObs) (r : HapRun) : (Nat × Nat) × Bool :=
  let v := driveMv x sense o r
  let vlim := dget x.setup 11 0 8
  if vlim * o.vsup * v.2 < v.1 * 256 then ((vlim, 256), true) else ((v.1, o.vsup * v.2), false)

/-- The period's sensor read (R345, R346): the accelerometer is asked, AMP takes what was measured, and the eighth failed read in a row
ends the closed loop. -/
def senseMotion (c : Nat) (o : HapObs) (s : State) : State :=
  let d := hapDie c
  let n := hapNo c
  let x := s.hap c
  let sense := s.rdF (HAP_CFG d n) HAP_CFG_SENSE
  if sense = 0 ∨ x.openLoop then s
  else
    let s1 := if sense = 2 then emit (.spi d (s.rdF (HAP_CFG d n) HAP_CFG_ACC_CS) (dget x.setup 24 0 8) (max 7 (s.rdF (HAP_SPI_CFG d) HAP_SPI_CFG_DIV) + 1)) s else s
    if readFails sense o = false then s1 |> wrF (HAP_SENSE d n) HAP_SENSE_AMP (measuredAmp x sense o) |> setHap c { x with fails := 0 }
    else if x.fails + 1 < 8 then setHap c { x with fails := x.fails + 1 } s1
    else s1 |> setHap c { x with fails := x.fails + 1, openLoop := true } |> wrB (HAP_STATUS d n) HAP_STATUS_SENSOR_FAIL true |> postHap c 0x0802 sense true

/-- One step of the running effect. -/
def stepRun (c : Nat) (o : HapObs) (s : State) : State :=
  let x := s.hap c
  let cfg := HAP_CFG (hapDie c) (hapNo c)
  match x.run with
  | none => s
  | some r =>
    let open_ := s.rdF cfg HAP_CFG_SENSE == 0 || x.openLoop
    let r1 := if drives r open_ then { r with driveUs := r.driveUs + 125 } else r
    if o.vsup < 2500 ∧ drives r open_ then effectEnds c 6 (setHap c { x with run := some r1 } s)
    else if r1.braking then
      let below := if s.rdF (HAP_SENSE (hapDie c) (hapNo c)) HAP_SENSE_AMP < dget x.setup 23 0 8 then r1.below + 1 else 0
      let r2 := { r1 with brakeUs := r1.brakeUs + 125, below := below }
      let limit := if open_ then brakeTime x r1 else 1000 * dget x.setup 22 0 8
      let s1 := setHap c { x with run := some r2 } s
      if (open_ = false ∧ 2 ≤ below) ∨ limit ≤ r2.brakeUs then effectEnds c r2.code s1 else s1
    else
      match advance { r1 with us := r1.us + 125 } (r1.start.segs.length * 256 + 1) with
      | some r2 =>
        let brake := (r2.start.segs[r2.seg]?).any (fun g => g.kind == 3)
        setHap c { x with run := some { r2 with braking := brake } } s
      | none =>
        -- the drive phase is over: closed loop brakes, open loop ends
        if open_ then effectEnds c 0 (setHap c { x with run := some r1 } s)
        else setHap c { x with run := some { r1 with braking := true, seg := r1.start.segs.length } } s

/-- The enable's leave has come (R344). -/
def hapLeave (c : Nat) (s : State) : State :=
  let d := hapDie c
  match (s.hap c).ticket with
  | none => s
  | some t =>
    if hasLeave s d 5 (hapNo c) then
      s |> useLeave d 5 (hapNo c) |> setPowered d (bitHaptic (hapNo c)) true |> setHap c { s.hap c with ticket := none } |> finish t stOk 0
    else s

/-- A stopped channel goes off. -/
def hapOff (c : Nat) (s : State) : State :=
  let d := hapDie c
  let n := hapNo c
  let x := s.hap c
  let s1 := s |> setHap c { HapChan.empty with ram := x.ram, arms := x.arms } |> wrB (HAP_CFG d n) HAP_CFG_EN false |> dropLeave d 5 n
    |> gateIdle d (bitHaptic n)
  let s2 := match x.ticket with
    | some t => finish t stAbortedReset 0 s1
    | none => s1
  let s3 := x.plays.foldl (fun t p => endPlay (some (p.1, 0)) 7 0 t) s2
  let s4 := match x.queued with
    | some st => endPlay st.play 7 0 s3
    | none => s3
  let s5 := match x.stopping with
    | some t => finishAny t stOk 0 s4
    | none => s4
  refreshHap c s5

/-- A control period of a channel. -/
def controlPeriod (c : Nat) (o : HapObs) (s0 : State) : State :=
  let d := hapDie c
  let n := hapNo c
  if 8 ≤ c ∨ hapOn s0 c = false ∨ unitReset s0 d (bitHaptic n) ∨ islandOut s0 d (21 + n) = false ∨ s0.rdF (POWER_STATUS d) POWER_STATUS_STATE = 2
      ∨ s0.rdF (POWER_STATUS d) POWER_STATUS_STATE = 3 then s0
  else
    let s := hapLeave c s0
    let x := s.hap c
    if x.ticket.isSome then s
    else
      let cfg := HAP_CFG d n
      let sense := s.rdF cfg HAP_CFG_SENSE
      let s3 := s |> wrF (HAP_SENSE d n) HAP_SENSE_VSUP_MV o.vsup |> senseMotion c o
      -- drive accounting (R351)
      let y := s3.hap c
      let open_ := sense == 0 || y.openLoop
      let drv := y.run.any (fun r => drives r open_) && decide (2500 ≤ o.vsup)
      let len := dutyWindow s3 c / 100
      let full := decide (len ≤ y.inBucket + 1)
      let bs := match y.buckets with
        | [] => [b2n drv]
        | b :: t => (b + b2n drv) :: t
      let duty := (y.run.map (pwmDuty y sense o)).filter (fun _ => drv)
      let clamp := y.clampRem + b2n (duty.any (·.2))
      let still := if drv then 0 else y.zero + 1
      let y1 := { y with cont := if drv then y.cont + 1 else if 160 ≤ still then 0 else y.cont, zero := still,
                         buckets := if full then (0 :: bs).take 100 else bs, inBucket := if full then 0 else y.inBucket + 1, clampRem := clamp % 256 }
      let s4 := (duty.elim s3 (fun p => emit (.pwm c p.1.1 p.1.2) s3)) |> setHap c y1 |> satF (HAP_COUNTS d n) HAP_COUNTS_VLIM_CLAMPS (clamp / 256)
      let sum := y1.buckets.sum
      let s5 := setHap c { y1 with blockTlim := y1.blockTlim && decide (still < 800),
                                   blockDuty := y1.blockDuty && decide (dutyLimit s4 c * 80 ≤ sum * 100) } s4
      let tlim := 8 * s5.rdF (HAP_LIMITS d n) HAP_LIMITS_TLIM_MS
      let running := y1.run.any (fun r => r.code == 0)
      let s6 :=
        if running ∧ drv ∧ tlim ≤ y1.cont then setHap c { s5.hap c with blockTlim := true } s5 |> brakeWith c 3
        else if running ∧ drv ∧ dutyLimit s5 c ≤ sum then setHap c { s5.hap c with blockDuty := true } s5 |> brakeWith c 4
        else stepRun c o s5
      -- a queued start that a freeze held starts when the tenant resumes (R121, R124)
      let s6b := match (s6.hap c).queued with
        | some st => if (s6.hap c).run.isNone ∧ hapHeld s6 c = false ∧ hapReady s6 c then (startEffect c st (setHap c { s6.hap c with queued := none } s6)).2 else s6
        | none => s6
      let s7 := s6b |> nextPlay c ((s6b.hap c).plays.length + 1) |> refreshHap c
      if (s7.hap c).stopping.isSome ∧ (s7.hap c).run.isNone then hapOff c s7 else s7

/-! ## Triggers (R348–R350) -/

/-- An edge on an HTRIG pin, past its filter. -/
def htrig (d : Die) (pin : Nat) (level : Bool) (s : State) : State :=
  let was := nbit (s.rdF (HTRIG_STATUS d) HTRIG_STATUS_LEVEL) pin
  if 8 ≤ pin ∨ was = level then s
  else
    let s1 := wrF (HTRIG_STATUS d) HTRIG_STATUS_LEVEL (setBit (s.rdF (HTRIG_STATUS d) HTRIG_STATUS_LEVEL) pin level) s
    match (routesOf s 6).find? (fun x => epUnit x.2.source == d.idx && epSub x.2.source == pin) with
    | none => s1
    | some (h, r) =>
      let c := epUnit r.sink
      let edge := pget r 34 0 2
      let x := s1.hap c
      if edge ≠ 2 ∧ (edge == 0) ≠ level then s1
      else
        match tfind (epSub r.sink) x.arms with
        | none => s1
        | some m =>
          if m.armed = false ∨ (hapRoute s1 c).isNone ∨ frozen s1 r.grantee ∨ freezing s1 r.grantee ∨ flrActive s1 r.grantee then s1
          else
            let (res, s2) := if hapReady s1 c then startEffect c m.start s1 else (3, s1)
            let s3 := if res = 3 ∨ res = 4 then satF (HAP_COUNTS (hapDie c) (hapNo c)) HAP_COUNTS_TRIG_IGNORED 1 s2 else s2
            let s4 := if pget r 34 2 1 = 1 then post r.grantee ⟨0x0800, c, 1, s3.now d, pin + epSub r.sink * 2 ^ 8 + res * 2 ^ 16, d⟩ s3 else s3
            let _ := h
            refreshHap c s4

/-! ## Routes (R354, R355) -/

def hapCheck (s : State) (self : Nat) (r : Route) : Option (Nat × Nat) :=
  let c := epUnit r.source
  let mask := dget (grantsOf s r.grantee) 19 0 8
  firstFail [
    badEp 16 (epType r.source != 0x40) (decide (7 < c)) (epSub r.source != 0) (epArg r.source != 0), isTenant 24 r.sink, zeroParams r 32 48,
    bad (r.cls == 0 && r.grantee.fn != 63) 0x08 12,
    (if unitPresent s.part (hapDie c) (bitHaptic (hapNo c)) then none else some (stUnitAbsent, 0)),
    bad (r.grantee.fn != 0 && r.grantee.fn != 63 && !nbit mask c) 0x09 17,
    bad ((routesOf s 5).any (fun x => x.1 != self && epUnit x.2.source == c)) 0x09 17]

def trigCheck (s : State) (self : Nat) (r : Route) : Option (Nat × Nat) :=
  let c := epUnit r.sink
  let d : Die := if epUnit r.source = 0 then .a else .b
  let pin := 0x100 + epSub r.source
  firstFail [
    badEp 16 (epType r.source != 0x41) (decide (1 < epUnit r.source)) (decide (7 < epSub r.source)) (epArg r.source != 0),
    badEp 24 (epType r.sink != 0x42) (decide (7 < c)) (decide (3 < epSub r.sink)) (epArg r.sink != 0),
    bad (pget r 33 0 8 == 0) 0x07 33, bad (decide (127 < pget r 32 0 8)) 0x08 32, bad (pget r 34 0 2 == 3) 0x08 34,
    bad (pget r 34 3 5 != 0) 0x01 34, zeroParams r 36 48,
    (if unitPresent s.part (hapDie c) (bitHaptic (hapNo c)) then none else some (stUnitAbsent, 0)),
    bad ((effectSegs s c (pget r 32 0 8)).isNone) 0x08 32,
    bad (hapDie c != d) 0x09 25,
    bad ((routesOf s 6).any (fun x => x.1 != self && epUnit x.2.source == epUnit r.source && epSub x.2.source == epSub r.source)) 0x09 18,
    bad ((routesOf s 6).any (fun x => x.1 != self && epUnit x.2.sink == c && epSub x.2.sink == epSub r.sink)) 0x09 26,
    bad (pinSecure s d pin != isPf1 r.grantee || pinOwner s d pin != r.grantee) 0x09 18,
    bad ((hapRoute s c).all (fun x => x.2.grantee != r.grantee)) 0x09 25]

/-- ROUTED bits of HTRIG_STATUS. -/
def refreshHtrig (d : Die) (s : State) : State :=
  wrF (HTRIG_STATUS d) HTRIG_STATUS_ROUTED
    (((upto 8).map (fun p => if (routesOf s 6).any (fun x => epUnit x.2.source == d.idx && epSub x.2.source == p) then 2 ^ p else 0)).sum) s

/-- A trigger route arms a copy of its effect (R355). -/
def trigBegins (h : Nat) (r : Route) (s : State) : State :=
  let c := epUnit r.sink
  let e := pget r 32 0 8
  let m : HapArm := ⟨h, true, ⟨e, pget r 33 0 8, (effectSegs s c e).getD [], none⟩⟩
  s |> setHap c { s.hap c with arms := tset (epSub r.sink) m (s.hap c).arms } |> refreshHtrig (hapDie c) |> refreshHap c

/-- A trigger route is gone. -/
def trigGone (r : Route) (s : State) : State :=
  let c := epUnit r.sink
  s |> setHap c { s.hap c with arms := tkeep (fun k => k != epSub r.sink) (s.hap c).arms } |> refreshHtrig (hapDie c) |> refreshHap c

/-- The owner of a channel changes: the sequencer is scrubbed (R114), and PLAYs that have not started complete with NO_ROUTE (R350);
`last` owned it. -/
def hapScrub (c : Nat) (last : Fun) (s0 : State) : State :=
  let s := scrub (hapDie c) (bitHaptic (hapNo c)) last s0
  let x := s.hap c
  let s1 := setHap c { x with ram := [], arms := x.arms.map (fun m => (m.1, { m.2 with armed := false, start := ⟨0, 0, [], none⟩ })), plays := [] } s
  x.plays.foldl (fun t p => finish p.1 stNoRoute 0 t) s1 |> refreshHap c

/-- Channels of a function, when it is reset or its tenant is gone: the sequencers are scrubbed (R114). -/
def hapOwnerGone (f : Fun) (s : State) : State :=
  ((routesOf s 5).filter (fun x => x.2.grantee == f)).foldl (fun t x =>
    let c := epUnit x.2.source
    t |> hapScrub c f |> (fun u => setHap c { u.hap c with run := none, queued := none } u) |> refreshHap c) s

/-- Channels of a function brake and its trigger routes disarm, with no completion (Table 4.2). -/
def hapReset (f : Fun) (s : State) : State :=
  let s1 := (routesOf s 5).foldl (fun t x =>
    if x.2.grantee = f then
      let c := epUnit x.2.source
      let y := t.hap c
      t |> setHap c { y with run := y.run.map (fun r => { r with start := { r.start with play := none } }), queued := none, plays := [] }
        |> brakeWith c 0 |> refreshHap c
    else t) s
  (routesOf s1 6).foldl (fun t x =>
    if x.2.grantee = f then
      let c := epUnit x.2.sink
      setHap c { t.hap c with arms := (t.hap c).arms.map (fun m => if m.2.route = x.1 then (m.1, { m.2 with armed := false }) else m) } t |> refreshHap c
    else t) s1

/-! ## Set-up (R344) -/

def chanRange (q : RingId) (d : Desc) (s : State) : Option (Nat × Nat) :=
  let c := dget d 8 0 8
  let sense := dget d 9 1 2
  let full := dget d 20 0 16
  let garnet := (hapRoute s c).any (fun x => x.2.cls == 0)
  firstFail [bad (!(q.fn.fn == 0 || (q.fn.fn == 63 && garnet))) 0x08 0, onDie q 4 c 8,
    (if dget d 9 0 1 = 0 then firstFail [bad (dget d 9 1 4 != 0) 0x08 9, bad (dget d 10 0 2 != 0) 0x08 10, bad (dget d 11 0 8 != 0) 0x08 11,
        bad (dget d 12 0 16 != 0) 0x08 12, bad (dget d 14 0 16 != 0) 0x08 14, bad (dget d 16 0 8 != 0) 0x08 16, bad (dget d 17 0 8 != 0) 0x08 17,
        bad (dget d 18 0 16 != 0) 0x08 18, bad (full != 0) 0x08 20, bad (dget d 22 0 8 != 0) 0x08 22, bad (dget d 23 0 8 != 0) 0x08 23,
        bad (dget d 24 0 8 != 0) 0x08 24, bad (dget d 26 0 16 != 0) 0x08 26]
     else firstFail [bad (dget d 11 0 8 == 0) 0x07 11, bad (dget d 12 0 16 == 0) 0x07 12, bad (dget d 18 0 16 == 0) 0x07 18, bad (full == 0) 0x07 20,
        bad (dget d 22 0 8 == 0) 0x07 22, bad (dget d 23 0 8 == 0) 0x07 23,
        bad (sense == 3) 0x08 9, bad (sense != 2 && dget d 10 0 2 != 0) 0x08 10, bad (!decide (20 ≤ dget d 12 0 16 ∧ dget d 12 0 16 ≤ 100)) 0x08 12,
        bad (dget d 14 0 16 != 0 && !decide (100 ≤ dget d 14 0 16 ∧ dget d 14 0 16 ≤ 10000)) 0x08 14,
        bad (dget d 16 0 8 != 0 && !decide (5 ≤ dget d 16 0 8 ∧ dget d 16 0 8 ≤ 100)) 0x08 16, bad (decide (60 < dget d 17 0 8)) 0x08 17,
        bad (!decide (40 ≤ dget d 18 0 16 ∧ dget d 18 0 16 ≤ 1000)) 0x08 18,
        bad (if sense = 2 then !decide (100 ≤ full ∧ full ≤ 16000) else if sense = 1 then !decide (10 ≤ full ∧ full ≤ 5000)
          else !decide (100 ≤ full ∧ full ≤ 20000)) 0x08 20,
        bad (decide (100 < dget d 22 0 8)) 0x08 22, bad (sense != 2 && dget d 24 0 8 != 0) 0x08 24,
        bad (if sense = 2 then dget d 26 0 16 == 0 else dget d 26 0 16 != 0) 0x08 26,
        bad (hapOn s c) 0x09 9])]

/-- HAPTIC_CHANNEL with EN 0: an effect brakes first. -/
def stopChan (c : Nat) (t : Option Ticket) (s : State) : Option (Nat × Nat) × State :=
  let x := s.hap c
  if hapOn s c = false then (some (stOk, 0), s)
  else if x.run.isNone then (some (stOk, 0), hapOff c s)
  else
    let s1 := brakeWith c 7 (setHap c { x with stopping := t } s)
    if (s1.hap c).run.isNone then (some (stOk, 0), hapOff c (setHap c { s1.hap c with stopping := none } s1)) else (none, s1)

def opHapticChannel : OpSpec :=
  mkOp 0x80 false ([(9, 5, 3), (10, 2, 6), (25, 0, 8)] ++ rsv 28 64)
   (fun _ d _ => if dget d 8 0 8 < 8 then [unitKey (hapDie (dget d 8 0 8)) (bitHaptic (hapNo (dget d 8 0 8)))] else [])
   chanRange notEmpty
   (fun t d s =>
    let c := dget d 8 0 8
    let e := hapDie c
    let n := hapNo c
    if dget d 9 0 1 = 0 then powerRequest e (bitHaptic n) t d (fun u => stopChan c (some t) u) s
    else
      let w := dget d 9 0 1 * 2 ^ 31 + dget d 9 1 2 * 2 ^ 29 + dget d 9 3 1 * 2 ^ 28 + dget d 9 4 1 * 2 ^ 27 + dget d 10 0 2 * 2 ^ 25
        + dget d 11 0 8 * 2 ^ 17 + dget d 18 0 16 % 1024 * 2 ^ 7 + dget d 12 0 16 % 128
      let z (o dflt n : Nat) : Nat := if dget d o 0 n = 0 then dflt else dget d o 0 n
      let lim := z 14 2000 16 % 2 ^ 14 * 2 ^ 18 + z 16 30 8 % 128 * 2 ^ 11 + z 17 10 8 % 64 * 2 ^ 5
      let x := s.hap c
      (none, s |> wr (HAP_CFG e n) (BitVec.ofNat 32 w) |> wr (HAP_LIMITS e n) (BitVec.ofNat 32 lim) |> islTakes (HAP_CFG e n) |> islTakes (HAP_LIMITS e n)
        |> setHap c { HapChan.empty with setup := d, ram := x.ram, arms := x.arms, ticket := some t } |> askLeave e 5 n true
        |> dueIsland e (21 + n) |> refreshHap c))

/-! ## Descriptors (R356) -/

/-- Channel of a haptic or trigger route. -/
def chanOf (r : Route) : Nat := if r.kind = 5 then epUnit r.source else epUnit r.sink

def hapUnits : RingId → Desc → State → List Nat := fun _ d s =>
  match s.route (dRoute d) with
  | some r => if r.kind = 5 ∨ r.kind = 6 then [unitKey (hapDie (chanOf r)) (bitHaptic (hapNo (chanOf r)))] else []
  | none => []

def needHap (kind : Nat) (d : Desc) (s : State) : Option (Nat × Nat) :=
  match s.route (dRoute d) with
  | none => none
  | some r => bad (r.kind != kind) 0x08 4

/-- EFFECT and GAIN of a descriptor. -/
def effectRange (d : Desc) (s : State) : Option (Nat × Nat) :=
  match s.route (dRoute d) with
  | none => none
  | some r => firstFail [bad (dget d 9 0 8 == 0) 0x07 9, bad (decide (127 < dget d 8 0 8) || (effectSegs s (chanOf r) (dget d 8 0 8)).isNone) 0x08 8]

/-- In a split, work for the other endpoint (R357). -/
def hapPeer (t : Ticket) (r : Route) (s : State) : Bool := s.split && t.fn.ep != hapDie (chanOf r)

/-- The crossing of the channel of a descriptor's route, while the channel is enabled (R426, Table 13.7). -/
def hapXing (_ : RingId) (d : Desc) (s : State) : List (Die × Nat) :=
  match s.route (dRoute d) with
  | some r => if hapOn s (chanOf r) then [(hapDie (chanOf r), 0x90 + 4 * hapNo (chanOf r))] else []
  | none => []

def opPlay : OpSpec := .onRing 8 <|
  .crossing (hapXing) <|
  mkOp 0x10 true (rsv 11 64) hapUnits (fun _ d s => andThen (needHap 5 d s) (effectRange d s)) (fun d _ => dget d 10 0 8 == 0)
   (fun t d s =>
    match s.route (dRoute d) with
    | none => (some (stNoRoute, 0), s)
    | some r =>
      let c := chanOf r
      if hapPeer t r s then (some (stPeerLost, 0), s)
      else if hapOn s c = false then (some (stAbortedReset, 7 * 2 ^ 20), s)
      else
        let s1 := setHap c { s.hap c with plays := (s.hap c).plays ++ [(t, d)] } s
        (none, s1 |> nextPlay c ((s1.hap c).plays.length + 1) |> refreshHap c))

def opStop : OpSpec := .onRing 8 <|
  .crossing (hapXing) <|
  mkOp 0x11 true (rsv 8 64) hapUnits (fun _ d s => needHap 5 d s) notEmpty
   (fun t d s =>
    match s.route (dRoute d) with
    | none => (some (stNoRoute, 0), s)
    | some r => if hapPeer t r s then (some (stPeerLost, 0), s) else (some (stOk, 0), brakeWith (chanOf r) 2 s))

/-- Groups of 8 bytes. -/
def segBytes (bs : List Byte) (n : Nat) : List (List Byte) := (upto n).map (fun i => (bs.drop (8 * i)).take 8)

def opLoad : OpSpec := .onRing 8 <|
  .crossing (hapXing) <|
  mkOp 0x12 true ([(10, 1, 7)] ++ rsv 11 16 ++ rsv 24 64) hapUnits
   (fun _ d s => firstFail [needHap 5 d s, bad (!decide (96 ≤ dget d 8 0 8 ∧ dget d 8 0 8 ≤ 127)) 0x08 8, bad (decide (16 < dget d 9 0 8)) 0x08 9,
      bad (dget d 10 0 1 == 1 && dget d 9 0 8 != 0) 0x08 9, bad (dget d 16 0 3 != 0) 0x08 16])
   (fun d _ => dget d 9 0 8 == 0 && dget d 10 0 1 == 0)
   (fun t d s =>
    match s.route (dRoute d) with
    | none => (some (stNoRoute, 0), s)
    | some r =>
      let c := chanOf r
      let n := dget d 9 0 8
      if hapPeer t r s then (some (stPeerLost, 0), s)
      else if dget d 10 0 1 = 1 then (some (stOk, 0), setHap c { s.hap c with ram := tkeep (fun k => k != dget d 8 0 8) (s.hap c).ram } s)
      else
        match dmaRead (hapDie c) t.fn t.ring.ring (dget d 16 0 64) (8 * n) 11 s with
        | (.error e, s1) => (some e.completion, s1)
        | (.ok bs, s1) =>
          if segsOk (segBytes bs n) = false then (invalid 0x08 16, s1)
          else (some (stOk, 0), setHap c { s1.hap c with ram := tset (dget d 8 0 8) ((body (segBytes bs n)).map segOf) (s1.hap c).ram } s1))

def opArm : OpSpec := .onRing 8 <|
  .crossing (hapXing) <|
  mkOp 0x13 true ([(10, 1, 7)] ++ rsv 11 64) hapUnits (fun _ d s => andThen (needHap 6 d s) (effectRange d s)) notEmpty
   (fun t d s =>
    match s.route (dRoute d) with
    | none => (some (stNoRoute, 0), s)
    | some r =>
      let c := chanOf r
      let e := dget d 8 0 8
      if hapPeer t r s then (some (stPeerLost, 0), s)
      else
        let m : HapArm := ⟨dRoute d, dget d 10 0 1 == 1, ⟨e, dget d 9 0 8, (effectSegs s c e).getD [], none⟩⟩
        (some (stOk, 0), s |> setHap c { s.hap c with arms := tset (epSub r.sink) m (s.hap c).arms } |> refreshHap c))

/-! ## Meanings -/

def execHapticChannel (q : RingId) (desc : Desc) (s : State) : Host.Outcome State Fault Refusal := run (submit opHapticChannel q desc) s

def execPlay (q : RingId) (desc : Desc) (s : State) : Host.Outcome State Fault Refusal := run (submit opPlay q desc) s

def execStop (q : RingId) (desc : Desc) (s : State) : Host.Outcome State Fault Refusal := run (submit opStop q desc) s

def execLoad (q : RingId) (desc : Desc) (s : State) : Host.Outcome State Fault Refusal := run (submit opLoad q desc) s

def execArm (q : RingId) (desc : Desc) (s : State) : Host.Outcome State Fault Refusal := run (submit opArm q desc) s

def execHtrigEdge (d : Die) (pin : Nat) (level : Bool) (s : State) : Host.Outcome State Fault Refusal := run (htrig d pin level) s

def execHapticControlPeriod (ch : Nat) (obs : HapObs) (s : State) : Host.Outcome State Fault Refusal := run (controlPeriod ch obs) s

end Sys2Proof.Machine
end

