-- ==== Sys2Proof/Machine/Compose.lean ====
section
/-! DEFINITION. Fetching the lines of a head from its layers, and stages 6 to 9 of the lines (chapter 6). -/
namespace Sys2Proof.Machine

/-- A read for a function goes over the die link: to the other die's memory, or to the host of the other endpoint. -/
def overLink (s : State) (d : Die) (f : Fun) (va : Nat) : Bool :=
  match walkBoth s d f va false with
  | .ok (_, l) => if l.loc then localDie l.addr != d else f.ep != d
  | .error _ => false

/-- The fetch of a layer's line is dropped: the main link is lost, and units of the line lie beyond it (R449). -/
def dropped (s : State) (h k l : Nat) (g : Geo) (c : Commit) : Bool :=
  mainLost s (headDie h) && (lineUnits c.desc g k (visible s h l k)).any (fun u => overLink s (headDie h) c.ticket.fn u.1)

/-- The fetch of an output line for one more layer: its parts, or its wait for camera lines or for the other die. -/
def fetchLayer (h k frame : Nat) (x : FtLine × State) (l : Nat) : FtLine × State :=
  match layerGeo x.2 h l with
  | none => x
  | some g =>
    match g.commit with
    | some c =>
      if dropped x.2 h k l g c then ({ x.1 with waits := x.1.waits ++ [l] }, x.2)
      else
        let (ps, s1) := fetchCommit h k frame l g c x.2
        ({ x.1 with parts := x.1.parts ++ ps }, s1)
    | none =>
      let (ps, waits, s1) := fetchCamera h k frame l g x.2
      ({ x.1 with parts := x.1.parts ++ ps, waits := x.1.waits ++ (if waits then [l] else []) }, s1)

/-- The head colour in force. -/
def Head.colourNow (x : Head) : HeadColour := x.colour.getD HeadColour.start

/-- The head colour of the pass that runs: the one that it brings, if any (R178). -/
def Head.passColour (x : Head) : HeadColour :=
  match x.pendColour with
  | some (_, c, 1) => c
  | _ => x.colourNow

/-- The fetch of an output line: the load, and every layer in order. -/
def fetchLine (h k frame : Nat) (s : State) : FtLine × State :=
  let r := (upto 16).foldl (fetchLayer h k frame) (⟨frame, [], [], [], some (s.head h).colourNow, []⟩, chargeLine h k frame s)
  ({ r.1 with layers := lineShows r.2 h k }, r.2)

/-- A line as the frame tier stores it (R142). -/
def storeFmt (s : State) (h : Nat) : Nat := s.rdF (HEAD_CFG (headDie h) (headNo h)) HEAD_CFG_STORE_FMT

/-- The line without one layer. -/
def FtLine.without (l : Nat) (x : FtLine) : FtLine :=
  { x with layers := x.layers.filter (fun y => y.1 != l), waits := x.waits.erase l, parts := x.parts.filter (fun p => p.layer != l) }

/-- The fetched lines of a head show what layer l now draws: nothing if it is gone, what is fetched anew if it has changed (R23, R163). -/
def relayAhead (h l : Nat) (s : State) : State :=
  (s.head h).ahead.foldl (fun t z =>
    let x := z.2.without l
    let (y, t1) := fetchLayer h z.1 x.frame ({ x with parts := [], waits := [] }, t) l
    let mine := (lineShows t1 h z.1).filter (fun y => y.1 == l)
    let x1 : FtLine := { x with parts := x.parts.filter (fun p => p.layer < l) ++ y.parts ++ x.parts.filter (fun p => l < p.layer),
                                waits := x.waits ++ y.waits,
                                layers := x.layers.filter (fun y => y.1 < l) ++ mine ++ x.layers.filter (fun y => l < y.1) }
    setHead h { t1.head h with ahead := tset z.1 x1 (t1.head h).ahead } t1) s

/-- The newest frame of which a fetched line shows a flight of a layer, or the present one's predecessor. -/
def lastFetched (s : State) (h l flight frame : Nat) : Nat :=
  ((s.head h).ahead.filter (fun z => z.2.layers.contains (l, flight))).foldl (fun f z => max f z.2.frame) frame

/-- The buffer that a layer shows leaves use outside a commit: in through mode once the lines already begun are fetched, in a running pass
after the line before, else at once (Table 6.5). -/
def releaseNow (h l : Nat) (s : State) : State :=
  match ((s.head h).layer l).cur with
  | none => s
  | some c =>
    if cEn c.desc = false then s
    else if headThrough s h then
      let f := lastFetched s h l c.ticket.tag (s.headFrame h - 1)
      if (s.head h).phase = 3 then setHead h { s.head h with releases := (s.head h).releases ++ [⟨l, c.ticket, f, stOk⟩] } s
      else postLast c.ticket 1 stOk (releaseDetail (s.headFrame h) l false h) s
    else
      match (s.head h).pass with
      | some (j, f) => releaseCur h l f j .pass s
      | none => releaseCur h l 0 0 .window s

/-- A layer is drawn no more on the fetched lines of a frame from line k on. -/
def dropParts (h l k frame : Nat) (s : State) : State :=
  let x := s.head h
  setHead h { x with ahead := x.ahead.map (fun y => if y.2.frame = frame ∧ k ≤ y.1 then (y.1, y.2.without l) else y) } s

end Sys2Proof.Machine
end

