-- ==== Sys2Proof/Machine/Heads.lean ====
section
/-! DEFINITION. Heads, ports, frame tier and genlock (chapter 5), but for the start of a line, which stands in Lines. -/
namespace Sys2Proof.Machine

/-! ## Timing (R129–R133) -/

/-- The timing of Table 5.1 as four register words. -/
structure Timing where
  ha : Word
  hb : Word
  va : Word
  vb : Word
deriving DecidableEq, Repr

def hi16 (w : Word) : Nat := w.toNat / 2 ^ 16
def lo16 (w : Word) : Nat := w.toNat % 2 ^ 16

/-- The timing that the registers hold. -/
def timingOf (s : State) (d : Die) (n : Nat) : Timing := ⟨s.rd (TIMING_HA d n), s.rd (TIMING_HB d n), s.rd (TIMING_VA d n), s.rd (TIMING_VB d n)⟩

def Timing.hasZero (t : Timing) : Bool :=
  [t.ha, t.hb, t.va, t.vb].any (fun w => hi16 w == 0 || lo16 w == 0)

def Timing.vblank (t : Timing) : Nat := lo16 t.va + hi16 t.vb + lo16 t.vb

/-- Table 5.1, but for the pixel clock; `look` is the lookahead of a through-mode head. -/
def Timing.ok (t : Timing) (look : Option Nat) : Bool :=
  let hb := lo16 t.ha + hi16 t.hb + lo16 t.hb
  decide (64 ≤ hi16 t.ha ∧ hi16 t.ha ≤ 4096 ∧ 64 ≤ hi16 t.va ∧ hi16 t.va ≤ 4094) &&
  [lo16 t.ha, hi16 t.hb, lo16 t.hb, lo16 t.va, hi16 t.vb, lo16 t.vb].all (fun x => decide (1 ≤ x ∧ x ≤ 4095)) &&
  decide (32 ≤ hb ∧ hi16 t.ha + hb ≤ 8191 ∧ hi16 t.va + t.vblank ≤ 8191 ∧ hi16 t.ha * hi16 t.va ≤ 8294400) &&
  (match look with
   | some l => decide (l + 1 ≤ t.vblank)
   | none => true)

/-- HEAD_PCLK within Table 5.1 and the ceiling. -/
def pclkOk (khz ceil : Nat) : Bool := decide (25000 ≤ khz ∧ khz ≤ 600000 ∧ khz ≤ ceil)

/-- Units of a stored frame (R142). -/
def frameUnits (t : Timing) (fmt : Nat) : Nat := cdiv (hi16 t.ha * hi16 t.va * (if fmt = 0 then 3 else 4)) 65536

/-- The lookahead that counts for Table 5.1. -/
def lookOf (s : State) (d : Die) (n : Nat) : Option Nat :=
  if s.flag (HEAD_CFG d n) HEAD_CFG_MODE then some (s.rdF (HEAD_CFG d n) HEAD_CFG_LOOKAHEAD_M1 + 1) else none

/-- A write of a timing register (R131): `reg` 0 HA, 1 HB, 2 VA, 3 VB. -/
def timingWrite (f : Fun) (n reg : Nat) (v : Word) (s : State) : State :=
  let d := f.ep
  let a := TIMING_HA d n + 4 * reg
  if 4 ≤ n ∨ 4 ≤ reg ∨ (accessRow s f (addrOff a)).isNone then s
  else
    let t := timingOf s d n
    let t1 : Timing := ⟨if reg = 0 then v else t.ha, if reg = 1 then v else t.hb, if reg = 2 then v else t.va, if reg = 3 then v else t.vb⟩
    let stored := !s.flag (HEAD_CFG d n) HEAD_CFG_MODE
    if s.flag (HEAD_CFG d n) HEAD_CFG_ENABLED ∧
       (hi16 v = 0 ∨ lo16 v = 0 ∨ t1.ok (lookOf s d n) = false ∨
        (stored ∧ s.rdF (HEAD_FT d n) HEAD_FT_FT_SIZE < frameUnits t1 (s.rdF (HEAD_CFG d n) HEAD_CFG_STORE_FMT)))
    then wrB (HEAD_STATUS d n) HEAD_STATUS_TIMING_ERR true s
    else carry d (1 + 8 * n) a v s

/-- A write of HEAD_PCLK (R133). -/
def pclkWrite (f : Fun) (n : Nat) (v : Word) (s : State) : State :=
  let d := f.ep
  if 4 ≤ n ∨ (accessRow s f (addrOff (HEAD_PCLK d n))).isNone then s
  else if s.flag (HEAD_CFG d n) HEAD_CFG_ENABLED then wrB (HEAD_STATUS d n) HEAD_STATUS_TIMING_ERR true s
  else carry d (1 + 8 * n) (HEAD_PCLK d n) (v &&& 0xFFFFF) s

/-! ## Ports (R137, R138) -/

/-- Link rate of a RATE code, kb/s. -/
def rateKbps (c : Nat) : Nat :=
  match c with
  | 1 => 1620000
  | 2 => 2700000
  | 3 => 5400000
  | 4 => 8100000
  | 5 => 10000000
  | 6 => 13500000
  | 8 => 2160000
  | 9 => 2430000
  | 10 => 3240000
  | 11 => 4320000
  | _ => 0

/-- The bandwidth checks of Table 5.4 for a sum of ceilings in kHz. -/
def bandwidthOk (proto rate lanes bpc mbps khz : Nat) : Bool :=
  let bpp := 3 * bpc
  if proto ≤ 3 then
    (if rate = 5 ∨ rate = 6 then decide (khz * bpp * 132 ≤ lanes * rateKbps rate * 128) else decide (khz * bpp * 10 ≤ lanes * rateKbps rate * 8))
  else if proto = 4 then decide (khz ≤ 112000)
  else if proto = 5 then decide (khz ≤ 224000)
  else decide (khz * bpp * 11 ≤ lanes * mbps * 1000 * 10)

/-- The enabled heads of a die that a local port carries. -/
def portHeads (s : State) (d : Die) (p : Nat) : List Nat :=
  (upto 4).filter (fun n => s.flag (HEAD_CFG d n) HEAD_CFG_ENABLED && s.rdF (HEAD_CFG d n) HEAD_CFG_PORT == p)

def portKhz (s : State) (d : Die) (p : Nat) : Nat :=
  ((portHeads s d p).map (fun n => s.rdF (HEAD_PCLK_CEIL d n) HEAD_PCLK_CEIL_CEIL_KHZ)).sum

/-- A head of a ceiling fits on a stream of a port (R137, Table 5.3 row 4). -/
def portTakes (s : State) (d : Die) (p stream khz : Nat) : Bool :=
  let a := PORT_CFG d p
  let proto := s.rdF a PORT_CFG_PROTO
  proto != 0 && (stream == 0 || proto == 2)
    && !((portHeads s d p).any (fun n => proto != 2 || s.rdF (HEAD_CFG d n) HEAD_CFG_STREAM == stream))
    && bandwidthOk proto (s.rdF a PORT_CFG_RATE) (s.rdF a PORT_CFG_LANES) (s.rdF a PORT_CFG_BPC) (s.rdF a PORT_CFG_DSI_MBPS)
         (portKhz s d p + khz)

def Port.empty : Port := ⟨[], 0, [], false⟩
def portKey (d : Die) (p : Nat) : Nat := 4 * d.idx + p
def State.port (s : State) (k : Nat) : Port := tget Port.empty k s.ports
def setPort (k : Nat) (x : Port) (s : State) : State := { s with ports := tset k x s.ports }
def isDp (s : State) (d : Die) (p : Nat) : Bool :=
  let x := s.rdF (PORT_CFG d p) PORT_CFG_PROTO
  decide (1 ≤ x ∧ x ≤ 3)

/-- PORT_STATUS.STREAMS of a port follows the heads that use it. -/
def refreshStreams (d : Die) (p : Nat) (s : State) : State :=
  wrF (PORT_STATUS d p) PORT_STATUS_STREAMS
    (((portHeads s d p).map (fun n => if s.rdF (HEAD_CFG d n) HEAD_CFG_STREAM = 0 then 1 else 2)).sum % 4) s

/-- The link goes down. -/
def linkDown (d : Die) (p : Nat) (s : State) : State :=
  s |> wrB (PORT_STATUS d p) PORT_STATUS_LINK_UP false |> wrF (PORT_STATUS d p) PORT_STATUS_TRAINED_RATE 0
    |> wrF (PORT_STATUS d p) PORT_STATUS_TRAINED_LANES 0

def postPortLink (d : Die) (p state lanes rate : Nat) (s : State) : State :=
  s |> postPf0 d 0x0205 (portKey d p) (state + lanes * 256 + rate * 65536)
    |> (if state = 3 then rinlarCount d 64 1 else id)

/-- Training is to run on a DP or eDP port (R138). -/
def wantTraining (d : Die) (p : Nat) (s : State) : State :=
  if isDp s d p then setPort (portKey d p) { s.port (portKey d p) with train := true } s else s

/-- The port goes to the state that it has in reset: no link, and no training runs (R136). -/
def portIdle (d : Die) (p : Nat) (s : State) : State := s |> linkDown d p |> setPort (portKey d p) { s.port (portKey d p) with train := false }

/-! ## Enabling (R135) -/

/-- Regions of enabled heads and the secure region, in units: first and size. -/
def ftRegions (s : State) (d : Die) : List (Nat × Nat) :=
  ((upto 4).filter (fun n => s.flag (HEAD_CFG d n) HEAD_CFG_ENABLED)).map
      (fun n => (s.rdF (HEAD_FT d n) HEAD_FT_FT_BASE, s.rdF (HEAD_FT d n) HEAD_FT_FT_SIZE))
    ++ [(s.rdF (FT_SECURE_BASE d) FT_SECURE_BASE_BASE_64K, s.rdF (FT_SECURE_SIZE d) FT_SECURE_SIZE_SIZE_64K)]

def overlap (a an b bn : Nat) : Bool := decide (an ≠ 0 ∧ bn ≠ 0 ∧ a < b + bn ∧ b < a + an)

/-- Table 5.3. Where no field of the descriptor offends, the offset is that of HEAD. -/
def enableRange (q : RingId) (d : Desc) (s : State) : Option (Nat × Nat) :=
  let h := dget d 8 0 8
  let e := q.fn.ep
  let n := headNo h
  let t := timingOf s e n
  let thr := dget d 9 0 1 == 1
  let look := dget d 9 1 3 + 1
  let ceil := dget d 12 0 32
  let pclk := s.rdF (HEAD_PCLK e n) HEAD_PCLK_PIXCLK_KHZ
  let base := dget d 16 0 16
  let size := dget d 18 0 16
  firstFail [onlyPf0 q, onDie q 4 h 8,
    bad (s.flag (HEAD_CFG e n) HEAD_CFG_ENABLED) 0x08 8,
    bad (t.hasZero || pclk == 0) 0x07 8, bad (!thr && size == 0) 0x07 18,
    bad (!t.ok (if thr then some look else none)) 0x08 8,
    bad (decide (600000 < ceil) || !pclkOk pclk ceil) 0x08 12,
    bad (!portTakes s e (dget d 10 0 2) (dget d 10 2 1) ceil || s.rdF (LT_STATUS e (1 + dget d 10 0 2)) LT_STATUS_STATE == 2) 0x09 10,
    bad (decide (2048 < base + size)) 0x09 16,
    bad ((ftRegions s e).any (fun r => overlap base size r.1 r.2)) 0x09 16,
    bad (!thr && decide (size < frameUnits t (dget d 11 0 1))) 0x09 18]

/-- The head starts once the pace allows: PLL, port, valid flag, recompose flag (R135 steps 2 to 4). Its first frame begins at
the next line start. -/
def startHead (h : Nat) (s : State) : State :=
  let d := headDie h
  let n := headNo h
  let x := s.head h
  if x.phase = 1 then
    let x1 := { x with phase := 2, recompose := !headThrough s h, pass := none, ft := [], ahead := [], writing := none, black := true,
                       genlock := 0, snapIn := none, refDue := false, opening := false, passLate := false, underNext := 0, ftWidth := 0, output := [],
                       ha := s.rd (TIMING_HA d n), hb := s.rd (TIMING_HB d n), va := s.rd (TIMING_VA d n), vb := s.rd (TIMING_VB d n) }
    s |> setHead h x1 |> setIsl (TIMING_HA d n) x1.ha |> setIsl (TIMING_HB d n) x1.hb |> setIsl (TIMING_VA d n) x1.va |> setIsl (TIMING_VB d n) x1.vb
      |> islTakes (HEAD_PCLK d n) |> islTakes (TIMING_POL d n) |> islTakes (GENLOCK_CTRL d n)
      |> wrB (HEAD_STATUS d n) HEAD_STATUS_FT_VALID false |> dueIsland d n
      |> wantTraining d (s.rdF (HEAD_CFG d n) HEAD_CFG_PORT) |> refreshRates d
  else s

def opHeadEnable : OpSpec :=
  mkOp 0x30 false ([(9, 4, 4), (10, 3, 5), (11, 1, 7)] ++ rsv 20 64)
   (fun _ d _ => if dget d 8 0 8 < 8 then [unitKey (headDie (dget d 8 0 8)) (bitHead (headNo (dget d 8 0 8)))] else [])
   enableRange notEmpty
   (fun t d s =>
    let h := dget d 8 0 8
    let e := t.die
    let n := headNo h
    let c := HEAD_CFG e n
    let s1 := s |> wrB c HEAD_CFG_ENABLED true |> wrF c HEAD_CFG_MODE (dget d 9 0 1) |> wrF c HEAD_CFG_LOOKAHEAD_M1 (dget d 9 1 3)
      |> wrF c HEAD_CFG_PORT (dget d 10 0 2) |> wrF c HEAD_CFG_STREAM (dget d 10 2 1) |> wrF c HEAD_CFG_STORE_FMT (dget d 11 0 1)
      |> wrF (HEAD_PCLK_CEIL e n) HEAD_PCLK_CEIL_CEIL_KHZ (dget d 12 0 32)
      |> wrF (HEAD_FT e n) HEAD_FT_FT_BASE (dget d 16 0 16) |> wrF (HEAD_FT e n) HEAD_FT_FT_SIZE (dget d 18 0 16)
      |> setPowered e (bitHead n) true |> setPowered e bitComposer true
      |> refreshStreams e (dget d 10 0 2)
      |> setHead h { s.head h with phase := 1, starting := some t, onTag := s.nextTag }
    (none, raiseFloor e ⟨1, h, some t, d, 0⟩ (startHead h) s1))

/-! ## Disabling (R136) -/

/-- Scan-out stops: the port goes to its reset state, the valid flag clears, a pending HEAD_MODE is dropped, and the floor falls. Commits
stay. DESIGN CHOICE (notes/assumptions/113.md): a HEAD_ENABLE still starting completes with ABORTED_RESET, commits taken by a compose window
whose line 0 has not begun complete with OK and FIRST_LINE 0, and LINE, IN_VBLANK, VBLANK_LEFT and GENLOCK_STATUS keep their last values. -/
def stopHead (h : Nat) (s : State) : State :=
  let d := headDie h
  let n := headNo h
  let x := s.head h
  let p := s.rdF (HEAD_CFG d n) HEAD_CFG_PORT
  let s1 := match x.starting with
    | some t => finish t stAbortedReset 0 s
    | none => s
  let s2 := match x.mode with
    | some m => postLast m.ticket 2 stAbortedReset 0 s1
    | none => s1
  let frame := match x.pass with
    | some (_, f) => f
    | none => s.headFrame h
  let s3 := x.taken.foldl (fun t k => finishPart k true (commitDetail frame 0) t) s2
  let y := s3.head h
  let s4 := s3
    |> setHead h { y with phase := 0, starting := none, mode := none, taken := [], pass := none, writing := none, ft := [], ahead := [],
                          recompose := false, black := true, shown := [], lockRun := 0, rangeRun := 0, refSeen := false, snapDue := 0,
                          snapIn := none, refDue := false, opening := false, passLate := false, underNext := 0, output := [],
                          pendColour := y.pendColour.map (fun c => (c.1, c.2.1, 0)) }
    |> wrB (HEAD_CFG d n) HEAD_CFG_ENABLED false |> wrB (HEAD_CFG d n) HEAD_CFG_MODE_PENDING false
    |> wrB (HEAD_STATUS d n) HEAD_STATUS_FT_VALID false |> wrB (HEAD_STATUS d n) HEAD_STATUS_COMPOSING false
    |> dropRaise d 1 h
    |> refreshStreams d p
  let s5 := if portHeads s4 d p = [] then portIdle d p s4 else s4
  let s6 := s5 |> gateIdle d (bitHead n) |> refreshFloor d
  if (upto 4).any (fun m => s6.flag (HEAD_CFG d m) HEAD_CFG_ENABLED) then s6 else gateIdle d bitComposer s6

/-- HEAD_DISABLE is accepted: the head stops at its next line start, at once where no line runs. -/
def disableHead (h : Nat) (s : State) : State :=
  if (s.head h).phase = 3 then setHead h { s.head h with phase := 4 } s else if (s.head h).phase = 4 then s else stopHead h s

/-- HEAD_DISABLE. One that comes while the first waits for its line start is refused like one on a head that is not enabled (DESIGN CHOICE,
notes/assumptions/113.md). -/
def opHeadDisable : OpSpec :=
  mkOp 0x31 false (rsv 9 64)
   (fun _ d _ => if dget d 8 0 8 < 8 then [unitKey (headDie (dget d 8 0 8)) (bitHead (headNo (dget d 8 0 8)))] else [])
   (fun q d s => firstFail [onlyPf0 q, onDie q 4 (dget d 8 0 8) 8,
      bad (!headOn s (dget d 8 0 8) || (s.head (dget d 8 0 8)).phase == 4) 0x08 8])
   notEmpty
   (fun t d s =>
    -- a DP head that a Garnet bus injects into is held for the audio engine's claim (R334)
    if headInjected s (dget d 8 0 8) ∧ t.fn.fn = 0 then holdVote .a bitAudio t d s
    else powerRequest t.die (bitHead (headNo (dget d 8 0 8))) t d
      (fun s => (some (stOk, 0), disableHead (dget d 8 0 8) s)) s)

/-! ## HEAD_MODE (R136) -/

/-- A live camera route feeds a layer of the head. -/
def cameraFeeds (s : State) (h : Nat) : Bool :=
  (routesOf s 2).any (fun x => epType x.2.sink == 0x01 && epUnit x.2.sink == h)

def opHeadMode : OpSpec :=
  mkOp 0x32 false ((9, 4, 4) :: rsv 10 64)
   (fun _ d _ => if dget d 8 0 8 < 8 then [unitKey (headDie (dget d 8 0 8)) (bitHead (headNo (dget d 8 0 8)))] else [])
   (fun q d s =>
    let h := dget d 8 0 8
    let n := headNo h
    let t := timingOf s q.fn.ep n
    firstFail [onlyPf0 q, onDie q 4 h 8,
      bad (!headOn s h) 0x08 8,
      bad (dget d 9 0 1 == 0 && cameraFeeds s h) 0x09 9,
      bad (dget d 9 0 1 == 0 && decide (s.rdF (HEAD_FT q.fn.ep n) HEAD_FT_FT_SIZE < frameUnits t (s.rdF (HEAD_CFG q.fn.ep n) HEAD_CFG_STORE_FMT))) 0x09 9,
      bad (decide (t.vblank < dget d 9 1 3 + 2)) 0x08 9,
      bad ((s.head h).mode.isSome) 0x0A 8])
   notEmpty
   (fun t d s =>
    let h := dget d 8 0 8
    let n := headNo h
    let x := s.head h
    let thr := headThrough s h
    let new := dget d 9 1 3 + 1
    let late := x.phase = 3 ∧ x.vtotal ≤ s.rdF (HEAD_STATUS t.die n) HEAD_STATUS_LINE + (if thr then max (headLook s h) new else new)
    let wait := if thr ∧ dget d 9 0 1 = 0 then 0 else if late then 2 else 1
    (some (stOk, 0), s |> owe t |> wrB (HEAD_CFG t.die n) HEAD_CFG_MODE_PENDING true
      |> setHead h { x with mode := some ⟨t, dget d 9 0 1, new, wait, false⟩ }))

/-- A HEAD_MODE is in effect. -/
def modeInEffect (h : Nat) (m : ModeChange) (s : State) : State :=
  let c := HEAD_CFG (headDie h) (headNo h)
  s |> wrF c HEAD_CFG_MODE m.mode |> wrF c HEAD_CFG_LOOKAHEAD_M1 (m.lookahead - 1) |> wrB c HEAD_CFG_MODE_PENDING false
    |> setHead h { s.head h with mode := none } |> postLast m.ticket 2 stOk 0

/-! ## PORT_CONFIG, AUX, DSI (R138–R140) -/

/-- PORT_CONFIG. With PROTO 0 only DSI_MBPS is checked, which must be 0; AUX and DSI commands that are queued on the port stay queued (DESIGN
CHOICE, notes/assumptions/113.md). -/
def opPortConfig : OpSpec :=
  mkOp 0x33 false ([(8, 2, 6), (10, 3, 5), (14, 2, 6)] ++ rsv 15 64) noUnits
   (fun q d s =>
    let p := dget d 8 0 2
    let proto := dget d 9 0 8
    let lanes := dget d 10 0 3
    let rate := dget d 11 0 4
    let bpc := dget d 11 4 4
    let mb := dget d 12 0 16
    let lvds := proto == 4 || proto == 5
    let dsi := proto == 6 || proto == 7
    firstFail [onlyPf0 q,
      bad (portHeads s q.fn.ep p != []) 0x09 8,
      bad (decide (7 < proto)) 0x08 9,
      bad (decide (1 ≤ proto) && (if p < 2 then decide (3 < proto) else decide (proto ≤ 3))) 0x09 9,
      (if proto = 0 then bad (mb != 0) 0x08 12 else firstFail [
        bad (lanes == 0) 0x07 10,
        bad (if lvds then lanes != 3 && lanes != 4 else lanes != 1 && lanes != 2 && lanes != 4) 0x08 10,
        bad (!lvds && !dsi && rate == 0) 0x07 11, bad (bpc == 0) 0x07 11,
        bad (if lvds || dsi then rate != 0 else rateKbps rate == 0 || (if proto = 3 then rate == 5 || rate == 6 else decide (6 < rate))) 0x08 11,
        bad (bpc != 6 && bpc != 8 && (bpc != 10 || lvds)) 0x08 11,
        bad (dsi && mb == 0) 0x07 12, bad (if dsi then decide (mb < 80 ∨ 4500 < mb) else mb != 0) 0x08 12])])
   notEmpty
   (fun t d s =>
    let p := dget d 8 0 2
    let a := PORT_CFG t.die p
    (some (stOk, 0), s |> wrF a PORT_CFG_PROTO (dget d 9 0 8) |> wrF a PORT_CFG_LANES (dget d 10 0 3) |> wrF a PORT_CFG_RATE (dget d 11 0 4)
      |> wrF a PORT_CFG_BPC (dget d 11 4 4) |> wrF a PORT_CFG_DSI_MBPS (dget d 12 0 16) |> wrF a PORT_CFG_SSC (dget d 14 0 1)
      |> wrF a PORT_CFG_LVDS_MAP (dget d 14 1 1) |> portIdle t.die p))

/-- Send the first AUX request of a port's queue, if no other runs. -/
def auxSend (d : Die) (p : Nat) (s : State) : State :=
  match (s.port (portKey d p)).aux with
  | [] => s
  | (_, desc) :: _ => s |> setPort (portKey d p) { s.port (portKey d p) with attempts := (s.port (portKey d p)).attempts + 1 } |> emit (.aux d p desc)

def opPortAux : OpSpec :=
  OpSpec.crossing (fun q d _ => [(q.fn.ep, 7 + 8 * dget d 8 0 2)]) <| mkOp 0x34 false ([(8, 2, 6), (9, 2, 6), (11, 0, 8), (14, 4, 12)] ++ rsv 40 64) noUnits
   (fun q d s => firstFail [onlyPf0 q, bad (decide (2 ≤ dget d 8 0 2) || !isDp s q.fn.ep (dget d 8 0 2)) 0x09 8,
      bad (decide (16 < dget d 10 0 8)) 0x08 10])
   (fun d _ => dget d 10 0 8 == 0)
   (fun t d s =>
    let p := dget d 8 0 2
    let k := portKey t.die p
    let s1 := setPort k { s.port k with aux := (s.port k).aux ++ [(t, d)] } s
    (none, if (s.port k).aux = [] then auxSend t.die p s1 else s1))

/-- The first AUX transaction of a port ends. -/
def auxEnd (d : Die) (p : Nat) (t : Ticket) (st dt : Nat) (s : State) : State :=
  let k := portKey d p
  s |> setPort k { s.port k with aux := (s.port k).aux.tail, attempts := 0 } |> auxSend d p |> finish t st dt

/-- An AUX reply arrives or is missing (R139). -/
def auxReply (k : Nat) (reply : Option AuxReply) (s : State) : State :=
  let d := dieOf 4 k
  let p := k % 4
  match (s.port k).aux with
  | [] => s
  | (t, desc) :: _ =>
    let again := (s.port k).attempts < 7
    match reply with
    | none => if again then auxSend d p s else auxEnd d p t stTimeout 0 s
    | some r =>
      if r.code = 2 ∧ again then auxSend d p s
      else
        let dt := r.code % 256 + r.count % 256 * 256
        if dget desc 9 0 1 = 0 then
          let bs := r.bytes.take (min 16 r.count)
          match dmaWrite d t.fn t.ring.ring (dget desc 32 0 64) (bs ++ List.replicate (16 - bs.length) 0) s with
          | (some e, s1) => auxEnd d p t e.completion.1 e.completion.2 s1
          | (none, s1) => auxEnd d p t stOk dt s1
        else auxEnd d p t stOk dt s

/-- A DSI data type of a long packet (MIPI DSI-2: PRESUMED, notes/assumptions/11.md). -/
def dsiLong (dt : Nat) : Bool := decide (9 ≤ dt % 16)

/-- Send the packets of a port's queue up to the first that waits for a response. -/
def dsiSend (d : Die) (p : Nat) : Nat → State → State
  | 0, s => s
  | n + 1, s =>
    let k := portKey d p
    match (s.port k).dsi with
    | [] => s
    | (t, desc) :: rest =>
      if dget desc 10 1 1 = 1 then emit (.dsi d p desc) s
      else dsiSend d p n (s |> emit (.dsi d p desc) |> setPort k { s.port k with dsi := rest } |> finish t stOk 0)

def opDsiCmd : OpSpec :=
  OpSpec.crossing (fun q d _ => [(q.fn.ep, 7 + 8 * dget d 8 0 2)]) <| mkOp 0x35 false ([(8, 2, 6), (10, 2, 6)] ++ rsv 14 16 ++ rsv 56 64) noUnits
   (fun q d s =>
    let p := dget d 8 0 2
    let proto := s.rdF (PORT_CFG q.fn.ep p) PORT_CFG_PROTO
    firstFail [bad (!dsiLong (dget d 9 0 6) && dget d 11 0 8 != 0) 0x01 11, bad (dsiLong (dget d 9 0 6) && dget d 12 0 16 != 0) 0x01 12,
      onlyPf0 q, bad (proto != 6 && proto != 7) 0x09 8, bad (dsiLong (dget d 9 0 6) && dget d 11 0 8 == 0) 0x07 11,
      bad (decide (32 < dget d 11 0 8)) 0x08 11])
   notEmpty
   (fun t d s =>
    let p := dget d 8 0 2
    let k := portKey t.die p
    if (s.port k).dsi ≠ [] then (none, setPort k { s.port k with dsi := (s.port k).dsi ++ [(t, d)] } s)
    else if dget d 10 1 1 = 1 then (none, s |> emit (.dsi t.die p d) |> setPort k { s.port k with dsi := [(t, d)] })
    else (some (stOk, 0), emit (.dsi t.die p d) s))

/-- The READ at the front of a port's queue ends. -/
def dsiEnd (k : Nat) (t : Ticket) (st dt : Nat) (s : State) : State :=
  s |> setPort k { s.port k with dsi := (s.port k).dsi.tail } |> finish t st dt
    |> dsiSend (dieOf 4 k) (k % 4) (s.port k).dsi.length

def dsiTimeout (k : Nat) (s : State) : State :=
  match (s.port k).dsi with
  | [] => s
  | (t, _) :: _ => dsiEnd k t stTimeout 0 s

/-- A read response arrives: up to 16 bytes are written (R140). -/
def dsiResponse (k : Nat) (bytes : List Byte) (s : State) : State :=
  match (s.port k).dsi with
  | [] => s
  | (t, desc) :: _ =>
    let bs := bytes.take 16
    match dmaWrite (dieOf 4 k) t.fn t.ring.ring (dget desc 48 0 64) bs s with
    | (some e, s1) => dsiEnd k t e.completion.1 e.completion.2 s1
    | (none, s1) => dsiEnd k t stOk bs.length s1

/-- A plug, unplug or HPD interrupt (R138). -/
def portHpd (k kind : Nat) (lost : Bool) (s : State) : State :=
  let d := dieOf 4 k
  let p := k % 4
  if 8 ≤ k ∨ 2 ≤ p ∨ 2 < kind ∨ s.inReset.contains .heads then s
  else
    let s1 := if kind = 2 then s else wrB (PORT_STATUS d p) PORT_STATUS_HPD (kind == 1) s
    let s2 := postPf0 d 0x0204 k kind s1
    let up := s.flag (PORT_STATUS d p) PORT_STATUS_LINK_UP
    let s3 := if up ∧ (kind = 0 ∨ (kind = 2 ∧ lost)) then
        s2 |> linkDown d p |> postPortLink d p 3 (s.rdF (PORT_STATUS d p) PORT_STATUS_TRAINED_LANES) (s.rdF (PORT_STATUS d p) PORT_STATUS_TRAINED_RATE)
      else s2
    if kind = 1 ∨ (kind = 2 ∧ (lost ∨ up = false)) then wantTraining d p s3 else s3

/-- Link training ends on a port that was to train (R138). A setting above RATE or LANES, or one that fails the bandwidth
check, is no outcome of training: it counts as none found. -/
def linkTrained (k : Nat) (result : Option (Nat × Nat)) (s : State) : State :=
  let d := dieOf 4 k
  let p := k % 4
  let a := PORT_CFG d p
  if (s.port k).train = false then s
  else
    let s1 := setPort k { s.port k with train := false } s
    let r0 := s.rdF a PORT_CFG_RATE
    let l0 := s.rdF a PORT_CFG_LANES
    match result with
    | some (rate, lanes) =>
      if rateKbps rate ≠ 0 ∧ rateKbps rate ≤ rateKbps r0 ∧ lanes ≤ l0 ∧ (lanes = 1 ∨ lanes = 2 ∨ lanes = 4)
          ∧ bandwidthOk (s.rdF a PORT_CFG_PROTO) rate lanes (s.rdF a PORT_CFG_BPC) 0 (portKhz s d p) then
        s1 |> wrB (PORT_STATUS d p) PORT_STATUS_LINK_UP true |> wrF (PORT_STATUS d p) PORT_STATUS_TRAINED_RATE rate
           |> wrF (PORT_STATUS d p) PORT_STATUS_TRAINED_LANES lanes
           |> postPortLink d p (if rate = r0 ∧ lanes = l0 then 0 else 1) lanes rate
      else s1 |> linkDown d p |> postPortLink d p 2 0 0
    | none => s1 |> linkDown d p |> postPortLink d p 2 0 0

/-! ## Frame tier errors (R145) -/

/-- SOURCE of FT_ECC: the head whose region holds the word, else 0xFF. -/
def ftOwner (s : State) (d : Die) (word : Nat) : Nat :=
  let u := word * 4 / 65536
  match (upto 4).find? (fun n => s.flag (HEAD_CFG d n) HEAD_CFG_ENABLED &&
      decide (s.rdF (HEAD_FT d n) HEAD_FT_FT_BASE ≤ u ∧ u < s.rdF (HEAD_FT d n) HEAD_FT_FT_BASE + s.rdF (HEAD_FT d n) HEAD_FT_FT_SIZE)) with
  | some n => 4 * d.idx + n
  | none => 0xFF

/-- Words of the frame tier read corrected, and uncorrectable. -/
def ftEcc (d : Die) (corr : Nat) (bad : List Nat) (s : State) : State :=
  let s1 := if corr = 0 then s else s |> satF (FT_ECC_CORR d) FT_ECC_CORR_COUNT corr |> rinlarCount d 24 corr
  bad.foldl (fun t w =>
    let t1 := t |> satF (FT_ECC_UNCORR d) FT_ECC_UNCORR_COUNT 1 |> rinlarCount d 25 1
    let t2 := if t1.flag (FT_ECC_ADDR d) FT_ECC_ADDR_VALID then t1
      else t1 |> wrB (FT_ECC_ADDR d) FT_ECC_ADDR_VALID true |> wrF (FT_ECC_ADDR d) FT_ECC_ADDR_WORD w
    postPf0 d 0x0206 (ftOwner t2 d w) (w % 2 ^ 32 * 2 ^ 32) t2) s1

/-- One patrol scrub of the frame tier; PERIOD_S = 0 stops it. -/
def ftScrub (d : Die) (corr : Nat) (bad : List Nat) (s : State) : State :=
  if s.rdF (FT_SCRUB d) FT_SCRUB_PERIOD_S = 0 ∨ s.inReset.contains .frameTier then s else ftEcc d corr bad s

/-! ## Stored mode (R148–R150) -/

/-- The line that the composer was writing is in the region. -/
def flushLine (x : Head) : Head :=
  match x.writing with
  | some (j, l) => { x with ft := tset j l x.ft, writing := none }
  | none => x

/-- The compose window opens when the vertical blanking begins; a pass that still runs goes on (R150). -/
def windowOpen (h : Nat) (s : State) : State :=
  let d := headDie h
  let n := headNo h
  let x := s.head h
  let toStored := x.mode.any (fun m => m.wait == 0)
  if x.phase ≠ 3 ∨ x.opening = false then s
  else if (headThrough s h ∧ toStored = false) ∨ x.pass.isSome then setHead h { x with opening := false } s
  else if anyPending s h ∨ x.recompose ∨ toStored then
    let f := s.headFrame h + 1
    let s1 := takeAll h f 0 .window s
    let y := s1.head h
    s1 |> setHead h { y with pass := some (0, f), recompose := false, opening := false, ftWidth := y.hactive, mode := y.mode.map (fun m => if m.wait = 0 then { m with passed := true } else m),
                             pendColour := y.pendColour.map (fun c => (c.1, c.2.1, 1)) }
       |> freshLayers h |> wrB (HEAD_STATUS d n) HEAD_STATUS_COMPOSING true
  else setHead h { x with opening := false } s

/-! ## Underruns (R152) -/

/-- The head's UNDERRUN event of the frame: to PF0 and to each function that owns a layer of the mask. -/
def postUnderrun (h : Nat) (s : State) : State :=
  let d := headDie h
  let x := s.head h
  let pay := x.underMask + x.underFirst % 2 ^ 16 * 2 ^ 16 + s.headFrame h % 2 ^ 32 * 2 ^ 32
  let owners := (((upto 16).filter (fun l => nbit x.underMask l)).filterMap (layerOwner s h)).eraseDups.filter (fun f => f != pf0 d)
  let s1 := s |> setHead h { x with underPosted := true } |> postPf0 d 0x0201 h pay
  owners.foldl (fun t f => post f ⟨0x0201, h, 1, t.now d, pay, d⟩ t) s1

/-- Something underran in this frame and its event is not yet posted. -/
def underrunDue (x : Head) : Bool := !x.underPosted && x.underFirst != 0xFFFF

/-- One underrun of the present frame is counted. -/
def countUnderrun (h line : Nat) (s : State) : State :=
  let x := s.head h
  s |> setHead h { x with underFirst := min x.underFirst line } |> satF (UNDERRUN_COUNT (headDie h) (headNo h)) UNDERRUN_COUNT_COUNT 1
    |> rinlarCount (headDie h) (28 + headNo h) 1

/-- A layer underruns at a line of a frame: it is transparent from there on. At line 0 the frame is the next one, which posts it. -/
def underrun (h l line frame : Nat) (s : State) : State :=
  let s1 := s |> wrB (LAYER_STATUS (headDie h) (headNo h) l) LAYER_STATUS_OFF_UNDERRUN true |> dropParts h l line frame
  let x := s1.head h
  if line = 0 then
    s1 |> setHead h { x with underNext := setBit x.underNext l true } |> satF (UNDERRUN_COUNT (headDie h) (headNo h)) UNDERRUN_COUNT_COUNT 1
       |> rinlarCount (headDie h) (28 + headNo h) 1
  else s1 |> setHead h { x with underMask := setBit x.underMask l true } |> countUnderrun h line

/-! ## Lines of a pass (R148–R150) -/

/-- The composer begins the next line of a pass, and takes the commits that have landed; one that missed the next opening takes none
(R149, R150). A layer whose line does not come underruns (R449). -/
def composeLine (h : Nat) (s : State) : State :=
  match (s.head h).pass with
  | none => s
  | some (j, f) =>
    if (s.head h).vactive ≤ j ∨ nbit (s.rd (BLOCK_QUIESCE (headDie h))).toNat bitComposer then s
    else
      let s1 := setHead h (flushLine (s.head h)) s
      let s2 := if anyPending s1 h ∧ (s1.head h).passLate = false then
          let t := takeAll h f j .pass s1
          setHead h { t.head h with recompose := true } t
        else s1
      let s3 := if j = 0 then
          let t := setHead h { s2.head h with taken := [] } s2
          let u := formPresets h ((s2.head h).taken.foldl (fun u k => finishPart k true (commitDetail f 0) u) t)
          setHead h { u.head h with fed := f } u
        else s2
      let (l, s4) := fetchLine h j f s3
      let s5 := l.waits.foldl (fun t m => underrun h m j f t) s4
      let x := s5.head h
      let px := (composed x.passColour x.hactive l.parts).map (storedPx (storeFmt s5 h))
      setHead h { x with writing := some (j, { l with parts := [], waits := [], pixels := px }), pass := some (j + 1, f) } s5

/-- The pass writes its last line. -/
def passEnd (h : Nat) (s : State) : State :=
  match (s.head h).pass with
  | none => s
  | some (j, f) =>
    if j < (s.head h).vactive then s
    else
      let x := flushLine (s.head h)
      s |> setHead h { x with pass := none, passLate := false, ft := tkeep (fun k => decide (k < x.vactive)) x.ft }
        |> windowChecks h f
        |> wrB (HEAD_STATUS (headDie h) (headNo h)) HEAD_STATUS_COMPOSING false
        |> wrB (HEAD_STATUS (headDie h) (headNo h)) HEAD_STATUS_FT_VALID true

/-- The deadline of a line: each layer underruns whose data from memory is incomplete, that still waits for a camera line, or that read an
uncorrectable word, which a camera layer reads from on-chip memory (R145, R152, R223, R224, R236, R473). -/
def layerDeadline (h line incomplete ecc : Nat) (s : State) : State :=
  if (s.head h).phase ≠ 3 ∨ headThrough s h = false ∨ (s.head h).vactive ≤ line then s
  else
    let f := s.headFrame h + b2n (line == 0)
    let waits := match tfind line (s.head h).ahead with
      | some x => if x.frame = f then x.waits else []
      | none => []
    let late (l : Nat) : Bool := nbit ecc l || waits.contains l || (nbit incomplete l && ((s.head h).layer l).camera == 0)
    let s1 := (upto 16).foldl (fun t l => if late l ∧ visible t h l line ≠ [] then
        underrun h l line f (if nbit ecc l ∧ ((s.head h).layer l).camera ≠ 0 then rinlarCount (headDie h) 27 1 t else t) else t) s
    if line + 1 = (s.head h).vactive ∧ underrunDue (s1.head h) then postUnderrun h s1 else s1

/-! ## Pixel PLL (R157) -/

/-- Crossings of a display island. -/
def displayXings (n : Nat) : List Nat := (upto 8).map (fun i => 8 * n + i)

def pllLost (h : Nat) (s : State) : State :=
  if 8 ≤ h ∨ (s.head h).phase < 2 then s
  else s |> wrB (HEAD_STATUS (headDie h) (headNo h)) HEAD_STATUS_PLL_LOST true |> haltXings (headDie h) (displayXings (headNo h))

def pllRelock (h : Nat) (s : State) : State :=
  if s.flag (HEAD_STATUS (headDie h) (headNo h)) HEAD_STATUS_PLL_LOST then
    s |> wrB (HEAD_STATUS (headDie h) (headNo h)) HEAD_STATUS_PLL_LOST false |> islandBack (headDie h) (headNo h)
  else s

/-! ## Genlock (R153–R156) -/

def gSrc (w : Word) : Nat := GENLOCK_CTRL_SRC.get w
def gUnit (w : Word) : Nat := GENLOCK_CTRL_SRC_UNIT.get w

/-- The chain of head sources of `k` heads from `g` leads to `h`. -/
def genLoop (s : State) (h : Nat) : Nat → Nat → Bool
  | 0, _ => false
  | n + 1, g =>
    let w := (s.head g).genlock
    if gSrc w = 2 then (if gUnit w % 8 = h then true else genLoop s h n (gUnit w % 8)) else false

/-- GENLOCK event: state, and the present trim. -/
def postGenlock (h state : Nat) (s : State) : State :=
  let a := GENLOCK_STATUS (headDie h) (headNo h)
  let trim := unsgn 16 (sgn 14 (s.rdF a GENLOCK_STATUS_TRIM_PPM))
  postPf0 (headDie h) 0x0203 h (state + trim * 2 ^ 16) s

def gOffset (w : Word) : Int := sgn 14 (GENLOCK_CTRL_OFFSET.get w)

/-- A head set to GENLOCK_CTRL `w` takes its reference events from a source (R153). -/
def genMatches (w : Word) (h : Nat) (src : GenSource) : Bool :=
  match src with
  | .camera p v => gSrc w == 1 && gUnit w % 32 == 4 * p + v && dieOf 4 p == headDie h
  | .head g => gSrc w == 2 && gUnit w % 8 == g
  | .vsync d rising => gSrc w == 3 && d == headDie h && (GENLOCK_CTRL_VSYNC_FALL.get w == 0) == rising

/-- The frame start of a camera stream or a head goes to the islands of the heads that are set to it, by crossing 0x05 + 8n (Table 5.8);
none reaches the other die in a split (R155). -/
def genSend (from_ : Die) (src : GenSource) (s : State) : State :=
  (upto 8).foldl (fun t h =>
    let d := headDie h
    let n := 5 + 8 * headNo h
    if (t.head h).phase ≠ 3 ∨ genMatches (t.head h).genlock h src = false ∨ (t.split ∧ d ≠ from_) then t
    else
      let sent := xingUp t d n && !t.flag (XING_STATUS d n) XING_STATUS_OUTSTANDING
      (if sent then setHead h { t.head h with refDue := true } t else t) |> xingPulse d n) s

/-- The phase error at a reference event, pixel clocks, positive where line 0 would start after the aim: OFFSET lines after the event. -/
def phaseError (x : Head) (line pix : Nat) : Int :=
  let frame : Int := x.vtotal * x.htotal
  let e := (frame - (line * x.htotal + pix : Nat) - gOffset x.genlock * x.htotal) % frame
  if frame < 2 * e then e - frame else e

/-- A reference event arrives, `pix` pixel clocks into the line; `inRange`: the source's frame period is one that the trim can reach
(R153–R156). An event of a camera stream or a head is one that has crossed; VSYNC_IN reaches the island itself (DESIGN CHOICE,
notes/assumptions/116.md). -/
def genReference (h : Nat) (src : GenSource) (pix : Nat) (inRange : Bool) (s : State) : State :=
  let x := s.head h
  let a := GENLOCK_STATUS (headDie h) (headNo h)
  let pin := match src with
    | .vsync _ _ => true
    | _ => false
  if x.phase ≠ 3 ∨ genMatches x.genlock h src = false ∨ genLoop s h 8 h ∨ s.flag (HEAD_STATUS (headDie h) (headNo h)) HEAD_STATUS_PLL_LOST
      ∨ (pin = false ∧ x.refDue = false) then s
  else
    let e := phaseError x (s.rdF (HEAD_STATUS (headDie h) (headNo h)) HEAD_STATUS_LINE) pix
    let run := s.flag a GENLOCK_STATUS_FREE_RUN
    let resumes := run && inRange && decide (3 ≤ x.rangeRun)
    let tracks := inRange && (!run || resumes)
    let snap := if resumes then GENLOCK_CTRL_SNAP.get x.genlock else x.snapDue
    let align := tracks && snap == 1 && decide (x.htotal < e.natAbs)
    let s1 := s |> wrF a GENLOCK_STATUS_PHASE_LINES (unsgn 14 (e.tdiv x.htotal))
      |> setHead h { x with refSeen := true, refDue := false, err := e,
                            snapIn := if align then some (max 1 (gOffset x.genlock % (x.vtotal : Int)).toNat) else x.snapIn,
                            snapDue := if tracks then 0 else snap,
                            rangeRun := if run ∧ inRange ∧ resumes = false then x.rangeRun + 1 else 0,
                            lockRun := if resumes ∨ inRange = false then 0 else x.lockRun }
    if resumes then s1 |> wrB a GENLOCK_STATUS_FREE_RUN false |> postGenlock h 0
    else if run = false ∧ inRange = false then s1 |> wrB a GENLOCK_STATUS_FREE_RUN true |> postGenlock h 1
    else s1

/-- No reference event for 3 nominal frame periods. -/
def genTimeout (h : Nat) (s : State) : State :=
  let x := s.head h
  let a := GENLOCK_STATUS (headDie h) (headNo h)
  if x.phase ≠ 3 ∨ gSrc x.genlock = 0 ∨ s.flag a GENLOCK_STATUS_FREE_RUN then s
  else s |> setHead h { x with rangeRun := 0, lockRun := 0, refSeen := false } |> wrB a GENLOCK_STATUS_FREE_RUN true |> postGenlock h 2

/-- A trim within −0.5% and +0.5% that keeps the pixel clock at or below the ceiling. -/
def boundTrim (pclk ceil : Nat) (t : Int) : Int :=
  let top : Int := min 5000 (((ceil : Int) - pclk) * 1000000 / pclk)
  max (-5000) (min top t)

/-- The change of trim of a frame, ppm: toward the aim by up to 50, either way within the locked range; how much is free (R154). -/
def trimStep (e : Int) (free : Nat) : Int :=
  if 8 < e then (free % 51 : Nat) else if e < -8 then -((free % 51 : Nat) : Int) else (free % 101 : Nat) - 50

/-- The trim of one frame (R154, R155): while tracking, toward the aim; in free run, and while off, back to zero by 50 ppm. LOCKED follows
the phase error of 4 consecutive frames. -/
def genTrim (h : Nat) (s : State) : State :=
  let d := headDie h
  let n := headNo h
  let a := GENLOCK_STATUS d n
  let x := s.head h
  let t := sgn 14 (s.rdF a GENLOCK_STATUS_TRIM_PPM)
  let free := gSrc x.genlock = 0 ∨ s.flag a GENLOCK_STATUS_FREE_RUN = true
  let back : Int := if 50 ≤ t then t - 50 else if t ≤ -50 then t + 50 else 0
  let t1 := if free then back else if x.refSeen then boundTrim (s.rdF (HEAD_PCLK d n) HEAD_PCLK_PIXCLK_KHZ)
      (s.rdF (HEAD_PCLK_CEIL d n) HEAD_PCLK_CEIL_CEIL_KHZ) (t + trimStep x.err (s.freeNat 0)) else t
  let run := if x.refSeen ∧ ¬free ∧ x.err.natAbs ≤ 8 then x.lockRun + 1 else 0
  let s1 := s |> useFree 1 |> wrF a GENLOCK_STATUS_TRIM_PPM (unsgn 14 t1) |> setHead h { x with lockRun := run, refSeen := false }
  if gSrc x.genlock = 0 ∨ x.refSeen = false then s1
  else if x.htotal < x.err.natAbs then wrB a GENLOCK_STATUS_LOCKED false s1
  else if 4 ≤ run then wrB a GENLOCK_STATUS_LOCKED true s1
  else s1

/-- GENLOCK_CTRL takes effect at a frame start (R153); a new source starts tracking anew (R156). -/
def genApply (h : Nat) (s : State) : State :=
  let d := headDie h
  let n := headNo h
  let x := s.head h
  let w := s.isl (GENLOCK_CTRL d n)
  if w = x.genlock then s
  else
    let a := GENLOCK_STATUS d n
    let same := gSrc w == gSrc x.genlock && gUnit w == gUnit x.genlock && GENLOCK_CTRL_VSYNC_FALL.get w == GENLOCK_CTRL_VSYNC_FALL.get x.genlock
    if same then setHead h { x with genlock := w, snapDue := min x.snapDue (GENLOCK_CTRL_SNAP.get w) } s
    else
      s |> setHead h { x with genlock := w, lockRun := 0, rangeRun := 0, refSeen := false, refDue := false, snapIn := none,
                              snapDue := if gSrc w = 0 then 0 else GENLOCK_CTRL_SNAP.get w }
        |> wrB a GENLOCK_STATUS_LOCKED false |> wrB a GENLOCK_STATUS_FREE_RUN false
        |> (if gSrc w = 0 ∧ gSrc x.genlock ≠ 0 then postGenlock h 3 else id)

/-! ## Meanings -/

def execHeadEnable (q : RingId) (desc : Desc) (s : State) : Host.Outcome State Fault Refusal := run (submit opHeadEnable q desc) s

def execHeadDisable (q : RingId) (desc : Desc) (s : State) : Host.Outcome State Fault Refusal := run (submit opHeadDisable q desc) s

def execHeadMode (q : RingId) (desc : Desc) (s : State) : Host.Outcome State Fault Refusal := run (submit opHeadMode q desc) s

def execPortConfig (q : RingId) (desc : Desc) (s : State) : Host.Outcome State Fault Refusal := run (submit opPortConfig q desc) s

def execPortAux (q : RingId) (desc : Desc) (s : State) : Host.Outcome State Fault Refusal := run (submit opPortAux q desc) s

def execAuxReply (port : Nat) (reply : Option AuxReply) (s : State) : Host.Outcome State Fault Refusal := run (auxReply port reply) s

def execDsiCmd (q : RingId) (desc : Desc) (s : State) : Host.Outcome State Fault Refusal := run (submit opDsiCmd q desc) s

def execDsiReadTimeout (port : Nat) (s : State) : Host.Outcome State Fault Refusal := run (dsiTimeout port) s

def execDsiReadResponse (port : Nat) (bytes : List Byte) (s : State) : Host.Outcome State Fault Refusal := run (dsiResponse port bytes) s

def execTimingWrite (f : Fun) (n reg : Nat) (v : Word) (s : State) : Host.Outcome State Fault Refusal := run (timingWrite f n reg v) s

def execHeadPclkWrite (f : Fun) (n : Nat) (v : Word) (s : State) : Host.Outcome State Fault Refusal := run (pclkWrite f n v) s

def execLayerDeadline (h line : Nat) (late : LateLayers) (s : State) : Host.Outcome State Fault Refusal := run (layerDeadline h line late.incomplete late.ecc) s

def execComposeWindowOpen (h : Nat) (s : State) : Host.Outcome State Fault Refusal := run (windowOpen h) s

def execComposeLine (h : Nat) (s : State) : Host.Outcome State Fault Refusal := run (composeLine h) s

def execComposePassEnd (h : Nat) (s : State) : Host.Outcome State Fault Refusal := run (passEnd h) s

def execFtPatrolScrub (d : Die) (corrected : Nat) (uncorrectable : List Nat) (s : State) : Host.Outcome State Fault Refusal :=
  run (ftScrub d corrected uncorrectable) s

def execPixelPllLost (h : Nat) (s : State) : Host.Outcome State Fault Refusal := run (pllLost h) s

def execPixelPllRelock (h : Nat) (s : State) : Host.Outcome State Fault Refusal := run (pllRelock h) s

def execPortHpd (port kind : Nat) (lost : Bool) (s : State) : Host.Outcome State Fault Refusal := run (portHpd port kind lost) s

def execLinkTraining (port : Nat) (result : Option (Nat × Nat)) (s : State) : Host.Outcome State Fault Refusal := run (linkTrained port result) s

def execGenlockReference (h : Nat) (event : GenEvent) (s : State) : Host.Outcome State Fault Refusal :=
  run (genReference h event.src event.pix event.inRange) s

def execGenlockSourceTimeout (h : Nat) (s : State) : Host.Outcome State Fault Refusal := run (genTimeout h) s

end Sys2Proof.Machine
end

