-- ==== Sys2Proof/Machine/Memory.lean ====
section
/-! DEFINITION. The memory system: channels, ports, service order, row disturbance, ECC, training, set-points (chapter 11). -/
namespace Sys2Proof.Machine

/-! ## Addresses (R292; widths of row, bank and column: notes/assumptions/15.md) -/

def channelOf (off : Nat) : Nat := Nat.xor (Nat.xor (off / 2 ^ 8 % 8) (off / 2 ^ 13 % 8)) (off / 2 ^ 18 % 8)
def channelLocal (off : Nat) : Nat := off / 2 ^ 11 * 2 ^ 8 + off % 2 ^ 8

/-- Bytes of a channel. -/
def channelBytes (s : State) (d : Die) : Nat := 2 ^ (29 + s.rdF (DRAM_CFG d) DRAM_CFG_CH_CAP)

def rankOf (s : State) (d : Die) (off : Nat) : Nat :=
  if s.flag (DRAM_CFG d) DRAM_CFG_RANKS2 then channelLocal off / (channelBytes s d / 2) % 2 else 0

def bankOf (s : State) (d : Die) (off : Nat) : Nat := 16 * rankOf s d off + channelLocal off / 2 ^ 11 % 16

def rowOf (s : State) (d : Die) (off : Nat) : Nat :=
  (if s.flag (DRAM_CFG d) DRAM_CFG_RANKS2 then channelLocal off % (channelBytes s d / 2) else channelLocal off) / 2 ^ 15

def bankKey (s : State) (d : Die) (off : Nat) : Nat := channelOf off * 32 + bankOf s d off

/-! ## Errors (R295–R299, R314) -/

/-- An uncorrectable word is found: counted once, marked, recorded, posted. -/
def eccFound (d : Die) (f : Fun) (port off : Nat) (scrub : Bool) (s : State) : State :=
  let w := off / 4 * 4
  let k := localKey (2 ^ 35 * d.idx + w)
  if inEccData s d w = false ∨ s.poison.contains k then s
  else
    let ch := channelOf w
    let ep := b2n (f.ep != d)
    let s1 := { s with poison := k :: s.poison } |> satF (DRAM_ECC_UNCORR d ch) DRAM_ECC_UNCORR_COUNT 1 |> rinlarCount d (16 + ch) 1
    let carve := inCarve s d w
    let s2 := if s1.flag (DRAM_ECC_INFO d) DRAM_ECC_INFO_VALID then s1
      else s1 |> wrB (DRAM_ECC_INFO d) DRAM_ECC_INFO_VALID true |> wrB (DRAM_ECC_INFO d) DRAM_ECC_INFO_POISON false
              |> wrB (DRAM_ECC_INFO d) DRAM_ECC_INFO_SCRUB scrub |> wrF (DRAM_ECC_INFO d) DRAM_ECC_INFO_CH ch
              |> wrF (DRAM_ECC_INFO d) DRAM_ECC_INFO_PORT port |> wrF (DRAM_ECC_INFO d) DRAM_ECC_INFO_FUNC f.fn
              |> wrF (DRAM_ECC_INFO d) DRAM_ECC_INFO_EP ep |> wr64 (DRAM_ECC_ADDR_LO d) w
    let pay (a : Nat) : Nat := a + port * 2 ^ 64 + f.fn * 2 ^ 72 + (ep + 4 * b2n scrub) * 2 ^ 80
    let s3 := postPf0 d 0x0600 ch (pay (if carve then 0 else w)) s2
    if carve then postPf1 d 0x0600 ch (pay w) s3 else s3

/-- The word merged by a partial write is poisoned: counted, not posted (R296). -/
def mergeFound (d : Die) (off : Nat) (s : State) : State :=
  let w := off / 4 * 4
  let k := localKey (2 ^ 35 * d.idx + w)
  if inEccData s d w = false ∨ s.poison.contains k then s
  else { s with poison := k :: s.poison } |> satF (DRAM_ECC_UNCORR d (channelOf w)) DRAM_ECC_UNCORR_COUNT 1 |> rinlarCount d (16 + channelOf w) 1

/-- Corrected words of a channel; an event each time the count passes a multiple of the step (R314). -/
def eccCorrected (d : Die) (ch n : Nat) (s : State) : State :=
  let a := DRAM_ECC_CORR d ch
  let was := s.rdF a DRAM_ECC_CORR_COUNT
  let step := s.rdF (DRAM_ECC_THRESH d) DRAM_ECC_THRESH_CORR_THRESH
  let s1 := if n = 0 then s else s |> satF a DRAM_ECC_CORR_COUNT n |> rinlarCount d (8 + ch) n
  let now := s1.rdF a DRAM_ECC_CORR_COUNT
  if step = 0 then s1
  else (upto (now / step - was / step)).foldl (fun t i => postPf0 d 0x0601 ch ((was / step + 1 + i) * step) t) s1

/-! ## Ports (R300–R304) -/

/-- Class of a port; 4 where the request carries its own. -/
def portClass (s : State) (d : Die) (p : Nat) : Nat :=
  if p ≤ 1 then 0 else if p ≤ 8 then 1 else if p = 22 then 4 else if p = 23 then 3 else s.rdF (DRAM_PORT_CFG d p) DRAM_PORT_CFG_CLASS

/-- Class of a waiting request, after promotion by age (R303). -/
def reqClass (s : State) (d : Die) (r : MemReq) : Nat :=
  let c := if r.port = 22 then r.cls else portClass s d r.port
  let lim := 1000 * max 1 (s.rdF (DRAM_PORT_CFG d r.port) DRAM_PORT_CFG_AGE_LIMIT_US)
  let age := s.now d - r.since
  if c = 2 then (if lim < age then 1 else 2)
  else if c = 3 then (if 2 * lim < age then 1 else if lim < age then 2 else 3)
  else c

/-- A request was promoted to ISOCHRONOUS by age. -/
def promotedIso (s : State) (d : Die) (r : MemReq) : Bool :=
  reqClass s d r == 1 && (if r.port = 22 then r.cls != 1 else portClass s d r.port != 1)

/-- Urgency of a waiting request (R302, R303). -/
def reqUrgency (s : State) (d : Die) (r : MemReq) : Nat :=
  let lat := max 1 (s.rdF (DRAM_PORT_CFG d r.port) DRAM_PORT_CFG_LAT_TARGET_NS)
  let age := min 7 (8 * (s.now d - r.since) / lat)
  if promotedIso s d r then 0
  else if r.port = 22 then min 7 r.urgency
  else if r.port = 6 ∨ r.port = 8 then (if r.capacity = 0 then 0 else min 7 (8 * r.fill / r.capacity))
  else if 2 ≤ r.port ∧ r.port ≤ 7 then (if r.period = 0 then 7 else 7 - 2 * r.rem / r.period)
  else if 12 ≤ r.port ∧ r.port ≤ 19 then max age (min 7 (r.e - 8))
  else age

/-- Bytes the die's channels carry in a millisecond at the set-point in force (R291). -/
def peakBytes (s : State) (d : Die) : Nat := 16 * 1000 * s.rdF (DRAM_FSP d (s.rdF (DRAM_STATUS d) DRAM_STATUS_FSP_CUR)) DRAM_FSP_RATE_MTS

/-- The function is below its DRAM_SHARE in the open window (R304). -/
def belowDram (s : State) (d : Die) (f : Fun) : Bool :=
  decide (tget 0 f.key (s.dram d).bytes * 256 < s.rdF (TENANT_CFG f) TENANT_CFG_DRAM_SHARE * peakBytes s d)

/-- The request hits an open row. -/
def rowHit (s : State) (d : Die) (r : MemReq) : Bool :=
  tfind (bankKey s d r.addr) (s.dram d).openRow == some (rowOf s d r.addr)

def Ebrum.empty : Ebrum := ⟨[], none, none, none, none, 0, []⟩
def State.ebrum (s : State) (d : Die) : Ebrum := tget Ebrum.empty d.idx s.ebrums
def setEbrum (d : Die) (x : Ebrum) (s : State) : State := { s with ebrums := tset d.idx x s.ebrums }

/-- The bundle that a memory address takes among those that carry traffic: granules of 256 bytes go round them (R442). -/
def spread (bundles : List Nat) (addr : Nat) : Option Nat := bundles[addr / 256 % bundles.length]?

/-- The bundle of a request from the other die: by the set in force when it came; if that bundle carries nothing now, the lowest UP
one replays it (R442, R446; DESIGN CHOICE, notes/assumptions/122.md). -/
def carrier (s : State) (d : Die) (r : MemReq) : Option Nat :=
  let now := liveBundles s
  let was := (((s.ebrum d).sets.find? (fun x => decide (x.1 ≤ r.since))).map (fun x => x.2)).getD now
  match spread was r.addr with
  | some b => if now.contains b then some b else lowestUp s
  | none => lowestUp s

/-- A request from the other die waits while no bundle carries it, or its bundle is being remapped (R449, Table 18.1). -/
def linkHolds (s : State) (d : Die) (r : MemReq) : Bool :=
  r.port == 22 && (match carrier s d r with
    | some b => bundleState s b == 1
    | none => true)

/-- The row of the request is open to it: one that has served 16 hits while a miss to its bank waits is closed (R301). -/
def openHit (s : State) (d : Die) (others : List MemReq) (r : MemReq) : Bool :=
  rowHit s d r && !(decide (16 ≤ tget 0 (bankKey s d r.addr) (s.dram d).hits)
    && others.any (fun x => bankKey s d x.addr == bankKey s d r.addr && !rowHit s d x))

/-- A throttled port's activation of the bank must still wait (R306), or the link holds the request. -/
def held (s : State) (d : Die) (others : List MemReq) (r : MemReq) : Bool :=
  let b := bankKey s d r.addr
  let gap := s.rdF (DRAM_RD_GAP d) DRAM_RD_GAP_GAP_NS
  linkHolds s d r || ((s.dram d).throttled.contains (r.port, b) && !openHit s d others r
    && (match tfind (b * 32 + r.port) (s.dram d).lastAct with
        | some t => decide (s.now d < t + gap)
        | none => false))

/-- a is served before b by the rules of R301; where every rule finds them equal the first in the list goes. -/
def servedBefore (s : State) (d : Die) (others : List MemReq) (a b : MemReq) : Bool :=
  let ca := reqClass s d a
  let cb := reqClass s d b
  let ua := reqUrgency s d a
  let ub := reqUrgency s d b
  let oa := classOf s a.fn == 2
  let ob := classOf s b.fn == 2
  let sa := belowDram s d a.fn
  let sb := belowDram s d b.fn
  let hit := openHit s d others
  if ca ≠ cb then decide (ca < cb)
  else if ua ≠ ub then decide (ub < ua)
  else if oa ≠ ob then ob
  else if 2 ≤ ca ∧ sa ≠ sb then sa
  else if hit a ≠ hit b then hit a
  else decide (a.since < b.since)

def bestReq (s : State) (d : Die) (all : List MemReq) : List MemReq → Option MemReq
  | [] => none
  | r :: t =>
    match bestReq s d all t with
    | none => some r
    | some x => if servedBefore s d all x r then some x else some r

/-- A link test has the channel in self-refresh (R459). -/
def dqTest (s : State) (d : Die) (ch : Nat) : Bool := s.rdF (LT_STATUS d (13 + ch)) LT_STATUS_STATE == 2

/-- The channel takes no request: training gathers on it, a set-point change has closed it, or memory is in self-refresh. -/
def channelClosed (s : State) (d : Die) (ch : Nat) : Bool :=
  let a := DRAM_STATUS d
  !s.flag a DRAM_STATUS_READY || s.flag a DRAM_STATUS_SELF_REFRESH || dqTest s d ch || nbit (s.rdF a DRAM_STATUS_GATHERING) ch
    || (s.flag a DRAM_STATUS_FSP_BUSY && s.rdF a DRAM_STATUS_GATHERING == 0)

/-- An activation is counted; the one that reaches THRESH starts mitigation of the row group: an RFM command then and after every
further RFM_STRIDE activations, and the port throttled (R305, R306). -/
def activate (d : Die) (r : MemReq) (s : State) : State :=
  let b := bankKey s d r.addr
  let group := rowOf s d r.addr / 256
  let key := b * 2 ^ 24 + group
  let x := s.dram d
  let n := tget 0 key x.acts + 1
  let starts := (tfind key x.rfmAt).isNone
  let rfm := decide ((match tfind key x.rfmAt with
    | none => s.rdF (DRAM_RD_CFG d) DRAM_RD_CFG_THRESH
    | some m => m + max 1 (s.rdF (DRAM_RD_CFG d) DRAM_RD_CFG_RFM_STRIDE)) ≤ n)
  let s1 := s |> setDram d { x with openRow := tset b (rowOf s d r.addr) x.openRow, hits := tset b 0 x.hits, acts := tset key n x.acts,
                                    lastAct := tset (b * 32 + r.port) (s.now d) x.lastAct, rfmAt := if rfm then tset key n x.rfmAt else x.rfmAt }
    |> (if rfm then emit (.rfm d (b / 32) (b % 32)) else id)
  let c := if r.port = 22 then r.cls else portClass s d r.port
  if starts = false ∨ rfm = false ∨ c ≤ 1 ∨ s.rdF (DRAM_RD_GAP d) DRAM_RD_GAP_GAP_NS = 0 then s1
  else
    let first := !((s1.dram d).throttled.any (fun t => t.1 == r.port))
    let s2 := setDram d { s1.dram d with throttled := (r.port, b) :: (s1.dram d).throttled } s1
    if first then
      s2 |> satF (DRAM_RD_STATUS d) DRAM_RD_STATUS_THROTTLES 1 |> rinlarCount d 42 1
         |> wrF (DRAM_RD_THROTTLED d) DRAM_RD_THROTTLED_PORTS (setBit (s2.rdF (DRAM_RD_THROTTLED d) DRAM_RD_THROTTLED_PORTS) r.port true)
         |> wrB (DRAM_PORT_STATUS d r.port) DRAM_PORT_STATUS_THROTTLED true
         |> postPf0 d 0x0602 r.port (b / 32 + rankOf s d r.addr * 2 ^ 8 + bankOf s d r.addr % 16 * 2 ^ 16 + group * 2 ^ 32 + r.fn.fn * 2 ^ 64)
    else s2

/-- A request of the other die came over its bundle. -/
def linkRequest (d : Die) (r : MemReq) (s : State) : State :=
  match carrier s d r with
  | some b => emit (.link d.other b (some r.addr)) s
  | none => s

/-! ## System cache (R112, R113, R299) -/

/-- The line that holds a die-local offset, with its place. -/
def lineAt (s : State) (d : Die) (a : Nat) : Option (Nat × CacheLine) := (s.dram d).cache.find? (fun e => e.2.line == a / 64)

/-- Lines that a request touches. -/
def reqLines (r : MemReq) : List Nat := (upto ((r.addr + r.len - 1) / 64 - r.addr / 64 + 1)).map (fun i => r.addr / 64 + i)

/-- The cache holds all that the request wants. -/
def cacheHit (s : State) (d : Die) (r : MemReq) : Bool := (reqLines r).all (fun l => (lineAt s d (64 * l)).isSome)

/-- A request of the world S: the supervisors, the port of PF1's DMA, and PF1. -/
def secureReq (r : MemReq) : Bool := decide (r.port ≤ 1) || isPf1 r.fn

/-- The ways in which a request may allocate (R112, R299). -/
def allocWays (s : State) (d : Die) (r : MemReq) : List Nat :=
  let sWay (w : Nat) : Bool := nbit (s.rdF (CACHE_S_WAYS d) CACHE_S_WAYS_S_MASK) w
  if r.alloc = false ∨ r.port = 23 then []
  else (upto 16).filter (fun w => if secureReq r then sWay w
    else !(sRouteLives s d && sWay w) && (classOf s r.fn != 2 || nbit (s.rdF (CACHE_N_WAYS d) CACHE_N_WAYS_OPAL_MASK) w))

/-- A line of a request in the cache: one that is there takes a write; else it goes into a free way of those allowed, and what stood
there is written back if it was dirty, with the class and urgency of the request. -/
def cacheLine (d : Die) (r : MemReq) (cls urgency line : Nat) (s : State) : State :=
  let x := s.dram d
  match lineAt s d (64 * line) with
  | some (k, l) => if r.write then setDram d { x with cache := tset k { l with dirty := true } x.cache } s else s
  | none =>
    match allocWays s d r with
    | [] => s
    | w :: ws =>
      let k := 16 * (Config.cacheSet line % 16384) + (w :: ws).getD (s.freeNat 0 % (ws.length + 1)) 0
      let s1 := match tfind k x.cache with
        | some v => if v.dirty then emit (.writeBack d v.line cls urgency) s else s
        | none => s
      s1 |> useFree 1 |> setDram d { x with cache := tset k ⟨line, r.write, secureReq r⟩ x.cache }

/-- Errors of words in the cache: a corrected one is counted; an uncorrectable one is counted, and in a dirty line it goes to memory
poisoned, while a clean line is read again (R299). -/
def cacheErrors (d : Die) (errs : MemErrs) (s : State) : State :=
  let bad := errs.cacheUncorrectable.filter (fun w => (lineAt s d w).isSome)
  let s1 := s |> rinlarCount d 26 errs.cacheCorrected |> rinlarCount d 27 bad.length
  (bad.filter (fun w => (lineAt s d w).any (fun e => e.2.dirty) && inEccData s d w)).foldl (fun t w =>
    let k := localKey (2 ^ 35 * d.idx + w / 4 * 4)
    { t with poison := k :: t.poison.filter (fun j => j != k) }) s1

/-- A channel serves the request that R301 puts first among those that wait; what the cache holds takes nothing of the channel. -/
def serve (d : Die) (ch : Nat) (waiting : List MemReq) (errs : MemErrs) (s : State) : State :=
  let mine := waiting.filter (fun r => channelOf r.addr == ch && decide (r.addr < fitted s d) && decide (r.port < 24)
    && s.flag (DRAM_PORT_STATUS d r.port) DRAM_PORT_STATUS_PRESENT)
  if channelClosed s d ch then s
  else
    match bestReq s d mine (mine.filter (fun r => !held s d mine r)) with
    | none => s
    | some r =>
      let b := bankKey s d r.addr
      let u := reqUrgency s d r
      let c := reqClass s d r
      let s0 := if r.port = 22 then linkRequest d r s else s
      let hit := cacheHit s d r
      let s1 := if hit then s0
        else if openHit s d mine r then setDram d { s0.dram d with hits := tset b (tget 0 b (s0.dram d).hits + 1) (s0.dram d).hits } s0 else activate d r s0
      let x := s1.dram d
      let s2 := s1 |> setDram d { x with bytes := if 2 ≤ c ∧ hit = false then tset r.fn.key (tget 0 r.fn.key x.bytes + r.len) x.bytes else x.bytes,
                                         urgency := tset r.port (max u (tget 0 r.port x.urgency)) x.urgency }
                   |> add64 (DRAM_PORT_BYTES_LO d r.port) r.len |> eccCorrected d ch errs.corrected
      let within (w : Nat) : Bool := decide (r.addr ≤ w + 3 ∧ w < r.addr + r.len)
      let s3 := (errs.uncorrectable.filter within).foldl (fun t w => if r.write then mergeFound d w t else eccFound d r.fn r.port w false t) s2
      (reqLines r).foldl (fun t l => cacheLine d r c u l t) (cacheErrors d errs s3)

/-- A waiting request of a port is promoted (R303). -/
def promote (d : Die) (p : Nat) (s : State) : State :=
  if p < 24 ∧ 2 ≤ portClass s d p then satF (DRAM_PORT_STATUS d p) DRAM_PORT_STATUS_PROMOTIONS 1 s else s

/-- The 32 ms window ends (R305). -/
def rdWindowEnds (d : Die) (s : State) : State :=
  let s1 := setDram d { s.dram d with acts := [], throttled := [], rfmAt := [] } s
  (upto 24).foldl (fun t p => wrB (DRAM_PORT_STATUS d p) DRAM_PORT_STATUS_THROTTLED false t) (wrF (DRAM_RD_THROTTLED d) DRAM_RD_THROTTLED_PORTS 0 s1)

/-- The 1 ms window closes (R304). -/
def dramWindow (d : Die) (s : State) : State :=
  let x := s.dram d
  let peak := peakBytes s d
  let s1 := (upto 64).foldl (fun t i =>
    let f : Fun := ⟨if i < 32 then d else d.other, i % 32⟩
    let used := if peak = 0 then 0 else min 0xFF (tget 0 f.key x.bytes * 256 / peak)
    if t.rdF (DRAM_FUNC_USE d i) DRAM_FUNC_USE_USED = used then t else wrF (DRAM_FUNC_USE d i) DRAM_FUNC_USE_USED used t) s
  let s2 := (upto 24).foldl (fun t p => wrF (DRAM_PORT_STATUS d p) DRAM_PORT_STATUS_URG_MAX (tget 0 p x.urgency) t) s1
  setDram d { s2.dram d with bytes := [], urgency := [] } s2

/-- The patrol scrub reads the ECC regions (R298). -/
def patrol (d : Die) (corrected : List (Nat × Nat)) (bad : List Nat) (s : State) : State :=
  if s.rdF (DRAM_SCRUB d) DRAM_SCRUB_PERIOD_H = 0 ∨ s.flag (DRAM_STATUS d) DRAM_STATUS_SELF_REFRESH ∨ s.flag (DRAM_STATUS d) DRAM_STATUS_READY = false then s
  else
    let s1 := corrected.foldl (fun t c => if c.1 < 8 then eccCorrected d c.1 c.2 t else t) s
    bad.foldl (fun t w => eccFound d (pf0 d) 23 w true t) s1

/-! ## Training (R308, R311) -/

/-- Steps of a type. -/
def trainSteps (kind : Nat) : Nat := if kind = 0 then 1 else if kind = 1 then 4 else 8

def trainPass (d : Die) (s : State) : State :=
  if s.flag (DRAM_TRAIN_CFG d) DRAM_TRAIN_CFG_PERIODIC_EN ∧ s.flag (DRAM_STATUS d) DRAM_STATUS_READY
      ∧ s.flag (DRAM_STATUS d) DRAM_STATUS_SELF_REFRESH = false ∧ (s.dram d).training = none then
    setDram d { s.dram d with training := some ⟨0, 0, 0, false⟩ } s
  else s

/-- A step begins, unless urgent traffic waits on the channel or a set-point change runs. -/
def trainStart (d : Die) (waiting : List MemReq) (s : State) : State :=
  match (s.dram d).training with
  | none => s
  | some t =>
    let urgent := waiting.any (fun r => channelOf r.addr == t.ch && decide (reqClass s d r ≤ 1) && decide (6 ≤ reqUrgency s d r))
    if urgent ∨ s.flag (DRAM_STATUS d) DRAM_STATUS_FSP_BUSY ∨ s.flag (DRAM_STATUS d) DRAM_STATUS_SELF_REFRESH
        ∨ s.rdF (DRAM_STATUS d) DRAM_STATUS_GATHERING ≠ 0 then s
    else wrF (DRAM_STATUS d) DRAM_STATUS_GATHERING (2 ^ t.ch) s

/-- The place after a type: the next type, the next channel, or the end of the pass. -/
def trainNext (t : Training) : Option Training :=
  if t.kind < 2 then some ⟨t.ch, t.kind + 1, 0, false⟩ else if t.ch < 7 then some ⟨t.ch + 1, 0, 0, false⟩ else none

/-- Crossings of the DRAM PHY islands (R313). -/
def dramXings : List Nat := (upto 32).map (fun i => 0x20 + i)

/-- A step ends: discarded, counted with its set-point change going on; the last of its type forms the result, `outside` the PHY's limits or not. -/
def trainDone (d : Die) (outside : Bool) (s : State) : State :=
  match (s.dram d).training with
  | none => s
  | some t =>
    if s.rdF (DRAM_STATUS d) DRAM_STATUS_GATHERING = 0 then s
    else
      let s1 := wrF (DRAM_STATUS d) DRAM_STATUS_GATHERING 0 s
      let set (x : Option Training) (u : State) : State := setDram d { u.dram d with training := x } u
      if t.discard then s1 |> set (some { t with step := 0, discard := false }) |> haltXings d dramXings
      else if t.step + 1 < trainSteps t.kind then set (some { t with step := t.step + 1 }) s1
      else
        let s2 := set (trainNext t) s1
        if outside then
          s2 |> satF (DRAM_TRAIN_STATUS d) DRAM_TRAIN_STATUS_FAILS 1 |> rinlarCount d 43 1
             |> postPf0 d 0x0603 t.ch ((if t.kind = 0 then 4 else t.kind + 1) + s.rdF (DRAM_STATUS d) DRAM_STATUS_FSP_CUR * 2 ^ 8)
        else
          let k := 32 * s.rdF (DRAM_STATUS d) DRAM_STATUS_FSP_CUR + 4 * t.ch + t.kind
          useFree 1 (setDram d { s2.dram d with results := tset k (s.freeNat 0) (s2.dram d).results } s2)

/-- A refresh of a channel: the results that wait on it are applied (R308). -/
def refreshes (d : Die) (ch : Nat) (s : State) : State :=
  let x := s.dram d
  if 8 ≤ ch ∨ s.inReset.contains .memory then s
  else setDram d { x with phy := (x.results.filter (fun r => r.1 / 4 % 8 == ch)).foldl (fun p r => tset r.1 r.2 p) x.phy,
                          results := x.results.filter (fun r => r.1 / 4 % 8 != ch) } s

/-! ## Set-points (R309–R311) -/

/-- GO is latched: a type that has begun is restarted; a gathering step ends before all channels close (R310, R311). -/
def beginFsp (d : Die) (target : Nat) (s : State) : State :=
  let x := s.dram d
  let gathering := s.rdF (DRAM_STATUS d) DRAM_STATUS_GATHERING != 0
  let s1 := s |> wrB (DRAM_STATUS d) DRAM_STATUS_FSP_BUSY true |> (if gathering then id else haltXings d dramXings)
  match x.training with
  | some t =>
    if t.step ≠ 0 ∨ gathering then
      s1 |> setDram d { x with target := some target, goTime := s.now d, training := some { t with step := 0, discard := gathering } }
         |> satF (DRAM_TRAIN_STATUS d) DRAM_TRAIN_STATUS_RESTARTS 1
    else setDram d { x with target := some target, goTime := s.now d } s1
  | none => setDram d { x with target := some target, goTime := s.now d } s1

/-- A write of DRAM_FSP_CTRL. -/
def fspWrite (f : Fun) (v : Word) (s : State) : State :=
  let d := f.ep
  let a := DRAM_STATUS d
  let t := DRAM_FSP_CTRL_TARGET.get v
  if (accessRow s f (addrOff (DRAM_FSP_CTRL d))).isNone then s
  else if DRAM_FSP_CTRL_GO.get v = 0 then wrF (DRAM_FSP_CTRL d) DRAM_FSP_CTRL_TARGET t s
  else if s.flag a DRAM_STATUS_READY = false ∨ s.flag a DRAM_STATUS_FSP_BUSY ∨ t = 3 then s
  else
    let s1 := wrF (DRAM_FSP_CTRL d) DRAM_FSP_CTRL_TARGET t s
    if t = s.rdF a DRAM_STATUS_FSP_CUR then s1
    else if s.flag a DRAM_STATUS_SELF_REFRESH ∨ (upto 8).any (dqTest s d) then setDram d { s1.dram d with waitTarget := some t } s1
    else beginFsp d t s1

/-- The change is done. -/
def fspEnds (d : Die) (closure : Nat) (s : State) : State :=
  match (s.dram d).target with
  | none => s
  | some t =>
    if s.rdF (DRAM_STATUS d) DRAM_STATUS_GATHERING ≠ 0 then s
    else
      let old := s.rdF (DRAM_STATUS d) DRAM_STATUS_FSP_CUR
      s |> setDram d { s.dram d with target := none } |> wrF (DRAM_STATUS d) DRAM_STATUS_FSP_CUR t |> wrB (DRAM_STATUS d) DRAM_STATUS_FSP_BUSY false
        |> (fun t => dramXings.foldl (fun u n => xingResumes d n u) t) |> postPf0 d 0x0604 d.idx (old + t * 2 ^ 8 + closure % 2 ^ 32 * 2 ^ 32)

/-! ## Meanings -/

def execMemRequestServe (d : Die) (ch : Nat) (waiting : List MemReq) (errs : MemErrs) (s : State) : Host.Outcome State Fault Refusal :=
  run (serve d ch waiting errs) s

def execAgePromotion (d : Die) (port : Nat) (s : State) : Host.Outcome State Fault Refusal := run (promote d port) s

def execRdWindow (d : Die) (s : State) : Host.Outcome State Fault Refusal := run (rdWindowEnds d) s

def execDramShareWindow (d : Die) (s : State) : Host.Outcome State Fault Refusal := run (dramWindow d) s

def execDramPatrolScrub (d : Die) (corrected : List (Nat × Nat)) (uncorrectable : List Nat) (s : State) : Host.Outcome State Fault Refusal :=
  run (patrol d corrected uncorrectable) s

def execTrainPeriodic (d : Die) (s : State) : Host.Outcome State Fault Refusal := run (trainPass d) s

def execTrainStepStart (d : Die) (waiting : List MemReq) (s : State) : Host.Outcome State Fault Refusal := run (trainStart d waiting) s

def execDramRefresh (d : Die) (ch : Nat) (s : State) : Host.Outcome State Fault Refusal := run (refreshes d ch) s

def execTrainStepDone (d : Die) (outside : Bool) (s : State) : Host.Outcome State Fault Refusal := run (trainDone d outside) s

def execFspChange (f : Fun) (v : Word) (s : State) : Host.Outcome State Fault Refusal := run (fspWrite f v) s

end Sys2Proof.Machine
end

