-- ==== Sys2Proof/Machine/LinkTest.lean ====
section
/-! DEFINITION. Link test: units, checkers, eye scan and margining (chapter 19). -/
namespace Sys2Proof.Machine

def LinkTests.empty : LinkTests := ⟨[], 0, []⟩
def State.ltest (s : State) (d : Die) : LinkTests := tget LinkTests.empty d.idx s.linkTests
def setLtest (d : Die) (x : LinkTests) (s : State) : State := { s with linkTests := tset d.idx x s.linkTests }

/-! ## Units (R458) -/

/-- The unit is present: those of camera ports follow the port. -/
def ltPresent (s : State) (d : Die) (u : Nat) : Bool :=
  decide (u ≤ 20) && (decide (u < 5 ∨ 8 < u) || unitPresent s.part d (bitCamera (u - 5)))

/-- Lanes of a unit. -/
def ltLanes (u : Nat) : Nat := if u = 0 then 8 else if u ≤ 2 then 4 else if u ≤ 4 then 8 else if u ≤ 8 then 4 else if u ≤ 12 then 34 else 16

/-- The unit has a checker. -/
def ltChecks (u : Nat) : Bool := u == 0 || decide (5 ≤ u)

def ltState (s : State) (d : Die) (u : Nat) : Nat := s.rdF (LT_STATUS d u) LT_STATUS_STATE
def ltRuns (s : State) (d : Die) (u : Nat) : Bool := ltState s d u == 2

/-- Lanes under test. -/
def lanesTested (s : State) (d : Die) (u : Nat) : List Nat :=
  let m := (s.rd (LT_LANES d u)).toNat + 2 ^ 32 * s.rdF (LT_CFG d u) LT_CFG_LANES_HI
  (upto (ltLanes u)).filter (nbit m)

/-- The pattern and the rate are ones the unit supports (Tables 19.3, 19.4; R463). -/
def ltSupported (s : State) (d : Die) (u : Nat) : Bool :=
  let p := s.rdF (LT_CFG d u) LT_CFG_PATTERN
  let m := s.rdF (LT_RATE d u) LT_RATE_MBPS
  let proto := s.rdF (PORT_CFG d (u - 1)) PORT_CFG_PROTO
  (decide (p ≤ 6) || (decide (8 ≤ p ∧ p ≤ 14) && (u == 1 || u == 2)))
    && (if u = 0 then (let n := s.rdF (LT_CFG d u) LT_CFG_DURATION_MS; decide (1 ≤ n ∧ n ≤ 1000))
        else if u ≤ 2 then (upto 12).any (fun c => rateKbps c == m * 1000 && m != 0)
        else if u ≤ 4 then (if proto = 4 ∨ proto = 5 then decide (140 ≤ m ∧ m ≤ 784) else decide (80 ≤ m ∧ m ≤ 4500))
        else true)

/-- Reason for which the link is not free (Table 19.2); 0 where it is. -/
def ltBusy (s : State) (d : Die) (u : Nat) : Nat :=
  let bundle := s.rdF (EBRUM_BUNDLE d (u - 9)) EBRUM_BUNDLE_STATE
  if u = 0 then 0
  else if u ≤ 4 then (if portHeads s d (u - 1) = [] then 0 else 1)
  else if u ≤ 8 then (if s.flag (CAM_PORT_CFG d (u - 5)) CAM_PORT_CFG_EN then 0 else 2)
  else if u ≤ 12 then
    (if (s.ebrums.any (fun e => e.2.retrain.isSome)) ∨ (s.split = false ∧ bundle ≠ 2) then 3 else 0)
  else if (upto 4).any (fun n => s.flag (HEAD_CFG d n) HEAD_CFG_ENABLED) ∨ s.flag (DRAM_STATUS d) DRAM_STATUS_FSP_BUSY then 4
  else 0

/-! ## Running (R461, R462) -/

/-- Counters of a unit clear. -/
def ltClear (d : Die) (u : Nat) (s : State) : State :=
  let x := s.ltest d
  (upto (ltLanes u)).foldl (fun t l => wr (LT_ERR d u l) 0 t)
    (s |> wr64 (LT_BITS_LO d u) 0 |> wr (LT_NOLOCK d u) 0 |> wrF (LT_STATUS d u) LT_STATUS_NOLOCK_HI 0 |> wrF (LT_STATUS d u) LT_STATUS_RELOCKS 0
       |> setLtest d { x with locked := tkeep (fun k => k != u) x.locked })

/-- Exponents of a PRBS: x^n + x^m + 1 (Table 19.3). -/
def prbsPoly (p : Nat) : Nat × Nat := if p = 1 then (7, 6) else if p = 2 then (9, 5) else if p = 3 then (15, 14) else if p = 4 then (23, 18) else if p = 5 then (31, 28) else (0, 0)

/-- A lane's seed: its number + 1 in the low bits, all others one (R460). -/
def laneSeed (p lane : Nat) : Nat := 2 ^ (prbsPoly p).1 - 64 + lane + 1

/-- Rate of a test, Mb/s (Table 19.4). -/
def ltRate (s : State) (d : Die) (u : Nat) : Option Nat :=
  if u = 0 then none else if u ≤ 4 then some (s.rdF (LT_RATE d u) LT_RATE_MBPS) else if u ≤ 8 then some (s.rdF (CAM_PORT_CFG d (u - 5)) CAM_PORT_CFG_MAX_MBPS)
  else if u ≤ 12 then some 16000 else some (s.rdF (DRAM_FSP d (s.rdF (DRAM_STATUS d) DRAM_STATUS_FSP_CUR)) DRAM_FSP_RATE_MTS)

/-- The generator's lanes begin to send; that of a camera port sends in loopback only (Table 19.1). -/
def generate (d : Die) (u : Nat) (s : State) : State :=
  let c := LT_CFG d u
  let m := s.rdF c LT_CFG_MODE
  let p := s.rdF c LT_CFG_PATTERN
  if p = 0 ∨ m = 1 ∨ (5 ≤ u ∧ u ≤ 8 ∧ m ≠ 3) then s
  else (lanesTested s d u).foldl (fun t l => emit (.pattern d u l p (prbsPoly p) (if p ≤ 5 then laneSeed p l else if p = 6 then (s.rd64 (LT_USER_LO d)) else 0)
    (s.flag c LT_CFG_INVERT) (ltRate s d u)) t) s

/-- The test runs: it takes its link. -/
def ltRun (d : Die) (u : Nat) (s : State) : State :=
  let s1 := s |> wrF (LT_STATUS d u) LT_STATUS_STATE 2 |> generate d u
  if 5 ≤ u ∧ u ≤ 8 then (upto 4).foldl (fun t v => loseStream (4 * d.idx + (u - 5)) v 2 t) s1 else s1

/-- START: the unit starts, or is armed, if its link is free. -/
def ltBegin (d : Die) (u : Nat) (s : State) : State :=
  if ltState s d u = 1 ∨ ltRuns s d u then s
  else
    let e := if ltBusy s d u ≠ 0 then ltBusy s d u else if ltSupported s d u then 0 else 5
    let s1 := s |> wrF (LT_STATUS d u) LT_STATUS_START_ERR e
    if e ≠ 0 then s1
    else
      let s2 := s1 |> wrB (LT_STATUS d u) LT_STATUS_RETRAIN false |> ltClear d u
      if u = 0 then wrF (LT_STATUS d u) LT_STATUS_STATE 1 s2 else ltRun d u s2

/-- Count what the locked lanes have seen. -/
def ltCount (d : Die) (u : Nat) (o : LtObs) (s : State) : State :=
  let on := tget [] u (s.ltest d).locked
  let s1 := o.errs.foldl (fun t e => if on.contains e.1 then satF (LT_ERR d u e.1) LT_ERR_COUNT e.2 t else t) s
  if on = [] then s1 else add64 (LT_BITS_LO d u) o.bits s1

/-- A channel that was closed for its test opens, and a set-point GO that waited begins (Table 19.2). -/
def ltFree (d : Die) (u : Nat) (s : State) : State :=
  match (s.dram d).waitTarget with
  | some t =>
    if 13 ≤ u ∧ (upto 8).all (fun c => !ltRuns s d (13 + c)) ∧ s.flag (DRAM_STATUS d) DRAM_STATUS_SELF_REFRESH = false then
      s |> setDram d { s.dram d with waitTarget := none } |> beginFsp d t
    else s
  | none => s

/-- A running or armed test ends with a cause (R462). -/
def ltEnd (d : Die) (u cause : Nat) (s : State) : State :=
  if ltState s d u ≠ 1 ∧ ltRuns s d u = false then s
  else
    let on := tget [] u (s.ltest d).locked
    let lanes := lanesTested s d u
    let off := if ltChecks u ∧ s.rdF (LT_CFG d u) LT_CFG_MODE ≠ 0 then lanes.filter (fun l => !on.contains l) else []
    let wrong := lanes.filter (fun l => off.contains l || s.rd (LT_ERR d u l) != 0)
    let mask (ls : List Nat) : Nat := (ls.map (fun l => 2 ^ l)).sum
    s |> wrF (LT_STATUS d u) LT_STATUS_STATE 3 |> wrF (LT_STATUS d u) LT_STATUS_CAUSE cause
      |> wr (LT_NOLOCK d u) (BitVec.ofNat 32 (mask off)) |> wrF (LT_STATUS d u) LT_STATUS_NOLOCK_HI (mask off / 2 ^ 32)
      |> ltFree d u
      |> postPf0 d 0x0C00 d.idx (u + cause * 2 ^ 8 + mask wrong * 2 ^ 32)

/-- Every test of a die ends with cause 2 (R462). -/
def ltEndAll (d : Die) (s : State) : State := (upto 21).foldl (fun t u => ltEnd d u 2 t) s

/-- A write of LT_CTRL. -/
def ltCtrlWrite (f : Fun) (u : Nat) (v : Word) (o : LtObs) (s : State) : State :=
  let d := f.ep
  if (accessRow s f (addrOff (LT_CTRL d u))).isNone ∨ ltPresent s d u = false then s
  else
    let s1 := if LT_CTRL_STOP.get v = 1 then s |> ltCount d u o |> ltEnd d u 1 else s
    if LT_CTRL_START.get v = 1 then ltBegin d u s1 else s1

/-- A test's DURATION_MS has passed. -/
def ltExpires (d : Die) (u : Nat) (o : LtObs) (s : State) : State :=
  if ltRuns s d u ∧ s.rdF (LT_CFG d u) LT_CFG_DURATION_MS ≠ 0 ∧ s.flag (LT_STATUS d u) LT_STATUS_RETRAIN = false then s |> ltCount d u o |> ltEnd d u 0
  else s

/-- A checker lane locks, or loses lock (R461). -/
def laneLock (d : Die) (u lane : Nat) (lock : Bool) (o : LtObs) (s : State) : State :=
  if ltRuns s d u = false ∨ ltChecks u = false ∨ s.rdF (LT_CFG d u) LT_CFG_MODE = 0 ∨ (lanesTested s d u).contains lane = false then s
  else
    let s1 := ltCount d u o s
    let on := tget [] u (s1.ltest d).locked
    let set (ls : List Nat) (t : State) : State := setLtest d { t.ltest d with locked := tset u ls (t.ltest d).locked } t
    if lock then (if on.contains lane then s1 else set (lane :: on) s1)
    else if on.contains lane then s1 |> set (on.filter (fun l => l != lane)) |> satF (LT_STATUS d u) LT_STATUS_RELOCKS 1
    else s1

/-! ## PCIe, eye scan and margining (R463–R465) -/

/-- The link leaves L0 for Detect: an armed test runs. -/
def pcieRun (d : Die) (s : State) : State := if ltState s d 0 = 1 then ltRun d 0 s else s

/-- Unit and lane of the eye-scan point. -/
def eyeUnit (s : State) (d : Die) : Nat := s.rdF (LT_EYE_CTRL d) LT_EYE_CTRL_UNIT
def eyeLane (s : State) (d : Die) : Nat := s.rdF (LT_EYE_CTRL d) LT_EYE_CTRL_LANE

/-- The point can be measured: the unit checks, has the lane, and, on the CSI-2 and DCH units, its test runs. -/
def eyeOk (s : State) (d : Die) : Bool :=
  let u := eyeUnit s d
  ltPresent s d u && ltChecks u && decide (eyeLane s d < ltLanes u) && (u == 0 || decide (9 ≤ u ∧ u ≤ 12) || ltRuns s d u)

/-- The point ends. -/
def eyeResult (d : Die) (invalid : Bool) (errors : Nat) (s : State) : State :=
  s |> wrB (LT_EYE_RESULT d) LT_EYE_RESULT_DONE true |> wrB (LT_EYE_RESULT d) LT_EYE_RESULT_INVALID invalid
    |> wrF (LT_EYE_RESULT d) LT_EYE_RESULT_ERRORS (min 0x3FFFFFFF errors) |> setLtest d { s.ltest d with eye := 0 }

/-- A point that waits begins, unless its lane is being margined. -/
def eyeBegin (d : Die) (s : State) : State :=
  if (s.ltest d).eye ≠ 1 then s
  else if eyeOk s d = false then eyeResult d true 0 s
  else if eyeUnit s d = 0 ∧ (s.ltest d).margin.contains (eyeLane s d) then s
  else setLtest d { s.ltest d with eye := 2 } s

/-- A write of LT_EYE_CTRL. -/
def eyeWrite (f : Fun) (v : Word) (s : State) : State :=
  let d := f.ep
  if (accessRow s f (addrOff (LT_EYE_CTRL d))).isNone then s
  else
    let w := LT_EYE_CTRL_DWELL.put (max 20 (min 40 (LT_EYE_CTRL_DWELL.get v))) (v &&& 0x7FFFFF3F)
    let s1 := wr (LT_EYE_CTRL d) w s
    if LT_EYE_CTRL_GO.get v = 0 then s1 else s1 |> wr (LT_EYE_RESULT d) 0 |> setLtest d { s.ltest d with eye := 1 } |> eyeBegin d

def eyeDone (d : Die) (errors : Nat) (s : State) : State :=
  if (s.ltest d).eye = 2 then (if eyeOk s d then eyeResult d false errors s else eyeResult d true 0 s) else s

/-- A margining command of the host: 0 begins on a lane, 1 ends, 2 asks for the receiver's capabilities. -/
def margining (d : Die) (lane step : Nat) (s : State) : State :=
  let x := s.ltest d
  if 8 ≤ lane then s
  else if step = 0 then setLtest d { x with margin := lane :: x.margin.filter (fun l => l != lane) } s
  else if step = 1 then s |> setLtest d { x with margin := x.margin.filter (fun l => l != lane) } |> eyeBegin d
  else emit (.margin d lane [32, 50, 64, 16]) s

/-- CAM_PORT; disabling a port ends its test (Table 19.2). -/
def opCamPortTest : OpSpec :=
  { opCamPort with work := fun t d s =>
      let (r, s1) := opCamPort.work t d s
      let p := dget d 8 0 8
      (r, if p < 8 ∧ s1.flag (CAM_PORT_CFG (camDie p) (camNo p)) CAM_PORT_CFG_EN = false then ltEnd (camDie p) (5 + camNo p) 1 s1 else s1) }

/-! ## Meanings -/

def execCamPortEnable (q : RingId) (desc : Desc) (s : State) : Host.Outcome State Fault Refusal := run (submit opCamPortTest q desc) s

def execCamPortDisable (q : RingId) (desc : Desc) (s : State) : Host.Outcome State Fault Refusal := run (submit opCamPortTest q desc) s

def execLtStart (f : Fun) (u : Nat) (v : Word) (obs : LtObs) (s : State) : Host.Outcome State Fault Refusal := run (ltCtrlWrite f u v obs) s

def execLtStop (f : Fun) (u : Nat) (v : Word) (obs : LtObs) (s : State) : Host.Outcome State Fault Refusal := run (ltCtrlWrite f u v obs) s

def execLinkTestEnd (d : Die) (u : Nat) (obs : LtObs) (s : State) : Host.Outcome State Fault Refusal := run (ltExpires d u obs) s

def execLtPcieRun (d : Die) (s : State) : Host.Outcome State Fault Refusal := run (pcieRun d) s

def execLtEyeGo (f : Fun) (v : Word) (s : State) : Host.Outcome State Fault Refusal := run (eyeWrite f v) s

def execLtEyeDone (d : Die) (errors : Nat) (s : State) : Host.Outcome State Fault Refusal := run (eyeDone d errors) s

def execLaneMargining (d : Die) (lane step : Nat) (s : State) : Host.Outcome State Fault Refusal := run (margining d lane step) s

def execCheckerLock (d : Die) (u lane : Nat) (lock : Bool) (obs : LtObs) (s : State) : Host.Outcome State Fault Refusal := run (laneLock d u lane lock obs) s

end Sys2Proof.Machine
end

