-- ==== Sys2Proof/Machine/Scheduler.lean ====
section
/-! DEFINITION. The GPU scheduler: shares, effective priority, pre-emption, eviction, deadlines, counters (chapter 10). -/
namespace Sys2Proof.Machine

/-! ## Deadlines (R275–R278) -/

/-- Start of a line of a head, ns: `lines` lines after the last line start, at the pixel clock in force with its trim. -/
def lineTime (s : State) (h : Nat) (lines : Int) : Int :=
  let d := headDie h
  let n := headNo h
  let x := s.head h
  let khz : Int := (HEAD_PCLK_PIXCLK_KHZ.get (s.isl (HEAD_PCLK d n)) : Nat)
  let ppm := sgn 14 (s.rdF (GENLOCK_STATUS d n) GENLOCK_STATUS_TRIM_PPM)
  if khz = 0 then x.lineStart else x.lineStart + lines * x.htotal * 1000000000000 / (khz * (1000000 + ppm))

/-- Deadline instant D of a frame of a head, ns (R275): none while the head does not scan out (notes/assumptions/13.md). -/
def deadlineAt (s : State) (d : Die) (h frame : Nat) : Option Int :=
  let x := s.head h
  if x.phase < 3 then none
  else
    let ahead := sgn 32 ((frame + 2 ^ 32 - s.headFrame h % 2 ^ 32) % 2 ^ 32)
    let line : Int := s.rdF (HEAD_STATUS (headDie h) (headNo h)) HEAD_STATUS_LINE
    let target : Int := if headThrough s h then (x.vtotal : Int) - headLook s h else x.vactive
    let lines := (ahead - 1) * x.vtotal + target - line
    some (lineTime s h lines - 1000 * (s.rdF (GPU_DL_CFG d) GPU_DL_CFG_MARGIN_US : Int))

def jobDeadline (s : State) (d : Die) (j : Job) : Option Int :=
  if j.deadline && dlInForce s d j.ticket.tag j.kind j.desc then deadlineAt s d (dlHead j.kind j.desc) (dlFrame j.kind j.desc) else none

/-- E of a priority and a deadline instant (Table 10.1). -/
def effective (s : State) (d : Die) (prio : Nat) (dl : Option Int) : Nat :=
  match dl with
  | none => prio
  | some t =>
    let lead : Int := 1000 * (max 1 (s.rdF (GPU_DL_CFG d) GPU_DL_CFG_LEAD_US) : Nat)
    let r := t - s.now d
    if lead < r then prio else if r ≤ 0 then 8 else min 15 (max prio (8 + (8 * (lead - r) / lead).toNat))

/-- Jobs that stand behind a job on its ring, up to the first WAIT_VALUE (R277): kind, descriptor, deadline in force. -/
def behind (s : State) (d : Die) (j : Job) : List (Nat × Desc × Bool) :=
  let q := j.ticket.ring
  let kindOf (x : Desc) : Nat := if ringType s q = 1 then 0 else dOpcode x - 0x0F
  let fs := (s.ringAux q).flights.dropWhile (fun f => f.tag != j.ticket.tag)
  let ds := fs.flatMap (fun f => (if f.tag = j.ticket.tag then f.descs.drop f.acted else f.descs).map (fun x => (f.tag, x)))
  ((ds.takeWhile (fun x => dOpcode x.2 != 1)).filter (fun x => decide (0x10 ≤ dOpcode x.2))).map (fun x =>
    let dl := match (s.gpu d).jobs.find? (fun k => k.ticket.tag == x.1) with
      | some k => k.deadline && dlInForce s d x.1 k.kind k.desc
      | none => dlInForce s d x.1 (kindOf x.2) x.2
    (kindOf x.2, x.2, dl))

/-- Effective priority of a job, with what it inherits (R276, R277). -/
def jobE (s : State) (d : Die) (j : Job) : Nat :=
  let prio := s.rdF (RING_CFG j.ticket.ring) RING_CFG_PRIORITY
  let es := (behind s d j).map (fun x => effective s d prio (if x.2.2 then deadlineAt s d (dlHead x.1 x.2.1) (dlFrame x.1 x.2.1) else none))
  es.foldl max (effective s d prio (jobDeadline s d j))

/-- Own E, without inheritance. -/
def ownE (s : State) (d : Die) (j : Job) : Nat :=
  effective s d (s.rdF (RING_CFG j.ticket.ring) RING_CFG_PRIORITY) (jobDeadline s d j)

/-! ## Ranking (R271–R274) -/

def presentClusters (s : State) (d : Die) : List Nat := (upto 8).filter (fun c => unitPresent s.part d (bitCluster c))

/-- The function is below its share in the open window (R273). -/
def belowShare (s : State) (d : Die) (f : Fun) : Bool :=
  decide (tget 0 f.key (s.gpu d).usage * 256 < s.rdF (TENANT_CFG f) TENANT_CFG_GPU_SHARE * 10000000 * (presentClusters s d).length)

/-- a goes before b by the rules of R274; flights are numbered as they are fetched. -/
def ranks (s : State) (d : Die) (a b : Job) : Bool :=
  let ea := jobE s d a
  let eb := jobE s d b
  let ca := classOf s a.fn
  let cb := classOf s b.fn
  let sa := belowShare s d a.fn
  let sb := belowShare s d b.fn
  if ea ≠ eb then decide (eb < ea)
  else if ca ≠ cb then decide (ca < cb)
  else if ea < 8 ∧ sa ≠ sb then sa
  else
    match jobDeadline s d a, jobDeadline s d b with
    | some x, some y => if x ≠ y then decide (x < y) else decide (a.ticket.tag < b.ticket.tag)
    | some _, none => true
    | none, some _ => false
    | none, none => decide (a.ticket.tag < b.ticket.tag)

/-- The first job of a list in rank. -/
def bestJob (s : State) (d : Die) : List Job → Option Job
  | [] => none
  | j :: t =>
    match bestJob s d t with
    | none => some j
    | some k => if ranks s d k j then some k else some j

/-- Equal under rules 1 to 3. -/
def equalRank (s : State) (d : Die) (a b : Job) : Bool :=
  jobE s d a == jobE s d b && classOf s a.fn == classOf s b.fn && (decide (8 ≤ jobE s d a) || belowShare s d a.fn == belowShare s d b.fn)

/-- Jobs that became ready to start join the order of readiness (R271). -/
def refreshReady (d : Die) (s : State) : State :=
  let g := s.gpu d
  let firsts := g.jobs.filter (fun j => (s.job d j.ticket.ring).any (fun k => k.ticket.tag == j.ticket.tag))
  let new := (firsts.map (fun j => j.ticket.tag)).filter (fun t => !g.ready.contains t)
  setGpu d { g with ready := g.ready.filter (fun t => g.jobs.any (fun j => j.ticket.tag == t)) ++ new } s

/-- The job may hold clusters: ready, first of its context, its function neither frozen nor being frozen nor in reset. -/
def mayRun (s : State) (d : Die) (j : Job) : Bool :=
  let g := s.gpu d
  let same := g.ready.filter (fun t => g.jobs.any (fun k => k.ticket.tag == t && k.fn == j.fn && jobCtx k == jobCtx j))
  same.head? == some j.ticket.tag && !flrActive s j.fn && !frozen s j.fn
    && !freezing s j.fn && s.rdF (POWER_STATUS d) POWER_STATUS_STATE == 0

/-- Clusters a job can use. -/
def wants (s : State) (d : Die) (j : Job) : Nat :=
  let n := (presentClusters s d).length
  if j.kind = 0 then n
  else if j.phase = 0 then (if j.kind = 1 then min n (dget j.desc 24 0 32 * dget j.desc 28 0 16 * dget j.desc 30 0 16) else 1)
  else min n j.groups

/-- The cluster is present, in service, not stopped, and no job holds it. -/
def clusterFree (s : State) (d : Die) (c : Nat) : Bool :=
  let k := unitKey d (bitCluster c)
  unitPresent s.part d (bitCluster c) && !s.outOfService.contains k && !unitsStopped s [k] && (clusterJob s d c).isNone

def clusterOn (s : State) (d : Die) (c : Nat) : Bool := nbit (s.rd (UNIT_POWERED d)).toNat (bitCluster c)

/-- Power of a cluster. -/
def powerCluster (d : Die) (c : Nat) (on : Bool) (s : State) : State :=
  s |> setPowered d (bitCluster c) on |> wrB (GPU_CLUSTER d c) GPU_CLUSTER_POWERED on

/-- A job takes a cluster: scrubbed first if its owner changes (R114, R281); a job's first cluster starts it. -/
def giveCluster (d : Die) (c : Nat) (j : Job) (scrubBad : List Nat) (s : State) : State :=
  let g := s.gpu d
  let last := tfind c g.owners
  let change := last.any (fun f => f != j.fn)
  let s1 := if change then pcAdd d 13 1 s else s
  if change ∧ scrubBad.contains c then
    setGpu d { s1.gpu d with owners := tkeep (fun k => k != c) g.owners } s1 |> scrubFault d (bitCluster c) (last.getD j.fn)
  else
    let j1 := { j with clusters := j.clusters ++ [c], sliceFrom := if j.clusters = [] then s.now d else j.sliceFrom }
    let s2 := s1 |> setGpu d { s1.gpu d with owners := tset c j.fn g.owners } |> setJob d j1
    if j.phase = 0 then startJob d j1 s2 else s2

/-- Jobs that can take one more cluster: one pass at a time holds the front end (R274). -/
def takers (s : State) (d : Die) : List Job :=
  let js := (s.gpu d).jobs
  js.filter (fun j => mayRun s d j && j.asked.isNone && decide (j.clusters.length < wants s d j)
    && (j.kind != 0 || js.all (fun k => k.kind != 0 || k.clusters == [] || k.ticket.tag == j.ticket.tag)))

/-- Hand out free clusters by rank; a cluster that is off asks for leave first (R281, R418). -/
def handOut (d : Die) (scrubBad : List Nat) : Nat → State → State
  | 0, s => s
  | n + 1, s =>
    match bestJob s d (takers s d) with
    | none => s
    | some j =>
      let free := (upto 8).filter (clusterFree s d)
      match free.find? (clusterOn s d) with
      | some c => handOut d scrubBad n (giveCluster d c j scrubBad s)
      | none =>
        match free.find? (fun c => hasLeave s d 0 c) with
        | some c => handOut d scrubBad n (s |> useLeave d 0 c |> powerCluster d c true)
        | none =>
          let p := s.permit d
          let quiet := free.filter (fun c => !(p.asks ++ p.waiting).any (fun a => a.kind == 0 && a.unit == c))
          let need := wants s d j - j.clusters.length - (free.length - quiet.length)
          (quiet.take need).foldl (fun t c => askLeave d 0 c (classOf s j.fn == 1) t) s

/-! ## Pre-emption (R279–R283) -/

/-- Ask a running context to give clusters way; an earlier request stands (R279). -/
def askJob (d : Die) (trigger : Nat) (cs : List Nat) (s : State) (j : Job) : State :=
  match (s.gpu d).jobs.find? (fun k => k.ticket.tag == j.ticket.tag) with
  | none => s
  | some k => if k.asked.isSome ∨ k.clusters = [] then s else setJob d { k with asked := some ⟨trigger, s.now d, cs⟩, slow := false } s

/-- Running jobs of lower E, lowest first. -/
def lowerRunning (s : State) (d : Die) (e : Nat) : List Job :=
  (upto e).flatMap (fun k => (s.gpu d).jobs.filter (fun j => j.clusters != [] && jobE s d j == k))

/-- The job waits for clusters: it holds none or, at an E of 8 or more, fewer than it can use. -/
def waits (s : State) (d : Die) (j : Job) : Bool :=
  mayRun s d j && (j.clusters == [] || (decide (8 ≤ jobE s d j ∧ j.clusters.length < wants s d j) && j.asked.isNone))

/-- The waiting job that ranks first asks for what it needs. -/
def askForWaiting (d : Die) (s : State) : State :=
  match bestJob s d ((s.gpu d).jobs.filter (waits s d)) with
  | none => s
  | some w =>
    let e := jobE s d w
    if 8 ≤ e then (lowerRunning s d e).foldl (fun t j => askJob d 1 j.clusters t j) s
    else
      match lowerRunning s d e with
      | [] => s
      | j :: _ => askJob d 2 (if w.kind = 0 ∧ j.kind = 0 then j.clusters else j.clusters.take (wants s d w)) s j

/-- E_RUN and E_WAIT. -/
def refreshE (d : Die) (s : State) : State :=
  let js := (s.gpu d).jobs
  let run := ((js.filter (fun j => j.clusters != [])).map (jobE s d)).foldl max 0
  let wait := ((js.filter (waits s d)).map (jobE s d)).foldl max 0
  s |> wrF (GPU_SCHED_STATUS d) GPU_SCHED_STATUS_E_RUN run |> wrF (GPU_SCHED_STATUS d) GPU_SCHED_STATUS_E_WAIT wait

/-- Where every present cluster is out of service, waiting jobs end (R116). -/
def noCluster (d : Die) (s : State) : State :=
  if (presentClusters s d).all (fun c => s.outOfService.contains (unitKey d (bitCluster c))) then
    ((s.gpu d).jobs.filter (mayRun s d)).foldl (fun t j => endJob d j stEccUncorr 0 t) s
  else s

/-- A clear state in the head or the split cancels deadlines (R278). -/
def cancelGone (d : Die) (s : State) : State :=
  setGpu d { s.gpu d with jobs := (s.gpu d).jobs.map (fun j =>
    { j with deadline := j.deadline && dlInForce s d j.ticket.tag j.kind j.desc }) } s

/-- Clusters set to off when idle, and no job takes (R414). -/
def gateClusters (d : Die) (s : State) : State :=
  ((upto 8).filter (fun c => nbit (s.rd (UNIT_OFF_IDLE d)).toNat (bitCluster c) && clusterOn s d c && (clusterJob s d c).isNone)).foldl
    (fun t c => powerCluster d c false t) s

/-- The scheduler runs (R274, R279). -/
def schedule (d : Die) (scrubBad : List Nat) (s : State) : State :=
  s |> account d |> cancelGone d |> refreshReady d |> noCluster d |> handOut d scrubBad 17 |> gateClusters d |> refreshReady d |> askForWaiting d
    |> refreshGpu d |> refreshE d

/-- Contexts of a function are asked to give way for a freeze (R121, R279). -/
def freezeContexts (d : Die) (f : Fun) (s : State) : State :=
  ((s.gpu d).jobs.filter (fun j => j.fn == f && j.clusters != [])).foldl (fun t j => askJob d 4 j.clusters t j) s

/-- A context has run for SLICE_US while a job of equal rank waits (R279). -/
def slice (d : Die) (q : RingId) (s : State) : State :=
  match s.job d q with
  | none => s
  | some j =>
    let us := s.rdF (GPU_SCHED_CFG d) GPU_SCHED_CFG_SLICE_US
    if us = 0 ∨ j.clusters = [] ∨ s.now d < j.sliceFrom + 1000 * us then s
    else if (s.gpu d).jobs.any (fun w => mayRun s d w && w.clusters == [] && equalRank s d w j) then askJob d 3 j.clusters s j
    else s

/-- A context's record in the store is written: its contents, and which record it is, are free (R272, notes/assumptions/14.md). -/
def saveRecord (d : Die) (s : State) : State :=
  let base := s.rdF (GPU_CTX_STORE d) GPU_CTX_STORE_BASE_2M * 2 ^ 21
  let k := localKey (2 ^ 35 * d.idx + base + 65536 * (s.freeNat 0 % 128))
  let (bs, s1) := freeBytes 65536 (useFree 1 s)
  putChunks [(k, 65536)] bs s1

/-- Owner, head and context bytes of a job in an event. -/
def jobFn (j : Job) : Nat := j.fn.fn + j.fn.ep.idx * 2 ^ 8

/-- A GPU event to PF0 of the die and, if named, to the job's function (R287). -/
def postGpu (d : Die) (typ payload : Nat) (f : Option Fun) (s : State) : State :=
  let s1 := postPf0 d typ d.idx payload s
  match f with
  | some g => post g ⟨typ, d.idx, 1, s1.now d, payload, d⟩ s1
  | none => s1

/-- Table 10.2: 0 draw, 1 tile, 2 workgroup. -/
def boundaryKind (j : Job) : Nat := if j.kind ≠ 0 then 2 else if j.phase = 1 then 0 else 1

/-- A context reaches its boundary: it gives the clusters asked for, is saved if it holds no more, and the incoming job takes
them (R280–R282). -/
def boundary (d : Die) (q : RingId) (scrubBad : List Nat) (s : State) : State :=
  match s.job d q with
  | none => s
  | some j =>
    match j.asked with
    | none => s
    | some a =>
      let us := (s.now d - a.time) / 1000
      let left := j.clusters.filter (fun c => !a.clusters.contains c)
      let pay := boundaryKind j + jobFn j * 2 ^ 8 + us % 2 ^ 32 * 2 ^ 32
      let s1 := s |> account d |> maxF (GPU_SCHED_STATUS d) GPU_SCHED_STATUS_PREEMPT_MAX_US us |> pcAdd d (4 + boundaryKind j) 1
      let s2 := if j.slow then s1 |> pcAdd d 12 1 |> postGpu d 0x0502 pay none else s1
      let s3 := setJob d { j with clusters := left, asked := none, slow := false } s2
      let s4 := if left = [] then saveRecord d s3 else s3
      schedule d scrubBad s4

/-- GRACE_US passes without the boundary (R282, R283). -/
def grace (d : Die) (q : RingId) (abandoned oldest : Nat) (s : State) : State :=
  match s.job d q with
  | none => s
  | some j =>
    let us := max 1 (s.rdF (GPU_SCHED_CFG d) GPU_SCHED_CFG_GRACE_US)
    if j.asked.any (fun a => a.trigger == 1 && decide (a.time + 1000 * us ≤ s.now d)) = false ∨ j.kind = 0 then s
    else if s.flag (RING_CFG q) RING_CFG_EVICTABLE ∧ ownE s d j < 8 then
      let dt := min 0xFF abandoned * 2 ^ 16 + min 0xFFFF oldest
      let pay := jobFn j + jobCtx j * 2 ^ 16 + q.ring * 2 ^ 24 + dt * 2 ^ 32
      s |> pcAdd d 7 1 |> postGpu d 0x0500 pay (some j.fn) |> failJob d j stEvicted dt
    else setJob d { j with slow := true } s

/-! ## Completion (R245, R284) -/

/-- Occlusion counters of a pass: one 8-byte write each (R255). -/
def addQuery (d : Die) (j : Job) (x : Nat × Nat) (s : State) : Option DmaErr × State :=
  let va := fb (passOf j).rpd 32 8 + 8 * (x.1 - 1)
  if x.1 = 0 ∨ 255 < x.1 ∨ fb (passOf j).rpd 32 8 = 0 then (none, s)
  else
    match dmaRead d j.fn j.ticket.ring.ring va 8 12 s with
    | (.error e, s1) => (some e, s1)
    | (.ok bs, s1) => dmaWrite d j.fn j.ticket.ring.ring va (leBytes 8 (ofLe bs + x.2)) s1

/-- A job that has done its work completes: OK, or DEADLINE_MISSED after D (R284). -/
def completeJob (d : Die) (j : Job) (s : State) : State :=
  let p := passOf j
  let s1 := if j.kind = 0 then s |> pcAdd d 0 1 |> passEnded d p.partials (binPeak j) else pcAdd d 1 1 s
  let late (t : Int) : Nat := cdiv (s.now d - t).toNat 1000
  match jobDeadline s d j with
  | some t =>
    let s2 := pcAdd d 2 1 s1
    if t < s.now d then
      let h := dlHead j.kind j.desc
      let past := sgn 32 ((s.headFrame h % 2 ^ 32 + 2 ^ 32 - dlFrame j.kind j.desc) % 2 ^ 32)
      let dt := min 0xFF (past + 1).toNat * 2 ^ 16 + min 0xFFFF (late t)
      let pay := h + jobFn j * 2 ^ 8 + j.ticket.ring.ring * 2 ^ 24 + dlFrame j.kind j.desc * 2 ^ 32 + dt * 2 ^ 64
      s2 |> pcAdd d 3 1 |> postGpu d 0x0501 pay (some j.fn) |> endJob d j stDeadlineMissed dt
    else endJob d j stOk (if j.kind = 0 then passDetail p.partials (binPeak j) else 0) s2
  | none => endJob d j stOk (if j.kind = 0 then passDetail p.partials (binPeak j) else 0) s1

/-- The final render (R266): every tile of the area loaded from its slot or by its load fields, drawn and stored; then the occlusion counters. -/
def finalRender (d : Die) (j : Job) (o : JobObs) (s : State) : State :=
  match collect (takeTile d j) (upto (tileCount j)) s with
  | (.error x, s1) => takeFails d j x s1
  | (.ok tiles, s1) =>
    match tryAll (shaderAccess d j) o.accesses s1 with
    | (some e, s2) => failDma d j e s2
    | (none, s2) =>
      let r := drawTiles j o.frags tiles (passOf j).queries
      match tryAll (storeTile d j) r.1 s2 with
      | (some e, s3) => failDma d j e s3
      | (none, s3) =>
        match tryAll (addQuery d j) r.2 s3 with
        | (some e, s4) => failDma d j e s4
        | (none, s4) => s4 |> pcAdd d 9 (tileCount j) |> completeJob d j

/-- Fragments and waves are counted; fragments in units of 1,024 over all jobs, unless the counters are frozen (R289). -/
def countShaded (d : Die) (o : JobObs) (s : State) : State :=
  let n := (s.gpu d).frags + o.fragments
  let s1 := if s.flag (GPU_PC_CTRL d) GPU_PC_CTRL_FREEZE then s else setGpu d { s.gpu d with frags := n % 1024 } s
  s1 |> pcAdd d 10 (n / 1024) |> pcAdd d 11 o.waves

/-- A pass has rendered its last tile, or a dispatch its last workgroup. Errors of cluster memory count as on-chip SRAM words (R473). -/
def jobEnds (d : Die) (q : RingId) (o : JobObs) (s : State) : State :=
  match s.job d q with
  | none => s
  | some j =>
    if j.clusters = [] ∨ (j.kind = 0 ∧ j.phase ≠ 3) ∨ (j.kind ≠ 0 ∧ j.phase ≠ 1) then s
    else
      let s1 := o.corrected.foldl (fun t x => if x.1 < 8 then t |> satF (GPU_CLUSTER d x.1) GPU_CLUSTER_ECC_CORR x.2 |> rinlarCount d 26 x.2 else t) s
      let s2 := countShaded d o s1
      if o.tileEcc then failJob d j stEccUncorr 0 (rinlarCount d 27 1 s2)
      else if j.kind = 0 then finalRender d j o s2
      else
        match tryAll (shaderAccess d j) o.accesses s2 with
        | (some e, s3) => failDma d j e s3
        | (none, s3) => completeJob d j s3

/-- A function's jobs are dropped without saving (R99, R286); how many contexts they held. -/
def dropJobs (f : Fun) (s : State) : Nat × State :=
  [Die.a, Die.b].foldl (fun (x : Nat × State) d =>
    let g := (account d x.2).gpu d
    let mine := g.jobs.filter (fun j => j.fn == f)
    let s1 := account d x.2 |> setGpu d { g with jobs := g.jobs.filter (fun j => j.fn != f),
                                                  ready := g.ready.filter (fun t => mine.all (fun j => j.ticket.tag != t)) } |> refreshGpu d
    (x.1 + ((mine.filter (fun j => j.phase != 0)).map jobCtx).eraseDups.length, s1)) (0, s)

/-! ## Windows, power, registers -/

/-- A 10 ms window closes (R273). -/
def shareWindow (d : Die) (s : State) : State :=
  let s1 := account d s
  let g := s1.gpu d
  let whole := 10000000 * (presentClusters s d).length
  let s2 := (upto 64).foldl (fun t i =>
    let f : Fun := ⟨if i < 32 then d else d.other, i % 32⟩
    let used := if whole = 0 ∨ t.rdF (GPU_FUNC_USE d i) GPU_FUNC_USE_SHARE = 0 then 0 else min 0xFF (tget 0 f.key g.usage * 256 / whole)
    if t.rdF (GPU_FUNC_USE d i) GPU_FUNC_USE_USED = used then t else wrF (GPU_FUNC_USE d i) GPU_FUNC_USE_USED used t) s1
  setGpu d { s2.gpu d with usage := [] } s2

/-- A cluster has been idle for IDLE_OFF_US (R281). -/
def idleOff (d : Die) (c : Nat) (s : State) : State :=
  if 8 ≤ c ∨ (clusterJob s d c).isSome ∨ s.flag (GPU_POWER_CFG d) GPU_POWER_CFG_KEEP_ON
      ∨ nbit (s.rd (UNIT_KEEP_ON d)).toNat (bitCluster c) then s
  else powerCluster d c false s

def opGpuSample : OpSpec :=
  mkOp 0x60 false (rsv 16 64) noUnits (fun q d _ => andThen (onlyPf0 q) (bad (dget d 8 0 6 != 0) 0x08 8)) notEmpty
   (fun t d s =>
    let e := t.die
    let pcs := ((upto 24).map (fun i => leBytes 4 (s.rd (GPU_PC e i)).toNat)).flatten
    match dmaWrite e t.fn t.ring.ring (dget d 8 0 64) (leBytes 8 (s.now e) ++ pcs ++ List.replicate 24 0) s with
    | (some x, s1) => (some x.completion, s1)
    | (none, s1) => (some (stOk, 0), s1))

/-- A tenant window or the carve-out of a die overlaps a range of its local memory. -/
def rangeTaken (s : State) (d : Die) (base size : Nat) : Bool :=
  let cb := s.rdF (CARVE_BASE d) CARVE_BASE_BASE_2M * 2 ^ 21
  let cz := s.rdF (CARVE_SIZE d) CARVE_SIZE_SIZE_2M * 2 ^ 21
  let hit (b z : Nat) : Bool := decide (z ≠ 0 ∧ b < base + size ∧ base < b + z)
  hit cb cz || s.tenants.any (fun x => (upto 4).any (fun i =>
    let b := dget x.2.grants (24 + 8 * i) 0 32 * 2 ^ 21
    let z := dget x.2.grants (28 + 8 * i) 0 32 * 2 ^ 21
    localDie b == d && hit (localOff b) z))

/-- A write of GPU_CTX_STORE (R272). -/
def ctxStoreWrite (f : Fun) (v : Word) (s : State) : State :=
  let d := f.ep
  let a := GPU_CTX_STORE d
  let base := GPU_CTX_STORE_BASE_2M.get v * 2 ^ 21
  if (accessRow s f (addrOff a)).isNone ∨ s.flag a GPU_CTX_STORE_LOCK then s
  else if GPU_CTX_STORE_LOCK.get v = 0 then wrF a GPU_CTX_STORE_BASE_2M (GPU_CTX_STORE_BASE_2M.get v) s
  else if fitted s d < base + 2 ^ 23 ∨ rangeTaken s d base (2 ^ 23) then s
  else s |> wrF a GPU_CTX_STORE_BASE_2M (GPU_CTX_STORE_BASE_2M.get v) |> wrB a GPU_CTX_STORE_LOCK true

/-- A write of GPU_PC_CTRL (R289). -/
def pcCtrlWrite (f : Fun) (v : Word) (s : State) : State :=
  let d := f.ep
  if (accessRow s f (addrOff (GPU_PC_CTRL d))).isNone then s
  else
    let s1 := wrF (GPU_PC_CTRL d) GPU_PC_CTRL_FREEZE (GPU_PC_CTRL_FREEZE.get v) (account d s)
    if GPU_PC_CTRL_CLEAR.get v = 0 then s1
    else (upto 24).foldl (fun t i => wr (GPU_PC d i) 0 t) (wrF (GPU_SCHED_STATUS d) GPU_SCHED_STATUS_PREEMPT_MAX_US 0 s1)

/-! ## Meanings -/

def execJobDone (d : Die) (q : RingId) (obs : JobObs) (s : State) : Host.Outcome State Fault Refusal := run (jobEnds d q obs) s

def execJobSchedule (d : Die) (scrubBad : List Nat) (s : State) : Host.Outcome State Fault Refusal := run (schedule d scrubBad) s

def execSliceExpiry (d : Die) (q : RingId) (s : State) : Host.Outcome State Fault Refusal := run (slice d q) s

def execPreemptBoundary (d : Die) (q : RingId) (scrubBad : List Nat) (s : State) : Host.Outcome State Fault Refusal := run (boundary d q scrubBad) s

def execGraceExpiry (d : Die) (q : RingId) (abandoned oldestUs : Nat) (s : State) : Host.Outcome State Fault Refusal :=
  run (grace d q abandoned oldestUs) s

def execGpuShareWindow (d : Die) (s : State) : Host.Outcome State Fault Refusal := run (shareWindow d) s

def execClusterIdleOff (d : Die) (c : Nat) (s : State) : Host.Outcome State Fault Refusal := run (idleOff d c) s

def execGpuSample (q : RingId) (desc : Desc) (s : State) : Host.Outcome State Fault Refusal := run (submit opGpuSample q desc) s

def execGpuCtxStoreLock (f : Fun) (v : Word) (s : State) : Host.Outcome State Fault Refusal := run (ctxStoreWrite f v) s

def execGpuPcClear (f : Fun) (v : Word) (s : State) : Host.Outcome State Fault Refusal := run (pcCtrlWrite f v) s

end Sys2Proof.Machine
end

