-- ==== Sys2Proof/Machine/Ebrum.lean ====
section
/-! DEFINITION. The die link, split and rejoin (chapter 18). -/
namespace Sys2Proof.Machine

/-- An event of the link to PF0 of a die, and to its PF1. -/
def postEbrum (d : Die) (typ payload : Nat) (pf1 : Bool) (s : State) : State :=
  let s1 := postPf0 d typ d.idx payload s
  if pf1 then postPf1 d typ d.idx payload s1 else s1

/-! ## Bundles (R441–R446) -/

/-- The set of bundles that carry traffic changed: from now on requests are spread over the new one (R442). -/
def noteSet (before : List Nat) (s : State) : State :=
  if liveBundles s = before then s
  else bothDies.foldl (fun t d => setEbrum d { t.ebrum d with sets := (t.now d, liveBundles t) :: (t.ebrum d).sets } t) s

/-- The state of a bundle, as both dies see it, with BUNDLES_UP. -/
def setBundle (n st : Nat) (s : State) : State :=
  noteSet (liveBundles s) (bothDies.foldl (fun t d => t |> wrF (EBRUM_BUNDLE d n) EBRUM_BUNDLE_STATE st
    |> wrF (EBRUM_STATUS d) EBRUM_STATUS_BUNDLES_UP (setBit (t.rdF (EBRUM_STATUS d) EBRUM_STATUS_BUNDLES_UP) n (st == 0))) s)

/-- Spares in use in the direction that a die receives. -/
def spareField (d : Die) : Fld := if d = .b then EBRUM_BUNDLE_SPARES_AB else EBRUM_BUNDLE_SPARES_BA

/-- EBRUM_LANE, to both dies (R456). -/
def postLane (d : Die) (bundle lane result : Nat) (s : State) : State :=
  let left := 2 - s.rdF (EBRUM_BUNDLE d bundle) (spareField d)
  let pay := bundle + (if d = .b then 0 else 1) * 2 ^ 8 + lane * 2 ^ 16 + left * 2 ^ 24 + result * 2 ^ 32
  bothDies.foldl (fun t e => postEbrum e 0x0B00 pay false t) s

/-- LINK_RETRAIN has the bundle. -/
def inRetrain (s : State) (n : Nat) : Bool := s.ebrums.any (fun e => e.2.retrain.any (fun r => nbit r.2 n))

/-- The main link counts as lost from now (R449): the bundles that were UP retrain by themselves. -/
def loseMain (d : Die) (s : State) : State :=
  if (s.ebrum d).lost.isSome ∨ s.rdF (EBRUM_STATUS d) EBRUM_STATUS_STATE ≠ 0 then s
  else
    let s1 := s |> setEbrum d { s.ebrum d with lost := some (s.now d) } |> wrF (EBRUM_STATUS d) EBRUM_STATUS_STATE 1 |> postEbrum d 0x0B01 0 false
    (upto 4).foldl (fun t n => if bundleState t n = 0 ∨ bundleState t n = 1 then setBundle n 3 t else t) s1

/-- The bundles that are UP, bit n for EBn. -/
def upMask (s : State) : Nat := ((upto 4).map (fun n => if bundleState s n = 0 then 2 ^ n else 0)).sum

def allDown (s : State) : Bool := (upto 4).all (fun n => bundleState s n == 2)

/-- A bundle goes DOWN (R446). -/
def bundleDown (d : Die) (bundle lane : Nat) (s : State) : State :=
  let s1 := s |> setBundle bundle 2 |> postLane d bundle lane 1
  let s2 := bothDies.foldl (fun t e => t |> setEbrum e { t.ebrum e with remaps := tkeep (fun k => k != bundle) (t.ebrum e).remaps }
    |> satF (EBRUM_COUNTS0 e) EBRUM_COUNTS0_BUNDLES_DOWN 1 |> rinlarCount e 39 1) s1
  if allDown s2 then bothDies.foldl (fun t e => loseMain e t) s2 else s2

/-- A remap begins, or, with both spares of the direction in use, the bundle goes DOWN. -/
def beginRemap (d : Die) (bundle lane : Nat) (s : State) : State :=
  if 2 ≤ s.rdF (EBRUM_BUNDLE d bundle) (spareField d) then bundleDown d bundle lane s
  else
    let q := tget [] bundle (s.ebrum .a).remaps
    s |> setBundle bundle 1 |> setEbrum .a { s.ebrum .a with remaps := tset bundle (q ++ [(d, lane)]) (s.ebrum .a).remaps }

/-- A receive lane of a die fails (R445). A failure during a remap of the bundle waits for it; a bundle that trains by itself and has no
spare left is left out (Table 18.5). -/
def laneFail (d : Die) (bundle lane : Nat) (s : State) : State :=
  let s1 := wrF (EBRUM_BUNDLE d bundle) EBRUM_BUNDLE_LAST_FAIL lane s
  if 4 ≤ bundle ∨ 34 ≤ lane then s
  else if bundleState s bundle = 0 then beginRemap d bundle lane s1
  else if bundleState s bundle = 1 then
    setEbrum .a { s1.ebrum .a with remaps := tset bundle (tget [] bundle (s1.ebrum .a).remaps ++ [(d, lane)]) (s1.ebrum .a).remaps } s1
  else if bundleState s bundle = 3 ∧ inRetrain s bundle = false ∧ 2 ≤ s.rdF (EBRUM_BUNDLE d bundle) (spareField d) then bundleDown d bundle lane s1
  else s

/-- The remap in progress completes (Table 18.1): the spare is in use, and the next failing lane follows. -/
def remapDone (bundle : Nat) (s : State) : State :=
  match tget [] bundle (s.ebrum .a).remaps with
  | [] => s
  | (d, lane) :: rest =>
    if bundleState s bundle ≠ 1 then s
    else
      let f := spareField d
      let s1 := bothDies.foldl (fun t e => t |> wrF (EBRUM_BUNDLE e bundle) f (t.rdF (EBRUM_BUNDLE e bundle) f + 1)
        |> satF (EBRUM_COUNTS0 e) EBRUM_COUNTS0_REMAPS 1 |> rinlarCount e 38 1) s
      let s2 := s1 |> setBundle bundle 0 |> setEbrum .a { s1.ebrum .a with remaps := tset bundle [] (s1.ebrum .a).remaps } |> postLane d bundle lane 0
      match rest with
      | [] => s2
      | (e, l) :: more =>
        let s3 := beginRemap e bundle l s2
        if bundleState s3 bundle = 1 then
          setEbrum .a { s3.ebrum .a with remaps := tset bundle ((e, l) :: more) (s3.ebrum .a).remaps } s3
        else s3

/-- A die's forwarded clock of a bundle is lost. EBRUM_LANE then names no lane of its own: the lane is free. -/
def clockGone (d : Die) (bundle : Nat) (s : State) : State :=
  if 4 ≤ bundle ∨ bundleState s bundle = 2 ∨ inRetrain s bundle then s else bundleDown d bundle (s.freeNat 0 % 34) (useFree 1 s)

/-- A bundle has passed its training: a lost main link is back (R449). -/
def linkBack (s : State) : State :=
  bothDies.foldl (fun t d =>
    match (t.ebrum d).lost with
    | none => t
    | some since => t |> setEbrum d { t.ebrum d with lost := none } |> wrF (EBRUM_STATUS d) EBRUM_STATUS_STATE 0
        |> postEbrum d 0x0B01 (1 + min 0xFFFFFFFF ((t.now d - since) / 1000) * 2 ^ 32) false) s

/-- A bundle passes its automatic training and is UP. -/
def mainBack (bundle : Nat) (s : State) : State :=
  if 4 ≤ bundle ∨ bundleState s bundle ≠ 3 ∨ inRetrain s bundle then s else linkBack (setBundle bundle 0 s)

def replay (d : Die) (flits : Nat) (s : State) : State := s |> satF (EBRUM_REPLAYS d) EBRUM_REPLAYS_COUNT flits |> rinlarCount d 62 flits

/-! ## Split (R450, R451) -/

/-- The die's units need the other die for this function's work. -/
def acrossTo (d : Die) (f : Fun) : Bool := f.ep != d

/-- The address leads to the other die's local memory. -/
def addrAcross (s : State) (d : Die) (f : Fun) (va : Nat) : Bool :=
  match walkBoth s d f va false with
  | .ok (_, l) => l.loc && localDie l.addr != d
  | .error _ => false

/-- A layer of a head of the die is fetched across the link. -/
def layerAcross (s : State) (h l : Nat) : Bool :=
  match ((s.head h).layer l).cur with
  | some c => cEn c.desc && (acrossTo (headDie h) c.ticket.fn || addrAcross s (headDie h) c.ticket.fn (cAddr 0 c.desc)
      || (twoPlanes (cFmt c.desc) && addrAcross s (headDie h) c.ticket.fn (cAddr 1 c.desc)))
  | none => false

/-- The layer is switched off (Table 6.5): RELEASED with PEER_LOST where the tenant's ring can be reached, else it is lost. -/
def switchOff (h : Nat) (s : State) (l : Nat) : State :=
  match ((s.head h).layer l).cur with
  | none => s
  | some c =>
    let s1 := setLayer h l { (s.head h).layer l with cur := none, cut := true } s
    let f := if headThrough s h then lastFetched s h l c.ticket.tag (s.headFrame h) else (s.head h).fed
    (if acrossTo (headDie h) c.ticket.fn then s1 |> unowe c.ticket |> loseEvent c.ticket.fn (s.now (headDie h))
     else postLast c.ticket 1 stPeerLost (releaseDetail f l false h) s1) |> refreshLayer h l |> relayAhead h l

/-- At a line start in a split, cross-die layers of the head go off. -/
def splitLayers (h : Nat) (s : State) : State :=
  if s.split then ((upto 16).filter (layerAcross s h)).foldl (switchOff h) s else s

/-- GPU jobs that need both dies. -/
def jobsAcross (s : State) (d : Die) : List Job :=
  (s.gpu d).jobs.filter (fun j => acrossTo d j.fn || (j.kind == 0 && (planesOf (passOf j).rpd).any (fun p => addrAcross s d j.fn p.addr)))

/-- The pending mesh and warp frames of a die that functions of the other endpoint gave; how many. -/
def warpAcross (x : Nat × State) (d : Die) : Nat × State :=
  let w := x.2.warp d
  let fs := w.pendFrames.filter (fun p => acrossTo d p.2.1.fn)
  let s1 := setWarp d { w with pendFrames := w.pendFrames.filter (fun p => !acrossTo d p.2.1.fn) } x.2
  let s2 := fs.foldl (fun t p => t |> unowe p.2.1 |> finish p.2.1 stPeerLost 0) s1
  match w.pendMesh with
  | some (t, _) =>
    if acrossTo d t.fn then
      (x.1 + fs.length + 1, s2 |> setWarp d { s2.warp d with pendMesh := none } |> wrB (WARP_STATUS d) WARP_STATUS_MESH_PENDING false |> postLast t 2 stPeerLost 0)
    else (x.1 + fs.length, s2)
  | none => (x.1 + fs.length, s2)

/-- Work that a split ends with PEER_LOST; how many items (Table 18.3). -/
def dropAcross (s : State) : Nat × State :=
  let jobs := bothDies.flatMap (fun d => (jobsAcross s d).map (fun j => (d, j)))
  let s1 := jobs.foldl (fun t x => failJob x.1 x.2 stPeerLost 0 t) s
  let au := (audioRoutes s1).filter (fun x => acrossTo .a x.2.grantee)
  let bufs := (au.map (fun x => (s1.aroute x.1).bufs.length)).sum
  let s2 := au.foldl (fun t x => audioSilence x.1 (some stPeerLost) t) s1
  let haps := (routesOf s2 5).filter (fun x => acrossTo (hapDie (epUnit x.2.source)) x.2.grantee)
  let plays := haps.flatMap (fun x => (s2.hap (epUnit x.2.source)).plays.map (fun p => p.1))
  let s3 := haps.foldl (fun t x => let c := epUnit x.2.source; setHap c { t.hap c with plays := [] } t |> refreshHap c) s2
  let s4 := plays.foldl (fun t p => finish p stPeerLost 0 t) s3
  let chks := bothDies.flatMap (fun d => ((s4.check d).jobs.filter (fun j => acrossTo d j.ticket.fn)).map (fun j => (d, j)))
  let s5 := chks.foldl (fun t x => endJob_ x.1 x.2 stPeerLost 0 t) s4
  let caps := (routesOf s5 2).filter (fun x => acrossTo (camRouteDie x.2) x.2.grantee)
  let caught := caps.flatMap (fun x =>
    match tfind x.1 s5.captures with
    | some c => (c.posted ++ c.filling.toList).map (fun p => p.1)
    | none => [])
  let s6 := caps.foldl (fun t x =>
    match tfind x.1 t.captures with
    | some c => { t with captures := tset x.1 { c with posted := [], filling := none } t.captures }
    | none => t) s5
  let s7 := caught.foldl (fun t p => finish p stPeerLost 0 t) s6
  let pend := (upto 8).flatMap (fun h => (upto 16).flatMap (fun l =>
    match ((s7.head h).layer l).pend with
    | some c => if acrossTo (headDie h) c.ticket.fn then [(h, l, c.ticket)] else []
    | none => []))
  let s8 := pend.foldl (fun t x => t |> setLayer x.1 x.2.1 { (t.head x.1).layer x.2.1 with pend := none } |> unowe x.2.2 |> finish x.2.2 stPeerLost 0
    |> refreshLayer x.1 x.2.1) s7
  let cols := (upto 8).flatMap (fun h => (upto 16).flatMap (fun l =>
    match ((s8.head h).layer l).pendColour with
    | some c => if acrossTo (headDie h) c.ticket.fn then [(h, l, c.ticket)] else []
    | none => []))
  let s9 := cols.foldl (fun t x => t |> setLayer x.1 x.2.1 { (t.head x.1).layer x.2.1 with pendColour := none } |> finish x.2.2 stPeerLost 0
    |> refreshLayer x.1 x.2.1) s8
  let (m, s10) := bothDies.foldl warpAcross (0, s9)
  (jobs.length + bufs + plays.length + chks.length + caught.length + pend.length + cols.length + m, s10)

/-- Functions of an endpoint. -/
def epFuns (d : Die) : List Fun := (upto 32 ++ [63]).map (fun n => Fun.mk d n)

/-- A die declares a split. -/
def declareSplit (d : Die) (cause : Nat) (s : State) : State :=
  let s1 := { s with split := true }
    |> wrF (EBRUM_STATUS d) EBRUM_STATUS_STATE 2 |> wrF (EBRUM_STATUS d) EBRUM_STATUS_CAUSE cause
    |> satF (EBRUM_COUNTS1 d) EBRUM_COUNTS1_SPLITS 1 |> rinlarCount d 40 1
    |> setEbrum d { s.ebrum d with lost := none, splitDue := none }
  let (n, s2) := dropAcross s1
  let s3 := (epFuns d).foldl (fun t f => wrB (FUNC_STATUS f) FUNC_STATUS_PEER_LOST true t) s2
  s3 |> cancelGone d |> postEbrum d 0x0B02 (cause + min 0xFFFFFFFF n * 2 ^ 32) true

/-- A rejoin in progress ends (R453): both requests complete with PEER_LOST. -/
def rejoinEnds (s : State) : State :=
  bothDies.foldl (fun t d =>
    let t1 := match (t.ebrum d).rejoin with
      | some k => finish k stPeerLost 0 t
      | none => t
    t1 |> setEbrum d { t1.ebrum d with rejoin := none } |> wrF (EBRUM_STATUS d) EBRUM_STATUS_STATE 2
       |> wrB (EBRUM_STATUS d) EBRUM_STATUS_PEER_REJOIN false
       |> postEbrum d 0x0B03 (1 + upMask t * 2 ^ 8) true) s

/-- The cause for which the die declares a split now (Table 18.2). -/
def splitCause (s : State) (d : Die) (o : HealthObs) : Option Nat :=
  let hold := max 1 (s.rdF (EBRUM_CFG d) EBRUM_CFG_MAIN_HOLD_MS)
  if 1000 < o.okLowUs then some 2
  else if 1000 < o.mainUs ∧ 1000 < o.sideUs ∧ o.okLowUs = 0 then some 0
  else if (s.ebrum d).lost.any (fun t => decide (t + hold * 1000000 ≤ s.now d)) ∧ o.sideUs ≤ 1000 then some 1
  else none

/-- A split condition: at once in FULL; else the die first leaves PEARL (R412). -/
def splitNow (d : Die) (cause : Nat) (s : State) : State :=
  if s.rdF (POWER_STATUS d) POWER_STATUS_STATE = 0 then declareSplit d cause s
  else if (s.ebrum d).splitDue.isSome then s
  else setEbrum d { s.ebrum d with splitDue := some cause } s

/-- The check of every 10 µs (R449, R450). -/
def healthCheck (d : Die) (o : HealthObs) (s0 : State) : State :=
  if s0.inReset.contains .ebrum then s0
  else
    let st := s0.rdF (POWER_STATUS d) POWER_STATUS_STATE
    let s := (upto 4).foldl (fun t n => wrF (EBRUM_BUNDLE d n) EBRUM_BUNDLE_EYE_MIN (o.eyes.getD n 0 % 256) t)
      (s0 |> wrB (EBRUM_STATUS d) EBRUM_STATUS_SB_UP (decide (o.sideUs ≤ 1000)) |> wrB (EBRUM_STATUS d) EBRUM_STATUS_PEER_OK (o.okLowUs == 0)
          |> wrB (EBRUM_STATUS d) EBRUM_STATUS_PEER_PEARL (inPearl s0 d.other))
    let gone := st != 2 && st != 3 && (decide (50 ≤ o.mainUs) || allDown s)
    let e := s.rdF (EBRUM_STATUS d) EBRUM_STATUS_STATE
    if e = 5 then
      (if o.okLowUs ≠ 0 then let t := rejoinEnds s; setEbrum d { t.ebrum d with splitDue := some 2 } t
       else if gone then rejoinEnds s else s)
    else if 2 ≤ e then
      (if (s.ebrum d).splitDue = some 2 ∧ 1000 < o.okLowUs ∧ supRuns s d then declareSplit d 2 s else s)
    else
      let s1 := if gone then loseMain d s else s
      match splitCause s1 d o with
      | none => s1
      | some c => if supRuns s1 d then splitNow d c s1 else s1

/-! ## Retraining (R452) -/

def opLinkRetrain : OpSpec :=
  mkOp 0xB0 false ([(8, 4, 4)] ++ rsv 9 64) noUnits
   (fun q d s =>
    let m := dget d 8 0 4
    let named := (upto 4).filter (nbit m)
    firstFail [onlyPf0 q, bad (m == 0) 0x07 8,
      bad (s.ebrums.any (fun e => e.2.retrain.isSome) || named.any (fun n => bothDies.any (fun e => ltRuns s e (9 + n)))) 0x0A 8,
      bad (!s.split && named.any (fun n => bundleState s n != 2)) 0x09 8])
   notEmpty
   (fun t d s =>
    let m := dget d 8 0 4
    let s1 := ((upto 4).filter (nbit m)).foldl (fun u n =>
      bothDies.foldl (fun v e => v |> wrF (LT_STATUS e (9 + n)) LT_STATUS_STATE 2 |> wrB (LT_STATUS e (9 + n)) LT_STATUS_RETRAIN true
        |> wrF (LT_STATUS e (9 + n)) LT_STATUS_START_ERR 0 |> ltClear e (9 + n)) (setBundle n 3 u)) s
    let s2 := setEbrum t.die { s1.ebrum t.die with retrain := some (t, m) } s1
    (none, if s2.split then bothDies.foldl (fun u e => wrF (EBRUM_STATUS e) EBRUM_STATUS_STATE 3 u) s2 else s2))

/-- Training and the test of the named bundles end: those of `passed` trained 32 lanes per direction without error. -/
def retrainDone (d : Die) (passed lanes : Nat) (s : State) : State :=
  match (s.ebrum d).retrain with
  | none => s
  | some (t, m) =>
    let ok (n : Nat) : Bool := nbit passed n
    let named := (upto 4).filter (nbit m)
    let good := (named.map (fun n => if ok n then 2 ^ n else 0)).sum
    let s1 := named.foldl (fun u n =>
      let v := bothDies.foldl (fun v e => v |> wrF (LT_STATUS e (9 + n)) LT_STATUS_STATE 3 |> wrF (LT_STATUS e (9 + n)) LT_STATUS_CAUSE 0
        |> wrF (EBRUM_BUNDLE e n) EBRUM_BUNDLE_SPARES_AB 0 |> wrF (EBRUM_BUNDLE e n) EBRUM_BUNDLE_SPARES_BA 0) u
      setBundle n (if ok n then 0 else 2) v) s
    let s2 := setEbrum d { s1.ebrum d with retrain := none } s1
    let s3 := if s2.split then
        bothDies.foldl (fun u e => wrF (EBRUM_STATUS e) EBRUM_STATUS_STATE
          (if u.rdF (EBRUM_CFG e) EBRUM_CFG_MIN_BUNDLES ≤ named.countP ok then 4 else 2) u) s2
      else if good = 0 then s2 else linkBack s2
    let s4 := finish t stOk (m * 16 + good) s3
    bothDies.foldl (fun u e => postEbrum e 0x0B04 (m + good * 2 ^ 8 + min 0xFFFF lanes * 2 ^ 16) false u) s4

/-! ## Rejoin (R453) -/

/-- Device time of die B against die A, ns. -/
def timeOffset (s : State) : Int := ((s.tbase .b).counter : Int) - (s.tbase .a).counter

/-- Both requests are held: the versions must agree, and the dies begin to rejoin; die B's offset of device time is to be removed by
slewing (Table 18.4). -/
def rejoinBegins (s : State) : State :=
  match (s.ebrum .a).rejoin, (s.ebrum .b).rejoin with
  | some ta, some tb =>
    if (s.boot .a).fwVersion = (s.boot .b).fwVersion then
      bothDies.foldl (fun t d => t |> wrF (EBRUM_STATUS d) EBRUM_STATUS_STATE 5 |> setEbrum d { t.ebrum d with offset := timeOffset s })
        (if timeOffset s = 0 then s else slewBy .b (timeOffset s) s)
    else
      let s1 := s |> setEbrum .a { s.ebrum .a with rejoin := none } |> setEbrum .b { s.ebrum .b with rejoin := none }
        |> wrB (EBRUM_STATUS .a) EBRUM_STATUS_PEER_REJOIN false |> wrB (EBRUM_STATUS .b) EBRUM_STATUS_PEER_REJOIN false
      s1 |> finish ta stInvalidDesc (invalidDetail 0x08 0) |> finish tb stInvalidDesc (invalidDetail 0x08 0)
  | _, _ => s

def opRejoin : OpSpec :=
  mkOp 0xB1 false (rsv 8 64) noUnits
   (fun q _ s => firstFail [onlyPf0 q, bad (!s.split || s.rdF (EBRUM_STATUS q.fn.ep) EBRUM_STATUS_STATE != 4) 0x08 0,
      bad ((s.ebrum q.fn.ep).rejoin.isSome) 0x0A 0])
   notEmpty
   (fun t _ s => (none, s |> setEbrum t.die { s.ebrum t.die with rejoin := some t } |> emit (.sideband t.die 1 1)))

/-- A sideband message arrives. -/
def sideband (d : Die) (m : SbMsg) (s : State) : State :=
  if s.inReset.contains .ebrum then s
  else
    match m with
    | .heartbeat => wrB (EBRUM_STATUS d) EBRUM_STATUS_SB_UP true s
    | .rejoin held =>
      let s1 := wrB (EBRUM_STATUS d) EBRUM_STATUS_PEER_REJOIN held s
      if held then rejoinBegins s1 else s1

def rejoinLate (d : Die) (s : State) : State :=
  match (s.ebrum d).rejoin with
  | none => s
  | some t =>
    if s.rdF (EBRUM_STATUS d) EBRUM_STATUS_STATE = 5 then s
    else s |> setEbrum d { s.ebrum d with rejoin := none } |> emit (.sideband d 1 0) |> finish t stTimeout 0

/-- The dies have rejoined (Table 18.4). The device times are aligned by then: the slew never steps them, so before it has ended the
dies go on rejoining. -/
def rejoined (s : State) : State :=
  if bothDies.any (fun d => s.rdF (EBRUM_STATUS d) EBRUM_STATUS_STATE != 5) ∨ timeOffset s ≠ 0 then s
  else
    let off := (s.ebrum .b).offset
    let s1 := bothDies.foldl (fun t d =>
      let t1 := (epFuns d).foldl (fun u f => wrB (FUNC_STATUS f) FUNC_STATUS_PEER_LOST false u) t
      t1 |> wrF (EBRUM_STATUS d) EBRUM_STATUS_STATE 0 |> wrB (EBRUM_STATUS d) EBRUM_STATUS_PEER_REJOIN false
         |> satF (EBRUM_COUNTS1 d) EBRUM_COUNTS1_REJOINS 1 |> rinlarCount d 41 1) { s with split := false }
    let s2 := bothDies.foldl (fun t d =>
      let t1 := match (s.ebrum d).rejoin with
        | some k => finish k stOk 0 t
        | none => t
      setEbrum d { t1.ebrum d with rejoin := none, splitDue := none } t1) s1
    let s3 := (audioRoutes s2).foldl (fun t x => if acrossTo .a x.2.grantee then setEnv x.1 true t else t) s2
    bothDies.foldl (fun t d => postEbrum d 0x0B03 (upMask s * 2 ^ 8 + unsgn 32 off * 2 ^ 32) true t) s3

/-! ## Meanings -/

def execEbrumFlitReplay (d : Die) (bundle flits : Nat) (s : State) : Host.Outcome State Fault Refusal :=
  run (fun s => if 4 ≤ bundle then s else replay d flits s) s

def execEbrumLaneFail (d : Die) (bundle lane : Nat) (s : State) : Host.Outcome State Fault Refusal := run (laneFail d bundle lane) s

def execEbrumRemapDone (bundle : Nat) (s : State) : Host.Outcome State Fault Refusal := run (remapDone bundle) s

def execEbrumHealthCheck (d : Die) (obs : HealthObs) (s : State) : Host.Outcome State Fault Refusal := run (healthCheck d obs) s

def execEbrumSidebandMsg (d : Die) (msg : SbMsg) (s : State) : Host.Outcome State Fault Refusal := run (sideband d msg) s

def execLinkRetrain (q : RingId) (desc : Desc) (s : State) : Host.Outcome State Fault Refusal := run (submit opLinkRetrain q desc) s

def execLinkRetrainDone (d : Die) (passed lanes : Nat) (s : State) : Host.Outcome State Fault Refusal := run (retrainDone d passed lanes) s

def execRejoin (q : RingId) (desc : Desc) (s : State) : Host.Outcome State Fault Refusal := run (submit opRejoin q desc) s

def execRejoinTimeout (d : Die) (s : State) : Host.Outcome State Fault Refusal := run (rejoinLate d) s

def execRejoinDone (s : State) : Host.Outcome State Fault Refusal := run rejoined s

def execMainLinkBack (bundle : Nat) (s : State) : Host.Outcome State Fault Refusal := run (mainBack bundle) s

def execForwardedClockLoss (d : Die) (bundle : Nat) (s : State) : Host.Outcome State Fault Refusal := run (clockGone d bundle) s

end Sys2Proof.Machine
end

