-- ==== Sys2Proof/Machine/Garnet.lean ====
section
/-! DEFINITION. The Garnet path (chapter 7): link, commands, atlas, windows, slots, renderer, window check, Garnet scan,
SAFE_FAULT_n. -/
namespace Sys2Proof

/-- Whether a LINE, by its record, covers a slot pixel: the manual does not say (notes/assumptions/54.md). -/
opaque Config.lineCovers : List Byte → Nat → Nat → Bool

/-- A plane pixel after the frame tier has lost its contents (R143, R403). -/
opaque Config.lostPixel : Nat → Nat → BitVec 8

end Sys2Proof
namespace Sys2Proof.Machine

def Garnet.empty : Garnet := ⟨false, [], none, none, List.replicate 256 0, [], [], [], [], [], none, [], []⟩
def GScan.empty : GScan := ⟨false, 0, [], none, false, none, [], false, 0⟩
def State.garnet (s : State) (d : Die) : Garnet := tget Garnet.empty d.idx s.garnets
def setGarnet (d : Die) (g : Garnet) (s : State) : State := { s with garnets := tset d.idx g s.garnets }
def Garnet.scan (g : Garnet) (n : Nat) : GScan := tget GScan.empty n g.scans
def setScan (d : Die) (n : Nat) (x : GScan) (s : State) : State := setGarnet d { s.garnet d with scans := tset n x (s.garnet d).scans } s
def setWindow (d : Die) (k : Nat) (x : GWindow) (s : State) : State :=
  setGarnet d { s.garnet d with windows := tset k x (s.garnet d).windows } s

/-! ## Fault causes and SAFE_FAULT_n (R212, R213) -/

/-- Bit of GARNET_FAULT and counter of the Rinlar record of each cause; per-head causes add the local head to the bit. -/
inductive Cause where
  | seqLost
  | linkStale
  | planeStale (n : Nat)
  | mismatch (n : Nat)
  | takeover (n : Nat)
  | init
  | debug
deriving DecidableEq, Repr

def Cause.bit : Cause → Nat
  | .seqLost => 1
  | .linkStale => 2
  | .planeStale n => 4 + n % 4
  | .mismatch n => 8 + n % 4
  | .takeover n => 12 + n % 4
  | .init => 16
  | .debug => 17

/-- Counter of Table 20.3 that a latching advances; INIT and DEBUG have none. -/
def Cause.counter : Cause → Option Nat
  | .seqLost => some 32
  | .linkStale => some 33
  | .planeStale _ => some 34
  | .mismatch _ => some 35
  | .takeover _ => some 36
  | _ => none

/-- Every latched cause of a die, as bits 0–30 of GARNET_FAULT. -/
def causeBits (s : State) (d : Die) : Nat := (s.rd (GARNET_FAULT d)).toNat % 2 ^ 31

/-- SAFE_FAULT_n follows the latched causes; each change is posted. -/
def drivePin (d : Die) (s : State) : State :=
  let on := causeBits s d != 0
  if on = s.flag (GARNET_FAULT d) GARNET_FAULT_ASSERTED then s
  else
    let s1 := wrB (GARNET_FAULT d) GARNET_FAULT_ASSERTED on s
    let s2 := if on then rinlarCount d 37 1 s1 else s1
    postPf1 d 0x0306 d.idx (b2n (!on) + (s2.rd (GARNET_FAULT d)).toNat * 2 ^ 32) s2

/-- Latch a fault cause. -/
def latchCause (d : Die) (c : Cause) (s : State) : State :=
  if nbit (causeBits s d) c.bit then s
  else
    let s1 := wr (GARNET_FAULT d) (BitVec.ofNat 32 (setBit (s.rd (GARNET_FAULT d)).toNat c.bit true)) s
    let s2 := match c.counter with
      | some i => rinlarCount d i 1 s1
      | none => s1
    drivePin d s2

/-- The condition of a latched cause is still present (R213). -/
def causePresent (s : State) (d : Die) : Cause → Bool
  | .seqLost => s.flag (GARNET_LINK_STATUS d) GARNET_LINK_STATUS_RESYNC_WAIT
  | .linkStale => s.flag (GARNET_LINK_STATUS d) GARNET_LINK_STATUS_LINK_STALE
  | .planeStale n => (s.garnet d).unshown.any (fun u => u.wins.any (fun w => w / 8 == n))
  | .mismatch n => ((s.garnet d).scan n).mismatched
  | .takeover n => s.flag (GSCAN_STATUS d n) GSCAN_STATUS_ACTIVE
  | .init => !s.flag (GARNET_STORE d) GARNET_STORE_ATLAS_LOADED
  | .debug => nbit (s.rd (DEBUG_STATUS .a)).toNat 4 || nbit (s.rd (DEBUG_STATUS .b)).toNat 4

def allCauses : List Cause :=
  [.seqLost, .linkStale, .init, .debug] ++ (upto 4).map Cause.planeStale ++ (upto 4).map Cause.mismatch ++ (upto 4).map Cause.takeover

/-- ACK_FAULT clears every latched cause whose condition is gone (R213). -/
def ackFault (d : Die) (s : State) : State :=
  drivePin d (allCauses.foldl (fun t c =>
    if causePresent t d c then t
    else wr (GARNET_FAULT d) (BitVec.ofNat 32 (setBit (t.rd (GARNET_FAULT d)).toNat c.bit false)) t) s)

/-! ## Atlas (R201) -/

def le16 (bs : List Byte) (i : Nat) : Nat := ofLe ((bs.drop i).take 2)
def le32 (bs : List Byte) (i : Nat) : Nat := ofLe ((bs.drop i).take 4)
def byteAt (bs : List Byte) (i : Nat) : Nat := (bs[i]?.getD 0).toNat

def atlasCount (bs : List Byte) : Nat := le16 bs 6
def entryW (bs : List Byte) (e : Nat) : Nat := le16 bs (32 + 8 * e + 4)
def entryH (bs : List Byte) (e : Nat) : Nat := le16 bs (32 + 8 * e + 6)
/-- The plane value that is black whatever the palette (R207). -/
def blackValue : Nat := 256

/-- A pixel of an entry; `bad`: words of the image both copies of which failed. -/
def entryPixel (bs : List Byte) (bad : List Nat) (e x y : Nat) : Nat :=
  let o := le32 bs (32 + 8 * e) + y * entryW bs e + x
  if bad.contains (o / 4) then blackValue else byteAt bs o

/-- The header and the directory of an atlas image are right. -/
def atlasOk (bs : List Byte) : Bool :=
  let n := atlasCount bs
  le32 bs 0 == 0x51584741 && le16 bs 4 == 1 && decide (1 ≤ n ∧ n ≤ 4096) && decide (32 + 8 * n ≤ bs.length)
    && ofLe ((bs.drop 12).take 20) == 0 && le32 bs 8 == crc32c (bs.drop 32)
    && (upto n).all (fun e => decide (1 ≤ entryW bs e ∧ entryW bs e ≤ 512 ∧ 1 ≤ entryH bs e ∧ entryH bs e ≤ 256
                                      ∧ le32 bs (32 + 8 * e) + entryW bs e * entryH bs e ≤ bs.length))

/-- Entries of the loaded atlas. -/
def atlasEntries (s : State) (d : Die) : Nat :=
  match (s.garnet d).atlas with
  | some a => atlasCount a
  | none => 0

/-! ## Records (R200) -/

/-- ARGLEN of an OP; TEXT's follows its COUNT. -/
def argLen (op : Nat) (args : List Byte) : Option Nat :=
  match op with
  | 0 => some 0
  | 1 => some 4
  | 2 => some 12
  | 3 => some (cdiv (4 + 2 * byteAt args 1) 4 * 4)
  | 4 => some 4
  | 5 => some 12
  | 6 => some 12
  | 7 => some 0
  | 8 => some 0
  | 9 => some 0
  | 10 => some 4
  | _ => none

/-- SLOT is what the OP requires. -/
def slotOk (g : Garnet) (op slot : Nat) : Bool :=
  if op = 0 ∨ op = 9 ∨ op = 10 then slot == 0 else if op = 8 then slot == 0xFF else (tfind slot g.slots).isSome

/-- The arguments are in range, and every entry lies in the atlas of n entries. -/
def argsOk (d : Die) (op n : Nat) (a : List Byte) : Bool :=
  match op with
  | 1 => decide (le16 a 0 < n) && byteAt a 3 == 0
  | 2 => decide (1 ≤ byteAt a 4 ∧ byteAt a 4 ≤ 10 ∧ byteAt a 5 < byteAt a 4 ∧ le16 a 6 + 11 < n ∧ byteAt a 9 ≤ 1) && le16 a 10 == 0
  | 3 => decide (byteAt a 1 ≤ 32) && le16 a 2 == 0 && (upto (byteAt a 1)).all (fun i => decide (le16 a (4 + 2 * i) < n))
  | 4 => decide (le16 a 0 ≤ 1000 ∧ byteAt a 2 ≤ 1)
  | 5 => byteAt a 9 == 0 && le16 a 10 == 0
  | 6 => decide (1 ≤ byteAt a 9 ∧ byteAt a 9 ≤ 8) && le16 a 10 == 0
  | 10 => decide (byteAt a 0 < 8 ∧ byteAt a 1 < 8) && dieOf 4 (byteAt a 0) == d && le16 a 2 == 0
  | _ => true

/-- The records of a payload, or the index and the reason of the first faulty one. `fuel` bounds the records. -/
def parseRecords (d : Die) (g : Garnet) (n : Nat) : Nat → Nat → List Byte → Except (Nat × Nat) (List (List Byte))
  | 0, _, _ => .ok []
  | fuel + 1, i, bs =>
    if bs = [] then .ok []
    else
      let op := byteAt bs 0
      let len := le16 bs 2
      let args := (bs.drop 4).take len
      if bs.length < 4 then .error (i, 5)
      else if 10 < op then .error (i, 1)
      else if slotOk g op (byteAt bs 1) = false then .error (i, 2)
      else if bs.length < 4 + len then .error (i, 5)
      else if argLen op args ≠ some len then .error (i, 3)
      else if argsOk d op n args = false then .error (i, 4)
      else
        match parseRecords d g n fuel (i + 1) (bs.drop (4 + len)) with
        | .error e => .error e
        | .ok rs => .ok (bs.take (4 + len) :: rs)

def recOp (r : List Byte) : Nat := byteAt r 0
def recSlot (r : List Byte) : Nat := byteAt r 1
def isDrawing (r : List Byte) : Bool := decide (1 ≤ recOp r ∧ recOp r ≤ 8)

/-- What a drawing record does to the slots: a replacing record starts the content anew, RECT and LINE draw over it. `bad`: words of
the atlas that cannot be read. -/
def applyRecord (bad : List Nat) (slots : Tab GSlot) (r : List Byte) : Tab GSlot :=
  if recOp r = 8 then slots.map (fun x => (x.1, { x.2 with recs := [], bad := [] }))
  else
    match tfind (recSlot r) slots with
    | none => slots
    | some x =>
      tset (recSlot r) (if recOp r = 7 then { x with recs := [], bad := [] }
        else if recOp r = 5 ∨ recOp r = 6 then { x with recs := x.recs ++ [r] } else { x with recs := [r], bad := bad }) slots

/-- Windows that a list of records changes. -/
def touched (slots : Tab GSlot) (rs : List (List Byte)) : List Nat :=
  ((rs.map (fun r =>
    if recOp r = 8 then slots.map (fun x => x.2.win)
    else match tfind (recSlot r) slots with
      | some x => [x.win]
      | none => [])).flatten).eraseDups

/-! ## What a slot shows (Table 7.1) -/

/-- An atlas pixel drawn over a slot pixel. -/
def overPixel (p colour under : Nat) : Nat := if p = 0 then under else if p = 1 then colour else p

/-- Entries laid left to right from column x0. -/
def laidPixel (a : List Byte) (bad : List Nat) (colour under : Nat) (x y : Int) : Int → List Nat → Nat
  | _, [] => under
  | x0, e :: t =>
    let w : Int := entryW a e
    if x0 ≤ x ∧ x < x0 + w then
      (if 0 ≤ y ∧ y < entryH a e then overPixel (entryPixel a bad e (x - x0).toNat y.toNat) colour under else under)
    else laidPixel a bad colour under x y (x0 + w) t

/-- Decimal digits of a number, at least `least` of them. -/
def digitsOf : Nat → Nat → Nat → List Nat
  | 0, _, _ => []
  | fuel + 1, least, v => if v = 0 ∧ least = 0 then [] else digitsOf fuel (least - 1) (v / 10) ++ [v % 10]

/-- The glyphs of a NUMBER: sign, digits, point; "-" in every digit position where the value does not fit. -/
def numberGlyphs (v : Int) (digits decimals base : Nat) : List Nat :=
  let ds := digitsOf 10 (decimals + 1) v.natAbs
  if digits < ds.length ∨ 10 ^ digits ≤ v.natAbs then List.replicate digits (base + 10)
  else
    let gl := ds.map (fun k => base + k)
    (if v < 0 then [base + 10] else []) ++
    (if decimals = 0 then gl else gl.take (gl.length - decimals) ++ [base + 11] ++ gl.drop (gl.length - decimals))

/-- The content of a slot after the frame tier has lost it (R403): no record that a frame can bring. -/
def lostRecord : List Byte := [0xFF]

/-- One record drawn on a slot pixel. Which pixels a LINE covers, and what a lost slot shows, the manual leaves open: they are free. -/
def drawRecord (a : List Byte) (x : GSlot) (px py : Nat) (under : Nat) (r : List Byte) : Nat :=
  let g := r.drop 4
  match recOp r with
  | 1 => laidPixel a x.bad (byteAt g 2) under px py 0 [le16 g 0]
  | 2 =>
    let gl := numberGlyphs (sgn 32 (le32 g 0)) (byteAt g 4) (byteAt g 5) (le16 g 6)
    let total := (gl.map (entryW a)).sum
    laidPixel a x.bad (byteAt g 8) under px py (if byteAt g 9 = 1 then 0 else (x.w : Int) - total) gl
  | 3 => laidPixel a x.bad (byteAt g 0) under px py 0 ((upto (byteAt g 1)).map (fun i => le16 g (4 + 2 * i)))
  | 4 => if (if byteAt g 2 = 0 then px * 1000 < le16 g 0 * x.w else (x.h - 1 - py) * 1000 < le16 g 0 * x.h) then byteAt g 3 else under
  | 5 => if le16 g 0 ≤ px ∧ px < le16 g 0 + le16 g 4 ∧ le16 g 2 ≤ py ∧ py < le16 g 2 + le16 g 6 then byteAt g 8 else under
  | 6 => if Config.lineCovers r px py then byteAt g 8 else under
  | 0xFF => (Config.lostPixel px py).toNat
  | _ => under

/-- The plane value of a window pixel, from the slots that a buffer shows. -/
def planeAt (a : List Byte) (bg : Nat) (slots : Tab GSlot) (px py : Nat) : Nat :=
  match slots.find? (fun x => decide (x.2.x ≤ px ∧ px < x.2.x + x.2.w ∧ x.2.y ≤ py ∧ py < x.2.y + x.2.h)) with
  | none => bg
  | some (_, x) => x.recs.foldl (drawRecord a x (px - x.x) (py - x.y)) bg

/-! ## Palette, blink and the window's pixels (R202, R206, R208) -/

/-- The phases of all blink rates of a device time: one of eight, in steps of half the shortest period. -/
def blinkStep : Nat := 125000000
def blinkPhase (time : Nat) : Nat := time / blinkStep % 8

/-- BLINK of a palette entry is in its off half: ⌊device time ÷ half period⌋ is odd. -/
def blinkOff (entry phase : Nat) : Bool :=
  let k := entry / 2 ^ 30 % 4
  k != 0 && phase / 2 ^ (3 - k) % 2 == 1

/-- 10-bit colour of a plane value (R202). -/
def planeColour (palette : List Nat) (bg phase v : Nat) : Rgb :=
  if v = blackValue then blackRgb
  else
    let e := palette.getD v 0
    let c := if blinkOff e phase then palette.getD bg 0 else e
    ⟨c / 2 ^ 20 % 1024, c / 2 ^ 10 % 1024, c % 1024⟩

/-- Bytes of a sent pixel in a window CRC. -/
def pixelBytes (bpc : Nat) (p : Rgb) : List Byte := [p.r, p.g, p.b].flatMap (leBytes (if bpc = 10 then 2 else 1))

/-- Plane values of a window, row by row. -/
def planeValues (a : List Byte) (w : GWindow) (slots : Tab GSlot) : List Nat :=
  (upto w.h).flatMap (fun py => (upto w.w).map (fun px => planeAt a w.bg slots px py))

/-- CRC-32C of a window's pixels in a blink phase, as stage 12 makes them of the plane. -/
def planeCrc (palette : List Nat) (bg : Nat) (c : HeadColour) (bpc phase : Nat) (vs : List Nat) : Nat :=
  crc32c (vs.flatMap (fun v => pixelBytes bpc (roundedPx c bpc 1023 (planeColour palette bg phase v))))

/-- Bits per component of the port that a head drives (R138). -/
def headBpc (s : State) (h : Nat) : Nat :=
  s.rdF (PORT_CFG (headDie h) (s.rdF (HEAD_CFG (headDie h) (headNo h)) HEAD_CFG_PORT)) PORT_CFG_BPC

/-- The palette that a head shows, and the one that it will show from its next frame start. -/
def Garnet.paletteOn (g : Garnet) (n : Nat) : List Nat := (tfind n g.headPalette).getD (List.replicate 256 0)
def Garnet.paletteNext (g : Garnet) (n : Nat) : List Nat := (tfind n g.newPalette).getD (g.paletteOn n)

/-- The expected values of window k for the slots of a buffer and the head's next palette, one for each blink phase (R208). A pixel drawn
black for want of both copies is one that the check catches: then they are other values than those of the pixels shown
(notes/assumptions/52.md). -/
def expectOf (s : State) (d : Die) (k : Nat) (w : GWindow) (slots : Tab GSlot) : List Nat :=
  let g := s.garnet d
  let h := 4 * d.idx + k / 8
  let vs := planeValues (g.atlas.getD []) w slots
  let off := if vs.contains blackValue then 1 + s.freeNat 0 % (2 ^ 32 - 1) else 0
  (upto 8).map (fun p => (planeCrc (g.paletteNext (k / 8)) w.bg (s.head h).colourNow (headBpc s h) p vs + off) % 2 ^ 32)

/-! ## The link (R193–R198) -/

/-- The link receives: EN is 1, the device is in FULL, and the link island is out of reset with its crossings up (R193, R199). -/
def linkOn (s : State) (d : Die) : Bool :=
  s.flag (GARNET_LINK_CFG d) GARNET_LINK_CFG_EN && s.rdF (POWER_STATUS d) POWER_STATUS_STATE == 0 && !s.inReset.contains .supervisor
    && islandOut s d 29 && (upto 4).all (fun i => xingUp s d (0xC0 + i))

/-- No frame is being received. -/
def noFrame (d : Die) (s : State) : State := setGarnet d { s.garnet d with inFrame := false } s

def queuedFrames (g : Garnet) : Nat := (g.queue.filter (fun j => j.link)).length

/-- QUEUED and BUSY follow the queue. -/
def refreshQueue (d : Die) (s : State) : State :=
  let n := queuedFrames (s.garnet d)
  s |> wrF (GARNET_LINK_STATUS d) GARNET_LINK_STATUS_QUEUED n |> wrB (GARNET_LINK_STATUS d) GARNET_LINK_STATUS_BUSY (decide (4 ≤ n))

/-- The status block of R195. -/
def statusBlock (s : State) (d : Die) : List Byte :=
  let st := GARNET_LINK_STATUS d
  let heads (p : Nat → Bool) : Nat := ((upto 4).map (fun n => if p n then 2 ^ n else 0)).sum
  let flt := (s.rd (GARNET_FAULT d)).toNat
  let took := heads (fun n => s.flag (GSCAN_STATUS d n) GSCAN_STATUS_ACTIVE)
  let mism := heads (fun n => causePresent s d (.mismatch n))
  let stale := (upto 4).any (fun n => (s.garnet d).unshown.any (fun u => u.stale.contains n && u.wins.any (fun w => w / 8 == n)))
  let b1 := b2n (nbit flt 31) + 2 * s.rdF st GARNET_LINK_STATUS_SEQ_LOST + 4 * s.rdF st GARNET_LINK_STATUS_LINK_STALE + 8 * b2n stale
    + 16 * b2n (mism != 0) + 32 * b2n (took != 0) + 64 * s.rdF st GARNET_LINK_STATUS_BUSY + 128 * s.rdF st GARNET_LINK_STATUS_RESYNC_WAIT
  let rep := match (s.garnet d).report with
    | none => 0
    | some (h, w) => ((tfind (8 * (h % 4) + w) (s.garnet d).windows).bind GWindow.crc).getD 0
  let bs := leBytes 1 0x5A ++ leBytes 1 b1 ++ leBytes 2 (s.rdF st GARNET_LINK_STATUS_LAST_SEQ) ++ leBytes 2 (s.rdF (GARNET_LINK_ERR0 d) GARNET_LINK_ERR0_CRC_FAIL)
    ++ leBytes 1 (took + 16 * mism) ++ leBytes 1 0 ++ leBytes 4 rep
  bs ++ leBytes 4 (crc32c bs)

/-- GLINK_CS_n falls: a new frame begins at byte 0; in PEARL it is a wake source (R408). -/
def frameStart (d : Die) (s0 : State) : State :=
  let s := if s0.flag (GARNET_LINK_CFG d) GARNET_LINK_CFG_EN then wakeUp d 4 s0 else s0
  if linkOn s d then
    let b := statusBlock s d
    s |> setGarnet d { s.garnet d with inFrame := true, status := b } |> emit (.miso d b)
  else noFrame d s

def postLink (d : Die) (what last seq : Nat) (s : State) : State := postPf1 d 0x0300 d.idx (what + last * 2 ^ 16 + seq * 2 ^ 32) s

/-- A frame is accepted: SEQ, stale timer, RESYNC (R197, R198). -/
def acceptSeq (d : Die) (seq : Nat) (resync : Bool) (s : State) : State :=
  let st := GARNET_LINK_STATUS d
  let old := s.rdF st GARNET_LINK_STATUS_LAST_SEQ
  let s1 := s |> wrF st GARNET_LINK_STATUS_LAST_SEQ seq |> wrB st GARNET_LINK_STATUS_LINK_STALE false
  if resync then
    s1 |> wrB st GARNET_LINK_STATUS_RESYNC_WAIT false |> wrB st GARNET_LINK_STATUS_SEQ_LOST false |> postLink d 2 old seq
  else s1

/-- Checks 3 and 4 of R196 on a frame that passed 1 and 2, and its acceptance. -/
def frameBody (d : Die) (seq : Nat) (resync : Bool) (payload : List Byte) (s : State) : State :=
  let st := GARNET_LINK_STATUS d
  let last := s.rdF st GARNET_LINK_STATUS_LAST_SEQ
  if resync = false ∧ s.flag st GARNET_LINK_STATUS_RESYNC_WAIT then satF (GARNET_LINK_ERR0 d) GARNET_LINK_ERR0_FORMAT_FAIL 1 s
  else if resync = false ∧ seq = last then satF (GARNET_LINK_ERR2 d) GARNET_LINK_ERR2_DUP 1 s
  else if resync = false ∧ seq ≠ (last + 1) % 2 ^ 16 then
    s |> wrB st GARNET_LINK_STATUS_SEQ_LOST true |> wrB st GARNET_LINK_STATUS_RESYNC_WAIT true |> latchCause d .seqLost |> postLink d 0 last seq
  else
    let g := s.garnet d
    match parseRecords d g (atlasEntries s d) (payload.length + 1) 0 payload with
    | .error (i, why) =>
      s |> acceptSeq d seq resync |> satF (GARNET_LINK_ERR1 d) GARNET_LINK_ERR1_CMD_ERR 1
        |> postPf1 d 0x0301 d.idx (seq + i % 256 * 2 ^ 16 + why * 2 ^ 24)
    | .ok rs =>
      if 4 ≤ queuedFrames g then satF (GARNET_LINK_ERR1 d) GARNET_LINK_ERR1_OVERFLOW 1 s
      else
        let draws := rs.filter isDrawing
        let s1 := acceptSeq d seq resync s
        let s2 := rs.foldl (fun t r =>
          if recOp r = 9 then ackFault d t
          else if recOp r = 10 then setGarnet d { t.garnet d with report := some (byteAt r 4, byteAt r 5) } t
          else t) s1
        if draws = [] then s2
        else
          let g2 := s2.garnet d
          { s2 with nextTag := s2.nextTag + 1 }
            |> setGarnet d { g2 with queue := g2.queue ++ [⟨s2.nextTag, true, seq, draws, [], none⟩],
                                     unshown := g2.unshown ++ [⟨s2.nextTag, seq, touched g2.slots draws, [], []⟩] }
            |> refreshQueue d

/-- GLINK_CS_n rises: the checks of R196 on the bytes clocked. Beyond the status block, 0x00 went out (R195). -/
def frameEnd (d : Die) (bs : List Byte) (s : State) : State :=
  if linkOn s d = false ∨ (s.garnet d).inFrame = false then noFrame d s
  else
    let s0 := noFrame d s
    let s1 := if 16 < bs.length then emit (.miso d (List.replicate (bs.length - 16) 0)) s0 else s0
    let len := le16 bs 4
    if bs.length < 12 + len ∨ le32 bs (8 + len) ≠ crc32c (bs.take (8 + len)) then satF (GARNET_LINK_ERR0 d) GARNET_LINK_ERR0_CRC_FAIL 1 s1
    else if byteAt bs 0 ≠ 0xA5 ∨ byteAt bs 1 ≠ 1 ∨ 1024 < len ∨ len % 4 ≠ 0 ∨ 1 < byteAt bs 6 ∨ byteAt bs 7 ≠ 0 then
      satF (GARNET_LINK_ERR0 d) GARNET_LINK_ERR0_FORMAT_FAIL 1 s1
    else frameBody d (le16 bs 2) (byteAt bs 6 == 1) ((bs.drop 8).take len) s1

/-- A frame that passed checks 1 and 2, with the next SEQ and this one record. -/
def oneRecord (d : Die) (op slot : Nat) (args : List Byte) (s : State) : State :=
  if linkOn s d then
    frameBody d ((s.rdF (GARNET_LINK_STATUS d) GARNET_LINK_STATUS_LAST_SEQ + 1) % 2 ^ 16) false
      (leBytes 1 op ++ leBytes 1 slot ++ leBytes 2 args.length ++ args) s
  else s

/-- A job of the renderer that no link frame brings. -/
def renderLater (d : Die) (j : GJob) (s : State) : State :=
  setGarnet d { s.garnet d with queue := (s.garnet d).queue ++ [{ j with id := s.nextTag }] } { s with nextTag := s.nextTag + 1 }

/-- The link becomes stale (R198). -/
def goStale (d : Die) (s : State) : State :=
  let st := GARNET_LINK_STATUS d
  if s.flag st GARNET_LINK_STATUS_LINK_STALE then s
  else
    let last := s.rdF st GARNET_LINK_STATUS_LAST_SEQ
    let s1 := s |> wrB st GARNET_LINK_STATUS_LINK_STALE true |> latchCause d .linkStale |> postLink d 1 last last
    if s.flag (GARNET_LINK_CFG d) GARNET_LINK_CFG_STALE_BLANK then
      renderLater d ⟨0, false, last, [leBytes 1 8 ++ leBytes 1 0xFF ++ leBytes 2 0], [], none⟩ s1
    else s1

/-- The stale timer expires; it runs in FULL while EN is 1. -/
def staleTimeout (d : Die) (s : State) : State := if linkOn s d then goStale d s else s

/-- EN is 0 while a Garnet window lives on the die: the link is stale. -/
def staleIfOff (d : Die) (s : State) : State :=
  if s.flag (GARNET_LINK_CFG d) GARNET_LINK_CFG_EN = false ∧ (s.garnet d).windows ≠ [] then goStale d s else s

/-- A write of GARNET_LINK_CFG. -/
def linkCfgWrite (f : Fun) (v : Word) (s : State) : State :=
  let d := f.ep
  let a := GARNET_LINK_CFG d
  if (accessRow s f (addrOff a)).isNone then s
  else
    let was := s.flag a GARNET_LINK_CFG_EN
    let s1 := wr a (v &&& 0xE00003FF) s
    let now := s1.flag a GARNET_LINK_CFG_EN
    if was = now then s1
    else
      let s2 := garnetUse d (bitCrc 3) now s1
      if now then wrB (GARNET_LINK_STATUS d) GARNET_LINK_STATUS_RESYNC_WAIT true s2
      else s2 |> noFrame d |> staleIfOff d

/-! ## Renderer (R205–R207) -/

/-- The renderer, unless the supervisor has halted (R435), takes the oldest job whose windows have flipped, and draws; `ecc`: uncorrectable words met, each with whether
both copies failed, the head (0xFF the atlas) and the word offset. -/
def renderStart (d : Die) (ecc : List (Bool × Nat × Nat)) (s : State) : State :=
  let g := s.garnet d
  match g.rendering, g.queue with
  | none, j :: rest =>
    let ws := (touched g.slots j.recs ++ j.wins).eraseDups
    if (s.boot d).halted ∨ ws.any (fun w => (tfind w g.windows).any (fun x => x.back.isSome)) then s
    else
      let copy := s.rdF (GARNET_STORE d) GARNET_STORE_ATLAS_UNITS / 2 * 16384
      let lost := (ecc.filter (fun e => e.1 && e.2.1 == 0xFF)).map (fun e => e.2.2 % copy)
      let s1 := s |> setGarnet d { g with slots := j.recs.foldl (applyRecord lost) g.slots, queue := rest, rendering := some (j, ws) } |> refreshQueue d
      ecc.foldl (fun t e => postPf1 d 0x0307 e.2.1 (b2n e.1 + e.2.2 % 2 ^ 32 * 2 ^ 32) t) s1
  | _, _ => s

/-- Slots of a window. -/
def slotsIn (g : Garnet) (w : Nat) : Tab GSlot := g.slots.filter (fun x => x.2.win == w)

/-- A render completes: back buffers and expected values are ready. A palette draws nothing: it brings expected values for what each
window will show (R202, R208). -/
def renderDone (d : Die) (s : State) : State :=
  match (if (s.boot d).halted then none else (s.garnet d).rendering) with
  | none => s
  | some (j, ws) =>
    let g := s.garnet d
    let s0 := match j.palette with
      | some p => setGarnet d { g with rendering := none, palette := p, newPalette := (upto 4).map (fun n => (n, p)) } s
      | none => setGarnet d { g with rendering := none } s
    let s1 := if j.palette.isSome then
        (s0.garnet d).windows.foldl (fun t x =>
          t |> setWindow d x.1 { x.2 with nextExpect := some (expectOf t d x.1 x.2 (x.2.back.getD x.2.front)) } |> useFree 1) s0
      else
        ws.foldl (fun t w =>
          match tfind w (t.garnet d).windows with
          | none => t
          | some x =>
            let sl := slotsIn (t.garnet d) w
            t |> setWindow d w { x with back := some sl, nextExpect := some (expectOf t d w x sl) } |> useFree 1) s0
    wrF (GARNET_RENDER d) GARNET_RENDER_RENDERS ((s1.rdF (GARNET_RENDER d) GARNET_RENDER_RENDERS + 1) % 2 ^ 16) s1

/-! ## A head's frame start (R202, R203, R205, R210) -/

/-- A change whose windows of head n have flipped, or one more frame start without it. -/
def agedChange (n : Nat) (flipped : List Nat) (u : GChange) : GChange :=
  let ws := u.wins.filter (fun w => !flipped.contains w)
  { u with wins := ws, starts := if ws.any (fun w => w / 8 == n) then tset n (tget 0 n u.starts + 1) u.starts else u.starts }

/-- Windows appear and flip, palettes take effect, and changes not shown by the second frame start are stale. -/
def garnetFrameStart (h : Nat) (s : State) : State :=
  let d := headDie h
  let n := headNo h
  let g := s.garnet d
  let mine (w : Nat) : Bool := w / 8 == n
  let waiting := (g.queue.map (fun j => j.id)) ++ (match g.rendering with
    | some (j, _) => [j.id]
    | none => [])
  let flipped := (g.windows.filter (fun x => mine x.1 && x.2.back.isSome)).map (fun x => x.1)
  let wins := g.windows.map (fun x =>
    if mine x.1 then (x.1, { x.2 with shown := true, front := x.2.back.getD x.2.front, back := none,
                                      expect := x.2.nextExpect.getD x.2.expect, nextExpect := none, acc := crcPreset }) else x)
  let un := g.unshown.map (fun u => agedChange n (if waiting.contains u.id then [] else flipped) u)
  let late := un.filter (fun u => decide (2 ≤ tget 0 n u.starts) && u.wins.any mine && !u.stale.contains n)
  let un1 := (un.map (fun u => if late.contains u then { u with stale := n :: u.stale } else u)).filter (fun u => u.wins != [])
  let s1 := s |> setGarnet d { g with windows := wins, unshown := un1, newPalette := tkeep (fun k => k != n) g.newPalette,
                                      headPalette := match tfind n g.newPalette with
                                        | some p => tset n p g.headPalette
                                        | none => g.headPalette }
              |> wrF (GWIN_MASK d n) GWIN_MASK_LIVE (((wins.filter (fun x => mine x.1)).map (fun x => 2 ^ (x.1 % 8))).sum)
  late.foldl (fun t u => t |> latchCause d (.planeStale n) |> postPf1 d 0x0303 h u.seq) s1

/-- Windows of a mask word. -/
def maskOf (ws : List Nat) : Nat := ((upto 8).map (fun w => if ws.contains w then 2 ^ w else 0)).sum

/-- A frame start of the scan: GWIN_MASK speaks of the frame that ended, blinking of the device time now (R202, R208, R215). -/
def checkFrame (h : Nat) (s : State) : State :=
  let d := headDie h
  let n := headNo h
  let c := (s.garnet d).scan n
  let a := GWIN_MASK d n
  let bad := (upto 8).filter (fun w => c.seen.contains w && nbit (s.rdF a GWIN_MASK_MISMATCH) w)
  s |> wrF a GWIN_MASK_CHECKED (maskOf c.seen) |> wrF a GWIN_MASK_MISMATCH (maskOf bad)
    |> setScan d n { c with seen := [], mismatched := if c.seen = [] then c.mismatched else bad != [], time := s.now d, cut := [] }

/-- The scan's part of a frame start: a whole frame without fault makes CLEAN, and an accepted release gives the port back. A frame of which
a line was not delivered, for the quiet of the pipeline or a fault, is not whole. -/
def scanFrameStart (h : Nat) (s0 : State) : State :=
  let d := headDie h
  let n := headNo h
  let a := GSCAN_STATUS d n
  let s := checkFrame h s0
  let c := (s.garnet d).scan n
  match c.release with
  | some t =>
    s |> setScan d n { c with detector := false, release := none, frames := c.frames + 1, broken := false }
      |> wrB a GSCAN_STATUS_ACTIVE false |> wrB a GSCAN_STATUS_FORCED false
      |> postPf1 d 0x0304 h (s.rdF a GSCAN_STATUS_CAUSE + 256 + s.headFrame h % 2 ^ 32 * 2 ^ 32)
      |> postLast t 2 stOk 0
  | none =>
    let clean := decide (1 ≤ c.frames) && !c.broken && !s.flag (HEAD_STATUS d n) HEAD_STATUS_PLL_LOST
    s |> setScan d n { c with frames := c.frames + 1, detector := c.detector && !clean, broken := false }
      |> (if clean then wrB a GSCAN_STATUS_CLEAN true else id)

/-! ## The overlay (R206) -/

/-- The windows that a head shows. -/
def shownWindows (g : Garnet) (n : Nat) : Tab GWindow := g.windows.filter (fun x => x.1 / 8 == n && x.2.shown)

/-- Stages 10 to 12 of pixel x of line y, which comes from stage 9 as `p` of `top`; `black`: columns whose plane word cannot be read. -/
def overlayPx (s : State) (h y : Nat) (c : HeadColour) (top : Nat) (black : List Nat) (p : Rgb) (x : Nat) : Rgb :=
  let g := s.garnet (headDie h)
  let n := headNo h
  let bpc := headBpc s h
  match (shownWindows g n).find? (fun w => decide (w.2.x ≤ x ∧ x < w.2.x + w.2.w ∧ w.2.y ≤ y ∧ y < w.2.y + w.2.h)) with
  | none => sentPx c bpc top (s.headFrame h) x y p
  | some (_, w) =>
    let v := if black.contains x then blackValue else planeAt (g.atlas.getD []) w.bg w.front (x - w.x) (y - w.y)
    if v = 0 ∧ w.isOpaque = false then roundedPx c bpc top p
    else roundedPx c bpc 1023 (planeColour (g.paletteOn n) w.bg (blinkPhase (g.scan n).time) v)

/-- A line as it leaves stage 12; `wrong` are pixels that a fault changed. -/
def overlaid (s : State) (h y : Nat) (c : HeadColour) (top : Nat) (obs : LineObs) (px : List Rgb) : List Rgb :=
  px.zipIdx.map (fun p =>
    match obs.wrong.find? (fun w => w.1 == p.2) with
    | some (_, r, g, b) => ⟨r, g, b⟩
    | none => overlayPx s h y c top obs.planeBlack p.1 p.2)

/-! ## Window check (R208, R211) -/

/-- The check of one window of a head with its CRC. -/
def checkWindow (h w crc : Nat) (inside : Bool) (s : State) : State :=
  let d := headDie h
  let n := headNo h
  let k := 8 * n + w
  match tfind k (s.garnet d).windows with
  | none => s
  | some x =>
    let c := (s.garnet d).scan n
    let want := x.expect.getD (blinkPhase c.time) 0
    let mis := !inside || crc != want
    let s1 := s |> setWindow d k { x with crc := some crc }
      |> setScan d n { c with seen := w :: c.seen, mismatched := c.mismatched || mis }
      |> wrF (GWIN_CRC d n w) GWIN_CRC_VALUE crc |> wrF (GWIN_EXPECT d n w) GWIN_EXPECT_VALUE want
      |> wrF (GWIN_MASK d n) GWIN_MASK_CHECKED (setBit (s.rdF (GWIN_MASK d n) GWIN_MASK_CHECKED) w true)
      |> wrF (GWIN_MASK d n) GWIN_MASK_MISMATCH (setBit (s.rdF (GWIN_MASK d n) GWIN_MASK_MISMATCH) w mis)
    if mis then s1 |> latchCause d (.mismatch n) |> postPf1 d 0x0302 h (w + s.headFrame h % 2 ^ 32 * 2 ^ 32 + crc * 2 ^ 64 + want * 2 ^ 96) else s1

/-- The scan's own CRC of a window does not match (R211). -/
def shadowFault (h w : Nat) (s : State) : State :=
  let a := GSCAN_STATUS (headDie h) (headNo h)
  if s.flag a GSCAN_STATUS_ACTIVE then s else s |> wrB a GSCAN_STATUS_SHADOW_FAULT true |> postPf1 (headDie h) 0x0305 h w

/-- A window lies wholly in the active area. -/
def windowInside (y : Head) (x : GWindow) : Bool := decide (x.x + x.w ≤ y.hactive ∧ x.y + x.h ≤ y.vactive)

/-- A sent line passes a window: its pixels enter the CRC, and after the last row the check is due unless the takeover cut the window. -/
def windowLine (h c : Nat) (out : List Rgb) (obs : LineObs) (s : State) (k : Nat) : State :=
  let d := headDie h
  match tfind k (s.garnet d).windows with
  | none => s
  | some x =>
    if windowInside (s.head h) x = false ∨ c < x.y ∨ x.y + x.h ≤ c then s
    else
      let acc := crcMore x.acc (((out.drop x.x).take x.w).flatMap (pixelBytes (headBpc s h)))
      let s1 := setWindow d k { x with acc := acc } s
      if c + 1 = x.y + x.h ∧ ((s.garnet d).scan (headNo h)).cut.contains (k % 8) = false then
        let s2 := checkWindow h (k % 8) (crcEnd acc) true s1
        if obs.shadowBad.contains (k % 8) then shadowFault h (k % 8) s2 else s2
      else s1

/-- The checked windows of a head. -/
def checkedWindows (g : Garnet) (n : Nat) : List Nat := ((shownWindows g n).filter (fun x => x.2.check)).map (fun x => x.1)

/-- The windows not wholly inside the active area count as mismatches of the frame; the manual states no CRC for one. -/
def outsideChecks (h : Nat) (s : State) : State :=
  let g := s.garnet (headDie h)
  (checkedWindows g (headNo h)).foldl (fun t k =>
    if (tfind k g.windows).any (windowInside (s.head h)) then t else t |> useFree 1 |> checkWindow h (k % 8) (t.freeNat 0 % 2 ^ 32) false) s

/-- A pixel is black for want of both copies of a plane word (R207); the place of the word in the secure region is not stated. -/
def planeLost (h : Nat) (s : State) (_ : Nat) : State :=
  s |> useFree 1 |> postPf1 (headDie h) 0x0307 h (1 + s.freeNat 0 % 2 ^ 25 * 2 ^ 32)

/-- Line c leaves stage 9 as pixels of a top code under a head colour, or not at all: overlay, port, checks. -/
def garnetLine (h c : Nat) (base : Option (List Rgb × Nat × HeadColour)) (obs : LineObs) (s : State) : State :=
  let s1 := match base with
    | none => setHead h { s.head h with output := [] } s
    | some (px, top, k) =>
      let out := overlaid s h c k top obs px
      let s0 := obs.planeBlack.foldl (planeLost h) (setHead h { s.head h with output := out } s)
      (checkedWindows (s.garnet (headDie h)) (headNo h)).foldl (windowLine h c out obs) s0
  if c = (s.head h).vactive then outsideChecks h s1 else s1

/-- The line of the region that scan-out reads; none while FT_VALID is 0 (R143). -/
def regionLine (s : State) (h c : Nat) : Option FtLine :=
  if s.flag (HEAD_STATUS (headDie h) (headNo h)) HEAD_STATUS_FT_VALID then tfind c (s.head h).ft else none

/-- Pixel i of line c of the region has a bit in one of the words, which are offsets in the frame tier (R142, R145). -/
def hasWord (s : State) (h c : Nat) (words : List Nat) (i : Nat) : Bool :=
  let b := if storeFmt s h = 0 then 3 else 4
  let o := s.rdF (HEAD_FT (headDie h) (headNo h)) HEAD_FT_FT_BASE * 65536 + (c * (s.head h).ftWidth + i) * b
  words.any (fun w => decide (4 * w < o + b ∧ o < 4 * w + 4))

/-- What scan-out sends of the region at line c, as wide as the head, with its top code and the head colour: black where the region has no
line or ends, and in a pixel of an uncorrectable word (R132, R143, R145). -/
def scanBase (s : State) (h c : Nat) (words : List Nat) : List Rgb × Nat × HeadColour :=
  let x := s.head h
  let px := ((regionLine s h c).map (fun l => l.pixels.take x.ftWidth)).getD []
  let px1 := if words = [] then px else px.zipIdx.map (fun p => if hasWord s h c words p.2 then blackRgb else p.1)
  (fitTo x.hactive blackRgb px1, if storeFmt s h = 0 then 255 else 1023, x.colourNow)

/-- A line of the head's own pipeline was not delivered. -/
def breakScan (h : Nat) (s : State) : State :=
  setScan (headDie h) (headNo h) { (s.garnet (headDie h)).scan (headNo h) with broken := true } s

/-- A line start of the scan's own timing, while the pixel PLL of a head that it drives is lost (R209): windows flip at line 0 (R205). -/
def scanOwnLine (h : Nat) (obs : LineObs) (s : State) : State :=
  let d := headDie h
  let n := headNo h
  let x := s.head h
  let now := ((s.garnet d).scan n).line.getD (s.rdF (HEAD_STATUS d n) HEAD_STATUS_LINE)
  let c := if x.vtotal ≤ now + 1 then 0 else now + 1
  let s1 := setScan d n { (s.garnet d).scan n with line := some c, broken := true } s
  let s2 := if c = 0 then s1 |> garnetFrameStart h |> checkFrame h else s1
  garnetLine h c (if c < x.vactive then some (scanBase s2 h c obs.eccUncorr) else none) obs s2

/-- The scan tracks the head's timing again. -/
def scanTracks (h : Nat) (s : State) : State :=
  let c := (s.garnet (headDie h)).scan (headNo h)
  if c.line.isSome then setScan (headDie h) (headNo h) { c with line := none } s else s

/-! ## Garnet scan (R209, R210) -/

/-- The Garnet scan drives the head's port. -/
def takeOver (h cause line : Nat) (s : State) : State :=
  let d := headDie h
  let n := headNo h
  let a := GSCAN_STATUS d n
  let g := s.garnet d
  let c := g.scan n
  if s.flag a GSCAN_STATUS_ACTIVE then
    if cause = 8 then wrB a GSCAN_STATUS_FORCED true s
    else s |> setScan d n { c with detector := true, frames := 0, broken := true } |> wrB a GSCAN_STATUS_CLEAN false
  else
    let cut := (g.windows.filter (fun x => x.1 / 8 == n && decide (x.2.y ≤ line ∧ line < x.2.y + x.2.h))).map (fun x => x.1 % 8)
    s |> setScan d n { c with detector := cause != 8, frames := if cause = 8 then c.frames else 0, broken := c.broken || cause != 8, cut := cut }
      |> wrB a GSCAN_STATUS_ACTIVE true |> wrB a GSCAN_STATUS_FORCED (cause == 8) |> (if cause = 8 then id else wrB a GSCAN_STATUS_CLEAN false)
      |> wrF a GSCAN_STATUS_CAUSE cause |> satF a GSCAN_STATUS_TAKEOVERS 1
      |> (if s.flag (GARNET_LINK_CFG d) GARNET_LINK_CFG_TAKEOVER_FAULT then latchCause d (.takeover n) else id)
      |> postPf1 d 0x0304 h (cause + line % 2 ^ 16 * 2 ^ 16 + s.headFrame h % 2 ^ 32 * 2 ^ 32)

/-- The composer's heartbeat for a head is absent: the detector fires, and the takeover follows. -/
def heartbeatLost (h : Nat) (s : State) : State :=
  let d := headDie h
  let n := headNo h
  if 8 ≤ h ∨ (s.head h).phase < 3 then s
  else
    s |> setScan d n { (s.garnet d).scan n with detector := true, frames := 0, broken := true } |> wrB (GSCAN_STATUS d n) GSCAN_STATUS_CLEAN false

/-- A detector of Table 7.3 fires on a running head. -/
def detectorFires (h cause line : Nat) (s : State) : State :=
  if 8 ≤ h ∨ cause = 0 ∨ 7 < cause ∨ (s.head h).phase < 3 then s else takeOver h cause line (if cause = 4 then rinlarCount (headDie h) 27 1 s else s)

/-! ## SETUP opcodes (R201–R204, R210) -/

def secureUnits (s : State) (d : Die) : Nat := s.rdF (FT_SECURE_SIZE d) FT_SECURE_SIZE_SIZE_64K

def opGarnetAtlas : OpSpec :=
  mkOp 0x40 false (rsv 20 64) noUnits
   (fun q d s => firstFail [onlyPf1 q, bad (decide (0x100000 < dget d 16 0 32)) 0x08 16, bad ((s.garnet q.fn.ep).windows != []) 0x08 8])
   (fun d _ => dget d 16 0 32 == 0)
   (fun t d s =>
    let e := t.die
    let len := dget d 16 0 32
    match dmaRead e t.fn t.ring.ring (dget d 8 0 64) len 1 s with
    | (.error x, s1) => (some x.completion, s1)
    | (.ok bs, s1) =>
      let units := 2 * cdiv len 65536
      if atlasOk bs = false then (invalid 0x08 8, s1)
      else if secureUnits s1 e < units then (invalid 0x0B 16, s1)
      else
        (some (stOk, 0), s1 |> setGarnet e { s1.garnet e with atlas := some bs } |> wrB (GARNET_STORE e) GARNET_STORE_ATLAS_LOADED true
          |> wrF (GARNET_STORE e) GARNET_STORE_ATLAS_UNITS units))

def opGarnetPalette : OpSpec :=
  mkOp 0x41 false (rsv 16 64) noUnits (fun q _ _ => onlyPf1 q) notEmpty
   (fun t d s =>
    match dmaRead t.die t.fn t.ring.ring (dget d 8 0 64) 1024 1 s with
    | (.error x, s1) => (some x.completion, s1)
    | (.ok bs, s1) =>
      (some (stOk, 0), renderLater t.die ⟨0, false, 0, [], [], some (tableOf bs 256 4)⟩ s1))

/-- The palette that the newest command set. -/
def lastPalette (g : Garnet) : List Nat :=
  (((g.rendering.map (fun x => x.1)).toList ++ g.queue).filterMap (fun j => j.palette)).getLast?.getD g.palette

/-- A handle of a die's range that is free; which one is open, so a free value chooses where the search starts. -/
def pickHandle (s : State) (d : Die) : Nat :=
  let base := if d = .a then 0x0001 else 0x8000
  let size := if d = .a then 0x7FFF else 0x7FFF
  let st := s.freeNat 0 % size
  ((upto 4097).find? (fun i => (s.route (base + (st + i) % size)).isNone)).elim base (fun i => base + (st + i) % size)

/-- Live routes of a die (R19). -/
def routesLive (s : State) (d : Die) : Nat := (s.routes.filter (fun x => handleDie x.1 == d)).length

/-- Two rectangles overlap. -/
def rectsMeet (x y w h x' y' w' h' : Nat) : Bool := overlap x w x' w' && overlap y h y' h'

def opGarnetWindow : OpSpec :=
  mkOp 0x42 false ((10, 2, 6) :: rsv 20 64) noUnits
   (fun q d s =>
    let e := q.fn.ep
    let g := s.garnet e
    let w := dget d 16 0 16
    let h := dget d 18 0 16
    let key := 8 * (dget d 8 0 8 % 4) + dget d 9 0 8
    let units := cdiv (4 * w * h) 65536
    firstFail [onlyPf1 q, bad (decide (7 < dget d 8 0 8)) 0x08 8, bad (decide (7 < dget d 9 0 8)) 0x08 9, bad (dget d 10 0 1 == 1 && dget d 10 1 1 == 0) 0x08 10,
      bad (decide (2 ^ 30 ≤ ((lastPalette g)[dget d 11 0 8]?).getD 0)) 0x08 11,
      bad (decide (w < 16 ∨ 1024 < w)) 0x08 16, bad (decide (h < 16 ∨ 512 < h)) 0x08 18,
      onDie q 4 (dget d 8 0 8) 8, bad ((tfind key g.windows).isSome) 0x09 9,
      bad (g.windows.any (fun x => x.1 / 8 == key / 8 && rectsMeet (dget d 12 0 16) (dget d 14 0 16) w h x.2.x x.2.y x.2.w x.2.h)) 0x09 12,
      bad (decide (524288 < s.rdF (GARNET_PIXELS e) GARNET_PIXELS_PIXELS + w * h)) 0x0B 16,
      bad (decide (secureUnits s e < s.rdF (GARNET_STORE e) GARNET_STORE_ATLAS_UNITS + s.rdF (GARNET_STORE e) GARNET_STORE_PLANE_UNITS + units)) 0x0B 16,
      bad (decide (4096 ≤ routesLive s e)) 0x0B 0])
   notEmpty
   (fun t d s =>
    let e := t.die
    let hn := dget d 8 0 8 % 4
    let wn := dget d 9 0 8
    let w := dget d 16 0 16
    let h := dget d 18 0 16
    let hd := pickHandle s e
    let x0 : GWindow := ⟨hd, dget d 10 0 1 == 1, dget d 10 1 1 == 1, dget d 11 0 8, dget d 12 0 16, dget d 14 0 16, w, h, cdiv (4 * w * h) 65536,
      false, [], none, [], none, crcPreset, none⟩
    let x : GWindow := { x0 with expect := expectOf s e (8 * hn + wn) x0 [] }
    let r : Route := ⟨8, 0, pf1 e, pf1 e, 0, BitVec.ofNat 64 (1 + dget d 8 0 8 * 2 ^ 8 + wn * 2 ^ 16), 0, none⟩
    let g := s.garnet e
    (some (stOk, hd), sRouteComes e s |> (fun u => { u with routes := tset hd r u.routes }) |> useFree 1 |> setGarnet e { g with windows := tset (8 * hn + wn) x g.windows }
      |> wrF (GARNET_PIXELS e) GARNET_PIXELS_PIXELS (s.rdF (GARNET_PIXELS e) GARNET_PIXELS_PIXELS + w * h)
      |> wrF (GARNET_STORE e) GARNET_STORE_PLANE_UNITS (s.rdF (GARNET_STORE e) GARNET_STORE_PLANE_UNITS + x.units)
      |> garnetUse e (bitHead hn) true |> garnetUse e bitComposer true |> staleIfOff e))

/-- A Garnet window goes, with its slots: at the head's frame start, or at once while the head is disabled (R203). -/
def removeWindow (d : Die) (handle : Nat) (s : State) : State :=
  let g := s.garnet d
  match g.windows.find? (fun x => x.2.handle == handle) with
  | none => s
  | some (k, x) =>
    let wins := tkeep (fun j => j != k) g.windows
    let un := (g.unshown.map (fun u => { u with wins := u.wins.filter (fun j => j != k) })).filter (fun u => u.wins != [])
    s |> setGarnet d { g with windows := wins, slots := g.slots.filter (fun y => y.2.win != k), unshown := un }
      |> wrF (GARNET_PIXELS d) GARNET_PIXELS_PIXELS (s.rdF (GARNET_PIXELS d) GARNET_PIXELS_PIXELS - x.w * x.h)
      |> wrF (GARNET_STORE d) GARNET_STORE_PLANE_UNITS (s.rdF (GARNET_STORE d) GARNET_STORE_PLANE_UNITS - x.units)
      |> (fun t => wrF (GWIN_MASK d (k / 8)) GWIN_MASK_LIVE (setBit (t.rdF (GWIN_MASK d (k / 8)) GWIN_MASK_LIVE) (k % 8) false) t)
      |> (fun t => wrF (GWIN_MASK d (k / 8)) GWIN_MASK_MISMATCH (setBit (t.rdF (GWIN_MASK d (k / 8)) GWIN_MASK_MISMATCH) (k % 8) false) t)
      |> garnetUse d (bitHead (k / 8)) false |> garnetUse d bitComposer false

/-- The live Garnet window of a handle. -/
def windowOf (g : Garnet) (handle : Nat) : Option (Nat × GWindow) := g.windows.find? (fun x => x.2.handle == handle)

def opGarnetSlot : OpSpec :=
  mkOp 0x43 false ((9, 0, 8) :: rsv 20 64) noUnits
   (fun q d s =>
    let g := s.garnet q.fn.ep
    let sl := dget d 8 0 8
    let (x, y, w, h) := (dget d 12 0 16, dget d 14 0 16, dget d 16 0 16, dget d 18 0 16)
    firstFail [onlyPf1 q,
      (match windowOf g (dget d 10 0 16) with
       | none => some (stNoRoute, 0)
       | some (k, win) => firstFail [bad (decide (63 < sl)) 0x08 8,
          (if w = 0 ∧ h = 0 then none else firstFail [
            bad (w == 0) 0x08 16, bad (h == 0) 0x08 18, bad (decide (win.w < x + w)) 0x08 12, bad (decide (win.h < y + h)) 0x08 14,
            bad (g.slots.any (fun o => o.1 != sl && o.2.win == k && rectsMeet x y w h o.2.x o.2.y o.2.w o.2.h)) 0x08 12])])])
   notEmpty
   (fun t d s =>
    let e := t.die
    let g := s.garnet e
    let sl := dget d 8 0 8
    let old := match tfind sl g.slots with
      | some o => [o.win]
      | none => []
    let rest := tkeep (fun k => k != sl) g.slots
    let k := match windowOf g (dget d 10 0 16) with
      | some x => x.1
      | none => 0
    let slots := if dget d 16 0 16 = 0 then rest else tset sl ⟨k, dget d 12 0 16, dget d 14 0 16, dget d 16 0 16, dget d 18 0 16, [], []⟩ rest
    (some (stOk, 0), s |> setGarnet e { g with slots := slots } |> renderLater e ⟨0, false, 0, [], (old ++ [k]).eraseDups, none⟩))

def opGarnetScan : OpSpec :=
  mkOp 0x44 false (rsv 10 64) noUnits
   (fun q d s =>
    let h := dget d 8 0 8
    let a := GSCAN_STATUS q.fn.ep (headNo h)
    let c := (s.garnet q.fn.ep).scan (headNo h)
    firstFail [onlyPf1 q, onDie q 4 h 8, bad (decide (1 < dget d 9 0 8)) 0x08 9,
      bad (dget d 9 0 8 == 0 && (!s.flag a GSCAN_STATUS_ACTIVE || !s.flag a GSCAN_STATUS_CLEAN || c.detector || c.release.isSome)) 0x08 9])
   notEmpty
   (fun t d s =>
    let h := dget d 8 0 8
    let n := headNo h
    if dget d 9 0 8 = 1 then (some (stOk, 0), takeOver h 8 (s.rdF (HEAD_STATUS t.die n) HEAD_STATUS_LINE) s)
    else
      (some (stOk, 0), s |> owe t |> setScan t.die n { (s.garnet t.die).scan n with release := some t }))

/-- The frame tier loses its contents on the way to PEARL (R143, R403): the atlas is gone, and with it what slots and windows show. -/
def garnetLost (d : Die) (s : State) : State :=
  let g := s.garnet d
  s |> setGarnet d { g with atlas := none, slots := g.slots.map (fun x => (x.1, { x.2 with recs := [lostRecord] })),
                            windows := g.windows.map (fun x => (x.1, { x.2 with back := none, front := [(0, ⟨x.1, 0, 0, x.2.w, x.2.h, [lostRecord], []⟩)] })) }
    |> wrB (GARNET_STORE d) GARNET_STORE_ATLAS_LOADED false |> wrF (GARNET_STORE d) GARNET_STORE_ATLAS_UNITS 0

/-! ## Meanings -/

def execGlinkFrameStart (d : Die) (s : State) : Host.Outcome State Fault Refusal := run (frameStart d) s

def execGlinkFrameEnd (d : Die) (bytes : List Byte) (s : State) : Host.Outcome State Fault Refusal := run (frameEnd d bytes) s

def execGarnetNop (d : Die) (slot : Nat) (s : State) : Host.Outcome State Fault Refusal := run (oneRecord d 0 slot []) s

def execIcon (d : Die) (slot entry colour : Nat) (s : State) : Host.Outcome State Fault Refusal :=
  run (oneRecord d 1 slot (leBytes 2 entry ++ leBytes 1 colour ++ leBytes 1 0)) s

def execNumber (d : Die) (slot : Nat) (value : Int) (digits decimals glyphBase colour align : Nat) (s : State) :
    Host.Outcome State Fault Refusal :=
  run (oneRecord d 2 slot (leBytes 4 (unsgn 32 value) ++ leBytes 1 digits ++ leBytes 1 decimals ++ leBytes 2 glyphBase ++ leBytes 1 colour
    ++ leBytes 1 align ++ leBytes 2 0)) s

def execText (d : Die) (slot colour : Nat) (entries : List Nat) (s : State) : Host.Outcome State Fault Refusal :=
  let bs := leBytes 1 colour ++ leBytes 1 entries.length ++ leBytes 2 0 ++ (entries.map (leBytes 2)).flatten
  run (oneRecord d 3 slot (bs ++ List.replicate (cdiv bs.length 4 * 4 - bs.length) 0)) s

def execBar (d : Die) (slot fill dir colour : Nat) (s : State) : Host.Outcome State Fault Refusal :=
  run (oneRecord d 4 slot (leBytes 2 fill ++ leBytes 1 dir ++ leBytes 1 colour)) s

def execRect (d : Die) (slot x y w h colour : Nat) (s : State) : Host.Outcome State Fault Refusal :=
  run (oneRecord d 5 slot (leBytes 2 x ++ leBytes 2 y ++ leBytes 2 w ++ leBytes 2 h ++ leBytes 1 colour ++ leBytes 3 0)) s

def execLine (d : Die) (slot x0 y0 x1 y1 colour width : Nat) (s : State) : Host.Outcome State Fault Refusal :=
  run (oneRecord d 6 slot (leBytes 2 x0 ++ leBytes 2 y0 ++ leBytes 2 x1 ++ leBytes 2 y1 ++ leBytes 1 colour ++ leBytes 1 width ++ leBytes 2 0)) s

def execClear (d : Die) (slot : Nat) (s : State) : Host.Outcome State Fault Refusal := run (oneRecord d 7 slot []) s

def execClearAll (d : Die) (slot : Nat) (s : State) : Host.Outcome State Fault Refusal := run (oneRecord d 8 slot []) s

def execAckFault (d : Die) (slot : Nat) (s : State) : Host.Outcome State Fault Refusal := run (oneRecord d 9 slot []) s

def execReport (d : Die) (slot head window : Nat) (s : State) : Host.Outcome State Fault Refusal :=
  run (oneRecord d 10 slot (leBytes 1 head ++ leBytes 1 window ++ leBytes 2 0)) s

def execGarnetRender (d : Die) (ecc : List (Bool × Nat × Nat)) (s : State) : Host.Outcome State Fault Refusal := run (renderStart d ecc) s

def execGarnetRenderDone (d : Die) (s : State) : Host.Outcome State Fault Refusal := run (renderDone d) s

def execGlinkStaleTimeout (d : Die) (s : State) : Host.Outcome State Fault Refusal := run (staleTimeout d) s

def execGarnetLinkEnWrite (f : Fun) (v : Word) (s : State) : Host.Outcome State Fault Refusal := run (linkCfgWrite f v) s

def execGarnetAtlas (q : RingId) (desc : Desc) (s : State) : Host.Outcome State Fault Refusal := run (submit opGarnetAtlas q desc) s

def execGarnetPalette (q : RingId) (desc : Desc) (s : State) : Host.Outcome State Fault Refusal := run (submit opGarnetPalette q desc) s

def execGarnetWindow (q : RingId) (desc : Desc) (s : State) : Host.Outcome State Fault Refusal := run (submit opGarnetWindow q desc) s

def execGarnetSlot (q : RingId) (desc : Desc) (s : State) : Host.Outcome State Fault Refusal := run (submit opGarnetSlot q desc) s

def execGarnetScanForce (q : RingId) (desc : Desc) (s : State) : Host.Outcome State Fault Refusal := run (submit opGarnetScan q desc) s

def execGarnetScanRelease (q : RingId) (desc : Desc) (s : State) : Host.Outcome State Fault Refusal := run (submit opGarnetScan q desc) s

def execComposerHeartbeatTimeout (h : Nat) (s : State) : Host.Outcome State Fault Refusal := run (heartbeatLost h) s

def execGarnetTakeover (h cause line : Nat) (s : State) : Host.Outcome State Fault Refusal := run (detectorFires h cause line) s

end Sys2Proof.Machine
end

