-- ==== Sys2Proof/Machine/Permit.lean ====
section
/-! DEFINITION. The permit arbiter (16.8). -/
namespace Sys2Proof.Machine

/-- Step, rail and deadline flag of a kind. -/
def stepOf (s : State) (d : Die) (k : Nat) : Nat := max 1 (s.rdF (PERMIT_KIND d k) PERMIT_KIND_STEP_MA)
def railOf (s : State) (d : Die) (k : Nat) : Nat := s.rdF (PERMIT_KIND d k) PERMIT_KIND_RAIL
def deadlineKind (s : State) (d : Die) (k : Nat) : Bool := s.flag (PERMIT_KIND d k) PERMIT_KIND_DEADLINE

/-- Sum of the held steps of a rail, deadline kinds or the others. -/
def heldSum (s : State) (d : Die) (r : Nat) (dl : Bool) : Nat :=
  (((s.permit d).held.filter (fun h => railOf s d h.1 == r && deadlineKind s d h.1 == dl)).map (fun h => h.2)).sum

/-- What the rail would carry with a request's step, and its limit (R416). -/
def fitsWith (s : State) (d : Die) (k gd gn : Nat) : Bool :=
  let r := railOf s d k
  let b := max 1 (s.rdF (PERMIT_RAIL d r) PERMIT_RAIL_BUDGET_MA)
  let v := s.rdF (PERMIT_RAIL d r) PERMIT_RAIL_RESERVED_MA
  if deadlineKind s d k then decide (gn + gd + stepOf s d k ≤ b) else decide (gn + max gd v + stepOf s d k ≤ b)

def fits (s : State) (d : Die) (k : Nat) : Bool :=
  let r := railOf s d k
  fitsWith s d k (heldSum s d r true) (heldSum s d r false)

/-- The step exceeds its limit even when nothing is held. -/
def oversize (s : State) (d : Die) (k : Nat) : Bool := !fitsWith s d k 0 0

def railIdle (s : State) (d : Die) (r : Nat) : Bool := decide (heldSum s d r true + heldSum s d r false = 0)

/-- The request has waited AGE_US or longer. -/
def agedNow (s : State) (d : Die) (a : Ask) : Bool :=
  a.aged || decide (a.since + 1000 * max 1 (s.rdF (PERMIT_CFG d) PERMIT_CFG_AGE_US) ≤ s.now d)

/-- A cluster activation that waits only for the gap (R418). -/
def inGap (s : State) (d : Die) (a : Ask) : Bool :=
  a.kind == 0 && (s.permit d).lastCluster.any (fun t => decide (s.now d < t + 1000 * max 1 (s.rdF (PERMIT_CFG d) PERMIT_CFG_CLUSTER_GAP_US)))

/-- Place in the order of R417. -/
def askRank (s : State) (d : Die) (a : Ask) : Nat :=
  if agedNow s d a then 0 else 1 + (if deadlineKind s d a.kind then 0 else 2) + (if a.jade then 0 else 1)

/-- The requests that wait on a rail, in order. -/
def railOrder (s : State) (d : Die) (r : Nat) : List Ask :=
  let ws := (s.permit d).waiting.filter (fun a => railOf s d a.kind == r)
  (upto 5).flatMap (fun k => ws.filter (fun a => askRank s d a == k))

/-- The first request of an order that is granted now. -/
def grantable (s : State) (d : Die) (r : Nat) : Bool → List Ask → Option Ask
  | _, [] => none
  | front, a :: t =>
    let large := oversize s d a.kind
    if (large && railIdle s d r) || fits s d a.kind then
      (if inGap s d a then grantable s d r front t else some a)
    else if large && front then none
    else if agedNow s d a then none
    else grantable s d r false t

/-- Status registers of the rails. -/
def refreshPermit (d : Die) (s : State) : State :=
  (upto 4).foldl (fun t r =>
    let ws := (t.permit d).waiting.filter (fun a => railOf t d a.kind == r)
    let g := PERMIT_RAIL_STATUS d r
    t |> wrF g PERMIT_RAIL_STATUS_HELD_MA (min 0xFFFF (heldSum t d r true + heldSum t d r false))
      |> wrF g PERMIT_RAIL_STATUS_WAITING (min 0xFF ws.length)
      |> wrF g PERMIT_RAIL_STATUS_AGED (min 0xFF (ws.filter (agedNow t d)).length)) s

/-- A request is granted: its step is held, and its unit has leave. -/
def grant (d : Die) (a : Ask) (s : State) : State :=
  let p := s.permit d
  let r := railOf s d a.kind
  let us := (s.now d - a.since) / 1000
  let s1 := s |> setPermit d { p with waiting := p.waiting.erase a, held := p.held ++ [(a.kind, stepOf s d a.kind)],
                                      granted := p.granted ++ [(a.kind, a.unit)],
                                      lastCluster := if a.kind = 0 then some (s.now d) else p.lastCluster }
    |> wr (PERMIT_RAIL_GRANTS d r) (s.rd (PERMIT_RAIL_GRANTS d r) + 1)
    |> maxF (PERMIT_RAIL_WAIT d r) PERMIT_RAIL_WAIT_WAIT_MAX_US us
  if a.kind = 0 then pcAdd d 15 us s1 else s1

/-- The arbiter grants, on a rail, every request that may be granted; `n` bounds them. -/
def grantRail (d : Die) (r : Nat) : Nat → State → State
  | 0, s => s
  | n + 1, s =>
    match grantable s d r true (railOrder s d r) with
    | none => s
    | some a => grantRail d r n (grant d a s)

def arbitrate (d : Die) (s : State) : State :=
  (upto 4).foldl (fun t r => grantRail d r (t.permit d).waiting.length t) s |> refreshPermit d

/-- What units have asked for since the last request reaches the arbiter. -/
def permitRequest (d : Die) (s : State) : State :=
  let p := s.permit d
  s |> setPermit d { p with asks := [], waiting := p.waiting ++ p.asks.map (fun a => { a with since := s.now d }) } |> arbitrate d

/-- The hold of the oldest step of a kind ends. -/
def holdEnds (d : Die) (kind : Nat) (s : State) : State :=
  let p := s.permit d
  match p.held.find? (fun h => h.1 == kind) with
  | none => s
  | some h => s |> setPermit d { p with held := p.held.erase h } |> arbitrate d

/-- The first request of a list that meets a test is marked aged. -/
def markAged (t : Ask → Bool) : List Ask → List Ask
  | [] => []
  | a :: r => if t a then { a with aged := true } :: r else a :: markAged t r

/-- A waiting request reaches AGE_US. -/
def permitAged (d : Die) (kind unit : Nat) (s : State) : State :=
  let p := s.permit d
  let t (a : Ask) : Bool := a.kind == kind && a.unit == unit && !a.aged
  match p.waiting.find? t with
  | none => s
  | some a =>
    let us := (s.now d - a.since) / 1000
    let s1 := setPermit d { p with waiting := markAged t p.waiting } s
    let s2 := if s1.flag (PERMIT_CFG d) PERMIT_CFG_EV_AGED then
        postPf0 d 0x0104 d.idx (kind + railOf s d kind * 2 ^ 8 + stepOf s d kind * 2 ^ 16 + min 0xFFFFFFFF us * 2 ^ 32) s1 else s1
    arbitrate d s2

/-- CLUSTER_GAP_US has passed. -/
def gapOver (d : Die) (s : State) : State := s |> setPermit d { s.permit d with lastCluster := none } |> arbitrate d

/-- A write of PERMIT_RAIL (R421). -/
def permitRailWrite (f : Fun) (r : Nat) (v : Word) (s : State) : State :=
  let a := PERMIT_RAIL f.ep r
  if 4 ≤ r ∨ (accessRow s f (addrOff a)).isNone ∨ PERMIT_RAIL_BUDGET_MA.get v < PERMIT_RAIL_RESERVED_MA.get v then s
  else s |> wr a v |> arbitrate f.ep

/-! ## Meanings -/

def execPermitRequest (d : Die) (s : State) : Host.Outcome State Fault Refusal := run (permitRequest d) s

def execPermitHoldEnd (d : Die) (kind : Nat) (s : State) : Host.Outcome State Fault Refusal := run (holdEnds d kind) s

def execPermitAged (d : Die) (kind unit : Nat) (s : State) : Host.Outcome State Fault Refusal := run (permitAged d kind unit) s

def execClusterGapExpiry (d : Die) (s : State) : Host.Outcome State Fault Refusal := run (gapOver d) s

def execPermitRailWrite (f : Fun) (r : Nat) (v : Word) (s : State) : Host.Outcome State Fault Refusal := run (permitRailWrite f r v) s

end Sys2Proof.Machine
end

