-- ==== Sys2Proof/Machine/Rinlar.lean ====
section
/-! DEFINITION. The Rinlar record: running counters, snapshots, slots and the readout buffer (chapter 20). -/
namespace Sys2Proof.Machine

/-! ## Images (R473) -/

/-- Bytes of the words of an image from word `lo` to 4,095. -/
def imageBytes (img : Tab Nat) (lo : Nat) : List Byte := (upto (4096 - lo)).flatMap (fun i => leBytes 4 (tget 0 (lo + i) img))

/-- SEQ of an image. -/
def imageSeq (img : Tab Nat) : Nat := tget 0 2 img + 2 ^ 32 * tget 0 3 img

/-- CAUSE of an image. -/
def imageCause (img : Tab Nat) : Nat := tget 0 1 img / 2 ^ 16 % 256

/-- The running counters laid out as a slot. -/
def imageOf (d : Die) (cause seq : Nat) (live : Tab Nat) : Tab Nat :=
  let body := tset 3 (seq / 2 ^ 32) (tset 2 (seq % 2 ^ 32) (tset 1 (1 + cause * 2 ^ 16 + d.idx * 2 ^ 24) (tset 0 0x5158524C live)))
  tset 8 (crc32c (imageBytes body 16)) body

/-- The slot is valid: MAGIC and CRC are correct (R472). -/
def slotValid (img : Tab Nat) : Bool := tget 0 0 img == 0x5158524C && tget 0 8 img == crc32c (imageBytes img 16)

/-- The newest valid slot: the one with the highest SEQ. -/
def newestSlot (r : Rinlar) : Option (Nat × Tab Nat) :=
  (r.slots.filter (fun x => slotValid x.2 && !r.retired.contains x.1)).foldl (fun best x =>
    match best with
    | none => some x
    | some b => if imageSeq b.2 < imageSeq x.2 then some x else some b) none

/-- The slot after slot n in the rotation, of those not retired. -/
def nextSlot (r : Rinlar) (n : Nat) : Option Nat :=
  ((upto 32).map (fun i => (n + 1 + i) % 32)).find? (fun k => !r.retired.contains k)

/-! ## Snapshots (R469–R472) -/

/-- The record controller is powered: its domain is out of reset, and the die is not in ONYX (R468, R473). -/
def recordRuns (s : State) (d : Die) : Bool := !s.inReset.contains .alwaysOn && s.rdF (POWER_STATUS d) POWER_STATUS_STATE != 4

/-- RINLAR_STATUS.BUSY follows. -/
def refreshRinlar (d : Die) (s : State) : State := wrB (RINLAR_STATUS d) RINLAR_STATUS_BUSY (s.rin d).writing.isSome s

/-- A snapshot of this cause may start now: causes 3 and 4 at most once per 10 s. -/
def snapReady (s : State) (d : Die) (cause : Nat) : Bool :=
  (cause != 3 && cause != 4) ||
  decide ((s.rin d).requestFrom ≤ s.now d)

/-- The first snapshot that waits and may start begins, if none is being written. -/
def startSnap (d : Die) (s : State) : State :=
  let r := s.rin d
  if r.writing.isSome then s
  else
    match r.queue.findIdx? (fun x => snapReady s d x.1) with
    | none => s
    | some i =>
      match r.queue[i]? with
      | none => s
      | some (cause, t) =>
        let from_ := match newestSlot r with
          | some x => x.1
          | none => 31
        match nextSlot r from_ with
        | none => setRin d { r with queue := r.queue.eraseIdx i } s
        | some k =>
          let s1 := setRin d { r with queue := r.queue.eraseIdx i, writing := some (cause, k, t),
                                      requestFrom := if cause = 3 ∨ cause = 4 then s.now d + 10000000000 else r.requestFrom,
                                      powerFailFrom := if cause = 1 then s.now d + 10000000 else r.powerFailFrom } s
          (if cause = 1 then rinlarCount d 3 1 s1 else s1) |> refreshRinlar d

/-- A snapshot is due; a power-fail one goes before those that wait (R470). -/
def requestSnap (d : Die) (cause : Nat) (t : Option Ticket) (s : State) : State :=
  let r := s.rin d
  s |> setRin d { r with queue := if cause = 1 then (1, t) :: r.queue else r.queue ++ [(cause, t)] } |> startSnap d

/-- RINLAR (R477). -/
def postRinlar (d : Die) (kind slot : Nat) (s : State) : State := postPf0 d 0x0C80 d.idx (kind + slot * 256) s

/-- The status registers follow the newest valid slot. -/
def refreshNewest (d : Die) (s : State) : State :=
  let r := s.rin d
  match newestSlot r with
  | none => wrF (RINLAR_STATUS d) RINLAR_STATUS_SLOTS_GOOD 0 s
  | some (k, img) =>
    s |> wrF (RINLAR_STATUS d) RINLAR_STATUS_SLOTS_GOOD (32 - r.retired.length) |> wrF (RINLAR_STATUS d) RINLAR_STATUS_LAST_CAUSE (imageCause img)
      |> wrF (RINLAR_STATUS d) RINLAR_STATUS_NEWEST k |> wr64 (RINLAR_SEQ_LO d) (imageSeq img)
      |> wrB (RINLAR_STATUS d) RINLAR_STATUS_DEGRADED (decide (32 - r.retired.length < 8))

/-- The snapshot in progress is written and read back: `bad` read-backs failed (R472). A slot that failed twice is retired,
and the snapshot goes to the next slot. -/
def snapDone (d : Die) (bad : Nat) (s0 : State) : State :=
  let s := startSnap d s0
  let r := s.rin d
  match r.writing with
  | none => s
  | some (cause, k, t) =>
    if 2 ≤ bad then
      let r1 := { r with retired := if r.retired.contains k then r.retired else k :: r.retired, slots := tkeep (fun j => j != k) r.slots }
      setRin d { r1 with writing := (nextSlot r1 k).map (fun n => (cause, n, t)) } s |> refreshNewest d |> refreshRinlar d |> postRinlar d 0 k
    else
      let seq := match newestSlot r with
        | some x => imageSeq x.2 + 1
        | none => 1
      let s1 := setRin d { r with slots := tset k (imageOf d cause seq r.live) r.slots, writing := none } s |> refreshNewest d
      (match t with
       | some t => finish t stOk 0 s1
       | none => s1) |> startSnap d |> refreshRinlar d

/-- PWRFAIL_n stays low: each die takes a power-fail snapshot, unless its last one is less than 10 ms ago. -/
def powerFail (s : State) : State :=
  [Die.a, Die.b].foldl (fun t d =>
    if t.now d < (t.rin d).powerFailFrom ∨ recordRuns t d = false then t else requestSnap d 1 none t) s

/-! ## Once per second (R474) -/

/-- Bin of a sample: `lo` the lower edge of bin 0, `w` the width, `n` the bins. -/
def histBin (lo w : Int) (n : Nat) (x : Int) : Nat := min (n - 1) ((x - lo) / w).toNat

/-- Histograms and lifetime seconds. -/
def rinlarTick (d : Die) (tj : Int) (s : State) : State :=
  if recordRuns s d = false then s else
  let mv := if s.flag (AVS_CTRL d) AVS_CTRL_READBACK_EN then s.rdF (AVS_READBACK d) AVS_READBACK_VREAD_MV else s.rdF (AVS_STATUS d) AVS_STATUS_VOUT_MV
  let w := if inPearl s d then 6 else 4
  let life := tget 0 w (s.rin d).live + 2 ^ 32 * tget 0 (w + 1) (s.rin d).live + 1
  let s1 := setRin d { s.rin d with live := tset (w + 1) (life / 2 ^ 32 % 2 ^ 32) (tset w (life % 2 ^ 32) (s.rin d).live) } s
  s1 |> rinlarAdd d (0x240 + histBin (-40) 5 33 tj) 1 |> rinlarAdd d (0x280 + histBin 600 10 30 mv) 1
    |> rinlarAdd d (0x2A0 + histBin 500 50 32 (s.rdF (PACE_STATUS d) PACE_STATUS_PACE)) 1
    |> fun t => if t.flag (PACE_FLOOR d) PACE_FLOOR_SHORTFALL then rinlarCount d 7 1 t else t

/-! ## Reading (R476) -/

/-- The image that LATCH asks for, none where no slot is valid. -/
def latchSource (s : State) (d : Die) (live : Bool) : Option (Tab Nat) :=
  let r := s.rin d
  match newestSlot r, live with
  | some x, false => some x.2
  | none, false => none
  | some x, true => some (imageOf d 0xFF (imageSeq x.2) r.live)
  | none, true => some (imageOf d 0xFF 0 r.live)

/-- Word `i` of an image. Where no slot is valid the manual names no image: its words are free. -/
def imageWord (s : State) (image : Option (Tab Nat)) (i : Nat) : Nat :=
  match image with
  | some x => tget 0 i x
  | none => s.freeNat i % 2 ^ 32

/-- A word of the image that LATCH asks for. -/
def latchWord (s : State) (d : Die) (live : Bool) (i : Nat) : Nat := imageWord s (latchSource s d live) i

/-- Fill the readout buffer. -/
def latchImage (d : Die) (live : Bool) (s : State) : State :=
  let image := latchSource s d live
  ((upto 4096).foldl (fun t i => wr (RINLAR_WIN d i) (BitVec.ofNat 32 (imageWord s image i)) t) s)
    |> wrB (RINLAR_CTRL d) RINLAR_CTRL_LATCH_DONE true |> useFree 4096

/-- A write of RINLAR_CTRL. -/
def rinlarCtrlWrite (f : Fun) (v : Word) (s : State) : State :=
  let d := f.ep
  if (accessRow s f (addrOff (RINLAR_CTRL d))).isNone then s
  else
    let s1 := wrF (RINLAR_CTRL d) RINLAR_CTRL_LIVE (RINLAR_CTRL_LIVE.get v) s
    let s2 := if RINLAR_CTRL_SNAP.get v = 1 then requestSnap d 4 none s1 else s1
    if RINLAR_CTRL_LATCH.get v = 1 then latchImage d (RINLAR_CTRL_LIVE.get v == 1) s2 else s2

/-! ## Meanings -/

def execRinlarPeriodic (d : Die) (s : State) : Host.Outcome State Fault Refusal :=
  run (fun s => if recordRuns s d then requestSnap d 0 none s else s) s

def execPwrfail (s : State) : Host.Outcome State Fault Refusal := run powerFail s

def execRinlarSnap (f : Fun) (v : Word) (s : State) : Host.Outcome State Fault Refusal := run (rinlarCtrlWrite f v) s

def execRinlarSnapshotDone (d : Die) (badReads : Nat) (s : State) : Host.Outcome State Fault Refusal := run (snapDone d badReads) s

def execRinlarSecond (d : Die) (tj : Int) (s : State) : Host.Outcome State Fault Refusal := run (rinlarTick d tj) s

def execRinlarLatch (f : Fun) (v : Word) (s : State) : Host.Outcome State Fault Refusal := run (rinlarCtrlWrite f v) s

end Sys2Proof.Machine
end

