-- ==== Sys2Proof/Machine/Touch.lean ====
section
/-! DEFINITION. Capacitive touch units and external touchscreens: sensors, detection, baselines, regions, self-test (chapter 14). -/
namespace Sys2Proof.Machine

def Touch.empty : Touch := ⟨0, false, false, [], [], [], [], [], [], none, none, 0, none⟩
def Sensor.empty : Sensor := ⟨0, 0, [], false, false, 0⟩
def Meas.empty : Meas := ⟨0, 0, false, 0, 0, false, none⟩
def TshPort.empty : TshPort := ⟨0, false, false, 0, 0⟩
def State.touch (s : State) (d : Die) : Touch := tget Touch.empty d.idx s.touches
def setTouch (d : Die) (x : Touch) (s : State) : State := { s with touches := tset d.idx x s.touches }
def State.sensor (s : State) (d : Die) (k : Nat) : Sensor := tget Sensor.empty k (s.touch d).sensors
def setSensor (d : Die) (k : Nat) (x : Sensor) (s : State) : State :=
  setTouch d { s.touch d with sensors := tset k x (s.touch d).sensors } s
def State.measOf (s : State) (d : Die) (m : Nat) : Meas := tget Meas.empty m (s.touch d).meas
def setMeas (d : Die) (m : Nat) (x : Meas) (s : State) : State := setTouch d { s.touch d with meas := tset m x (s.touch d).meas } s

/-! ## Set-up of a sensor (R361, R366) -/

def sKind (x : Desc) : Nat := dget x 10 0 8
def sMutual (x : Desc) : Bool := dget x 11 4 1 == 1
def sNtx (x : Desc) : Nat := dget x 17 0 8
def sNrx (x : Desc) : Nat := dget x 19 0 8
def sCh (x : Desc) (i : Nat) : Nat := dget x (16 + i) 0 8

/-- Channels of a sensor. -/
def sChannels (x : Desc) : List Nat :=
  if sKind x = 4 then (upto (sNtx x)).map (fun i => sCh x 0 + i) ++ (upto (sNrx x)).map (fun i => sCh x 2 + i)
  else (upto (dget x 14 0 8)).map (sCh x)

/-- Measurements of a sensor: self channels, the RX channel of a mutual key, or matrix nodes. -/
def sMeas (x : Desc) : List Nat :=
  if sKind x = 4 then (upto (sNtx x * sNrx x)).map (fun i => 0x100 + i)
  else if sMutual x then [sCh x 1] else sChannels x

/-- The sensor's measurements are mutual: a touch lowers the count. -/
def sFalls (x : Desc) : Bool := sKind x == 4 || sMutual x

/-- World of a sensor: 1 S. -/
def sWorld (s : State) (d : Die) (x : Desc) : Nat := b2n (pinSecure s d (0x200 + sCh x 0))

/-- Scan time over sensors, µs (R363): a mutual key converts on one TX line. -/
def scanUs (avg : Nat) (xs : List Desc) : Nat :=
  let self := (xs.map (fun x => if sFalls x then 0 else dget x 14 0 8)).sum
  let tx := (xs.map (fun x => if sKind x = 4 then sNtx x else b2n (sMutual x))).sum
  25 * avg * (cdiv self 16 + tx)

def tHz (x : Desc) : Nat := dget x 10 0 16
def tAvg (x : Desc) : Nat := dget x 12 0 8

/-- The scan time exceeds 90 % of the period. -/
def scanTooLong (setup : Desc) (xs : List Desc) : Bool := decide (9000000 < 10 * scanUs (tAvg setup) xs * tHz setup)

/-! ## References (R371, R475) -/

/-- FREQ and AVG fields of a reference word. -/
def refTag (mode : Nat) (u : Desc) : Nat := mode * 2 ^ 16 + dget u 13 0 2 * 2 ^ 18 + Nat.log2 (tAvg u) * 2 ^ 20

/-- Mode, FREQ and AVG of a word. -/
def tagOf (w : Nat) : Nat := w / 2 ^ 16 % 2 ^ 6 * 2 ^ 16

/-- The valid reference of a measurement of a sensor. -/
def refOf (s : State) (d : Die) (x : Desc) (m : Nat) : Option Nat :=
  let u := (s.touch d).setup
  let live := (s.rin d).live
  let w (c : Nat) : Nat := tget 0 (0x400 + c) live
  if sKind x = 4 then
    let i := m - 0x100
    let tag := tget 0 0x460 live
    if tagOf tag = refTag 3 u ∧ tag / 2 ^ 24 % 256 = sCh x 0 then some (tget 0 (0x480 + i / 2) live / 2 ^ (16 * (i % 2)) % 2 ^ 16) else none
  else if sMutual x then
    if tagOf (w m) = refTag 2 u ∧ tagOf (w (sCh x 0)) = refTag 2 u ∧ w m / 2 ^ 22 % 2 = w (sCh x 0) / 2 ^ 22 % 2 then some (w m % 2 ^ 16) else none
  else if tagOf (w m) = refTag 1 u then some (w m % 2 ^ 16) else none

/-- Replace a word of the running record. -/
def setRecord (d : Die) (i v : Nat) (s : State) : State := setRin d { s.rin d with live := tset i v (s.rin d).live } s

/-- Store the baseline of a measurement as its reference. -/
def storeRef (d : Die) (x : Desc) (m : Nat) (s : State) : State :=
  let u := (s.touch d).setup
  match tfind m (s.touch d).meas with
  | none => s
  | some b =>
    let v := b.base / 256 % 2 ^ 16
    let world := sWorld s d x * 2 ^ 22
    if sKind x = 4 then
      let i := m - 0x100
      let old := tget 0 (0x480 + i / 2) (s.rin d).live
      let sh := 2 ^ (16 * (i % 2))
      s |> setRecord d (0x480 + i / 2) (old - old / sh % 2 ^ 16 * sh + v * sh) |> setRecord d 0x460 (refTag 3 u + sCh x 0 * 2 ^ 24)
    else if sMutual x then s |> setRecord d (0x400 + m) (v + refTag 2 u + world) |> setRecord d (0x400 + sCh x 0) (refTag 2 u + world)
    else setRecord d (0x400 + m) (v + refTag 1 u + world) s

/-- Erase the references of a world. -/
def eraseRefs (d : Die) (world : Nat) (s : State) : State :=
  let live := (s.rin d).live
  let tag := tget 0 0x460 live
  let gone := tag / 2 ^ 16 % 4 == 3 && b2n (pinSecure s d (0x200 + tag / 2 ^ 24 % 256)) == world
  setRin d { s.rin d with live := tkeep (fun i =>
    !((decide (0x400 ≤ i ∧ i < 0x460) && tget 0 i live / 2 ^ 22 % 2 == world) || (gone && (i == 0x460 || decide (0x480 ≤ i ∧ i < 0x880))))) live } s

/-! ## Contacts, regions and events (R376–R378, R387) -/

/-- SOURCE of a contact's events. -/
def contactSource (d : Die) (c : Contact) : Nat := if c.src < 64 then d.idx else 0x10 + 2 * d.idx + (c.src - 64)

/-- The live route of a region. -/
def regionRoute (s : State) (d : Die) (r : Nat) : Option (Nat × Route) :=
  (routesOf s 4).find? (fun x => epUnit x.2.source == d.idx && epSub x.2.source == r)

/-- Regions of a source: a sensor, or 64 + local port. -/
def regionsOf (s : State) (d : Die) (src : Nat) : List (Nat × Desc) :=
  (s.touch d).regions.filter (fun x => if src < 64 then dget x.2 9 0 8 == 1 && dget x.2 10 0 8 == src
    else dget x.2 9 0 8 == 2 && dget x.2 10 0 8 + 64 == src)

/-- Kind of what a contact lies on: the sensor's, or 5 for I²C. -/
def contactKind (s : State) (d : Die) (c : Contact) : Nat := if c.src < 64 then sKind (s.sensor d c.src).setup else 5

/-- The route of a contact's region. -/
def contactRoute (s : State) (d : Die) (c : Contact) : Option (Nat × Route) :=
  match c.region with
  | none => none
  | some r => regionRoute s d r

/-- TOUCH to the grantee of the region's route, if the touch-down was reported. -/
def postTouch (d : Die) (c : Contact) (phase : Nat) (s : State) : State :=
  match c.region, contactRoute s d c with
  | some r, some (_, rt) =>
    if c.reported then
      post rt.grantee ⟨0x0900, contactSource d c, 1, s.now d,
        phase + c.id * 2 ^ 8 + r * 2 ^ 16 + contactKind s d c * 2 ^ 24 + c.x * 2 ^ 32 + c.y * 2 ^ 48 + unsgn 16 c.delta * 2 ^ 64, d⟩ s
    else s
  | _, _ => s

/-- Replace, or drop, a contact. -/
def setContact (d : Die) (c : Contact) (s : State) : State :=
  setTouch d { s.touch d with contacts := (s.touch d).contacts.map (fun x => if x.src = c.src ∧ x.id = c.id then c else x) } s
def dropContact (d : Die) (c : Contact) (s : State) : State :=
  setTouch d { s.touch d with contacts := (s.touch d).contacts.filter (fun x => !(x.src == c.src && x.id == c.id)) } s
def contactsOf (s : State) (d : Die) (src : Nat) : List Contact := (s.touch d).contacts.filter (fun c => c.src == src)

/-- Region number as an event names it; where there is none the manual states no number, so it is free. -/
def regionByte (s : State) (r : Option Nat) : Nat :=
  match r with
  | some r => r
  | none => s.freeNat 0 % 256

/-- TOUCH_GARNET_FAULT: condition 0 stuck, 1 anti-touch; raised or cleared (R375). -/
def postGarnetFault (d : Die) (region : Option Nat) (src cond : Nat) (cleared : Bool) (s : State) : State :=
  s |> postPf1 d 0x0902 d.idx (regionByte s region + src * 2 ^ 8 + cond * 2 ^ 16 + b2n cleared * 2 ^ 24) |> useFree 1

/-- An event about channels or sensors of a world. -/
def postWorld (d : Die) (world typ payload : Nat) (s : State) : State :=
  if world = 1 then postPf1 d typ d.idx payload s else postPf0 d typ d.idx payload s

/-- A contact ends with a PHASE. -/
def releaseContact (d : Die) (phase : Nat) (c : Contact) (s : State) : State :=
  let s1 := s |> postTouch d c phase |> dropContact d c
  if c.stuck then postGarnetFault d c.region c.src 0 true s1 else s1

/-- All contacts of some sources end, lost. -/
def loseContacts (d : Die) (p : Nat → Bool) (s : State) : State :=
  ((s.touch d).contacts.filter (fun c => p c.src)).foldl (fun t c => releaseContact d 4 c t) s

/-- Lowest free ID of a source. -/
def freeId (s : State) (d : Die) (src : Nat) : Option Nat := (upto 10).find? (fun i => (contactsOf s d src).all (fun c => c.id != i))

/-- The region of a touch-down (R377): of a key, slider or wheel its one region; else the one whose rectangle holds the place. -/
def regionAt (s : State) (d : Die) (src kind x y : Nat) : Option Nat :=
  ((regionsOf s d src).find? (fun r =>
    decide (kind < 4) || decide (dget r.2 12 0 16 ≤ x ∧ x ≤ dget r.2 16 0 16 ∧ dget r.2 14 0 16 ≤ y ∧ y ≤ dget r.2 18 0 16))).map Prod.fst

/-- A touch-down. -/
def touchDown (d : Die) (src key x y : Nat) (delta : Int) (s : State) : State :=
  match freeId s d src with
  | none => s
  | some i =>
    let kind := if src < 64 then sKind (s.sensor d src).setup else 5
    let region := regionAt s d src kind x y
    let live := match region with
      | some r => (regionRoute s d r).isSome
      | none => false
    let c : Contact := ⟨src, i, key, region, live, x, y, x, y, delta, s.now d, x, y, 0, false⟩
    let s1 := setTouch d { s.touch d with contacts := (s.touch d).contacts ++ [c] } s
    if live then postTouch d c 0 s1
    else if unitPresent s.part d bitTouch then satF (TOUCH_COUNTS d) TOUCH_COUNTS_UNROUTED 1 s1 else s1

/-- Distance of two numbers. -/
def natDist (a b : Nat) : Nat := if a < b then b - a else a - b

/-- Change of position since the last report (R378). -/
def moved (kind : Nat) (c : Contact) : Nat :=
  if kind = 3 then min (natDist c.x c.repX) (256 - natDist c.x c.repX)
  else max (natDist c.x c.repX) (natDist c.y c.repY)

/-- A contact at its new position: a move is posted where the route asks for it. -/
def moveTo (d : Die) (c : Contact) (x y : Nat) (delta : Int) (s : State) : State :=
  let c1 := { c with x := x, y := y, delta := delta }
  match contactRoute s d c with
  | none => setContact d c1 s
  | some (_, r) =>
    if c.reported ∧ pget r 32 0 1 = 1 ∧ max 1 (pget r 33 0 8) ≤ moved (contactKind s d c) c1 then
      s |> setContact d { c1 with repX := x, repY := y } |> postTouch d c1 1
    else setContact d c1 s

/-! ## One scan (R362–R375, R383, R385) -/

def sat16 (x : Int) : Int := max (-32768) (min 32767 x)

/-- Delta of a measurement (R362). -/
def delta (x : Desc) (m : Meas) : Int :=
  let c : Int := m.raw
  let b : Int := m.base / 256
  sat16 (if sFalls x then b - c else c - b)

/-- The sensor has a region with a live Garnet route (R375). -/
def garnetRegion (s : State) (d : Die) (k : Nat) : Option Nat :=
  ((regionsOf s d k).find? (fun r => (regionRoute s d r.1).any (fun x => x.2.cls == 0))).map Prod.fst

/-- Force baselines to the counts. -/
def rebase (d : Die) (ms : List Nat) (s : State) : State :=
  ms.foldl (fun t m => setMeas d m { t.measOf d m with base := (t.measOf d m).raw * 256, anti := none } t) s

/-- The STUCK timeout, ns. -/
def stuckNs (s : State) (d : Die) : Nat :=
  let v := dget (s.touch d).setup 14 0 16
  (if v = 0 then 30 else v) * 1000000000

/-- The stuck rule on a contact that stayed (R374, R375); `ms` are the measurements it covers. -/
def stuckRule (d : Die) (c : Contact) (ms : List Nat) (s : State) : State :=
  if s.now d < c.since + stuckNs s d then s
  else if (garnetRegion s d c.src).isSome then
    if c.stuck then s else s |> setContact d { c with stuck := true } |> postGarnetFault d c.region c.src 0 false
  else
    s |> rebase d ms |> releaseContact d 3 c |> postPf0 d 0x0901 d.idx (regionByte s c.region + c.src * 2 ^ 8 + c.id * 2 ^ 16) |> useFree 1
      |> satF (TOUCH_COUNTS d) TOUCH_COUNTS_STUCK 1 |> rinlarCount d 44 1

/-- Nearest whole number to a ÷ b, halves up. -/
def roundDiv (a : Int) (b : Nat) : Int := if b = 0 then 0 else (2 * a + b) / (2 * b)

/-- Position on a slider or wheel (R369); none where every delta is zero or negative. -/
def linePos (kind : Nat) (ds : List Int) : Option Nat :=
  let n := ds.length
  let w (i : Nat) : Nat := (ds.getD i 0).toNat
  let best := (upto n).foldl (fun p i => if w p < w i then i else p) 0
  let l := if best = 0 then (if kind = 3 then w (n - 1) else 0) else w (best - 1)
  let r := if best + 1 = n then (if kind = 3 then w 0 else 0) else w (best + 1)
  let sum := l + w best + r
  if sum = 0 then none
  else
    let num : Int := best * sum + (r : Int) - l
    if kind = 3 then some (roundDiv (256 * num) (sum * n) % 256).toNat
    else some (max 0 (min 255 (roundDiv (255 * num) (sum * (n - 1))))).toNat

/-- A key, slider or wheel (R368). -/
def lineSensor (d : Die) (k : Nat) (s : State) : State :=
  let x := s.sensor d k
  let ms := sMeas x.setup
  let ds := ms.map (fun m => delta x.setup (s.measOf d m))
  let top := ds.foldl max (-32768)
  let deb := dget x.setup 38 0 8
  let kind := sKind x.setup
  let pos := if kind = 1 then some 0 else linePos kind ds
  match (contactsOf s d k).head? with
  | none =>
    let n := if (dget x.setup 32 0 16 : Int) ≤ top then x.count + 1 else 0
    if n < deb ∨ n = 0 then setSensor d k { x with count := n } s
    else s |> setSensor d k { x with count := 0, last := pos.getD x.last } |> touchDown d k 0 (pos.getD x.last) 0 top
  | some c =>
    let n := if top < (dget x.setup 34 0 16 : Int) then x.count + 1 else 0
    if deb ≤ n then s |> setSensor d k { x with count := 0 } |> releaseContact d 2 { c with delta := top }
    else
      let s1 := s |> setSensor d k { x with count := n, last := pos.getD c.x } |> moveTo d c (pos.getD c.x) 0 top
      match (contactsOf s1 d k).head? with
      | none => s1
      | some c1 => stuckRule d c1 ms s1

/-- Place of a node's neighbour. -/
def nodeAt (x : Desc) (tx rx : Int) : Option Nat :=
  if 0 ≤ tx ∧ tx < sNtx x ∧ 0 ≤ rx ∧ rx < sNrx x then some (tx.toNat * sNrx x + rx.toNat) else none

/-- The 3 × 3 nodes around a node. -/
def around (x : Desc) (i : Nat) : List Nat :=
  let tx : Int := i / sNrx x
  let rx : Int := i % sNrx x
  ([-1, 0, 1] : List Int).flatMap (fun a => ([-1, 0, 1] : List Int).filterMap (fun b => nodeAt x (tx + a) (rx + b)))

/-- X and Y of a peak: 64 × the centroid (R369). -/
def nodePos (x : Desc) (ds : List Int) (i : Nat) : Nat × Nat :=
  let w (j : Nat) : Nat := (ds.getD j 0).toNat
  let ns := around x i
  let sum := (ns.map w).sum
  ((roundDiv (64 * (ns.map (fun j => w j * (j % sNrx x))).sum) sum).toNat, (roundDiv (64 * (ns.map (fun j => w j * (j / sNrx x))).sum) sum).toNat)

/-- Put a node into a list with the strongest first. -/
def byStrength (ds : List Int) (i : Nat) : List Nat → List Nat
  | [] => [i]
  | j :: t => if ds.getD j 0 < ds.getD i 0 then i :: j :: t else j :: byStrength ds i t

/-- Peaks of a matrix, the strongest MAX_CONTACTS (R368). -/
def matrixPeaks (x : Desc) (ds : List Int) : List Nat :=
  ((((upto (sNtx x * sNrx x)).filter (fun i =>
    decide ((dget x 32 0 16 : Int) ≤ ds.getD i 0) && (around x i).all (fun j => j == i || decide (ds.getD j 0 < ds.getD i 0)))).foldl
      (fun acc i => byStrength ds i acc) []).take (dget x 15 0 8))

/-- Square of the distance of two places. -/
def dist2 (a b : Nat × Nat) : Nat := natDist a.1 b.1 ^ 2 + natDist a.2 b.2 ^ 2

/-- The nearest place within two node pitches. -/
def nearest (a : Nat × Nat) (ps : List (Nat × Nat × Nat)) : Option (Nat × Nat × Nat) :=
  (ps.filter (fun p => decide (dist2 a (p.2.1, p.2.2) ≤ 128 ^ 2))).foldl (fun best p =>
    match best with
    | none => some p
    | some b => if dist2 a (p.2.1, p.2.2) < dist2 a (b.2.1, b.2.2) then some p else some b) none

/-- The node at a place. -/
def nodeOf (x : Desc) (c : Contact) : Nat := min (sNtx x - 1) ((c.y + 32) / 64) * sNrx x + min (sNrx x - 1) ((c.x + 32) / 64)

/-- One contact of a matrix in a scan; the answer is the peaks not taken. -/
def matrixContact (d : Die) (k : Nat) (ds : List Int) (a : List (Nat × Nat × Nat) × State) (c : Contact) : List (Nat × Nat × Nat) × State :=
  let s := a.2
  let x := (s.sensor d k).setup
  let (c1, rest, s1) :=
    match nearest (c.x, c.y) a.1 with
    | some p => ((contactsOf (moveTo d c p.2.1 p.2.2 (ds.getD p.1 0) s) d k).find? (fun y => y.id == c.id), a.1.filter (fun q => q.1 != p.1),
                 moveTo d c p.2.1 p.2.2 (ds.getD p.1 0) s)
    | none => (some c, a.1, s)
  match c1 with
  | none => (rest, s1)
  | some c1 =>
    let held := (around x (nodeOf x c1)).any (fun j => decide ((dget x 34 0 16 : Int) ≤ ds.getD j 0))
    let low := if held then 0 else c1.low + 1
    if dget x 38 0 8 ≤ low then (rest, releaseContact d 2 c1 s1)
    else if natDist c1.x c1.ax ≤ 64 ∧ natDist c1.y c1.ay ≤ 64 then
      let c2 := { c1 with low := low }
      (rest, s1 |> setContact d c2 |> stuckRule d c2 ((around x (nodeOf x c2)).map (fun j => 0x100 + j)))
    else
      let c2 := { c1 with low := low, ax := c1.x, ay := c1.y, since := s1.now d, stuck := false }
      let s2 := setContact d c2 s1
      (rest, if c1.stuck then postGarnetFault d c1.region k 0 true s2 else s2)

/-- A matrix (R368, R369). -/
def matrixSensor (d : Die) (k : Nat) (s : State) : State :=
  let x := (s.sensor d k).setup
  let ds := (sMeas x).map (fun m => delta x (s.measOf d m))
  let peaks := (matrixPeaks x ds).map (fun i => (i, nodePos x ds i))
  let (rest, s1) := (contactsOf s d k).foldl (matrixContact d k ds) (peaks, s)
  let old := (s1.sensor d k).peaks
  let (cands, s2) := rest.foldl (fun (a : List (Nat × Nat × Nat) × State) p =>
    let n := match nearest (p.2.1, p.2.2) (old.map (fun o => (o.2.2, o.1, o.2.1))) with
      | some o => o.1 + 1
      | none => 1
    if dget x 38 0 8 ≤ n ∧ (contactsOf a.2 d k).length < dget x 15 0 8 then (a.1, touchDown d k 0 p.2.1 p.2.2 (ds.getD p.1 0) a.2)
    else (a.1 ++ [(p.2.1, p.2.2, n)], a.2)) ([], s1)
  setSensor d k { s2.sensor d k with peaks := cands } s2

/-- The anti-touch rule of a sensor (R373, R375), on the deltas of the scan. -/
def antiRule (d : Die) (k : Nat) (ds : List (Nat × Int)) (s : State) : State :=
  let x := s.sensor d k
  let limit : Int := - (dget x.setup 36 0 16 : Int)
  let now := s.now d
  let s1 := ds.foldl (fun t m =>
    let y := t.measOf d m.1
    setMeas d m.1 { y with anti := if m.2 ≤ limit then some (y.anti.getD now) else none } t) s
  let due := (ds.map Prod.fst).filter (fun m => (s1.measOf d m).anti.any (fun a => decide (a + dget x.setup 40 0 16 * 1000000 ≤ now)))
  let guard := garnetRegion s d k
  let raised := guard.isSome && !due.isEmpty
  let s2 := if raised = x.antiFault then s1
    else s1 |> setSensor d k { s1.sensor d k with antiFault := raised } |> postGarnetFault d guard k 1 (!raised)
  if guard.isSome ∨ due = [] then s2
  else s2 |> rebase d due |> postWorld d (sWorld s d x.setup) 0x0903 (k + due.length * 2 ^ 16)

/-- The channel that a measurement's fault names: of a node its RX channel. -/
def measChannel (x : Desc) (m : Nat) : Nat := if sKind x = 4 then sCh x 2 + (m - 0x100) % sNrx x else m

/-- A sensor whose channel is faulty (R383). -/
def sensorFaulty (s : State) (d : Die) (x : Desc) : Bool := (sMeas x).any (fun m => (s.measOf d m).faulty)

/-- Healthy and unhealthy counts of a sensor's measurements. -/
def faultRule (d : Die) (k : Nat) (s : State) : State :=
  let x := (s.sensor d k).setup
  let world := sWorld s d x
  let s1 := (sMeas x).foldl (fun t m =>
    let y := t.measOf d m
    let ok := decide (dget x 42 0 16 ≤ y.raw ∧ y.raw ≤ dget x 44 0 16)
    let y1 := { y with bad := if ok then 0 else y.bad + 1, good := if ok then y.good + 1 else 0 }
    let ev (u : State) (f : Nat) : State := postWorld d world 0x0904 (measChannel x m + f * 2 ^ 8 + y.raw % 2 ^ 16 * 2 ^ 16) u
    if y.faulty = false ∧ 16 ≤ y1.bad then
      ev (t |> setMeas d m { y1 with faulty := true } |> loseContacts d (fun c => c == k) |> rinlarCount d 45 1) 0
    else if y.faulty ∧ 16 ≤ y1.good then ev (setMeas d m { y1 with faulty := false } t) 1
    else setMeas d m y1 t) s
  if sensorFaulty s1 d x then setSensor d k { s1.sensor d k with count := 0, peaks := [] } s1 else s1

/-- The sensor is touched or within its debounce. -/
def sensorActive (s : State) (d : Die) (k : Nat) : Bool :=
  (s.sensor d k).count != 0 || !(s.sensor d k).peaks.isEmpty || !(contactsOf s d k).isEmpty

def sGroup (x : Desc) : Nat := dget x 11 0 4

/-- A baseline follows its count (R370). The manual gives 8 fraction bits and no rounding: the last bit is free. -/
def follow (x : Desc) (hz bit : Nat) (m : Meas) : Meas :=
  let n : Int := (m.raw * 256 : Int) - m.base
  let q : Int := dget x 39 0 8 * hz
  { m with base := (m.base + n / q + (if n % q = 0 then 0 else (bit : Int) % 2)).toNat }

/-- Status registers of the unit. -/
def refreshTouch (d : Die) (s : State) : State :=
  let t := s.touch d
  let xs := t.sensors.map (fun k => k.2.setup)
  let s0 := if unitPresent s.part d bitTouch then
      s |> wrF (TOUCH_STATUS d) TOUCH_STATUS_SCAN_HZ (if t.enabled then tHz t.setup else 0)
        |> wrF (TOUCH_STATUS d) TOUCH_STATUS_SCAN_US (min 0xFFFF (scanUs (tAvg t.setup) xs))
    else s
  let s1 := t.sensors.foldl (fun u k =>
    let x := k.2.setup
    let a := TOUCH_SENSOR_STATUS d k.1
    let cs := contactsOf u d k.1
    let u1 := u |> wrF a TOUCH_SENSOR_STATUS_KIND (sKind x) |> wrB a TOUCH_SENSOR_STATUS_TOUCHED (!cs.isEmpty) |> wrB a TOUCH_SENSOR_STATUS_FROZEN k.2.frozen
      |> wrB a TOUCH_SENSOR_STATUS_FAULT (cs.any (fun c => c.stuck) || k.2.antiFault || sensorFaulty u d x)
      |> wrF a TOUCH_SENSOR_STATUS_CONTACTS (if sKind x = 4 then cs.length else 0)
      |> wrF a TOUCH_SENSOR_STATUS_POSITION (if sKind x = 4 then 0 else k.2.last)
    let u2 := (sChannels x).foldl (fun v c =>
      wrF (TOUCH_RAW d c) TOUCH_RAW_USE (if sKind x = 4 then (if c < sCh x 0 + sNtx x ∧ sCh x 0 ≤ c then 2 else 3)
        else if sMutual x then (if c = sCh x 0 then 2 else 3) else 1) v) u1
    (sMeas x).foldl (fun v m =>
      let c := measChannel x m
      let y := v.measOf d m
      let many := (sMeas x).filter (fun j => measChannel x j == c)
      let v1 := v |> wrB (TOUCH_RAW d c) TOUCH_RAW_FAULTY (many.any (fun j => (v.measOf d j).faulty))
        |> wrB (TOUCH_RAW d c) TOUCH_RAW_NO_REF (many.any (fun j => (v.measOf d j).noRef))
      if sKind x = 4 then v1
      else
        let v2 := wrF (TOUCH_BASE d c) TOUCH_BASE_REF ((refOf v1 d x m).getD 0) v1
        if sMutual x then v2
        else v2 |> wrF (TOUCH_RAW d c) TOUCH_RAW_COUNT y.raw |> wrF (TOUCH_BASE d c) TOUCH_BASE_BASE (y.base / 256)) u2) s0
  let s2 := t.regions.foldl (fun u r =>
    let a := TOUCH_REGION_STATUS d r.1
    let rt := regionRoute u d r.1
    u |> wrF a TOUCH_REGION_STATUS_SRC (dget r.2 9 0 8) |> wrB a TOUCH_REGION_STATUS_HELD (t.contacts.any (fun c => c.region == some r.1))
      |> wrB a TOUCH_REGION_STATUS_CHANGE_PENDING (rt.any (fun y => y.2.change.isSome))
      |> wrF a TOUCH_REGION_STATUS_ROUTE (match rt with
          | some y => y.1
          | none => 0)) s1
  (upto 2).foldl (fun u p =>
    if (tfind p t.ports).isSome then wrF (TSH_STATUS d p) TSH_STATUS_CONTACTS (contactsOf u d (64 + p)).length u else u) s2

/-- The first scan of a unit start fills the baselines (R371); `force` worlds are reloaded from valid references (R372). -/
def fillBaselines (d : Die) (s : State) : State :=
  let t := s.touch d
  let s1 := t.sensors.foldl (fun u k =>
    let x := k.2.setup
    (sMeas x).foldl (fun v m =>
      let y := v.measOf d m
      match refOf v d x m with
      | some r => if t.fresh ∨ t.reload.contains (sWorld v d x) then setMeas d m { y with base := r * 256, noRef := false, anti := none } v else v
      | none => if t.fresh then setMeas d m { y with base := y.raw * 256, noRef := true, anti := none } v else v) u) s
  let count (w : Nat) : Nat := (t.sensors.map (fun k => if sWorld s1 d k.2.setup = w then ((sMeas k.2.setup).filter (fun m => (s1.measOf d m).noRef)).length else 0)).sum
  let ev (w : Nat) (u : State) : State := if t.fresh ∧ count w ≠ 0 then postWorld d w 0x0905 (count w) u else u
  let s2 := setTouch d { s1.touch d with fresh := false, reload := [] } s1
  s2 |> ev 0 |> ev 1

/-- The unit scans: enabled, in FULL, not stopped, and no self-test runs. -/
def scanning (s : State) (d : Die) : Bool :=
  (s.touch d).enabled && (s.touch d).test.isNone && s.rdF (POWER_STATUS d) POWER_STATUS_STATE == 0 && !unitsStopped s [unitKey d bitTouch] && islandOut s d 18

/-- Leave has come: the unit is powered and scans (R365). -/
def touchLeave (d : Die) (s : State) : State :=
  if hasLeave s d 4 0 then s |> useLeave d 4 0 |> setPowered d bitTouch true |> wrB (TOUCH_STATUS d) TOUCH_STATUS_EN true else s

/-- The counts of a scan are taken (R363). -/
def takeCounts (d : Die) (o : TouchObs) (s : State) : State :=
  ((s.touch d).sensors.map Prod.fst).foldl (fun t k =>
    (sMeas (t.sensor d k).setup).foldl (fun u m => setMeas d m { u.measOf d m with raw := tget 0 m o.counts % 2 ^ 16 } u) t) s

/-- What follows the baselines: faults, contacts, anti-touch, freezing, and the baselines of what is at rest (R363). -/
def scanStages (d : Die) (s2 : State) : State :=
  let ks := (s2.touch d).sensors.map Prod.fst
  let held := ks.filter (fun k => sensorFaulty s2 d (s2.sensor d k).setup)
  let s3 := ks.foldl (fun t k => faultRule d k t) s2
  let live := ks.filter (fun k => !held.contains k && !sensorFaulty s3 d (s3.sensor d k).setup)
  let s4 := live.foldl (fun t k =>
    let x := (t.sensor d k).setup
    let ds := (sMeas x).map (fun m => (m, delta x (t.measOf d m)))
    (if sKind x = 4 then matrixSensor d k t else lineSensor d k t) |> antiRule d k ds) s3
  let active := ks.filter (fun k => sensorActive s4 d k)
  let frozenNow (k : Nat) : Bool :=
    let x := (s4.sensor d k).setup
    active.any (fun j => let g := sGroup (s4.sensor d j).setup; g == sGroup x || nbit (dget x 12 0 16) g)
  let s5 := ks.foldl (fun t k => setSensor d k { t.sensor d k with frozen := frozenNow k } t) s4
  let hz := tHz (s2.touch d).setup
  let s6 := (live.filter (fun k => !frozenNow k)).foldl (fun t k =>
    let x := (t.sensor d k).setup
    (sMeas x).foldl (fun u m => setMeas d m (follow x hz (s5.freeNat m) (u.measOf d m)) u) t) s5
  s6 |> useFree 0x1000 |> refreshTouch d

/-- A scan ends (R363). -/
def scan (d : Die) (o : TouchObs) (s0 : State) : State :=
  if scanning s0 d = false then s0
  else
    let s := touchLeave d s0
    if s.flag (TOUCH_STATUS d) TOUCH_STATUS_EN = false then s
    else if o.overrun then wrB (TOUCH_STATUS d) TOUCH_STATUS_OVERRUN true s
    else s |> takeCounts d o |> fillBaselines d |> scanStages d

/-! ## Low-power scan (R382) -/

/-- A low-power scan of the ganged electrode ends. -/
def lpScan (d : Die) (count : Nat) (s : State) : State :=
  let t := s.touch d
  if s.rdF (POWER_STATUS d) POWER_STATUS_STATE ≠ 2 ∨ s.flag (TOUCH_STATUS d) TOUCH_STATUS_LP_ACTIVE = false then s
  else
    let hz := dget t.setup 28 0 8
    let th := dget t.setup 30 0 16
    let b := t.lpBase.getD (count * 256)
    let dl : Int := sat16 ((count : Int) - b / 256)
    let run := if (th : Int) ≤ dl then t.lpRun + 1 else 0
    let m : Meas := { Meas.empty with raw := count, base := b }
    let b1 := if (th : Int) ≤ 2 * dl then b else (follow (BitVec.ofNat 512 (8 * 2 ^ (8 * 39))) hz (s.freeNat 0) m).base
    let wakes := decide (dget t.setup 29 0 8 ≤ run) && t.lpDelta.isNone
    let s1 := s |> useFree 1 |> setTouch d { t with lpBase := some b1, lpRun := run, lpDelta := if wakes then some (unsgn 16 dl) else t.lpDelta }
    if wakes then wakeUp d 1 s1 else s1

/-! ## External touchscreens (R379–R381) -/

def tshDie (p : Nat) : Die := dieOf 2 p
def tshNo (p : Nat) : Nat := p % 2
def State.tsh (s : State) (p : Nat) : TshPort := tget TshPort.empty (tshNo p) (s.touch (tshDie p)).ports
def setTsh (p : Nat) (x : TshPort) (s : State) : State :=
  setTouch (tshDie p) { s.touch (tshDie p) with ports := tset (tshNo p) x (s.touch (tshDie p)).ports } s

/-- What a read puts on the bus: REG_BYTES bytes of REG, high byte first, then a read of LEN bytes (R380). -/
def readI2c (p : Nat) (setup : Desc) : Out :=
  let n := dget setup 14 0 2
  .i2c (tshDie p) (tshNo p) (dget setup 10 0 7) ((upto n).map (fun i => dget setup 12 0 16 / 2 ^ (8 * (n - 1 - i)) % 256)) (dget setup 15 0 8)

/-- A read starts. -/
def beginRead (p : Nat) (s : State) : State :=
  let d := tshDie p
  let x := s.tsh p
  if 4 ≤ p ∨ s.flag (TSH_STATUS d (tshNo p)) TSH_STATUS_EN = false ∨ x.reading ∨ s.rdF (POWER_STATUS d) POWER_STATUS_STATE ≠ 0 then s
  else s |> setTsh p { x with reading := true, retry := false } |> emit (readI2c p x.setup)

/-- A contact of a report: ID, X, Y. -/
def reportContacts (x : Desc) (bs : List Byte) : List (Nat × Nat × Nat) :=
  let byte (i : Nat) : Nat := (bs.getD i 0).toNat
  let n := if dget x 16 0 8 = 0xFF then dget x 19 0 8 else min (byte (dget x 16 0 8)) (dget x 19 0 8)
  (upto n).filterMap (fun i =>
    let o := dget x 17 0 8 + i * dget x 18 0 8
    let word (a : Nat) : Nat := if dget x 25 0 1 = 1 then byte (o + a) * 256 + byte (o + a + 1) else byte (o + a) + 256 * byte (o + a + 1)
    if nbit (byte (o + dget x 21 0 8)) (dget x 22 0 3) then some (byte (o + dget x 20 0 8), word (dget x 23 0 8), word (dget x 24 0 8)) else none)

/-- TOUCH_I2C, lost or back. -/
def postTsh (p back : Nat) (s : State) : State := postPf0 (tshDie p) 0x0907 (0x10 + p) (back + (s.tsh p).why * 256) s

/-- A report is applied: releases, then moves and touch-downs. -/
def applyReport (p : Nat) (bs : List Byte) (s : State) : State :=
  let d := tshDie p
  let src := 64 + tshNo p
  let rs := reportContacts (s.tsh p).setup bs
  let s1 := (contactsOf s d src).foldl (fun t c => if rs.any (fun r => r.1 == c.key) then t else releaseContact d 2 c t) s
  rs.foldl (fun t r =>
    match (contactsOf t d src).find? (fun c => c.key == r.1) with
    | some c => moveTo d c r.2.1 r.2.2 0 t
    | none => touchDown d src r.1 r.2.1 r.2.2 0 t) s1

/-- A read ends. -/
def readDone (p : Nat) (r : TshReply) (s : State) : State :=
  let d := tshDie p
  let a := TSH_STATUS d (tshNo p)
  let x := s.tsh p
  if 4 ≤ p ∨ x.reading = false then s
  else
    match r with
    | .report bs =>
      let s1 := setTsh p { x with reading := false, retry := false, fails := 0 } s
      let s2 := if s1.flag a TSH_STATUS_LOST then s1 |> wrB a TSH_STATUS_LOST false |> postTsh p 1 else s1
      s2 |> applyReport p bs |> refreshTouch d
    | .failed why =>
      let n := x.fails + 1
      let again := !x.retry
      let s1 := s |> setTsh p { x with reading := again, retry := again, fails := n, why := why % 256 } |> satF a TSH_STATUS_FAILS 1
      let s2 := if again then emit (readI2c p x.setup) s1 else s1
      if 3 ≤ n ∧ s.flag a TSH_STATUS_LOST = false then
        s2 |> wrB a TSH_STATUS_LOST true |> loseContacts d (fun c => c == 64 + tshNo p) |> postTsh p 0 |> refreshTouch d
      else s2

/-! ## Set-up (R364–R366, R372, R376, R379, R384) -/

def touchUnits : RingId → Desc → State → List Nat := fun _ d _ =>
  if dget d 8 0 8 = 0 then [unitKey .a bitTouch] else if dget d 8 0 8 = 1 then [unitKey .b bitTouch] else []

/-- UNIT names this die's unit. -/
def ownUnit (q : RingId) (d : Desc) : Option (Nat × Nat) :=
  andThen (bad (decide (1 < dget d 8 0 8)) 0x08 8) (bad (dget d 8 0 8 != q.fn.ep.idx) 0x09 8)

/-- PF0 or PF1. -/
def bothPf (q : RingId) : Option (Nat × Nat) := bad (q.fn.fn != 0 && q.fn.fn != 63) 0x08 0

/-- World of a submitter. -/
def fnWorld (f : Fun) : Nat := b2n (f.fn == 63)

def unitRange (q : RingId) (d : Desc) (s : State) : Option (Nat × Nat) :=
  let t := s.touch q.fn.ep
  firstFail [onlyPf0 q, ownUnit q d,
    (if dget d 9 0 1 = 0 then firstFail [bad (dget d 9 1 1 != 0) 0x08 9, bad (dget d 10 0 16 != 0) 0x08 10, bad (dget d 12 0 8 != 0) 0x08 12,
        bad (dget d 13 0 2 != 0) 0x08 13, bad (dget d 14 0 16 != 0) 0x08 14, bad (dget d 16 0 96 != 0) 0x08 16, bad (dget d 28 0 8 != 0) 0x08 28,
        bad (dget d 29 0 8 != 0) 0x08 29, bad (dget d 30 0 16 != 0) 0x08 30]
     else firstFail [bad t.enabled 0x09 9, bad (tHz d == 0) 0x07 10, bad (tAvg d == 0) 0x07 12,
        bad (dget d 9 1 1 == 1 && dget d 28 0 8 == 0) 0x07 28, bad (dget d 9 1 1 == 1 && dget d 29 0 8 == 0) 0x07 29,
        bad (!decide (30 ≤ tHz d ∧ tHz d ≤ 480)) 0x08 10, bad (!([1, 2, 4, 8].contains (tAvg d))) 0x08 12, bad (decide (3600 < dget d 14 0 16)) 0x08 14,
        (if dget d 9 1 1 = 0 then firstFail [bad (dget d 16 0 96 != 0) 0x08 16, bad (dget d 28 0 8 != 0) 0x08 28, bad (dget d 29 0 8 != 0) 0x08 29,
            bad (dget d 30 0 16 != 0) 0x08 30]
         else firstFail [bad (!decide (4 ≤ dget d 28 0 8 ∧ dget d 28 0 8 ≤ 50)) 0x08 28, bad (decide (8 < dget d 29 0 8)) 0x08 29]),
        bad (scanTooLong d (t.sensors.map (fun k => k.2.setup))) 0x0B 10])]

/-- The unit goes off: contacts end, leave and power are given up (R365). -/
def touchOff (d : Die) (s : State) : State :=
  s |> loseContacts d (fun c => decide (c < 64)) |> fun t =>
    t |> setTouch d { t.touch d with enabled := false, fresh := false,
                                     sensors := (t.touch d).sensors.map (fun k => (k.1, { k.2 with count := 0, peaks := [], antiFault := false, frozen := false })) }
      |> wrB (TOUCH_STATUS d) TOUCH_STATUS_EN false |> dropLeave d 4 0 |> gateIdle d bitTouch |> refreshTouch d

def opTouchUnit : OpSpec :=
  mkOp 0x90 false ([(9, 2, 6), (13, 2, 6)] ++ rsv 32 64) touchUnits unitRange notEmpty
   (fun t d s =>
    let e := t.die
    if dget d 9 0 1 = 0 then powerRequest e bitTouch t d (fun u => (some (stOk, 0), if (u.touch e).enabled then touchOff e u else u)) s
    else
      let s1 := dropVote e bitTouch s
      (some (stOk, 0), s1 |> setTouch e { s1.touch e with setup := d, enabled := true, fresh := true, meas := [] } |> askLeave e 4 0 true
        |> dueIsland e 18 |> refreshTouch e))

/-- The sensor has a region with a live route. -/
def sensorRouted (s : State) (d : Die) (k : Nat) : Bool := (regionsOf s d k).any (fun r => (regionRoute s d r.1).isSome)

def sensorRange (q : RingId) (d : Desc) (s : State) : Option (Nat × Nat) :=
  let e := q.fn.ep
  let t := s.touch e
  let k := dget d 9 0 8
  let kind := sKind d
  let cs := sChannels d
  let others := t.sensors.filter (fun x => x.1 != k)
  let nch := dget d 14 0 8
  let foreign (xs : List Nat) : Bool := xs.any (fun c => b2n (pinSecure s e (0x200 + c)) != fnWorld q.fn)
  firstFail [bothPf q, ownUnit q d, bad (decide (63 < k)) 0x08 9, bad (decide (4 < kind)) 0x08 10,
    (if kind = 0 then
      firstFail [(match tfind k t.sensors with
        | some x => bad (foreign (sChannels x.setup)) 0x08 9
        | none => none), bad t.enabled 0x09 8, bad (sensorRouted s e k) 0x09 9]
     else firstFail [
        bad (kind != 4 && nch == 0) 0x07 14, bad (kind == 4 && dget d 15 0 8 == 0) 0x07 15,
        bad (kind == 4 && sNtx d == 0) 0x07 17, bad (kind == 4 && sNrx d == 0) 0x07 19,
        bad (dget d 32 0 16 == 0) 0x07 32, bad (dget d 38 0 8 == 0) 0x07 38, bad (dget d 39 0 8 == 0) 0x07 39, bad (dget d 40 0 16 == 0) 0x07 40,
        bad (kind != 1 && sMutual d) 0x08 11,
        bad (if kind = 1 then nch != (if sMutual d then 2 else 1) else if kind = 2 then !decide (2 ≤ nch ∧ nch ≤ 16)
          else if kind = 3 then !decide (3 ≤ nch ∧ nch ≤ 16) else nch != 0) 0x08 14,
        bad (if kind = 4 then decide (10 < dget d 15 0 8) else dget d 15 0 8 != 0) 0x08 15,
        bad (kind == 4 && decide (32 < sNtx d)) 0x08 17, bad (kind == 4 && decide (64 < sNrx d)) 0x08 19,
        bad (kind == 4 && dget d 20 0 96 != 0) 0x08 20,
        bad (decide (dget d 32 0 16 ≤ dget d 34 0 16)) 0x08 34, bad (decide (8 < dget d 38 0 8)) 0x08 38, bad (decide (64 < dget d 39 0 8)) 0x08 39,
        bad (!decide (10 ≤ dget d 40 0 16 ∧ dget d 40 0 16 ≤ 10000)) 0x08 40, bad (decide (dget d 44 0 16 ≤ dget d 42 0 16)) 0x08 44,
        bad (cs.any (fun c => decide (95 < c)) || cs.any (fun c => others.any (fun x => (sChannels x.2.setup).contains c))) 0x09 16,
        bad (kind == 4 && others.any (fun x => sKind x.2.setup == 4)) 0x09 10,
        bad (foreign cs) 0x08 16,
        bad t.enabled 0x09 8, bad (sensorRouted s e k) 0x09 9,
        bad (tHz t.setup != 0 && scanTooLong t.setup (d :: others.map (fun x => x.2.setup))) 0x0B 10])]

/-- Registers of a sensor that goes read zero. -/
def clearSensor (d : Die) (k : Nat) (s : State) : State :=
  let x := (s.sensor d k).setup
  (sChannels x).foldl (fun t c => t |> wr (TOUCH_RAW d c) 0 |> wr (TOUCH_BASE d c) 0) (wr (TOUCH_SENSOR_STATUS d k) 0 s)

/-- Registers of a region that goes read zero. -/
def dropRegion (d : Die) (r : Nat) (s : State) : State :=
  s |> setTouch d { s.touch d with regions := tkeep (fun k => k != r) (s.touch d).regions } |> wr (TOUCH_REGION_STATUS d r) 0

def opTouchSensor : OpSpec :=
  mkOp 0x91 false ([(11, 5, 3)] ++ rsv 46 64) touchUnits sensorRange notEmpty
   (fun t d s =>
    let e := t.die
    let k := dget d 9 0 8
    let old := s.sensor e k
    let s1 := clearSensor e k s
    let s2 := if sKind old.setup ≠ sKind d then (regionsOf s e k).foldl (fun u r => dropRegion e r.1 u) s1 else s1
    let tt := s2.touch e
    let gone := sMeas old.setup
    let s3 := setTouch e { tt with meas := tkeep (fun m => !gone.contains m) tt.meas,
                                   sensors := if sKind d = 0 then tkeep (fun j => j != k) tt.sensors else tset k { Sensor.empty with setup := d } tt.sensors } s2
    (some (stOk, 0), refreshTouch e s3))

/-- World of a region's source: 1 where it is a sensor of S channels. -/
def regionWorld (s : State) (d : Die) (r : Desc) : Nat := if dget r 9 0 8 = 1 then sWorld s d (s.sensor d (dget r 10 0 8)).setup else 0

/-- Rectangles of two regions overlap. -/
def overlaps (a b : Desc) : Bool :=
  decide (dget a 12 0 16 ≤ dget b 16 0 16 ∧ dget b 12 0 16 ≤ dget a 16 0 16 ∧ dget a 14 0 16 ≤ dget b 18 0 16 ∧ dget b 14 0 16 ≤ dget a 18 0 16)

def regionRange (q : RingId) (d : Desc) (s : State) : Option (Nat × Nat) :=
  let e := q.fn.ep
  let n := dget d 8 0 8
  let src := dget d 9 0 8
  let sel := dget d 10 0 8
  let key := if src = 1 then sel else 64 + sel
  let x := (s.sensor e sel).setup
  let flat := src == 1 && sKind x != 4
  let others := (regionsOf s e key).filter (fun r => r.1 != n)
  firstFail [bothPf q, bad (decide (2 < src)) 0x08 9,
    (if src = 0 then
      (match tfind n (s.touch e).regions with
       | some r => bad (regionWorld s e r != fnWorld q.fn) 0x08 0
       | none => none)
     else firstFail [bad (src == 1 && decide (63 < sel)) 0x08 10, bad (src == 2 && decide (1 < sel)) 0x08 10,
       bad (src == 1 && (tfind sel (s.touch e).sensors).isNone) 0x09 10,
       bad (regionWorld s e d != fnWorld q.fn) 0x08 10,
       bad (flat && (dget d 12 0 64 != 0)) 0x08 12,
       bad (!flat && decide (dget d 16 0 16 < dget d 12 0 16)) 0x08 16, bad (!flat && decide (dget d 18 0 16 < dget d 14 0 16)) 0x08 18]),
    bad (regionRoute s e n).isSome 0x09 8,
    bad (src != 0 && flat && !others.isEmpty) 0x09 10,
    bad (src != 0 && !flat && others.any (fun r => overlaps d r.2)) 0x09 12]

def opTouchRegion : OpSpec :=
  mkOp 0x92 false (rsv 11 12 ++ rsv 20 64) (fun q d _ => if dget d 9 0 8 = 1 then [unitKey q.fn.ep bitTouch] else []) regionRange notEmpty
   (fun t d s =>
    let e := t.die
    let n := dget d 8 0 8
    if dget d 9 0 8 = 0 then (some (stOk, 0), dropRegion e n s)
    else (some (stOk, 0), s |> setTouch e { s.touch e with regions := tset n d (s.touch e).regions } |> refreshTouch e))

def i2cRange (q : RingId) (d : Desc) (_ : State) : Option (Nat × Nat) :=
  let size := dget d 18 0 8
  firstFail [onlyPf0 q, onDie q 2 (dget d 8 0 8) 8,
    (if dget d 9 0 1 = 0 then firstFail ([bad (dget d 9 1 3 != 0) 0x08 9] ++ (upto 16).map (fun i => bad (dget d (10 + i) 0 8 != 0) 0x08 (10 + i)))
     else firstFail [bad (dget d 9 3 1 == 0 && dget d 11 0 8 == 0) 0x07 11, bad (dget d 15 0 8 == 0) 0x07 15, bad (size == 0) 0x07 18,
        bad (dget d 19 0 8 == 0) 0x07 19, bad (dget d 9 1 2 == 3) 0x08 9,
        bad (if dget d 9 3 1 = 1 then dget d 11 0 8 != 0 else !decide (10 ≤ dget d 11 0 8 ∧ dget d 11 0 8 ≤ 250)) 0x08 11,
        bad (dget d 14 0 2 == 3) 0x08 14, bad (dget d 16 0 8 != 0xFF && decide (dget d 15 0 8 ≤ dget d 16 0 8)) 0x08 16,
        bad (decide (dget d 15 0 8 < dget d 17 0 8 + dget d 19 0 8 * size)) 0x08 17, bad (decide (32 < size)) 0x08 18, bad (decide (10 < dget d 19 0 8)) 0x08 19,
        bad (decide (size ≤ dget d 20 0 8)) 0x08 20, bad (decide (size ≤ dget d 21 0 8)) 0x08 21, bad (decide (size < dget d 23 0 8 + 2)) 0x08 23,
        bad (decide (size < dget d 24 0 8 + 2)) 0x08 24])]

def opTouchI2c : OpSpec :=
  .crossing (fun _ d _ => [(tshDie (dget d 8 0 8), 0x88 + 4 * tshNo (dget d 8 0 8))]) <|
  mkOp 0x93 false ([(9, 4, 4), (10, 7, 1), (14, 2, 6), (22, 3, 5), (25, 1, 7)] ++ rsv 26 64) noUnits i2cRange notEmpty
   (fun _ d s =>
    let p := dget d 8 0 8
    let e := tshDie p
    let a := TSH_STATUS e (tshNo p)
    let on := dget d 9 0 1 == 1
    let s1 := if on then s else loseContacts e (fun c => c == 64 + tshNo p) s
    (some (stOk, 0), s1 |> setTsh p { TshPort.empty with setup := d } |> wrB a TSH_STATUS_EN on |> wrB a TSH_STATUS_LOST false |> refreshTouch e))

def refRange (q : RingId) (d : Desc) (s : State) : Option (Nat × Nat) :=
  let e := q.fn.ep
  firstFail [bothPf q, ownUnit q d, bad (decide (2 < dget d 9 0 8)) 0x08 9,
    bad (dget d 9 0 8 == 0 && (s.touch e).sensors.any (fun k => sWorld s e k.2.setup == fnWorld q.fn && sensorActive s e k.1)) 0x08 9]

/-- TOUCH_REF (R372): 0 stores, 1 reloads at the next scan, 2 erases; storing and erasing wait for their snapshot (R469). -/
def opTouchRef : OpSpec :=
  mkOp 0x94 false (rsv 10 64) touchUnits refRange notEmpty
   (fun t d s =>
    let e := t.die
    let w := fnWorld t.fn
    if dget d 9 0 8 = 1 then (some (stOk, 0), setTouch e { s.touch e with reload := w :: (s.touch e).reload } s)
    else if dget d 9 0 8 = 0 then
      (none, ((s.touch e).sensors.filter (fun k => sWorld s e k.2.setup == w)).foldl (fun u k =>
        (sMeas k.2.setup).foldl (fun v m => storeRef e k.2.setup m v) u) s |> requestSnap e 3 (some t) |> refreshTouch e)
    else (none, s |> eraseRefs e w |> requestSnap e 3 (some t) |> refreshTouch e))

def opTouchSelftest : OpSpec :=
  .crossing (fun q _ s => if (s.touch q.fn.ep).enabled then [(q.fn.ep, 0x80)] else []) <|
  { mkOp 0x95 false (rsv 9 10 ++ rsv 12 16 ++ rsv 24 64) touchUnits
     (fun q d _ => firstFail [bothPf q, ownUnit q d, bad (dget d 16 0 6 != 0) 0x08 16]) notEmpty
     (fun t d s => (none, setTouch t.die { s.touch t.die with test := some (t, d) } s)) with
    defer := fun q _ s => (s.touch q.fn.ep).test.isSome }

/-- The record of a channel (R384), and whether it fails. -/
def testRecord (s : State) (d : Die) (world shortTh : Nat) (counts : List (Nat × Nat × Nat)) (c : Nat) : List Byte × Bool :=
  if b2n (pinSecure s d (0x200 + c)) ≠ world then (leBytes 8 (8 * 2 ^ 32), false)
  else
    let (self, mutual_, nb) := counts.getD c (0, 0, 0)
    let (lo, hi) := match (s.touch d).sensors.find? (fun k => (sChannels k.2.setup).contains c) with
      | some k => (dget k.2.setup 42 0 16, dget k.2.setup 44 0 16)
      | none => (1000, 60000)
    let flags := b2n (decide (self < lo)) + 2 * b2n (decide (hi < self)) + 4 * b2n (decide (shortTh < mutual_))
    (leBytes 8 (self % 2 ^ 16 + mutual_ % 2 ^ 16 * 2 ^ 16 + flags * 2 ^ 32 + nb % 256 * 2 ^ 40), flags != 0)

/-- The self-test ends. -/
def selftestDone (d : Die) (counts : List (Nat × Nat × Nat)) (s : State) : State :=
  match (s.touch d).test with
  | none => s
  | some (t, desc) =>
    let rs := (upto 96).map (testRecord s d (fnWorld t.fn) (dget desc 10 0 16) counts)
    let s1 := setTouch d { s.touch d with test := none } s
    match dmaWrite d t.fn t.ring.ring (dget desc 16 0 64) (rs.flatMap Prod.fst) s1 with
    | (some e, s2) => finish t e.completion.1 e.completion.2 s2
    | (none, s2) => finish t stOk (rs.filter (fun r => r.2)).length s2

/-! ## Routes (R378) -/

def touchCheck (s : State) (self : Nat) (r : Route) : Option (Nat × Nat) :=
  let d : Die := if epUnit r.source = 0 then .a else .b
  let n := epSub r.source
  let reg := tfind n (s.touch d).regions
  let x := match reg with
    | some g => if dget g 9 0 8 = 1 then (s.sensor d (dget g 10 0 8)).setup else 0
    | none => 0
  firstFail [
    badEp 16 (epType r.source != 0x30) (decide (1 < epUnit r.source)) (decide (255 < n)) (epArg r.source != 0), isTenant 24 r.sink,
    bad (pget r 32 1 7 != 0) 0x01 32, zeroParams r 34 48,
    bad (reg.isNone || (routesOf s 4).any (fun y => y.1 != self && epUnit y.2.source == epUnit r.source && epSub y.2.source == n)) 0x09 18,
    (match reg with
     | none => none
     | some g =>
       if dget g 9 0 8 = 2 then bad (r.cls == 0) 0x08 12
       else if sKind x = 4 then bad ((sWorld s d x == 1) != (r.cls == 0)) 0x08 12
       else bad ((sChannels x).any (fun c => pinSecure s d (0x200 + c) != isPf1 r.grantee || pinOwner s d (0x200 + c) != r.grantee)) 0x09 18)]

/-- A contact of the region is present: a change of its route waits (Table 1.4). -/
def regionHeld (s : State) (r : Route) : Bool :=
  let d : Die := if epUnit r.source = 0 then .a else .b
  (s.touch d).contacts.any (fun c => c.region == some (epSub r.source))

/-! ## Meanings -/

def execTouchUnit (q : RingId) (desc : Desc) (s : State) : Host.Outcome State Fault Refusal := run (submit opTouchUnit q desc) s

def execTouchSensor (q : RingId) (desc : Desc) (s : State) : Host.Outcome State Fault Refusal := run (submit opTouchSensor q desc) s

def execTouchRegion (q : RingId) (desc : Desc) (s : State) : Host.Outcome State Fault Refusal := run (submit opTouchRegion q desc) s

def execTouchI2c (q : RingId) (desc : Desc) (s : State) : Host.Outcome State Fault Refusal := run (submit opTouchI2c q desc) s

def execTouchRefStore (q : RingId) (desc : Desc) (s : State) : Host.Outcome State Fault Refusal := run (submit opTouchRef q desc) s

def execTouchRefReload (q : RingId) (desc : Desc) (s : State) : Host.Outcome State Fault Refusal := run (submit opTouchRef q desc) s

def execTouchRefErase (q : RingId) (desc : Desc) (s : State) : Host.Outcome State Fault Refusal := run (submit opTouchRef q desc) s

def execTouchSelftest (q : RingId) (desc : Desc) (s : State) : Host.Outcome State Fault Refusal := run (submit opTouchSelftest q desc) s

def execTouchSelftestDone (d : Die) (counts : List (Nat × Nat × Nat)) (s : State) : Host.Outcome State Fault Refusal := run (selftestDone d counts) s

def execTouchScan (d : Die) (obs : TouchObs) (s : State) : Host.Outcome State Fault Refusal := run (scan d obs) s

def execTouchLpScan (d : Die) (count : Nat) (s : State) : Host.Outcome State Fault Refusal := run (lpScan d count) s

def execTshInt (port : Nat) (s : State) : Host.Outcome State Fault Refusal :=
  run (fun s => if dget (s.tsh port).setup 9 3 1 = 1 then beginRead port s else s) s

def execTshRead (port : Nat) (s : State) : Host.Outcome State Fault Refusal := run (beginRead port) s

def execTshReadDone (port : Nat) (reply : TshReply) (s : State) : Host.Outcome State Fault Refusal := run (readDone port reply) s

end Sys2Proof.Machine
end

