-- ==== Sys2Proof/Machine/Power.lean ====
section
/-! DEFINITION. Power states and unit gating (16.1 to 16.7). -/
namespace Sys2Proof.Machine

def powerState (s : State) (d : Die) : Nat := s.rdF (POWER_STATUS d) POWER_STATUS_STATE
def setPowerState (d : Die) (v : Nat) (s : State) : State := wrF (POWER_STATUS d) POWER_STATUS_STATE v s

/-- The dies on which a request on a die's PF0 acts (R405). -/
def actedDies (s : State) (g : Die) : List Die := if s.split then [g] else bothDies

/-- FAILOVER_n follows its conditions (R488). -/
def refreshFailover (d : Die) (s : State) : State :=
  setBoot d { s.boot d with failover := powerState s d == 0 && s.flag (BOOT_STATUS d) BOOT_STATUS_READY
                                          && !s.flag (WDOG_STATUS d) WDOG_STATUS_EXPIRED && supRuns s d } s

/-- POWER_STATE (R419): the new state, the wake source if any, and the time since the last state was reached. -/
def postPower (d : Die) (st wake : Nat) (s : State) : State :=
  let ms := (s.now d - (s.power d).since) / 1000000
  s |> postEbrum d 0x0103 (st + wake * 2 ^ 8 + min 0xFFFFFFFF ms * 2 ^ 32) true |> setPower d { s.power d with since := s.now d }

/-! ## Requests (R405, R406) -/

/-- The claim that R406 names: the lowest on the first die that holds one. -/
def firstClaim (s : State) (ds : List Die) : Option (Die × Nat) :=
  ds.findSome? (fun d => ((upto 29).find? (claimed s d)).map (fun b => (d, b)))

/-- The vote on the device state is gone or set, on every die that it acts on. -/
def markDeviceVote (g : Die) (on : Bool) (s : State) : State :=
  (actedDies s g).foldl (fun t d => t |> setVoteBit d bitDevice on |> wrB (POWER_STATUS d) POWER_STATUS_HELD on) s

/-- A later request replaces the vote on the device state (R118). -/
def dropDeviceVote (g : Die) (s : State) : State :=
  if (tfind (unitKey g bitDevice) s.votes).isSome then s |> dropVote g bitDevice |> markDeviceVote g false else s

/-- Entry begins: what is first on every die (Table 16.4, steps 1 and 2). -/
def beginEntry (g : Die) (what : Nat) (s : State) : State :=
  let ds := actedDies s g
  let s1 := ds.foldl (fun t d => setPowerState d (if what = 1 then 1 else 4) t) s
  let s2 := ds.foldl (fun t d => ((t.gpu d).jobs.filter (fun j => j.clusters != [])).foldl (fun u j => askJob d 4 j.clusters u j) t) s1
  let s3 := if ds.contains .a then (audioRoutes s2).foldl (fun t x => setEnv x.1 false t) s2 else s2
  let s4 := ((upto 8).filter (fun c => ds.contains (hapDie c))).foldl (fun t c =>
    let t1 := match (t.hap c).queued with
      | some st => t |> setHap c { t.hap c with queued := none } |> endPlay st.play 7 0
      | none => t
    brakeWith c 7 t1) s3
  ds.foldl (fun t d => t |> loseContacts d (fun _ => true) |> refreshTouch d |> refreshFailover d) s4

/-- A request that waits begins, unless a set-point change runs on a die it acts on (R312, R407). -/
def tryEntry (g : Die) (s : State) : State :=
  match (s.power g).request with
  | none => s
  | some (_, what, _) =>
    if powerState s g ≠ 0 ∨ (actedDies s g).any (fun d => s.flag (DRAM_STATUS d) DRAM_STATUS_FSP_BUSY) then s else beginEntry g what s

/-- POWER_STATE: it is held under any claim, or the entry begins. -/
def powerWork (t : Ticket) (desc : Desc) (s : State) : Option (Nat × Nat) × State :=
  let g := t.die
  let s1 := dropDeviceVote g s
  match firstClaim s1 (actedDies s1 g) with
  | some (d, b) =>
    let dt := heldDetail d b
    let s2 := s1 |> owe t |> markDeviceVote g true
    (some (stSecureHeld, dt), { s2 with votes := tset (unitKey g bitDevice) ⟨t, desc, dt⟩ s2.votes })
  | none => (none, s1 |> setPower g { s1.power g with request := some (t, dget desc 8 0 8, false) } |> tryEntry g)

def opPowerState : OpSpec :=
  mkOp 0xA0 false (rsv 9 64) noUnits
   (fun q d s => firstFail [onlyPf0 q, bad (dget d 8 0 8 != 1 && dget d 8 0 8 != 2) 0x08 8, bad (!s.split && q.fn.ep == .b) 0x09 0,
      bad (s.split && dget d 8 0 8 == 2) 0x09 8, bad ((s.power q.fn.ep).request.isSome) 0x0A 8])
   notEmpty powerWork

/-- No claim remains on any die that the vote acts on: it is carried out (R406). -/
def carryDeviceVote (g : Die) (s : State) : State :=
  match tfind (unitKey g bitDevice) s.votes with
  | none => s
  | some v =>
    if (firstClaim s (actedDies s g)).isSome then s
    else
      let s1 := { s with votes := tkeep (fun k => k != unitKey g bitDevice) s.votes } |> markDeviceVote g false
      s1 |> setPower g { s1.power g with request := some (v.ticket, dget v.desc 8 0 8, true) } |> tryEntry g

/-- The running request completes: DONE, or FURTHER for one that was held. -/
def requestDone (g : Die) (s : State) : State :=
  match (s.power g).request with
  | none => s
  | some (t, _, further) =>
    let s1 := setPower g { s.power g with request := none } s
    if further then postLast t 2 stOk 0 s1 else finish t stOk 0 s1

/-! ## Entry to PEARL (R407) -/

/-- A head stops and keeps its set-up. -/
def pauseHead (h : Nat) (s : State) : State :=
  let a := HEAD_CFG (headDie h) (headNo h)
  let w := HEAD_CFG_MODE_PENDING.put 0 (s.rd a)
  s |> stopHead h |> wr a w |> refreshFloor (headDie h)

/-- A camera port stops as a disable does, and keeps its set-up. -/
def pauseCam (p : Nat) (s : State) : State :=
  let a := CAM_PORT_CFG (camDie p) (camNo p)
  let w := s.rd a
  s |> stopCam p 1 |> wr a w |> refreshFloor (camDie p)

def diesHeads (d : Die) : List Nat := (upto 4).map (fun n => 4 * d.idx + n)

/-- The units of the die have come to rest: heads have met their frame start, GPU contexts are saved, COPY and CRC work has ended, haptic
effects have ended. -/
def atRest (s : State) (d : Die) : Bool :=
  (diesHeads d).all (fun h => decide ((s.head h).phase ≤ 2) || s.flag (HEAD_STATUS d (headNo h)) HEAD_STATUS_PLL_LOST)
    && (s.gpu d).jobs.all (fun j => j.clusters == []) && (s.check d).jobs == []
    && (upto 8).all (fun c => hapDie c != d || (s.hap c).run.isNone)

/-- Units gated in PEARL: heads, composer, cameras, warp, audio, haptic channels, clusters; and the bit of FULL. -/
def gatedInPearl (w : Nat) : Nat := (upto 29).foldl (fun x b => if b = 15 ∨ (16 ≤ b ∧ b ≤ 19) then x else setBit x b false) w

/-- Steps 3 to 5 of Table 16.4 on a die. -/
def gateDie (d : Die) (s : State) : State :=
  let s1 := ltEndAll d s
  let s2 := ((diesHeads d).filter (headOn s1)).foldl (fun t h => pauseHead h t) s1
  let s3 := ((upto 4).filter (fun n => s2.flag (CAM_PORT_CFG d n) CAM_PORT_CFG_EN)).foldl (fun t n => pauseCam (4 * d.idx + n) t) s2
  let s4 := ((upto 8).filter (clusterOn s3 d)).foldl (fun t c => powerCluster d c false t) s3
  let lp := (s4.touch d).enabled && dget (s4.touch d).setup 9 1 1 == 1
  s4 |> garnetLost d |> cacheFlush d (fun _ _ => true) |> wrB (DRAM_STATUS d) DRAM_STATUS_SELF_REFRESH true
    |> wr (UNIT_POWERED d) (BitVec.ofNat 32 (gatedInPearl (s4.rd (UNIT_POWERED d)).toNat))
    |> (fun t => if lp then t |> setTouch d { t.touch d with lpBase := none, lpRun := 0, lpDelta := none } |> wrB (TOUCH_STATUS d) TOUCH_STATUS_LP_ACTIVE true
                 else t)

/-- A timer that is due, and WAKEn that is low, fire when PEARL is reached (R408). -/
def levelSources (g : Die) (s : State) : State :=
  let t := s.rd64 (WAKE_TIMER_LO g)
  let s1 := if 10 ≤ (s.power g).wakeLow then wakeUp g 0 s else s
  if t ≠ 0 ∧ t ≤ s1.now g then wakeUp g 5 s1 else s1

/-- PWREN_FT is low only while both dies are in PEARL (R402). -/
def refreshFtRail (s : State) : State :=
  let on := !(bothDies.all (fun d => powerState s d == 2))
  bothDies.foldl (fun t d => wrB (POWER_STATUS d) POWER_STATUS_FT_RAIL_ON on t) s

/-- PEARL is reached. -/
def pearlReached (d0 : Die) (s : State) : State :=
  let g := powerDie s d0
  let ds := actedDies s g
  if powerState s g ≠ 1 ∨ (ds.all (atRest s)) = false then s
  else
    let s1 := ds.foldl (fun t d => t |> gateDie d |> setPowerState d 2 |> refreshFloor d) s
    let s2 := s1 |> refreshFtRail |> requestDone g
    levelSources g (ds.foldl (fun t d => postPower d 2 0xFF t) s2)

/-! ## Leaving PEARL (R409) -/

/-- A wake source has fired, or a split is due: the exit begins. -/
def beginExit (d0 : Die) (s : State) : State :=
  let g := powerDie s d0
  let ds := actedDies s g
  let due := ds.any (fun d => (s.ebrum d).splitDue.isSome)
  if powerState s g ≠ 2 ∨ ((s.power g).wakes = [] ∧ due = false) then s
  else
    let bit := match (s.power g).wakes.head? with
      | some b => 2 ^ b
      | none => 0
    refreshFtRail (ds.foldl (fun t d => t |> setPowerState d 3 |> wrF (POWER_STATUS d) POWER_STATUS_LAST_WAKE bit
      |> setPower d { t.power d with step := 1 } |> refreshFloor d) s)

/-- FT_RAIL_WAIT_US has passed: the frame tier asks for leave. -/
def railSettled (d : Die) (s : State) : State :=
  if powerState s d = 3 ∧ (s.power d).step = 1 then s |> setPower d { s.power d with step := 2 } |> askLeave d 2 0 true else s

/-- A ticket of a unit that starts by itself: it belongs to no flight. -/
def noTicket (d : Die) : Ticket := ⟨⟨pf0 d, 0⟩, 0, 0, 0, 0⟩

/-- Units start again (Table 16.5, step 7). -/
def resumeUnits (d : Die) (s : State) : State :=
  let s1 := ((diesHeads d).filter (headOn s)).foldl (fun t h =>
    t |> setHead h { t.head h with phase := 1 } |> setPowered d (bitHead (headNo h)) true |> setPowered d bitComposer true
      |> raiseFloor d ⟨1, h, none, 0, 0⟩ (startHead h)) s
  let s2 := ((upto 4).filter (fun n => s1.flag (CAM_PORT_CFG d n) CAM_PORT_CFG_EN)).foldl (fun t n =>
    let p := 4 * d.idx + n
    t |> setCamPort p { t.camPort p with ticket := some (noTicket d), started := false } |> raiseFloor d ⟨2, p, none, 0, 0⟩ (startCam p)) s1
  let s3 := if s2.routes.any (fun x => isWarpRoute x.2 && camRouteDie x.2 == d) then setPowered d bitWarp true s2 else s2
  let s4 := ((upto 8).filter (fun c => hapDie c == d && hapOn s3 c)).foldl (fun t c =>
    t |> setHap c { t.hap c with ticket := some (noTicket d) } |> askLeave d 5 (hapNo c) true) s3
  if d = .a then
    let s5 := if (upto 16).any (busOn s4) then setPowered .a bitAudio true s4 else s4
    (audioRoutes s5).foldl (fun t x => if frozen t x.2.grantee ∨ (t.split ∧ acrossTo .a x.2.grantee) then t else setEnv x.1 true t) s5
  else s4

/-- FULL is reached on a die. -/
def fullReached (d : Die) (wake : Nat) (s : State) : State :=
  let s1 := s |> wrB (DRAM_STATUS d) DRAM_STATUS_SELF_REFRESH false
    |> (fun t => match (t.dram d).waitTarget with
        | some g => t |> setDram d { t.dram d with waitTarget := none } |> beginFsp d g
        | none => t)
    |> setPowerState d 0 |> setPowered d bitDevice true |> setPower d { s.power d with step := 0, wakes := [] }
    |> postPower d 0 wake
  let s2 := match (s1.touch d).lpDelta with
    | some x => s1 |> setTouch d { s1.touch d with lpDelta := none } |> postPf0 d 0x0906 d.idx x
    | none => s1
  let s3 := s2 |> wrB (TOUCH_STATUS d) TOUCH_STATUS_LP_ACTIVE false |> refreshFloor d |> resumeUnits d |> refreshFailover d
  match (s3.ebrum d).splitDue with
  | some c => declareSplit d c s3
  | none => s3

/-- The bulk refresh ends; when it has on every die, FULL is reached. -/
def bulkDone (d : Die) (s : State) : State :=
  if powerState s d ≠ 3 ∨ (s.power d).step ≠ 2 ∨ hasLeave s d 2 0 = false then s
  else
    let s1 := s |> useLeave d 2 0 |> setPower d { s.power d with step := 3 }
    let g := powerDie s1 d
    let ds := actedDies s1 g
    if ds.all (fun e => (s1.power e).step == 3) then
      let wake := (s1.power g).wakes.headD 0xFF
      ds.foldl (fun t e => fullReached e wake t) s1
    else s1

/-! ## Wake sources (R408, R411) -/

/-- WAKEn has been low for some time (0: it is high). -/
def wakenPin (us : Nat) (s : State) : State :=
  bothDies.foldl (fun t d =>
    let t1 := setPower d { t.power d with wakeLow := us } t
    if 10 ≤ us ∧ (t1.power d).onyx = false then wakeUp d 0 t1 else t1) s

/-- The counter reaches WAKE_TIMER: a pulse on crossing 0xC7, which the fabric sees while the crossing is up (R38, R408). -/
def wakeTimer (d : Die) (s : State) : State :=
  let t := s.rd64 (WAKE_TIMER_LO d)
  if t ≠ 0 ∧ t ≤ max (s.now d) (s.tbase d).counter ∧ powerDie s d = d then
    let s1 := xingPulse d 0xC7 s
    if s.flag (XING_STATUS d 0xC7) XING_STATUS_PEER_RESET ∨ (s.xing d 0xC7).stopped then s1 else wakeUp d 5 s1
  else s

/-! ## UNIT_POWER (R414) -/

/-- Work or a live route needs the unit. -/
def unitInUse (s : State) (d : Die) (b : Nat) : Bool :=
  if b < 4 then s.flag (HEAD_CFG d b) HEAD_CFG_ENABLED
  else if b = 4 then (upto 4).any (fun n => s.flag (HEAD_CFG d n) HEAD_CFG_ENABLED)
  else if b < 9 then s.flag (CAM_PORT_CFG d (b - 5)) CAM_PORT_CFG_EN
  else if b = 9 then s.routes.any (fun x => isWarpRoute x.2 && camRouteDie x.2 == d)
  else if b = 10 then (upto 16).any (busOn s)
  else if b < 15 then hapOn s (4 * d.idx + (b - 11))
  else if b = 15 then (s.touch d).enabled
  else if b < 20 then true
  else (clusterJob s d (b - 20)).isSome

/-- ACTION takes effect. A cluster under automatic gating keeps its idle timer. -/
def unitAction (d : Die) (b act : Nat) (s : State) : State :=
  let s1 := s |> wr (UNIT_KEEP_ON d) (BitVec.ofNat 32 (setBit (s.rd (UNIT_KEEP_ON d)).toNat b (act == 2)))
    |> wr (UNIT_OFF_IDLE d) (BitVec.ofNat 32 (setBit (s.rd (UNIT_OFF_IDLE d)).toNat b (act == 1)))
  if act = 2 ∨ unitInUse s1 d b then s1
  else if 20 ≤ b then (if act = 1 then powerCluster d (b - 20) false s1 else s1)
  else setPowered d b false s1

def opUnitPower : OpSpec :=
  { mkOp 0xA1 false (rsv 10 64) (fun q d _ => if dget d 8 0 8 < 28 then [unitKey q.fn.ep (dget d 8 0 8)] else [])
     (fun q d _ => firstFail [onlyPf0 q, bad (decide (28 ≤ dget d 8 0 8)) 0x08 8, bad (decide (2 < dget d 9 0 8)) 0x08 9]) notEmpty
     (fun t d s =>
      let b := dget d 8 0 8
      let act := dget d 9 0 8
      let lowers := act == 1 || (act == 0 && nbit (s.rd (UNIT_KEEP_ON t.die)).toNat b)
      if lowers ∧ claimed s t.die b then holdVote t.die b t d s
      else (some (stOk, 0), s |> dropVote t.die b |> unitAction t.die b act)) with held := false }

/-! ## Meanings -/

def execPowerStatePearl (q : RingId) (desc : Desc) (s : State) : Host.Outcome State Fault Refusal := run (submit opPowerState q desc) s

def execPowerStateOnyx (q : RingId) (desc : Desc) (s : State) : Host.Outcome State Fault Refusal := run (submit opPowerState q desc) s

def execPearlEntryComplete (d : Die) (s : State) : Host.Outcome State Fault Refusal := run (pearlReached d) s

def execUnitPower (q : RingId) (desc : Desc) (s : State) : Host.Outcome State Fault Refusal := run (submit opUnitPower q desc) s

def execWakenLow (us : Nat) (s : State) : Host.Outcome State Fault Refusal := run (wakenPin us) s

def execWakeTimerReached (d : Die) (s : State) : Host.Outcome State Fault Refusal := run (wakeTimer d) s

def execPearlExit (d : Die) (s : State) : Host.Outcome State Fault Refusal := run (beginExit d) s

def execFtRailSettled (d : Die) (s : State) : Host.Outcome State Fault Refusal := run (railSettled d) s

def execFtBulkRefreshDone (d : Die) (s : State) : Host.Outcome State Fault Refusal := run (bulkDone d) s

/-- A set-point change ends; a power request that waits for it goes on (R312). -/
def execFspDone (d : Die) (closureNs : Nat) (s : State) : Host.Outcome State Fault Refusal :=
  run (fun s => s |> fspEnds d closureNs |> tryEntry (powerDie s d)) s

end Sys2Proof.Machine
end

