-- ==== Sys2Proof/Machine/Routes.lean ====
section
/-! DEFINITION. Routes: creation, change, deletion, query (1.5, 3.11), and the votes that end with a claim (R118). -/
namespace Sys2Proof.Machine

/-! ## Votes carried out (R118) -/

/-- The opcode of a vote on a unit. -/
def voteOp (opcode : Nat) : Option OpSpec :=
  [opHeadDisable, opAudioPort, opHapticChannel, opTouchUnit, opUnitPower].find? (fun o => o.opcode == opcode)

/-- The last claim on a unit has ended: the vote is executed, and its request posts the status it would have had. -/
def carryUnitVote (d : Die) (bit : Nat) (s : State) : State :=
  match tfind (unitKey d bit) s.votes with
  | none => s
  | some v =>
    if bit = bitDevice ∨ claimed s d bit then s
    else
      let s0 := { s with votes := tkeep (fun k => k != unitKey d bit) s.votes } |> setVoteBit d bit false |> unowe v.ticket
      match voteOp (dOpcode v.desc) with
      | none => s0
      | some o =>
        match o.range v.ticket.ring v.desc s0 with
        | some (st, dt) => postLater v.ticket 2 st dt s0
        | none =>
          match o.work v.ticket v.desc s0 with
          | (none, s1) => owe v.ticket s1
          | (some (st, dt), s1) => if st = stSecureHeld then s1 else postLater v.ticket 2 st dt s1

/-- What the end of a claim on a unit sets free: the unit's vote, and the vote on the device state (R118, R406). -/
def carryVote (d : Die) (bit : Nat) (s : State) : State := s |> carryUnitVote d bit |> carryDeviceVote (powerDie s d)

/-! ## Pools (R93) -/

/-- A count grant of the device, by the byte that grants it: 16 LAYER_SLOTS, 17 CAM_STREAMS, 18 AUDIO_SRC, 20 TOUCH_REGIONS. -/
def poolSize (p : Part) (byte : Nat) : Nat :=
  if byte = 16 then 128 else if byte = 17 then (if p.variant = 3 then 48 else 96) else if byte = 18 then (if p.variant = 2 then 0 else 140) else 512

/-- Width of a grant. -/
def grantBits (byte : Nat) : Nat := if byte = 20 then 16 else 8

/-- What every tenant but `self` was granted. -/
def grantedSum (s : State) (self byte : Nat) : Nat :=
  ((s.tenants.filter (fun t => t.1 != self)).map (fun t => dget t.2.grants byte 0 (grantBits byte))).sum

/-- The pool that a route draws on (R161, R222, R327, R378). -/
def routePool (r : Route) : Option Nat :=
  if r.kind = 1 then some 16
  else if r.kind = 2 then (match camForm r with
    | some .a => some 17
    | some .b => some 17
    | some .c => some 17
    | _ => none)
  else if r.kind = 3 then (if audioA r then some 18 else none)
  else if r.kind = 4 then some 20 else none

/-- Live routes of a function that draw on a pool. -/
def poolUse (s : State) (f : Fun) (byte : Nat) : Nat := (s.routes.filter (fun x => x.2.grantee == f && routePool x.2 == some byte)).length

/-- The grantee has no more of a pool: a tenant's grant is used up, or nothing is left to PF0 of what no tenant was granted (4.1). -/
def poolFull (s : State) (f : Fun) (byte : Nat) : Bool :=
  if f.fn = 63 then false
  else if f.fn = 0 then decide (poolSize s.part byte ≤ grantedSum s (2 ^ 64) byte + poolUse s (pf0 .a) byte + poolUse s (pf0 .b) byte)
  else decide (dget (grantsOf s f) byte 0 (grantBits byte) ≤ poolUse s f byte)

/-! ## Layer and camera routes (R160–R163, R220–R222) -/

/-- The layer is the sink of another live route, or the destination of another pending change. -/
def layerTaken (s : State) (self : Nat) (sink : BitVec 64) : Bool :=
  let same (x : BitVec 64) : Bool := epType x == 0x01 && epUnit x == epUnit sink && epSub x == epSub sink
  s.routes.any (fun x => x.1 != self && decide (x.2.kind = 1 ∨ x.2.kind = 2)
    && (same x.2.sink || x.2.change.any (fun c => !c.delete && same c.sink)))

/-- The head is in the grantee's HEAD_MASK; PF0 has every head (R95). -/
def headGranted (s : State) (f : Fun) (h : Nat) : Bool := f.fn == 0 || nbit (dget (grantsOf s f) 15 0 8) h

/-- Checks of a layer route; `self` is the handle of the route it replaces, 0 for none. -/
def layerCheck (s : State) (self : Nat) (r : Route) : Option (Nat × Nat) :=
  firstFail [
    isTenant 16 r.source,
    badEp 24 (epType r.sink != 0x01) (decide (7 < epUnit r.sink)) (decide (15 < epSub r.sink)) (epArg r.sink != 0),
    zeroParams r 40 48, bad (r.cls == 0) 0x08 9,
    bad (decide (pget r 36 0 16 < pget r 32 0 16)) 0x08 36, bad (decide (pget r 38 0 16 < pget r 34 0 16)) 0x08 38,
    bad (!headGranted s r.grantee (epUnit r.sink)) 0x09 25, bad (layerTaken s self r.sink) 0x09 26]

/-- Bytes of the line store that the form A routes of a die take, but for one. -/
def lineStoreUse (s : State) (self : Nat) (d : Die) : Nat :=
  (((routesOf s 2).filter (fun x => x.1 != self && camForm x.2 == some .a && camRouteDie x.2 == d)).map (fun x => 64 * rWidth x.2)).sum

/-- PARAMS of a camera route (R221): zero where zero is no value (0x07), out of range or not used by the form (0x08). -/
def camParams (f : CamForm) (r : Route) : Option (Nat × Nat) :=
  let shows := f == .a || f == .d
  let dt := rDt r
  let w := rWidth r
  let h := rHeight r
  firstFail [
    bad (pget r 33 2 2 != 0) 0x01 33, zeroParams r 46 48,
    (if f = .d then firstFail [bad (dt != 0) 0x08 32, bad (pget r 33 0 1 != 0) 0x08 33, bad (w != 0) 0x08 34, bad (h != 0) 0x08 36]
     else firstFail [bad (dt == 0) 0x07 32, bad (w == 0) 0x07 34, bad (h == 0) 0x07 36]),
    (if shows then firstFail [bad (pget r 33 4 4 == 0) 0x07 33, bad (pget r 42 0 16 == 0) 0x07 42, bad (pget r 44 0 16 == 0) 0x07 44]
     else firstFail [bad (pget r 33 0 8 != 0) 0x08 33, bad (pget r 38 0 64 != 0) 0x08 38]),
    (if f = .d then none else firstFail [
      bad (!(dt == 0x1E || dt == 0x1F || dt == 0x24 || (f == .c && (dt == 0x2A || dt == 0x2B || dt == 0x2C)))) 0x08 32,
      bad (decide (w < 64 ∨ 4096 < w) || (dtYuv dt && w % 2 == 1)) 0x08 34, bad (decide (h < 64 ∨ 4094 < h)) 0x08 36]),
    (if shows then firstFail [bad (decide (5 < pget r 33 4 4)) 0x08 33,
      bad (if f = .a then decide (8192 < pget r 42 0 16) else decide (pget r 42 0 16 < 64 ∨ 3840 < pget r 42 0 16)) 0x08 42,
      bad (if f = .a then decide (8192 < pget r 44 0 16) else decide (pget r 44 0 16 < 64 ∨ 2160 < pget r 44 0 16)) 0x08 44] else none)]

/-- Checks of a camera route (R222). -/
def camCheck (s : State) (self : Nat) (r : Route) : Option (Nat × Nat) :=
  let others := (routesOf s 2).filter (fun x => x.1 != self)
  let h := epUnit r.sink
  match camForm r with
  | none => invalid 0x08 16
  | some f =>
    let stream := f == .a || f == .b || f == .c
    let shows := f == .a || f == .d
    let warpIn := f == .b || f == .e
    firstFail [
      (if stream then badEp 16 false (decide (7 < epUnit r.source)) (decide (3 < epSub r.source)) (epArg r.source != 0)
       else if f = .d then badEp 16 false (decide (1 < epUnit r.source)) (epSub r.source != 0) (epArg r.source != 0) else isTenant 16 r.source),
      (if shows then badEp 24 false (decide (7 < h)) (decide (15 < epSub r.sink)) (epArg r.sink != 0)
       else if warpIn then badEp 24 false (decide (1 < h)) (decide (3 < epSub r.sink)) (epArg r.sink != 0)
       else badEp 24 false (h != 0) (epSub r.sink != 0) (epArg r.sink != 0)),
      bad (r.cls == 0) 0x08 9, camParams f r,
      bad (f == .b && others.any (fun x => camForm x.2 == some .b && epUnit x.2.sink == h && rDt x.2 != rDt r)) 0x08 32,
      bad (shows && (headDie h != camRouteDie r || !headThrough s h)) 0x09 25,
      bad (shows && !headGranted s r.grantee h) 0x09 25, bad (shows && layerTaken s self r.sink) 0x09 26,
      bad (f == .b && (if h = 0 then Die.a else Die.b) != camRouteDie r) 0x09 25,
      bad (warpIn && others.any (fun x => epType x.2.sink == 0x11 && epUnit x.2.sink == h && epSub x.2.sink == epSub r.sink)) 0x09 26,
      bad (f != .e && others.any (fun x => camForm x.2 == some f && x.2.source == r.source)) 0x09 16,
      bad (f == .a && decide (2097152 < lineStoreUse s self (camRouteDie r) + 64 * rWidth r)) 0x0B 34]

/-! ## Creation (R85–R87) -/

/-- Die of the unit that carries a route out (R85). -/
def routeDie (r : Route) : Die :=
  match r.kind with
  | 1 => headDie (epUnit r.sink)
  | 2 => camRouteDie r
  | 4 => if epUnit r.source = 0 then .a else .b
  | 5 => hapDie (epUnit r.source)
  | 6 => if epUnit r.source = 0 then .a else .b
  | 7 => engineDie (epUnit r.source)
  | _ => .a

/-- The route needs a unit that the variant lacks (R22). -/
def routeAbsent (s : State) (r : Route) : Bool :=
  match r.kind with
  | 2 => epType r.source == 0x10 && decide (epUnit r.source < 8) && !unitPresent s.part (camDie (epUnit r.source)) (bitCamera (camNo (epUnit r.source)))
  | 3 => !unitPresent s.part .a bitAudio
  | 5 => decide (epUnit r.source < 8) && !unitPresent s.part (hapDie (epUnit r.source)) (bitHaptic (hapNo (epUnit r.source)))
  | 6 => decide (epUnit r.sink < 8) && !unitPresent s.part (hapDie (epUnit r.sink)) (bitHaptic (hapNo (epUnit r.sink)))
  | _ => false

/-- The checks of a kind's chapter. -/
def kindCheck (s : State) (self : Nat) (r : Route) : Option (Nat × Nat) :=
  match r.kind with
  | 1 => layerCheck s self r
  | 2 => camCheck s self r
  | 3 => audioCheck s self r
  | 4 => touchCheck s self r
  | 5 => hapCheck s self r
  | 6 => trigCheck s self r
  | _ => checkRouteCheck s self r

/-- The route that a ROUTE_CREATE describes. -/
def routeOf (q : RingId) (d : Desc) : Route :=
  let ep : Die := if dget d 12 6 1 = 0 then q.fn.ep else q.fn.ep.other
  ⟨dget d 8 0 8, dget d 9 0 8, ⟨ep, dget d 12 0 6⟩, q.fn, BitVec.ofNat 64 (dget d 16 0 64), BitVec.ofNat 64 (dget d 24 0 64),
    BitVec.ofNat 128 (dget d 32 0 128), none⟩

/-- The handle lies in the die's range (R85). -/
def handleOk (d : Die) (h : Nat) : Bool := if d = .a then decide (1 ≤ h ∧ h ≤ 0x7FFF) else decide (0x8000 ≤ h ∧ h ≤ 0xFFFE)

/-- Reserved fields of a kind's PARAMS: check 1 comes before the unit of check 2 (R12, Table 3.4). -/
def kindResv (r : Route) : Option (Nat × Nat) :=
  match r.kind with
  | 1 => zeroParams r 40 48
  | 2 => firstFail [bad (pget r 33 2 2 != 0) 0x01 33, zeroParams r 46 48]
  | 3 => firstFail [bad (pget r 33 0 8 != 0) 0x01 33, zeroParams r 44 48]
  | 4 => firstFail [bad (pget r 32 1 7 != 0) 0x01 32, zeroParams r 34 48]
  | 5 => zeroParams r 32 48
  | 6 => firstFail [bad (pget r 34 3 5 != 0) 0x01 34, zeroParams r 36 48]
  | 7 => firstFail [bad (pget r 33 1 7 != 0) 0x01 33, zeroParams r 34 48]
  | _ => none

def createRange (q : RingId) (d : Desc) (s : State) : Option (Nat × Nat) :=
  let r := routeOf q d
  let g := dget d 12 0 6
  let want := dget d 10 0 16
  firstFail [
    kindResv r, (if routeAbsent s r then some (stUnitAbsent, 0) else none),
    bad (decide (r.kind = 0 ∨ 7 < r.kind)) 0x08 8, bad (decide (2 < r.cls)) 0x08 9, bad (decide (31 < g) && g != 63) 0x08 12,
    bad (isPf1 q.fn != (r.cls == 0)) 0x08 9, bad (r.cls == 0 && g != 63) 0x08 9, bad (r.cls != classOf s r.grantee) 0x08 9,
    bad (want != 0 && (!handleOk q.fn.ep want || (s.route want).isSome)) 0x08 10,
    (if r.kind = 3 ∧ q.fn.ep = .b then invalid 0x09 0 else none),
    kindCheck s 0 r,
    bad (routeDie r != q.fn.ep) 0x09 (if r.kind = 1 ∨ camForm r = some .e then 25 else 17),
    (match routePool r with
     | some b => bad (poolFull s r.grantee b) 0x0B 12
     | none => none),
    bad (decide (4096 ≤ routesLive s q.fn.ep)) 0x0B 0]

/-- Units that a Garnet route claims (4.7): key d, bit. -/
def garnetUnits (s : State) (r : Route) : List (Die × Nat) :=
  if r.cls ≠ 0 then []
  else
    match r.kind with
    | 3 => [(.a, bitAudio)]
    | 4 =>
      let d : Die := if epUnit r.source = 0 then .a else .b
      match tfind (epSub r.source) (s.touch d).regions with
      | some g => if dget g 9 0 8 = 1 then [(d, bitTouch)] else []
      | none => []
    | 5 => [(hapDie (epUnit r.source), bitHaptic (hapNo (epUnit r.source)))]
    | 6 => [(hapDie (epUnit r.sink), bitHaptic (hapNo (epUnit r.sink)))]
    | 7 => [(engineDie (epUnit r.source), bitCrc (epUnit r.source % 4))]
    | _ => []

/-- A route begins to carry. -/
def routeBegins (h : Nat) (r : Route) (s : State) : State :=
  match r.kind with
  | 1 => s |> setLayer (epUnit r.sink) (epSub r.sink) { Layer.empty with route := h } |> refreshLayer (epUnit r.sink) (epSub r.sink)
  | 2 =>
    let s1 := if epType r.sink = 0x01 then
        s |> setLayer (epUnit r.sink) (epSub r.sink) { Layer.empty with camera := h } |> refreshLayer (epUnit r.sink) (epSub r.sink)
      else s
    let s2 := if isWarpRoute r then setPowered (camRouteDie r) bitWarp true s1 else s1
    refreshCamera (camRouteDie r) s2
  | 3 => audioBegins h r s
  | 4 => refreshTouch (routeDie r) s
  | 5 => refreshHap (epUnit r.source) s
  | 6 => trigBegins h r s
  | 7 => checkBegins h r s
  | _ => s

/-- The first warp route of a die, or the first audio route, raises the floor (R31). -/
def raisesFloor (s : State) (r : Route) : Bool :=
  if isWarpRoute r then !s.routes.any (fun x => isWarpRoute x.2 && camRouteDie x.2 == camRouteDie r)
  else r.kind == 3 && !s.routes.any (fun x => x.2.kind == 3)

/-- A route whose floor has been reached begins, and its request completes with the handle (R31, R86). -/
def startRoute (h : Nat) (t : Ticket) (s : State) : State :=
  match s.route h with
  | none => finish t stOk h s
  | some r => s |> routeBegins h r |> finish t stOk h

def createWork (t : Ticket) (d : Desc) (s : State) : Option (Nat × Nat) × State :=
  let r := routeOf t.ring d
  let want := dget d 10 0 16
  let h := if want = 0 then pickHandle s t.die else want
  let raise := raisesFloor s r
  let s1 := (if r.cls = 0 then sRouteComes (handleDie h) s else s) |> (fun u => { u with routes := tset h r u.routes }) |> useFree (if want = 0 then 1 else 0)
  let s2 := (garnetUnits s1 r).foldl (fun u k => garnetUse k.1 k.2 true u) s1
  if raise then
    let e := routeDie r
    let s3 := refreshFloor e s2
    if paceReached s3 e then (some (stOk, h), routeBegins h r s3)
    else
      let s4 := if r.kind = 3 then setARoute h { AudioRoute.empty with up := false } s3 else s3
      (none, addRaise e ⟨if r.kind = 3 then 4 else 3, h, some t, d, 0⟩ s4)
  else (some (stOk, h), routeBegins h r s2)

def opRouteCreate : OpSpec :=
  { mkOp 0x10 false ((12, 7, 1) :: rsv 13 16 ++ rsv 48 64) noUnits createRange notEmpty createWork with held := false }

/-! ## What a deletion leaves (R23) -/

/-- The layer of a route is switched off: its pending commits complete as replaced, its buffer leaves use (R163, R185). -/
def layerGone (hd l : Nat) (s : State) : State :=
  let y := (s.head hd).layer l
  let s1 := match y.pend with
    | some c => dropCommit hd l c s
    | none => s
  let s2 := match y.pendColour with
    | some c => dropColour c s1
    | none => s1
  s2 |> releaseNow hd l |> setLayer hd l Layer.empty |> refreshLayer hd l |> relayAhead hd l
    |> (fun t => if headOn t hd ∧ headThrough t hd = false then setHead hd { t.head hd with recompose := true } t else t)

/-- Completions that a camera route still owes when it goes (R231, R234, R235). -/
def cameraGone (h : Nat) (r : Route) (s : State) : State :=
  let d := camRouteDie r
  match camForm r with
  | some .a => setStream (epUnit r.source) (epSub r.source) { s.stream (epUnit r.source) (epSub r.source) with store := [] } s
  | some .b => setWarp d { s.warp d with stores := tkeep (fun k => k != epSub r.sink) (s.warp d).stores } s
  | some .c =>
    let c := s.capture h
    let ts := (match c.filling with
      | some (t, _) => [t]
      | none => []) ++ c.posted.map (fun x => x.1)
    ts.foldl (fun u t => finish t stNoRoute 0 u) { s with captures := tkeep (fun k => k != h) s.captures }
  | some .e =>
    let w := s.warp d
    let i := epSub r.sink
    let mine := w.pendFrames.filter (fun x => x.1 == i)
    let s1 := setWarp d { w with frames := tkeep (fun k => k != i) w.frames, pendFrames := w.pendFrames.filter (fun x => x.1 != i) } s
    let s2 := match tfind i w.frames with
      | some (t, _) => postLast t 2 stOk 0 s1
      | none => s1
    mine.foldl (fun u x => u |> finish x.2.1 stNoRoute 0 |> unowe x.2.1) s2
  | some .d =>
    match (s.warp d).pendMesh with
    | some (t, _) => s |> setWarp d { s.warp d with pendMesh := none } |> wrB (WARP_STATUS d) WARP_STATUS_MESH_PENDING false |> postLast t 2 stNoRoute 0
    | none => s
  | _ => s

/-- A deletion takes effect. -/
def routeGone (h : Nat) (s : State) : State :=
  match s.route h with
  | none => s
  | some r =>
    let claims := if r.kind = 8 then [(handleDie h, bitHead (epUnit r.sink % 4)), (handleDie h, bitComposer)] else garnetUnits s r
    let s0 := if epType r.sink = 0x01 ∧ r.kind ≠ 8 then layerGone (epUnit r.sink) (epSub r.sink) s else s
    let drop (t : State) : State := { t with routes := tkeep (fun k => k != h) t.routes }
    let s1 :=
      match r.kind with
      | 1 => s0 |> drop |> refreshLayer (epUnit r.sink) (epSub r.sink)
      | 2 =>
        let e := camRouteDie r
        s0 |> cameraGone h r |> drop |> refreshCamera e |> refreshFloor e
           |> (fun t => if isWarpRoute r ∧ t.routes.any (fun x => isWarpRoute x.2 && camRouteDie x.2 == e) = false then t |> scrub e bitWarp r.grantee |> gateIdle e bitWarp else t)
      | 3 => s0 |> drop |> audioGone h r |> refreshFloor .a
      | 4 => s0 |> drop |> refreshTouch (routeDie r)
      | 5 => s0 |> drop |> hapScrub (epUnit r.source) r.grantee
      | 6 => s0 |> drop |> trigGone r
      | 7 => s0 |> drop |> checkGone h r
      | _ => s0 |> removeWindow (handleDie h) h |> drop
    let s2 := if r.kind = 8 then s1 else claims.foldl (fun t k => garnetUse k.1 k.2 false t) s1
    claims.foldl (fun t k => carryVote k.1 k.2 t) (if r.cls = 0 then sRouteGoes (handleDie h) s2 else s2)

/-! ## Changes (R88, R89) -/

/-- The committed state of a layer moves to another layer (R163). -/
def moveLayer (h hd l hd' l' : Nat) (s : State) : State :=
  if hd = hd' ∧ l = l' then relayAhead hd l s
  else
    let y := (s.head hd).layer l
    let s1 := s |> setLayer hd l Layer.empty |> refreshLayer hd l |> relayAhead hd l
    s1 |> setLayer hd' l' { y with route := h, cut := true, rows := [], win := [] } |> refreshLayer hd' l' |> relayAhead hd' l'

/-- A head in stored mode shows a changed route with the next pass. -/
def recomposeHead (hd : Nat) (s : State) : State :=
  if headOn s hd ∧ headThrough s hd = false then setHead hd { s.head hd with recompose := true } s else s

/-- A modification takes effect. -/
def routeModified (h : Nat) (r : Route) (c : RouteChange) (s : State) : State :=
  let r1 : Route := { r with sink := c.sink, params := c.params, change := none }
  let put (t : State) : State := { t with routes := tset h r1 t.routes }
  match r.kind with
  | 1 =>
    s |> put |> moveLayer h (epUnit r.sink) (epSub r.sink) (epUnit r1.sink) (epSub r1.sink) |> refreshLayer (epUnit r1.sink) (epSub r1.sink)
      |> recomposeHead (epUnit r.sink) |> recomposeHead (epUnit r1.sink)
  | 2 =>
    let e := camRouteDie r
    let s1 := if epType r.sink = 0x01 then layerGone (epUnit r.sink) (epSub r.sink) s else s
    s1 |> (if camForm r = camForm r1 then id else cameraGone h r) |> put |> routeBegins h r1 |> refreshFloor e
  | 3 =>
    let s1 := aimGain h (s.aroute h).mute (aGain r1) (put s)
    if r.sink = r1.sink then s1 else s1 |> setARoute h { s1.aroute h with up := true, envEnd := s1.timeA, fade := none } |> refreshFloor .a
  | 4 => s |> put |> refreshTouch (routeDie r)
  | 5 => s |> put |> refreshHap (epUnit r.source)
  | 6 => s |> put |> trigGone r |> trigBegins h r1
  | 7 => s |> put |> checkGone h r |> checkBegins h r1
  | _ => put s

/-- The stream whose frame starts a change of a camera route waits for (R222). -/
def changeStream (s : State) (r : Route) : Option (Nat × Nat) := layerStream s r

/-- The effect point of the kind has come (Table 1.4). Heads and streams bring their own at a frame start. -/
def effectNow (s : State) (h : Nat) (r : Route) : Bool :=
  match r.kind with
  | 1 => (s.head (epUnit (match r.change with
      | some c => if c.delete then r.sink else c.sink
      | none => r.sink))).phase == 0
  | 2 => (changeStream s r).isNone
  | 3 => true
  | 4 => !regionHeld s r
  | 5 => (s.hap (epUnit r.source)).run.isNone
  | 6 => (s.hap (epUnit r.sink)).run.isNone
  | 7 => !checkBusy s h r
  | _ => (s.head (epUnit r.sink)).phase == 0

/-- A pending change takes effect, and its FURTHER is posted (R89). -/
def changeEffect (h : Nat) (s : State) : State :=
  match s.route h with
  | none => s
  | some r =>
    match r.change with
    | none => s
    | some c =>
      let s1 := if c.delete then routeGone h s else routeModified h r c s
      match c.ticket with
      | some t => postLast t 2 stOk 0 s1
      | none => s1

/-- ROUTE_CHANGE_EFFECT. -/
def changeDue (h : Nat) (s : State) : State :=
  match s.route h with
  | none => s
  | some r => if r.change.isSome ∧ effectNow s h r then changeEffect h s else s

/-- The changes of layer routes and Garnet windows whose destination is a head take effect at its frame start. -/
def headChanges (hd : Nat) (s : State) : State :=
  s.routes.foldl (fun t x =>
    match t.route x.1 with
    | none => t
    | some r =>
      match r.change with
      | none => t
      | some c =>
        if (r.kind = 1 ∨ r.kind = 8) ∧ epUnit (if c.delete then r.sink else c.sink) = hd then changeEffect x.1 t else t) s

/-- The changes of camera routes that wait for a stream take effect at its frame start; one of a layer that a running head shows becomes
due there, and takes effect with the first head frame whose line 0 fetch reads the stream frame (R222). -/
def streamChanges (p v : Nat) (s : State) : State :=
  s.routes.foldl (fun t x =>
    match t.route x.1 with
    | none => t
    | some r =>
      match r.change with
      | none => t
      | some c =>
        if r.kind ≠ 2 ∨ changeStream t r ≠ some (p, v) then t
        else if epType r.sink = 0x01 ∧ (t.head (epUnit r.sink)).phase = 3 then
          { t with routes := tset x.1 { r with change := some { c with due := true } } t.routes }
        else changeEffect x.1 t) s

/-- The line 0 fetch of a head's frame: the changes of camera layers that are due take effect. -/
def dueChanges (hd : Nat) (s : State) : State :=
  s.routes.foldl (fun t x =>
    match t.route x.1 with
    | none => t
    | some r => if r.kind = 2 ∧ epType r.sink = 0x01 ∧ epUnit r.sink = hd ∧ r.change.any (fun c => c.due) then changeEffect x.1 t else t) s

/-- A change is accepted: it waits for its effect point, at once if that has come. An audio route ramps out at its old end (R331). -/
def acceptChange (h : Nat) (c : RouteChange) (s : State) : State :=
  match s.route h with
  | none => s
  | some r =>
    let s1 := { s with routes := tset h { r with change := some c } s.routes }
    if r.kind = 3 then (if c.delete ∨ c.sink ≠ r.sink then s1 |> setEnv h false |> (if c.delete then id else startFade h) else s1) else changeDue h s1

/-- The route as a ROUTE_MODIFY wants it. -/
def modifiedRoute (d : Desc) (r : Route) : Route :=
  { r with sink := if dget d 8 0 1 = 1 then BitVec.ofNat 64 (dget d 24 0 64) else r.sink,
           params := if dget d 8 1 1 = 1 then BitVec.ofNat 128 (dget d 32 0 128) else r.params }

def opRouteModify : OpSpec :=
  { mkOp 0x11 true ((8, 2, 6) :: rsv 9 24 ++ rsv 48 64) noUnits
     (fun _ d s =>
      match s.route (dRoute d) with
      | none => none
      | some r =>
        let r1 := modifiedRoute d r
        firstFail [bad (r.kind == 8) 0x08 0, bad r.change.isSome 0x0A 4,
          (if dget d 8 0 2 = 0 then none else kindCheck s (dRoute d) r1),
          bad (routeDie r1 != routeDie r) 0x09 24])
     (fun d _ => dget d 8 0 2 == 0)
     (fun t d s =>
      match s.route (dRoute d) with
      | none => (some (stNoRoute, 0), s)
      | some r =>
        let r1 := modifiedRoute d r
        (some (stOk, 0), s |> owe t |> acceptChange (dRoute d) ⟨false, r1.sink, r1.params, some t, false⟩)) with held := false }

def opRouteDelete : OpSpec :=
  { mkOp 0x12 true (rsv 8 64) noUnits
     (fun _ d s =>
      match s.route (dRoute d) with
      | none => none
      | some r => bad r.change.isSome 0x0A 4)
     notEmpty
     (fun t d s => (some (stOk, 0), s |> owe t |> acceptChange (dRoute d) ⟨true, 0, 0, some t, false⟩)) with held := false }

/-- The 64-byte record of ROUTE_QUERY (R88). -/
def routeRecord (q : RingId) (h : Nat) (r : Route) : List Byte :=
  let st := match r.change with
    | none => 1
    | some c => if c.delete then 3 else 2
  leBytes 2 h ++ leBytes 1 st ++ leBytes 5 0 ++ leBytes 1 r.kind ++ leBytes 1 r.cls ++ leBytes 2 h
    ++ leBytes 1 (r.grantee.fn % 64 + b2n (r.grantee.ep != q.fn.ep) * 64) ++ leBytes 3 0 ++ leBytes 8 r.source.toNat ++ leBytes 8 r.sink.toNat
    ++ leBytes 16 r.params.toNat ++ leBytes 16 0

def opRouteQuery : OpSpec :=
  { mkOp 0x13 true (rsv 16 64) noUnits noRange notEmpty
     (fun t d s =>
      match s.route (dRoute d) with
      | none => (some (stNoRoute, 0), s)
      | some r =>
        match dmaWrite t.die t.fn t.ring.ring (dget d 8 0 64) (routeRecord t.ring (dRoute d) r) s with
        | (some e, s1) => (some e.completion, s1)
        | (none, s1) => (some (stOk, 0), s1)) with held := false }

/-! ## Meanings -/

def execRouteCreate (q : RingId) (desc : Desc) (s : State) : Host.Outcome State Fault Refusal := run (submit opRouteCreate q desc) s

def execRouteModify (q : RingId) (desc : Desc) (s : State) : Host.Outcome State Fault Refusal := run (submit opRouteModify q desc) s

def execRouteDelete (q : RingId) (desc : Desc) (s : State) : Host.Outcome State Fault Refusal := run (submit opRouteDelete q desc) s

def execRouteQuery (q : RingId) (desc : Desc) (s : State) : Host.Outcome State Fault Refusal := run (submit opRouteQuery q desc) s

def execRouteChangeEffect (handle : Nat) (s : State) : Host.Outcome State Fault Refusal := run (changeDue handle) s

end Sys2Proof.Machine
end

