-- ==== Sys2Proof/Machine/Tenants.lean ====
section
/-! DEFINITION. Tenants and pools, function-level reset, translation control, secure claims, debug, migration (chapter 4); the state
image of a tenant is opaque: its bytes, and what the device reads from bytes, are free (notes/assumptions/20.md). -/
namespace Sys2Proof

/-- Byte i after the header of the state image of a tenant, and what the device reads from the bytes after a header (R122). -/
opaque Config.imageByte : Machine.Image → Nat → BitVec 8
opaque Config.imageOf : List Byte → Option Machine.Image

namespace Machine

def State.tenant (s : State) (f : Fun) : Option Tenant := tfind f.key s.tenants
def setTenant (f : Fun) (t : Tenant) (s : State) : State := { s with tenants := tset f.key t s.tenants }

/-- The VF that byte 8 names, on the submitter's endpoint. -/
def vfOf (q : RingId) (d : Desc) : Fun := ⟨q.fn.ep, dget d 8 0 6⟩

/-- FUNC is VF1–VF31. -/
def vfRange (d : Desc) : Option (Nat × Nat) := bad (decide (dget d 8 0 6 = 0 ∨ 31 < dget d 8 0 6)) 0x08 8

/-- The VF holds a tenant that is not being destroyed. -/
def holdsTenant (s : State) (f : Fun) : Bool := (s.tenant f).any (fun t => t.destroying.isNone)

/-- Routes granted to a function. -/
def grantedRoutes (s : State) (f : Fun) : List (Nat × Route) := s.routes.filter (fun x => x.2.grantee == f)

/-- No ring of the function is enabled. -/
def ringsOff (s : State) (f : Fun) : Bool := (ringsOf f).all (fun q => !ringOn s q)

/-! ## Grants (R93–R96) -/

/-- Byte i of a descriptor replaced. -/
def setByte (d : Desc) (i v : Nat) : Desc := BitVec.ofNat 512 (d.toNat - dget d i 0 8 * 2 ^ (8 * i) + v * 2 ^ (8 * i))

/-- Die of the tenant's GPU work. -/
def grantDie (d : Desc) : Die := if dget d 10 0 1 = 0 then .a else .b

/-- Field ranges of R95. -/
def grantRange (d : Desc) : Option (Nat × Nat) :=
  firstFail [bad (decide (16 < dget d 11 0 8)) 0x08 11, bad (decide (128 < dget d 16 0 8)) 0x08 16, bad (decide (32 < dget d 17 0 8)) 0x08 17,
    bad (decide (64 < dget d 18 0 8)) 0x08 18, bad (decide (256 < dget d 20 0 16)) 0x08 20]

/-- Base and size of window i, bytes. -/
def winBase (d : Desc) (i : Nat) : Nat := dget d (24 + 8 * i) 0 32 * 2 ^ 21
def winSize (d : Desc) (i : Nat) : Nat := dget d (28 + 8 * i) 0 32 * 2 ^ 21

/-- Window i lies where it must not (R96); `f` is the function whose grants these are. -/
def windowBad (s : State) (f : Fun) (d : Desc) (i : Nat) : Bool :=
  let b := winBase d i
  let z := winSize d i
  let e := localDie b
  let o := localOff b
  let meets (b' z' : Nat) : Bool := decide (z' ≠ 0 ∧ b' < b + z ∧ b < b' + z')
  let cb := s.rdF (CARVE_BASE e) CARVE_BASE_BASE_2M * 2 ^ 21
  let cz := s.rdF (CARVE_SIZE e) CARVE_SIZE_SIZE_2M * 2 ^ 21
  let gb := s.rdF (GPU_CTX_STORE e) GPU_CTX_STORE_BASE_2M * 2 ^ 21
  z != 0 && (decide (2 ^ 36 ≤ b ∨ fitted s e < o + z)
    || (upto 4).any (fun j => j != i && meets (winBase d j) (winSize d j))
    || (s.tenants.filter (fun t => t.1 != f.key)).any (fun t => (upto 4).any (fun j => meets (winBase t.2.grants j) (winSize t.2.grants j)))
    || decide (cz ≠ 0 ∧ o < cb + cz ∧ cb < o + z)
    || (s.flag (GPU_CTX_STORE e) GPU_CTX_STORE_LOCK && decide (o < gb + 2 ^ 23 ∧ gb < o + z)))

/-- The first window that is new or changed and lies wrong. -/
def windowsBad (s : State) (f : Fun) (old d : Desc) : Option (Nat × Nat) :=
  match (upto 4).find? (fun i => dget d (24 + 8 * i) 0 64 != dget old (24 + 8 * i) 0 64 && windowBad s f d i) with
  | some i => invalid 0x09 (24 + 8 * i)
  | none => none

/-- Sum of a byte of the grants of the other tenants, or of those whose GPU work is on a die. -/
def shareSum (s : State) (f : Fun) (on : Option Die) (byte : Nat) : Nat :=
  ((s.tenants.filter (fun t => t.1 != f.key && (on.isNone || on == some (grantDie t.2.grants)))).map (fun t => dget t.2.grants byte 0 8)).sum

/-- The pools (Table 4.1a): exceeded, or, in a split, kept by the other die where the grant draws more than `old` did. -/
def poolsBad (s : State) (f : Fun) (old d : Desc) : Option (Nat × Nat) :=
  let g := grantDie d
  let more (byte : Nat) : Bool := decide (dget old byte 0 (grantBits byte) < dget d byte 0 (grantBits byte))
  let away := s.split && ((g != f.ep && (more 11 || more 12)) || more 13 || more 14 || (f.ep != .a && (more 16 || more 17 || more 18 || more 20)))
  let ctx := if s.flag (GPU_CTX_STORE g) GPU_CTX_STORE_LOCK then 128 else 0
  let count (byte : Nat) : Option (Nat × Nat) :=
    bad (more byte && decide (poolSize s.part byte < grantedSum s f.key byte + dget d byte 0 (grantBits byte))) 0x0B byte
  firstFail [(if away then some (stPeerLost, 0) else none),
    bad (more 11 && decide (ctx < shareSum s f (some g) 11 + dget d 11 0 8)) 0x0B 11,
    bad (more 12 && decide (256 < shareSum s f (some g) 12 + dget d 12 0 8)) 0x0B 12,
    bad (more 13 && decide (256 < shareSum s f none 13 + dget d 13 0 8)) 0x0B 13,
    bad (more 14 && decide (256 < shareSum s f none 14 + dget d 14 0 8)) 0x0B 14, count 16, count 17, count 18, count 20]

/-- HAPTIC_MASK names an absent channel. -/
def maskAbsent (s : State) (d : Desc) : Bool :=
  (upto 8).any (fun c => nbit (dget d 19 0 8) c && !unitPresent s.part (hapDie c) (bitHaptic (hapNo c)))

/-- Slot of a function in the per-function registers of a die. -/
def funcIdx (d : Die) (f : Fun) : Nat := (if f.ep = d then 0 else 32) + f.fn

/-- Registers that show a tenant's grants. -/
def showGrants (f : Fun) (created : Bool) (g : Desc) (s : State) : State :=
  let a := TENANT_CFG f
  let s1 := s |> wrB a TENANT_CFG_CREATED created |> wrF a TENANT_CFG_CLASS (dget g 9 0 2) |> wrF a TENANT_CFG_GPU_DIE (dget g 10 0 1)
    |> wrF a TENANT_CFG_GPU_CTX (dget g 11 0 5) |> wrF a TENANT_CFG_GPU_SHARE (dget g 12 0 8) |> wrF a TENANT_CFG_DRAM_SHARE (dget g 13 0 8)
  bothDies.foldl (fun t d => t |> wrF (DRAM_FUNC_USE d (funcIdx d f)) DRAM_FUNC_USE_SHARE (dget g 13 0 8)
    |> wrF (GPU_FUNC_USE d (funcIdx d f)) GPU_FUNC_USE_SHARE (if grantDie g = d then dget g 12 0 8 else 0)) s1

def tenantResv : List (Nat × Nat × Nat) := [(8, 6, 2), (10, 1, 7)] ++ rsv 22 24 ++ rsv 56 64

def opTenantCreate : OpSpec :=
  mkOp 0x20 false tenantResv noUnits
   (fun q d s =>
    let f := vfOf q d
    firstFail [(if maskAbsent s d then some (stUnitAbsent, 0) else none), onlyPf0 q, vfRange d, bad (s.tenant f).isSome 0x08 8,
      bad (dget d 9 0 8 != 1 && dget d 9 0 8 != 2) 0x08 9, grantRange d, windowsBad s f 0 d, poolsBad s f 0 d])
   notEmpty
   (fun t d s => (some (stOk, 0), s |> setTenant (vfOf t.ring d) ⟨d, none, none⟩ |> showGrants (vfOf t.ring d) true d))

/-- A cut below what the tenant's live routes and contexts use (R96). -/
def cutBad (s : State) (f : Fun) (d : Desc) : Option (Nat × Nat) :=
  let rs := grantedRoutes s f
  let heads := rs.filter (fun x => epType x.2.sink == 0x01)
  let jobs := ((s.gpu .a).jobs ++ (s.gpu .b).jobs).filter (fun j => j.fn == f)
  let count (byte : Nat) : Option (Nat × Nat) := bad (decide (dget d byte 0 (grantBits byte) < poolUse s f byte)) 0x0B byte
  firstFail [bad (jobs.any (fun j => decide (dget d 11 0 8 ≤ jobCtx j))) 0x0B 11,
    bad (dget d 14 0 8 == 0 && rs.any (fun x => x.2.kind == 7)) 0x0B 14,
    bad (heads.any (fun x => !nbit (dget d 15 0 8) (epUnit x.2.sink))) 0x0B 15, count 16, count 17, count 18,
    bad (rs.any (fun x => x.2.kind == 5 && !nbit (dget d 19 0 8) (epUnit x.2.source))) 0x0B 19, count 20]

/-- Grants after a TENANT_MODIFY: CLASS and GPU_DIE stay. -/
def modified (old d : Desc) : Desc := setByte (setByte d 9 (dget old 9 0 8)) 10 (dget old 10 0 8)

def opTenantModify : OpSpec :=
  mkOp 0x22 false tenantResv noUnits
   (fun q d s =>
    let f := vfOf q d
    firstFail [(if maskAbsent s d then some (stUnitAbsent, 0) else none), onlyPf0 q, vfRange d, bad (!holdsTenant s f) 0x08 8, grantRange d,
      (match s.tenant f with
       | none => none
       | some t =>
         let g := modified t.grants d
         firstFail [windowsBad s f t.grants g, poolsBad s f t.grants g, cutBad s f g])])
   notEmpty
   (fun t d s =>
    let f := vfOf t.ring d
    match s.tenant f with
    | none => (invalid 0x08 8, s)
    | some x =>
      let g := modified x.grants d
      (some (stOk, 0), s |> setTenant f { x with grants := g } |> showGrants f true g))

/-! ## Destruction (R97) -/

/-- Every route granted to the function is deleted at the effect point of its kind; a modification that waits becomes a deletion. -/
def deleteRoutes (f : Fun) (s : State) : State :=
  (grantedRoutes s f).foldl (fun t x =>
    match t.route x.1 with
    | none => t
    | some r =>
      match r.change with
      | none => acceptChange x.1 ⟨true, 0, 0, none, false⟩ t
      | some c => acceptChange x.1 { c with delete := true } { t with routes := tset x.1 { r with change := none } t.routes }) s

def opTenantDestroy : OpSpec :=
  mkOp 0x21 false ((8, 6, 2) :: rsv 9 64) noUnits
   (fun q d s => firstFail [onlyPf0 q, vfRange d, bad (!holdsTenant s (vfOf q d) || !ringsOff s (vfOf q d)) 0x08 8])
   notEmpty
   (fun t d s =>
    let f := vfOf t.ring d
    match s.tenant f with
    | none => (invalid 0x08 8, s)
    | some x => (some (stOk, 0), s |> owe t |> setTenant f { x with destroying := some (some t) } |> deleteRoutes f))

/-- Units whose scrub could not complete leave service (R116). -/
def scrubAll (f : Fun) (fails : List Nat) (s : State) : State :=
  let s1 := fails.foldl (fun t k => scrubFault (if k < 32 then .a else .b) (k % 32) f t) s
  let s2 := s1 |> hapOwnerGone f |> scrubDsps f
  bothDies.foldl (fun t d => setGpu d { t.gpu d with owners := (t.gpu d).owners.filter (fun x => x.2 != f) } t) s2

/-- The tenant is gone; its grants are back in the pools. -/
def dropTenant (f : Fun) (s : State) : State :=
  { s with tenants := tkeep (fun k => k != f.key) s.tenants } |> showGrants f false 0 |> wrB (TENANT_CFG f) TENANT_CFG_FROZEN false
    |> wrB (FUNC_STATUS f) FUNC_STATUS_FROZEN false

/-- The last route of a destroyed tenant is gone and its units are scrubbed. -/
def destroyDone (f : Fun) (fails : List Nat) (s : State) : State :=
  match s.tenant f with
  | none => s
  | some x =>
    match x.destroying with
    | some (some t) => if grantedRoutes s f ≠ [] then s else s |> scrubAll f fails |> dropTenant f |> postLast t 2 stOk 0
    | _ => s

/-! ## Function-level reset (R99, R100) -/

/-- What the function's rings hold is dropped without completion. -/
def dropRings (f : Fun) (s : State) : State :=
  let s1 := { s with owed := s.owed.filter (fun t => t.ring.fn != f) }
  (ringsOf f).foldl (fun t q => setRing q RingAux.empty t) s1

/-- Descriptors of the function's rings that have not completed. -/
def inFlight (s : State) (f : Fun) : Nat :=
  ((ringsOf f).map (fun q => (((s.ringAux q).flights.filter (fun x => x.phase != 2)).map (fun x => x.descs.length)).sum)).sum

/-- The registers of the function's rings return to their reset values. -/
def clearRings (f : Fun) (s : State) : State :=
  let lo := RING_CFG ⟨f, 0⟩ / 0x400 * 0x400
  let out (k : Nat) : Bool := decide (k < lo ∨ lo + 0x400 ≤ k)
  { s with regs := tkeep out s.regs }

/-- Layers of the function on a head are drawn transparent. -/
def layersOff (f : Fun) (hd : Nat) (s : State) : State :=
  (upto 16).foldl (fun t l =>
    let y := (t.head hd).layer l
    if (t.route y.route).any (fun r => r.grantee == f) ∧ (y.cur.isSome ∨ y.colour.isSome) then
      t |> setLayer hd l { y with cur := none, colour := none, pend := none, pendColour := none, cut := true } |> refreshLayer hd l |> recomposeHead hd
    else t) s

/-- Pending commits of the function are dropped; on disabled heads its layers go at once (Table 4.2, steps 2 and 4). -/
def dropCommits (f : Fun) (s : State) : State :=
  (upto 8).foldl (fun t hd =>
    let t1 := (upto 16).foldl (fun u l =>
      let y := (u.head hd).layer l
      if (u.route y.route).any (fun r => r.grantee == f) ∧ (y.pend.isSome ∨ y.pendColour.isSome) then
        u |> setLayer hd l { y with pend := none, pendColour := none } |> refreshLayer hd l
      else u) t
    if (t1.head hd).phase = 0 then layersOff f hd t1 else t1) s

/-- Layers of functions in reset go at a head's frame start. -/
def resetLayers (hd : Nat) (s : State) : State :=
  let fs := ((upto 16).filterMap (fun l => (s.route ((s.head hd).layer l).route).map (fun r => r.grantee))).eraseDups
  (fs.filter (flrActive s)).foldl (fun t f => layersOff f hd t) s

/-- Captures and memory frames of the function stop. -/
def dropCaptures (f : Fun) (s : State) : State :=
  ((routesOf s 2).filter (fun x => x.2.grantee == f)).foldl (fun t x =>
    let d := camRouteDie x.2
    let w := t.warp d
    match camForm x.2 with
    | some .c => setCapture x.1 Capture.empty t
    | some .d => setWarp d { w with pendMesh := none } t |> wrB (WARP_STATUS d) WARP_STATUS_MESH_PENDING false
    | some .e => setWarp d { w with frames := tkeep (fun k => k != epSub x.2.sink) w.frames,
                                    pendFrames := w.pendFrames.filter (fun y => y.1 != epSub x.2.sink) } t
    | _ => t) s

def setFlr (f : Fun) (on : Bool) (s : State) : State :=
  s |> wrB (FUNC_STATUS f) FUNC_STATUS_FLR_ACTIVE on |> wrB (TENANT_CFG f) TENANT_CFG_FLR_ACTIVE on

/-- A function-level reset of a VF, or of PF0 itself, begins; `destroys`: its tenant is destroyed with it. -/
def startFlr (f : Fun) (destroys : Bool) (s : State) : State :=
  if flrActive s f then
    match s.tenant f with
    | some x => if destroys then s |> setFn f { s.fnAux f with flrDestroys := true } |> setTenant f { x with destroying := some none } |> deleteRoutes f else s
    | none => s
  else
    let n := inFlight s f
    let (ctxs, s1) := dropJobs f s
    let (_, s2) := dropChecks f s1
    let s3 := match s2.tenant f with
      | some x => (match x.freezing with
          | some t => s2 |> setTenant f { x with freezing := none } |> finish t stAbortedReset 0
          | none => s2)
      | none => s2
    let s4 := s3 |> dropCaptures f |> (fun t => ((audioRoutes t).filter (fun x => x.2.grantee == f)).foldl (fun u x => audioSilence x.1 none u) t)
                 |> hapReset f |> dropCommits f |> dropRings f |> setFlr f true
    let has := (s4.tenant f).isSome
    let s5 := setFn f { s4.fnAux f with flrDescs := n, flrCtxs := ctxs, flrEvents := 0, frozenEvents := [], flrDestroys := destroys && has } s4
    if destroys then
      match s5.tenant f with
      | some x => s5 |> setTenant f { x with destroying := some none } |> deleteRoutes f
      | none => s5
    else s5

/-- A PCIe reset of a function: a VF; PF0 with every VF of its endpoint; the rings of PF1. -/
def funcReset (f : Fun) (s : State) : State :=
  if f.fn = 63 then s |> dropRings f |> clearRings f
  else if f.fn = 0 then (upto 31).foldl (fun t i => startFlr ⟨f.ep, i + 1⟩ true t) (startFlr f false s)
  else if f.fn ≤ 31 then startFlr f false s else s

/-- A write of FLR_CTRL by the manager. -/
def flrCtrl (f : Fun) (target : Nat) (v : Word) (s : State) : State :=
  if target = 0 ∨ 31 < target ∨ f.fn ≠ 0 ∨ (accessRow s f (addrOff (FLR_CTRL ⟨f.ep, target⟩))).isNone ∨ FLR_CTRL_FLR.get v = 0 then s
  else startFlr ⟨f.ep, target⟩ false s

/-- Steps 5 and 6 of Table 4.2. -/
def flrDone (f : Fun) (fails : List Nat) (s : State) : State :=
  let x := s.fnAux f
  if flrActive s f = false ∨ (x.flrDestroys ∧ grantedRoutes s f ≠ []) then s
  else
    let s1 := (upto 8).foldl (fun t hd => layersOff f hd t) s |> scrubAll f fails |> clearRings f
    let s2 := s1 |> wr64 (S1_ROOT_LO f) 0 |> wrB (XLATE_CTRL f) XLATE_CTRL_S1_EN false |> wr (FAULT_INFO f) 0
                 |> wrB (FUNC_STATUS f) FUNC_STATUS_FROZEN false |> wrB (TENANT_CFG f) TENANT_CFG_FROZEN false
                 |> setFn f { x with flrDescs := 0, flrCtxs := 0, flrEvents := 0, frozenEvents := [], flrDestroys := false, unmasked := [], pba := [], vectors := [] }
                 |> setFlr f false
                 |> (fun t => ((audioRoutes t).filter (fun y => y.2.grantee == f)).foldl (fun u y => setEnv y.1 true u) t)
    let s3 := if x.flrDestroys then dropTenant f s2 else s2
    postPf0 f.ep 0x0011 (fnSource f) (x.flrDescs % 2 ^ 32 + x.flrCtxs % 2 ^ 32 * 2 ^ 32 + x.flrEvents % 2 ^ 32 * 2 ^ 64) s3

/-! ## Translation and the secure world (R108, R111, R112, R126, R127) -/

/-- A write of MMU_INV_CTRL. FUNC 0 written by PF1 is PF1 itself (R126). -/
def mmuInvalidate (f : Fun) (v : Word) (s : State) : State :=
  let d := f.ep
  let a := MMU_INV_CTRL d
  if (accessRow s f (addrOff a)).isNone ∨ s.flag a MMU_INV_CTRL_BUSY then s
  else
    let s1 := s |> wrF a MMU_INV_CTRL_STAGE (MMU_INV_CTRL_STAGE.get v) |> wrF a MMU_INV_CTRL_ALL (MMU_INV_CTRL_ALL.get v)
                |> wrF a MMU_INV_CTRL_FUNC (MMU_INV_CTRL_FUNC.get v) |> wrF a MMU_INV_CTRL_PAGES (MMU_INV_CTRL_PAGES.get v)
    let n := MMU_INV_CTRL_FUNC.get v
    if MMU_INV_CTRL_GO.get v = 0 then s1
    else
      let x : MmuInv := ⟨⟨d, if f.fn = 63 ∧ n = 0 then 63 else n⟩, s1.rd64 (MMU_INV_ADDR_LO d) / 2 ^ 12 % 2 ^ 36, s1.rdF a MMU_INV_CTRL_PAGES,
        s1.rdF a MMU_INV_CTRL_STAGE, s1.flag a MMU_INV_CTRL_ALL⟩
      { s1 with invs := tset d.idx x s1.invs } |> wrB a MMU_INV_CTRL_BUSY true

/-- The invalidation covers a held translation. -/
def MmuInv.covers (x : MmuInv) (e : TlbEntry) : Bool :=
  let hit (p : Nat) : Bool := decide (x.first ≤ p ∧ p < x.first + x.pages)
  e.f == x.f && (x.all || (nbit x.stage 0 && hit e.page) || (nbit x.stage 1 && hit e.ipa))

/-- The invalidation is done: translations it covers are no longer held. -/
def mmuInvDone (d : Die) (s : State) : State :=
  match tfind d.idx s.invs with
  | none => s
  | some x => { s with tlb := s.tlb.filter (fun e => !x.covers e), invs := tkeep (fun k => k != d.idx) s.invs } |> wrB (MMU_INV_CTRL d) MMU_INV_CTRL_BUSY false

/-- A request to PF1 is accepted (R108, R126). -/
def pf1Accepts (s : State) (d : Die) (rid : Nat) (ide : Option Nat) : Bool :=
  s.flag (PF1_ACCESS d) PF1_ACCESS_LOADED
    && (upto 4).any (fun i => s.flag (PF1_REQID d i) PF1_REQID_VALID && s.rdF (PF1_REQID d i) PF1_REQID_RID == rid)
    && (s.rdF (PF1_ACCESS d) PF1_ACCESS_IDE_REQUIRED == 0 || ide == some (s.rdF (PF1_ACCESS d) PF1_ACCESS_IDE_STREAM))

/-- A request to PF1 that is refused. -/
def pf1Request (d : Die) (posted : Bool) (rid : Nat) (ide : Option Nat) (s : State) : State :=
  if pf1Accepts s d rid ide then s
  else
    let s1 := satF (PF1_REJECTED d) PF1_REJECTED_COUNT 1 s
    if posted then s1 else emit (.unsupported (pf1 d)) s1

/-- A write of CARVE_SIZE. -/
def carveSize (f : Fun) (v : Word) (s : State) : State :=
  let a := CARVE_SIZE f.ep
  if (accessRow s f (addrOff a)).isNone ∨ s.flag a CARVE_SIZE_LOCK then s
  else s |> wrF a CARVE_SIZE_SIZE_2M (CARVE_SIZE_SIZE_2M.get v) |> wrF a CARVE_SIZE_LOCK (CARVE_SIZE_LOCK.get v)

/-- A write of CARVE_BASE. -/
def carveBase (f : Fun) (v : Word) (s : State) : State :=
  let a := CARVE_BASE f.ep
  if (accessRow s f (addrOff a)).isNone ∨ s.flag (CARVE_SIZE f.ep) CARVE_SIZE_LOCK then s else wrF a CARVE_BASE_BASE_2M (CARVE_BASE_BASE_2M.get v) s

def sWays (f : Fun) (v : Word) (s : State) : State :=
  let a := CACHE_S_WAYS f.ep
  let m := CACHE_S_WAYS_S_MASK.get v
  if (accessRow s f (addrOff a)).isNone ∨ sRouteLives s f.ep ∨ ((upto 16).filter (nbit m)).length < 2 then s else wrF a CACHE_S_WAYS_S_MASK m s

/-! ## Secure claims (R498) -/

/-- The bit names a unit that is present. -/
def claimRange (q : RingId) (d : Desc) (s : State) : Option (Nat × Nat) :=
  let b := dget d 8 0 8
  firstFail [(if b ≤ 28 ∧ unitPresent s.part q.fn.ep b = false then some (stUnitAbsent, 0) else none), onlyPf1 q, bad (decide (28 < b)) 0x08 8]

def claimCount (s : State) (d : Die) (b : Nat) : Nat := tget 0 (unitKey d b) s.claims

/-- One SECURE_CLAIM more or fewer on a unit. -/
def setClaims (d : Die) (b n : Nat) (s : State) : State := refreshClaim d b { s with claims := tset (unitKey d b) n s.claims }

def opSecureClaim : OpSpec :=
  mkOp 0x24 false (rsv 9 64) noUnits claimRange notEmpty
   (fun t d s => (some (stOk, 0), setClaims t.die (dget d 8 0 8) (claimCount s t.die (dget d 8 0 8) + 1) s))

def opSecureRelease : OpSpec :=
  mkOp 0x25 false (rsv 9 64) noUnits
   (fun q d s => andThen (claimRange q d s) (bad (claimCount s q.fn.ep (dget d 8 0 8) == 0) 0x08 8)) notEmpty
   (fun t d s =>
    let b := dget d 8 0 8
    (some (stOk, 0), s |> setClaims t.die b (claimCount s t.die b - 1) |> carryVote t.die b))

/-! ## Debug (R119, R120) -/

/-- A challenge: 48 random bytes. -/
def issueChallenge (d : Die) (s : State) : State :=
  let ws := (upto 12).map (fun i => s.freeNat i % 2 ^ 32)
  { s with debug := tset d.idx ⟨ws⟩ s.debug } |> useFree 12 |> emit (.challenge d ws) |> wrB (DEBUG_STATUS d) DEBUG_STATUS_CHALLENGE_OPEN true

/-- Switches that a certificate enables: signed over the open challenge, for this device or for any, by a key that may enable them, and
not fused off. -/
def certSwitches (s : State) (d : Die) (c : DebugCert) : Nat :=
  let uid := if d = .a then s.part.uidA else s.part.uidB
  let fused := s.rdF (DEBUG_STATUS d) DEBUG_STATUS_FUSED_OFF
  if s.flag (DEBUG_STATUS d) DEBUG_STATUS_CHALLENGE_OPEN ∧ c.signatureOk ∧ (c.boundUid = none ∨ c.boundUid = some uid) then
    ((upto 4).filter (fun i => nbit c.switches i && !nbit fused i
      && (c.keyHash == s.part.integratorKey || (decide (2 ≤ i) && c.keyHash == s.part.vendorKey)))).foldl (fun m i => m + 2 ^ i) 0
  else 0

/-- A certificate is presented: the challenge is used up. -/
def presentCert (d : Die) (c : DebugCert) (s : State) : State :=
  let on := certSwitches s d c
  let old := s.rdF (DEBUG_STATUS d) DEBUG_STATUS_ENABLED
  let new := (upto 4).filter (fun i => nbit on i && !nbit old i)
  let s1 := { s with debug := tset d.idx ⟨[]⟩ s.debug } |> wrB (DEBUG_STATUS d) DEBUG_STATUS_CHALLENGE_OPEN false
  new.foldl (fun t i =>
    let m := setBit (t.rdF (DEBUG_STATUS d) DEBUG_STATUS_ENABLED) i true
    let t1 := wrF (DEBUG_STATUS d) DEBUG_STATUS_ENABLED m t
    let t2 := bothDies.foldl (fun u e => u |> post (pf0 e) ⟨0x0013, d.idx, 1, u.now d, m, d⟩ |> post (pf1 e) ⟨0x0013, d.idx, 1, u.now d, m, d⟩) t1
    if i = 0 then bothDies.foldl (fun u e => latchCause e .debug u) t2 else t2) s1

/-! ## Migration (R121–R124) -/

/-- Size of the state image, bytes. -/
def imageSize (g : Desc) : Nat :=
  let haps := ((upto 8).filter (nbit (dget g 19 0 8))).length
  cdiv (1024 * (16 + 64 * dget g 11 0 8 + 4 * dget g 16 0 8 + 8 * dget g 17 0 8 + 2 * dget g 18 0 8 + haps + dget g 20 0 16)) 4096 * 4096

/-- A tenant command with nothing but FUNC. -/
def funcOnly : List (Nat × Nat × Nat) := (8, 6, 2) :: rsv 9 64

def tenantRange (q : RingId) (d : Desc) (s : State) : Option (Nat × Nat) := firstFail [onlyPf0 q, vfRange d, bad (!holdsTenant s (vfOf q d)) 0x08 8]

def tenantGrants (s : State) (f : Fun) : Desc := grantsOf s f

def opStateSize : OpSpec :=
  mkOp 0x26 false funcOnly noUnits tenantRange notEmpty
   (fun t d s => (some (stOk, imageSize (tenantGrants s (vfOf t.ring d)) / 4096), s))

def opTenantFreeze : OpSpec :=
  { mkOp 0x27 false funcOnly noUnits tenantRange notEmpty
     (fun t d s =>
      let f := vfOf t.ring d
      match s.tenant f with
      | none => (invalid 0x08 8, s)
      | some x =>
        if frozen s f then (some (stOk, 0), s)
        else
          let s1 := setTenant f { x with freezing := some t } s
          let s2 := bothDies.foldl (fun u e => freezeContexts e f u) s1
          (none, ((audioRoutes s2).filter (fun y => y.2.grantee == f)).foldl (fun u y => setEnv y.1 false u) s2)) with
    defer := fun q d s => freezing s (vfOf q d) }

/-- Every part of the tenant is at rest (Table 4.4). -/
def partsFrozen (s : State) (f : Fun) : Bool :=
  bothDies.all (fun d => (s.gpu d).jobs.all (fun j => j.fn != f || j.clusters.isEmpty) && (s.check d).jobs.all (fun j => j.ticket.fn != f))
    && (grantedRoutes s f).all (fun x =>
      (camForm x.2 != some .c || x.2.kind != 2 || (s.capture x.1).filling.isNone) && (x.2.kind != 5 || (s.hap (epUnit x.2.source)).run.isNone)
        && (x.2.kind != 3 || (!(s.aroute x.1).up && decide ((s.aroute x.1).envEnd ≤ s.timeA))))

def freezeDone (f : Fun) (s : State) : State :=
  match s.tenant f with
  | none => s
  | some x =>
    match x.freezing with
    | none => s
    | some t =>
      if partsFrozen s f = false then s
      else s |> setTenant f { x with freezing := none } |> wrB (FUNC_STATUS f) FUNC_STATUS_FROZEN true |> wrB (TENANT_CFG f) TENANT_CFG_FROZEN true
             |> finish t stOk 0

/-- First register address of a function's rings. -/
def ringBlock (f : Fun) : Nat := RING_CFG ⟨f, 0⟩ / 0x400 * 0x400

/-- What the image of a function carries. -/
def imageFor (s : State) (f : Fun) : Image :=
  let rs := grantedRoutes s f
  { regs := (upto 256).map (fun i => s.rd (ringBlock f + 4 * i))
    root := (s.rd (S1_ROOT_LO f), s.rd (S1_ROOT_HI f), s.rd (XLATE_CTRL f))
    rings := (ringsOf f).map s.ringAux
    owed := s.owed.filter (fun t => t.ring.fn == f)
    routes := rs.map (fun x => (x.1, x.2.kind))
    commits := (rs.filter (fun x => x.2.kind == 1)).map (fun x =>
      let y := (s.head (epUnit x.2.sink)).layer (epSub x.2.sink)
      (x.1, y.pend, y.pendColour))
    jobs := (s.gpu (gpuDie s f)).jobs.filter (fun j => j.fn == f)
    audio := (rs.filter (fun x => x.2.kind == 3)).map (fun x => (x.1, s.aroute x.1))
    haptics := (rs.filter (fun x => x.2.kind == 5)).map (fun x => (epUnit x.2.source, s.hap (epUnit x.2.source)))
    events := (s.fnAux f).frozenEvents
    gap := ((s.fnAux f).gap, (s.fnAux f).gapTime) }

/-- The header of an image (R122). -/
def imageHeader (g : Desc) (size crc : Nat) : List Byte :=
  leBytes 4 0x51585354 ++ leBytes 1 0 ++ leBytes 1 1 ++ leBytes 1 0xB0 ++ leBytes 1 (dget g 9 0 8) ++ leBytes 4 size ++ leBytes 4 crc
    ++ leBytes 48 (dget g 9 0 384)

def imageResv : List (Nat × Nat × Nat) := (8, 6, 2) :: rsv 9 16 ++ rsv 28 64

def opTenantSave : OpSpec :=
  mkOp 0x28 false imageResv noUnits
   (fun q d s => firstFail [tenantRange q d s, bad (!frozen s (vfOf q d)) 0x08 8,
      bad (decide (dget d 24 0 32 < imageSize (tenantGrants s (vfOf q d)))) 0x08 24])
   notEmpty
   (fun t d s =>
    let f := vfOf t.ring d
    let g := tenantGrants s f
    let n := imageSize g
    let body := (upto (n - 64)).map (Config.imageByte (imageFor s f))
    match dmaWrite t.die t.fn t.ring.ring (dget d 16 0 64) (imageHeader g n (crc32c body) ++ body) s with
    | (some e, s1) => (some e.completion, s1)
    | (none, s1) => (some (stOk, 0), s1))

/-- The target grants at least what the image's tenant had (R123). -/
def grantsCover (have_ want : Desc) : Bool :=
  [11, 12, 13, 14, 16, 17, 18].all (fun b => decide (dget want b 0 8 ≤ dget have_ b 0 8)) && decide (dget want 20 0 16 ≤ dget have_ 20 0 16)
    && (upto 8).all (fun i => (!nbit (dget want 15 0 8) i || nbit (dget have_ 15 0 8) i) && (!nbit (dget want 19 0 8) i || nbit (dget have_ 19 0 8) i))
    && (upto 4).all (fun i => decide (winSize want i ≤ winSize have_ i))

/-! Tickets of the image, given to the target function and numbered anew. -/
def moveTicket (f : Fun) (b : Nat) (t : Ticket) : Ticket := { t with ring := ⟨f, t.ring.ring⟩, tag := t.tag + b }
def moveFlight (b : Nat) (x : Flight) : Flight := { x with tag := x.tag + b }
def moveRing (b : Nat) (r : RingAux) : RingAux := { r with flights := r.flights.map (moveFlight b), wait := r.wait.map (fun w => (w.1 + b, w.2)) }
def moveCommit (f : Fun) (b : Nat) (c : Commit) : Commit := { c with ticket := moveTicket f b c.ticket }
def moveColour (f : Fun) (b : Nat) (c : Colour) : Colour := { c with ticket := moveTicket f b c.ticket }
def moveStart (f : Fun) (b : Nat) (x : HapStart) : HapStart := { x with play := x.play.map (fun p => (moveTicket f b p.1, p.2)) }
def moveHap (f : Fun) (b : Nat) (x : HapChan) : HapChan :=
  { x with run := x.run.map (fun r => { r with start := moveStart f b r.start }), queued := x.queued.map (moveStart f b),
           plays := x.plays.map (fun p => (moveTicket f b p.1, p.2)) }
def moveAudio (f : Fun) (b : Nat) (x : AudioRoute) : AudioRoute := { x with bufs := x.bufs.map (fun y => { y with ticket := moveTicket f b y.ticket }) }

/-- The largest tag of an image. -/
def imageTags (m : Image) : Nat :=
  (m.rings.flatMap (fun r => r.flights.map (fun x => x.tag)) ++ m.owed.map (fun t => t.tag) ++ m.jobs.map (fun j => j.ticket.tag)).foldl max 0

/-- An image is loaded into the target, which is then frozen (R123). -/
def loadImage (f : Fun) (m : Image) (s : State) : State :=
  let b := s.nextTag
  let (lo, hi, ctrl) := m.root
  let d := gpuDie s f
  let s1 := { s with nextTag := b + imageTags m + 1, owed := m.owed.map (moveTicket f b) ++ s.owed }
  let s2 := (upto 256).foldl (fun t i =>
    match m.regs[i]? with
    | some w => wr (ringBlock f + 4 * i) w t
    | none => t) s1
  let s3 := s2 |> wr (S1_ROOT_LO f) lo |> wr (S1_ROOT_HI f) hi |> wrF (XLATE_CTRL f) XLATE_CTRL_S1_EN (XLATE_CTRL_S1_EN.get ctrl)
  let s4 := (upto 16).foldl (fun t i => setRing ⟨f, i⟩ (moveRing b (m.rings[i]?.getD RingAux.empty)) t) s3
  let s5 := m.commits.foldl (fun t c =>
    match t.route c.1 with
    | some r =>
      let h := epUnit r.sink
      let l := epSub r.sink
      t |> setLayer h l { (t.head h).layer l with pend := c.2.1.map (moveCommit f b), pendColour := c.2.2.map (moveColour f b) } |> refreshLayer h l
    | none => t) s4
  let s6 := setGpu d { s5.gpu d with jobs := (s5.gpu d).jobs ++ m.jobs.map (fun j => { j with ticket := moveTicket f b j.ticket, clusters := [], asked := none }) } s5
  let s7 := m.audio.foldl (fun t a => setARoute a.1 { moveAudio f b a.2 with up := false, envEnd := t.timeA } t) s6
  let s8 := m.haptics.foldl (fun t c =>
    let x := moveHap f b c.2
    t |> setHap c.1 { t.hap c.1 with ram := x.ram, arms := x.arms, plays := x.plays, queued := x.queued } |> refreshHap c.1) s7
  s8 |> setFn f { s8.fnAux f with frozenEvents := m.events, gap := m.gap.1, gapTime := m.gap.2 }
     |> refreshReady d |> refreshGpu d
     |> wrB (FUNC_STATUS f) FUNC_STATUS_FROZEN true |> wrB (TENANT_CFG f) TENANT_CFG_FROZEN true

/-- The target runs no work: nothing in flight, no job. -/
def atIdle (s : State) (f : Fun) : Bool :=
  ringsOff s f && inFlight s f == 0 && bothDies.all (fun d => (s.gpu d).jobs.all (fun j => j.fn != f) && (s.check d).jobs.all (fun j => j.ticket.fn != f))

/-- The checks of a restore on the image's bytes, and what it carries. -/
def readImage (s : State) (f : Fun) (bs : List Byte) : Except (Nat × Nat) Image :=
  let g := tenantGrants s f
  let want := BitVec.ofNat 512 (ofLe ((bs.drop 16).take 48) * 2 ^ 72)
  let size := fb bs 8 4
  let body := (bs.drop 64).take (size - 64)
  let no (reason : Nat) : Except (Nat × Nat) Image := .error (stInvalidDesc, invalidDetail reason 16)
  if fb bs 0 4 ≠ 0x51585354 ∨ size ≠ imageSize want ∨ bs.length < size ∨ fb bs 12 4 ≠ crc32c body then no 0x08
  else if fb bs 5 1 ≠ 1 ∨ fb bs 4 1 ≠ 0 ∨ 0xB0 < fb bs 6 1 then no 0x08
  else if fb bs 7 1 ≠ dget g 9 0 8 ∨ grantsCover g want = false then no 0x0B
  else
    match Config.imageOf body with
    | none => no 0x08
    | some m =>
      if m.routes.all (fun x => (s.route x.1).any (fun r => r.kind == x.2 && r.grantee == f)) then .ok m else .error (stNoRoute, 0)

def opTenantRestore : OpSpec :=
  mkOp 0x29 false imageResv noUnits
   (fun q d s => firstFail [tenantRange q d s, bad (!atIdle s (vfOf q d)) 0x08 8, bad (decide (dget d 24 0 32 < 64)) 0x08 24])
   notEmpty
   (fun t d s =>
    let f := vfOf t.ring d
    match dmaRead t.die t.fn t.ring.ring (dget d 16 0 64) 64 9 s with
    | (.error e, s1) => (some e.completion, s1)
    | (.ok hd, s1) =>
      match dmaRead t.die t.fn t.ring.ring (dget d 16 0 64) (min (dget d 24 0 32) (max 64 (fb hd 8 4))) 9 s1 with
      | (.error e, s2) => (some e.completion, s2)
      | (.ok bs, s2) =>
        match readImage s2 f bs with
        | .error r => (some r, s2)
        | .ok m => (some (stOk, 0), loadImage f m s2))

/-- A frozen tenant resumes: held events and completions first (R124). -/
def thaw (f : Fun) (s : State) : State :=
  let es := (s.fnAux f).frozenEvents
  let s1 := s |> wrB (FUNC_STATUS f) FUNC_STATUS_FROZEN false |> wrB (TENANT_CFG f) TENANT_CFG_FROZEN false
              |> setFn f { s.fnAux f with frozenEvents := [] }
  let s2 := es.foldl (fun t e => post f e t) s1 |> reportGap f.ep f
  let s3 := ((ringsOf f).filter (fun q => ringOn s2 q && ringType s2 q == 0xA)).foldl (fun t q =>
    drainHeld f.ep q ((t.ringAux q).held.length + 1) t) s2
  let s4 := refreshRings f s3
  ((audioRoutes s4).filter (fun y => y.2.grantee == f)).foldl (fun u y => setEnv y.1 true u) s4

def opTenantThaw : OpSpec :=
  mkOp 0x2A false funcOnly noUnits tenantRange (fun _ _ => false)
   (fun t d s =>
    let f := vfOf t.ring d
    if frozen s f then (some (stOk, 0), thaw f s) else (some (stOkEmpty, 0), s))

/-! ## Meanings -/

def execTenantCreate (q : RingId) (desc : Desc) (s : State) : Host.Outcome State Fault Refusal := run (submit opTenantCreate q desc) s

def execTenantModify (q : RingId) (desc : Desc) (s : State) : Host.Outcome State Fault Refusal := run (submit opTenantModify q desc) s

def execTenantDestroy (q : RingId) (desc : Desc) (s : State) : Host.Outcome State Fault Refusal := run (submit opTenantDestroy q desc) s

def execTenantDestroyDone (f : Fun) (scrubFails : List Nat) (s : State) : Host.Outcome State Fault Refusal := run (destroyDone f scrubFails) s

def execSecureClaim (q : RingId) (desc : Desc) (s : State) : Host.Outcome State Fault Refusal := run (submit opSecureClaim q desc) s

def execSecureRelease (q : RingId) (desc : Desc) (s : State) : Host.Outcome State Fault Refusal := run (submit opSecureRelease q desc) s

def execStateSize (q : RingId) (desc : Desc) (s : State) : Host.Outcome State Fault Refusal := run (submit opStateSize q desc) s

def execTenantFreeze (q : RingId) (desc : Desc) (s : State) : Host.Outcome State Fault Refusal := run (submit opTenantFreeze q desc) s

def execTenantFreezeDone (f : Fun) (s : State) : Host.Outcome State Fault Refusal := run (freezeDone f) s

def execTenantSave (q : RingId) (desc : Desc) (s : State) : Host.Outcome State Fault Refusal := run (submit opTenantSave q desc) s

def execTenantRestore (q : RingId) (desc : Desc) (s : State) : Host.Outcome State Fault Refusal := run (submit opTenantRestore q desc) s

def execTenantThaw (q : RingId) (desc : Desc) (s : State) : Host.Outcome State Fault Refusal := run (submit opTenantThaw q desc) s

def execPcieFlr (f : Fun) (s : State) : Host.Outcome State Fault Refusal := run (funcReset f) s

def execFlrCtrlWrite (f : Fun) (target : Nat) (v : Word) (s : State) : Host.Outcome State Fault Refusal := run (flrCtrl f target v) s

def execFlrDone (f : Fun) (scrubFails : List Nat) (s : State) : Host.Outcome State Fault Refusal := run (flrDone f scrubFails) s

def execMmuInvalidate (f : Fun) (v : Word) (s : State) : Host.Outcome State Fault Refusal := run (mmuInvalidate f v) s

def execMmuInvalidateDone (d : Die) (s : State) : Host.Outcome State Fault Refusal := run (mmuInvDone d) s

def execPf1RequestRejected (d : Die) (posted : Bool) (rid : Nat) (ide : Option Nat) (s : State) : Host.Outcome State Fault Refusal :=
  run (pf1Request d posted rid ide) s

def execCarveLock (f : Fun) (v : Word) (s : State) : Host.Outcome State Fault Refusal := run (carveSize f v) s

def execCacheSWaysWrite (f : Fun) (v : Word) (s : State) : Host.Outcome State Fault Refusal := run (sWays f v) s

def execDebugChallenge (d : Die) (s : State) : Host.Outcome State Fault Refusal := run (issueChallenge d) s

def execDebugCertificate (d : Die) (cert : DebugCert) (s : State) : Host.Outcome State Fault Refusal := run (presentCert d cert) s

end Machine
end Sys2Proof
end

