-- ==== Sys2Proof/Machine/Lines.lean ====
section
/-! DEFINITION. The start of a line of a head, and of a frame of a camera stream: what both bring to routes, commits and events
(chapters 5 to 8). -/
namespace Sys2Proof.Machine

/-- The head, or the composer, is quiesced or in reset: no line is fetched or sent (Table 17.4). -/
def headQuiet (s : State) (h : Nat) : Bool := unitsStopped s [unitKey (headDie h) (bitHead (headNo h)), unitKey (headDie h) bitComposer]

/-- Mode and lookahead of the head's next frame (R136). -/
def nextMode (s : State) (h : Nat) : Bool × Nat :=
  match (s.head h).mode with
  | some m =>
    if m.mode = 1 ∧ m.wait = 1 then (true, m.lookahead)
    else if m.mode = 0 ∧ (m.passed ∨ m.wait = 1) then (false, m.lookahead)
    else (headThrough s h, headLook s h)
  | none => (headThrough s h, headLook s h)

/-- Lines whose fetch begins at the start of line c of the present frame: line and frame, in order. Those that new counts place
earlier begin now (R132, R151). -/
def dueLines (s : State) (h c : Nat) : List (Nat × Nat) :=
  let x := s.head h
  let f := s.headFrame h
  let missing (k fr : Nat) : Bool :=
    match tfind k x.ahead with
    | some l => l.frame != fr
    | none => true
  let now := if headThrough s h then (upto (headLook s h + 1)).map (fun i => (c + i, f)) else []
  let (thr, look) := nextMode s h
  let next := if thr ∧ x.vtotal ≤ c + look then (upto (min look (c + look + 1 - x.vtotal))).map (fun k => (k, f + 1)) else []
  (now.filter (fun x1 => decide (x1.1 < x.vactive)) ++ next).filter (fun y => missing y.1 y.2)

/-- Line 0 of a through-mode frame begins to be fetched: layers are shown again, camera layers with their changes and a new head colour take
effect, and the loads of the frame before are complete (R152, R178, R190, R222). -/
def freshFrame (h : Nat) (s : State) : State :=
  let x := s.head h
  s |> wrF (HEAD_LOAD (headDie h) (headNo h)) HEAD_LOAD_PEAK (min 0xFFFF x.peak) |> setHead h { x with peak := 0, overloaded := false }
    |> freshLayers h |> dueChanges h |> cameraFrame h |> colourInEffect h

/-- The fetch of one line of a through-mode head begins: the commits that landed take effect with it (R151). -/
def beginFetch (h : Nat) (s : State) (y : Nat × Nat) : State :=
  let s0 := if y.1 = 0 then freshFrame h s else s
  let s1 := if anyPending s0 h then takeAll h y.2 y.1 .through s0 else s0
  let (l, s2) := fetchLine h y.1 y.2 (if y.1 = 0 then formPresets h s1 else s1)
  setHead h { s2.head h with ahead := tset y.1 l (s2.head h).ahead } s2

/-- A snapshot of the present frame is being written (R144). -/
def snapshotOn (s : State) (h : Nat) : Bool :=
  let d := headDie h
  let n := headNo h
  let p := s.rdF (HEAD_SNAP d n) HEAD_SNAP_PERIOD
  headThrough s h && p != 0 && s.headFrame h % p == 0
    && decide (frameUnits ⟨(s.head h).ha, (s.head h).hb, (s.head h).va, (s.head h).vb⟩ (s.rdF (HEAD_CFG d n) HEAD_CFG_STORE_FMT)
        ≤ s.rdF (HEAD_FT d n) HEAD_FT_FT_SIZE)

/-- The line of the present frame that was fetched. -/
def fetchedLine (s : State) (h c : Nat) : Option FtLine := (tfind c (s.head h).ahead).filter (fun l => l.frame == s.headFrame h)

/-- Stages 6 to 8 of a through-mode line: those pixels that the composer has finished, and the background for the rest (R152, R164). -/
def throughPixels (s : State) (h c : Nat) (finished : Option Nat) : List Rgb :=
  let x := s.head h
  match fetchedLine s h c with
  | none => List.replicate x.hactive blackRgb
  | some l =>
    let k := l.colour.getD x.colourNow
    let px := composed k x.hactive l.parts
    match finished with
    | none => px
    | some n => px.take n ++ (composed k x.hactive []).drop n

/-- Active line c of a through-mode head goes out; its snapshot is written. -/
def throughLine (h c : Nat) (finished : Option Nat) (s : State) : State :=
  let x := s.head h
  let line := fetchedLine s h c
  let s1 := setHead h { x with
    shown := (line.map (fun l => l.layers)).getD [], black := line.isNone,
    ahead := x.ahead.filter (fun e => !(e.1 == c && e.2.frame == s.headFrame h)),
    ftWidth := if snapshotOn s h then x.hactive else x.ftWidth,
    ft := match line with
      | some l => if snapshotOn s h then tset c { l with parts := [], pixels := (throughPixels s h c finished).map (storedPx (storeFmt s h)) } x.ft else x.ft
      | none => x.ft } s
  if finished.isSome then countUnderrun h c s1 else s1

/-- The line of a pass is not yet in the region when scan-out reaches it (R150). -/
def staleLine (s : State) (h c : Nat) : Bool :=
  match (s.head h).pass with
  | some (j, f) => decide (f ≤ s.headFrame h ∧ j ≤ c) || (decide (f ≤ s.headFrame h) && (s.head h).writing.any (fun w => w.1 == c))
  | none => false

/-- Active line c of a stored-mode head goes out. -/
def storedLine (h c : Nat) (s : State) : State :=
  let x := s.head h
  let stale := staleLine s h c
  let line := regionLine s h c
  s |> setHead h { x with shown := (line.map (fun l => l.layers)).getD [], black := line.isNone, stale := x.stale + b2n stale }
    |> (if stale then satF (COMPOSE_LATE_COUNT (headDie h) (headNo h)) COMPOSE_LATE_COUNT_COUNT 1 else id)

/-- The active lines of a frame are over, at its blanking or where it is cut short: the events of the frame that are still due (R150, R152). -/
def frameOver (h : Nat) (s : State) : State :=
  let d := headDie h
  let x := s.head h
  let s1 := if underrunDue x then postUnderrun h s else s
  if x.stale = 0 then s1
  else
    let s2 := if s.flag (HEAD_EVENT_CFG d (headNo h)) HEAD_EVENT_CFG_EV_COMPOSE_LATE then
        postPf0 d 0x0202 h (min 0xFFFF x.stale + s.headFrame h % 2 ^ 32 * 2 ^ 32) s1 else s1
    setHead h { s2.head h with stale := 0 } s2

/-- The vertical blanking begins: the frame's events, VBLANK, the window checks of a through-mode frame, and the end of a snapshot (R144,
R150, R158, R188). -/
def blankBegins (h : Nat) (s : State) : State :=
  let d := headDie h
  let n := headNo h
  let a := HEAD_EVENT_CFG d n
  let f := s.headFrame h
  let x := s.head h
  let s1 := if snapshotOn s h then
      s |> setHead h { x with ft := tkeep (fun k => decide (k < x.vactive)) x.ft } |> wrB (HEAD_STATUS d n) HEAD_STATUS_FT_VALID true
    else s
  let s2 := if headThrough s h then windowChecks h f s1
    else if x.pass.isNone then
      s1 |> wrF (HEAD_LOAD d n) HEAD_LOAD_PEAK (min 0xFFFF x.peak) |> setHead h { s1.head h with peak := 0, overloaded := false }
    else s1
  let s4 := frameOver h s2
  if f % (s.rdF a HEAD_EVENT_CFG_VBLANK_DIV_M1 + 1) = 0 then
    let ev (g : Fun) (t : State) : State := post g ⟨0x0200, h, 1, t.now d, f, d⟩ t
    let s5 := if s.flag a HEAD_EVENT_CFG_EV_VBLANK then ev (pf0 d) s4 else s4
    let fs := (((routesOf s5 1).filter (fun r => epUnit r.2.sink == h)).map (fun r => r.2.grantee)).eraseDups.filter (fun g => g != pf0 d)
    if s.flag a HEAD_EVENT_CFG_EV_TENANT_VBLANK then fs.foldl (fun t g => ev g t) s5 else s5
  else s4

/-- What a frame start brings. -/
def frameBrings (h : Nat) (obs : LineObs) (s0 : State) : State :=
  let d := headDie h
  let n := headNo h
  let s1 := s0 |> frameOver h |> add64 (HEAD_FRAME_LO d n) 1
  let x := s1.head h
  let s2 := setHead h { x with phase := 3, starting := none, stale := 0, underMask := x.underNext, underNext := 0,
                               underFirst := if x.underNext = 0 then 0xFFFF else 0, underPosted := false } s1
  let s3 := match x.starting with
    | some t => finish t stOk 0 s2
    | none => s2
  let s4 := s3 |> headChanges h |> resetLayers h |> genApply h |> genTrim h
  let s5 := match (s4.head h).mode with
    | none => s4
    | some m =>
      if m.wait = 1 ∨ (m.mode = 0 ∧ m.wait = 0 ∧ m.passed) then modeInEffect h m s4
      else setHead h { s4.head h with mode := some { m with wait := m.wait - 1 } } s4
  let s6 := match (s5.head h).pendColour with
    | some (_, _, 1) => if headThrough s5 h then s5 else colourInEffect h s5
    | _ => s5
  let s7 := if headThrough s6 h ∨ (s6.head h).pass.isSome then s6 else layersOn h s6
  obs.slacks.foldl (setSlack h) (s7 |> garnetFrameStart h |> scanFrameStart h |> genSend d (.head h))

/-- The timing that has landed comes into force, and with it the line budget; a new size recomposes a stored frame (R132, R189). -/
def applyTiming (h : Nat) (s : State) : State :=
  let d := headDie h
  let n := headNo h
  let x := s.head h
  let y := { x with ha := s.isl (TIMING_HA d n), hb := s.isl (TIMING_HB d n), va := s.isl (TIMING_VA d n), vb := s.isl (TIMING_VB d n) }
  let sized := decide (y.hactive ≠ x.hactive ∨ y.vactive ≠ x.vactive) && !headThrough s h
  let s1 := setHead h { y with recompose := x.recompose || sized } s
  if y.htotal = x.htotal then s1 else refreshRates d s1

/-- The number of the line that starts; a snap ends the frame early or late (R132, R156). -/
def lineNumber (s : State) (h : Nat) : Nat :=
  let x := s.head h
  let c := s.rdF (HEAD_STATUS (headDie h) (headNo h)) HEAD_STATUS_LINE + 1
  if x.phase = 2 then 0
  else
    match x.snapIn with
    | some 1 => 0
    | some _ => min c 8191
    | none => if x.vtotal ≤ c then 0 else c

/-- The line that goes out, if one does: its pixels as stage 9 gives them, their top code and the head colour. While the Garnet scan drives
the port, it is the scan's (R209). -/
def lineBase (s : State) (h c : Nat) (obs : LineObs) : Option (List Rgb × Nat × HeadColour) :=
  let x := s.head h
  if x.vactive ≤ c then none
  else if s.flag (GSCAN_STATUS (headDie h) (headNo h)) GSCAN_STATUS_ACTIVE then some (scanBase s h c obs.eccUncorr)
  else if headQuiet s h then none
  else if headThrough s h then some (throughPixels s h c obs.unfinished, 4095, ((fetchedLine s h c).bind FtLine.colour).getD x.colourNow)
  else some (scanBase s h c obs.eccUncorr)

/-- What line c of the head brings, once its number stands: a frame start, the fetches that begin, the line that goes out, the blanking,
and the Garnet checks. -/
def lineWork (h c : Nat) (obs : LineObs) (s : State) : State :=
  let s2 := if c = 0 then frameBrings h obs s else s
  let s3 := if headQuiet s2 h then s2 else (dueLines s2 h c).foldl (beginFetch h) s2
  let base := lineBase s3 h c obs
  let s4 := if (s3.head h).vactive ≤ c then s3 else if headQuiet s3 h then breakScan h s3
    else if headThrough s3 h then throughLine h c obs.unfinished s3 else storedLine h c s3
  let s5 := if (s4.head h).opening then blankBegins h s4 else s4
  s5 |> ftEcc (headDie h) obs.eccCorr obs.eccUncorr |> garnetLine h c base obs

/-- The grid moves to line c: its number, whether it lies in the blanking and opens it, and the lines that are left of it (R132, R144). A
pass that still runs at the opening has missed it (R150). -/
def lineStands (h c : Nat) (s : State) : State :=
  let d := headDie h
  let a := HEAD_STATUS d (headNo h)
  let x := s.head h
  let opens := decide (x.vactive ≤ c) && !s.flag a HEAD_STATUS_IN_VBLANK
  let snapped := x.snapIn == some 1
  s |> setHead h { x with lineStart := s.now d, opening := opens, passLate := if opens then x.pass.isSome else x.passLate,
                          snapIn := if c = 0 then none else x.snapIn.map (fun k => k - 1),
                          snapDue := if snapped then 0 else x.snapDue, refSeen := x.refSeen && !snapped }
    |> wrF a HEAD_STATUS_LINE c |> wrB a HEAD_STATUS_IN_VBLANK (decide (x.vactive ≤ c))
    |> wrF a HEAD_STATUS_VBLANK_LEFT (if x.vactive ≤ c then x.vtotal - c else 0)

/-- LINE_START (R129). While the pixel PLL is lost the head has no lines; a Garnet scan that drives the port has its own (R209). -/
def lineStart (h : Nat) (obs : LineObs) (s : State) : State :=
  let d := headDie h
  let n := headNo h
  if 8 ≤ h ∨ (s.head h).phase < 2 ∨ s.inReset.contains .heads ∨ islandOut s d n = false then s
  else if s.flag (HEAD_STATUS d n) HEAD_STATUS_PLL_LOST then
    (if (s.head h).phase = 3 ∧ s.flag (GSCAN_STATUS d n) GSCAN_STATUS_ACTIVE then scanOwnLine h obs s else s)
  else if (s.head h).phase = 4 then stopHead h s
  else
    let s0 := s |> splitLayers h |> applyTiming h |> scanTracks h
    let c := lineNumber s0 h
    let st := powerState s0 d
    if c = 0 ∧ (st = 1 ∨ st = 4) then pauseHead h s0 else s0 |> lineStands h c |> lineWork h c obs

/-- A Frame Start short packet (R218). It is a genlock reference of the heads that are set to the stream (R153). -/
def camFrameStart (p v header : Nat) (s : State) : State :=
  if camReceives s p = false then s
  else if 2 ≤ header then shortGone p header s
  else s |> headerSeen p header |> frameBegins p v (streamChanges p v) (genSend (camDie p) (.camera p v))

/-! ## Meanings -/

def execLineStart (h : Nat) (obs : LineObs) (s : State) : Host.Outcome State Fault Refusal := run (lineStart h obs) s

def execCamFrameStart (port : Nat) (packet : ShortPacket) (s : State) : Host.Outcome State Fault Refusal :=
  run (camFrameStart port packet.vc packet.header) s

end Sys2Proof.Machine
end

