-- ==== Sys2Proof/Machine/Fabric.lean ====
section
/-! DEFINITION. Pace, the core regulator and the crossings (chapter 2). -/
namespace Sys2Proof.Machine

/-! ## The regulator (R32–R36) -/

/-- A command is clamped to the limits. -/
def clampMv (s : State) (d : Die) (mv : Nat) : Nat :=
  max (s.rdF (AVS_LIMITS d) AVS_LIMITS_VMIN_MV) (min (s.rdF (AVS_LIMITS d) AVS_LIMITS_VMAX_MV) mv)

/-- The voltage that the rail stands at by the device's own commands; before the first, the 0.75 V of R401. -/
def railMv (s : State) (d : Die) : Nat :=
  let v := s.rdF (AVS_STATUS d) AVS_STATUS_VOUT_MV
  if v = 0 then 750 else v

/-- A frame goes out on AVSBus to the selected rail (R33). -/
def avsSend (d : Die) (kind mv : Nat) (s : State) : State := emit (.avs d (s.rdF (AVS_CTRL d) AVS_CTRL_RAIL_SEL) kind mv) s

/-- A voltage write is sent, unless AVS_FAULT stops them. -/
def command (d : Die) (mv : Nat) (s : State) : State :=
  if s.flag (AVS_STATUS d) AVS_STATUS_AVS_FAULT then s
  else
    let v := clampMv s d mv
    s |> wrF (AVS_STATUS d) AVS_STATUS_VOUT_MV v |> setPace d { s.paceOf d with frame := some (v, 0) } |> avsSend d 0 v

/-- One step of the loop, once per window (R32); a command takes the place of a voltage write that is still in flight
(notes/assumptions/34.md). -/
def loopStep (d : Die) (s : State) : State :=
  let pace := s.rdF (PACE_STATUS d) PACE_STATUS_PACE
  let eff := s.rdF (PACE_STATUS d) PACE_STATUS_TARGET_EFF
  let v := railMv s d
  if s.flag (PACE_LOOP_CTRL d) PACE_LOOP_CTRL_LOOP_EN = false then s
  else if pace < eff then command d (v + s.rdF (PACE_LOOP_CTRL d) PACE_LOOP_CTRL_STEP_UP_MV) s
  else if eff + s.rdF (PACE_MARGIN d) PACE_MARGIN_HYST < pace then command d (v - s.rdF (PACE_LOOP_CTRL d) PACE_LOOP_CTRL_STEP_DOWN_MV) s
  else s

/-- What keeps the loop from the floor: 0 the rail is at VMAX_MV, 1 AVS_FAULT, 2 LOOP_EN is 0 (R35). -/
def shortCause (s : State) (d : Die) : Option Nat :=
  if s.rdF (AVS_STATUS d) AVS_STATUS_VOUT_MV = s.rdF (AVS_LIMITS d) AVS_LIMITS_VMAX_MV then some 0
  else if s.flag (AVS_STATUS d) AVS_STATUS_AVS_FAULT then some 1
  else if s.flag (PACE_LOOP_CTRL d) PACE_LOOP_CTRL_LOOP_EN = false then some 2
  else none

/-- Shortfall over consecutive windows (R35). -/
def shortfall (d : Die) (s : State) : State :=
  let p := s.paceOf d
  let pace := s.rdF (PACE_STATUS d) PACE_STATUS_PACE
  let floor := s.rdF (PACE_FLOOR d) PACE_FLOOR_FLOOR
  let low := decide (pace < floor)
  let below := if low ∧ (shortCause s d).isSome then p.below + 1 else 0
  let above := if low then 0 else p.above + 1
  let s1 := setPace d { p with below := below, above := above } s
  match s.flag (PACE_FLOOR d) PACE_FLOOR_SHORTFALL, shortCause s d with
  | false, some c =>
    if 2 ≤ below then
      let s2 := wrB (PACE_FLOOR d) PACE_FLOOR_SHORTFALL true s1
      if s.flag (PACE_LOOP_CTRL d) PACE_LOOP_CTRL_EV_SHORTFALL then
        postPf0 d 0x0102 d.idx (pace + floor * 2 ^ 16 + s.rdF (PACE_FLOOR d) PACE_FLOOR_DOMINANT * 2 ^ 32 + c * 2 ^ 40) s2
      else s2
    else s1
  | true, _ => if 2 ≤ above then wrB (PACE_FLOOR d) PACE_FLOOR_SHORTFALL false s1 else s1
  | _, _ => s1

/-- A unit that waited for the pace starts (R31 step 4). -/
def startRaised (r : Raise) (s : State) : State :=
  match r.kind, r.tag with
  | 1, _ => startHead r.unit s
  | 2, _ => startCam r.unit s
  | _, some t => startRoute r.unit t s
  | _, none => s

/-- The given raises end, and RAISING follows those that are left. -/
def endRaises (d : Die) (rs : List Raise) (s : State) : State :=
  let left := (s.paceOf d).raises.filter (fun r => !rs.contains r)
  rs.foldl (fun t r => startRaised r t) (s |> setPace d { s.paceOf d with raises := left } |> wrB (PACE_FLOOR d) PACE_FLOOR_RAISING (left != []))

/-- PACE of the counts of a window: the lowest, over 10.24 µs, rounded down (R26). -/
def paceOfCounts : List Nat → Nat
  | [] => 0
  | c :: t => t.foldl min c * 100 / 1024

/-- A measurement window closes (R26). -/
def paceWindow (d : Die) (counts : List Nat) (s : State) : State :=
  if counts = [] ∨ s.inReset.contains .fabric then s
  else
    let pace := min 0xFFFF (paceOfCounts counts)
    let s1 := s |> wrF (PACE_STATUS d) PACE_STATUS_PACE pace |> refreshFloor d
    s1 |> endRaises d ((s1.paceOf d).raises.filter (fun r => decide (r.floor ≤ pace))) |> loopStep d |> shortfall d

/-- 1 ms after the oldest raise that waits: its unit starts anyway (R31). -/
def raiseTimeout (d : Die) (s : State) : State :=
  match (s.paceOf d).raises with
  | [] => s
  | r :: _ => endRaises d [r] s

/-- Three retries of a frame have failed (R34). `why`: 0 CRC, 1 no response, 2 action not taken. -/
def avsFails (d : Die) (why : Nat) (s : State) : State :=
  if s.flag (AVS_STATUS d) AVS_STATUS_AVS_FAULT then s
  else
    let s1 := s |> wrB (AVS_STATUS d) AVS_STATUS_AVS_FAULT true |> setPace d { s.paceOf d with frame := none } |> rinlarCount d 6 1
    if s.flag (PACE_LOOP_CTRL d) PACE_LOOP_CTRL_EV_AVS_FAULT then
      postPf0 d 0x0101 d.idx (s.rdF (AVS_STATUS d) AVS_STATUS_VOUT_MV + s.rdF (AVS_READBACK d) AVS_READBACK_VREAD_MV * 2 ^ 16 + why * 2 ^ 32) s1
    else s1

/-- One attempt of a status read: its frame, and how it ends (R33, R34; notes/assumptions/34.md). A failed one is tried again, up to three
times. -/
def statusRead (d : Die) (result : Nat) (s : State) : State :=
  let p := s.paceOf d
  let s1 := avsSend d 2 0 s
  if result = 0 then setPace d { p with statusTries := 0 } s1
  else if p.statusTries < 3 then s1 |> setPace d { p with statusTries := p.statusTries + 1 } |> satF (AVS_STATUS d) AVS_STATUS_RETRIES 1
  else s1 |> setPace d { p with statusTries := 0 } |> avsFails d (min 2 (result - 1))

/-- An attempt of a voltage write ends (R34); with none in flight, one of a status read ends. -/
def avsFrame (d : Die) (result : Nat) (alert : Bool) (s : State) : State :=
  let s1 := wrB (AVS_STATUS d) AVS_STATUS_ALERT alert s
  match (s.paceOf d).frame with
  | none => statusRead d result s1
  | some (v, n) =>
    if result = 0 then setPace d { s1.paceOf d with frame := none } s1
    else if n < 3 then
      s1 |> setPace d { s1.paceOf d with frame := some (v, n + 1) } |> satF (AVS_STATUS d) AVS_STATUS_RETRIES 1 |> avsSend d 0 v
    else avsFails d (min 2 (result - 1)) s1

/-- One attempt of the 1 ms voltage read: its frame, and how it ends (R33, R34; notes/assumptions/34.md). A failed one is tried again, up
to three times; a read that still fails leaves AVS_READBACK as it was. -/
def avsRead (d : Die) (result mv : Nat) (s : State) : State :=
  if s.flag (AVS_CTRL d) AVS_CTRL_READBACK_EN = false then s
  else
    let p := s.paceOf d
    let s1 := avsSend d 1 0 s
    if result = 0 then s1 |> setPace d { p with readTries := 0 } |> wrF (AVS_READBACK d) AVS_READBACK_VREAD_MV mv
    else if p.readTries < 3 then s1 |> setPace d { p with readTries := p.readTries + 1 } |> satF (AVS_STATUS d) AVS_STATUS_RETRIES 1
    else s1 |> setPace d { p with readTries := 0 } |> avsFails d (min 2 (result - 1))

/-- A write of 1 to AVS_FAULT (R34). -/
def avsClear (f : Fun) (s : State) : State :=
  if (accessRow s f (addrOff (AVS_STATUS f.ep))).isNone then s else wrB (AVS_STATUS f.ep) AVS_STATUS_AVS_FAULT false s

/-- A write of PACE_MANUAL (R36). -/
def manualWrite (f : Fun) (v : Word) (s : State) : State :=
  let d := f.ep
  if (accessRow s f (addrOff (PACE_MANUAL d))).isNone then s
  else
    let s1 := wrF (PACE_MANUAL d) PACE_MANUAL_MV (PACE_MANUAL_MV.get v) s
    if s.flag (PACE_LOOP_CTRL d) PACE_LOOP_CTRL_LOOP_EN then s1 else command d (PACE_MANUAL_MV.get v) s1

/-- A write of PACE_LOOP_CTRL (R36, R50). -/
def loopCtrlWrite (f : Fun) (v : Word) (s : State) : State :=
  let d := f.ep
  let a := PACE_LOOP_CTRL d
  if (accessRow s f (addrOff a)).isNone then s
  else
    let up := if PACE_LOOP_CTRL_STEP_UP_MV.get v = 0 then s.rdF a PACE_LOOP_CTRL_STEP_UP_MV else PACE_LOOP_CTRL_STEP_UP_MV.get v
    let s1 := s |> wrF a PACE_LOOP_CTRL_STEP_DOWN_MV (PACE_LOOP_CTRL_STEP_DOWN_MV.get v) |> wrF a PACE_LOOP_CTRL_STEP_UP_MV up
      |> wrF a PACE_LOOP_CTRL_EV_AVS_FAULT (PACE_LOOP_CTRL_EV_AVS_FAULT.get v) |> wrF a PACE_LOOP_CTRL_EV_SHORTFALL (PACE_LOOP_CTRL_EV_SHORTFALL.get v)
      |> wrF a PACE_LOOP_CTRL_LOOP_EN (PACE_LOOP_CTRL_LOOP_EN.get v)
    if s.flag a PACE_LOOP_CTRL_LOOP_EN ∧ PACE_LOOP_CTRL_LOOP_EN.get v = 0 then command d (s.rdF (PACE_MANUAL d) PACE_MANUAL_MV) s1 else s1

/-- A half of AVS_LIMITS is clamped to 600–900 mV. -/
def limitMv (v : Nat) : Nat := max 600 (min 900 v)

/-- A write of AVS_LIMITS (R51). -/
def limitsWrite (f : Fun) (v : Word) (s : State) : State :=
  let a := AVS_LIMITS f.ep
  let lo := limitMv (AVS_LIMITS_VMIN_MV.get v)
  let hi := limitMv (AVS_LIMITS_VMAX_MV.get v)
  if (accessRow s f (addrOff a)).isNone ∨ hi < lo then s else s |> wrF a AVS_LIMITS_VMAX_MV hi |> wrF a AVS_LIMITS_VMIN_MV lo

/-! ## Crossings (R39–R49) -/

/-- The acknowledge is seen at the sender (R44, R45). -/
def xingAck (d : Die) (n : Nat) (s : State) : State :=
  let st := XING_STATUS d n
  let x := s.xing d n
  if xingUp s d n = false ∨ s.flag (XING_CFG d n) XING_CFG_KIND = false ∨ s.flag st XING_STATUS_OUTSTANDING = false ∨ x.stopped then s
  else if x.count = 0 then
    s |> wrB st XING_STATUS_OUTSTANDING false |> wrB st XING_STATUS_STALLED false |> setXing d n { x with sent := 0 } |> applyMode d n
  else s |> sendEvent d n x.count |> applyMode d n

/-- The value of crossing 0xC4 is the device-time counter as it stands; it is taken at once (R38). -/
def takeTime (d : Die) (s : State) : State := setNow d (s.tbase d).counter s

/-- A held value is carried across and acknowledged (R39, R41). -/
def valueCrosses (d : Die) (n : Nat) (s : State) : State :=
  let st := XING_STATUS d n
  let x := s.xing d n
  if xingUp s d n = false ∨ s.flag (XING_CFG d n) XING_CFG_KIND ∨ x.stopped then s
  else if n = 0xC4 then takeTime d s
  else
    match x.queue with
    | [] => s |> wrB st XING_STATUS_OUTSTANDING false |> wrB st XING_STATUS_STALLED false
    | (a, v) :: rest =>
      s |> setXing d n { x with queue := rest } |> lands d a v |> wrB st XING_STATUS_OUTSTANDING (rest != []) |> wrB st XING_STATUS_STALLED false

/-- A write of XING_CFG.MODE (R45). -/
def modeWrite (f : Fun) (n : Nat) (v : Word) (s : State) : State :=
  let d := f.ep
  let a := XING_CFG d n
  if 0xFF < n ∨ (accessRow s f (addrOff a)).isNone ∨ xingPresent s.part d n = false ∨ s.flag a XING_CFG_KIND = false then s
  else if s.flag (XING_STATUS d n) XING_STATUS_OUTSTANDING then setXing d n { s.xing d n with nextMode := some (XING_CFG_MODE.get v) } s
  else wrF a XING_CFG_MODE (XING_CFG_MODE.get v) s

/-- Held data has not been taken for 256 REFCLK cycles (R46). -/
def xingStalls (d : Die) (n : Nat) (s : State) : State :=
  if xingUp s d n ∧ s.flag (XING_STATUS d n) XING_STATUS_OUTSTANDING then wrB (XING_STATUS d n) XING_STATUS_STALLED true s else s

/-- The crossing carries events toward its island: the genlock references of Table 5.8. Every other event crossing goes toward the
fabric. -/
def towardIsland (n : Nat) : Bool := decide (n < 0x20) && n % 8 == 5

/-- One side of a crossing enters reset (R47): what is in flight toward it is discarded and counted, an event not yet taken and a merged
count each as one item; what an island discards on its own side is counted when the sides resynchronise. An event that was delivered
and is not yet acknowledged was taken. The Garnet link's frame in flight goes with it (R199). -/
def peerReset (d : Die) (n : Nat) (s : State) : State :=
  if xingPresent s.part d n = false ∨ s.inReset.contains .fabric then s
  else
    let st := XING_STATUS d n
    let x := s.xing d n
    let ev := s.flag (XING_CFG d n) XING_CFG_KIND
    let k := b2n (ev && x.stopped && x.sent != 0) + b2n (x.count != 0) + x.queue.length
    let own := ev && !towardIsland n
    let s1 := s |> satF (XING_DROPPED d n) XING_DROPPED_DROPPED_ON_PEER_RESET (if own then 0 else k) |> wrB st XING_STATUS_PEER_RESET true
      |> wrB st XING_STATUS_OUTSTANDING false |> wrB st XING_STATUS_STALLED false
      |> setXing d n { x with count := 0, sent := 0, queue := [], ownDropped := x.ownDropped + (if own then k else 0) } |> applyMode d n
    if 0xC0 ≤ n ∧ n < 0xC4 then setGarnet d { s1.garnet d with inFrame := false } s1 else s1

/-- Both sides have aligned their pointers, the island being out of reset (R48); what the island discarded is reported (R47). -/
def resync (d : Die) (n : Nat) (s : State) : State :=
  if (upto 31).any (fun i => (islandXings i).contains n && islandOut s d i) then
    s |> wrB (XING_STATUS d n) XING_STATUS_PEER_RESET false |> satF (XING_DROPPED d n) XING_DROPPED_DROPPED_ON_PEER_RESET (s.xing d n).ownDropped
      |> setXing d n { s.xing d n with ownDropped := 0 }
  else s

/-! ## Meanings -/

def execPaceWindow (d : Die) (counts : List Nat) (s : State) : Host.Outcome State Fault Refusal := run (paceWindow d counts) s

def execFloorRaiseTimeout (d : Die) (s : State) : Host.Outcome State Fault Refusal := run (raiseTimeout d) s

def execAvsFrameDone (d : Die) (result : Nat) (alert : Bool) (s : State) : Host.Outcome State Fault Refusal := run (avsFrame d result alert) s

def execAvsReadback (d : Die) (result mv : Nat) (s : State) : Host.Outcome State Fault Refusal := run (avsRead d result mv) s

def execAvsFaultClear (f : Fun) (s : State) : Host.Outcome State Fault Refusal := run (avsClear f) s

def execPaceManualWrite (f : Fun) (v : Word) (s : State) : Host.Outcome State Fault Refusal := run (manualWrite f v) s

def execPaceLoopCtrlWrite (f : Fun) (v : Word) (s : State) : Host.Outcome State Fault Refusal := run (loopCtrlWrite f v) s

def execAvsLimitsWrite (f : Fun) (v : Word) (s : State) : Host.Outcome State Fault Refusal := run (limitsWrite f v) s

def execValueCrossing (d : Die) (n : Nat) (s : State) : Host.Outcome State Fault Refusal := run (valueCrosses d n) s

def execXingPulse (d : Die) (n : Nat) (s : State) : Host.Outcome State Fault Refusal := run (xingPulse d n) s

def execXingAck (d : Die) (n : Nat) (s : State) : Host.Outcome State Fault Refusal := run (xingAck d n) s

def execXingModeWrite (f : Fun) (n : Nat) (v : Word) (s : State) : Host.Outcome State Fault Refusal := run (modeWrite f n v) s

def execXingStallTimeout (d : Die) (n : Nat) (s : State) : Host.Outcome State Fault Refusal := run (xingStalls d n) s

def execIslandClockStop (d : Die) (island : Nat) (s : State) : Host.Outcome State Fault Refusal := run (haltXings d (islandXings island)) s

def execIslandClockResume (d : Die) (island : Nat) (s : State) : Host.Outcome State Fault Refusal := run (islandBack d island) s

def execXingPeerReset (d : Die) (n : Nat) (s : State) : Host.Outcome State Fault Refusal := run (peerReset d n) s

def execXingResync (d : Die) (n : Nat) (s : State) : Host.Outcome State Fault Refusal := run (resync d n) s

end Sys2Proof.Machine
end

