-- ==== Sys2Proof/Machine/Pins.lean ====
section
/-! DEFINITION. Assignable pins (R109, R110), the GPIO registers (R490), and the states of the pins (R486–R488). -/
namespace Sys2Proof.Machine

/-- Class and number of the pin that a PIN_ASSIGN names, and its index in PIN_ATTR. -/
def pinClass (d : Desc) : Nat := dget d 9 0 4
def pinNumber (d : Desc) : Nat := dget d 8 0 8
def pinIndex (d : Desc) : Nat := 256 * pinClass d + pinNumber d

/-- Pins of a class on a die (Table 21.1 and the unit chapters). -/
def pinCount (cls : Nat) : Nat := if cls = 0 then 16 else if cls = 1 then 8 else if cls = 2 then 96 else if cls = 3 then 4 else 0

/-- The units that a pin belongs to: GPIO pins to none. -/
def pinUnits (e : Die) (d : Desc) : List Nat :=
  if pinClass d = 1 then [unitKey e (bitHaptic 0)] else if pinClass d = 2 then [unitKey e bitTouch] else if pinClass d = 3 then [unitKey e bitAudio] else []

/-- A live route uses the pin. -/
def pinRouted (s : State) (e : Die) (d : Desc) : Bool :=
  let n := pinNumber d
  if pinClass d = 1 then (routesOf s 6).any (fun x => epUnit x.2.source == e.idx && epSub x.2.source == n)
  else if pinClass d = 2 then
    (routesOf s 4).any (fun x =>
      epUnit x.2.source == e.idx &&
        (match tfind (epSub x.2.source) (s.touch e).regions with
         | some g => dget g 9 0 8 == 1 && (sChannels (s.sensor e (dget g 10 0 8)).setup).contains n
         | none => false))
  else if pinClass d = 3 then
    e == .a && (routesOf s 3).any (fun x => (epType x.2.source == 0x21 && epUnit x.2.source == n) || (epType x.2.sink == 0x25 && epUnit x.2.sink == n))
  else false

/-- World and owner that a PIN_ASSIGN gives, and whether the pin is assigned afterwards: PF1 returns a pin with WORLD 0. -/
def pinGiven (q : RingId) (d : Desc) : Nat × Nat × Bool :=
  if q.fn.fn = 63 ∧ dget d 10 0 1 = 0 then (0, 0, false) else (dget d 10 0 1, dget d 11 0 6, true)

/-- The cases in which PIN_ASSIGN fails (R109). -/
def pinBad (q : RingId) (d : Desc) (s : State) : Option (Nat × Nat) :=
  let e := q.fn.ep
  let a := PIN_ATTR e (pinIndex d)
  let w := dget d 10 0 1
  let o := dget d 11 0 6
  firstFail [bad (q.fn.fn != 0 && q.fn.fn != 63) 0x08 0, bad (decide (pinCount (pinClass d) ≤ pinNumber d)) 0x08 8, bad (decide (32 ≤ o ∧ o ≠ 63)) 0x08 11,
    bad (q.fn.fn == 0 && w == 1) 0x08 10, bad (q.fn.fn == 0 && pinSecure s e (pinIndex d)) 0x08 8,
    bad (q.fn.fn == 63 && s.flag a PIN_ATTR_ASSIGNED && !pinSecure s e (pinIndex d) && decide (1 ≤ s.rdF a PIN_ATTR_OWNER ∧ s.rdF a PIN_ATTR_OWNER ≤ 31)) 0x08 8,
    bad (q.fn.fn == 63 && w == 1 && o != 63) 0x08 11, bad (s.flag a PIN_ATTR_FIXED) 0x08 8, bad (pinRouted s e d) 0x08 8]

/-- A bit of a field of a register. -/
def putBit (a : Nat) (f : Fld) (i : Nat) (v : Bool) (s : State) : State := wrF a f (setBit (s.rdF a f) i v) s

/-- A pin returns to its inactive state (R110): a GPIO to an input with its pull-down, a touch channel loses its counts, a TDM port
stops. -/
def pinInactive (e : Die) (d : Desc) (s : State) : State :=
  let n := pinNumber d
  if pinClass d = 0 then
    s |> putBit (GPIO_DIR e) GPIO_DIR_OE n false |> putBit (GPIO_OUT e) GPIO_OUT_LEVEL n false |> putBit (GPIO_PULL e) GPIO_PULL_UP n false
      |> putBit (GPIO_PULL e) GPIO_PULL_DOWN n true |> putBit (GPIO_DRIVE e) GPIO_DRIVE_STRENGTH (2 * n) true
      |> putBit (GPIO_DRIVE e) GPIO_DRIVE_STRENGTH (2 * n + 1) false
  else if pinClass d = 1 then putBit (HTRIG_STATUS e) HTRIG_STATUS_LEVEL n false s
  else if pinClass d = 2 then
    s |> setTouch e { s.touch e with meas := tkeep (fun m => m != n) (s.touch e).meas }
      |> wrF (TOUCH_RAW e n) TOUCH_RAW_COUNT 0 |> wrF (TOUCH_BASE e n) TOUCH_BASE_BASE 0
  else stopPort n s

def opPinAssign : OpSpec :=
  mkOp 0x23 false ([(9, 4, 4), (10, 1, 7), (11, 6, 2)] ++ rsv 12 64) (fun q d _ => pinUnits q.fn.ep d) pinBad notEmpty
   (fun t d s =>
    let e := t.die
    let a := PIN_ATTR e (pinIndex d)
    let (w, o, on) := pinGiven t.ring d
    let s1 := if s.rdF a PIN_ATTR_OWNER = o then s else pinInactive e d s
    (some (stOk, 0), s1 |> wrB a PIN_ATTR_ASSIGNED on |> wrF a PIN_ATTR_WORLD w |> wrF a PIN_ATTR_OWNER o))

/-! ## GPIO registers -/

/-- Bits of a GPIO register that H does not reach: those of pins in world S, and the STRENGTH bits or pull bits of them. -/
def gpioHidden (s : State) (e : Die) (off : Nat) : Nat :=
  let pins := (upto 16).filter (pinSecure s e)
  if off = 0x102010 then (pins.map (fun k => 3 * 4 ^ k)).sum
  else if off = 0x10200C then (pins.map (fun k => 2 ^ k + 2 ^ (16 + k))).sum
  else (pins.map (fun k => 2 ^ k)).sum

/-- GPIO_IN (R490): a pin that the device drives reads its level; what another pin reads is the board's. -/
def gpioIn (s : State) (e : Die) : Nat :=
  ((upto 16).map (fun k => if nbit (if nbit (s.rdF (GPIO_DIR e) GPIO_DIR_OE) k then s.rdF (GPIO_OUT e) GPIO_OUT_LEVEL else s.freeNat 0) k then 2 ^ k else 0)).sum

/-! ## Pin states (Table 21.8) -/

/-- Pins of a die, by the rows of Table 21.8; `clock`: BCLK and FS, else SDOUT. -/
inductive Pin where
  | pcie | de (p : Nat) (aux : Bool) | ld (p : Nat) | csi (n : Nat) | memCa | memCs | dramReset | memDq | xspi
  | tdm (p : Nat) (clock : Bool) | hap (c : Nat) | gpio (k : Nat) | htrig (k : Nat) | tch (k : Nat)
  | life | failover | safeFault | wdogOut | thermtrip | pwrenAon | pwrenMain | pwrenFt
deriving DecidableEq, Repr

/-- What a pin does: no connection inside (R486), high impedance, a level, electrical idle, an input with a pull, a termination on or off,
VSS through 1 kΩ, or what its unit or its standard gives it. -/
inductive PinState where
  | unconnected | highZ | low | high | idle | pullUp | pullDown | terminated | unterminated | held | active
deriving DecidableEq, Repr

def drive (level : Bool) : PinState := if level then .high else .low

/-- The unit of the pin is on the variant (R1, R486). -/
def pinPresent (s : State) (d : Die) : Pin → Bool
  | .csi n => unitPresent s.part d (bitCamera n)
  | .tdm _ _ => unitPresent s.part d bitAudio
  | .hap c => unitPresent s.part d (bitHaptic c)
  | .tch _ => unitPresent s.part d bitTouch
  | _ => true

/-- The pin with its bank powered. -/
def poweredPin (s : State) (d : Die) (p : Pin) : PinState :=
  let r (x : Domain) : Bool := s.inReset.contains x
  let idleUnless (used : Bool) (off : PinState) : PinState := if used then .active else off
  match p with
  | .pcie => idleUnless (!r .pcie) .idle
  | .de q aux => if r .heads then (if aux then .highZ else .idle) else idleUnless (portHeads s d q != []) .idle
  | .ld q => idleUnless (!r .heads && portHeads s d (2 + q) != []) .highZ
  | .csi n => if !r .camera && s.flag (CAM_PORT_CFG d n) CAM_PORT_CFG_EN then .terminated else .unterminated
  | .memCa => idleUnless (!r .memory) .low
  | .memCs => idleUnless (!r .memory && !s.flag (DRAM_STATUS d) DRAM_STATUS_SELF_REFRESH) .low
  | .dramReset => drive (!r .memory)
  | .memDq => idleUnless (!r .memory) .highZ
  | .xspi => idleUnless (!r .supervisor) .highZ
  | .tdm q clock => if !r .audio && s.flag (AUDIO_TDM_CFG d q) AUDIO_TDM_CFG_EN then
      idleUnless (!clock || s.flag (AUDIO_TDM_CFG d q) AUDIO_TDM_CFG_MASTER) .highZ else .low
  | .hap c => idleUnless (!r .haptic && powerState s d == 0 && s.flag (HAP_CFG d c) HAP_CFG_EN) .low
  | .gpio k =>
    if r .fabric then .pullDown
    else if nbit (s.rdF (GPIO_DIR d) GPIO_DIR_OE) k then drive (nbit (s.rdF (GPIO_OUT d) GPIO_OUT_LEVEL) k)
    else match nbit (s.rdF (GPIO_PULL d) GPIO_PULL_UP) k, nbit (s.rdF (GPIO_PULL d) GPIO_PULL_DOWN) k with
      | true, false => .pullUp
      | false, true => .pullDown
      | _, _ => .highZ
  | .htrig _ => .pullDown
  | .tch k => idleUnless (!r .touch && (s.touch d).sensors.any (fun x => (sChannels x.2.setup).contains k)) .held
  | .life => if r .supervisor then .low else drive (s.boot d).life
  | .failover => if !r .supervisor && (s.boot d).failover then .high else .highZ
  | .safeFault => if r .supervisor then .highZ else drive (!s.flag (GARNET_FAULT d) GARNET_FAULT_ASSERTED)
  | .wdogOut => if !r .supervisor && s.flag (WDOG_STATUS d) WDOG_STATUS_EXPIRED then .low else .highZ
  | .thermtrip => if (s.boot d).tripped then .low else .highZ
  | .pwrenAon => drive (s.boot d).pwrenAon
  | .pwrenMain => drive (s.boot d).pwrenMain
  | .pwrenFt => drive (!r .alwaysOn && powerState s d != 4 && s.flag (POWER_STATUS d) POWER_STATUS_FT_RAIL_ON)

/-- The state of a pin; whether its bank is powered is the board's. -/
def pinState (s : State) (d : Die) (powered : Bool) (p : Pin) : PinState :=
  if pinPresent s d p = false then .unconnected
  else if powered then poweredPin s d p
  else match p with
    | .pwrenAon | .pwrenMain | .pwrenFt => .low
    | _ => .highZ

/-! ## Meanings -/

def execPinAssign (q : RingId) (desc : Desc) (s : State) : Host.Outcome State Fault Refusal := run (submit opPinAssign q desc) s

end Sys2Proof.Machine
end

