-- ==== Sys2Proof/Machine/Reset.lean ====
section
/-! DEFINITION. Chip resets, the release order, boot, the watchdog, block resets and ONYX (chapter 17; 16.5). -/
namespace Sys2Proof.Machine

/-! ## Chip resets (R422–R425) -/

/-- The domain of the register at an address. -/
def domainOf (a : Nat) : Option Domain := (findRow (addrOff a)).map (fun r => r.dom)

/-- The registers of some domains alone: the others return to their reset values. -/
def keepRegs (keep : List Domain) (regs : Tab Word) : Tab Word := tkeep (fun a => (domainOf a).any keep.contains) regs

/-- Every unit returns to its reset state. What the hosts, the board, the record memory and the model's own counters hold stays. -/
def allUnits (keep : List Domain) (s : State) : State :=
  { State.initial s.part with
      pending := s.pending, mem := s.mem, free := s.free, out := s.out, nextTag := s.nextTag, readData := s.readData,
      poison := s.poison, porLow := s.porLow, resetnHigh := s.resetnHigh, rinlar := s.rinlar, regs := keepRegs keep s.regs }

/-- Local memory loses its contents (R410; for POR notes/assumptions/21.md). -/
def loseLocal (s : State) : State := emit .localLost { s with poison := [] }

/-- The record controller without power: slots written stay, the slot being written is lost (R472). -/
def rinlarOff (r : Rinlar) : Rinlar :=
  { Rinlar.empty with retired := r.retired,
                      slots := match r.writing with
                        | some (_, k, _) => tkeep (fun j => j != k) r.slots
                        | none => r.slots }

/-- The always-on domain enters reset, and with it every other: only what VSTBY supplies stays. -/
def powerLost (onyx : Bool) (s : State) : State :=
  let t := allUnits [.vstby] s
  loseLocal { t with
    porLow := true,
    rinlar := s.rinlar.map (fun r => (r.1, rinlarOff r.2)),
    powers := bothDies.map (fun d => (d.idx, { Power.empty with wakeLow := (s.power d).wakeLow, onyx := onyx })),
    boots := bothDies.map (fun d => (d.idx, { Boot.empty with pwrenAon := !onyx })) }

/-- POR (R422, R425): its release lets step 1 follow. In ONYX the always-on domain has no power. -/
def porEdge (asserted : Bool) (s : State) : State :=
  if (s.power .a).onyx then s else if asserted then powerLost false s else { s with porLow := false }

/-- The always-on domain is out of reset (step 1). -/
def alwaysOnUp (s : State) : Bool := !s.inReset.contains .alwaysOn

/-- A snapshot that a reset leaves to run on belongs to no descriptor any more; what waits behind it stays due (R425). -/
def rinlarKeeps (now : Nat) (r : Rinlar) : Rinlar :=
  { r with queue := r.queue.map (fun x => (x.1, none)), writing := r.writing.map (fun w => (w.1, w.2.1, none)),
           requestFrom := r.requestFrom - now, powerFailFrom := r.powerFailFrom - now }

/-- RESETn goes low: every domain but the always-on one enters reset; the device is in FULL afterwards (R412, R422, R425). -/
def resetnFalls (s : State) : State :=
  if s.resetnHigh = false then s
  else if alwaysOnUp s = false then { s with resetnHigh := false }
  else
    -- SAFE_FAULT_n becomes asserted with the cause INIT (R212)
    let s0 := bothDies.foldl (fun t d => if t.flag (GARNET_FAULT d) GARNET_FAULT_ASSERTED then t else rinlarCount d 37 1 t) s
    let t := allUnits [.vstby, .alwaysOn] s0
    let u : State := { t with
      resetnHigh := false,
      inReset := releaseOrder.filter (fun d => d != .alwaysOn),
      rinlar := s0.rinlar.map (fun r => (r.1, rinlarKeeps (s0.now (if r.1 = 0 then .a else .b)) r.2)),
      powers := bothDies.map (fun d => (d.idx, { Power.empty with wakeLow := (s.power d).wakeLow })),
      boots := bothDies.map (fun d => (d.idx, { Boot.empty with tripped := (s.boot d).tripped, pwrenMain := (s.boot d).pwrenMain })) }
    refreshFtRail (bothDies.foldl (fun t d => t
      |> wrB (RESET_CAUSE d) RESET_CAUSE_LAST true |> wrB (RESET_CAUSE d) RESET_CAUSE_WDOG_SEEN (s.flag (WDOG_STATUS d) WDOG_STATUS_EXPIRED) |> satF (RESET_CAUSE d) RESET_CAUSE_RESETN_COUNT 1
      |> wrF (SEQ_STATUS d) SEQ_STATUS_STEP 1 |> wrB (SEQ_STATUS d) SEQ_STATUS_DONE false
      |> setPowerState d 0 |> wrB (POWER_STATUS d) POWER_STATUS_HELD false |> rinlarCount d 1 1) u)

/-! ## The release order (R423, R426, R428, R468) -/

/-- Last step released. -/
def lastStep_ (s : State) : Nat := s.rdF (SEQ_STATUS .a) SEQ_STATUS_STEP

/-- Straps are latched (R428). -/
def latchStraps (s : State) : State :=
  let p := s.part.strapPins % 32
  let err := p % 4 != 1 || nbit p 4
  bothDies.foldl (fun t d => t |> wr (STRAPS d) (BitVec.ofNat 32 (p + b2n err * 2 ^ 31)) |> wrB (GLOBAL_DIE d) GLOBAL_DIE_SENIOR (nbit p d.idx)) s

/-- The record controller of a die loads its counters from the newest valid slot, and detects an unannounced loss (R468, R471). -/
def loadRinlar (d : Die) (s : State) : State :=
  let r := s.rin d
  let s1 := match newestSlot r with
    | none => setRin d { r with live := [] } s
    | some x =>
      let loss := imageCause x.2 != 1 && imageCause x.2 != 2
      let t := setRin d { r with live := x.2, lossDue := loss } s
      if loss then rinlarCount d 4 1 t else t
  s1 |> refreshNewest d |> rinlarCount d 0 1 |> (if (s.boot d).onyxExit then rinlarCount d 2 1 else id)

/-- The islands that are due once a step has released their domain: those whose units run from the start (R426). -/
def stepIslands (s : State) (d : Die) : Domain → List Nat
  | .supervisor => [29]
  | .fabric => [30]
  | .memory => (upto 8).map (fun i => 4 + i)
  | .ebrum => (upto 4).map (fun i => 25 + i)
  | .pcie => [12]
  | .camera => ((upto 4).filter (fun n => unitPresent s.part d (bitCamera n))).map (fun n => 13 + n)
  | .audio => if unitPresent s.part d bitAudio then [17] else []
  | .touch => [19, 20]
  | _ => []

/-- Crossings show PEER_RESET until their islands are released (R426). -/
def xingsHeld (d : Die) (s : State) : State :=
  ((upto 256).filter (xingPresent s.part d)).foldl (fun t n => wrB (XING_STATUS d n) XING_STATUS_PEER_RESET true t) s

/-- The boot ROM starts; with a strap error neither leaves it (R428, R429). -/
def romStarts (d : Die) (s : State) : State :=
  if s.flag (STRAPS d) STRAPS_STRAP_ERR then s |> wrF (BOOT_STATUS d) BOOT_STATUS_STAGE 15 |> wrF (BOOT_STATUS d) BOOT_STATUS_ERROR 7 else s

/-- What a die does when a domain is released. -/
def stepOn (d : Die) (dom : Domain) (s : State) : State :=
  let s1 := match dom with
    | .alwaysOn => s |> loadRinlar d |> setBoot d { s.boot d with pwrenMain := true, onyxExit := false }
    | .supervisor => romStarts d s
    | .fabric => xingsHeld d s
    | _ => s
  (stepIslands s1 d dom).foldl (fun t i => dueIsland d i t) s1

/-- A step's gap ends: the next domain is released on both dies. -/
def releaseNext (s : State) : State :=
  let n := lastStep_ s
  match releaseOrder[n]? with
  | none => s
  | some dom =>
    if s.porLow ∨ (n ≠ 0 ∧ s.resetnHigh = false) then s
    else
      let s1 := { s with inReset := s.inReset.filter (fun x => x != dom) }
      let s2 := if n = 0 then latchStraps s1 else s1
      let s3 := bothDies.foldl (fun t d => t |> wrF (SEQ_STATUS d) SEQ_STATUS_STEP (n + 1) |> wrB (SEQ_STATUS d) SEQ_STATUS_DONE (n == 14)) s2
      bothDies.foldl (fun t d => stepOn d dom t) s3

/-! ## Islands (R426, R427, R438) -/

/-- The CLAIM_STATUS bit of the unit that an island belongs to. -/
def islandUnit (i : Nat) : Option Nat :=
  if i < 4 then some i else if 13 ≤ i ∧ i < 17 then some (bitCamera (i - 13)) else if i = 17 then some bitAudio
  else if 18 ≤ i ∧ i < 21 then some bitTouch else if 21 ≤ i ∧ i < 25 then some (bitHaptic (i - 21)) else none

/-- The islands of a unit. -/
def unitIslands (bit : Nat) : List Nat := (upto 31).filter (fun i => islandUnit i == some bit)

/-- A bit of a block register. -/
def setBlock (a bit : Nat) (on : Bool) (s : State) : State := wr a (BitVec.ofNat 32 (setBit (s.rd a).toNat bit on)) s

/-- An island is out of reset. -/
def islandUp (d : Die) (i : Nat) (s : State) : State :=
  let b := s.boot d
  s |> setBoot d { b with due := b.due.filter (fun j => j != i), islandsOut := if b.islandsOut.contains i then b.islandsOut else b.islandsOut ++ [i] }
    |> (if i = 17 then wrB (AUDIO_STATUS d) AUDIO_STATUS_PLL_LOCKED true else id)

/-- An island that was due is released; a block release that was held for it with it (R438). -/
def islandRelease (d : Die) (i : Nat) (s : State) : State :=
  if (s.boot d).due.contains i = false then s
  else
    let s1 := islandUp d i s
    match islandUnit i with
    | some b => if (unitIslands b).all (fun j => !(s1.boot d).due.contains j) then setBlock (BLOCK_PENDING d) b false s1 else s1
    | none => s1

/-- The bit of BLOCK_CLK_FAIL of an island (R427). -/
def clkFailBit (i : Nat) : Option Nat :=
  match islandUnit i with
  | some b => some b
  | none => if i < 12 then some 28 else if i = 12 then some 29 else if 25 ≤ i ∧ i < 29 then some 30 else if i = 30 then some 31 else none

/-- An island has not locked 1 ms after it was due: it stays in reset (R427). -/
def islandFails (d : Die) (i : Nat) (s : State) : State :=
  if (s.boot d).due.contains i = false then s
  else
    let s1 := setBoot d { s.boot d with due := (s.boot d).due.filter (fun j => j != i) } s
    match clkFailBit i with
    | some b => setBlock (BLOCK_CLK_FAIL d) b true s1
    | none => s1

/-! ## Boot (R429–R433) -/

/-- A field of the flash header. -/
def headerAt (o : BootObs) (off n : Nat) : Nat := ofLe ((o.header.drop off).take n)

/-- The flash header is good (R429). -/
def headerOk (o : BootObs) : Bool :=
  o.header.length == 32 && headerAt o 0 4 == 0x51584254 && headerAt o 4 2 == 1 && decide (headerAt o 6 1 ≤ 1) && decide (headerAt o 7 1 ≤ 3)
    && headerAt o 8 4 % 4096 == 0 && headerAt o 24 4 == crc32c (o.header.take 24) && headerAt o 28 4 == 0

/-- The slots that there are: no slot 1 where its offset in the header is 0 (R429). Die B takes the image that die A sends. -/
def bootSlots {α : Type} (own : Bool) (o : BootObs) (off : Nat) (l : List α) : List α := l.take (if own && headerAt o off 4 != 0 then 2 else 1)

/-- A firmware image of more than 8 MiB is none (R430). -/
def fwImage (x : BootSlot) : BootSlot := { x with signed := x.signed && decide (x.size ≤ 2 ^ 23) }

/-- The first slot that is accepted, with its number; else the error of the last slot: 0 signature, 1 version. -/
def pickSlot {α : Type} (slot : α → BootSlot) (least : Nat) : Nat → List α → Except Nat (Nat × α)
  | _, [] => .error 0
  | i, x :: t =>
    if (slot x).signed ∧ least ≤ (slot x).version then .ok (i, x)
    else
      match t with
      | [] => .error (b2n (slot x).signed)
      | _ => pickSlot slot least (i + 1) t

/-- The die stops in its ROM (R431). -/
def bootFails (d : Die) (err : Nat) (s : State) : State :=
  s |> wrF (BOOT_STATUS d) BOOT_STATUS_STAGE 15 |> wrF (BOOT_STATUS d) BOOT_STATUS_ERROR err

/-- Registers that the configuration fills (R108, R290, R293, R309, R435). -/
def loadConfig (d : Die) (c : BootConfig) (s : State) : State :=
  let s1 := s |> wrF (DRAM_CFG d) DRAM_CFG_CH_CAP c.chCap |> wrB (DRAM_CFG d) DRAM_CFG_RANKS2 c.ranks2
    |> wrF (CAP_COMPUTE d) CAP_COMPUTE_LOCAL_GIB (4 * 2 ^ (c.chCap % 4))
  let s2 := (upto 3).foldl (fun t i => wrF (DRAM_FSP d i) DRAM_FSP_RATE_MTS (c.rates.getD i 0) t) s1
  let s3 := (upto 8).foldl (fun t i => t |> wrF (DRAM_ECC_REGION_BASE d i) DRAM_ECC_REGION_BASE_BASE_2M (c.regions.getD i (0, 0)).1
    |> wrF (DRAM_ECC_REGION_SIZE d i) DRAM_ECC_REGION_SIZE_SIZE_2M (c.regions.getD i (0, 0)).2) s2
  let s4 := (upto 4).foldl (fun t i => t |> wrB (PF1_REQID d i) PF1_REQID_VALID (decide (i < c.reqids.length))
    |> wrF (PF1_REQID d i) PF1_REQID_RID (c.reqids.getD i 0)) s3
  let s5 := if 100 ≤ c.watchdogMs ∧ c.watchdogMs ≤ 10000 then wrF (WDOG_STATUS d) WDOG_STATUS_TIMEOUT_MS c.watchdogMs s4 else s4
  s5 |> wrF (PF1_ACCESS d) PF1_ACCESS_IDE_STREAM c.ideStream |> wrB (PF1_ACCESS d) PF1_ACCESS_IDE_REQUIRED c.ideRequired
     |> wrB (PF1_ACCESS d) PF1_ACCESS_LOADED true

/-- The boot ROM of a die reads its images; accepted firmware runs and training begins. Die B boots from what die A sends, or, split at
boot, from its own flash. -/
def boots (d : Die) (o : BootObs) (s : State) : State :=
  let st := BOOT_STATUS d
  let own := d == .a || s.flag st BOOT_STATUS_SPLIT_BOOT
  if s.inReset.contains .supervisor ∨ (s.boot d).running ∨ s.rdF st BOOT_STATUS_STAGE = 15 ∨ (own = false ∧ (s.boot .a).running = false) then s
  else if own ∧ o.flashOk = false then bootFails d 6 s
  else if own ∧ headerOk o = false then bootFails d 1 s
  else
    match pickSlot fwImage s.part.fwMin 0 (bootSlots own o 12 o.firmware) with
    | .error e => bootFails d (2 + e) s
    | .ok (i, fw) =>
      match pickSlot Prod.fst s.part.cfgMin 0 (bootSlots own o 20 o.config) with
      | .error e => bootFails d (4 + e) s
      | .ok (j, cfg) =>
        s |> wrF st BOOT_STATUS_FW_SLOT i |> wrF st BOOT_STATUS_CFG_SLOT j |> wrF st BOOT_STATUS_STAGE 5
          |> setBoot d { s.boot d with running := true, fwVersion := fw.version, cfgVersion := cfg.1.version, config := some cfg.2 }
          |> loadConfig d cfg.2

/-- The link has not come up 200 ms after step 3 (R432). -/
def peerLate (s : State) : State :=
  let st := BOOT_STATUS .b
  if s.inReset.contains .supervisor ∨ (s.boot .b).running ∨ s.rdF st BOOT_STATUS_STAGE = 15 ∨ s.split then s
  else if s.flag (STRAPS .b) STRAPS_FLASH_B then
    (epFuns .b).foldl (fun t f => wrB (FUNC_STATUS f) FUNC_STATUS_PEER_LOST true t)
      ({ s with split := true } |> wrB st BOOT_STATUS_SPLIT_BOOT true |> wrF (EBRUM_STATUS .b) EBRUM_STATUS_STATE 2 |> wrF (EBRUM_STATUS .b) EBRUM_STATUS_CAUSE 0)
  else wrF st BOOT_STATUS_STAGE 4 s

/-- Initial training has ended; `failed`: channels that failed, as a mask (R307, R433). -/
def trained (d : Die) (failed : Nat) (s : State) : State :=
  let st := BOOT_STATUS d
  if (s.boot d).running = false ∨ s.rdF st BOOT_STATUS_STAGE ≠ 5 then s
  else if failed % 256 ≠ 0 then s |> wrF (DRAM_STATUS d) DRAM_STATUS_INIT_FAIL failed |> bootFails d 8
  else
    let r := s.rin d
    let slot := match newestSlot r with
      | some x => x.1
      | none => 0xFF
    s |> wrB (DRAM_STATUS d) DRAM_STATUS_READY true |> setDram d { s.dram d with phy := (upto 96).map (fun i => (i, s.freeNat i)) } |> useFree 96
      |> wrB st BOOT_STATUS_READY true |> wrF st BOOT_STATUS_STAGE 6 |> refreshFailover d
      |> (if r.lossDue then fun t => t |> setRin d { t.rin d with lossDue := false } |> postRinlar d 2 slot else id)
      |> (fun t => if t.flag (RINLAR_STATUS d) RINLAR_STATUS_DEGRADED then postRinlar d 1 0xFF t else t)

/-! ## PCIe, watchdog, pins (R434, R435, R487, R492) -/

def hotReset (d : Die) (lost : Bool) (s : State) : State :=
  if s.inReset.contains .pcie then s
  else s |> funcReset (pf0 d) |> funcReset (pf1 d) |> (if lost then rinlarCount d 63 1 else id)

/-- The watchdog fires, unless it has. -/
def wdogFires (d : Die) (s : State) : State :=
  if s.flag (WDOG_STATUS d) WDOG_STATUS_EXPIRED then s
  else s |> wrB (WDOG_STATUS d) WDOG_STATUS_EXPIRED true |> satF (WDOG_COUNT d) WDOG_COUNT_COUNT 1 |> rinlarCount d 5 1

def wdogExpires (d : Die) (s : State) : State := if s.inReset.contains .supervisor then s else s |> wdogFires d |> refreshFailover d

/-- The lockstep compare fails: the pair halts and the watchdog fires. -/
def lockstepFails (d : Die) (s : State) : State :=
  if s.inReset.contains .supervisor then s
  else
    let s1 := if s.flag (WDOG_STATUS d) WDOG_STATUS_EXPIRED then s else wrB (WDOG_STATUS d) WDOG_STATUS_LOCKSTEP true s
    s1 |> setBoot d { s.boot d with halted := true } |> wdogFires d |> refreshFailover d

def trips (d : Die) (s : State) : State := if alwaysOnUp s then setBoot d { s.boot d with tripped := true } s else s

def lifeToggles (d : Die) (s : State) : State := if supRuns s d then setBoot d { s.boot d with life := !(s.boot d).life } s else s

/-- VSTBY rises: the wake logic and WAKE_CAUSE are reset (R423). -/
def vstbyRises (s : State) : State :=
  bothDies.foldl (fun t d => t |> wr (WAKE_CAUSE d) 0 |> setPower d { t.power d with wakes := [], wakeLow := 0 }) s

/-! ## Block resets (R436–R439) -/

/-- Registers of a block return to their reset values: offsets from lo to hi − 1, but for some. -/
def dropRegs (d : Die) (lo hi : Nat) (but : List Nat) (s : State) : State :=
  let out (a : Nat) : Bool := decide (addrDie a ≠ d ∨ addrOff a < lo ∨ hi ≤ addrOff a) || but.contains (addrOff a)
  { s with regs := tkeep out s.regs, island := tkeep out s.island }

/-- Tickets end with ABORTED_RESET. -/
def abortAll (ts : List Ticket) (s : State) : State := ts.foldl (fun t k => finish k stAbortedReset 0 t) s

/-- A head: its timing, FIFO and port; its frame count (R134), its Garnet scan, routes and pending commits stay. -/
def headReset (d : Die) (n : Nat) (s : State) : State :=
  let h := 4 * d.idx + n
  let p := s.rdF (HEAD_CFG d n) HEAD_CFG_PORT
  let used := headOn s h && portHeads s d p == [n] && !s.flag (GSCAN_STATUS d n) GSCAN_STATUS_ACTIVE
  let b := 0x800000 + 0x10000 * n
  let s1 := if headOn s h then stopHead h s else s
  let s2 := dropRegs d b (b + 0x10000) [b + 0x34, b + 0x38] s1
  let s3 := if used then
      let x := s2.port (portKey d p)
      s2 |> setPort (portKey d p) Port.empty |> abortAll ((x.aux ++ x.dsi).map (fun q => q.1)) |> dropRegs d (0x840000 + 0x10000 * p) (0x850000 + 0x10000 * p) []
    else s2
  refreshFloor d s3

/-- The composer: passes are abandoned, and colour set-up is gone. -/
def composerReset (d : Die) (s : State) : State :=
  let s1 := (diesHeads d).foldl (fun t h =>
    let x := t.head h
    let u := match x.pendColour with
      | some (k, _, _) => finish k stAbortedReset 0 t
      | none => t
    u |> setHead h { u.head h with pass := none, writing := none, colour := none, pendColour := none, recompose := (x.recompose || x.pass.isSome) }
      |> wrB (HEAD_STATUS d (headNo h)) HEAD_STATUS_COMPOSING false) s
  let s2 := s1 |> dropRegs d 0xC00000 0xC10000 [] |> refreshRates d
  (diesHeads d).foldl (fun t h => (upto 16).foldl (fun u l => refreshLayer h l u) t) s2

/-- A camera port: buffers that wait or are being filled end. -/
def cameraReset (d : Die) (n : Nat) (s : State) : State :=
  let p := 4 * d.idx + n
  let s1 := ltEnd d (5 + n) 2 s
  let s2 := if s1.flag (CAM_PORT_CFG d n) CAM_PORT_CFG_EN then stopCam p 1 s1 else s1
  let caps := (routesOf s2 2).filter (fun x => camForm x.2 == some .c && epType x.2.source == 0x10 && epUnit x.2.source == p)
  let ts := caps.flatMap (fun x => ((s2.capture x.1).filling.toList ++ (s2.capture x.1).posted).map (fun b => b.1))
  let s3 := caps.foldl (fun t x => setCapture x.1 Capture.empty t) s2
  let s4 := (upto 4).foldl (fun t v => { t with streams := tkeep (fun k => k != 4 * p + v) t.streams }) s3
  s4 |> dropRegs d (CAM_PORT_CFG d n % 0x4000000) (CAM_PORT_CLR d n % 0x4000000 + 4) []
     |> dropRegs d (STREAM_STATUS d n 0 % 0x4000000) (STREAM_STATUS d n 0 % 0x4000000 + 0x400) []
     |> abortAll ts |> refreshFloor d |> refreshCamera d

/-- The warp engine: meshes and memory frames go. -/
def warpReset (d : Die) (s : State) : State :=
  let x := s.warp d
  let ts := (x.pendMesh.toList.map (fun m => m.1)) ++ x.pendFrames.map (fun f => f.2.1) ++ x.frames.map (fun f => f.2.1)
  let caps := (routesOf s 2).filter (fun r => camForm r.2 == some .c && epType r.2.source == 0x13 && camRouteDie r.2 == d)
  let cs := caps.flatMap (fun r => ((s.capture r.1).filling.toList ++ (s.capture r.1).posted).map (fun b => b.1))
  let s1 := caps.foldl (fun t r => setCapture r.1 Capture.empty t) (setWarp d Warp.empty s)
  let s2 := s1 |> dropRegs d 0x1408000 0x1409000 [] |> refreshRates d |> refreshCamera d
  (ts ++ cs).foldl (fun t k => finishAny k stAbortedReset 0 t) s2

/-- The audio engine: buffers end, and buses, gains and ports are no longer set up; routes stay. -/
def audioReset (s : State) : State :=
  let before := injections s != []
  let s1 := (audioRoutes s).foldl (fun t x => audioSilence x.1 (some stAbortedReset) t) s
  let s2 := dropRegs .a 0x2800000 0x2810000 [] { s1 with audio := { (State.initial s1.part).audio with routes := s1.audio.routes } }
  s2 |> refreshInject before |> gateIdle .a bitAudio

/-- A haptic channel: effects and arms are gone, waveform memory stays. -/
def hapticReset (d : Die) (n : Nat) (s : State) : State :=
  let c := 4 * d.idx + n
  let x := s.hap c
  let play (st : Option HapStart) : List Ticket := (st.bind (fun y => y.play)).toList.map (fun p => p.1)
  let ts := play (x.run.map (fun r => r.start)) ++ play x.queued ++ x.plays.map (fun p => p.1) ++ x.ticket.toList ++ x.stopping.toList
  s |> setHap c { HapChan.empty with ram := x.ram } |> dropLeave d 5 n
    |> dropRegs d (HAP_CFG d n % 0x4000000) (HAP_CFG d n % 0x4000000 + 0x40) [] |> gateIdle d (bitHaptic n)
    |> abortAll ts

/-- The touch unit and the touchscreen ports of its die. -/
def touchReset (d : Die) (s : State) : State :=
  let s1 := if (s.touch d).enabled then touchOff d s else s
  let ts := (s1.touch d).test.toList.map (fun t => t.1)
  s1 |> setTouch d Touch.empty |> dropRegs d 0x3000000 0x3010000 [] |> abortAll ts

/-- A CRC engine: its work ends. -/
def crcReset (d : Die) (e : Nat) (s : State) : State :=
  let js := (s.check d).jobs.filter (fun j => usesCrc j && j.engine % 4 == e)
  js.foldl (fun t j => endJob_ d j stAbortedReset 0 t) (dropRegs d (CRC_ENGINE_STATUS d e % 0x4000000) (CRC_ENGINE_STATUS d e % 0x4000000 + 0x10) [] s) |> refreshChecks d

/-- A shader cluster: the job that it runs ends. -/
def clusterReset (d : Die) (c : Nat) (s : State) : State :=
  let js := (s.gpu d).jobs.filter (fun j => j.clusters.contains c)
  js.foldl (fun t j => failJob d j stAbortedReset 0 t) s |> dropRegs d (GPU_CLUSTER d c % 0x4000000) (GPU_CLUSTER d c % 0x4000000 + 4) []
    |> powerCluster d c (clusterOn s d c) |> refreshGpu d

/-- The unit of a CLAIM_STATUS bit is reset and left disabled. -/
def unitResets (d : Die) (b : Nat) (s : State) : State :=
  if b < 4 then headReset d b s else if b = bitComposer then composerReset d s else if b < 9 then cameraReset d (b - 5) s
  else if b = bitWarp then warpReset d s else if b = bitAudio then audioReset s else if b < 15 then hapticReset d (b - 11) s
  else if b = bitTouch then touchReset d s else if b < 20 then crcReset d (b - 16) s else clusterReset d (b - 20) s

/-- A unit enters reset: what it had accepted ends, and so do its islands' crossings (R47, R436, R439). -/
def assertUnit (d : Die) (b : Nat) (s : State) : State :=
  let is := unitIslands b
  let bt := s.boot d
  let s1 := s |> setBlock (BLOCK_RESET d) b true |> setBlock (BLOCK_PENDING d) b false
    |> setBoot d { bt with stuck := bt.stuck.filter (fun x => x != b), due := bt.due.filter (fun i => !is.contains i),
                           islandsOut := bt.islandsOut.filter (fun i => !is.contains i) }
    |> unitResets d b
  (is.flatMap islandXings).foldl (fun t n => peerReset d n t) s1

/-- The islands of a unit that run without its being enabled (R426). -/
def alwaysIsland (i : Nat) : Bool := decide (13 ≤ i ∧ i < 18) || decide (19 ≤ i ∧ i < 21)

/-- A unit is released, or its release is held while its island clock is not stable (R438). -/
def releaseUnit (d : Die) (unstable b : Nat) (s : State) : State :=
  let s1 := setBlock (BLOCK_RESET d) b false s
  if nbit unstable b ∧ unitIslands b ≠ [] then
    (unitIslands b).foldl (fun t i => dueIsland d i t) (setBlock (BLOCK_PENDING d) b true s1)
  else ((unitIslands b).filter alwaysIsland).foldl (fun t i => islandUp d i t) s1

/-- Bits of a block register that change from clear to set, or from set to clear, of units the die has. -/
def turned (s : State) (d : Die) (old new : Nat) (on : Bool) : List Nat :=
  (upto 28).filter (fun b => unitPresent s.part d b && nbit old b != nbit new b && nbit new b == on)

/-- A write of BLOCK_RESET; `unstable`: units whose island clock is not stable, as a mask (R436–R438). -/
def blockResetWrite (f : Fun) (v : Word) (unstable : Nat) (s : State) : State :=
  let d := f.ep
  let a := BLOCK_RESET d
  if (accessRow s f (addrOff a)).isNone then s
  else
    let old := (s.rd a).toNat
    let s1 := (turned s d old v.toNat true).foldl (fun t b =>
      if f.fn = 0 ∧ claimed t d b then setBlock (BLOCK_REFUSED d) b true t else assertUnit d b t) s
    (turned s d old v.toNat false).foldl (fun t b => releaseUnit d unstable b t) s1

/-- No lock 1 ms after a block release (R438). -/
def releaseFails (d : Die) (b : Nat) (s : State) : State :=
  if 28 ≤ b ∨ nbit (s.rd (BLOCK_PENDING d)).toNat b = false then s
  else
    let bt := s.boot d
    s |> setBlock (BLOCK_PENDING d) b false |> setBlock (BLOCK_CLK_FAIL d) b true
      |> setBoot d { bt with stuck := b :: bt.stuck, due := bt.due.filter (fun i => !(unitIslands b).contains i) }

/-- A unit is told to quiesce (Table 17.4). -/
def quiesceUnit (d : Die) (b : Nat) (s : State) : State :=
  if 11 ≤ b ∧ b < 15 then
    let c := 4 * d.idx + (b - 11)
    let s1 := match (s.hap c).queued with
      | some st => s |> setHap c { s.hap c with queued := none } |> endPlay st.play 7 0
      | none => s
    brakeWith c 7 s1
  else if 20 ≤ b ∧ b < 28 then
    ((s.gpu d).jobs.filter (fun j => j.clusters.contains (b - 20))).foldl (fun t j => askJob d 4 [b - 20] t j) s
  else s

/-- A write of BLOCK_QUIESCE (R439). -/
def blockQuiesceWrite (f : Fun) (v : Word) (s : State) : State :=
  let d := f.ep
  let a := BLOCK_QUIESCE d
  if (accessRow s f (addrOff a)).isNone then s
  else
    let old := (s.rd a).toNat
    let on := turned s d old v.toNat true
    let off := turned s d old v.toNat false
    let s1 := on.foldl (fun t b => t |> setBlock a b true |> quiesceUnit d b) s
    off.foldl (fun t b => t |> setBlock a b false |> setBlock (BLOCK_QUIESCED d) b false) s1

/-- No request of a quiesced unit is left in flight. -/
def blockQuiet (d : Die) (b : Nat) (s : State) : State :=
  if b < 28 ∧ unitQuiet s d b ∧ s.inReset.contains .fabric = false then setBlock (BLOCK_QUIESCED d) b true s else s

/-! ## ONYX (R410, R411) -/

/-- Every snapshot that waits is written, the one of cause 2 last. -/
def snapAll (d : Die) : Nat → State → State
  | 0, s => s
  | n + 1, s => if (s.rin d).writing.isNone then s else snapAll d n (snapDone d 0 s)

/-- Steps 1 to 6 of R410 end. -/
def onyxReached (s : State) : State :=
  if powerState s .a ≠ 4 ∨ s.split ∨ (bothDies.all (atRest s)) = false then s
  else
    let s1 := bothDies.foldl (fun t d => gateDie d t) s
    let s2 := bothDies.foldl (fun t d =>
      let u := requestSnap d 2 none t
      snapAll d ((u.rin d).queue.length + 2) u) s1
    let s3 := bothDies.foldl (fun t d => postPower d 4 0xFF t) (requestDone .a s2)
    powerLost true s3

/-- WAKEn has been low for 100 µs in ONYX: the power comes back, and POR is released (R411). -/
def onyxWakes (s : State) : State :=
  if (s.power .a).onyx = false ∨ (s.power .a).wakeLow < 100 then s
  else
    bothDies.foldl (fun t d => t |> setPower d { t.power d with onyx := false } |> setBoot d { t.boot d with pwrenAon := true, onyxExit := true }
      |> wrB (WAKE_CAUSE d) WAKE_CAUSE_ONYX_EXIT true |> satF (WAKE_CAUSE d) WAKE_CAUSE_ONYX_EXITS 1) s

/-! ## Meanings -/

def execOnyxEntryComplete (s : State) : Host.Outcome State Fault Refusal := run onyxReached s

def execOnyxWake (s : State) : Host.Outcome State Fault Refusal := run onyxWakes s

def execPor (asserted : Bool) (s : State) : Host.Outcome State Fault Refusal := run (porEdge asserted) s

def execResetnAssert (s : State) : Host.Outcome State Fault Refusal := run resetnFalls s

/-- RESETn has been high for 16 cycles of REFCLK (R424). -/
def execResetnRelease (s : State) : Host.Outcome State Fault Refusal := run (fun s => { s with resetnHigh := true }) s

def execDomainRelease (s : State) : Host.Outcome State Fault Refusal := run releaseNext s

def execIslandRelease (d : Die) (island : Nat) (s : State) : Host.Outcome State Fault Refusal := run (islandRelease d island) s

def execIslandPllTimeout (d : Die) (island : Nat) (s : State) : Host.Outcome State Fault Refusal := run (islandFails d island) s

def execFirmwareStart (d : Die) (obs : BootObs) (s : State) : Host.Outcome State Fault Refusal := run (boots d obs) s

def execPeerBootTimeout (s : State) : Host.Outcome State Fault Refusal := run peerLate s

def execTrainingReady (d : Die) (failed : Nat) (s : State) : Host.Outcome State Fault Refusal := run (trained d failed) s

def execPcieHotReset (d : Die) (lost : Bool) (s : State) : Host.Outcome State Fault Refusal := run (hotReset d lost) s

def execWatchdogExpiry (d : Die) (s : State) : Host.Outcome State Fault Refusal := run (wdogExpires d) s

def execLockstepFailure (d : Die) (s : State) : Host.Outcome State Fault Refusal := run (lockstepFails d) s

def execBlockResetAssert (f : Fun) (v : Word) (unstable : Nat) (s : State) : Host.Outcome State Fault Refusal := run (blockResetWrite f v unstable) s

def execBlockResetRelease (f : Fun) (v : Word) (unstable : Nat) (s : State) : Host.Outcome State Fault Refusal := run (blockResetWrite f v unstable) s

def execBlockReleaseTimeout (d : Die) (bit : Nat) (s : State) : Host.Outcome State Fault Refusal := run (releaseFails d bit) s

def execBlockQuiesce (f : Fun) (v : Word) (s : State) : Host.Outcome State Fault Refusal := run (blockQuiesceWrite f v) s

def execBlockQuiesced (d : Die) (bit : Nat) (s : State) : Host.Outcome State Fault Refusal := run (blockQuiet d bit) s

def execThermtrip (d : Die) (s : State) : Host.Outcome State Fault Refusal := run (trips d) s

def execLifeToggle (d : Die) (s : State) : Host.Outcome State Fault Refusal := run (lifeToggles d) s

def execVstbyRise (s : State) : Host.Outcome State Fault Refusal := run vstbyRises s

end Sys2Proof.Machine
end

