-- ==== Sys2Proof/Machine/Access.lean ====
section
/-! DEFINITION. Accesses of set-up space (R8–R11, R41, R494–R496): what a write of a register does, what a read returns, and
the access log. -/
namespace Sys2Proof.Machine

/-- The word belongs to a unit that is absent from the die (R496). -/
def rowAbsent (s : State) (d : Die) (r : RegRow) (off : Nat) : Bool :=
  let no (bit : Nat) : Bool := !unitPresent s.part d bit
  match r.dom with
  | .camera => if off < 0x1408000 then !(decide (r.off = 0x1406000)) && no (bitCamera (r.i1 off)) else no bitWarp
  | .audio => no bitAudio
  | .haptic => if off < 0x2C00100 ∨ 0x2C01000 ≤ off then no (bitHaptic 0) else no (bitHaptic (r.i1 off))
  | .touch => decide (off < 0x3003000) && no bitTouch
  | .gpu => r.off == 0x1800100 && no (bitCluster (r.i1 off))
  | _ =>
    if 0x201000 ≤ off ∧ off < 0x202000 then !xingPresent s.part d (r.i1 off)
    else if (0x3800000 ≤ off ∧ off < 0x3800540) ∨ 0x3801000 ≤ off ∧ off < 0x3803000 then !ltPresent s d (r.i1 off)
    else if 0x2001000 ≤ off ∧ off < 0x2001180 then r.i1 off == 8 && no bitAudio
    else false

/-- Key of what a function staged or latched of a pair (R10, R11). -/
def stageKey (f : Fun) (a : Nat) : Nat := f.key * 2 ^ 28 + a

/-- The ring whose register a function reaches at a row's indices (R54, R91). -/
def ringAt (f : Fun) (r : RegRow) (off : Nat) : RingId := ⟨if f.fn = 63 then f else ⟨f.ep, r.i1 off⟩, r.i2 off⟩

/-- A register keeps its bits but those that a mask lets a write set, and those that a 1 clears. -/
def masked (r : RegRow) (old v : Nat) : Nat :=
  Nat.lor (Nat.land old (2 ^ 32 - 1 - Nat.lor r.rw (Nat.land r.w1c v))) (Nat.land v r.rw)

/-- The crossings that carry a register to its island, where it has one (R41, Tables 2.3a, 5.8 and 18.7): EBRUM_CFG goes to the PHY of
every bundle. -/
def carriedBy (r : RegRow) (off : Nat) : List Nat :=
  if r.off = 0x800020 ∨ r.off = 0x800050 then [1 + 8 * r.i1 off]
  else if r.off = 0x101008 ∨ r.off = 0x10100C then [0xC5]
  else if r.off = 0x3E00000 then [0xA2, 0xAA, 0xB2, 0xBA]
  else []

/-- A register takes a value: on the shadow, and on its island where it has one (R41). -/
def putReg (d : Die) (r : RegRow) (off a : Nat) (v : Word) (s : State) : State :=
  (carriedBy r off).foldl (fun t n => carry d n a v t) (wr a v s)

/-- A write that a register's entry ignores. -/
def writeIgnored (s : State) (f : Fun) (r : RegRow) (off : Nat) (v : Word) : Bool :=
  let d := f.ep
  if r.off = 0x2400000 ∨ r.off = 0x2400004 then s.flag (FT_SECURE_SIZE d) FT_SECURE_SIZE_LOCK
  else if r.off = 0x2000100 then DRAM_RD_CFG_THRESH.get v == 0
  else if 0x310000 ≤ r.off ∧ r.off ≤ 0x31001C ∧ r.pair ≠ 0 then ringOn s (ringAt f r off)
  else false

/-- The bits that an entry's own rule keeps from a write of a generic register: v with those bits as they stand (R110, R311, R315,
R457, R490). -/
def writeShaped (s : State) (f : Fun) (r : RegRow) (off : Nat) (old : Word) (v : Word) : Word :=
  let d := f.ep
  if r.off = 0x2000020 then DRAM_TRAIN_CFG_PERIOD_S.put (max 2 (min 60 (DRAM_TRAIN_CFG_PERIOD_S.get v))) v
  else if r.off = 0x2001000 then
    (if 9 ≤ r.i1 off ∧ r.i1 off ≤ 21 ∧ 2 ≤ DRAM_PORT_CFG_CLASS.get v then v else DRAM_PORT_CFG_CLASS.put (DRAM_PORT_CFG_CLASS.get old) v)
  else if r.off = 0x3E00000 then
    (if 1 ≤ EBRUM_CFG_MIN_BUNDLES.get v ∧ EBRUM_CFG_MIN_BUNDLES.get v ≤ 4 then v else EBRUM_CFG_MIN_BUNDLES.put (EBRUM_CFG_MIN_BUNDLES.get old) v)
  else if 0x102000 ≤ off ∧ off ≤ 0x102010 ∧ f.fn ≠ 63 then
    let m := gpioHidden s d off
    BitVec.ofNat 32 (Nat.lor (Nat.land old.toNat m) (v.toNat - Nat.land v.toNat m))
  else v

/-- What a write of a generic register brings about beside its value: the floor follows PACE_TARGET and PACE_MARGIN (R30), clearing
FAULT_INFO.VALID clears MULTI (R128), clearing OVERRUN clears its count (R51). -/
def afterWrite (f : Fun) (r : RegRow) (a : Nat) (v : Word) (s : State) : State :=
  if r.off = 0x200008 ∨ r.off = 0x20000C then refreshFloor f.ep s
  else if r.off = 0x401018 then (if FAULT_INFO_VALID.get v = 1 then wrB a FAULT_INFO_MULTI false s else s)
  else if r.off = 0x201004 then (if XING_STATUS_OVERRUN.get v = 1 then wrF a XING_STATUS_OVERRUN_COUNT 0 s else s)
  else s

/-- A write of a register whose entry gives no rule of its own. -/
def plainWrite (f : Fun) (r : RegRow) (off : Nat) (v : Word) (s : State) : State :=
  let a := setupAddr f off
  if writeIgnored s f r off v then s
  else
    let old := s.rd a
    s |> putReg f.ep r off a (BitVec.ofNat 32 (masked r old.toNat (writeShaped s f r off old v).toNat)) |> afterWrite f r a v

/-- A write of the low half of a pair is staged for the function (R10). -/
def stageLo (f : Fun) (r : RegRow) (off : Nat) (v : Word) (s : State) : State :=
  if r.rw = 0 ∨ writeIgnored s f r off v then s
  else { s with staged := tset (stageKey f (setupAddr f off)) (v &&& BitVec.ofNat 32 r.rw) s.staged }

/-- A write of the high half commits both halves in one step (R10). -/
def commitHi (f : Fun) (r : RegRow) (off : Nat) (v : Word) (s : State) : State :=
  let a := setupAddr f off
  let k := stageKey f (a - 4)
  if r.rw = 0 ∨ writeIgnored s f r off v then s
  else
    let lo := (tfind k s.staged).getD (s.rd (a - 4))
    { s with staged := tkeep (fun j => j != k) s.staged } |> putReg f.ep r off (a - 4) lo |> putReg f.ep r off a (v &&& BitVec.ofNat 32 r.rw)

/-! ## Doorbell and status pages (R53, R92) -/

/-- BAR0 offset of a function's doorbell page; its status page lies 0x1000 above. -/
def pageBase (f : Fun) : Nat := if f.fn = 0 ∨ f.fn = 63 then 0x300000 else 0

/-- The function's pages answer: PF1 once its configuration is loaded, and none before READY (R126, R433). -/
def pageOpen (s : State) (f : Fun) : Bool :=
  (f.fn != 63 || setupFn s f) && spaceOpen s f.ep 0x300000 && !s.inReset.contains .pcie

/-- The ring whose doorbell stands at an offset. -/
def doorbellAt (f : Fun) (off : Nat) : Option RingId :=
  if pageBase f ≤ off ∧ off < pageBase f + 0x80 ∧ (off - pageBase f) % 8 = 0 then some ⟨f, (off - pageBase f) / 8⟩ else none

/-- The offset lies in the part of the doorbell page that holds doorbells. A write of another size or alignment anywhere in it is a doorbell
that is dropped, the odd words too (DESIGN CHOICE, notes/assumptions/105.md). -/
def onDoorbells (f : Fun) (off : Nat) : Bool := decide (pageBase f ≤ off ∧ off < pageBase f + 0x80)

/-- The word of a function's status page, if the offset lies in it. -/
def statusWord (s : State) (f : Fun) (off : Nat) : Option Word :=
  let o := off - (pageBase f + 0x1000)
  if off < pageBase f + 0x1000 ∨ 0x1000 ≤ o then none
  else if o = 0 then some (s.rd (FUNC_STATUS f))
  else if o = 4 then some (s.rd (FUNC_EVENTS_LOST f))
  else if o = 8 then some (s.rd (FUNC_DB_DROPPED f))
  else if o = 0x10 then some (BitVec.ofNat 32 (s.now f.ep))
  else if o = 0x14 then some (BitVec.ofNat 32 (s.now f.ep / 2 ^ 32))
  else if 0x40 ≤ o ∧ o < 0xC0 then
    (if o % 8 = 0 then some (s.rd (RING_STATUS ⟨f, (o - 0x40) / 8⟩)) else if o % 8 = 4 then some (s.rd (RING_CONSUMER ⟨f, (o - 0x40) / 8⟩)) else some 0)
  else some 0

/-- Offsets from 64 MiB on stand for BAR2 of the function (Table 3.1, notes/assumptions/102.md). -/
def bar2Off (off : Nat) : Option Nat := if 0x4000000 ≤ off then some (off - 0x4000000) else none

/-- The function's BAR2 answers. -/
def bar2Open (s : State) (f : Fun) : Bool := (f.fn != 63 || setupFn s f) && !s.inReset.contains .pcie

/-- The write of a register at an offset of a function's BAR0: a doorbell; the entries with a rule of their own, by their offset; every
other entry by its access masks. -/
def regWrite (f : Fun) (off : Nat) (v : Word) (s : State) : State :=
  if let some o := bar2Off off then (if bar2Open s f then bar2Write f o v s else s)
  else
  match doorbellAt f off, accessRow s f off with
  | some q, _ => if pageOpen s f then ringDoorbell q v s else s
  | none, none => s
  | none, some r =>
    if rowAbsent s f.ep r off then s
    else if r.pair = 1 then stageLo f r off v s
    else if r.pair = 2 then commitHi f r off v s
    else
      match r.off with
      | 0x200010 => loopCtrlWrite f v s
      | 0x200014 => manualWrite f v s
      | 0x200024 => limitsWrite f v s
      | 0x200028 => if AVS_STATUS_AVS_FAULT.get v = 1 then avsClear f s else s
      | 0x201000 => modeWrite f (r.i1 off) v s
      | 0x310008 => ringCfgWrite (ringAt f r off) v s
      | 0x31000C => ringIntWrite (ringAt f r off) v s
      | 0x400000 => carveBase f v s
      | 0x400004 => carveSize f v s
      | 0x400008 => sWays f v s
      | 0x400048 => mmuInvalidate f v s
      | 0x401024 => flrCtrl f (r.i1 off) v s
      | 0x800004 => pclkWrite f (r.i1 off) v s
      | 0x800010 => timingWrite f (r.i1 off) 0 v s
      | 0x800014 => timingWrite f (r.i1 off) 1 v s
      | 0x800018 => timingWrite f (r.i1 off) 2 v s
      | 0x80001C => timingWrite f (r.i1 off) 3 v s
      | 0x1000000 => linkCfgWrite f v s
      | 0x140001C => portClear f (r.i1 off) v s
      | 0x180020C => ctxStoreWrite f v s
      | 0x1800300 => pcCtrlWrite f v s
      | 0x200001C => fspWrite f v s
      | 0x208000 => permitRailWrite f (r.i1 off) v s
      | 0x100100 => blockQuiesceWrite f v s
      | 0x100108 => blockResetWrite f v 0 s
      | 0x3800000 => ltCtrlWrite f (r.i1 off) v ⟨[], 0⟩ s
      | 0x3800900 => eyeWrite f v s
      | 0x3C0000C => rinlarCtrlWrite f v s
      | _ => plainWrite f r off v s

/-! ## Reads -/

/-- The readout word holds touch references of S channels (R476). -/
def winSecure (s : State) (d : Die) (i : Nat) : Bool :=
  if 0x400 ≤ i ∧ i < 0x460 then pinSecure s d (0x200 + (i - 0x400))
  else if i = 0x460 ∨ (0x480 ≤ i ∧ i < 0x880) then pinSecure s d (0x200 + (s.rd (RINLAR_WIN d 0x460)).toNat / 2 ^ 24)
  else false

/-- What H does not see of a register's value (R110, R145, R314, R388, R399, R476, R490). -/
def hideFromH (s : State) (d : Die) (r : RegRow) (off : Nat) (v : Word) : Word :=
  if 0x102000 ≤ off ∧ off ≤ 0x102010 then BitVec.ofNat 32 (v.toNat - Nat.land v.toNat (gpioHidden s d off))
  else if r.off = 0x2400018 then
    let u := FT_ECC_ADDR_WORD.get v / 16384
    let b := s.rdF (FT_SECURE_BASE d) FT_SECURE_BASE_BASE_64K
    if b ≤ u ∧ u < b + s.rdF (FT_SECURE_SIZE d) FT_SECURE_SIZE_SIZE_64K then FT_ECC_ADDR_WORD.put 0 v else v
  else if r.off = 0x20000C8 ∨ r.off = 0x20000CC then (if inCarve s d (s.rd64 (DRAM_ECC_ADDR_LO d)) then 0 else v)
  else if r.off = 0x3001000 ∨ r.off = 0x3001004 then (if pinSecure s d (0x200 + r.i1 off) then 0 else v)
  else if r.off = 0x3002000 then (if sWorld s d (s.sensor d (r.i1 off)).setup = 1 then 0 else v)
  else if r.off = 0x3003000 then (if (tfind (r.i1 off) (s.touch d).regions).any (fun g => regionWorld s d g == 1) then 0 else v)
  else if r.off = 0x3400000 then
    (if ((s.route (CRC_ENGINE_STATUS_ROUTE.get v)).any (fun x => x.cls == 0)) then CRC_ENGINE_STATUS_ROUTE.put 0 v else v)
  else if r.off = 0x3C01000 then (if winSecure s d (r.i1 off) then 0 else v)
  else v

/-- The word that a read of a register returns, and the state it leaves: E_RUN and E_WAIT are the priorities of now (R276); reading GPIO_IN uses a free value for the pins that the
board drives (R490). -/
def seenWord (f : Fun) (off : Nat) (s : State) : Word × State :=
  match accessRow s f off with
  | none => (0, s)
  | some r =>
    if rowAbsent s f.ep r off then (0, s)
    else
      let (v, s1) := if r.off = 0x102008 then (BitVec.ofNat 32 (gpioIn s f.ep), useFree 1 s)
        else ((if setupAddr f off = GPU_SCHED_STATUS f.ep then refreshE f.ep s else s).rd (setupAddr f off), s)
      (if f.fn = 63 then v else hideFromH s f.ep r off v, s1)

/-- A read of an aligned word (R10, R11): a low half latches the committed high half for the function, and a high half returns what was
latched. -/
def regRead (f : Fun) (off : Nat) (s : State) : State :=
  let a := setupAddr f off
  let (v, s1) := seenWord f off s
  if let some o := bar2Off off then { s with readData := if bar2Open s f then BitVec.ofNat 32 (bar2Word s f o) else 0 }
  else if let some w := (if pageOpen s f then statusWord s f off else none) then
    let o := off - (pageBase f + 0x1000)
    if o = 0x10 then { s with readData := w, latched := tset (stageKey f (a + 4)) ((statusWord s f (off + 4)).getD 0) s.latched }
    else if o = 0x14 then
      { s with readData := (tfind (stageKey f a) s.latched).getD w, latched := tkeep (fun k => k != stageKey f a) s.latched }
    else { s with readData := w }
  else
  match accessRow s f off with
  | none => { s1 with readData := v }
  | some r =>
    if r.pair = 1 then { s1 with readData := v, latched := tset (stageKey f (a + 4)) (seenWord f (off + 4) s).1 s1.latched }
    else if r.pair = 2 then
      { s1 with readData := (tfind (stageKey f a) s1.latched).getD v, latched := tkeep (fun k => k != stageKey f a) s1.latched }
    else { s1 with readData := v }

/-! ## Accesses that break R8 -/

/-- SIZE of the access log (R495). -/
def logSize (size : Nat) : Nat := if size = 1 then 0 else if size = 2 then 1 else if size = 4 then 2 else if size = 8 then 3 else 4

/-- An access of another size or alignment (R8): discarded, or it reads zero; and it is logged for the function (R495). -/
def logMisaligned (f : Fun) (write : Bool) (off size : Nat) (s : State) : State :=
  if setupFn s f = false ∨ s.inReset.contains .pcie ∨ (bar2Off off).isSome ∨ (size = 4 ∧ off % 4 = 0) then s
  else
    let s1 := satF (ACCESS_LOG_COUNT f) ACCESS_LOG_COUNT_COUNT 1 s
    let s2 := if s1.flag (ACCESS_LOG_INFO f) ACCESS_LOG_INFO_VALID then s1
      else s1 |> wrB (ACCESS_LOG_INFO f) ACCESS_LOG_INFO_VALID true |> wrB (ACCESS_LOG_INFO f) ACCESS_LOG_INFO_WRITE write
              |> wrF (ACCESS_LOG_INFO f) ACCESS_LOG_INFO_SIZE (logSize size) |> wrF (ACCESS_LOG_ADDR f) ACCESS_LOG_ADDR_OFFSET off
    s2

/-- The access; on a doorbell it is counted as a dropped doorbell as well (R59). -/
def misaligned (f : Fun) (write : Bool) (off size : Nat) (s : State) : State :=
  let s1 := logMisaligned f write off size s
  if write ∧ onDoorbells f off ∧ pageOpen s f ∧ ¬(size = 4 ∧ off % 4 = 0) then dropDoorbell f s1
  else if write then s1 else { s1 with readData := if size = 4 ∧ off % 4 = 0 then s1.readData else 0 }

/-! ## Meanings -/

def execRegisterWrite (f : Fun) (off : Nat) (v : Word) (s : State) : Host.Outcome State Fault Refusal := run (regWrite f off v) s

def execLoWrite (f : Fun) (off : Nat) (v : Word) (s : State) : Host.Outcome State Fault Refusal := run (regWrite f off v) s

def execHiWrite (f : Fun) (off : Nat) (v : Word) (s : State) : Host.Outcome State Fault Refusal := run (regWrite f off v) s

def execLoRead (f : Fun) (off : Nat) (s : State) : Host.Outcome State Fault Refusal := run (regRead f off) s

def execMisalignedAccess (f : Fun) (write : Bool) (off size : Nat) (s : State) : Host.Outcome State Fault Refusal :=
  run (misaligned f write off size) s

end Sys2Proof.Machine
end

