-- ==== Sys2Proof/Machine/Fetch.lean ====
section
/-! DEFINITION. Fetching descriptors and chains (R61, R62, R66, R74), beginning what waits (R72), and set-up images (R90). -/
namespace Sys2Proof.Machine

/-! ## The opcodes of each ring type -/

/-- The opcodes of the unit chapters but IMAGE_APPLY. -/
def unitOps : List OpSpec :=
  [opNop, opWaitValue, opWriteValue, opTimestamp,
   opRouteCreate, opRouteModify, opRouteDelete, opRouteQuery,
   opTenantCreate, opTenantDestroy, opTenantModify, opPinAssign, opSecureClaim, opSecureRelease, opStateSize, opTenantFreeze,
   opTenantSave, opTenantRestore, opTenantThaw,
   opHeadEnable, opHeadDisable, opHeadMode, opPortConfig, opPortAux, opDsiCmd, opHeadColour,
   opGarnetAtlas, opGarnetPalette, opGarnetWindow, opGarnetSlot, opGarnetScan] ++
  [opCamPortTest, opGpuSample, opAudioPort, opAudioPdm, opAudioBus, opAudioFx, opAudioDuck, opHapticChannel,
   opTouchUnit, opTouchSensor, opTouchRegion, opTouchI2c, opTouchRef, opTouchSelftest,
   opPowerState, opUnitPower, opLinkRetrain, opRejoin] ++
  [opRenderPass, opDispatch, opDispatchIndirect, opCopy, opCopyAppend, opCopyCheck, opCrcScan, opCrcGet, opCrcSet,
   opLayerCommit, opLayerColour, opCapBuffer, opWarpMesh, opWarpFrame, opPlayBuffer, opSetGain, opTone, opAudioCap, opMeter,
   opPlay, opStop, opLoad, opArm]

/-- The opcode of a descriptor on a ring type, if the type's chapter defines it (R65). -/
def unitOp (qtype : Nat) (d : Desc) : Option OpSpec := unitOps.find? (fun o => o.fits qtype d)

/-! ## Set-up images (R90) -/

/-- Length and address of the image, and address of the result. -/
def imgAddr (d : Desc) : Nat := dget d 8 0 64
def imgLen (d : Desc) : Nat := dget d 16 0 32
def imgResult (d : Desc) : Nat := dget d 24 0 64

/-- The header check of step 1: the first field that is wrong, by its byte in the header; a wrong length by its byte in the descriptor
(notes/assumptions/106.md). -/
def setupHeader (d : Desc) (bs : List Byte) : Option (Nat × Nat) :=
  let w (off n : Nat) : Nat := ofLe ((bs.drop off).take n)
  firstFail ([bad (decide (imgLen d < 64) || imgLen d != 64 + 64 * w 8 4) 0x08 16, bad (w 6 2 != 0) 0x01 6]
    ++ (upto 48).map (fun i => bad (w (16 + i) 1 != 0) 0x01 (16 + i))
    ++ [bad (w 0 4 != 0x5158494D) 0x08 0, bad (w 4 2 != 1) 0x08 4, bad (w 12 4 != crc32c (bs.drop 64)) 0x08 12])

/-- The entries of an image. -/
def imageEntries (bs : List Byte) : List Desc := (upto (bs.length / 64 - 1)).map (fun i => descOf ((bs.drop (64 + 64 * i)).take 64))

/-- Checks 1 to 4 of an entry, with what an image does not take. -/
def entryCheck (q : RingId) (e : Desc) (s : State) : Option (Nat × Nat) :=
  firstFail [bad (dOpcode e == 0x18 && dQtype e == 0) 0x08 0, checkDesc (unitOp 0 e) q 0 e s, bad (dOpcode e == 0x13) 0x08 0,
    bad (dOpcode e == 0x10 && dget e 10 0 16 == 0) 0x07 10]

/-- The ticket of an entry: later completions carry its own SEQ and OPCODE, and follow the DONE of the image. -/
def entryTicket (t : Ticket) (e : Desc) : Ticket := { t with seq := dSeq e, opcode := dOpcode e }

/-- An entry is applied: its outcome, or none where it runs on. -/
def applyEntry (t : Ticket) (e : Desc) (s : State) : Option (Nat × Nat) × State :=
  match unitOp 0 e with
  | none => (invalid 0x03 0, s)
  | some o =>
    if o.empty e s then (none, s)
    else if (o.units t.ring e s).any (fun k => s.outOfService.contains k) then (some (stEccUncorr, 0), s)
    else if (o.xings t.ring e s).any (fun x => s.flag (XING_STATUS x.1 x.2) XING_STATUS_PEER_RESET) then (some (stPeerReset, 0), s)
    else if o.across t.ring e s then (some (stPeerLost, 0), s)
    else
      match o.pre t.ring e s with
      | (some r, s1) => (some r, s1)
      | (none, s1) => o.work (entryTicket t e) e s1

/-- The first entry that fails a check, each entry seen with the ones before it applied (step 2). -/
def imageChecks (t : Ticket) : Nat → List Desc → State → Option (Nat × Desc × Nat × Nat)
  | _, [], _ => none
  | i, e :: es, s =>
    match entryCheck t.ring e s with
    | some (st, dt) => some (i, e, st, dt)
    | none => imageChecks t (i + 1) es (applyEntry t e s).2

/-- The entries take effect in order (step 3); one that fails at run time ends the image. -/
def imageApplies (t : Ticket) : Nat → List Desc → State → Option (Nat × Desc × Nat × Nat) × State
  | _, [], s => (none, s)
  | i, e :: es, s =>
    match applyEntry t e s with
    | (some (st, dt), s1) => if st = stOk ∨ st = stOkEmpty ∨ st = stSecureHeld then imageApplies t (i + 1) es s1 else (some (i, e, st, dt), s1)
    | (none, s1) => imageApplies t (i + 1) es s1

/-- A failing entry: its own completion goes to RESULT_ADDR, and the image completes with its status and its index. -/
def imageFails (t : Ticket) (d : Desc) (i : Nat) (e : Desc) (st dt : Nat) (s : State) : Option (Nat × Nat) × State :=
  let c := cqeBytes ((entryTicket t e).cqe 0 st dt) (s.freeNat 0 % 2) (s.now t.die)
  (some (st, 2 ^ 23 + i), (dmaWrite t.die t.fn t.ring.ring (imgResult d) c (useFree 1 s)).2)

def imageWork (t : Ticket) (d : Desc) (s : State) : Option (Nat × Nat) × State :=
  match dmaRead t.die t.fn t.ring.ring (imgAddr d) (imgLen d) 9 s with
  | (.error e, s1) => (some e.completion, s1)
  | (.ok bs, s1) =>
    match setupHeader d bs with
    | some r => (some r, s1)
    | none =>
      match imageChecks t 0 (imageEntries bs) s1 with
      | some (i, e, st, dt) => imageFails t d i e st dt s1
      | none =>
        match imageApplies t 0 (imageEntries bs) s1 with
        | (some (i, e, st, dt), s2) => imageFails t d i e st dt s2
        | (none, s2) => (some (if imageEntries bs = [] then stOkEmpty else stOk, 0), s2)

def opImageApply : OpSpec :=
  { mkOp 0x18 false (rsv 20 24 ++ rsv 32 64) noUnits (fun _ d _ => bad (decide (2 ^ 20 < imgLen d)) 0x08 16) (fun d _ => imgLen d == 0) imageWork
     with held := false }

/-! ## Fetching -/

/-- The opcode of a descriptor on a ring type. -/
def opFor (qtype : Nat) (d : Desc) : Option OpSpec := if opImageApply.fits qtype d then some opImageApply else unitOp qtype d

/-- A descriptor fetch fails: the ring stops with no completion (R91, Table 3.8). -/
def fetchFault (q : RingId) (idx : Nat) (s : State) : State :=
  s |> wrB (RING_STATUS q) RING_STATUS_FETCH_FAULT true |> wrF (RING_STATUS q) RING_STATUS_STATE 3
    |> post q.fn (ringErrorEvent q.fn.ep (s.now q.fn.ep) q 2 idx)

/-- The slots of one descriptor, or of one chain, as read: its members, and whether it closed within `fuel` members (R74). -/
def readChain (q : RingId) : Nat → Nat → State → Except Nat (List Desc × Bool) × State
  | 0, _, s => (.ok ([], false), s)
  | n + 1, idx, s =>
    match dmaRead q.fn.ep q.fn q.ring (ringBase s q + 64 * (idx % ringSize s q)) 64 9 s with
    | (.error _, s1) => (.error idx, s1)
    | (.ok bs, s1) =>
      let d := descOf bs
      if dChain d then
        match readChain q n (idx + 1) s1 with
        | (.ok (ds, z), s2) => (.ok (d :: ds, z), s2)
        | r => r
      else (.ok ([d], true), s1)

/-- A member of what was read waits in its slot: its unit is stopped, or takes no more now (R439). -/
def holdsBack (q : RingId) (s : State) (d : Desc) : Bool :=
  match opFor (ringType s q) d with
  | none => false
  | some o => (o.held && unitsStopped s (o.units q d s)) || o.defer q d s

/-- The consumer index passes n slots, at most 32 to a shadow. -/
def passSome (q : RingId) (n : Nat) (s : State) : State :=
  let c := (ringCons s q + n) % 2 ^ 32
  let s1 := s |> wr (RING_CONSUMER q) (BitVec.ofNat 32 c) |> setRing q { s.ringAux q with unshadowed := (s.ringAux q).unshadowed + n, chain := false }
  if c = ringProd s1 q ∨ 32 ≤ (s1.ringAux q).unshadowed then writeShadow q c s1 else s1

/-- The consumer index passes n slots, and the shadow follows after at most 32 descriptors, or once the ring is idle (R61, R62): a chain
that is longer than what is left of them writes it on the way. -/
def passAll (q : RingId) : Nat → Nat → State → State
  | 0, n, s => passSome q n s
  | k + 1, n, s =>
    let room := 32 - (s.ringAux q).unshadowed
    if n ≤ room ∨ room = 0 then passSome q n s else passAll q k (n - room) (passSome q room s)

def passSlots (q : RingId) (n : Nat) (s : State) : State := passAll q 3 n s

/-- The next covered descriptor or chain is fetched, checked and, where nothing holds it back, begins. -/
def fetchNext (q : RingId) (s : State) : State :=
  let have_ := idxDiff (ringProd s q) (ringCons s q)
  if ringServes s q = false ∨ have_ = 0 then s
  else
    let most := min 64 (ringSize s q)
    match readChain q (min most have_) (ringCons s q) s with
    | (.error idx, s1) => fetchFault q idx s1
    | (.ok (ds, closed), s1) =>
      if closed = false ∧ ds.length < most then s1 |> setRing q { s1.ringAux q with chain := true } |> wrF (RING_STATUS q) RING_STATUS_STATE 2
      else if closed ∧ ds.any (holdsBack q s1) then s1
      else
        let fail := if closed then none else some (stInvalidDesc, invalidDetail 0x06 1 + (most - 1) * 2 ^ 16)
        let p := ringType s1 q
        s1 |> passSlots q ds.length |> submitAll (opFor p) q ds fail

/-! ## Beginning what waits (R72) -/

/-- The unit of a flight's next member is quiesced or in reset. -/
def flightStopped (q : RingId) (f : Flight) (s : State) : Bool :=
  match f.descs[f.acted]? with
  | none => false
  | some d =>
    match opFor (dQtype d) d with
    | none => false
    | some o => o.held && unitsStopped s (o.units q d s)

/-- The routes that a flight names and that have gone since it was fetched: the handle is free, or another route's. -/
def goneRoutes (f : Flight) (s : State) : List (Nat × Route) :=
  f.routes.eraseDups.filter (fun x =>
    match s.route x.1 with
    | none => true
    | some r => r.kind != x.2.kind || r.source != x.2.source || r.grantee != x.2.grantee || r.creator != x.2.creator)

/-- The units of a route as they were before it was deleted, for the work that is still its own. -/
def oldRoute (s : State) (x : Nat × Route) : State :=
  let r := x.2
  let hd := epUnit r.sink
  let l := epSub r.sink
  let s1 := { s with routes := tset x.1 r s.routes }
  let s2 := if epType r.sink = 0x01 then setLayer hd l { Layer.empty with route := if r.kind = 1 then x.1 else 0, camera := if r.kind = 2 then x.1 else 0 } s1 else s1
  (garnetUnits s2 r).foldl (fun u k => garnetUse k.1 k.2 true u) s2

/-- What other routes hold meanwhile is theirs again. -/
def backTo (s : State) (x : Nat × Route) (t : State) : State :=
  let r := x.2
  let hd := epUnit r.sink
  let l := epSub r.sink
  let t1 := match s.route x.1 with
    | none => t
    | some y => { t with routes := tset x.1 y t.routes }
  let t2 := if epType r.sink = 0x01 then t1 |> setLayer hd l ((s.head hd).layer l) |> refreshLayer hd l else t1
  let c := epUnit (if r.kind = 5 then r.source else r.sink)
  let t3 := if r.kind = 5 ∨ r.kind = 6 then setHap c (s.hap c) t2 else t2
  if r.kind = 2 ∧ isWarpRoute r then setWarp (camRouteDie r) (s.warp (camRouteDie r)) t3 else t3

/-- A flight that waited begins under the routes it was fetched under (R23): the work of a route that has gone since ends as the deletion
ends it (notes/assumptions/107.md). -/
def beginUnder (q : RingId) (f : Flight) (s : State) : State :=
  let gone := goneRoutes f s
  let t := begin_ (opFor (dQtype f.first)) q f (gone.foldl oldRoute s)
  gone.foldl (fun u x => backTo s x (routeGone x.1 u)) t

/-- A flight that waits begins, if nothing holds it back any more. -/
def tryBegin (q : RingId) (tag : Nat) (s : State) : State :=
  match (s.ringAux q).flights.find? (fun f => f.tag == tag) with
  | none => s
  | some f => if f.phase = 0 ∧ mayBegin q f s ∧ flightStopped q f s = false then beginUnder q f s else s

/-- Every flight of the ring that waits and may begin does, in ring order. -/
def releaseWaits (q : RingId) (s : State) : State :=
  if flrActive s q.fn ∨ frozen s q.fn then s
  else ((s.ringAux q).flights.map (fun f => f.tag)).foldl (fun t tag => tryBegin q tag t) s |> settle q

/-! ## Meanings -/

def execImageApply (q : RingId) (desc : Desc) (s : State) : Host.Outcome State Fault Refusal := run (submit opImageApply q desc) s

def execDescriptorFetch (q : RingId) (s : State) : Host.Outcome State Fault Refusal := run (fetchNext q) s

def execFenceWaitRelease (q : RingId) (s : State) : Host.Outcome State Fault Refusal := run (releaseWaits q) s

end Sys2Proof.Machine
end

