-- ==== Sys2Proof/Machine/Dispatch.lean ====
section
/-! DEFINITION. The dispatch: one arm per command. -/
namespace Sys2Proof.Machine

def exec (i : Instr) (s : State) : Host.Outcome State Fault Refusal :=
  match i with
  | .registerWrite f off v => Sys2Proof.Machine.execRegisterWrite f off v s
  | .misalignedAccess f write off size => Sys2Proof.Machine.execMisalignedAccess f write off size s
  | .loWrite f off v => Sys2Proof.Machine.execLoWrite f off v s
  | .hiWrite f off v => Sys2Proof.Machine.execHiWrite f off v s
  | .loRead f off => Sys2Proof.Machine.execLoRead f off s
  | .paceWindow d counts => Sys2Proof.Machine.execPaceWindow d counts s
  | .floorRaiseTimeout d => Sys2Proof.Machine.execFloorRaiseTimeout d s
  | .avsFrameDone d result alert => Sys2Proof.Machine.execAvsFrameDone d result alert s
  | .avsReadback d result mv => Sys2Proof.Machine.execAvsReadback d result mv s
  | .avsFaultClear f => Sys2Proof.Machine.execAvsFaultClear f s
  | .paceManualWrite f v => Sys2Proof.Machine.execPaceManualWrite f v s
  | .paceLoopCtrlWrite f v => Sys2Proof.Machine.execPaceLoopCtrlWrite f v s
  | .avsLimitsWrite f v => Sys2Proof.Machine.execAvsLimitsWrite f v s
  | .valueCrossing d n => Sys2Proof.Machine.execValueCrossing d n s
  | .xingPulse d n => Sys2Proof.Machine.execXingPulse d n s
  | .xingAck d n => Sys2Proof.Machine.execXingAck d n s
  | .xingModeWrite f n v => Sys2Proof.Machine.execXingModeWrite f n v s
  | .xingStallTimeout d n => Sys2Proof.Machine.execXingStallTimeout d n s
  | .islandClockStop d island => Sys2Proof.Machine.execIslandClockStop d island s
  | .islandClockResume d island => Sys2Proof.Machine.execIslandClockResume d island s
  | .xingPeerReset d n => Sys2Proof.Machine.execXingPeerReset d n s
  | .xingResync d n => Sys2Proof.Machine.execXingResync d n s
  | .routeCreate q desc => Sys2Proof.Machine.execRouteCreate q desc s
  | .routeModify q desc => Sys2Proof.Machine.execRouteModify q desc s
  | .routeDelete q desc => Sys2Proof.Machine.execRouteDelete q desc s
  | .routeQuery q desc => Sys2Proof.Machine.execRouteQuery q desc s
  | .routeChangeEffect handle => Sys2Proof.Machine.execRouteChangeEffect handle s
  | .imageApply q desc => Sys2Proof.Machine.execImageApply q desc s
  | .ringEnable f q v => Sys2Proof.Machine.execRingEnable f q v s
  | .ringDisable f q v => Sys2Proof.Machine.execRingDisable f q v s
  | .ringCfgModify f q v => Sys2Proof.Machine.execRingCfgModify f q v s
  | .doorbell q v => Sys2Proof.Machine.execDoorbell q v s
  | .consumerDoorbell q v => Sys2Proof.Machine.execConsumerDoorbell q v s
  | .descriptorFetch q => Sys2Proof.Machine.execDescriptorFetch q s
  | .intDelayExpiry q => Sys2Proof.Machine.execIntDelayExpiry q s
  | .ringIntWrite f q v => Sys2Proof.Machine.execRingIntWrite f q v s
  | .nop q desc => Sys2Proof.Machine.execNop q desc s
  | .waitValue q desc => Sys2Proof.Machine.execWaitValue q desc s
  | .waitValuePoll q => Sys2Proof.Machine.execWaitValuePoll q s
  | .waitValueTimeout q => Sys2Proof.Machine.execWaitValueTimeout q s
  | .writeValue q desc => Sys2Proof.Machine.execWriteValue q desc s
  | .timestamp q desc => Sys2Proof.Machine.execTimestamp q desc s
  | .fenceWaitRelease q => Sys2Proof.Machine.execFenceWaitRelease q s
  | .fenceSignal q => Sys2Proof.Machine.execFenceSignal q s
  | .tenantCreate q desc => Sys2Proof.Machine.execTenantCreate q desc s
  | .tenantModify q desc => Sys2Proof.Machine.execTenantModify q desc s
  | .tenantDestroy q desc => Sys2Proof.Machine.execTenantDestroy q desc s
  | .tenantDestroyDone f scrubFails => Sys2Proof.Machine.execTenantDestroyDone f scrubFails s
  | .pinAssign q desc => Sys2Proof.Machine.execPinAssign q desc s
  | .secureClaim q desc => Sys2Proof.Machine.execSecureClaim q desc s
  | .secureRelease q desc => Sys2Proof.Machine.execSecureRelease q desc s
  | .stateSize q desc => Sys2Proof.Machine.execStateSize q desc s
  | .tenantFreeze q desc => Sys2Proof.Machine.execTenantFreeze q desc s
  | .tenantFreezeDone f => Sys2Proof.Machine.execTenantFreezeDone f s
  | .tenantSave q desc => Sys2Proof.Machine.execTenantSave q desc s
  | .tenantRestore q desc => Sys2Proof.Machine.execTenantRestore q desc s
  | .tenantThaw q desc => Sys2Proof.Machine.execTenantThaw q desc s
  | .pcieFlr f => Sys2Proof.Machine.execPcieFlr f s
  | .flrCtrlWrite f target v => Sys2Proof.Machine.execFlrCtrlWrite f target v s
  | .flrDone f scrubFails => Sys2Proof.Machine.execFlrDone f scrubFails s
  | .mmuInvalidate f v => Sys2Proof.Machine.execMmuInvalidate f v s
  | .mmuInvalidateDone d => Sys2Proof.Machine.execMmuInvalidateDone d s
  | .pf1RequestRejected d posted rid ide => Sys2Proof.Machine.execPf1RequestRejected d posted rid ide s
  | .carveLock f v => Sys2Proof.Machine.execCarveLock f v s
  | .cacheSWaysWrite f v => Sys2Proof.Machine.execCacheSWaysWrite f v s
  | .debugChallenge d => Sys2Proof.Machine.execDebugChallenge d s
  | .debugCertificate d cert => Sys2Proof.Machine.execDebugCertificate d cert s
  | .headEnable q desc => Sys2Proof.Machine.execHeadEnable q desc s
  | .headDisable q desc => Sys2Proof.Machine.execHeadDisable q desc s
  | .headMode q desc => Sys2Proof.Machine.execHeadMode q desc s
  | .portConfig q desc => Sys2Proof.Machine.execPortConfig q desc s
  | .portAux q desc => Sys2Proof.Machine.execPortAux q desc s
  | .auxReply port reply => Sys2Proof.Machine.execAuxReply port reply s
  | .dsiCmd q desc => Sys2Proof.Machine.execDsiCmd q desc s
  | .dsiReadTimeout port => Sys2Proof.Machine.execDsiReadTimeout port s
  | .timingWrite f n reg v => Sys2Proof.Machine.execTimingWrite f n reg v s
  | .headPclkWrite f n v => Sys2Proof.Machine.execHeadPclkWrite f n v s
  | .lineStart h obs => Sys2Proof.Machine.execLineStart h obs s
  | .layerDeadline h line incomplete => Sys2Proof.Machine.execLayerDeadline h line incomplete s
  | .composeWindowOpen h => Sys2Proof.Machine.execComposeWindowOpen h s
  | .composeLine h => Sys2Proof.Machine.execComposeLine h s
  | .composePassEnd h => Sys2Proof.Machine.execComposePassEnd h s
  | .ftPatrolScrub d corrected uncorrectable => Sys2Proof.Machine.execFtPatrolScrub d corrected uncorrectable s
  | .pixelPllLost h => Sys2Proof.Machine.execPixelPllLost h s
  | .pixelPllRelock h => Sys2Proof.Machine.execPixelPllRelock h s
  | .portHpd port kind lost => Sys2Proof.Machine.execPortHpd port kind lost s
  | .linkTraining port result => Sys2Proof.Machine.execLinkTraining port result s
  | .genlockReference h inRange => Sys2Proof.Machine.execGenlockReference h inRange s
  | .genlockSourceTimeout h => Sys2Proof.Machine.execGenlockSourceTimeout h s
  | .layerCommit q desc => Sys2Proof.Machine.execLayerCommit q desc s
  | .layerColour q desc => Sys2Proof.Machine.execLayerColour q desc s
  | .headColour q desc => Sys2Proof.Machine.execHeadColour q desc s
  | .bufferRelease h layer => Sys2Proof.Machine.execBufferRelease h layer s
  | .glinkFrameStart d => Sys2Proof.Machine.execGlinkFrameStart d s
  | .glinkFrameEnd d bytes => Sys2Proof.Machine.execGlinkFrameEnd d bytes s
  | .garnetNop d slot => Sys2Proof.Machine.execGarnetNop d slot s
  | .icon d slot entry colour => Sys2Proof.Machine.execIcon d slot entry colour s
  | .number d slot value digits decimals glyphBase colour align => Sys2Proof.Machine.execNumber d slot value digits decimals glyphBase colour align s
  | .text d slot colour entries => Sys2Proof.Machine.execText d slot colour entries s
  | .bar d slot fill dir colour => Sys2Proof.Machine.execBar d slot fill dir colour s
  | .rect d slot x y w h colour => Sys2Proof.Machine.execRect d slot x y w h colour s
  | .line d slot x0 y0 x1 y1 colour width => Sys2Proof.Machine.execLine d slot x0 y0 x1 y1 colour width s
  | .clear d slot => Sys2Proof.Machine.execClear d slot s
  | .clearAll d slot => Sys2Proof.Machine.execClearAll d slot s
  | .ackFault d slot => Sys2Proof.Machine.execAckFault d slot s
  | .report d slot head window => Sys2Proof.Machine.execReport d slot head window s
  | .garnetRender d ecc => Sys2Proof.Machine.execGarnetRender d ecc s
  | .garnetRenderDone d => Sys2Proof.Machine.execGarnetRenderDone d s
  | .glinkStaleTimeout d => Sys2Proof.Machine.execGlinkStaleTimeout d s
  | .garnetLinkEnWrite f v => Sys2Proof.Machine.execGarnetLinkEnWrite f v s
  | .garnetAtlas q desc => Sys2Proof.Machine.execGarnetAtlas q desc s
  | .garnetPalette q desc => Sys2Proof.Machine.execGarnetPalette q desc s
  | .garnetWindow q desc => Sys2Proof.Machine.execGarnetWindow q desc s
  | .garnetSlot q desc => Sys2Proof.Machine.execGarnetSlot q desc s
  | .garnetScanForce q desc => Sys2Proof.Machine.execGarnetScanForce q desc s
  | .garnetScanRelease q desc => Sys2Proof.Machine.execGarnetScanRelease q desc s
  | .composerHeartbeatTimeout h => Sys2Proof.Machine.execComposerHeartbeatTimeout h s
  | .garnetTakeover h cause line => Sys2Proof.Machine.execGarnetTakeover h cause line s
  | .camPortEnable q desc => Sys2Proof.Machine.execCamPortEnable q desc s
  | .camPortDisable q desc => Sys2Proof.Machine.execCamPortDisable q desc s
  | .camPortReady port => Sys2Proof.Machine.execCamPortReady port s
  | .camFrameStart port vc => Sys2Proof.Machine.execCamFrameStart port vc s
  | .camLine port vc packet => Sys2Proof.Machine.execCamLine port vc packet s
  | .camFrameEnd port vc => Sys2Proof.Machine.execCamFrameEnd port vc s
  | .camStreamTimeout port vc => Sys2Proof.Machine.execCamStreamTimeout port vc s
  | .camLanesLost port => Sys2Proof.Machine.execCamLanesLost port s
  | .camLaneState port clk hs ulps deskew => Sys2Proof.Machine.execCamLaneState port clk hs ulps deskew s
  | .camPortClear f n v => Sys2Proof.Machine.execCamPortClear f n v s
  | .capBuffer q desc => Sys2Proof.Machine.execCapBuffer q desc s
  | .warpMesh q desc => Sys2Proof.Machine.execWarpMesh q desc s
  | .warpFrame q desc => Sys2Proof.Machine.execWarpFrame q desc s
  | .renderPass q desc => Sys2Proof.Machine.execRenderPass q desc s
  | .dispatch q desc => Sys2Proof.Machine.execDispatch q desc s
  | .dispatchIndirect q desc => Sys2Proof.Machine.execDispatchIndirect q desc s
  | .drawNop d => Sys2Proof.Machine.execDrawNop d s
  | .pipeline d => Sys2Proof.Machine.execPipeline d s
  | .resources d => Sys2Proof.Machine.execResources d s
  | .constants d => Sys2Proof.Machine.execConstants d s
  | .vertexBuffers d => Sys2Proof.Machine.execVertexBuffers d s
  | .indexBuffer d => Sys2Proof.Machine.execIndexBuffer d s
  | .viewport d => Sys2Proof.Machine.execViewport d s
  | .dynamic d => Sys2Proof.Machine.execDynamic d s
  | .draw d prims accesses => Sys2Proof.Machine.execDraw d prims accesses s
  | .drawIndexed d prims accesses => Sys2Proof.Machine.execDrawIndexed d prims accesses s
  | .drawIndirect d prims accesses => Sys2Proof.Machine.execDrawIndirect d prims accesses s
  | .endStream d => Sys2Proof.Machine.execEndStream d s
  | .partialRenderDone d accesses => Sys2Proof.Machine.execPartialRenderDone d accesses s
  | .jobDone d q obs => Sys2Proof.Machine.execJobDone d q obs s
  | .jobSchedule d scrubBad => Sys2Proof.Machine.execJobSchedule d scrubBad s
  | .sliceExpiry d q => Sys2Proof.Machine.execSliceExpiry d q s
  | .preemptBoundary d q scrubBad => Sys2Proof.Machine.execPreemptBoundary d q scrubBad s
  | .graceExpiry d q abandoned oldestUs => Sys2Proof.Machine.execGraceExpiry d q abandoned oldestUs s
  | .gpuShareWindow d => Sys2Proof.Machine.execGpuShareWindow d s
  | .clusterIdleOff d c => Sys2Proof.Machine.execClusterIdleOff d c s
  | .gpuSample q desc => Sys2Proof.Machine.execGpuSample q desc s
  | .gpuCtxStoreLock f v => Sys2Proof.Machine.execGpuCtxStoreLock f v s
  | .gpuPcClear f v => Sys2Proof.Machine.execGpuPcClear f v s
  | .memRequestServe d ch waiting errs => Sys2Proof.Machine.execMemRequestServe d ch waiting errs s
  | .agePromotion d port => Sys2Proof.Machine.execAgePromotion d port s
  | .rdWindow d => Sys2Proof.Machine.execRdWindow d s
  | .dramShareWindow d => Sys2Proof.Machine.execDramShareWindow d s
  | .dramPatrolScrub d corrected uncorrectable => Sys2Proof.Machine.execDramPatrolScrub d corrected uncorrectable s
  | .trainPeriodic d => Sys2Proof.Machine.execTrainPeriodic d s
  | .trainStepStart d waiting => Sys2Proof.Machine.execTrainStepStart d waiting s
  | .trainStepDone d outside => Sys2Proof.Machine.execTrainStepDone d outside s
  | .fspChange f v => Sys2Proof.Machine.execFspChange f v s
  | .fspDone d closureNs => Sys2Proof.Machine.execFspDone d closureNs s
  | .audioPort q desc => Sys2Proof.Machine.execAudioPort q desc s
  | .audioPdm q desc => Sys2Proof.Machine.execAudioPdm q desc s
  | .audioBus q desc => Sys2Proof.Machine.execAudioBus q desc s
  | .audioFx q desc => Sys2Proof.Machine.execAudioFx q desc s
  | .audioDuck q desc => Sys2Proof.Machine.execAudioDuck q desc s
  | .audioTick obs => Sys2Proof.Machine.execAudioTick obs s
  | .audioClockLoss port => Sys2Proof.Machine.execAudioClockLoss port s
  | .audioClockBack port rate => Sys2Proof.Machine.execAudioClockBack port rate s
  | .playBuffer q desc => Sys2Proof.Machine.execPlayBuffer q desc s
  | .setGain q desc => Sys2Proof.Machine.execSetGain q desc s
  | .tone q desc => Sys2Proof.Machine.execTone q desc s
  | .audioCapBuffer q desc => Sys2Proof.Machine.execAudioCapBuffer q desc s
  | .meterSnapshot q desc => Sys2Proof.Machine.execMeterSnapshot q desc s
  | .hapticChannel q desc => Sys2Proof.Machine.execHapticChannel q desc s
  | .play q desc => Sys2Proof.Machine.execPlay q desc s
  | .stop q desc => Sys2Proof.Machine.execStop q desc s
  | .load q desc => Sys2Proof.Machine.execLoad q desc s
  | .arm q desc => Sys2Proof.Machine.execArm q desc s
  | .htrigEdge d pin level => Sys2Proof.Machine.execHtrigEdge d pin level s
  | .hapticControlPeriod ch obs => Sys2Proof.Machine.execHapticControlPeriod ch obs s
  | .touchUnit q desc => Sys2Proof.Machine.execTouchUnit q desc s
  | .touchSensor q desc => Sys2Proof.Machine.execTouchSensor q desc s
  | .touchRegion q desc => Sys2Proof.Machine.execTouchRegion q desc s
  | .touchI2c q desc => Sys2Proof.Machine.execTouchI2c q desc s
  | .touchRefStore q desc => Sys2Proof.Machine.execTouchRefStore q desc s
  | .touchRefReload q desc => Sys2Proof.Machine.execTouchRefReload q desc s
  | .touchRefErase q desc => Sys2Proof.Machine.execTouchRefErase q desc s
  | .touchSelftest q desc => Sys2Proof.Machine.execTouchSelftest q desc s
  | .touchSelftestDone d counts => Sys2Proof.Machine.execTouchSelftestDone d counts s
  | .touchScan d obs => Sys2Proof.Machine.execTouchScan d obs s
  | .touchLpScan d count => Sys2Proof.Machine.execTouchLpScan d count s
  | .tshInt port => Sys2Proof.Machine.execTshInt port s
  | .tshRead port => Sys2Proof.Machine.execTshRead port s
  | .tshReadDone port reply => Sys2Proof.Machine.execTshReadDone port reply s
  | .copy q desc => Sys2Proof.Machine.execCopy q desc s
  | .copyAppend q desc => Sys2Proof.Machine.execCopyAppend q desc s
  | .copyCheck q desc => Sys2Proof.Machine.execCopyCheck q desc s
  | .crcScan q desc => Sys2Proof.Machine.execCrcScan q desc s
  | .crcGet q desc => Sys2Proof.Machine.execCrcGet q desc s
  | .crcSet q desc => Sys2Proof.Machine.execCrcSet q desc s
  | .crcEngineSwitch engine => Sys2Proof.Machine.execCrcEngineSwitch engine s
  | .copyEngineSwitch d => Sys2Proof.Machine.execCopyEngineSwitch d s
  | .powerStatePearl q desc => Sys2Proof.Machine.execPowerStatePearl q desc s
  | .powerStateOnyx q desc => Sys2Proof.Machine.execPowerStateOnyx q desc s
  | .pearlEntryComplete d => Sys2Proof.Machine.execPearlEntryComplete d s
  | .onyxEntryComplete => Sys2Proof.Machine.execOnyxEntryComplete s
  | .unitPower q desc => Sys2Proof.Machine.execUnitPower q desc s
  | .wakenLow us => Sys2Proof.Machine.execWakenLow us s
  | .wakeTimerReached d => Sys2Proof.Machine.execWakeTimerReached d s
  | .pearlExit d => Sys2Proof.Machine.execPearlExit d s
  | .ftRailSettled d => Sys2Proof.Machine.execFtRailSettled d s
  | .ftBulkRefreshDone d => Sys2Proof.Machine.execFtBulkRefreshDone d s
  | .onyxWake => Sys2Proof.Machine.execOnyxWake s
  | .permitRequest d => Sys2Proof.Machine.execPermitRequest d s
  | .permitHoldEnd d kind => Sys2Proof.Machine.execPermitHoldEnd d kind s
  | .permitAged d kind unit => Sys2Proof.Machine.execPermitAged d kind unit s
  | .clusterGapExpiry d => Sys2Proof.Machine.execClusterGapExpiry d s
  | .permitRailWrite f r v => Sys2Proof.Machine.execPermitRailWrite f r v s
  | .por asserted => Sys2Proof.Machine.execPor asserted s
  | .resetnAssert => Sys2Proof.Machine.execResetnAssert s
  | .resetnRelease => Sys2Proof.Machine.execResetnRelease s
  | .domainRelease => Sys2Proof.Machine.execDomainRelease s
  | .islandRelease d island => Sys2Proof.Machine.execIslandRelease d island s
  | .islandPllTimeout d island => Sys2Proof.Machine.execIslandPllTimeout d island s
  | .firmwareStart d obs => Sys2Proof.Machine.execFirmwareStart d obs s
  | .peerBootTimeout => Sys2Proof.Machine.execPeerBootTimeout s
  | .trainingReady d failed => Sys2Proof.Machine.execTrainingReady d failed s
  | .pcieHotReset d lost => Sys2Proof.Machine.execPcieHotReset d lost s
  | .watchdogExpiry d => Sys2Proof.Machine.execWatchdogExpiry d s
  | .lockstepFailure d => Sys2Proof.Machine.execLockstepFailure d s
  | .blockResetAssert f v unstable => Sys2Proof.Machine.execBlockResetAssert f v unstable s
  | .blockResetRelease f v unstable => Sys2Proof.Machine.execBlockResetRelease f v unstable s
  | .blockReleaseTimeout d bit => Sys2Proof.Machine.execBlockReleaseTimeout d bit s
  | .blockQuiesce f v => Sys2Proof.Machine.execBlockQuiesce f v s
  | .blockQuiesced d bit => Sys2Proof.Machine.execBlockQuiesced d bit s
  | .ebrumFlitReplay d bundle flits => Sys2Proof.Machine.execEbrumFlitReplay d bundle flits s
  | .ebrumLaneFail d bundle lane => Sys2Proof.Machine.execEbrumLaneFail d bundle lane s
  | .ebrumRemapDone bundle => Sys2Proof.Machine.execEbrumRemapDone bundle s
  | .ebrumHealthCheck d obs => Sys2Proof.Machine.execEbrumHealthCheck d obs s
  | .ebrumSidebandMsg d msg => Sys2Proof.Machine.execEbrumSidebandMsg d msg s
  | .linkRetrain q desc => Sys2Proof.Machine.execLinkRetrain q desc s
  | .linkRetrainDone d passed lanes => Sys2Proof.Machine.execLinkRetrainDone d passed lanes s
  | .rejoin q desc => Sys2Proof.Machine.execRejoin q desc s
  | .rejoinTimeout d => Sys2Proof.Machine.execRejoinTimeout d s
  | .rejoinDone => Sys2Proof.Machine.execRejoinDone s
  | .ltStart f u v obs => Sys2Proof.Machine.execLtStart f u v obs s
  | .ltStop f u v obs => Sys2Proof.Machine.execLtStop f u v obs s
  | .linkTestEnd d u obs => Sys2Proof.Machine.execLinkTestEnd d u obs s
  | .ltPcieRun d => Sys2Proof.Machine.execLtPcieRun d s
  | .ltEyeGo f v => Sys2Proof.Machine.execLtEyeGo f v s
  | .ltEyeDone d errors => Sys2Proof.Machine.execLtEyeDone d errors s
  | .laneMargining d lane step => Sys2Proof.Machine.execLaneMargining d lane step s
  | .rinlarPeriodic d => Sys2Proof.Machine.execRinlarPeriodic d s
  | .pwrfail => Sys2Proof.Machine.execPwrfail s
  | .rinlarSnap f v => Sys2Proof.Machine.execRinlarSnap f v s
  | .rinlarSnapshotDone d badReads => Sys2Proof.Machine.execRinlarSnapshotDone d badReads s
  | .rinlarSecond d tj => Sys2Proof.Machine.execRinlarSecond d tj s
  | .rinlarLatch f v => Sys2Proof.Machine.execRinlarLatch f v s
  | .thermtrip d => Sys2Proof.Machine.execThermtrip d s
  | .lifeToggle d => Sys2Proof.Machine.execLifeToggle d s
  | .dsiReadResponse port bytes => Sys2Proof.Machine.execDsiReadResponse port bytes s
  | .dramRefresh d ch => Sys2Proof.Machine.execDramRefresh d ch s
  | .mainLinkBack bundle => Sys2Proof.Machine.execMainLinkBack bundle s
  | .forwardedClockLoss d bundle => Sys2Proof.Machine.execForwardedClockLoss d bundle s
  | .checkerLock d u lane lock obs => Sys2Proof.Machine.execCheckerLock d u lane lock obs s
  | .vstbyRise => Sys2Proof.Machine.execVstbyRise s
  | .msixVectorUnmask f vec => Sys2Proof.Machine.execMsixVectorUnmask f vec s

end Sys2Proof.Machine
end

