-- ==== Sys2Proof/Safety.lean ====
section
/-! DEFINITION. What counts as a safe run, in the terms the claims use: memory keeps its canonical form, and no step stops the block. -/
namespace Sys2Proof.Machine

/-- The invariant of the machine: memory is in its canonical form. -/
def State.Inv (s : State) : Prop := Memory.wf s.mem = true

/-- The outcome is a state that keeps the invariant: nothing stopped. -/
def Safe (o : Host.Outcome State Fault Refusal) : Prop := ∃ t, o = .next t ∧ t.Inv

/-- What a function reads at a set-up offset (R9, R494). -/
def State.reads (s : State) (f : Fun) (off : Nat) : Word := (seenWord f off s).1

/-- Offsets of the register entries that have a rule of their own beside their access types: a write starts something, is carried to an
island, or brings another register after it. -/
def ownRule (off : Nat) : Bool :=
  [0x200008, 0x20000C, 0x200010, 0x200014, 0x200024, 0x200028, 0x201000, 0x201004, 0x310008, 0x31000C, 0x400000, 0x400004, 0x400008, 0x400048,
   0x401018, 0x401024, 0x800004, 0x800010, 0x800014, 0x800018, 0x80001C, 0x800020, 0x800050, 0x1000000, 0x140001C, 0x180020C, 0x1800300,
   0x200001C, 0x208000, 0x100100, 0x100108, 0x101008, 0x10100C, 0x3800000, 0x3800900, 0x3C0000C, 0x3E00000].contains off

/-- The queue, and the fields that posting completions, events and messages changes, emptied (R62, R67–R70, R76–R79, R106). -/
def unposted (s : State) : State :=
  { s with pending := [], regs := [], mem := [], out := [], rings := [], fns := [], tlb := [], poison := [], free := 0 }

/-- In nothing but those fields does `t` differ from `s`. -/
def Posted (s t : State) : Prop := unposted t = unposted s

/-- Registers that posting may write: those of the RINGS block and the per-function entries of MMU_ISO. -/
def postReg (a : Nat) : Bool := decide (0x310000 ≤ addrOff a ∧ addrOff a < 0x402000)

/-- Every other register is as it was. -/
def PostedRegs (s t : State) : Prop := ∀ a, postReg a = false → t.rd a = s.rd a

/-- A function's number names one of its entries. -/
def FunOk (f : Fun) : Prop := f.fn ≤ 63

/-- A ring's number names one of the 16 of a function. -/
def RingOk (q : RingId) : Prop := FunOk q.fn ∧ q.ring < 16

/-- All flights of the ring name completion rings of the function. -/
def cqsOk (s : State) (q : RingId) : Prop := ∀ f ∈ (s.ringAux q).flights, f.cq < 16

/-- The opcode, ring and descriptor of the rows that hand over one descriptor. -/
def descRow : Instr → Option (OpSpec × RingId × Desc)
  | .routeCreate q d => some (opRouteCreate, q, d)
  | .routeModify q d => some (opRouteModify, q, d)
  | .routeDelete q d => some (opRouteDelete, q, d)
  | .routeQuery q d => some (opRouteQuery, q, d)
  | .imageApply q d => some (opImageApply, q, d)
  | .nop q d => some (opNop, q, d)
  | .waitValue q d => some (opWaitValue, q, d)
  | .writeValue q d => some (opWriteValue, q, d)
  | .timestamp q d => some (opTimestamp, q, d)
  | .tenantCreate q d => some (opTenantCreate, q, d)
  | .tenantModify q d => some (opTenantModify, q, d)
  | .tenantDestroy q d => some (opTenantDestroy, q, d)
  | .pinAssign q d => some (opPinAssign, q, d)
  | .secureClaim q d => some (opSecureClaim, q, d)
  | .secureRelease q d => some (opSecureRelease, q, d)
  | .stateSize q d => some (opStateSize, q, d)
  | .tenantFreeze q d => some (opTenantFreeze, q, d)
  | .tenantSave q d => some (opTenantSave, q, d)
  | .tenantRestore q d => some (opTenantRestore, q, d)
  | .tenantThaw q d => some (opTenantThaw, q, d)
  | .headEnable q d => some (opHeadEnable, q, d)
  | .headDisable q d => some (opHeadDisable, q, d)
  | .headMode q d => some (opHeadMode, q, d)
  | .portConfig q d => some (opPortConfig, q, d)
  | .portAux q d => some (opPortAux, q, d)
  | .dsiCmd q d => some (opDsiCmd, q, d)
  | .layerCommit q d => some (opLayerCommit, q, d)
  | .layerColour q d => some (opLayerColour, q, d)
  | .headColour q d => some (opHeadColour, q, d)
  | .garnetAtlas q d => some (opGarnetAtlas, q, d)
  | .garnetPalette q d => some (opGarnetPalette, q, d)
  | .garnetWindow q d => some (opGarnetWindow, q, d)
  | .garnetSlot q d => some (opGarnetSlot, q, d)
  | .garnetScanForce q d => some (opGarnetScan, q, d)
  | .garnetScanRelease q d => some (opGarnetScan, q, d)
  | .camPortEnable q d => some (opCamPortTest, q, d)
  | .camPortDisable q d => some (opCamPortTest, q, d)
  | .capBuffer q d => some (opCapBuffer, q, d)
  | .warpMesh q d => some (opWarpMesh, q, d)
  | .warpFrame q d => some (opWarpFrame, q, d)
  | .renderPass q d => some (opRenderPass, q, d)
  | .dispatch q d => some (opDispatch, q, d)
  | .dispatchIndirect q d => some (opDispatchIndirect, q, d)
  | .gpuSample q d => some (opGpuSample, q, d)
  | .audioPort q d => some (opAudioPort, q, d)
  | .audioPdm q d => some (opAudioPdm, q, d)
  | .audioBus q d => some (opAudioBus, q, d)
  | .audioFx q d => some (opAudioFx, q, d)
  | .audioDuck q d => some (opAudioDuck, q, d)
  | .playBuffer q d => some (opPlayBuffer, q, d)
  | .setGain q d => some (opSetGain, q, d)
  | .tone q d => some (opTone, q, d)
  | .audioCapBuffer q d => some (opAudioCap, q, d)
  | .meterSnapshot q d => some (opMeter, q, d)
  | .hapticChannel q d => some (opHapticChannel, q, d)
  | .play q d => some (opPlay, q, d)
  | .stop q d => some (opStop, q, d)
  | .load q d => some (opLoad, q, d)
  | .arm q d => some (opArm, q, d)
  | .touchUnit q d => some (opTouchUnit, q, d)
  | .touchSensor q d => some (opTouchSensor, q, d)
  | .touchRegion q d => some (opTouchRegion, q, d)
  | .touchI2c q d => some (opTouchI2c, q, d)
  | .touchRefStore q d => some (opTouchRef, q, d)
  | .touchRefReload q d => some (opTouchRef, q, d)
  | .touchRefErase q d => some (opTouchRef, q, d)
  | .touchSelftest q d => some (opTouchSelftest, q, d)
  | .copy q d => some (opCopy, q, d)
  | .copyAppend q d => some (opCopyAppend, q, d)
  | .copyCheck q d => some (opCopyCheck, q, d)
  | .crcScan q d => some (opCrcScan, q, d)
  | .crcGet q d => some (opCrcGet, q, d)
  | .crcSet q d => some (opCrcSet, q, d)
  | .powerStatePearl q d => some (opPowerState, q, d)
  | .powerStateOnyx q d => some (opPowerState, q, d)
  | .unitPower q d => some (opUnitPower, q, d)
  | .linkRetrain q d => some (opLinkRetrain, q, d)
  | .rejoin q d => some (opRejoin, q, d)
  | _ => none

/-- The new flight of one descriptor, and its ticket. -/
def oneFlight (s : State) (q : RingId) (d : Desc) : Flight := ⟨s.nextTag, [d], 0, 0, 0, 0, false, s.rdF (RING_CFG q) RING_CFG_CQ, [], 0, namedRoutes q [d] s⟩
def oneTicket (s : State) (q : RingId) (d : Desc) : Ticket := ⟨q, s.rdF (RING_CFG q) RING_CFG_CQ, dSeq d, dOpcode d, s.nextTag⟩

/-- The flight joins its ring. -/
def joined (s : State) (q : RingId) (d : Desc) : State :=
  setRing q { s.ringAux q with flights := (s.ringAux q).flights ++ [oneFlight s q d] } { s with nextTag := s.nextTag + 1 }

/-- The state in which the descriptor's work begins: what must succeed first has, and its flight runs. -/
def handed (o : OpSpec) (q : RingId) (d : Desc) (s : State) : State :=
  setFlight q { oneFlight s q d with acted := 1, phase := 1, parts := if o.lands then 1 else 0 } (o.pre q d (joined s q d)).2

/-- The ring hands the descriptor over now: it serves, the unit takes descriptors, and none of its chain is awaited. -/
def Taken (o : OpSpec) (q : RingId) (d : Desc) (s : State) : Prop :=
  ringServes s q = true ∧ (o.held = true → unitsStopped s (o.units q d s) = false) ∧ o.defer q d s = false ∧ dChain d = false ∧
    o.fits (ringType s q) d = true

/-- Nothing keeps the work of the descriptor from beginning: it passes every check, no earlier work holds it back, and its units and crossings
serve (R66, R72, R116, R47). -/
def Begins (o : OpSpec) (q : RingId) (d : Desc) (s : State) : Prop :=
  Taken o q d s ∧ checkDesc (some o) q 0 d s = none ∧ mayBegin q (oneFlight s q d) (joined s q d) = true ∧
    (o.pre q d (joined s q d)).1 = none ∧
    (let u := (o.pre q d (joined s q d)).2
     o.empty d u = false ∧ (o.units q d u).any (fun k => u.outOfService.contains k) = false ∧
       (o.xings q d u).any (fun x => u.flag (XING_STATUS x.1 x.2) XING_STATUS_PEER_RESET) = false)

/-- What the work of the descriptor answers: status and DETAIL, or nothing while it runs on; and the state it leaves. -/
def worked (o : OpSpec) (q : RingId) (d : Desc) (s : State) : Option (Nat × Nat) × State :=
  o.work (oneTicket s q d) d (handed o q d s)

/-- The die, OP, SLOT and arguments of the rows that send one Garnet record (R199, R200). -/
def recordRow : Instr → Option (Die × Nat × Nat × List Byte)
  | .garnetNop d sl => some (d, 0, sl, [])
  | .icon d sl e c => some (d, 1, sl, leBytes 2 e ++ leBytes 1 c ++ leBytes 1 0)
  | .number d sl v n k g c a => some (d, 2, sl, leBytes 4 (unsgn 32 v) ++ leBytes 1 n ++ leBytes 1 k ++ leBytes 2 g ++ leBytes 1 c ++ leBytes 1 a ++ leBytes 2 0)
  | .text d sl c es =>
    let bs := leBytes 1 c ++ leBytes 1 es.length ++ leBytes 2 0 ++ (es.map (leBytes 2)).flatten
    some (d, 3, sl, bs ++ List.replicate (cdiv bs.length 4 * 4 - bs.length) 0)
  | .bar d sl f k c => some (d, 4, sl, leBytes 2 f ++ leBytes 1 k ++ leBytes 1 c)
  | .rect d sl x y w h c => some (d, 5, sl, leBytes 2 x ++ leBytes 2 y ++ leBytes 2 w ++ leBytes 2 h ++ leBytes 1 c ++ leBytes 3 0)
  | .line d sl x y u v c w => some (d, 6, sl, leBytes 2 x ++ leBytes 2 y ++ leBytes 2 u ++ leBytes 2 v ++ leBytes 1 c ++ leBytes 1 w ++ leBytes 2 0)
  | .clear d sl => some (d, 7, sl, [])
  | .clearAll d sl => some (d, 8, sl, [])
  | .ackFault d sl => some (d, 9, sl, [])
  | .report d sl h w => some (d, 10, sl, leBytes 1 h ++ leBytes 1 w ++ leBytes 2 0)
  | _ => none

/-- A record as the link carries it. -/
def linkRecord (op slot : Nat) (args : List Byte) : List Byte := leBytes 1 op ++ leBytes 1 slot ++ leBytes 2 args.length ++ args

/-- The binner stands at a packet of a type that the stream holds whole and right: the pass, ARG, LEN, the packet's bytes, and the state after they are read (R255). -/
def PacketAt (d : Die) (ty : Nat) (s : State) (j : Job) (arg len : Nat) (b : List Byte) (s2 : State) : Prop :=
  (s.gpu d).jobs.find? (fun k => k.kind == 0 && k.phase == 1 && k.clusters != []) = some j ∧ ty ≤ 0x0B ∧ lenOk ty len = true ∧
    (passOf j).pos + 4 * len ≤ streamLen j ∧ argOk ty arg len b = true ∧
    ∃ h s1, dmaRead d j.fn j.ticket.ring.ring (streamAddr j + (passOf j).pos) 4 12 s = (.ok h, s1) ∧ fb h 0 1 = ty ∧ fb h 1 1 = arg ∧ fb h 2 2 = len ∧
      dmaRead d j.fn j.ticket.ring.ring (streamAddr j + (passOf j).pos) (4 * len) 12 s1 = (.ok b, s2)

/-- The pass once its packet is taken. -/
def nextPacket (j : Job) (len : Nat) : Pass := { passOf j with pos := (passOf j).pos + 4 * len }

end Sys2Proof.Machine
end

