-- ==== Sys2Proof/WellFormed.lean ====
section
/-! DEFINITION. Commands that are well formed: functions and rings that exist, a descriptor of the opcode and ring type that its
row names, and unit numbers within what the manual gives the device. -/
namespace Sys2Proof

/-- PF0, VF1–VF31 or PF1 of an endpoint (R52). -/
def Fun.ok (f : Fun) : Bool := decide (f.fn < 32) || f.fn == 63

/-- Ring 0–15 of such a function (R54). -/
def RingId.ok (q : RingId) : Bool := q.fn.ok && decide (q.ring < 16)

/-- A descriptor with an opcode, for a ring of its type (R64). -/
def ringDesc (qtype opcode : Nat) (q : RingId) (d : Desc) : Bool :=
  q.ok && d.toNat % 256 == opcode && d.toNat / 256 % 16 == qtype

/-- A descriptor with a common opcode, for a submission ring of any type (R65). -/
def commonDesc (opcode : Nat) (q : RingId) (d : Desc) : Bool :=
  q.ok && d.toNat % 256 == opcode && decide (d.toNat / 256 % 16 < 9)

/-- The command is well formed. -/
def Instr.wf : Instr → Bool
  | .registerWrite f off _ => f.ok && decide (off < 67117056)
  | .misalignedAccess f _ off _ => f.ok && decide (off < 67117056)
  | .loWrite f off _ => f.ok && decide (off < 67117056)
  | .hiWrite f off _ => f.ok && decide (off < 67117056)
  | .loRead f off => f.ok && decide (off < 67117056)
  | .paceWindow _ _ => true
  | .floorRaiseTimeout _ => true
  | .avsFrameDone _ result _ => decide (result < 4)
  | .avsReadback _ result mv => decide (result < 4) && decide (mv < 65536)
  | .avsFaultClear f => f.ok
  | .paceManualWrite f _ => f.ok
  | .paceLoopCtrlWrite f _ => f.ok
  | .avsLimitsWrite f _ => f.ok
  | .valueCrossing _ n => decide (n < 256)
  | .xingPulse _ n => decide (n < 256)
  | .xingAck _ n => decide (n < 256)
  | .xingModeWrite f n _ => f.ok && decide (n < 256)
  | .xingStallTimeout _ n => decide (n < 256)
  | .islandClockStop _ island => decide (island < 31)
  | .islandClockResume _ island => decide (island < 31)
  | .xingPeerReset _ n => decide (n < 256)
  | .xingResync _ n => decide (n < 256)
  | .routeCreate q desc => ringDesc 0 0x10 q desc
  | .routeModify q desc => ringDesc 0 0x11 q desc
  | .routeDelete q desc => ringDesc 0 0x12 q desc
  | .routeQuery q desc => ringDesc 0 0x13 q desc
  | .routeChangeEffect handle => decide (handle < 65536)
  | .imageApply q desc => ringDesc 0 0x18 q desc
  | .ringEnable f q _ => f.ok && q.ok
  | .ringDisable f q _ => f.ok && q.ok
  | .ringCfgModify f q _ => f.ok && q.ok
  | .doorbell q _ => q.ok
  | .consumerDoorbell q _ => q.ok
  | .descriptorFetch q => q.ok
  | .intDelayExpiry q => q.ok
  | .ringIntWrite f q _ => f.ok && q.ok
  | .nop q desc => commonDesc 0x00 q desc
  | .waitValue q desc => commonDesc 0x01 q desc
  | .waitValuePoll q => q.ok
  | .waitValueTimeout q => q.ok
  | .writeValue q desc => commonDesc 0x02 q desc
  | .timestamp q desc => commonDesc 0x03 q desc
  | .fenceWaitRelease q => q.ok
  | .fenceSignal q => q.ok
  | .tenantCreate q desc => ringDesc 0 0x20 q desc
  | .tenantModify q desc => ringDesc 0 0x22 q desc
  | .tenantDestroy q desc => ringDesc 0 0x21 q desc
  | .tenantDestroyDone f _ => f.ok
  | .pinAssign q desc => ringDesc 0 0x23 q desc
  | .secureClaim q desc => ringDesc 0 0x24 q desc
  | .secureRelease q desc => ringDesc 0 0x25 q desc
  | .stateSize q desc => ringDesc 0 0x26 q desc
  | .tenantFreeze q desc => ringDesc 0 0x27 q desc
  | .tenantFreezeDone f => f.ok
  | .tenantSave q desc => ringDesc 0 0x28 q desc
  | .tenantRestore q desc => ringDesc 0 0x29 q desc
  | .tenantThaw q desc => ringDesc 0 0x2A q desc
  | .pcieFlr f => f.ok
  | .flrCtrlWrite f target _ => f.ok && decide (target < 32)
  | .flrDone f _ => f.ok
  | .mmuInvalidate f _ => f.ok
  | .mmuInvalidateDone _ => true
  | .pf1RequestRejected _ _ _ _ => true
  | .carveLock f _ => f.ok
  | .cacheSWaysWrite f _ => f.ok
  | .debugChallenge _ => true
  | .debugCertificate _ _ => true
  | .headEnable q desc => ringDesc 0 0x30 q desc
  | .headDisable q desc => ringDesc 0 0x31 q desc
  | .headMode q desc => ringDesc 0 0x32 q desc
  | .portConfig q desc => ringDesc 0 0x33 q desc
  | .portAux q desc => ringDesc 0 0x34 q desc
  | .auxReply port _ => decide (port < 8)
  | .dsiCmd q desc => ringDesc 0 0x35 q desc
  | .dsiReadTimeout port => decide (port < 8)
  | .timingWrite f n reg _ => f.ok && decide (n < 4) && decide (reg < 4)
  | .headPclkWrite f n _ => f.ok && decide (n < 4)
  | .lineStart h _ => decide (h < 8)
  | .layerDeadline h _ _ => decide (h < 8)
  | .composeWindowOpen h => decide (h < 8)
  | .composeLine h => decide (h < 8)
  | .composePassEnd h => decide (h < 8)
  | .ftPatrolScrub _ _ _ => true
  | .pixelPllLost h => decide (h < 8)
  | .pixelPllRelock h => decide (h < 8)
  | .portHpd port _ _ => decide (port < 8)
  | .linkTraining port _ => decide (port < 8)
  | .genlockReference h _ => decide (h < 8)
  | .genlockSourceTimeout h => decide (h < 8)
  | .layerCommit q desc => ringDesc 4 0x10 q desc
  | .layerColour q desc => ringDesc 4 0x11 q desc
  | .headColour q desc => ringDesc 0 0x38 q desc
  | .bufferRelease h layer => decide (h < 8) && decide (layer < 16)
  | .glinkFrameStart _ => true
  | .glinkFrameEnd _ _ => true
  | .garnetNop _ _ => true
  | .icon _ _ _ _ => true
  | .number _ _ _ _ _ _ _ _ => true
  | .text _ _ _ _ => true
  | .bar _ _ _ _ _ => true
  | .rect _ _ _ _ _ _ _ => true
  | .line _ _ _ _ _ _ _ _ => true
  | .clear _ _ => true
  | .clearAll _ _ => true
  | .ackFault _ _ => true
  | .report _ _ _ _ => true
  | .garnetRender _ _ => true
  | .garnetRenderDone _ => true
  | .glinkStaleTimeout _ => true
  | .garnetLinkEnWrite f _ => f.ok
  | .garnetAtlas q desc => ringDesc 0 0x40 q desc
  | .garnetPalette q desc => ringDesc 0 0x41 q desc
  | .garnetWindow q desc => ringDesc 0 0x42 q desc
  | .garnetSlot q desc => ringDesc 0 0x43 q desc
  | .garnetScanForce q desc => ringDesc 0 0x44 q desc
  | .garnetScanRelease q desc => ringDesc 0 0x44 q desc
  | .composerHeartbeatTimeout h => decide (h < 8)
  | .garnetTakeover h _ _ => decide (h < 8)
  | .camPortEnable q desc => ringDesc 0 0x50 q desc
  | .camPortDisable q desc => ringDesc 0 0x50 q desc
  | .camPortReady port => decide (port < 8)
  | .camFrameStart port x => decide (port < 8) && decide (x.vc < 4) && decide (x.header < 4)
  | .camLine port vc _ => decide (port < 8) && decide (vc < 4)
  | .camFrameEnd port x => decide (port < 8) && decide (x.vc < 4) && decide (x.header < 4)
  | .camStreamTimeout port vc => decide (port < 8) && decide (vc < 4)
  | .camLanesLost port => decide (port < 8)
  | .camLaneState port _ _ _ _ => decide (port < 8)
  | .camPortClear f n _ => f.ok && decide (n < 4)
  | .capBuffer q desc => ringDesc 5 0x10 q desc
  | .warpMesh q desc => ringDesc 5 0x11 q desc
  | .warpFrame q desc => ringDesc 5 0x12 q desc
  | .renderPass q desc => ringDesc 1 0x10 q desc
  | .dispatch q desc => ringDesc 2 0x10 q desc
  | .dispatchIndirect q desc => ringDesc 2 0x11 q desc
  | .drawNop _ => true
  | .pipeline _ => true
  | .resources _ => true
  | .constants _ => true
  | .vertexBuffers _ => true
  | .indexBuffer _ => true
  | .viewport _ => true
  | .dynamic _ => true
  | .draw _ _ _ => true
  | .drawIndexed _ _ _ => true
  | .drawIndirect _ _ _ => true
  | .endStream _ => true
  | .partialRenderDone _ _ => true
  | .jobDone _ q _ => q.ok
  | .jobSchedule _ _ => true
  | .sliceExpiry _ q => q.ok
  | .preemptBoundary _ q _ => q.ok
  | .graceExpiry _ q _ _ => q.ok
  | .gpuShareWindow _ => true
  | .clusterIdleOff _ c => decide (c < 8)
  | .gpuSample q desc => ringDesc 0 0x60 q desc
  | .gpuCtxStoreLock f _ => f.ok
  | .gpuPcClear f _ => f.ok
  | .memRequestServe _ ch _ _ => decide (ch < 8)
  | .agePromotion _ port => decide (port < 24)
  | .rdWindow _ => true
  | .dramShareWindow _ => true
  | .dramPatrolScrub _ _ _ => true
  | .trainPeriodic _ => true
  | .trainStepStart _ _ => true
  | .trainStepDone _ _ => true
  | .fspChange f _ => f.ok
  | .fspDone _ _ => true
  | .audioPort q desc => ringDesc 0 0x70 q desc
  | .audioPdm q desc => ringDesc 0 0x71 q desc
  | .audioBus q desc => ringDesc 0 0x72 q desc
  | .audioFx q desc => ringDesc 0 0x73 q desc
  | .audioDuck q desc => ringDesc 0 0x74 q desc
  | .audioTick _ => true
  | .audioClockLoss port => decide (port < 4)
  | .audioClockBack port _ => decide (port < 4)
  | .playBuffer q desc => ringDesc 6 0x10 q desc
  | .setGain q desc => ringDesc 6 0x11 q desc
  | .tone q desc => ringDesc 6 0x12 q desc
  | .audioCapBuffer q desc => ringDesc 7 0x10 q desc
  | .meterSnapshot q desc => ringDesc 7 0x11 q desc
  | .hapticChannel q desc => ringDesc 0 0x80 q desc
  | .play q desc => ringDesc 8 0x10 q desc
  | .stop q desc => ringDesc 8 0x11 q desc
  | .load q desc => ringDesc 8 0x12 q desc
  | .arm q desc => ringDesc 8 0x13 q desc
  | .htrigEdge _ pin _ => decide (pin < 8)
  | .hapticControlPeriod ch _ => decide (ch < 8)
  | .touchUnit q desc => ringDesc 0 0x90 q desc
  | .touchSensor q desc => ringDesc 0 0x91 q desc
  | .touchRegion q desc => ringDesc 0 0x92 q desc
  | .touchI2c q desc => ringDesc 0 0x93 q desc
  | .touchRefStore q desc => ringDesc 0 0x94 q desc
  | .touchRefReload q desc => ringDesc 0 0x94 q desc
  | .touchRefErase q desc => ringDesc 0 0x94 q desc
  | .touchSelftest q desc => ringDesc 0 0x95 q desc
  | .touchSelftestDone _ _ => true
  | .touchScan _ _ => true
  | .touchLpScan _ _ => true
  | .tshInt port => decide (port < 4)
  | .tshRead port => decide (port < 4)
  | .tshReadDone port _ => decide (port < 4)
  | .copy q desc => ringDesc 3 0x10 q desc
  | .copyAppend q desc => ringDesc 3 0x11 q desc
  | .copyCheck q desc => ringDesc 3 0x12 q desc
  | .crcScan q desc => ringDesc 3 0x13 q desc
  | .crcGet q desc => ringDesc 3 0x14 q desc
  | .crcSet q desc => ringDesc 3 0x15 q desc
  | .crcEngineSwitch engine => decide (engine < 8)
  | .copyEngineSwitch _ => true
  | .powerStatePearl q desc => ringDesc 0 0xA0 q desc
  | .powerStateOnyx q desc => ringDesc 0 0xA0 q desc
  | .pearlEntryComplete _ => true
  | .onyxEntryComplete => true
  | .unitPower q desc => ringDesc 0 0xA1 q desc
  | .wakenLow _ => true
  | .wakeTimerReached _ => true
  | .pearlExit _ => true
  | .ftRailSettled _ => true
  | .ftBulkRefreshDone _ => true
  | .onyxWake => true
  | .permitRequest _ => true
  | .permitHoldEnd _ kind => decide (kind < 6)
  | .permitAged _ kind _ => decide (kind < 6)
  | .clusterGapExpiry _ => true
  | .permitRailWrite f r _ => f.ok && decide (r < 4)
  | .por _ => true
  | .resetnAssert => true
  | .resetnRelease => true
  | .domainRelease => true
  | .islandRelease _ island => decide (island < 31)
  | .islandPllTimeout _ island => decide (island < 31)
  | .firmwareStart _ _ => true
  | .peerBootTimeout => true
  | .trainingReady _ _ => true
  | .pcieHotReset _ _ => true
  | .watchdogExpiry _ => true
  | .lockstepFailure _ => true
  | .blockResetAssert f _ _ => f.ok
  | .blockResetRelease f _ _ => f.ok
  | .blockReleaseTimeout _ bit => decide (bit < 28)
  | .blockQuiesce f _ => f.ok
  | .blockQuiesced _ bit => decide (bit < 28)
  | .ebrumFlitReplay _ bundle _ => decide (bundle < 4)
  | .ebrumLaneFail _ bundle _ => decide (bundle < 4)
  | .ebrumRemapDone bundle => decide (bundle < 4)
  | .ebrumHealthCheck _ _ => true
  | .ebrumSidebandMsg _ _ => true
  | .linkRetrain q desc => ringDesc 0 0xB0 q desc
  | .linkRetrainDone _ _ _ => true
  | .rejoin q desc => ringDesc 0 0xB1 q desc
  | .rejoinTimeout _ => true
  | .rejoinDone => true
  | .ltStart f u _ _ => f.ok && decide (u < 21)
  | .ltStop f u _ _ => f.ok && decide (u < 21)
  | .linkTestEnd _ u _ => decide (u < 21)
  | .ltPcieRun _ => true
  | .ltEyeGo f _ => f.ok
  | .ltEyeDone _ _ => true
  | .laneMargining _ lane _ => decide (lane < 8)
  | .rinlarPeriodic _ => true
  | .pwrfail => true
  | .rinlarSnap f _ => f.ok
  | .rinlarSnapshotDone _ _ => true
  | .rinlarSecond _ _ => true
  | .rinlarLatch f _ => f.ok
  | .thermtrip _ => true
  | .lifeToggle _ => true
  | .dsiReadResponse port _ => decide (port < 8)
  | .dramRefresh _ ch => decide (ch < 8)
  | .mainLinkBack bundle => decide (bundle < 4)
  | .forwardedClockLoss _ bundle => decide (bundle < 4)
  | .checkerLock _ u _ _ _ => decide (u < 21)
  | .vstbyRise => true
  | .msixVectorUnmask f vec => f.ok && decide (vec < 64)

end Sys2Proof
end

