-- ==== Sys2Proof/Certificates/Slice0/Obligations.lean ====
section
/-! DEFINITION. The statements for the provers. Each docstring names the rule it follows, or says that it is the model's own choice. -/

open Sys2Proof Sys2Proof.Machine

/-- One step runs the command at the front of the queue, with the queue's rest. -/
def Obligations.StepRunsFrontCommand : Prop :=
  ∀ (c : Instr) (rest : List Instr) (s : State), s.pending = c :: rest → step s = exec c { s with pending := rest }

/-- With no command waiting, one REFCLK cycle passes on both dies and nothing but their time changes: the model's choice (notes/assumptions/4.md). The counter of a die goes on by 40 ns; while it slews, every 250th cycle by one nanosecond less or more, until the offset is gone; crossing 0xC4 carries the counter as it stood, unless it is down or stopped. With the fabric domain in reset, time stands. -/
def Obligations.EmptyQueueLetsTimePass : Prop :=
  ∀ s : State, s.pending = [] → ∃ t, step s = .next t ∧ t = { s with timeA := t.timeA, timeB := t.timeB, tbases := t.tbases } ∧
    ∀ d : Die,
      (s.inReset.contains .fabric = true → t.now d = s.now d ∧ t.tbase d = s.tbase d)
      ∧ (s.inReset.contains .fabric = false →
          (t.now d = if xingUp s d 0xC4 = true ∧ (s.xing d 0xC4).stopped = false then (s.tbase d).counter else s.now d)
          ∧ ((s.tbase d).slew = 0 → t.tbase d = { s.tbase d with counter := (s.tbase d).counter + 40 })
          ∧ ((s.tbase d).slew ≠ 0 → (s.tbase d).cycles < 249 →
              t.tbase d = { s.tbase d with counter := (s.tbase d).counter + 40, cycles := (s.tbase d).cycles + 1 })
          ∧ (0 < (s.tbase d).slew → 249 ≤ (s.tbase d).cycles →
              t.tbase d = { s.tbase d with counter := (s.tbase d).counter + 39, slew := (s.tbase d).slew - 1, cycles := 0 })
          ∧ ((s.tbase d).slew < 0 → 249 ≤ (s.tbase d).cycles →
              t.tbase d = { s.tbase d with counter := (s.tbase d).counter + 41, slew := (s.tbase d).slew + 1, cycles := 0 }))

/-- The memory of the reset state is in canonical form (the model's own invariant). -/
def Obligations.ResetMemoryIsCanonical : Prop := State.reset.Inv

/-- Every step that answers a next state keeps memory in canonical form (the model's own invariant). -/
def Obligations.StepKeepsMemoryCanonical : Prop :=
  ∀ s t : State, s.Inv → step s = .next t → t.Inv

/-- Every command answers a next state, leaves the queue as it is, and changes no byte of memory but those that left the device for it in this very step. -/
def Obligations.CommandsKeepQueueAndOtherMemory : Prop :=
  ∀ (c : Instr) (s : State), s.Inv →
    ∃ t, exec c s = .next t ∧ t.pending = s.pending ∧
      ∀ k, memGet k t.mem = (match outByte k t.out with
        | some b => b
        | none => memGet k s.mem)

/-- A run of any length, from every state whose memory is canonical, never stops; it takes the commands in the order in which they wait, and its memory stays canonical. -/
def Obligations.RunsTakeCommandsInOrder : Prop :=
  ∀ (n : Nat) (s : State), s.Inv → ∃ t, Host.Core.run core n s = .next t ∧ t.Inv ∧ t.pending = s.pending.drop n

/-- R9: an access from a level that a register's entry does not list reads as zero, and its write changes nothing but the record of what left the device. -/
def Obligations.UnlistedLevelReachesNothing : Prop :=
  ∀ (f : Fun) (off : Nat) (v : Word) (s : State), off < 0x4000000 → doorbellAt f off = none → accessRow s f off = none →
    (exec (.registerWrite f off v) s = .next (fresh s) ∧ exec (.loWrite f off v) s = .next (fresh s) ∧ exec (.hiWrite f off v) s = .next (fresh s)) ∧
    (statusWord s f off = none → exec (.loRead f off) s = .next { fresh s with readData := 0 })

/-- R8: an access of another size or alignment than 32 aligned bits is logged: the first since VALID was cleared with its size, direction and offset. The access log's own rule names the fields (R495). -/
def Obligations.MisalignedAccessIsLogged : Prop :=
  ∀ (f : Fun) (write : Bool) (off size : Nat) (s : State), setupFn s f = true → s.inReset.contains .pcie = false →
    ¬(size = 4 ∧ off % 4 = 0) → onDoorbells f off = false → s.flag (ACCESS_LOG_INFO f) ACCESS_LOG_INFO_VALID = false → off < 2 ^ 26 →
    ∃ t, exec (.misalignedAccess f write off size) s = .next t ∧ (write = false → t.readData = 0)
      ∧ t.flag (ACCESS_LOG_INFO f) ACCESS_LOG_INFO_VALID = true ∧ t.flag (ACCESS_LOG_INFO f) ACCESS_LOG_INFO_WRITE = write
      ∧ t.rdF (ACCESS_LOG_INFO f) ACCESS_LOG_INFO_SIZE = logSize size ∧ t.rdF (ACCESS_LOG_ADDR f) ACCESS_LOG_ADDR_OFFSET = off
      ∧ t.rdF (ACCESS_LOG_COUNT f) ACCESS_LOG_COUNT_COUNT = min 0xFFFFFFFF (s.rdF (ACCESS_LOG_COUNT f) ACCESS_LOG_COUNT_COUNT + 1)
      ∧ t.rings = s.rings ∧ t.routes = s.routes ∧ t.mem = s.mem

/-- R10: the low half of a pair is staged for the function and changes no register, a repeated one takes its place, and a read still returns the committed value; the high half then commits both halves in one step, or itself with the committed low half where none is staged. R11: a read of the low half returns the committed value and latches the committed high half for the function; its next read of the high half returns that, whatever the register holds by then. -/
def Obligations.PairsCommitAndReadWhole : Prop :=
  (∀ (f : Fun) (off : Nat) (lo lo2 hi : Word) (s : State) (r r' : RegRow),
    doorbellAt f off = none → doorbellAt f (off + 4) = none → accessRow s f off = some r → accessRow s f (off + 4) = some r' →
    rowAbsent s f.ep r off = false → rowAbsent s f.ep r' (off + 4) = false → r.pair = 1 → r'.pair = 2 → r.rw ≠ 0 → r'.rw ≠ 0 →
    writeIgnored s f r off lo = false → writeIgnored s f r off lo2 = false → writeIgnored s f r' (off + 4) hi = false → carriedBy r' (off + 4) = [] →
    setupAddr f (off + 4) = setupAddr f off + 4 →
    (∃ t u, exec (.loWrite f off lo) s = .next t ∧ t.regs = s.regs ∧ exec (.hiWrite f (off + 4) hi) t = .next u
      ∧ u.rd (setupAddr f off) = lo &&& BitVec.ofNat 32 r.rw ∧ u.rd (setupAddr f off + 4) = hi &&& BitVec.ofNat 32 r'.rw
      ∧ (∀ a, a ≠ setupAddr f off → a ≠ setupAddr f off + 4 → u.rd a = s.rd a)
      ∧ (statusWord s f off = none → ∃ w, exec (.loRead f off) t = .next w ∧ w.readData = s.reads f off)
      ∧ ∃ v w, exec (.loWrite f off lo2) t = .next v ∧ v.regs = s.regs ∧ exec (.hiWrite f (off + 4) hi) v = .next w
        ∧ w.rd (setupAddr f off) = lo2 &&& BitVec.ofNat 32 r.rw ∧ w.rd (setupAddr f off + 4) = hi &&& BitVec.ofNat 32 r'.rw)
    ∧ (tfind (stageKey f (setupAddr f off)) s.staged = none → ∃ u, exec (.hiWrite f (off + 4) hi) s = .next u
      ∧ u.rd (setupAddr f off + 4) = hi &&& BitVec.ofNat 32 r'.rw ∧ ∀ a, a ≠ setupAddr f off + 4 → u.rd a = s.rd a))
  ∧ (∀ (f : Fun) (off : Nat) (s : State) (r : RegRow), accessRow s f off = some r → r.pair = 1 → statusWord s f off = none →
    ∃ t, exec (.loRead f off) s = .next t ∧ t.readData = s.reads f off ∧ t.regs = s.regs
      ∧ ∀ (u : State) (r' : RegRow), u.latched = t.latched → accessRow u f (off + 4) = some r' → r'.pair = 2 → statusWord u f (off + 4) = none →
          setupAddr f (off + 4) = setupAddr f off + 4 →
          ∃ w, exec (.loRead f (off + 4)) u = .next w ∧ w.readData = s.reads f (off + 4))

/-- R8, R494: a write of a register that has no rule of its own sets the bits that software may write, clears the bits that a one clears, and leaves every other bit and every other register as it was. R41, Table 18.7: a write of EBRUM_CFG sets the same bits and puts the new value in the queues of the four crossings that carry it to the PHYs of the bundles, each shown outstanding. -/
def Obligations.PlainWriteTakesItsBits : Prop :=
  (∀ (f : Fun) (off : Nat) (v : Word) (s : State) (r : RegRow), doorbellAt f off = none → accessRow s f off = some r →
    rowAbsent s f.ep r off = false → r.pair = 0 → ownRule r.off = false → writeIgnored s f r off v = false →
    writeShaped s f r off (s.rd (setupAddr f off)) v = v →
    ∃ t, exec (.registerWrite f off v) s = .next t
      ∧ (∀ i, i < 32 → (t.rd (setupAddr f off)).getLsbD i =
          if r.rw.testBit i then v.getLsbD i else (s.rd (setupAddr f off)).getLsbD i && !(r.w1c.testBit i && v.getLsbD i))
      ∧ ∀ a, a ≠ setupAddr f off → t.rd a = s.rd a)
  ∧ (∀ (f : Fun) (off : Nat) (v : Word) (s : State) (r : RegRow), doorbellAt f off = none → accessRow s f off = some r → r.off = 0x3E00000 →
    writeShaped s f r off (s.rd (setupAddr f off)) v = v → (∀ n ∈ [0xA2, 0xAA, 0xB2, 0xBA], s.flag (XING_STATUS f.ep n) XING_STATUS_PEER_RESET = false) →
    ∃ t, exec (.registerWrite f off v) s = .next t
      ∧ (∀ i, i < 32 → (t.rd (setupAddr f off)).getLsbD i = if r.rw.testBit i then v.getLsbD i else (s.rd (setupAddr f off)).getLsbD i && !(r.w1c.testBit i && v.getLsbD i))
      ∧ ∀ n ∈ [0xA2, 0xAA, 0xB2, 0xBA], t.flag (XING_STATUS f.ep n) XING_STATUS_OUTSTANDING = true
          ∧ (setupAddr f off, t.rd (setupAddr f off)) ∈ (t.xing f.ep n).queue)

/-- R66, R75: a descriptor that passes every check and that nothing holds back does its opcode's own work at once, whichever row hands it over; the state after it is the one its work leaves, apart from what posting its completion changes. -/
def Obligations.DescriptorsDoTheirWork : Prop :=
  ∀ (i : Instr) (o : OpSpec) (q : RingId) (d : Desc) (s : State), descRow i = some (o, q, d) → Begins o q d (fresh s) →
    ∃ t, exec i s = .next t ∧ t.pending = s.pending ∧ Posted (worked o q d (fresh s)).2 t
      ∧ (RingOk q → cqsOk (worked o q d (fresh s)).2 q → s.rdF (RING_CFG q) RING_CFG_CQ < 16 → PostedRegs (worked o q d (fresh s)).2 t)

/-- R63, R439: a ring that does not serve, a unit that is quiesced or in reset, or one that takes no further descriptor now: the descriptor is not fetched, and nothing changes. R66: the first check that fails ends a descriptor, and nothing else of it takes effect: only its ring's record and what posting the completion changes differ. -/
def Obligations.HeldOrFailedDescriptorsChangeNothingElse : Prop :=
  (∀ (i : Instr) (o : OpSpec) (q : RingId) (d : Desc) (s : State), descRow i = some (o, q, d) →
    (ringServes s q = false ∨ (o.held = true ∧ unitsStopped s (o.units q d (fresh s)) = true) ∨ o.defer q d (fresh s) = true) →
    exec i s = .next (fresh s))
  ∧ (∀ (i : Instr) (o : OpSpec) (q : RingId) (d : Desc) (s : State) (x : Nat × Nat), descRow i = some (o, q, d) → Taken o q d (fresh s) →
    checkDesc (some o) q 0 d (fresh s) = some x →
    ∃ t, exec i s = .next t ∧ t.pending = s.pending ∧ unposted { t with nextTag := s.nextTag } = unposted s
      ∧ (RingOk q → cqsOk s q → s.rdF (RING_CFG q) RING_CFG_CQ < 16 → PostedRegs s t))

/-- R67, R66, R70: the DONE of a descriptor that fails a check reaches host memory at the producer index of its completion ring: the 16 bytes of the entry, then the new index at the shadow address. Stated for PF0 with both stages off, on a ring with nothing before it and free entries. -/
def Obligations.CompletionReachesHostMemory : Prop :=
  ∀ (i : Instr) (o : OpSpec) (q c : RingId) (d : Desc) (s : State) (st dt ea sh : Nat), descRow i = some (o, q, d) → s.Inv → Taken o q d (fresh s) →
    checkDesc (some o) q 0 d (fresh s) = some (st, dt) → st ≠ stOk → st ≠ stOkEmpty → dFenceSignal d = false → (s.ringAux q).flights = [] →
    q.fn.fn = 0 → c = ⟨q.fn, s.rdF (RING_CFG q) RING_CFG_CQ⟩ → ringOn s c = true → (s.ringAux c).held = [] → freeEntries s c ≠ 0 →
    s.rdF (XLATE_CTRL q.fn) XLATE_CTRL_S1_EN = 0 → s.rdF (XLATE_CTRL q.fn) XLATE_CTRL_S2_EN = 0 → s.split = false → s.tlb = [] →
    ringBase s c % 4096 = 0 → ea = ringBase s c + 16 * (ringProd s c % ringSize s c) → ea + 16 ≤ 2 ^ 48 →
    sh = s.rd64 (RING_SHADOW_LO c) → sh % 8 = 0 → sh + 8 ≤ 2 ^ 48 → (sh + 8 ≤ ea ∨ ea + 16 ≤ sh) →
    ∃ t, exec i s = .next t ∧ ringProd t c = (ringProd s c + 1) % 2 ^ 32
      ∧ (∀ k, k < 16 → memGet (hostKey s q.fn.ep (ea + k)) t.mem =
          (cqeBytes ⟨dSeq d, st, dt % 2 ^ 24, q.ring, 0, dOpcode d⟩ (phaseBit (ringProd s c) (ringSize s c)) (s.now q.fn.ep))[k]?.getD 0)
      ∧ (∀ k, k < 8 → memGet (hostKey s q.fn.ep (sh + k)) t.mem = (leBytes 8 ((ringProd s c + 1) % 2 ^ 32))[k]?.getD 0)

/-- R55: an enabling write that breaks a condition of the table leaves the ring disabled and every other register as it was; CFG_ERR takes INVALID_DESC, or UNIT_ABSENT where only the audio engine is absent. R54, R62: an accepted enabling write gives the ring its configuration, takes both indices and the fence count to 0, shows state 2 where work on the ring waits or its COMPLETION ring is full and 1 otherwise (R91), starts a new interrupt count, and then writes the shadow. An EVENT ring reports a gap after that (R78). -/
def Obligations.RingEnableIsCheckedAndStartsEmpty : Prop :=
  (∀ (f : Fun) (q : RingId) (v : Word) (s : State) (broken : Prop) (e : Nat), ringWriter s f q = true → ringOn s q = false →
    RING_CFG_SIZE_LOG2.get v ≠ 0 →
    (broken ↔ 0xA < RING_CFG_QTYPE.get v
        ∨ RING_CFG_SIZE_LOG2.get v < 4 ∨ 16 < RING_CFG_SIZE_LOG2.get v
        ∨ ringBase s q % 4096 ≠ 0
        ∨ (RING_CFG_QTYPE.get v = 0 ∧ q.fn.fn ≠ 0 ∧ q.fn.fn ≠ 63)
        ∨ ((RING_CFG_QTYPE.get v = 0 ∨ RING_CFG_QTYPE.get v = 9) ∧ ∃ n, n < 16 ∧ n ≠ q.ring ∧ ringOn s ⟨q.fn, n⟩ = true
            ∧ ringType s ⟨q.fn, n⟩ = RING_CFG_QTYPE.get v)
        ∨ (RING_CFG_QTYPE.get v < 9 ∧ (RING_CFG_CQ.get v = q.ring ∨ ringOn s ⟨q.fn, RING_CFG_CQ.get v⟩ = false
            ∨ ringType s ⟨q.fn, RING_CFG_CQ.get v⟩ ≠ 0xA))) →
    (broken ∧ e = stInvalidDesc
      ∨ ¬broken ∧ (RING_CFG_QTYPE.get v = 6 ∨ RING_CFG_QTYPE.get v = 7) ∧ unitPresent s.part .a bitAudio = false ∧ e = stUnitAbsent) →
    ∃ t, exec (.ringEnable f q v) s = .next t ∧ t = { s with regs := t.regs, out := [] } ∧ ringOn t q = false
      ∧ t.rdF (RING_STATUS q) RING_STATUS_CFG_ERR = e ∧ ∀ a, a ≠ RING_STATUS q → t.rd a = s.rd a)
  ∧ (∀ (f : Fun) (q : RingId) (v : Word) (s : State), ringWriter s f q = true → ringOn s q = false → RING_CFG_SIZE_LOG2.get v ≠ 0 →
    enableError s q v = none →
    ∃ u, (u = { s with regs := u.regs, rings := u.rings, out := [] } ∧ u.rd (RING_CFG q) = v &&& 0x000FFF1F ∧ ringProd u q = 0 ∧ ringCons u q = 0
        ∧ u.rd64 (RING_FENCE_COUNT_LO q) = 0
        ∧ u.rdF (RING_STATUS q) RING_STATUS_STATE = (if (s.ringAux q).wait.isSome = true ∨ (∃ g ∈ (s.ringAux q).flights, g.phase = 0)
            ∨ (RING_CFG_QTYPE.get v < 9 ∧ s.flag (RING_STATUS ⟨q.fn, RING_CFG_CQ.get v⟩) RING_STATUS_CQ_FULL = true) then 2 else 1)
        ∧ u.ringAux q = { s.ringAux q with intCount := 0, intFirst := 0, unshadowed := 0, chain := false }
        ∧ ∀ a, a ∉ [RING_CFG q, RING_PRODUCER q, RING_CONSUMER q, RING_FENCE_COUNT_LO q, RING_FENCE_COUNT_LO q + 4, RING_STATUS q] → u.rd a = s.rd a)
      ∧ exec (.ringEnable f q v) s =
          .next (ran (fun _ => if RING_CFG_QTYPE.get v = 9 then reportGap q.fn.ep q.fn (writeShadow q 0 u) else writeShadow q 0 u) s))

/-- R57, R58: a write with SIZE_LOG2 0 disables an enabled ring and abandons nothing that was fetched, unless completions are owed to it; a write that keeps SIZE_LOG2, QTYPE and CQ may change PRIORITY and EVICTABLE; any other sets CFG_ERR to INVALID_DESC and changes nothing else. -/
def Obligations.EnabledRingTakesFewWrites : Prop :=
  ∀ (f : Fun) (q : RingId) (v : Word) (s : State), ringWriter s f q = true → ringOn s q = true →
    (RING_CFG_SIZE_LOG2.get v = 0 → ¬(ringType s q = 0xA ∧ cqOwed s q = true) →
      ∃ t, exec (.ringDisable f q v) s = .next t ∧ t = { s with regs := t.regs, out := [] } ∧ ringOn t q = false
        ∧ t.rdF (RING_STATUS q) RING_STATUS_STATE = 0 ∧ ∀ a, a ≠ RING_CFG q → a ≠ RING_STATUS q → t.rd a = s.rd a)
    ∧ (RING_CFG_SIZE_LOG2.get v = 0 → ringType s q = 0xA ∧ cqOwed s q = true →
      ∃ t, exec (.ringDisable f q v) s = .next t ∧ t = { s with regs := t.regs, out := [] } ∧ ringOn t q = true
        ∧ t.rdF (RING_STATUS q) RING_STATUS_CFG_ERR = stInvalidDesc ∧ ∀ a, a ≠ RING_STATUS q → t.rd a = s.rd a)
    ∧ (RING_CFG_SIZE_LOG2.get v ≠ 0 →
      ∃ t, exec (.ringCfgModify f q v) s = .next t ∧ t = { s with regs := t.regs, out := [] } ∧
        if RING_CFG_SIZE_LOG2.get v = s.rdF (RING_CFG q) RING_CFG_SIZE_LOG2 ∧ RING_CFG_QTYPE.get v = ringType s q
            ∧ RING_CFG_CQ.get v = s.rdF (RING_CFG q) RING_CFG_CQ then
          t.rdF (RING_CFG q) RING_CFG_PRIORITY = RING_CFG_PRIORITY.get v ∧ t.rdF (RING_CFG q) RING_CFG_EVICTABLE = RING_CFG_EVICTABLE.get v
            ∧ t.rdF (RING_CFG q) RING_CFG_SIZE_LOG2 = RING_CFG_SIZE_LOG2.get v ∧ ringType t q = ringType s q
            ∧ ∀ a, a ≠ RING_CFG q → t.rd a = s.rd a
        else t.rdF (RING_STATUS q) RING_STATUS_CFG_ERR = stInvalidDesc ∧ ∀ a, a ≠ RING_STATUS q → t.rd a = s.rd a)

/-- R59, R60: a doorbell of an enabled submission ring becomes the producer index where the test accepts it; a value that fails leaves the index, sets DB_BAD and posts a RING_ERROR of kind 1; one to a disabled ring, or to a function in reset, is counted in FUNC_DB_DROPPED alone. R60, R70, R78: the host's consumer index of an EVENT or COMPLETION ring is taken where it lies between the old one and the producer index, both included; what waited for free entries follows: a gap report, or held completions. -/
def Obligations.DoorbellsMoveTheirIndices : Prop :=
  (∀ (q : RingId) (v : Word) (s : State), s.rdF (POWER_STATUS (powerDie s q.fn.ep)) POWER_STATUS_STATE = 0 →
    (ringOn s q = true → flrActive s q.fn = false → ringType s q < 9 →
      ((v.toNat + 2 ^ 32 - ringProd s q) % 2 ^ 32 ≤ (ringCons s q + ringSize s q + 2 ^ 32 - ringProd s q) % 2 ^ 32 →
        ∃ t, exec (.doorbell q v) s = .next t ∧ t = { s with regs := t.regs, out := [] } ∧ ringProd t q = v.toNat
          ∧ ∀ a, a ≠ RING_PRODUCER q → t.rd a = s.rd a)
      ∧ ((ringCons s q + ringSize s q + 2 ^ 32 - ringProd s q) % 2 ^ 32 < (v.toNat + 2 ^ 32 - ringProd s q) % 2 ^ 32 →
        exec (.doorbell q v) s = .next (ran (fun u => u |> wrB (RING_STATUS q) RING_STATUS_DB_BAD true
          |> post q.fn ⟨0x0002, q.ring, 1, s.now q.fn.ep, 1 + v.toNat * 2 ^ 32, q.fn.ep⟩) s)))
    ∧ (ringOn s q = false ∨ flrActive s q.fn = true →
      ∃ t, exec (.doorbell q v) s = .next t ∧ t = { s with regs := t.regs, out := [] }
        ∧ t.rdF (FUNC_DB_DROPPED q.fn) FUNC_DB_DROPPED_COUNT = min (2 ^ 32 - 1) (s.rdF (FUNC_DB_DROPPED q.fn) FUNC_DB_DROPPED_COUNT + 1)
        ∧ ∀ a, a ≠ FUNC_DB_DROPPED q.fn → t.rd a = s.rd a))
  ∧ (∀ (q : RingId) (v : Word) (s : State), s.rdF (POWER_STATUS (powerDie s q.fn.ep)) POWER_STATUS_STATE = 0 →
    ringOn s q = true → flrActive s q.fn = false → 9 ≤ ringType s q →
    (v.toNat + 2 ^ 32 - ringCons s q) % 2 ^ 32 ≤ (ringProd s q + 2 ^ 32 - ringCons s q) % 2 ^ 32 →
    (ringType s q = 9 → (s.fnAux q.fn).gap = 0 ∨ v.toNat = ringCons s q →
      ∃ t, exec (.consumerDoorbell q v) s = .next t ∧ t = { s with regs := t.regs, out := [] } ∧ ringCons t q = v.toNat
        ∧ ∀ a, a ≠ RING_CONSUMER q → t.rd a = s.rd a)
    ∧ (ringType s q = 9 → v.toNat ≠ ringCons s q →
      exec (.consumerDoorbell q v) s = .next (ran (fun u => u |> wr (RING_CONSUMER q) v |> reportGap q.fn.ep q.fn) s))
    ∧ (ringType s q ≠ 9 → frozen s q.fn = false →
      exec (.consumerDoorbell q v) s = .next (ran (fun u =>
        (ringsOf q.fn).foldl (fun t r => if ringOn t r ∧ ringType t r < 9 then refreshState r t else t)
          (u |> wr (RING_CONSUMER q) v |> drainHeld q.fn.ep q ((s.ringAux q).held.length + 1))) s)))

/-- R79, R80, R53: a message is due when the delay of the first counted entry passes; a write of RING_INT sends it at once where the new limits are already reached, and clearing INT_EN discards the count; a vector that is unmasked sends what was pending. R52, R53: BAR2 holds the MSI-X table, the address, data and mask of each of the 64 vectors, and from 0x1000 the pending bits; a message carries the address and data of its vector. -/
def Obligations.RingMessages : Prop :=
  (∀ (q : RingId) (s : State), s.flag (RING_INT q) RING_INT_INT_EN = true → (s.ringAux q).intCount ≠ 0 →
    (s.fnAux q.fn).unmasked.contains (s.rdF (RING_INT q) RING_INT_VECTOR) = true →
    ∃ t, exec (.intDelayExpiry q) s = .next t ∧ t = { s with rings := t.rings, out := t.out }
      ∧ t.out = [.msix q.fn (s.rdF (RING_INT q) RING_INT_VECTOR) (tget (0, 0) (s.rdF (RING_INT q) RING_INT_VECTOR) (s.fnAux q.fn).vectors).1
          (tget (0, 0) (s.rdF (RING_INT q) RING_INT_VECTOR) (s.fnAux q.fn).vectors).2] ∧ t.ringAux q = { s.ringAux q with intCount := 0, intFirst := 0 })
  ∧ (∀ (f : Fun) (q : RingId) (v : Word) (s : State), ringWriter s f q = true →
    (RING_INT_INT_EN.get v = 0 →
      ∃ t, exec (.ringIntWrite f q v) s = .next t ∧ t = { s with regs := t.regs, rings := t.rings, out := [] }
        ∧ t.rd (RING_INT q) = v &&& 0x83FF3F3F ∧ t.ringAux q = { s.ringAux q with intCount := 0, intFirst := 0 } ∧ ∀ a, a ≠ RING_INT q → t.rd a = s.rd a)
    ∧ (RING_INT_INT_EN.get v ≠ 0 → s.flag (RING_INT q) RING_INT_INT_EN = true → (s.ringAux q).intCount ≠ 0 → RING_INT_BATCH_M1.get v < (s.ringAux q).intCount →
      ∃ t, exec (.ringIntWrite f q v) s = .next t ∧ t.rd (RING_INT q) = v &&& 0x83FF3F3F ∧ (t.ringAux q).intCount = 0
        ∧ t.out = if (s.fnAux q.fn).unmasked.contains (RING_INT_VECTOR.get v) then [.msix q.fn (RING_INT_VECTOR.get v)
            (tget (0, 0) (RING_INT_VECTOR.get v) (s.fnAux q.fn).vectors).1 (tget (0, 0) (RING_INT_VECTOR.get v) (s.fnAux q.fn).vectors).2] else []))
  ∧ (∀ (f : Fun) (vec : Nat) (s : State),
    ∃ t, exec (.msixVectorUnmask f vec) s = .next t ∧ t = { s with fns := t.fns, out := t.out } ∧ vec ∈ (t.fnAux f).unmasked ∧ vec ∉ (t.fnAux f).pba
      ∧ t.out = if (s.fnAux f).pba.contains vec then [.msix f vec (tget (0, 0) vec (s.fnAux f).vectors).1 (tget (0, 0) vec (s.fnAux f).vectors).2] else [])
  ∧ (∀ (f : Fun) (vec : Nat) (v : Word) (s : State), vec < 64 → bar2Open s f = true →
    (∃ t, exec (.registerWrite f (0x4000000 + 16 * vec) v) s = .next t ∧ t = { s with fns := t.fns, out := [] }
      ∧ (tget (0, 0) vec (t.fnAux f).vectors).1 % 2 ^ 32 = v.toNat / 4 * 4
      ∧ (tget (0, 0) vec (t.fnAux f).vectors).1 / 2 ^ 32 = (tget (0, 0) vec (s.fnAux f).vectors).1 / 2 ^ 32
      ∧ ∀ n, n ≠ vec → tget (0, 0) n (t.fnAux f).vectors = tget (0, 0) n (s.fnAux f).vectors)
    ∧ (∃ t, exec (.registerWrite f (0x4000000 + 16 * vec + 4) v) s = .next t ∧ t = { s with fns := t.fns, out := [] }
      ∧ (tget (0, 0) vec (t.fnAux f).vectors).1 = (tget (0, 0) vec (s.fnAux f).vectors).1 % 2 ^ 32 + v.toNat * 2 ^ 32)
    ∧ (∃ t w, exec (.registerWrite f (0x4000000 + 16 * vec + 8) v) s = .next t ∧ t = { s with fns := t.fns, out := [] }
      ∧ tget (0, 0) vec (t.fnAux f).vectors = ((tget (0, 0) vec (s.fnAux f).vectors).1, v.toNat)
      ∧ exec (.loRead f (0x4000000 + 16 * vec + 8)) t = .next w ∧ w.readData = v)
    ∧ (v.toNat % 2 = 1 → ∃ t w, exec (.registerWrite f (0x4000000 + 16 * vec + 12) v) s = .next t ∧ t = { s with fns := t.fns, out := [] }
      ∧ vec ∉ (t.fnAux f).unmasked ∧ (t.fnAux f).pba = (s.fnAux f).pba ∧ exec (.loRead f (0x4000000 + 16 * vec + 12)) t = .next w ∧ w.readData = 1)
    ∧ (v.toNat % 2 = 0 → exec (.registerWrite f (0x4000000 + 16 * vec + 12) v) s = exec (.msixVectorUnmask f vec) s)
    ∧ ∃ t, exec (.loRead f (0x4000000 + 0x1000 + 4 * (vec / 32))) s = .next t ∧ t.readData.getLsbD (vec % 32) = (s.fnAux f).pba.contains vec)

/-- R61, R66, R91: a fetch reads the slot of the consumer index, passes it, and hands the descriptor to its checks; a slot that cannot be read stops the ring with FETCH_FAULT and a RING_ERROR of kind 2; with no covered slot nothing is fetched. -/
def Obligations.FetchTakesTheNextSlot : Prop :=
  ∀ (q : RingId) (s : State), ringServes s q = true →
    (ringProd s q = ringCons s q → exec (.descriptorFetch q) s = .next (fresh s))
    ∧ (idxDiff (ringProd s q) (ringCons s q) ≠ 0 →
      (∀ bs s1, dmaRead q.fn.ep q.fn q.ring (ringBase s q + 64 * (ringCons s q % ringSize s q)) 64 9 (fresh s) = (.ok bs, s1) →
        dChain (descOf bs) = false → holdsBack q s1 (descOf bs) = false →
        exec (.descriptorFetch q) s = .next (ran (fun _ => submitAll (opFor (ringType s1 q)) q [descOf bs] none (passSlots q 1 s1)) s))
      ∧ (∀ err s1, dmaRead q.fn.ep q.fn q.ring (ringBase s q + 64 * (ringCons s q % ringSize s q)) 64 9 (fresh s) = (.error err, s1) →
        exec (.descriptorFetch q) s = .next (ran (fun _ => s1 |> wrB (RING_STATUS q) RING_STATUS_FETCH_FAULT true
          |> wrF (RING_STATUS q) RING_STATUS_STATE 3
          |> post q.fn ⟨0x0002, q.ring, 1, s1.now q.fn.ep, 2 + ringCons s q * 2 ^ 32, q.fn.ep⟩) s)))

/-- R65: the word that a WAIT_VALUE reads decides: while COND does not hold the ring goes on waiting, once it holds the descriptor completes with OK; when its time limit passes first it completes with TIMEOUT, and a limit of 0 never passes. R72, R73: a descriptor that waited for its fence begins once nothing holds it back; one with FENCE_SIGNAL adds one to the 64-bit fence count of its ring, writes the count to RING_FENCE, and then posts its DONE. -/
def Obligations.FencesAndWaitsHoldAndEnd : Prop :=
  (∀ (q : RingId) (s : State) (tag addr value cond limit : Nat), (s.ringAux q).wait = some (tag, addr, value, cond, limit) →
    (∀ bs s1, dmaRead q.fn.ep q.fn q.ring addr 8 9 (fresh s) = (.ok bs, s1) →
      (condHolds cond (ofLe bs) value = false → exec (.waitValuePoll q) s = .next (ran (fun _ => s1) s))
      ∧ (condHolds cond (ofLe bs) value = true → exec (.waitValuePoll q) s =
          .next (ran (fun _ => s1 |> setRing q { s1.ringAux q with wait := none } |> finish ⟨q, 0, 0, 0, tag⟩ stOk 0) s)))
    ∧ (limit ≠ 0 → exec (.waitValueTimeout q) s =
        .next (ran (fun u => u |> setRing q { s.ringAux q with wait := none } |> finish ⟨q, 0, 0, 0, tag⟩ stTimeout 0) s))
    ∧ (limit = 0 → exec (.waitValueTimeout q) s = .next (fresh s)))
  ∧ ((∀ (q : RingId) (f : Flight) (s : State), flrActive s q.fn = false → frozen s q.fn = false → (s.ringAux q).flights = [f] → f.phase = 0 →
    mayBegin q f (fresh s) = true → flightStopped q f (fresh s) = false →
    exec (.fenceWaitRelease q) s = .next (ran (fun u => u |> begin_ (opFor (dQtype f.first)) q f |> settle q) s))
  ∧ (∀ (q : RingId) (f : Flight) (r : List Flight) (s s2 : State), (s.ringAux q).flights = f :: r → f.phase = 2 → dFenceSignal f.first = true →
    dmaWriteRaw q.fn.ep q.fn (s.rd64 (RING_FENCE_LO q)) (leBytes 8 ((s.rd64 (RING_FENCE_COUNT_LO q) + 1) % 2 ^ 64))
      (fresh s |> wr64 (RING_FENCE_COUNT_LO q) ((s.rd64 (RING_FENCE_COUNT_LO q) + 1) % 2 ^ 64) |> setRing q { s.ringAux q with flights := r }) = (none, s2) →
    s2.rd64 (RING_FENCE_COUNT_LO q) = (s.rd64 (RING_FENCE_COUNT_LO q) + 1) % 2 ^ 64
      ∧ exec (.fenceSignal q) s = .next (ran (fun _ => s2 |> postDone q f |> settle q) s)))

/-- R65: NOP completes with OK and does nothing else; TIMESTAMP writes the device time, WRITE_VALUE its value, as eight bytes at ADDR, low byte first. Stated for PF0 with both stages off. -/
def Obligations.CommonOpcodesAct : Prop :=
  ∀ (q : RingId) (d : Desc) (s : State), s.Inv → q.fn.fn = 0 → s.rdF (XLATE_CTRL q.fn) XLATE_CTRL_S1_EN = 0 →
    s.rdF (XLATE_CTRL q.fn) XLATE_CTRL_S2_EN = 0 → s.split = false → s.tlb = [] → dget d 8 0 64 + 8 ≤ 2 ^ 48 → dget d 8 0 64 % 8 = 0 →
    (∀ u, worked opNop q d u = (some (stOk, 0), handed opNop q d u))
    ∧ (worked opTimestamp q d (fresh s)).1 = some (stOk, 0)
    ∧ (worked opTimestamp q d (fresh s)).2.out = [.mem (hostKey s q.fn.ep (dget d 8 0 64)) (leBytes 8 (s.now q.fn.ep))]
    ∧ (worked opWriteValue q d (fresh s)).1 = some (stOk, 0)
    ∧ (worked opWriteValue q d (fresh s)).2.out = [.mem (hostKey s q.fn.ep (dget d 8 0 64)) (leBytes 8 (dget d 16 0 64))]

/-- R89, Table 1.4: at the effect point of its kind a change that waits takes effect, and its FURTHER is posted: a deleted route is live no more, a modified one has its new sink and PARAMS and waits for nothing; before that point nothing changes. For an audio route this event, the end of its crossfade, is the point itself; a haptic or trigger route's point has come where its channel runs nothing, a layer's or a Garnet window's where its head is off. -/
def Obligations.RouteChangeTakesEffectAtItsPoint : Prop :=
  ∀ (h : Nat) (r : Route) (c : RouteChange) (s : State), s.route h = some r → r.change = some c →
    (effectNow s h r = true → ∃ t, exec (.routeChangeEffect h) s = .next t ∧ t.pending = s.pending
      ∧ t.route h = (if c.delete then none else some { r with sink := c.sink, params := c.params, change := none })
      ∧ t = ran (fun u =>
          (match c.ticket with
           | some k => postLast k 2 stOk 0
           | none => id) (if c.delete then routeGone h u else routeModified h r c u)) s)
    ∧ (effectNow s h r = false → exec (.routeChangeEffect h) s = .next (fresh s))
    ∧ (r.kind = 3 → effectNow s h r = true)
    ∧ (r.kind = 5 → effectNow s h r = (s.hap (epUnit r.source)).run.isNone)
    ∧ (r.kind = 6 → effectNow s h r = (s.hap (epUnit r.sink)).run.isNone)
    ∧ (r.kind = 1 → effectNow s h r = decide ((s.head (epUnit (if c.delete then r.sink else c.sink))).phase = 0))
    ∧ (r.kind = 8 → effectNow s h r = decide ((s.head (epUnit r.sink)).phase = 0))

/-- R26, R31: a window gives PACE the lowest count over 10.24 µs, rounded down; the units whose floor is reached start, in their order; then the loop takes its step and shortfall is judged. 1 ms after its raise the oldest unit starts anyway. -/
def Obligations.WindowMeasuresPace : Prop :=
  (∀ (d : Die) (counts : List Nat) (s : State), counts ≠ [] → s.inReset.contains .fabric = false →
    ∃ u : State, (u = { s with regs := u.regs, out := [] } ∧ u.rdF (PACE_STATUS d) PACE_STATUS_PACE = min 0xFFFF (counts.foldl min (counts.headD 0) * 100 / 1024)
        ∧ u.rdF (PACE_FLOOR d) PACE_FLOOR_FLOOR = (floorOf s d).1 % 2 ^ 16)
      ∧ exec (.paceWindow d counts) s = .next (ran (fun _ =>
          u |> endRaises d ((s.paceOf d).raises.filter (fun r => decide (r.floor ≤ u.rdF (PACE_STATUS d) PACE_STATUS_PACE))) |> loopStep d |> shortfall d) s))
  ∧ (∀ (d : Die) (r : Raise) (rest : List Raise) (s : State), (s.paceOf d).raises = r :: rest →
      exec (.floorRaiseTimeout d) s = .next (ran (endRaises d [r]) s))

/-- R32, R51: a command of the loop moves the rail up by STEP_UP_MV below TARGET_EFF and down by STEP_DOWN_MV above TARGET_EFF + HYST, is clamped to the limits, and leaves the rail alone in between. R36: a write of PACE_MANUAL with the loop off, and a write that turns the loop off, send PACE_MANUAL clamped to the limits. R51: a write of AVS_LIMITS clamps each half to 600–900 mV and is ignored as a whole where the minimum would exceed the maximum. R33, R34: a voltage write that succeeds is over; one that fails is sent again, up to three times; a voltage read gives AVS_READBACK its value, and a read of either kind that fails counts one retry and leaves AVS_READBACK as it was; a write of 1 to AVS_FAULT clears it; after the third failed retry AVS_FAULT is set, and nothing more is sent. Every frame names the rail of AVS_CTRL.RAIL_SEL. -/
def Obligations.RegulatorIsCommanded : Prop :=
  ((∀ (d : Die) (s : State), s.flag (PACE_LOOP_CTRL d) PACE_LOOP_CTRL_LOOP_EN = true →
    s.flag (AVS_STATUS d) AVS_STATUS_AVS_FAULT = false →
    (s.rdF (PACE_STATUS d) PACE_STATUS_PACE < s.rdF (PACE_STATUS d) PACE_STATUS_TARGET_EFF →
      (loopStep d s).out = s.out ++ [.avs d (s.rdF (AVS_CTRL d) AVS_CTRL_RAIL_SEL) 0 (clampMv s d (railMv s d + s.rdF (PACE_LOOP_CTRL d) PACE_LOOP_CTRL_STEP_UP_MV))])
    ∧ (s.rdF (PACE_STATUS d) PACE_STATUS_TARGET_EFF + s.rdF (PACE_MARGIN d) PACE_MARGIN_HYST < s.rdF (PACE_STATUS d) PACE_STATUS_PACE →
      (loopStep d s).out = s.out ++ [.avs d (s.rdF (AVS_CTRL d) AVS_CTRL_RAIL_SEL) 0 (clampMv s d (railMv s d - s.rdF (PACE_LOOP_CTRL d) PACE_LOOP_CTRL_STEP_DOWN_MV))])
    ∧ (s.rdF (PACE_STATUS d) PACE_STATUS_TARGET_EFF ≤ s.rdF (PACE_STATUS d) PACE_STATUS_PACE →
      s.rdF (PACE_STATUS d) PACE_STATUS_PACE ≤ s.rdF (PACE_STATUS d) PACE_STATUS_TARGET_EFF + s.rdF (PACE_MARGIN d) PACE_MARGIN_HYST → loopStep d s = s))
  ∧ (∀ (f : Fun) (v : Word) (s : State), (accessRow s f 0x200010).isSome = true → s.flag (PACE_LOOP_CTRL f.ep) PACE_LOOP_CTRL_LOOP_EN = false →
    s.flag (AVS_STATUS f.ep) AVS_STATUS_AVS_FAULT = false →
    ∃ t, exec (.paceManualWrite f v) s = .next t ∧ t = { s with regs := t.regs, pace := t.pace, out := t.out }
      ∧ t.out = [.avs f.ep (s.rdF (AVS_CTRL f.ep) AVS_CTRL_RAIL_SEL) 0 (clampMv s f.ep (PACE_MANUAL_MV.get v))] ∧ t.rdF (PACE_MANUAL f.ep) PACE_MANUAL_MV = PACE_MANUAL_MV.get v
      ∧ t.rdF (AVS_STATUS f.ep) AVS_STATUS_VOUT_MV = clampMv s f.ep (PACE_MANUAL_MV.get v) % 2 ^ 16
      ∧ ∀ a, a ≠ PACE_MANUAL f.ep → a ≠ AVS_STATUS f.ep → t.rd a = s.rd a)
  ∧ (∀ (f : Fun) (v : Word) (s : State), (accessRow s f 0x200014).isSome = true → s.flag (AVS_STATUS f.ep) AVS_STATUS_AVS_FAULT = false →
    ∃ t, exec (.paceLoopCtrlWrite f v) s = .next t ∧ t = { s with regs := t.regs, pace := t.pace, out := t.out }
      ∧ t.rdF (PACE_LOOP_CTRL f.ep) PACE_LOOP_CTRL_LOOP_EN = PACE_LOOP_CTRL_LOOP_EN.get v
      ∧ t.rdF (PACE_LOOP_CTRL f.ep) PACE_LOOP_CTRL_STEP_DOWN_MV = PACE_LOOP_CTRL_STEP_DOWN_MV.get v
      ∧ t.out = (if s.flag (PACE_LOOP_CTRL f.ep) PACE_LOOP_CTRL_LOOP_EN ∧ PACE_LOOP_CTRL_LOOP_EN.get v = 0
          then [.avs f.ep (s.rdF (AVS_CTRL f.ep) AVS_CTRL_RAIL_SEL) 0 (clampMv s f.ep (s.rdF (PACE_MANUAL f.ep) PACE_MANUAL_MV))] else [])
      ∧ ∀ a, a ≠ PACE_LOOP_CTRL f.ep → a ≠ AVS_STATUS f.ep → t.rd a = s.rd a)
  ∧ (∀ (f : Fun) (v : Word) (s : State), (accessRow s f 0x200024).isSome = true →
    ∃ t, exec (.avsLimitsWrite f v) s = .next t ∧ t = { s with regs := t.regs, out := [] } ∧ (∀ a, a ≠ AVS_LIMITS f.ep → t.rd a = s.rd a)
      ∧ if max 600 (min 900 (AVS_LIMITS_VMAX_MV.get v)) < max 600 (min 900 (AVS_LIMITS_VMIN_MV.get v)) then t.rd (AVS_LIMITS f.ep) = s.rd (AVS_LIMITS f.ep)
        else t.rdF (AVS_LIMITS f.ep) AVS_LIMITS_VMAX_MV = max 600 (min 900 (AVS_LIMITS_VMAX_MV.get v))
          ∧ t.rdF (AVS_LIMITS f.ep) AVS_LIMITS_VMIN_MV = max 600 (min 900 (AVS_LIMITS_VMIN_MV.get v))))
  ∧ ((∀ (d : Die) (result : Nat) (alert : Bool) (mv n : Nat) (s : State), (s.paceOf d).frame = some (mv, n) →
    (result = 0 → ∃ t, exec (.avsFrameDone d result alert) s = .next t ∧ t = { s with regs := t.regs, pace := t.pace, out := [] } ∧ (t.paceOf d).frame = none
      ∧ t.flag (AVS_STATUS d) AVS_STATUS_ALERT = alert ∧ ∀ a, a ≠ AVS_STATUS d → t.rd a = s.rd a)
    ∧ (result ≠ 0 → n < 3 → ∃ t, exec (.avsFrameDone d result alert) s = .next t ∧ t = { s with regs := t.regs, pace := t.pace, out := t.out }
      ∧ (t.paceOf d).frame = some (mv, n + 1) ∧ t.out = [.avs d (s.rdF (AVS_CTRL d) AVS_CTRL_RAIL_SEL) 0 mv]
      ∧ t.rdF (AVS_STATUS d) AVS_STATUS_RETRIES = min 255 (s.rdF (AVS_STATUS d) AVS_STATUS_RETRIES + 1) ∧ ∀ a, a ≠ AVS_STATUS d → t.rd a = s.rd a)
    ∧ (result ≠ 0 → 3 ≤ n → s.flag (AVS_STATUS d) AVS_STATUS_AVS_FAULT = false → s.flag (PACE_LOOP_CTRL d) PACE_LOOP_CTRL_EV_AVS_FAULT = false →
      ∃ t, exec (.avsFrameDone d result alert) s = .next t ∧ t = { s with regs := t.regs, pace := t.pace, rinlar := t.rinlar, out := [] }
        ∧ (t.paceOf d).frame = none ∧ t.flag (AVS_STATUS d) AVS_STATUS_AVS_FAULT = true ∧ ∀ a, a ≠ AVS_STATUS d → t.rd a = s.rd a))
  ∧ (∀ (d : Die) (result : Nat) (alert : Bool) (s : State), (s.paceOf d).frame = none →
    (result = 0 → ∃ t, exec (.avsFrameDone d result alert) s = .next t ∧ t = { s with regs := t.regs, pace := t.pace, out := t.out }
      ∧ t.out = [.avs d (s.rdF (AVS_CTRL d) AVS_CTRL_RAIL_SEL) 2 0] ∧ t.flag (AVS_STATUS d) AVS_STATUS_ALERT = alert ∧ ∀ a, a ≠ AVS_STATUS d → t.rd a = s.rd a)
    ∧ (result ≠ 0 → (s.paceOf d).statusTries < 3 → ∃ t, exec (.avsFrameDone d result alert) s = .next t ∧ t = { s with regs := t.regs, pace := t.pace, out := t.out }
      ∧ t.out = [.avs d (s.rdF (AVS_CTRL d) AVS_CTRL_RAIL_SEL) 2 0] ∧ (t.paceOf d).statusTries = (s.paceOf d).statusTries + 1
      ∧ t.rdF (AVS_STATUS d) AVS_STATUS_RETRIES = min 255 (s.rdF (AVS_STATUS d) AVS_STATUS_RETRIES + 1) ∧ ∀ a, a ≠ AVS_STATUS d → t.rd a = s.rd a))
  ∧ (∀ (d : Die) (result mv : Nat) (s : State), s.flag (AVS_CTRL d) AVS_CTRL_READBACK_EN = true → mv < 2 ^ 16 →
    (result = 0 → ∃ t, exec (.avsReadback d result mv) s = .next t ∧ t = { s with regs := t.regs, pace := t.pace, out := t.out }
      ∧ t.out = [.avs d (s.rdF (AVS_CTRL d) AVS_CTRL_RAIL_SEL) 1 0] ∧ t.rdF (AVS_READBACK d) AVS_READBACK_VREAD_MV = mv
      ∧ ∀ a, a ≠ AVS_READBACK d → t.rd a = s.rd a)
    ∧ (result ≠ 0 → (s.paceOf d).readTries < 3 → ∃ t, exec (.avsReadback d result mv) s = .next t ∧ t = { s with regs := t.regs, pace := t.pace, out := t.out }
      ∧ t.out = [.avs d (s.rdF (AVS_CTRL d) AVS_CTRL_RAIL_SEL) 1 0] ∧ (t.paceOf d).readTries = (s.paceOf d).readTries + 1
      ∧ t.rdF (AVS_STATUS d) AVS_STATUS_RETRIES = min 255 (s.rdF (AVS_STATUS d) AVS_STATUS_RETRIES + 1) ∧ ∀ a, a ≠ AVS_STATUS d → t.rd a = s.rd a))
  ∧ (∀ (f : Fun) (s : State), (accessRow s f 0x200028).isSome = true →
    ∃ t, exec (.avsFaultClear f) s = .next t ∧ t = { s with regs := t.regs, out := [] } ∧ t.flag (AVS_STATUS f.ep) AVS_STATUS_AVS_FAULT = false
      ∧ t.rdF (AVS_STATUS f.ep) AVS_STATUS_VOUT_MV = s.rdF (AVS_STATUS f.ep) AVS_STATUS_VOUT_MV ∧ ∀ a, a ≠ AVS_STATUS f.ep → t.rd a = s.rd a))

/-- R42, R43: a pulse with no event outstanding leaves at once with a count of 1; with one outstanding it is counted under MERGE, up to 0xFFFF, and lost with OVERRUN under FLAG. R47: a pulse toward a reset side is counted as dropped. R44, R45: the acknowledge ends the event; pulses that MERGE counted go out as one further event; a change of mode that waited is then in effect. A mode written with no event outstanding is in effect at once. R41: a value crosses in its order; R38: crossing 0xC4 carries the device-time counter as it stands, and the two halves of a rejoin's offset begin the slew when the second has crossed. -/
def Obligations.CrossingEventsMergeFlagAndAcknowledge : Prop :=
  (∀ (d : Die) (n : Nat) (s : State), xingPresent s.part d n = true → s.inReset.contains .fabric = false → s.flag (XING_CFG d n) XING_CFG_KIND = true →
    ∃ t, exec (.xingPulse d n) s = .next t ∧ t = { s with regs := t.regs, xings := t.xings, out := [] }
      ∧ (∀ e m, m ≤ 0xFF → ¬(e = d ∧ m = n) → t.xing e m = s.xing e m)
      ∧ if s.flag (XING_STATUS d n) XING_STATUS_PEER_RESET then
          t.xing d n = s.xing d n ∧ t.rdF (XING_DROPPED d n) XING_DROPPED_DROPPED_ON_PEER_RESET
              = min (2 ^ 32 - 1) (s.rdF (XING_DROPPED d n) XING_DROPPED_DROPPED_ON_PEER_RESET + 1)
            ∧ ∀ a, a ≠ XING_DROPPED d n → t.rd a = s.rd a
        else if s.flag (XING_STATUS d n) XING_STATUS_OUTSTANDING = false then
          t.flag (XING_STATUS d n) XING_STATUS_OUTSTANDING = true ∧ (t.xing d n).count = 0 ∧ (t.xing d n).sent = 1
            ∧ ((s.xing d n).stopped = false → t.rdF (XING_COUNT d n) XING_COUNT_LAST_COUNT = 1)
            ∧ ∀ a, a ≠ XING_STATUS d n → a ≠ XING_COUNT d n → t.rd a = s.rd a
        else if s.flag (XING_CFG d n) XING_CFG_MODE then
          t.xing d n = s.xing d n ∧ t.flag (XING_STATUS d n) XING_STATUS_OVERRUN = true
            ∧ t.rdF (XING_STATUS d n) XING_STATUS_OVERRUN_COUNT = min 0xFFFF (s.rdF (XING_STATUS d n) XING_STATUS_OVERRUN_COUNT + 1)
            ∧ ∀ a, a ≠ XING_STATUS d n → a ≠ TOUCH_STATUS d → t.rd a = s.rd a
        else (t.xing d n).count = min 0xFFFF ((s.xing d n).count + 1)
            ∧ ((t.xing d n).count = 0xFFFF → t.flag (XING_STATUS d n) XING_STATUS_COUNT_SAT = true)
            ∧ ∀ a, a ≠ XING_STATUS d n → t.rd a = s.rd a)
  ∧ ((∀ (d : Die) (n : Nat) (s : State), xingUp s d n = true → s.flag (XING_CFG d n) XING_CFG_KIND = true →
    s.flag (XING_STATUS d n) XING_STATUS_OUTSTANDING = true → (s.xing d n).stopped = false →
    ∃ t, exec (.xingAck d n) s = .next t ∧ t = { s with regs := t.regs, xings := t.xings, out := [] }
      ∧ t.flag (XING_STATUS d n) XING_STATUS_OUTSTANDING = ((s.xing d n).count != 0) ∧ (t.xing d n).count = 0 ∧ (t.xing d n).sent = (s.xing d n).count
      ∧ ((s.xing d n).count ≠ 0 → t.rdF (XING_COUNT d n) XING_COUNT_LAST_COUNT = (s.xing d n).count % 2 ^ 16)
      ∧ (t.xing d n).nextMode = none
      ∧ t.rdF (XING_CFG d n) XING_CFG_MODE = (match (s.xing d n).nextMode with
          | some m => m % 2
          | none => s.rdF (XING_CFG d n) XING_CFG_MODE)
      ∧ ∀ a, a ≠ XING_STATUS d n → a ≠ XING_COUNT d n → a ≠ XING_CFG d n → t.rd a = s.rd a)
  ∧ (∀ (f : Fun) (n : Nat) (v : Word) (s : State), n ≤ 0xFF → (accessRow s f (0x201000 + 0x10 * n)).isSome = true → xingPresent s.part f.ep n = true →
    s.flag (XING_CFG f.ep n) XING_CFG_KIND = true →
    ∃ t, exec (.xingModeWrite f n v) s = .next t ∧ t = { s with regs := t.regs, xings := t.xings, out := [] } ∧ (∀ a, a ≠ XING_CFG f.ep n → t.rd a = s.rd a)
      ∧ if s.flag (XING_STATUS f.ep n) XING_STATUS_OUTSTANDING then
          t.xing f.ep n = { s.xing f.ep n with nextMode := some (XING_CFG_MODE.get v) } ∧ t.rd (XING_CFG f.ep n) = s.rd (XING_CFG f.ep n)
        else t.xings = s.xings ∧ t.rdF (XING_CFG f.ep n) XING_CFG_MODE = XING_CFG_MODE.get v)
  ∧ (∀ (d : Die) (s : State), xingUp s d 0xC4 = true → s.flag (XING_CFG d 0xC4) XING_CFG_KIND = false → (s.xing d 0xC4).stopped = false →
    ∃ t, exec (.valueCrossing d 0xC4) s = .next t ∧ t = { s with timeA := t.timeA, timeB := t.timeB, out := [] } ∧ t.now d = (s.tbase d).counter
      ∧ ∀ e, e ≠ d → t.now e = s.now e)
  ∧ (∀ (d : Die) (n a : Nat) (v : Word) (rest : List (Nat × Word)) (s : State), n ≠ 0xC4 → xingUp s d n = true → s.flag (XING_CFG d n) XING_CFG_KIND = false →
    (s.xing d n).stopped = false → (s.xing d n).queue = (a, v) :: rest →
    ∃ t, exec (.valueCrossing d n) s = .next t ∧ t = { s with regs := t.regs, xings := t.xings, island := t.island, tbases := t.tbases, out := [] } ∧ t.isl a = v
      ∧ (a ≠ slewHi d → t.tbases = s.tbases)
      ∧ (a = slewHi d → t.tbase d = { s.tbase d with slew := sgn 64 ((s.isl (slewLo d)).toNat + 2 ^ 32 * v.toNat), cycles := 0 })
      ∧ (∀ b, b ≠ a → t.isl b = s.isl b) ∧ (t.xing d n).queue = rest
      ∧ t.flag (XING_STATUS d n) XING_STATUS_OUTSTANDING = (rest != []) ∧ ∀ b, b ≠ XING_STATUS d n → t.rd b = s.rd b))

/-- R46: a stopped island clock holds what crosses and loses nothing; 256 REFCLK cycles set STALLED; when the clock returns, transfer goes on from where it stopped: an event that was held is delivered with its count. R47, R48: when a side enters reset, everything in flight toward it is discarded and counted, an event not yet taken and what was merged behind it as one item each, and PEER_RESET is set; items that the island discards on its own side are counted when the sides resynchronise; the hand-shake after its release clears PEER_RESET and raises no event. -/
def Obligations.IslandsHoldOrDropWhatCrosses : Prop :=
  let dropped (d : Die) (n : Nat) (s : State) : Nat :=
    (if s.flag (XING_CFG d n) XING_CFG_KIND = true ∧ (s.xing d n).stopped = true ∧ (s.xing d n).sent ≠ 0 then 1 else 0)
      + (if (s.xing d n).count = 0 then 0 else 1) + (s.xing d n).queue.length
  ((∀ (d : Die) (island : Nat) (s : State),
    ∃ t, exec (.islandClockStop d island) s = .next t ∧ t = { s with xings := t.xings, out := [] }
      ∧ ∀ n, n ≤ 0xFF → t.xing d n = if n ∈ islandXings island then { s.xing d n with stopped := true } else s.xing d n)
  ∧ (∀ (d : Die) (n : Nat) (s : State), xingUp s d n = true → s.flag (XING_STATUS d n) XING_STATUS_OUTSTANDING = true →
    ∃ t, exec (.xingStallTimeout d n) s = .next t ∧ t = { s with regs := t.regs, out := [] } ∧ t.flag (XING_STATUS d n) XING_STATUS_STALLED = true
      ∧ t.flag (XING_STATUS d n) XING_STATUS_OUTSTANDING = true ∧ ∀ a, a ≠ XING_STATUS d n → t.rd a = s.rd a)
  ∧ (∀ (d : Die) (island : Nat) (s : State),
    ∃ t, exec (.islandClockResume d island) s = .next t ∧ t = { s with regs := t.regs, xings := t.xings, out := [] }
      ∧ (∀ n, n ≤ 0xFF → t.xing d n = if n ∈ islandXings island then { s.xing d n with stopped := false } else s.xing d n)
      ∧ (∀ n, n ≤ 0xFF → n ∈ islandXings island → (s.xing d n).stopped = true → (s.xing d n).sent ≠ 0 →
          t.rdF (XING_COUNT d n) XING_COUNT_LAST_COUNT = (s.xing d n).sent % 2 ^ 16 ∧ t.flag (XING_STATUS d n) XING_STATUS_STALLED = false)
      ∧ ∀ a, (∀ n, n ≤ 0xFF → n ∈ islandXings island → a ≠ XING_COUNT d n ∧ a ≠ XING_STATUS d n) → t.rd a = s.rd a))
  ∧ ((∀ (d : Die) (n : Nat) (s : State), xingPresent s.part d n = true → s.inReset.contains .fabric = false →
    ∃ t, exec (.xingPeerReset d n) s = .next t ∧ t = { s with regs := t.regs, xings := t.xings, garnets := t.garnets, out := [] }
      ∧ (t.xing d n).count = 0 ∧ (t.xing d n).sent = 0 ∧ (t.xing d n).queue = [] ∧ t.flag (XING_STATUS d n) XING_STATUS_PEER_RESET = true
      ∧ t.flag (XING_STATUS d n) XING_STATUS_OUTSTANDING = false
      ∧ t.rdF (XING_DROPPED d n) XING_DROPPED_DROPPED_ON_PEER_RESET = min (2 ^ 32 - 1) (s.rdF (XING_DROPPED d n) XING_DROPPED_DROPPED_ON_PEER_RESET
          + (if s.flag (XING_CFG d n) XING_CFG_KIND = true ∧ towardIsland n = false then 0 else dropped d n s))
      ∧ (t.xing d n).ownDropped = (s.xing d n).ownDropped + (if s.flag (XING_CFG d n) XING_CFG_KIND = true ∧ towardIsland n = false then dropped d n s else 0))
  ∧ (∀ (d : Die) (n island : Nat) (s : State), island < 31 → n ∈ islandXings island → islandOut s d island = true →
    ∃ t, exec (.xingResync d n) s = .next t ∧ t = { s with regs := t.regs, xings := t.xings, out := [] } ∧ t.flag (XING_STATUS d n) XING_STATUS_PEER_RESET = false
      ∧ t.xing d n = { s.xing d n with ownDropped := 0 }
      ∧ t.rdF (XING_DROPPED d n) XING_DROPPED_DROPPED_ON_PEER_RESET
          = min (2 ^ 32 - 1) (s.rdF (XING_DROPPED d n) XING_DROPPED_DROPPED_ON_PEER_RESET + (s.xing d n).ownDropped)
      ∧ t.flag (XING_STATUS d n) XING_STATUS_OUTSTANDING = s.flag (XING_STATUS d n) XING_STATUS_OUTSTANDING
      ∧ ∀ a, a ≠ XING_STATUS d n → a ≠ XING_DROPPED d n → t.rd a = s.rd a))

/-- R95, R97, R121: TENANT_CREATE gives the VF its grants and shows them; TENANT_MODIFY changes all but CLASS and GPU_DIE; STATE_SIZE answers the image size in 4 KiB units; no other tenant changes. R97, R121: a tenant under destruction is gone once its last route is, its scrubbed grants are back in the pools, and the FURTHER follows; a freeze that waits is done once every part is at rest: FROZEN is set and the DONE follows. -/
def Obligations.TenantsHoldGrantsAndEnd : Prop :=
  (∀ (q : RingId) (d : Desc) (s : State) (f : Fun), f = ⟨q.fn.ep, dget d 8 0 6⟩ → 1 ≤ f.fn → f.fn ≤ 31 →
    (worked opTenantCreate q d s).1 = some (stOk, 0)
    ∧ (worked opTenantCreate q d s).2.tenant f = some ⟨d, none, none⟩
    ∧ (worked opTenantCreate q d s).2.flag (TENANT_CFG f) TENANT_CFG_CREATED = true
    ∧ (worked opTenantCreate q d s).2.rdF (TENANT_CFG f) TENANT_CFG_CLASS = dget d 9 0 2
    ∧ (worked opTenantCreate q d s).2.rdF (TENANT_CFG f) TENANT_CFG_GPU_CTX = dget d 11 0 5
    ∧ (∀ g : Fun, g.fn ≤ 31 → g ≠ f → (worked opTenantCreate q d s).2.tenant g = s.tenant g)
    ∧ (∀ x, s.tenant f = some x →
      (worked opTenantModify q d s).1 = some (stOk, 0)
      ∧ (∃ g, (worked opTenantModify q d s).2.tenant f = some { x with grants := g } ∧ dget g 9 0 8 = dget x.grants 9 0 8 ∧ dget g 10 0 8 = dget x.grants 10 0 8
          ∧ ∀ i, i < 64 → i ≠ 9 → i ≠ 10 → dget g i 0 8 = dget d i 0 8)
      ∧ (∀ g : Fun, g.fn ≤ 31 → g ≠ f → (worked opTenantModify q d s).2.tenant g = s.tenant g)
      ∧ (worked opStateSize q d s) = (some (stOk, ((16 + 64 * dget x.grants 11 0 8 + 4 * dget x.grants 16 0 8 + 8 * dget x.grants 17 0 8 + 2 * dget x.grants 18 0 8
          + ((upto 8).filter (nbit (dget x.grants 19 0 8))).length + dget x.grants 20 0 16) + 3) / 4), handed opStateSize q d s)))
  ∧ ((∀ (f : Fun) (fails : List Nat) (x : Tenant) (tk : Ticket) (s : State), s.tenant f = some x → x.destroying = some (some tk) → grantedRoutes s f = [] → f.fn ≤ 31 →
    ∃ u, (u.tenant f = none ∧ u.routes = s.routes ∧ u.flag (TENANT_CFG f) TENANT_CFG_CREATED = false ∧ u.flag (FUNC_STATUS f) FUNC_STATUS_FROZEN = false
        ∧ ∀ g : Fun, g.fn ≤ 31 → g ≠ f → u.tenant g = s.tenant g)
      ∧ exec (.tenantDestroyDone f fails) s = .next (ran (fun _ => postLast tk 2 stOk 0 u) s))
  ∧ (∀ (f : Fun) (x : Tenant) (tk : Ticket) (s : State), s.tenant f = some x → x.freezing = some tk → partsFrozen s f = true →
    ∃ u, (u = { s with regs := u.regs, tenants := u.tenants, out := [] } ∧ u.tenant f = some { x with freezing := none }
        ∧ frozen u f = true ∧ u.flag (TENANT_CFG f) TENANT_CFG_FROZEN = true ∧ ∀ a, a ≠ FUNC_STATUS f → a ≠ TENANT_CFG f → u.rd a = s.rd a)
      ∧ exec (.tenantFreezeDone f) s = .next (ran (fun _ => finish tk stOk 0 u) s)))

/-- R99, R100: a function-level reset of a VF sets FLR_ACTIVE and drops all that its rings hold without completion; one of PF1 resets PF1's rings only. Its end returns the ring registers, S1_ROOT, S1_EN and FAULT_INFO to reset, clears FLR_ACTIVE and posts FLR_DONE with the counts. -/
def Obligations.FunctionLevelReset : Prop :=
  (∀ (f : Fun) (s : State), 1 ≤ f.fn → f.fn ≤ 31 → flrActive s f = false →
    ∃ t, exec (.pcieFlr f) s = .next t ∧ flrActive t f = true ∧ t.flag (TENANT_CFG f) TENANT_CFG_FLR_ACTIVE = true
      ∧ (∀ n, n < 16 → t.ringAux ⟨f, n⟩ = RingAux.empty) ∧ (∀ tk ∈ t.owed, tk.ring.fn ≠ f) ∧ (t.fnAux f).flrDescs = inFlight s f ∧ t.routes = s.routes)
  ∧ (∀ (f : Fun) (target : Nat) (v : Word) (s : State), 1 ≤ target → target ≤ 31 → f.fn = 0 → (accessRow s f (addrOff (FLR_CTRL ⟨f.ep, target⟩))).isSome = true →
    FLR_CTRL_FLR.get v = 1 → exec (.flrCtrlWrite f target v) s = exec (.pcieFlr ⟨f.ep, target⟩) s)
  ∧ (∀ (f : Fun) (s : State), f.fn = 63 →
    ∃ t, exec (.pcieFlr f) s = .next t ∧ t = { s with regs := t.regs, rings := t.rings, owed := t.owed, out := [] }
      ∧ (∀ n, n < 16 → t.ringAux ⟨f, n⟩ = RingAux.empty ∧ ringOn t ⟨f, n⟩ = false) ∧ ∀ a, postReg a = false → t.rd a = s.rd a)
  ∧ (∀ (f : Fun) (fails : List Nat) (s : State), 1 ≤ f.fn → f.fn ≤ 31 → flrActive s f = true → (s.fnAux f).flrDestroys = false →
    ∃ u, (flrActive u f = false ∧ u.tenants = s.tenants ∧ u.routes = s.routes ∧ u.rd64 (S1_ROOT_LO f) = 0 ∧ u.flag (XLATE_CTRL f) XLATE_CTRL_S1_EN = false
        ∧ u.rd (FAULT_INFO f) = 0 ∧ (∀ n, n < 16 → ringOn u ⟨f, n⟩ = false))
      ∧ exec (.flrDone f fails) s = .next (ran (fun _ => postPf0 f.ep 0x0011 f.fn ((s.fnAux f).flrDescs % 2 ^ 32 + (s.fnAux f).flrCtxs % 2 ^ 32 * 2 ^ 32
          + (s.fnAux f).flrEvents % 2 ^ 32 * 2 ^ 64) u) s))

/-- R105, R127: GO starts one invalidation, with the function, pages, stage and ALL as they stand then; when it is done BUSY is clear, and no translation that it covers is held: none of its function where ALL is set, else none whose page of the named stage lies in the range. -/
def Obligations.InvalidationDropsTranslations : Prop :=
  (∀ (f : Fun) (v : Word) (s : State), (accessRow s f (addrOff (MMU_INV_CTRL f.ep))).isSome = true → s.flag (MMU_INV_CTRL f.ep) MMU_INV_CTRL_BUSY = false →
    MMU_INV_CTRL_GO.get v = 1 →
    ∃ t, exec (.mmuInvalidate f v) s = .next t ∧ t = { s with regs := t.regs, invs := t.invs, out := [] } ∧ t.flag (MMU_INV_CTRL f.ep) MMU_INV_CTRL_BUSY = true
      ∧ tfind f.ep.idx t.invs = some ⟨⟨f.ep, if f.fn = 63 ∧ MMU_INV_CTRL_FUNC.get v = 0 then 63 else MMU_INV_CTRL_FUNC.get v⟩,
          s.rd64 (MMU_INV_ADDR_LO f.ep) / 2 ^ 12 % 2 ^ 36, MMU_INV_CTRL_PAGES.get v, MMU_INV_CTRL_STAGE.get v, MMU_INV_CTRL_ALL.get v != 0⟩
      ∧ ∀ a, a ≠ MMU_INV_CTRL f.ep → t.rd a = s.rd a)
  ∧ (∀ (d : Die) (x : MmuInv) (s : State), tfind d.idx s.invs = some x →
    ∃ t, exec (.mmuInvalidateDone d) s = .next t ∧ t = { s with regs := t.regs, invs := t.invs, tlb := t.tlb, out := [] } ∧ t.flag (MMU_INV_CTRL d) MMU_INV_CTRL_BUSY = false
      ∧ (∀ e ∈ t.tlb, e ∈ s.tlb) ∧ (∀ e ∈ s.tlb, e.f ≠ x.f → e ∈ t.tlb)
      ∧ (x.all = true → ∀ e ∈ t.tlb, e.f ≠ x.f)
      ∧ (∀ e ∈ t.tlb, e.f = x.f → x.stage % 2 = 1 → ¬(x.first ≤ e.page ∧ e.page < x.first + x.pages))
      ∧ (∀ e ∈ t.tlb, e.f = x.f → x.stage / 2 % 2 = 1 → ¬(x.first ≤ e.ipa ∧ e.ipa < x.first + x.pages))
      ∧ (x.all = false → ∀ e ∈ s.tlb, ¬(x.stage % 2 = 1 ∧ x.first ≤ e.page ∧ e.page < x.first + x.pages) →
          ¬(x.stage / 2 % 2 = 1 ∧ x.first ≤ e.ipa ∧ e.ipa < x.first + x.pages) → e ∈ t.tlb))

/-- R108: a request to PF1 that is not accepted is counted in PF1_REJECTED and changes nothing else; a non-posted one completes with Unsupported Request. R111: the carve-out is fixed once it is locked. R112: S_MASK ignores a write with fewer than two ways, and every write while an S route lives on the die. -/
def Obligations.SecureWorldIsGuarded : Prop :=
  (∀ (d : Die) (posted : Bool) (rid : Nat) (ide : Option Nat) (s : State), pf1Accepts s d rid ide = false →
    ∃ t, exec (.pf1RequestRejected d posted rid ide) s = .next t ∧ t = { s with regs := t.regs, out := t.out }
      ∧ t.out = (if posted then [] else [.unsupported (pf1 d)])
      ∧ t.rdF (PF1_REJECTED d) PF1_REJECTED_COUNT = min (2 ^ 32 - 1) (s.rdF (PF1_REJECTED d) PF1_REJECTED_COUNT + 1) ∧ ∀ a, a ≠ PF1_REJECTED d → t.rd a = s.rd a)
  ∧ (∀ (f : Fun) (v : Word) (s : State), (accessRow s f (addrOff (CARVE_SIZE f.ep))).isSome = true →
    (s.flag (CARVE_SIZE f.ep) CARVE_SIZE_LOCK = true → exec (.carveLock f v) s = .next (fresh s))
    ∧ (s.flag (CARVE_SIZE f.ep) CARVE_SIZE_LOCK = false → ∃ t, exec (.carveLock f v) s = .next t ∧ t = { s with regs := t.regs, out := [] }
      ∧ t.rdF (CARVE_SIZE f.ep) CARVE_SIZE_SIZE_2M = CARVE_SIZE_SIZE_2M.get v ∧ t.rdF (CARVE_SIZE f.ep) CARVE_SIZE_LOCK = CARVE_SIZE_LOCK.get v
      ∧ ∀ a, a ≠ CARVE_SIZE f.ep → t.rd a = s.rd a))
  ∧ (∀ (f : Fun) (v : Word) (s : State), (accessRow s f (addrOff (CACHE_S_WAYS f.ep))).isSome = true →
    ((∃ x ∈ s.routes, x.2.cls = 0 ∧ handleDie x.1 = f.ep) ∨ ((upto 16).filter (nbit (CACHE_S_WAYS_S_MASK.get v))).length < 2 →
      exec (.cacheSWaysWrite f v) s = .next (fresh s))
    ∧ ((¬∃ x ∈ s.routes, x.2.cls = 0 ∧ handleDie x.1 = f.ep) → 2 ≤ ((upto 16).filter (nbit (CACHE_S_WAYS_S_MASK.get v))).length →
      ∃ t, exec (.cacheSWaysWrite f v) s = .next t ∧ t = { s with regs := t.regs, out := [] } ∧ t.rdF (CACHE_S_WAYS f.ep) CACHE_S_WAYS_S_MASK = CACHE_S_WAYS_S_MASK.get v
        ∧ ∀ a, a ≠ CACHE_S_WAYS f.ep → t.rd a = s.rd a))
  ∧ (∀ (q : RingId) (d : Desc) (s : State) (n : Nat), n = tget 0 (unitKey q.fn.ep (dget d 8 0 8)) s.claims →
    tget 0 (unitKey q.fn.ep (dget d 8 0 8)) (worked opSecureClaim q d s).2.claims = n + 1 ∧ (worked opSecureClaim q d s).2.garnetClaims = s.garnetClaims
    ∧ tget 0 (unitKey q.fn.ep (dget d 8 0 8)) (worked opSecureRelease q d s).2.claims = n - 1 ∧ (worked opSecureRelease q d s).2.garnetClaims = s.garnetClaims)

/-- R119: each challenge is issued from bytes that nothing fixes (the model's free values); a certificate without an open challenge, without a good signature, or by another key enables nothing, a fused-off switch is never enabled, and every certificate uses the challenge up. R120: each switch that comes on is posted to PF0 and PF1 of both dies. -/
def Obligations.DebugNeedsACertificate : Prop :=
  (∀ (d : Die) (s : State),
    ∃ t, exec (.debugChallenge d) s = .next t ∧ t = { s with regs := t.regs, debug := t.debug, free := s.free + 12, out := t.out }
      ∧ t.flag (DEBUG_STATUS d) DEBUG_STATUS_CHALLENGE_OPEN = true ∧ (∃ ws, t.out = [.challenge d ws] ∧ ws.length = 12) ∧ ∀ a, a ≠ DEBUG_STATUS d → t.rd a = s.rd a)
  ∧ (∀ (d : Die) (c : DebugCert) (s : State), (s.flag (DEBUG_STATUS d) DEBUG_STATUS_CHALLENGE_OPEN = false ∨ c.signatureOk = false
        ∨ (c.keyHash ≠ s.part.integratorKey ∧ c.keyHash ≠ s.part.vendorKey) ∨ ∃ u, c.boundUid = some u ∧ u ≠ (if d = .a then s.part.uidA else s.part.uidB)) →
    ∃ t, exec (.debugCertificate d c) s = .next t ∧ t = { s with regs := t.regs, debug := t.debug, out := [] }
      ∧ t.rdF (DEBUG_STATUS d) DEBUG_STATUS_ENABLED = s.rdF (DEBUG_STATUS d) DEBUG_STATUS_ENABLED
      ∧ t.flag (DEBUG_STATUS d) DEBUG_STATUS_CHALLENGE_OPEN = false ∧ ∀ a, a ≠ DEBUG_STATUS d → t.rd a = s.rd a)
  ∧ (∀ (d : Die) (c : DebugCert) (s : State) (i : Nat), i < 4 → s.flag (DEBUG_STATUS d) DEBUG_STATUS_CHALLENGE_OPEN = true → c.signatureOk = true → c.boundUid = none →
    c.keyHash = s.part.integratorKey → c.switches = 2 ^ i → nbit (s.rdF (DEBUG_STATUS d) DEBUG_STATUS_FUSED_OFF) i = false →
    s.rdF (DEBUG_STATUS d) DEBUG_STATUS_ENABLED = 0 → 1 ≤ i →
    ∃ u, (u = { s with regs := u.regs, debug := u.debug, out := [] } ∧ u.rdF (DEBUG_STATUS d) DEBUG_STATUS_ENABLED = 2 ^ i
        ∧ u.flag (DEBUG_STATUS d) DEBUG_STATUS_CHALLENGE_OPEN = false ∧ ∀ a, a ≠ DEBUG_STATUS d → u.rd a = s.rd a)
      ∧ exec (.debugCertificate d c) s = .next (ran (fun _ => u |> post (pf0 .a) ⟨0x0013, d.idx, 1, s.now d, 2 ^ i, d⟩ |> post (pf1 .a) ⟨0x0013, d.idx, 1, s.now d, 2 ^ i, d⟩
          |> post (pf0 .b) ⟨0x0013, d.idx, 1, s.now d, 2 ^ i, d⟩ |> post (pf1 .b) ⟨0x0013, d.idx, 1, s.now d, 2 ^ i, d⟩) s))

/-- R131, R133: while a head is enabled, a timing write with a zero field, outside Table 5.1 or too large for the region, and every write of HEAD_PCLK, change only TIMING_ERR; while it is disabled each is taken as written and carried to the head's island. -/
def Obligations.TimingWrites : Prop :=
  (∀ (f : Fun) (n reg : Nat) (v : Word) (s : State), n < 4 → reg < 4 → (accessRow s f (addrOff (TIMING_HA f.ep n + 4 * reg))).isSome = true →
    (s.flag (HEAD_CFG f.ep n) HEAD_CFG_ENABLED = true → v.toNat / 2 ^ 16 = 0 ∨ v.toNat % 2 ^ 16 = 0 →
      ∃ t, exec (.timingWrite f n reg v) s = .next t ∧ t = { s with regs := t.regs, out := [] } ∧ t.flag (HEAD_STATUS f.ep n) HEAD_STATUS_TIMING_ERR = true
        ∧ ∀ a, a ≠ HEAD_STATUS f.ep n → t.rd a = s.rd a)
    ∧ (s.flag (HEAD_CFG f.ep n) HEAD_CFG_ENABLED = false →
      ∃ t, exec (.timingWrite f n reg v) s = .next t ∧ t = { s with regs := t.regs, xings := t.xings, out := [] }
        ∧ t.rd (TIMING_HA f.ep n + 4 * reg) = v
        ∧ (s.flag (XING_STATUS f.ep (1 + 8 * n)) XING_STATUS_PEER_RESET = false → (TIMING_HA f.ep n + 4 * reg, v) ∈ (t.xing f.ep (1 + 8 * n)).queue)))
  ∧ (∀ (f : Fun) (n : Nat) (v : Word) (s : State), n < 4 → (accessRow s f (addrOff (HEAD_PCLK f.ep n))).isSome = true →
    (s.flag (HEAD_CFG f.ep n) HEAD_CFG_ENABLED = true →
      ∃ t, exec (.headPclkWrite f n v) s = .next t ∧ t = { s with regs := t.regs, out := [] } ∧ t.flag (HEAD_STATUS f.ep n) HEAD_STATUS_TIMING_ERR = true
        ∧ ∀ a, a ≠ HEAD_STATUS f.ep n → t.rd a = s.rd a)
    ∧ (s.flag (HEAD_CFG f.ep n) HEAD_CFG_ENABLED = false →
      ∃ t, exec (.headPclkWrite f n v) s = .next t ∧ t = { s with regs := t.regs, xings := t.xings, out := [] }
        ∧ t.rd (HEAD_PCLK f.ep n) = v &&& 0xFFFFF))

/-- R135, R31: HEAD_ENABLE takes MODE, LOOKAHEAD_M1, PORT, STREAM, STORE_FMT, the ceiling and the region, raises the floor, and starts the head, at once where the pace has reached the floor and otherwise as a raise that waits. R136: HEAD_DISABLE of a head that scans stops it at its next line start. -/
def Obligations.HeadsStartAndStop : Prop :=
  (∀ (q : RingId) (d : Desc) (s : State) (h : Nat), h = dget d 8 0 8 → h < 8 → headDie h = q.fn.ep → ∀ t, t = (worked opHeadEnable q d s).2 →
    (worked opHeadEnable q d s).1 = none ∧ headOn t h = true ∧ headThrough t h = (dget d 9 0 1 == 1) ∧ headLook t h = dget d 9 1 3 + 1
      ∧ t.rdF (HEAD_CFG q.fn.ep (headNo h)) HEAD_CFG_PORT = dget d 10 0 2 ∧ t.rdF (HEAD_CFG q.fn.ep (headNo h)) HEAD_CFG_STREAM = dget d 10 2 1
      ∧ t.rdF (HEAD_FT q.fn.ep (headNo h)) HEAD_FT_FT_BASE = dget d 16 0 16 ∧ t.rdF (HEAD_FT q.fn.ep (headNo h)) HEAD_FT_FT_SIZE = dget d 18 0 16
      ∧ (t.head h).starting = some (oneTicket s q d)
      ∧ (((t.head h).phase = 2 ∧ paceReached t q.fn.ep = true) ∨
         ((t.head h).phase = 1 ∧ ∃ r ∈ (t.paceOf q.fn.ep).raises, r.kind = 1 ∧ r.unit = h ∧ r.floor = t.rdF (PACE_FLOOR q.fn.ep) PACE_FLOOR_FLOOR)))
  ∧ (∀ (h : Nat) (s : State), (s.head h).phase = 3 → disableHead h s = setHead h { s.head h with phase := 4 } s)
  ∧ (∀ (h : Nat) (obs : LineObs) (s : State), h < 8 → (s.head h).phase = 4 → s.flag (HEAD_STATUS (headDie h) (headNo h)) HEAD_STATUS_PLL_LOST = false →
    s.inReset.contains .heads = false → islandOut s (headDie h) (headNo h) = true → exec (.lineStart h obs) s = .next (ran (stopHead h) s))

/-- R132, R144: at the start of a line of a head that scans, LINE takes the line's number, the blanking status follows it, and the line's work is done; the number rolls over at VTOTAL, or where a genlock snap is due (R156); a head that is off, or whose clock is lost, starts no line, but for a Garnet scan that drives its port by its own timing (R209). -/
def Obligations.LineStartMovesTheGrid : Prop :=
  ∀ (h : Nat) (obs : LineObs) (s : State), h < 8 →
    ((s.head h).phase < 2 ∨ (s.flag (HEAD_STATUS (headDie h) (headNo h)) HEAD_STATUS_PLL_LOST = true
        ∧ ¬((s.head h).phase = 3 ∧ s.flag (GSCAN_STATUS (headDie h) (headNo h)) GSCAN_STATUS_ACTIVE = true)) → exec (.lineStart h obs) s = .next (fresh s))
    ∧ ((s.head h).phase = 3 → s.flag (HEAD_STATUS (headDie h) (headNo h)) HEAD_STATUS_PLL_LOST = true → s.flag (GSCAN_STATUS (headDie h) (headNo h)) GSCAN_STATUS_ACTIVE = true →
      s.inReset.contains .heads = false → islandOut s (headDie h) (headNo h) = true → exec (.lineStart h obs) s = .next (ran (scanOwnLine h obs) s))
    ∧ ((s.head h).phase = 2 ∨ (s.head h).phase = 3 → s.flag (HEAD_STATUS (headDie h) (headNo h)) HEAD_STATUS_PLL_LOST = false → s.inReset.contains .heads = false →
      islandOut s (headDie h) (headNo h) = true → s.split = false → powerState s (headDie h) = 0 →
      ∀ (y : Head) (c n : Nat),
        y = { s.head h with
              ha := s.isl (TIMING_HA (headDie h) (headNo h)), hb := s.isl (TIMING_HB (headDie h) (headNo h)),
              va := s.isl (TIMING_VA (headDie h) (headNo h)), vb := s.isl (TIMING_VB (headDie h) (headNo h)) } →
      n = s.rdF (HEAD_STATUS (headDie h) (headNo h)) HEAD_STATUS_LINE + 1 →
      c = (if (s.head h).phase = 2 ∨ (s.head h).snapIn = some 1 ∨ ((s.head h).snapIn = none ∧ y.vtotal ≤ n) then 0
        else if (s.head h).snapIn.isSome then min n 8191 else n) →
      ∃ u, (u = { s with regs := u.regs, heads := u.heads, garnets := u.garnets, out := [] }
          ∧ u.rdF (HEAD_STATUS (headDie h) (headNo h)) HEAD_STATUS_LINE = c % 2 ^ HEAD_STATUS_LINE.len
          ∧ u.flag (HEAD_STATUS (headDie h) (headNo h)) HEAD_STATUS_IN_VBLANK = decide ((u.head h).vactive ≤ c)
          ∧ (u.head h).ha = s.isl (TIMING_HA (headDie h) (headNo h)) ∧ (u.head h).vb = s.isl (TIMING_VB (headDie h) (headNo h))
          ∧ (u.head h).snapDue = (if (s.head h).snapIn = some 1 then 0 else (s.head h).snapDue)
          ∧ (∀ g, g ≠ h → u.head g = s.head g)
          ∧ (y.htotal = (s.head h).htotal → ∀ a, a ≠ HEAD_STATUS (headDie h) (headNo h) → u.rd a = s.rd a))
        ∧ exec (.lineStart h obs) s = .next (ran (fun _ => lineWork h c obs u) s))

/-- R146, R147: a LAYER_COMMIT lands in the pending set of its layer and changes no other layer; what a fresh layer shows stays until it takes effect. R183: so does a LAYER_COLOUR without a table. R184, R185: the last fetch of a replaced buffer posts its RELEASED. -/
def Obligations.CommitsLandAndRelease : Prop :=
  (∀ (q : RingId) (d : Desc) (s : State) (r : Route) (h l : Nat), s.route (dRoute d) = some r → h = epUnit r.sink → l = epSub r.sink → l < 16 → ((s.head h).layer l).pend = none →
    ∀ t, t = (worked opLayerCommit q d s).2 →
    (worked opLayerCommit q d s).1 = none ∧ (t.head h).layer l = { (s.head h).layer l with pend := some ⟨oneTicket s q d, d⟩ }
      ∧ (∀ m, m ≠ l → (t.head h).layer m = (s.head h).layer m) ∧ (∀ g, g ≠ h → t.head g = s.head g)
      ∧ t.flag (LAYER_STATUS (headDie h) (headNo h) l) LAYER_STATUS_PENDING = true)
  ∧ (∀ (q : RingId) (d : Desc) (s : State) (r : Route) (h l : Nat), s.route (dRoute d) = some r → h = epUnit r.sink → l = epSub r.sink → ((s.head h).layer l).pendColour = none →
    dget d 9 0 2 ≠ 2 → ∀ t, t = (worked opLayerColour q d s).2 →
    (worked opLayerColour q d s).1 = none ∧ (t.head h).layer l = { (s.head h).layer l with pendColour := some ⟨oneTicket s q d, d, []⟩ }
      ∧ (∀ m, m ≠ l → (t.head h).layer m = (s.head h).layer m) ∧ (∀ g, g ≠ h → t.head g = s.head g))
  ∧ (∀ (h l : Nat) (r : Release) (s : State), (s.head h).releases.find? (fun x => x.layer == l) = some r →
    exec (.bufferRelease h l) s = .next (ran (fun u => u |> setHead h { s.head h with releases := (s.head h).releases.erase r }
      |> postLast r.ticket 1 r.status (r.frame % 4096 * 4096 + l * 256 + h)) s))

/-- R148: the compose window opens once, where the blanking begins. With something pending every commit is taken and a pass from line 0 begins, which from its line 0 on feeds the next frame; each step of the pass moves one line on; its last line sets FT_VALID. With nothing pending no pass runs. -/
def Obligations.ComposePass : Prop :=
  (∀ (h : Nat) (s : State), (s.head h).phase = 3 → headThrough s h = false → (s.head h).mode = none → (s.head h).pass = none →
    ((s.head h).opening = false → exec (.composeWindowOpen h) s = .next (fresh s))
    ∧ ((s.head h).opening = true → anyPending s h = false → (s.head h).recompose = false →
      exec (.composeWindowOpen h) s = .next (ran (setHead h { s.head h with opening := false }) s))
    ∧ ((s.head h).opening = true → anyPending s h = true ∨ (s.head h).recompose = true →
      ∃ t, exec (.composeWindowOpen h) s = .next t ∧ (t.head h).pass = some (0, s.headFrame h + 1) ∧ (t.head h).recompose = false ∧ (t.head h).opening = false
        ∧ t.flag (HEAD_STATUS (headDie h) (headNo h)) HEAD_STATUS_COMPOSING = true))
  ∧ (∀ (h j f : Nat) (s : State), (s.head h).pass = some (j, f) → j < (s.head h).vactive →
    nbit (s.rd (BLOCK_QUIESCE (headDie h))).toNat bitComposer = false →
    ∃ t, exec (.composeLine h) s = .next t ∧ (t.head h).pass = some (j + 1, f) ∧ (∃ l, (t.head h).writing = some (j, l))
      ∧ (j = 0 → (t.head h).fed = f))
  ∧ (∀ (h j f : Nat) (s : State), (s.head h).pass = some (j, f) → (s.head h).vactive ≤ j →
    ∃ u, ((u.head h).pass = none ∧ (u.head h).writing = none ∧ u = { s with heads := u.heads, out := [] })
      ∧ exec (.composePassEnd h) s = .next (ran (fun _ => u |> windowChecks h f |> wrB (HEAD_STATUS (headDie h) (headNo h)) HEAD_STATUS_COMPOSING false
          |> wrB (HEAD_STATUS (headDie h) (headNo h)) HEAD_STATUS_FT_VALID true) s))

/-- R152: a layer with visible data that is not there at its deadline underruns: it is off and counted, and the mask of its frame names it, of the next frame for line 0. Data is not there that memory has not returned, that a camera has not sent yet (R224), or that was read uncorrectable (R145, R223). R157: while the pixel PLL is out of lock its island's crossings hold, and PLL_LOST shows it; with the lock they go on, and an event that was held is delivered (R46). R145: words of the frame tier that a scrub corrects are counted. -/
def Obligations.DisplayFaultsAreReported : Prop :=
  (∀ (h line incomplete ecc l : Nat) (s : State), (s.head h).phase = 3 → headThrough s h = true → line + 1 < (s.head h).vactive → l < 16 → visible s h l line ≠ [] →
    (∀ m, m < 16 → (m = l ↔ nbit ecc m = true ∨ (nbit incomplete m = true ∧ ((s.head h).layer m).camera = 0)
      ∨ ∃ y, tfind line (s.head h).ahead = some y ∧ y.frame = s.headFrame h + (if line = 0 then 1 else 0) ∧ m ∈ y.waits)) →
    ∃ t, exec (.layerDeadline h line ⟨incomplete, ecc⟩) s = .next t ∧ t = { s with regs := t.regs, heads := t.heads, rinlar := t.rinlar, out := [] }
      ∧ t.flag (LAYER_STATUS (headDie h) (headNo h) l) LAYER_STATUS_OFF_UNDERRUN = true
      ∧ (if line = 0 then nbit (t.head h).underNext l = true ∧ (t.head h).underMask = (s.head h).underMask
          else nbit (t.head h).underMask l = true ∧ (t.head h).underFirst = min (s.head h).underFirst line)
      ∧ t.rdF (UNDERRUN_COUNT (headDie h) (headNo h)) UNDERRUN_COUNT_COUNT = min (2 ^ 32 - 1) (s.rdF (UNDERRUN_COUNT (headDie h) (headNo h)) UNDERRUN_COUNT_COUNT + 1)
      ∧ ∀ a, a ≠ LAYER_STATUS (headDie h) (headNo h) l → a ≠ UNDERRUN_COUNT (headDie h) (headNo h) → t.rd a = s.rd a)
  ∧ (∀ (h : Nat) (s : State), h < 8 → 2 ≤ (s.head h).phase →
    (∃ t, exec (.pixelPllLost h) s = .next t ∧ t = { s with regs := t.regs, xings := t.xings, out := [] } ∧ t.flag (HEAD_STATUS (headDie h) (headNo h)) HEAD_STATUS_PLL_LOST = true
      ∧ (∀ i, i < 8 → (t.xing (headDie h) (8 * headNo h + i)).stopped = true) ∧ ∀ a, a ≠ HEAD_STATUS (headDie h) (headNo h) → t.rd a = s.rd a)
    ∧ (s.flag (HEAD_STATUS (headDie h) (headNo h)) HEAD_STATUS_PLL_LOST = true →
      ∃ t, exec (.pixelPllRelock h) s = .next t ∧ t = { s with regs := t.regs, xings := t.xings, out := [] } ∧ t.flag (HEAD_STATUS (headDie h) (headNo h)) HEAD_STATUS_PLL_LOST = false
        ∧ (∀ i, i < 8 → (t.xing (headDie h) (8 * headNo h + i)).stopped = false
            ∧ ((s.xing (headDie h) (8 * headNo h + i)).stopped = true → (s.xing (headDie h) (8 * headNo h + i)).sent ≠ 0 →
                t.rdF (XING_COUNT (headDie h) (8 * headNo h + i)) XING_COUNT_LAST_COUNT = (s.xing (headDie h) (8 * headNo h + i)).sent % 2 ^ 16))
        ∧ ∀ a, a ≠ HEAD_STATUS (headDie h) (headNo h) →
            (∀ i, i < 8 → a ≠ XING_COUNT (headDie h) (8 * headNo h + i) ∧ a ≠ XING_STATUS (headDie h) (8 * headNo h + i)) → t.rd a = s.rd a))
  ∧ (∀ (d : Die) (corr : Nat) (s : State), s.rdF (FT_SCRUB d) FT_SCRUB_PERIOD_S ≠ 0 → s.inReset.contains .frameTier = false → corr ≠ 0 →
    ∃ t, exec (.ftPatrolScrub d corr []) s = .next t ∧ t = { s with regs := t.regs, rinlar := t.rinlar, out := [] }
      ∧ t.rdF (FT_ECC_CORR d) FT_ECC_CORR_COUNT = min (2 ^ FT_ECC_CORR_COUNT.len - 1) (s.rdF (FT_ECC_CORR d) FT_ECC_CORR_COUNT + corr) ∧ ∀ a, a ≠ FT_ECC_CORR d → t.rd a = s.rd a)

/-- R138: training that succeeds at the highest setting brings the link up at it; training that finds none leaves it down; each posts PORT_LINK. A plug or HPD interrupt is posted as PORT_HPD. R139, R140: an AUX reply completes the transaction at the front with the reply code and count, a DSI read that times out completes with TIMEOUT, a response with its bytes written. R155: a genlock source out of range, or silent for three frame periods, sends the head into free run with FREE_RUN set and GENLOCK posted; the fourth reference in range ends it. R153, R154: a head takes the events of the source that it is set to, once they have crossed, and PHASE_LINES shows the phase error in lines. -/
def Obligations.PortsTrainTalkAndGenlock : Prop :=
  ((∀ (k : Nat) (s : State), k < 8 → (s.port k).train = true →
    exec (.linkTraining k none) s = .next (ran (fun u => u |> setPort k { s.port k with train := false } |> linkDown (dieOf 4 k) (k % 4) |> postPortLink (dieOf 4 k) (k % 4) 2 0 0) s)
    ∧ (∀ rate lanes, rate = s.rdF (PORT_CFG (dieOf 4 k) (k % 4)) PORT_CFG_RATE → lanes = s.rdF (PORT_CFG (dieOf 4 k) (k % 4)) PORT_CFG_LANES → rateKbps rate ≠ 0 →
      lanes = 1 ∨ lanes = 2 ∨ lanes = 4 →
      bandwidthOk (s.rdF (PORT_CFG (dieOf 4 k) (k % 4)) PORT_CFG_PROTO) rate lanes (s.rdF (PORT_CFG (dieOf 4 k) (k % 4)) PORT_CFG_BPC) 0 (portKhz s (dieOf 4 k) (k % 4)) = true →
      ∃ u, (u.flag (PORT_STATUS (dieOf 4 k) (k % 4)) PORT_STATUS_LINK_UP = true ∧ u.rdF (PORT_STATUS (dieOf 4 k) (k % 4)) PORT_STATUS_TRAINED_RATE = rate
          ∧ u.rdF (PORT_STATUS (dieOf 4 k) (k % 4)) PORT_STATUS_TRAINED_LANES = lanes ∧ (u.port k).train = false ∧ u = { s with regs := u.regs, ports := u.ports, out := [] })
        ∧ exec (.linkTraining k (some (rate, lanes))) s = .next (ran (fun _ => postPf0 (dieOf 4 k) 0x0205 (portKey (dieOf 4 k) (k % 4)) (lanes * 256 + rate * 65536) u) s)))
  ∧ (∀ (k : Nat) (s : State), k < 8 → k % 4 < 2 → s.inReset.contains .heads = false → s.flag (PORT_STATUS (dieOf 4 k) (k % 4)) PORT_STATUS_LINK_UP = false →
    exec (.portHpd k 0 false) s = .next (ran (fun u => u |> wrB (PORT_STATUS (dieOf 4 k) (k % 4)) PORT_STATUS_HPD false |> postPf0 (dieOf 4 k) 0x0204 k 0) s)
    ∧ exec (.portHpd k 1 false) s = .next (ran (fun u => u |> wrB (PORT_STATUS (dieOf 4 k) (k % 4)) PORT_STATUS_HPD true |> postPf0 (dieOf 4 k) 0x0204 k 1 |> wantTraining (dieOf 4 k) (k % 4)) s))
  ∧ (∀ (k : Nat) (tk : Ticket) (d : Desc) (rest : List (Ticket × Desc)) (r : AuxReply) (s : State), (s.port k).aux = (tk, d) :: rest → dget d 9 0 1 = 1 → r.code ≠ 2 →
    exec (.auxReply k (some r)) s = .next (ran (auxEnd (dieOf 4 k) (k % 4) tk stOk (r.code % 256 + r.count % 256 * 256)) s))
  ∧ (∀ (k : Nat) (tk : Ticket) (d : Desc) (rest : List (Ticket × Desc)) (s : State), (s.port k).dsi = (tk, d) :: rest →
    exec (.dsiReadTimeout k) s = .next (ran (dsiEnd k tk stTimeout 0) s)
    ∧ (∀ (bytes : List Byte) (s1 : State), dmaWrite (dieOf 4 k) tk.fn tk.ring.ring (dget d 48 0 64) (bytes.take 16) (fresh s) = (none, s1) →
      exec (.dsiReadResponse k bytes) s = .next (ran (fun _ => dsiEnd k tk stOk (bytes.take 16).length s1) s))))
  ∧ (∀ (h : Nat) (s : State), (s.head h).phase = 3 → gSrc (s.head h).genlock ≠ 0 → s.flag (GENLOCK_STATUS (headDie h) (headNo h)) GENLOCK_STATUS_FREE_RUN = false →
    ∃ u, (u = { s with regs := u.regs, heads := u.heads, out := [] } ∧ u.flag (GENLOCK_STATUS (headDie h) (headNo h)) GENLOCK_STATUS_FREE_RUN = true ∧ (u.head h).refSeen = false
        ∧ ∀ a, a ≠ GENLOCK_STATUS (headDie h) (headNo h) → u.rd a = s.rd a) ∧ exec (.genlockSourceTimeout h) s = .next (ran (fun _ => postGenlock h 2 u) s))
  ∧ (∀ (h : Nat) (src : GenSource) (pix : Nat) (inRange : Bool) (s : State), genMatches (s.head h).genlock h src = false →
    exec (.genlockReference h ⟨src, pix, inRange⟩) s = .next (fresh s))
  ∧ (∀ (h : Nat) (src : GenSource) (pix : Nat) (s : State), (s.head h).phase = 3 → genMatches (s.head h).genlock h src = true → genLoop s h 8 h = false →
    s.flag (HEAD_STATUS (headDie h) (headNo h)) HEAD_STATUS_PLL_LOST = false → ((∃ d r, src = .vsync d r) ∨ (s.head h).refDue = true) →
    (s.flag (GENLOCK_STATUS (headDie h) (headNo h)) GENLOCK_STATUS_FREE_RUN = false →
      (∃ u, (u = { s with regs := u.regs, heads := u.heads, out := [] } ∧ u.flag (GENLOCK_STATUS (headDie h) (headNo h)) GENLOCK_STATUS_FREE_RUN = true
          ∧ ∀ a, a ≠ GENLOCK_STATUS (headDie h) (headNo h) → u.rd a = s.rd a) ∧ exec (.genlockReference h ⟨src, pix, false⟩) s = .next (ran (fun _ => postGenlock h 1 u) s))
      ∧ (∃ t, exec (.genlockReference h ⟨src, pix, true⟩) s = .next t ∧ t = { s with regs := t.regs, heads := t.heads, out := [] }
          ∧ (t.head h).refSeen = true ∧ (t.head h).refDue = false
          ∧ (t.head h).err = phaseError (s.head h) (s.rdF (HEAD_STATUS (headDie h) (headNo h)) HEAD_STATUS_LINE) pix
          ∧ t.rdF (GENLOCK_STATUS (headDie h) (headNo h)) GENLOCK_STATUS_PHASE_LINES = unsgn 14 ((t.head h).err.tdiv (s.head h).htotal)
          ∧ t.flag (GENLOCK_STATUS (headDie h) (headNo h)) GENLOCK_STATUS_FREE_RUN = false
          ∧ ∀ a, a ≠ GENLOCK_STATUS (headDie h) (headNo h) → t.rd a = s.rd a))
    ∧ (s.flag (GENLOCK_STATUS (headDie h) (headNo h)) GENLOCK_STATUS_FREE_RUN = true → (s.head h).rangeRun < 3 →
      ∃ t, exec (.genlockReference h ⟨src, pix, true⟩) s = .next t ∧ t = { s with regs := t.regs, heads := t.heads, out := [] }
        ∧ (t.head h).rangeRun = (s.head h).rangeRun + 1 ∧ t.flag (GENLOCK_STATUS (headDie h) (headNo h)) GENLOCK_STATUS_FREE_RUN = true)
    ∧ (s.flag (GENLOCK_STATUS (headDie h) (headNo h)) GENLOCK_STATUS_FREE_RUN = true → 3 ≤ (s.head h).rangeRun →
      ∃ t, exec (.genlockReference h ⟨src, pix, true⟩) s = .next t ∧ t.flag (GENLOCK_STATUS (headDie h) (headNo h)) GENLOCK_STATUS_FREE_RUN = false ∧ (t.head h).rangeRun = 0))

/-- R196, R199, R200: each record row sends one frame with the next SEQ and that one record; where the link receives, no RESYNC is awaited, the SLOT and the arguments are right and the queue has room, the frame is accepted: LAST_SEQ is the next, LINK_STALE is 0. A drawing record joins the queue as one change; NOP does nothing more; ACK_FAULT clears the causes whose condition is gone; REPORT chooses the window of the status block. -/
def Obligations.GarnetRecordsAreAccepted : Prop :=
  ∀ (c : Instr) (d : Die) (op slot : Nat) (args : List Byte) (s : State), recordRow c = some (d, op, slot, args) → linkOn s d = true →
    s.flag (GARNET_LINK_STATUS d) GARNET_LINK_STATUS_RESYNC_WAIT = false → slot < 256 → slotOk (s.garnet d) op slot = true → argLen op args = some args.length →
    argsOk d op (atlasEntries s d) args = true → queuedFrames (s.garnet d) < 4 →
    ∃ u, (u = { s with regs := u.regs, garnets := u.garnets, nextTag := u.nextTag, out := [] }
        ∧ u.rdF (GARNET_LINK_STATUS d) GARNET_LINK_STATUS_LAST_SEQ = (s.rdF (GARNET_LINK_STATUS d) GARNET_LINK_STATUS_LAST_SEQ + 1) % 2 ^ 16
        ∧ u.flag (GARNET_LINK_STATUS d) GARNET_LINK_STATUS_LINK_STALE = false ∧ (∀ a, a ≠ GARNET_LINK_STATUS d → u.rd a = s.rd a)
        ∧ (1 ≤ op → op ≤ 8 → (u.garnet d).queue = (s.garnet d).queue ++
            [⟨s.nextTag, true, (s.rdF (GARNET_LINK_STATUS d) GARNET_LINK_STATUS_LAST_SEQ + 1) % 2 ^ 16, [linkRecord op slot args], [], none⟩])
        ∧ (op = 0 ∨ op = 9 → u.garnets = s.garnets)
        ∧ (op = 10 → u.garnet d = { s.garnet d with report := some (byteAt (linkRecord op slot args) 4, byteAt (linkRecord op slot args) 5) })
        ∧ (s.garnet d).windows = (u.garnet d).windows ∧ (s.garnet d).slots = (u.garnet d).slots)
      ∧ exec c s = .next (ran (fun _ => if op = 9 then ackFault d u else u) s)

/-- R195, R196, R197, R198: the start of a frame sends the status block, and 0x00 goes out beyond it; the end of one counts it as CRC_FAIL or FORMAT_FAIL or takes it on; a repeated SEQ is dropped and counted; a lost one awaits a RESYNC and latches its cause. R198: the stale timer sets LINK_STALE once, latches its cause and, where STALE_BLANK says so, clears every slot. R193: EN starts and ends receiving. -/
def Obligations.GarnetLinkGuardsItself : Prop :=
  (∀ (d : Die) (s : State), linkOn s d = true → s.rdF (POWER_STATUS (powerDie s d)) POWER_STATUS_STATE = 0 →
    (∃ t, exec (.glinkFrameStart d) s = .next t ∧ t = { s with garnets := t.garnets, out := [.miso d (statusBlock s d)] }
      ∧ t.garnet d = { s.garnet d with inFrame := true, status := statusBlock s d })
    ∧ (∀ bytes : List Byte, (s.garnet d).inFrame = true →
      (bytes.length < 12 + le16 bytes 4 ∨ le32 bytes (8 + le16 bytes 4) ≠ crc32c (bytes.take (8 + le16 bytes 4)) →
        ∃ t, exec (.glinkFrameEnd d bytes) s = .next t
          ∧ t = { s with regs := t.regs, garnets := t.garnets, out := if 16 < bytes.length then [.miso d (List.replicate (bytes.length - 16) 0)] else [] } ∧ t.garnet d = { s.garnet d with inFrame := false }
          ∧ t.rdF (GARNET_LINK_ERR0 d) GARNET_LINK_ERR0_CRC_FAIL = min (2 ^ GARNET_LINK_ERR0_CRC_FAIL.len - 1) (s.rdF (GARNET_LINK_ERR0 d) GARNET_LINK_ERR0_CRC_FAIL + 1)
          ∧ ∀ a, a ≠ GARNET_LINK_ERR0 d → t.rd a = s.rd a)
      ∧ (12 + le16 bytes 4 ≤ bytes.length → le32 bytes (8 + le16 bytes 4) = crc32c (bytes.take (8 + le16 bytes 4)) → byteAt bytes 0 = 0xA5 → byteAt bytes 1 = 1 →
        le16 bytes 4 ≤ 1024 → le16 bytes 4 % 4 = 0 → byteAt bytes 6 ≤ 1 → byteAt bytes 7 = 0 →
        exec (.glinkFrameEnd d bytes) s = .next (ran (fun u => frameBody d (le16 bytes 2) (byteAt bytes 6 == 1) ((bytes.drop 8).take (le16 bytes 4))
          { setGarnet d { s.garnet d with inFrame := false } u with
              out := if 16 < bytes.length then [.miso d (List.replicate (bytes.length - 16) 0)] else [] }) s)))
    ∧ (s.flag (GARNET_LINK_STATUS d) GARNET_LINK_STATUS_LINK_STALE = false →
      ∃ t, exec (.glinkStaleTimeout d) s = .next t ∧ t.flag (GARNET_LINK_STATUS d) GARNET_LINK_STATUS_LINK_STALE = true ∧ nbit (causeBits t d) 2 = true
        ∧ (s.flag (GARNET_LINK_CFG d) GARNET_LINK_CFG_STALE_BLANK = false → t.garnets = s.garnets)
        ∧ (s.flag (GARNET_LINK_CFG d) GARNET_LINK_CFG_STALE_BLANK = true → (t.garnet d).queue = (s.garnet d).queue ++
            [⟨s.nextTag, false, s.rdF (GARNET_LINK_STATUS d) GARNET_LINK_STATUS_LAST_SEQ, [linkRecord 8 0xFF []], [], none⟩])))
  ∧ (∀ (d : Die) (payload : List Byte) (seq : Nat) (s : State), seq < 2 ^ 16 → s.flag (GARNET_LINK_STATUS d) GARNET_LINK_STATUS_RESYNC_WAIT = false →
    (seq = s.rdF (GARNET_LINK_STATUS d) GARNET_LINK_STATUS_LAST_SEQ → frameBody d seq false payload s = satF (GARNET_LINK_ERR2 d) GARNET_LINK_ERR2_DUP 1 s)
    ∧ (seq ≠ s.rdF (GARNET_LINK_STATUS d) GARNET_LINK_STATUS_LAST_SEQ → seq ≠ (s.rdF (GARNET_LINK_STATUS d) GARNET_LINK_STATUS_LAST_SEQ + 1) % 2 ^ 16 →
      ∀ t, t = frameBody d seq false payload s → t.flag (GARNET_LINK_STATUS d) GARNET_LINK_STATUS_SEQ_LOST = true
        ∧ t.flag (GARNET_LINK_STATUS d) GARNET_LINK_STATUS_RESYNC_WAIT = true ∧ nbit (causeBits t d) 1 = true ∧ t.garnets = s.garnets
        ∧ t.rdF (GARNET_LINK_STATUS d) GARNET_LINK_STATUS_LAST_SEQ = s.rdF (GARNET_LINK_STATUS d) GARNET_LINK_STATUS_LAST_SEQ))
  ∧ (∀ (f : Fun) (v : Word) (s : State), (accessRow s f (addrOff (GARNET_LINK_CFG f.ep))).isSome = true →
    ∃ t, exec (.garnetLinkEnWrite f v) s = .next t ∧ t.rd (GARNET_LINK_CFG f.ep) = v &&& 0xE00003FF
      ∧ (s.flag (GARNET_LINK_CFG f.ep) GARNET_LINK_CFG_EN = false → GARNET_LINK_CFG_EN.get v = 1 →
          t.flag (GARNET_LINK_STATUS f.ep) GARNET_LINK_STATUS_RESYNC_WAIT = true ∧ t.garnets = s.garnets)
      ∧ (s.flag (GARNET_LINK_CFG f.ep) GARNET_LINK_CFG_EN = true → GARNET_LINK_CFG_EN.get v = 0 → (t.garnet f.ep).inFrame = false))

/-- R205, R206, R207: the renderer takes the oldest change whose windows have flipped, with the words of the atlas that it cannot read in either copy, and its completion leaves a back buffer in every window of it. R209, R210: a detector that fires on a running head takes the port over, with its cause; R212: the cause may assert SAFE_FAULT_n. -/
def Obligations.RendererAndGarnetScan : Prop :=
  (∀ (d : Die) (j : GJob) (rest : List GJob) (ecc : List (Bool × Nat × Nat)) (s : State), (s.garnet d).rendering = none → (s.garnet d).queue = j :: rest → (s.boot d).halted = false →
    (∀ w ∈ touched (s.garnet d).slots j.recs ++ j.wins, ∀ x, tfind w (s.garnet d).windows = some x → x.back = none) → j.palette = none →
    ∃ u, (u = { s with regs := u.regs, garnets := u.garnets, out := [] } ∧ (u.garnet d).queue = rest
        ∧ (u.garnet d).rendering = some (j, (touched (s.garnet d).slots j.recs ++ j.wins).eraseDups) ∧ (u.garnet d).slots = j.recs.foldl (applyRecord ((ecc.filter (fun e => e.1 && e.2.1 == 0xFF)).map
            (fun e => e.2.2 % (s.rdF (GARNET_STORE d) GARNET_STORE_ATLAS_UNITS / 2 * 16384)))) (s.garnet d).slots
        ∧ (u.garnet d).windows = (s.garnet d).windows ∧ ∀ a, a ≠ GARNET_LINK_STATUS d → u.rd a = s.rd a)
      ∧ exec (.garnetRender d ecc) s = .next (ran (fun _ => ecc.foldl (fun t e => postPf1 d 0x0307 e.2.1 (b2n e.1 + e.2.2 % 2 ^ 32 * 2 ^ 32) t) u) s))
  ∧ (∀ (d : Die) (j : GJob) (ws : List Nat) (s : State), (s.garnet d).rendering = some (j, ws) → (s.boot d).halted = false → j.palette = none →
    ∃ t, exec (.garnetRenderDone d) s = .next t ∧ t = { s with regs := t.regs, garnets := t.garnets, free := t.free, out := [] } ∧ (t.garnet d).rendering = none
      ∧ (t.garnet d).queue = (s.garnet d).queue ∧ (t.garnet d).slots = (s.garnet d).slots
      ∧ (∀ w ∈ ws, (tfind w (s.garnet d).windows).isSome = true → (tfind w (t.garnet d).windows).map (fun x => x.back) = some (some (slotsIn (s.garnet d) w)))
      ∧ (∀ w, w ∉ ws → tfind w (t.garnet d).windows = tfind w (s.garnet d).windows)
      ∧ t.rdF (GARNET_RENDER d) GARNET_RENDER_RENDERS = (s.rdF (GARNET_RENDER d) GARNET_RENDER_RENDERS + 1) % 2 ^ 16 ∧ ∀ a, a ≠ GARNET_RENDER d → t.rd a = s.rd a)
  ∧ (∀ (h : Nat) (s : State), h < 8 → 3 ≤ (s.head h).phase →
    (∃ t, exec (.composerHeartbeatTimeout h) s = .next t ∧ t = { s with regs := t.regs, garnets := t.garnets, out := [] }
      ∧ t.flag (GSCAN_STATUS (headDie h) (headNo h)) GSCAN_STATUS_CLEAN = false ∧ ((t.garnet (headDie h)).scan (headNo h)).detector = true
      ∧ ∀ a, a ≠ GSCAN_STATUS (headDie h) (headNo h) → t.rd a = s.rd a)
    ∧ (∀ cause line : Nat, 1 ≤ cause → cause ≤ 7 → s.flag (GSCAN_STATUS (headDie h) (headNo h)) GSCAN_STATUS_ACTIVE = false →
      ∃ t, exec (.garnetTakeover h cause line) s = .next t ∧ t.flag (GSCAN_STATUS (headDie h) (headNo h)) GSCAN_STATUS_ACTIVE = true
        ∧ t.rdF (GSCAN_STATUS (headDie h) (headNo h)) GSCAN_STATUS_CAUSE = cause ∧ t.flag (GSCAN_STATUS (headDie h) (headNo h)) GSCAN_STATUS_FORCED = false
        ∧ t.rdF (GSCAN_STATUS (headDie h) (headNo h)) GSCAN_STATUS_TAKEOVERS
            = min (2 ^ GSCAN_STATUS_TAKEOVERS.len - 1) (s.rdF (GSCAN_STATUS (headDie h) (headNo h)) GSCAN_STATUS_TAKEOVERS + 1)
        ∧ ((t.garnet (headDie h)).scan (headNo h)).detector = true
        ∧ (s.flag (GARNET_LINK_CFG (headDie h)) GARNET_LINK_CFG_TAKEOVER_FAULT = true → nbit (causeBits s (headDie h)) (12 + headNo h) = false → nbit (causeBits t (headDie h)) (12 + headNo h) = true
            ∧ t.flag (GARNET_FAULT (headDie h)) GARNET_FAULT_ASSERTED = true)))

/-- R219: an enabled port whose lanes reach the stop state is ready, and its DONE is posted. R218: a Frame Start of a routed stream, after the route changes that wait for it, counts the frame and opens it, and is a genlock reference of the heads that are set to it (R153); R226: it ends a loss; one whose packet is lost is counted only. R217, R223, R232: a line of the route's data type is the next line of the frame, and enters the line store of a layer route and of a warp input as its newest line; a packet of another type, or of a stream without a route, is counted only. R218, R231: a Frame End closes the frame and completes its capture buffer. -/
def Obligations.CameraFramesAreReceived : Prop :=
  (∀ (p : Nat) (tk : Ticket) (s : State), (s.camPort p).ticket = some tk → (s.camPort p).started = true → hasLeave s (camDie p) 3 (camNo p) = true →
    ∃ u, (u = { s with regs := u.regs, camPorts := u.camPorts, permits := u.permits, out := [] } ∧ u.camPort p = ⟨none, true, 0⟩
        ∧ u.flag (CAM_PORT_STATUS (camDie p) (camNo p)) CAM_PORT_STATUS_READY = true
        ∧ ∀ a, a ≠ CAM_PORT_STATUS (camDie p) (camNo p) → a ≠ UNIT_POWERED (camDie p) → u.rd a = s.rd a)
      ∧ exec (.camPortReady p) s = .next (ran (fun _ => finish tk stOk 0 u) s))
  ∧ (∀ (p v : Nat) (s s2 : State), p < 8 → v < 4 → camReceives s p = true → streamRoutes s p v ≠ [] → s.flag (STREAM_STATUS (camDie p) (camNo p) v) STREAM_STATUS_IN_FRAME = false →
    s2 = streamChanges p v (fresh s) → s2.flag (STREAM_STATUS (camDie p) (camNo p) v) STREAM_STATUS_LOST = false →
    s2.flag (CAM_PORT_CFG (camDie p) (camNo p)) CAM_PORT_CFG_EV_FRAME = false → captureRoute s2 p v = none →
    ∃ u, (u = { s2 with regs := u.regs, streams := u.streams } ∧ u.stream p v = { Stream.empty with store := (s2.stream p v).store }
        ∧ u.rd64 (STREAM_FRAME_LO (camDie p) (camNo p) v) = (s2.rd64 (STREAM_FRAME_LO (camDie p) (camNo p) v) + 1) % 2 ^ 64
        ∧ u.flag (STREAM_STATUS (camDie p) (camNo p) v) STREAM_STATUS_IN_FRAME = true)
      ∧ exec (.camFrameStart p ⟨v, 0⟩) s = .next (ran (fun _ => genSend (camDie p) (.camera p v) u) s))
  ∧ (∀ (p v : Nat) (s : State), camReceives s p = true →
    ∃ t, exec (.camFrameStart p ⟨v, 3⟩) s = .next t ∧ t = { s with regs := t.regs, out := [] }
      ∧ t.rdF (CAM_PORT_ERR1 (camDie p) (camNo p)) CAM_PORT_ERR1_SOT_ERR
          = min (2 ^ CAM_PORT_ERR1_SOT_ERR.len - 1) (s.rdF (CAM_PORT_ERR1 (camDie p) (camNo p)) CAM_PORT_ERR1_SOT_ERR + 1)
      ∧ ∀ a, a ≠ CAM_PORT_ERR1 (camDie p) (camNo p) → t.rd a = s.rd a)
  ∧ (∀ (p v : Nat) (k : CamPacket) (s : State), p < 8 → v < 4 → camReceives s p = true → k.header = 0 →
    (streamRoutes s p v = [] →
      ∃ t, exec (.camLine p v k) s = .next t ∧ t = { s with regs := t.regs, out := [] }
        ∧ t.rdF (CAM_PORT_ERR2 (camDie p) (camNo p)) CAM_PORT_ERR2_UNROUTED
            = min (2 ^ CAM_PORT_ERR2_UNROUTED.len - 1) (s.rdF (CAM_PORT_ERR2 (camDie p) (camNo p)) CAM_PORT_ERR2_UNROUTED + 1)
        ∧ ∀ a, a ≠ CAM_PORT_ERR2 (camDie p) (camNo p) → t.rd a = s.rd a)
    ∧ (∀ (h : Nat) (r : Route) (rest : List (Nat × Route)), streamRoutes s p v = (h, r) :: rest →
      (k.dt ≠ rDt r →
        ∃ t, exec (.camLine p v k) s = .next t ∧ t = { s with regs := t.regs, out := [] }
          ∧ t.rdF (CAM_PORT_ERR2 (camDie p) (camNo p)) CAM_PORT_ERR2_OTHER_DT
              = min (2 ^ CAM_PORT_ERR2_OTHER_DT.len - 1) (s.rdF (CAM_PORT_ERR2 (camDie p) (camNo p)) CAM_PORT_ERR2_OTHER_DT + 1)
          ∧ ∀ a, a ≠ CAM_PORT_ERR2 (camDie p) (camNo p) → t.rd a = s.rd a)
      ∧ (k.dt = rDt r → k.crcBad = false → s.flag (STREAM_STATUS (camDie p) (camNo p) v) STREAM_STATUS_IN_FRAME = true → (s.stream p v).lost = 0 →
          (s.stream p v).lines < rHeight r → (∀ n, n < 4 → ∀ x ∈ (s.head (4 * (camDie p).idx + n)).ahead, x.2.waits = []) →
        ∃ u, (u = { s with regs := u.regs, streams := u.streams, warps := u.warps, out := [] } ∧ (u.stream p v).lines = (s.stream p v).lines + 1
            ∧ (∀ x ∈ streamRoutes s p v, camForm x.2 = some .a →
                (u.stream p v).store.getLast? = some ⟨s.rd64 (STREAM_FRAME_LO (camDie p) (camNo p) v), (s.stream p v).lines, k.samples⟩ ∧ (u.stream p v).store.length ≤ 16)
            ∧ (∀ x ∈ streamRoutes s p v, camForm x.2 = some .b →
                (tget [] (epSub x.2.sink) (u.warp (camDie p)).stores).getLast? = some ⟨s.rd64 (STREAM_FRAME_LO (camDie p) (camNo p) v), (s.stream p v).lines, k.samples⟩)
            ∧ u.rdF (STREAM_STATUS (camDie p) (camNo p) v) STREAM_STATUS_DT = k.dt % 64
            ∧ ((if dtYuv k.dt then k.samples.length / 2 else k.samples.length) = rWidth r →
                ∀ a, a ≠ STREAM_STATUS (camDie p) (camNo p) v → u.rd a = s.rd a))
          ∧ exec (.camLine p v k) s = .next (ran (fun _ => captureRow p v (s.stream p v).lines k.dt k.samples
              ((if dtYuv k.dt then k.samples.length / 2 else k.samples.length) != rWidth r) u) s))))
  ∧ (∀ (p v h : Nat) (r : Route) (rest : List (Nat × Route)) (s : State), p < 8 → v < 4 → s.flag (CAM_PORT_STATUS (camDie p) (camNo p)) CAM_PORT_STATUS_READY = true →
    unitReset s (camDie p) (bitCamera (camNo p)) = false → islandOut s (camDie p) (13 + camNo p) = true → s.flag (STREAM_STATUS (camDie p) (camNo p) v) STREAM_STATUS_IN_FRAME = true →
    streamRoutes s p v = (h, r) :: rest → (s.stream p v).lost = 0 → (s.stream p v).eccUncorr = 0 → (s.stream p v).crcErr = 0 → (s.stream p v).lenErr = 0 → (s.stream p v).missing = 0 → (s.camPort p).ecc = 0 →
    ∃ u, (u = { s with regs := u.regs, streams := u.streams, out := [] } ∧ u.flag (STREAM_STATUS (camDie p) (camNo p) v) STREAM_STATUS_IN_FRAME = false
        ∧ u.rdF (STREAM_STATUS (camDie p) (camNo p) v) STREAM_STATUS_LINES = (s.stream p v).lines % 2 ^ 13 ∧ u.stream p v = s.stream p v
        ∧ u.rdF (STREAM_ERR1 (camDie p) (camNo p) v) STREAM_ERR1_SHORT_FRAMES
            = min (2 ^ STREAM_ERR1_SHORT_FRAMES.len - 1) (s.rdF (STREAM_ERR1 (camDie p) (camNo p) v) STREAM_ERR1_SHORT_FRAMES + b2n (decide ((s.stream p v).lines < rHeight r)))
        ∧ ∀ a, a ≠ STREAM_STATUS (camDie p) (camNo p) v → a ≠ STREAM_ERR1 (camDie p) (camNo p) v → u.rd a = s.rd a)
      ∧ (captureRoute s p v = none → exec (.camFrameEnd p ⟨v, 0⟩) s = .next (ran (fun _ => u) s))
      ∧ (∀ (g : Nat) (y : Route) (tk : Ticket) (b : Desc), captureRoute s p v = some (g, y) → (s.capture g).filling = some (tk, b) → (s.capture g).failed = none →
          exec (.camFrameEnd p ⟨v, 0⟩) s = .next (ran (fun _ =>
            finish tk stOk (captureDetail (s.rd64 (STREAM_FRAME_LO (camDie p) (camNo p) v)) (decide ((s.stream p v).lines < rHeight y)) (s.capture g).lineErr (s.capture g).missing (s.capture g).dropped)
              (setCapture g { s.capture g with filling := none, failed := none, lineErr := false, missing := false, dropped := 0 } u)) s)))

/-- R226, R238: a stream that times out, or whose lanes stop, is lost once: LOST is set, its camera layers go transparent, and the loss is posted with its cause. R219: the lane status follows the lanes. R239: a write of 1 to CAM_PORT_CLR clears the port's and its streams' error counters, and a write of 0 nothing. -/
def Obligations.CameraLossAndStatus : Prop :=
  (∀ (p v cause : Nat) (s : State), p < 8 → v < 4 →
    (s.flag (STREAM_STATUS (camDie p) (camNo p) v) STREAM_STATUS_LOST = true → loseStream p v cause s = s)
    ∧ (s.flag (STREAM_STATUS (camDie p) (camNo p) v) STREAM_STATUS_LOST = false →
      ∃ u, (u = { s with regs := u.regs, heads := u.heads } ∧ u.flag (STREAM_STATUS (camDie p) (camNo p) v) STREAM_STATUS_LOST = true
          ∧ (∀ h l, (∀ x ∈ routesOf s 2, ¬ (epType x.2.sink = 0x01 ∧ layerStream s x.2 = some (p, v) ∧ epUnit x.2.sink = h ∧ epSub x.2.sink = l)) → (u.head h).layer l = (s.head h).layer l)
          ∧ (∀ x ∈ routesOf s 2, epType x.2.sink = 0x01 → layerStream s x.2 = some (p, v) → ((u.head (epUnit x.2.sink)).layer (epSub x.2.sink)).camOn = false)
          ∧ ∀ a, a ≠ STREAM_STATUS (camDie p) (camNo p) v → a ≠ CAM_LINESTORE (camDie p) → a ≠ WARP_STATUS (camDie p) → a ≠ WARP_STORE (camDie p) → u.rd a = s.rd a)
        ∧ loseStream p v cause s = postStream p v 0x0401 (v + cause * 2 ^ 8) u))
  ∧ (∀ (p : Nat) (s : State), p < 8 → s.flag (CAM_PORT_CFG (camDie p) (camNo p)) CAM_PORT_CFG_EN = true →
    (∀ v, v < 4 → exec (.camStreamTimeout p v) s = .next (ran (loseStream p v 0) s))
    ∧ exec (.camLanesLost p) s = .next (ran (fun u => u |> loseStream p 0 2 |> loseStream p 1 2 |> loseStream p 2 2 |> loseStream p 3 2) s)
    ∧ (∀ (clk : Bool) (hs ulps : Nat) (deskew : Bool), hs < 16 → ulps < 16 →
      ∃ t, exec (.camLaneState p clk hs ulps deskew) s = .next t ∧ t = { s with regs := t.regs, out := [] }
        ∧ t.flag (CAM_PORT_STATUS (camDie p) (camNo p)) CAM_PORT_STATUS_CLK_ACTIVE = clk ∧ t.rdF (CAM_PORT_STATUS (camDie p) (camNo p)) CAM_PORT_STATUS_LANE_HS = hs
        ∧ t.rdF (CAM_PORT_STATUS (camDie p) (camNo p)) CAM_PORT_STATUS_LANE_ULPS = ulps
        ∧ t.flag (CAM_PORT_STATUS (camDie p) (camNo p)) CAM_PORT_STATUS_DESKEW_DONE = (deskew || s.flag (CAM_PORT_STATUS (camDie p) (camNo p)) CAM_PORT_STATUS_DESKEW_DONE)
        ∧ ∀ a, a ≠ CAM_PORT_STATUS (camDie p) (camNo p) → t.rd a = s.rd a))
  ∧ (∀ (f : Fun) (n : Nat) (v : Word) (s : State), n < 4 → (accessRow s f (addrOff (CAM_PORT_CLR f.ep n))).isSome = true →
    (CAM_PORT_CLR_CLEAR.get v = 0 → exec (.camPortClear f n v) s = .next (fresh s))
    ∧ (CAM_PORT_CLR_CLEAR.get v = 1 →
      ∃ t, exec (.camPortClear f n v) s = .next t ∧ t = { s with regs := t.regs, out := [] }
        ∧ t.rd (CAM_PORT_ERR0 f.ep n) = 0 ∧ t.rd (CAM_PORT_ERR1 f.ep n) = 0 ∧ t.rd (CAM_PORT_ERR2 f.ep n) = 0
        ∧ (∀ w, w < 4 → t.rd (STREAM_ERR0 f.ep n w) = 0 ∧ t.rd (STREAM_ERR1 f.ep n w) = 0)
        ∧ ∀ a, a ≠ CAM_PORT_ERR0 f.ep n → a ≠ CAM_PORT_ERR1 f.ep n → a ≠ CAM_PORT_ERR2 f.ep n →
            (∀ w, w < 4 → a ≠ STREAM_ERR0 f.ep n w ∧ a ≠ STREAM_ERR1 f.ep n w) → t.rd a = s.rd a))

/-- R255 to R260: each packet of a draw stream, held whole and right, acts on the pass that the binner is at and moves it on by its length: NOP only so; PIPELINE, RESOURCES, CONSTANTS, VERTEX_BUFFERS, INDEX_BUFFER, VIEWPORT and DYNAMIC set the state they name; the draws run with the state in force: their vertices are fetched, the primitives that survive clipping and culling are numbered on, and binned (R262 to R265); END begins the final render. R261: a draw without its state, or an indexed one beyond its buffer, ends the pass with a stream error at its own packet. R260, R266: a partial render loads each listed tile, draws its list, spills it, and binning goes on with the primitive that stopped. -/
def Obligations.DrawPacketsAct : Prop :=
  (∀ (d : Die) (s s2 : State) (j : Job) (arg len : Nat) (b : List Byte),
    (PacketAt d 0x00 (fresh s) j arg len b s2 → exec (.drawNop d) s = .next (ran (fun _ => setPass d j (nextPacket j len) s2) s))
    ∧ (PacketAt d 0x01 (fresh s) j arg len b s2 → ∀ o s3, bindPipe d j (fb b 4 8) s2 = (.ok o, s3) →
        exec (.pipeline d) s = .next (ran (fun _ => setPass d { j with waves := max j.waves o.waves } { nextPacket j len with pipe := some o } s3) s))
    ∧ (PacketAt d 0x02 (fresh s) j arg len b s2 →
        exec (.resources d) s = .next (ran (fun _ => setPass d j { nextPacket j len with res := fb b 4 8 } s2) s))
    ∧ (PacketAt d 0x03 (fresh s) j arg len b s2 → exec (.constants d) s = .next (ran (fun _ =>
        setPass d j { nextPacket j len with consts := (upto (len - 1)).foldl (fun c i => tset (arg + i) (fb b (4 + 4 * i) 4) c) (passOf j).consts } s2) s))
    ∧ (PacketAt d 0x04 (fresh s) j arg len b s2 → exec (.vertexBuffers d) s = .next (ran (fun _ =>
        setPass d j { nextPacket j len with vbs := (upto ((len - 1) / 3)).foldl (fun v i => tset (arg + i) (fb b (4 + 12 * i) 8, fb b (12 + 12 * i) 4) v) (passOf j).vbs } s2) s))
    ∧ (PacketAt d 0x05 (fresh s) j arg len b s2 →
        exec (.indexBuffer d) s = .next (ran (fun _ => setPass d j { nextPacket j len with ib := some (fb b 4 8, fb b 12 4, arg == 1) } s2) s))
    ∧ (PacketAt d 0x06 (fresh s) j arg len b s2 → exec (.viewport d) s = .next (ran (fun _ => setPass d j { nextPacket j len with viewport := b.drop 4 } s2) s))
    ∧ (PacketAt d 0x07 (fresh s) j arg len b s2 → exec (.dynamic d) s = .next (ran (fun _ => setPass d j { nextPacket j len with dynamic := b.drop 4 } s2) s))
    ∧ (∀ (out : DrawOut) (acc : List ShaderAccess),
        (PacketAt d 0x08 (fresh s) j arg len b s2 →
          exec (.draw d out acc) s = .next (ran (fun _ => runDraws d j 0x08 len arg false [drawOf false (b.drop 4)] out acc s2) s))
        ∧ (PacketAt d 0x09 (fresh s) j arg len b s2 →
          exec (.drawIndexed d out acc) s = .next (ran (fun _ => runDraws d j 0x09 len arg true [drawOf true (b.drop 4)] out acc s2) s))
        ∧ (PacketAt d 0x0A (fresh s) j arg len b s2 → fb b 4 8 % 4 = 0 →
          (fb b 12 2 ≠ 0 → fb b 4 8 + (fb b 12 2 - 1) * fb b 14 2 + (if fbit b 16 0 1 = 1 then 20 else 16) ≤ 2 ^ 48) →
          ∀ rs s3, readRecords d j (fb b 4 8) (fb b 14 2) (if fbit b 16 0 1 = 1 then 20 else 16) (fb b 12 2) s2 = (.ok rs, s3) →
          exec (.drawIndirect d out acc) s = .next (ran (fun _ =>
            runDraws d j 0x0A len arg (fbit b 16 0 1 == 1) (rs.map (drawOf (fbit b 16 0 1 == 1))) out acc s3) s)))
    ∧ (PacketAt d 0x0B (fresh s) j arg len b s2 → exec (.endStream d) s = .next (ran (fun _ =>
        setJob d { j with phase := 3, pass := some (nextPacket j len) } s2) s)))
  ∧ (∀ (d : Die) (j j1 : Job) (ty len query : Nat) (indexed : Bool) (cs : List DrawCall) (out : DrawOut) (acc : List ShaderAccess) (s : State),
    j1 = { j with pass := some (nextPacket j len) } →
    ((passOf j).pipe = none → runDraws d j ty len query indexed cs out acc s = streamErr d j 4 ty s)
    ∧ (∀ o : Pipe, (passOf j).pipe = some o →
      ((∃ a ∈ attrsOf o.obj, tfind a.1 (passOf j).vbs = none) → runDraws d j ty len query indexed cs out acc s = streamErr d j 4 ty s)
      ∧ ((∀ a ∈ attrsOf o.obj, (tfind a.1 (passOf j).vbs).isSome = true) →
        (∀ addr size wide, indexed = true → (passOf j).ib = some (addr, size, wide) → (∃ c ∈ cs, c.count ≠ 0 ∧ c.inst ≠ 0 ∧ size ≤ c.first * (if wide then 4 else 2)) →
          runDraws d j ty len query indexed cs out acc s = streamErr d j 5 ty s)
        ∧ ((indexed = true → (passOf j).ib.isSome = true) → (∀ c ∈ cs, c.count = 0 ∨ c.inst = 0) → runDraws d j ty len query indexed cs out acc s = setJob d j1 s)
        ∧ (∀ c vs s1 s2 ps st, cs = [c] → c.count ≠ 0 → c.inst ≠ 0 → indexed = false → o.res = 0 → fetchDraw d j1 o.obj false c s = (.ok vs, s1) →
            tryAll (shaderAccess d j1) acc s1 = (none, s2) → st = ⟨o, (passOf j).viewport, (passOf j).dynamic, query⟩ →
            ps = numbered j st out (passOf j).pos (drawShapes j st out (passOf j).pos 0 c vs) 0 →
            runDraws d j ty len query indexed cs out acc s =
              binPrims d { j1 with pass := some { nextPacket j len with count := (passOf j).count + ps.length } } ps (16 * (1 + o.vary) * (c.count * c.inst)) s2))))
  ∧ (∀ (d : Die) (j : Job) (acc : List ShaderAccess) (frags : List FragOut) (tiles : List (Nat × List TilePx)) (s s1 s2 s3 : State),
    (s.gpu d).jobs.find? (fun k => k.kind == 0 && k.phase == 2 && k.clusters != []) = some j →
    collect (takeTile d j) (passOf j).lists (fresh s) = (.ok tiles, s1) → tryAll (shaderAccess d j) acc s1 = (none, s2) → tryAll (spillTile d j) (passOf j).lists s2 = (none, s3) →
    exec (.partialRenderDone d ⟨acc, frags⟩) s = .next (ran (fun _ => s3 |> pcAdd d 9 (passOf j).lists.length |> satF (GPU_BIN_OVERFLOWS d) GPU_BIN_OVERFLOWS_COUNT 1
      |> binPrims d { j with phase := 1, pass := some (reclaimed (passOf j) (drawTiles j frags tiles (passOf j).queries)) } (passOf j).rest
          ((passOf j).restExtra + (((passOf j).rest.head?).map (fun b => b.share)).getD 0)) s))

/-- R274, R271, R281: the scheduler counts time, drops deadlines that are gone, hands the free clusters out by rank, and asks lower work to give way; a cluster goes to the job that ranks first, and shows no more waves than its job's shaders allow (R240). R279, R280, R282: an expired slice asks the context for its clusters, the boundary gives them and saves a context that has none left, an expired grace evicts an evictable dispatch and marks the rest late. R245, R284: a dispatch that has ended completes with OK, or DEADLINE_MISSED past its deadline; a pass that has ended first renders every tile, and adds its occlusion counts (R255, R266). -/
def Obligations.GpuJobsAreScheduled : Prop :=
  (∀ (d : Die) (bad : List Nat) (s : State),
    exec (.jobSchedule d bad) s = .next (ran (fun u => u |> account d |> cancelGone d |> refreshReady d |> noCluster d |> handOut d bad 17 |> gateClusters d |> refreshReady d |> askForWaiting d
      |> refreshGpu d |> refreshE d) s)
    ∧ (∀ n, bestJob s d (takers s d) = none → handOut d bad n s = s)
    ∧ (∀ n j c, bestJob s d (takers s d) = some j → ((upto 8).filter (clusterFree s d)).find? (clusterOn s d) = some c →
        handOut d bad (n + 1) s = handOut d bad n (giveCluster d c j bad s))
    ∧ (∀ c j, j ∈ (s.gpu d).jobs → j.phase ≠ 0 → tfind c (s.gpu d).owners = some j.fn →
        ∃ k, k ∈ ((giveCluster d c j bad s).gpu d).jobs ∧ k.ticket = j.ticket ∧ k.clusters = j.clusters ++ [c] ∧ k.waves = j.waves)
    ∧ (∀ c, c < 8 → (refreshGpu d s).rdF (GPU_CLUSTER d c) GPU_CLUSTER_WAVES ≤ 16
        ∧ (∀ j, clusterJob s d c = some j → (refreshGpu d s).rdF (GPU_CLUSTER d c) GPU_CLUSTER_WAVES ≤ j.waves)
        ∧ (clusterJob s d c = none → (refreshGpu d s).rdF (GPU_CLUSTER d c) GPU_CLUSTER_WAVES = 0)))
  ∧ (∀ (d : Die) (q : RingId) (j : Job) (s : State), s.job d q = some j →
    (s.rdF (GPU_SCHED_CFG d) GPU_SCHED_CFG_SLICE_US ≠ 0 → j.clusters ≠ [] → j.sliceFrom + 1000 * s.rdF (GPU_SCHED_CFG d) GPU_SCHED_CFG_SLICE_US ≤ s.now d →
      (∃ w ∈ (s.gpu d).jobs, mayRun s d w = true ∧ w.clusters = [] ∧ equalRank s d w j = true) → exec (.sliceExpiry d q) s = .next (ran (fun u => askJob d 3 j.clusters u j) s))
    ∧ (∀ (a : GiveWay) (bad : List Nat), j.asked = some a → j.slow = false →
      exec (.preemptBoundary d q bad) s = .next (ran (fun u => schedule d bad ((if j.clusters.all (fun c => a.clusters.contains c) then saveRecord d else id)
        (setJob d { j with clusters := j.clusters.filter (fun c => !a.clusters.contains c), asked := none, slow := false }
          (u |> account d |> maxF (GPU_SCHED_STATUS d) GPU_SCHED_STATUS_PREEMPT_MAX_US ((s.now d - a.time) / 1000) |> pcAdd d (4 + boundaryKind j) 1)))) s))
    ∧ (∀ (a : GiveWay) (ab old : Nat), j.asked = some a → a.trigger = 1 → a.time + 1000 * max 1 (s.rdF (GPU_SCHED_CFG d) GPU_SCHED_CFG_GRACE_US) ≤ s.now d → j.kind ≠ 0 →
      (s.flag (RING_CFG q) RING_CFG_EVICTABLE = true → ownE s d j < 8 →
        exec (.graceExpiry d q ab old) s = .next (ran (fun u => u |> pcAdd d 7 1
          |> postGpu d 0x0500 (jobFn j + jobCtx j * 2 ^ 16 + q.ring * 2 ^ 24 + (min 0xFF ab * 2 ^ 16 + min 0xFFFF old) * 2 ^ 32) (some j.fn)
          |> failJob d j stEvicted (min 0xFF ab * 2 ^ 16 + min 0xFFFF old)) s))
      ∧ (s.flag (RING_CFG q) RING_CFG_EVICTABLE = false → exec (.graceExpiry d q ab old) s = .next (ran (setJob d { j with slow := true }) s)))
    ∧ (∀ (o : JobObs) (s3 : State), j.clusters ≠ [] → j.kind ≠ 0 → j.phase = 1 → o.tileEcc = false → o.corrected = [] →
      tryAll (shaderAccess d j) o.accesses (countShaded d o (fresh s)) = (none, s3) →
      exec (.jobDone d q o) s = .next (ran (fun _ => completeJob d j s3) s))
    ∧ (∀ (o : JobObs) (tiles : List (Nat × List TilePx)) (r : List (Nat × List TilePx) × Tab Nat) (s1 s2 s3 s4 : State), j.clusters ≠ [] → j.kind = 0 → j.phase = 3 →
      o.tileEcc = false → o.corrected = [] → collect (takeTile d j) (upto (tileCount j)) (countShaded d o (fresh s)) = (.ok tiles, s1) →
      tryAll (shaderAccess d j) o.accesses s1 = (none, s2) → r = drawTiles j o.frags tiles (passOf j).queries → tryAll (storeTile d j) r.1 s2 = (none, s3) →
      tryAll (addQuery d j) r.2 s3 = (none, s4) → exec (.jobDone d q o) s = .next (ran (fun _ => s4 |> pcAdd d 9 (tileCount j) |> completeJob d j) s)))
  ∧ (∀ (d : Die) (j : Job) (s : State), j.kind ≠ 0 →
    (j.deadline = false → completeJob d j s = endJob d j stOk 0 (pcAdd d 1 1 s))
    ∧ (∀ t : Int, jobDeadline s d j = some t → (s.now d : Int) ≤ t → completeJob d j s = endJob d j stOk 0 (pcAdd d 2 1 (pcAdd d 1 1 s))))

/-- R273: the share window closes with the use of every function in its entry and the counts begun anew. R281: a cluster idle for IDLE_OFF_US loses its power unless it is to be kept on. R272: a write of GPU_CTX_STORE takes the base, and locks it where the store fits; once locked it takes nothing. R289: CLEAR zeroes every counter and PREEMPT_MAX_US, and FREEZE is taken as written. -/
def Obligations.GpuRegistersAct : Prop :=
  (∀ (d : Die) (s : State), ∃ t, exec (.gpuShareWindow d) s = .next t ∧ t = { s with regs := t.regs, gpus := t.gpus, out := [] } ∧ (t.gpu d).usage = [] ∧ (t.gpu d).jobs = (s.gpu d).jobs
    ∧ (∀ i, i < 64 → s.rdF (GPU_FUNC_USE d i) GPU_FUNC_USE_SHARE = 0 → t.rdF (GPU_FUNC_USE d i) GPU_FUNC_USE_USED = 0)
    ∧ ∀ i, i < 64 → s.rdF (GPU_FUNC_USE d i) GPU_FUNC_USE_SHARE ≠ 0 → presentClusters s d ≠ [] → t.rdF (GPU_FUNC_USE d i) GPU_FUNC_USE_USED =
        min 0xFF (tget 0 (Fun.key ⟨if i < 32 then d else d.other, i % 32⟩) ((account d s).gpu d).usage * 256 / (10000000 * (presentClusters s d).length)))
  ∧ (∀ (d : Die) (c : Nat) (s : State), c < 8 → clusterJob s d c = none → s.flag (GPU_POWER_CFG d) GPU_POWER_CFG_KEEP_ON = false →
    nbit (s.rd (UNIT_KEEP_ON d)).toNat (bitCluster c) = false →
    ∃ t, exec (.clusterIdleOff d c) s = .next t ∧ t = { s with regs := t.regs, out := [] } ∧ t.flag (GPU_CLUSTER d c) GPU_CLUSTER_POWERED = false
      ∧ nbit (t.rd (UNIT_POWERED d)).toNat (bitCluster c) = false ∧ ∀ a, a ≠ GPU_CLUSTER d c → a ≠ UNIT_POWERED d → t.rd a = s.rd a)
  ∧ (∀ (f : Fun) (v : Word) (s : State), (accessRow s f (addrOff (GPU_CTX_STORE f.ep))).isSome = true →
    (s.flag (GPU_CTX_STORE f.ep) GPU_CTX_STORE_LOCK = true → exec (.gpuCtxStoreLock f v) s = .next (fresh s))
    ∧ (s.flag (GPU_CTX_STORE f.ep) GPU_CTX_STORE_LOCK = false →
      (GPU_CTX_STORE_LOCK.get v = 0 ∨ (GPU_CTX_STORE_BASE_2M.get v * 2 ^ 21 + 2 ^ 23 ≤ fitted s f.ep ∧ rangeTaken s f.ep (GPU_CTX_STORE_BASE_2M.get v * 2 ^ 21) (2 ^ 23) = false) →
        ∃ t, exec (.gpuCtxStoreLock f v) s = .next t ∧ t = { s with regs := t.regs, out := [] } ∧ t.rdF (GPU_CTX_STORE f.ep) GPU_CTX_STORE_BASE_2M = GPU_CTX_STORE_BASE_2M.get v
          ∧ t.flag (GPU_CTX_STORE f.ep) GPU_CTX_STORE_LOCK = decide (GPU_CTX_STORE_LOCK.get v = 1) ∧ ∀ a, a ≠ GPU_CTX_STORE f.ep → t.rd a = s.rd a)))
  ∧ (∀ (f : Fun) (v : Word) (s : State), (accessRow s f (addrOff (GPU_PC_CTRL f.ep))).isSome = true →
    ∃ t, exec (.gpuPcClear f v) s = .next t ∧ t = { s with regs := t.regs, gpus := t.gpus, out := [] } ∧ t.rdF (GPU_PC_CTRL f.ep) GPU_PC_CTRL_FREEZE = GPU_PC_CTRL_FREEZE.get v
      ∧ (GPU_PC_CTRL_CLEAR.get v = 1 → (∀ i, i < 24 → t.rd (GPU_PC f.ep i) = 0) ∧ t.rdF (GPU_SCHED_STATUS f.ep) GPU_SCHED_STATUS_PREEMPT_MAX_US = 0)
      ∧ ∀ a, a ≠ GPU_PC_CTRL f.ep → a ≠ GPU_SCHED_STATUS f.ep → (∀ i, i < 24 → a ≠ GPU_PC f.ep i) → t.rd a = s.rd a)

/-- R112, R299: a line is filled only in a way that the masks leave to the request; R113: the first S route of a die empties its ways of lines of N, and the last leaves none. R306: mitigation begins with the activation that reaches THRESH, and an RFM command follows every RFM_STRIDE activations. R301, R305: an open channel serves, of the waiting requests that are not held, the one that goes first; its bytes are counted, and a request of the other die crosses the bundle that its granule of 256 bytes falls to among those that carry traffic (R442; which granule goes to which is the model's choice, notes/assumptions/122.md); one that hits an open row activates nothing, another opens its row and counts the activation. R303, R305: a promotion is counted; the 32 ms window ends with no port throttled. R304: the 1 ms window closes the counts of use and shows each port's highest urgency. -/
def Obligations.MemoryServesRequests : Prop :=
  (∀ (d : Die) (ch : Nat) (waiting : List MemReq) (s : State), channelClosed s d ch = false → ∀ mine, mine = waiting.filter (fun r => channelOf r.addr == ch && decide (r.addr < fitted s d)
      && decide (r.port < 24) && s.flag (DRAM_PORT_STATUS d r.port) DRAM_PORT_STATUS_PRESENT) →
    (bestReq s d mine (mine.filter (fun r => !held s d mine r)) = none → exec (.memRequestServe d ch waiting ⟨0, [], 0, []⟩) s = .next (fresh s))
    ∧ (∀ r, bestReq s d mine (mine.filter (fun r => !held s d mine r)) = some r → (s.dram d).cache = [] → r.alloc = false → openHit s d mine r = true →
      ∃ t, exec (.memRequestServe d ch waiting ⟨0, [], 0, []⟩) s = .next t ∧ t = { s with regs := t.regs, drams := t.drams, rinlar := t.rinlar, out := t.out }
        ∧ (r.port ≠ 22 → t.out = [])
        ∧ (r.port = 22 → (s.ebrum d).sets = [] → liveBundles s ≠ [] →
            t.out = [.link d.other ((liveBundles s).getD (r.addr / 256 % (liveBundles s).length) 0) (some r.addr)])
        ∧ t.rd64 (DRAM_PORT_BYTES_LO d r.port) = (s.rd64 (DRAM_PORT_BYTES_LO d r.port) + r.len) % 2 ^ 64
        ∧ (t.dram d).openRow = (s.dram d).openRow ∧ (t.dram d).acts = (s.dram d).acts
        ∧ tget 0 (bankKey s d r.addr) (t.dram d).hits = tget 0 (bankKey s d r.addr) (s.dram d).hits + 1
        ∧ tget 0 r.port (t.dram d).urgency = max (reqUrgency s d r) (tget 0 r.port (s.dram d).urgency)
        ∧ ∀ a, a ≠ DRAM_PORT_BYTES_LO d r.port → a ≠ DRAM_PORT_BYTES_HI d r.port → t.rd a = s.rd a)
    ∧ (∀ r, bestReq s d mine (mine.filter (fun r => !held s d mine r)) = some r → (s.dram d).cache = [] → r.alloc = false → openHit s d mine r = false →
      ∃ t, exec (.memRequestServe d ch waiting ⟨0, [], 0, []⟩) s = .next t ∧ (r.port ≠ 22 → ∀ b, .link d.other b (some r.addr) ∉ t.out) ∧ tfind (bankKey s d r.addr) (t.dram d).openRow = some (rowOf s d r.addr)
        ∧ tget 0 (bankKey s d r.addr * 2 ^ 24 + rowOf s d r.addr / 256) (t.dram d).acts = tget 0 (bankKey s d r.addr * 2 ^ 24 + rowOf s d r.addr / 256) (s.dram d).acts + 1
        ∧ tfind (bankKey s d r.addr * 32 + r.port) (t.dram d).lastAct = some (s.now d)))
  ∧ (∀ (d : Die) (r : MemReq) (s : State), ∀ key, key = bankKey s d r.addr * 2 ^ 24 + rowOf s d r.addr / 256 → ∀ n, n = tget 0 key (s.dram d).acts + 1 →
    (tfind key (s.dram d).rfmAt = none → n < s.rdF (DRAM_RD_CFG d) DRAM_RD_CFG_THRESH → (activate d r s).out = s.out ∧ ((activate d r s).dram d).rfmAt = (s.dram d).rfmAt)
    ∧ (tfind key (s.dram d).rfmAt = none → s.rdF (DRAM_RD_CFG d) DRAM_RD_CFG_THRESH ≤ n → tfind key ((activate d r s).dram d).rfmAt = some n)
    ∧ (∀ m, tfind key (s.dram d).rfmAt = some m → m + max 1 (s.rdF (DRAM_RD_CFG d) DRAM_RD_CFG_RFM_STRIDE) ≤ n →
        tfind key ((activate d r s).dram d).rfmAt = some n ∧ (activate d r s).out = s.out ++ [.rfm d (bankKey s d r.addr / 32) (bankKey s d r.addr % 32)]))
  ∧ (∀ (d : Die) (r : MemReq) (cls u line : Nat) (s : State),
    (r.alloc = false → allocWays s d r = [])
    ∧ (∀ w ∈ allocWays s d r, nbit (s.rdF (CACHE_S_WAYS d) CACHE_S_WAYS_S_MASK) w = true → secureReq r = true ∨ sRouteLives s d = false)
    ∧ (secureReq r = true → ∀ w ∈ allocWays s d r, nbit (s.rdF (CACHE_S_WAYS d) CACHE_S_WAYS_S_MASK) w = true)
    ∧ (lineAt s d (64 * line) = none → allocWays s d r = [] → cacheLine d r cls u line s = s)
    ∧ (lineAt s d (64 * line) = none → allocWays s d r ≠ [] → ∃ k, k % 16 ∈ allocWays s d r
        ∧ tfind k ((cacheLine d r cls u line s).dram d).cache = some ⟨line, r.write, secureReq r⟩)
    ∧ (sRouteLives s d = false → (∀ e ∈ ((sRouteComes d s).dram d).cache, inSWay s d e.1 = true → e.2.secure = true)
        ∧ ∀ e ∈ ((sRouteGoes d s).dram d).cache, inSWay s d e.1 = false))
  ∧ (∀ (d : Die) (s : State),
    (∀ p, p < 24 → 2 ≤ portClass s d p → ∃ t, exec (.agePromotion d p) s = .next t ∧ t = { s with regs := t.regs, out := [] }
      ∧ t.rdF (DRAM_PORT_STATUS d p) DRAM_PORT_STATUS_PROMOTIONS = min (2 ^ 16 - 1) (s.rdF (DRAM_PORT_STATUS d p) DRAM_PORT_STATUS_PROMOTIONS + 1)
      ∧ ∀ a, a ≠ DRAM_PORT_STATUS d p → t.rd a = s.rd a)
    ∧ (∃ t, exec (.rdWindow d) s = .next t ∧ t = { s with regs := t.regs, drams := t.drams, out := [] } ∧ (t.dram d).acts = [] ∧ (t.dram d).throttled = []
      ∧ t.rdF (DRAM_RD_THROTTLED d) DRAM_RD_THROTTLED_PORTS = 0 ∧ (∀ p, p < 24 → t.flag (DRAM_PORT_STATUS d p) DRAM_PORT_STATUS_THROTTLED = false)
      ∧ ∀ a, a ≠ DRAM_RD_THROTTLED d → (∀ p, p < 24 → a ≠ DRAM_PORT_STATUS d p) → t.rd a = s.rd a)
    ∧ (∃ t, exec (.dramShareWindow d) s = .next t ∧ t = { s with regs := t.regs, drams := t.drams, out := [] } ∧ (t.dram d).bytes = [] ∧ (t.dram d).urgency = []
      ∧ (∀ p, p < 24 → t.rdF (DRAM_PORT_STATUS d p) DRAM_PORT_STATUS_URG_MAX = tget 0 p (s.dram d).urgency % 8)
      ∧ (∀ i, i < 64 → peakBytes s d ≠ 0 → t.rdF (DRAM_FUNC_USE d i) DRAM_FUNC_USE_USED =
          min 0xFF (tget 0 (Fun.key ⟨if i < 32 then d else d.other, i % 32⟩) (s.dram d).bytes * 256 / peakBytes s d))))

/-- R295, R296, R298: an uncorrectable word that the scrub meets in an ECC region is marked, counted once and posted; one that is marked already is not. R308, R311: a pass of periodic training begins at channel 0; a step gathers on its channel; it is counted, or discarded; the last of a type leaves a result outside its limits unused; a refresh applies the channel's results. R309–R311: GO of a new set-point halts the channels, at once or at the end of a step that gathers (notes/assumptions/127.md), and FSP_DONE puts it in force; an event that a halted crossing held is then delivered (R46). -/
def Obligations.MemoryIsMaintained : Prop :=
  (∀ (d : Die) (f : Fun) (port off : Nat) (scrub : Bool) (s : State), f.fn ≤ 63 → ∀ k, k = localKey (2 ^ 35 * d.idx + off / 4 * 4) →
    (s.poison.contains k = true → eccFound d f port off scrub s = s)
    ∧ (inEccData s d (off / 4 * 4) = true → s.poison.contains k = false → inCarve s d (off / 4 * 4) = false →
      ∃ u, (u = { s with regs := u.regs, rinlar := u.rinlar, poison := k :: s.poison }
          ∧ u.rdF (DRAM_ECC_UNCORR d (channelOf (off / 4 * 4))) DRAM_ECC_UNCORR_COUNT
              = min (2 ^ DRAM_ECC_UNCORR_COUNT.len - 1) (s.rdF (DRAM_ECC_UNCORR d (channelOf (off / 4 * 4))) DRAM_ECC_UNCORR_COUNT + 1)
          ∧ u.flag (DRAM_ECC_INFO d) DRAM_ECC_INFO_VALID = true)
        ∧ eccFound d f port off scrub s = postPf0 d 0x0600 (channelOf (off / 4 * 4)) (off / 4 * 4 + port * 2 ^ 64 + f.fn * 2 ^ 72 + (b2n (f.ep != d) + 4 * b2n scrub) * 2 ^ 80) u))
  ∧ (∀ (d : Die) (bad : List Nat) (s : State), s.rdF (DRAM_SCRUB d) DRAM_SCRUB_PERIOD_H ≠ 0 → s.flag (DRAM_STATUS d) DRAM_STATUS_SELF_REFRESH = false → s.flag (DRAM_STATUS d) DRAM_STATUS_READY = true →
    exec (.dramPatrolScrub d [] bad) s = .next (ran (fun u => bad.foldl (fun t w => eccFound d (pf0 d) 23 w true t) u) s))
  ∧ (∀ (d : Die) (s : State), s.flag (DRAM_STATUS d) DRAM_STATUS_SELF_REFRESH = false →
    (s.flag (DRAM_TRAIN_CFG d) DRAM_TRAIN_CFG_PERIODIC_EN = true → s.flag (DRAM_STATUS d) DRAM_STATUS_READY = true → (s.dram d).training = none →
      exec (.trainPeriodic d) s = .next (ran (setDram d { s.dram d with training := some ⟨0, 0, 0, false⟩ }) s))
    ∧ (∀ tr : Training, (s.dram d).training = some tr →
      (s.rdF (DRAM_STATUS d) DRAM_STATUS_GATHERING = 0 → s.flag (DRAM_STATUS d) DRAM_STATUS_FSP_BUSY = false → tr.ch < 8 →
        ∃ t, exec (.trainStepStart d []) s = .next t ∧ t = { s with regs := t.regs, out := [] } ∧ t.rdF (DRAM_STATUS d) DRAM_STATUS_GATHERING = 2 ^ tr.ch
          ∧ ∀ a, a ≠ DRAM_STATUS d → t.rd a = s.rd a)
      ∧ (s.rdF (DRAM_STATUS d) DRAM_STATUS_GATHERING ≠ 0 →
        (∀ outside, tr.discard = true ∨ tr.step + 1 < trainSteps tr.kind →
          ∃ t, exec (.trainStepDone d outside) s = .next t ∧ t = { s with regs := t.regs, drams := t.drams, xings := t.xings, out := [] } ∧ t.rdF (DRAM_STATUS d) DRAM_STATUS_GATHERING = 0
            ∧ (tr.discard = false → t.xings = s.xings) ∧ (tr.discard = true → ∀ i, i < 32 → (t.xing d (0x20 + i)).stopped = true)
            ∧ (t.dram d).training = some (if tr.discard then { tr with step := 0, discard := false } else { tr with step := tr.step + 1 })
            ∧ ∀ a, a ≠ DRAM_STATUS d → t.rd a = s.rd a)
        ∧ (tr.discard = false → trainSteps tr.kind ≤ tr.step + 1 →
          (∃ t, exec (.trainStepDone d true) s = .next t ∧ (t.dram d).training = trainNext tr ∧ (t.dram d).results = (s.dram d).results
            ∧ t.rdF (DRAM_TRAIN_STATUS d) DRAM_TRAIN_STATUS_FAILS = min (2 ^ DRAM_TRAIN_STATUS_FAILS.len - 1) (s.rdF (DRAM_TRAIN_STATUS d) DRAM_TRAIN_STATUS_FAILS + 1))
          ∧ (∃ t, exec (.trainStepDone d false) s = .next t ∧ (t.dram d).training = trainNext tr
            ∧ (tfind (32 * s.rdF (DRAM_STATUS d) DRAM_STATUS_FSP_CUR + 4 * tr.ch + tr.kind) (t.dram d).results).isSome = true)))))
  ∧ (∀ (d : Die) (ch : Nat) (s : State), ch < 8 → s.inReset.contains .memory = false →
    ∃ t, exec (.dramRefresh d ch) s = .next t ∧ t = { s with drams := t.drams, out := [] } ∧ (t.dram d).results = (s.dram d).results.filter (fun r => r.1 / 4 % 8 != ch)
      ∧ ∀ r, (s.dram d).results = [r] → r.1 / 4 % 8 = ch → tfind r.1 (t.dram d).phy = some r.2)
  ∧ (∀ (f : Fun) (v : Word) (s : State), (accessRow s f (addrOff (DRAM_FSP_CTRL f.ep))).isSome = true → DRAM_FSP_CTRL_GO.get v = 1 → s.flag (DRAM_STATUS f.ep) DRAM_STATUS_READY = true →
    (s.flag (DRAM_STATUS f.ep) DRAM_STATUS_FSP_BUSY = true → exec (.fspChange f v) s = .next (fresh s))
    ∧ (s.flag (DRAM_STATUS f.ep) DRAM_STATUS_FSP_BUSY = false → DRAM_FSP_CTRL_TARGET.get v < 3 → DRAM_FSP_CTRL_TARGET.get v ≠ s.rdF (DRAM_STATUS f.ep) DRAM_STATUS_FSP_CUR →
        s.flag (DRAM_STATUS f.ep) DRAM_STATUS_SELF_REFRESH = false → (∀ ch, ch < 8 → dqTest s f.ep ch = false) →
      ∃ t, exec (.fspChange f v) s = .next t ∧ t = { s with regs := t.regs, drams := t.drams, xings := t.xings, out := [] }
        ∧ t.flag (DRAM_STATUS f.ep) DRAM_STATUS_FSP_BUSY = true ∧ (t.dram f.ep).target = some (DRAM_FSP_CTRL_TARGET.get v)
        ∧ (s.rdF (DRAM_STATUS f.ep) DRAM_STATUS_GATHERING = 0 → ∀ i, i < 32 → (t.xing f.ep (0x20 + i)).stopped = true)
        ∧ (s.rdF (DRAM_STATUS f.ep) DRAM_STATUS_GATHERING ≠ 0 → t.xings = s.xings)
        ∧ t.rdF (DRAM_STATUS f.ep) DRAM_STATUS_FSP_CUR = s.rdF (DRAM_STATUS f.ep) DRAM_STATUS_FSP_CUR))
  ∧ (∀ (d : Die) (tg ns : Nat) (s : State), (s.dram d).target = some tg → s.rdF (DRAM_STATUS d) DRAM_STATUS_GATHERING = 0 → tg < 4 →
    ∃ u, (u = { s with regs := u.regs, drams := u.drams, xings := u.xings, out := [] } ∧ u.rdF (DRAM_STATUS d) DRAM_STATUS_FSP_CUR = tg ∧ u.flag (DRAM_STATUS d) DRAM_STATUS_FSP_BUSY = false
        ∧ (u.dram d).target = none ∧ (∀ i, i < 32 → (u.xing d (0x20 + i)).stopped = false)
        ∧ (∀ i, i < 32 → (s.xing d (0x20 + i)).stopped = true → (s.xing d (0x20 + i)).sent ≠ 0 → u.rdF (XING_COUNT d (0x20 + i)) XING_COUNT_LAST_COUNT = (s.xing d (0x20 + i)).sent % 2 ^ 16)
        ∧ ∀ a, a ≠ DRAM_STATUS d → (∀ i, i < 32 → a ≠ XING_COUNT d (0x20 + i) ∧ a ≠ XING_STATUS d (0x20 + i)) → u.rd a = s.rd a)
      ∧ exec (.fspDone d ns) s = .next (ran (fun _ => tryEntry (powerDie s d)
          (postPf0 d 0x0604 d.idx (s.rdF (DRAM_STATUS d) DRAM_STATUS_FSP_CUR + tg * 2 ^ 8 + ns % 2 ^ 32 * 2 ^ 32) u)) s))

/-- R319: a tick of a served engine takes what was set since the last one, moves a block of samples through the stages of Table 12.1 and posts clips; what was set is then in force. R317: sums saturate, an integer sample that enters leaves as it was, and one beyond full scale saturates and is a clip; a sum that saturates counts in BUS_CLIP. R318: a bus without effects gives what entered it 1 ms before. R329: from mute a ramp is linear in amplitude. R322: the loss of a slave port's clock clears CLOCKED and the rate, counts, and fades its inputs out; its return sets them. -/
def Obligations.AudioEngineTicks : Prop :=
  (∀ (o : AudioObs) (s : State), unitPresent s.part .a bitAudio = true → unitsStopped s [unitKey .a bitAudio] = false → s.inReset.contains .audio = false → islandOut s .a 17 = true →
    s.rdF (POWER_STATUS .a) POWER_STATUS_STATE < 2 →
    (o.missed = 0 → exec (.audioTick o) s = .next (ran (fun u => (upto 16).foldl postClips (audioBlock o (audioPending u))) s))
    ∧ (audioPending s).audio.nextGains = [] ∧ (audioPending s).audio.nextTones = []
    ∧ (∀ b, b < 16 → (tget AudioBus.empty b (audioPending s).audio.buses).nextFx = none)
    ∧ (∀ h m g, s.audio.nextGains = [(h, m, g)] → ((audioPending s).aroute h).gain = g ∧ ((audioPending s).aroute h).mute = m)
    ∧ (∀ k m lv f, s.audio.nextTones = [(k, m, lv, f)] → tfind k (audioPending s).audio.tones = some (m, lv, f)))
  ∧ ((∀ x : Int, -2 ^ 31 ≤ satQ x ∧ satQ x < 2 ^ 31 ∧ (-2 ^ 31 ≤ x → x < 2 ^ 31 → satQ x = x))
    ∧ (∀ (bits : Nat) (v : Int), bits = 16 ∨ bits = 24 → -2 ^ (bits - 1) ≤ v → v < 2 ^ (bits - 1) → fromInt bits v = v * 2 ^ (25 - bits) ∧ toInt bits (fromInt bits v) = v)
    ∧ (∀ (bits : Nat) (v : Int), bits = 16 ∨ bits = 24 ∨ bits = 32 → (clips v = true ↔ v < -2 ^ 24 ∨ 2 ^ 24 < v)
        ∧ (2 ^ 24 < v → toInt bits v = 2 ^ (bits - 1) - 1) ∧ (v < -2 ^ 24 → toInt bits v = -2 ^ (bits - 1)))
    ∧ (∀ (start len k : Nat) (x : Int), k < len → x * k % len = 0 → rampGain ⟨muteCb, 0, start, len⟩ (start + k) x = x * k / len
        ∧ rampGain ⟨muteCb, 0, start, len⟩ (start + len + k) x = x ∧ rampGain (Ramp.flat muteCb) (start + k) x = 0)
    ∧ (∀ (x : AudioBus) (t g : Nat) (v : Frame), x.master = Ramp.flat 0 → x.scale = 1 → x.scaleEnd ≤ t → x.fx = 0 → x.delay = 0 → x.delayPos = 0 → v ≠ [] →
        x.ahead.getD 95 [] ≠ [] → (busSample x none t g v).1 = x.ahead.getD 95 [] ∧ (busSample x none t g v).2.ahead = v :: x.ahead.take 95)
    ∧ (∀ (src outs : Tab (List Frame)) (b : Nat) (s : State), b < 16 → busOn s b = true → ∀ sums, sums = (upto 48).map (busSum s src b) →
        (runBus src (outs, s) b).2.rdF (AUDIO_BUS_CLIP .a b) AUDIO_BUS_CLIP_COUNT
          = min (2 ^ 32 - 1) (s.rdF (AUDIO_BUS_CLIP .a b) AUDIO_BUS_CLIP_COUNT + (sums.map (fun f => (f.filter (fun v => v != satQ v)).length)).sum)
        ∧ tfind b (runBus src (outs, s) b).1 = some (busBlock (if busClass s b = 2 then some s.audio.atten else none) s.timeA (fun i => s.freeNat i) 0
            (sums.map (fun f => f.map satQ)) (s.bus b)).1))
  ∧ (∀ (p : Nat) (s : State), p < 4 → s.flag (AUDIO_TDM_CFG .a p) AUDIO_TDM_CFG_EN = true → s.flag (AUDIO_TDM_CFG .a p) AUDIO_TDM_CFG_MASTER = false →
    (s.flag (AUDIO_TDM_STATUS .a p) AUDIO_TDM_STATUS_CLOCKED = true →
      (∃ u, (u = { s with regs := u.regs, audio := u.audio, out := [] } ∧ u.flag (AUDIO_TDM_STATUS .a p) AUDIO_TDM_STATUS_CLOCKED = false ∧ u.rd (AUDIO_TDM_RATE .a p) = 0
          ∧ u.rdF (AUDIO_TDM_STATUS .a p) AUDIO_TDM_STATUS_LOSSES = min (2 ^ AUDIO_TDM_STATUS_LOSSES.len - 1) (s.rdF (AUDIO_TDM_STATUS .a p) AUDIO_TDM_STATUS_LOSSES + 1)
          ∧ u.audio.lost = p :: s.audio.lost ∧ (∀ x ∈ portRoutes s p, (u.aroute x.1).up = false ∧ (u.aroute x.1).envEnd = s.timeA + 1000000)
          ∧ ∀ a, a ≠ AUDIO_TDM_STATUS .a p → a ≠ AUDIO_TDM_RATE .a p → u.rd a = s.rd a)
        ∧ exec (.audioClockLoss p) s = .next (ran (fun _ => postClock p 0 0 u) s))
      ∧ (∀ rate, exec (.audioClockBack p rate) s = .next (fresh s)))
    ∧ (s.flag (AUDIO_TDM_STATUS .a p) AUDIO_TDM_STATUS_CLOCKED = false → ∀ rate, rate < 2 ^ 18 →
      exec (.audioClockLoss p) s = .next (fresh s)
      ∧ ∃ u, (u = { s with regs := u.regs, audio := u.audio, out := [] } ∧ u.flag (AUDIO_TDM_STATUS .a p) AUDIO_TDM_STATUS_CLOCKED = true
          ∧ u.rdF (AUDIO_TDM_RATE .a p) AUDIO_TDM_RATE_RATE_HZ = rate ∧ u.audio.lost.contains p = false
          ∧ ∀ a, a ≠ AUDIO_TDM_STATUS .a p → a ≠ AUDIO_TDM_RATE .a p → u.rd a = s.rd a)
        ∧ (s.audio.lost.contains p = false → exec (.audioClockBack p rate) s = .next (ran (fun _ => u) s))
        ∧ (s.audio.lost.contains p = true → exec (.audioClockBack p rate) s = .next (ran (fun _ => postClock p 1 rate u) s))))

/-- R348, R349: a start on an idle channel begins the effect; one while it drives is ignored; one while it brakes replaces the effect or waits, as POLICY says; a blocked channel refuses. R345, R346: a read of the accelerometer gives the amplitude (the model's reading: notes/assumptions/65.md), and the eighth failed read in a row ends the closed loop. R345: each control period takes the senses, and moves the running effect by 125 µs. R121: a start that waited while its tenant was frozen begins when it no longer is. R355: an edge on a routed pin starts the armed effect; without a route, or for a tenant that is frozen or being frozen (Table 4.4), it changes LEVEL only. -/
def Obligations.HapticEffectsRun : Prop :=
  (∀ (c : Nat) (st : HapStart) (s : State), hapChange s c = false → (s.hap c).blockTlim = false → (s.hap c).blockDuty = false →
    ((s.hap c).run = none → startEffect c st s = (0, beginRun c st s) ∧ ((beginRun c st s).hap c).run = some ⟨st, 0, 0, [], false, 0, 0, 0, 0⟩)
    ∧ (∀ r, (s.hap c).run = some r → r.braking = false → startEffect c st s = (3, s))
    ∧ (∀ r, (s.hap c).run = some r → r.braking = true → s.flag (HAP_CFG (hapDie c) (hapNo c)) HAP_CFG_POLICY = true → (s.hap c).queued = none →
        (startEffect c st s).1 = 2 ∧ ((startEffect c st s).2.hap c).queued = some st ∧ ((startEffect c st s).2.hap c).run = some r))
  ∧ (∀ (c : Nat) (o : HapObs) (s : State), c < 8 → hapOn s c = true → unitReset s (hapDie c) (bitHaptic (hapNo c)) = false → islandOut s (hapDie c) (21 + hapNo c) = true →
    s.rdF (POWER_STATUS (hapDie c)) POWER_STATUS_STATE < 2 → (s.hap c).ticket = none →
    s.rdF (HAP_CFG (hapDie c) (hapNo c)) HAP_CFG_SENSE = 0 → (s.hap c).run = none → (s.hap c).plays = [] → (s.hap c).stopping = none →
    (∀ st, (s.hap c).queued = some st → hapHeld s c = false → hapReady s c = true → hapChange s c = false → (s.hap c).blockTlim = false → (s.hap c).blockDuty = false →
      ∃ t, exec (.hapticControlPeriod c o) s = .next t ∧ (t.hap c).run = some ⟨st, 0, 0, [], false, 0, 0, 0, 0⟩ ∧ (t.hap c).queued = none ∧ (t.hap c).arms = (s.hap c).arms)
    ∧ ((s.hap c).queued = none ∨ hapHeld s c = true → ∃ t, exec (.hapticControlPeriod c o) s = .next t ∧ t = { s with regs := t.regs, haptics := t.haptics, out := [] } ∧ (t.hap c).run = none ∧ (t.hap c).arms = (s.hap c).arms
      ∧ t.rdF (HAP_SENSE (hapDie c) (hapNo c)) HAP_SENSE_VSUP_MV = o.vsup % 2 ^ 16 ∧ t.rdF (HAP_SENSE (hapDie c) (hapNo c)) HAP_SENSE_AMP = s.rdF (HAP_SENSE (hapDie c) (hapNo c)) HAP_SENSE_AMP
      ∧ (t.hap c).zero = (s.hap c).zero + 1 ∧ (t.hap c).queued = (s.hap c).queued ∧ (∀ g, g ≠ c → t.hap g = s.hap g)))
  ∧ (∀ (c : Nat) (o : HapObs) (s : State), s.rdF (HAP_CFG (hapDie c) (hapNo c)) HAP_CFG_SENSE = 2 → (s.hap c).openLoop = false →
    (readFails 2 o = false →
      (senseMotion c o s).rdF (HAP_SENSE (hapDie c) (hapNo c)) HAP_SENSE_AMP = measuredAmp (s.hap c) 2 o % 2 ^ 8 ∧ ((senseMotion c o s).hap c).fails = 0
      ∧ (senseMotion c o s).out = s.out ++ [.spi (hapDie c) (s.rdF (HAP_CFG (hapDie c) (hapNo c)) HAP_CFG_ACC_CS) (dget (s.hap c).setup 24 0 8)
          (max 7 (s.rdF (HAP_SPI_CFG (hapDie c)) HAP_SPI_CFG_DIV) + 1)])
    ∧ (readFails 2 o = true → (s.hap c).fails = 7 → ((senseMotion c o s).hap c).openLoop = true))
  ∧ (∀ (c : Nat) (o : HapObs) (r : HapRun) (s : State), (s.hap c).run = some r → r.braking = false → 2500 ≤ o.vsup → ∀ r1,
    r1 = (if drives r (s.rdF (HAP_CFG (hapDie c) (hapNo c)) HAP_CFG_SENSE == 0 || (s.hap c).openLoop) then { r with driveUs := r.driveUs + 125 } else r) →
    ∀ r2, advance { r1 with us := r1.us + 125 } (r1.start.segs.length * 256 + 1) = some r2 →
    stepRun c o s = setHap c { s.hap c with run := some { r2 with braking := (r2.start.segs[r2.seg]?).any (fun g => g.kind == 3) } } s)
  ∧ (∀ (d : Die) (pin : Nat) (level : Bool) (s : State), pin < 8 →
    (nbit (s.rdF (HTRIG_STATUS d) HTRIG_STATUS_LEVEL) pin = level → exec (.htrigEdge d pin level) s = .next (fresh s))
    ∧ (nbit (s.rdF (HTRIG_STATUS d) HTRIG_STATUS_LEVEL) pin ≠ level →
      ∃ u, (u = { s with regs := u.regs, out := [] } ∧ nbit (u.rdF (HTRIG_STATUS d) HTRIG_STATUS_LEVEL) pin = level ∧ ∀ a, a ≠ HTRIG_STATUS d → u.rd a = s.rd a)
        ∧ ((routesOf s 6).find? (fun x => epUnit x.2.source == d.idx && epSub x.2.source == pin) = none → exec (.htrigEdge d pin level) s = .next (ran (fun _ => u) s))
        ∧ (∀ h r m, (routesOf s 6).find? (fun x => epUnit x.2.source == d.idx && epSub x.2.source == pin) = some (h, r) → (pget r 34 0 2 = 2 ∨ (pget r 34 0 2 = 0 ↔ level = true)) →
            tfind (epSub r.sink) (s.hap (epUnit r.sink)).arms = some m → m.armed = true → (hapRoute s (epUnit r.sink)).isSome = true → flrActive u r.grantee = false →
            (frozen u r.grantee = true ∨ freezing u r.grantee = true → exec (.htrigEdge d pin level) s = .next (ran (fun _ => u) s))
            ∧ (frozen u r.grantee = false → freezing u r.grantee = false → pget r 34 2 1 = 0 → hapReady u (epUnit r.sink) = true →
            exec (.htrigEdge d pin level) s = .next (ran (fun _ => refreshHap (epUnit r.sink)
              (if (startEffect (epUnit r.sink) m.start u).1 = 3 ∨ (startEffect (epUnit r.sink) m.start u).1 = 4
               then satF (HAP_COUNTS (hapDie (epUnit r.sink)) (hapNo (epUnit r.sink))) HAP_COUNTS_TRIG_IGNORED 1 (startEffect (epUnit r.sink) m.start u).2
               else (startEffect (epUnit r.sink) m.start u).2)) s)))))

/-- R363, R371: a scan takes its counts, then serves baselines, faults, contacts and freezing; an overrun takes none and sets OVERRUN. R382: a low-power scan starts the baseline and wakes the device at the LP_WAKE-th scan at LP_TH. R384: a self-test completes with the number of channels that failed. R379 to R381: a touchscreen interrupt or poll starts one read; a report is applied; a failed read is counted and retried once, and the third in a row loses the port. -/
def Obligations.TouchIsScanned : Prop :=
  (∀ (d : Die) (o : TouchObs) (s : State), scanning s d = true → s.flag (TOUCH_STATUS d) TOUCH_STATUS_EN = true → hasLeave s d 4 0 = false →
    (o.overrun = true → ∃ t, exec (.touchScan d o) s = .next t ∧ t.pending = s.pending ∧ t = { s with regs := t.regs, out := [] } ∧ t.flag (TOUCH_STATUS d) TOUCH_STATUS_OVERRUN = true
      ∧ ∀ a, a ≠ TOUCH_STATUS d → t.rd a = s.rd a)
    ∧ (o.overrun = false → (∃ t, exec (.touchScan d o) s = .next t ∧ t.pending = s.pending ∧ (t.touch d).fresh = false ∧ (t.touch d).reload = []
          ∧ t = ran (fun u => scanStages d (fillBaselines d (takeCounts d o u))) s)
      ∧ takeCounts d o s = { s with touches := (takeCounts d o s).touches }
      ∧ (∀ k ∈ (s.touch d).sensors, ∀ m ∈ sMeas (s.sensor d k.1).setup, ((takeCounts d o s).measOf d m).raw = tget 0 m o.counts % 2 ^ 16)
      ∧ (∀ m, ((takeCounts d o s).measOf d m).base = (s.measOf d m).base)))
  ∧ (∀ (d : Die) (o : TouchObs) (s : State), scanning s d = false → exec (.touchScan d o) s = .next (fresh s))
  ∧ (∀ (d : Die) (n : Nat) (s : State), (s.rdF (POWER_STATUS d) POWER_STATUS_STATE ≠ 2 ∨ s.flag (TOUCH_STATUS d) TOUCH_STATUS_LP_ACTIVE = false) → exec (.touchLpScan d n) s = .next (fresh s))
  ∧ (∀ (d : Die) (n : Nat) (s : State), s.rdF (POWER_STATUS d) POWER_STATUS_STATE = 2 → s.flag (TOUCH_STATUS d) TOUCH_STATUS_LP_ACTIVE = true →
    ((s.touch d).lpBase = none → 0 < dget (s.touch d).setup 30 0 16 → 0 < dget (s.touch d).setup 29 0 8 →
      ∃ t, exec (.touchLpScan d n) s = .next t ∧ t = { s with touches := t.touches, free := s.free + 1, out := [] } ∧ (t.touch d).lpBase.isSome = true ∧ (t.touch d).lpRun = 0
        ∧ (t.touch d).lpDelta = (s.touch d).lpDelta)
    ∧ (∀ b : Nat, (s.touch d).lpBase = some b → (s.touch d).lpDelta = none → (dget (s.touch d).setup 30 0 16 : Int) ≤ sat16 ((n : Int) - b / 256) →
      ((s.touch d).lpRun + 1 < dget (s.touch d).setup 29 0 8 → ∃ t, exec (.touchLpScan d n) s = .next t ∧ t = { s with touches := t.touches, free := s.free + 1, out := [] }
        ∧ (t.touch d).lpRun = (s.touch d).lpRun + 1 ∧ (t.touch d).lpBase = some b ∧ (t.touch d).lpDelta = none)
      ∧ (dget (s.touch d).setup 29 0 8 ≤ (s.touch d).lpRun + 1 →
        ∃ t u, exec (.touchLpScan d n) s = .next t ∧ t = ran (fun _ => wakeUp d 1 u) s ∧ (u = { s with touches := u.touches, free := s.free + 1, out := [] } ∧ (u.touch d).lpRun = (s.touch d).lpRun + 1 ∧ (u.touch d).lpBase = some b
            ∧ (u.touch d).lpDelta = some (unsgn 16 (sat16 ((n : Int) - b / 256))))))
    ∧ (∀ b : Nat, (s.touch d).lpBase = some b → sat16 ((n : Int) - b / 256) < (dget (s.touch d).setup 30 0 16 : Int) → 0 < dget (s.touch d).setup 29 0 8 →
      ∃ t, exec (.touchLpScan d n) s = .next t ∧ t = { s with touches := t.touches, free := s.free + 1, out := [] } ∧ (t.touch d).lpRun = 0 ∧ (t.touch d).lpBase.isSome = true
        ∧ (t.touch d).lpDelta = (s.touch d).lpDelta))
  ∧ (∀ (d : Die) (counts : List (Nat × Nat × Nat)) (tk : Ticket) (desc : Desc) (s s2 : State), (s.touch d).test = some (tk, desc) →
    dmaWrite d tk.fn tk.ring.ring (dget desc 16 0 64) (((upto 96).map (testRecord s d (fnWorld tk.fn) (dget desc 10 0 16) counts)).flatMap Prod.fst)
      (setTouch d { s.touch d with test := none } (fresh s)) = (none, s2) →
    exec (.touchSelftestDone d counts) s = .next (ran (fun _ =>
      finish tk stOk (((upto 96).map (testRecord s d (fnWorld tk.fn) (dget desc 10 0 16) counts)).filter (fun r => r.2)).length s2) s))
  ∧ (∀ (d : Die) (counts : List (Nat × Nat × Nat)) (s : State), (s.touch d).test = none → exec (.touchSelftestDone d counts) s = .next (fresh s))
  ∧ (∀ (d : Die) (counts : List (Nat × Nat × Nat)) (tk : Ticket) (desc : Desc) (va : Nat) (rs : List (List Byte × Bool)) (s : State), (s.touch d).test = some (tk, desc) →
    va = dget desc 16 0 64 → rs = (upto 96).map (testRecord s d (fnWorld tk.fn) (dget desc 10 0 16) counts) → tk.fn.fn = 0 →
    s.rdF (XLATE_CTRL tk.fn) XLATE_CTRL_S1_EN = 0 → s.rdF (XLATE_CTRL tk.fn) XLATE_CTRL_S2_EN = 0 → s.split = false → s.tlb = [] → va % 4096 + 768 ≤ 4096 → va + 768 ≤ 2 ^ 48 →
    ∃ t u, exec (.touchSelftestDone d counts) s = .next t ∧ t.pending = s.pending ∧ t = ran (fun _ => finish tk stOk (rs.filter (fun r => r.2)).length u) s
      ∧ (u.touch d).test = none ∧ u.out = [.mem (hostKey s tk.fn.ep va) (rs.flatMap Prod.fst)] ∧ (rs.flatMap Prod.fst).length = 768)
  ∧ (∀ (p : Nat) (s : State), p < 4 → s.flag (TSH_STATUS (tshDie p) (tshNo p)) TSH_STATUS_EN = true → (s.tsh p).reading = false → s.rdF (POWER_STATUS (tshDie p)) POWER_STATUS_STATE = 0 →
    ∃ t, exec (.tshRead p) s = .next t ∧ t = { s with touches := t.touches, out := [readI2c p (s.tsh p).setup] }
      ∧ t.tsh p = { s.tsh p with reading := true, retry := false }
      ∧ (dget (s.tsh p).setup 9 3 1 = 1 → exec (.tshInt p) s = .next t) ∧ (dget (s.tsh p).setup 9 3 1 = 0 → exec (.tshInt p) s = .next (fresh s)))
  ∧ (∀ (p : Nat) (s : State), p < 4 → s.flag (TSH_STATUS (tshDie p) (tshNo p)) TSH_STATUS_EN = true → (s.tsh p).reading = false → s.rdF (POWER_STATUS (tshDie p)) POWER_STATUS_STATE = 0 →
    dget (s.tsh p).setup 9 3 1 = 1 → ∃ t, exec (.tshInt p) s = .next t ∧ t = { s with touches := t.touches, out := [readI2c p (s.tsh p).setup] }
      ∧ t.tsh p = { s.tsh p with reading := true, retry := false })
  ∧ (∀ (p : Nat) (s : State), 4 ≤ p ∨ s.flag (TSH_STATUS (tshDie p) (tshNo p)) TSH_STATUS_EN = false ∨ (s.tsh p).reading = true ∨ s.rdF (POWER_STATUS (tshDie p)) POWER_STATUS_STATE ≠ 0 →
    exec (.tshRead p) s = .next (fresh s) ∧ exec (.tshInt p) s = .next (fresh s))
  ∧ (∀ (p : Nat) (r : TshReply) (s : State), 4 ≤ p ∨ (s.tsh p).reading = false → exec (.tshReadDone p r) s = .next (fresh s))
  ∧ (∀ (p : Nat) (s : State), p < 4 → (s.tsh p).reading = true →
    (∀ bs, s.flag (TSH_STATUS (tshDie p) (tshNo p)) TSH_STATUS_LOST = false →
      ∃ t, exec (.tshReadDone p (.report bs)) s = .next t ∧ t.pending = s.pending ∧ (t.tsh p).reading = false ∧ (t.tsh p).fails = 0 ∧ t = ran (fun u => u |> setTsh p { s.tsh p with reading := false, retry := false, fails := 0 } |> applyReport p bs |> refreshTouch (tshDie p)) s)
    ∧ (∀ why, (s.tsh p).retry = false → (s.tsh p).fails < 2 →
      ∃ t, exec (.tshReadDone p (.failed why)) s = .next t
        ∧ t = { s with regs := t.regs, touches := t.touches, out := [readI2c p (s.tsh p).setup] }
        ∧ t.tsh p = { s.tsh p with reading := true, retry := true, fails := (s.tsh p).fails + 1, why := why % 256 }
        ∧ t.rdF (TSH_STATUS (tshDie p) (tshNo p)) TSH_STATUS_FAILS
            = min (2 ^ TSH_STATUS_FAILS.len - 1) (s.rdF (TSH_STATUS (tshDie p) (tshNo p)) TSH_STATUS_FAILS + 1))
    ∧ (∀ why, (s.tsh p).retry = true → 2 ≤ (s.tsh p).fails → s.flag (TSH_STATUS (tshDie p) (tshNo p)) TSH_STATUS_LOST = false →
      ∃ t u, exec (.tshReadDone p (.failed why)) s = .next t ∧ t = ran (fun _ => u |> loseContacts (tshDie p) (fun c => c == 64 + tshNo p) |> postTsh p 0 |> refreshTouch (tshDie p)) s
        ∧ u = { s with regs := u.regs, touches := u.touches, out := [] } ∧ u.flag (TSH_STATUS (tshDie p) (tshNo p)) TSH_STATUS_LOST = true
          ∧ u.tsh p = { s.tsh p with reading := false, retry := false, fails := (s.tsh p).fails + 1, why := why % 256 }))

/-- R392, R499: an engine at a 4 KiB boundary lets its job do one span and chooses again; an idle one chooses, of the jobs at the front of their routes that hold their leave, the one of least rank. R395, R397: a span moves up to 4,096 bytes and counts them; poisoned data ends the job; the last span of a plain copy ends it with OK. R398: where source and destination do not overlap, the bytes read are the bytes written. -/
def Obligations.EnginesMoveAndCheck : Prop :=
  (∀ (d : Die) (s : State), ((s.check d).copying = none → exec (.copyEngineSwitch d) s = .next (ran (pickCopy d) s))
    ∧ (∀ (g : Nat) (j : CheckJob), (s.check d).copying = some g → (s.check d).jobs.find? (fun k => k.ticket.tag == g) = some j →
      exec (.copyEngineSwitch d) s = .next (ran (fun u => pickCopy d ((if usesCrc j then pickCrc d (j.engine % 4) else id)
        (setCheck d { (span d j u).check d with copying := none, serving := ((span d j u).check d).serving.filter (fun x => x.2 != j.ticket.tag) } (span d j u)))) s)))
  ∧ (∀ (e : Nat) (s : State), e < 8 → (tfind (e % 4) (s.check (engineDie e)).serving = none → exec (.crcEngineSwitch e) s = .next (ran (pickCrc (engineDie e) (e % 4)) s))
    ∧ (∀ (g : Nat) (j : CheckJob), tfind (e % 4) (s.check (engineDie e)).serving = some g → (s.check (engineDie e)).jobs.find? (fun k => k.ticket.tag == g) = some j →
      (usesCopy j = true → exec (.crcEngineSwitch e) s = .next (fresh s))
      ∧ (usesCopy j = false → exec (.crcEngineSwitch e) s = .next (ran (fun u => pickCrc (engineDie e) (e % 4)
          (setCheck (engineDie e) { (span (engineDie e) j u).check (engineDie e) with serving := tkeep (fun k => k != e % 4) ((span (engineDie e) j u).check (engineDie e)).serving }
            (span (engineDie e) j u))) s))))
  ∧ (∀ (d : Die) (e : Nat) (s : State), (s.check d).serving = [] → unitsStopped s [unitKey d (bitCrc e)] = false → (s.check d).copying.isSome = true →
    ∀ j, leastRank (fun j => (if crcBelowShare s d j.ticket.fn then 0 else 2) + b2n (isOpal s j.ticket.fn)) (engineFronts s d e) = some j →
    (((pickCrc d e s).check d).serving = [(e, j.ticket.tag)]))
  ∧ (∀ (d : Die) (j : CheckJob) (s s0 s1 s2 : State) (bs ws : List Byte) (marks : List Bool), usesCopy j = true → usesCrc j = false →
    copyRead d j.ticket.fn j.ticket.ring.ring ((dget j.desc 8 0 64 + j.pos) % 2 ^ 64) (min 4096 (jobLen j - j.pos)) 20 s = (.ok (bs, marks), s1) →
    destBytes j bs s1 = (ws, s0) → copyWrite d j.ticket.fn j.ticket.ring.ring ((dget j.desc 16 0 64 + j.pos) % 2 ^ 64) ws marks s0 = (none, s2) →
    (rangesMeet j = false → ws = bs ∧ s0 = s1)
    ∧ (marks.any id = true → span d j s = endJob_ d j stEccUncorr 0 (add64 (COPY_BYTES_LO d) (min 4096 (jobLen j - j.pos)) s2))
    ∧ (marks.any id = false → jobLen j ≤ j.pos + min 4096 (jobLen j - j.pos) → span d j s =
        lastStep d { j with pos := j.pos + min 4096 (jobLen j - j.pos), value := none }
          (setCheckJob d { j with pos := j.pos + min 4096 (jobLen j - j.pos), value := none } (add64 (COPY_BYTES_LO d) (min 4096 (jobLen j - j.pos)) s2)))
    ∧ (marks.any id = false → j.pos + min 4096 (jobLen j - j.pos) < jobLen j → span d j s =
        setCheckJob d { j with pos := j.pos + min 4096 (jobLen j - j.pos), value := none } (add64 (COPY_BYTES_LO d) (min 4096 (jobLen j - j.pos)) s2))
    ∧ (jobOp j = 0x10 → lastStep d j s = endJob_ d j stOk 0 s))

/-- R407 to R412: PEARL is reached when the units are at rest, and not before; a wake source begins the exit; after the rail has settled the frame tier asks for leave, and with its bulk refresh on every die FULL is reached. R408: a low WAKEn, or a timer that is due, is a wake source where WAKE_EN names it; the timer's pulse crosses on 0xC7 (R38), and while that crossing is down or stopped the fabric does not see it. R410, R411: ONYX leaves only what VSTBY supplies, and 100 µs of WAKEn bring the power back. -/
def Obligations.PowerStatesChange : Prop :=
  (∀ (d g : Die) (ds : List Die) (s : State), g = powerDie s d → ds = actedDies s g →
    (powerState s g ≠ 1 ∨ (∃ e ∈ ds, atRest s e = false) → exec (.pearlEntryComplete d) s = .next (fresh s))
    ∧ (powerState s g = 1 → (∀ e ∈ ds, atRest s e = true) → exec (.pearlEntryComplete d) s = .next (ran (fun u =>
        levelSources g (ds.foldl (fun t e => postPower e 2 0xFF t) (requestDone g (refreshFtRail (ds.foldl (fun t e => t |> gateDie e |> setPowerState e 2 |> refreshFloor e) u))))) s))
    ∧ (∀ b rest, powerState s g = 2 → (s.power g).wakes = b :: rest →
      ∃ t, exec (.pearlExit d) s = .next t ∧ (∀ e ∈ ds, powerState t e = 3 ∧ (t.power e).step = 1 ∧ t.rdF (POWER_STATUS e) POWER_STATUS_LAST_WAKE = 2 ^ b % 2 ^ POWER_STATUS_LAST_WAKE.len)
        ∧ t.flag (POWER_STATUS .a) POWER_STATUS_FT_RAIL_ON = true)
    ∧ (powerState s d = 3 → (s.power d).step = 1 →
      ∃ t, exec (.ftRailSettled d) s = .next t ∧ t = { s with powers := t.powers, permits := t.permits, out := [] } ∧ t.power d = { s.power d with step := 2 }
        ∧ (t.permit d).asks = (s.permit d).asks ++ [⟨2, 0, true, s.now d, false⟩])
    ∧ (∀ s1, s1 = setPower d { s.power d with step := 3 } (useLeave d 2 0 (fresh s)) → powerState s d = 3 → (s.power d).step = 2 → hasLeave s d 2 0 = true →
      ((∃ e ∈ ds, (s1.power e).step ≠ 3) → exec (.ftBulkRefreshDone d) s = .next (ran (fun _ => s1) s))
      ∧ ((∀ e ∈ ds, (s1.power e).step = 3) → exec (.ftBulkRefreshDone d) s = .next (ran (fun _ => ds.foldl (fun t e => fullReached e ((s1.power g).wakes.headD 0xFF) t) s1) s))))
  ∧ (∀ (d : Die) (src : Nat) (s : State), (∀ e, e = powerDie s d → powerState s e = 1 ∨ powerState s e = 2 →
      nbit (s.rdF (POWER_CFG e) POWER_CFG_WAKE_EN) src = true → (s.power e).wakes.contains src = false →
      ((wakeUp d src s).power e).wakes = (s.power e).wakes ++ [src] ∧ (wakeUp d src s).regs = s.regs)
    ∧ (powerState s (powerDie s d) ≠ 1 → powerState s (powerDie s d) ≠ 2 → wakeUp d src s = s)
    ∧ (s.rd64 (WAKE_TIMER_LO d) = 0 ∨ powerDie s d ≠ d ∨ (s.now d < s.rd64 (WAKE_TIMER_LO d) ∧ (s.tbase d).counter < s.rd64 (WAKE_TIMER_LO d)) → exec (.wakeTimerReached d) s = .next (fresh s))
    ∧ (s.rd64 (WAKE_TIMER_LO d) ≠ 0 → s.rd64 (WAKE_TIMER_LO d) ≤ s.now d ∨ s.rd64 (WAKE_TIMER_LO d) ≤ (s.tbase d).counter → powerDie s d = d →
      (s.flag (XING_STATUS d 0xC7) XING_STATUS_PEER_RESET = true ∨ (s.xing d 0xC7).stopped = true → exec (.wakeTimerReached d) s = .next (ran (xingPulse d 0xC7) s))
      ∧ (s.flag (XING_STATUS d 0xC7) XING_STATUS_PEER_RESET = false → (s.xing d 0xC7).stopped = false → exec (.wakeTimerReached d) s = .next (ran (fun u => wakeUp d 5 (xingPulse d 0xC7 u)) s))))
  ∧ (∀ (us : Nat) (s : State), (us < 10 → ∃ t, exec (.wakenLow us) s = .next t ∧ t = { s with powers := t.powers, out := [] } ∧ ∀ d, t.power d = { s.power d with wakeLow := us })
    ∧ (10 ≤ us → exec (.wakenLow us) s = .next (ran (fun u => bothDies.foldl (fun t d =>
        if (t.power d).onyx then setPower d { t.power d with wakeLow := us } t else wakeUp d 0 (setPower d { t.power d with wakeLow := us } t)) u) s)))
  ∧ (∀ s : State, (powerState s .a = 4 → s.split = false → atRest s .a = true → atRest s .b = true → ∃ t, exec .onyxEntryComplete s = .next t
        ∧ t.porLow = true ∧ (∀ d, (t.power d).onyx = true ∧ (t.boot d).pwrenAon = false ∧ (t.boot d).running = false) ∧ t.routes = [] ∧ t.tenants = [] ∧ t.poison = []
        ∧ (∀ a, (domainOf a).any [Domain.vstby].contains = false → tfind a t.regs = none))
    ∧ ((s.power .a).onyx = true → 100 ≤ (s.power .a).wakeLow → ∃ t, exec .onyxWake s = .next t ∧ t = { s with regs := t.regs, powers := t.powers, boots := t.boots, out := [] }
        ∧ ∀ d, (t.power d).onyx = false ∧ (t.boot d).pwrenAon = true ∧ t.flag (WAKE_CAUSE d) WAKE_CAUSE_ONYX_EXIT = true
          ∧ t.rdF (WAKE_CAUSE d) WAKE_CAUSE_ONYX_EXITS = min (2 ^ WAKE_CAUSE_ONYX_EXITS.len - 1) (s.rdF (WAKE_CAUSE d) WAKE_CAUSE_ONYX_EXITS + 1))
    ∧ (∃ t, exec .vstbyRise s = .next t ∧ t = { s with regs := t.regs, powers := t.powers, out := [] } ∧ (∀ d, t.rd (WAKE_CAUSE d) = 0 ∧ t.power d = { s.power d with wakes := [], wakeLow := 0 })
        ∧ ∀ a, a ≠ WAKE_CAUSE .a → a ≠ WAKE_CAUSE .b → t.rd a = s.rd a))

/-- R416, R417, R418: the arbiter grants a request only where its step fits the rail, or alone where it is too large for it, and no cluster within its gap; a grant holds the step, gives leave and is counted. R415: requests reach the arbiter with the time they arrived; a hold that ends, a request that ages, a gap that ends and a new rail budget each let it grant again; a budget below its reserve is not taken (R421). -/
def Obligations.PermitsAreArbitrated : Prop :=
  (∀ (d : Die) (r : Nat) (front : Bool) (as : List Ask) (a : Ask) (s : State), grantable s d r front as = some a →
    a ∈ as ∧ inGap s d a = false ∧ (fits s d a.kind = true ∨ (oversize s d a.kind = true ∧ railIdle s d r = true)))
  ∧ (∀ (d : Die) (a : Ask) (s : State), a.kind ≠ 0 → railOf s d a.kind < 4 → ∀ t, t = grant d a s →
    t = { s with regs := t.regs, permits := t.permits } ∧ (t.permit d).held = (s.permit d).held ++ [(a.kind, stepOf s d a.kind)] ∧ (t.permit d).granted = (s.permit d).granted ++ [(a.kind, a.unit)]
      ∧ (t.permit d).waiting = (s.permit d).waiting.erase a ∧ t.rd (PERMIT_RAIL_GRANTS d (railOf s d a.kind)) = s.rd (PERMIT_RAIL_GRANTS d (railOf s d a.kind)) + 1)
  ∧ (∀ (d : Die) (s : State),
    exec (.permitRequest d) s = .next (ran (fun u => arbitrate d (setPermit d { s.permit d with asks := [], waiting := (s.permit d).waiting ++ (s.permit d).asks.map (fun a => { a with since := s.now d }) } u)) s)
    ∧ (∀ kind h, (s.permit d).held.find? (fun x => x.1 == kind) = some h →
        exec (.permitHoldEnd d kind) s = .next (ran (fun u => arbitrate d (setPermit d { s.permit d with held := (s.permit d).held.erase h } u)) s))
    ∧ (∀ kind unit a, (s.permit d).waiting.find? (fun x => x.kind == kind && x.unit == unit && !x.aged) = some a → s.flag (PERMIT_CFG d) PERMIT_CFG_EV_AGED = false →
        exec (.permitAged d kind unit) s = .next (ran (fun u => arbitrate d (setPermit d { s.permit d with waiting := markAged (fun x => x.kind == kind && x.unit == unit && !x.aged) (s.permit d).waiting } u)) s))
    ∧ exec (.clusterGapExpiry d) s = .next (ran (fun u => arbitrate d (setPermit d { s.permit d with lastCluster := none } u)) s)
    ∧ ((s.permit d).waiting = [] → arbitrate d s = refreshPermit d s))
  ∧ (∀ (f : Fun) (r : Nat) (v : Word) (s : State), r < 4 → (accessRow s f (addrOff (PERMIT_RAIL f.ep r))).isSome = true →
    (PERMIT_RAIL_BUDGET_MA.get v < PERMIT_RAIL_RESERVED_MA.get v → exec (.permitRailWrite f r v) s = .next (fresh s))
    ∧ (PERMIT_RAIL_RESERVED_MA.get v ≤ PERMIT_RAIL_BUDGET_MA.get v → exec (.permitRailWrite f r v) s = .next (ran (fun u => arbitrate f.ep (wr (PERMIT_RAIL f.ep r) v u)) s)))

/-- R422 to R425: POR leaves only what VSTBY supplies, its release lets the first step follow; RESETn resets every domain but the always-on one, counts itself, notes an expired watchdog, and keeps memory. R423, R426, R427: a step releases the next domain on both dies; an island that was due comes out of reset, or fails after 1 ms. R429 to R433: the ROM runs the first good slots, or stops with its error; a missing peer splits the boot or stops it; training makes the die READY, or stops it. -/
def Obligations.ResetAndBootAreOrdered : Prop :=
  (∀ s : State, ((s.power .a).onyx = false →
      (∃ t, exec (.por true) s = .next t ∧ t.porLow = true ∧ t.inReset = releaseOrder ∧ t.routes = [] ∧ t.tenants = [] ∧ t.heads = [] ∧ t.timeA = 0 ∧ t.part = s.part
        ∧ (∀ a, (domainOf a).any [Domain.vstby].contains = false → tfind a t.regs = none) ∧ (∀ a, (domainOf a).any [Domain.vstby].contains = true → tfind a t.regs = tfind a s.regs))
      ∧ exec (.por false) s = .next { s with porLow := false, out := [] })
    ∧ exec .resetnRelease s = .next { s with resetnHigh := true, out := [] }
    ∧ (s.resetnHigh = true → alwaysOnUp s = true →
      ∃ t, exec .resetnAssert s = .next t ∧ t.resetnHigh = false ∧ t.inReset = releaseOrder.filter (fun d => d != .alwaysOn) ∧ t.routes = [] ∧ t.tenants = [] ∧ t.mem = s.mem ∧ t.timeA = 0
        ∧ ∀ d, t.flag (RESET_CAUSE d) RESET_CAUSE_LAST = true ∧ t.flag (RESET_CAUSE d) RESET_CAUSE_WDOG_SEEN = s.flag (WDOG_STATUS d) WDOG_STATUS_EXPIRED
          ∧ t.rdF (RESET_CAUSE d) RESET_CAUSE_RESETN_COUNT = min (2 ^ RESET_CAUSE_RESETN_COUNT.len - 1) (s.rdF (RESET_CAUSE d) RESET_CAUSE_RESETN_COUNT + 1)
          ∧ t.rdF (SEQ_STATUS d) SEQ_STATUS_STEP = 1 ∧ powerState t d = 0)
    ∧ (∀ dom, releaseOrder[lastStep_ s]? = some dom → s.porLow = false → (lastStep_ s = 0 ∨ s.resetnHigh = true) →
      ∃ t, exec .domainRelease s = .next t ∧ t.inReset = s.inReset.filter (fun x => x != dom) ∧ t.mem = s.mem
        ∧ ∀ d, t.rdF (SEQ_STATUS d) SEQ_STATUS_STEP = lastStep_ s + 1 ∧ t.flag (SEQ_STATUS d) SEQ_STATUS_DONE = (lastStep_ s == 14))
    ∧ (s.inReset.contains .supervisor = false → (s.boot .b).running = false → s.rdF (BOOT_STATUS .b) BOOT_STATUS_STAGE ≠ 15 → s.split = false →
      ∃ t, exec .peerBootTimeout s = .next t ∧ t = { s with regs := t.regs, split := t.split, out := [] }
        ∧ (s.flag (STRAPS .b) STRAPS_FLASH_B = true → t.split = true ∧ t.flag (BOOT_STATUS .b) BOOT_STATUS_SPLIT_BOOT = true ∧ t.rdF (EBRUM_STATUS .b) EBRUM_STATUS_STATE = 2)
        ∧ (s.flag (STRAPS .b) STRAPS_FLASH_B = false → t.split = false ∧ t.rdF (BOOT_STATUS .b) BOOT_STATUS_STAGE = 4 ∧ ∀ a, a ≠ BOOT_STATUS .b → t.rd a = s.rd a)))
  ∧ (∀ (d : Die) (i : Nat) (s : State), (s.boot d).due.contains i = true →
    (∃ t, exec (.islandRelease d i) s = .next t ∧ t = { s with regs := t.regs, boots := t.boots, out := [] } ∧ islandOut t d i = true ∧ (t.boot d).due.contains i = false
      ∧ (∀ j, islandOut s d j = true → islandOut t d j = true))
    ∧ (∃ t, exec (.islandPllTimeout d i) s = .next t ∧ t = { s with regs := t.regs, boots := t.boots, out := [] } ∧ (t.boot d).islandsOut = (s.boot d).islandsOut
      ∧ (t.boot d).due.contains i = false ∧ (∀ b, clkFailBit i = some b → nbit (t.rd (BLOCK_CLK_FAIL d)).toNat b = true) ∧ ∀ a, a ≠ BLOCK_CLK_FAIL d → t.rd a = s.rd a))
  ∧ (∀ (d : Die) (o : BootObs) (s : State), s.inReset.contains .supervisor = false → (s.boot d).running = false → s.rdF (BOOT_STATUS d) BOOT_STATUS_STAGE ≠ 15 →
    (d = .a ∨ s.flag (BOOT_STATUS d) BOOT_STATUS_SPLIT_BOOT = true →
      (o.flashOk = false → exec (.firmwareStart d o) s = .next (ran (bootFails d 6) s)) ∧ (o.flashOk = true → headerOk o = false → exec (.firmwareStart d o) s = .next (ran (bootFails d 1) s)))
    ∧ ((d = .a ∨ s.flag (BOOT_STATUS d) BOOT_STATUS_SPLIT_BOOT = true → o.flashOk = true ∧ headerOk o = true) →
        (d = .b → s.flag (BOOT_STATUS d) BOOT_STATUS_SPLIT_BOOT = false → (s.boot .a).running = true) →
      ∀ own, own = (d == .a || s.flag (BOOT_STATUS d) BOOT_STATUS_SPLIT_BOOT) →
      (∀ e, pickSlot fwImage s.part.fwMin 0 (bootSlots own o 12 o.firmware) = .error e → exec (.firmwareStart d o) s = .next (ran (bootFails d (2 + e)) s))
      ∧ (∀ i fw j cfg, pickSlot fwImage s.part.fwMin 0 (bootSlots own o 12 o.firmware) = .ok (i, fw) → pickSlot Prod.fst s.part.cfgMin 0 (bootSlots own o 20 o.config) = .ok (j, cfg) →
        ∃ t, exec (.firmwareStart d o) s = .next t ∧ t = { s with regs := t.regs, boots := t.boots, out := [] }
          ∧ t.boot d = { s.boot d with running := true, fwVersion := fw.version, cfgVersion := cfg.1.version, config := some cfg.2 }
          ∧ t.rdF (BOOT_STATUS d) BOOT_STATUS_STAGE = 5 ∧ t.rdF (BOOT_STATUS d) BOOT_STATUS_FW_SLOT = i % 2 ^ BOOT_STATUS_FW_SLOT.len
          ∧ t.rdF (DRAM_CFG d) DRAM_CFG_CH_CAP = cfg.2.chCap % 2 ^ DRAM_CFG_CH_CAP.len)))
  ∧ (∀ (d : Die) (failed : Nat) (s : State), (s.boot d).running = true → s.rdF (BOOT_STATUS d) BOOT_STATUS_STAGE = 5 →
    (failed % 256 ≠ 0 → ∃ t, exec (.trainingReady d failed) s = .next t ∧ t = { s with regs := t.regs, out := [] } ∧ t.rdF (DRAM_STATUS d) DRAM_STATUS_INIT_FAIL = failed % 256
      ∧ t.rdF (BOOT_STATUS d) BOOT_STATUS_STAGE = 15 ∧ t.rdF (BOOT_STATUS d) BOOT_STATUS_ERROR = 8)
    ∧ (failed % 256 = 0 → ∃ t, exec (.trainingReady d failed) s = .next t ∧ t.flag (DRAM_STATUS d) DRAM_STATUS_READY = true ∧ t.flag (BOOT_STATUS d) BOOT_STATUS_READY = true
      ∧ t.rdF (BOOT_STATUS d) BOOT_STATUS_STAGE = 6 ∧ (t.rin d).lossDue = false))

/-- R435: an expired watchdog, or a lockstep failure, which halts the pair as well, is latched once and counted, and takes FAILOVER_n away. R434: a hot reset of PCIe resets both managers of its die. R436 to R438: a write of BLOCK_RESET asserts every unit whose bit it sets, but those that an S claim holds against PF0, and releases every unit whose bit it clears; a release without lock leaves the unit in reset. R439: BLOCK_QUIESCE begins and ends quiescence. R487, R492: LIFE toggles while the supervisor runs, and THERMTRIP stays driven. R486: a pin without supply, in reset, or of a unit that is off, is as Table 21.8 has it; R488: FAILOVER_n is driven high while its conditions hold, and never low. -/
def Obligations.SupervisorAndBlockResets : Prop :=
  (∀ (d : Die) (s : State), s.inReset.contains .supervisor = false → s.flag (WDOG_STATUS d) WDOG_STATUS_EXPIRED = false →
    (∃ t, exec (.watchdogExpiry d) s = .next t ∧ t = { s with regs := t.regs, rinlar := t.rinlar, boots := t.boots, out := [] } ∧ t.flag (WDOG_STATUS d) WDOG_STATUS_EXPIRED = true
      ∧ t.rdF (WDOG_COUNT d) WDOG_COUNT_COUNT = min (2 ^ WDOG_COUNT_COUNT.len - 1) (s.rdF (WDOG_COUNT d) WDOG_COUNT_COUNT + 1) ∧ t.boot d = { s.boot d with failover := false }
      ∧ ∀ a, a ≠ WDOG_STATUS d → a ≠ WDOG_COUNT d → t.rd a = s.rd a)
    ∧ (∃ t, exec (.lockstepFailure d) s = .next t ∧ t = { s with regs := t.regs, rinlar := t.rinlar, boots := t.boots, out := [] } ∧ t.flag (WDOG_STATUS d) WDOG_STATUS_EXPIRED = true
      ∧ t.flag (WDOG_STATUS d) WDOG_STATUS_LOCKSTEP = true ∧ t.boot d = { s.boot d with halted := true, failover := false }
      ∧ ∀ a, a ≠ WDOG_STATUS d → a ≠ WDOG_COUNT d → t.rd a = s.rd a))
  ∧ (∀ (d : Die) (lost : Bool) (s : State), s.inReset.contains .pcie = false →
    exec (.pcieHotReset d lost) s = .next (ran (fun u => (if lost then rinlarCount d 63 1 else id) (funcReset (pf1 d) (funcReset (pf0 d) u))) s))
  ∧ (∀ (f : Fun) (v : Word) (un : Nat) (s : State), (accessRow s f (addrOff (BLOCK_RESET f.ep))).isSome = true → ∀ out,
    out = .next (ran (fun u => (turned s f.ep (s.rd (BLOCK_RESET f.ep)).toNat v.toNat false).foldl (fun t b => releaseUnit f.ep un b t)
      ((turned s f.ep (s.rd (BLOCK_RESET f.ep)).toNat v.toNat true).foldl (fun t b =>
        if f.fn = 0 ∧ claimed t f.ep b then setBlock (BLOCK_REFUSED f.ep) b true t else assertUnit f.ep b t) u)) s) →
    exec (.blockResetAssert f v un) s = out ∧ exec (.blockResetRelease f v un) s = out)
  ∧ (∀ (d : Die) (un b : Nat) (s : State), b < 28 → nbit un b = false → unitIslands b = [] → releaseUnit d un b s = setBlock (BLOCK_RESET d) b false s)
  ∧ (∀ (f : Fun) (v : Word) (s : State), (accessRow s f (addrOff (BLOCK_QUIESCE f.ep))).isSome = true →
    exec (.blockQuiesce f v) s = .next (ran (fun u => (turned s f.ep (s.rd (BLOCK_QUIESCE f.ep)).toNat v.toNat false).foldl
        (fun t b => t |> setBlock (BLOCK_QUIESCE f.ep) b false |> setBlock (BLOCK_QUIESCED f.ep) b false)
      ((turned s f.ep (s.rd (BLOCK_QUIESCE f.ep)).toNat v.toNat true).foldl (fun t b => t |> setBlock (BLOCK_QUIESCE f.ep) b true |> quiesceUnit f.ep b) u)) s))
  ∧ (∀ (d : Die) (b : Nat) (s : State), b < 28 →
    (nbit (s.rd (BLOCK_PENDING d)).toNat b = true → ∃ t, exec (.blockReleaseTimeout d b) s = .next t ∧ t = { s with regs := t.regs, boots := t.boots, out := [] }
      ∧ nbit (t.rd (BLOCK_PENDING d)).toNat b = false ∧ nbit (t.rd (BLOCK_CLK_FAIL d)).toNat b = true ∧ (t.boot d).stuck = b :: (s.boot d).stuck ∧ unitReset t d b = true
      ∧ ∀ a, a ≠ BLOCK_PENDING d → a ≠ BLOCK_CLK_FAIL d → t.rd a = s.rd a)
    ∧ (unitQuiet s d b = true → s.inReset.contains .fabric = false → ∃ t, exec (.blockQuiesced d b) s = .next t ∧ t = { s with regs := t.regs, out := [] }
      ∧ nbit (t.rd (BLOCK_QUIESCED d)).toNat b = true ∧ ∀ a, a ≠ BLOCK_QUIESCED d → t.rd a = s.rd a))
  ∧ (∀ (d : Die) (s : State),
    (alwaysOnUp s = true → ∃ t, exec (.thermtrip d) s = .next t ∧ t = { s with boots := t.boots, out := [] } ∧ t.boot d = { s.boot d with tripped := true })
    ∧ (supRuns s d = true → ∃ t, exec (.lifeToggle d) s = .next t ∧ t = { s with boots := t.boots, out := [] } ∧ t.boot d = { s.boot d with life := !(s.boot d).life })
    ∧ (supRuns s d = false → exec (.lifeToggle d) s = .next (fresh s)))
  ∧ (∀ (d : Die) (s : State) (p : Pin),
    (pinPresent s d p = true → pinState s d false p = (if p = .pwrenAon ∨ p = .pwrenMain ∨ p = .pwrenFt then .low else .highZ))
    ∧ (∀ on, pinPresent s d p = false → pinState s d on p = .unconnected)
    ∧ (s.inReset.contains .pcie = true → pinState s d true .pcie = .idle)
    ∧ (s.inReset.contains .memory = true → pinState s d true .memCa = .low ∧ pinState s d true .memCs = .low ∧ pinState s d true .dramReset = .low ∧ pinState s d true .memDq = .highZ)
    ∧ (s.inReset.contains .supervisor = true → pinState s d true .xspi = .highZ ∧ pinState s d true .life = .low ∧ pinState s d true .failover = .highZ
      ∧ pinState s d true .safeFault = .highZ ∧ pinState s d true .wdogOut = .highZ)
    ∧ (s.inReset.contains .heads = true → ∀ q, pinState s d true (.de q false) = .idle ∧ pinState s d true (.de q true) = .highZ ∧ pinState s d true (.ld q) = .highZ)
    ∧ (∀ q, (s.inReset.contains .camera = true ∨ s.flag (CAM_PORT_CFG d q) CAM_PORT_CFG_EN = false → pinPresent s d (.csi q) = true → pinState s d true (.csi q) = .unterminated)
      ∧ (∀ c, s.inReset.contains .audio = true ∨ s.flag (AUDIO_TDM_CFG d q) AUDIO_TDM_CFG_EN = false → pinPresent s d (.tdm q c) = true → pinState s d true (.tdm q c) = .low)
      ∧ (s.inReset.contains .haptic = true ∨ powerState s d ≠ 0 ∨ s.flag (HAP_CFG d q) HAP_CFG_EN = false → pinPresent s d (.hap q) = true → pinState s d true (.hap q) = .low)
      ∧ (s.inReset.contains .touch = true → pinPresent s d (.tch q) = true → pinState s d true (.tch q) = .held)
      ∧ (s.inReset.contains .fabric = true → pinState s d true (.gpio q) = .pullDown)
      ∧ (s.inReset.contains .fabric = false → nbit (s.rdF (GPIO_DIR d) GPIO_DIR_OE) q = true →
          pinState s d true (.gpio q) = (if nbit (s.rdF (GPIO_OUT d) GPIO_OUT_LEVEL) q then .high else .low))
      ∧ (s.inReset.contains .fabric = false → nbit (s.rdF (GPIO_DIR d) GPIO_DIR_OE) q = false →
          nbit (s.rdF (GPIO_PULL d) GPIO_PULL_UP) q = true → nbit (s.rdF (GPIO_PULL d) GPIO_PULL_DOWN) q = true → pinState s d true (.gpio q) = .highZ))
    ∧ (s.inReset.contains .supervisor = false → pinState s d true .life = (if (s.boot d).life then .high else .low)
      ∧ pinState s d true .failover = (if (s.boot d).failover then .high else .highZ)
      ∧ pinState s d true .safeFault = (if s.flag (GARNET_FAULT d) GARNET_FAULT_ASSERTED then .low else .high)
      ∧ pinState s d true .wdogOut = (if s.flag (WDOG_STATUS d) WDOG_STATUS_EXPIRED then .low else .highZ))
    ∧ pinState s d true .thermtrip = (if (s.boot d).tripped then .low else .highZ)
    ∧ ((refreshFailover d s).boot d).failover = (powerState s d == 0 && s.flag (BOOT_STATUS d) BOOT_STATUS_READY && !s.flag (WDOG_STATUS d) WDOG_STATUS_EXPIRED && supRuns s d))

/-- R444: replays are counted. R445: a failing lane of an UP bundle starts a remap where its direction has a spare, and one that fails during a remap waits for it; a remap done puts the spare into use, is counted and reported, and the bundle is UP. R446: without a spare, or without its forwarded clock, the bundle goes DOWN, is counted and reported, also while it trains by itself (Table 18.5). R449: a bundle that trains brings the main link back. R442: a change of the bundles that carry traffic begins a new set, over which later requests spread in granules of 256 bytes; a request whose bundle carries nothing any more goes over the lowest UP bundle (notes/assumptions/122.md). -/
def Obligations.LanesAndBundlesFollowTheirLink : Prop :=
  (∀ (d : Die) (n flits : Nat) (s : State), (4 ≤ n → exec (.ebrumFlitReplay d n flits) s = .next (fresh s))
    ∧ (n < 4 → ∃ t, exec (.ebrumFlitReplay d n flits) s = .next t ∧ t = { s with regs := t.regs, rinlar := t.rinlar, out := [] }
      ∧ t.rdF (EBRUM_REPLAYS d) EBRUM_REPLAYS_COUNT = min (2 ^ 32 - 1) (s.rdF (EBRUM_REPLAYS d) EBRUM_REPLAYS_COUNT + flits) ∧ ∀ a, a ≠ EBRUM_REPLAYS d → t.rd a = s.rd a))
  ∧ (∀ (d : Die) (n l : Nat) (s : State), n < 4 → l < 34 → ∀ q, q = tget [] n (s.ebrum .a).remaps →
    (bundleState s n = 2 → exec (.ebrumLaneFail d n l) s = .next (fresh s))
    ∧ (bundleState s n = 3 → (inRetrain s n = true ∨ s.rdF (EBRUM_BUNDLE d n) (spareField d) < 2) → exec (.ebrumLaneFail d n l) s = .next (fresh s))
    ∧ (bundleState s n = 3 → inRetrain s n = false → 2 ≤ s.rdF (EBRUM_BUNDLE d n) (spareField d) →
      exec (.ebrumLaneFail d n l) s = .next (ran (fun u => bundleDown d n l (wrF (EBRUM_BUNDLE d n) EBRUM_BUNDLE_LAST_FAIL l u)) s))
    ∧ (bundleState s n = 0 → s.rdF (EBRUM_BUNDLE d n) (spareField d) < 2 → ∃ t, exec (.ebrumLaneFail d n l) s = .next t ∧ t = { s with regs := t.regs, ebrums := t.ebrums, out := [] }
      ∧ bundleState t n = 1 ∧ t.rdF (EBRUM_BUNDLE d n) EBRUM_BUNDLE_LAST_FAIL = l ∧ tget [] n (t.ebrum .a).remaps = q ++ [(d, l)]
      ∧ ∀ a, (∀ e, a ≠ EBRUM_BUNDLE e n ∧ a ≠ EBRUM_STATUS e) → t.rd a = s.rd a)
    ∧ (bundleState s n = 0 → 2 ≤ s.rdF (EBRUM_BUNDLE d n) (spareField d) →
      exec (.ebrumLaneFail d n l) s = .next (ran (fun u => bundleDown d n l (wrF (EBRUM_BUNDLE d n) EBRUM_BUNDLE_LAST_FAIL l u)) s))
    ∧ (bundleState s n = 1 → ∃ t, exec (.ebrumLaneFail d n l) s = .next t ∧ t = { s with regs := t.regs, ebrums := t.ebrums, out := [] }
      ∧ tget [] n (t.ebrum .a).remaps = q ++ [(d, l)] ∧ bundleState t n = 1 ∧ t.rdF (EBRUM_BUNDLE d n) EBRUM_BUNDLE_LAST_FAIL = l ∧ ∀ a, a ≠ EBRUM_BUNDLE d n → t.rd a = s.rd a))
  ∧ (∀ (n : Nat) (s : State), n < 4 →
    (tget [] n (s.ebrum .a).remaps = [] ∨ bundleState s n ≠ 1 → exec (.ebrumRemapDone n) s = .next (fresh s))
    ∧ (∀ d l rest, tget [] n (s.ebrum .a).remaps = (d, l) :: rest → bundleState s n = 1 → (∀ e, s.rdF (EBRUM_BUNDLE e n) (spareField d) < 2) →
      ∃ u, (u = { s with regs := u.regs, ebrums := u.ebrums, rinlar := u.rinlar, out := [] } ∧ bundleState u n = 0 ∧ tget [] n (u.ebrum .a).remaps = []
          ∧ (∀ e, u.rdF (EBRUM_BUNDLE e n) (spareField d) = s.rdF (EBRUM_BUNDLE e n) (spareField d) + 1
            ∧ u.rdF (EBRUM_COUNTS0 e) EBRUM_COUNTS0_REMAPS = min (2 ^ EBRUM_COUNTS0_REMAPS.len - 1) (s.rdF (EBRUM_COUNTS0 e) EBRUM_COUNTS0_REMAPS + 1)
            ∧ nbit (u.rdF (EBRUM_STATUS e) EBRUM_STATUS_BUNDLES_UP) n = true)
          ∧ ∀ a, (∀ e, a ≠ EBRUM_BUNDLE e n ∧ a ≠ EBRUM_STATUS e ∧ a ≠ EBRUM_COUNTS0 e) → u.rd a = s.rd a)
        ∧ (∀ p, p = postLane d n l 0 u → (rest = [] → exec (.ebrumRemapDone n) s = .next (ran (fun _ => p) s))
          ∧ (∀ e k more, rest = (e, k) :: more → ∀ v, v = beginRemap e n k p →
            (bundleState v n = 1 → exec (.ebrumRemapDone n) s = .next (ran (fun _ => setEbrum .a { v.ebrum .a with remaps := tset n ((e, k) :: more) (v.ebrum .a).remaps } v) s))
            ∧ (bundleState v n ≠ 1 → exec (.ebrumRemapDone n) s = .next (ran (fun _ => v) s))))))
  ∧ (∀ (d : Die) (n l : Nat) (s : State), n < 4 →
    (exec (.forwardedClockLoss d n) s = .next (if bundleState s n = 2 ∨ inRetrain s n then fresh s else ran (fun u => bundleDown d n (u.freeNat 0 % 34) (useFree 1 u)) s))
    ∧ (∀ k, bundleState (setBundle n k s) n = k % 4 ∧ (∀ e, nbit ((setBundle n k s).rdF (EBRUM_STATUS e) EBRUM_STATUS_BUNDLES_UP) n = (k == 0))
      ∧ (∀ m, m < 4 → m ≠ n → bundleState (setBundle n k s) m = bundleState s m)
      ∧ (liveBundles (setBundle n k s) = liveBundles s → (setBundle n k s).ebrums = s.ebrums)
      ∧ (liveBundles (setBundle n k s) ≠ liveBundles s → ∀ e, (setBundle n k s).ebrum e = { s.ebrum e with sets := (s.now e, liveBundles (setBundle n k s)) :: (s.ebrum e).sets })
      ∧ ∀ a, (∀ e, a ≠ EBRUM_BUNDLE e n ∧ a ≠ EBRUM_STATUS e) → (setBundle n k s).rd a = s.rd a)
    ∧ (∀ u, u = bothDies.foldl (fun t e => t |> setEbrum e { t.ebrum e with remaps := tkeep (fun k => k != n) (t.ebrum e).remaps } |> satF (EBRUM_COUNTS0 e) EBRUM_COUNTS0_BUNDLES_DOWN 1 |> rinlarCount e 39 1)
        (postLane d n l 1 (setBundle n 2 s)) →
      (allDown u = false → bundleDown d n l s = u) ∧ (allDown u = true → bundleDown d n l s = loseMain .b (loseMain .a u))))
  ∧ (∀ (n : Nat) (s : State), n < 4 → ∀ w, w = setBundle n 0 (fresh s) →
    ((bundleState s n ≠ 3 ∨ ∃ e ∈ s.ebrums, ∃ t m, e.2.retrain = some (t, m) ∧ nbit m n = true) → exec (.mainLinkBack n) s = .next (fresh s))
    ∧ (bundleState s n = 3 → (∀ e ∈ s.ebrums, ∀ t m, e.2.retrain = some (t, m) → nbit m n = false) →
      ((∀ d, (s.ebrum d).lost = none) → exec (.mainLinkBack n) s = .next (ran (fun _ => w) s))
      ∧ (∀ d since, (s.ebrum d).lost = some since → (s.ebrum d.other).lost = none →
        ∃ u, (u = { w with regs := u.regs, ebrums := u.ebrums } ∧ (u.ebrum d) = { w.ebrum d with lost := none } ∧ u.rdF (EBRUM_STATUS d) EBRUM_STATUS_STATE = 0 ∧ ∀ a, a ≠ EBRUM_STATUS d → u.rd a = w.rd a)
          ∧ exec (.mainLinkBack n) s = .next (ran (fun _ => postEbrum d 0x0B01 (1 + min 0xFFFFFFFF ((s.now d - since) / 1000) * 2 ^ 32) false u) s))))
  ∧ (∀ (d : Die) (r : MemReq) (since b : Nat) (bs : List Nat) (rest : List (Nat × List Nat)) (s : State), (s.ebrum d).sets = (since, bs) :: rest → since ≤ r.since →
    bs[r.addr / 256 % bs.length]? = some b →
    ((liveBundles s).contains b = true → carrier s d r = some b) ∧ ((liveBundles s).contains b = false → carrier s d r = lowestUp s))

/-- R449, R450: the check of every 10 µs reports what the die sees; a main link without heartbeats is lost and trains again by itself; a cause of Table 18.2 splits the dies at once in FULL, and waits for the exit of PEARL else; a split counts, and posts. R452: at the end of a retrain a bundle that passed is UP, any other DOWN, and in a split enough bundles make the link TESTED. R453: REJOIN waits for the peer's, the dies' versions are compared, a late request times out, and the dies are joined once die B's device time, which is slewed and never stepped, meets die A's. A retrain that passes brings a lost main link back; byte 17 of the event REJOIN is taken as the mask of the bundles that are UP (notes/assumptions/81.md). -/
def Obligations.DiesSplitAndRejoin : Prop :=
  (∀ (d : Die) (o : HealthObs) (s : State), (s.inReset.contains .ebrum = true → exec (.ebrumHealthCheck d o) s = .next (fresh s))
    ∧ (s.inReset.contains .ebrum = false → ∀ st, st = s.rdF (EBRUM_STATUS d) EBRUM_STATUS_STATE →
      ∃ w, (w = { s with regs := w.regs, out := [] } ∧ w.flag (EBRUM_STATUS d) EBRUM_STATUS_SB_UP = decide (o.sideUs ≤ 1000) ∧ w.flag (EBRUM_STATUS d) EBRUM_STATUS_PEER_OK = (o.okLowUs == 0)
          ∧ w.flag (EBRUM_STATUS d) EBRUM_STATUS_PEER_PEARL = inPearl s d.other ∧ (∀ n, n < 4 → w.rdF (EBRUM_BUNDLE d n) EBRUM_BUNDLE_EYE_MIN = o.eyes.getD n 0 % 256)
          ∧ w.rdF (EBRUM_STATUS d) EBRUM_STATUS_STATE = st ∧ ∀ a, a ≠ EBRUM_STATUS d → (∀ n, n < 4 → a ≠ EBRUM_BUNDLE d n) → w.rd a = s.rd a)
        ∧ (∀ gone : Prop, (gone ↔ (s.rdF (POWER_STATUS d) POWER_STATUS_STATE ≠ 2 ∧ s.rdF (POWER_STATUS d) POWER_STATUS_STATE ≠ 3) ∧ (50 ≤ o.mainUs ∨ ∀ n, n < 4 → bundleState s n = 2)) →
          (∀ v, st < 2 → (gone → v = loseMain d w) → (¬ gone → v = w) →
            (splitCause v d o = none ∨ supRuns v d = false → exec (.ebrumHealthCheck d o) s = .next (ran (fun _ => v) s))
            ∧ (∀ c, splitCause v d o = some c → supRuns v d = true → exec (.ebrumHealthCheck d o) s = .next (ran (fun _ => splitNow d c v) s)))
          ∧ (∀ due : Prop, (due ↔ (s.ebrum d).splitDue = some 2 ∧ 1000 < o.okLowUs ∧ supRuns s d = true) → 2 ≤ st → st ≠ 5 →
            (due → exec (.ebrumHealthCheck d o) s = .next (ran (fun _ => declareSplit d 2 w) s)) ∧ (¬ due → exec (.ebrumHealthCheck d o) s = .next (ran (fun _ => w) s)))
          ∧ (st = 5 → ∀ v, v = rejoinEnds w →
            (o.okLowUs ≠ 0 → exec (.ebrumHealthCheck d o) s = .next (ran (fun _ => setEbrum d { v.ebrum d with splitDue := some 2 } v) s))
            ∧ (o.okLowUs = 0 → gone → exec (.ebrumHealthCheck d o) s = .next (ran (fun _ => v) s))
            ∧ (o.okLowUs = 0 → ¬ gone → exec (.ebrumHealthCheck d o) s = .next (ran (fun _ => w) s))))))
  ∧ (∀ (d : Die) (o : HealthObs) (s : State),
    (1000 < o.okLowUs → splitCause s d o = some 2)
    ∧ (o.okLowUs = 0 → 1000 < o.mainUs → 1000 < o.sideUs → splitCause s d o = some 0)
    ∧ (o.okLowUs ≤ 1000 → o.sideUs ≤ 1000 → (s.ebrum d).lost = none → splitCause s d o = none)
    ∧ (∀ since, o.okLowUs ≤ 1000 → o.sideUs ≤ 1000 → (s.ebrum d).lost = some since →
      (splitCause s d o = some 1 ↔ since + max 1 (s.rdF (EBRUM_CFG d) EBRUM_CFG_MAIN_HOLD_MS) * 1000000 ≤ s.now d)))
  ∧ (∀ (d : Die) (c : Nat) (s : State), c < 3 →
    (s.rdF (POWER_STATUS d) POWER_STATUS_STATE = 0 →
      ∃ u, (u = { s with split := true, regs := u.regs, rinlar := u.rinlar, ebrums := u.ebrums } ∧ u.rdF (EBRUM_STATUS d) EBRUM_STATUS_STATE = 2 ∧ u.rdF (EBRUM_STATUS d) EBRUM_STATUS_CAUSE = c
          ∧ u.rdF (EBRUM_COUNTS1 d) EBRUM_COUNTS1_SPLITS = min (2 ^ EBRUM_COUNTS1_SPLITS.len - 1) (s.rdF (EBRUM_COUNTS1 d) EBRUM_COUNTS1_SPLITS + 1)
          ∧ u.ebrum d = { s.ebrum d with lost := none, splitDue := none } ∧ ∀ a, a ≠ EBRUM_STATUS d → a ≠ EBRUM_COUNTS1 d → u.rd a = s.rd a)
        ∧ splitNow d c s = postEbrum d 0x0B02 (c + min 0xFFFFFFFF (dropAcross u).1 * 2 ^ 32) true
            (cancelGone d ((epFuns d).foldl (fun t f => wrB (FUNC_STATUS f) FUNC_STATUS_PEER_LOST true t) (dropAcross u).2)))
    ∧ (s.rdF (POWER_STATUS d) POWER_STATUS_STATE ≠ 0 → (s.ebrum d).splitDue = none → splitNow d c s = setEbrum d { s.ebrum d with splitDue := some c } s))
  ∧ (∀ (d : Die) (passed lanes : Nat) (s : State),
    ((s.ebrum d).retrain = none → exec (.linkRetrainDone d passed lanes) s = .next (fresh s))
    ∧ (∀ k m, (s.ebrum d).retrain = some (k, m) → ∀ good, good = (((upto 4).filter (nbit m)).map (fun n => if nbit passed n then 2 ^ n else 0)).sum →
      ∃ u, (u = { s with regs := u.regs, ebrums := u.ebrums, out := [] } ∧ u.ebrum d = { s.ebrum d with retrain := none, sets := (u.ebrum d).sets }
          ∧ (∀ n, n < 4 → bundleState u n = (if nbit m n then (if nbit passed n then 0 else 2) else bundleState s n))
          ∧ (∀ n, n < 4 → nbit m n = true → ∀ e, ltState u e (9 + n) = 3 ∧ u.rdF (EBRUM_BUNDLE e n) EBRUM_BUNDLE_SPARES_AB = 0 ∧ u.rdF (EBRUM_BUNDLE e n) EBRUM_BUNDLE_SPARES_BA = 0)
          ∧ (s.split = true → ∀ e, u.rdF (EBRUM_STATUS e) EBRUM_STATUS_STATE = (if s.rdF (EBRUM_CFG e) EBRUM_CFG_MIN_BUNDLES ≤ (upto 4).countP (fun n => nbit m n && nbit passed n) then 4 else 2))
          ∧ (s.split = false → ∀ e, u.rdF (EBRUM_STATUS e) EBRUM_STATUS_STATE = s.rdF (EBRUM_STATUS e) EBRUM_STATUS_STATE))
        ∧ exec (.linkRetrainDone d passed lanes) s = .next (ran (fun _ => bothDies.foldl (fun v e => postEbrum e 0x0B04 (m + good * 2 ^ 8 + min 0xFFFF lanes * 2 ^ 16) false v)
            (finish k stOk (m * 16 + good) (if s.split = false ∧ good ≠ 0 then linkBack u else u))) s)))
  ∧ (∀ (d : Die) (s : State), s.inReset.contains .ebrum = false →
    (∃ t, exec (.ebrumSidebandMsg d .heartbeat) s = .next t ∧ t = { s with regs := t.regs, out := [] } ∧ t.flag (EBRUM_STATUS d) EBRUM_STATUS_SB_UP = true ∧ ∀ a, a ≠ EBRUM_STATUS d → t.rd a = s.rd a)
    ∧ (∀ held, held = false ∨ (s.ebrum .a).rejoin = none ∨ (s.ebrum .b).rejoin = none → ∃ t, exec (.ebrumSidebandMsg d (.rejoin held)) s = .next t ∧ t = { s with regs := t.regs, out := [] }
      ∧ t.flag (EBRUM_STATUS d) EBRUM_STATUS_PEER_REJOIN = held ∧ ∀ a, a ≠ EBRUM_STATUS d → t.rd a = s.rd a)
    ∧ (∀ ta tb, (s.ebrum .a).rejoin = some ta → (s.ebrum .b).rejoin = some tb → (s.boot .a).fwVersion = (s.boot .b).fwVersion →
      (timeOffset s = 0 → ∃ t, exec (.ebrumSidebandMsg d (.rejoin true)) s = .next t ∧ t = { s with regs := t.regs, ebrums := t.ebrums, out := [] }
        ∧ (∀ e, t.rdF (EBRUM_STATUS e) EBRUM_STATUS_STATE = 5 ∧ t.ebrum e = { s.ebrum e with offset := 0 }) ∧ ∀ a, (∀ e, a ≠ EBRUM_STATUS e) → t.rd a = s.rd a)
      ∧ (timeOffset s ≠ 0 → s.flag (XING_STATUS .b 0xC5) XING_STATUS_PEER_RESET = false → ∃ t, exec (.ebrumSidebandMsg d (.rejoin true)) s = .next t
        ∧ t = { s with regs := t.regs, ebrums := t.ebrums, xings := t.xings, out := [] }
        ∧ (∀ e, t.rdF (EBRUM_STATUS e) EBRUM_STATUS_STATE = 5 ∧ t.ebrum e = { s.ebrum e with offset := timeOffset s })
        ∧ ((s.xing .b 0xC5).queue = [] → (t.xing .b 0xC5).queue = [(slewLo .b, BitVec.ofNat 32 (unsgn 64 (timeOffset s))), (slewHi .b, BitVec.ofNat 32 (unsgn 64 (timeOffset s) / 2 ^ 32))])))
    ∧ (∀ ta tb, (s.ebrum .a).rejoin = some ta → (s.ebrum .b).rejoin = some tb → (s.boot .a).fwVersion ≠ (s.boot .b).fwVersion →
      ∃ u, (u = { s with regs := u.regs, ebrums := u.ebrums, out := [] } ∧ (∀ e, (u.ebrum e).rejoin = none ∧ u.flag (EBRUM_STATUS e) EBRUM_STATUS_PEER_REJOIN = false) ∧ ∀ a, (∀ e, a ≠ EBRUM_STATUS e) → u.rd a = s.rd a)
        ∧ exec (.ebrumSidebandMsg d (.rejoin true)) s = .next (ran (fun _ => finish tb stInvalidDesc (invalidDetail 0x08 0) (finish ta stInvalidDesc (invalidDetail 0x08 0) u)) s)))
  ∧ (∀ (d : Die) (s : State), ((s.ebrum d).rejoin = none ∨ s.rdF (EBRUM_STATUS d) EBRUM_STATUS_STATE = 5 → exec (.rejoinTimeout d) s = .next (fresh s))
    ∧ (∀ k, (s.ebrum d).rejoin = some k → s.rdF (EBRUM_STATUS d) EBRUM_STATUS_STATE ≠ 5 →
      exec (.rejoinTimeout d) s = .next (ran (fun u => finish k stTimeout 0 (emit (.sideband d 1 0) (setEbrum d { s.ebrum d with rejoin := none } u))) s)))
  ∧ (∀ s : State, ((∃ d, s.rdF (EBRUM_STATUS d) EBRUM_STATUS_STATE ≠ 5) ∨ timeOffset s ≠ 0 → exec .rejoinDone s = .next (fresh s))
    ∧ (∀ ta tb, (∀ d, s.rdF (EBRUM_STATUS d) EBRUM_STATUS_STATE = 5) → timeOffset s = 0 → (s.ebrum .a).rejoin = some ta → (s.ebrum .b).rejoin = some tb →
      ∃ u, (u = { s with regs := u.regs, rinlar := u.rinlar, split := false, out := [] }
          ∧ (∀ d, u.rdF (EBRUM_STATUS d) EBRUM_STATUS_STATE = 0 ∧ u.flag (EBRUM_STATUS d) EBRUM_STATUS_PEER_REJOIN = false ∧ (∀ f ∈ epFuns d, u.flag (FUNC_STATUS f) FUNC_STATUS_PEER_LOST = false)
            ∧ u.rdF (EBRUM_COUNTS1 d) EBRUM_COUNTS1_REJOINS = min (2 ^ EBRUM_COUNTS1_REJOINS.len - 1) (s.rdF (EBRUM_COUNTS1 d) EBRUM_COUNTS1_REJOINS + 1)))
        ∧ exec .rejoinDone s = .next (ran (fun _ =>
            let v := finish ta stOk 0 u
            let w := finish tb stOk 0 (setEbrum .a { v.ebrum .a with rejoin := none, splitDue := none } v)
            let x := setEbrum .b { w.ebrum .b with rejoin := none, splitDue := none } w
            bothDies.foldl (fun t d => postEbrum d 0x0B03 (upMask s * 2 ^ 8 + unsgn 32 (s.ebrum .b).offset * 2 ^ 32) true t)
              ((audioRoutes x).foldl (fun t r => if acrossTo .a r.2.grantee then setEnv r.1 true t else t) x)) s)))

/-- R459: START on a free link starts the unit with its counters clear, or arms the PCIe unit; on one that is not free, or with a pattern or rate the unit lacks, START_ERR says why and nothing else happens; a unit that runs ignores it. R462: a test ends by its duration or by STOP, keeps its counters, and posts the lanes with errors. R460: the lanes of a generator begin to send the pattern, each PRBS lane from its own seed, at the rate of Table 19.4 (the width of the lane's part of a seed is the model's choice, notes/assumptions/77.md). R461: a lane that locks counts from then on, and one that loses lock advances RELOCKS. R463: an armed test runs when the link leaves L0. -/
def Obligations.LinkTestsRunOnFreeLinks : Prop :=
  (∀ (f : Fun) (u : Nat) (v : Word) (o : LtObs) (s : State),
    ((accessRow s f (addrOff (LT_CTRL f.ep u))).isNone = true ∨ ltPresent s f.ep u = false → exec (.ltStart f u v o) s = .next (fresh s) ∧ exec (.ltStop f u v o) s = .next (fresh s))
    ∧ ((accessRow s f (addrOff (LT_CTRL f.ep u))).isSome = true → ltPresent s f.ep u = true → ∀ out,
      out = .next (ran (fun w => (if LT_CTRL_START.get v = 1 then ltBegin f.ep u else id) ((if LT_CTRL_STOP.get v = 1 then fun x => ltEnd f.ep u 1 (ltCount f.ep u o x) else id) w)) s) →
      exec (.ltStart f u v o) s = out ∧ exec (.ltStop f u v o) s = out))
  ∧ (∀ (d : Die) (u : Nat) (s : State), u ≤ 20 →
    (ltState s d u = 1 ∨ ltState s d u = 2 → ltBegin d u s = s)
    ∧ (ltState s d u ≠ 1 → ltState s d u ≠ 2 → ∀ r, r = (if ltBusy s d u ≠ 0 then ltBusy s d u else if ltSupported s d u then 0 else 5) →
      (r ≠ 0 → ltBegin d u s = wrF (LT_STATUS d u) LT_STATUS_START_ERR r s)
      ∧ (r = 0 → ∃ w, w = { s with regs := w.regs, linkTests := w.linkTests } ∧ ltState w d u = (if u = 0 then 1 else 2) ∧ w.rdF (LT_STATUS d u) LT_STATUS_START_ERR = 0
        ∧ w.rdF (LT_STATUS d u) LT_STATUS_RELOCKS = 0 ∧ w.rd (LT_NOLOCK d u) = 0 ∧ w.rd64 (LT_BITS_LO d u) = 0 ∧ (∀ l, l < ltLanes u → w.rd (LT_ERR d u l) = 0) ∧ tget [] u (w.ltest d).locked = []
        ∧ ltBegin d u s = (if u = 0 then w else if 5 ≤ u ∧ u ≤ 8 then (upto 4).foldl (fun t c => loseStream (4 * d.idx + (u - 5)) c 2 t) (generate d u w) else generate d u w))))
  ∧ (∀ (d : Die) (u p l : Nat) (s : State), u ≤ 20 → p = s.rdF (LT_CFG d u) LT_CFG_PATTERN → ∀ rate, rate = (if u = 0 then none else if u ≤ 4 then some (s.rdF (LT_RATE d u) LT_RATE_MBPS)
      else if u ≤ 8 then some (s.rdF (CAM_PORT_CFG d (u - 5)) CAM_PORT_CFG_MAX_MBPS) else if u ≤ 12 then some 16000 else some (s.rdF (DRAM_FSP d (s.rdF (DRAM_STATUS d) DRAM_STATUS_FSP_CUR)) DRAM_FSP_RATE_MTS)) →
    generate d u s = { s with out := (generate d u s).out }
    ∧ (p = 0 ∨ s.rdF (LT_CFG d u) LT_CFG_MODE = 1 → generate d u s = s)
    ∧ ((lanesTested s d u).contains l = true → s.rdF (LT_CFG d u) LT_CFG_MODE = 3 ∨ s.rdF (LT_CFG d u) LT_CFG_MODE ≠ 1 ∧ (u < 5 ∨ 8 < u) →
      (∀ n m, (p, n, m) ∈ [(1, 7, 6), (2, 9, 5), (3, 15, 14), (4, 23, 18), (5, 31, 28)] →
        .pattern d u l p (n, m) (2 ^ n - 64 + l + 1) (s.flag (LT_CFG d u) LT_CFG_INVERT) rate ∈ (generate d u s).out)
      ∧ (p = 6 → .pattern d u l 6 (0, 0) (s.rd64 (LT_USER_LO d)) (s.flag (LT_CFG d u) LT_CFG_INVERT) rate ∈ (generate d u s).out)))
  ∧ (∀ (d : Die) (u c : Nat) (s : State), u ≤ 20 → c < 4 →
    (ltState s d u ≠ 1 → ltState s d u ≠ 2 → ltEnd d u c s = s)
    ∧ (ltState s d u = 1 ∨ ltState s d u = 2 → (s.dram d).waitTarget = none ∨ u < 13 → ∀ off wrong : List Nat,
      off = (lanesTested s d u).filter (fun l => ltChecks u && s.rdF (LT_CFG d u) LT_CFG_MODE != 0 && !(tget [] u (s.ltest d).locked).contains l) →
      wrong = (lanesTested s d u).filter (fun l => off.contains l || s.rd (LT_ERR d u l) != 0) →
      ∃ w, w = { s with regs := w.regs } ∧ ltState w d u = 3 ∧ w.rdF (LT_STATUS d u) LT_STATUS_CAUSE = c ∧ w.rd (LT_NOLOCK d u) = BitVec.ofNat 32 (off.map (fun l => 2 ^ l)).sum
        ∧ (∀ a, a ≠ LT_STATUS d u → a ≠ LT_NOLOCK d u → w.rd a = s.rd a)
        ∧ ltEnd d u c s = postPf0 d 0x0C00 d.idx (u + c * 2 ^ 8 + (wrong.map (fun l => 2 ^ l)).sum * 2 ^ 32) w))
  ∧ (∀ (d : Die) (u : Nat) (o : LtObs) (s : State),
    (ltState s d u = 2 → s.rdF (LT_CFG d u) LT_CFG_DURATION_MS ≠ 0 → s.flag (LT_STATUS d u) LT_STATUS_RETRAIN = false → exec (.linkTestEnd d u o) s = .next (ran (fun w => ltEnd d u 0 (ltCount d u o w)) s))
    ∧ (ltState s d u ≠ 2 ∨ s.rdF (LT_CFG d u) LT_CFG_DURATION_MS = 0 ∨ s.flag (LT_STATUS d u) LT_STATUS_RETRAIN = true → exec (.linkTestEnd d u o) s = .next (fresh s))
    ∧ (tget [] u (s.ltest d).locked = [] → ltCount d u o s = s)
    ∧ (∀ l n, u ≤ 20 → l < ltLanes u → o.errs = [(l, n)] → (tget [] u (s.ltest d).locked).contains l = true →
      (ltCount d u o s).rdF (LT_ERR d u l) LT_ERR_COUNT = min (2 ^ 32 - 1) (s.rdF (LT_ERR d u l) LT_ERR_COUNT + n) ∧ (ltCount d u o s).rd64 (LT_BITS_LO d u) = (s.rd64 (LT_BITS_LO d u) + o.bits) % 2 ^ 64))
  ∧ (∀ (d : Die) (s : State), (ltState s d 0 = 1 → ∃ w, w = { s with regs := w.regs, out := [] } ∧ ltState w d 0 = 2 ∧ (∀ a, a ≠ LT_STATUS d 0 → w.rd a = s.rd a) ∧ exec (.ltPcieRun d) s = .next (ran (fun _ => generate d 0 w) s))
    ∧ (ltState s d 0 ≠ 1 → exec (.ltPcieRun d) s = .next (fresh s)))
  ∧ (∀ (d : Die) (u l : Nat) (lock : Bool) (o : LtObs) (s : State), u ≤ 20 →
    (ltState s d u ≠ 2 ∨ ltChecks u = false ∨ s.rdF (LT_CFG d u) LT_CFG_MODE = 0 ∨ (lanesTested s d u).contains l = false → exec (.checkerLock d u l lock o) s = .next (fresh s))
    ∧ (ltState s d u = 2 → ltChecks u = true → s.rdF (LT_CFG d u) LT_CFG_MODE ≠ 0 → (lanesTested s d u).contains l = true → ∀ w, w = ltCount d u o (fresh s) →
      ((tget [] u (s.ltest d).locked).contains l = lock → exec (.checkerLock d u l lock o) s = .next (ran (fun _ => w) s))
      ∧ ((tget [] u (s.ltest d).locked).contains l ≠ lock → ∃ t, exec (.checkerLock d u l lock o) s = .next t ∧ t = { w with regs := t.regs, linkTests := t.linkTests }
        ∧ (tget [] u (t.ltest d).locked).contains l = lock ∧ (∀ m, m ≠ l → (tget [] u (t.ltest d).locked).contains m = (tget [] u (s.ltest d).locked).contains m)
        ∧ t.rdF (LT_STATUS d u) LT_STATUS_RELOCKS = (if lock then s.rdF (LT_STATUS d u) LT_STATUS_RELOCKS else min 255 (s.rdF (LT_STATUS d u) LT_STATUS_RELOCKS + 1)))))

/-- R464: GO starts a point with the result clear, and DWELL within 20 to 40; a point that its unit cannot measure is INVALID at once; one that can ends with its errors. R465: a point on a lane being margined waits until the margining ends; the endpoint answers the margining command for its capabilities with the numbers of the rule. -/
def Obligations.EyesAreScanned : Prop :=
  (∀ (f : Fun) (v : Word) (s : State),
    ((accessRow s f (addrOff (LT_EYE_CTRL f.ep))).isNone = true → exec (.ltEyeGo f v) s = .next (fresh s))
    ∧ ((accessRow s f (addrOff (LT_EYE_CTRL f.ep))).isSome = true → ∃ w, w = { s with regs := w.regs, out := [] }
      ∧ w.rdF (LT_EYE_CTRL f.ep) LT_EYE_CTRL_DWELL = max 20 (min 40 (LT_EYE_CTRL_DWELL.get v)) ∧ eyeUnit w f.ep = LT_EYE_CTRL_UNIT.get v ∧ eyeLane w f.ep = LT_EYE_CTRL_LANE.get v
      ∧ w.rdF (LT_EYE_CTRL f.ep) LT_EYE_CTRL_T_STEP = LT_EYE_CTRL_T_STEP.get v ∧ w.rdF (LT_EYE_CTRL f.ep) LT_EYE_CTRL_V_STEP = LT_EYE_CTRL_V_STEP.get v
      ∧ (∀ a, a ≠ LT_EYE_CTRL f.ep → w.rd a = s.rd a)
      ∧ (LT_EYE_CTRL_GO.get v = 0 → exec (.ltEyeGo f v) s = .next (ran (fun _ => w) s))
      ∧ (LT_EYE_CTRL_GO.get v = 1 → exec (.ltEyeGo f v) s = .next (ran (fun _ => eyeBegin f.ep (setLtest f.ep { s.ltest f.ep with eye := 1 } (wr (LT_EYE_RESULT f.ep) 0 w))) s))))
  ∧ (∀ (d : Die) (s : State),
    ((s.ltest d).eye ≠ 1 → eyeBegin d s = s)
    ∧ ((s.ltest d).eye = 1 → eyeOk s d = false → eyeBegin d s = eyeResult d true 0 s)
    ∧ ((s.ltest d).eye = 1 → eyeOk s d = true → eyeUnit s d = 0 → (s.ltest d).margin.contains (eyeLane s d) = true → eyeBegin d s = s)
    ∧ ((s.ltest d).eye = 1 → eyeOk s d = true → eyeUnit s d ≠ 0 ∨ (s.ltest d).margin.contains (eyeLane s d) = false → eyeBegin d s = setLtest d { s.ltest d with eye := 2 } s)
    ∧ (∀ bad n, (eyeResult d bad n s).flag (LT_EYE_RESULT d) LT_EYE_RESULT_DONE = true ∧ (eyeResult d bad n s).flag (LT_EYE_RESULT d) LT_EYE_RESULT_INVALID = bad
      ∧ (eyeResult d bad n s).rdF (LT_EYE_RESULT d) LT_EYE_RESULT_ERRORS = min 0x3FFFFFFF n ∧ ((eyeResult d bad n s).ltest d).eye = 0 ∧ ∀ a, a ≠ LT_EYE_RESULT d → (eyeResult d bad n s).rd a = s.rd a))
  ∧ (∀ (d : Die) (n : Nat) (s : State), ((s.ltest d).eye ≠ 2 → exec (.ltEyeDone d n) s = .next (fresh s))
    ∧ ((s.ltest d).eye = 2 → eyeOk s d = true → exec (.ltEyeDone d n) s = .next (ran (eyeResult d false n) s))
    ∧ ((s.ltest d).eye = 2 → eyeOk s d = false → exec (.ltEyeDone d n) s = .next (ran (eyeResult d true 0) s)))
  ∧ (∀ (d : Die) (l k : Nat) (s : State), (8 ≤ l → exec (.laneMargining d l k) s = .next (fresh s))
    ∧ (l < 8 → (∃ t, exec (.laneMargining d l 0) s = .next t ∧ t = { s with linkTests := t.linkTests, out := [] } ∧ (t.ltest d).margin.contains l = true ∧ (t.ltest d).eye = (s.ltest d).eye)
      ∧ (∃ w, w = { s with linkTests := w.linkTests, out := [] } ∧ w.ltest d = { s.ltest d with margin := (s.ltest d).margin.filter (fun m => m != l) }
        ∧ exec (.laneMargining d l 1) s = .next (ran (fun _ => eyeBegin d w) s))
      ∧ (2 ≤ k → ∃ t, exec (.laneMargining d l k) s = .next t ∧ t = { s with out := [.margin d l [32, 50, 64, 16]] })))

/-- R469, R470: a snapshot that is due begins in the next slot of the rotation where none is being written, and waits else, the power-fail one first; a power failure within 10 ms of the last is ignored. R472, R473: the image of a snapshot is valid and carries its cause and number; a slot that failed its read-back twice is retired, and the snapshot goes on in the next one. R473, R474: each second adds one to the bin of each histogram and to the lifetime seconds, those of PEARL apart, and to counter 7 in shortfall; in ONYX nothing is counted or written (notes/assumptions/61.md). R476: LATCH copies the image it names into the readout buffer and sets LATCH_DONE; R469: SNAP asks for a snapshot of cause 4. -/
def Obligations.RinlarSnapshotsCountAndRead : Prop :=
  ((∀ (d : Die) (c : Nat) (k : Option Ticket) (s : State),
    (∀ w, (s.rin d).writing = some w → requestSnap d c k s = setRin d { s.rin d with queue := if c = 1 then (1, k) :: (s.rin d).queue else (s.rin d).queue ++ [(c, k)] } s)
    ∧ (∀ n, (s.rin d).writing = none → (s.rin d).queue = [] → snapReady s d c = true → nextSlot (s.rin d) (match newestSlot (s.rin d) with | some x => x.1 | none => 31) = some n →
      ∃ t, requestSnap d c k s = t ∧ t = { s with regs := t.regs, rinlar := t.rinlar } ∧ (t.rin d).writing = some (c, n, k) ∧ (t.rin d).queue = [] ∧ (t.rin d).slots = (s.rin d).slots
        ∧ t.flag (RINLAR_STATUS d) RINLAR_STATUS_BUSY = true ∧ ∀ a, a ≠ RINLAR_STATUS d → t.rd a = s.rd a)
    ∧ (recordRuns s d = true → exec (.rinlarPeriodic d) s = .next (ran (requestSnap d 0 none) s))
    ∧ (recordRuns s d = false → ∀ tj, exec (.rinlarPeriodic d) s = .next (fresh s) ∧ exec (.rinlarSecond d tj) s = .next (fresh s)))
  ∧ (∀ s : State, ((∀ d, s.now d < (s.rin d).powerFailFrom ∨ recordRuns s d = false) → exec .pwrfail s = .next (fresh s))
    ∧ (∀ d, (s.rin d).powerFailFrom ≤ s.now d → recordRuns s d = true → s.now d.other < (s.rin d.other).powerFailFrom ∨ recordRuns s d.other = false → exec .pwrfail s = .next (ran (requestSnap d 1 none) s))
    ∧ ((∀ d, (s.rin d).powerFailFrom ≤ s.now d ∧ recordRuns s d = true) → exec .pwrfail s = .next (ran (fun u => requestSnap .b 1 none (requestSnap .a 1 none u)) s)))
  ∧ (∀ (d : Die) (c q : Nat) (live : Tab Nat), c < 256 → slotValid (imageOf d c q live) = true ∧ imageSeq (imageOf d c q live) = q ∧ imageCause (imageOf d c q live) = c
    ∧ ∀ i, 16 ≤ i → tget 0 i (imageOf d c q live) = tget 0 i live)
  ∧ (∀ (d : Die) (bad : Nat) (s : State),
    ((s.rin d).writing = none → (s.rin d).queue = [] → exec (.rinlarSnapshotDone d bad) s = .next (fresh s))
    ∧ (∀ c n k, (s.rin d).writing = some (c, n, k) → bad < 2 → ∀ q, q = (match newestSlot (s.rin d) with | some x => imageSeq x.2 + 1 | none => 1) → ∀ w,
      w = refreshNewest d (setRin d { s.rin d with slots := tset n (imageOf d c q (s.rin d).live) (s.rin d).slots, writing := none } (fresh s)) →
      (k = none → exec (.rinlarSnapshotDone d bad) s = .next (ran (fun _ => refreshRinlar d (startSnap d w)) s))
      ∧ (∀ t, k = some t → exec (.rinlarSnapshotDone d bad) s = .next (ran (fun _ => refreshRinlar d (startSnap d (finish t stOk 0 w))) s)))
    ∧ (∀ c n k, (s.rin d).writing = some (c, n, k) → 2 ≤ bad → (s.rin d).retired.contains n = false → ∀ r, r = { s.rin d with retired := n :: (s.rin d).retired, slots := tkeep (fun j => j != n) (s.rin d).slots } →
      exec (.rinlarSnapshotDone d bad) s = .next (ran (fun _ => postRinlar d 0 n (refreshRinlar d (refreshNewest d (setRin d { r with writing := (nextSlot r n).map (fun m => (c, m, k)) } (fresh s))))) s))))
  ∧ ((∀ (d : Die) (tj : Int) (s : State), recordRuns s d = true → ∃ t, exec (.rinlarSecond d tj) s = .next t ∧ t = { s with rinlar := t.rinlar, out := [] } ∧ t.rin d.other = s.rin d.other
    ∧ t.rin d = { s.rin d with live := (t.rin d).live }
    ∧ (∀ w, w = (if inPearl s d then 6 else 4) → tget 0 w (t.rin d).live + 2 ^ 32 * tget 0 (w + 1) (t.rin d).live = (tget 0 w (s.rin d).live + 2 ^ 32 * tget 0 (w + 1) (s.rin d).live + 1) % 2 ^ 64)
    ∧ (∀ b, b = 0x240 + min 32 ((tj + 40) / 5).toNat → tget 0 b (t.rin d).live = min 0xFFFFFFFF (tget 0 b (s.rin d).live + 1))
    ∧ (∀ mv b, mv = (if s.flag (AVS_CTRL d) AVS_CTRL_READBACK_EN then s.rdF (AVS_READBACK d) AVS_READBACK_VREAD_MV else s.rdF (AVS_STATUS d) AVS_STATUS_VOUT_MV) → b = 0x280 + min 29 ((mv - 600) / 10) →
      tget 0 b (t.rin d).live = min 0xFFFFFFFF (tget 0 b (s.rin d).live + 1))
    ∧ (∀ b, b = 0x2A0 + min 31 ((s.rdF (PACE_STATUS d) PACE_STATUS_PACE - 500) / 50) → tget 0 b (t.rin d).live = min 0xFFFFFFFF (tget 0 b (s.rin d).live + 1))
    ∧ tget 0 0x17 (t.rin d).live = (if s.flag (PACE_FLOOR d) PACE_FLOOR_SHORTFALL then min 0xFFFFFFFF (tget 0 0x17 (s.rin d).live + 1) else tget 0 0x17 (s.rin d).live)
    ∧ ∀ i, 8 ≤ i → i < 0x240 → i ≠ 0x17 → tget 0 i (t.rin d).live = tget 0 i (s.rin d).live)
  ∧ (∀ (f : Fun) (v : Word) (s : State),
    ((accessRow s f (addrOff (RINLAR_CTRL f.ep))).isNone = true → exec (.rinlarSnap f v) s = .next (fresh s) ∧ exec (.rinlarLatch f v) s = .next (fresh s))
    ∧ ((accessRow s f (addrOff (RINLAR_CTRL f.ep))).isSome = true → ∀ out, out = .next (ran (fun u =>
        (if RINLAR_CTRL_LATCH.get v = 1 then latchImage f.ep (RINLAR_CTRL_LIVE.get v == 1) else id)
          ((if RINLAR_CTRL_SNAP.get v = 1 then requestSnap f.ep 4 none else id) (wrF (RINLAR_CTRL f.ep) RINLAR_CTRL_LIVE (RINLAR_CTRL_LIVE.get v) u))) s) →
      exec (.rinlarSnap f v) s = out ∧ exec (.rinlarLatch f v) s = out))
  ∧ (∀ (d : Die) (live : Bool) (s : State), (latchImage d live s).flag (RINLAR_CTRL d) RINLAR_CTRL_LATCH_DONE = true
    ∧ (∀ i, i < 4096 → (latchImage d live s).rd (RINLAR_WIN d i) = BitVec.ofNat 32 (latchWord s d live i)) ∧ (latchImage d live s).rinlar = s.rinlar)
  ∧ (∀ (d : Die) (i : Nat) (s : State) (k : Nat) (img : Tab Nat), newestSlot (s.rin d) = some (k, img) →
    latchWord s d false i = tget 0 i img ∧ latchWord s d true i = tget 0 i (imageOf d 0xFF (imageSeq img) (s.rin d).live)))
end

