-- ==== Sys2Proof/Laws/State.lean ====
section
/-! SUPPORT. What each update of State leaves as it was, field by field and reader by reader, true by unfolding: no later proof
unfolds a record update. -/
namespace Sys2Proof.Machine

@[simp] theorem setBus_keeps {b : Nat} {x : AudioBus} {s : State} :
    (setBus b x s).part = s.part ∧ (setBus b x s).pending = s.pending ∧ (setBus b x s).mem = s.mem ∧ (setBus b x s).regs = s.regs ∧
    (setBus b x s).island = s.island ∧ (setBus b x s).staged = s.staged ∧ (setBus b x s).latched = s.latched ∧ (setBus b x s).readData = s.readData ∧
    (setBus b x s).timeA = s.timeA ∧ (setBus b x s).timeB = s.timeB ∧ (setBus b x s).tbases = s.tbases ∧ (setBus b x s).free = s.free ∧
    (setBus b x s).out = s.out ∧ (setBus b x s).nextTag = s.nextTag ∧ (setBus b x s).rings = s.rings ∧ (setBus b x s).fns = s.fns ∧
    (setBus b x s).owed = s.owed ∧ (setBus b x s).routes = s.routes ∧ (setBus b x s).tenants = s.tenants ∧ (setBus b x s).tlb = s.tlb ∧
    (setBus b x s).invs = s.invs ∧ (setBus b x s).poison = s.poison ∧ (setBus b x s).xings = s.xings ∧ (setBus b x s).pace = s.pace ∧
    (setBus b x s).votes = s.votes ∧ (setBus b x s).claims = s.claims ∧ (setBus b x s).garnetClaims = s.garnetClaims ∧
    (setBus b x s).outOfService = s.outOfService ∧ (setBus b x s).debug = s.debug ∧ (setBus b x s).inReset = s.inReset ∧
    (setBus b x s).porLow = s.porLow ∧ (setBus b x s).resetnHigh = s.resetnHigh ∧ (setBus b x s).split = s.split ∧ (setBus b x s).rinlar = s.rinlar ∧
    (setBus b x s).heads = s.heads ∧ (setBus b x s).ports = s.ports ∧ (setBus b x s).permits = s.permits ∧ (setBus b x s).garnets = s.garnets ∧
    (setBus b x s).camPorts = s.camPorts ∧ (setBus b x s).streams = s.streams ∧ (setBus b x s).captures = s.captures ∧
    (setBus b x s).warps = s.warps ∧ (setBus b x s).gpus = s.gpus ∧ (setBus b x s).drams = s.drams ∧ (setBus b x s).haptics = s.haptics ∧
    (setBus b x s).touches = s.touches ∧ (setBus b x s).checks = s.checks ∧ (setBus b x s).powers = s.powers ∧
    (setBus b x s).linkTests = s.linkTests ∧ (setBus b x s).ebrums = s.ebrums ∧ (setBus b x s).boots = s.boots ∧
    (∀ a_, (setBus b x s).rd a_ = s.rd a_) ∧ (∀ a_ k_, (setBus b x s).rdF a_ k_ = s.rdF a_ k_) ∧
    (∀ a_ k_, (setBus b x s).flag a_ k_ = s.flag a_ k_) ∧ (∀ a_, (setBus b x s).rd64 a_ = s.rd64 a_) ∧ (∀ d_, (setBus b x s).now d_ = s.now d_) ∧
    (∀ d_, (setBus b x s).tbase d_ = s.tbase d_) ∧ (∀ k_, (setBus b x s).freeNat k_ = s.freeNat k_) ∧
    (∀ q_, (setBus b x s).ringAux q_ = s.ringAux q_) ∧ (∀ f_, (setBus b x s).fnAux f_ = s.fnAux f_) ∧ (∀ h_, (setBus b x s).route h_ = s.route h_) ∧
    (∀ f_, (setBus b x s).tenant f_ = s.tenant f_) ∧ (∀ h_, (setBus b x s).head h_ = s.head h_) ∧ (∀ k_, (setBus b x s).port k_ = s.port k_) ∧
    (∀ d_, (setBus b x s).paceOf d_ = s.paceOf d_) ∧ (∀ d_ k_, (setBus b x s).xing d_ k_ = s.xing d_ k_) ∧ (∀ a_, (setBus b x s).isl a_ = s.isl a_) ∧
    (∀ d_, (setBus b x s).permit d_ = s.permit d_) ∧ (∀ d_, (setBus b x s).power d_ = s.power d_) ∧ (∀ d_, (setBus b x s).rin d_ = s.rin d_) ∧
    (∀ d_, (setBus b x s).boot d_ = s.boot d_) ∧ (∀ d_, (setBus b x s).garnet d_ = s.garnet d_) ∧ (∀ k_, (setBus b x s).camPort k_ = s.camPort k_) ∧
    (∀ p_ v_, (setBus b x s).stream p_ v_ = s.stream p_ v_) ∧ (∀ h_, (setBus b x s).capture h_ = s.capture h_) ∧
    (∀ d_, (setBus b x s).warp d_ = s.warp d_) ∧ (∀ d_, (setBus b x s).gpu d_ = s.gpu d_) ∧ (∀ d_, (setBus b x s).dram d_ = s.dram d_) ∧
    (∀ c_, (setBus b x s).hap c_ = s.hap c_) ∧ (∀ d_, (setBus b x s).touch d_ = s.touch d_) ∧
    (∀ d_ k_, (setBus b x s).sensor d_ k_ = s.sensor d_ k_) ∧ (∀ d_, (setBus b x s).check d_ = s.check d_) ∧
    (∀ d_, (setBus b x s).ltest d_ = s.ltest d_) ∧ (∀ d_, (setBus b x s).ebrum d_ = s.ebrum d_) :=
  ⟨rfl, rfl, rfl, rfl, rfl, rfl, rfl, rfl, rfl, rfl, rfl, rfl, rfl, rfl, rfl, rfl, rfl, rfl, rfl, rfl, rfl, rfl, rfl, rfl, rfl, rfl, rfl, rfl, rfl,
   rfl, rfl, rfl, rfl, rfl, rfl, rfl, rfl, rfl, rfl, rfl, rfl, rfl, rfl, rfl, rfl, rfl, rfl, rfl, rfl, rfl, rfl, fun _ => rfl, fun _ _ => rfl,
   fun _ _ => rfl, fun _ => rfl, fun _ => rfl, fun _ => rfl, fun _ => rfl, fun _ => rfl, fun _ => rfl, fun _ => rfl, fun _ => rfl, fun _ => rfl,
   fun _ => rfl, fun _ => rfl, fun _ _ => rfl, fun _ => rfl, fun _ => rfl, fun _ => rfl, fun _ => rfl, fun _ => rfl, fun _ => rfl, fun _ => rfl,
   fun _ _ => rfl, fun _ => rfl, fun _ => rfl, fun _ => rfl, fun _ => rfl, fun _ => rfl, fun _ => rfl, fun _ _ => rfl, fun _ => rfl, fun _ => rfl,
   fun _ => rfl⟩

@[simp] theorem setARoute_keeps {h : Nat} {x : AudioRoute} {s : State} :
    (setARoute h x s).part = s.part ∧ (setARoute h x s).pending = s.pending ∧ (setARoute h x s).mem = s.mem ∧ (setARoute h x s).regs = s.regs ∧
    (setARoute h x s).island = s.island ∧ (setARoute h x s).staged = s.staged ∧ (setARoute h x s).latched = s.latched ∧
    (setARoute h x s).readData = s.readData ∧ (setARoute h x s).timeA = s.timeA ∧ (setARoute h x s).timeB = s.timeB ∧
    (setARoute h x s).tbases = s.tbases ∧ (setARoute h x s).free = s.free ∧ (setARoute h x s).out = s.out ∧ (setARoute h x s).nextTag = s.nextTag ∧
    (setARoute h x s).rings = s.rings ∧ (setARoute h x s).fns = s.fns ∧ (setARoute h x s).owed = s.owed ∧ (setARoute h x s).routes = s.routes ∧
    (setARoute h x s).tenants = s.tenants ∧ (setARoute h x s).tlb = s.tlb ∧ (setARoute h x s).invs = s.invs ∧ (setARoute h x s).poison = s.poison ∧
    (setARoute h x s).xings = s.xings ∧ (setARoute h x s).pace = s.pace ∧ (setARoute h x s).votes = s.votes ∧ (setARoute h x s).claims = s.claims ∧
    (setARoute h x s).garnetClaims = s.garnetClaims ∧ (setARoute h x s).outOfService = s.outOfService ∧ (setARoute h x s).debug = s.debug ∧
    (setARoute h x s).inReset = s.inReset ∧ (setARoute h x s).porLow = s.porLow ∧ (setARoute h x s).resetnHigh = s.resetnHigh ∧
    (setARoute h x s).split = s.split ∧ (setARoute h x s).rinlar = s.rinlar ∧ (setARoute h x s).heads = s.heads ∧ (setARoute h x s).ports = s.ports ∧
    (setARoute h x s).permits = s.permits ∧ (setARoute h x s).garnets = s.garnets ∧ (setARoute h x s).camPorts = s.camPorts ∧
    (setARoute h x s).streams = s.streams ∧ (setARoute h x s).captures = s.captures ∧ (setARoute h x s).warps = s.warps ∧
    (setARoute h x s).gpus = s.gpus ∧ (setARoute h x s).drams = s.drams ∧ (setARoute h x s).haptics = s.haptics ∧
    (setARoute h x s).touches = s.touches ∧ (setARoute h x s).checks = s.checks ∧ (setARoute h x s).powers = s.powers ∧
    (setARoute h x s).linkTests = s.linkTests ∧ (setARoute h x s).ebrums = s.ebrums ∧ (setARoute h x s).boots = s.boots ∧
    (∀ a_, (setARoute h x s).rd a_ = s.rd a_) ∧ (∀ a_ k_, (setARoute h x s).rdF a_ k_ = s.rdF a_ k_) ∧
    (∀ a_ k_, (setARoute h x s).flag a_ k_ = s.flag a_ k_) ∧ (∀ a_, (setARoute h x s).rd64 a_ = s.rd64 a_) ∧
    (∀ d_, (setARoute h x s).now d_ = s.now d_) ∧ (∀ d_, (setARoute h x s).tbase d_ = s.tbase d_) ∧
    (∀ k_, (setARoute h x s).freeNat k_ = s.freeNat k_) ∧ (∀ q_, (setARoute h x s).ringAux q_ = s.ringAux q_) ∧
    (∀ f_, (setARoute h x s).fnAux f_ = s.fnAux f_) ∧ (∀ h_, (setARoute h x s).route h_ = s.route h_) ∧
    (∀ f_, (setARoute h x s).tenant f_ = s.tenant f_) ∧ (∀ h_, (setARoute h x s).head h_ = s.head h_) ∧
    (∀ k_, (setARoute h x s).port k_ = s.port k_) ∧ (∀ d_, (setARoute h x s).paceOf d_ = s.paceOf d_) ∧
    (∀ d_ k_, (setARoute h x s).xing d_ k_ = s.xing d_ k_) ∧ (∀ a_, (setARoute h x s).isl a_ = s.isl a_) ∧
    (∀ d_, (setARoute h x s).permit d_ = s.permit d_) ∧ (∀ d_, (setARoute h x s).power d_ = s.power d_) ∧
    (∀ d_, (setARoute h x s).rin d_ = s.rin d_) ∧ (∀ d_, (setARoute h x s).boot d_ = s.boot d_) ∧ (∀ d_, (setARoute h x s).garnet d_ = s.garnet d_) ∧
    (∀ k_, (setARoute h x s).camPort k_ = s.camPort k_) ∧ (∀ p_ v_, (setARoute h x s).stream p_ v_ = s.stream p_ v_) ∧
    (∀ h_, (setARoute h x s).capture h_ = s.capture h_) ∧ (∀ d_, (setARoute h x s).warp d_ = s.warp d_) ∧
    (∀ d_, (setARoute h x s).gpu d_ = s.gpu d_) ∧ (∀ d_, (setARoute h x s).dram d_ = s.dram d_) ∧ (∀ c_, (setARoute h x s).hap c_ = s.hap c_) ∧
    (∀ d_, (setARoute h x s).touch d_ = s.touch d_) ∧ (∀ d_ k_, (setARoute h x s).sensor d_ k_ = s.sensor d_ k_) ∧
    (∀ d_, (setARoute h x s).check d_ = s.check d_) ∧ (∀ d_, (setARoute h x s).ltest d_ = s.ltest d_) ∧
    (∀ d_, (setARoute h x s).ebrum d_ = s.ebrum d_) :=
  ⟨rfl, rfl, rfl, rfl, rfl, rfl, rfl, rfl, rfl, rfl, rfl, rfl, rfl, rfl, rfl, rfl, rfl, rfl, rfl, rfl, rfl, rfl, rfl, rfl, rfl, rfl, rfl, rfl, rfl,
   rfl, rfl, rfl, rfl, rfl, rfl, rfl, rfl, rfl, rfl, rfl, rfl, rfl, rfl, rfl, rfl, rfl, rfl, rfl, rfl, rfl, rfl, fun _ => rfl, fun _ _ => rfl,
   fun _ _ => rfl, fun _ => rfl, fun _ => rfl, fun _ => rfl, fun _ => rfl, fun _ => rfl, fun _ => rfl, fun _ => rfl, fun _ => rfl, fun _ => rfl,
   fun _ => rfl, fun _ => rfl, fun _ _ => rfl, fun _ => rfl, fun _ => rfl, fun _ => rfl, fun _ => rfl, fun _ => rfl, fun _ => rfl, fun _ => rfl,
   fun _ _ => rfl, fun _ => rfl, fun _ => rfl, fun _ => rfl, fun _ => rfl, fun _ => rfl, fun _ => rfl, fun _ _ => rfl, fun _ => rfl, fun _ => rfl,
   fun _ => rfl⟩

@[simp] theorem setCamPort_keeps {p : Nat} {x : CamPort} {s : State} :
    (setCamPort p x s).part = s.part ∧ (setCamPort p x s).pending = s.pending ∧ (setCamPort p x s).mem = s.mem ∧ (setCamPort p x s).regs = s.regs ∧
    (setCamPort p x s).island = s.island ∧ (setCamPort p x s).staged = s.staged ∧ (setCamPort p x s).latched = s.latched ∧
    (setCamPort p x s).readData = s.readData ∧ (setCamPort p x s).timeA = s.timeA ∧ (setCamPort p x s).timeB = s.timeB ∧
    (setCamPort p x s).tbases = s.tbases ∧ (setCamPort p x s).free = s.free ∧ (setCamPort p x s).out = s.out ∧
    (setCamPort p x s).nextTag = s.nextTag ∧ (setCamPort p x s).rings = s.rings ∧ (setCamPort p x s).fns = s.fns ∧ (setCamPort p x s).owed = s.owed ∧
    (setCamPort p x s).routes = s.routes ∧ (setCamPort p x s).tenants = s.tenants ∧ (setCamPort p x s).tlb = s.tlb ∧
    (setCamPort p x s).invs = s.invs ∧ (setCamPort p x s).poison = s.poison ∧ (setCamPort p x s).xings = s.xings ∧ (setCamPort p x s).pace = s.pace ∧
    (setCamPort p x s).votes = s.votes ∧ (setCamPort p x s).claims = s.claims ∧ (setCamPort p x s).garnetClaims = s.garnetClaims ∧
    (setCamPort p x s).outOfService = s.outOfService ∧ (setCamPort p x s).debug = s.debug ∧ (setCamPort p x s).inReset = s.inReset ∧
    (setCamPort p x s).porLow = s.porLow ∧ (setCamPort p x s).resetnHigh = s.resetnHigh ∧ (setCamPort p x s).split = s.split ∧
    (setCamPort p x s).rinlar = s.rinlar ∧ (setCamPort p x s).heads = s.heads ∧ (setCamPort p x s).ports = s.ports ∧
    (setCamPort p x s).permits = s.permits ∧ (setCamPort p x s).garnets = s.garnets ∧ (setCamPort p x s).streams = s.streams ∧
    (setCamPort p x s).captures = s.captures ∧ (setCamPort p x s).warps = s.warps ∧ (setCamPort p x s).gpus = s.gpus ∧
    (setCamPort p x s).drams = s.drams ∧ (setCamPort p x s).audio = s.audio ∧ (setCamPort p x s).haptics = s.haptics ∧
    (setCamPort p x s).touches = s.touches ∧ (setCamPort p x s).checks = s.checks ∧ (setCamPort p x s).powers = s.powers ∧
    (setCamPort p x s).linkTests = s.linkTests ∧ (setCamPort p x s).ebrums = s.ebrums ∧ (setCamPort p x s).boots = s.boots ∧
    (∀ a_, (setCamPort p x s).rd a_ = s.rd a_) ∧ (∀ a_ k_, (setCamPort p x s).rdF a_ k_ = s.rdF a_ k_) ∧
    (∀ a_ k_, (setCamPort p x s).flag a_ k_ = s.flag a_ k_) ∧ (∀ a_, (setCamPort p x s).rd64 a_ = s.rd64 a_) ∧
    (∀ d_, (setCamPort p x s).now d_ = s.now d_) ∧ (∀ d_, (setCamPort p x s).tbase d_ = s.tbase d_) ∧
    (∀ k_, (setCamPort p x s).freeNat k_ = s.freeNat k_) ∧ (∀ q_, (setCamPort p x s).ringAux q_ = s.ringAux q_) ∧
    (∀ f_, (setCamPort p x s).fnAux f_ = s.fnAux f_) ∧ (∀ h_, (setCamPort p x s).route h_ = s.route h_) ∧
    (∀ f_, (setCamPort p x s).tenant f_ = s.tenant f_) ∧ (∀ h_, (setCamPort p x s).head h_ = s.head h_) ∧
    (∀ k_, (setCamPort p x s).port k_ = s.port k_) ∧ (∀ d_, (setCamPort p x s).paceOf d_ = s.paceOf d_) ∧
    (∀ d_ k_, (setCamPort p x s).xing d_ k_ = s.xing d_ k_) ∧ (∀ a_, (setCamPort p x s).isl a_ = s.isl a_) ∧
    (∀ d_, (setCamPort p x s).permit d_ = s.permit d_) ∧ (∀ d_, (setCamPort p x s).power d_ = s.power d_) ∧
    (∀ d_, (setCamPort p x s).rin d_ = s.rin d_) ∧ (∀ d_, (setCamPort p x s).boot d_ = s.boot d_) ∧
    (∀ d_, (setCamPort p x s).garnet d_ = s.garnet d_) ∧ (∀ p_ v_, (setCamPort p x s).stream p_ v_ = s.stream p_ v_) ∧
    (∀ h_, (setCamPort p x s).capture h_ = s.capture h_) ∧ (∀ d_, (setCamPort p x s).warp d_ = s.warp d_) ∧
    (∀ d_, (setCamPort p x s).gpu d_ = s.gpu d_) ∧ (∀ d_, (setCamPort p x s).dram d_ = s.dram d_) ∧
    (∀ h_, (setCamPort p x s).aroute h_ = s.aroute h_) ∧ (∀ b_, (setCamPort p x s).bus b_ = s.bus b_) ∧
    (∀ c_, (setCamPort p x s).hap c_ = s.hap c_) ∧ (∀ d_, (setCamPort p x s).touch d_ = s.touch d_) ∧
    (∀ d_ k_, (setCamPort p x s).sensor d_ k_ = s.sensor d_ k_) ∧ (∀ d_, (setCamPort p x s).check d_ = s.check d_) ∧
    (∀ d_, (setCamPort p x s).ltest d_ = s.ltest d_) ∧ (∀ d_, (setCamPort p x s).ebrum d_ = s.ebrum d_) :=
  ⟨rfl, rfl, rfl, rfl, rfl, rfl, rfl, rfl, rfl, rfl, rfl, rfl, rfl, rfl, rfl, rfl, rfl, rfl, rfl, rfl, rfl, rfl, rfl, rfl, rfl, rfl, rfl, rfl, rfl,
   rfl, rfl, rfl, rfl, rfl, rfl, rfl, rfl, rfl, rfl, rfl, rfl, rfl, rfl, rfl, rfl, rfl, rfl, rfl, rfl, rfl, rfl, fun _ => rfl, fun _ _ => rfl,
   fun _ _ => rfl, fun _ => rfl, fun _ => rfl, fun _ => rfl, fun _ => rfl, fun _ => rfl, fun _ => rfl, fun _ => rfl, fun _ => rfl, fun _ => rfl,
   fun _ => rfl, fun _ => rfl, fun _ _ => rfl, fun _ => rfl, fun _ => rfl, fun _ => rfl, fun _ => rfl, fun _ => rfl, fun _ => rfl, fun _ _ => rfl,
   fun _ => rfl, fun _ => rfl, fun _ => rfl, fun _ => rfl, fun _ => rfl, fun _ => rfl, fun _ => rfl, fun _ => rfl, fun _ _ => rfl, fun _ => rfl,
   fun _ => rfl, fun _ => rfl⟩

@[simp] theorem setStream_keeps {p v : Nat} {x : Stream} {s : State} :
    (setStream p v x s).part = s.part ∧ (setStream p v x s).pending = s.pending ∧ (setStream p v x s).mem = s.mem ∧
    (setStream p v x s).regs = s.regs ∧ (setStream p v x s).island = s.island ∧ (setStream p v x s).staged = s.staged ∧
    (setStream p v x s).latched = s.latched ∧ (setStream p v x s).readData = s.readData ∧ (setStream p v x s).timeA = s.timeA ∧
    (setStream p v x s).timeB = s.timeB ∧ (setStream p v x s).tbases = s.tbases ∧ (setStream p v x s).free = s.free ∧
    (setStream p v x s).out = s.out ∧ (setStream p v x s).nextTag = s.nextTag ∧ (setStream p v x s).rings = s.rings ∧
    (setStream p v x s).fns = s.fns ∧ (setStream p v x s).owed = s.owed ∧ (setStream p v x s).routes = s.routes ∧
    (setStream p v x s).tenants = s.tenants ∧ (setStream p v x s).tlb = s.tlb ∧ (setStream p v x s).invs = s.invs ∧
    (setStream p v x s).poison = s.poison ∧ (setStream p v x s).xings = s.xings ∧ (setStream p v x s).pace = s.pace ∧
    (setStream p v x s).votes = s.votes ∧ (setStream p v x s).claims = s.claims ∧ (setStream p v x s).garnetClaims = s.garnetClaims ∧
    (setStream p v x s).outOfService = s.outOfService ∧ (setStream p v x s).debug = s.debug ∧ (setStream p v x s).inReset = s.inReset ∧
    (setStream p v x s).porLow = s.porLow ∧ (setStream p v x s).resetnHigh = s.resetnHigh ∧ (setStream p v x s).split = s.split ∧
    (setStream p v x s).rinlar = s.rinlar ∧ (setStream p v x s).heads = s.heads ∧ (setStream p v x s).ports = s.ports ∧
    (setStream p v x s).permits = s.permits ∧ (setStream p v x s).garnets = s.garnets ∧ (setStream p v x s).camPorts = s.camPorts ∧
    (setStream p v x s).captures = s.captures ∧ (setStream p v x s).warps = s.warps ∧ (setStream p v x s).gpus = s.gpus ∧
    (setStream p v x s).drams = s.drams ∧ (setStream p v x s).audio = s.audio ∧ (setStream p v x s).haptics = s.haptics ∧
    (setStream p v x s).touches = s.touches ∧ (setStream p v x s).checks = s.checks ∧ (setStream p v x s).powers = s.powers ∧
    (setStream p v x s).linkTests = s.linkTests ∧ (setStream p v x s).ebrums = s.ebrums ∧ (setStream p v x s).boots = s.boots ∧
    (∀ a_, (setStream p v x s).rd a_ = s.rd a_) ∧ (∀ a_ k_, (setStream p v x s).rdF a_ k_ = s.rdF a_ k_) ∧
    (∀ a_ k_, (setStream p v x s).flag a_ k_ = s.flag a_ k_) ∧ (∀ a_, (setStream p v x s).rd64 a_ = s.rd64 a_) ∧
    (∀ d_, (setStream p v x s).now d_ = s.now d_) ∧ (∀ d_, (setStream p v x s).tbase d_ = s.tbase d_) ∧
    (∀ k_, (setStream p v x s).freeNat k_ = s.freeNat k_) ∧ (∀ q_, (setStream p v x s).ringAux q_ = s.ringAux q_) ∧
    (∀ f_, (setStream p v x s).fnAux f_ = s.fnAux f_) ∧ (∀ h_, (setStream p v x s).route h_ = s.route h_) ∧
    (∀ f_, (setStream p v x s).tenant f_ = s.tenant f_) ∧ (∀ h_, (setStream p v x s).head h_ = s.head h_) ∧
    (∀ k_, (setStream p v x s).port k_ = s.port k_) ∧ (∀ d_, (setStream p v x s).paceOf d_ = s.paceOf d_) ∧
    (∀ d_ k_, (setStream p v x s).xing d_ k_ = s.xing d_ k_) ∧ (∀ a_, (setStream p v x s).isl a_ = s.isl a_) ∧
    (∀ d_, (setStream p v x s).permit d_ = s.permit d_) ∧ (∀ d_, (setStream p v x s).power d_ = s.power d_) ∧
    (∀ d_, (setStream p v x s).rin d_ = s.rin d_) ∧ (∀ d_, (setStream p v x s).boot d_ = s.boot d_) ∧
    (∀ d_, (setStream p v x s).garnet d_ = s.garnet d_) ∧ (∀ k_, (setStream p v x s).camPort k_ = s.camPort k_) ∧
    (∀ h_, (setStream p v x s).capture h_ = s.capture h_) ∧ (∀ d_, (setStream p v x s).warp d_ = s.warp d_) ∧
    (∀ d_, (setStream p v x s).gpu d_ = s.gpu d_) ∧ (∀ d_, (setStream p v x s).dram d_ = s.dram d_) ∧
    (∀ h_, (setStream p v x s).aroute h_ = s.aroute h_) ∧ (∀ b_, (setStream p v x s).bus b_ = s.bus b_) ∧
    (∀ c_, (setStream p v x s).hap c_ = s.hap c_) ∧ (∀ d_, (setStream p v x s).touch d_ = s.touch d_) ∧
    (∀ d_ k_, (setStream p v x s).sensor d_ k_ = s.sensor d_ k_) ∧ (∀ d_, (setStream p v x s).check d_ = s.check d_) ∧
    (∀ d_, (setStream p v x s).ltest d_ = s.ltest d_) ∧ (∀ d_, (setStream p v x s).ebrum d_ = s.ebrum d_) :=
  ⟨rfl, rfl, rfl, rfl, rfl, rfl, rfl, rfl, rfl, rfl, rfl, rfl, rfl, rfl, rfl, rfl, rfl, rfl, rfl, rfl, rfl, rfl, rfl, rfl, rfl, rfl, rfl, rfl, rfl,
   rfl, rfl, rfl, rfl, rfl, rfl, rfl, rfl, rfl, rfl, rfl, rfl, rfl, rfl, rfl, rfl, rfl, rfl, rfl, rfl, rfl, rfl, fun _ => rfl, fun _ _ => rfl,
   fun _ _ => rfl, fun _ => rfl, fun _ => rfl, fun _ => rfl, fun _ => rfl, fun _ => rfl, fun _ => rfl, fun _ => rfl, fun _ => rfl, fun _ => rfl,
   fun _ => rfl, fun _ => rfl, fun _ _ => rfl, fun _ => rfl, fun _ => rfl, fun _ => rfl, fun _ => rfl, fun _ => rfl, fun _ => rfl, fun _ => rfl,
   fun _ => rfl, fun _ => rfl, fun _ => rfl, fun _ => rfl, fun _ => rfl, fun _ => rfl, fun _ => rfl, fun _ => rfl, fun _ _ => rfl, fun _ => rfl,
   fun _ => rfl, fun _ => rfl⟩

@[simp] theorem setCapture_keeps {h : Nat} {x : Capture} {s : State} :
    (setCapture h x s).part = s.part ∧ (setCapture h x s).pending = s.pending ∧ (setCapture h x s).mem = s.mem ∧ (setCapture h x s).regs = s.regs ∧
    (setCapture h x s).island = s.island ∧ (setCapture h x s).staged = s.staged ∧ (setCapture h x s).latched = s.latched ∧
    (setCapture h x s).readData = s.readData ∧ (setCapture h x s).timeA = s.timeA ∧ (setCapture h x s).timeB = s.timeB ∧
    (setCapture h x s).tbases = s.tbases ∧ (setCapture h x s).free = s.free ∧ (setCapture h x s).out = s.out ∧
    (setCapture h x s).nextTag = s.nextTag ∧ (setCapture h x s).rings = s.rings ∧ (setCapture h x s).fns = s.fns ∧ (setCapture h x s).owed = s.owed ∧
    (setCapture h x s).routes = s.routes ∧ (setCapture h x s).tenants = s.tenants ∧ (setCapture h x s).tlb = s.tlb ∧
    (setCapture h x s).invs = s.invs ∧ (setCapture h x s).poison = s.poison ∧ (setCapture h x s).xings = s.xings ∧ (setCapture h x s).pace = s.pace ∧
    (setCapture h x s).votes = s.votes ∧ (setCapture h x s).claims = s.claims ∧ (setCapture h x s).garnetClaims = s.garnetClaims ∧
    (setCapture h x s).outOfService = s.outOfService ∧ (setCapture h x s).debug = s.debug ∧ (setCapture h x s).inReset = s.inReset ∧
    (setCapture h x s).porLow = s.porLow ∧ (setCapture h x s).resetnHigh = s.resetnHigh ∧ (setCapture h x s).split = s.split ∧
    (setCapture h x s).rinlar = s.rinlar ∧ (setCapture h x s).heads = s.heads ∧ (setCapture h x s).ports = s.ports ∧
    (setCapture h x s).permits = s.permits ∧ (setCapture h x s).garnets = s.garnets ∧ (setCapture h x s).camPorts = s.camPorts ∧
    (setCapture h x s).streams = s.streams ∧ (setCapture h x s).warps = s.warps ∧ (setCapture h x s).gpus = s.gpus ∧
    (setCapture h x s).drams = s.drams ∧ (setCapture h x s).audio = s.audio ∧ (setCapture h x s).haptics = s.haptics ∧
    (setCapture h x s).touches = s.touches ∧ (setCapture h x s).checks = s.checks ∧ (setCapture h x s).powers = s.powers ∧
    (setCapture h x s).linkTests = s.linkTests ∧ (setCapture h x s).ebrums = s.ebrums ∧ (setCapture h x s).boots = s.boots ∧
    (∀ a_, (setCapture h x s).rd a_ = s.rd a_) ∧ (∀ a_ k_, (setCapture h x s).rdF a_ k_ = s.rdF a_ k_) ∧
    (∀ a_ k_, (setCapture h x s).flag a_ k_ = s.flag a_ k_) ∧ (∀ a_, (setCapture h x s).rd64 a_ = s.rd64 a_) ∧
    (∀ d_, (setCapture h x s).now d_ = s.now d_) ∧ (∀ d_, (setCapture h x s).tbase d_ = s.tbase d_) ∧
    (∀ k_, (setCapture h x s).freeNat k_ = s.freeNat k_) ∧ (∀ q_, (setCapture h x s).ringAux q_ = s.ringAux q_) ∧
    (∀ f_, (setCapture h x s).fnAux f_ = s.fnAux f_) ∧ (∀ h_, (setCapture h x s).route h_ = s.route h_) ∧
    (∀ f_, (setCapture h x s).tenant f_ = s.tenant f_) ∧ (∀ h_, (setCapture h x s).head h_ = s.head h_) ∧
    (∀ k_, (setCapture h x s).port k_ = s.port k_) ∧ (∀ d_, (setCapture h x s).paceOf d_ = s.paceOf d_) ∧
    (∀ d_ k_, (setCapture h x s).xing d_ k_ = s.xing d_ k_) ∧ (∀ a_, (setCapture h x s).isl a_ = s.isl a_) ∧
    (∀ d_, (setCapture h x s).permit d_ = s.permit d_) ∧ (∀ d_, (setCapture h x s).power d_ = s.power d_) ∧
    (∀ d_, (setCapture h x s).rin d_ = s.rin d_) ∧ (∀ d_, (setCapture h x s).boot d_ = s.boot d_) ∧
    (∀ d_, (setCapture h x s).garnet d_ = s.garnet d_) ∧ (∀ k_, (setCapture h x s).camPort k_ = s.camPort k_) ∧
    (∀ p_ v_, (setCapture h x s).stream p_ v_ = s.stream p_ v_) ∧ (∀ d_, (setCapture h x s).warp d_ = s.warp d_) ∧
    (∀ d_, (setCapture h x s).gpu d_ = s.gpu d_) ∧ (∀ d_, (setCapture h x s).dram d_ = s.dram d_) ∧
    (∀ h_, (setCapture h x s).aroute h_ = s.aroute h_) ∧ (∀ b_, (setCapture h x s).bus b_ = s.bus b_) ∧
    (∀ c_, (setCapture h x s).hap c_ = s.hap c_) ∧ (∀ d_, (setCapture h x s).touch d_ = s.touch d_) ∧
    (∀ d_ k_, (setCapture h x s).sensor d_ k_ = s.sensor d_ k_) ∧ (∀ d_, (setCapture h x s).check d_ = s.check d_) ∧
    (∀ d_, (setCapture h x s).ltest d_ = s.ltest d_) ∧ (∀ d_, (setCapture h x s).ebrum d_ = s.ebrum d_) :=
  ⟨rfl, rfl, rfl, rfl, rfl, rfl, rfl, rfl, rfl, rfl, rfl, rfl, rfl, rfl, rfl, rfl, rfl, rfl, rfl, rfl, rfl, rfl, rfl, rfl, rfl, rfl, rfl, rfl, rfl,
   rfl, rfl, rfl, rfl, rfl, rfl, rfl, rfl, rfl, rfl, rfl, rfl, rfl, rfl, rfl, rfl, rfl, rfl, rfl, rfl, rfl, rfl, fun _ => rfl, fun _ _ => rfl,
   fun _ _ => rfl, fun _ => rfl, fun _ => rfl, fun _ => rfl, fun _ => rfl, fun _ => rfl, fun _ => rfl, fun _ => rfl, fun _ => rfl, fun _ => rfl,
   fun _ => rfl, fun _ => rfl, fun _ _ => rfl, fun _ => rfl, fun _ => rfl, fun _ => rfl, fun _ => rfl, fun _ => rfl, fun _ => rfl, fun _ => rfl,
   fun _ _ => rfl, fun _ => rfl, fun _ => rfl, fun _ => rfl, fun _ => rfl, fun _ => rfl, fun _ => rfl, fun _ => rfl, fun _ _ => rfl, fun _ => rfl,
   fun _ => rfl, fun _ => rfl⟩

@[simp] theorem setWarp_keeps {d : Die} {x : Warp} {s : State} :
    (setWarp d x s).part = s.part ∧ (setWarp d x s).pending = s.pending ∧ (setWarp d x s).mem = s.mem ∧ (setWarp d x s).regs = s.regs ∧
    (setWarp d x s).island = s.island ∧ (setWarp d x s).staged = s.staged ∧ (setWarp d x s).latched = s.latched ∧
    (setWarp d x s).readData = s.readData ∧ (setWarp d x s).timeA = s.timeA ∧ (setWarp d x s).timeB = s.timeB ∧ (setWarp d x s).tbases = s.tbases ∧
    (setWarp d x s).free = s.free ∧ (setWarp d x s).out = s.out ∧ (setWarp d x s).nextTag = s.nextTag ∧ (setWarp d x s).rings = s.rings ∧
    (setWarp d x s).fns = s.fns ∧ (setWarp d x s).owed = s.owed ∧ (setWarp d x s).routes = s.routes ∧ (setWarp d x s).tenants = s.tenants ∧
    (setWarp d x s).tlb = s.tlb ∧ (setWarp d x s).invs = s.invs ∧ (setWarp d x s).poison = s.poison ∧ (setWarp d x s).xings = s.xings ∧
    (setWarp d x s).pace = s.pace ∧ (setWarp d x s).votes = s.votes ∧ (setWarp d x s).claims = s.claims ∧
    (setWarp d x s).garnetClaims = s.garnetClaims ∧ (setWarp d x s).outOfService = s.outOfService ∧ (setWarp d x s).debug = s.debug ∧
    (setWarp d x s).inReset = s.inReset ∧ (setWarp d x s).porLow = s.porLow ∧ (setWarp d x s).resetnHigh = s.resetnHigh ∧
    (setWarp d x s).split = s.split ∧ (setWarp d x s).rinlar = s.rinlar ∧ (setWarp d x s).heads = s.heads ∧ (setWarp d x s).ports = s.ports ∧
    (setWarp d x s).permits = s.permits ∧ (setWarp d x s).garnets = s.garnets ∧ (setWarp d x s).camPorts = s.camPorts ∧
    (setWarp d x s).streams = s.streams ∧ (setWarp d x s).captures = s.captures ∧ (setWarp d x s).gpus = s.gpus ∧ (setWarp d x s).drams = s.drams ∧
    (setWarp d x s).audio = s.audio ∧ (setWarp d x s).haptics = s.haptics ∧ (setWarp d x s).touches = s.touches ∧ (setWarp d x s).checks = s.checks ∧
    (setWarp d x s).powers = s.powers ∧ (setWarp d x s).linkTests = s.linkTests ∧ (setWarp d x s).ebrums = s.ebrums ∧
    (setWarp d x s).boots = s.boots ∧ (∀ a_, (setWarp d x s).rd a_ = s.rd a_) ∧ (∀ a_ k_, (setWarp d x s).rdF a_ k_ = s.rdF a_ k_) ∧
    (∀ a_ k_, (setWarp d x s).flag a_ k_ = s.flag a_ k_) ∧ (∀ a_, (setWarp d x s).rd64 a_ = s.rd64 a_) ∧ (∀ d_, (setWarp d x s).now d_ = s.now d_) ∧
    (∀ d_, (setWarp d x s).tbase d_ = s.tbase d_) ∧ (∀ k_, (setWarp d x s).freeNat k_ = s.freeNat k_) ∧
    (∀ q_, (setWarp d x s).ringAux q_ = s.ringAux q_) ∧ (∀ f_, (setWarp d x s).fnAux f_ = s.fnAux f_) ∧
    (∀ h_, (setWarp d x s).route h_ = s.route h_) ∧ (∀ f_, (setWarp d x s).tenant f_ = s.tenant f_) ∧ (∀ h_, (setWarp d x s).head h_ = s.head h_) ∧
    (∀ k_, (setWarp d x s).port k_ = s.port k_) ∧ (∀ d_, (setWarp d x s).paceOf d_ = s.paceOf d_) ∧
    (∀ d_ k_, (setWarp d x s).xing d_ k_ = s.xing d_ k_) ∧ (∀ a_, (setWarp d x s).isl a_ = s.isl a_) ∧
    (∀ d_, (setWarp d x s).permit d_ = s.permit d_) ∧ (∀ d_, (setWarp d x s).power d_ = s.power d_) ∧ (∀ d_, (setWarp d x s).rin d_ = s.rin d_) ∧
    (∀ d_, (setWarp d x s).boot d_ = s.boot d_) ∧ (∀ d_, (setWarp d x s).garnet d_ = s.garnet d_) ∧
    (∀ k_, (setWarp d x s).camPort k_ = s.camPort k_) ∧ (∀ p_ v_, (setWarp d x s).stream p_ v_ = s.stream p_ v_) ∧
    (∀ h_, (setWarp d x s).capture h_ = s.capture h_) ∧ (∀ d_, (setWarp d x s).gpu d_ = s.gpu d_) ∧ (∀ d_, (setWarp d x s).dram d_ = s.dram d_) ∧
    (∀ h_, (setWarp d x s).aroute h_ = s.aroute h_) ∧ (∀ b_, (setWarp d x s).bus b_ = s.bus b_) ∧ (∀ c_, (setWarp d x s).hap c_ = s.hap c_) ∧
    (∀ d_, (setWarp d x s).touch d_ = s.touch d_) ∧ (∀ d_ k_, (setWarp d x s).sensor d_ k_ = s.sensor d_ k_) ∧
    (∀ d_, (setWarp d x s).check d_ = s.check d_) ∧ (∀ d_, (setWarp d x s).ltest d_ = s.ltest d_) ∧ (∀ d_, (setWarp d x s).ebrum d_ = s.ebrum d_) :=
  ⟨rfl, rfl, rfl, rfl, rfl, rfl, rfl, rfl, rfl, rfl, rfl, rfl, rfl, rfl, rfl, rfl, rfl, rfl, rfl, rfl, rfl, rfl, rfl, rfl, rfl, rfl, rfl, rfl, rfl,
   rfl, rfl, rfl, rfl, rfl, rfl, rfl, rfl, rfl, rfl, rfl, rfl, rfl, rfl, rfl, rfl, rfl, rfl, rfl, rfl, rfl, rfl, fun _ => rfl, fun _ _ => rfl,
   fun _ _ => rfl, fun _ => rfl, fun _ => rfl, fun _ => rfl, fun _ => rfl, fun _ => rfl, fun _ => rfl, fun _ => rfl, fun _ => rfl, fun _ => rfl,
   fun _ => rfl, fun _ => rfl, fun _ _ => rfl, fun _ => rfl, fun _ => rfl, fun _ => rfl, fun _ => rfl, fun _ => rfl, fun _ => rfl, fun _ => rfl,
   fun _ _ => rfl, fun _ => rfl, fun _ => rfl, fun _ => rfl, fun _ => rfl, fun _ => rfl, fun _ => rfl, fun _ => rfl, fun _ _ => rfl, fun _ => rfl,
   fun _ => rfl, fun _ => rfl⟩

@[simp] theorem setCheck_keeps {d : Die} {x : Checks} {s : State} :
    (setCheck d x s).part = s.part ∧ (setCheck d x s).pending = s.pending ∧ (setCheck d x s).mem = s.mem ∧ (setCheck d x s).regs = s.regs ∧
    (setCheck d x s).island = s.island ∧ (setCheck d x s).staged = s.staged ∧ (setCheck d x s).latched = s.latched ∧
    (setCheck d x s).readData = s.readData ∧ (setCheck d x s).timeA = s.timeA ∧ (setCheck d x s).timeB = s.timeB ∧
    (setCheck d x s).tbases = s.tbases ∧ (setCheck d x s).free = s.free ∧ (setCheck d x s).out = s.out ∧ (setCheck d x s).nextTag = s.nextTag ∧
    (setCheck d x s).rings = s.rings ∧ (setCheck d x s).fns = s.fns ∧ (setCheck d x s).owed = s.owed ∧ (setCheck d x s).routes = s.routes ∧
    (setCheck d x s).tenants = s.tenants ∧ (setCheck d x s).tlb = s.tlb ∧ (setCheck d x s).invs = s.invs ∧ (setCheck d x s).poison = s.poison ∧
    (setCheck d x s).xings = s.xings ∧ (setCheck d x s).pace = s.pace ∧ (setCheck d x s).votes = s.votes ∧ (setCheck d x s).claims = s.claims ∧
    (setCheck d x s).garnetClaims = s.garnetClaims ∧ (setCheck d x s).outOfService = s.outOfService ∧ (setCheck d x s).debug = s.debug ∧
    (setCheck d x s).inReset = s.inReset ∧ (setCheck d x s).porLow = s.porLow ∧ (setCheck d x s).resetnHigh = s.resetnHigh ∧
    (setCheck d x s).split = s.split ∧ (setCheck d x s).rinlar = s.rinlar ∧ (setCheck d x s).heads = s.heads ∧ (setCheck d x s).ports = s.ports ∧
    (setCheck d x s).permits = s.permits ∧ (setCheck d x s).garnets = s.garnets ∧ (setCheck d x s).camPorts = s.camPorts ∧
    (setCheck d x s).streams = s.streams ∧ (setCheck d x s).captures = s.captures ∧ (setCheck d x s).warps = s.warps ∧
    (setCheck d x s).gpus = s.gpus ∧ (setCheck d x s).drams = s.drams ∧ (setCheck d x s).audio = s.audio ∧ (setCheck d x s).haptics = s.haptics ∧
    (setCheck d x s).touches = s.touches ∧ (setCheck d x s).powers = s.powers ∧ (setCheck d x s).linkTests = s.linkTests ∧
    (setCheck d x s).ebrums = s.ebrums ∧ (setCheck d x s).boots = s.boots ∧ (∀ a_, (setCheck d x s).rd a_ = s.rd a_) ∧
    (∀ a_ k_, (setCheck d x s).rdF a_ k_ = s.rdF a_ k_) ∧ (∀ a_ k_, (setCheck d x s).flag a_ k_ = s.flag a_ k_) ∧
    (∀ a_, (setCheck d x s).rd64 a_ = s.rd64 a_) ∧ (∀ d_, (setCheck d x s).now d_ = s.now d_) ∧ (∀ d_, (setCheck d x s).tbase d_ = s.tbase d_) ∧
    (∀ k_, (setCheck d x s).freeNat k_ = s.freeNat k_) ∧ (∀ q_, (setCheck d x s).ringAux q_ = s.ringAux q_) ∧
    (∀ f_, (setCheck d x s).fnAux f_ = s.fnAux f_) ∧ (∀ h_, (setCheck d x s).route h_ = s.route h_) ∧
    (∀ f_, (setCheck d x s).tenant f_ = s.tenant f_) ∧ (∀ h_, (setCheck d x s).head h_ = s.head h_) ∧ (∀ k_, (setCheck d x s).port k_ = s.port k_) ∧
    (∀ d_, (setCheck d x s).paceOf d_ = s.paceOf d_) ∧ (∀ d_ k_, (setCheck d x s).xing d_ k_ = s.xing d_ k_) ∧
    (∀ a_, (setCheck d x s).isl a_ = s.isl a_) ∧ (∀ d_, (setCheck d x s).permit d_ = s.permit d_) ∧ (∀ d_, (setCheck d x s).power d_ = s.power d_) ∧
    (∀ d_, (setCheck d x s).rin d_ = s.rin d_) ∧ (∀ d_, (setCheck d x s).boot d_ = s.boot d_) ∧ (∀ d_, (setCheck d x s).garnet d_ = s.garnet d_) ∧
    (∀ k_, (setCheck d x s).camPort k_ = s.camPort k_) ∧ (∀ p_ v_, (setCheck d x s).stream p_ v_ = s.stream p_ v_) ∧
    (∀ h_, (setCheck d x s).capture h_ = s.capture h_) ∧ (∀ d_, (setCheck d x s).warp d_ = s.warp d_) ∧ (∀ d_, (setCheck d x s).gpu d_ = s.gpu d_) ∧
    (∀ d_, (setCheck d x s).dram d_ = s.dram d_) ∧ (∀ h_, (setCheck d x s).aroute h_ = s.aroute h_) ∧ (∀ b_, (setCheck d x s).bus b_ = s.bus b_) ∧
    (∀ c_, (setCheck d x s).hap c_ = s.hap c_) ∧ (∀ d_, (setCheck d x s).touch d_ = s.touch d_) ∧
    (∀ d_ k_, (setCheck d x s).sensor d_ k_ = s.sensor d_ k_) ∧ (∀ d_, (setCheck d x s).ltest d_ = s.ltest d_) ∧
    (∀ d_, (setCheck d x s).ebrum d_ = s.ebrum d_) :=
  ⟨rfl, rfl, rfl, rfl, rfl, rfl, rfl, rfl, rfl, rfl, rfl, rfl, rfl, rfl, rfl, rfl, rfl, rfl, rfl, rfl, rfl, rfl, rfl, rfl, rfl, rfl, rfl, rfl, rfl,
   rfl, rfl, rfl, rfl, rfl, rfl, rfl, rfl, rfl, rfl, rfl, rfl, rfl, rfl, rfl, rfl, rfl, rfl, rfl, rfl, rfl, rfl, fun _ => rfl, fun _ _ => rfl,
   fun _ _ => rfl, fun _ => rfl, fun _ => rfl, fun _ => rfl, fun _ => rfl, fun _ => rfl, fun _ => rfl, fun _ => rfl, fun _ => rfl, fun _ => rfl,
   fun _ => rfl, fun _ => rfl, fun _ _ => rfl, fun _ => rfl, fun _ => rfl, fun _ => rfl, fun _ => rfl, fun _ => rfl, fun _ => rfl, fun _ => rfl,
   fun _ _ => rfl, fun _ => rfl, fun _ => rfl, fun _ => rfl, fun _ => rfl, fun _ => rfl, fun _ => rfl, fun _ => rfl, fun _ => rfl, fun _ _ => rfl,
   fun _ => rfl, fun _ => rfl⟩

@[simp] theorem wr_keeps {a : Nat} {v : Word} {s : State} :
    (wr a v s).part = s.part ∧ (wr a v s).pending = s.pending ∧ (wr a v s).mem = s.mem ∧ (wr a v s).island = s.island ∧
    (wr a v s).staged = s.staged ∧ (wr a v s).latched = s.latched ∧ (wr a v s).readData = s.readData ∧ (wr a v s).timeA = s.timeA ∧
    (wr a v s).timeB = s.timeB ∧ (wr a v s).tbases = s.tbases ∧ (wr a v s).free = s.free ∧ (wr a v s).out = s.out ∧ (wr a v s).nextTag = s.nextTag ∧
    (wr a v s).rings = s.rings ∧ (wr a v s).fns = s.fns ∧ (wr a v s).owed = s.owed ∧ (wr a v s).routes = s.routes ∧ (wr a v s).tenants = s.tenants ∧
    (wr a v s).tlb = s.tlb ∧ (wr a v s).invs = s.invs ∧ (wr a v s).poison = s.poison ∧ (wr a v s).xings = s.xings ∧ (wr a v s).pace = s.pace ∧
    (wr a v s).votes = s.votes ∧ (wr a v s).claims = s.claims ∧ (wr a v s).garnetClaims = s.garnetClaims ∧ (wr a v s).outOfService = s.outOfService ∧
    (wr a v s).debug = s.debug ∧ (wr a v s).inReset = s.inReset ∧ (wr a v s).porLow = s.porLow ∧ (wr a v s).resetnHigh = s.resetnHigh ∧
    (wr a v s).split = s.split ∧ (wr a v s).rinlar = s.rinlar ∧ (wr a v s).heads = s.heads ∧ (wr a v s).ports = s.ports ∧
    (wr a v s).permits = s.permits ∧ (wr a v s).garnets = s.garnets ∧ (wr a v s).camPorts = s.camPorts ∧ (wr a v s).streams = s.streams ∧
    (wr a v s).captures = s.captures ∧ (wr a v s).warps = s.warps ∧ (wr a v s).gpus = s.gpus ∧ (wr a v s).drams = s.drams ∧
    (wr a v s).audio = s.audio ∧ (wr a v s).haptics = s.haptics ∧ (wr a v s).touches = s.touches ∧ (wr a v s).checks = s.checks ∧
    (wr a v s).powers = s.powers ∧ (wr a v s).linkTests = s.linkTests ∧ (wr a v s).ebrums = s.ebrums ∧ (wr a v s).boots = s.boots ∧
    (∀ d_, (wr a v s).now d_ = s.now d_) ∧ (∀ d_, (wr a v s).tbase d_ = s.tbase d_) ∧ (∀ k_, (wr a v s).freeNat k_ = s.freeNat k_) ∧
    (∀ q_, (wr a v s).ringAux q_ = s.ringAux q_) ∧ (∀ f_, (wr a v s).fnAux f_ = s.fnAux f_) ∧ (∀ h_, (wr a v s).route h_ = s.route h_) ∧
    (∀ f_, (wr a v s).tenant f_ = s.tenant f_) ∧ (∀ h_, (wr a v s).head h_ = s.head h_) ∧ (∀ k_, (wr a v s).port k_ = s.port k_) ∧
    (∀ d_, (wr a v s).paceOf d_ = s.paceOf d_) ∧ (∀ d_ k_, (wr a v s).xing d_ k_ = s.xing d_ k_) ∧ (∀ a_, (wr a v s).isl a_ = s.isl a_) ∧
    (∀ d_, (wr a v s).permit d_ = s.permit d_) ∧ (∀ d_, (wr a v s).power d_ = s.power d_) ∧ (∀ d_, (wr a v s).rin d_ = s.rin d_) ∧
    (∀ d_, (wr a v s).boot d_ = s.boot d_) ∧ (∀ d_, (wr a v s).garnet d_ = s.garnet d_) ∧ (∀ k_, (wr a v s).camPort k_ = s.camPort k_) ∧
    (∀ p_ v_, (wr a v s).stream p_ v_ = s.stream p_ v_) ∧ (∀ h_, (wr a v s).capture h_ = s.capture h_) ∧ (∀ d_, (wr a v s).warp d_ = s.warp d_) ∧
    (∀ d_, (wr a v s).gpu d_ = s.gpu d_) ∧ (∀ d_, (wr a v s).dram d_ = s.dram d_) ∧ (∀ h_, (wr a v s).aroute h_ = s.aroute h_) ∧
    (∀ b_, (wr a v s).bus b_ = s.bus b_) ∧ (∀ c_, (wr a v s).hap c_ = s.hap c_) ∧ (∀ d_, (wr a v s).touch d_ = s.touch d_) ∧
    (∀ d_ k_, (wr a v s).sensor d_ k_ = s.sensor d_ k_) ∧ (∀ d_, (wr a v s).check d_ = s.check d_) ∧ (∀ d_, (wr a v s).ltest d_ = s.ltest d_) ∧
    (∀ d_, (wr a v s).ebrum d_ = s.ebrum d_) :=
  ⟨rfl, rfl, rfl, rfl, rfl, rfl, rfl, rfl, rfl, rfl, rfl, rfl, rfl, rfl, rfl, rfl, rfl, rfl, rfl, rfl, rfl, rfl, rfl, rfl, rfl, rfl, rfl, rfl, rfl,
   rfl, rfl, rfl, rfl, rfl, rfl, rfl, rfl, rfl, rfl, rfl, rfl, rfl, rfl, rfl, rfl, rfl, rfl, rfl, rfl, rfl, rfl, fun _ => rfl, fun _ => rfl,
   fun _ => rfl, fun _ => rfl, fun _ => rfl, fun _ => rfl, fun _ => rfl, fun _ => rfl, fun _ => rfl, fun _ => rfl, fun _ _ => rfl, fun _ => rfl,
   fun _ => rfl, fun _ => rfl, fun _ => rfl, fun _ => rfl, fun _ => rfl, fun _ => rfl, fun _ _ => rfl, fun _ => rfl, fun _ => rfl, fun _ => rfl,
   fun _ => rfl, fun _ => rfl, fun _ => rfl, fun _ => rfl, fun _ => rfl, fun _ _ => rfl, fun _ => rfl, fun _ => rfl, fun _ => rfl⟩

@[simp] theorem setTbase_keeps {d : Die} {x : TimeBase} {s : State} :
    (setTbase d x s).part = s.part ∧ (setTbase d x s).pending = s.pending ∧ (setTbase d x s).mem = s.mem ∧ (setTbase d x s).regs = s.regs ∧
    (setTbase d x s).island = s.island ∧ (setTbase d x s).staged = s.staged ∧ (setTbase d x s).latched = s.latched ∧
    (setTbase d x s).readData = s.readData ∧ (setTbase d x s).timeA = s.timeA ∧ (setTbase d x s).timeB = s.timeB ∧ (setTbase d x s).free = s.free ∧
    (setTbase d x s).out = s.out ∧ (setTbase d x s).nextTag = s.nextTag ∧ (setTbase d x s).rings = s.rings ∧ (setTbase d x s).fns = s.fns ∧
    (setTbase d x s).owed = s.owed ∧ (setTbase d x s).routes = s.routes ∧ (setTbase d x s).tenants = s.tenants ∧ (setTbase d x s).tlb = s.tlb ∧
    (setTbase d x s).invs = s.invs ∧ (setTbase d x s).poison = s.poison ∧ (setTbase d x s).xings = s.xings ∧ (setTbase d x s).pace = s.pace ∧
    (setTbase d x s).votes = s.votes ∧ (setTbase d x s).claims = s.claims ∧ (setTbase d x s).garnetClaims = s.garnetClaims ∧
    (setTbase d x s).outOfService = s.outOfService ∧ (setTbase d x s).debug = s.debug ∧ (setTbase d x s).inReset = s.inReset ∧
    (setTbase d x s).porLow = s.porLow ∧ (setTbase d x s).resetnHigh = s.resetnHigh ∧ (setTbase d x s).split = s.split ∧
    (setTbase d x s).rinlar = s.rinlar ∧ (setTbase d x s).heads = s.heads ∧ (setTbase d x s).ports = s.ports ∧ (setTbase d x s).permits = s.permits ∧
    (setTbase d x s).garnets = s.garnets ∧ (setTbase d x s).camPorts = s.camPorts ∧ (setTbase d x s).streams = s.streams ∧
    (setTbase d x s).captures = s.captures ∧ (setTbase d x s).warps = s.warps ∧ (setTbase d x s).gpus = s.gpus ∧ (setTbase d x s).drams = s.drams ∧
    (setTbase d x s).audio = s.audio ∧ (setTbase d x s).haptics = s.haptics ∧ (setTbase d x s).touches = s.touches ∧
    (setTbase d x s).checks = s.checks ∧ (setTbase d x s).powers = s.powers ∧ (setTbase d x s).linkTests = s.linkTests ∧
    (setTbase d x s).ebrums = s.ebrums ∧ (setTbase d x s).boots = s.boots ∧ (∀ a_, (setTbase d x s).rd a_ = s.rd a_) ∧
    (∀ a_ k_, (setTbase d x s).rdF a_ k_ = s.rdF a_ k_) ∧ (∀ a_ k_, (setTbase d x s).flag a_ k_ = s.flag a_ k_) ∧
    (∀ a_, (setTbase d x s).rd64 a_ = s.rd64 a_) ∧ (∀ d_, (setTbase d x s).now d_ = s.now d_) ∧ (∀ k_, (setTbase d x s).freeNat k_ = s.freeNat k_) ∧
    (∀ q_, (setTbase d x s).ringAux q_ = s.ringAux q_) ∧ (∀ f_, (setTbase d x s).fnAux f_ = s.fnAux f_) ∧
    (∀ h_, (setTbase d x s).route h_ = s.route h_) ∧ (∀ f_, (setTbase d x s).tenant f_ = s.tenant f_) ∧
    (∀ h_, (setTbase d x s).head h_ = s.head h_) ∧ (∀ k_, (setTbase d x s).port k_ = s.port k_) ∧ (∀ d_, (setTbase d x s).paceOf d_ = s.paceOf d_) ∧
    (∀ d_ k_, (setTbase d x s).xing d_ k_ = s.xing d_ k_) ∧ (∀ a_, (setTbase d x s).isl a_ = s.isl a_) ∧
    (∀ d_, (setTbase d x s).permit d_ = s.permit d_) ∧ (∀ d_, (setTbase d x s).power d_ = s.power d_) ∧ (∀ d_, (setTbase d x s).rin d_ = s.rin d_) ∧
    (∀ d_, (setTbase d x s).boot d_ = s.boot d_) ∧ (∀ d_, (setTbase d x s).garnet d_ = s.garnet d_) ∧
    (∀ k_, (setTbase d x s).camPort k_ = s.camPort k_) ∧ (∀ p_ v_, (setTbase d x s).stream p_ v_ = s.stream p_ v_) ∧
    (∀ h_, (setTbase d x s).capture h_ = s.capture h_) ∧ (∀ d_, (setTbase d x s).warp d_ = s.warp d_) ∧ (∀ d_, (setTbase d x s).gpu d_ = s.gpu d_) ∧
    (∀ d_, (setTbase d x s).dram d_ = s.dram d_) ∧ (∀ h_, (setTbase d x s).aroute h_ = s.aroute h_) ∧ (∀ b_, (setTbase d x s).bus b_ = s.bus b_) ∧
    (∀ c_, (setTbase d x s).hap c_ = s.hap c_) ∧ (∀ d_, (setTbase d x s).touch d_ = s.touch d_) ∧
    (∀ d_ k_, (setTbase d x s).sensor d_ k_ = s.sensor d_ k_) ∧ (∀ d_, (setTbase d x s).check d_ = s.check d_) ∧
    (∀ d_, (setTbase d x s).ltest d_ = s.ltest d_) ∧ (∀ d_, (setTbase d x s).ebrum d_ = s.ebrum d_) :=
  ⟨rfl, rfl, rfl, rfl, rfl, rfl, rfl, rfl, rfl, rfl, rfl, rfl, rfl, rfl, rfl, rfl, rfl, rfl, rfl, rfl, rfl, rfl, rfl, rfl, rfl, rfl, rfl, rfl, rfl,
   rfl, rfl, rfl, rfl, rfl, rfl, rfl, rfl, rfl, rfl, rfl, rfl, rfl, rfl, rfl, rfl, rfl, rfl, rfl, rfl, rfl, rfl, fun _ => rfl, fun _ _ => rfl,
   fun _ _ => rfl, fun _ => rfl, fun _ => rfl, fun _ => rfl, fun _ => rfl, fun _ => rfl, fun _ => rfl, fun _ => rfl, fun _ => rfl, fun _ => rfl,
   fun _ => rfl, fun _ _ => rfl, fun _ => rfl, fun _ => rfl, fun _ => rfl, fun _ => rfl, fun _ => rfl, fun _ => rfl, fun _ => rfl, fun _ _ => rfl,
   fun _ => rfl, fun _ => rfl, fun _ => rfl, fun _ => rfl, fun _ => rfl, fun _ => rfl, fun _ => rfl, fun _ => rfl, fun _ _ => rfl, fun _ => rfl,
   fun _ => rfl, fun _ => rfl⟩

@[simp] theorem useFree_keeps {n : Nat} {s : State} :
    (useFree n s).part = s.part ∧ (useFree n s).pending = s.pending ∧ (useFree n s).mem = s.mem ∧ (useFree n s).regs = s.regs ∧
    (useFree n s).island = s.island ∧ (useFree n s).staged = s.staged ∧ (useFree n s).latched = s.latched ∧ (useFree n s).readData = s.readData ∧
    (useFree n s).timeA = s.timeA ∧ (useFree n s).timeB = s.timeB ∧ (useFree n s).tbases = s.tbases ∧ (useFree n s).out = s.out ∧
    (useFree n s).nextTag = s.nextTag ∧ (useFree n s).rings = s.rings ∧ (useFree n s).fns = s.fns ∧ (useFree n s).owed = s.owed ∧
    (useFree n s).routes = s.routes ∧ (useFree n s).tenants = s.tenants ∧ (useFree n s).tlb = s.tlb ∧ (useFree n s).invs = s.invs ∧
    (useFree n s).poison = s.poison ∧ (useFree n s).xings = s.xings ∧ (useFree n s).pace = s.pace ∧ (useFree n s).votes = s.votes ∧
    (useFree n s).claims = s.claims ∧ (useFree n s).garnetClaims = s.garnetClaims ∧ (useFree n s).outOfService = s.outOfService ∧
    (useFree n s).debug = s.debug ∧ (useFree n s).inReset = s.inReset ∧ (useFree n s).porLow = s.porLow ∧ (useFree n s).resetnHigh = s.resetnHigh ∧
    (useFree n s).split = s.split ∧ (useFree n s).rinlar = s.rinlar ∧ (useFree n s).heads = s.heads ∧ (useFree n s).ports = s.ports ∧
    (useFree n s).permits = s.permits ∧ (useFree n s).garnets = s.garnets ∧ (useFree n s).camPorts = s.camPorts ∧ (useFree n s).streams = s.streams ∧
    (useFree n s).captures = s.captures ∧ (useFree n s).warps = s.warps ∧ (useFree n s).gpus = s.gpus ∧ (useFree n s).drams = s.drams ∧
    (useFree n s).audio = s.audio ∧ (useFree n s).haptics = s.haptics ∧ (useFree n s).touches = s.touches ∧ (useFree n s).checks = s.checks ∧
    (useFree n s).powers = s.powers ∧ (useFree n s).linkTests = s.linkTests ∧ (useFree n s).ebrums = s.ebrums ∧ (useFree n s).boots = s.boots ∧
    (∀ a_, (useFree n s).rd a_ = s.rd a_) ∧ (∀ a_ k_, (useFree n s).rdF a_ k_ = s.rdF a_ k_) ∧ (∀ a_ k_, (useFree n s).flag a_ k_ = s.flag a_ k_) ∧
    (∀ a_, (useFree n s).rd64 a_ = s.rd64 a_) ∧ (∀ d_, (useFree n s).now d_ = s.now d_) ∧ (∀ d_, (useFree n s).tbase d_ = s.tbase d_) ∧
    (∀ q_, (useFree n s).ringAux q_ = s.ringAux q_) ∧ (∀ f_, (useFree n s).fnAux f_ = s.fnAux f_) ∧ (∀ h_, (useFree n s).route h_ = s.route h_) ∧
    (∀ f_, (useFree n s).tenant f_ = s.tenant f_) ∧ (∀ h_, (useFree n s).head h_ = s.head h_) ∧ (∀ k_, (useFree n s).port k_ = s.port k_) ∧
    (∀ d_, (useFree n s).paceOf d_ = s.paceOf d_) ∧ (∀ d_ k_, (useFree n s).xing d_ k_ = s.xing d_ k_) ∧ (∀ a_, (useFree n s).isl a_ = s.isl a_) ∧
    (∀ d_, (useFree n s).permit d_ = s.permit d_) ∧ (∀ d_, (useFree n s).power d_ = s.power d_) ∧ (∀ d_, (useFree n s).rin d_ = s.rin d_) ∧
    (∀ d_, (useFree n s).boot d_ = s.boot d_) ∧ (∀ d_, (useFree n s).garnet d_ = s.garnet d_) ∧ (∀ k_, (useFree n s).camPort k_ = s.camPort k_) ∧
    (∀ p_ v_, (useFree n s).stream p_ v_ = s.stream p_ v_) ∧ (∀ h_, (useFree n s).capture h_ = s.capture h_) ∧
    (∀ d_, (useFree n s).warp d_ = s.warp d_) ∧ (∀ d_, (useFree n s).gpu d_ = s.gpu d_) ∧ (∀ d_, (useFree n s).dram d_ = s.dram d_) ∧
    (∀ h_, (useFree n s).aroute h_ = s.aroute h_) ∧ (∀ b_, (useFree n s).bus b_ = s.bus b_) ∧ (∀ c_, (useFree n s).hap c_ = s.hap c_) ∧
    (∀ d_, (useFree n s).touch d_ = s.touch d_) ∧ (∀ d_ k_, (useFree n s).sensor d_ k_ = s.sensor d_ k_) ∧
    (∀ d_, (useFree n s).check d_ = s.check d_) ∧ (∀ d_, (useFree n s).ltest d_ = s.ltest d_) ∧ (∀ d_, (useFree n s).ebrum d_ = s.ebrum d_) :=
  ⟨rfl, rfl, rfl, rfl, rfl, rfl, rfl, rfl, rfl, rfl, rfl, rfl, rfl, rfl, rfl, rfl, rfl, rfl, rfl, rfl, rfl, rfl, rfl, rfl, rfl, rfl, rfl, rfl, rfl,
   rfl, rfl, rfl, rfl, rfl, rfl, rfl, rfl, rfl, rfl, rfl, rfl, rfl, rfl, rfl, rfl, rfl, rfl, rfl, rfl, rfl, rfl, fun _ => rfl, fun _ _ => rfl,
   fun _ _ => rfl, fun _ => rfl, fun _ => rfl, fun _ => rfl, fun _ => rfl, fun _ => rfl, fun _ => rfl, fun _ => rfl, fun _ => rfl, fun _ => rfl,
   fun _ => rfl, fun _ _ => rfl, fun _ => rfl, fun _ => rfl, fun _ => rfl, fun _ => rfl, fun _ => rfl, fun _ => rfl, fun _ => rfl, fun _ _ => rfl,
   fun _ => rfl, fun _ => rfl, fun _ => rfl, fun _ => rfl, fun _ => rfl, fun _ => rfl, fun _ => rfl, fun _ => rfl, fun _ _ => rfl, fun _ => rfl,
   fun _ => rfl, fun _ => rfl⟩

@[simp] theorem emit_keeps {o : Out} {s : State} :
    (emit o s).part = s.part ∧ (emit o s).pending = s.pending ∧ (emit o s).mem = s.mem ∧ (emit o s).regs = s.regs ∧ (emit o s).island = s.island ∧
    (emit o s).staged = s.staged ∧ (emit o s).latched = s.latched ∧ (emit o s).readData = s.readData ∧ (emit o s).timeA = s.timeA ∧
    (emit o s).timeB = s.timeB ∧ (emit o s).tbases = s.tbases ∧ (emit o s).free = s.free ∧ (emit o s).nextTag = s.nextTag ∧
    (emit o s).rings = s.rings ∧ (emit o s).fns = s.fns ∧ (emit o s).owed = s.owed ∧ (emit o s).routes = s.routes ∧ (emit o s).tenants = s.tenants ∧
    (emit o s).tlb = s.tlb ∧ (emit o s).invs = s.invs ∧ (emit o s).poison = s.poison ∧ (emit o s).xings = s.xings ∧ (emit o s).pace = s.pace ∧
    (emit o s).votes = s.votes ∧ (emit o s).claims = s.claims ∧ (emit o s).garnetClaims = s.garnetClaims ∧ (emit o s).outOfService = s.outOfService ∧
    (emit o s).debug = s.debug ∧ (emit o s).inReset = s.inReset ∧ (emit o s).porLow = s.porLow ∧ (emit o s).resetnHigh = s.resetnHigh ∧
    (emit o s).split = s.split ∧ (emit o s).rinlar = s.rinlar ∧ (emit o s).heads = s.heads ∧ (emit o s).ports = s.ports ∧
    (emit o s).permits = s.permits ∧ (emit o s).garnets = s.garnets ∧ (emit o s).camPorts = s.camPorts ∧ (emit o s).streams = s.streams ∧
    (emit o s).captures = s.captures ∧ (emit o s).warps = s.warps ∧ (emit o s).gpus = s.gpus ∧ (emit o s).drams = s.drams ∧
    (emit o s).audio = s.audio ∧ (emit o s).haptics = s.haptics ∧ (emit o s).touches = s.touches ∧ (emit o s).checks = s.checks ∧
    (emit o s).powers = s.powers ∧ (emit o s).linkTests = s.linkTests ∧ (emit o s).ebrums = s.ebrums ∧ (emit o s).boots = s.boots ∧
    (∀ a_, (emit o s).rd a_ = s.rd a_) ∧ (∀ a_ k_, (emit o s).rdF a_ k_ = s.rdF a_ k_) ∧ (∀ a_ k_, (emit o s).flag a_ k_ = s.flag a_ k_) ∧
    (∀ a_, (emit o s).rd64 a_ = s.rd64 a_) ∧ (∀ d_, (emit o s).now d_ = s.now d_) ∧ (∀ d_, (emit o s).tbase d_ = s.tbase d_) ∧
    (∀ k_, (emit o s).freeNat k_ = s.freeNat k_) ∧ (∀ q_, (emit o s).ringAux q_ = s.ringAux q_) ∧ (∀ f_, (emit o s).fnAux f_ = s.fnAux f_) ∧
    (∀ h_, (emit o s).route h_ = s.route h_) ∧ (∀ f_, (emit o s).tenant f_ = s.tenant f_) ∧ (∀ h_, (emit o s).head h_ = s.head h_) ∧
    (∀ k_, (emit o s).port k_ = s.port k_) ∧ (∀ d_, (emit o s).paceOf d_ = s.paceOf d_) ∧ (∀ d_ k_, (emit o s).xing d_ k_ = s.xing d_ k_) ∧
    (∀ a_, (emit o s).isl a_ = s.isl a_) ∧ (∀ d_, (emit o s).permit d_ = s.permit d_) ∧ (∀ d_, (emit o s).power d_ = s.power d_) ∧
    (∀ d_, (emit o s).rin d_ = s.rin d_) ∧ (∀ d_, (emit o s).boot d_ = s.boot d_) ∧ (∀ d_, (emit o s).garnet d_ = s.garnet d_) ∧
    (∀ k_, (emit o s).camPort k_ = s.camPort k_) ∧ (∀ p_ v_, (emit o s).stream p_ v_ = s.stream p_ v_) ∧
    (∀ h_, (emit o s).capture h_ = s.capture h_) ∧ (∀ d_, (emit o s).warp d_ = s.warp d_) ∧ (∀ d_, (emit o s).gpu d_ = s.gpu d_) ∧
    (∀ d_, (emit o s).dram d_ = s.dram d_) ∧ (∀ h_, (emit o s).aroute h_ = s.aroute h_) ∧ (∀ b_, (emit o s).bus b_ = s.bus b_) ∧
    (∀ c_, (emit o s).hap c_ = s.hap c_) ∧ (∀ d_, (emit o s).touch d_ = s.touch d_) ∧ (∀ d_ k_, (emit o s).sensor d_ k_ = s.sensor d_ k_) ∧
    (∀ d_, (emit o s).check d_ = s.check d_) ∧ (∀ d_, (emit o s).ltest d_ = s.ltest d_) ∧ (∀ d_, (emit o s).ebrum d_ = s.ebrum d_) :=
  ⟨rfl, rfl, rfl, rfl, rfl, rfl, rfl, rfl, rfl, rfl, rfl, rfl, rfl, rfl, rfl, rfl, rfl, rfl, rfl, rfl, rfl, rfl, rfl, rfl, rfl, rfl, rfl, rfl, rfl,
   rfl, rfl, rfl, rfl, rfl, rfl, rfl, rfl, rfl, rfl, rfl, rfl, rfl, rfl, rfl, rfl, rfl, rfl, rfl, rfl, rfl, rfl, fun _ => rfl, fun _ _ => rfl,
   fun _ _ => rfl, fun _ => rfl, fun _ => rfl, fun _ => rfl, fun _ => rfl, fun _ => rfl, fun _ => rfl, fun _ => rfl, fun _ => rfl, fun _ => rfl,
   fun _ => rfl, fun _ => rfl, fun _ _ => rfl, fun _ => rfl, fun _ => rfl, fun _ => rfl, fun _ => rfl, fun _ => rfl, fun _ => rfl, fun _ => rfl,
   fun _ _ => rfl, fun _ => rfl, fun _ => rfl, fun _ => rfl, fun _ => rfl, fun _ => rfl, fun _ => rfl, fun _ => rfl, fun _ => rfl, fun _ _ => rfl,
   fun _ => rfl, fun _ => rfl, fun _ => rfl⟩

@[simp] theorem setRin_keeps {d : Die} {r : Rinlar} {s : State} :
    (setRin d r s).part = s.part ∧ (setRin d r s).pending = s.pending ∧ (setRin d r s).mem = s.mem ∧ (setRin d r s).regs = s.regs ∧
    (setRin d r s).island = s.island ∧ (setRin d r s).staged = s.staged ∧ (setRin d r s).latched = s.latched ∧ (setRin d r s).readData = s.readData ∧
    (setRin d r s).timeA = s.timeA ∧ (setRin d r s).timeB = s.timeB ∧ (setRin d r s).tbases = s.tbases ∧ (setRin d r s).free = s.free ∧
    (setRin d r s).out = s.out ∧ (setRin d r s).nextTag = s.nextTag ∧ (setRin d r s).rings = s.rings ∧ (setRin d r s).fns = s.fns ∧
    (setRin d r s).owed = s.owed ∧ (setRin d r s).routes = s.routes ∧ (setRin d r s).tenants = s.tenants ∧ (setRin d r s).tlb = s.tlb ∧
    (setRin d r s).invs = s.invs ∧ (setRin d r s).poison = s.poison ∧ (setRin d r s).xings = s.xings ∧ (setRin d r s).pace = s.pace ∧
    (setRin d r s).votes = s.votes ∧ (setRin d r s).claims = s.claims ∧ (setRin d r s).garnetClaims = s.garnetClaims ∧
    (setRin d r s).outOfService = s.outOfService ∧ (setRin d r s).debug = s.debug ∧ (setRin d r s).inReset = s.inReset ∧
    (setRin d r s).porLow = s.porLow ∧ (setRin d r s).resetnHigh = s.resetnHigh ∧ (setRin d r s).split = s.split ∧ (setRin d r s).heads = s.heads ∧
    (setRin d r s).ports = s.ports ∧ (setRin d r s).permits = s.permits ∧ (setRin d r s).garnets = s.garnets ∧ (setRin d r s).camPorts = s.camPorts ∧
    (setRin d r s).streams = s.streams ∧ (setRin d r s).captures = s.captures ∧ (setRin d r s).warps = s.warps ∧ (setRin d r s).gpus = s.gpus ∧
    (setRin d r s).drams = s.drams ∧ (setRin d r s).audio = s.audio ∧ (setRin d r s).haptics = s.haptics ∧ (setRin d r s).touches = s.touches ∧
    (setRin d r s).checks = s.checks ∧ (setRin d r s).powers = s.powers ∧ (setRin d r s).linkTests = s.linkTests ∧ (setRin d r s).ebrums = s.ebrums ∧
    (setRin d r s).boots = s.boots ∧ (∀ a_, (setRin d r s).rd a_ = s.rd a_) ∧ (∀ a_ k_, (setRin d r s).rdF a_ k_ = s.rdF a_ k_) ∧
    (∀ a_ k_, (setRin d r s).flag a_ k_ = s.flag a_ k_) ∧ (∀ a_, (setRin d r s).rd64 a_ = s.rd64 a_) ∧ (∀ d_, (setRin d r s).now d_ = s.now d_) ∧
    (∀ d_, (setRin d r s).tbase d_ = s.tbase d_) ∧ (∀ k_, (setRin d r s).freeNat k_ = s.freeNat k_) ∧
    (∀ q_, (setRin d r s).ringAux q_ = s.ringAux q_) ∧ (∀ f_, (setRin d r s).fnAux f_ = s.fnAux f_) ∧ (∀ h_, (setRin d r s).route h_ = s.route h_) ∧
    (∀ f_, (setRin d r s).tenant f_ = s.tenant f_) ∧ (∀ h_, (setRin d r s).head h_ = s.head h_) ∧ (∀ k_, (setRin d r s).port k_ = s.port k_) ∧
    (∀ d_, (setRin d r s).paceOf d_ = s.paceOf d_) ∧ (∀ d_ k_, (setRin d r s).xing d_ k_ = s.xing d_ k_) ∧ (∀ a_, (setRin d r s).isl a_ = s.isl a_) ∧
    (∀ d_, (setRin d r s).permit d_ = s.permit d_) ∧ (∀ d_, (setRin d r s).power d_ = s.power d_) ∧ (∀ d_, (setRin d r s).boot d_ = s.boot d_) ∧
    (∀ d_, (setRin d r s).garnet d_ = s.garnet d_) ∧ (∀ k_, (setRin d r s).camPort k_ = s.camPort k_) ∧
    (∀ p_ v_, (setRin d r s).stream p_ v_ = s.stream p_ v_) ∧ (∀ h_, (setRin d r s).capture h_ = s.capture h_) ∧
    (∀ d_, (setRin d r s).warp d_ = s.warp d_) ∧ (∀ d_, (setRin d r s).gpu d_ = s.gpu d_) ∧ (∀ d_, (setRin d r s).dram d_ = s.dram d_) ∧
    (∀ h_, (setRin d r s).aroute h_ = s.aroute h_) ∧ (∀ b_, (setRin d r s).bus b_ = s.bus b_) ∧ (∀ c_, (setRin d r s).hap c_ = s.hap c_) ∧
    (∀ d_, (setRin d r s).touch d_ = s.touch d_) ∧ (∀ d_ k_, (setRin d r s).sensor d_ k_ = s.sensor d_ k_) ∧
    (∀ d_, (setRin d r s).check d_ = s.check d_) ∧ (∀ d_, (setRin d r s).ltest d_ = s.ltest d_) ∧ (∀ d_, (setRin d r s).ebrum d_ = s.ebrum d_) :=
  ⟨rfl, rfl, rfl, rfl, rfl, rfl, rfl, rfl, rfl, rfl, rfl, rfl, rfl, rfl, rfl, rfl, rfl, rfl, rfl, rfl, rfl, rfl, rfl, rfl, rfl, rfl, rfl, rfl, rfl,
   rfl, rfl, rfl, rfl, rfl, rfl, rfl, rfl, rfl, rfl, rfl, rfl, rfl, rfl, rfl, rfl, rfl, rfl, rfl, rfl, rfl, rfl, fun _ => rfl, fun _ _ => rfl,
   fun _ _ => rfl, fun _ => rfl, fun _ => rfl, fun _ => rfl, fun _ => rfl, fun _ => rfl, fun _ => rfl, fun _ => rfl, fun _ => rfl, fun _ => rfl,
   fun _ => rfl, fun _ => rfl, fun _ _ => rfl, fun _ => rfl, fun _ => rfl, fun _ => rfl, fun _ => rfl, fun _ => rfl, fun _ => rfl, fun _ _ => rfl,
   fun _ => rfl, fun _ => rfl, fun _ => rfl, fun _ => rfl, fun _ => rfl, fun _ => rfl, fun _ => rfl, fun _ => rfl, fun _ _ => rfl, fun _ => rfl,
   fun _ => rfl, fun _ => rfl⟩

@[simp] theorem setBoot_keeps {d : Die} {x : Boot} {s : State} :
    (setBoot d x s).part = s.part ∧ (setBoot d x s).pending = s.pending ∧ (setBoot d x s).mem = s.mem ∧ (setBoot d x s).regs = s.regs ∧
    (setBoot d x s).island = s.island ∧ (setBoot d x s).staged = s.staged ∧ (setBoot d x s).latched = s.latched ∧
    (setBoot d x s).readData = s.readData ∧ (setBoot d x s).timeA = s.timeA ∧ (setBoot d x s).timeB = s.timeB ∧ (setBoot d x s).tbases = s.tbases ∧
    (setBoot d x s).free = s.free ∧ (setBoot d x s).out = s.out ∧ (setBoot d x s).nextTag = s.nextTag ∧ (setBoot d x s).rings = s.rings ∧
    (setBoot d x s).fns = s.fns ∧ (setBoot d x s).owed = s.owed ∧ (setBoot d x s).routes = s.routes ∧ (setBoot d x s).tenants = s.tenants ∧
    (setBoot d x s).tlb = s.tlb ∧ (setBoot d x s).invs = s.invs ∧ (setBoot d x s).poison = s.poison ∧ (setBoot d x s).xings = s.xings ∧
    (setBoot d x s).pace = s.pace ∧ (setBoot d x s).votes = s.votes ∧ (setBoot d x s).claims = s.claims ∧
    (setBoot d x s).garnetClaims = s.garnetClaims ∧ (setBoot d x s).outOfService = s.outOfService ∧ (setBoot d x s).debug = s.debug ∧
    (setBoot d x s).inReset = s.inReset ∧ (setBoot d x s).porLow = s.porLow ∧ (setBoot d x s).resetnHigh = s.resetnHigh ∧
    (setBoot d x s).split = s.split ∧ (setBoot d x s).rinlar = s.rinlar ∧ (setBoot d x s).heads = s.heads ∧ (setBoot d x s).ports = s.ports ∧
    (setBoot d x s).permits = s.permits ∧ (setBoot d x s).garnets = s.garnets ∧ (setBoot d x s).camPorts = s.camPorts ∧
    (setBoot d x s).streams = s.streams ∧ (setBoot d x s).captures = s.captures ∧ (setBoot d x s).warps = s.warps ∧ (setBoot d x s).gpus = s.gpus ∧
    (setBoot d x s).drams = s.drams ∧ (setBoot d x s).audio = s.audio ∧ (setBoot d x s).haptics = s.haptics ∧ (setBoot d x s).touches = s.touches ∧
    (setBoot d x s).checks = s.checks ∧ (setBoot d x s).powers = s.powers ∧ (setBoot d x s).linkTests = s.linkTests ∧
    (setBoot d x s).ebrums = s.ebrums ∧ (∀ a_, (setBoot d x s).rd a_ = s.rd a_) ∧ (∀ a_ k_, (setBoot d x s).rdF a_ k_ = s.rdF a_ k_) ∧
    (∀ a_ k_, (setBoot d x s).flag a_ k_ = s.flag a_ k_) ∧ (∀ a_, (setBoot d x s).rd64 a_ = s.rd64 a_) ∧ (∀ d_, (setBoot d x s).now d_ = s.now d_) ∧
    (∀ d_, (setBoot d x s).tbase d_ = s.tbase d_) ∧ (∀ k_, (setBoot d x s).freeNat k_ = s.freeNat k_) ∧
    (∀ q_, (setBoot d x s).ringAux q_ = s.ringAux q_) ∧ (∀ f_, (setBoot d x s).fnAux f_ = s.fnAux f_) ∧
    (∀ h_, (setBoot d x s).route h_ = s.route h_) ∧ (∀ f_, (setBoot d x s).tenant f_ = s.tenant f_) ∧ (∀ h_, (setBoot d x s).head h_ = s.head h_) ∧
    (∀ k_, (setBoot d x s).port k_ = s.port k_) ∧ (∀ d_, (setBoot d x s).paceOf d_ = s.paceOf d_) ∧
    (∀ d_ k_, (setBoot d x s).xing d_ k_ = s.xing d_ k_) ∧ (∀ a_, (setBoot d x s).isl a_ = s.isl a_) ∧
    (∀ d_, (setBoot d x s).permit d_ = s.permit d_) ∧ (∀ d_, (setBoot d x s).power d_ = s.power d_) ∧ (∀ d_, (setBoot d x s).rin d_ = s.rin d_) ∧
    (∀ d_, (setBoot d x s).garnet d_ = s.garnet d_) ∧ (∀ k_, (setBoot d x s).camPort k_ = s.camPort k_) ∧
    (∀ p_ v_, (setBoot d x s).stream p_ v_ = s.stream p_ v_) ∧ (∀ h_, (setBoot d x s).capture h_ = s.capture h_) ∧
    (∀ d_, (setBoot d x s).warp d_ = s.warp d_) ∧ (∀ d_, (setBoot d x s).gpu d_ = s.gpu d_) ∧ (∀ d_, (setBoot d x s).dram d_ = s.dram d_) ∧
    (∀ h_, (setBoot d x s).aroute h_ = s.aroute h_) ∧ (∀ b_, (setBoot d x s).bus b_ = s.bus b_) ∧ (∀ c_, (setBoot d x s).hap c_ = s.hap c_) ∧
    (∀ d_, (setBoot d x s).touch d_ = s.touch d_) ∧ (∀ d_ k_, (setBoot d x s).sensor d_ k_ = s.sensor d_ k_) ∧
    (∀ d_, (setBoot d x s).check d_ = s.check d_) ∧ (∀ d_, (setBoot d x s).ltest d_ = s.ltest d_) ∧ (∀ d_, (setBoot d x s).ebrum d_ = s.ebrum d_) :=
  ⟨rfl, rfl, rfl, rfl, rfl, rfl, rfl, rfl, rfl, rfl, rfl, rfl, rfl, rfl, rfl, rfl, rfl, rfl, rfl, rfl, rfl, rfl, rfl, rfl, rfl, rfl, rfl, rfl, rfl,
   rfl, rfl, rfl, rfl, rfl, rfl, rfl, rfl, rfl, rfl, rfl, rfl, rfl, rfl, rfl, rfl, rfl, rfl, rfl, rfl, rfl, rfl, fun _ => rfl, fun _ _ => rfl,
   fun _ _ => rfl, fun _ => rfl, fun _ => rfl, fun _ => rfl, fun _ => rfl, fun _ => rfl, fun _ => rfl, fun _ => rfl, fun _ => rfl, fun _ => rfl,
   fun _ => rfl, fun _ => rfl, fun _ _ => rfl, fun _ => rfl, fun _ => rfl, fun _ => rfl, fun _ => rfl, fun _ => rfl, fun _ => rfl, fun _ _ => rfl,
   fun _ => rfl, fun _ => rfl, fun _ => rfl, fun _ => rfl, fun _ => rfl, fun _ => rfl, fun _ => rfl, fun _ => rfl, fun _ _ => rfl, fun _ => rfl,
   fun _ => rfl, fun _ => rfl⟩

@[simp] theorem setGarnet_keeps {d : Die} {g : Garnet} {s : State} :
    (setGarnet d g s).part = s.part ∧ (setGarnet d g s).pending = s.pending ∧ (setGarnet d g s).mem = s.mem ∧ (setGarnet d g s).regs = s.regs ∧
    (setGarnet d g s).island = s.island ∧ (setGarnet d g s).staged = s.staged ∧ (setGarnet d g s).latched = s.latched ∧
    (setGarnet d g s).readData = s.readData ∧ (setGarnet d g s).timeA = s.timeA ∧ (setGarnet d g s).timeB = s.timeB ∧
    (setGarnet d g s).tbases = s.tbases ∧ (setGarnet d g s).free = s.free ∧ (setGarnet d g s).out = s.out ∧ (setGarnet d g s).nextTag = s.nextTag ∧
    (setGarnet d g s).rings = s.rings ∧ (setGarnet d g s).fns = s.fns ∧ (setGarnet d g s).owed = s.owed ∧ (setGarnet d g s).routes = s.routes ∧
    (setGarnet d g s).tenants = s.tenants ∧ (setGarnet d g s).tlb = s.tlb ∧ (setGarnet d g s).invs = s.invs ∧ (setGarnet d g s).poison = s.poison ∧
    (setGarnet d g s).xings = s.xings ∧ (setGarnet d g s).pace = s.pace ∧ (setGarnet d g s).votes = s.votes ∧ (setGarnet d g s).claims = s.claims ∧
    (setGarnet d g s).garnetClaims = s.garnetClaims ∧ (setGarnet d g s).outOfService = s.outOfService ∧ (setGarnet d g s).debug = s.debug ∧
    (setGarnet d g s).inReset = s.inReset ∧ (setGarnet d g s).porLow = s.porLow ∧ (setGarnet d g s).resetnHigh = s.resetnHigh ∧
    (setGarnet d g s).split = s.split ∧ (setGarnet d g s).rinlar = s.rinlar ∧ (setGarnet d g s).heads = s.heads ∧ (setGarnet d g s).ports = s.ports ∧
    (setGarnet d g s).permits = s.permits ∧ (setGarnet d g s).camPorts = s.camPorts ∧ (setGarnet d g s).streams = s.streams ∧
    (setGarnet d g s).captures = s.captures ∧ (setGarnet d g s).warps = s.warps ∧ (setGarnet d g s).gpus = s.gpus ∧
    (setGarnet d g s).drams = s.drams ∧ (setGarnet d g s).audio = s.audio ∧ (setGarnet d g s).haptics = s.haptics ∧
    (setGarnet d g s).touches = s.touches ∧ (setGarnet d g s).checks = s.checks ∧ (setGarnet d g s).powers = s.powers ∧
    (setGarnet d g s).linkTests = s.linkTests ∧ (setGarnet d g s).ebrums = s.ebrums ∧ (setGarnet d g s).boots = s.boots ∧
    (∀ a_, (setGarnet d g s).rd a_ = s.rd a_) ∧ (∀ a_ k_, (setGarnet d g s).rdF a_ k_ = s.rdF a_ k_) ∧
    (∀ a_ k_, (setGarnet d g s).flag a_ k_ = s.flag a_ k_) ∧ (∀ a_, (setGarnet d g s).rd64 a_ = s.rd64 a_) ∧
    (∀ d_, (setGarnet d g s).now d_ = s.now d_) ∧ (∀ d_, (setGarnet d g s).tbase d_ = s.tbase d_) ∧
    (∀ k_, (setGarnet d g s).freeNat k_ = s.freeNat k_) ∧ (∀ q_, (setGarnet d g s).ringAux q_ = s.ringAux q_) ∧
    (∀ f_, (setGarnet d g s).fnAux f_ = s.fnAux f_) ∧ (∀ h_, (setGarnet d g s).route h_ = s.route h_) ∧
    (∀ f_, (setGarnet d g s).tenant f_ = s.tenant f_) ∧ (∀ h_, (setGarnet d g s).head h_ = s.head h_) ∧
    (∀ k_, (setGarnet d g s).port k_ = s.port k_) ∧ (∀ d_, (setGarnet d g s).paceOf d_ = s.paceOf d_) ∧
    (∀ d_ k_, (setGarnet d g s).xing d_ k_ = s.xing d_ k_) ∧ (∀ a_, (setGarnet d g s).isl a_ = s.isl a_) ∧
    (∀ d_, (setGarnet d g s).permit d_ = s.permit d_) ∧ (∀ d_, (setGarnet d g s).power d_ = s.power d_) ∧
    (∀ d_, (setGarnet d g s).rin d_ = s.rin d_) ∧ (∀ d_, (setGarnet d g s).boot d_ = s.boot d_) ∧
    (∀ k_, (setGarnet d g s).camPort k_ = s.camPort k_) ∧ (∀ p_ v_, (setGarnet d g s).stream p_ v_ = s.stream p_ v_) ∧
    (∀ h_, (setGarnet d g s).capture h_ = s.capture h_) ∧ (∀ d_, (setGarnet d g s).warp d_ = s.warp d_) ∧
    (∀ d_, (setGarnet d g s).gpu d_ = s.gpu d_) ∧ (∀ d_, (setGarnet d g s).dram d_ = s.dram d_) ∧ (∀ h_, (setGarnet d g s).aroute h_ = s.aroute h_) ∧
    (∀ b_, (setGarnet d g s).bus b_ = s.bus b_) ∧ (∀ c_, (setGarnet d g s).hap c_ = s.hap c_) ∧ (∀ d_, (setGarnet d g s).touch d_ = s.touch d_) ∧
    (∀ d_ k_, (setGarnet d g s).sensor d_ k_ = s.sensor d_ k_) ∧ (∀ d_, (setGarnet d g s).check d_ = s.check d_) ∧
    (∀ d_, (setGarnet d g s).ltest d_ = s.ltest d_) ∧ (∀ d_, (setGarnet d g s).ebrum d_ = s.ebrum d_) :=
  ⟨rfl, rfl, rfl, rfl, rfl, rfl, rfl, rfl, rfl, rfl, rfl, rfl, rfl, rfl, rfl, rfl, rfl, rfl, rfl, rfl, rfl, rfl, rfl, rfl, rfl, rfl, rfl, rfl, rfl,
   rfl, rfl, rfl, rfl, rfl, rfl, rfl, rfl, rfl, rfl, rfl, rfl, rfl, rfl, rfl, rfl, rfl, rfl, rfl, rfl, rfl, rfl, fun _ => rfl, fun _ _ => rfl,
   fun _ _ => rfl, fun _ => rfl, fun _ => rfl, fun _ => rfl, fun _ => rfl, fun _ => rfl, fun _ => rfl, fun _ => rfl, fun _ => rfl, fun _ => rfl,
   fun _ => rfl, fun _ => rfl, fun _ _ => rfl, fun _ => rfl, fun _ => rfl, fun _ => rfl, fun _ => rfl, fun _ => rfl, fun _ => rfl, fun _ _ => rfl,
   fun _ => rfl, fun _ => rfl, fun _ => rfl, fun _ => rfl, fun _ => rfl, fun _ => rfl, fun _ => rfl, fun _ => rfl, fun _ _ => rfl, fun _ => rfl,
   fun _ => rfl, fun _ => rfl⟩

@[simp] theorem setGpu_keeps {d : Die} {x : Gpu} {s : State} :
    (setGpu d x s).part = s.part ∧ (setGpu d x s).pending = s.pending ∧ (setGpu d x s).mem = s.mem ∧ (setGpu d x s).regs = s.regs ∧
    (setGpu d x s).island = s.island ∧ (setGpu d x s).staged = s.staged ∧ (setGpu d x s).latched = s.latched ∧ (setGpu d x s).readData = s.readData ∧
    (setGpu d x s).timeA = s.timeA ∧ (setGpu d x s).timeB = s.timeB ∧ (setGpu d x s).tbases = s.tbases ∧ (setGpu d x s).free = s.free ∧
    (setGpu d x s).out = s.out ∧ (setGpu d x s).nextTag = s.nextTag ∧ (setGpu d x s).rings = s.rings ∧ (setGpu d x s).fns = s.fns ∧
    (setGpu d x s).owed = s.owed ∧ (setGpu d x s).routes = s.routes ∧ (setGpu d x s).tenants = s.tenants ∧ (setGpu d x s).tlb = s.tlb ∧
    (setGpu d x s).invs = s.invs ∧ (setGpu d x s).poison = s.poison ∧ (setGpu d x s).xings = s.xings ∧ (setGpu d x s).pace = s.pace ∧
    (setGpu d x s).votes = s.votes ∧ (setGpu d x s).claims = s.claims ∧ (setGpu d x s).garnetClaims = s.garnetClaims ∧
    (setGpu d x s).outOfService = s.outOfService ∧ (setGpu d x s).debug = s.debug ∧ (setGpu d x s).inReset = s.inReset ∧
    (setGpu d x s).porLow = s.porLow ∧ (setGpu d x s).resetnHigh = s.resetnHigh ∧ (setGpu d x s).split = s.split ∧ (setGpu d x s).rinlar = s.rinlar ∧
    (setGpu d x s).heads = s.heads ∧ (setGpu d x s).ports = s.ports ∧ (setGpu d x s).permits = s.permits ∧ (setGpu d x s).garnets = s.garnets ∧
    (setGpu d x s).camPorts = s.camPorts ∧ (setGpu d x s).streams = s.streams ∧ (setGpu d x s).captures = s.captures ∧
    (setGpu d x s).warps = s.warps ∧ (setGpu d x s).drams = s.drams ∧ (setGpu d x s).audio = s.audio ∧ (setGpu d x s).haptics = s.haptics ∧
    (setGpu d x s).touches = s.touches ∧ (setGpu d x s).checks = s.checks ∧ (setGpu d x s).powers = s.powers ∧
    (setGpu d x s).linkTests = s.linkTests ∧ (setGpu d x s).ebrums = s.ebrums ∧ (setGpu d x s).boots = s.boots ∧
    (∀ a_, (setGpu d x s).rd a_ = s.rd a_) ∧ (∀ a_ k_, (setGpu d x s).rdF a_ k_ = s.rdF a_ k_) ∧
    (∀ a_ k_, (setGpu d x s).flag a_ k_ = s.flag a_ k_) ∧ (∀ a_, (setGpu d x s).rd64 a_ = s.rd64 a_) ∧ (∀ d_, (setGpu d x s).now d_ = s.now d_) ∧
    (∀ d_, (setGpu d x s).tbase d_ = s.tbase d_) ∧ (∀ k_, (setGpu d x s).freeNat k_ = s.freeNat k_) ∧
    (∀ q_, (setGpu d x s).ringAux q_ = s.ringAux q_) ∧ (∀ f_, (setGpu d x s).fnAux f_ = s.fnAux f_) ∧ (∀ h_, (setGpu d x s).route h_ = s.route h_) ∧
    (∀ f_, (setGpu d x s).tenant f_ = s.tenant f_) ∧ (∀ h_, (setGpu d x s).head h_ = s.head h_) ∧ (∀ k_, (setGpu d x s).port k_ = s.port k_) ∧
    (∀ d_, (setGpu d x s).paceOf d_ = s.paceOf d_) ∧ (∀ d_ k_, (setGpu d x s).xing d_ k_ = s.xing d_ k_) ∧ (∀ a_, (setGpu d x s).isl a_ = s.isl a_) ∧
    (∀ d_, (setGpu d x s).permit d_ = s.permit d_) ∧ (∀ d_, (setGpu d x s).power d_ = s.power d_) ∧ (∀ d_, (setGpu d x s).rin d_ = s.rin d_) ∧
    (∀ d_, (setGpu d x s).boot d_ = s.boot d_) ∧ (∀ d_, (setGpu d x s).garnet d_ = s.garnet d_) ∧ (∀ k_, (setGpu d x s).camPort k_ = s.camPort k_) ∧
    (∀ p_ v_, (setGpu d x s).stream p_ v_ = s.stream p_ v_) ∧ (∀ h_, (setGpu d x s).capture h_ = s.capture h_) ∧
    (∀ d_, (setGpu d x s).warp d_ = s.warp d_) ∧ (∀ d_, (setGpu d x s).dram d_ = s.dram d_) ∧ (∀ h_, (setGpu d x s).aroute h_ = s.aroute h_) ∧
    (∀ b_, (setGpu d x s).bus b_ = s.bus b_) ∧ (∀ c_, (setGpu d x s).hap c_ = s.hap c_) ∧ (∀ d_, (setGpu d x s).touch d_ = s.touch d_) ∧
    (∀ d_ k_, (setGpu d x s).sensor d_ k_ = s.sensor d_ k_) ∧ (∀ d_, (setGpu d x s).check d_ = s.check d_) ∧
    (∀ d_, (setGpu d x s).ltest d_ = s.ltest d_) ∧ (∀ d_, (setGpu d x s).ebrum d_ = s.ebrum d_) :=
  ⟨rfl, rfl, rfl, rfl, rfl, rfl, rfl, rfl, rfl, rfl, rfl, rfl, rfl, rfl, rfl, rfl, rfl, rfl, rfl, rfl, rfl, rfl, rfl, rfl, rfl, rfl, rfl, rfl, rfl,
   rfl, rfl, rfl, rfl, rfl, rfl, rfl, rfl, rfl, rfl, rfl, rfl, rfl, rfl, rfl, rfl, rfl, rfl, rfl, rfl, rfl, rfl, fun _ => rfl, fun _ _ => rfl,
   fun _ _ => rfl, fun _ => rfl, fun _ => rfl, fun _ => rfl, fun _ => rfl, fun _ => rfl, fun _ => rfl, fun _ => rfl, fun _ => rfl, fun _ => rfl,
   fun _ => rfl, fun _ => rfl, fun _ _ => rfl, fun _ => rfl, fun _ => rfl, fun _ => rfl, fun _ => rfl, fun _ => rfl, fun _ => rfl, fun _ => rfl,
   fun _ _ => rfl, fun _ => rfl, fun _ => rfl, fun _ => rfl, fun _ => rfl, fun _ => rfl, fun _ => rfl, fun _ => rfl, fun _ _ => rfl, fun _ => rfl,
   fun _ => rfl, fun _ => rfl⟩

@[simp] theorem setHap_keeps {c : Nat} {x : HapChan} {s : State} :
    (setHap c x s).part = s.part ∧ (setHap c x s).pending = s.pending ∧ (setHap c x s).mem = s.mem ∧ (setHap c x s).regs = s.regs ∧
    (setHap c x s).island = s.island ∧ (setHap c x s).staged = s.staged ∧ (setHap c x s).latched = s.latched ∧ (setHap c x s).readData = s.readData ∧
    (setHap c x s).timeA = s.timeA ∧ (setHap c x s).timeB = s.timeB ∧ (setHap c x s).tbases = s.tbases ∧ (setHap c x s).free = s.free ∧
    (setHap c x s).out = s.out ∧ (setHap c x s).nextTag = s.nextTag ∧ (setHap c x s).rings = s.rings ∧ (setHap c x s).fns = s.fns ∧
    (setHap c x s).owed = s.owed ∧ (setHap c x s).routes = s.routes ∧ (setHap c x s).tenants = s.tenants ∧ (setHap c x s).tlb = s.tlb ∧
    (setHap c x s).invs = s.invs ∧ (setHap c x s).poison = s.poison ∧ (setHap c x s).xings = s.xings ∧ (setHap c x s).pace = s.pace ∧
    (setHap c x s).votes = s.votes ∧ (setHap c x s).claims = s.claims ∧ (setHap c x s).garnetClaims = s.garnetClaims ∧
    (setHap c x s).outOfService = s.outOfService ∧ (setHap c x s).debug = s.debug ∧ (setHap c x s).inReset = s.inReset ∧
    (setHap c x s).porLow = s.porLow ∧ (setHap c x s).resetnHigh = s.resetnHigh ∧ (setHap c x s).split = s.split ∧ (setHap c x s).rinlar = s.rinlar ∧
    (setHap c x s).heads = s.heads ∧ (setHap c x s).ports = s.ports ∧ (setHap c x s).permits = s.permits ∧ (setHap c x s).garnets = s.garnets ∧
    (setHap c x s).camPorts = s.camPorts ∧ (setHap c x s).streams = s.streams ∧ (setHap c x s).captures = s.captures ∧
    (setHap c x s).warps = s.warps ∧ (setHap c x s).gpus = s.gpus ∧ (setHap c x s).drams = s.drams ∧ (setHap c x s).audio = s.audio ∧
    (setHap c x s).touches = s.touches ∧ (setHap c x s).checks = s.checks ∧ (setHap c x s).powers = s.powers ∧
    (setHap c x s).linkTests = s.linkTests ∧ (setHap c x s).ebrums = s.ebrums ∧ (setHap c x s).boots = s.boots ∧
    (∀ a_, (setHap c x s).rd a_ = s.rd a_) ∧ (∀ a_ k_, (setHap c x s).rdF a_ k_ = s.rdF a_ k_) ∧
    (∀ a_ k_, (setHap c x s).flag a_ k_ = s.flag a_ k_) ∧ (∀ a_, (setHap c x s).rd64 a_ = s.rd64 a_) ∧ (∀ d_, (setHap c x s).now d_ = s.now d_) ∧
    (∀ d_, (setHap c x s).tbase d_ = s.tbase d_) ∧ (∀ k_, (setHap c x s).freeNat k_ = s.freeNat k_) ∧
    (∀ q_, (setHap c x s).ringAux q_ = s.ringAux q_) ∧ (∀ f_, (setHap c x s).fnAux f_ = s.fnAux f_) ∧ (∀ h_, (setHap c x s).route h_ = s.route h_) ∧
    (∀ f_, (setHap c x s).tenant f_ = s.tenant f_) ∧ (∀ h_, (setHap c x s).head h_ = s.head h_) ∧ (∀ k_, (setHap c x s).port k_ = s.port k_) ∧
    (∀ d_, (setHap c x s).paceOf d_ = s.paceOf d_) ∧ (∀ d_ k_, (setHap c x s).xing d_ k_ = s.xing d_ k_) ∧ (∀ a_, (setHap c x s).isl a_ = s.isl a_) ∧
    (∀ d_, (setHap c x s).permit d_ = s.permit d_) ∧ (∀ d_, (setHap c x s).power d_ = s.power d_) ∧ (∀ d_, (setHap c x s).rin d_ = s.rin d_) ∧
    (∀ d_, (setHap c x s).boot d_ = s.boot d_) ∧ (∀ d_, (setHap c x s).garnet d_ = s.garnet d_) ∧ (∀ k_, (setHap c x s).camPort k_ = s.camPort k_) ∧
    (∀ p_ v_, (setHap c x s).stream p_ v_ = s.stream p_ v_) ∧ (∀ h_, (setHap c x s).capture h_ = s.capture h_) ∧
    (∀ d_, (setHap c x s).warp d_ = s.warp d_) ∧ (∀ d_, (setHap c x s).gpu d_ = s.gpu d_) ∧ (∀ d_, (setHap c x s).dram d_ = s.dram d_) ∧
    (∀ h_, (setHap c x s).aroute h_ = s.aroute h_) ∧ (∀ b_, (setHap c x s).bus b_ = s.bus b_) ∧ (∀ d_, (setHap c x s).touch d_ = s.touch d_) ∧
    (∀ d_ k_, (setHap c x s).sensor d_ k_ = s.sensor d_ k_) ∧ (∀ d_, (setHap c x s).check d_ = s.check d_) ∧
    (∀ d_, (setHap c x s).ltest d_ = s.ltest d_) ∧ (∀ d_, (setHap c x s).ebrum d_ = s.ebrum d_) :=
  ⟨rfl, rfl, rfl, rfl, rfl, rfl, rfl, rfl, rfl, rfl, rfl, rfl, rfl, rfl, rfl, rfl, rfl, rfl, rfl, rfl, rfl, rfl, rfl, rfl, rfl, rfl, rfl, rfl, rfl,
   rfl, rfl, rfl, rfl, rfl, rfl, rfl, rfl, rfl, rfl, rfl, rfl, rfl, rfl, rfl, rfl, rfl, rfl, rfl, rfl, rfl, rfl, fun _ => rfl, fun _ _ => rfl,
   fun _ _ => rfl, fun _ => rfl, fun _ => rfl, fun _ => rfl, fun _ => rfl, fun _ => rfl, fun _ => rfl, fun _ => rfl, fun _ => rfl, fun _ => rfl,
   fun _ => rfl, fun _ => rfl, fun _ _ => rfl, fun _ => rfl, fun _ => rfl, fun _ => rfl, fun _ => rfl, fun _ => rfl, fun _ => rfl, fun _ => rfl,
   fun _ _ => rfl, fun _ => rfl, fun _ => rfl, fun _ => rfl, fun _ => rfl, fun _ => rfl, fun _ => rfl, fun _ => rfl, fun _ _ => rfl, fun _ => rfl,
   fun _ => rfl, fun _ => rfl⟩

@[simp] theorem setPort_keeps {k : Nat} {x : Port} {s : State} :
    (setPort k x s).part = s.part ∧ (setPort k x s).pending = s.pending ∧ (setPort k x s).mem = s.mem ∧ (setPort k x s).regs = s.regs ∧
    (setPort k x s).island = s.island ∧ (setPort k x s).staged = s.staged ∧ (setPort k x s).latched = s.latched ∧
    (setPort k x s).readData = s.readData ∧ (setPort k x s).timeA = s.timeA ∧ (setPort k x s).timeB = s.timeB ∧ (setPort k x s).tbases = s.tbases ∧
    (setPort k x s).free = s.free ∧ (setPort k x s).out = s.out ∧ (setPort k x s).nextTag = s.nextTag ∧ (setPort k x s).rings = s.rings ∧
    (setPort k x s).fns = s.fns ∧ (setPort k x s).owed = s.owed ∧ (setPort k x s).routes = s.routes ∧ (setPort k x s).tenants = s.tenants ∧
    (setPort k x s).tlb = s.tlb ∧ (setPort k x s).invs = s.invs ∧ (setPort k x s).poison = s.poison ∧ (setPort k x s).xings = s.xings ∧
    (setPort k x s).pace = s.pace ∧ (setPort k x s).votes = s.votes ∧ (setPort k x s).claims = s.claims ∧
    (setPort k x s).garnetClaims = s.garnetClaims ∧ (setPort k x s).outOfService = s.outOfService ∧ (setPort k x s).debug = s.debug ∧
    (setPort k x s).inReset = s.inReset ∧ (setPort k x s).porLow = s.porLow ∧ (setPort k x s).resetnHigh = s.resetnHigh ∧
    (setPort k x s).split = s.split ∧ (setPort k x s).rinlar = s.rinlar ∧ (setPort k x s).heads = s.heads ∧ (setPort k x s).permits = s.permits ∧
    (setPort k x s).garnets = s.garnets ∧ (setPort k x s).camPorts = s.camPorts ∧ (setPort k x s).streams = s.streams ∧
    (setPort k x s).captures = s.captures ∧ (setPort k x s).warps = s.warps ∧ (setPort k x s).gpus = s.gpus ∧ (setPort k x s).drams = s.drams ∧
    (setPort k x s).audio = s.audio ∧ (setPort k x s).haptics = s.haptics ∧ (setPort k x s).touches = s.touches ∧ (setPort k x s).checks = s.checks ∧
    (setPort k x s).powers = s.powers ∧ (setPort k x s).linkTests = s.linkTests ∧ (setPort k x s).ebrums = s.ebrums ∧
    (setPort k x s).boots = s.boots ∧ (∀ a_, (setPort k x s).rd a_ = s.rd a_) ∧ (∀ a_ k_, (setPort k x s).rdF a_ k_ = s.rdF a_ k_) ∧
    (∀ a_ k_, (setPort k x s).flag a_ k_ = s.flag a_ k_) ∧ (∀ a_, (setPort k x s).rd64 a_ = s.rd64 a_) ∧ (∀ d_, (setPort k x s).now d_ = s.now d_) ∧
    (∀ d_, (setPort k x s).tbase d_ = s.tbase d_) ∧ (∀ k_, (setPort k x s).freeNat k_ = s.freeNat k_) ∧
    (∀ q_, (setPort k x s).ringAux q_ = s.ringAux q_) ∧ (∀ f_, (setPort k x s).fnAux f_ = s.fnAux f_) ∧
    (∀ h_, (setPort k x s).route h_ = s.route h_) ∧ (∀ f_, (setPort k x s).tenant f_ = s.tenant f_) ∧ (∀ h_, (setPort k x s).head h_ = s.head h_) ∧
    (∀ d_, (setPort k x s).paceOf d_ = s.paceOf d_) ∧ (∀ d_ k_, (setPort k x s).xing d_ k_ = s.xing d_ k_) ∧
    (∀ a_, (setPort k x s).isl a_ = s.isl a_) ∧ (∀ d_, (setPort k x s).permit d_ = s.permit d_) ∧ (∀ d_, (setPort k x s).power d_ = s.power d_) ∧
    (∀ d_, (setPort k x s).rin d_ = s.rin d_) ∧ (∀ d_, (setPort k x s).boot d_ = s.boot d_) ∧ (∀ d_, (setPort k x s).garnet d_ = s.garnet d_) ∧
    (∀ k_, (setPort k x s).camPort k_ = s.camPort k_) ∧ (∀ p_ v_, (setPort k x s).stream p_ v_ = s.stream p_ v_) ∧
    (∀ h_, (setPort k x s).capture h_ = s.capture h_) ∧ (∀ d_, (setPort k x s).warp d_ = s.warp d_) ∧ (∀ d_, (setPort k x s).gpu d_ = s.gpu d_) ∧
    (∀ d_, (setPort k x s).dram d_ = s.dram d_) ∧ (∀ h_, (setPort k x s).aroute h_ = s.aroute h_) ∧ (∀ b_, (setPort k x s).bus b_ = s.bus b_) ∧
    (∀ c_, (setPort k x s).hap c_ = s.hap c_) ∧ (∀ d_, (setPort k x s).touch d_ = s.touch d_) ∧
    (∀ d_ k_, (setPort k x s).sensor d_ k_ = s.sensor d_ k_) ∧ (∀ d_, (setPort k x s).check d_ = s.check d_) ∧
    (∀ d_, (setPort k x s).ltest d_ = s.ltest d_) ∧ (∀ d_, (setPort k x s).ebrum d_ = s.ebrum d_) :=
  ⟨rfl, rfl, rfl, rfl, rfl, rfl, rfl, rfl, rfl, rfl, rfl, rfl, rfl, rfl, rfl, rfl, rfl, rfl, rfl, rfl, rfl, rfl, rfl, rfl, rfl, rfl, rfl, rfl, rfl,
   rfl, rfl, rfl, rfl, rfl, rfl, rfl, rfl, rfl, rfl, rfl, rfl, rfl, rfl, rfl, rfl, rfl, rfl, rfl, rfl, rfl, rfl, fun _ => rfl, fun _ _ => rfl,
   fun _ _ => rfl, fun _ => rfl, fun _ => rfl, fun _ => rfl, fun _ => rfl, fun _ => rfl, fun _ => rfl, fun _ => rfl, fun _ => rfl, fun _ => rfl,
   fun _ => rfl, fun _ _ => rfl, fun _ => rfl, fun _ => rfl, fun _ => rfl, fun _ => rfl, fun _ => rfl, fun _ => rfl, fun _ => rfl, fun _ _ => rfl,
   fun _ => rfl, fun _ => rfl, fun _ => rfl, fun _ => rfl, fun _ => rfl, fun _ => rfl, fun _ => rfl, fun _ => rfl, fun _ _ => rfl, fun _ => rfl,
   fun _ => rfl, fun _ => rfl⟩

@[simp] theorem setLtest_keeps {d : Die} {x : LinkTests} {s : State} :
    (setLtest d x s).part = s.part ∧ (setLtest d x s).pending = s.pending ∧ (setLtest d x s).mem = s.mem ∧ (setLtest d x s).regs = s.regs ∧
    (setLtest d x s).island = s.island ∧ (setLtest d x s).staged = s.staged ∧ (setLtest d x s).latched = s.latched ∧
    (setLtest d x s).readData = s.readData ∧ (setLtest d x s).timeA = s.timeA ∧ (setLtest d x s).timeB = s.timeB ∧
    (setLtest d x s).tbases = s.tbases ∧ (setLtest d x s).free = s.free ∧ (setLtest d x s).out = s.out ∧ (setLtest d x s).nextTag = s.nextTag ∧
    (setLtest d x s).rings = s.rings ∧ (setLtest d x s).fns = s.fns ∧ (setLtest d x s).owed = s.owed ∧ (setLtest d x s).routes = s.routes ∧
    (setLtest d x s).tenants = s.tenants ∧ (setLtest d x s).tlb = s.tlb ∧ (setLtest d x s).invs = s.invs ∧ (setLtest d x s).poison = s.poison ∧
    (setLtest d x s).xings = s.xings ∧ (setLtest d x s).pace = s.pace ∧ (setLtest d x s).votes = s.votes ∧ (setLtest d x s).claims = s.claims ∧
    (setLtest d x s).garnetClaims = s.garnetClaims ∧ (setLtest d x s).outOfService = s.outOfService ∧ (setLtest d x s).debug = s.debug ∧
    (setLtest d x s).inReset = s.inReset ∧ (setLtest d x s).porLow = s.porLow ∧ (setLtest d x s).resetnHigh = s.resetnHigh ∧
    (setLtest d x s).split = s.split ∧ (setLtest d x s).rinlar = s.rinlar ∧ (setLtest d x s).heads = s.heads ∧ (setLtest d x s).ports = s.ports ∧
    (setLtest d x s).permits = s.permits ∧ (setLtest d x s).garnets = s.garnets ∧ (setLtest d x s).camPorts = s.camPorts ∧
    (setLtest d x s).streams = s.streams ∧ (setLtest d x s).captures = s.captures ∧ (setLtest d x s).warps = s.warps ∧
    (setLtest d x s).gpus = s.gpus ∧ (setLtest d x s).drams = s.drams ∧ (setLtest d x s).audio = s.audio ∧ (setLtest d x s).haptics = s.haptics ∧
    (setLtest d x s).touches = s.touches ∧ (setLtest d x s).checks = s.checks ∧ (setLtest d x s).powers = s.powers ∧
    (setLtest d x s).ebrums = s.ebrums ∧ (setLtest d x s).boots = s.boots ∧ (∀ a_, (setLtest d x s).rd a_ = s.rd a_) ∧
    (∀ a_ k_, (setLtest d x s).rdF a_ k_ = s.rdF a_ k_) ∧ (∀ a_ k_, (setLtest d x s).flag a_ k_ = s.flag a_ k_) ∧
    (∀ a_, (setLtest d x s).rd64 a_ = s.rd64 a_) ∧ (∀ d_, (setLtest d x s).now d_ = s.now d_) ∧ (∀ d_, (setLtest d x s).tbase d_ = s.tbase d_) ∧
    (∀ k_, (setLtest d x s).freeNat k_ = s.freeNat k_) ∧ (∀ q_, (setLtest d x s).ringAux q_ = s.ringAux q_) ∧
    (∀ f_, (setLtest d x s).fnAux f_ = s.fnAux f_) ∧ (∀ h_, (setLtest d x s).route h_ = s.route h_) ∧
    (∀ f_, (setLtest d x s).tenant f_ = s.tenant f_) ∧ (∀ h_, (setLtest d x s).head h_ = s.head h_) ∧ (∀ k_, (setLtest d x s).port k_ = s.port k_) ∧
    (∀ d_, (setLtest d x s).paceOf d_ = s.paceOf d_) ∧ (∀ d_ k_, (setLtest d x s).xing d_ k_ = s.xing d_ k_) ∧
    (∀ a_, (setLtest d x s).isl a_ = s.isl a_) ∧ (∀ d_, (setLtest d x s).permit d_ = s.permit d_) ∧ (∀ d_, (setLtest d x s).power d_ = s.power d_) ∧
    (∀ d_, (setLtest d x s).rin d_ = s.rin d_) ∧ (∀ d_, (setLtest d x s).boot d_ = s.boot d_) ∧ (∀ d_, (setLtest d x s).garnet d_ = s.garnet d_) ∧
    (∀ k_, (setLtest d x s).camPort k_ = s.camPort k_) ∧ (∀ p_ v_, (setLtest d x s).stream p_ v_ = s.stream p_ v_) ∧
    (∀ h_, (setLtest d x s).capture h_ = s.capture h_) ∧ (∀ d_, (setLtest d x s).warp d_ = s.warp d_) ∧ (∀ d_, (setLtest d x s).gpu d_ = s.gpu d_) ∧
    (∀ d_, (setLtest d x s).dram d_ = s.dram d_) ∧ (∀ h_, (setLtest d x s).aroute h_ = s.aroute h_) ∧ (∀ b_, (setLtest d x s).bus b_ = s.bus b_) ∧
    (∀ c_, (setLtest d x s).hap c_ = s.hap c_) ∧ (∀ d_, (setLtest d x s).touch d_ = s.touch d_) ∧
    (∀ d_ k_, (setLtest d x s).sensor d_ k_ = s.sensor d_ k_) ∧ (∀ d_, (setLtest d x s).check d_ = s.check d_) ∧
    (∀ d_, (setLtest d x s).ebrum d_ = s.ebrum d_) :=
  ⟨rfl, rfl, rfl, rfl, rfl, rfl, rfl, rfl, rfl, rfl, rfl, rfl, rfl, rfl, rfl, rfl, rfl, rfl, rfl, rfl, rfl, rfl, rfl, rfl, rfl, rfl, rfl, rfl, rfl,
   rfl, rfl, rfl, rfl, rfl, rfl, rfl, rfl, rfl, rfl, rfl, rfl, rfl, rfl, rfl, rfl, rfl, rfl, rfl, rfl, rfl, rfl, fun _ => rfl, fun _ _ => rfl,
   fun _ _ => rfl, fun _ => rfl, fun _ => rfl, fun _ => rfl, fun _ => rfl, fun _ => rfl, fun _ => rfl, fun _ => rfl, fun _ => rfl, fun _ => rfl,
   fun _ => rfl, fun _ => rfl, fun _ _ => rfl, fun _ => rfl, fun _ => rfl, fun _ => rfl, fun _ => rfl, fun _ => rfl, fun _ => rfl, fun _ => rfl,
   fun _ _ => rfl, fun _ => rfl, fun _ => rfl, fun _ => rfl, fun _ => rfl, fun _ => rfl, fun _ => rfl, fun _ => rfl, fun _ => rfl, fun _ _ => rfl,
   fun _ => rfl, fun _ => rfl⟩

@[simp] theorem setDram_keeps {d : Die} {x : Dram} {s : State} :
    (setDram d x s).part = s.part ∧ (setDram d x s).pending = s.pending ∧ (setDram d x s).mem = s.mem ∧ (setDram d x s).regs = s.regs ∧
    (setDram d x s).island = s.island ∧ (setDram d x s).staged = s.staged ∧ (setDram d x s).latched = s.latched ∧
    (setDram d x s).readData = s.readData ∧ (setDram d x s).timeA = s.timeA ∧ (setDram d x s).timeB = s.timeB ∧ (setDram d x s).tbases = s.tbases ∧
    (setDram d x s).free = s.free ∧ (setDram d x s).out = s.out ∧ (setDram d x s).nextTag = s.nextTag ∧ (setDram d x s).rings = s.rings ∧
    (setDram d x s).fns = s.fns ∧ (setDram d x s).owed = s.owed ∧ (setDram d x s).routes = s.routes ∧ (setDram d x s).tenants = s.tenants ∧
    (setDram d x s).tlb = s.tlb ∧ (setDram d x s).invs = s.invs ∧ (setDram d x s).poison = s.poison ∧ (setDram d x s).xings = s.xings ∧
    (setDram d x s).pace = s.pace ∧ (setDram d x s).votes = s.votes ∧ (setDram d x s).claims = s.claims ∧
    (setDram d x s).garnetClaims = s.garnetClaims ∧ (setDram d x s).outOfService = s.outOfService ∧ (setDram d x s).debug = s.debug ∧
    (setDram d x s).inReset = s.inReset ∧ (setDram d x s).porLow = s.porLow ∧ (setDram d x s).resetnHigh = s.resetnHigh ∧
    (setDram d x s).split = s.split ∧ (setDram d x s).rinlar = s.rinlar ∧ (setDram d x s).heads = s.heads ∧ (setDram d x s).ports = s.ports ∧
    (setDram d x s).permits = s.permits ∧ (setDram d x s).garnets = s.garnets ∧ (setDram d x s).camPorts = s.camPorts ∧
    (setDram d x s).streams = s.streams ∧ (setDram d x s).captures = s.captures ∧ (setDram d x s).warps = s.warps ∧ (setDram d x s).gpus = s.gpus ∧
    (setDram d x s).audio = s.audio ∧ (setDram d x s).haptics = s.haptics ∧ (setDram d x s).touches = s.touches ∧ (setDram d x s).checks = s.checks ∧
    (setDram d x s).powers = s.powers ∧ (setDram d x s).linkTests = s.linkTests ∧ (setDram d x s).ebrums = s.ebrums ∧
    (setDram d x s).boots = s.boots ∧ (∀ a_, (setDram d x s).rd a_ = s.rd a_) ∧ (∀ a_ k_, (setDram d x s).rdF a_ k_ = s.rdF a_ k_) ∧
    (∀ a_ k_, (setDram d x s).flag a_ k_ = s.flag a_ k_) ∧ (∀ a_, (setDram d x s).rd64 a_ = s.rd64 a_) ∧ (∀ d_, (setDram d x s).now d_ = s.now d_) ∧
    (∀ d_, (setDram d x s).tbase d_ = s.tbase d_) ∧ (∀ k_, (setDram d x s).freeNat k_ = s.freeNat k_) ∧
    (∀ q_, (setDram d x s).ringAux q_ = s.ringAux q_) ∧ (∀ f_, (setDram d x s).fnAux f_ = s.fnAux f_) ∧
    (∀ h_, (setDram d x s).route h_ = s.route h_) ∧ (∀ f_, (setDram d x s).tenant f_ = s.tenant f_) ∧ (∀ h_, (setDram d x s).head h_ = s.head h_) ∧
    (∀ k_, (setDram d x s).port k_ = s.port k_) ∧ (∀ d_, (setDram d x s).paceOf d_ = s.paceOf d_) ∧
    (∀ d_ k_, (setDram d x s).xing d_ k_ = s.xing d_ k_) ∧ (∀ a_, (setDram d x s).isl a_ = s.isl a_) ∧
    (∀ d_, (setDram d x s).permit d_ = s.permit d_) ∧ (∀ d_, (setDram d x s).power d_ = s.power d_) ∧ (∀ d_, (setDram d x s).rin d_ = s.rin d_) ∧
    (∀ d_, (setDram d x s).boot d_ = s.boot d_) ∧ (∀ d_, (setDram d x s).garnet d_ = s.garnet d_) ∧
    (∀ k_, (setDram d x s).camPort k_ = s.camPort k_) ∧ (∀ p_ v_, (setDram d x s).stream p_ v_ = s.stream p_ v_) ∧
    (∀ h_, (setDram d x s).capture h_ = s.capture h_) ∧ (∀ d_, (setDram d x s).warp d_ = s.warp d_) ∧ (∀ d_, (setDram d x s).gpu d_ = s.gpu d_) ∧
    (∀ h_, (setDram d x s).aroute h_ = s.aroute h_) ∧ (∀ b_, (setDram d x s).bus b_ = s.bus b_) ∧ (∀ c_, (setDram d x s).hap c_ = s.hap c_) ∧
    (∀ d_, (setDram d x s).touch d_ = s.touch d_) ∧ (∀ d_ k_, (setDram d x s).sensor d_ k_ = s.sensor d_ k_) ∧
    (∀ d_, (setDram d x s).check d_ = s.check d_) ∧ (∀ d_, (setDram d x s).ltest d_ = s.ltest d_) ∧ (∀ d_, (setDram d x s).ebrum d_ = s.ebrum d_) :=
  ⟨rfl, rfl, rfl, rfl, rfl, rfl, rfl, rfl, rfl, rfl, rfl, rfl, rfl, rfl, rfl, rfl, rfl, rfl, rfl, rfl, rfl, rfl, rfl, rfl, rfl, rfl, rfl, rfl, rfl,
   rfl, rfl, rfl, rfl, rfl, rfl, rfl, rfl, rfl, rfl, rfl, rfl, rfl, rfl, rfl, rfl, rfl, rfl, rfl, rfl, rfl, rfl, fun _ => rfl, fun _ _ => rfl,
   fun _ _ => rfl, fun _ => rfl, fun _ => rfl, fun _ => rfl, fun _ => rfl, fun _ => rfl, fun _ => rfl, fun _ => rfl, fun _ => rfl, fun _ => rfl,
   fun _ => rfl, fun _ => rfl, fun _ _ => rfl, fun _ => rfl, fun _ => rfl, fun _ => rfl, fun _ => rfl, fun _ => rfl, fun _ => rfl, fun _ => rfl,
   fun _ _ => rfl, fun _ => rfl, fun _ => rfl, fun _ => rfl, fun _ => rfl, fun _ => rfl, fun _ => rfl, fun _ => rfl, fun _ _ => rfl, fun _ => rfl,
   fun _ => rfl, fun _ => rfl⟩

@[simp] theorem setEbrum_keeps {d : Die} {x : Ebrum} {s : State} :
    (setEbrum d x s).part = s.part ∧ (setEbrum d x s).pending = s.pending ∧ (setEbrum d x s).mem = s.mem ∧ (setEbrum d x s).regs = s.regs ∧
    (setEbrum d x s).island = s.island ∧ (setEbrum d x s).staged = s.staged ∧ (setEbrum d x s).latched = s.latched ∧
    (setEbrum d x s).readData = s.readData ∧ (setEbrum d x s).timeA = s.timeA ∧ (setEbrum d x s).timeB = s.timeB ∧
    (setEbrum d x s).tbases = s.tbases ∧ (setEbrum d x s).free = s.free ∧ (setEbrum d x s).out = s.out ∧ (setEbrum d x s).nextTag = s.nextTag ∧
    (setEbrum d x s).rings = s.rings ∧ (setEbrum d x s).fns = s.fns ∧ (setEbrum d x s).owed = s.owed ∧ (setEbrum d x s).routes = s.routes ∧
    (setEbrum d x s).tenants = s.tenants ∧ (setEbrum d x s).tlb = s.tlb ∧ (setEbrum d x s).invs = s.invs ∧ (setEbrum d x s).poison = s.poison ∧
    (setEbrum d x s).xings = s.xings ∧ (setEbrum d x s).pace = s.pace ∧ (setEbrum d x s).votes = s.votes ∧ (setEbrum d x s).claims = s.claims ∧
    (setEbrum d x s).garnetClaims = s.garnetClaims ∧ (setEbrum d x s).outOfService = s.outOfService ∧ (setEbrum d x s).debug = s.debug ∧
    (setEbrum d x s).inReset = s.inReset ∧ (setEbrum d x s).porLow = s.porLow ∧ (setEbrum d x s).resetnHigh = s.resetnHigh ∧
    (setEbrum d x s).split = s.split ∧ (setEbrum d x s).rinlar = s.rinlar ∧ (setEbrum d x s).heads = s.heads ∧ (setEbrum d x s).ports = s.ports ∧
    (setEbrum d x s).permits = s.permits ∧ (setEbrum d x s).garnets = s.garnets ∧ (setEbrum d x s).camPorts = s.camPorts ∧
    (setEbrum d x s).streams = s.streams ∧ (setEbrum d x s).captures = s.captures ∧ (setEbrum d x s).warps = s.warps ∧
    (setEbrum d x s).gpus = s.gpus ∧ (setEbrum d x s).drams = s.drams ∧ (setEbrum d x s).audio = s.audio ∧ (setEbrum d x s).haptics = s.haptics ∧
    (setEbrum d x s).touches = s.touches ∧ (setEbrum d x s).checks = s.checks ∧ (setEbrum d x s).powers = s.powers ∧
    (setEbrum d x s).linkTests = s.linkTests ∧ (setEbrum d x s).boots = s.boots ∧ (∀ a_, (setEbrum d x s).rd a_ = s.rd a_) ∧
    (∀ a_ k_, (setEbrum d x s).rdF a_ k_ = s.rdF a_ k_) ∧ (∀ a_ k_, (setEbrum d x s).flag a_ k_ = s.flag a_ k_) ∧
    (∀ a_, (setEbrum d x s).rd64 a_ = s.rd64 a_) ∧ (∀ d_, (setEbrum d x s).now d_ = s.now d_) ∧ (∀ d_, (setEbrum d x s).tbase d_ = s.tbase d_) ∧
    (∀ k_, (setEbrum d x s).freeNat k_ = s.freeNat k_) ∧ (∀ q_, (setEbrum d x s).ringAux q_ = s.ringAux q_) ∧
    (∀ f_, (setEbrum d x s).fnAux f_ = s.fnAux f_) ∧ (∀ h_, (setEbrum d x s).route h_ = s.route h_) ∧
    (∀ f_, (setEbrum d x s).tenant f_ = s.tenant f_) ∧ (∀ h_, (setEbrum d x s).head h_ = s.head h_) ∧ (∀ k_, (setEbrum d x s).port k_ = s.port k_) ∧
    (∀ d_, (setEbrum d x s).paceOf d_ = s.paceOf d_) ∧ (∀ d_ k_, (setEbrum d x s).xing d_ k_ = s.xing d_ k_) ∧
    (∀ a_, (setEbrum d x s).isl a_ = s.isl a_) ∧ (∀ d_, (setEbrum d x s).permit d_ = s.permit d_) ∧ (∀ d_, (setEbrum d x s).power d_ = s.power d_) ∧
    (∀ d_, (setEbrum d x s).rin d_ = s.rin d_) ∧ (∀ d_, (setEbrum d x s).boot d_ = s.boot d_) ∧ (∀ d_, (setEbrum d x s).garnet d_ = s.garnet d_) ∧
    (∀ k_, (setEbrum d x s).camPort k_ = s.camPort k_) ∧ (∀ p_ v_, (setEbrum d x s).stream p_ v_ = s.stream p_ v_) ∧
    (∀ h_, (setEbrum d x s).capture h_ = s.capture h_) ∧ (∀ d_, (setEbrum d x s).warp d_ = s.warp d_) ∧ (∀ d_, (setEbrum d x s).gpu d_ = s.gpu d_) ∧
    (∀ d_, (setEbrum d x s).dram d_ = s.dram d_) ∧ (∀ h_, (setEbrum d x s).aroute h_ = s.aroute h_) ∧ (∀ b_, (setEbrum d x s).bus b_ = s.bus b_) ∧
    (∀ c_, (setEbrum d x s).hap c_ = s.hap c_) ∧ (∀ d_, (setEbrum d x s).touch d_ = s.touch d_) ∧
    (∀ d_ k_, (setEbrum d x s).sensor d_ k_ = s.sensor d_ k_) ∧ (∀ d_, (setEbrum d x s).check d_ = s.check d_) ∧
    (∀ d_, (setEbrum d x s).ltest d_ = s.ltest d_) :=
  ⟨rfl, rfl, rfl, rfl, rfl, rfl, rfl, rfl, rfl, rfl, rfl, rfl, rfl, rfl, rfl, rfl, rfl, rfl, rfl, rfl, rfl, rfl, rfl, rfl, rfl, rfl, rfl, rfl, rfl,
   rfl, rfl, rfl, rfl, rfl, rfl, rfl, rfl, rfl, rfl, rfl, rfl, rfl, rfl, rfl, rfl, rfl, rfl, rfl, rfl, rfl, rfl, fun _ => rfl, fun _ _ => rfl,
   fun _ _ => rfl, fun _ => rfl, fun _ => rfl, fun _ => rfl, fun _ => rfl, fun _ => rfl, fun _ => rfl, fun _ => rfl, fun _ => rfl, fun _ => rfl,
   fun _ => rfl, fun _ => rfl, fun _ _ => rfl, fun _ => rfl, fun _ => rfl, fun _ => rfl, fun _ => rfl, fun _ => rfl, fun _ => rfl, fun _ => rfl,
   fun _ _ => rfl, fun _ => rfl, fun _ => rfl, fun _ => rfl, fun _ => rfl, fun _ => rfl, fun _ => rfl, fun _ => rfl, fun _ => rfl, fun _ _ => rfl,
   fun _ => rfl, fun _ => rfl⟩

@[simp] theorem owe_keeps {t : Ticket} {s : State} :
    (owe t s).part = s.part ∧ (owe t s).pending = s.pending ∧ (owe t s).mem = s.mem ∧ (owe t s).regs = s.regs ∧ (owe t s).island = s.island ∧
    (owe t s).staged = s.staged ∧ (owe t s).latched = s.latched ∧ (owe t s).readData = s.readData ∧ (owe t s).timeA = s.timeA ∧
    (owe t s).timeB = s.timeB ∧ (owe t s).tbases = s.tbases ∧ (owe t s).free = s.free ∧ (owe t s).out = s.out ∧ (owe t s).nextTag = s.nextTag ∧
    (owe t s).rings = s.rings ∧ (owe t s).fns = s.fns ∧ (owe t s).routes = s.routes ∧ (owe t s).tenants = s.tenants ∧ (owe t s).tlb = s.tlb ∧
    (owe t s).invs = s.invs ∧ (owe t s).poison = s.poison ∧ (owe t s).xings = s.xings ∧ (owe t s).pace = s.pace ∧ (owe t s).votes = s.votes ∧
    (owe t s).claims = s.claims ∧ (owe t s).garnetClaims = s.garnetClaims ∧ (owe t s).outOfService = s.outOfService ∧ (owe t s).debug = s.debug ∧
    (owe t s).inReset = s.inReset ∧ (owe t s).porLow = s.porLow ∧ (owe t s).resetnHigh = s.resetnHigh ∧ (owe t s).split = s.split ∧
    (owe t s).rinlar = s.rinlar ∧ (owe t s).heads = s.heads ∧ (owe t s).ports = s.ports ∧ (owe t s).permits = s.permits ∧
    (owe t s).garnets = s.garnets ∧ (owe t s).camPorts = s.camPorts ∧ (owe t s).streams = s.streams ∧ (owe t s).captures = s.captures ∧
    (owe t s).warps = s.warps ∧ (owe t s).gpus = s.gpus ∧ (owe t s).drams = s.drams ∧ (owe t s).audio = s.audio ∧ (owe t s).haptics = s.haptics ∧
    (owe t s).touches = s.touches ∧ (owe t s).checks = s.checks ∧ (owe t s).powers = s.powers ∧ (owe t s).linkTests = s.linkTests ∧
    (owe t s).ebrums = s.ebrums ∧ (owe t s).boots = s.boots ∧ (∀ a_, (owe t s).rd a_ = s.rd a_) ∧ (∀ a_ k_, (owe t s).rdF a_ k_ = s.rdF a_ k_) ∧
    (∀ a_ k_, (owe t s).flag a_ k_ = s.flag a_ k_) ∧ (∀ a_, (owe t s).rd64 a_ = s.rd64 a_) ∧ (∀ d_, (owe t s).now d_ = s.now d_) ∧
    (∀ d_, (owe t s).tbase d_ = s.tbase d_) ∧ (∀ k_, (owe t s).freeNat k_ = s.freeNat k_) ∧ (∀ q_, (owe t s).ringAux q_ = s.ringAux q_) ∧
    (∀ f_, (owe t s).fnAux f_ = s.fnAux f_) ∧ (∀ h_, (owe t s).route h_ = s.route h_) ∧ (∀ f_, (owe t s).tenant f_ = s.tenant f_) ∧
    (∀ h_, (owe t s).head h_ = s.head h_) ∧ (∀ k_, (owe t s).port k_ = s.port k_) ∧ (∀ d_, (owe t s).paceOf d_ = s.paceOf d_) ∧
    (∀ d_ k_, (owe t s).xing d_ k_ = s.xing d_ k_) ∧ (∀ a_, (owe t s).isl a_ = s.isl a_) ∧ (∀ d_, (owe t s).permit d_ = s.permit d_) ∧
    (∀ d_, (owe t s).power d_ = s.power d_) ∧ (∀ d_, (owe t s).rin d_ = s.rin d_) ∧ (∀ d_, (owe t s).boot d_ = s.boot d_) ∧
    (∀ d_, (owe t s).garnet d_ = s.garnet d_) ∧ (∀ k_, (owe t s).camPort k_ = s.camPort k_) ∧ (∀ p_ v_, (owe t s).stream p_ v_ = s.stream p_ v_) ∧
    (∀ h_, (owe t s).capture h_ = s.capture h_) ∧ (∀ d_, (owe t s).warp d_ = s.warp d_) ∧ (∀ d_, (owe t s).gpu d_ = s.gpu d_) ∧
    (∀ d_, (owe t s).dram d_ = s.dram d_) ∧ (∀ h_, (owe t s).aroute h_ = s.aroute h_) ∧ (∀ b_, (owe t s).bus b_ = s.bus b_) ∧
    (∀ c_, (owe t s).hap c_ = s.hap c_) ∧ (∀ d_, (owe t s).touch d_ = s.touch d_) ∧ (∀ d_ k_, (owe t s).sensor d_ k_ = s.sensor d_ k_) ∧
    (∀ d_, (owe t s).check d_ = s.check d_) ∧ (∀ d_, (owe t s).ltest d_ = s.ltest d_) ∧ (∀ d_, (owe t s).ebrum d_ = s.ebrum d_) :=
  ⟨rfl, rfl, rfl, rfl, rfl, rfl, rfl, rfl, rfl, rfl, rfl, rfl, rfl, rfl, rfl, rfl, rfl, rfl, rfl, rfl, rfl, rfl, rfl, rfl, rfl, rfl, rfl, rfl, rfl,
   rfl, rfl, rfl, rfl, rfl, rfl, rfl, rfl, rfl, rfl, rfl, rfl, rfl, rfl, rfl, rfl, rfl, rfl, rfl, rfl, rfl, rfl, fun _ => rfl, fun _ _ => rfl,
   fun _ _ => rfl, fun _ => rfl, fun _ => rfl, fun _ => rfl, fun _ => rfl, fun _ => rfl, fun _ => rfl, fun _ => rfl, fun _ => rfl, fun _ => rfl,
   fun _ => rfl, fun _ => rfl, fun _ _ => rfl, fun _ => rfl, fun _ => rfl, fun _ => rfl, fun _ => rfl, fun _ => rfl, fun _ => rfl, fun _ => rfl,
   fun _ _ => rfl, fun _ => rfl, fun _ => rfl, fun _ => rfl, fun _ => rfl, fun _ => rfl, fun _ => rfl, fun _ => rfl, fun _ => rfl, fun _ _ => rfl,
   fun _ => rfl, fun _ => rfl, fun _ => rfl⟩

@[simp] theorem unowe_keeps {t : Ticket} {s : State} :
    (unowe t s).part = s.part ∧ (unowe t s).pending = s.pending ∧ (unowe t s).mem = s.mem ∧ (unowe t s).regs = s.regs ∧
    (unowe t s).island = s.island ∧ (unowe t s).staged = s.staged ∧ (unowe t s).latched = s.latched ∧ (unowe t s).readData = s.readData ∧
    (unowe t s).timeA = s.timeA ∧ (unowe t s).timeB = s.timeB ∧ (unowe t s).tbases = s.tbases ∧ (unowe t s).free = s.free ∧ (unowe t s).out = s.out ∧
    (unowe t s).nextTag = s.nextTag ∧ (unowe t s).rings = s.rings ∧ (unowe t s).fns = s.fns ∧ (unowe t s).routes = s.routes ∧
    (unowe t s).tenants = s.tenants ∧ (unowe t s).tlb = s.tlb ∧ (unowe t s).invs = s.invs ∧ (unowe t s).poison = s.poison ∧
    (unowe t s).xings = s.xings ∧ (unowe t s).pace = s.pace ∧ (unowe t s).votes = s.votes ∧ (unowe t s).claims = s.claims ∧
    (unowe t s).garnetClaims = s.garnetClaims ∧ (unowe t s).outOfService = s.outOfService ∧ (unowe t s).debug = s.debug ∧
    (unowe t s).inReset = s.inReset ∧ (unowe t s).porLow = s.porLow ∧ (unowe t s).resetnHigh = s.resetnHigh ∧ (unowe t s).split = s.split ∧
    (unowe t s).rinlar = s.rinlar ∧ (unowe t s).heads = s.heads ∧ (unowe t s).ports = s.ports ∧ (unowe t s).permits = s.permits ∧
    (unowe t s).garnets = s.garnets ∧ (unowe t s).camPorts = s.camPorts ∧ (unowe t s).streams = s.streams ∧ (unowe t s).captures = s.captures ∧
    (unowe t s).warps = s.warps ∧ (unowe t s).gpus = s.gpus ∧ (unowe t s).drams = s.drams ∧ (unowe t s).audio = s.audio ∧
    (unowe t s).haptics = s.haptics ∧ (unowe t s).touches = s.touches ∧ (unowe t s).checks = s.checks ∧ (unowe t s).powers = s.powers ∧
    (unowe t s).linkTests = s.linkTests ∧ (unowe t s).ebrums = s.ebrums ∧ (unowe t s).boots = s.boots ∧ (∀ a_, (unowe t s).rd a_ = s.rd a_) ∧
    (∀ a_ k_, (unowe t s).rdF a_ k_ = s.rdF a_ k_) ∧ (∀ a_ k_, (unowe t s).flag a_ k_ = s.flag a_ k_) ∧ (∀ a_, (unowe t s).rd64 a_ = s.rd64 a_) ∧
    (∀ d_, (unowe t s).now d_ = s.now d_) ∧ (∀ d_, (unowe t s).tbase d_ = s.tbase d_) ∧ (∀ k_, (unowe t s).freeNat k_ = s.freeNat k_) ∧
    (∀ q_, (unowe t s).ringAux q_ = s.ringAux q_) ∧ (∀ f_, (unowe t s).fnAux f_ = s.fnAux f_) ∧ (∀ h_, (unowe t s).route h_ = s.route h_) ∧
    (∀ f_, (unowe t s).tenant f_ = s.tenant f_) ∧ (∀ h_, (unowe t s).head h_ = s.head h_) ∧ (∀ k_, (unowe t s).port k_ = s.port k_) ∧
    (∀ d_, (unowe t s).paceOf d_ = s.paceOf d_) ∧ (∀ d_ k_, (unowe t s).xing d_ k_ = s.xing d_ k_) ∧ (∀ a_, (unowe t s).isl a_ = s.isl a_) ∧
    (∀ d_, (unowe t s).permit d_ = s.permit d_) ∧ (∀ d_, (unowe t s).power d_ = s.power d_) ∧ (∀ d_, (unowe t s).rin d_ = s.rin d_) ∧
    (∀ d_, (unowe t s).boot d_ = s.boot d_) ∧ (∀ d_, (unowe t s).garnet d_ = s.garnet d_) ∧ (∀ k_, (unowe t s).camPort k_ = s.camPort k_) ∧
    (∀ p_ v_, (unowe t s).stream p_ v_ = s.stream p_ v_) ∧ (∀ h_, (unowe t s).capture h_ = s.capture h_) ∧ (∀ d_, (unowe t s).warp d_ = s.warp d_) ∧
    (∀ d_, (unowe t s).gpu d_ = s.gpu d_) ∧ (∀ d_, (unowe t s).dram d_ = s.dram d_) ∧ (∀ h_, (unowe t s).aroute h_ = s.aroute h_) ∧
    (∀ b_, (unowe t s).bus b_ = s.bus b_) ∧ (∀ c_, (unowe t s).hap c_ = s.hap c_) ∧ (∀ d_, (unowe t s).touch d_ = s.touch d_) ∧
    (∀ d_ k_, (unowe t s).sensor d_ k_ = s.sensor d_ k_) ∧ (∀ d_, (unowe t s).check d_ = s.check d_) ∧ (∀ d_, (unowe t s).ltest d_ = s.ltest d_) ∧
    (∀ d_, (unowe t s).ebrum d_ = s.ebrum d_) :=
  ⟨rfl, rfl, rfl, rfl, rfl, rfl, rfl, rfl, rfl, rfl, rfl, rfl, rfl, rfl, rfl, rfl, rfl, rfl, rfl, rfl, rfl, rfl, rfl, rfl, rfl, rfl, rfl, rfl, rfl,
   rfl, rfl, rfl, rfl, rfl, rfl, rfl, rfl, rfl, rfl, rfl, rfl, rfl, rfl, rfl, rfl, rfl, rfl, rfl, rfl, rfl, rfl, fun _ => rfl, fun _ _ => rfl,
   fun _ _ => rfl, fun _ => rfl, fun _ => rfl, fun _ => rfl, fun _ => rfl, fun _ => rfl, fun _ => rfl, fun _ => rfl, fun _ => rfl, fun _ => rfl,
   fun _ => rfl, fun _ => rfl, fun _ _ => rfl, fun _ => rfl, fun _ => rfl, fun _ => rfl, fun _ => rfl, fun _ => rfl, fun _ => rfl, fun _ => rfl,
   fun _ _ => rfl, fun _ => rfl, fun _ => rfl, fun _ => rfl, fun _ => rfl, fun _ => rfl, fun _ => rfl, fun _ => rfl, fun _ => rfl, fun _ _ => rfl,
   fun _ => rfl, fun _ => rfl, fun _ => rfl⟩

@[simp] theorem fresh_keeps  {s : State} :
    (fresh  s).part = s.part ∧ (fresh  s).pending = s.pending ∧ (fresh  s).mem = s.mem ∧ (fresh  s).regs = s.regs ∧ (fresh  s).island = s.island ∧
    (fresh  s).staged = s.staged ∧ (fresh  s).latched = s.latched ∧ (fresh  s).readData = s.readData ∧ (fresh  s).timeA = s.timeA ∧
    (fresh  s).timeB = s.timeB ∧ (fresh  s).tbases = s.tbases ∧ (fresh  s).free = s.free ∧ (fresh  s).nextTag = s.nextTag ∧
    (fresh  s).rings = s.rings ∧ (fresh  s).fns = s.fns ∧ (fresh  s).owed = s.owed ∧ (fresh  s).routes = s.routes ∧ (fresh  s).tenants = s.tenants ∧
    (fresh  s).tlb = s.tlb ∧ (fresh  s).invs = s.invs ∧ (fresh  s).poison = s.poison ∧ (fresh  s).xings = s.xings ∧ (fresh  s).pace = s.pace ∧
    (fresh  s).votes = s.votes ∧ (fresh  s).claims = s.claims ∧ (fresh  s).garnetClaims = s.garnetClaims ∧ (fresh  s).outOfService = s.outOfService ∧
    (fresh  s).debug = s.debug ∧ (fresh  s).inReset = s.inReset ∧ (fresh  s).porLow = s.porLow ∧ (fresh  s).resetnHigh = s.resetnHigh ∧
    (fresh  s).split = s.split ∧ (fresh  s).rinlar = s.rinlar ∧ (fresh  s).heads = s.heads ∧ (fresh  s).ports = s.ports ∧
    (fresh  s).permits = s.permits ∧ (fresh  s).garnets = s.garnets ∧ (fresh  s).camPorts = s.camPorts ∧ (fresh  s).streams = s.streams ∧
    (fresh  s).captures = s.captures ∧ (fresh  s).warps = s.warps ∧ (fresh  s).gpus = s.gpus ∧ (fresh  s).drams = s.drams ∧
    (fresh  s).audio = s.audio ∧ (fresh  s).haptics = s.haptics ∧ (fresh  s).touches = s.touches ∧ (fresh  s).checks = s.checks ∧
    (fresh  s).powers = s.powers ∧ (fresh  s).linkTests = s.linkTests ∧ (fresh  s).ebrums = s.ebrums ∧ (fresh  s).boots = s.boots ∧
    (∀ a_, (fresh  s).rd a_ = s.rd a_) ∧ (∀ a_ k_, (fresh  s).rdF a_ k_ = s.rdF a_ k_) ∧ (∀ a_ k_, (fresh  s).flag a_ k_ = s.flag a_ k_) ∧
    (∀ a_, (fresh  s).rd64 a_ = s.rd64 a_) ∧ (∀ d_, (fresh  s).now d_ = s.now d_) ∧ (∀ d_, (fresh  s).tbase d_ = s.tbase d_) ∧
    (∀ k_, (fresh  s).freeNat k_ = s.freeNat k_) ∧ (∀ q_, (fresh  s).ringAux q_ = s.ringAux q_) ∧ (∀ f_, (fresh  s).fnAux f_ = s.fnAux f_) ∧
    (∀ h_, (fresh  s).route h_ = s.route h_) ∧ (∀ f_, (fresh  s).tenant f_ = s.tenant f_) ∧ (∀ h_, (fresh  s).head h_ = s.head h_) ∧
    (∀ k_, (fresh  s).port k_ = s.port k_) ∧ (∀ d_, (fresh  s).paceOf d_ = s.paceOf d_) ∧ (∀ d_ k_, (fresh  s).xing d_ k_ = s.xing d_ k_) ∧
    (∀ a_, (fresh  s).isl a_ = s.isl a_) ∧ (∀ d_, (fresh  s).permit d_ = s.permit d_) ∧ (∀ d_, (fresh  s).power d_ = s.power d_) ∧
    (∀ d_, (fresh  s).rin d_ = s.rin d_) ∧ (∀ d_, (fresh  s).boot d_ = s.boot d_) ∧ (∀ d_, (fresh  s).garnet d_ = s.garnet d_) ∧
    (∀ k_, (fresh  s).camPort k_ = s.camPort k_) ∧ (∀ p_ v_, (fresh  s).stream p_ v_ = s.stream p_ v_) ∧
    (∀ h_, (fresh  s).capture h_ = s.capture h_) ∧ (∀ d_, (fresh  s).warp d_ = s.warp d_) ∧ (∀ d_, (fresh  s).gpu d_ = s.gpu d_) ∧
    (∀ d_, (fresh  s).dram d_ = s.dram d_) ∧ (∀ h_, (fresh  s).aroute h_ = s.aroute h_) ∧ (∀ b_, (fresh  s).bus b_ = s.bus b_) ∧
    (∀ c_, (fresh  s).hap c_ = s.hap c_) ∧ (∀ d_, (fresh  s).touch d_ = s.touch d_) ∧ (∀ d_ k_, (fresh  s).sensor d_ k_ = s.sensor d_ k_) ∧
    (∀ d_, (fresh  s).check d_ = s.check d_) ∧ (∀ d_, (fresh  s).ltest d_ = s.ltest d_) ∧ (∀ d_, (fresh  s).ebrum d_ = s.ebrum d_) :=
  ⟨rfl, rfl, rfl, rfl, rfl, rfl, rfl, rfl, rfl, rfl, rfl, rfl, rfl, rfl, rfl, rfl, rfl, rfl, rfl, rfl, rfl, rfl, rfl, rfl, rfl, rfl, rfl, rfl, rfl,
   rfl, rfl, rfl, rfl, rfl, rfl, rfl, rfl, rfl, rfl, rfl, rfl, rfl, rfl, rfl, rfl, rfl, rfl, rfl, rfl, rfl, rfl, fun _ => rfl, fun _ _ => rfl,
   fun _ _ => rfl, fun _ => rfl, fun _ => rfl, fun _ => rfl, fun _ => rfl, fun _ => rfl, fun _ => rfl, fun _ => rfl, fun _ => rfl, fun _ => rfl,
   fun _ => rfl, fun _ => rfl, fun _ _ => rfl, fun _ => rfl, fun _ => rfl, fun _ => rfl, fun _ => rfl, fun _ => rfl, fun _ => rfl, fun _ => rfl,
   fun _ _ => rfl, fun _ => rfl, fun _ => rfl, fun _ => rfl, fun _ => rfl, fun _ => rfl, fun _ => rfl, fun _ => rfl, fun _ => rfl, fun _ _ => rfl,
   fun _ => rfl, fun _ => rfl, fun _ => rfl⟩

@[simp] theorem setRing_keeps {q : RingId} {r : RingAux} {s : State} :
    (setRing q r s).part = s.part ∧ (setRing q r s).pending = s.pending ∧ (setRing q r s).mem = s.mem ∧ (setRing q r s).regs = s.regs ∧
    (setRing q r s).island = s.island ∧ (setRing q r s).staged = s.staged ∧ (setRing q r s).latched = s.latched ∧
    (setRing q r s).readData = s.readData ∧ (setRing q r s).timeA = s.timeA ∧ (setRing q r s).timeB = s.timeB ∧ (setRing q r s).tbases = s.tbases ∧
    (setRing q r s).free = s.free ∧ (setRing q r s).out = s.out ∧ (setRing q r s).nextTag = s.nextTag ∧ (setRing q r s).fns = s.fns ∧
    (setRing q r s).owed = s.owed ∧ (setRing q r s).routes = s.routes ∧ (setRing q r s).tenants = s.tenants ∧ (setRing q r s).tlb = s.tlb ∧
    (setRing q r s).invs = s.invs ∧ (setRing q r s).poison = s.poison ∧ (setRing q r s).xings = s.xings ∧ (setRing q r s).pace = s.pace ∧
    (setRing q r s).votes = s.votes ∧ (setRing q r s).claims = s.claims ∧ (setRing q r s).garnetClaims = s.garnetClaims ∧
    (setRing q r s).outOfService = s.outOfService ∧ (setRing q r s).debug = s.debug ∧ (setRing q r s).inReset = s.inReset ∧
    (setRing q r s).porLow = s.porLow ∧ (setRing q r s).resetnHigh = s.resetnHigh ∧ (setRing q r s).split = s.split ∧
    (setRing q r s).rinlar = s.rinlar ∧ (setRing q r s).heads = s.heads ∧ (setRing q r s).ports = s.ports ∧ (setRing q r s).permits = s.permits ∧
    (setRing q r s).garnets = s.garnets ∧ (setRing q r s).camPorts = s.camPorts ∧ (setRing q r s).streams = s.streams ∧
    (setRing q r s).captures = s.captures ∧ (setRing q r s).warps = s.warps ∧ (setRing q r s).gpus = s.gpus ∧ (setRing q r s).drams = s.drams ∧
    (setRing q r s).audio = s.audio ∧ (setRing q r s).haptics = s.haptics ∧ (setRing q r s).touches = s.touches ∧ (setRing q r s).checks = s.checks ∧
    (setRing q r s).powers = s.powers ∧ (setRing q r s).linkTests = s.linkTests ∧ (setRing q r s).ebrums = s.ebrums ∧
    (setRing q r s).boots = s.boots ∧ (∀ a_, (setRing q r s).rd a_ = s.rd a_) ∧ (∀ a_ k_, (setRing q r s).rdF a_ k_ = s.rdF a_ k_) ∧
    (∀ a_ k_, (setRing q r s).flag a_ k_ = s.flag a_ k_) ∧ (∀ a_, (setRing q r s).rd64 a_ = s.rd64 a_) ∧ (∀ d_, (setRing q r s).now d_ = s.now d_) ∧
    (∀ d_, (setRing q r s).tbase d_ = s.tbase d_) ∧ (∀ k_, (setRing q r s).freeNat k_ = s.freeNat k_) ∧
    (∀ f_, (setRing q r s).fnAux f_ = s.fnAux f_) ∧ (∀ h_, (setRing q r s).route h_ = s.route h_) ∧ (∀ f_, (setRing q r s).tenant f_ = s.tenant f_) ∧
    (∀ h_, (setRing q r s).head h_ = s.head h_) ∧ (∀ k_, (setRing q r s).port k_ = s.port k_) ∧ (∀ d_, (setRing q r s).paceOf d_ = s.paceOf d_) ∧
    (∀ d_ k_, (setRing q r s).xing d_ k_ = s.xing d_ k_) ∧ (∀ a_, (setRing q r s).isl a_ = s.isl a_) ∧
    (∀ d_, (setRing q r s).permit d_ = s.permit d_) ∧ (∀ d_, (setRing q r s).power d_ = s.power d_) ∧ (∀ d_, (setRing q r s).rin d_ = s.rin d_) ∧
    (∀ d_, (setRing q r s).boot d_ = s.boot d_) ∧ (∀ d_, (setRing q r s).garnet d_ = s.garnet d_) ∧
    (∀ k_, (setRing q r s).camPort k_ = s.camPort k_) ∧ (∀ p_ v_, (setRing q r s).stream p_ v_ = s.stream p_ v_) ∧
    (∀ h_, (setRing q r s).capture h_ = s.capture h_) ∧ (∀ d_, (setRing q r s).warp d_ = s.warp d_) ∧ (∀ d_, (setRing q r s).gpu d_ = s.gpu d_) ∧
    (∀ d_, (setRing q r s).dram d_ = s.dram d_) ∧ (∀ h_, (setRing q r s).aroute h_ = s.aroute h_) ∧ (∀ b_, (setRing q r s).bus b_ = s.bus b_) ∧
    (∀ c_, (setRing q r s).hap c_ = s.hap c_) ∧ (∀ d_, (setRing q r s).touch d_ = s.touch d_) ∧
    (∀ d_ k_, (setRing q r s).sensor d_ k_ = s.sensor d_ k_) ∧ (∀ d_, (setRing q r s).check d_ = s.check d_) ∧
    (∀ d_, (setRing q r s).ltest d_ = s.ltest d_) ∧ (∀ d_, (setRing q r s).ebrum d_ = s.ebrum d_) :=
  ⟨rfl, rfl, rfl, rfl, rfl, rfl, rfl, rfl, rfl, rfl, rfl, rfl, rfl, rfl, rfl, rfl, rfl, rfl, rfl, rfl, rfl, rfl, rfl, rfl, rfl, rfl, rfl, rfl, rfl,
   rfl, rfl, rfl, rfl, rfl, rfl, rfl, rfl, rfl, rfl, rfl, rfl, rfl, rfl, rfl, rfl, rfl, rfl, rfl, rfl, rfl, rfl, fun _ => rfl, fun _ _ => rfl,
   fun _ _ => rfl, fun _ => rfl, fun _ => rfl, fun _ => rfl, fun _ => rfl, fun _ => rfl, fun _ => rfl, fun _ => rfl, fun _ => rfl, fun _ => rfl,
   fun _ => rfl, fun _ _ => rfl, fun _ => rfl, fun _ => rfl, fun _ => rfl, fun _ => rfl, fun _ => rfl, fun _ => rfl, fun _ => rfl, fun _ _ => rfl,
   fun _ => rfl, fun _ => rfl, fun _ => rfl, fun _ => rfl, fun _ => rfl, fun _ => rfl, fun _ => rfl, fun _ => rfl, fun _ _ => rfl, fun _ => rfl,
   fun _ => rfl, fun _ => rfl⟩

@[simp] theorem setFn_keeps {f : Fun} {x : FnAux} {s : State} :
    (setFn f x s).part = s.part ∧ (setFn f x s).pending = s.pending ∧ (setFn f x s).mem = s.mem ∧ (setFn f x s).regs = s.regs ∧
    (setFn f x s).island = s.island ∧ (setFn f x s).staged = s.staged ∧ (setFn f x s).latched = s.latched ∧ (setFn f x s).readData = s.readData ∧
    (setFn f x s).timeA = s.timeA ∧ (setFn f x s).timeB = s.timeB ∧ (setFn f x s).tbases = s.tbases ∧ (setFn f x s).free = s.free ∧
    (setFn f x s).out = s.out ∧ (setFn f x s).nextTag = s.nextTag ∧ (setFn f x s).rings = s.rings ∧ (setFn f x s).owed = s.owed ∧
    (setFn f x s).routes = s.routes ∧ (setFn f x s).tenants = s.tenants ∧ (setFn f x s).tlb = s.tlb ∧ (setFn f x s).invs = s.invs ∧
    (setFn f x s).poison = s.poison ∧ (setFn f x s).xings = s.xings ∧ (setFn f x s).pace = s.pace ∧ (setFn f x s).votes = s.votes ∧
    (setFn f x s).claims = s.claims ∧ (setFn f x s).garnetClaims = s.garnetClaims ∧ (setFn f x s).outOfService = s.outOfService ∧
    (setFn f x s).debug = s.debug ∧ (setFn f x s).inReset = s.inReset ∧ (setFn f x s).porLow = s.porLow ∧ (setFn f x s).resetnHigh = s.resetnHigh ∧
    (setFn f x s).split = s.split ∧ (setFn f x s).rinlar = s.rinlar ∧ (setFn f x s).heads = s.heads ∧ (setFn f x s).ports = s.ports ∧
    (setFn f x s).permits = s.permits ∧ (setFn f x s).garnets = s.garnets ∧ (setFn f x s).camPorts = s.camPorts ∧ (setFn f x s).streams = s.streams ∧
    (setFn f x s).captures = s.captures ∧ (setFn f x s).warps = s.warps ∧ (setFn f x s).gpus = s.gpus ∧ (setFn f x s).drams = s.drams ∧
    (setFn f x s).audio = s.audio ∧ (setFn f x s).haptics = s.haptics ∧ (setFn f x s).touches = s.touches ∧ (setFn f x s).checks = s.checks ∧
    (setFn f x s).powers = s.powers ∧ (setFn f x s).linkTests = s.linkTests ∧ (setFn f x s).ebrums = s.ebrums ∧ (setFn f x s).boots = s.boots ∧
    (∀ a_, (setFn f x s).rd a_ = s.rd a_) ∧ (∀ a_ k_, (setFn f x s).rdF a_ k_ = s.rdF a_ k_) ∧ (∀ a_ k_, (setFn f x s).flag a_ k_ = s.flag a_ k_) ∧
    (∀ a_, (setFn f x s).rd64 a_ = s.rd64 a_) ∧ (∀ d_, (setFn f x s).now d_ = s.now d_) ∧ (∀ d_, (setFn f x s).tbase d_ = s.tbase d_) ∧
    (∀ k_, (setFn f x s).freeNat k_ = s.freeNat k_) ∧ (∀ q_, (setFn f x s).ringAux q_ = s.ringAux q_) ∧ (∀ h_, (setFn f x s).route h_ = s.route h_) ∧
    (∀ f_, (setFn f x s).tenant f_ = s.tenant f_) ∧ (∀ h_, (setFn f x s).head h_ = s.head h_) ∧ (∀ k_, (setFn f x s).port k_ = s.port k_) ∧
    (∀ d_, (setFn f x s).paceOf d_ = s.paceOf d_) ∧ (∀ d_ k_, (setFn f x s).xing d_ k_ = s.xing d_ k_) ∧ (∀ a_, (setFn f x s).isl a_ = s.isl a_) ∧
    (∀ d_, (setFn f x s).permit d_ = s.permit d_) ∧ (∀ d_, (setFn f x s).power d_ = s.power d_) ∧ (∀ d_, (setFn f x s).rin d_ = s.rin d_) ∧
    (∀ d_, (setFn f x s).boot d_ = s.boot d_) ∧ (∀ d_, (setFn f x s).garnet d_ = s.garnet d_) ∧ (∀ k_, (setFn f x s).camPort k_ = s.camPort k_) ∧
    (∀ p_ v_, (setFn f x s).stream p_ v_ = s.stream p_ v_) ∧ (∀ h_, (setFn f x s).capture h_ = s.capture h_) ∧
    (∀ d_, (setFn f x s).warp d_ = s.warp d_) ∧ (∀ d_, (setFn f x s).gpu d_ = s.gpu d_) ∧ (∀ d_, (setFn f x s).dram d_ = s.dram d_) ∧
    (∀ h_, (setFn f x s).aroute h_ = s.aroute h_) ∧ (∀ b_, (setFn f x s).bus b_ = s.bus b_) ∧ (∀ c_, (setFn f x s).hap c_ = s.hap c_) ∧
    (∀ d_, (setFn f x s).touch d_ = s.touch d_) ∧ (∀ d_ k_, (setFn f x s).sensor d_ k_ = s.sensor d_ k_) ∧
    (∀ d_, (setFn f x s).check d_ = s.check d_) ∧ (∀ d_, (setFn f x s).ltest d_ = s.ltest d_) ∧ (∀ d_, (setFn f x s).ebrum d_ = s.ebrum d_) :=
  ⟨rfl, rfl, rfl, rfl, rfl, rfl, rfl, rfl, rfl, rfl, rfl, rfl, rfl, rfl, rfl, rfl, rfl, rfl, rfl, rfl, rfl, rfl, rfl, rfl, rfl, rfl, rfl, rfl, rfl,
   rfl, rfl, rfl, rfl, rfl, rfl, rfl, rfl, rfl, rfl, rfl, rfl, rfl, rfl, rfl, rfl, rfl, rfl, rfl, rfl, rfl, rfl, fun _ => rfl, fun _ _ => rfl,
   fun _ _ => rfl, fun _ => rfl, fun _ => rfl, fun _ => rfl, fun _ => rfl, fun _ => rfl, fun _ => rfl, fun _ => rfl, fun _ => rfl, fun _ => rfl,
   fun _ => rfl, fun _ _ => rfl, fun _ => rfl, fun _ => rfl, fun _ => rfl, fun _ => rfl, fun _ => rfl, fun _ => rfl, fun _ => rfl, fun _ _ => rfl,
   fun _ => rfl, fun _ => rfl, fun _ => rfl, fun _ => rfl, fun _ => rfl, fun _ => rfl, fun _ => rfl, fun _ => rfl, fun _ _ => rfl, fun _ => rfl,
   fun _ => rfl, fun _ => rfl⟩

@[simp] theorem setHead_keeps {h : Nat} {x : Head} {s : State} :
    (setHead h x s).part = s.part ∧ (setHead h x s).pending = s.pending ∧ (setHead h x s).mem = s.mem ∧ (setHead h x s).regs = s.regs ∧
    (setHead h x s).island = s.island ∧ (setHead h x s).staged = s.staged ∧ (setHead h x s).latched = s.latched ∧
    (setHead h x s).readData = s.readData ∧ (setHead h x s).timeA = s.timeA ∧ (setHead h x s).timeB = s.timeB ∧ (setHead h x s).tbases = s.tbases ∧
    (setHead h x s).free = s.free ∧ (setHead h x s).out = s.out ∧ (setHead h x s).nextTag = s.nextTag ∧ (setHead h x s).rings = s.rings ∧
    (setHead h x s).fns = s.fns ∧ (setHead h x s).owed = s.owed ∧ (setHead h x s).routes = s.routes ∧ (setHead h x s).tenants = s.tenants ∧
    (setHead h x s).tlb = s.tlb ∧ (setHead h x s).invs = s.invs ∧ (setHead h x s).poison = s.poison ∧ (setHead h x s).xings = s.xings ∧
    (setHead h x s).pace = s.pace ∧ (setHead h x s).votes = s.votes ∧ (setHead h x s).claims = s.claims ∧
    (setHead h x s).garnetClaims = s.garnetClaims ∧ (setHead h x s).outOfService = s.outOfService ∧ (setHead h x s).debug = s.debug ∧
    (setHead h x s).inReset = s.inReset ∧ (setHead h x s).porLow = s.porLow ∧ (setHead h x s).resetnHigh = s.resetnHigh ∧
    (setHead h x s).split = s.split ∧ (setHead h x s).rinlar = s.rinlar ∧ (setHead h x s).ports = s.ports ∧ (setHead h x s).permits = s.permits ∧
    (setHead h x s).garnets = s.garnets ∧ (setHead h x s).camPorts = s.camPorts ∧ (setHead h x s).streams = s.streams ∧
    (setHead h x s).captures = s.captures ∧ (setHead h x s).warps = s.warps ∧ (setHead h x s).gpus = s.gpus ∧ (setHead h x s).drams = s.drams ∧
    (setHead h x s).audio = s.audio ∧ (setHead h x s).haptics = s.haptics ∧ (setHead h x s).touches = s.touches ∧ (setHead h x s).checks = s.checks ∧
    (setHead h x s).powers = s.powers ∧ (setHead h x s).linkTests = s.linkTests ∧ (setHead h x s).ebrums = s.ebrums ∧
    (setHead h x s).boots = s.boots ∧ (∀ a_, (setHead h x s).rd a_ = s.rd a_) ∧ (∀ a_ k_, (setHead h x s).rdF a_ k_ = s.rdF a_ k_) ∧
    (∀ a_ k_, (setHead h x s).flag a_ k_ = s.flag a_ k_) ∧ (∀ a_, (setHead h x s).rd64 a_ = s.rd64 a_) ∧ (∀ d_, (setHead h x s).now d_ = s.now d_) ∧
    (∀ d_, (setHead h x s).tbase d_ = s.tbase d_) ∧ (∀ k_, (setHead h x s).freeNat k_ = s.freeNat k_) ∧
    (∀ q_, (setHead h x s).ringAux q_ = s.ringAux q_) ∧ (∀ f_, (setHead h x s).fnAux f_ = s.fnAux f_) ∧
    (∀ h_, (setHead h x s).route h_ = s.route h_) ∧ (∀ f_, (setHead h x s).tenant f_ = s.tenant f_) ∧ (∀ k_, (setHead h x s).port k_ = s.port k_) ∧
    (∀ d_, (setHead h x s).paceOf d_ = s.paceOf d_) ∧ (∀ d_ k_, (setHead h x s).xing d_ k_ = s.xing d_ k_) ∧
    (∀ a_, (setHead h x s).isl a_ = s.isl a_) ∧ (∀ d_, (setHead h x s).permit d_ = s.permit d_) ∧ (∀ d_, (setHead h x s).power d_ = s.power d_) ∧
    (∀ d_, (setHead h x s).rin d_ = s.rin d_) ∧ (∀ d_, (setHead h x s).boot d_ = s.boot d_) ∧ (∀ d_, (setHead h x s).garnet d_ = s.garnet d_) ∧
    (∀ k_, (setHead h x s).camPort k_ = s.camPort k_) ∧ (∀ p_ v_, (setHead h x s).stream p_ v_ = s.stream p_ v_) ∧
    (∀ h_, (setHead h x s).capture h_ = s.capture h_) ∧ (∀ d_, (setHead h x s).warp d_ = s.warp d_) ∧ (∀ d_, (setHead h x s).gpu d_ = s.gpu d_) ∧
    (∀ d_, (setHead h x s).dram d_ = s.dram d_) ∧ (∀ h_, (setHead h x s).aroute h_ = s.aroute h_) ∧ (∀ b_, (setHead h x s).bus b_ = s.bus b_) ∧
    (∀ c_, (setHead h x s).hap c_ = s.hap c_) ∧ (∀ d_, (setHead h x s).touch d_ = s.touch d_) ∧
    (∀ d_ k_, (setHead h x s).sensor d_ k_ = s.sensor d_ k_) ∧ (∀ d_, (setHead h x s).check d_ = s.check d_) ∧
    (∀ d_, (setHead h x s).ltest d_ = s.ltest d_) ∧ (∀ d_, (setHead h x s).ebrum d_ = s.ebrum d_) :=
  ⟨rfl, rfl, rfl, rfl, rfl, rfl, rfl, rfl, rfl, rfl, rfl, rfl, rfl, rfl, rfl, rfl, rfl, rfl, rfl, rfl, rfl, rfl, rfl, rfl, rfl, rfl, rfl, rfl, rfl,
   rfl, rfl, rfl, rfl, rfl, rfl, rfl, rfl, rfl, rfl, rfl, rfl, rfl, rfl, rfl, rfl, rfl, rfl, rfl, rfl, rfl, rfl, fun _ => rfl, fun _ _ => rfl,
   fun _ _ => rfl, fun _ => rfl, fun _ => rfl, fun _ => rfl, fun _ => rfl, fun _ => rfl, fun _ => rfl, fun _ => rfl, fun _ => rfl, fun _ => rfl,
   fun _ => rfl, fun _ _ => rfl, fun _ => rfl, fun _ => rfl, fun _ => rfl, fun _ => rfl, fun _ => rfl, fun _ => rfl, fun _ => rfl, fun _ _ => rfl,
   fun _ => rfl, fun _ => rfl, fun _ => rfl, fun _ => rfl, fun _ => rfl, fun _ => rfl, fun _ => rfl, fun _ => rfl, fun _ _ => rfl, fun _ => rfl,
   fun _ => rfl, fun _ => rfl⟩

@[simp] theorem setPace_keeps {d : Die} {p : Pace} {s : State} :
    (setPace d p s).part = s.part ∧ (setPace d p s).pending = s.pending ∧ (setPace d p s).mem = s.mem ∧ (setPace d p s).regs = s.regs ∧
    (setPace d p s).island = s.island ∧ (setPace d p s).staged = s.staged ∧ (setPace d p s).latched = s.latched ∧
    (setPace d p s).readData = s.readData ∧ (setPace d p s).timeA = s.timeA ∧ (setPace d p s).timeB = s.timeB ∧ (setPace d p s).tbases = s.tbases ∧
    (setPace d p s).free = s.free ∧ (setPace d p s).out = s.out ∧ (setPace d p s).nextTag = s.nextTag ∧ (setPace d p s).rings = s.rings ∧
    (setPace d p s).fns = s.fns ∧ (setPace d p s).owed = s.owed ∧ (setPace d p s).routes = s.routes ∧ (setPace d p s).tenants = s.tenants ∧
    (setPace d p s).tlb = s.tlb ∧ (setPace d p s).invs = s.invs ∧ (setPace d p s).poison = s.poison ∧ (setPace d p s).xings = s.xings ∧
    (setPace d p s).votes = s.votes ∧ (setPace d p s).claims = s.claims ∧ (setPace d p s).garnetClaims = s.garnetClaims ∧
    (setPace d p s).outOfService = s.outOfService ∧ (setPace d p s).debug = s.debug ∧ (setPace d p s).inReset = s.inReset ∧
    (setPace d p s).porLow = s.porLow ∧ (setPace d p s).resetnHigh = s.resetnHigh ∧ (setPace d p s).split = s.split ∧
    (setPace d p s).rinlar = s.rinlar ∧ (setPace d p s).heads = s.heads ∧ (setPace d p s).ports = s.ports ∧ (setPace d p s).permits = s.permits ∧
    (setPace d p s).garnets = s.garnets ∧ (setPace d p s).camPorts = s.camPorts ∧ (setPace d p s).streams = s.streams ∧
    (setPace d p s).captures = s.captures ∧ (setPace d p s).warps = s.warps ∧ (setPace d p s).gpus = s.gpus ∧ (setPace d p s).drams = s.drams ∧
    (setPace d p s).audio = s.audio ∧ (setPace d p s).haptics = s.haptics ∧ (setPace d p s).touches = s.touches ∧ (setPace d p s).checks = s.checks ∧
    (setPace d p s).powers = s.powers ∧ (setPace d p s).linkTests = s.linkTests ∧ (setPace d p s).ebrums = s.ebrums ∧
    (setPace d p s).boots = s.boots ∧ (∀ a_, (setPace d p s).rd a_ = s.rd a_) ∧ (∀ a_ k_, (setPace d p s).rdF a_ k_ = s.rdF a_ k_) ∧
    (∀ a_ k_, (setPace d p s).flag a_ k_ = s.flag a_ k_) ∧ (∀ a_, (setPace d p s).rd64 a_ = s.rd64 a_) ∧ (∀ d_, (setPace d p s).now d_ = s.now d_) ∧
    (∀ d_, (setPace d p s).tbase d_ = s.tbase d_) ∧ (∀ k_, (setPace d p s).freeNat k_ = s.freeNat k_) ∧
    (∀ q_, (setPace d p s).ringAux q_ = s.ringAux q_) ∧ (∀ f_, (setPace d p s).fnAux f_ = s.fnAux f_) ∧
    (∀ h_, (setPace d p s).route h_ = s.route h_) ∧ (∀ f_, (setPace d p s).tenant f_ = s.tenant f_) ∧ (∀ h_, (setPace d p s).head h_ = s.head h_) ∧
    (∀ k_, (setPace d p s).port k_ = s.port k_) ∧ (∀ d_ k_, (setPace d p s).xing d_ k_ = s.xing d_ k_) ∧ (∀ a_, (setPace d p s).isl a_ = s.isl a_) ∧
    (∀ d_, (setPace d p s).permit d_ = s.permit d_) ∧ (∀ d_, (setPace d p s).power d_ = s.power d_) ∧ (∀ d_, (setPace d p s).rin d_ = s.rin d_) ∧
    (∀ d_, (setPace d p s).boot d_ = s.boot d_) ∧ (∀ d_, (setPace d p s).garnet d_ = s.garnet d_) ∧
    (∀ k_, (setPace d p s).camPort k_ = s.camPort k_) ∧ (∀ p_ v_, (setPace d p s).stream p_ v_ = s.stream p_ v_) ∧
    (∀ h_, (setPace d p s).capture h_ = s.capture h_) ∧ (∀ d_, (setPace d p s).warp d_ = s.warp d_) ∧ (∀ d_, (setPace d p s).gpu d_ = s.gpu d_) ∧
    (∀ d_, (setPace d p s).dram d_ = s.dram d_) ∧ (∀ h_, (setPace d p s).aroute h_ = s.aroute h_) ∧ (∀ b_, (setPace d p s).bus b_ = s.bus b_) ∧
    (∀ c_, (setPace d p s).hap c_ = s.hap c_) ∧ (∀ d_, (setPace d p s).touch d_ = s.touch d_) ∧
    (∀ d_ k_, (setPace d p s).sensor d_ k_ = s.sensor d_ k_) ∧ (∀ d_, (setPace d p s).check d_ = s.check d_) ∧
    (∀ d_, (setPace d p s).ltest d_ = s.ltest d_) ∧ (∀ d_, (setPace d p s).ebrum d_ = s.ebrum d_) :=
  ⟨rfl, rfl, rfl, rfl, rfl, rfl, rfl, rfl, rfl, rfl, rfl, rfl, rfl, rfl, rfl, rfl, rfl, rfl, rfl, rfl, rfl, rfl, rfl, rfl, rfl, rfl, rfl, rfl, rfl,
   rfl, rfl, rfl, rfl, rfl, rfl, rfl, rfl, rfl, rfl, rfl, rfl, rfl, rfl, rfl, rfl, rfl, rfl, rfl, rfl, rfl, rfl, fun _ => rfl, fun _ _ => rfl,
   fun _ _ => rfl, fun _ => rfl, fun _ => rfl, fun _ => rfl, fun _ => rfl, fun _ => rfl, fun _ => rfl, fun _ => rfl, fun _ => rfl, fun _ => rfl,
   fun _ => rfl, fun _ _ => rfl, fun _ => rfl, fun _ => rfl, fun _ => rfl, fun _ => rfl, fun _ => rfl, fun _ => rfl, fun _ => rfl, fun _ _ => rfl,
   fun _ => rfl, fun _ => rfl, fun _ => rfl, fun _ => rfl, fun _ => rfl, fun _ => rfl, fun _ => rfl, fun _ => rfl, fun _ _ => rfl, fun _ => rfl,
   fun _ => rfl, fun _ => rfl⟩

@[simp] theorem setXing_keeps {d : Die} {n : Nat} {x : Xing} {s : State} :
    (setXing d n x s).part = s.part ∧ (setXing d n x s).pending = s.pending ∧ (setXing d n x s).mem = s.mem ∧ (setXing d n x s).regs = s.regs ∧
    (setXing d n x s).island = s.island ∧ (setXing d n x s).staged = s.staged ∧ (setXing d n x s).latched = s.latched ∧
    (setXing d n x s).readData = s.readData ∧ (setXing d n x s).timeA = s.timeA ∧ (setXing d n x s).timeB = s.timeB ∧
    (setXing d n x s).tbases = s.tbases ∧ (setXing d n x s).free = s.free ∧ (setXing d n x s).out = s.out ∧ (setXing d n x s).nextTag = s.nextTag ∧
    (setXing d n x s).rings = s.rings ∧ (setXing d n x s).fns = s.fns ∧ (setXing d n x s).owed = s.owed ∧ (setXing d n x s).routes = s.routes ∧
    (setXing d n x s).tenants = s.tenants ∧ (setXing d n x s).tlb = s.tlb ∧ (setXing d n x s).invs = s.invs ∧ (setXing d n x s).poison = s.poison ∧
    (setXing d n x s).pace = s.pace ∧ (setXing d n x s).votes = s.votes ∧ (setXing d n x s).claims = s.claims ∧
    (setXing d n x s).garnetClaims = s.garnetClaims ∧ (setXing d n x s).outOfService = s.outOfService ∧ (setXing d n x s).debug = s.debug ∧
    (setXing d n x s).inReset = s.inReset ∧ (setXing d n x s).porLow = s.porLow ∧ (setXing d n x s).resetnHigh = s.resetnHigh ∧
    (setXing d n x s).split = s.split ∧ (setXing d n x s).rinlar = s.rinlar ∧ (setXing d n x s).heads = s.heads ∧ (setXing d n x s).ports = s.ports ∧
    (setXing d n x s).permits = s.permits ∧ (setXing d n x s).garnets = s.garnets ∧ (setXing d n x s).camPorts = s.camPorts ∧
    (setXing d n x s).streams = s.streams ∧ (setXing d n x s).captures = s.captures ∧ (setXing d n x s).warps = s.warps ∧
    (setXing d n x s).gpus = s.gpus ∧ (setXing d n x s).drams = s.drams ∧ (setXing d n x s).audio = s.audio ∧ (setXing d n x s).haptics = s.haptics ∧
    (setXing d n x s).touches = s.touches ∧ (setXing d n x s).checks = s.checks ∧ (setXing d n x s).powers = s.powers ∧
    (setXing d n x s).linkTests = s.linkTests ∧ (setXing d n x s).ebrums = s.ebrums ∧ (setXing d n x s).boots = s.boots ∧
    (∀ a_, (setXing d n x s).rd a_ = s.rd a_) ∧ (∀ a_ k_, (setXing d n x s).rdF a_ k_ = s.rdF a_ k_) ∧
    (∀ a_ k_, (setXing d n x s).flag a_ k_ = s.flag a_ k_) ∧ (∀ a_, (setXing d n x s).rd64 a_ = s.rd64 a_) ∧
    (∀ d_, (setXing d n x s).now d_ = s.now d_) ∧ (∀ d_, (setXing d n x s).tbase d_ = s.tbase d_) ∧
    (∀ k_, (setXing d n x s).freeNat k_ = s.freeNat k_) ∧ (∀ q_, (setXing d n x s).ringAux q_ = s.ringAux q_) ∧
    (∀ f_, (setXing d n x s).fnAux f_ = s.fnAux f_) ∧ (∀ h_, (setXing d n x s).route h_ = s.route h_) ∧
    (∀ f_, (setXing d n x s).tenant f_ = s.tenant f_) ∧ (∀ h_, (setXing d n x s).head h_ = s.head h_) ∧
    (∀ k_, (setXing d n x s).port k_ = s.port k_) ∧ (∀ d_, (setXing d n x s).paceOf d_ = s.paceOf d_) ∧ (∀ a_, (setXing d n x s).isl a_ = s.isl a_) ∧
    (∀ d_, (setXing d n x s).permit d_ = s.permit d_) ∧ (∀ d_, (setXing d n x s).power d_ = s.power d_) ∧
    (∀ d_, (setXing d n x s).rin d_ = s.rin d_) ∧ (∀ d_, (setXing d n x s).boot d_ = s.boot d_) ∧ (∀ d_, (setXing d n x s).garnet d_ = s.garnet d_) ∧
    (∀ k_, (setXing d n x s).camPort k_ = s.camPort k_) ∧ (∀ p_ v_, (setXing d n x s).stream p_ v_ = s.stream p_ v_) ∧
    (∀ h_, (setXing d n x s).capture h_ = s.capture h_) ∧ (∀ d_, (setXing d n x s).warp d_ = s.warp d_) ∧
    (∀ d_, (setXing d n x s).gpu d_ = s.gpu d_) ∧ (∀ d_, (setXing d n x s).dram d_ = s.dram d_) ∧ (∀ h_, (setXing d n x s).aroute h_ = s.aroute h_) ∧
    (∀ b_, (setXing d n x s).bus b_ = s.bus b_) ∧ (∀ c_, (setXing d n x s).hap c_ = s.hap c_) ∧ (∀ d_, (setXing d n x s).touch d_ = s.touch d_) ∧
    (∀ d_ k_, (setXing d n x s).sensor d_ k_ = s.sensor d_ k_) ∧ (∀ d_, (setXing d n x s).check d_ = s.check d_) ∧
    (∀ d_, (setXing d n x s).ltest d_ = s.ltest d_) ∧ (∀ d_, (setXing d n x s).ebrum d_ = s.ebrum d_) :=
  ⟨rfl, rfl, rfl, rfl, rfl, rfl, rfl, rfl, rfl, rfl, rfl, rfl, rfl, rfl, rfl, rfl, rfl, rfl, rfl, rfl, rfl, rfl, rfl, rfl, rfl, rfl, rfl, rfl, rfl,
   rfl, rfl, rfl, rfl, rfl, rfl, rfl, rfl, rfl, rfl, rfl, rfl, rfl, rfl, rfl, rfl, rfl, rfl, rfl, rfl, rfl, rfl, fun _ => rfl, fun _ _ => rfl,
   fun _ _ => rfl, fun _ => rfl, fun _ => rfl, fun _ => rfl, fun _ => rfl, fun _ => rfl, fun _ => rfl, fun _ => rfl, fun _ => rfl, fun _ => rfl,
   fun _ => rfl, fun _ => rfl, fun _ => rfl, fun _ => rfl, fun _ => rfl, fun _ => rfl, fun _ => rfl, fun _ => rfl, fun _ => rfl, fun _ _ => rfl,
   fun _ => rfl, fun _ => rfl, fun _ => rfl, fun _ => rfl, fun _ => rfl, fun _ => rfl, fun _ => rfl, fun _ => rfl, fun _ _ => rfl, fun _ => rfl,
   fun _ => rfl, fun _ => rfl⟩

@[simp] theorem setIsl_keeps {a : Nat} {v : Word} {s : State} :
    (setIsl a v s).part = s.part ∧ (setIsl a v s).pending = s.pending ∧ (setIsl a v s).mem = s.mem ∧ (setIsl a v s).regs = s.regs ∧
    (setIsl a v s).staged = s.staged ∧ (setIsl a v s).latched = s.latched ∧ (setIsl a v s).readData = s.readData ∧ (setIsl a v s).timeA = s.timeA ∧
    (setIsl a v s).timeB = s.timeB ∧ (setIsl a v s).tbases = s.tbases ∧ (setIsl a v s).free = s.free ∧ (setIsl a v s).out = s.out ∧
    (setIsl a v s).nextTag = s.nextTag ∧ (setIsl a v s).rings = s.rings ∧ (setIsl a v s).fns = s.fns ∧ (setIsl a v s).owed = s.owed ∧
    (setIsl a v s).routes = s.routes ∧ (setIsl a v s).tenants = s.tenants ∧ (setIsl a v s).tlb = s.tlb ∧ (setIsl a v s).invs = s.invs ∧
    (setIsl a v s).poison = s.poison ∧ (setIsl a v s).xings = s.xings ∧ (setIsl a v s).pace = s.pace ∧ (setIsl a v s).votes = s.votes ∧
    (setIsl a v s).claims = s.claims ∧ (setIsl a v s).garnetClaims = s.garnetClaims ∧ (setIsl a v s).outOfService = s.outOfService ∧
    (setIsl a v s).debug = s.debug ∧ (setIsl a v s).inReset = s.inReset ∧ (setIsl a v s).porLow = s.porLow ∧
    (setIsl a v s).resetnHigh = s.resetnHigh ∧ (setIsl a v s).split = s.split ∧ (setIsl a v s).rinlar = s.rinlar ∧ (setIsl a v s).heads = s.heads ∧
    (setIsl a v s).ports = s.ports ∧ (setIsl a v s).permits = s.permits ∧ (setIsl a v s).garnets = s.garnets ∧ (setIsl a v s).camPorts = s.camPorts ∧
    (setIsl a v s).streams = s.streams ∧ (setIsl a v s).captures = s.captures ∧ (setIsl a v s).warps = s.warps ∧ (setIsl a v s).gpus = s.gpus ∧
    (setIsl a v s).drams = s.drams ∧ (setIsl a v s).audio = s.audio ∧ (setIsl a v s).haptics = s.haptics ∧ (setIsl a v s).touches = s.touches ∧
    (setIsl a v s).checks = s.checks ∧ (setIsl a v s).powers = s.powers ∧ (setIsl a v s).linkTests = s.linkTests ∧ (setIsl a v s).ebrums = s.ebrums ∧
    (setIsl a v s).boots = s.boots ∧ (∀ a_, (setIsl a v s).rd a_ = s.rd a_) ∧ (∀ a_ k_, (setIsl a v s).rdF a_ k_ = s.rdF a_ k_) ∧
    (∀ a_ k_, (setIsl a v s).flag a_ k_ = s.flag a_ k_) ∧ (∀ a_, (setIsl a v s).rd64 a_ = s.rd64 a_) ∧ (∀ d_, (setIsl a v s).now d_ = s.now d_) ∧
    (∀ d_, (setIsl a v s).tbase d_ = s.tbase d_) ∧ (∀ k_, (setIsl a v s).freeNat k_ = s.freeNat k_) ∧
    (∀ q_, (setIsl a v s).ringAux q_ = s.ringAux q_) ∧ (∀ f_, (setIsl a v s).fnAux f_ = s.fnAux f_) ∧ (∀ h_, (setIsl a v s).route h_ = s.route h_) ∧
    (∀ f_, (setIsl a v s).tenant f_ = s.tenant f_) ∧ (∀ h_, (setIsl a v s).head h_ = s.head h_) ∧ (∀ k_, (setIsl a v s).port k_ = s.port k_) ∧
    (∀ d_, (setIsl a v s).paceOf d_ = s.paceOf d_) ∧ (∀ d_ k_, (setIsl a v s).xing d_ k_ = s.xing d_ k_) ∧
    (∀ d_, (setIsl a v s).permit d_ = s.permit d_) ∧ (∀ d_, (setIsl a v s).power d_ = s.power d_) ∧ (∀ d_, (setIsl a v s).rin d_ = s.rin d_) ∧
    (∀ d_, (setIsl a v s).boot d_ = s.boot d_) ∧ (∀ d_, (setIsl a v s).garnet d_ = s.garnet d_) ∧ (∀ k_, (setIsl a v s).camPort k_ = s.camPort k_) ∧
    (∀ p_ v_, (setIsl a v s).stream p_ v_ = s.stream p_ v_) ∧ (∀ h_, (setIsl a v s).capture h_ = s.capture h_) ∧
    (∀ d_, (setIsl a v s).warp d_ = s.warp d_) ∧ (∀ d_, (setIsl a v s).gpu d_ = s.gpu d_) ∧ (∀ d_, (setIsl a v s).dram d_ = s.dram d_) ∧
    (∀ h_, (setIsl a v s).aroute h_ = s.aroute h_) ∧ (∀ b_, (setIsl a v s).bus b_ = s.bus b_) ∧ (∀ c_, (setIsl a v s).hap c_ = s.hap c_) ∧
    (∀ d_, (setIsl a v s).touch d_ = s.touch d_) ∧ (∀ d_ k_, (setIsl a v s).sensor d_ k_ = s.sensor d_ k_) ∧
    (∀ d_, (setIsl a v s).check d_ = s.check d_) ∧ (∀ d_, (setIsl a v s).ltest d_ = s.ltest d_) ∧ (∀ d_, (setIsl a v s).ebrum d_ = s.ebrum d_) :=
  ⟨rfl, rfl, rfl, rfl, rfl, rfl, rfl, rfl, rfl, rfl, rfl, rfl, rfl, rfl, rfl, rfl, rfl, rfl, rfl, rfl, rfl, rfl, rfl, rfl, rfl, rfl, rfl, rfl, rfl,
   rfl, rfl, rfl, rfl, rfl, rfl, rfl, rfl, rfl, rfl, rfl, rfl, rfl, rfl, rfl, rfl, rfl, rfl, rfl, rfl, rfl, rfl, fun _ => rfl, fun _ _ => rfl,
   fun _ _ => rfl, fun _ => rfl, fun _ => rfl, fun _ => rfl, fun _ => rfl, fun _ => rfl, fun _ => rfl, fun _ => rfl, fun _ => rfl, fun _ => rfl,
   fun _ => rfl, fun _ => rfl, fun _ _ => rfl, fun _ => rfl, fun _ => rfl, fun _ => rfl, fun _ => rfl, fun _ => rfl, fun _ => rfl, fun _ _ => rfl,
   fun _ => rfl, fun _ => rfl, fun _ => rfl, fun _ => rfl, fun _ => rfl, fun _ => rfl, fun _ => rfl, fun _ => rfl, fun _ _ => rfl, fun _ => rfl,
   fun _ => rfl, fun _ => rfl⟩

@[simp] theorem setPermit_keeps {d : Die} {p : Permit} {s : State} :
    (setPermit d p s).part = s.part ∧ (setPermit d p s).pending = s.pending ∧ (setPermit d p s).mem = s.mem ∧ (setPermit d p s).regs = s.regs ∧
    (setPermit d p s).island = s.island ∧ (setPermit d p s).staged = s.staged ∧ (setPermit d p s).latched = s.latched ∧
    (setPermit d p s).readData = s.readData ∧ (setPermit d p s).timeA = s.timeA ∧ (setPermit d p s).timeB = s.timeB ∧
    (setPermit d p s).tbases = s.tbases ∧ (setPermit d p s).free = s.free ∧ (setPermit d p s).out = s.out ∧ (setPermit d p s).nextTag = s.nextTag ∧
    (setPermit d p s).rings = s.rings ∧ (setPermit d p s).fns = s.fns ∧ (setPermit d p s).owed = s.owed ∧ (setPermit d p s).routes = s.routes ∧
    (setPermit d p s).tenants = s.tenants ∧ (setPermit d p s).tlb = s.tlb ∧ (setPermit d p s).invs = s.invs ∧ (setPermit d p s).poison = s.poison ∧
    (setPermit d p s).xings = s.xings ∧ (setPermit d p s).pace = s.pace ∧ (setPermit d p s).votes = s.votes ∧ (setPermit d p s).claims = s.claims ∧
    (setPermit d p s).garnetClaims = s.garnetClaims ∧ (setPermit d p s).outOfService = s.outOfService ∧ (setPermit d p s).debug = s.debug ∧
    (setPermit d p s).inReset = s.inReset ∧ (setPermit d p s).porLow = s.porLow ∧ (setPermit d p s).resetnHigh = s.resetnHigh ∧
    (setPermit d p s).split = s.split ∧ (setPermit d p s).rinlar = s.rinlar ∧ (setPermit d p s).heads = s.heads ∧ (setPermit d p s).ports = s.ports ∧
    (setPermit d p s).garnets = s.garnets ∧ (setPermit d p s).camPorts = s.camPorts ∧ (setPermit d p s).streams = s.streams ∧
    (setPermit d p s).captures = s.captures ∧ (setPermit d p s).warps = s.warps ∧ (setPermit d p s).gpus = s.gpus ∧
    (setPermit d p s).drams = s.drams ∧ (setPermit d p s).audio = s.audio ∧ (setPermit d p s).haptics = s.haptics ∧
    (setPermit d p s).touches = s.touches ∧ (setPermit d p s).checks = s.checks ∧ (setPermit d p s).powers = s.powers ∧
    (setPermit d p s).linkTests = s.linkTests ∧ (setPermit d p s).ebrums = s.ebrums ∧ (setPermit d p s).boots = s.boots ∧
    (∀ a_, (setPermit d p s).rd a_ = s.rd a_) ∧ (∀ a_ k_, (setPermit d p s).rdF a_ k_ = s.rdF a_ k_) ∧
    (∀ a_ k_, (setPermit d p s).flag a_ k_ = s.flag a_ k_) ∧ (∀ a_, (setPermit d p s).rd64 a_ = s.rd64 a_) ∧
    (∀ d_, (setPermit d p s).now d_ = s.now d_) ∧ (∀ d_, (setPermit d p s).tbase d_ = s.tbase d_) ∧
    (∀ k_, (setPermit d p s).freeNat k_ = s.freeNat k_) ∧ (∀ q_, (setPermit d p s).ringAux q_ = s.ringAux q_) ∧
    (∀ f_, (setPermit d p s).fnAux f_ = s.fnAux f_) ∧ (∀ h_, (setPermit d p s).route h_ = s.route h_) ∧
    (∀ f_, (setPermit d p s).tenant f_ = s.tenant f_) ∧ (∀ h_, (setPermit d p s).head h_ = s.head h_) ∧
    (∀ k_, (setPermit d p s).port k_ = s.port k_) ∧ (∀ d_, (setPermit d p s).paceOf d_ = s.paceOf d_) ∧
    (∀ d_ k_, (setPermit d p s).xing d_ k_ = s.xing d_ k_) ∧ (∀ a_, (setPermit d p s).isl a_ = s.isl a_) ∧
    (∀ d_, (setPermit d p s).power d_ = s.power d_) ∧ (∀ d_, (setPermit d p s).rin d_ = s.rin d_) ∧ (∀ d_, (setPermit d p s).boot d_ = s.boot d_) ∧
    (∀ d_, (setPermit d p s).garnet d_ = s.garnet d_) ∧ (∀ k_, (setPermit d p s).camPort k_ = s.camPort k_) ∧
    (∀ p_ v_, (setPermit d p s).stream p_ v_ = s.stream p_ v_) ∧ (∀ h_, (setPermit d p s).capture h_ = s.capture h_) ∧
    (∀ d_, (setPermit d p s).warp d_ = s.warp d_) ∧ (∀ d_, (setPermit d p s).gpu d_ = s.gpu d_) ∧ (∀ d_, (setPermit d p s).dram d_ = s.dram d_) ∧
    (∀ h_, (setPermit d p s).aroute h_ = s.aroute h_) ∧ (∀ b_, (setPermit d p s).bus b_ = s.bus b_) ∧ (∀ c_, (setPermit d p s).hap c_ = s.hap c_) ∧
    (∀ d_, (setPermit d p s).touch d_ = s.touch d_) ∧ (∀ d_ k_, (setPermit d p s).sensor d_ k_ = s.sensor d_ k_) ∧
    (∀ d_, (setPermit d p s).check d_ = s.check d_) ∧ (∀ d_, (setPermit d p s).ltest d_ = s.ltest d_) ∧
    (∀ d_, (setPermit d p s).ebrum d_ = s.ebrum d_) :=
  ⟨rfl, rfl, rfl, rfl, rfl, rfl, rfl, rfl, rfl, rfl, rfl, rfl, rfl, rfl, rfl, rfl, rfl, rfl, rfl, rfl, rfl, rfl, rfl, rfl, rfl, rfl, rfl, rfl, rfl,
   rfl, rfl, rfl, rfl, rfl, rfl, rfl, rfl, rfl, rfl, rfl, rfl, rfl, rfl, rfl, rfl, rfl, rfl, rfl, rfl, rfl, rfl, fun _ => rfl, fun _ _ => rfl,
   fun _ _ => rfl, fun _ => rfl, fun _ => rfl, fun _ => rfl, fun _ => rfl, fun _ => rfl, fun _ => rfl, fun _ => rfl, fun _ => rfl, fun _ => rfl,
   fun _ => rfl, fun _ => rfl, fun _ _ => rfl, fun _ => rfl, fun _ => rfl, fun _ => rfl, fun _ => rfl, fun _ => rfl, fun _ => rfl, fun _ _ => rfl,
   fun _ => rfl, fun _ => rfl, fun _ => rfl, fun _ => rfl, fun _ => rfl, fun _ => rfl, fun _ => rfl, fun _ => rfl, fun _ _ => rfl, fun _ => rfl,
   fun _ => rfl, fun _ => rfl⟩

@[simp] theorem setPower_keeps {d : Die} {x : Power} {s : State} :
    (setPower d x s).part = s.part ∧ (setPower d x s).pending = s.pending ∧ (setPower d x s).mem = s.mem ∧ (setPower d x s).regs = s.regs ∧
    (setPower d x s).island = s.island ∧ (setPower d x s).staged = s.staged ∧ (setPower d x s).latched = s.latched ∧
    (setPower d x s).readData = s.readData ∧ (setPower d x s).timeA = s.timeA ∧ (setPower d x s).timeB = s.timeB ∧
    (setPower d x s).tbases = s.tbases ∧ (setPower d x s).free = s.free ∧ (setPower d x s).out = s.out ∧ (setPower d x s).nextTag = s.nextTag ∧
    (setPower d x s).rings = s.rings ∧ (setPower d x s).fns = s.fns ∧ (setPower d x s).owed = s.owed ∧ (setPower d x s).routes = s.routes ∧
    (setPower d x s).tenants = s.tenants ∧ (setPower d x s).tlb = s.tlb ∧ (setPower d x s).invs = s.invs ∧ (setPower d x s).poison = s.poison ∧
    (setPower d x s).xings = s.xings ∧ (setPower d x s).pace = s.pace ∧ (setPower d x s).votes = s.votes ∧ (setPower d x s).claims = s.claims ∧
    (setPower d x s).garnetClaims = s.garnetClaims ∧ (setPower d x s).outOfService = s.outOfService ∧ (setPower d x s).debug = s.debug ∧
    (setPower d x s).inReset = s.inReset ∧ (setPower d x s).porLow = s.porLow ∧ (setPower d x s).resetnHigh = s.resetnHigh ∧
    (setPower d x s).split = s.split ∧ (setPower d x s).rinlar = s.rinlar ∧ (setPower d x s).heads = s.heads ∧ (setPower d x s).ports = s.ports ∧
    (setPower d x s).permits = s.permits ∧ (setPower d x s).garnets = s.garnets ∧ (setPower d x s).camPorts = s.camPorts ∧
    (setPower d x s).streams = s.streams ∧ (setPower d x s).captures = s.captures ∧ (setPower d x s).warps = s.warps ∧
    (setPower d x s).gpus = s.gpus ∧ (setPower d x s).drams = s.drams ∧ (setPower d x s).audio = s.audio ∧ (setPower d x s).haptics = s.haptics ∧
    (setPower d x s).touches = s.touches ∧ (setPower d x s).checks = s.checks ∧ (setPower d x s).linkTests = s.linkTests ∧
    (setPower d x s).ebrums = s.ebrums ∧ (setPower d x s).boots = s.boots ∧ (∀ a_, (setPower d x s).rd a_ = s.rd a_) ∧
    (∀ a_ k_, (setPower d x s).rdF a_ k_ = s.rdF a_ k_) ∧ (∀ a_ k_, (setPower d x s).flag a_ k_ = s.flag a_ k_) ∧
    (∀ a_, (setPower d x s).rd64 a_ = s.rd64 a_) ∧ (∀ d_, (setPower d x s).now d_ = s.now d_) ∧ (∀ d_, (setPower d x s).tbase d_ = s.tbase d_) ∧
    (∀ k_, (setPower d x s).freeNat k_ = s.freeNat k_) ∧ (∀ q_, (setPower d x s).ringAux q_ = s.ringAux q_) ∧
    (∀ f_, (setPower d x s).fnAux f_ = s.fnAux f_) ∧ (∀ h_, (setPower d x s).route h_ = s.route h_) ∧
    (∀ f_, (setPower d x s).tenant f_ = s.tenant f_) ∧ (∀ h_, (setPower d x s).head h_ = s.head h_) ∧ (∀ k_, (setPower d x s).port k_ = s.port k_) ∧
    (∀ d_, (setPower d x s).paceOf d_ = s.paceOf d_) ∧ (∀ d_ k_, (setPower d x s).xing d_ k_ = s.xing d_ k_) ∧
    (∀ a_, (setPower d x s).isl a_ = s.isl a_) ∧ (∀ d_, (setPower d x s).permit d_ = s.permit d_) ∧ (∀ d_, (setPower d x s).rin d_ = s.rin d_) ∧
    (∀ d_, (setPower d x s).boot d_ = s.boot d_) ∧ (∀ d_, (setPower d x s).garnet d_ = s.garnet d_) ∧
    (∀ k_, (setPower d x s).camPort k_ = s.camPort k_) ∧ (∀ p_ v_, (setPower d x s).stream p_ v_ = s.stream p_ v_) ∧
    (∀ h_, (setPower d x s).capture h_ = s.capture h_) ∧ (∀ d_, (setPower d x s).warp d_ = s.warp d_) ∧ (∀ d_, (setPower d x s).gpu d_ = s.gpu d_) ∧
    (∀ d_, (setPower d x s).dram d_ = s.dram d_) ∧ (∀ h_, (setPower d x s).aroute h_ = s.aroute h_) ∧ (∀ b_, (setPower d x s).bus b_ = s.bus b_) ∧
    (∀ c_, (setPower d x s).hap c_ = s.hap c_) ∧ (∀ d_, (setPower d x s).touch d_ = s.touch d_) ∧
    (∀ d_ k_, (setPower d x s).sensor d_ k_ = s.sensor d_ k_) ∧ (∀ d_, (setPower d x s).check d_ = s.check d_) ∧
    (∀ d_, (setPower d x s).ltest d_ = s.ltest d_) ∧ (∀ d_, (setPower d x s).ebrum d_ = s.ebrum d_) :=
  ⟨rfl, rfl, rfl, rfl, rfl, rfl, rfl, rfl, rfl, rfl, rfl, rfl, rfl, rfl, rfl, rfl, rfl, rfl, rfl, rfl, rfl, rfl, rfl, rfl, rfl, rfl, rfl, rfl, rfl,
   rfl, rfl, rfl, rfl, rfl, rfl, rfl, rfl, rfl, rfl, rfl, rfl, rfl, rfl, rfl, rfl, rfl, rfl, rfl, rfl, rfl, rfl, fun _ => rfl, fun _ _ => rfl,
   fun _ _ => rfl, fun _ => rfl, fun _ => rfl, fun _ => rfl, fun _ => rfl, fun _ => rfl, fun _ => rfl, fun _ => rfl, fun _ => rfl, fun _ => rfl,
   fun _ => rfl, fun _ => rfl, fun _ _ => rfl, fun _ => rfl, fun _ => rfl, fun _ => rfl, fun _ => rfl, fun _ => rfl, fun _ => rfl, fun _ _ => rfl,
   fun _ => rfl, fun _ => rfl, fun _ => rfl, fun _ => rfl, fun _ => rfl, fun _ => rfl, fun _ => rfl, fun _ => rfl, fun _ _ => rfl, fun _ => rfl,
   fun _ => rfl, fun _ => rfl⟩

@[simp] theorem setTenant_keeps {f : Fun} {t : Tenant} {s : State} :
    (setTenant f t s).part = s.part ∧ (setTenant f t s).pending = s.pending ∧ (setTenant f t s).mem = s.mem ∧ (setTenant f t s).regs = s.regs ∧
    (setTenant f t s).island = s.island ∧ (setTenant f t s).staged = s.staged ∧ (setTenant f t s).latched = s.latched ∧
    (setTenant f t s).readData = s.readData ∧ (setTenant f t s).timeA = s.timeA ∧ (setTenant f t s).timeB = s.timeB ∧
    (setTenant f t s).tbases = s.tbases ∧ (setTenant f t s).free = s.free ∧ (setTenant f t s).out = s.out ∧ (setTenant f t s).nextTag = s.nextTag ∧
    (setTenant f t s).rings = s.rings ∧ (setTenant f t s).fns = s.fns ∧ (setTenant f t s).owed = s.owed ∧ (setTenant f t s).routes = s.routes ∧
    (setTenant f t s).tlb = s.tlb ∧ (setTenant f t s).invs = s.invs ∧ (setTenant f t s).poison = s.poison ∧ (setTenant f t s).xings = s.xings ∧
    (setTenant f t s).pace = s.pace ∧ (setTenant f t s).votes = s.votes ∧ (setTenant f t s).claims = s.claims ∧
    (setTenant f t s).garnetClaims = s.garnetClaims ∧ (setTenant f t s).outOfService = s.outOfService ∧ (setTenant f t s).debug = s.debug ∧
    (setTenant f t s).inReset = s.inReset ∧ (setTenant f t s).porLow = s.porLow ∧ (setTenant f t s).resetnHigh = s.resetnHigh ∧
    (setTenant f t s).split = s.split ∧ (setTenant f t s).rinlar = s.rinlar ∧ (setTenant f t s).heads = s.heads ∧ (setTenant f t s).ports = s.ports ∧
    (setTenant f t s).permits = s.permits ∧ (setTenant f t s).garnets = s.garnets ∧ (setTenant f t s).camPorts = s.camPorts ∧
    (setTenant f t s).streams = s.streams ∧ (setTenant f t s).captures = s.captures ∧ (setTenant f t s).warps = s.warps ∧
    (setTenant f t s).gpus = s.gpus ∧ (setTenant f t s).drams = s.drams ∧ (setTenant f t s).audio = s.audio ∧ (setTenant f t s).haptics = s.haptics ∧
    (setTenant f t s).touches = s.touches ∧ (setTenant f t s).checks = s.checks ∧ (setTenant f t s).powers = s.powers ∧
    (setTenant f t s).linkTests = s.linkTests ∧ (setTenant f t s).ebrums = s.ebrums ∧ (setTenant f t s).boots = s.boots ∧
    (∀ a_, (setTenant f t s).rd a_ = s.rd a_) ∧ (∀ a_ k_, (setTenant f t s).rdF a_ k_ = s.rdF a_ k_) ∧
    (∀ a_ k_, (setTenant f t s).flag a_ k_ = s.flag a_ k_) ∧ (∀ a_, (setTenant f t s).rd64 a_ = s.rd64 a_) ∧
    (∀ d_, (setTenant f t s).now d_ = s.now d_) ∧ (∀ d_, (setTenant f t s).tbase d_ = s.tbase d_) ∧
    (∀ k_, (setTenant f t s).freeNat k_ = s.freeNat k_) ∧ (∀ q_, (setTenant f t s).ringAux q_ = s.ringAux q_) ∧
    (∀ f_, (setTenant f t s).fnAux f_ = s.fnAux f_) ∧ (∀ h_, (setTenant f t s).route h_ = s.route h_) ∧
    (∀ h_, (setTenant f t s).head h_ = s.head h_) ∧ (∀ k_, (setTenant f t s).port k_ = s.port k_) ∧
    (∀ d_, (setTenant f t s).paceOf d_ = s.paceOf d_) ∧ (∀ d_ k_, (setTenant f t s).xing d_ k_ = s.xing d_ k_) ∧
    (∀ a_, (setTenant f t s).isl a_ = s.isl a_) ∧ (∀ d_, (setTenant f t s).permit d_ = s.permit d_) ∧
    (∀ d_, (setTenant f t s).power d_ = s.power d_) ∧ (∀ d_, (setTenant f t s).rin d_ = s.rin d_) ∧ (∀ d_, (setTenant f t s).boot d_ = s.boot d_) ∧
    (∀ d_, (setTenant f t s).garnet d_ = s.garnet d_) ∧ (∀ k_, (setTenant f t s).camPort k_ = s.camPort k_) ∧
    (∀ p_ v_, (setTenant f t s).stream p_ v_ = s.stream p_ v_) ∧ (∀ h_, (setTenant f t s).capture h_ = s.capture h_) ∧
    (∀ d_, (setTenant f t s).warp d_ = s.warp d_) ∧ (∀ d_, (setTenant f t s).gpu d_ = s.gpu d_) ∧ (∀ d_, (setTenant f t s).dram d_ = s.dram d_) ∧
    (∀ h_, (setTenant f t s).aroute h_ = s.aroute h_) ∧ (∀ b_, (setTenant f t s).bus b_ = s.bus b_) ∧ (∀ c_, (setTenant f t s).hap c_ = s.hap c_) ∧
    (∀ d_, (setTenant f t s).touch d_ = s.touch d_) ∧ (∀ d_ k_, (setTenant f t s).sensor d_ k_ = s.sensor d_ k_) ∧
    (∀ d_, (setTenant f t s).check d_ = s.check d_) ∧ (∀ d_, (setTenant f t s).ltest d_ = s.ltest d_) ∧
    (∀ d_, (setTenant f t s).ebrum d_ = s.ebrum d_) :=
  ⟨rfl, rfl, rfl, rfl, rfl, rfl, rfl, rfl, rfl, rfl, rfl, rfl, rfl, rfl, rfl, rfl, rfl, rfl, rfl, rfl, rfl, rfl, rfl, rfl, rfl, rfl, rfl, rfl, rfl,
   rfl, rfl, rfl, rfl, rfl, rfl, rfl, rfl, rfl, rfl, rfl, rfl, rfl, rfl, rfl, rfl, rfl, rfl, rfl, rfl, rfl, rfl, fun _ => rfl, fun _ _ => rfl,
   fun _ _ => rfl, fun _ => rfl, fun _ => rfl, fun _ => rfl, fun _ => rfl, fun _ => rfl, fun _ => rfl, fun _ => rfl, fun _ => rfl, fun _ => rfl,
   fun _ => rfl, fun _ _ => rfl, fun _ => rfl, fun _ => rfl, fun _ => rfl, fun _ => rfl, fun _ => rfl, fun _ => rfl, fun _ => rfl, fun _ _ => rfl,
   fun _ => rfl, fun _ => rfl, fun _ => rfl, fun _ => rfl, fun _ => rfl, fun _ => rfl, fun _ => rfl, fun _ => rfl, fun _ _ => rfl, fun _ => rfl,
   fun _ => rfl, fun _ => rfl⟩

@[simp] theorem setTouch_keeps {d : Die} {x : Touch} {s : State} :
    (setTouch d x s).part = s.part ∧ (setTouch d x s).pending = s.pending ∧ (setTouch d x s).mem = s.mem ∧ (setTouch d x s).regs = s.regs ∧
    (setTouch d x s).island = s.island ∧ (setTouch d x s).staged = s.staged ∧ (setTouch d x s).latched = s.latched ∧
    (setTouch d x s).readData = s.readData ∧ (setTouch d x s).timeA = s.timeA ∧ (setTouch d x s).timeB = s.timeB ∧
    (setTouch d x s).tbases = s.tbases ∧ (setTouch d x s).free = s.free ∧ (setTouch d x s).out = s.out ∧ (setTouch d x s).nextTag = s.nextTag ∧
    (setTouch d x s).rings = s.rings ∧ (setTouch d x s).fns = s.fns ∧ (setTouch d x s).owed = s.owed ∧ (setTouch d x s).routes = s.routes ∧
    (setTouch d x s).tenants = s.tenants ∧ (setTouch d x s).tlb = s.tlb ∧ (setTouch d x s).invs = s.invs ∧ (setTouch d x s).poison = s.poison ∧
    (setTouch d x s).xings = s.xings ∧ (setTouch d x s).pace = s.pace ∧ (setTouch d x s).votes = s.votes ∧ (setTouch d x s).claims = s.claims ∧
    (setTouch d x s).garnetClaims = s.garnetClaims ∧ (setTouch d x s).outOfService = s.outOfService ∧ (setTouch d x s).debug = s.debug ∧
    (setTouch d x s).inReset = s.inReset ∧ (setTouch d x s).porLow = s.porLow ∧ (setTouch d x s).resetnHigh = s.resetnHigh ∧
    (setTouch d x s).split = s.split ∧ (setTouch d x s).rinlar = s.rinlar ∧ (setTouch d x s).heads = s.heads ∧ (setTouch d x s).ports = s.ports ∧
    (setTouch d x s).permits = s.permits ∧ (setTouch d x s).garnets = s.garnets ∧ (setTouch d x s).camPorts = s.camPorts ∧
    (setTouch d x s).streams = s.streams ∧ (setTouch d x s).captures = s.captures ∧ (setTouch d x s).warps = s.warps ∧
    (setTouch d x s).gpus = s.gpus ∧ (setTouch d x s).drams = s.drams ∧ (setTouch d x s).audio = s.audio ∧ (setTouch d x s).haptics = s.haptics ∧
    (setTouch d x s).checks = s.checks ∧ (setTouch d x s).powers = s.powers ∧ (setTouch d x s).linkTests = s.linkTests ∧
    (setTouch d x s).ebrums = s.ebrums ∧ (setTouch d x s).boots = s.boots ∧ (∀ a_, (setTouch d x s).rd a_ = s.rd a_) ∧
    (∀ a_ k_, (setTouch d x s).rdF a_ k_ = s.rdF a_ k_) ∧ (∀ a_ k_, (setTouch d x s).flag a_ k_ = s.flag a_ k_) ∧
    (∀ a_, (setTouch d x s).rd64 a_ = s.rd64 a_) ∧ (∀ d_, (setTouch d x s).now d_ = s.now d_) ∧ (∀ d_, (setTouch d x s).tbase d_ = s.tbase d_) ∧
    (∀ k_, (setTouch d x s).freeNat k_ = s.freeNat k_) ∧ (∀ q_, (setTouch d x s).ringAux q_ = s.ringAux q_) ∧
    (∀ f_, (setTouch d x s).fnAux f_ = s.fnAux f_) ∧ (∀ h_, (setTouch d x s).route h_ = s.route h_) ∧
    (∀ f_, (setTouch d x s).tenant f_ = s.tenant f_) ∧ (∀ h_, (setTouch d x s).head h_ = s.head h_) ∧ (∀ k_, (setTouch d x s).port k_ = s.port k_) ∧
    (∀ d_, (setTouch d x s).paceOf d_ = s.paceOf d_) ∧ (∀ d_ k_, (setTouch d x s).xing d_ k_ = s.xing d_ k_) ∧
    (∀ a_, (setTouch d x s).isl a_ = s.isl a_) ∧ (∀ d_, (setTouch d x s).permit d_ = s.permit d_) ∧ (∀ d_, (setTouch d x s).power d_ = s.power d_) ∧
    (∀ d_, (setTouch d x s).rin d_ = s.rin d_) ∧ (∀ d_, (setTouch d x s).boot d_ = s.boot d_) ∧ (∀ d_, (setTouch d x s).garnet d_ = s.garnet d_) ∧
    (∀ k_, (setTouch d x s).camPort k_ = s.camPort k_) ∧ (∀ p_ v_, (setTouch d x s).stream p_ v_ = s.stream p_ v_) ∧
    (∀ h_, (setTouch d x s).capture h_ = s.capture h_) ∧ (∀ d_, (setTouch d x s).warp d_ = s.warp d_) ∧ (∀ d_, (setTouch d x s).gpu d_ = s.gpu d_) ∧
    (∀ d_, (setTouch d x s).dram d_ = s.dram d_) ∧ (∀ h_, (setTouch d x s).aroute h_ = s.aroute h_) ∧ (∀ b_, (setTouch d x s).bus b_ = s.bus b_) ∧
    (∀ c_, (setTouch d x s).hap c_ = s.hap c_) ∧ (∀ d_, (setTouch d x s).check d_ = s.check d_) ∧ (∀ d_, (setTouch d x s).ltest d_ = s.ltest d_) ∧
    (∀ d_, (setTouch d x s).ebrum d_ = s.ebrum d_) :=
  ⟨rfl, rfl, rfl, rfl, rfl, rfl, rfl, rfl, rfl, rfl, rfl, rfl, rfl, rfl, rfl, rfl, rfl, rfl, rfl, rfl, rfl, rfl, rfl, rfl, rfl, rfl, rfl, rfl, rfl,
   rfl, rfl, rfl, rfl, rfl, rfl, rfl, rfl, rfl, rfl, rfl, rfl, rfl, rfl, rfl, rfl, rfl, rfl, rfl, rfl, rfl, rfl, fun _ => rfl, fun _ _ => rfl,
   fun _ _ => rfl, fun _ => rfl, fun _ => rfl, fun _ => rfl, fun _ => rfl, fun _ => rfl, fun _ => rfl, fun _ => rfl, fun _ => rfl, fun _ => rfl,
   fun _ => rfl, fun _ => rfl, fun _ _ => rfl, fun _ => rfl, fun _ => rfl, fun _ => rfl, fun _ => rfl, fun _ => rfl, fun _ => rfl, fun _ => rfl,
   fun _ _ => rfl, fun _ => rfl, fun _ => rfl, fun _ => rfl, fun _ => rfl, fun _ => rfl, fun _ => rfl, fun _ => rfl, fun _ => rfl, fun _ => rfl,
   fun _ => rfl⟩

@[simp] theorem wrF_keeps {a : Nat} {f : Fld} {v : Nat} {s : State} :
    (wrF a f v s).part = s.part ∧ (wrF a f v s).pending = s.pending ∧ (wrF a f v s).mem = s.mem ∧ (wrF a f v s).island = s.island ∧
    (wrF a f v s).staged = s.staged ∧ (wrF a f v s).latched = s.latched ∧ (wrF a f v s).readData = s.readData ∧ (wrF a f v s).timeA = s.timeA ∧
    (wrF a f v s).timeB = s.timeB ∧ (wrF a f v s).tbases = s.tbases ∧ (wrF a f v s).free = s.free ∧ (wrF a f v s).out = s.out ∧
    (wrF a f v s).nextTag = s.nextTag ∧ (wrF a f v s).rings = s.rings ∧ (wrF a f v s).fns = s.fns ∧ (wrF a f v s).owed = s.owed ∧
    (wrF a f v s).routes = s.routes ∧ (wrF a f v s).tenants = s.tenants ∧ (wrF a f v s).tlb = s.tlb ∧ (wrF a f v s).invs = s.invs ∧
    (wrF a f v s).poison = s.poison ∧ (wrF a f v s).xings = s.xings ∧ (wrF a f v s).pace = s.pace ∧ (wrF a f v s).votes = s.votes ∧
    (wrF a f v s).claims = s.claims ∧ (wrF a f v s).garnetClaims = s.garnetClaims ∧ (wrF a f v s).outOfService = s.outOfService ∧
    (wrF a f v s).debug = s.debug ∧ (wrF a f v s).inReset = s.inReset ∧ (wrF a f v s).porLow = s.porLow ∧ (wrF a f v s).resetnHigh = s.resetnHigh ∧
    (wrF a f v s).split = s.split ∧ (wrF a f v s).rinlar = s.rinlar ∧ (wrF a f v s).heads = s.heads ∧ (wrF a f v s).ports = s.ports ∧
    (wrF a f v s).permits = s.permits ∧ (wrF a f v s).garnets = s.garnets ∧ (wrF a f v s).camPorts = s.camPorts ∧ (wrF a f v s).streams = s.streams ∧
    (wrF a f v s).captures = s.captures ∧ (wrF a f v s).warps = s.warps ∧ (wrF a f v s).gpus = s.gpus ∧ (wrF a f v s).drams = s.drams ∧
    (wrF a f v s).audio = s.audio ∧ (wrF a f v s).haptics = s.haptics ∧ (wrF a f v s).touches = s.touches ∧ (wrF a f v s).checks = s.checks ∧
    (wrF a f v s).powers = s.powers ∧ (wrF a f v s).linkTests = s.linkTests ∧ (wrF a f v s).ebrums = s.ebrums ∧ (wrF a f v s).boots = s.boots ∧
    (∀ d_, (wrF a f v s).now d_ = s.now d_) ∧ (∀ d_, (wrF a f v s).tbase d_ = s.tbase d_) ∧ (∀ k_, (wrF a f v s).freeNat k_ = s.freeNat k_) ∧
    (∀ q_, (wrF a f v s).ringAux q_ = s.ringAux q_) ∧ (∀ f_, (wrF a f v s).fnAux f_ = s.fnAux f_) ∧ (∀ h_, (wrF a f v s).route h_ = s.route h_) ∧
    (∀ f_, (wrF a f v s).tenant f_ = s.tenant f_) ∧ (∀ h_, (wrF a f v s).head h_ = s.head h_) ∧ (∀ k_, (wrF a f v s).port k_ = s.port k_) ∧
    (∀ d_, (wrF a f v s).paceOf d_ = s.paceOf d_) ∧ (∀ d_ k_, (wrF a f v s).xing d_ k_ = s.xing d_ k_) ∧ (∀ a_, (wrF a f v s).isl a_ = s.isl a_) ∧
    (∀ d_, (wrF a f v s).permit d_ = s.permit d_) ∧ (∀ d_, (wrF a f v s).power d_ = s.power d_) ∧ (∀ d_, (wrF a f v s).rin d_ = s.rin d_) ∧
    (∀ d_, (wrF a f v s).boot d_ = s.boot d_) ∧ (∀ d_, (wrF a f v s).garnet d_ = s.garnet d_) ∧ (∀ k_, (wrF a f v s).camPort k_ = s.camPort k_) ∧
    (∀ p_ v_, (wrF a f v s).stream p_ v_ = s.stream p_ v_) ∧ (∀ h_, (wrF a f v s).capture h_ = s.capture h_) ∧
    (∀ d_, (wrF a f v s).warp d_ = s.warp d_) ∧ (∀ d_, (wrF a f v s).gpu d_ = s.gpu d_) ∧ (∀ d_, (wrF a f v s).dram d_ = s.dram d_) ∧
    (∀ h_, (wrF a f v s).aroute h_ = s.aroute h_) ∧ (∀ b_, (wrF a f v s).bus b_ = s.bus b_) ∧ (∀ c_, (wrF a f v s).hap c_ = s.hap c_) ∧
    (∀ d_, (wrF a f v s).touch d_ = s.touch d_) ∧ (∀ d_ k_, (wrF a f v s).sensor d_ k_ = s.sensor d_ k_) ∧
    (∀ d_, (wrF a f v s).check d_ = s.check d_) ∧ (∀ d_, (wrF a f v s).ltest d_ = s.ltest d_) ∧ (∀ d_, (wrF a f v s).ebrum d_ = s.ebrum d_) :=
  ⟨rfl, rfl, rfl, rfl, rfl, rfl, rfl, rfl, rfl, rfl, rfl, rfl, rfl, rfl, rfl, rfl, rfl, rfl, rfl, rfl, rfl, rfl, rfl, rfl, rfl, rfl, rfl, rfl, rfl,
   rfl, rfl, rfl, rfl, rfl, rfl, rfl, rfl, rfl, rfl, rfl, rfl, rfl, rfl, rfl, rfl, rfl, rfl, rfl, rfl, rfl, rfl, fun _ => rfl, fun _ => rfl,
   fun _ => rfl, fun _ => rfl, fun _ => rfl, fun _ => rfl, fun _ => rfl, fun _ => rfl, fun _ => rfl, fun _ => rfl, fun _ _ => rfl, fun _ => rfl,
   fun _ => rfl, fun _ => rfl, fun _ => rfl, fun _ => rfl, fun _ => rfl, fun _ => rfl, fun _ _ => rfl, fun _ => rfl, fun _ => rfl, fun _ => rfl,
   fun _ => rfl, fun _ => rfl, fun _ => rfl, fun _ => rfl, fun _ => rfl, fun _ _ => rfl, fun _ => rfl, fun _ => rfl, fun _ => rfl⟩

@[simp] theorem wrB_keeps {a : Nat} {f : Fld} {v : Bool} {s : State} :
    (wrB a f v s).part = s.part ∧ (wrB a f v s).pending = s.pending ∧ (wrB a f v s).mem = s.mem ∧ (wrB a f v s).island = s.island ∧
    (wrB a f v s).staged = s.staged ∧ (wrB a f v s).latched = s.latched ∧ (wrB a f v s).readData = s.readData ∧ (wrB a f v s).timeA = s.timeA ∧
    (wrB a f v s).timeB = s.timeB ∧ (wrB a f v s).tbases = s.tbases ∧ (wrB a f v s).free = s.free ∧ (wrB a f v s).out = s.out ∧
    (wrB a f v s).nextTag = s.nextTag ∧ (wrB a f v s).rings = s.rings ∧ (wrB a f v s).fns = s.fns ∧ (wrB a f v s).owed = s.owed ∧
    (wrB a f v s).routes = s.routes ∧ (wrB a f v s).tenants = s.tenants ∧ (wrB a f v s).tlb = s.tlb ∧ (wrB a f v s).invs = s.invs ∧
    (wrB a f v s).poison = s.poison ∧ (wrB a f v s).xings = s.xings ∧ (wrB a f v s).pace = s.pace ∧ (wrB a f v s).votes = s.votes ∧
    (wrB a f v s).claims = s.claims ∧ (wrB a f v s).garnetClaims = s.garnetClaims ∧ (wrB a f v s).outOfService = s.outOfService ∧
    (wrB a f v s).debug = s.debug ∧ (wrB a f v s).inReset = s.inReset ∧ (wrB a f v s).porLow = s.porLow ∧ (wrB a f v s).resetnHigh = s.resetnHigh ∧
    (wrB a f v s).split = s.split ∧ (wrB a f v s).rinlar = s.rinlar ∧ (wrB a f v s).heads = s.heads ∧ (wrB a f v s).ports = s.ports ∧
    (wrB a f v s).permits = s.permits ∧ (wrB a f v s).garnets = s.garnets ∧ (wrB a f v s).camPorts = s.camPorts ∧ (wrB a f v s).streams = s.streams ∧
    (wrB a f v s).captures = s.captures ∧ (wrB a f v s).warps = s.warps ∧ (wrB a f v s).gpus = s.gpus ∧ (wrB a f v s).drams = s.drams ∧
    (wrB a f v s).audio = s.audio ∧ (wrB a f v s).haptics = s.haptics ∧ (wrB a f v s).touches = s.touches ∧ (wrB a f v s).checks = s.checks ∧
    (wrB a f v s).powers = s.powers ∧ (wrB a f v s).linkTests = s.linkTests ∧ (wrB a f v s).ebrums = s.ebrums ∧ (wrB a f v s).boots = s.boots ∧
    (∀ d_, (wrB a f v s).now d_ = s.now d_) ∧ (∀ d_, (wrB a f v s).tbase d_ = s.tbase d_) ∧ (∀ k_, (wrB a f v s).freeNat k_ = s.freeNat k_) ∧
    (∀ q_, (wrB a f v s).ringAux q_ = s.ringAux q_) ∧ (∀ f_, (wrB a f v s).fnAux f_ = s.fnAux f_) ∧ (∀ h_, (wrB a f v s).route h_ = s.route h_) ∧
    (∀ f_, (wrB a f v s).tenant f_ = s.tenant f_) ∧ (∀ h_, (wrB a f v s).head h_ = s.head h_) ∧ (∀ k_, (wrB a f v s).port k_ = s.port k_) ∧
    (∀ d_, (wrB a f v s).paceOf d_ = s.paceOf d_) ∧ (∀ d_ k_, (wrB a f v s).xing d_ k_ = s.xing d_ k_) ∧ (∀ a_, (wrB a f v s).isl a_ = s.isl a_) ∧
    (∀ d_, (wrB a f v s).permit d_ = s.permit d_) ∧ (∀ d_, (wrB a f v s).power d_ = s.power d_) ∧ (∀ d_, (wrB a f v s).rin d_ = s.rin d_) ∧
    (∀ d_, (wrB a f v s).boot d_ = s.boot d_) ∧ (∀ d_, (wrB a f v s).garnet d_ = s.garnet d_) ∧ (∀ k_, (wrB a f v s).camPort k_ = s.camPort k_) ∧
    (∀ p_ v_, (wrB a f v s).stream p_ v_ = s.stream p_ v_) ∧ (∀ h_, (wrB a f v s).capture h_ = s.capture h_) ∧
    (∀ d_, (wrB a f v s).warp d_ = s.warp d_) ∧ (∀ d_, (wrB a f v s).gpu d_ = s.gpu d_) ∧ (∀ d_, (wrB a f v s).dram d_ = s.dram d_) ∧
    (∀ h_, (wrB a f v s).aroute h_ = s.aroute h_) ∧ (∀ b_, (wrB a f v s).bus b_ = s.bus b_) ∧ (∀ c_, (wrB a f v s).hap c_ = s.hap c_) ∧
    (∀ d_, (wrB a f v s).touch d_ = s.touch d_) ∧ (∀ d_ k_, (wrB a f v s).sensor d_ k_ = s.sensor d_ k_) ∧
    (∀ d_, (wrB a f v s).check d_ = s.check d_) ∧ (∀ d_, (wrB a f v s).ltest d_ = s.ltest d_) ∧ (∀ d_, (wrB a f v s).ebrum d_ = s.ebrum d_) :=
  ⟨rfl, rfl, rfl, rfl, rfl, rfl, rfl, rfl, rfl, rfl, rfl, rfl, rfl, rfl, rfl, rfl, rfl, rfl, rfl, rfl, rfl, rfl, rfl, rfl, rfl, rfl, rfl, rfl, rfl,
   rfl, rfl, rfl, rfl, rfl, rfl, rfl, rfl, rfl, rfl, rfl, rfl, rfl, rfl, rfl, rfl, rfl, rfl, rfl, rfl, rfl, rfl, fun _ => rfl, fun _ => rfl,
   fun _ => rfl, fun _ => rfl, fun _ => rfl, fun _ => rfl, fun _ => rfl, fun _ => rfl, fun _ => rfl, fun _ => rfl, fun _ _ => rfl, fun _ => rfl,
   fun _ => rfl, fun _ => rfl, fun _ => rfl, fun _ => rfl, fun _ => rfl, fun _ => rfl, fun _ _ => rfl, fun _ => rfl, fun _ => rfl, fun _ => rfl,
   fun _ => rfl, fun _ => rfl, fun _ => rfl, fun _ => rfl, fun _ => rfl, fun _ _ => rfl, fun _ => rfl, fun _ => rfl, fun _ => rfl⟩

@[simp] theorem satF_keeps {a : Nat} {f : Fld} {n : Nat} {s : State} :
    (satF a f n s).part = s.part ∧ (satF a f n s).pending = s.pending ∧ (satF a f n s).mem = s.mem ∧ (satF a f n s).island = s.island ∧
    (satF a f n s).staged = s.staged ∧ (satF a f n s).latched = s.latched ∧ (satF a f n s).readData = s.readData ∧ (satF a f n s).timeA = s.timeA ∧
    (satF a f n s).timeB = s.timeB ∧ (satF a f n s).tbases = s.tbases ∧ (satF a f n s).free = s.free ∧ (satF a f n s).out = s.out ∧
    (satF a f n s).nextTag = s.nextTag ∧ (satF a f n s).rings = s.rings ∧ (satF a f n s).fns = s.fns ∧ (satF a f n s).owed = s.owed ∧
    (satF a f n s).routes = s.routes ∧ (satF a f n s).tenants = s.tenants ∧ (satF a f n s).tlb = s.tlb ∧ (satF a f n s).invs = s.invs ∧
    (satF a f n s).poison = s.poison ∧ (satF a f n s).xings = s.xings ∧ (satF a f n s).pace = s.pace ∧ (satF a f n s).votes = s.votes ∧
    (satF a f n s).claims = s.claims ∧ (satF a f n s).garnetClaims = s.garnetClaims ∧ (satF a f n s).outOfService = s.outOfService ∧
    (satF a f n s).debug = s.debug ∧ (satF a f n s).inReset = s.inReset ∧ (satF a f n s).porLow = s.porLow ∧
    (satF a f n s).resetnHigh = s.resetnHigh ∧ (satF a f n s).split = s.split ∧ (satF a f n s).rinlar = s.rinlar ∧ (satF a f n s).heads = s.heads ∧
    (satF a f n s).ports = s.ports ∧ (satF a f n s).permits = s.permits ∧ (satF a f n s).garnets = s.garnets ∧ (satF a f n s).camPorts = s.camPorts ∧
    (satF a f n s).streams = s.streams ∧ (satF a f n s).captures = s.captures ∧ (satF a f n s).warps = s.warps ∧ (satF a f n s).gpus = s.gpus ∧
    (satF a f n s).drams = s.drams ∧ (satF a f n s).audio = s.audio ∧ (satF a f n s).haptics = s.haptics ∧ (satF a f n s).touches = s.touches ∧
    (satF a f n s).checks = s.checks ∧ (satF a f n s).powers = s.powers ∧ (satF a f n s).linkTests = s.linkTests ∧ (satF a f n s).ebrums = s.ebrums ∧
    (satF a f n s).boots = s.boots ∧ (∀ d_, (satF a f n s).now d_ = s.now d_) ∧ (∀ d_, (satF a f n s).tbase d_ = s.tbase d_) ∧
    (∀ k_, (satF a f n s).freeNat k_ = s.freeNat k_) ∧ (∀ q_, (satF a f n s).ringAux q_ = s.ringAux q_) ∧
    (∀ f_, (satF a f n s).fnAux f_ = s.fnAux f_) ∧ (∀ h_, (satF a f n s).route h_ = s.route h_) ∧ (∀ f_, (satF a f n s).tenant f_ = s.tenant f_) ∧
    (∀ h_, (satF a f n s).head h_ = s.head h_) ∧ (∀ k_, (satF a f n s).port k_ = s.port k_) ∧ (∀ d_, (satF a f n s).paceOf d_ = s.paceOf d_) ∧
    (∀ d_ k_, (satF a f n s).xing d_ k_ = s.xing d_ k_) ∧ (∀ a_, (satF a f n s).isl a_ = s.isl a_) ∧ (∀ d_, (satF a f n s).permit d_ = s.permit d_) ∧
    (∀ d_, (satF a f n s).power d_ = s.power d_) ∧ (∀ d_, (satF a f n s).rin d_ = s.rin d_) ∧ (∀ d_, (satF a f n s).boot d_ = s.boot d_) ∧
    (∀ d_, (satF a f n s).garnet d_ = s.garnet d_) ∧ (∀ k_, (satF a f n s).camPort k_ = s.camPort k_) ∧
    (∀ p_ v_, (satF a f n s).stream p_ v_ = s.stream p_ v_) ∧ (∀ h_, (satF a f n s).capture h_ = s.capture h_) ∧
    (∀ d_, (satF a f n s).warp d_ = s.warp d_) ∧ (∀ d_, (satF a f n s).gpu d_ = s.gpu d_) ∧ (∀ d_, (satF a f n s).dram d_ = s.dram d_) ∧
    (∀ h_, (satF a f n s).aroute h_ = s.aroute h_) ∧ (∀ b_, (satF a f n s).bus b_ = s.bus b_) ∧ (∀ c_, (satF a f n s).hap c_ = s.hap c_) ∧
    (∀ d_, (satF a f n s).touch d_ = s.touch d_) ∧ (∀ d_ k_, (satF a f n s).sensor d_ k_ = s.sensor d_ k_) ∧
    (∀ d_, (satF a f n s).check d_ = s.check d_) ∧ (∀ d_, (satF a f n s).ltest d_ = s.ltest d_) ∧ (∀ d_, (satF a f n s).ebrum d_ = s.ebrum d_) :=
  ⟨rfl, rfl, rfl, rfl, rfl, rfl, rfl, rfl, rfl, rfl, rfl, rfl, rfl, rfl, rfl, rfl, rfl, rfl, rfl, rfl, rfl, rfl, rfl, rfl, rfl, rfl, rfl, rfl, rfl,
   rfl, rfl, rfl, rfl, rfl, rfl, rfl, rfl, rfl, rfl, rfl, rfl, rfl, rfl, rfl, rfl, rfl, rfl, rfl, rfl, rfl, rfl, fun _ => rfl, fun _ => rfl,
   fun _ => rfl, fun _ => rfl, fun _ => rfl, fun _ => rfl, fun _ => rfl, fun _ => rfl, fun _ => rfl, fun _ => rfl, fun _ _ => rfl, fun _ => rfl,
   fun _ => rfl, fun _ => rfl, fun _ => rfl, fun _ => rfl, fun _ => rfl, fun _ => rfl, fun _ _ => rfl, fun _ => rfl, fun _ => rfl, fun _ => rfl,
   fun _ => rfl, fun _ => rfl, fun _ => rfl, fun _ => rfl, fun _ => rfl, fun _ _ => rfl, fun _ => rfl, fun _ => rfl, fun _ => rfl⟩

@[simp] theorem maxF_keeps {a : Nat} {f : Fld} {n : Nat} {s : State} :
    (maxF a f n s).part = s.part ∧ (maxF a f n s).pending = s.pending ∧ (maxF a f n s).mem = s.mem ∧ (maxF a f n s).island = s.island ∧
    (maxF a f n s).staged = s.staged ∧ (maxF a f n s).latched = s.latched ∧ (maxF a f n s).readData = s.readData ∧ (maxF a f n s).timeA = s.timeA ∧
    (maxF a f n s).timeB = s.timeB ∧ (maxF a f n s).tbases = s.tbases ∧ (maxF a f n s).free = s.free ∧ (maxF a f n s).out = s.out ∧
    (maxF a f n s).nextTag = s.nextTag ∧ (maxF a f n s).rings = s.rings ∧ (maxF a f n s).fns = s.fns ∧ (maxF a f n s).owed = s.owed ∧
    (maxF a f n s).routes = s.routes ∧ (maxF a f n s).tenants = s.tenants ∧ (maxF a f n s).tlb = s.tlb ∧ (maxF a f n s).invs = s.invs ∧
    (maxF a f n s).poison = s.poison ∧ (maxF a f n s).xings = s.xings ∧ (maxF a f n s).pace = s.pace ∧ (maxF a f n s).votes = s.votes ∧
    (maxF a f n s).claims = s.claims ∧ (maxF a f n s).garnetClaims = s.garnetClaims ∧ (maxF a f n s).outOfService = s.outOfService ∧
    (maxF a f n s).debug = s.debug ∧ (maxF a f n s).inReset = s.inReset ∧ (maxF a f n s).porLow = s.porLow ∧
    (maxF a f n s).resetnHigh = s.resetnHigh ∧ (maxF a f n s).split = s.split ∧ (maxF a f n s).rinlar = s.rinlar ∧ (maxF a f n s).heads = s.heads ∧
    (maxF a f n s).ports = s.ports ∧ (maxF a f n s).permits = s.permits ∧ (maxF a f n s).garnets = s.garnets ∧ (maxF a f n s).camPorts = s.camPorts ∧
    (maxF a f n s).streams = s.streams ∧ (maxF a f n s).captures = s.captures ∧ (maxF a f n s).warps = s.warps ∧ (maxF a f n s).gpus = s.gpus ∧
    (maxF a f n s).drams = s.drams ∧ (maxF a f n s).audio = s.audio ∧ (maxF a f n s).haptics = s.haptics ∧ (maxF a f n s).touches = s.touches ∧
    (maxF a f n s).checks = s.checks ∧ (maxF a f n s).powers = s.powers ∧ (maxF a f n s).linkTests = s.linkTests ∧ (maxF a f n s).ebrums = s.ebrums ∧
    (maxF a f n s).boots = s.boots ∧ (∀ d_, (maxF a f n s).now d_ = s.now d_) ∧ (∀ d_, (maxF a f n s).tbase d_ = s.tbase d_) ∧
    (∀ k_, (maxF a f n s).freeNat k_ = s.freeNat k_) ∧ (∀ q_, (maxF a f n s).ringAux q_ = s.ringAux q_) ∧
    (∀ f_, (maxF a f n s).fnAux f_ = s.fnAux f_) ∧ (∀ h_, (maxF a f n s).route h_ = s.route h_) ∧ (∀ f_, (maxF a f n s).tenant f_ = s.tenant f_) ∧
    (∀ h_, (maxF a f n s).head h_ = s.head h_) ∧ (∀ k_, (maxF a f n s).port k_ = s.port k_) ∧ (∀ d_, (maxF a f n s).paceOf d_ = s.paceOf d_) ∧
    (∀ d_ k_, (maxF a f n s).xing d_ k_ = s.xing d_ k_) ∧ (∀ a_, (maxF a f n s).isl a_ = s.isl a_) ∧ (∀ d_, (maxF a f n s).permit d_ = s.permit d_) ∧
    (∀ d_, (maxF a f n s).power d_ = s.power d_) ∧ (∀ d_, (maxF a f n s).rin d_ = s.rin d_) ∧ (∀ d_, (maxF a f n s).boot d_ = s.boot d_) ∧
    (∀ d_, (maxF a f n s).garnet d_ = s.garnet d_) ∧ (∀ k_, (maxF a f n s).camPort k_ = s.camPort k_) ∧
    (∀ p_ v_, (maxF a f n s).stream p_ v_ = s.stream p_ v_) ∧ (∀ h_, (maxF a f n s).capture h_ = s.capture h_) ∧
    (∀ d_, (maxF a f n s).warp d_ = s.warp d_) ∧ (∀ d_, (maxF a f n s).gpu d_ = s.gpu d_) ∧ (∀ d_, (maxF a f n s).dram d_ = s.dram d_) ∧
    (∀ h_, (maxF a f n s).aroute h_ = s.aroute h_) ∧ (∀ b_, (maxF a f n s).bus b_ = s.bus b_) ∧ (∀ c_, (maxF a f n s).hap c_ = s.hap c_) ∧
    (∀ d_, (maxF a f n s).touch d_ = s.touch d_) ∧ (∀ d_ k_, (maxF a f n s).sensor d_ k_ = s.sensor d_ k_) ∧
    (∀ d_, (maxF a f n s).check d_ = s.check d_) ∧ (∀ d_, (maxF a f n s).ltest d_ = s.ltest d_) ∧ (∀ d_, (maxF a f n s).ebrum d_ = s.ebrum d_) :=
  ⟨rfl, rfl, rfl, rfl, rfl, rfl, rfl, rfl, rfl, rfl, rfl, rfl, rfl, rfl, rfl, rfl, rfl, rfl, rfl, rfl, rfl, rfl, rfl, rfl, rfl, rfl, rfl, rfl, rfl,
   rfl, rfl, rfl, rfl, rfl, rfl, rfl, rfl, rfl, rfl, rfl, rfl, rfl, rfl, rfl, rfl, rfl, rfl, rfl, rfl, rfl, rfl, fun _ => rfl, fun _ => rfl,
   fun _ => rfl, fun _ => rfl, fun _ => rfl, fun _ => rfl, fun _ => rfl, fun _ => rfl, fun _ => rfl, fun _ => rfl, fun _ _ => rfl, fun _ => rfl,
   fun _ => rfl, fun _ => rfl, fun _ => rfl, fun _ => rfl, fun _ => rfl, fun _ => rfl, fun _ _ => rfl, fun _ => rfl, fun _ => rfl, fun _ => rfl,
   fun _ => rfl, fun _ => rfl, fun _ => rfl, fun _ => rfl, fun _ => rfl, fun _ _ => rfl, fun _ => rfl, fun _ => rfl, fun _ => rfl⟩

@[simp] theorem setScan_keeps {d : Die} {n : Nat} {x : GScan} {s : State} :
    (setScan d n x s).part = s.part ∧ (setScan d n x s).pending = s.pending ∧ (setScan d n x s).mem = s.mem ∧ (setScan d n x s).regs = s.regs ∧
    (setScan d n x s).island = s.island ∧ (setScan d n x s).staged = s.staged ∧ (setScan d n x s).latched = s.latched ∧
    (setScan d n x s).readData = s.readData ∧ (setScan d n x s).timeA = s.timeA ∧ (setScan d n x s).timeB = s.timeB ∧
    (setScan d n x s).tbases = s.tbases ∧ (setScan d n x s).free = s.free ∧ (setScan d n x s).out = s.out ∧ (setScan d n x s).nextTag = s.nextTag ∧
    (setScan d n x s).rings = s.rings ∧ (setScan d n x s).fns = s.fns ∧ (setScan d n x s).owed = s.owed ∧ (setScan d n x s).routes = s.routes ∧
    (setScan d n x s).tenants = s.tenants ∧ (setScan d n x s).tlb = s.tlb ∧ (setScan d n x s).invs = s.invs ∧ (setScan d n x s).poison = s.poison ∧
    (setScan d n x s).xings = s.xings ∧ (setScan d n x s).pace = s.pace ∧ (setScan d n x s).votes = s.votes ∧ (setScan d n x s).claims = s.claims ∧
    (setScan d n x s).garnetClaims = s.garnetClaims ∧ (setScan d n x s).outOfService = s.outOfService ∧ (setScan d n x s).debug = s.debug ∧
    (setScan d n x s).inReset = s.inReset ∧ (setScan d n x s).porLow = s.porLow ∧ (setScan d n x s).resetnHigh = s.resetnHigh ∧
    (setScan d n x s).split = s.split ∧ (setScan d n x s).rinlar = s.rinlar ∧ (setScan d n x s).heads = s.heads ∧ (setScan d n x s).ports = s.ports ∧
    (setScan d n x s).permits = s.permits ∧ (setScan d n x s).camPorts = s.camPorts ∧ (setScan d n x s).streams = s.streams ∧
    (setScan d n x s).captures = s.captures ∧ (setScan d n x s).warps = s.warps ∧ (setScan d n x s).gpus = s.gpus ∧
    (setScan d n x s).drams = s.drams ∧ (setScan d n x s).audio = s.audio ∧ (setScan d n x s).haptics = s.haptics ∧
    (setScan d n x s).touches = s.touches ∧ (setScan d n x s).checks = s.checks ∧ (setScan d n x s).powers = s.powers ∧
    (setScan d n x s).linkTests = s.linkTests ∧ (setScan d n x s).ebrums = s.ebrums ∧ (setScan d n x s).boots = s.boots ∧
    (∀ a_, (setScan d n x s).rd a_ = s.rd a_) ∧ (∀ a_ k_, (setScan d n x s).rdF a_ k_ = s.rdF a_ k_) ∧
    (∀ a_ k_, (setScan d n x s).flag a_ k_ = s.flag a_ k_) ∧ (∀ a_, (setScan d n x s).rd64 a_ = s.rd64 a_) ∧
    (∀ d_, (setScan d n x s).now d_ = s.now d_) ∧ (∀ d_, (setScan d n x s).tbase d_ = s.tbase d_) ∧
    (∀ k_, (setScan d n x s).freeNat k_ = s.freeNat k_) ∧ (∀ q_, (setScan d n x s).ringAux q_ = s.ringAux q_) ∧
    (∀ f_, (setScan d n x s).fnAux f_ = s.fnAux f_) ∧ (∀ h_, (setScan d n x s).route h_ = s.route h_) ∧
    (∀ f_, (setScan d n x s).tenant f_ = s.tenant f_) ∧ (∀ h_, (setScan d n x s).head h_ = s.head h_) ∧
    (∀ k_, (setScan d n x s).port k_ = s.port k_) ∧ (∀ d_, (setScan d n x s).paceOf d_ = s.paceOf d_) ∧
    (∀ d_ k_, (setScan d n x s).xing d_ k_ = s.xing d_ k_) ∧ (∀ a_, (setScan d n x s).isl a_ = s.isl a_) ∧
    (∀ d_, (setScan d n x s).permit d_ = s.permit d_) ∧ (∀ d_, (setScan d n x s).power d_ = s.power d_) ∧
    (∀ d_, (setScan d n x s).rin d_ = s.rin d_) ∧ (∀ d_, (setScan d n x s).boot d_ = s.boot d_) ∧
    (∀ k_, (setScan d n x s).camPort k_ = s.camPort k_) ∧ (∀ p_ v_, (setScan d n x s).stream p_ v_ = s.stream p_ v_) ∧
    (∀ h_, (setScan d n x s).capture h_ = s.capture h_) ∧ (∀ d_, (setScan d n x s).warp d_ = s.warp d_) ∧
    (∀ d_, (setScan d n x s).gpu d_ = s.gpu d_) ∧ (∀ d_, (setScan d n x s).dram d_ = s.dram d_) ∧ (∀ h_, (setScan d n x s).aroute h_ = s.aroute h_) ∧
    (∀ b_, (setScan d n x s).bus b_ = s.bus b_) ∧ (∀ c_, (setScan d n x s).hap c_ = s.hap c_) ∧ (∀ d_, (setScan d n x s).touch d_ = s.touch d_) ∧
    (∀ d_ k_, (setScan d n x s).sensor d_ k_ = s.sensor d_ k_) ∧ (∀ d_, (setScan d n x s).check d_ = s.check d_) ∧
    (∀ d_, (setScan d n x s).ltest d_ = s.ltest d_) ∧ (∀ d_, (setScan d n x s).ebrum d_ = s.ebrum d_) :=
  ⟨rfl, rfl, rfl, rfl, rfl, rfl, rfl, rfl, rfl, rfl, rfl, rfl, rfl, rfl, rfl, rfl, rfl, rfl, rfl, rfl, rfl, rfl, rfl, rfl, rfl, rfl, rfl, rfl, rfl,
   rfl, rfl, rfl, rfl, rfl, rfl, rfl, rfl, rfl, rfl, rfl, rfl, rfl, rfl, rfl, rfl, rfl, rfl, rfl, rfl, rfl, rfl, fun _ => rfl, fun _ _ => rfl,
   fun _ _ => rfl, fun _ => rfl, fun _ => rfl, fun _ => rfl, fun _ => rfl, fun _ => rfl, fun _ => rfl, fun _ => rfl, fun _ => rfl, fun _ => rfl,
   fun _ => rfl, fun _ => rfl, fun _ _ => rfl, fun _ => rfl, fun _ => rfl, fun _ => rfl, fun _ => rfl, fun _ => rfl, fun _ => rfl, fun _ _ => rfl,
   fun _ => rfl, fun _ => rfl, fun _ => rfl, fun _ => rfl, fun _ => rfl, fun _ => rfl, fun _ => rfl, fun _ => rfl, fun _ _ => rfl, fun _ => rfl,
   fun _ => rfl, fun _ => rfl⟩

@[simp] theorem setWindow_keeps {d : Die} {k : Nat} {x : GWindow} {s : State} :
    (setWindow d k x s).part = s.part ∧ (setWindow d k x s).pending = s.pending ∧ (setWindow d k x s).mem = s.mem ∧
    (setWindow d k x s).regs = s.regs ∧ (setWindow d k x s).island = s.island ∧ (setWindow d k x s).staged = s.staged ∧
    (setWindow d k x s).latched = s.latched ∧ (setWindow d k x s).readData = s.readData ∧ (setWindow d k x s).timeA = s.timeA ∧
    (setWindow d k x s).timeB = s.timeB ∧ (setWindow d k x s).tbases = s.tbases ∧ (setWindow d k x s).free = s.free ∧
    (setWindow d k x s).out = s.out ∧ (setWindow d k x s).nextTag = s.nextTag ∧ (setWindow d k x s).rings = s.rings ∧
    (setWindow d k x s).fns = s.fns ∧ (setWindow d k x s).owed = s.owed ∧ (setWindow d k x s).routes = s.routes ∧
    (setWindow d k x s).tenants = s.tenants ∧ (setWindow d k x s).tlb = s.tlb ∧ (setWindow d k x s).invs = s.invs ∧
    (setWindow d k x s).poison = s.poison ∧ (setWindow d k x s).xings = s.xings ∧ (setWindow d k x s).pace = s.pace ∧
    (setWindow d k x s).votes = s.votes ∧ (setWindow d k x s).claims = s.claims ∧ (setWindow d k x s).garnetClaims = s.garnetClaims ∧
    (setWindow d k x s).outOfService = s.outOfService ∧ (setWindow d k x s).debug = s.debug ∧ (setWindow d k x s).inReset = s.inReset ∧
    (setWindow d k x s).porLow = s.porLow ∧ (setWindow d k x s).resetnHigh = s.resetnHigh ∧ (setWindow d k x s).split = s.split ∧
    (setWindow d k x s).rinlar = s.rinlar ∧ (setWindow d k x s).heads = s.heads ∧ (setWindow d k x s).ports = s.ports ∧
    (setWindow d k x s).permits = s.permits ∧ (setWindow d k x s).camPorts = s.camPorts ∧ (setWindow d k x s).streams = s.streams ∧
    (setWindow d k x s).captures = s.captures ∧ (setWindow d k x s).warps = s.warps ∧ (setWindow d k x s).gpus = s.gpus ∧
    (setWindow d k x s).drams = s.drams ∧ (setWindow d k x s).audio = s.audio ∧ (setWindow d k x s).haptics = s.haptics ∧
    (setWindow d k x s).touches = s.touches ∧ (setWindow d k x s).checks = s.checks ∧ (setWindow d k x s).powers = s.powers ∧
    (setWindow d k x s).linkTests = s.linkTests ∧ (setWindow d k x s).ebrums = s.ebrums ∧ (setWindow d k x s).boots = s.boots ∧
    (∀ a_, (setWindow d k x s).rd a_ = s.rd a_) ∧ (∀ a_ k_, (setWindow d k x s).rdF a_ k_ = s.rdF a_ k_) ∧
    (∀ a_ k_, (setWindow d k x s).flag a_ k_ = s.flag a_ k_) ∧ (∀ a_, (setWindow d k x s).rd64 a_ = s.rd64 a_) ∧
    (∀ d_, (setWindow d k x s).now d_ = s.now d_) ∧ (∀ d_, (setWindow d k x s).tbase d_ = s.tbase d_) ∧
    (∀ k_, (setWindow d k x s).freeNat k_ = s.freeNat k_) ∧ (∀ q_, (setWindow d k x s).ringAux q_ = s.ringAux q_) ∧
    (∀ f_, (setWindow d k x s).fnAux f_ = s.fnAux f_) ∧ (∀ h_, (setWindow d k x s).route h_ = s.route h_) ∧
    (∀ f_, (setWindow d k x s).tenant f_ = s.tenant f_) ∧ (∀ h_, (setWindow d k x s).head h_ = s.head h_) ∧
    (∀ k_, (setWindow d k x s).port k_ = s.port k_) ∧ (∀ d_, (setWindow d k x s).paceOf d_ = s.paceOf d_) ∧
    (∀ d_ k_, (setWindow d k x s).xing d_ k_ = s.xing d_ k_) ∧ (∀ a_, (setWindow d k x s).isl a_ = s.isl a_) ∧
    (∀ d_, (setWindow d k x s).permit d_ = s.permit d_) ∧ (∀ d_, (setWindow d k x s).power d_ = s.power d_) ∧
    (∀ d_, (setWindow d k x s).rin d_ = s.rin d_) ∧ (∀ d_, (setWindow d k x s).boot d_ = s.boot d_) ∧
    (∀ k_, (setWindow d k x s).camPort k_ = s.camPort k_) ∧ (∀ p_ v_, (setWindow d k x s).stream p_ v_ = s.stream p_ v_) ∧
    (∀ h_, (setWindow d k x s).capture h_ = s.capture h_) ∧ (∀ d_, (setWindow d k x s).warp d_ = s.warp d_) ∧
    (∀ d_, (setWindow d k x s).gpu d_ = s.gpu d_) ∧ (∀ d_, (setWindow d k x s).dram d_ = s.dram d_) ∧
    (∀ h_, (setWindow d k x s).aroute h_ = s.aroute h_) ∧ (∀ b_, (setWindow d k x s).bus b_ = s.bus b_) ∧
    (∀ c_, (setWindow d k x s).hap c_ = s.hap c_) ∧ (∀ d_, (setWindow d k x s).touch d_ = s.touch d_) ∧
    (∀ d_ k_, (setWindow d k x s).sensor d_ k_ = s.sensor d_ k_) ∧ (∀ d_, (setWindow d k x s).check d_ = s.check d_) ∧
    (∀ d_, (setWindow d k x s).ltest d_ = s.ltest d_) ∧ (∀ d_, (setWindow d k x s).ebrum d_ = s.ebrum d_) :=
  ⟨rfl, rfl, rfl, rfl, rfl, rfl, rfl, rfl, rfl, rfl, rfl, rfl, rfl, rfl, rfl, rfl, rfl, rfl, rfl, rfl, rfl, rfl, rfl, rfl, rfl, rfl, rfl, rfl, rfl,
   rfl, rfl, rfl, rfl, rfl, rfl, rfl, rfl, rfl, rfl, rfl, rfl, rfl, rfl, rfl, rfl, rfl, rfl, rfl, rfl, rfl, rfl, fun _ => rfl, fun _ _ => rfl,
   fun _ _ => rfl, fun _ => rfl, fun _ => rfl, fun _ => rfl, fun _ => rfl, fun _ => rfl, fun _ => rfl, fun _ => rfl, fun _ => rfl, fun _ => rfl,
   fun _ => rfl, fun _ => rfl, fun _ _ => rfl, fun _ => rfl, fun _ => rfl, fun _ => rfl, fun _ => rfl, fun _ => rfl, fun _ => rfl, fun _ _ => rfl,
   fun _ => rfl, fun _ => rfl, fun _ => rfl, fun _ => rfl, fun _ => rfl, fun _ => rfl, fun _ => rfl, fun _ => rfl, fun _ _ => rfl, fun _ => rfl,
   fun _ => rfl, fun _ => rfl⟩

@[simp] theorem wr64_keeps {a v : Nat} {s : State} :
    (wr64 a v s).part = s.part ∧ (wr64 a v s).pending = s.pending ∧ (wr64 a v s).mem = s.mem ∧ (wr64 a v s).island = s.island ∧
    (wr64 a v s).staged = s.staged ∧ (wr64 a v s).latched = s.latched ∧ (wr64 a v s).readData = s.readData ∧ (wr64 a v s).timeA = s.timeA ∧
    (wr64 a v s).timeB = s.timeB ∧ (wr64 a v s).tbases = s.tbases ∧ (wr64 a v s).free = s.free ∧ (wr64 a v s).out = s.out ∧
    (wr64 a v s).nextTag = s.nextTag ∧ (wr64 a v s).rings = s.rings ∧ (wr64 a v s).fns = s.fns ∧ (wr64 a v s).owed = s.owed ∧
    (wr64 a v s).routes = s.routes ∧ (wr64 a v s).tenants = s.tenants ∧ (wr64 a v s).tlb = s.tlb ∧ (wr64 a v s).invs = s.invs ∧
    (wr64 a v s).poison = s.poison ∧ (wr64 a v s).xings = s.xings ∧ (wr64 a v s).pace = s.pace ∧ (wr64 a v s).votes = s.votes ∧
    (wr64 a v s).claims = s.claims ∧ (wr64 a v s).garnetClaims = s.garnetClaims ∧ (wr64 a v s).outOfService = s.outOfService ∧
    (wr64 a v s).debug = s.debug ∧ (wr64 a v s).inReset = s.inReset ∧ (wr64 a v s).porLow = s.porLow ∧ (wr64 a v s).resetnHigh = s.resetnHigh ∧
    (wr64 a v s).split = s.split ∧ (wr64 a v s).rinlar = s.rinlar ∧ (wr64 a v s).heads = s.heads ∧ (wr64 a v s).ports = s.ports ∧
    (wr64 a v s).permits = s.permits ∧ (wr64 a v s).garnets = s.garnets ∧ (wr64 a v s).camPorts = s.camPorts ∧ (wr64 a v s).streams = s.streams ∧
    (wr64 a v s).captures = s.captures ∧ (wr64 a v s).warps = s.warps ∧ (wr64 a v s).gpus = s.gpus ∧ (wr64 a v s).drams = s.drams ∧
    (wr64 a v s).audio = s.audio ∧ (wr64 a v s).haptics = s.haptics ∧ (wr64 a v s).touches = s.touches ∧ (wr64 a v s).checks = s.checks ∧
    (wr64 a v s).powers = s.powers ∧ (wr64 a v s).linkTests = s.linkTests ∧ (wr64 a v s).ebrums = s.ebrums ∧ (wr64 a v s).boots = s.boots ∧
    (∀ d_, (wr64 a v s).now d_ = s.now d_) ∧ (∀ d_, (wr64 a v s).tbase d_ = s.tbase d_) ∧ (∀ k_, (wr64 a v s).freeNat k_ = s.freeNat k_) ∧
    (∀ q_, (wr64 a v s).ringAux q_ = s.ringAux q_) ∧ (∀ f_, (wr64 a v s).fnAux f_ = s.fnAux f_) ∧ (∀ h_, (wr64 a v s).route h_ = s.route h_) ∧
    (∀ f_, (wr64 a v s).tenant f_ = s.tenant f_) ∧ (∀ h_, (wr64 a v s).head h_ = s.head h_) ∧ (∀ k_, (wr64 a v s).port k_ = s.port k_) ∧
    (∀ d_, (wr64 a v s).paceOf d_ = s.paceOf d_) ∧ (∀ d_ k_, (wr64 a v s).xing d_ k_ = s.xing d_ k_) ∧ (∀ a_, (wr64 a v s).isl a_ = s.isl a_) ∧
    (∀ d_, (wr64 a v s).permit d_ = s.permit d_) ∧ (∀ d_, (wr64 a v s).power d_ = s.power d_) ∧ (∀ d_, (wr64 a v s).rin d_ = s.rin d_) ∧
    (∀ d_, (wr64 a v s).boot d_ = s.boot d_) ∧ (∀ d_, (wr64 a v s).garnet d_ = s.garnet d_) ∧ (∀ k_, (wr64 a v s).camPort k_ = s.camPort k_) ∧
    (∀ p_ v_, (wr64 a v s).stream p_ v_ = s.stream p_ v_) ∧ (∀ h_, (wr64 a v s).capture h_ = s.capture h_) ∧
    (∀ d_, (wr64 a v s).warp d_ = s.warp d_) ∧ (∀ d_, (wr64 a v s).gpu d_ = s.gpu d_) ∧ (∀ d_, (wr64 a v s).dram d_ = s.dram d_) ∧
    (∀ h_, (wr64 a v s).aroute h_ = s.aroute h_) ∧ (∀ b_, (wr64 a v s).bus b_ = s.bus b_) ∧ (∀ c_, (wr64 a v s).hap c_ = s.hap c_) ∧
    (∀ d_, (wr64 a v s).touch d_ = s.touch d_) ∧ (∀ d_ k_, (wr64 a v s).sensor d_ k_ = s.sensor d_ k_) ∧ (∀ d_, (wr64 a v s).check d_ = s.check d_) ∧
    (∀ d_, (wr64 a v s).ltest d_ = s.ltest d_) ∧ (∀ d_, (wr64 a v s).ebrum d_ = s.ebrum d_) :=
  ⟨rfl, rfl, rfl, rfl, rfl, rfl, rfl, rfl, rfl, rfl, rfl, rfl, rfl, rfl, rfl, rfl, rfl, rfl, rfl, rfl, rfl, rfl, rfl, rfl, rfl, rfl, rfl, rfl, rfl,
   rfl, rfl, rfl, rfl, rfl, rfl, rfl, rfl, rfl, rfl, rfl, rfl, rfl, rfl, rfl, rfl, rfl, rfl, rfl, rfl, rfl, rfl, fun _ => rfl, fun _ => rfl,
   fun _ => rfl, fun _ => rfl, fun _ => rfl, fun _ => rfl, fun _ => rfl, fun _ => rfl, fun _ => rfl, fun _ => rfl, fun _ _ => rfl, fun _ => rfl,
   fun _ => rfl, fun _ => rfl, fun _ => rfl, fun _ => rfl, fun _ => rfl, fun _ => rfl, fun _ _ => rfl, fun _ => rfl, fun _ => rfl, fun _ => rfl,
   fun _ => rfl, fun _ => rfl, fun _ => rfl, fun _ => rfl, fun _ => rfl, fun _ _ => rfl, fun _ => rfl, fun _ => rfl, fun _ => rfl⟩

@[simp] theorem add64_keeps {a n : Nat} {s : State} :
    (add64 a n s).part = s.part ∧ (add64 a n s).pending = s.pending ∧ (add64 a n s).mem = s.mem ∧ (add64 a n s).island = s.island ∧
    (add64 a n s).staged = s.staged ∧ (add64 a n s).latched = s.latched ∧ (add64 a n s).readData = s.readData ∧ (add64 a n s).timeA = s.timeA ∧
    (add64 a n s).timeB = s.timeB ∧ (add64 a n s).tbases = s.tbases ∧ (add64 a n s).free = s.free ∧ (add64 a n s).out = s.out ∧
    (add64 a n s).nextTag = s.nextTag ∧ (add64 a n s).rings = s.rings ∧ (add64 a n s).fns = s.fns ∧ (add64 a n s).owed = s.owed ∧
    (add64 a n s).routes = s.routes ∧ (add64 a n s).tenants = s.tenants ∧ (add64 a n s).tlb = s.tlb ∧ (add64 a n s).invs = s.invs ∧
    (add64 a n s).poison = s.poison ∧ (add64 a n s).xings = s.xings ∧ (add64 a n s).pace = s.pace ∧ (add64 a n s).votes = s.votes ∧
    (add64 a n s).claims = s.claims ∧ (add64 a n s).garnetClaims = s.garnetClaims ∧ (add64 a n s).outOfService = s.outOfService ∧
    (add64 a n s).debug = s.debug ∧ (add64 a n s).inReset = s.inReset ∧ (add64 a n s).porLow = s.porLow ∧ (add64 a n s).resetnHigh = s.resetnHigh ∧
    (add64 a n s).split = s.split ∧ (add64 a n s).rinlar = s.rinlar ∧ (add64 a n s).heads = s.heads ∧ (add64 a n s).ports = s.ports ∧
    (add64 a n s).permits = s.permits ∧ (add64 a n s).garnets = s.garnets ∧ (add64 a n s).camPorts = s.camPorts ∧ (add64 a n s).streams = s.streams ∧
    (add64 a n s).captures = s.captures ∧ (add64 a n s).warps = s.warps ∧ (add64 a n s).gpus = s.gpus ∧ (add64 a n s).drams = s.drams ∧
    (add64 a n s).audio = s.audio ∧ (add64 a n s).haptics = s.haptics ∧ (add64 a n s).touches = s.touches ∧ (add64 a n s).checks = s.checks ∧
    (add64 a n s).powers = s.powers ∧ (add64 a n s).linkTests = s.linkTests ∧ (add64 a n s).ebrums = s.ebrums ∧ (add64 a n s).boots = s.boots ∧
    (∀ d_, (add64 a n s).now d_ = s.now d_) ∧ (∀ d_, (add64 a n s).tbase d_ = s.tbase d_) ∧ (∀ k_, (add64 a n s).freeNat k_ = s.freeNat k_) ∧
    (∀ q_, (add64 a n s).ringAux q_ = s.ringAux q_) ∧ (∀ f_, (add64 a n s).fnAux f_ = s.fnAux f_) ∧ (∀ h_, (add64 a n s).route h_ = s.route h_) ∧
    (∀ f_, (add64 a n s).tenant f_ = s.tenant f_) ∧ (∀ h_, (add64 a n s).head h_ = s.head h_) ∧ (∀ k_, (add64 a n s).port k_ = s.port k_) ∧
    (∀ d_, (add64 a n s).paceOf d_ = s.paceOf d_) ∧ (∀ d_ k_, (add64 a n s).xing d_ k_ = s.xing d_ k_) ∧ (∀ a_, (add64 a n s).isl a_ = s.isl a_) ∧
    (∀ d_, (add64 a n s).permit d_ = s.permit d_) ∧ (∀ d_, (add64 a n s).power d_ = s.power d_) ∧ (∀ d_, (add64 a n s).rin d_ = s.rin d_) ∧
    (∀ d_, (add64 a n s).boot d_ = s.boot d_) ∧ (∀ d_, (add64 a n s).garnet d_ = s.garnet d_) ∧ (∀ k_, (add64 a n s).camPort k_ = s.camPort k_) ∧
    (∀ p_ v_, (add64 a n s).stream p_ v_ = s.stream p_ v_) ∧ (∀ h_, (add64 a n s).capture h_ = s.capture h_) ∧
    (∀ d_, (add64 a n s).warp d_ = s.warp d_) ∧ (∀ d_, (add64 a n s).gpu d_ = s.gpu d_) ∧ (∀ d_, (add64 a n s).dram d_ = s.dram d_) ∧
    (∀ h_, (add64 a n s).aroute h_ = s.aroute h_) ∧ (∀ b_, (add64 a n s).bus b_ = s.bus b_) ∧ (∀ c_, (add64 a n s).hap c_ = s.hap c_) ∧
    (∀ d_, (add64 a n s).touch d_ = s.touch d_) ∧ (∀ d_ k_, (add64 a n s).sensor d_ k_ = s.sensor d_ k_) ∧
    (∀ d_, (add64 a n s).check d_ = s.check d_) ∧ (∀ d_, (add64 a n s).ltest d_ = s.ltest d_) ∧ (∀ d_, (add64 a n s).ebrum d_ = s.ebrum d_) :=
  ⟨rfl, rfl, rfl, rfl, rfl, rfl, rfl, rfl, rfl, rfl, rfl, rfl, rfl, rfl, rfl, rfl, rfl, rfl, rfl, rfl, rfl, rfl, rfl, rfl, rfl, rfl, rfl, rfl, rfl,
   rfl, rfl, rfl, rfl, rfl, rfl, rfl, rfl, rfl, rfl, rfl, rfl, rfl, rfl, rfl, rfl, rfl, rfl, rfl, rfl, rfl, rfl, fun _ => rfl, fun _ => rfl,
   fun _ => rfl, fun _ => rfl, fun _ => rfl, fun _ => rfl, fun _ => rfl, fun _ => rfl, fun _ => rfl, fun _ => rfl, fun _ _ => rfl, fun _ => rfl,
   fun _ => rfl, fun _ => rfl, fun _ => rfl, fun _ => rfl, fun _ => rfl, fun _ => rfl, fun _ _ => rfl, fun _ => rfl, fun _ => rfl, fun _ => rfl,
   fun _ => rfl, fun _ => rfl, fun _ => rfl, fun _ => rfl, fun _ => rfl, fun _ _ => rfl, fun _ => rfl, fun _ => rfl, fun _ => rfl⟩

@[simp] theorem setNow_keeps {d : Die} {t : Nat} {s : State} :
    (setNow d t s).part = s.part ∧ (setNow d t s).pending = s.pending ∧ (setNow d t s).mem = s.mem ∧ (setNow d t s).regs = s.regs ∧
    (setNow d t s).island = s.island ∧ (setNow d t s).staged = s.staged ∧ (setNow d t s).latched = s.latched ∧ (setNow d t s).readData = s.readData ∧
    (setNow d t s).tbases = s.tbases ∧ (setNow d t s).free = s.free ∧ (setNow d t s).out = s.out ∧ (setNow d t s).nextTag = s.nextTag ∧
    (setNow d t s).rings = s.rings ∧ (setNow d t s).fns = s.fns ∧ (setNow d t s).owed = s.owed ∧ (setNow d t s).routes = s.routes ∧
    (setNow d t s).tenants = s.tenants ∧ (setNow d t s).tlb = s.tlb ∧ (setNow d t s).invs = s.invs ∧ (setNow d t s).poison = s.poison ∧
    (setNow d t s).xings = s.xings ∧ (setNow d t s).pace = s.pace ∧ (setNow d t s).votes = s.votes ∧ (setNow d t s).claims = s.claims ∧
    (setNow d t s).garnetClaims = s.garnetClaims ∧ (setNow d t s).outOfService = s.outOfService ∧ (setNow d t s).debug = s.debug ∧
    (setNow d t s).inReset = s.inReset ∧ (setNow d t s).porLow = s.porLow ∧ (setNow d t s).resetnHigh = s.resetnHigh ∧
    (setNow d t s).split = s.split ∧ (setNow d t s).rinlar = s.rinlar ∧ (setNow d t s).heads = s.heads ∧ (setNow d t s).ports = s.ports ∧
    (setNow d t s).permits = s.permits ∧ (setNow d t s).garnets = s.garnets ∧ (setNow d t s).camPorts = s.camPorts ∧
    (setNow d t s).streams = s.streams ∧ (setNow d t s).captures = s.captures ∧ (setNow d t s).warps = s.warps ∧ (setNow d t s).gpus = s.gpus ∧
    (setNow d t s).drams = s.drams ∧ (setNow d t s).audio = s.audio ∧ (setNow d t s).haptics = s.haptics ∧ (setNow d t s).touches = s.touches ∧
    (setNow d t s).checks = s.checks ∧ (setNow d t s).powers = s.powers ∧ (setNow d t s).linkTests = s.linkTests ∧ (setNow d t s).ebrums = s.ebrums ∧
    (setNow d t s).boots = s.boots := by
  cases d <;> exact ⟨rfl, rfl, rfl, rfl, rfl, rfl, rfl, rfl, rfl, rfl, rfl, rfl, rfl, rfl, rfl, rfl, rfl, rfl, rfl, rfl, rfl, rfl, rfl, rfl, rfl, rfl, rfl, rfl, rfl, rfl, rfl, rfl, rfl, rfl, rfl, rfl, rfl, rfl, rfl, rfl, rfl, rfl, rfl, rfl, rfl, rfl, rfl, rfl, rfl, rfl⟩

@[simp] theorem setNow_now {d : Die} {t : Nat} {s : State} : (setNow d t s).now d = t := by cases d <;> rfl

/-- A command leaves everything but memory and the queue as its effect leaves it. -/
@[simp] theorem ran_reads {f : State → State} {s : State} :
    (ran f s).part = (f (fresh s)).part ∧ (ran f s).regs = (f (fresh s)).regs ∧ (ran f s).island = (f (fresh s)).island ∧
    (ran f s).staged = (f (fresh s)).staged ∧ (ran f s).latched = (f (fresh s)).latched ∧ (ran f s).readData = (f (fresh s)).readData ∧
    (ran f s).timeA = (f (fresh s)).timeA ∧ (ran f s).timeB = (f (fresh s)).timeB ∧ (ran f s).tbases = (f (fresh s)).tbases ∧
    (ran f s).free = (f (fresh s)).free ∧ (ran f s).out = (f (fresh s)).out ∧ (ran f s).nextTag = (f (fresh s)).nextTag ∧
    (ran f s).rings = (f (fresh s)).rings ∧ (ran f s).fns = (f (fresh s)).fns ∧ (ran f s).owed = (f (fresh s)).owed ∧
    (ran f s).routes = (f (fresh s)).routes ∧ (ran f s).tenants = (f (fresh s)).tenants ∧ (ran f s).tlb = (f (fresh s)).tlb ∧
    (ran f s).invs = (f (fresh s)).invs ∧ (ran f s).poison = (f (fresh s)).poison ∧ (ran f s).xings = (f (fresh s)).xings ∧
    (ran f s).pace = (f (fresh s)).pace ∧ (ran f s).votes = (f (fresh s)).votes ∧ (ran f s).claims = (f (fresh s)).claims ∧
    (ran f s).garnetClaims = (f (fresh s)).garnetClaims ∧ (ran f s).outOfService = (f (fresh s)).outOfService ∧
    (ran f s).debug = (f (fresh s)).debug ∧ (ran f s).inReset = (f (fresh s)).inReset ∧ (ran f s).porLow = (f (fresh s)).porLow ∧
    (ran f s).resetnHigh = (f (fresh s)).resetnHigh ∧ (ran f s).split = (f (fresh s)).split ∧ (ran f s).rinlar = (f (fresh s)).rinlar ∧
    (ran f s).heads = (f (fresh s)).heads ∧ (ran f s).ports = (f (fresh s)).ports ∧ (ran f s).permits = (f (fresh s)).permits ∧
    (ran f s).garnets = (f (fresh s)).garnets ∧ (ran f s).camPorts = (f (fresh s)).camPorts ∧ (ran f s).streams = (f (fresh s)).streams ∧
    (ran f s).captures = (f (fresh s)).captures ∧ (ran f s).warps = (f (fresh s)).warps ∧ (ran f s).gpus = (f (fresh s)).gpus ∧
    (ran f s).drams = (f (fresh s)).drams ∧ (ran f s).audio = (f (fresh s)).audio ∧ (ran f s).haptics = (f (fresh s)).haptics ∧
    (ran f s).touches = (f (fresh s)).touches ∧ (ran f s).checks = (f (fresh s)).checks ∧ (ran f s).powers = (f (fresh s)).powers ∧
    (ran f s).linkTests = (f (fresh s)).linkTests ∧ (ran f s).ebrums = (f (fresh s)).ebrums ∧ (ran f s).boots = (f (fresh s)).boots ∧
    (∀ a_, (ran f s).rd a_ = (f (fresh s)).rd a_) ∧ (∀ a_ k_, (ran f s).rdF a_ k_ = (f (fresh s)).rdF a_ k_) ∧
    (∀ a_ k_, (ran f s).flag a_ k_ = (f (fresh s)).flag a_ k_) ∧ (∀ a_, (ran f s).rd64 a_ = (f (fresh s)).rd64 a_) ∧
    (∀ d_, (ran f s).now d_ = (f (fresh s)).now d_) ∧ (∀ d_, (ran f s).tbase d_ = (f (fresh s)).tbase d_) ∧
    (∀ k_, (ran f s).freeNat k_ = (f (fresh s)).freeNat k_) ∧ (∀ q_, (ran f s).ringAux q_ = (f (fresh s)).ringAux q_) ∧
    (∀ f_, (ran f s).fnAux f_ = (f (fresh s)).fnAux f_) ∧ (∀ h_, (ran f s).route h_ = (f (fresh s)).route h_) ∧
    (∀ f_, (ran f s).tenant f_ = (f (fresh s)).tenant f_) ∧ (∀ h_, (ran f s).head h_ = (f (fresh s)).head h_) ∧
    (∀ k_, (ran f s).port k_ = (f (fresh s)).port k_) ∧ (∀ d_, (ran f s).paceOf d_ = (f (fresh s)).paceOf d_) ∧
    (∀ d_ k_, (ran f s).xing d_ k_ = (f (fresh s)).xing d_ k_) ∧ (∀ a_, (ran f s).isl a_ = (f (fresh s)).isl a_) ∧
    (∀ d_, (ran f s).permit d_ = (f (fresh s)).permit d_) ∧ (∀ d_, (ran f s).power d_ = (f (fresh s)).power d_) ∧
    (∀ d_, (ran f s).rin d_ = (f (fresh s)).rin d_) ∧ (∀ d_, (ran f s).boot d_ = (f (fresh s)).boot d_) ∧
    (∀ d_, (ran f s).garnet d_ = (f (fresh s)).garnet d_) ∧ (∀ k_, (ran f s).camPort k_ = (f (fresh s)).camPort k_) ∧
    (∀ p_ v_, (ran f s).stream p_ v_ = (f (fresh s)).stream p_ v_) ∧ (∀ h_, (ran f s).capture h_ = (f (fresh s)).capture h_) ∧
    (∀ d_, (ran f s).warp d_ = (f (fresh s)).warp d_) ∧ (∀ d_, (ran f s).gpu d_ = (f (fresh s)).gpu d_) ∧
    (∀ d_, (ran f s).dram d_ = (f (fresh s)).dram d_) ∧ (∀ h_, (ran f s).aroute h_ = (f (fresh s)).aroute h_) ∧
    (∀ b_, (ran f s).bus b_ = (f (fresh s)).bus b_) ∧ (∀ c_, (ran f s).hap c_ = (f (fresh s)).hap c_) ∧
    (∀ d_, (ran f s).touch d_ = (f (fresh s)).touch d_) ∧ (∀ d_ k_, (ran f s).sensor d_ k_ = (f (fresh s)).sensor d_ k_) ∧
    (∀ d_, (ran f s).check d_ = (f (fresh s)).check d_) ∧ (∀ d_, (ran f s).ltest d_ = (f (fresh s)).ltest d_) ∧
    (∀ d_, (ran f s).ebrum d_ = (f (fresh s)).ebrum d_) :=
  ⟨rfl, rfl, rfl, rfl, rfl, rfl, rfl, rfl, rfl, rfl, rfl, rfl, rfl, rfl, rfl, rfl, rfl, rfl, rfl, rfl, rfl, rfl, rfl, rfl, rfl, rfl, rfl, rfl, rfl,
    rfl, rfl, rfl, rfl, rfl, rfl, rfl, rfl, rfl, rfl, rfl, rfl, rfl, rfl, rfl, rfl, rfl, rfl, rfl, rfl, rfl, fun _ => rfl, fun _ _ => rfl,
    fun _ _ => rfl, fun _ => rfl, fun _ => rfl, fun _ => rfl, fun _ => rfl, fun _ => rfl, fun _ => rfl, fun _ => rfl, fun _ => rfl, fun _ => rfl,
    fun _ => rfl, fun _ => rfl, fun _ _ => rfl, fun _ => rfl, fun _ => rfl, fun _ => rfl, fun _ => rfl, fun _ => rfl, fun _ => rfl, fun _ => rfl,
    fun _ _ => rfl, fun _ => rfl, fun _ => rfl, fun _ => rfl, fun _ => rfl, fun _ => rfl, fun _ => rfl, fun _ => rfl, fun _ => rfl, fun _ _ => rfl,
    fun _ => rfl, fun _ => rfl, fun _ => rfl⟩

end Sys2Proof.Machine
end

