-- ==== Sys2Proof/Laws/Tab.lean ====
section
/-! SUPPORT. Reading a sparse table after it was changed. -/
namespace Sys2Proof

variable {α : Type}

@[simp] theorem tget_nil (d : α) (k : Nat) : tget d k [] = d := rfl

@[simp] theorem tfind_nil (k : Nat) : tfind k ([] : Tab α) = none := rfl

@[simp] theorem tget_tset_same (d : α) (k : Nat) (v : α) (t : Tab α) : tget d k (tset k v t) = v := by
  induction t with
  | nil => simp [tset, tget]
  | cons x t ih =>
    obtain ⟨j, w⟩ := x
    simp only [tset]
    split
    · simp [tget]
    · split
      · simp [tget]
      · simp [tget, *]

theorem tget_tset_ne (d : α) {j k : Nat} (h : j ≠ k) (v : α) (t : Tab α) : tget d j (tset k v t) = tget d j t := by
  induction t with
  | nil => simp [tset, tget, Ne.symm h]
  | cons x t ih =>
    obtain ⟨i, w⟩ := x
    simp only [tset]
    split
    · subst_vars; simp [tget, Ne.symm h]
    · split
      · simp [tget, Ne.symm h]
      · simp [tget, ih]

@[simp] theorem tfind_tset_same (k : Nat) (v : α) (t : Tab α) : tfind k (tset k v t) = some v := by
  induction t with
  | nil => simp [tset, tfind]
  | cons x t ih =>
    obtain ⟨j, w⟩ := x
    simp only [tset]
    split
    · simp [tfind]
    · split
      · simp [tfind]
      · simp [tfind, *]

theorem tfind_tset_ne {j k : Nat} (h : j ≠ k) (v : α) (t : Tab α) : tfind j (tset k v t) = tfind j t := by
  induction t with
  | nil => simp [tset, tfind, Ne.symm h]
  | cons x t ih =>
    obtain ⟨i, w⟩ := x
    simp only [tset]
    split
    · subst_vars; simp [tfind, Ne.symm h]
    · split
      · simp [tfind, Ne.symm h]
      · simp [tfind, ih]

/-- A table read by a default is a table searched. -/
theorem tget_eq_tfind (d : α) (k : Nat) (t : Tab α) : tget d k t = (tfind k t).getD d := by
  induction t with
  | nil => rfl
  | cons x t ih =>
    obtain ⟨j, w⟩ := x
    simp only [tget, tfind]
    split <;> simp [*]

/-- What is kept is found as before; what is not kept is gone. -/
theorem tfind_tkeep (p : Nat → Bool) (k : Nat) (t : Tab α) : tfind k (tkeep p t) = if p k then tfind k t else none := by
  induction t with
  | nil => simp [tkeep, tfind]
  | cons x t ih =>
    obtain ⟨j, w⟩ := x
    simp only [tkeep]
    by_cases hp : p j <;> by_cases hj : j = k
    · subst hj; simp [hp, tfind]
    · simp [hp, tfind, hj, ih]
    · subst hj; simp [hp, ih]
    · simp [hp, tfind, hj, ih]

end Sys2Proof
end

