-- ==== Sys2Proof/Laws/Registers.lean ====
section
/-! SUPPORT. Registers and their fields: what a read gives after a write. -/
namespace Sys2Proof

theorem split_get (hi mid low a b : Nat) (hl : low < 2 ^ a) :
    (hi * 2 ^ (a + b) + mid * 2 ^ a + low) / 2 ^ a = hi * 2 ^ b + mid := by
  have : hi * 2 ^ (a + b) + mid * 2 ^ a + low = low + 2 ^ a * (hi * 2 ^ b + mid) := by
    rw [Nat.pow_add]; ring
  rw [this, Nat.add_mul_div_left _ _ (Nat.two_pow_pos a), Nat.div_eq_of_lt hl, Nat.zero_add]

theorem put_lt (f : Fld) (v : Nat) (w : Word) (h : f.lo + f.len ≤ 32) :
    w.toNat / 2 ^ (f.lo + f.len) * 2 ^ (f.lo + f.len) + v % 2 ^ f.len * 2 ^ f.lo + w.toNat % 2 ^ f.lo < 2 ^ 32 := by
  have hw := w.isLt
  have h1 : w.toNat / 2 ^ (f.lo + f.len) < 2 ^ (32 - (f.lo + f.len)) := by
    rw [Nat.div_lt_iff_lt_mul (Nat.two_pow_pos _), ← Nat.pow_add]
    simpa [Nat.sub_add_cancel h] using hw
  have h2 : v % 2 ^ f.len < 2 ^ f.len := Nat.mod_lt _ (Nat.two_pow_pos _)
  have h3 : w.toNat % 2 ^ f.lo < 2 ^ f.lo := Nat.mod_lt _ (Nat.two_pow_pos _)
  have h4 : v % 2 ^ f.len * 2 ^ f.lo + w.toNat % 2 ^ f.lo < 2 ^ (f.lo + f.len) := by
    calc _ < v % 2 ^ f.len * 2 ^ f.lo + 2 ^ f.lo := by omega
      _ = (v % 2 ^ f.len + 1) * 2 ^ f.lo := by ring
      _ ≤ 2 ^ f.len * 2 ^ f.lo := Nat.mul_le_mul_right _ h2
      _ = _ := by rw [← Nat.pow_add, Nat.add_comm]
  calc _ < w.toNat / 2 ^ (f.lo + f.len) * 2 ^ (f.lo + f.len) + 2 ^ (f.lo + f.len) := by omega
    _ = (w.toNat / 2 ^ (f.lo + f.len) + 1) * 2 ^ (f.lo + f.len) := by ring
    _ ≤ 2 ^ (32 - (f.lo + f.len)) * 2 ^ (f.lo + f.len) := Nat.mul_le_mul_right _ h1
    _ = 2 ^ 32 := by rw [← Nat.pow_add, Nat.sub_add_cancel h]

/-- The number of a register word with a field replaced. -/
theorem put_toNat (f : Fld) (v : Nat) (w : Word) (h : f.lo + f.len ≤ 32) :
    (f.put v w).toNat = w.toNat / 2 ^ (f.lo + f.len) * 2 ^ (f.lo + f.len) + v % 2 ^ f.len * 2 ^ f.lo + w.toNat % 2 ^ f.lo := by
  rw [Fld.put, BitVec.toNat_ofNat, Nat.mod_eq_of_lt (put_lt f v w h)]

/-- A field reads back what was written, cut to its width. -/
theorem get_put (f : Fld) (v : Nat) (w : Word) (h : f.lo + f.len ≤ 32) : f.get (f.put v w) = v % 2 ^ f.len := by
  rw [Fld.get, put_toNat f v w h,
    split_get _ _ _ _ _ (Nat.mod_lt _ (Nat.two_pow_pos _)),
    Nat.mul_comm, Nat.mul_add_mod, Nat.mod_mod]

/-- A field above or below the one that was written reads as before. -/
theorem get_put_ne (f g : Fld) (v : Nat) (w : Word) (h : f.lo + f.len ≤ 32) (hd : g.lo + g.len ≤ f.lo ∨ f.lo + f.len ≤ g.lo) :
    g.get (f.put v w) = g.get w := by
  rw [Fld.get, Fld.get, put_toNat f v w h]
  rcases hd with hd | hd
  · obtain ⟨c, hc⟩ := Nat.exists_eq_add_of_le hd
    have hlow : ∀ x : Nat, (x * 2 ^ f.lo + w.toNat % 2 ^ f.lo) / 2 ^ g.lo % 2 ^ g.len = w.toNat / 2 ^ g.lo % 2 ^ g.len := by
      intro x
      have e1 : x * 2 ^ f.lo + w.toNat % 2 ^ f.lo = w.toNat % 2 ^ f.lo + 2 ^ g.lo * (2 ^ g.len * (2 ^ c * x)) := by
        rw [hc, Nat.pow_add, Nat.pow_add]; ring
      rw [e1, Nat.add_mul_div_left _ _ (Nat.two_pow_pos _), Nat.add_mul_mod_self_left]
      have e2 : w.toNat = w.toNat % 2 ^ f.lo + 2 ^ g.lo * (2 ^ g.len * (2 ^ c * (w.toNat / 2 ^ f.lo))) := by
        conv_lhs => rw [← Nat.mod_add_div w.toNat (2 ^ f.lo)]
        rw [hc, Nat.pow_add, Nat.pow_add]; ring
      conv_rhs => rw [e2, Nat.add_mul_div_left _ _ (Nat.two_pow_pos _), Nat.add_mul_mod_self_left]
    have e : w.toNat / 2 ^ (f.lo + f.len) * 2 ^ (f.lo + f.len) + v % 2 ^ f.len * 2 ^ f.lo + w.toNat % 2 ^ f.lo
        = (w.toNat / 2 ^ (f.lo + f.len) * 2 ^ f.len + v % 2 ^ f.len) * 2 ^ f.lo + w.toNat % 2 ^ f.lo := by
      rw [Nat.pow_add]; ring
    rw [e, hlow]
  · obtain ⟨c, hc⟩ := Nat.exists_eq_add_of_le hd
    have h2 : v % 2 ^ f.len < 2 ^ f.len := Nat.mod_lt _ (Nat.two_pow_pos _)
    have h3 : w.toNat % 2 ^ f.lo < 2 ^ f.lo := Nat.mod_lt _ (Nat.two_pow_pos _)
    have h4 : v % 2 ^ f.len * 2 ^ f.lo + w.toNat % 2 ^ f.lo < 2 ^ (f.lo + f.len) := by
      calc _ < v % 2 ^ f.len * 2 ^ f.lo + 2 ^ f.lo := by omega
        _ = (v % 2 ^ f.len + 1) * 2 ^ f.lo := by ring
        _ ≤ 2 ^ f.len * 2 ^ f.lo := Nat.mul_le_mul_right _ h2
        _ = _ := by rw [← Nat.pow_add, Nat.add_comm]
    have e : ∀ x : Nat, x / 2 ^ g.lo = x / 2 ^ (f.lo + f.len) / 2 ^ c := by
      intro x; rw [hc, Nat.pow_add, Nat.div_div_eq_div_mul]
    rw [e, e w.toNat]
    congr 2
    rw [Nat.add_assoc, Nat.add_comm, Nat.add_mul_div_right _ _ (Nat.two_pow_pos _), Nat.div_eq_of_lt h4, Nat.zero_add]

namespace Machine

@[simp] theorem rd_wr_same (a : Nat) (v : Word) (s : State) : (wr a v s).rd a = v := by simp [State.rd, wr]

theorem rd_wr_ne {a b : Nat} (h : a ≠ b) (v : Word) (s : State) : (wr b v s).rd a = s.rd a := by
  simp [State.rd, wr, tget_tset_ne _ h]

theorem rdF_wrF_same (a : Nat) (f : Fld) (v : Nat) (s : State) (h : f.lo + f.len ≤ 32) : (wrF a f v s).rdF a f = v % 2 ^ f.len := by
  simp [State.rdF, wrF, get_put f v _ h]

theorem rdF_wrF_other (a : Nat) (f g : Fld) (v : Nat) (s : State) (h : f.lo + f.len ≤ 32)
    (hd : g.lo + g.len ≤ f.lo ∨ f.lo + f.len ≤ g.lo) : (wrF a f v s).rdF a g = s.rdF a g := by
  simp [State.rdF, wrF, get_put_ne f g v _ h hd]

theorem rdF_wrF_ne {a b : Nat} (h : a ≠ b) (f g : Fld) (v : Nat) (s : State) : (wrF b f v s).rdF a g = s.rdF a g := by
  simp [State.rdF, wrF, rd_wr_ne h]

theorem flag_wrB_same (a : Nat) (f : Fld) (v : Bool) (s : State) (h : f.lo + f.len ≤ 32) (hl : f.len ≠ 0) :
    (wrB a f v s).flag a f = v := by
  have : 1 < 2 ^ f.len := Nat.one_lt_two_pow hl
  cases v <;> simp [State.flag, wrB, rdF_wrF_same a f _ s h, b2n, Nat.mod_eq_of_lt this]

theorem flag_wrB_other (a : Nat) (f g : Fld) (v : Bool) (s : State) (h : f.lo + f.len ≤ 32)
    (hd : g.lo + g.len ≤ f.lo ∨ f.lo + f.len ≤ g.lo) : (wrB a f v s).flag a g = s.flag a g := by
  simp [State.flag, wrB, rdF_wrF_other a f g _ s h hd]

theorem flag_wrB_ne {a b : Nat} (h : a ≠ b) (f g : Fld) (v : Bool) (s : State) : (wrB b f v s).flag a g = s.flag a g := by
  simp [State.flag, wrB, rdF_wrF_ne h]

end Machine
end Sys2Proof
end

