-- ==== Sys2Proof/Laws/Memory.lean ====
section
/-! SUPPORT. Memory: every operation keeps the canonical form, and a read after a write gives what was written, there and
nowhere else. -/
namespace Sys2Proof.Machine

/-- The canonical form from a higher key is one from a lower key. -/
theorem memWfFrom_le {lo lo' : Nat} (h : lo ≤ lo') {m : List Host.Cell} (hm : memWfFrom lo' m = true) : memWfFrom lo m = true := by
  cases m with
  | nil => rfl
  | cons x t =>
    obtain ⟨k, b⟩ := x
    simp only [memWfFrom, Bool.and_eq_true, decide_eq_true_eq] at *
    exact ⟨⟨by omega, hm.1.2⟩, hm.2⟩

/-- A byte write keeps the canonical form. -/
theorem memSet_wfFrom (b : Byte) {m : List Host.Cell} : ∀ {lo k : Nat}, lo ≤ k → memWfFrom lo m = true → memWfFrom lo (memSet k b m) = true := by
  induction m with
  | nil => intro lo k h _; simp only [memSet]; split <;> simp_all [memWfFrom]
  | cons x t ih =>
    obtain ⟨j, c⟩ := x
    intro lo k h hm
    simp only [memWfFrom, Bool.and_eq_true, decide_eq_true_eq] at hm
    simp only [memSet]
    split
    · subst_vars
      split
      · exact memWfFrom_le (by omega) hm.2
      · simp_all [memWfFrom]
    · split
      · split
        · simp_all [memWfFrom]
        · simp only [memWfFrom, Bool.and_eq_true, decide_eq_true_eq]
          exact ⟨⟨h, by assumption⟩, ⟨⟨by omega, hm.1.2⟩, hm.2⟩⟩
      · simp only [memWfFrom, Bool.and_eq_true, decide_eq_true_eq]
        exact ⟨hm.1, ih (by omega) hm.2⟩

theorem memSet_wf {k : Nat} {b : Byte} {m : List Host.Cell} (h : Memory.wf m = true) : Memory.wf (memSet k b m) = true :=
  memSet_wfFrom b (Nat.zero_le _) h

theorem memPut_wf : ∀ {bs : List Byte} {k : Nat} {m : List Host.Cell}, Memory.wf m = true → Memory.wf (memPut k bs m) = true
  | [], _, _, h => h
  | b :: t, k, m, h => by rw [memPut]; exact memPut_wf (memSet_wf h)

theorem memBelow_wfFrom {k : Nat} {m : List Host.Cell} : ∀ {lo : Nat}, memWfFrom lo m = true → memWfFrom lo (memBelow k m) = true := by
  induction m with
  | nil => intro _ h; exact h
  | cons x t ih =>
    obtain ⟨j, c⟩ := x
    intro lo h
    simp only [memWfFrom, Bool.and_eq_true, decide_eq_true_eq] at h
    simp only [memBelow]
    split
    · simp only [memWfFrom, Bool.and_eq_true, decide_eq_true_eq]; exact ⟨h.1, ih h.2⟩
    · rfl

/-- What leaves the device reaches memory in canonical form. -/
theorem applyOut_wf : ∀ {o : List Out} {m : List Host.Cell}, Memory.wf m = true → Memory.wf (applyOut o m) = true
  | [], _, h => h
  | x :: t, m, h => by
    cases x <;> simp only [applyOut] <;> first
      | exact applyOut_wf (memPut_wf h)
      | exact applyOut_wf (memBelow_wfFrom h)
      | exact applyOut_wf h

/-- A key below the list's first reads 0. -/
theorem memGet_below {lo k : Nat} {m : List Host.Cell} (h : memWfFrom lo m = true) (hk : k < lo) : memGet k m = 0 := by
  induction m generalizing lo with
  | nil => rfl
  | cons x t ih =>
    obtain ⟨j, c⟩ := x
    simp only [memWfFrom, Bool.and_eq_true, decide_eq_true_eq] at h
    have : j ≠ k := by omega
    simp only [memGet, this, if_false]
    exact ih h.2 (by omega)

/-- A byte that was written reads back. -/
theorem memGet_memSet_same (k : Nat) (b : Byte) {m : List Host.Cell} : ∀ {lo : Nat}, memWfFrom lo m = true → memGet k (memSet k b m) = b := by
  induction m with
  | nil => intro _ _; simp only [memSet]; split <;> simp_all [memGet]
  | cons x t ih =>
    obtain ⟨j, c⟩ := x
    intro lo h
    simp only [memWfFrom, Bool.and_eq_true, decide_eq_true_eq] at h
    simp only [memSet]
    split
    · subst_vars
      split
      · rename_i hb; rw [memGet_below h.2 (by omega), hb]
      · simp [memGet]
    · split
      · split
        · rename_i hb
          rename_i hlt _
          have : j ≠ k := by omega
          simp only [memGet, this, if_false]
          rw [memGet_below h.2 (by omega), hb]
        · simp [memGet]
      · rename_i hj _
        simp only [memGet, hj, if_false]; exact ih h.2

/-- Every other byte reads as before. -/
theorem memGet_memSet_ne {k j : Nat} (hne : j ≠ k) (b : Byte) {m : List Host.Cell} : ∀ {lo : Nat}, memWfFrom lo m = true →
    memGet j (memSet k b m) = memGet j m := by
  induction m with
  | nil => intro _ _; simp only [memSet]; split <;> simp [memGet, Ne.symm hne]
  | cons x t ih =>
    obtain ⟨i, c⟩ := x
    intro lo h
    simp only [memWfFrom, Bool.and_eq_true, decide_eq_true_eq] at h
    simp only [memSet]
    split
    · subst_vars; split <;> simp [memGet, Ne.symm hne]
    · split
      · split
        · rfl
        · simp [memGet, Ne.symm hne]
      · simp only [memGet]; split
        · rfl
        · exact ih h.2

/-- A write of several bytes: byte i of it at its place, every other byte as before. -/
theorem memGet_memPut : ∀ (bs : List Byte) {k j : Nat} {m : List Host.Cell}, Memory.wf m = true →
    memGet j (memPut k bs m) = if k ≤ j then (bs[j - k]?).getD (memGet j m) else memGet j m
  | [], k, j, m, _ => by simp [memPut]
  | b :: t, k, j, m, h => by
    have h1 := memSet_wf (k := k) (b := b) h
    rw [memPut, memGet_memPut t h1]
    by_cases hj : j = k
    · subst hj; rw [if_neg (by omega)]; simp [memGet_memSet_same j b h]
    · rw [memGet_memSet_ne hj b h]
      by_cases hk : k ≤ j
      · obtain ⟨c, rfl⟩ : ∃ c, j = k + 1 + c := ⟨j - (k + 1), by omega⟩
        rw [if_pos (by omega), if_pos (by omega)]
        have e1 : k + 1 + c - (k + 1) = c := by omega
        have e2 : k + 1 + c - k = c + 1 := by omega
        rw [e1, e2]; simp
      · rw [if_neg (by omega), if_neg (by omega)]

/-- Local memory lost: keys at or above the bound read 0, every other byte as before. -/
theorem memGet_memBelow {n j : Nat} {m : List Host.Cell} : ∀ {lo : Nat}, memWfFrom lo m = true →
    memGet j (memBelow n m) = if j < n then memGet j m else 0 := by
  induction m with
  | nil => intro _ _; simp [memBelow, memGet]
  | cons x t ih =>
    obtain ⟨i, c⟩ := x
    intro lo h
    simp only [memWfFrom, Bool.and_eq_true, decide_eq_true_eq] at h
    simp only [memBelow]
    by_cases hi : i < n
    · simp only [hi, if_true, memGet]
      by_cases hij : i = j
      · subst hij; simp [hi]
      · simp only [hij, if_false]; exact ih h.2
    · simp only [hi, if_false]
      by_cases hj : j < n
      · simp only [hj, if_true, memGet]
        have : i ≠ j := by omega
        simp only [this, if_false]
        exact (memGet_below h.2 (by omega)).symm
      · simp [hj, memGet]

/-- Memory after a step: the newest byte that left the device for a key, and elsewhere what was there before. -/
theorem memGet_applyOut : ∀ (o : List Out) {j : Nat} {m : List Host.Cell}, Memory.wf m = true →
    memGet j (applyOut o m) = (outByte j o).getD (memGet j m)
  | [], _, _, _ => rfl
  | x :: t, j, m, h => by
    cases x with
    | mem k bs =>
      rw [applyOut, memGet_applyOut t (memPut_wf h), outByte, memGet_memPut bs h]
      cases outByte j t <;> simp
      split <;> simp
    | localLost =>
      rw [applyOut, memGet_applyOut t (memBelow_wfFrom h), outByte, memGet_memBelow h]
      cases outByte j t <;> simp
      by_cases hj : 2 ^ 54 ≤ j
      · rw [if_neg (by omega), if_pos (by omega)]; rfl
      · rw [if_pos (by omega), if_neg (by omega)]; rfl
    | _ => rw [applyOut] <;> first | (rw [memGet_applyOut t h, outByte] <;> simp) | simp

end Sys2Proof.Machine
end

