-- ==== Sys2Proof/Laws/Posting.lean ====
section
/-! SUPPORT. What the posting path can change: a completion, an event or a message changes the fields that `unposted` names, and
among registers only those of the rings and functions. -/
namespace Sys2Proof.Machine

/-- The frame of the posting path: the fields, the registers where the functions and rings are real ones (`ok`), and the work under way on
every ring. -/
structure Posts (ok : Prop) (s t : State) : Prop where
  fields : Posted s t
  regs : ok → PostedRegs s t
  flights : ∀ q, (t.ringAux q).flights = (s.ringAux q).flights

variable {ok : Prop}

theorem Posts.refl (s : State) : Posts ok s s := ⟨rfl, fun _ _ _ => rfl, fun _ => rfl⟩

theorem Posts.trans {s t u : State} (h : Posts ok s t) (k : Posts ok t u) : Posts ok s u :=
  ⟨k.1.trans h.1, fun o a ha => (k.2 o a ha).trans (h.2 o a ha), fun q => (k.3 q).trans (h.3 q)⟩

theorem Posts.ite {c : Prop} [Decidable c] {s t u : State} (h : Posts ok s t) (k : Posts ok s u) : Posts ok s (if c then t else u) := by
  split <;> assumption

/-- An update of fields outside the registers and the rings. -/
theorem Posts.of_regs {s t : State} (h : unposted t = unposted s) (hr : t.regs = s.regs) (hq : t.rings = s.rings) : Posts ok s t := by
  have hp : (unposted t).part = (unposted s).part := by rw [h]
  have hp : t.part = s.part := hp
  exact ⟨h, fun _ a _ => by simp [State.rd, hr, hp], fun q => by simp [State.ringAux, hq]⟩

theorem posts_wr {a : Nat} (h : ok → postReg a = true) (v : Word) (s : State) : Posts ok s (wr a v s) :=
  ⟨rfl, fun o b hb => rd_wr_ne (by rintro rfl; simp [h o] at hb) v s, fun _ => rfl⟩

theorem postReg_fn {f : Fun} (h : FunOk f) {k : Nat} (hk : 0x310000 ≤ k ∧ k + 0x1F800 < 0x402000) : postReg (fnSpace f + k + 0x800 * f.slot) = true := by
  unfold FunOk at h
  have hs : f.slot ≤ 63 := by unfold Fun.slot; split <;> omega
  unfold postReg addrOff fnSpace
  rw [decide_eq_true_iff]
  omega

theorem postReg_mmu {f : Fun} (h : FunOk f) {k : Nat} (hk : 0x401000 ≤ k ∧ k < 0x401040) : postReg (fnSpace f + k + 0x40 * f.slot) = true := by
  unfold FunOk at h
  have hs : f.slot ≤ 63 := by unfold Fun.slot; split <;> omega
  unfold postReg addrOff fnSpace
  rw [decide_eq_true_iff]
  omega

theorem postReg_ring {q : RingId} (h : RingOk q) {k : Nat} (hk : 0x310000 ≤ k ∧ k < 0x310040) :
    postReg (fnSpace q.fn + k + 0x800 * q.fn.slot + 0x40 * q.ring) = true := by
  have := h.1; unfold FunOk at this
  have hr := h.2
  have hs : q.fn.slot ≤ 63 := by unfold Fun.slot; split <;> omega
  unfold postReg addrOff fnSpace
  rw [decide_eq_true_iff]
  omega

theorem posts_emit (o : Out) (s : State) : Posts ok s (emit o s) := .of_regs rfl rfl rfl
theorem posts_setRing (q : RingId) (r : RingAux) (s : State) (h : r.flights = (s.ringAux q).flights) : Posts ok s (setRing q r s) := by
  refine ⟨rfl, fun _ _ _ => rfl, fun p => ?_⟩
  unfold State.ringAux setRing
  by_cases hk : p.key = q.key
  · rw [hk]; simpa [State.ringAux] using h
  · simp [tget_tset_ne _ hk]
theorem posts_setFn (f : Fun) (x : FnAux) (s : State) : Posts ok s (setFn f x s) := .of_regs rfl rfl rfl
theorem posts_useFree (n : Nat) (s : State) : Posts ok s (useFree n s) := .of_regs rfl rfl rfl

theorem posts_putChunks (ks : List (Nat × Nat)) (bs : List Byte) (s : State) : Posts ok s (putChunks ks bs s) := by
  induction ks generalizing bs s with
  | nil => exact .refl s
  | cons c t ih => exact .trans (Posts.of_regs (t := unpoison c.1 c.2 (emit (.mem c.1 (bs.take c.2)) s)) rfl rfl rfl) (ih _ _)

theorem posts_xlate (d : Die) (f : Fun) (va : Nat) (w : Bool) (s : State) : Posts ok s (xlate d f va w s).2 := by
  unfold xlate
  dsimp only
  split
  · split
    · exact .refl s
    · split
      · exact .of_regs rfl rfl rfl
      · exact .of_regs rfl rfl rfl
  · split <;> exact .of_regs rfl rfl rfl
  · exact .of_regs rfl rfl rfl
  · exact .refl s

theorem posts_xlateRange (d : Die) (f : Fun) (w : Bool) (n va k : Nat) (s : State) : Posts ok s (xlateRange d f w n va k s).2 := by
  induction n generalizing va k s with
  | zero => exact .refl s
  | succ n ih =>
    unfold xlateRange
    dsimp only
    split
    · exact .refl s
    · have h := posts_xlate (ok := ok) d f va w s
      split
      · rename_i h1; rw [h1] at h; exact h
      · rename_i h1; rw [h1] at h
        have h2 := ih (va + min k (4096 - va % 4096)) (k - min k (4096 - va % 4096)) (xlate d f va w s).2
        rw [h1] at h2
        split <;> (rename_i h3; rw [h3] at h2; exact h.trans h2)

theorem posts_dmaWriteRaw (d : Die) (f : Fun) (va : Nat) (bs : List Byte) (s : State) : Posts ok s (dmaWriteRaw d f va bs s).2 := by
  unfold dmaWriteRaw
  have h := posts_xlateRange (ok := ok) d f true (bs.length / 4096 + 2) va bs.length s
  split <;> (rename_i h1; rw [h1] at h)
  · exact h
  · exact h.trans (posts_putChunks _ _ _)

theorem posts_sendMsix (f : Fun) (v : Nat) (s : State) : Posts ok s (sendMsix f v s) := by
  unfold sendMsix; split
  · exact posts_emit _ _
  · exact posts_setFn _ _ _

theorem posts_sendRingInt (q : RingId) (s : State) : Posts ok s (sendRingInt q s) :=
  (posts_setRing _ _ s (by rfl)).trans (posts_sendMsix _ _ _)

theorem posts_countInt (d : Die) (q : RingId) (s : State) : Posts ok s (countInt d q s) := by
  unfold countInt; dsimp only; split
  · split
    · exact (posts_setRing _ _ s (by rfl)).trans (posts_sendRingInt _ _)
    · exact posts_setRing _ _ _ rfl
  · exact .refl s

theorem posts_loseEvent {f : Fun} (h : ok → FunOk f) (t : Nat) (s : State) : Posts ok s (loseEvent f t s) :=
  (posts_setFn _ _ s).trans (posts_wr (fun o => postReg_fn (h o) (k := 0x310404) (by omega)) _ _)

theorem posts_recordFault {f : Fun} (h : ok → FunOk f) (va dt : Nat) (s : State) : Posts ok s (recordFault f va dt s) := by
  have hi : ∀ v u, Posts ok u (wr (FAULT_INFO f) v u) := fun v u => posts_wr (fun o => postReg_mmu (h o) (k := 0x401018) (by omega)) v u
  have hl : ∀ v u, Posts ok u (wr (FAULT_ADDR_LO f) v u) := fun v u => posts_wr (fun o => postReg_mmu (h o) (k := 0x40101C) (by omega)) v u
  have hh : ∀ v u, Posts ok u (wr (FAULT_ADDR_LO f + 4) v u) := fun v u =>
    posts_wr (fun o => by
      have := postReg_mmu (h o) (k := 0x401020) (by omega)
      have e : FAULT_ADDR_LO f + 4 = fnSpace f + 0x401020 + 0x40 * f.slot := by unfold FAULT_ADDR_LO; omega
      rwa [e]) v u
  unfold recordFault; split
  · exact hi _ _
  · exact (((hi _ _).trans (hi _ _)).trans (hl _ _)).trans (hh _ _)

theorem posts_wrF_status {q : RingId} (h : ok → RingOk q) (f : Fld) (v : Nat) (s : State) : Posts ok s (wrF (RING_STATUS q) f v s) :=
  posts_wr (fun o => postReg_ring (h o) (k := 0x310030) (by omega)) _ _

theorem posts_wrB_status {q : RingId} (h : ok → RingOk q) (f : Fld) (v : Bool) (s : State) : Posts ok s (wrB (RING_STATUS q) f v s) :=
  posts_wrF_status h f _ s

theorem posts_wr_producer {q : RingId} (h : ok → RingOk q) (v : Word) (s : State) : Posts ok s (wr (RING_PRODUCER q) v s) :=
  posts_wr (fun o => postReg_ring (h o) (k := 0x310028) (by omega)) _ _

theorem eventRing_ok {s : State} {f : Fun} (h : ok → FunOk f) {q : RingId} (he : eventRing s f = some q) : ok → RingOk q := by
  have := List.mem_of_find?_eq_some he
  simp only [upto, List.mem_map] at this
  obtain ⟨n, hn, rfl⟩ := this
  exact fun o => ⟨h o, by simpa [upto] using hn⟩

theorem posts_shadowWrite (d : Die) (q : RingId) (i : Nat) (s : State) : Posts ok s (shadowWrite d q i s).2 := posts_dmaWriteRaw _ _ _ _ _

theorem funOk_pf0 (d : Die) : FunOk (pf0 d) := by simp [FunOk, pf0]
theorem funOk_pf1 (d : Die) : FunOk (pf1 d) := by simp [FunOk, pf1]

/-- The continuation that reports a fault of the EVENT ring changes no more than posting does. -/
theorem posts_writeEvent {again : Fun → Event → State → State} (ha : ∀ g x t, (ok → FunOk g) → Posts ok t (again g x t)) {f : Fun} (h : ok → FunOk f)
    {q : RingId} (hq : ok → RingOk q) (e : Event) (s : State) : Posts ok s (writeEvent again f e q s) := by
  have hs : ∀ va p dt t, Posts ok s t → Posts ok s (shadowLost again f e q va p dt t) := by
    intro va p dt t ht
    have h1 : Posts ok s _ := ((ht.trans (posts_useFree 1 t)).trans (posts_recordFault h va dt _)).trans (posts_wrB_status hq
      RING_STATUS_SHADOW_FAULT true _)
    unfold shadowLost; dsimp only; split
    · exact h1
    · exact (h1.trans (ha _ _ _ h)).trans (ha _ _ _ h)
  have he : ∀ va dt t, Posts ok s t → Posts ok s (entryLost again f e q va dt t) := by
    intro va dt t ht
    have h1 : Posts ok s _ := ((((ht.trans (posts_useFree 1 t)).trans (posts_recordFault h va dt _)).trans (posts_wrB_status hq
      RING_STATUS_ENTRY_FAULT true _)).trans (posts_loseEvent h e.time _)).trans (posts_loseEvent h e.time _)
    unfold entryLost; dsimp only; split
    · exact h1.trans (ha _ _ _ (fun _ => funOk_pf0 _))
    · exact h1
  unfold writeEvent
  dsimp only
  generalize hw : dmaWriteRaw e.die f (ringBase s q + 32 * (ringProd s q % ringSize s q)) (eventBytes e (phaseBit (ringProd s q) (ringSize s q))) s = w
  have h1 : Posts ok s w.2 := hw ▸ posts_dmaWriteRaw _ _ _ _ _
  have h2 := h1.trans (posts_wr_producer hq (BitVec.ofNat 32 (ringProd s q + 1)) w.2)
  generalize wr (RING_PRODUCER q) (BitVec.ofNat 32 (ringProd s q + 1)) w.2 = s2 at h2 ⊢
  generalize hx : shadowWrite e.die q (ringProd s q + 1) s2 = x
  have h3 : Posts ok s x.2 := h2.trans (hx ▸ posts_shadowWrite _ _ _ _)
  have h4 := h3.trans (posts_countInt e.die q x.2)
  generalize countInt e.die q x.2 = s4 at h4 ⊢
  generalize w.1 = err
  generalize x.1 = err2
  cases err <;> cases err2
  · exact h4
  · exact hs _ _ _ _ h4
  · exact he _ _ _ h4
  · exact hs _ _ _ _ (he _ _ _ h4)

theorem posts_postEvent (n : Nat) {f : Fun} (h : ok → FunOk f) (e : Event) (s : State) : Posts ok s (postEvent n f e s) := by
  induction n generalizing f e s with
  | zero => exact posts_loseEvent h _ _
  | succ n ih =>
    rw [postEvent]
    refine Posts.ite (posts_loseEvent h _ _) (Posts.ite (posts_setFn _ _ _) (Posts.ite (Posts.ite (posts_setFn _ _ _) (posts_loseEvent h _ _)) ?_))
    cases hq : eventRing s f with
    | none => exact posts_loseEvent h _ _
    | some q => exact Posts.ite (posts_loseEvent h _ _) (posts_writeEvent (fun g x t hg => ih hg x t) h (eventRing_ok h hq) e s)

theorem posts_sendAcross (d : Die) (s : State) : Posts ok s (sendAcross d s) := by
  unfold sendAcross; split
  · exact posts_emit _ _
  · exact .refl s

theorem posts_post {f : Fun} (h : ok → FunOk f) (e : Event) (s : State) : Posts ok s (post f e s) :=
  Posts.trans (Posts.ite (posts_sendAcross _ s) (.refl s)) (posts_postEvent 3 h e _)

theorem posts_postPf0 (d : Die) (a b c : Nat) (s : State) : Posts ok s (postPf0 d a b c s) := posts_post (fun _ => funOk_pf0 d) _ s
theorem posts_postPf1 (d : Die) (a b c : Nat) (s : State) : Posts ok s (postPf1 d a b c s) := posts_post (fun _ => funOk_pf1 d) _ s

theorem posts_faultSeen {f : Fun} (h : ok → FunOk f) (d : Die) (va dt r : Nat) (s : State) : Posts ok s (faultSeen d f va dt r s) := by
  unfold faultSeen; dsimp only
  have h1 := (posts_recordFault h va dt s).trans (posts_post h (xlateEvent d (s.now d) f va dt r) _)
  split
  · exact h1.trans (posts_post (fun _ => funOk_pf0 _) _ _)
  · exact h1

theorem posts_writeCqe {q : RingId} (h : ok → RingOk q) (d : Die) (e : Cqe) (s : State) : Posts ok s (writeCqe d q e s) := by
  unfold writeCqe
  dsimp only
  generalize hw : dmaWriteRaw d q.fn (ringBase s q + 16 * (ringProd s q % ringSize s q)) (cqeBytes e (phaseBit (ringProd s q) (ringSize s q)) (s.now d)) s = w
  have h1 : Posts ok s w.2 := hw ▸ posts_dmaWriteRaw _ _ _ _ _
  have h2 : Posts ok s (wr (RING_PRODUCER q) (BitVec.ofNat 32 (ringProd s q + 1)) w.2) := h1.trans (posts_wr_producer h _ _)
  generalize wr (RING_PRODUCER q) (BitVec.ofNat 32 (ringProd s q + 1)) w.2 = s2 at h2 ⊢
  generalize hx : shadowWrite d q (ringProd s q + 1) s2 = x
  have h3 : Posts ok s x.2 := h2.trans (hx ▸ posts_shadowWrite _ _ _ _)
  have h4 : Posts ok s (countInt d q x.2) := h3.trans (posts_countInt _ _ _)
  generalize countInt d q x.2 = s4 at h4 ⊢
  have step : ∀ (y : State) (va dt : Nat) (fl : Fld) (ev : Event), Posts ok s y →
      Posts ok s (y |> useFree 1 |> wrB (RING_STATUS q) fl true |> faultSeen d q.fn va dt q.ring |> post q.fn ev) := fun y va dt fl ev hy =>
    (((hy.trans (posts_useFree 1 y)).trans (posts_wrB_status h _ _ _)).trans (posts_faultSeen (fun o => (h o).1) _ _ _ _ _)).trans (posts_post (fun o => (h o).1) _ _)
  have h5 : ∀ y : State, Posts ok s y → Posts ok s (match x.1 with
      | none => y
      | some z => y |> useFree 1 |> wrB (RING_STATUS q) RING_STATUS_SHADOW_FAULT true
        |> faultSeen d q.fn (s.rd64 (RING_SHADOW_LO q)) (ownDetail y z) q.ring |> post q.fn (ringErrorEvent d (s.now d) q 3 (ringProd s q + 1))) := by
    intro y hy; split
    · exact hy
    · exact step y _ _ _ _ hy
  apply h5
  split
  · exact h4
  · exact step s4 _ _ _ _ h4

theorem posts_refreshState {q : RingId} (h : ok → RingOk q) (s : State) : Posts ok s (refreshState q s) := by
  unfold refreshState
  exact Posts.ite (posts_wrF_status h _ _ _) (Posts.ite (.refl s) (Posts.ite (posts_wrF_status h _ _ _) (posts_wrF_status h _ _ _)))

theorem posts_refreshRings {f : Fun} (h : ok → FunOk f) (s : State) : Posts ok s (refreshRings f s) := by
  unfold refreshRings upto
  have step : ∀ (l : List RingId), (∀ r ∈ l, ok → RingOk r) → ∀ t, Posts ok s t →
      Posts ok s (l.foldl (fun t r => if ringOn t r ∧ ringType t r < 9 then refreshState r t else t) t) := by
    intro l
    induction l with
    | nil => exact fun _ _ ht => ht
    | cons r l ih =>
      intro hl t ht
      exact ih (fun x hx => hl x (by simp [hx])) _ (ht.trans (Posts.ite (posts_refreshState (hl r (by simp)) t) (.refl t)))
  refine step _ (fun r hr o => ?_) s (.refl s)
  obtain ⟨n, hn, rfl⟩ := List.mem_map.mp hr
  exact ⟨h o, List.mem_range.mp hn⟩

theorem posts_postCqe {q : RingId} (h : ok → RingOk q) (d : Die) (e : Cqe) (s : State) : Posts ok s (postCqe d q e s) := by
  unfold postCqe
  split
  · exact .refl s
  split
  · exact posts_setRing _ _ _ rfl
  split
  · exact ((posts_setRing _ _ s (by rfl)).trans (posts_wrB_status h _ _ _)).trans (posts_refreshRings (fun o => (h o).1) _)
  · exact posts_writeCqe h _ _ _

theorem posts_postAfter (t : Ticket) (h : ok → RingOk t.cqRing) (es : List Cqe) (s : State) : Posts ok s (postAfter t es s) := by
  induction es generalizing s with
  | nil => exact .refl s
  | cons e r ih => exact (posts_postCqe h _ e s).trans (ih _)

theorem posts_postDone {q : RingId} (h : ok → RingOk q) {f : Flight} (hf : ok → f.cq < 16) (s : State) : Posts ok s (postDone q f s) := by
  have ht : ok → RingOk (f.ticket q).cqRing := by
    intro o; unfold Flight.ticket; split <;> exact ⟨(h o).1, hf o⟩
  unfold postDone
  exact (Posts.ite (.refl s) (posts_postCqe ht _ _ _)).trans (posts_postAfter _ ht _ _)

/-- Posting the DONEs of a ring changes no more than posting does, and the flights that are left were there before. -/
theorem drainRing_posts {q : RingId} (h : ok → RingOk q) (n : Nat) (s : State) (hc : ok → cqsOk s q) :
    Posted s (drainRing q n s) ∧ (ok → PostedRegs s (drainRing q n s)) ∧ ∀ f ∈ ((drainRing q n s).ringAux q).flights, f ∈ (s.ringAux q).flights := by
  induction n generalizing s with
  | zero => exact ⟨rfl, fun _ _ _ => rfl, fun _ hf => hf⟩
  | succ n ih =>
    rw [drainRing]
    split
    · rename_i hn
      exact ⟨rfl, fun _ _ _ => rfl, fun _ hf => hf⟩
    · rename_i f t hft
      split
      · have hset : ((setRing q { s.ringAux q with flights := t } s).ringAux q).flights = t := by simp [State.ringAux, setRing]
        have hp := posts_postDone h (fun o => hc o f (by rw [hft]; simp)) (setRing q { s.ringAux q with flights := t } s)
        have hfl := (hp.3 q).trans hset
        have hc' : ok → cqsOk (postDone q f (setRing q { s.ringAux q with flights := t } s)) q := by
          intro o g hg; rw [hfl] at hg; exact hc o g (by rw [hft]; simp [hg])
        obtain ⟨h1, h2, h3⟩ := ih _ hc'
        refine ⟨h1.trans hp.1, fun o a ha => (h2 o a ha).trans (hp.2 o a ha), fun g hg => ?_⟩
        have := h3 g hg
        rw [hfl] at this; rw [hft]; simp [this]
      · exact ⟨rfl, fun _ _ _ => rfl, fun _ hf => hf⟩

/-- Settling a ring changes no more than posting does. -/
theorem settle_posts {q : RingId} (h : ok → RingOk q) {s : State} (hc : ok → cqsOk s q) :
    Posted s (settle q s) ∧ (ok → PostedRegs s (settle q s)) := by
  obtain ⟨h1, h2, _⟩ := drainRing_posts h ((s.ringAux q).flights.length) s hc
  have hr := posts_refreshState h (drainRing q ((s.ringAux q).flights.length) s)
  exact ⟨hr.1.trans h1, fun o a ha => (hr.2 o a ha).trans (h2 o a ha)⟩

/-- A replaced flight leaves the posting path's frame alone. -/
theorem posted_setFlight (q : RingId) (f : Flight) (s : State) : Posted s (setFlight q f s) ∧ PostedRegs s (setFlight q f s) :=
  ⟨rfl, fun _ _ => rfl⟩

end Sys2Proof.Machine
end

