-- ==== Sys2Proof/Laws/Run.lean ====
section
/-! SUPPORT. The frame in which every command runs: it answers a next state, leaves the queue alone, and changes memory only by
what left the device. -/
namespace Sys2Proof.Machine

theorem run_eq (f : State → State) (s : State) : run f s = .next (ran f s) := rfl

/-- A command whose effect leaves the state as it is. -/
theorem ran_same {f : State → State} {s : State} (h : f (fresh s) = fresh s) : ran f s = fresh s := by simp only [ran, h]; rfl

/-- Two effects that agree on the state in which they begin. -/
theorem ran_congr {f g : State → State} {s : State} (h : f (fresh s) = g (fresh s)) : ran f s = ran g s := by simp only [ran, h]

theorem ran_pending (f : State → State) (s : State) : (ran f s).pending = s.pending := rfl

theorem ran_mem (f : State → State) (s : State) : (ran f s).mem = applyOut (ran f s).out s.mem := rfl

/-- A command keeps the canonical form of memory. -/
theorem ran_inv (f : State → State) {s : State} (h : s.Inv) : (ran f s).Inv := applyOut_wf h

/-- Every byte of memory after a command: the newest that left the device for its key, elsewhere what was there before. -/
theorem ran_memGet (f : State → State) {s : State} (h : s.Inv) (k : Nat) :
    memGet k (ran f s).mem = (outByte k (ran f s).out).getD (memGet k s.mem) := memGet_applyOut _ h

end Sys2Proof.Machine
end

