-- ==== Sys2Proof/Laws/Submit.lean ====
section
/-! SUPPORT. The way of one descriptor: the row that hands it over, the checks, and the replacement of its flight. -/
namespace Sys2Proof.Machine

/-- Every row of one descriptor submits it. -/
theorem exec_descRow {i : Instr} {o : OpSpec} {q : RingId} {d : Desc} (h : descRow i = some (o, q, d)) (s : State) :
    exec i s = .next (ran (submit o q d) s) := by
  cases i <;> simp only [descRow, reduceCtorEq, Option.some.injEq, Prod.mk.injEq] at h <;> obtain ⟨rfl, rfl, rfl⟩ := h <;> rfl

theorem posted_ran (f : State → State) (s : State) : Posted (f (fresh s)) (ran f s) ∧ PostedRegs (f (fresh s)) (ran f s) := ⟨rfl, fun _ _ => rfl⟩

/-- A descriptor that is taken goes to its checks. -/
theorem submit_taken {o : OpSpec} {q : RingId} {d : Desc} {s : State} (h : Taken o q d s) :
    submit o q d s = submitAll (fun x => if o.fits (ringType s q) x then some o else none) q [d] none s := by
  obtain ⟨h1, h2, h3, h4, -⟩ := h
  unfold submit
  rw [if_neg, if_neg (by simp [h4])]
  rintro (h | ⟨h, h'⟩ | h)
  · simp [h1] at h
  · simp [h2 h] at h'
  · simp [h3] at h

theorem checkAll_one (op : Desc → Option OpSpec) (q : RingId) (d : Desc) (s : State) : checkAll op q s 0 [d] = checkDesc (op d) q 0 d s := by
  simp only [checkAll, andThen]
  split <;> simp_all

theorem flights_setFlight (q : RingId) (f : Flight) (s : State) :
    ((setFlight q f s).ringAux q).flights = (s.ringAux q).flights.map (fun x => if x.tag = f.tag then f else x) := by
  simp [setFlight, State.ringAux, setRing]

theorem cqsOk_setFlight {q : RingId} {f : Flight} {s : State} (h : cqsOk s q) (hf : f.cq < 16) : cqsOk (setFlight q f s) q := by
  intro g hg
  rw [flights_setFlight] at hg
  simp only [List.mem_map] at hg
  obtain ⟨x, hx, rfl⟩ := hg
  split
  · exact hf
  · exact h x hx

/-- The flight that work leaves names a completion ring if all flights do. -/
theorem workedFlight_cq {q : RingId} {f : Flight} {s : State} (h : cqsOk s q) (hf : f.cq < 16) : (workedFlight q f s).cq < 16 := by
  unfold workedFlight
  dsimp only
  cases hx : (s.ringAux q).flights.find? (fun x => x.tag == f.tag) with
  | none => exact hf
  | some g => exact h g (List.mem_of_find?_eq_some hx)

end Sys2Proof.Machine
end

