-- ==== Sys2Proof/Tests/Slice0.lean ====
section
/-! SUPPORT. Tests: ill-formed commands are refused; a state and operands that meet the hypotheses of each statement (witness_…); single commands on small states (test_…). -/

open Sys2Proof Sys2Proof.Machine

namespace Sys2Proof.Tests

set_option Elab.async false

/-! ## Small states -/

/-- Both dies have booted, every domain and island is out of reset, and both dies are in FULL. -/
def up : State :=
  bothDies.foldl (fun t d => t |> wrB (BOOT_STATUS d) BOOT_STATUS_READY true |> wr (BLOCK_RESET d) 0)
    { State.reset with inReset := [], resetnHigh := true, boots := [(0, { Boot.empty with running := true, islandsOut := upto 31 }), (1, { Boot.empty with running := true, islandsOut := upto 31 })] }

/-- PF0 of die A, and its rings. -/
def pf : Fun := ⟨.a, 0⟩
def rg (n : Nat) : RingId := ⟨pf, n⟩

/-- A word with one field set. -/
def fw (f : Fld) (v : Nat) : Word := f.put v 0

/-- An enabled ring of 16 entries, of a type, with completion ring 1. -/
def ringUp (n ty : Nat) (s : State) : State :=
  s |> wr (RING_CFG (rg n)) (BitVec.ofNat 32 (4 + ty * 2 ^ 8 + 1 * 2 ^ 16)) |> wrF (RING_STATUS (rg n)) RING_STATUS_STATE 1

/-- PF0 of die A with a ring of a type at 0 and its completion ring at 1. -/
def withRing (ty : Nat) : State := up |> ringUp 0 ty |> ringUp 1 10

theorem test_wf_accepts_0 : ([
  .registerWrite ⟨.a, 0⟩ 0 0,
  .misalignedAccess ⟨.a, 0⟩ false 0 0,
  .loWrite ⟨.a, 0⟩ 0 0,
  .hiWrite ⟨.a, 0⟩ 0 0,
  .loRead ⟨.a, 0⟩ 0,
  .avsFrameDone .a 0 false,
  .avsReadback .a 0 0,
  .avsFaultClear ⟨.a, 0⟩,
  .paceManualWrite ⟨.a, 0⟩ 0,
  .paceLoopCtrlWrite ⟨.a, 0⟩ 0,
  .avsLimitsWrite ⟨.a, 0⟩ 0,
  .valueCrossing .a 0,
  .xingPulse .a 0,
  .xingAck .a 0,
  .xingModeWrite ⟨.a, 0⟩ 0 0,
  .xingStallTimeout .a 0,
  .islandClockStop .a 0,
  .islandClockResume .a 0,
  .xingPeerReset .a 0,
  .xingResync .a 0,
  .routeCreate ⟨⟨.a, 0⟩, 0⟩ 0x10,
  .routeModify ⟨⟨.a, 0⟩, 0⟩ 0x11,
  .routeDelete ⟨⟨.a, 0⟩, 0⟩ 0x12,
  .routeQuery ⟨⟨.a, 0⟩, 0⟩ 0x13,
  .routeChangeEffect 0,
  .imageApply ⟨⟨.a, 0⟩, 0⟩ 0x18,
  .ringEnable ⟨.a, 0⟩ ⟨⟨.a, 0⟩, 0⟩ 0,
  .ringDisable ⟨.a, 0⟩ ⟨⟨.a, 0⟩, 0⟩ 0,
  .ringCfgModify ⟨.a, 0⟩ ⟨⟨.a, 0⟩, 0⟩ 0,
  .doorbell ⟨⟨.a, 0⟩, 0⟩ 0,
  .consumerDoorbell ⟨⟨.a, 0⟩, 0⟩ 0,
  .descriptorFetch ⟨⟨.a, 0⟩, 0⟩,
  .intDelayExpiry ⟨⟨.a, 0⟩, 0⟩,
  .ringIntWrite ⟨.a, 0⟩ ⟨⟨.a, 0⟩, 0⟩ 0,
  .nop ⟨⟨.a, 0⟩, 0⟩ 0x0,
  .waitValue ⟨⟨.a, 0⟩, 0⟩ 0x1,
  .waitValuePoll ⟨⟨.a, 0⟩, 0⟩,
  .waitValueTimeout ⟨⟨.a, 0⟩, 0⟩,
  .writeValue ⟨⟨.a, 0⟩, 0⟩ 0x2,
  .timestamp ⟨⟨.a, 0⟩, 0⟩ 0x3,
  .fenceWaitRelease ⟨⟨.a, 0⟩, 0⟩,
  .fenceSignal ⟨⟨.a, 0⟩, 0⟩,
  .tenantCreate ⟨⟨.a, 0⟩, 0⟩ 0x20,
  .tenantModify ⟨⟨.a, 0⟩, 0⟩ 0x22,
  .tenantDestroy ⟨⟨.a, 0⟩, 0⟩ 0x21,
  .tenantDestroyDone ⟨.a, 0⟩ [],
  .pinAssign ⟨⟨.a, 0⟩, 0⟩ 0x23,
  .secureClaim ⟨⟨.a, 0⟩, 0⟩ 0x24,
  .secureRelease ⟨⟨.a, 0⟩, 0⟩ 0x25,
  .stateSize ⟨⟨.a, 0⟩, 0⟩ 0x26,
  .tenantFreeze ⟨⟨.a, 0⟩, 0⟩ 0x27,
  .tenantFreezeDone ⟨.a, 0⟩,
  .tenantSave ⟨⟨.a, 0⟩, 0⟩ 0x28,
  .tenantRestore ⟨⟨.a, 0⟩, 0⟩ 0x29,
  .tenantThaw ⟨⟨.a, 0⟩, 0⟩ 0x2a,
  .pcieFlr ⟨.a, 0⟩,
  .flrCtrlWrite ⟨.a, 0⟩ 0 0,
  .flrDone ⟨.a, 0⟩ [],
  .mmuInvalidate ⟨.a, 0⟩ 0,
  .carveLock ⟨.a, 0⟩ 0] : List Instr).all (fun i => i.wf) = true := by decide +kernel

theorem test_wf_accepts_1 : ([
  .cacheSWaysWrite ⟨.a, 0⟩ 0,
  .headEnable ⟨⟨.a, 0⟩, 0⟩ 0x30,
  .headDisable ⟨⟨.a, 0⟩, 0⟩ 0x31,
  .headMode ⟨⟨.a, 0⟩, 0⟩ 0x32,
  .portConfig ⟨⟨.a, 0⟩, 0⟩ 0x33,
  .portAux ⟨⟨.a, 0⟩, 0⟩ 0x34,
  .auxReply 0 none,
  .dsiCmd ⟨⟨.a, 0⟩, 0⟩ 0x35,
  .dsiReadTimeout 0,
  .timingWrite ⟨.a, 0⟩ 0 0 0,
  .headPclkWrite ⟨.a, 0⟩ 0 0,
  .lineStart 0 ⟨none, 0, [], [], [], [], []⟩,
  .layerDeadline 0 0 ⟨0, 0⟩,
  .composeWindowOpen 0,
  .composeLine 0,
  .composePassEnd 0,
  .pixelPllLost 0,
  .pixelPllRelock 0,
  .portHpd 0 0 false,
  .linkTraining 0 none,
  .genlockReference 0 ⟨.head 0, 0, false⟩,
  .genlockSourceTimeout 0,
  .layerCommit ⟨⟨.a, 0⟩, 0⟩ 0x410,
  .layerColour ⟨⟨.a, 0⟩, 0⟩ 0x411,
  .headColour ⟨⟨.a, 0⟩, 0⟩ 0x38,
  .bufferRelease 0 0,
  .garnetLinkEnWrite ⟨.a, 0⟩ 0,
  .garnetAtlas ⟨⟨.a, 0⟩, 0⟩ 0x40,
  .garnetPalette ⟨⟨.a, 0⟩, 0⟩ 0x41,
  .garnetWindow ⟨⟨.a, 0⟩, 0⟩ 0x42,
  .garnetSlot ⟨⟨.a, 0⟩, 0⟩ 0x43,
  .garnetScanForce ⟨⟨.a, 0⟩, 0⟩ 0x44,
  .garnetScanRelease ⟨⟨.a, 0⟩, 0⟩ 0x44,
  .composerHeartbeatTimeout 0,
  .garnetTakeover 0 0 0,
  .camPortEnable ⟨⟨.a, 0⟩, 0⟩ 0x50,
  .camPortDisable ⟨⟨.a, 0⟩, 0⟩ 0x50,
  .camPortReady 0,
  .camFrameStart 0 ⟨0, 0⟩,
  .camLine 0 0 ⟨0, 0, false, []⟩,
  .camFrameEnd 0 ⟨0, 0⟩,
  .camStreamTimeout 0 0,
  .camLanesLost 0,
  .camLaneState 0 false 0 0 false,
  .camPortClear ⟨.a, 0⟩ 0 0,
  .capBuffer ⟨⟨.a, 0⟩, 0⟩ 0x510,
  .warpMesh ⟨⟨.a, 0⟩, 0⟩ 0x511,
  .warpFrame ⟨⟨.a, 0⟩, 0⟩ 0x512,
  .renderPass ⟨⟨.a, 0⟩, 0⟩ 0x110,
  .dispatch ⟨⟨.a, 0⟩, 0⟩ 0x210,
  .dispatchIndirect ⟨⟨.a, 0⟩, 0⟩ 0x211,
  .jobDone .a ⟨⟨.a, 0⟩, 0⟩ ⟨[], [], false, [], 0, 0⟩,
  .sliceExpiry .a ⟨⟨.a, 0⟩, 0⟩,
  .preemptBoundary .a ⟨⟨.a, 0⟩, 0⟩ [],
  .graceExpiry .a ⟨⟨.a, 0⟩, 0⟩ 0 0,
  .clusterIdleOff .a 0,
  .gpuSample ⟨⟨.a, 0⟩, 0⟩ 0x60,
  .gpuCtxStoreLock ⟨.a, 0⟩ 0,
  .gpuPcClear ⟨.a, 0⟩ 0,
  .memRequestServe .a 0 [] ⟨0, [], 0, []⟩] : List Instr).all (fun i => i.wf) = true := by decide +kernel

theorem test_wf_accepts_2 : ([
  .agePromotion .a 0,
  .fspChange ⟨.a, 0⟩ 0,
  .audioPort ⟨⟨.a, 0⟩, 0⟩ 0x70,
  .audioPdm ⟨⟨.a, 0⟩, 0⟩ 0x71,
  .audioBus ⟨⟨.a, 0⟩, 0⟩ 0x72,
  .audioFx ⟨⟨.a, 0⟩, 0⟩ 0x73,
  .audioDuck ⟨⟨.a, 0⟩, 0⟩ 0x74,
  .audioClockLoss 0,
  .audioClockBack 0 0,
  .playBuffer ⟨⟨.a, 0⟩, 0⟩ 0x610,
  .setGain ⟨⟨.a, 0⟩, 0⟩ 0x611,
  .tone ⟨⟨.a, 0⟩, 0⟩ 0x612,
  .audioCapBuffer ⟨⟨.a, 0⟩, 0⟩ 0x710,
  .meterSnapshot ⟨⟨.a, 0⟩, 0⟩ 0x711,
  .hapticChannel ⟨⟨.a, 0⟩, 0⟩ 0x80,
  .play ⟨⟨.a, 0⟩, 0⟩ 0x810,
  .stop ⟨⟨.a, 0⟩, 0⟩ 0x811,
  .load ⟨⟨.a, 0⟩, 0⟩ 0x812,
  .arm ⟨⟨.a, 0⟩, 0⟩ 0x813,
  .htrigEdge .a 0 false,
  .hapticControlPeriod 0 ⟨0, 0, false, 0⟩,
  .touchUnit ⟨⟨.a, 0⟩, 0⟩ 0x90,
  .touchSensor ⟨⟨.a, 0⟩, 0⟩ 0x91,
  .touchRegion ⟨⟨.a, 0⟩, 0⟩ 0x92,
  .touchI2c ⟨⟨.a, 0⟩, 0⟩ 0x93,
  .touchRefStore ⟨⟨.a, 0⟩, 0⟩ 0x94,
  .touchRefReload ⟨⟨.a, 0⟩, 0⟩ 0x94,
  .touchRefErase ⟨⟨.a, 0⟩, 0⟩ 0x94,
  .touchSelftest ⟨⟨.a, 0⟩, 0⟩ 0x95,
  .tshInt 0,
  .tshRead 0,
  .tshReadDone 0 (.failed 0),
  .copy ⟨⟨.a, 0⟩, 0⟩ 0x310,
  .copyAppend ⟨⟨.a, 0⟩, 0⟩ 0x311,
  .copyCheck ⟨⟨.a, 0⟩, 0⟩ 0x312,
  .crcScan ⟨⟨.a, 0⟩, 0⟩ 0x313,
  .crcGet ⟨⟨.a, 0⟩, 0⟩ 0x314,
  .crcSet ⟨⟨.a, 0⟩, 0⟩ 0x315,
  .crcEngineSwitch 0,
  .powerStatePearl ⟨⟨.a, 0⟩, 0⟩ 0xa0,
  .powerStateOnyx ⟨⟨.a, 0⟩, 0⟩ 0xa0,
  .unitPower ⟨⟨.a, 0⟩, 0⟩ 0xa1,
  .permitHoldEnd .a 0,
  .permitAged .a 0 0,
  .permitRailWrite ⟨.a, 0⟩ 0 0,
  .islandRelease .a 0,
  .islandPllTimeout .a 0,
  .blockResetAssert ⟨.a, 0⟩ 0 0,
  .blockResetRelease ⟨.a, 0⟩ 0 0,
  .blockReleaseTimeout .a 0,
  .blockQuiesce ⟨.a, 0⟩ 0,
  .blockQuiesced .a 0,
  .ebrumFlitReplay .a 0 0,
  .ebrumLaneFail .a 0 0,
  .ebrumRemapDone 0,
  .linkRetrain ⟨⟨.a, 0⟩, 0⟩ 0xb0,
  .rejoin ⟨⟨.a, 0⟩, 0⟩ 0xb1,
  .ltStart ⟨.a, 0⟩ 0 0 ⟨[], 0⟩,
  .ltStop ⟨.a, 0⟩ 0 0 ⟨[], 0⟩,
  .linkTestEnd .a 0 ⟨[], 0⟩] : List Instr).all (fun i => i.wf) = true := by decide +kernel

theorem test_wf_accepts_3 : ([
  .ltEyeGo ⟨.a, 0⟩ 0,
  .laneMargining .a 0 0,
  .rinlarSnap ⟨.a, 0⟩ 0,
  .rinlarLatch ⟨.a, 0⟩ 0,
  .dsiReadResponse 0 [],
  .dramRefresh .a 0,
  .mainLinkBack 0,
  .forwardedClockLoss .a 0,
  .checkerLock .a 0 0 false ⟨[], 0⟩,
  .msixVectorUnmask ⟨.a, 0⟩ 0] : List Instr).all (fun i => i.wf) = true := by decide +kernel

theorem test_wf_refuses_0 : ([
  .registerWrite ⟨.a, 32⟩ 0 0,
  .registerWrite ⟨.a, 0⟩ 67117056 0,
  .misalignedAccess ⟨.a, 32⟩ false 0 0,
  .misalignedAccess ⟨.a, 0⟩ false 67117056 0,
  .loWrite ⟨.a, 32⟩ 0 0,
  .loWrite ⟨.a, 0⟩ 67117056 0,
  .hiWrite ⟨.a, 32⟩ 0 0,
  .hiWrite ⟨.a, 0⟩ 67117056 0,
  .loRead ⟨.a, 32⟩ 0,
  .loRead ⟨.a, 0⟩ 67117056,
  .avsFrameDone .a 4 false,
  .avsReadback .a 4 0,
  .avsReadback .a 0 65536,
  .avsFaultClear ⟨.a, 32⟩,
  .paceManualWrite ⟨.a, 32⟩ 0,
  .paceLoopCtrlWrite ⟨.a, 32⟩ 0,
  .avsLimitsWrite ⟨.a, 32⟩ 0,
  .valueCrossing .a 256,
  .xingPulse .a 256,
  .xingAck .a 256,
  .xingModeWrite ⟨.a, 32⟩ 0 0,
  .xingModeWrite ⟨.a, 0⟩ 256 0,
  .xingStallTimeout .a 256,
  .islandClockStop .a 31,
  .islandClockResume .a 31,
  .xingPeerReset .a 256,
  .xingResync .a 256,
  .routeCreate ⟨⟨.a, 0⟩, 0⟩ 0x11,
  .routeCreate ⟨⟨.a, 0⟩, 0⟩ 0x110,
  .routeCreate ⟨⟨.a, 0⟩, 16⟩ 0x10,
  .routeModify ⟨⟨.a, 0⟩, 0⟩ 0x12,
  .routeModify ⟨⟨.a, 0⟩, 0⟩ 0x111,
  .routeModify ⟨⟨.a, 0⟩, 16⟩ 0x11,
  .routeDelete ⟨⟨.a, 0⟩, 0⟩ 0x13,
  .routeDelete ⟨⟨.a, 0⟩, 0⟩ 0x112,
  .routeDelete ⟨⟨.a, 0⟩, 16⟩ 0x12,
  .routeQuery ⟨⟨.a, 0⟩, 0⟩ 0x14,
  .routeQuery ⟨⟨.a, 0⟩, 0⟩ 0x113,
  .routeQuery ⟨⟨.a, 0⟩, 16⟩ 0x13,
  .routeChangeEffect 65536,
  .imageApply ⟨⟨.a, 0⟩, 0⟩ 0x19,
  .imageApply ⟨⟨.a, 0⟩, 0⟩ 0x118,
  .imageApply ⟨⟨.a, 0⟩, 16⟩ 0x18,
  .ringEnable ⟨.a, 32⟩ ⟨⟨.a, 0⟩, 0⟩ 0,
  .ringEnable ⟨.a, 0⟩ ⟨⟨.a, 0⟩, 16⟩ 0,
  .ringDisable ⟨.a, 32⟩ ⟨⟨.a, 0⟩, 0⟩ 0,
  .ringDisable ⟨.a, 0⟩ ⟨⟨.a, 0⟩, 16⟩ 0,
  .ringCfgModify ⟨.a, 32⟩ ⟨⟨.a, 0⟩, 0⟩ 0,
  .ringCfgModify ⟨.a, 0⟩ ⟨⟨.a, 0⟩, 16⟩ 0,
  .doorbell ⟨⟨.a, 0⟩, 16⟩ 0,
  .consumerDoorbell ⟨⟨.a, 0⟩, 16⟩ 0,
  .descriptorFetch ⟨⟨.a, 0⟩, 16⟩,
  .intDelayExpiry ⟨⟨.a, 0⟩, 16⟩,
  .ringIntWrite ⟨.a, 32⟩ ⟨⟨.a, 0⟩, 0⟩ 0,
  .ringIntWrite ⟨.a, 0⟩ ⟨⟨.a, 0⟩, 16⟩ 0,
  .nop ⟨⟨.a, 0⟩, 0⟩ 0x1,
  .nop ⟨⟨.a, 0⟩, 0⟩ 0x900,
  .nop ⟨⟨.a, 0⟩, 16⟩ 0x0,
  .waitValue ⟨⟨.a, 0⟩, 0⟩ 0x2,
  .waitValue ⟨⟨.a, 0⟩, 0⟩ 0x901] : List Instr).any (fun i => i.wf) = false := by decide +kernel

theorem test_wf_refuses_1 : ([
  .waitValue ⟨⟨.a, 0⟩, 16⟩ 0x1,
  .waitValuePoll ⟨⟨.a, 0⟩, 16⟩,
  .waitValueTimeout ⟨⟨.a, 0⟩, 16⟩,
  .writeValue ⟨⟨.a, 0⟩, 0⟩ 0x3,
  .writeValue ⟨⟨.a, 0⟩, 0⟩ 0x902,
  .writeValue ⟨⟨.a, 0⟩, 16⟩ 0x2,
  .timestamp ⟨⟨.a, 0⟩, 0⟩ 0x4,
  .timestamp ⟨⟨.a, 0⟩, 0⟩ 0x903,
  .timestamp ⟨⟨.a, 0⟩, 16⟩ 0x3,
  .fenceWaitRelease ⟨⟨.a, 0⟩, 16⟩,
  .fenceSignal ⟨⟨.a, 0⟩, 16⟩,
  .tenantCreate ⟨⟨.a, 0⟩, 0⟩ 0x21,
  .tenantCreate ⟨⟨.a, 0⟩, 0⟩ 0x120,
  .tenantCreate ⟨⟨.a, 0⟩, 16⟩ 0x20,
  .tenantModify ⟨⟨.a, 0⟩, 0⟩ 0x23,
  .tenantModify ⟨⟨.a, 0⟩, 0⟩ 0x122,
  .tenantModify ⟨⟨.a, 0⟩, 16⟩ 0x22,
  .tenantDestroy ⟨⟨.a, 0⟩, 0⟩ 0x22,
  .tenantDestroy ⟨⟨.a, 0⟩, 0⟩ 0x121,
  .tenantDestroy ⟨⟨.a, 0⟩, 16⟩ 0x21,
  .tenantDestroyDone ⟨.a, 32⟩ [],
  .pinAssign ⟨⟨.a, 0⟩, 0⟩ 0x24,
  .pinAssign ⟨⟨.a, 0⟩, 0⟩ 0x123,
  .pinAssign ⟨⟨.a, 0⟩, 16⟩ 0x23,
  .secureClaim ⟨⟨.a, 0⟩, 0⟩ 0x25,
  .secureClaim ⟨⟨.a, 0⟩, 0⟩ 0x124,
  .secureClaim ⟨⟨.a, 0⟩, 16⟩ 0x24,
  .secureRelease ⟨⟨.a, 0⟩, 0⟩ 0x26,
  .secureRelease ⟨⟨.a, 0⟩, 0⟩ 0x125,
  .secureRelease ⟨⟨.a, 0⟩, 16⟩ 0x25,
  .stateSize ⟨⟨.a, 0⟩, 0⟩ 0x27,
  .stateSize ⟨⟨.a, 0⟩, 0⟩ 0x126,
  .stateSize ⟨⟨.a, 0⟩, 16⟩ 0x26,
  .tenantFreeze ⟨⟨.a, 0⟩, 0⟩ 0x28,
  .tenantFreeze ⟨⟨.a, 0⟩, 0⟩ 0x127,
  .tenantFreeze ⟨⟨.a, 0⟩, 16⟩ 0x27,
  .tenantFreezeDone ⟨.a, 32⟩,
  .tenantSave ⟨⟨.a, 0⟩, 0⟩ 0x29,
  .tenantSave ⟨⟨.a, 0⟩, 0⟩ 0x128,
  .tenantSave ⟨⟨.a, 0⟩, 16⟩ 0x28,
  .tenantRestore ⟨⟨.a, 0⟩, 0⟩ 0x2a,
  .tenantRestore ⟨⟨.a, 0⟩, 0⟩ 0x129,
  .tenantRestore ⟨⟨.a, 0⟩, 16⟩ 0x29,
  .tenantThaw ⟨⟨.a, 0⟩, 0⟩ 0x2b,
  .tenantThaw ⟨⟨.a, 0⟩, 0⟩ 0x12a,
  .tenantThaw ⟨⟨.a, 0⟩, 16⟩ 0x2a,
  .pcieFlr ⟨.a, 32⟩,
  .flrCtrlWrite ⟨.a, 32⟩ 0 0,
  .flrCtrlWrite ⟨.a, 0⟩ 32 0,
  .flrDone ⟨.a, 32⟩ [],
  .mmuInvalidate ⟨.a, 32⟩ 0,
  .carveLock ⟨.a, 32⟩ 0,
  .cacheSWaysWrite ⟨.a, 32⟩ 0,
  .headEnable ⟨⟨.a, 0⟩, 0⟩ 0x31,
  .headEnable ⟨⟨.a, 0⟩, 0⟩ 0x130,
  .headEnable ⟨⟨.a, 0⟩, 16⟩ 0x30,
  .headDisable ⟨⟨.a, 0⟩, 0⟩ 0x32,
  .headDisable ⟨⟨.a, 0⟩, 0⟩ 0x131,
  .headDisable ⟨⟨.a, 0⟩, 16⟩ 0x31,
  .headMode ⟨⟨.a, 0⟩, 0⟩ 0x33] : List Instr).any (fun i => i.wf) = false := by decide +kernel

theorem test_wf_refuses_2 : ([
  .headMode ⟨⟨.a, 0⟩, 0⟩ 0x132,
  .headMode ⟨⟨.a, 0⟩, 16⟩ 0x32,
  .portConfig ⟨⟨.a, 0⟩, 0⟩ 0x34,
  .portConfig ⟨⟨.a, 0⟩, 0⟩ 0x133,
  .portConfig ⟨⟨.a, 0⟩, 16⟩ 0x33,
  .portAux ⟨⟨.a, 0⟩, 0⟩ 0x35,
  .portAux ⟨⟨.a, 0⟩, 0⟩ 0x134,
  .portAux ⟨⟨.a, 0⟩, 16⟩ 0x34,
  .auxReply 8 none,
  .dsiCmd ⟨⟨.a, 0⟩, 0⟩ 0x36,
  .dsiCmd ⟨⟨.a, 0⟩, 0⟩ 0x135,
  .dsiCmd ⟨⟨.a, 0⟩, 16⟩ 0x35,
  .dsiReadTimeout 8,
  .timingWrite ⟨.a, 32⟩ 0 0 0,
  .timingWrite ⟨.a, 0⟩ 4 0 0,
  .timingWrite ⟨.a, 0⟩ 0 4 0,
  .headPclkWrite ⟨.a, 32⟩ 0 0,
  .headPclkWrite ⟨.a, 0⟩ 4 0,
  .lineStart 8 ⟨none, 0, [], [], [], [], []⟩,
  .layerDeadline 8 0 ⟨0, 0⟩,
  .composeWindowOpen 8,
  .composeLine 8,
  .composePassEnd 8,
  .pixelPllLost 8,
  .pixelPllRelock 8,
  .portHpd 8 0 false,
  .linkTraining 8 none,
  .genlockReference 8 ⟨.head 0, 0, false⟩,
  .genlockSourceTimeout 8,
  .layerCommit ⟨⟨.a, 0⟩, 0⟩ 0x411,
  .layerCommit ⟨⟨.a, 0⟩, 0⟩ 0x510,
  .layerCommit ⟨⟨.a, 0⟩, 16⟩ 0x410,
  .layerColour ⟨⟨.a, 0⟩, 0⟩ 0x412,
  .layerColour ⟨⟨.a, 0⟩, 0⟩ 0x511,
  .layerColour ⟨⟨.a, 0⟩, 16⟩ 0x411,
  .headColour ⟨⟨.a, 0⟩, 0⟩ 0x39,
  .headColour ⟨⟨.a, 0⟩, 0⟩ 0x138,
  .headColour ⟨⟨.a, 0⟩, 16⟩ 0x38,
  .bufferRelease 8 0,
  .bufferRelease 0 16,
  .garnetLinkEnWrite ⟨.a, 32⟩ 0,
  .garnetAtlas ⟨⟨.a, 0⟩, 0⟩ 0x41,
  .garnetAtlas ⟨⟨.a, 0⟩, 0⟩ 0x140,
  .garnetAtlas ⟨⟨.a, 0⟩, 16⟩ 0x40,
  .garnetPalette ⟨⟨.a, 0⟩, 0⟩ 0x42,
  .garnetPalette ⟨⟨.a, 0⟩, 0⟩ 0x141,
  .garnetPalette ⟨⟨.a, 0⟩, 16⟩ 0x41,
  .garnetWindow ⟨⟨.a, 0⟩, 0⟩ 0x43,
  .garnetWindow ⟨⟨.a, 0⟩, 0⟩ 0x142,
  .garnetWindow ⟨⟨.a, 0⟩, 16⟩ 0x42,
  .garnetSlot ⟨⟨.a, 0⟩, 0⟩ 0x44,
  .garnetSlot ⟨⟨.a, 0⟩, 0⟩ 0x143,
  .garnetSlot ⟨⟨.a, 0⟩, 16⟩ 0x43,
  .garnetScanForce ⟨⟨.a, 0⟩, 0⟩ 0x45,
  .garnetScanForce ⟨⟨.a, 0⟩, 0⟩ 0x144,
  .garnetScanForce ⟨⟨.a, 0⟩, 16⟩ 0x44,
  .garnetScanRelease ⟨⟨.a, 0⟩, 0⟩ 0x45,
  .garnetScanRelease ⟨⟨.a, 0⟩, 0⟩ 0x144,
  .garnetScanRelease ⟨⟨.a, 0⟩, 16⟩ 0x44,
  .composerHeartbeatTimeout 8] : List Instr).any (fun i => i.wf) = false := by decide +kernel

theorem test_wf_refuses_3 : ([
  .garnetTakeover 8 0 0,
  .camPortEnable ⟨⟨.a, 0⟩, 0⟩ 0x51,
  .camPortEnable ⟨⟨.a, 0⟩, 0⟩ 0x150,
  .camPortEnable ⟨⟨.a, 0⟩, 16⟩ 0x50,
  .camPortDisable ⟨⟨.a, 0⟩, 0⟩ 0x51,
  .camPortDisable ⟨⟨.a, 0⟩, 0⟩ 0x150,
  .camPortDisable ⟨⟨.a, 0⟩, 16⟩ 0x50,
  .camPortReady 8,
  .camFrameStart 8 ⟨0, 0⟩,
  .camFrameStart 0 ⟨4, 0⟩,
  .camFrameStart 0 ⟨0, 4⟩,
  .camLine 8 0 ⟨0, 0, false, []⟩,
  .camLine 0 4 ⟨0, 0, false, []⟩,
  .camFrameEnd 8 ⟨0, 0⟩,
  .camFrameEnd 0 ⟨4, 0⟩,
  .camFrameEnd 0 ⟨0, 4⟩,
  .camStreamTimeout 8 0,
  .camStreamTimeout 0 4,
  .camLanesLost 8,
  .camLaneState 8 false 0 0 false,
  .camPortClear ⟨.a, 32⟩ 0 0,
  .camPortClear ⟨.a, 0⟩ 4 0,
  .capBuffer ⟨⟨.a, 0⟩, 0⟩ 0x511,
  .capBuffer ⟨⟨.a, 0⟩, 0⟩ 0x610,
  .capBuffer ⟨⟨.a, 0⟩, 16⟩ 0x510,
  .warpMesh ⟨⟨.a, 0⟩, 0⟩ 0x512,
  .warpMesh ⟨⟨.a, 0⟩, 0⟩ 0x611,
  .warpMesh ⟨⟨.a, 0⟩, 16⟩ 0x511,
  .warpFrame ⟨⟨.a, 0⟩, 0⟩ 0x513,
  .warpFrame ⟨⟨.a, 0⟩, 0⟩ 0x612,
  .warpFrame ⟨⟨.a, 0⟩, 16⟩ 0x512,
  .renderPass ⟨⟨.a, 0⟩, 0⟩ 0x111,
  .renderPass ⟨⟨.a, 0⟩, 0⟩ 0x210,
  .renderPass ⟨⟨.a, 0⟩, 16⟩ 0x110,
  .dispatch ⟨⟨.a, 0⟩, 0⟩ 0x211,
  .dispatch ⟨⟨.a, 0⟩, 0⟩ 0x310,
  .dispatch ⟨⟨.a, 0⟩, 16⟩ 0x210,
  .dispatchIndirect ⟨⟨.a, 0⟩, 0⟩ 0x212,
  .dispatchIndirect ⟨⟨.a, 0⟩, 0⟩ 0x311,
  .dispatchIndirect ⟨⟨.a, 0⟩, 16⟩ 0x211,
  .jobDone .a ⟨⟨.a, 0⟩, 16⟩ ⟨[], [], false, [], 0, 0⟩,
  .sliceExpiry .a ⟨⟨.a, 0⟩, 16⟩,
  .preemptBoundary .a ⟨⟨.a, 0⟩, 16⟩ [],
  .graceExpiry .a ⟨⟨.a, 0⟩, 16⟩ 0 0,
  .clusterIdleOff .a 8,
  .gpuSample ⟨⟨.a, 0⟩, 0⟩ 0x61,
  .gpuSample ⟨⟨.a, 0⟩, 0⟩ 0x160,
  .gpuSample ⟨⟨.a, 0⟩, 16⟩ 0x60,
  .gpuCtxStoreLock ⟨.a, 32⟩ 0,
  .gpuPcClear ⟨.a, 32⟩ 0,
  .memRequestServe .a 8 [] ⟨0, [], 0, []⟩,
  .agePromotion .a 24,
  .fspChange ⟨.a, 32⟩ 0,
  .audioPort ⟨⟨.a, 0⟩, 0⟩ 0x71,
  .audioPort ⟨⟨.a, 0⟩, 0⟩ 0x170,
  .audioPort ⟨⟨.a, 0⟩, 16⟩ 0x70,
  .audioPdm ⟨⟨.a, 0⟩, 0⟩ 0x72,
  .audioPdm ⟨⟨.a, 0⟩, 0⟩ 0x171,
  .audioPdm ⟨⟨.a, 0⟩, 16⟩ 0x71,
  .audioBus ⟨⟨.a, 0⟩, 0⟩ 0x73,
  .audioBus ⟨⟨.a, 0⟩, 0⟩ 0x172,
  .audioBus ⟨⟨.a, 0⟩, 16⟩ 0x72] : List Instr).any (fun i => i.wf) = false := by decide +kernel

theorem test_wf_refuses_4 : ([
  .audioFx ⟨⟨.a, 0⟩, 0⟩ 0x74,
  .audioFx ⟨⟨.a, 0⟩, 0⟩ 0x173,
  .audioFx ⟨⟨.a, 0⟩, 16⟩ 0x73,
  .audioDuck ⟨⟨.a, 0⟩, 0⟩ 0x75,
  .audioDuck ⟨⟨.a, 0⟩, 0⟩ 0x174,
  .audioDuck ⟨⟨.a, 0⟩, 16⟩ 0x74,
  .audioClockLoss 4,
  .audioClockBack 4 0,
  .playBuffer ⟨⟨.a, 0⟩, 0⟩ 0x611,
  .playBuffer ⟨⟨.a, 0⟩, 0⟩ 0x710,
  .playBuffer ⟨⟨.a, 0⟩, 16⟩ 0x610,
  .setGain ⟨⟨.a, 0⟩, 0⟩ 0x612,
  .setGain ⟨⟨.a, 0⟩, 0⟩ 0x711,
  .setGain ⟨⟨.a, 0⟩, 16⟩ 0x611,
  .tone ⟨⟨.a, 0⟩, 0⟩ 0x613,
  .tone ⟨⟨.a, 0⟩, 0⟩ 0x712,
  .tone ⟨⟨.a, 0⟩, 16⟩ 0x612,
  .audioCapBuffer ⟨⟨.a, 0⟩, 0⟩ 0x711,
  .audioCapBuffer ⟨⟨.a, 0⟩, 0⟩ 0x810,
  .audioCapBuffer ⟨⟨.a, 0⟩, 16⟩ 0x710,
  .meterSnapshot ⟨⟨.a, 0⟩, 0⟩ 0x712,
  .meterSnapshot ⟨⟨.a, 0⟩, 0⟩ 0x811,
  .meterSnapshot ⟨⟨.a, 0⟩, 16⟩ 0x711,
  .hapticChannel ⟨⟨.a, 0⟩, 0⟩ 0x81,
  .hapticChannel ⟨⟨.a, 0⟩, 0⟩ 0x180,
  .hapticChannel ⟨⟨.a, 0⟩, 16⟩ 0x80,
  .play ⟨⟨.a, 0⟩, 0⟩ 0x811,
  .play ⟨⟨.a, 0⟩, 0⟩ 0x710,
  .play ⟨⟨.a, 0⟩, 16⟩ 0x810,
  .stop ⟨⟨.a, 0⟩, 0⟩ 0x812,
  .stop ⟨⟨.a, 0⟩, 0⟩ 0x711,
  .stop ⟨⟨.a, 0⟩, 16⟩ 0x811,
  .load ⟨⟨.a, 0⟩, 0⟩ 0x813,
  .load ⟨⟨.a, 0⟩, 0⟩ 0x712,
  .load ⟨⟨.a, 0⟩, 16⟩ 0x812,
  .arm ⟨⟨.a, 0⟩, 0⟩ 0x814,
  .arm ⟨⟨.a, 0⟩, 0⟩ 0x713,
  .arm ⟨⟨.a, 0⟩, 16⟩ 0x813,
  .htrigEdge .a 8 false,
  .hapticControlPeriod 8 ⟨0, 0, false, 0⟩,
  .touchUnit ⟨⟨.a, 0⟩, 0⟩ 0x91,
  .touchUnit ⟨⟨.a, 0⟩, 0⟩ 0x190,
  .touchUnit ⟨⟨.a, 0⟩, 16⟩ 0x90,
  .touchSensor ⟨⟨.a, 0⟩, 0⟩ 0x92,
  .touchSensor ⟨⟨.a, 0⟩, 0⟩ 0x191,
  .touchSensor ⟨⟨.a, 0⟩, 16⟩ 0x91,
  .touchRegion ⟨⟨.a, 0⟩, 0⟩ 0x93,
  .touchRegion ⟨⟨.a, 0⟩, 0⟩ 0x192,
  .touchRegion ⟨⟨.a, 0⟩, 16⟩ 0x92,
  .touchI2c ⟨⟨.a, 0⟩, 0⟩ 0x94,
  .touchI2c ⟨⟨.a, 0⟩, 0⟩ 0x193,
  .touchI2c ⟨⟨.a, 0⟩, 16⟩ 0x93,
  .touchRefStore ⟨⟨.a, 0⟩, 0⟩ 0x95,
  .touchRefStore ⟨⟨.a, 0⟩, 0⟩ 0x194,
  .touchRefStore ⟨⟨.a, 0⟩, 16⟩ 0x94,
  .touchRefReload ⟨⟨.a, 0⟩, 0⟩ 0x95,
  .touchRefReload ⟨⟨.a, 0⟩, 0⟩ 0x194,
  .touchRefReload ⟨⟨.a, 0⟩, 16⟩ 0x94,
  .touchRefErase ⟨⟨.a, 0⟩, 0⟩ 0x95,
  .touchRefErase ⟨⟨.a, 0⟩, 0⟩ 0x194] : List Instr).any (fun i => i.wf) = false := by decide +kernel

theorem test_wf_refuses_5 : ([
  .touchRefErase ⟨⟨.a, 0⟩, 16⟩ 0x94,
  .touchSelftest ⟨⟨.a, 0⟩, 0⟩ 0x96,
  .touchSelftest ⟨⟨.a, 0⟩, 0⟩ 0x195,
  .touchSelftest ⟨⟨.a, 0⟩, 16⟩ 0x95,
  .tshInt 4,
  .tshRead 4,
  .tshReadDone 4 (.failed 0),
  .copy ⟨⟨.a, 0⟩, 0⟩ 0x311,
  .copy ⟨⟨.a, 0⟩, 0⟩ 0x410,
  .copy ⟨⟨.a, 0⟩, 16⟩ 0x310,
  .copyAppend ⟨⟨.a, 0⟩, 0⟩ 0x312,
  .copyAppend ⟨⟨.a, 0⟩, 0⟩ 0x411,
  .copyAppend ⟨⟨.a, 0⟩, 16⟩ 0x311,
  .copyCheck ⟨⟨.a, 0⟩, 0⟩ 0x313,
  .copyCheck ⟨⟨.a, 0⟩, 0⟩ 0x412,
  .copyCheck ⟨⟨.a, 0⟩, 16⟩ 0x312,
  .crcScan ⟨⟨.a, 0⟩, 0⟩ 0x314,
  .crcScan ⟨⟨.a, 0⟩, 0⟩ 0x413,
  .crcScan ⟨⟨.a, 0⟩, 16⟩ 0x313,
  .crcGet ⟨⟨.a, 0⟩, 0⟩ 0x315,
  .crcGet ⟨⟨.a, 0⟩, 0⟩ 0x414,
  .crcGet ⟨⟨.a, 0⟩, 16⟩ 0x314,
  .crcSet ⟨⟨.a, 0⟩, 0⟩ 0x316,
  .crcSet ⟨⟨.a, 0⟩, 0⟩ 0x415,
  .crcSet ⟨⟨.a, 0⟩, 16⟩ 0x315,
  .crcEngineSwitch 8,
  .powerStatePearl ⟨⟨.a, 0⟩, 0⟩ 0xa1,
  .powerStatePearl ⟨⟨.a, 0⟩, 0⟩ 0x1a0,
  .powerStatePearl ⟨⟨.a, 0⟩, 16⟩ 0xa0,
  .powerStateOnyx ⟨⟨.a, 0⟩, 0⟩ 0xa1,
  .powerStateOnyx ⟨⟨.a, 0⟩, 0⟩ 0x1a0,
  .powerStateOnyx ⟨⟨.a, 0⟩, 16⟩ 0xa0,
  .unitPower ⟨⟨.a, 0⟩, 0⟩ 0xa2,
  .unitPower ⟨⟨.a, 0⟩, 0⟩ 0x1a1,
  .unitPower ⟨⟨.a, 0⟩, 16⟩ 0xa1,
  .permitHoldEnd .a 6,
  .permitAged .a 6 0,
  .permitRailWrite ⟨.a, 32⟩ 0 0,
  .permitRailWrite ⟨.a, 0⟩ 4 0,
  .islandRelease .a 31,
  .islandPllTimeout .a 31,
  .blockResetAssert ⟨.a, 32⟩ 0 0,
  .blockResetRelease ⟨.a, 32⟩ 0 0,
  .blockReleaseTimeout .a 28,
  .blockQuiesce ⟨.a, 32⟩ 0,
  .blockQuiesced .a 28,
  .ebrumFlitReplay .a 4 0,
  .ebrumLaneFail .a 4 0,
  .ebrumRemapDone 4,
  .linkRetrain ⟨⟨.a, 0⟩, 0⟩ 0xb1,
  .linkRetrain ⟨⟨.a, 0⟩, 0⟩ 0x1b0,
  .linkRetrain ⟨⟨.a, 0⟩, 16⟩ 0xb0,
  .rejoin ⟨⟨.a, 0⟩, 0⟩ 0xb2,
  .rejoin ⟨⟨.a, 0⟩, 0⟩ 0x1b1,
  .rejoin ⟨⟨.a, 0⟩, 16⟩ 0xb1,
  .ltStart ⟨.a, 32⟩ 0 0 ⟨[], 0⟩,
  .ltStart ⟨.a, 0⟩ 21 0 ⟨[], 0⟩,
  .ltStop ⟨.a, 32⟩ 0 0 ⟨[], 0⟩,
  .ltStop ⟨.a, 0⟩ 21 0 ⟨[], 0⟩,
  .linkTestEnd .a 21 ⟨[], 0⟩] : List Instr).any (fun i => i.wf) = false := by decide +kernel

theorem test_wf_refuses_6 : ([
  .ltEyeGo ⟨.a, 32⟩ 0,
  .laneMargining .a 8 0,
  .rinlarSnap ⟨.a, 32⟩ 0,
  .rinlarLatch ⟨.a, 32⟩ 0,
  .dsiReadResponse 8 [],
  .dramRefresh .a 8,
  .mainLinkBack 4,
  .forwardedClockLoss .a 4,
  .checkerLock .a 21 0 false ⟨[], 0⟩,
  .msixVectorUnmask ⟨.a, 32⟩ 0,
  .msixVectorUnmask ⟨.a, 0⟩ 64] : List Instr).any (fun i => i.wf) = false := by decide +kernel

/-! ## Witnesses: the block, registers, descriptors -/

theorem witness_StepRunsFrontCommand : ({ up with pending := [.resetnAssert, .vstbyRise] } : State).pending = .resetnAssert :: [.vstbyRise] := rfl

/-- Device time of die A slews, at a REFCLK cycle of the 250. -/
def slewing (k : Int) (c : Nat) : State := setTbase .a ⟨1000, 0, k, c⟩ up

theorem witness_EmptyQueueLetsTimePass : State.reset.pending = [] ∧ State.reset.inReset.contains .fabric = true ∧ up.pending = [] ∧ up.inReset.contains .fabric = false ∧ (up.tbase .a).slew = 0
    ∧ xingUp up .a 0xC4 = true ∧ (up.xing .a 0xC4).stopped = false ∧ ((slewing 5 248).tbase .a).slew ≠ 0 ∧ ((slewing 5 248).tbase .a).cycles < 249
    ∧ 0 < ((slewing 5 249).tbase .a).slew ∧ ((slewing (-5) 249).tbase .a).slew < 0 ∧ 249 ≤ ((slewing (-5) 249).tbase .a).cycles ∧ (slewing 5 249).inReset.contains .fabric = false := by decide +kernel

theorem witness_StepKeepsMemoryCanonical : ({ up with mem := [(5, 7), (9, 1)] } : State).Inv := by unfold State.Inv; decide +kernel

theorem witness_CommandsKeepQueueAndOtherMemory : ({ up with mem := [(5, 7), (9, 1)] } : State).Inv := by unfold State.Inv; decide +kernel

theorem witness_RunsTakeCommandsInOrder : ({ up with pending := [.resetnAssert, .vstbyRise], mem := [(5, 7)] } : State).Inv := by unfold State.Inv; decide +kernel

theorem witness_UnlistedLevelReachesNothing :
    doorbellAt ⟨.a, 1⟩ 0x200008 = none ∧ accessRow up ⟨.a, 1⟩ 0x200008 = none ∧ statusWord up ⟨.a, 1⟩ 0x200008 = none
      ∧ doorbellAt pf 0x310800 = none := by decide +kernel

theorem witness_MisalignedAccessIsLogged : ∀ off ∈ [0, 1, 2 ^ 26 - 1], ∀ size ∈ [1, 2, 8],
    setupFn up pf = true ∧ up.inReset.contains .pcie = false ∧ ¬(size = 4 ∧ off % 4 = 0) ∧ onDoorbells pf off = false
      ∧ up.flag (ACCESS_LOG_INFO pf) ACCESS_LOG_INFO_VALID = false ∧ off < 2 ^ 26 := by decide +kernel

/-- RING_BASE of ring 15 of PF0. -/
theorem witness_PairsCommitAndReadWhole : ∃ r r', accessRow up pf 0x3103C0 = some r ∧ accessRow up pf 0x3103C4 = some r' ∧ doorbellAt pf 0x3103C0 = none ∧ doorbellAt pf 0x3103C4 = none
    ∧ rowAbsent up .a r 0x3103C0 = false ∧ rowAbsent up .a r' 0x3103C4 = false ∧ r.pair = 1 ∧ r'.pair = 2 ∧ r.rw ≠ 0 ∧ r'.rw ≠ 0
    ∧ (∀ v, v = 0x12345000 ∨ v = 0 → writeIgnored up pf r 0x3103C0 v = false ∧ writeIgnored up pf r' 0x3103C4 v = false) ∧ carriedBy r' 0x3103C4 = [] ∧ setupAddr pf 0x3103C4 = setupAddr pf 0x3103C0 + 4
    ∧ statusWord up pf 0x3103C0 = none ∧ statusWord up pf 0x3103C4 = none ∧ tfind (stageKey pf (setupAddr pf 0x3103C0)) up.staged = none := by
  refine ⟨_, _, rfl, rfl, ?_⟩
  simp only [forall_eq_or_imp, forall_eq]
  decide +kernel

theorem witness_PlainWriteTakesItsBits : ∃ r, accessRow up pf (addrOff (DRAM_RD_CFG .a)) = some r ∧ doorbellAt pf (addrOff (DRAM_RD_CFG .a)) = none ∧ rowAbsent up .a r (addrOff (DRAM_RD_CFG .a)) = false
    ∧ r.pair = 0 ∧ ownRule r.off = false ∧ writeIgnored up pf r (addrOff (DRAM_RD_CFG .a)) 0x00010001 = false
    ∧ writeShaped up pf r (addrOff (DRAM_RD_CFG .a)) (up.rd (setupAddr pf (addrOff (DRAM_RD_CFG .a)))) 0x00010001 = 0x00010001 := by
  refine ⟨_, rfl, ?_⟩
  decide +kernel

/-- EBRUM_CFG is carried to the PHYs of four bundles. -/
theorem witness_PlainWriteTakesItsBits_carried : ∃ r, accessRow up pf (addrOff (EBRUM_CFG .a)) = some r ∧ doorbellAt pf (addrOff (EBRUM_CFG .a)) = none ∧ r.off = 0x3E00000
    ∧ writeShaped up pf r (addrOff (EBRUM_CFG .a)) (up.rd (setupAddr pf (addrOff (EBRUM_CFG .a)))) 0x14106804 = 0x14106804
    ∧ (∀ n ∈ [0xA2, 0xAA, 0xB2, 0xBA], up.flag (XING_STATUS pf.ep n) XING_STATUS_PEER_RESET = false) := by
  refine ⟨_, rfl, ?_⟩
  decide +kernel

/-- A NOP on an enabled ring begins. -/
theorem witness_DescriptorsDoTheirWork : descRow (.nop (rg 0) 0) = some (opNop, rg 0, 0) ∧ Begins opNop (rg 0) 0 (fresh (withRing 0))
    ∧ RingOk (rg 0) ∧ cqsOk (worked opNop (rg 0) 0 (fresh (withRing 0))).2 (rg 0) ∧ (withRing 0).rdF (RING_CFG (rg 0)) RING_CFG_CQ < 16 := by
  refine ⟨rfl, ?_, ?_⟩
  · unfold Begins Taken; decide +kernel
  · unfold RingOk FunOk cqsOk; decide +kernel

/-- A disabled ring serves nothing; a NOP with a reserved byte fails its check. -/
theorem witness_HeldOrFailedDescriptorsChangeNothingElse : ringServes up (rg 0) = false
    ∧ Taken opNop (rg 0) (2 ^ 500) (fresh (withRing 0)) ∧ checkDesc (some opNop) (rg 0) 0 (2 ^ 500) (fresh (withRing 0)) = some (16, 318)
    ∧ RingOk (rg 0) ∧ cqsOk (withRing 0) (rg 0) ∧ (withRing 0).rdF (RING_CFG (rg 0)) RING_CFG_CQ < 16 := by
  unfold Taken RingOk FunOk cqsOk; decide +kernel

/-! ## Witnesses: rings and doorbells -/

/-- A ring of a type at 0 and its completion ring at 1, with a base and a shadow address. -/
def withBase : State := withRing 0 |> wr (RING_BASE_LO (rg 1)) 0x10000 |> wr (RING_SHADOW_LO (rg 1)) 0x20000

theorem witness_CompletionReachesHostMemory : withBase.Inv ∧ Taken opNop (rg 0) (2 ^ 500) (fresh withBase)
    ∧ checkDesc (some opNop) (rg 0) 0 (2 ^ 500) (fresh withBase) = some (16, 318) ∧ 16 ≠ stOk ∧ 16 ≠ stOkEmpty ∧ dFenceSignal (2 ^ 500) = false ∧ (withBase.ringAux (rg 0)).flights = []
    ∧ ringOn withBase (rg 1) = true ∧ (withBase.ringAux (rg 1)).held = [] ∧ freeEntries withBase (rg 1) ≠ 0
    ∧ withBase.rdF (XLATE_CTRL pf) XLATE_CTRL_S1_EN = 0 ∧ withBase.rdF (XLATE_CTRL pf) XLATE_CTRL_S2_EN = 0 ∧ withBase.split = false ∧ withBase.tlb = []
    ∧ ringBase withBase (rg 1) = 0x10000 ∧ withBase.rd64 (RING_SHADOW_LO (rg 1)) = 0x20000 := by
  unfold Taken State.Inv; decide +kernel

/-- A SETUP ring without a completion ring, a ring of 8 entries, and an audio ring of a part without audio break the table; ring 1 of type 10 does not. -/
theorem witness_RingEnableIsCheckedAndStartsEmpty : ringWriter up pf (rg 1) = true ∧ ringOn up (rg 1) = false
    ∧ RING_CFG_SIZE_LOG2.get 0x00000004 ≠ 0 ∧ ringOn up ⟨pf, 0⟩ = false
    ∧ (RING_CFG_SIZE_LOG2.get 0xA03 < 4 ∧ 16 < RING_CFG_SIZE_LOG2.get 0xA11 ∧ 0xA < RING_CFG_QTYPE.get 0xB04)
    ∧ enableError up (rg 1) 0xA04 = none ∧ enableError up (rg 1) 0xA10 = none
    ∧ unitPresent { up.part with variant := 2 } .a bitAudio = false
    ∧ (wrB (RING_STATUS ⟨pf, 1⟩) RING_STATUS_CQ_FULL true (withRing 0)).flag (RING_STATUS ⟨pf, RING_CFG_CQ.get 0x10304⟩) RING_STATUS_CQ_FULL = true ∧ RING_CFG_QTYPE.get 0x10304 < 9
    ∧ enableError (wrB (RING_STATUS ⟨pf, 1⟩) RING_STATUS_CQ_FULL true (withRing 0)) (rg 2) 0x10304 = none := by decide +kernel

theorem witness_EnabledRingTakesFewWrites : ringWriter (withRing 0) pf (rg 1) = true ∧ ringOn (withRing 0) (rg 1) = true
    ∧ ringType (withRing 0) (rg 1) = 0xA ∧ cqOwed (up |> ringUp 1 10) (rg 1) = false ∧ ringType (up |> ringUp 1 10) (rg 1) = 0xA ∧ ringOn (up |> ringUp 1 10) (rg 1) = true ∧ RING_CFG_SIZE_LOG2.get 0 = 0
    ∧ cqOwed (withRing 0) (rg 1) = true
    ∧ RING_CFG_SIZE_LOG2.get (0x1FA04 : Word) = (withRing 0).rdF (RING_CFG (rg 1)) RING_CFG_SIZE_LOG2 ∧ RING_CFG_QTYPE.get (0x1FA04 : Word) = ringType (withRing 0) (rg 1)
    ∧ RING_CFG_CQ.get (0x1FA04 : Word) = (withRing 0).rdF (RING_CFG (rg 1)) RING_CFG_CQ := by decide +kernel

theorem witness_DoorbellsMoveTheirIndices : (withRing 0).rdF (POWER_STATUS (powerDie (withRing 0) .a)) POWER_STATUS_STATE = 0 ∧ ringOn (withRing 0) (rg 0) = true ∧ flrActive (withRing 0) pf = false
    ∧ ringType (withRing 0) (rg 0) < 9
    ∧ (16 + 2 ^ 32 - ringProd (withRing 0) (rg 0)) % 2 ^ 32 ≤ (ringCons (withRing 0) (rg 0) + ringSize (withRing 0) (rg 0) + 2 ^ 32 - ringProd (withRing 0) (rg 0)) % 2 ^ 32
    ∧ (ringCons (withRing 0) (rg 0) + ringSize (withRing 0) (rg 0) + 2 ^ 32 - ringProd (withRing 0) (rg 0)) % 2 ^ 32 < (17 + 2 ^ 32 - ringProd (withRing 0) (rg 0)) % 2 ^ 32
    ∧ ringOn (withRing 0) (rg 2) = false ∧ 9 ≤ ringType (withRing 0) (rg 1) ∧ ringType (withRing 0) (rg 1) ≠ 9 ∧ frozen (withRing 0) pf = false
    ∧ (∀ s, s = (withRing 0 |> ringUp 2 9 |> wr (RING_PRODUCER (rg 2)) 3) → ∀ v : Word, v = 3 ∨ v = 0 →
      ringType s (rg 2) = 9 ∧ ringOn s (rg 2) = true ∧ (s.fnAux pf).gap = 0 ∧ (v.toNat + 2 ^ 32 - ringCons s (rg 2)) % 2 ^ 32 ≤ (ringProd s (rg 2) + 2 ^ 32 - ringCons s (rg 2)) % 2 ^ 32) := by
  simp only [forall_eq_or_imp, forall_eq]; decide +kernel

def counted : State := setFn pf { up.fnAux pf with unmasked := [3], vectors := [(3, (0xFEE0000000000004, 77))] } (setRing (rg 1) { up.ringAux (rg 1) with intCount := 2 } (withRing 0 |> wr (RING_INT (rg 1)) 0x80000703))

theorem witness_RingMessages : counted.flag (RING_INT (rg 1)) RING_INT_INT_EN = true ∧ (counted.ringAux (rg 1)).intCount ≠ 0
    ∧ (counted.fnAux pf).unmasked.contains (counted.rdF (RING_INT (rg 1)) RING_INT_VECTOR) = true ∧ ringWriter counted pf (rg 1) = true
    ∧ RING_INT_INT_EN.get 0x00000003 = 0 ∧ RING_INT_INT_EN.get 0x80000103 ≠ 0 ∧ RING_INT_BATCH_M1.get (0x80000103 : Word) < (counted.ringAux (rg 1)).intCount
    ∧ bar2Open up pf = true ∧ (63 : Nat) < 64 ∧ (2 : Word).toNat % 2 = 0 ∧ (3 : Word).toNat % 2 = 1 := by decide +kernel

/-- The delay of a counted entry passes: one message leaves. -/
theorem test_message_leaves : (match exec (.intDelayExpiry (rg 1)) counted with | .next t => t.out | _ => []) = [.msix pf 3 0xFEE0000000000004 77] := by decide +kernel

/-- A doorbell one beyond the ring's size sets DB_BAD and leaves the index. -/
theorem test_doorbell_beyond : (match exec (.doorbell (rg 0) 17) (withRing 0) with | .next t => (t.flag (RING_STATUS (rg 0)) RING_STATUS_DB_BAD, ringProd t (rg 0)) | _ => (false, 9)) = (true, 0) := by
  decide +kernel

/-! ## Witnesses: fetch, fences, routes -/

/-- A descriptor that waits in memory at the ring's base, a whole NOP. -/
def withSlot : State := { (withBase |> wr (RING_PRODUCER (rg 0)) 1) with mem := [] }

theorem witness_FetchTakesTheNextSlot : ringServes withBase (rg 0) = true ∧ ringProd withBase (rg 0) = ringCons withBase (rg 0)
    ∧ ringServes withSlot (rg 0) = true ∧ idxDiff (ringProd withSlot (rg 0)) (ringCons withSlot (rg 0)) ≠ 0
    ∧ (match dmaRead .a pf 0 (ringBase withSlot (rg 0)) 64 9 (fresh withSlot) with
        | (.ok bs, s1) => !dChain (descOf bs) && !holdsBack (rg 0) s1 (descOf bs)
        | _ => false) = true
    ∧ (match dmaRead .a pf 0 0xFFFFFFFFFFFF 64 9 (fresh withSlot) with
        | (.ok _, _) => false
        | _ => true) = true := by decide +kernel

def waiting : State := setRing (rg 0) { (withRing 3).ringAux (rg 0) with flights := [oneFlight (withRing 3) (rg 0) 1], wait := some (1, 0x1000, 7, 0, 5) } (withRing 3)

def fenced : State := setRing (rg 0) { (withRing 3).ringAux (rg 0) with flights := [oneFlight (withRing 3) (rg 0) (2 ^ 21)] } (withRing 3)
def signals : State := setRing (rg 0) { (withRing 3).ringAux (rg 0) with flights := [{ oneFlight (withRing 3) (rg 0) (2 ^ 13) with phase := 2 }] } (withRing 3 |> wr (RING_FENCE_LO (rg 0)) 0x3000)

theorem witness_FencesAndWaitsHoldAndEnd : (waiting.ringAux (rg 0)).wait = some (1, 0x1000, 7, 0, 5)
    ∧ (match dmaRead .a pf 0 0x1000 8 9 (fresh waiting) with | (.ok bs, _) => !condHolds 0 (ofLe bs) 7 && condHolds 0 (ofLe bs) 0 | _ => false) = true
    ∧ flrActive fenced pf = false ∧ frozen fenced pf = false ∧ (fenced.ringAux (rg 0)).flights = [oneFlight (withRing 3) (rg 0) (2 ^ 21)]
    ∧ mayBegin (rg 0) (oneFlight (withRing 3) (rg 0) (2 ^ 21)) (fresh fenced) = true ∧ flightStopped (rg 0) (oneFlight (withRing 3) (rg 0) (2 ^ 21)) (fresh fenced) = false
    ∧ ((signals.ringAux (rg 0)).flights.map (fun f => (f.phase, dFenceSignal f.first))) = [(2, true)]
    ∧ (dmaWriteRaw .a pf (signals.rd64 (RING_FENCE_LO (rg 0))) (leBytes 8 ((signals.rd64 (RING_FENCE_COUNT_LO (rg 0)) + 1) % 2 ^ 64))
      (fresh signals |> wr64 (RING_FENCE_COUNT_LO (rg 0)) 1 |> setRing (rg 0) { signals.ringAux (rg 0) with flights := [] })).1 = none := by decide +kernel

theorem witness_CommonOpcodesAct : (withRing 3).Inv ∧ (withRing 3).rdF (XLATE_CTRL pf) XLATE_CTRL_S1_EN = 0 ∧ (withRing 3).rdF (XLATE_CTRL pf) XLATE_CTRL_S2_EN = 0
    ∧ (withRing 3).split = false ∧ (withRing 3).tlb = [] ∧ dget (0xFFFFFFFFFFF8 * 2 ^ 64) 8 0 64 + 8 ≤ 2 ^ 48 ∧ dget (0xFFFFFFFFFFF8 * 2 ^ 64) 8 0 64 % 8 = 0 := by
  unfold State.Inv; decide +kernel

/-- A camera display route whose deletion waits. -/
def leaving (run : Bool) : State :=
  { up with routes := [(5, ⟨5, 1, pf, pf, 5, 0, 0, some ⟨true, 0, 0, none, false⟩⟩)] } |> setHap 0 { up.hap 0 with run := if run then some ⟨⟨0, 0, [], none⟩, 0, 0, [], false, 0, 0, 0, 0⟩ else none }

/-- A route of a kind whose deletion waits, with nothing running at its ends. -/
def kindLeaving (k : Nat) : State := { up with routes := [(5, ⟨k, 1, pf, pf, 5, 0, 0, some ⟨true, 0, 0, none, false⟩⟩)] }

theorem witness_RouteChangeTakesEffectAtItsPoint : ((leaving false).route 5).isSome = true ∧ (((leaving false).route 5).map (fun r => (r.change.isSome, effectNow (leaving false) 5 r))) = some (true, true)
    ∧ (((leaving true).route 5).map (fun r => (r.change.isSome, effectNow (leaving true) 5 r))) = some (true, false)
    ∧ (∀ k ∈ [1, 3, 6, 8], ((kindLeaving k).route 5).map (fun r => (r.kind, r.change.isSome, effectNow (kindLeaving k) 5 r)) = some (k, true, true)) := by decide +kernel

/-- R65: a NOP completes: its DONE follows in order, and its flight is gone. -/
theorem test_nop_completes : (match exec (.nop (rg 0) 0) (withRing 0) with | .next t => ((t.ringAux (rg 0)).flights, ringProd t (rg 1)) | _ => ([], 9)) = ([], 1) := by decide +kernel

/-- R64, R71: a reserved bit that is set fails the reserved check at its byte. -/
theorem test_reserved_refused : checkDesc (some opNop) (rg 0) 0 (2 ^ 500) (fresh (withRing 0)) = some (stInvalidDesc, 62 + 256 * 1) := by decide +kernel

/-! ## Witnesses: fabric -/

def raising : State := { up with pace := [(0, ⟨[⟨1, 0, none, 0, 700⟩], 0, 0, none, 0, 0⟩)] }

theorem witness_WindowMeasuresPace : ([110, 100] : List Nat) ≠ [] ∧ up.inReset.contains .fabric = false ∧ (raising.paceOf .a).raises = ⟨1, 0, none, 0, 700⟩ :: [] := by decide +kernel

/-- The loop is on, and PACE lies below, in, or above its band. -/
def looped (pace : Nat) : State := up |> wrB (PACE_LOOP_CTRL .a) PACE_LOOP_CTRL_LOOP_EN true |> wr (PACE_STATUS .a) (BitVec.ofNat 32 (pace + 1000 * 2 ^ 16))
def sending (n : Nat) : State := { up with pace := [(0, ⟨[], 0, 0, some (800, n), 0, 0⟩)] } |> wrB (PACE_LOOP_CTRL .a) PACE_LOOP_CTRL_EV_AVS_FAULT false |> wrB (AVS_CTRL .a) AVS_CTRL_READBACK_EN true

theorem witness_RegulatorIsCommanded : (looped 999).flag (PACE_LOOP_CTRL .a) PACE_LOOP_CTRL_LOOP_EN = true ∧ (up.paceOf .a).frame = none ∧ (up.paceOf .a).statusTries < 3 ∧ (up.paceOf .a).readTries < 3 ∧ (looped 999).flag (AVS_STATUS .a) AVS_STATUS_AVS_FAULT = false
    ∧ (looped 999).rdF (PACE_STATUS .a) PACE_STATUS_PACE < (looped 999).rdF (PACE_STATUS .a) PACE_STATUS_TARGET_EFF
    ∧ (looped 2000).rdF (PACE_STATUS .a) PACE_STATUS_TARGET_EFF + (looped 2000).rdF (PACE_MARGIN .a) PACE_MARGIN_HYST < (looped 2000).rdF (PACE_STATUS .a) PACE_STATUS_PACE
    ∧ (looped 1000).rdF (PACE_STATUS .a) PACE_STATUS_TARGET_EFF ≤ (looped 1000).rdF (PACE_STATUS .a) PACE_STATUS_PACE
    ∧ (looped 1000).rdF (PACE_STATUS .a) PACE_STATUS_PACE ≤ (looped 1000).rdF (PACE_STATUS .a) PACE_STATUS_TARGET_EFF + (looped 1000).rdF (PACE_MARGIN .a) PACE_MARGIN_HYST
    ∧ (∀ off ∈ [0x200010, 0x200014, 0x200024, 0x200028], (accessRow (wrB (PACE_LOOP_CTRL .a) PACE_LOOP_CTRL_LOOP_EN false up) pf off).isSome = true)
    ∧ (wrB (PACE_LOOP_CTRL .a) PACE_LOOP_CTRL_LOOP_EN false up).flag (PACE_LOOP_CTRL .a) PACE_LOOP_CTRL_LOOP_EN = false
    ∧ ((sending 2).paceOf .a).frame = some (800, 2) ∧ ((sending 3).paceOf .a).frame = some (800, 3) ∧ (sending 3).flag (AVS_STATUS .a) AVS_STATUS_AVS_FAULT = false
    ∧ (sending 3).flag (PACE_LOOP_CTRL .a) PACE_LOOP_CTRL_EV_AVS_FAULT = false ∧ (sending 3).flag (AVS_CTRL .a) AVS_CTRL_READBACK_EN = true := by decide +kernel

/-- An event crossing with an event outstanding and n pulses merged; crossing 3 is an event, crossing 0 carries values. -/
def outstanding (n : Nat) : State := { up with xings := [(3, { up.xing .a 3 with count := n, sent := 1 })] } |> wrB (XING_STATUS .a 3) XING_STATUS_OUTSTANDING true
def carrying : State := { up with xings := [(0, { up.xing .a 0 with queue := [(dieSpace .a + 0x800000, 5)] })] }

/-- The second half of a slew crosses to the time base of die A. -/
def slewed : State := { up with xings := [(0xC5, { up.xing .a 0xC5 with queue := [(slewHi .a, 0)] })] }

theorem witness_CrossingEventsMergeFlagAndAcknowledge : xingPresent up.part .a 3 = true ∧ up.flag (XING_CFG .a 3) XING_CFG_KIND = true
    ∧ xingUp (outstanding 0xFFFF) .a 3 = true ∧ (outstanding 0xFFFF).flag (XING_STATUS .a 3) XING_STATUS_OUTSTANDING = true ∧ ((outstanding 0xFFFF).xing .a 3).stopped = false
    ∧ (outstanding 0xFFFF).flag (XING_CFG .a 3) XING_CFG_KIND = true ∧ (accessRow up pf (0x201000 + 0x10 * 3)).isSome = true
    ∧ xingUp carrying .a 0 = true ∧ carrying.flag (XING_CFG .a 0) XING_CFG_KIND = false ∧ (carrying.xing .a 0).stopped = false
    ∧ (carrying.xing .a 0).queue = (dieSpace .a + 0x800000, 5) :: []
    ∧ xingUp slewed .a 0xC4 = true ∧ slewed.flag (XING_CFG .a 0xC4) XING_CFG_KIND = false ∧ (slewed.xing .a 0xC4).stopped = false
    ∧ xingUp slewed .a 0xC5 = true ∧ slewed.flag (XING_CFG .a 0xC5) XING_CFG_KIND = false ∧ (slewed.xing .a 0xC5).queue = (slewHi .a, 0) :: [] := by decide +kernel

/-- Crossing 3 is stopped with an event sent and two pulses merged behind it. -/
def halted : State := setXing .a 3 { (outstanding 2).xing .a 3 with stopped := true } (outstanding 2)

theorem witness_IslandsHoldOrDropWhatCrosses : xingUp (outstanding 0) .a 3 = true ∧ (outstanding 0).flag (XING_STATUS .a 3) XING_STATUS_OUTSTANDING = true
    ∧ xingPresent (outstanding 0).part .a 3 = true ∧ (outstanding 0).inReset.contains .fabric = false ∧ 3 ∈ islandXings 0 ∧ 0xA0 + 8 * 3 ∈ islandXings 28 ∧ islandOut up .a 0 = true ∧ islandOut up .a 30 = true
    ∧ (halted.xing .a 3).stopped = true ∧ (halted.xing .a 3).sent ≠ 0 ∧ (halted.xing .a 3).count ≠ 0 ∧ halted.flag (XING_CFG .a 3) XING_CFG_KIND = true ∧ towardIsland 3 = false ∧ towardIsland 0x1D = true := by decide +kernel

/-- R42: one pulse with no event outstanding leaves at once. -/
theorem test_pulse_leaves : (match exec (.xingPulse .a 3) up with | .next t => (t.flag (XING_STATUS .a 3) XING_STATUS_OUTSTANDING, t.rdF (XING_COUNT .a 3) XING_COUNT_LAST_COUNT) | _ => (false, 0)) = (true, 1) := by decide +kernel

/-- R26: 700 handshakes in the window are a pace of 68 MT/s. -/
theorem test_pace_rounds_down : (match exec (.paceWindow .a [700, 800]) up with | .next t => t.rdF (PACE_STATUS .a) PACE_STATUS_PACE | _ => 0) = 68 := by decide +kernel

/-! ## Witnesses: tenants, isolation, debug -/

def vf : Fun := ⟨.a, 1⟩
def tenanted (x : Tenant) : State := { up with tenants := [(vf.key, x)] }
def tk0 : Ticket := ⟨rg 0, 1, 7, 0x21, 1⟩

theorem witness_TenantsHoldGrantsAndEnd : dget (1 : Desc) 0 0 6 = 1 ∧ (⟨(rg 0).fn.ep, dget (2 ^ 64 : Desc) 8 0 6⟩ : Fun) = vf ∧ (tenanted ⟨0, none, none⟩).tenant vf = some ⟨0, none, none⟩
    ∧ (tenanted ⟨0, some (some tk0), none⟩).tenant vf = some ⟨0, some (some tk0), none⟩ ∧ grantedRoutes (tenanted ⟨0, some (some tk0), none⟩) vf = []
    ∧ (tenanted ⟨0, none, some tk0⟩).tenant vf = some ⟨0, none, some tk0⟩ ∧ partsFrozen (tenanted ⟨0, none, some tk0⟩) vf = true
    ∧ (⟨.b, dget (31 * 2 ^ 64 : Desc) 8 0 6⟩ : Fun).fn = 31 := by decide +kernel

theorem witness_FunctionLevelReset : flrActive up vf = false ∧ flrActive up ⟨.b, 31⟩ = false ∧ (accessRow up pf (addrOff (FLR_CTRL ⟨.a, 1⟩))).isSome = true ∧ (accessRow up pf (addrOff (FLR_CTRL ⟨.a, 31⟩))).isSome = true
    ∧ FLR_CTRL_FLR.get (fw FLR_CTRL_FLR 1) = 1 ∧ flrActive (wrB (FUNC_STATUS vf) FUNC_STATUS_FLR_ACTIVE true up) vf = true ∧ (up.fnAux vf).flrDestroys = false := by decide +kernel

theorem witness_InvalidationDropsTranslations : (accessRow up pf (addrOff (MMU_INV_CTRL .a))).isSome = true ∧ up.flag (MMU_INV_CTRL .a) MMU_INV_CTRL_BUSY = false ∧ MMU_INV_CTRL_GO.get (fw MMU_INV_CTRL_GO 1) = 1
    ∧ (∀ x ∈ [(⟨vf, 5, 3, 3, false⟩ : MmuInv), ⟨vf, 0, 0, 1, true⟩], tfind Die.a.idx ({ up with invs := [(0, x)] } : State).invs = some x) ∧ 3 % 2 = 1 ∧ 3 / 2 % 2 = 1 := by decide +kernel

/-- PF1 of die A has its configuration. -/
def sec : State := wrB (PF1_ACCESS .a) PF1_ACCESS_LOADED true up
def secureRoute : State := { sec with routes := [(5, ⟨5, 0, pf1 .a, pf1 .a, 0, 0, 0, none⟩)] }

theorem witness_SecureWorldIsGuarded : pf1Accepts up .a 7 none = false ∧ (accessRow sec (pf1 .a) (addrOff (CARVE_SIZE .a))).isSome = true ∧ sec.flag (CARVE_SIZE .a) CARVE_SIZE_LOCK = false
    ∧ (wrB (CARVE_SIZE .a) CARVE_SIZE_LOCK true sec).flag (CARVE_SIZE .a) CARVE_SIZE_LOCK = true ∧ (accessRow sec (pf1 .a) (addrOff (CACHE_S_WAYS .a))).isSome = true
    ∧ ((upto 16).filter (nbit (CACHE_S_WAYS_S_MASK.get (fw CACHE_S_WAYS_S_MASK 1)))).length < 2 ∧ 2 ≤ ((upto 16).filter (nbit (CACHE_S_WAYS_S_MASK.get (fw CACHE_S_WAYS_S_MASK 3)))).length
    ∧ (∃ x ∈ secureRoute.routes, x.2.cls = 0 ∧ handleDie x.1 = .a) ∧ up.routes = [] := by decide +kernel

def challenged : State := wrB (DEBUG_STATUS .a) DEBUG_STATUS_CHALLENGE_OPEN true up

theorem witness_DebugNeedsACertificate : up.flag (DEBUG_STATUS .a) DEBUG_STATUS_CHALLENGE_OPEN = false ∧ challenged.flag (DEBUG_STATUS .a) DEBUG_STATUS_CHALLENGE_OPEN = true
    ∧ (∀ i ∈ [1, 2, 3], nbit (challenged.rdF (DEBUG_STATUS .a) DEBUG_STATUS_FUSED_OFF) i = false) ∧ challenged.rdF (DEBUG_STATUS .a) DEBUG_STATUS_ENABLED = 0 ∧ challenged.part.integratorKey = 0
    ∧ (⟨8, 0, none, true⟩ : DebugCert).switches = 2 ^ 3 := by decide +kernel

/-- R119: a certificate with a bad signature enables nothing. -/
theorem test_bad_signature : (match exec (.debugCertificate .a ⟨2, 0, none, false⟩) challenged with | .next t => t.rdF (DEBUG_STATUS .a) DEBUG_STATUS_ENABLED | _ => 9) = 0 := by decide +kernel

/-- R100: a function-level reset sets FLR_ACTIVE. -/
theorem test_flr_active : (match exec (.pcieFlr vf) up with | .next t => flrActive t vf | _ => false) = true := by decide +kernel

/-! ## Witnesses: heads, ports, layers -/

/-- A descriptor of the values at the byte places. -/
def ds (l : List (Nat × Nat)) : Desc := BitVec.ofNat 512 ((l.map (fun x => x.2 * 2 ^ (8 * x.1))).sum)

/-- Head 0 in a phase, 64 × 32 pixels in 80 × 40. -/
def headAt (p : Nat) : State :=
  { up with island := [(TIMING_HA .a 0, 0x00400010), (TIMING_HA .a 0 + 4, 0x00100010), (TIMING_HA .a 0 + 8, 0x00200002), (TIMING_HA .a 0 + 12, 0x00020004)] } |> setHead 0 { Head.empty with phase := p, ha := 0x00400010, hb := 0x00100010, va := 0x00200002, vb := 0x00020004 }
def onHead (s : State) : State := wrB (HEAD_CFG .a 0) HEAD_CFG_ENABLED true s
def through (s : State) : State := wrB (HEAD_CFG .a 0) HEAD_CFG_MODE true s
def pllLost (s : State) : State := wrB (HEAD_STATUS .a 0) HEAD_STATUS_PLL_LOST true s

theorem witness_TimingWrites : (∀ n ∈ [0, 3], ∀ reg ∈ [0, 3], (accessRow up pf (addrOff (TIMING_HA .a n + 4 * reg))).isSome = true ∧ up.flag (HEAD_CFG .a n) HEAD_CFG_ENABLED = false)
    ∧ (accessRow (onHead up) pf (addrOff (TIMING_HA .a 0))).isSome = true ∧ (onHead up).flag (HEAD_CFG .a 0) HEAD_CFG_ENABLED = true ∧ (0x00400000 : Word).toNat % 2 ^ 16 = 0 ∧ (0x00000040 : Word).toNat / 2 ^ 16 = 0
    ∧ (accessRow up pf (addrOff (HEAD_PCLK .a 3))).isSome = true ∧ (accessRow (onHead up) pf (addrOff (HEAD_PCLK .a 0))).isSome = true
    ∧ up.flag (XING_STATUS .a 1) XING_STATUS_PEER_RESET = false := by decide +kernel

theorem witness_HeadsStartAndStop : headDie 0 = (rg 0).fn.ep ∧ dget (ds [(8, 0)]) 8 0 8 = 0 ∧ ((headAt 3).head 0).phase = 3 ∧ ((headAt 4).head 0).phase = 4
    ∧ (headAt 4).flag (HEAD_STATUS .a 0) HEAD_STATUS_PLL_LOST = false ∧ (headAt 4).inReset.contains .heads = false ∧ islandOut (headAt 4) .a 0 = true ∧ headDie 7 = .b := by decide +kernel

theorem witness_LineStartMovesTheGrid : (up.head 7).phase < 2 ∧ (pllLost (headAt 3)).flag (HEAD_STATUS (headDie 0) (headNo 0)) HEAD_STATUS_PLL_LOST = true
    ∧ (∀ p ∈ [2, 3], ((headAt p).head 0).phase = p ∧ (headAt p).flag (HEAD_STATUS (headDie 0) (headNo 0)) HEAD_STATUS_PLL_LOST = false ∧ (headAt p).inReset.contains .heads = false
      ∧ islandOut (headAt p) (headDie 0) (headNo 0) = true ∧ (headAt p).split = false ∧ powerState (headAt p) (headDie 0) = 0) := by decide +kernel

/-- Layer 15 of head 0 has a route, and shows a buffer of 64 × 32 pixels. -/
def layered (s : State) : State :=
  { s with routes := [(5, ⟨1, 1, pf, pf, 0, BitVec.ofNat 64 (15 * 2 ^ 16), BitVec.ofNat 128 (63 * 2 ^ 32 + 31 * 2 ^ 48), none⟩)] }
    |> setLayer 0 15 { Layer.empty with route := 5, cur := some ⟨tk0, ds [(32, 64), (34, 32), (40, 64), (42, 32), (46, 4), (47, 255)]⟩ }
def releasing : State := setHead 0 { (headAt 3).head 0 with releases := [⟨15, tk0, 7, 0⟩] } (headAt 3)

theorem witness_CommitsLandAndRelease : ((layered (headAt 3)).route (dRoute (ds [(4, 5)]))).isSome = true ∧ (((layered (headAt 3)).route (dRoute (ds [(4, 5)]))).map (fun r => (epUnit r.sink, epSub r.sink))) = some (0, 15)
    ∧ (((layered (headAt 3)).head 0).layer 15).pend = none ∧ (((layered (headAt 3)).head 0).layer 15).pendColour = none ∧ dget (ds [(4, 5), (9, 1)]) 9 0 2 ≠ 2
    ∧ (releasing.head 0).releases.find? (fun x => x.layer == 15) = some ⟨15, tk0, 7, 0⟩ := by decide +kernel

def vblankOf (s : State) : State := wrF (HEAD_STATUS .a 0) HEAD_STATUS_LINE 32 s
def passAt (j : Nat) : State := setHead 0 { (headAt 3).head 0 with pass := some (j, 1) } (headAt 3)

theorem witness_ComposePass : ((vblankOf (headAt 3)).head 0).phase = 3 ∧ headThrough (vblankOf (headAt 3)) 0 = false ∧ ((vblankOf (headAt 3)).head 0).mode = none ∧ ((vblankOf (headAt 3)).head 0).pass = none
    ∧ (vblankOf (headAt 3)).rdF (HEAD_STATUS (headDie 0) (headNo 0)) HEAD_STATUS_LINE = ((vblankOf (headAt 3)).head 0).vactive ∧ anyPending (vblankOf (headAt 3)) 0 = false
    ∧ (setHead 0 { (vblankOf (headAt 3)).head 0 with recompose := true } (vblankOf (headAt 3))).rdF (HEAD_STATUS .a 0) HEAD_STATUS_LINE = 32
    ∧ ((passAt 31).head 0).pass = some (31, 1) ∧ 31 < ((passAt 31).head 0).vactive ∧ nbit ((passAt 31).rd (BLOCK_QUIESCE (headDie 0))).toNat bitComposer = false
    ∧ ((passAt 32).head 0).pass = some (32, 1) ∧ ((passAt 32).head 0).vactive ≤ 32 := by decide +kernel

theorem witness_DisplayFaultsAreReported : ((layered (through (headAt 3))).head 0).phase = 3 ∧ headThrough (layered (through (headAt 3))) 0 = true ∧ 30 + 1 < ((layered (through (headAt 3))).head 0).vactive
    ∧ visible (layered (through (headAt 3))) 0 15 30 ≠ [] ∧ 2 ≤ ((headAt 3).head 0).phase ∧ (pllLost (headAt 3)).flag (HEAD_STATUS (headDie 0) (headNo 0)) HEAD_STATUS_PLL_LOST = true
    ∧ up.rdF (FT_SCRUB .a) FT_SCRUB_PERIOD_S ≠ 0 ∧ up.inReset.contains .frameTier = false := by decide +kernel

/-- Port 0 trains; head 0 sends its genlock to head 1. -/
def training : State := setPort 0 { Port.empty with train := true } (up |> wrF (PORT_CFG .a 0) PORT_CFG_RATE 1 |> wrF (PORT_CFG .a 0) PORT_CFG_LANES 4 |> wrF (PORT_CFG .a 0) PORT_CFG_BPC 8)
def auxing : State := setPort 0 { Port.empty with aux := [(tk0, ds [(9, 1)])], dsi := [(tk0, ds [(48, 0x1000)])] } up
def locking (free : Bool) (n : Nat) : State :=
  wrB (GENLOCK_STATUS .a 0) GENLOCK_STATUS_FREE_RUN free (setHead 0 { (headAt 3).head 0 with genlock := GENLOCK_CTRL_SRC.put 1 0, rangeRun := n } (headAt 3))

theorem witness_PortsTrainTalkAndGenlock : (training.port 0).train = true ∧ rateKbps (training.rdF (PORT_CFG .a 0) PORT_CFG_RATE) ≠ 0 ∧ training.rdF (PORT_CFG .a 0) PORT_CFG_LANES = 4
    ∧ bandwidthOk (training.rdF (PORT_CFG .a 0) PORT_CFG_PROTO) (training.rdF (PORT_CFG .a 0) PORT_CFG_RATE) 4 (training.rdF (PORT_CFG .a 0) PORT_CFG_BPC) 0 (portKhz training .a 0) = true
    ∧ up.inReset.contains .heads = false ∧ up.flag (PORT_STATUS .a 0) PORT_STATUS_LINK_UP = false ∧ (5 : Nat) % 4 < 2
    ∧ (auxing.port 0).aux = (tk0, ds [(9, 1)]) :: [] ∧ dget (ds [(9, 1)]) 9 0 1 = 1 ∧ (auxing.port 0).dsi = (tk0, ds [(48, 0x1000)]) :: []
    ∧ (match dmaWrite .a tk0.fn 0 (dget (ds [(48, 0x1000)]) 48 0 64) [1, 2] (fresh auxing) with | (none, _) => true | _ => false) = true
    ∧ ((locking false 0).head 0).phase = 3 ∧ gSrc ((locking false 0).head 0).genlock ≠ 0 ∧ genLoop (locking false 0) 0 8 0 = false
    ∧ (locking false 0).flag (GENLOCK_STATUS .a 0) GENLOCK_STATUS_FREE_RUN = false ∧ (locking true 2).flag (GENLOCK_STATUS .a 0) GENLOCK_STATUS_FREE_RUN = true
    ∧ ((locking true 2).head 0).rangeRun < 3 ∧ 3 ≤ ((locking true 3).head 0).rangeRun := by decide +kernel

/-- R144: line 31 is the last active line: the next begins vertical blanking. -/
theorem test_vblank_begins : (match exec (.lineStart 0 ⟨none, 0, [], [], [], [], []⟩) (wrF (HEAD_STATUS .a 0) HEAD_STATUS_LINE 31 (headAt 3)) with
    | .next t => (t.rdF (HEAD_STATUS .a 0) HEAD_STATUS_LINE, t.flag (HEAD_STATUS .a 0) HEAD_STATUS_IN_VBLANK) | _ => (0, false)) = (32, true) := by decide +kernel

/-- R131: a write with a zero field on an enabled head is an error. -/
theorem test_timing_error : (match exec (.timingWrite pf 0 0 0x00400000) (onHead up) with | .next t => t.flag (HEAD_STATUS .a 0) HEAD_STATUS_TIMING_ERR | _ => false) = true := by decide +kernel

/-! ## Witnesses: Garnet, cameras -/

/-- The Garnet link of die A receives; window 0 and slot 0 exist. -/
def linked : State :=
  setGarnet .a { Garnet.empty with slots := [(0, ⟨0, 0, 0, 32, 32, [], []⟩)], windows := [(0, ⟨1, false, true, 0, 0, 0, 64, 64, 1, true, [], none, [], none, 0, none⟩)] }
    (up |> wrB (GARNET_LINK_CFG .a) GARNET_LINK_CFG_EN true |> wrB (GARNET_LINK_STATUS .a) GARNET_LINK_STATUS_RESYNC_WAIT false)

theorem witness_GarnetRecordsAreAccepted : linkOn linked .a = true ∧ linked.flag (GARNET_LINK_STATUS .a) GARNET_LINK_STATUS_RESYNC_WAIT = false ∧ queuedFrames (linked.garnet .a) < 4
    ∧ (([Instr.bar .a 0 1000 0 3, .rect .a 0 0 0 32 32 5, .line .a 0 0 0 31 31 2 1, .clear .a 0, .clearAll .a 0xFF, .garnetNop .a 0, .ackFault .a 0, .report .a 0 0 3]).all (fun c =>
      match recordRow c with
      | some (d, op, slot, args) => decide (slot < 256) && slotOk (linked.garnet d) op slot && argLen op args == some args.length && argsOk d op (atlasEntries linked d) args
      | none => false)) = true := by decide +kernel

/-- An atlas of 16 entries. -/
def atlased : State := setGarnet .a { linked.garnet .a with atlas := some (List.replicate 6 0 ++ leBytes 2 16 ++ List.replicate 300 0) } linked

theorem witness_GarnetRecordsAreAccepted_atlas : ([Instr.icon .a 0 15 1, .number .a 0 (-7) 3 1 4 5 1, .text .a 0 2 [0, 15]]).all (fun c =>
      match recordRow c with
      | some (d, op, slot, args) => decide (slot < 256) && slotOk (atlased.garnet d) op slot && argLen op args == some args.length && argsOk d op (atlasEntries atlased d) args
      | none => false) = true := by decide +kernel

def inFrame : State := setGarnet .a { linked.garnet .a with inFrame := true } linked
def emptyFrame : List Byte := [0xA5, 1, 1, 0, 0, 0, 0, 0] ++ leBytes 4 (crc32c [0xA5, 1, 1, 0, 0, 0, 0, 0])

theorem witness_GarnetLinkGuardsItself : linkOn inFrame .a = true ∧ inFrame.rdF (POWER_STATUS (powerDie inFrame .a)) POWER_STATUS_STATE = 0 ∧ (inFrame.garnet .a).inFrame = true
    ∧ ([0xA5] : List Byte).length < 12 + le16 [0xA5] 4 ∧ 12 + le16 emptyFrame 4 ≤ emptyFrame.length ∧ le32 emptyFrame (8 + le16 emptyFrame 4) = crc32c (emptyFrame.take (8 + le16 emptyFrame 4))
    ∧ byteAt emptyFrame 0 = 0xA5 ∧ byteAt emptyFrame 1 = 1 ∧ le16 emptyFrame 4 ≤ 1024 ∧ le16 emptyFrame 4 % 4 = 0 ∧ byteAt emptyFrame 6 ≤ 1 ∧ byteAt emptyFrame 7 = 0
    ∧ linked.flag (GARNET_LINK_STATUS .a) GARNET_LINK_STATUS_LINK_STALE = false ∧ (wrB (GARNET_LINK_CFG .a) GARNET_LINK_CFG_STALE_BLANK true linked).flag (GARNET_LINK_CFG .a) GARNET_LINK_CFG_STALE_BLANK = true
    ∧ (wrB (GARNET_LINK_CFG .a) GARNET_LINK_CFG_STALE_BLANK false linked).flag (GARNET_LINK_CFG .a) GARNET_LINK_CFG_STALE_BLANK = false
    ∧ linked.rdF (GARNET_LINK_STATUS .a) GARNET_LINK_STATUS_LAST_SEQ = 0 ∧ (2 : Nat) ≠ (0 + 1) % 2 ^ 16
    ∧ (accessRow (wrB (PF1_ACCESS .a) PF1_ACCESS_LOADED true linked) (pf1 .a) (addrOff (GARNET_LINK_CFG .a))).isSome = true ∧ (accessRow sec (pf1 .a) (addrOff (GARNET_LINK_CFG .a))).isSome = true ∧ up.flag (GARNET_LINK_CFG .a) GARNET_LINK_CFG_EN = false := by decide +kernel

def change : GJob := ⟨1, true, 1, [linkRecord 5 0 (leBytes 2 0 ++ leBytes 2 0 ++ leBytes 2 32 ++ leBytes 2 32 ++ leBytes 1 5 ++ leBytes 3 0)], [], none⟩
def toRender : State := setGarnet .a { linked.garnet .a with queue := [change] } linked
def rendering : State := setGarnet .a { linked.garnet .a with rendering := some (change, [0]) } linked

theorem witness_RendererAndGarnetScan : (toRender.garnet .a).rendering = none ∧ (toRender.garnet .a).queue = change :: [] ∧ (toRender.boot .a).halted = false ∧ change.palette = none
    ∧ (∀ w ∈ touched (toRender.garnet .a).slots change.recs ++ change.wins, (tfind w (toRender.garnet .a).windows).all (fun x => x.back == none) = true)
    ∧ (rendering.garnet .a).rendering = some (change, [0]) ∧ (rendering.boot .a).halted = false ∧ (tfind 0 (rendering.garnet .a).windows).isSome = true
    ∧ 3 ≤ ((headAt 3).head 0).phase ∧ (headAt 3).flag (GSCAN_STATUS .a 0) GSCAN_STATUS_ACTIVE = false ∧ nbit (causeBits (headAt 3) .a) 12 = false
    ∧ (wrB (GARNET_LINK_CFG .a) GARNET_LINK_CFG_TAKEOVER_FAULT true (headAt 3)).flag (GARNET_LINK_CFG .a) GARNET_LINK_CFG_TAKEOVER_FAULT = true := by decide +kernel

/-- Port 0 is enabled and ready, and a form B route of 8 × 4 pixels takes its stream 1; with a capture route where `cap`. -/
def cameraOn (cap : Bool) : State :=
  { up with routes := (5, ⟨2, 1, pf, pf, BitVec.ofNat 64 (0x10 + 0 * 2 ^ 8 + 1 * 2 ^ 16), BitVec.ofNat 64 (if cap then 0x12 else 0x01), BitVec.ofNat 128 (0x24 + 8 * 2 ^ 16 + 4 * 2 ^ 32), none⟩) :: [] }
    |> wrB (CAM_PORT_CFG .a 0) CAM_PORT_CFG_EN true |> wrB (CAM_PORT_STATUS .a 0) CAM_PORT_STATUS_READY true |> wrB (CAM_PORT_CFG .a 0) CAM_PORT_CFG_EV_FRAME false |> wrB (STREAM_STATUS .a 0 1) STREAM_STATUS_LOST false
def inStream (s : State) : State := setStream 0 1 { Stream.empty with lines := 3 } (wrB (STREAM_STATUS .a 0 1) STREAM_STATUS_IN_FRAME true s)
def starting : State := setPermit .a { up.permit .a with granted := [(3, 0)] } (setCamPort 0 ⟨some tk0, true, 0⟩ up)
def capturing : State := setCapture 5 { Capture.empty with filling := some (tk0, ds [(8, 0)]) } (inStream (cameraOn true))

theorem witness_CameraFramesAreReceived : (starting.camPort 0).ticket = some tk0 ∧ (starting.camPort 0).started = true ∧ hasLeave starting (camDie 0) 3 (camNo 0) = true
    ∧ (∀ s, s = cameraOn false → camReceives s 0 = true ∧ streamRoutes s 0 1 ≠ [] ∧ s.flag (STREAM_STATUS .a 0 1) STREAM_STATUS_IN_FRAME = false
      ∧ (streamChanges 0 1 (fresh s)).flag (STREAM_STATUS .a 0 1) STREAM_STATUS_LOST = false ∧ (streamChanges 0 1 (fresh s)).flag (CAM_PORT_CFG .a 0) CAM_PORT_CFG_EV_FRAME = false
      ∧ captureRoute (streamChanges 0 1 (fresh s)) 0 1 = none ∧ streamRoutes s 0 0 = [] ∧ (streamRoutes s 0 1).map (fun x => (rDt x.2, rWidth x.2, rHeight x.2)) = [(0x24, 8, 4)])
    ∧ (∀ s, s = inStream (cameraOn false) → s.flag (STREAM_STATUS .a 0 1) STREAM_STATUS_IN_FRAME = true ∧ (s.stream 0 1).lost = 0 ∧ (s.stream 0 1).lines < 4 ∧ captureRoute s 0 1 = none
      ∧ unitReset s .a (bitCamera 0) = false ∧ islandOut s .a 13 = true ∧ (s.stream 0 1).missing = 0 ∧ (s.stream 0 1).crcErr = 0)
    ∧ (captureRoute capturing 0 1).isSome = true ∧ (capturing.capture 5).filling = some (tk0, ds [(8, 0)]) ∧ (capturing.capture 5).failed = none := by
  simp only [forall_eq]; decide +kernel

theorem witness_CameraLossAndStatus : (cameraOn false).flag (STREAM_STATUS .a 0 1) STREAM_STATUS_LOST = false
    ∧ (wrB (STREAM_STATUS .a 0 1) STREAM_STATUS_LOST true (cameraOn false)).flag (STREAM_STATUS .a 0 1) STREAM_STATUS_LOST = true ∧ (cameraOn false).flag (CAM_PORT_CFG .a 0) CAM_PORT_CFG_EN = true
    ∧ (accessRow up pf (addrOff (CAM_PORT_CLR .a 3))).isSome = true ∧ CAM_PORT_CLR_CLEAR.get 0 = 0 ∧ CAM_PORT_CLR_CLEAR.get (fw CAM_PORT_CLR_CLEAR 1) = 1 := by decide +kernel

/-- R196: a corrupt link frame is counted, and nothing of it is taken. -/
theorem test_bad_crc : (match exec (.glinkFrameEnd .a [0xA5, 1, 1, 0, 0, 0, 0, 0, 1, 2, 3, 4]) inFrame with
    | .next t => (t.rdF (GARNET_LINK_ERR0 .a) GARNET_LINK_ERR0_CRC_FAIL, t.rdF (GARNET_LINK_STATUS .a) GARNET_LINK_STATUS_LAST_SEQ) | _ => (0, 9)) = (1, 0) := by decide +kernel

/-- R209: a heartbeat that fails makes the Garnet scan take the head over. -/
theorem test_takeover : (match exec (.garnetTakeover 0 2 0) (headAt 3) with | .next t => (t.flag (GSCAN_STATUS .a 0) GSCAN_STATUS_ACTIVE, t.rdF (GSCAN_STATUS .a 0) GSCAN_STATUS_CAUSE) | _ => (false, 0)) = (true, 2) := by
  decide +kernel

/-- R223: a packet of a stream without a route is counted as UNROUTED. -/
theorem test_unrouted : (match exec (.camLine 0 0 ⟨0x24, 0, false, [1, 2, 3]⟩) (cameraOn false) with | .next t => t.rdF (CAM_PORT_ERR2 .a 0) CAM_PORT_ERR2_UNROUTED | _ => 0) = 1 := by decide +kernel

/-! ## Witnesses: the GPU -/

/-- A GFX pass whose stream of 64 bytes starts at 0x1000, on cluster 0. -/
def gpuJob (phase kind : Nat) (clusters : List Nat) : Job :=
  ⟨⟨rg 0, 1, 7, 0x10, 1⟩, kind, ds [(16, 0x1000), (24, 64), (40, 32), (42, 32)], phase, false, clusters, 0, 1, none, false, none, 0, []⟩
def withJobs (js : List Job) (s : State) : State := { s with gpus := [(0, ⟨js, [1, 2], [], [], [], 0, 0⟩)] }

/-- A packet of a type, ARG 0, and its shortest length at the head of the stream; an object and a shader of a pipeline behind it. -/
def packetLen (ty : Nat) : Nat := [1, 3, 3, 2, 4, 4, 9, 6, 5, 6, 5, 1].getD ty 0
def streamed (ty : Nat) : State :=
  withJobs [gpuJob 1 0 [0]] { withRing 1 with mem :=
    ((if ty = 0 then [] else [(0x1000, BitVec.ofNat 8 ty)]) ++ [(0x1002, BitVec.ofNat 8 (packetLen ty))] ++ (if ty = 1 then [(0x1005, 0x20)] else []) ++ (if ty = 10 then [(0x100E, 16)] else [])
      ++ [(0x2001, 0x30), (0x3000, 0x42), (0x3001, 0x53), (0x3002, 0x58), (0x3003, 0x51), (0x3004, 1), (0x3008, 64), (0x300C, 1)] : List Host.Cell) }

/-- The parts of PacketAt as a test. -/
def packetAt (d : Die) (ty : Nat) (s : State) : Bool :=
  match (s.gpu d).jobs.find? (fun k => k.kind == 0 && k.phase == 1 && k.clusters != []) with
  | none => false
  | some j =>
    match dmaRead d j.fn j.ticket.ring.ring (streamAddr j + (passOf j).pos) 4 12 s with
    | (.error _, _) => false
    | (.ok h, s1) =>
      match dmaRead d j.fn j.ticket.ring.ring (streamAddr j + (passOf j).pos) (4 * fb h 2 2) 12 s1 with
      | (.error _, _) => false
      | (.ok b, s2) => fb h 0 1 == ty && lenOk ty (fb h 2 2) && decide ((passOf j).pos + 4 * fb h 2 2 ≤ streamLen j) && argOk ty (fb h 1 1) (fb h 2 2) b
          && (ty != 1 || (match bindPipe d j (fb b 4 8) s2 with | (.ok _, _) => true | _ => false))
          && (ty != 10 || (match readRecords d j (fb b 4 8) (fb b 14 2) 16 (fb b 12 2) s2 with | (.ok _, _) => fb b 4 8 % 4 == 0 | _ => false))

/-- A pass with a pipeline without vertex inputs, one with an input whose binding is unset, and its draw. -/
def plainPipe : Pipe := ⟨List.replicate 128 0, 0, 0, none, 16⟩
def piped : Job := { gpuJob 1 0 [0] with pass := some { passOf (gpuJob 1 0 [0]) with pipe := some plainPipe } }
def oneDraw : DrawCall := drawOf false (leBytes 4 3 ++ leBytes 4 1 ++ leBytes 8 0)

theorem witness_DrawPacketsAct : (upto 12).all (fun ty => packetAt .a ty (fresh (streamed ty))) = true
    ∧ (passOf (gpuJob 1 0 [0])).pipe = none ∧ (passOf piped).pipe = some plainPipe ∧ attrsOf (List.replicate 128 0) = []
    ∧ attrsOf (List.replicate 48 0 ++ [0x10] ++ List.replicate 79 0) ≠ [] ∧ tfind 0 (passOf piped).vbs = none
    ∧ oneDraw.count ≠ 0 ∧ oneDraw.inst ≠ 0 ∧ (match (fetchDraw .a piped (List.replicate 128 0) false oneDraw up).1 with | .ok _ => true | _ => false) = true ∧ (tryAll (shaderAccess .a piped) [] up).1 = none
    ∧ ((withJobs [gpuJob 2 0 [0]] up).gpu .a).jobs.find? (fun k => k.kind == 0 && k.phase == 2 && k.clusters != []) = some (gpuJob 2 0 [0]) := by decide +kernel

/-- A job of PF0's other context. -/
def rival : Job := { gpuJob 1 1 [] with ticket := ⟨rg 2, 1, 8, 0x10, 2⟩, desc := ds [(16, 0x1000), (32, 1)] }
def jobbed (j : Job) (js : List Job) : State := { withJobs (j :: js) (withRing 2) with timeA := 10 ^ 9 }

theorem witness_GpuJobsAreScheduled : bestJob up .a (takers up .a) = none
    ∧ (∀ s, s = withJobs [gpuJob 1 0 []] (wr (UNIT_POWERED .a) 0xFFFFFFFF (withRing 1)) → bestJob s .a (takers s .a) = some (gpuJob 1 0 []) ∧ ((upto 8).filter (clusterFree s .a)).find? (clusterOn s .a) ≠ none)
    ∧ (∀ s, s = jobbed (gpuJob 1 1 [0]) [rival] → s.job .a (rg 0) = some (gpuJob 1 1 [0]) ∧ s.rdF (GPU_SCHED_CFG .a) GPU_SCHED_CFG_SLICE_US ≠ 0
      ∧ 1000 * s.rdF (GPU_SCHED_CFG .a) GPU_SCHED_CFG_SLICE_US ≤ s.now .a)
    ∧ (∃ w ∈ ((jobbed (gpuJob 1 1 [0]) [rival]).gpu .a).jobs, mayRun (jobbed (gpuJob 1 1 [0]) [rival]) .a w = true ∧ w.clusters = [] ∧ equalRank (jobbed (gpuJob 1 1 [0]) [rival]) .a w (gpuJob 1 1 [0]) = true)
    ∧ (jobbed { gpuJob 1 1 [0] with asked := some ⟨1, 0, [0]⟩ } []).job .a (rg 0) = some { gpuJob 1 1 [0] with asked := some ⟨1, 0, [0]⟩ }
    ∧ (wrB (RING_CFG (rg 0)) RING_CFG_EVICTABLE true (jobbed (gpuJob 1 1 [0]) [])).flag (RING_CFG (rg 0)) RING_CFG_EVICTABLE = true ∧ ownE (jobbed (gpuJob 1 1 [0]) []) .a (gpuJob 1 1 [0]) < 8
    ∧ (jobbed (gpuJob 1 1 [0]) []).flag (RING_CFG (rg 0)) RING_CFG_EVICTABLE = false
    ∧ (tryAll (shaderAccess .a (gpuJob 1 1 [0])) [] (fresh (jobbed (gpuJob 1 1 [0]) []))).1 = none
    ∧ (gpuJob 1 1 [0]).deadline = false ∧ (tfind 0 ({ ((jobbed (gpuJob 1 1 [0]) []).gpu .a) with owners := [(0, pf)] } : Gpu).owners) = some (gpuJob 1 1 [0]).fn := by
  simp only [forall_eq]; decide +kernel

theorem witness_GpuRegistersAct : clusterJob up .a 7 = none ∧ (wrB (GPU_POWER_CFG .a) GPU_POWER_CFG_KEEP_ON false up).flag (GPU_POWER_CFG .a) GPU_POWER_CFG_KEEP_ON = false ∧ nbit (up.rd (UNIT_KEEP_ON .a)).toNat (bitCluster 7) = false
    ∧ (accessRow up pf (addrOff (GPU_CTX_STORE .a))).isSome = true ∧ up.flag (GPU_CTX_STORE .a) GPU_CTX_STORE_LOCK = false
    ∧ (wrB (GPU_CTX_STORE .a) GPU_CTX_STORE_LOCK true up).flag (GPU_CTX_STORE .a) GPU_CTX_STORE_LOCK = true ∧ GPU_CTX_STORE_LOCK.get 0 = 0
    ∧ (accessRow up pf (addrOff (GPU_PC_CTRL .a))).isSome = true ∧ GPU_PC_CTRL_CLEAR.get (fw GPU_PC_CTRL_CLEAR 1) = 1 ∧ presentClusters up .a ≠ [] := by decide +kernel

/-- R255: a NOP packet moves the binner on by its length. -/
theorem test_packet_nop : (match exec (.drawNop .a) (streamed 0) with | .next t => (t.gpu .a).jobs.map (fun j => (passOf j).pos) | _ => []) = [4] := by decide +kernel

/-- R261: a draw without a pipeline ends the pass with a stream error. -/
theorem test_draw_without_pipe : (match exec (.draw .a ⟨[], []⟩ []) (streamed 8) with | .next t => (t.gpu .a).jobs | _ => [gpuJob 0 0 []]) = [] := by decide +kernel

/-! ## Witnesses: memory, audio, haptics, touch, copy -/

/-- Local memory is ready, with 8 GiB. -/
def memUp : State := up |> wrF (CAP_COMPUTE .a) CAP_COMPUTE_LOCAL_GIB 8 |> wrB (DRAM_STATUS .a) DRAM_STATUS_READY true |> wrB (DRAM_PORT_STATUS .a 12) DRAM_PORT_STATUS_PRESENT true
  |> wrF (DRAM_PORT_CFG .a 12) DRAM_PORT_CFG_CLASS 2
def req12 : MemReq := ⟨12, pf, 0x1000, 64, false, 0, 0, 0, 0, 0, 0, 0, 0, false⟩
def rowOpen : State := setDram .a { memUp.dram .a with openRow := [(bankKey memUp .a 0x1000, rowOf memUp .a 0x1000)] } memUp
def served (s : State) (rs : List MemReq) : Option MemReq :=
  let mine := rs.filter (fun r => channelOf r.addr == channelOf 0x1000 && decide (r.addr < fitted s .a) && decide (r.port < 24) && s.flag (DRAM_PORT_STATUS .a r.port) DRAM_PORT_STATUS_PRESENT)
  bestReq s .a mine (mine.filter (fun r => !held s .a mine r))

theorem witness_MemoryServesRequests : (∀ s ∈ [memUp, rowOpen], channelClosed s .a (channelOf 0x1000) = false ∧ served s [] = none ∧ served s [req12] = some req12)
    ∧ openHit memUp .a [req12] req12 = false ∧ openHit rowOpen .a [req12] req12 = true ∧ (rowOpen.dram .a).cache = [] ∧ 2 ≤ portClass memUp .a 12
    ∧ peakBytes (wrF (DRAM_FSP .a 0) DRAM_FSP_RATE_MTS 6400 memUp) .a ≠ 0 := by decide +kernel

/-- An ECC region of 20 MiB at 0; a training pass at the last step of a type; a set-point change. -/
def eccUp : State := memUp |> wrF (DRAM_ECC_REGION_SIZE .a 0) DRAM_ECC_REGION_SIZE_SIZE_2M 10
def trainAt (t : Training) : State := setDram .a { memUp.dram .a with training := some t } memUp
def gathering (s : State) : State := wrF (DRAM_STATUS .a) DRAM_STATUS_GATHERING 1 s

theorem witness_MemoryIsMaintained : (pf0 .a).fn ≤ 63 ∧ ({ eccUp with poison := [localKey 0x1000] } : State).poison.contains (localKey (2 ^ 35 * Die.a.idx + 0x1000 / 4 * 4)) = true
    ∧ inEccData eccUp .a (0x1000 / 4 * 4) = true ∧ eccUp.poison.contains (localKey (2 ^ 35 * Die.a.idx + 0x1000 / 4 * 4)) = false ∧ inCarve eccUp .a (0x1000 / 4 * 4) = false
    ∧ (wrF (DRAM_SCRUB .a) DRAM_SCRUB_PERIOD_H 24 memUp).rdF (DRAM_SCRUB .a) DRAM_SCRUB_PERIOD_H ≠ 0 ∧ memUp.flag (DRAM_STATUS .a) DRAM_STATUS_SELF_REFRESH = false ∧ memUp.flag (DRAM_STATUS .a) DRAM_STATUS_READY = true
    ∧ (wrB (DRAM_TRAIN_CFG .a) DRAM_TRAIN_CFG_PERIODIC_EN true memUp).flag (DRAM_TRAIN_CFG .a) DRAM_TRAIN_CFG_PERIODIC_EN = true ∧ (memUp.dram .a).training = none
    ∧ ((trainAt ⟨7, 1, 0, false⟩).dram .a).training = some ⟨7, 1, 0, false⟩ ∧ (trainAt ⟨7, 1, 0, false⟩).rdF (DRAM_STATUS .a) DRAM_STATUS_GATHERING = 0 ∧ (trainAt ⟨7, 1, 0, false⟩).flag (DRAM_STATUS .a) DRAM_STATUS_FSP_BUSY = false
    ∧ (gathering (trainAt ⟨7, 1, 0, true⟩)).rdF (DRAM_STATUS .a) DRAM_STATUS_GATHERING ≠ 0 ∧ 0 + 1 < trainSteps 1 ∧ trainSteps 1 ≤ (trainSteps 1 - 1) + 1
    ∧ memUp.inReset.contains .memory = false ∧ (32 * 2 + 4 * 7 + 3) / 4 % 8 = 7
    ∧ (accessRow memUp pf (addrOff (DRAM_FSP_CTRL .a))).isSome = true ∧ DRAM_FSP_CTRL_GO.get (DRAM_FSP_CTRL_GO.put 1 (fw DRAM_FSP_CTRL_TARGET 2)) = 1
    ∧ (wrB (DRAM_STATUS .a) DRAM_STATUS_FSP_BUSY true memUp).flag (DRAM_STATUS .a) DRAM_STATUS_FSP_BUSY = true ∧ memUp.flag (DRAM_STATUS .a) DRAM_STATUS_FSP_BUSY = false
    ∧ DRAM_FSP_CTRL_TARGET.get (DRAM_FSP_CTRL_GO.put 1 (fw DRAM_FSP_CTRL_TARGET 2)) = 2 ∧ memUp.rdF (DRAM_STATUS .a) DRAM_STATUS_FSP_CUR ≠ 2
    ∧ (∀ ch ∈ upto 8, dqTest memUp .a ch = false) ∧ ((setDram .a { memUp.dram .a with target := some 3 } memUp).dram .a).target = some 3 := by decide +kernel

/-- The audio engine is powered; slave port 3 has its clock, or has lost it. -/
def audible : State := up |> setPowered .a bitAudio true
def slave (clocked : Bool) : State := audible |> wrB (AUDIO_TDM_CFG .a 3) AUDIO_TDM_CFG_EN true |> wrB (AUDIO_TDM_STATUS .a 3) AUDIO_TDM_STATUS_CLOCKED clocked

theorem witness_AudioEngineTicks : unitPresent audible.part .a bitAudio = true ∧ unitsStopped audible [unitKey .a bitAudio] = false ∧ audible.inReset.contains .audio = false ∧ islandOut audible .a 17 = true
    ∧ audible.rdF (POWER_STATUS .a) POWER_STATUS_STATE < 2
    ∧ ({ audible with audio := { audible.audio with nextGains := [(3, true, -600)], nextTones := [(1, 1, -60, 440)] } } : State).audio.nextGains = [(3, true, -600)]
    ∧ (∀ b ∈ [true, false], (slave b).flag (AUDIO_TDM_CFG .a 3) AUDIO_TDM_CFG_EN = true ∧ (slave b).flag (AUDIO_TDM_CFG .a 3) AUDIO_TDM_CFG_MASTER = false ∧ (slave b).flag (AUDIO_TDM_STATUS .a 3) AUDIO_TDM_STATUS_CLOCKED = b)
    ∧ ({ slave false with audio := { (slave false).audio with lost := [3] } } : State).audio.lost.contains 3 = true := by decide +kernel

/-- Channel 0 is on, with POLICY 1; an effect of two segments, and the run of it. -/
def hapUp : State := up |> setPowered .a (bitHaptic 0) true |> wrB (HAP_CFG .a 0) HAP_CFG_EN true |> wrB (HAP_CFG .a 0) HAP_CFG_POLICY true
def buzz : HapStart := ⟨1, 256, [⟨1, 4080, 4080, 0, 10000⟩, ⟨3, 0, 0, 0, 50000⟩], none⟩
def buzzing (b : Bool) : HapRun := ⟨buzz, 0, 0, [], b, 0, 0, 0, 0⟩
def withRun (b : Bool) : State := setHap 0 { hapUp.hap 0 with run := some (buzzing b) } hapUp
/-- Pin 1 of die A triggers slot 2 of channel 0 on both edges, and the slot is armed. -/
def trigRoute : Route := ⟨6, 0, pf, pf, BitVec.ofNat 64 (1 * 2 ^ 16), BitVec.ofNat 64 (2 * 2 ^ 16), BitVec.ofNat 128 (2 * 2 ^ 16), none⟩
def edged : State := { hapUp with routes := [(3, trigRoute), (4, ⟨5, 0, pf, pf, 0, 0, 0, none⟩)] } |> setHap 0 { hapUp.hap 0 with arms := [(2, ⟨3, true, buzz⟩)] }

theorem witness_HapticEffectsRun : hapChange hapUp 0 = false ∧ (hapUp.hap 0).blockTlim = false ∧ (hapUp.hap 0).blockDuty = false ∧ (hapUp.hap 0).run = none
    ∧ ((withRun true).hap 0).run = some (buzzing true) ∧ (withRun true).flag (HAP_CFG (hapDie 0) (hapNo 0)) HAP_CFG_POLICY = true ∧ ((withRun true).hap 0).queued = none
    ∧ ((withRun false).hap 0).run = some (buzzing false) ∧ hapChange (withRun true) 0 = false
    ∧ hapOn hapUp 0 = true ∧ unitReset hapUp (hapDie 0) (bitHaptic (hapNo 0)) = false ∧ islandOut hapUp (hapDie 0) (21 + hapNo 0) = true ∧ hapUp.rdF (POWER_STATUS (hapDie 0)) POWER_STATUS_STATE < 2
    ∧ (hapUp.hap 0).ticket = none ∧ hapUp.rdF (HAP_CFG (hapDie 0) (hapNo 0)) HAP_CFG_SENSE = 0 ∧ (hapUp.hap 0).plays = [] ∧ (hapUp.hap 0).stopping = none
    ∧ (advance { buzzing false with us := 125, driveUs := 125 } (2 * 256 + 1)).isSome = true
    ∧ nbit (edged.rdF (HTRIG_STATUS .a) HTRIG_STATUS_LEVEL) 1 = false ∧ (routesOf hapUp 6).find? (fun x => epUnit x.2.source == Die.a.idx && epSub x.2.source == 1) = none
    ∧ (routesOf edged 6).find? (fun x => epUnit x.2.source == Die.a.idx && epSub x.2.source == 1) = some (3, trigRoute) ∧ pget trigRoute 34 0 2 = 2
    ∧ tfind (epSub trigRoute.sink) (edged.hap (epUnit trigRoute.sink)).arms = some ⟨3, true, buzz⟩ ∧ (hapRoute edged (epUnit trigRoute.sink)).isSome = true
    ∧ frozen (setHap 0 (edged.hap 0) edged) trigRoute.grantee = false ∧ flrActive edged trigRoute.grantee = false ∧ pget trigRoute 34 2 1 = 0 ∧ hapReady edged (epUnit trigRoute.sink) = true := by decide +kernel

/-- Touch scans; or is in PEARL with a low-power scan; port 3 reads. -/
def touchy : State := setTouch .a { up.touch .a with enabled := true } (up |> setPowered .a bitTouch true |> wrB (TOUCH_STATUS .a) TOUCH_STATUS_EN true)
def lowScan (base : Option Nat) : State := setTouch .a { up.touch .a with enabled := true, lpBase := base, setup := ds [(29, 1), (30, 100)] }
  (up |> wrF (POWER_STATUS .a) POWER_STATUS_STATE 2 |> wrB (TOUCH_STATUS .a) TOUCH_STATUS_LP_ACTIVE true)
def selfTest : State := setTouch .a { touchy.touch .a with test := some (tk0, ds [(10, 500), (16, 0x4000)]) } touchy
def i2c (x : TshPort) : State := setTsh 3 x (up |> wrB (TSH_STATUS (tshDie 3) (tshNo 3)) TSH_STATUS_EN true)

theorem witness_TouchIsScanned : scanning touchy .a = true ∧ touchy.flag (TOUCH_STATUS .a) TOUCH_STATUS_EN = true ∧ hasLeave touchy .a 4 0 = false
    ∧ (∀ b ∈ [none, some (25600 : Nat)], (lowScan b).rdF (POWER_STATUS .a) POWER_STATUS_STATE = 2 ∧ (lowScan b).flag (TOUCH_STATUS .a) TOUCH_STATUS_LP_ACTIVE = true ∧ ((lowScan b).touch .a).lpBase = b
      ∧ ((lowScan b).touch .a).lpDelta = none ∧ dget ((lowScan b).touch .a).setup 30 0 16 = 100 ∧ dget ((lowScan b).touch .a).setup 29 0 8 = 1 ∧ ((lowScan b).touch .a).lpRun = 0)
    ∧ (100 : Int) ≤ sat16 ((200 : Nat) - (25600 : Nat) / 256)
    ∧ (selfTest.touch .a).test = some (tk0, ds [(10, 500), (16, 0x4000)])
    ∧ (match dmaWrite .a tk0.fn tk0.ring.ring (dget (ds [(10, 500), (16, 0x4000)]) 16 0 64) (((upto 96).map (testRecord selfTest .a (fnWorld tk0.fn) 500 [])).flatMap Prod.fst)
        (setTouch .a { selfTest.touch .a with test := none } (fresh selfTest)) with | (none, _) => true | _ => false) = true
    ∧ (i2c TshPort.empty).flag (TSH_STATUS (tshDie 3) (tshNo 3)) TSH_STATUS_EN = true ∧ ((i2c TshPort.empty).tsh 3).reading = false ∧ (i2c TshPort.empty).rdF (POWER_STATUS (tshDie 3)) POWER_STATUS_STATE = 0
    ∧ dget ((i2c ⟨ds [(9, 8)], false, false, 0, 0⟩).tsh 3).setup 9 3 1 = 1
    ∧ ((i2c ⟨0, true, true, 2, 0⟩).tsh 3).reading = true ∧ ((i2c ⟨0, true, true, 2, 0⟩).tsh 3).retry = true ∧ ((i2c ⟨0, true, true, 2, 0⟩).tsh 3).fails = 2
    ∧ (i2c ⟨0, true, true, 2, 0⟩).flag (TSH_STATUS (tshDie 3) (tshNo 3)) TSH_STATUS_LOST = false := by decide +kernel

/-- A plain copy of 5,000 bytes from 0x10000 to 0x20000, at a place; a check over a span, on engine 2. -/
def plainCopy (pos : Nat) : CheckJob := ⟨tk0, ds [(0, 0x10), (8, 0x10000), (16, 0x20000), (24, 5000)], 0, 0, 0, false, pos, none, true⟩
def crcJob : CheckJob := ⟨tk0, ds [(0, 0x20), (8, 0x10000), (24, 5000)], 5, 2, 0, false, 0, some 0, true⟩
def copyUp (x : Checks) : State := setCheck .a x (up |> setPowered .a (bitCrc 2) true)
def copying (pos : Nat) : State := copyUp { Checks.empty with jobs := [plainCopy pos], copying := some tk0.tag }
/-- The premises of a span of a plain copy. -/
def spanOk (j : CheckJob) (s : State) : Bool :=
  match copyRead .a j.ticket.fn j.ticket.ring.ring ((dget j.desc 8 0 64 + j.pos) % 2 ^ 64) (min 4096 (jobLen j - j.pos)) 20 s with
  | (.ok (bs, marks), s1) => !marks.any id && (match copyWrite .a j.ticket.fn j.ticket.ring.ring ((dget j.desc 16 0 64 + j.pos) % 2 ^ 64) bs marks s1 with | (none, _) => true | _ => false)
  | _ => false

theorem witness_EnginesMoveAndCheck : ((copyUp Checks.empty).check .a).copying = none ∧ ((copying 0).check .a).copying = some tk0.tag ∧ ((copying 0).check .a).jobs.find? (fun k => k.ticket.tag == tk0.tag) = some (plainCopy 0)
    ∧ tfind (7 % 4) ((copyUp Checks.empty).check (engineDie 7)).serving = none
    ∧ tfind (2 % 4) ((copyUp { Checks.empty with jobs := [crcJob], serving := [(2, tk0.tag)] }).check (engineDie 2)).serving = some tk0.tag ∧ usesCopy crcJob = false
    ∧ ((copying 0).check .a).serving = [] ∧ unitsStopped (copying 0) [unitKey .a (bitCrc 2)] = false
    ∧ (leastRank (fun j => (if crcBelowShare (copying 0) .a j.ticket.fn then 0 else 2) + b2n (isOpal (copying 0) j.ticket.fn))
        (engineFronts (copyUp { Checks.empty with jobs := [crcJob], copying := some 9 }) .a 2)).isSome = true
    ∧ usesCopy (plainCopy 0) = true ∧ usesCrc (plainCopy 0) = false ∧ spanOk (plainCopy 0) (copying 0) = true ∧ spanOk (plainCopy 4096) (copying 4096) = true
    ∧ jobLen (plainCopy 4096) ≤ 4096 + min 4096 (jobLen (plainCopy 4096) - 4096) ∧ 0 + min 4096 (jobLen (plainCopy 0) - 0) < jobLen (plainCopy 0) ∧ jobOp (plainCopy 0) = 0x10 := by decide +kernel

/-- R397: a copy of eight bytes moves them, and completes. -/
theorem test_copy_moves : (match exec (.copyEngineSwitch .a) { copyUp { Checks.empty with jobs := [{ plainCopy 0 with desc := ds [(0, 0x10), (8, 0x10000), (16, 0x20000), (24, 8)] }], copying := some tk0.tag } with
    mem := [(0x10000, 1), (0x10007, 9)] } with | .next t => t.mem | _ => []) = [(0x10000, 1), (0x10007, 9), (0x20000, 1), (0x20007, 9)] := by decide +kernel

/-! ## Witnesses: power, permits, reset, supervisor -/

def powered (st : Nat) : State := up |> setPowerState .a st |> setPowerState .b st
def stepped (n : Nat) : State := bothDies.foldl (fun t d => setPower d { t.power d with step := n } t) (powered 3)
def leave2 : State := setPermit .a { (stepped 2).permit .a with granted := [(2, 0)] } (stepped 2)
def busyDie : State := { powered 1 with gpus := [(0, ⟨[gpuJob 1 0 [0]], [], [], [], [], 0, 0⟩)] }

theorem witness_PowerStatesChange : powerDie up .b = .a ∧ actedDies up .a = bothDies ∧ powerState up .a ≠ 1 ∧ powerState (powered 1) .a = 1 ∧ (∀ e ∈ bothDies, atRest (powered 1) e = true) ∧ atRest busyDie .a = false
    ∧ powerState (powered 2) .a = 2 ∧ ((setPower .a { (powered 2).power .a with wakes := [5, 0] } (powered 2)).power .a).wakes = 5 :: [0]
    ∧ powerState (stepped 1) .a = 3 ∧ ((stepped 1).power .a).step = 1 ∧ ((stepped 2).power .a).step = 2 ∧ hasLeave leave2 .a 2 0 = true
    ∧ ((setPower .a { leave2.power .a with step := 3 } (useLeave .a 2 0 (fresh leave2))).power .b).step ≠ 3
    ∧ (∀ s, s = setPower .b { leave2.power .b with step := 3 } leave2 → ∀ e ∈ bothDies, ((setPower .a { s.power .a with step := 3 } (useLeave .a 2 0 (fresh s))).power e).step = 3)
    ∧ (∀ s, s = wrF (POWER_CFG .a) POWER_CFG_WAKE_EN 2 (powered 2) → powerState s (powerDie s .b) = 2 ∧ nbit (s.rdF (POWER_CFG .a) POWER_CFG_WAKE_EN) 1 = true ∧ (s.power .a).wakes.contains 1 = false)
    ∧ (∀ s, s = { wr (WAKE_TIMER_LO .a) 100 up with timeA := 200 } → s.rd64 (WAKE_TIMER_LO .a) ≠ 0 ∧ s.rd64 (WAKE_TIMER_LO .a) ≤ s.now .a ∧ powerDie s .a = .a)
    ∧ (9 : Nat) < 10 ∧ powerState (powered 4) .a = 4 ∧ (powered 4).split = false ∧ atRest (powered 4) .a = true ∧ atRest (powered 4) .b = true
    ∧ (∀ s, s = setPower .a { up.power .a with onyx := true, wakeLow := 100 } up → (s.power .a).onyx = true ∧ 100 ≤ (s.power .a).wakeLow) := by
  simp only [forall_eq]; decide +kernel

/-- A haptic start waits; its step of 400 mA on a rail of 1,000 mA. -/
def ask3 : Ask := ⟨3, 0, true, 0, false⟩
def asking (held : List (Nat × Nat)) : State :=
  setPermit .a ⟨[ask3], [ask3], held, [], none⟩ (up |> wrF (PERMIT_KIND .a 3) PERMIT_KIND_STEP_MA 400 |> wrF (PERMIT_RAIL .a (railOf up .a 3)) PERMIT_RAIL_BUDGET_MA 1000
    |> wrB (PERMIT_CFG .a) PERMIT_CFG_EV_AGED false)

theorem witness_PermitsAreArbitrated : grantable (asking []) .a (railOf up .a 3) true [ask3] = some ask3 ∧ ask3.kind ≠ 0 ∧ railOf (asking []) .a ask3.kind < 4
    ∧ ((asking [(3, 400)]).permit .a).held.find? (fun x => x.1 == 3) = some (3, 400)
    ∧ ((asking []).permit .a).waiting.find? (fun x => x.kind == 3 && x.unit == 0 && !x.aged) = some ask3 ∧ (asking []).flag (PERMIT_CFG .a) PERMIT_CFG_EV_AGED = false
    ∧ (up.permit .a).waiting = [] ∧ (accessRow up pf (addrOff (PERMIT_RAIL .a 3))).isSome = true
    ∧ PERMIT_RAIL_BUDGET_MA.get (fw PERMIT_RAIL_RESERVED_MA 1) < PERMIT_RAIL_RESERVED_MA.get (fw PERMIT_RAIL_RESERVED_MA 1)
    ∧ PERMIT_RAIL_RESERVED_MA.get (fw PERMIT_RAIL_BUDGET_MA 1) ≤ PERMIT_RAIL_BUDGET_MA.get (fw PERMIT_RAIL_BUDGET_MA 1) := by decide +kernel

/-- The last step waits; die B has not booted; the ROM's slots. -/
def lastWaits : State := { wrF (SEQ_STATUS .a) SEQ_STATUS_STEP 14 up with inReset := [.touch] }
def unbooted (d : Die) (s : State) : State := setBoot d { s.boot d with running := false } (wr (BOOT_STATUS d) 0 s)
/-- R429: a flash header with both firmware slots and one configuration slot. -/
def flashHeader (fw1 : Nat) : List Byte :=
  let h := leBytes 4 0x51584254 ++ leBytes 2 1 ++ [1, 3] ++ leBytes 4 0x1000 ++ leBytes 4 fw1 ++ leBytes 4 0x2000000 ++ leBytes 4 0
  h ++ leBytes 4 (crc32c h) ++ leBytes 4 0
def goodBoot : BootObs := ⟨true, flashHeader 0x1000000, [⟨false, 9, 8⟩, ⟨true, 3, 2 ^ 23⟩], [(⟨true, 3, 64⟩, ⟨0, false, [], [], [], 0, false, 0, 0, 0⟩)]⟩
def dueUp : State := setBoot .a { (up.boot .a) with due := [17], islandsOut := [16] } up

theorem witness_ResetAndBootAreOrdered : (up.power .a).onyx = false ∧ up.resetnHigh = true ∧ alwaysOnUp up = true
    ∧ releaseOrder[lastStep_ State.reset]? = some .alwaysOn ∧ State.reset.porLow = false ∧ lastStep_ State.reset = 0
    ∧ releaseOrder[lastStep_ lastWaits]? = some .touch ∧ lastWaits.porLow = false ∧ lastWaits.resetnHigh = true
    ∧ (∀ b ∈ [true, false], ∀ s ∈ [wrB (STRAPS .b) STRAPS_FLASH_B b (unbooted .b up)], s.inReset.contains .supervisor = false ∧ (s.boot .b).running = false ∧ s.rdF (BOOT_STATUS .b) BOOT_STATUS_STAGE ≠ 15
      ∧ s.split = false ∧ s.flag (STRAPS .b) STRAPS_FLASH_B = b)
    ∧ (dueUp.boot .a).due.contains 17 = true ∧ islandOut dueUp .a 16 = true ∧ clkFailBit 17 ≠ none
    ∧ (unbooted .a up).inReset.contains .supervisor = false ∧ ((unbooted .a up).boot .a).running = false ∧ (unbooted .a up).rdF (BOOT_STATUS .a) BOOT_STATUS_STAGE ≠ 15
    ∧ ((unbooted .b up).boot .a).running = true ∧ (unbooted .b up).flag (BOOT_STATUS .b) BOOT_STATUS_SPLIT_BOOT = false
    ∧ goodBoot.flashOk = true ∧ headerOk goodBoot = true ∧ headerOk { goodBoot with header := leBytes 4 0x51584255 ++ goodBoot.header.drop 4 } = false ∧ (match pickSlot fwImage up.part.fwMin 0 (bootSlots true goodBoot 12 goodBoot.firmware) with | .ok (i, fw) => i == 1 && fw.version == 3 | _ => false) = true
    ∧ (match pickSlot Prod.fst up.part.cfgMin 0 (bootSlots true goodBoot 20 goodBoot.config) with | .ok (j, _) => j == 0 | _ => false) = true
    ∧ (match pickSlot fwImage up.part.fwMin 0 (bootSlots true { goodBoot with header := flashHeader 0 } 12 goodBoot.firmware) with | .error e => e == 0 | _ => false) = true
    ∧ (∀ s, s = wrF (BOOT_STATUS .a) BOOT_STATUS_STAGE 5 up → (s.boot .a).running = true ∧ s.rdF (BOOT_STATUS .a) BOOT_STATUS_STAGE = 5) ∧ 255 % 256 ≠ 0 ∧ 256 % 256 = 0 := by
  simp only [forall_eq]; decide +kernel

theorem witness_SupervisorAndBlockResets : up.inReset.contains .supervisor = false ∧ up.flag (WDOG_STATUS .a) WDOG_STATUS_EXPIRED = false ∧ up.inReset.contains .pcie = false
    ∧ (accessRow up pf (addrOff (BLOCK_RESET .a))).isSome = true ∧ (27 : Nat) < 28 ∧ nbit 0 27 = false ∧ (upto 28).any (fun b => unitIslands b == []) = true
    ∧ (accessRow up pf (addrOff (BLOCK_QUIESCE .a))).isSome = true
    ∧ nbit ((wr (BLOCK_PENDING .a) 0x08000000 up).rd (BLOCK_PENDING .a)).toNat 27 = true
    ∧ unitQuiet (wr (BLOCK_QUIESCE .a) 0x08000000 up) .a 27 = true ∧ up.inReset.contains .fabric = false
    ∧ alwaysOnUp up = true ∧ supRuns up .a = true ∧ supRuns (setBoot .a { up.boot .a with halted := true } up) .a = false := by decide +kernel

/-- R425: RESETn counts itself, and memory stays. -/
theorem test_resetn_counts : (match exec .resetnAssert { up with mem := [(5, 7)] } with
    | .next t => (t.rdF (RESET_CAUSE .a) RESET_CAUSE_RESETN_COUNT, t.mem, t.resetnHigh) | _ => (0, [], true)) = (1, [(5, 7)], false) := by decide +kernel

/-! ## Witnesses: the link, tests, Rinlar -/

/-- Bundle 3 in a state, with remaps that run or wait. -/
def bundled (st : Nat) (q : List (Die × Nat)) : State := setEbrum .a { up.ebrum .a with remaps := tset 3 q (up.ebrum .a).remaps } (setBundle 3 st up)
def spareless : State := bothDies.foldl (fun t d => wrF (EBRUM_BUNDLE d 3) (spareField .b) 2 t) (bundled 0 [])
def mainLost (d : Die) (since : Nat) (s : State) : State := setEbrum d { s.ebrum d with lost := some since } s
def retraining (m : Nat) : State := setEbrum .a { (bundled 3 []).ebrum .a with retrain := some (tk0, m) } (bundled 3 [])

theorem witness_LanesAndBundlesFollowTheirLink : (3 : Nat) < 4 ∧ bundleState (bundled 0 []) 3 = 0 ∧ (bundled 0 []).rdF (EBRUM_BUNDLE .b 3) (spareField .b) < 2 ∧ 2 ≤ spareless.rdF (EBRUM_BUNDLE .b 3) (spareField .b) ∧ bundleState spareless 3 = 0
    ∧ bundleState (bundled 1 [(.b, 33), (.a, 2)]) 3 = 1 ∧ 1 < bundleState (bundled 2 []) 3 ∧ tget [] 3 (up.ebrum .a).remaps = []
    ∧ tget [] 3 ((bundled 1 [(.b, 33), (.a, 2)]).ebrum .a).remaps = (.b, 33) :: [(.a, 2)] ∧ (∀ e ∈ bothDies, (bundled 1 [(.b, 33), (.a, 2)]).rdF (EBRUM_BUNDLE e 3) (spareField .b) < 2)
    ∧ bundleState (bundled 3 []) 3 = 3 ∧ (retraining 8).ebrums.any (fun e => e.2.retrain == some (tk0, 8) && nbit 8 3) = true
    ∧ (retraining 4).ebrums.all (fun e => match e.2.retrain with | some (_, m) => nbit m 3 == false | none => true) = true
    ∧ (∀ d ∈ bothDies, ((bundled 3 []).ebrum d).lost = none) ∧ ((mainLost .a 5 (bundled 3 [])).ebrum .a).lost = some 5 ∧ ((mainLost .a 5 (bundled 3 [])).ebrum .b).lost = none
    ∧ allDown (setBundle 3 2 up) = false ∧ allDown ((upto 4).foldl (fun t n => setBundle n 2 t) up) = true := by decide +kernel

def linkAt (st : Nat) (s : State) : State := bothDies.foldl (fun t d => wrF (EBRUM_STATUS d) EBRUM_STATUS_STATE st t) s
def quiet : HealthObs := ⟨0, 0, 0, [80, 80, 80, 80]⟩
def rejoins (vb : Nat) (s : State) : State :=
  setBoot .b { s.boot .b with fwVersion := vb } (setEbrum .a { s.ebrum .a with rejoin := some tk0 } (setEbrum .b { s.ebrum .b with rejoin := some ⟨⟨pf0 .b, 0⟩, 1, 7, 0x91, 2⟩ } s))

theorem witness_DiesSplitAndRejoin : up.inReset.contains .ebrum = false ∧ State.reset.inReset.contains .ebrum = true ∧ up.rdF (EBRUM_STATUS .a) EBRUM_STATUS_STATE < 2 ∧ splitCause up .a quiet = none
    ∧ splitCause up .a ⟨1001, 1001, 0, []⟩ = some 0 ∧ splitCause up .a ⟨0, 0, 1001, []⟩ = some 2 ∧ supRuns up .a = true
    ∧ splitCause { mainLost .a 0 up with timeA := 10 ^ 9 } .a quiet = some 1
    ∧ up.rdF (POWER_STATUS .a) POWER_STATUS_STATE ≠ 2 ∧ up.rdF (POWER_STATUS .a) POWER_STATUS_STATE ≠ 3 ∧ 50 ≤ (⟨50, 0, 0, []⟩ : HealthObs).mainUs
    ∧ (∀ s, s = setEbrum .a { up.ebrum .a with splitDue := some 2 } (linkAt 2 up) → (s.ebrum .a).splitDue = some 2 ∧ s.rdF (EBRUM_STATUS .a) EBRUM_STATUS_STATE = 2 ∧ supRuns s .a = true)
    ∧ (linkAt 5 up).rdF (EBRUM_STATUS .a) EBRUM_STATUS_STATE = 5
    ∧ up.rdF (POWER_STATUS .a) POWER_STATUS_STATE = 0 ∧ (powered 2).rdF (POWER_STATUS .a) POWER_STATUS_STATE ≠ 0 ∧ ((powered 2).ebrum .a).splitDue = none
    ∧ (up.ebrum .a).retrain = none ∧ ((retraining 8).ebrum .a).retrain = some (tk0, 8) ∧ ({ retraining 8 with split := true } : State).split = true
    ∧ ((rejoins 0 up).ebrum .a).rejoin = some tk0 ∧ ((rejoins 0 up).ebrum .b).rejoin.isSome = true ∧ ((rejoins 0 up).boot .a).fwVersion = ((rejoins 0 up).boot .b).fwVersion
    ∧ ((rejoins 1 up).boot .a).fwVersion ≠ ((rejoins 1 up).boot .b).fwVersion ∧ (rejoins 0 up).rdF (EBRUM_STATUS .a) EBRUM_STATUS_STATE ≠ 5
    ∧ (∀ d ∈ bothDies, (linkAt 5 (rejoins 0 up)).rdF (EBRUM_STATUS d) EBRUM_STATUS_STATE = 5) ∧ ((linkAt 5 (rejoins 0 up)).ebrum .a).rejoin = some tk0 := by
  simp only [forall_eq]; decide +kernel

/-- A unit's test is armed or runs on lane 1, whose checker has locked; MODE and a duration are set. -/
def testing (u st : Nat) : State :=
  setLtest .a { up.ltest .a with locked := [(u, [1])] } (up |> wrF (LT_STATUS .a u) LT_STATUS_STATE st |> wr (LT_LANES .a u) 3 |> wrF (LT_CFG .a u) LT_CFG_MODE 1 |> wrF (LT_CFG .a u) LT_CFG_DURATION_MS 5)
/-- Unit 5 is free and set up: its port is enabled. -/
def ready : State := up |> wrB (CAM_PORT_CFG .a 0) CAM_PORT_CFG_EN true |> wrF (LT_RATE .a 5) LT_RATE_MBPS 1000 |> wrF (LT_CFG .a 5) LT_CFG_MODE 1

theorem witness_LinkTestsRunOnFreeLinks : (accessRow up pf (addrOff (LT_CTRL .a 20))).isSome = true ∧ (accessRow up vf (addrOff (LT_CTRL .a 20))).isNone = true ∧ ltPresent up .a 20 = true
    ∧ ltState ready .a 5 ≠ 1 ∧ ltState ready .a 5 ≠ 2 ∧ ltBusy ready .a 5 = 0 ∧ ltSupported ready .a 5 = true ∧ ltSupported up .a 1 = false ∧ ltBusy up .a 9 = 3
    ∧ ltState (testing 0 1) .a 0 = 1 ∧ ltState (testing 20 2) .a 20 = 2 ∧ ((testing 20 2).dram .a).waitTarget = none
    ∧ (testing 20 2).rdF (LT_CFG .a 20) LT_CFG_DURATION_MS ≠ 0 ∧ (testing 20 2).flag (LT_STATUS .a 20) LT_STATUS_RETRAIN = false ∧ (up.ltest .a).locked = []
    ∧ (tget [] 20 ((testing 20 2).ltest .a).locked).contains 1 = true ∧ 1 < ltLanes 20 ∧ ltState up .a 0 ≠ 1
    ∧ ltChecks 20 = true ∧ (testing 20 2).rdF (LT_CFG .a 20) LT_CFG_MODE ≠ 0 ∧ (∀ l ∈ [0, 1], (lanesTested (testing 20 2) .a 20).contains l = true) ∧ (tget [] 20 ((testing 20 2).ltest .a).locked).contains 0 = false := by decide +kernel

/-- An eye point on lane 7 of the PCIe unit, in a step; the lane is being margined. -/
def eyed (k l : Nat) (m : List Nat) : State := setLtest .a { up.ltest .a with eye := k, margin := m } (wrF (LT_EYE_CTRL .a) LT_EYE_CTRL_LANE l up)

theorem witness_EyesAreScanned : (accessRow up pf (addrOff (LT_EYE_CTRL .a))).isSome = true ∧ (accessRow up vf (addrOff (LT_EYE_CTRL .a))).isNone = true
    ∧ LT_EYE_CTRL_GO.get (fw LT_EYE_CTRL_GO 1) = 1 ∧ LT_EYE_CTRL_GO.get 0 = 0
    ∧ (up.ltest .a).eye ≠ 1 ∧ ((eyed 1 7 []).ltest .a).eye = 1 ∧ eyeOk (eyed 1 7 []) .a = true ∧ eyeOk (eyed 1 8 []) .a = false ∧ eyeUnit (eyed 1 7 []) .a = 0
    ∧ ((eyed 1 7 [7]).ltest .a).margin.contains (eyeLane (eyed 1 7 [7]) .a) = true ∧ ((eyed 1 7 []).ltest .a).margin.contains (eyeLane (eyed 1 7 []) .a) = false
    ∧ (up.ltest .a).eye ≠ 2 ∧ ((eyed 2 7 []).ltest .a).eye = 2 ∧ eyeOk (eyed 2 7 []) .a = true ∧ eyeOk (eyed 2 8 []) .a = false := by decide +kernel

def rinUp (r : Rinlar) : State := setRin .a r up
/-- A slot with an image: each word but the magic, the number and the check value is 0. -/
def slotted : Rinlar := { Rinlar.empty with slots := [(31, imageOf .a 4 7 [])] }

theorem witness_RinlarSnapshotsCountAndRead : ((rinUp { Rinlar.empty with writing := some (0, 31, none) }).rin .a).writing = some (0, 31, none)
    ∧ ((rinUp Rinlar.empty).rin .a).writing = none ∧ ((rinUp Rinlar.empty).rin .a).queue = [] ∧ snapReady (rinUp Rinlar.empty) .a 4 = true ∧ nextSlot Rinlar.empty 31 = some 0
    ∧ (∀ d ∈ bothDies, (up.rin d).powerFailFrom ≤ up.now d) ∧ (∀ s, s = setRin .b { up.rin .b with powerFailFrom := 10 ^ 7 } (rinUp { up.rin .a with powerFailFrom := 10 ^ 7 }) → ∀ d ∈ bothDies, s.now d < (s.rin d).powerFailFrom)
    ∧ ((rinUp { slotted with writing := some (4, 0, some tk0) }).rin .a).writing = some (4, 0, some tk0) ∧ (slotted.retired.contains 0) = false
    ∧ (accessRow up pf (addrOff (RINLAR_CTRL .a))).isSome = true ∧ (accessRow up vf (addrOff (RINLAR_CTRL .a))).isNone = true := by
  simp only [forall_eq]; decide +kernel

/-- The bytes that the check value of an image covers do not hold its own header. -/
theorem imageBytes_header (k v : Nat) (img : Tab Nat) (h : k < 16) : imageBytes (tset k v img) 16 = imageBytes img 16 := by
  have e : ∀ i, tget 0 (16 + i) (tset k v img) = tget 0 (16 + i) img := fun i => tget_tset_ne 0 (by omega) v img
  simp only [imageBytes, e]

theorem witness_RinlarSnapshotsCountAndRead_latch : (newestSlot ((rinUp slotted).rin .a)).isSome = true := by
  have v : slotValid (imageOf .a 4 7 []) = true := by
    simp only [slotValid, imageOf, imageBytes_header 8 _ _ (by omega), tget_tset_same, tget_tset_ne 0 (show (0 : Nat) ≠ 8 by omega), tget_tset_ne 0 (show (0 : Nat) ≠ 1 by omega), tget_tset_ne 0 (show (0 : Nat) ≠ 2 by omega), tget_tset_ne 0 (show (0 : Nat) ≠ 3 by omega), beq_self_eq_true, Bool.and_true]
  have r : (rinUp slotted).rin .a = slotted := by simp [rinUp, setRin, State.rin]
  rw [r]; simp only [newestSlot, slotted, Rinlar.empty, List.filter_cons, v]; rfl

/-- R472: the second snapshot has number 8 after number 7, and its slot is the one after slot 31. -/
theorem test_rotation : nextSlot slotted 31 = some 0 ∧ imageSeq (imageOf .a 4 7 []) = 7 := by decide +kernel

/-- R465: the endpoint's capabilities: 32 timing steps, 50 %, 64 voltage steps, 16 × 0.01 V. -/
theorem test_margin : (match exec (.laneMargining .a 3 2) up with | .next t => t.out | _ => []) = [.margin .a 3 [32, 50, 64, 16]] := by decide +kernel

/-! ## Witnesses: clauses at their boundaries -/

/-- The Garnet scan drives head 0 by its own timing; a genlock snap is due at once, or a line later. -/
def ownTimed : State := wrB (GSCAN_STATUS .a 0) GSCAN_STATUS_ACTIVE true (pllLost (headAt 3))
def snapping (n : Nat) : State := setHead 0 { (headAt 3).head 0 with snapIn := some n } (headAt 3)

theorem witness_LineStartMovesTheGrid_scan : (ownTimed.head 0).phase = 3 ∧ ownTimed.flag (HEAD_STATUS .a 0) HEAD_STATUS_PLL_LOST = true ∧ ownTimed.flag (GSCAN_STATUS .a 0) GSCAN_STATUS_ACTIVE = true
    ∧ ownTimed.inReset.contains .heads = false ∧ islandOut ownTimed .a 0 = true ∧ ((snapping 1).head 0).snapIn = some 1 ∧ ((snapping 2).head 0).snapIn.isSome = true
    ∧ { (headAt 3).head 0 with ha := (headAt 3).isl (TIMING_HA .a 0), hb := (headAt 3).isl (TIMING_HB .a 0) }.htotal = ((headAt 3).head 0).htotal := by decide +kernel

/-- The compose window of head 0 is about to open. -/
def opened (rec : Bool) : State := setHead 0 { (headAt 3).head 0 with opening := true, recompose := rec } (headAt 3)

theorem witness_ComposePass_opens : (∀ b ∈ [true, false], ((opened b).head 0).phase = 3 ∧ headThrough (opened b) 0 = false ∧ ((opened b).head 0).mode = none ∧ ((opened b).head 0).pass = none
      ∧ ((opened b).head 0).opening = true ∧ anyPending (opened b) 0 = false ∧ ((opened b).head 0).recompose = b)
    ∧ ((headAt 3).head 0).opening = false ∧ ((passAt 0).head 0).pass = some (0, 1) ∧ 0 < ((passAt 0).head 0).vactive := by decide +kernel

/-- Data of layer 15 is late, or uncorrectable: the other layers' is there. -/
theorem witness_DisplayFaultsAreReported_causes : ∀ s, s = layered (through (headAt 3)) → (s.head 0).ahead = [] ∧ visible s 0 15 0 ≠ []
    ∧ (∀ m ∈ upto 16, (m == 15) = (nbit 0 m || (nbit 0x8000 m && ((s.head 0).layer m).camera == 0)) ∧ (m == 15) = (nbit 0x8000 m || (nbit 0 m && ((s.head 0).layer m).camera == 0)))
    ∧ ((setXing .a 5 { s.xing .a 5 with stopped := true, sent := 3 } s).xing .a 5).stopped = true ∧ ((setXing .a 5 { s.xing .a 5 with stopped := true, sent := 3 } s).xing .a 5).sent ≠ 0 := by
  simp only [forall_eq]; decide +kernel

/-- Head 0 is set to frame starts of head 1, which is not set to another's. -/
def referred (free : Bool) (n : Nat) : State :=
  wrB (GENLOCK_STATUS .a 0) GENLOCK_STATUS_FREE_RUN free (setHead 0 { (headAt 3).head 0 with genlock := GENLOCK_CTRL_SRC_UNIT.put 1 (GENLOCK_CTRL_SRC.put 2 0), rangeRun := n, refDue := true } (headAt 3))

theorem witness_PortsTrainTalkAndGenlock_reference : (∃ k ∈ [(1 : Nat), 2, 3], genMatches (GENLOCK_CTRL_SRC_UNIT.put 1 (GENLOCK_CTRL_SRC.put k 0)) 0 (.head 1) = true)
    ∧ genMatches ((referred false 0).head 0).genlock 0 (.camera 0 3) = false ∧ ((referred false 0).head 0).refDue = true ∧ ((referred false 0).head 0).phase = 3
    ∧ (referred false 0).flag (HEAD_STATUS .a 0) HEAD_STATUS_PLL_LOST = false ∧ (referred false 0).flag (GENLOCK_STATUS .a 0) GENLOCK_STATUS_FREE_RUN = false
    ∧ (referred true 3).flag (GENLOCK_STATUS .a 0) GENLOCK_STATUS_FREE_RUN = true ∧ 3 ≤ ((referred true 3).head 0).rangeRun ∧ ((referred true 2).head 0).rangeRun < 3 := by decide +kernel

theorem witness_CameraFramesAreReceived_clean : ∀ s, s = inStream (cameraOn false) → camReceives s 0 = true ∧ (s.stream 0 1).eccUncorr = 0 ∧ (s.stream 0 1).lenErr = 0 ∧ (s.camPort 0).ecc = 0
    ∧ (∀ n ∈ upto 4, (s.head (4 * (camDie 0).idx + n)).ahead = []) ∧ s.flag (CAM_PORT_STATUS .a 0) CAM_PORT_STATUS_READY = true ∧ (s.stream 0 1).lines = 3 := by
  simp only [forall_eq]; decide +kernel

theorem witness_DrawPacketsAct_spill : (match collect (takeTile .a (gpuJob 2 0 [0])) [0] (fresh (withJobs [gpuJob 2 0 [0]] up)) with
      | (.ok ts, s1) => ts.length == 1 && (tryAll (spillTile .a (gpuJob 2 0 [0])) (passOf (gpuJob 2 0 [0])).lists s1).1.isNone
      | _ => false) = true := by decide +kernel

theorem witness_GpuJobsAreScheduled_pass : (jobbed (gpuJob 3 0 [0]) []).job .a (rg 0) = some (gpuJob 3 0 [0])
    ∧ (match collect (takeTile .a (gpuJob 3 0 [0])) (upto (tileCount (gpuJob 3 0 [0]))) (countShaded .a ⟨[], [], false, [], 7, 9⟩ (fresh (jobbed (gpuJob 3 0 [0]) []))) with
      | (.ok ts, s1) =>
        let r := drawTiles (gpuJob 3 0 [0]) [] ts (passOf (gpuJob 3 0 [0])).queries
        match tryAll (storeTile .a (gpuJob 3 0 [0])) r.1 s1 with
        | (none, s2) => (tryAll (addQuery .a (gpuJob 3 0 [0])) r.2 s2).1.isNone
        | _ => false
      | _ => false) = true := by decide +kernel

/-- Every bundle is UP, as die A sees it. -/
def linkUp (s : State) : State := (upto 4).foldl (fun t n => wrF (EBRUM_BUNDLE .a n) EBRUM_BUNDLE_STATE 0 t) s

/-- A request of die B at port 22 of die A. -/
def req22 : MemReq := { req12 with port := 22, fn := pf0 .b }
def memLinked : State := linkUp rowOpen |> wrB (DRAM_PORT_STATUS .a 22) DRAM_PORT_STATUS_PRESENT true

theorem witness_MemoryServesRequests_link : channelClosed memLinked .a (channelOf 0x1000) = false ∧ served memLinked [req22] = some req22 ∧ (memLinked.ebrum .a).sets = [] ∧ liveBundles memLinked ≠ []
    ∧ openHit memLinked .a [req22] req22 = true := by decide +kernel

/-- The DRAM channels of die A are halted with an event held. -/
def fspHeld : State := setXing .a 0x3F { memUp.xing .a 0x3F with stopped := true, sent := 2 } (setDram .a { memUp.dram .a with target := some 3 } memUp)

theorem witness_MemoryIsMaintained_held : (fspHeld.dram .a).target = some 3 ∧ fspHeld.rdF (DRAM_STATUS .a) DRAM_STATUS_GATHERING = 0 ∧ (fspHeld.xing .a (0x20 + 31)).stopped = true ∧ (fspHeld.xing .a (0x20 + 31)).sent ≠ 0 := by
  decide +kernel

/-- A start waits on channel 0, whose tenant is not frozen; or is. -/
def queuedHap (frz : Bool) : State := wrB (FUNC_STATUS pf) FUNC_STATUS_FROZEN frz (setHap 0 { edged.hap 0 with queued := some buzz } edged)

theorem witness_HapticEffectsRun_queued : ((queuedHap false).hap 0).queued = some buzz ∧ hapHeld (queuedHap false) 0 = false ∧ hapReady (queuedHap false) 0 = true ∧ hapChange (queuedHap false) 0 = false
    ∧ ((queuedHap false).hap 0).blockTlim = false ∧ ((queuedHap false).hap 0).blockDuty = false ∧ ((queuedHap false).hap 0).run = none ∧ ((queuedHap false).hap 0).plays = [] ∧ ((queuedHap false).hap 0).ticket = none
    ∧ hapHeld (queuedHap true) 0 = true ∧ hapOn (queuedHap false) 0 = true ∧ unitReset (queuedHap false) .a (bitHaptic 0) = false ∧ islandOut (queuedHap false) .a 21 = true
    ∧ freezing edged trigRoute.grantee = false ∧ frozen (queuedHap true) trigRoute.grantee = true := by decide +kernel

theorem witness_TouchIsScanned_waits : scanning up .a = false ∧ up.rdF (POWER_STATUS .a) POWER_STATUS_STATE ≠ 2 ∧ (touchy.touch .a).test = none ∧ dget (ds [(29, 2), (30, 100)]) 29 0 8 = 2
    ∧ sat16 ((120 : Nat) - (25600 : Nat) / 256) < (100 : Int)
    ∧ tk0.fn.fn = 0 ∧ selfTest.rdF (XLATE_CTRL tk0.fn) XLATE_CTRL_S1_EN = 0 ∧ selfTest.rdF (XLATE_CTRL tk0.fn) XLATE_CTRL_S2_EN = 0 ∧ selfTest.split = false ∧ selfTest.tlb = []
    ∧ dget (ds [(10, 500), (16, 0x4000)]) 16 0 64 % 4096 + 768 ≤ 4096 ∧ dget (ds [(10, 500), (16, 0x4000)]) 16 0 64 + 768 ≤ 2 ^ 48
    ∧ (i2c ⟨0, false, false, 1, 0⟩).flag (TSH_STATUS (tshDie 3) (tshNo 3)) TSH_STATUS_LOST = false ∧ ((i2c ⟨0, true, false, 1, 0⟩).tsh 3).retry = false ∧ ((i2c ⟨0, true, false, 1, 0⟩).tsh 3).fails < 2
    ∧ (up.tsh 3).reading = false ∧ up.flag (TSH_STATUS (tshDie 3) (tshNo 3)) TSH_STATUS_EN = false := by decide +kernel

/-- R382: the scan after one at LP_TH ends the run: the device wakes at the LP_WAKE-th in a row only. -/
theorem test_lp_run : (match exec (.touchLpScan .a 200) (setTouch .a { (lowScan (some 25600)).touch .a with setup := ds [(29, 2), (30, 100)] } (lowScan (some 25600))) with
    | .next t => ((t.touch .a).lpRun, (t.touch .a).lpDelta) | _ => (9, none)) = (1, none) := by decide +kernel

theorem witness_PowerStatesChange_timer : (∀ s, s = { wr (WAKE_TIMER_LO .a) 100 up with timeA := 99 } → s.now .a < s.rd64 (WAKE_TIMER_LO .a) ∧ (s.tbase .a).counter < s.rd64 (WAKE_TIMER_LO .a))
    ∧ (∀ s, s = setTbase .a ⟨100, 0, 0, 0⟩ (wr (WAKE_TIMER_LO .a) 100 up) → s.rd64 (WAKE_TIMER_LO .a) ≤ (s.tbase .a).counter ∧ powerDie s .a = .a)
    ∧ up.flag (XING_STATUS .a 0xC7) XING_STATUS_PEER_RESET = false ∧ (up.xing .a 0xC7).stopped = false
    ∧ (wrB (XING_STATUS .a 0xC7) XING_STATUS_PEER_RESET true up).flag (XING_STATUS .a 0xC7) XING_STATUS_PEER_RESET = true := by
  simp only [forall_eq]; decide +kernel

theorem witness_LanesAndBundlesFollowTheirLink_spread : liveBundles (setBundle 3 2 (linkUp up)) ≠ liveBundles (linkUp up) ∧ liveBundles (setBundle 3 1 (linkUp up)) = liveBundles (linkUp up)
    ∧ (∀ s, s = setBundle 3 2 (linkUp up) → (s.ebrum .a).sets = (0, [0, 1, 2]) :: ((linkUp up).ebrum .a).sets ∧ 0 ≤ req22.since ∧ ([0, 1, 2] : List Nat)[req22.addr / 256 % [0, 1, 2].length]? = some 1 ∧ (liveBundles s).contains 1 = true)
    ∧ (liveBundles (setBundle 1 2 (setBundle 3 2 (linkUp up)))).contains 1 = false := by
  simp only [forall_eq]; decide +kernel

theorem witness_DiesSplitAndRejoin_offset : timeOffset (rejoins 0 up) = 0 ∧ timeOffset (setTbase .b ⟨1000, 0, 0, 0⟩ (rejoins 0 up)) ≠ 0 ∧ up.flag (XING_STATUS .b 0xC5) XING_STATUS_PEER_RESET = false ∧ (up.xing .b 0xC5).queue = []
    ∧ timeOffset (linkAt 5 (rejoins 0 up)) = 0 := by decide +kernel

/-- The channel measures with an accelerometer; its seventh failed read has passed. -/
def accel (x : HapChan) : State := setHap 0 x (wrF (HAP_CFG .a 0) HAP_CFG_SENSE 2 up)
theorem witness_HapticEffectsRun_sense : (accel HapChan.empty).rdF (HAP_CFG (hapDie 0) (hapNo 0)) HAP_CFG_SENSE = 2 ∧ ((accel HapChan.empty).hap 0).openLoop = false
    ∧ readFails 2 ⟨5000, 16, false, 0⟩ = false ∧ readFails 2 ⟨5000, 0xFFFF, false, 0⟩ = true ∧ readFails 2 ⟨5000, 16, true, 0⟩ = true
    ∧ ((accel { HapChan.empty with fails := 7 }).hap 0).fails = 7 := by decide +kernel

/-- R345: a sample of −16 at 1,000 µg per LSB is 16 mg; with FULL_SCALE 32 mg the amplitude is 128. R343, R351: 5 V of drive from a supply of 8 V is more than VLIM 128 allows. -/
theorem test_accel : measuredAmp { HapChan.empty with setup := ds [(20, 32), (26, 1000)] } 2 ⟨8000, 0xFFF0, false, 0⟩ = 128
    ∧ pwmDuty { HapChan.empty with setup := ds [(11, 128)] } 1 ⟨8000, 0, false, 5000⟩ ⟨buzz, 0, 0, [], false, 0, 0, 0, 0⟩ = ((128, 256), true) := by decide +kernel

theorem witness_EnginesMoveAndCheck_ranges : rangesMeet (plainCopy 0) = false ∧ rangesMeet { plainCopy 0 with desc := ds [(0, 0x10), (8, 0x10000), (16, 0x10800), (24, 5000)] } = true := by decide +kernel

/-- A row group one activation before THRESH, and 256 after an RFM command; line 64 in the cache; no S route lives. -/
def nearThresh (rfm : Tab Nat) (n : Nat) : State :=
  setDram .a { memUp.dram .a with acts := [(bankKey memUp .a 0x1000 * 2 ^ 24 + rowOf memUp .a 0x1000 / 256, n)], rfmAt := rfm, cache := [(0, ⟨64, false, false⟩)] } memUp
theorem witness_MemoryServesRequests_cache : memUp.rdF (DRAM_RD_CFG .a) DRAM_RD_CFG_THRESH ≤ tget 0 (bankKey memUp .a 0x1000 * 2 ^ 24 + rowOf memUp .a 0x1000 / 256) ((nearThresh [] 4095).dram .a).acts + 1
    ∧ tget 0 (bankKey memUp .a 0x1000 * 2 ^ 24 + rowOf memUp .a 0x1000 / 256) ((nearThresh [] 4094).dram .a).acts + 1 < memUp.rdF (DRAM_RD_CFG .a) DRAM_RD_CFG_THRESH
    ∧ tfind (bankKey memUp .a 0x1000 * 2 ^ 24 + rowOf memUp .a 0x1000 / 256) ((nearThresh [(bankKey memUp .a 0x1000 * 2 ^ 24 + rowOf memUp .a 0x1000 / 256, 4096)] 4351).dram .a).rfmAt = some 4096
    ∧ 4096 + max 1 (memUp.rdF (DRAM_RD_CFG .a) DRAM_RD_CFG_RFM_STRIDE) ≤ 4352
    ∧ lineAt memUp .a 0x1000 = none ∧ cacheHit (nearThresh [] 0) .a req12 = true ∧ allocWays memUp .a { req12 with alloc := true } ≠ [] ∧ allocWays memUp .a req12 = [] ∧ sRouteLives memUp .a = false
    ∧ secureReq { req12 with port := 1 } = true ∧ (∀ w ∈ allocWays memUp .a { req12 with port := 1, alloc := true }, nbit (memUp.rdF (CACHE_S_WAYS .a) CACHE_S_WAYS_S_MASK) w = true) := by decide +kernel

/-- A bus at unity gain whose look-ahead is full. -/
def plainBus : AudioBus := { AudioBus.empty with ahead := List.replicate 96 [5, -5] }
theorem witness_AudioEngineTicks_samples : plainBus.master = Ramp.flat 0 ∧ plainBus.scale = 1 ∧ plainBus.scaleEnd ≤ 0 ∧ plainBus.fx = 0 ∧ plainBus.delay = 0 ∧ plainBus.delayPos = 0
    ∧ plainBus.ahead.getD 95 [] = [5, -5] ∧ (12 : Int) * (3 : Nat) % (4 : Nat) = 0 ∧ busOn (wrB (AUDIO_BUS_CFG .a 15) AUDIO_BUS_CFG_EN true audible) 15 = true := by decide +kernel

/-- R317: 1.0 and −0.5 in F32; −1 in the low 24 bits; clips at 16 bits and in F32. R332: b0 = 1.0 passes a sample, and a1 = 0.5 takes half of the last. -/
theorem test_audio_formats : fromMem 3 [0, 0, 0x80, 0x3F] = 16777216 ∧ fromMem 3 [0, 0, 0, 0xBF] = -8388608 ∧ fromMem 1 [0xFF, 0xFF, 0xFF, 0] = -2 ∧ fromMem 0 [0, 0x80] = -16777216
    ∧ toInt 16 33554432 = 32767 ∧ toF32 16777216 = 0x3F800000 ∧ toF32 (-8388608) = 0xBF000000 ∧ toF32 33554432 = 0x3F800000 ∧ toMem 2 (-16777216) = [0, 0, 0, 0x80]
    ∧ (biquad [536870912, 0, 0, 268435456, 0] [0, 0, 64, 0] 100).1 = 68 := by decide +kernel

/-- R334: a Garnet bus whose INJECT[0] names slot 2 of TDM port 0 gives its sample there. -/
theorem test_injection : (let s := { wrB (AUDIO_BUS_CFG .a 15) AUDIO_BUS_CFG_EN true audible with audio := { audible.audio with buses := [(15, { AudioBus.empty with setup := ds [(24, 0x25), (26, 2), (28, 0xF0)] })] } }
    ((upto 4).map (sinkSample s [(15, [[77]])] 0x25 0 0))) = [0, 0, 77, 0] := by decide +kernel

/-- R454: a bundle that trains by itself, with its spares in use. R310: a step gathers as GO comes. -/
theorem witness_LanesAndBundlesFollowTheirLink_training :
    (let s := wrF (EBRUM_BUNDLE .a 0) EBRUM_BUNDLE_STATE 3 (wrF (EBRUM_BUNDLE .a 0) EBRUM_BUNDLE_SPARES_BA 2 up)
     bundleState s 0 = 3 ∧ inRetrain s 0 = false ∧ 2 ≤ s.rdF (EBRUM_BUNDLE .a 0) (spareField .a) ∧ s.rdF (EBRUM_BUNDLE .b 0) (spareField .b) < 2)
    ∧ (let s := wrF (DRAM_STATUS .a) DRAM_STATUS_GATHERING 2 memUp
       s.rdF (DRAM_STATUS .a) DRAM_STATUS_GATHERING ≠ 0 ∧ s.flag (DRAM_STATUS .a) DRAM_STATUS_FSP_BUSY = false ∧ s.flag (DRAM_STATUS .a) DRAM_STATUS_READY = true) := by decide +kernel

/-- Unit 1 of die A: PATTERN 1 on lanes 0 and 2, complement, at 1,620 Mb/s. -/
def prbs7 : State := wrF (LT_RATE .a 1) LT_RATE_MBPS 1620 (wr (LT_LANES .a 1) 5 (wrB (LT_CFG .a 1) LT_CFG_INVERT true (wrF (LT_CFG .a 1) LT_CFG_PATTERN 1 up)))
theorem witness_LinkTestsRunOnFreeLinks_generator : (lanesTested prbs7 .a 1).contains 2 = true ∧ prbs7.rdF (LT_CFG .a 1) LT_CFG_MODE ≠ 1
    ∧ (generate .a 1 prbs7).out = [.pattern .a 1 0 1 (7, 6) 65 true (some 1620), .pattern .a 1 2 1 (7, 6) 67 true (some 1620)] := by decide +kernel

theorem witness_RinlarSnapshotsCountAndRead_runs : recordRuns up .a = true ∧ recordRuns up .b = true ∧ recordRuns (wrF (POWER_STATUS .a) POWER_STATUS_STATE 4 up) .a = false
    ∧ (up.rin .a).powerFailFrom ≤ up.now .a ∧ (up.rin .b).powerFailFrom ≤ up.now .b := by decide +kernel

/-- GPIO 3 is driven high, GPIO 4 has both pulls on; a die in reset. -/
def gpios : State := putBit (GPIO_OUT .a) GPIO_OUT_LEVEL 3 true (putBit (GPIO_DIR .a) GPIO_DIR_OE 3 true (putBit (GPIO_PULL .a) GPIO_PULL_UP 4 true up))
theorem witness_SupervisorAndBlockResets_pins : gpios.inReset.contains .fabric = false ∧ nbit (gpios.rdF (GPIO_DIR .a) GPIO_DIR_OE) 3 = true ∧ pinState gpios .a true (.gpio 3) = .high
    ∧ nbit (gpios.rdF (GPIO_DIR .a) GPIO_DIR_OE) 4 = false ∧ pinState gpios .a true (.gpio 4) = .highZ ∧ nbit (gpios.rdF (GPIO_PULL .a) GPIO_PULL_DOWN) 4 = true
    ∧ pinPresent up .a (.csi 0) = true ∧ up.flag (CAM_PORT_CFG .a 0) CAM_PORT_CFG_EN = false ∧ pinPresent up .a (.tdm 0 true) = true ∧ pinPresent up .a (.hap 0) = true ∧ pinPresent up .a (.tch 9) = true
    ∧ State.reset.inReset.contains .touch = true ∧ State.reset.inReset.contains .memory = true ∧ up.inReset.contains .supervisor = false := by decide +kernel

end Sys2Proof.Tests
end

section
/-! Accesses to registers that a function reaches (R9, R10, R11): the state apart from the records of accesses, where a
register can lie, and what a write or a read of either half of a pair does. -/
namespace Sys2Proof.Machine

/-! ## What a command without output leaves -/

@[simp] theorem ran_rd (g : State → State) (s : State) (a : Nat) : (ran g s).rd a = (g (fresh s)).rd a := rfl

@[simp] theorem ran_regs (g : State → State) (s : State) : (ran g s).regs = (g (fresh s)).regs := rfl

@[simp] theorem ran_readData (g : State → State) (s : State) : (ran g s).readData = (g (fresh s)).readData := rfl

@[simp] theorem ran_staged (g : State → State) (s : State) : (ran g s).staged = (g (fresh s)).staged := rfl

@[simp] theorem ran_latched (g : State → State) (s : State) : (ran g s).latched = (g (fresh s)).latched := rfl

/-! ## The state apart from the records of accesses -/

/-- The state without the records of accesses: what is staged and latched of pairs (R10, R11), the word last read, and what
left the device. -/
def recordless (s : State) : State := { s with staged := [], latched := [], readData := 0, out := [] }

@[simp] theorem recordless_fresh (s : State) : recordless (fresh s) = recordless s := rfl

@[simp] theorem rd_recordless (s : State) (a : Nat) : (recordless s).rd a = s.rd a := rfl

@[simp] theorem regs_recordless (s : State) : (recordless s).regs = s.regs := rfl

@[simp] theorem accessRow_recordless (s : State) (f : Fun) (off : Nat) : accessRow (recordless s) f off = accessRow s f off := rfl

@[simp] theorem rowAbsent_recordless (s : State) (d : Die) (r : RegRow) (off : Nat) :
    rowAbsent (recordless s) d r off = rowAbsent s d r off := rfl

@[simp] theorem writeIgnored_recordless (s : State) (f : Fun) (r : RegRow) (off : Nat) (v : Word) :
    writeIgnored (recordless s) f r off v = writeIgnored s f r off v := rfl

@[simp] theorem statusWord_recordless (s : State) (f : Fun) (off : Nat) : statusWord (recordless s) f off = statusWord s f off := rfl

@[simp] theorem hideFromH_recordless (s : State) (d : Die) (r : RegRow) (off : Nat) (v : Word) :
    hideFromH (recordless s) d r off v = hideFromH s d r off v := rfl

@[simp] theorem rd_refreshE_recordless (s : State) (d : Die) (a : Nat) :
    (refreshE d (recordless s)).rd a = (refreshE d s).rd a := by rfl

/-- A command that sends nothing out and keeps all but the records of accesses does so as it runs. -/
theorem recordless_ran {g : State → State} {s : State} (h : recordless (g (fresh s)) = recordless s)
    (ho : (g (fresh s)).out = []) : recordless (ran g s) = recordless s := by
  have hm : (g (fresh s)).mem = s.mem := (congrArg State.mem h :)
  have hp : (g (fresh s)).pending = s.pending := (congrArg State.pending h :)
  rw [← h]
  simp only [ran, ho, applyOut, ← hm, ← hp]
  rfl

theorem regs_eq_of_recordless {s t : State} (h : recordless t = recordless s) : t.regs = s.regs := by
  rw [← regs_recordless t, h, regs_recordless]

theorem rd_eq_of_recordless {s t : State} (h : recordless t = recordless s) (a : Nat) : t.rd a = s.rd a := by
  rw [← rd_recordless t, h, rd_recordless]

/-! ## Where a register lies -/

/-- A row with strides ends before the end of its last repetition. -/
theorem off_lt_of_has {r : RegRow} {off : Nat} (h2 : 0 < r.s2) (h : r.has off = true) :
    off < r.off + (r.n1 - 1) * r.s1 + r.n2 * r.s2 := by
  simp only [RegRow.has, Bool.and_eq_true, decide_eq_true_eq] at h
  obtain ⟨⟨⟨hlo, hi1⟩, hi2⟩, -⟩ := h
  have hq : (off - r.off) / r.s1 * r.s1 ≤ (r.n1 - 1) * r.s1 := Nat.mul_le_mul_right _ (Nat.le_sub_one_of_lt hi1)
  have hm : (off - r.off) % r.s1 < r.n2 * r.s2 := (Nat.div_lt_iff_lt_mul h2).mp hi2
  have hd : r.s1 * ((off - r.off) / r.s1) + (off - r.off) % r.s1 = off - r.off := Nat.div_add_mod _ _
  rw [Nat.mul_comm r.s1] at hd
  omega

/-- The rows of the last block end within the 64 MiB of BAR0. -/
theorem rowsEbrum_end : ∀ r ∈ rowsEbrum, 0 < r.s2 ∧ r.off + (r.n1 - 1) * r.s1 + r.n2 * r.s2 ≤ 0x4000000 := by
  decide

/-- No register lies beyond the 64 MiB of BAR0 (Table 22.1). -/
theorem off_lt_of_findRow {off : Nat} {r : RegRow} (h : findRow off = some r) : off < 0x4000000 := by
  by_contra hge
  have hrows : blockRows off = rowsEbrum := by
    simp only [blockRows]
    repeat rw [if_neg (by omega)]
  rw [findRow, hrows] at h
  have hmem : r ∈ rowsEbrum := List.mem_of_find?_eq_some h
  have hhas : r.has off = true := by simpa only using List.find?_some h
  obtain ⟨h2, hend⟩ := rowsEbrum_end r hmem
  have := off_lt_of_has h2 hhas
  omega

theorem findRow_of_accessRow {s : State} {f : Fun} {off : Nat} {r : RegRow} (h : accessRow s f off = some r) :
    findRow off = some r := by
  cases hf : findRow off with
  | none => simp only [accessRow, hf, reduceCtorEq] at h
  | some r' =>
    simp only [accessRow, hf, Option.ite_none_right_eq_some] at h
    exact h.2

theorem bar2Off_of_lt {off : Nat} (h : off < 0x4000000) : bar2Off off = none := if_neg (Nat.not_le.mpr h)

/-- A register that a function reaches is no word of its BAR2. -/
theorem bar2Off_of_accessRow {s : State} {f : Fun} {off : Nat} {r : RegRow} (h : accessRow s f off = some r) :
    bar2Off off = none := bar2Off_of_lt (off_lt_of_findRow (findRow_of_accessRow h))

/-! ## Offsets that a level does not reach (R9) -/

theorem regWrite_unlisted {f : Fun} {off : Nat} {s : State} (v : Word) (hb : bar2Off off = none) (hd : doorbellAt f off = none)
    (ha : accessRow s f off = none) : regWrite f off v s = s := by
  simp only [regWrite, hb, hd, ha]

theorem regRead_unlisted {f : Fun} {off : Nat} {s : State} (hb : bar2Off off = none) (hw : statusWord s f off = none)
    (ha : accessRow s f off = none) : regRead f off s = { s with readData := 0 } := by
  simp only [regRead, seenWord, hb, hw, ha, ite_self]

/-! ## What a read returns -/

/-- The word that stands in an entry before anything of it is hidden: the pins' levels, the priorities of now, or what the
register holds (R276, R490). -/
def rowWord (s : State) (f : Fun) (r : RegRow) (off : Nat) : Word :=
  if r.off = 0x102008 then BitVec.ofNat 32 (gpioIn s f.ep)
  else if setupAddr f off = GPU_SCHED_STATUS f.ep then (refreshE f.ep s).rd (setupAddr f off)
  else s.rd (setupAddr f off)

@[simp] theorem rowWord_recordless (s : State) (f : Fun) (r : RegRow) (off : Nat) : rowWord (recordless s) f r off = rowWord s f r off := by
  simp only [rowWord, rd_refreshE_recordless, rd_recordless]
  rfl

theorem reads_of_unlisted {s : State} {f : Fun} {off : Nat} (h : accessRow s f off = none) : s.reads f off = 0 := by
  simp only [State.reads, seenWord, h]

theorem reads_of_row {s : State} {f : Fun} {off : Nat} {r : RegRow} (h : accessRow s f off = some r) :
    s.reads f off = if rowAbsent s f.ep r off then 0 else if f.fn = 63 then rowWord s f r off
      else hideFromH s f.ep r off (rowWord s f r off) := by
  simp only [State.reads, seenWord, h, rowWord]
  split_ifs <;> rfl

/-- What a function reads does not rest on the records of accesses: no staged half shows (R10). -/
@[simp] theorem reads_recordless (s : State) (f : Fun) (off : Nat) : (recordless s).reads f off = s.reads f off := by
  cases h : accessRow s f off with
  | none => rw [reads_of_unlisted h, reads_of_unlisted (s := recordless s) h]
  | some r =>
    rw [reads_of_row h, reads_of_row (s := recordless s) h, rowAbsent_recordless, rowWord_recordless, hideFromH_recordless]

theorem reads_eq_of_recordless {s t : State} (h : recordless t = recordless s) (f : Fun) (off : Nat) : t.reads f off = s.reads f off := by
  rw [← reads_recordless t, h, reads_recordless]

/-- Finding the word of a register changes neither a register nor what is latched. -/
theorem seenWord_keeps (f : Fun) (off : Nat) (s : State) :
    (seenWord f off s).2.regs = s.regs ∧ (seenWord f off s).2.latched = s.latched := by
  unfold seenWord
  split
  · exact ⟨rfl, rfl⟩
  · split
    · exact ⟨rfl, rfl⟩
    · dsimp only
      split <;> exact ⟨rfl, rfl⟩

/-! ## Halves of a pair (R10, R11) -/

/-- The function's write at the offset reaches half `n` of a pair, an entry that is there and that software may write. -/
structure ReachesHalf (n : Nat) (s : State) (f : Fun) (off : Nat) (r : RegRow) : Prop where
  door : doorbellAt f off = none
  row : accessRow s f off = some r
  present : rowAbsent s f.ep r off = false
  half : r.pair = n
  writable : r.rw ≠ 0

/-- The records of accesses do not bear on which half a write reaches. -/
theorem ReachesHalf.of_recordless {n : Nat} {s t : State} {f : Fun} {off : Nat} {r : RegRow} (h : ReachesHalf n s f off r)
    (hts : recordless t = recordless s) : ReachesHalf n t f off r where
  door := h.door
  row := by rw [← accessRow_recordless, hts, accessRow_recordless, h.row]
  present := by rw [← rowAbsent_recordless, hts, rowAbsent_recordless, h.present]
  half := h.half
  writable := h.writable

theorem writeIgnored_congr {s t : State} (hts : recordless t = recordless s) (f : Fun) (r : RegRow) (off : Nat) (v : Word) :
    writeIgnored t f r off v = writeIgnored s f r off v := by
  rw [← writeIgnored_recordless, hts, writeIgnored_recordless]

/-- A write of the low half is staged, and that is all it does. -/
theorem regWrite_low {s : State} {f : Fun} {off : Nat} {r : RegRow} {v : Word} (h : ReachesHalf 1 s f off r)
    (hi : writeIgnored s f r off v = false) :
    regWrite f off v s = { s with staged := tset (stageKey f (setupAddr f off)) (v &&& BitVec.ofNat 32 r.rw) s.staged } := by
  simp [regWrite, bar2Off_of_accessRow h.row, h.door, h.row, h.present, h.half, stageLo, hi, h.writable]

/-- A write of the high half of a pair that no island carries sets both registers, and nothing stays staged. -/
theorem regWrite_high {s : State} {f : Fun} {off : Nat} {r : RegRow} {v : Word} (h : ReachesHalf 2 s f off r)
    (hi : writeIgnored s f r off v = false) (hc : carriedBy r off = []) :
    regWrite f off v s =
      ({ s with staged := tkeep (fun j => j != stageKey f (setupAddr f off - 4)) s.staged }
        |> wr (setupAddr f off - 4) ((tfind (stageKey f (setupAddr f off - 4)) s.staged).getD (s.rd (setupAddr f off - 4)))
        |> wr (setupAddr f off) (v &&& BitVec.ofNat 32 r.rw)) := by
  simp [regWrite, bar2Off_of_accessRow h.row, h.door, h.row, h.present, h.half, commitHi, hi, h.writable, putReg, hc]

/-- LO_WRITE: the masked word is staged for the function, in place of one staged before, and only the records of accesses change. -/
theorem loWrite_stages {s : State} {f : Fun} {off : Nat} {r : RegRow} {v : Word} (h : ReachesHalf 1 s f off r)
    (hi : writeIgnored s f r off v = false) :
    ∃ t, exec (.loWrite f off v) s = .next t ∧ recordless t = recordless s
      ∧ tfind (stageKey f (setupAddr f off)) t.staged = some (v &&& BitVec.ofNat 32 r.rw) := by
  have hw := regWrite_low (h.of_recordless (recordless_fresh s)) ((writeIgnored_congr (recordless_fresh s) f r off v).trans hi)
  refine ⟨ran (regWrite f off v) s, rfl, recordless_ran ?_ ?_, ?_⟩
  · rw [hw]; rfl
  · rw [hw]; rfl
  · rw [ran_staged, hw]; exact tfind_tset_same _ _ _

/-- HI_WRITE: the low register takes what is staged, or keeps its word, and the high register takes the masked word, in one step. -/
theorem hiWrite_commits {s : State} {f : Fun} {off a : Nat} {r : RegRow} {v : Word} (h : ReachesHalf 2 s f off r)
    (hi : writeIgnored s f r off v = false) (hc : carriedBy r off = []) (ha : setupAddr f off = a + 4) :
    ∃ u, exec (.hiWrite f off v) s = .next u ∧ u.rd a = (tfind (stageKey f a) s.staged).getD (s.rd a)
      ∧ u.rd (a + 4) = v &&& BitVec.ofNat 32 r.rw ∧ ∀ b, b ≠ a → b ≠ a + 4 → u.rd b = s.rd b := by
  have hw := regWrite_high (h.of_recordless (recordless_fresh s)) ((writeIgnored_congr (recordless_fresh s) f r off v).trans hi) hc
  rw [ha, Nat.add_sub_cancel] at hw
  refine ⟨ran (regWrite f off v) s, rfl, ?_, ?_, fun b hb hb4 => ?_⟩
  · rw [ran_rd, hw, rd_wr_ne (by omega), rd_wr_same]; rfl
  · rw [ran_rd, hw, rd_wr_same]
  · rw [ran_rd, hw, rd_wr_ne hb4, rd_wr_ne hb]; rfl

/-- A read of the low half latches the word of the high half. -/
theorem regRead_low {s : State} {f : Fun} {off : Nat} {r : RegRow} (ha : accessRow s f off = some r) (hp : r.pair = 1)
    (hs : statusWord s f off = none) :
    regRead f off s = { (seenWord f off s).2 with
      readData := s.reads f off, latched := tset (stageKey f (setupAddr f off + 4)) (s.reads f (off + 4)) s.latched } := by
  simp only [regRead, bar2Off_of_accessRow ha, hs, ite_self, ha, hp, (seenWord_keeps f off s).2, State.reads, if_true]

/-- A read of the high half returns what is latched, and uses it up. -/
theorem regRead_high {s : State} {f : Fun} {off : Nat} {r : RegRow} (ha : accessRow s f off = some r) (hp : r.pair = 2)
    (hs : statusWord s f off = none) :
    regRead f off s = { (seenWord f off s).2 with
      readData := (tfind (stageKey f (setupAddr f off)) s.latched).getD (s.reads f off),
      latched := tkeep (fun k => k != stageKey f (setupAddr f off)) s.latched } := by
  simp [regRead, bar2Off_of_accessRow ha, hs, ha, hp, (seenWord_keeps f off s).2, State.reads]

/-- LO_READ of a low half: the committed word, no register changed, and the committed high word latched for the function. -/
theorem loRead_low {s : State} {f : Fun} {off : Nat} {r : RegRow} (ha : accessRow s f off = some r) (hp : r.pair = 1)
    (hs : statusWord s f off = none) :
    ∃ t, exec (.loRead f off) s = .next t ∧ t.readData = s.reads f off ∧ t.regs = s.regs
      ∧ tfind (stageKey f (setupAddr f off + 4)) t.latched = some (s.reads f (off + 4)) := by
  have hr := regRead_low (s := fresh s) ha hp hs
  have hreads := reads_eq_of_recordless (recordless_fresh s) f
  refine ⟨ran (regRead f off) s, rfl, ?_, ?_, ?_⟩
  · rw [ran_readData, hr]; exact hreads off
  · rw [ran_regs, hr]; exact (seenWord_keeps f off (fresh s)).1
  · rw [ran_latched, hr]; exact (tfind_tset_same _ _ _).trans (congrArg some (hreads (off + 4)))

/-- LO_READ of a high half returns the word that is latched for the function. -/
theorem loRead_high {s : State} {f : Fun} {off : Nat} {r : RegRow} {w : Word} (ha : accessRow s f off = some r) (hp : r.pair = 2)
    (hs : statusWord s f off = none) (hl : tfind (stageKey f (setupAddr f off)) s.latched = some w) :
    ∃ t, exec (.loRead f off) s = .next t ∧ t.readData = w := by
  refine ⟨ran (regRead f off) s, rfl, ?_⟩
  have hl' : tfind (stageKey f (setupAddr f off)) (fresh s).latched = some w := hl
  rw [ran_readData, regRead_high (s := fresh s) ha hp hs, hl']
  rfl

end Sys2Proof.Machine
end

section
/-! The statements about the scope chapter's register accesses. -/
namespace Sys2Proof.Machine

/-- Settles O7: neither access finds an entry, so the write leaves the state and the read finds no word. -/
theorem unlistedLevelReachesNothing : Obligations.UnlistedLevelReachesNothing := by
  intro f off v s hlt hd ha
  have hb := bar2Off_of_lt hlt
  have hw : ran (regWrite f off v) s = fresh s := ran_same (regWrite_unlisted v hb hd ha)
  refine ⟨⟨congrArg _ hw, congrArg _ hw, congrArg _ hw⟩, fun hs => ?_⟩
  have hr : regRead f off (fresh s) = { fresh s with readData := 0 } := regRead_unlisted hb hs ha
  calc exec (.loRead f off) s = .next (ran (regRead f off) s) := rfl
    _ = .next { fresh s with readData := 0 } := by simp only [ran, hr]; rfl

/-- Settles O9: a low write changes only what is staged, so the high write that follows takes it, or takes what a later low
write put in its place; a low read leaves the high word under the key at which the next high read looks. -/
theorem pairsCommitAndReadWhole : Obligations.PairsCommitAndReadWhole := by
  refine ⟨?_, ?_⟩
  · intro f off lo lo2 hi s r r' hd hd' hrow hrow' hab hab' hp hp' hrw hrw' hlo hlo2 hhi hc ha
    have low : ReachesHalf 1 s f off r := ⟨hd, hrow, hab, hp, hrw⟩
    have high : ReachesHalf 2 s f (off + 4) r' := ⟨hd', hrow', hab', hp', hrw'⟩
    have commits (t : State) (hts : recordless t = recordless s) :=
      hiWrite_commits (high.of_recordless hts) ((writeIgnored_congr hts f r' (off + 4) hi).trans hhi) hc ha
    refine ⟨?_, fun hnone => ?_⟩
    · obtain ⟨t, hexec, hts, hstage⟩ := loWrite_stages low hlo
      obtain ⟨u, huexec, hulo, huhi, hurest⟩ := commits t hts
      have hrd (a : Nat) : t.rd a = s.rd a := rd_eq_of_recordless hts a
      refine ⟨t, u, hexec, regs_eq_of_recordless hts, huexec, ?_, huhi, fun a h1 h2 => ?_, fun hs => ?_, ?_⟩
      · rw [hulo, hstage]; rfl
      · rw [hurest a h1 h2, hrd]
      · have hs' : statusWord t f off = none := by rw [← statusWord_recordless, hts, statusWord_recordless, hs]
        obtain ⟨w, hwexec, hwdata, -, -⟩ := loRead_low (low.of_recordless hts).row hp hs'
        exact ⟨w, hwexec, hwdata.trans (reads_eq_of_recordless hts f off)⟩
      · obtain ⟨v, hvexec, hvt, hvstage⟩ := loWrite_stages (low.of_recordless hts) ((writeIgnored_congr hts f r off lo2).trans hlo2)
        have hvs := hvt.trans hts
        obtain ⟨w, hwexec, hwlo, hwhi, -⟩ := commits v hvs
        refine ⟨v, w, hvexec, regs_eq_of_recordless hvs, hwexec, ?_, hwhi⟩
        rw [hwlo, hvstage]; rfl
    · obtain ⟨u, huexec, hulo, huhi, hurest⟩ := commits s rfl
      refine ⟨u, huexec, huhi, fun a ha4 => ?_⟩
      by_cases hlow : a = setupAddr f off
      · rw [hlow, hulo, hnone]; rfl
      · exact hurest a hlow ha4
  · intro f off s r hrow hp hs
    obtain ⟨t, hexec, hdata, hregs, hlatch⟩ := loRead_low hrow hp hs
    refine ⟨t, hexec, hdata, hregs, fun u r' hu hrow' hp' hs' ha => ?_⟩
    exact loRead_high hrow' hp' hs' (by rw [hu, ha, hlatch])

end Sys2Proof.Machine
end

section
/-! The proofs below are elaborated one after another: side by side their threads' stacks take more memory than a check of the text allows. -/
set_option Elab.async false

section
/-! Every command in its frame, the run of the queue (1.4), and the cycles of REFCLK (2.5). -/
namespace Sys2Proof.Machine

/-! ## Every command runs in its frame -/

/-- Every command runs some effect in the one frame: it answers a next state, whatever the state. -/
theorem exec_ran (c : Instr) (s : State) : ∃ g, exec c s = .next (ran g s) := by
  cases c <;> exact ⟨_, rfl⟩

/-- A step runs the front command's effect with the queue's rest, or, with none waiting, lets a cycle pass. -/
theorem step_cases (s : State) :
    (s.pending = [] ∧ step s = .next (idle s))
      ∨ ∃ c rest g, s.pending = c :: rest ∧ step s = .next (ran g { s with pending := rest }) := by
  cases hp : s.pending with
  | nil => exact .inl ⟨rfl, by simp only [step, hp]⟩
  | cons c rest =>
    obtain ⟨g, hg⟩ := exec_ran c { s with pending := rest }
    exact .inr ⟨c, rest, g, rfl, by simp only [step, hp, hg]⟩

/-! ## A cycle of REFCLK -/

/-- A cycle changes nothing but the device time and the time base of its die. -/
theorem refclk_frame (d : Die) (s : State) :
    refclk d s = { s with timeA := (refclk d s).timeA, timeB := (refclk d s).timeB, tbases := (refclk d s).tbases } := by
  unfold refclk
  dsimp only
  split_ifs
  · rfl
  · cases d <;> rfl
  · rfl

theorem tbase_setTbase_same (d : Die) (x : TimeBase) (s : State) : (setTbase d x s).tbase d = x := tget_tset_same _ _ _ _

theorem tbase_setTbase_ne {d e : Die} (h : e ≠ d) (x : TimeBase) (s : State) : (setTbase d x s).tbase e = s.tbase e :=
  tget_tset_ne _ (by cases d <;> cases e <;> simp_all [Die.idx]) _ _

theorem now_setNow_ne {d e : Die} (h : e ≠ d) (t : Nat) (s : State) : (setNow d t s).now e = s.now e := by
  cases d <;> cases e
  · exact absurd rfl h
  · rfl
  · rfl
  · exact absurd rfl h

theorem tbase_setNow (d e : Die) (t : Nat) (s : State) : (setNow d t s).tbase e = s.tbase e := by cases d <;> rfl

/-- A cycle of one die leaves the time of the other. -/
theorem refclk_other {d e : Die} (h : e ≠ d) (s : State) : (refclk d s).now e = s.now e ∧ (refclk d s).tbase e = s.tbase e := by
  unfold refclk
  dsimp only
  split_ifs
  · exact ⟨rfl, rfl⟩
  · exact ⟨now_setNow_ne h _ _, (tbase_setTbase_ne h _ _).trans (tbase_setNow _ _ _ _)⟩
  · exact ⟨rfl, tbase_setTbase_ne h _ _⟩

/-- With the fabric domain in reset, time stands. -/
theorem refclk_of_reset {s : State} (h : s.inReset.contains .fabric = true) (d : Die) : refclk d s = s := if_pos h

/-- Outside reset the counter ticks, and crossing 0xC4 carries it as it stood, unless it is down or stopped. -/
theorem refclk_runs {s : State} (h : s.inReset.contains .fabric = false) (d : Die) :
    (refclk d s).now d = (if xingUp s d 0xC4 = true ∧ (s.xing d 0xC4).stopped = false then (s.tbase d).counter else s.now d)
      ∧ (refclk d s).tbase d = (s.tbase d).tick := by
  unfold refclk
  rw [if_neg (by rw [h]; exact Bool.false_ne_true)]
  dsimp only
  refine ⟨?_, tbase_setTbase_same _ _ _⟩
  split_ifs
  · exact setNow_now
  · rfl

/-- What a cycle of one die leaves decides whether the other die's counter crosses. -/
theorem refclk_keeps_crossing (d e : Die) (s : State) :
    (refclk d s).inReset = s.inReset ∧ xingUp (refclk d s) e 0xC4 = xingUp s e 0xC4 ∧ (refclk d s).xing e 0xC4 = s.xing e 0xC4 := by
  rw [refclk_frame]
  exact ⟨rfl, rfl, rfl⟩

/-- With nothing commanded each die's time goes on as its own cycle moves it. -/
theorem idle_time (s : State) (d : Die) : (idle s).now d = (refclk d s).now d ∧ (idle s).tbase d = (refclk d s).tbase d := by
  obtain ⟨hr, hx, hs⟩ := refclk_keeps_crossing .a .b s
  cases d with
  | a => exact refclk_other (by decide) _
  | b =>
    obtain ⟨hn, ht⟩ := refclk_other (d := .a) (e := .b) (by decide) s
    unfold idle
    cases h : s.inReset.contains .fabric with
    | true =>
      rw [refclk_of_reset h .a]
      exact ⟨rfl, rfl⟩
    | false =>
      have h' : (refclk .a s).inReset.contains .fabric = false := by rw [hr, h]
      obtain ⟨h1, h2⟩ := refclk_runs h .b
      obtain ⟨h3, h4⟩ := refclk_runs h' .b
      exact ⟨by rw [h3, h1, hx, hs, hn, ht], by rw [h4, h2, ht]⟩

/-- With nothing commanded only time changes. -/
theorem idle_frame (s : State) : idle s = { s with timeA := (idle s).timeA, timeB := (idle s).timeB, tbases := (idle s).tbases } := by
  unfold idle
  rw [refclk_frame .b, refclk_frame .a s]

/-! ## The statements about steps and runs -/

/-- Settles O1, by the case of a queue that is not empty. -/
theorem stepRunsFrontCommand : Obligations.StepRunsFrontCommand := by
  intro c rest s hp
  simp only [step, hp]

/-- Settles O2: each die's own cycle moves its time, and `TimeBase.tick` has the four cases of Table 18.4. -/
theorem emptyQueueLetsTimePass : Obligations.EmptyQueueLetsTimePass := by
  intro s hp
  refine ⟨idle s, by simp only [step, hp], idle_frame s, fun d => ?_⟩
  obtain ⟨hnow, hbase⟩ := idle_time s d
  rw [hnow, hbase]
  refine ⟨fun hr => by rw [refclk_of_reset hr]; exact ⟨rfl, rfl⟩, fun hr => ?_⟩
  obtain ⟨hcross, htick⟩ := refclk_runs hr d
  rw [htick]
  refine ⟨hcross, fun h0 => if_pos h0, fun h0 hc => ?_, fun h0 hc => ?_, fun h0 hc => ?_⟩
  · rw [TimeBase.tick, if_neg h0, if_pos hc]
  · rw [TimeBase.tick, if_neg (by omega), if_neg (by omega), if_pos h0]
  · rw [TimeBase.tick, if_neg (by omega), if_neg (by omega), if_neg (by omega)]

/-- Settles O3: memory after reset is empty. -/
theorem resetMemoryIsCanonical : Obligations.ResetMemoryIsCanonical := rfl

/-- Settles O4: a command's writes reach memory in canonical form, and a cycle of REFCLK leaves memory alone. -/
theorem stepKeepsMemoryCanonical : Obligations.StepKeepsMemoryCanonical := by
  intro s t hs hst
  obtain ⟨-, h⟩ | ⟨c, rest, g, -, h⟩ := step_cases s <;> rw [h, Host.Outcome.next.injEq] at hst <;> subst hst
  · rw [idle_frame]; exact hs
  · exact ran_inv g (s := { s with pending := rest }) hs

/-- Settles O5: the frame in which every command runs has these three properties. -/
theorem commandsKeepQueueAndOtherMemory : Obligations.CommandsKeepQueueAndOtherMemory := by
  intro c s hs
  obtain ⟨g, hg⟩ := exec_ran c s
  refine ⟨ran g s, hg, ran_pending g s, fun k => ?_⟩
  rw [ran_memGet g hs]
  cases outByte k (ran g s).out <;> rfl

/-- A step answers a next state, keeps memory canonical and takes the front of the queue. -/
theorem step_takes_front {s : State} (hs : s.Inv) : ∃ t, step s = .next t ∧ t.Inv ∧ t.pending = s.pending.drop 1 := by
  obtain ⟨hp, h⟩ | ⟨c, rest, g, hp, h⟩ := step_cases s
  · refine ⟨_, h, stepKeepsMemoryCanonical s _ hs h, ?_⟩
    rw [idle_frame, hp]
    rfl
  · exact ⟨_, h, stepKeepsMemoryCanonical s _ hs h, by rw [hp]; rfl⟩

/-- A run goes on from the state that its first step answers. -/
theorem run_succ {M : Host.Core} {s t : M.State} (h : M.step s = .next t) (n : Nat) : M.run (n + 1) s = M.run n t := by
  simp only [Host.Core.run, h]

/-- Settles O6, by induction on the number of steps. -/
theorem runsTakeCommandsInOrder : Obligations.RunsTakeCommandsInOrder := by
  intro n
  induction n with
  | zero => exact fun s hs => ⟨s, rfl, hs, rfl⟩
  | succ n ih =>
    intro s hs
    obtain ⟨t, ht, hti, htp⟩ := step_takes_front hs
    obtain ⟨u, hu, hui, hup⟩ := ih t hti
    refine ⟨u, ?_, hui, ?_⟩
    · exact (run_succ (M := core) ht n).trans hu
    · rw [hup, htp, List.drop_drop, Nat.add_comm]

end Sys2Proof.Machine
end

section
/-! Writes of set-up space (R8, R41, R494, R495): what a register and its fields read after them, the masks of a plain write, and the
values that crossings carry. -/
namespace Sys2Proof.Machine

/-! ## Registers and fields after a write -/

theorem rd_wrF_same (a : Nat) (f : Fld) (v : Nat) (s : State) : (wrF a f v s).rd a = f.put v (s.rd a) := rd_wr_same _ _ _
theorem rd_wrF_ne {a b : Nat} (h : a ≠ b) (f : Fld) (v : Nat) (s : State) : (wrF b f v s).rd a = s.rd a := rd_wr_ne h _ _
theorem rd_wrB_ne {a b : Nat} (h : a ≠ b) (f : Fld) (v : Bool) (s : State) : (wrB b f v s).rd a = s.rd a := rd_wr_ne h _ _
theorem rd_satF_ne {a b : Nat} (h : a ≠ b) (f : Fld) (n : Nat) (s : State) : (satF b f n s).rd a = s.rd a := rd_wr_ne h _ _
theorem rdF_wr_same (a : Nat) (f : Fld) (v : Word) (s : State) : (wr a v s).rdF a f = f.get v := by simp only [State.rdF, rd_wr_same]
theorem rdF_wr_ne {a b : Nat} (h : a ≠ b) (f : Fld) (v : Word) (s : State) : (wr b v s).rdF a f = s.rdF a f := by
  simp only [State.rdF, rd_wr_ne h]
theorem flag_wr_ne {a b : Nat} (h : a ≠ b) (f : Fld) (v : Word) (s : State) : (wr b v s).flag a f = s.flag a f := by
  simp only [State.flag, rdF_wr_ne h]
theorem flag_wrF_ne {a b : Nat} (h : a ≠ b) (f g : Fld) (v : Nat) (s : State) : (wrF b f v s).flag a g = s.flag a g := flag_wr_ne h _ _ _
theorem flag_wrF_other (a : Nat) (f g : Fld) (v : Nat) (s : State) (h : f.lo + f.len ≤ 32)
    (hd : g.lo + g.len ≤ f.lo ∨ f.lo + f.len ≤ g.lo) : (wrF a f v s).flag a g = s.flag a g := by
  simp only [State.flag, rdF_wrF_other a f g v s h hd]
theorem rdF_wrB_ne {a b : Nat} (h : a ≠ b) (f g : Fld) (v : Bool) (s : State) : (wrB b f v s).rdF a g = s.rdF a g := rdF_wrF_ne h _ _ _ _
theorem rdF_wrB_other (a : Nat) (f g : Fld) (v : Bool) (s : State) (h : f.lo + f.len ≤ 32)
    (hd : g.lo + g.len ≤ f.lo ∨ f.lo + f.len ≤ g.lo) : (wrB a f v s).rdF a g = s.rdF a g := rdF_wrF_other a f g _ s h hd
theorem rdF_satF_ne {a b : Nat} (h : a ≠ b) (f g : Fld) (n : Nat) (s : State) : (satF b f n s).rdF a g = s.rdF a g := rdF_wrF_ne h _ _ _ _
theorem flag_satF_ne {a b : Nat} (h : a ≠ b) (f g : Fld) (n : Nat) (s : State) : (satF b f n s).flag a g = s.flag a g := flag_wr_ne h _ _ _

/-- A counter that saturates reads its sum with what was added, cut at its largest value. -/
theorem rdF_satF_same (a : Nat) (f : Fld) (n : Nat) (s : State) (h : f.lo + f.len ≤ 32) :
    (satF a f n s).rdF a f = min (2 ^ f.len - 1) (s.rdF a f + n) := by
  have : 0 < 2 ^ f.len := Nat.two_pow_pos _
  rw [satF, rdF_wrF_same _ _ _ _ h, Nat.mod_eq_of_lt (by omega)]

/-- A field whose value fits reads back whole. -/
theorem rdF_wrF_of_lt {a : Nat} {f : Fld} {v : Nat} {s : State} (h : f.lo + f.len ≤ 32) (hv : v < 2 ^ f.len) : (wrF a f v s).rdF a f = v := by
  rw [rdF_wrF_same _ _ _ _ h, Nat.mod_eq_of_lt hv]

/-! Registers read the same in states of one part that hold the same ones. -/

theorem rd_congr {s t : State} (hr : t.regs = s.regs) (hp : t.part = s.part) (a : Nat) : t.rd a = s.rd a := by
  rw [State.rd, State.rd, hr, hp]
theorem rdF_congr {s t : State} (hr : t.regs = s.regs) (hp : t.part = s.part) (a : Nat) (f : Fld) : t.rdF a f = s.rdF a f := by
  rw [State.rdF, State.rdF, rd_congr hr hp]
theorem flag_congr {s t : State} (hr : t.regs = s.regs) (hp : t.part = s.part) (a : Nat) (f : Fld) : t.flag a f = s.flag a f := by
  rw [State.flag, State.flag, rdF_congr hr hp]

/-! ## Commands whose effect sends nothing out -/

/-- A command whose effect sends nothing out, and leaves memory and the queue alone, leaves the effect's own state. -/
theorem ran_silent {g : State → State} {s : State} (ho : (g (fresh s)).out = []) (hm : (g (fresh s)).mem = s.mem)
    (hp : (g (fresh s)).pending = s.pending) : ran g s = g (fresh s) := by
  have hmem : applyOut (g (fresh s)).out s.mem = (g (fresh s)).mem := by rw [ho, hm]; rfl
  rw [ran, hmem, ← hp]

/-! ## Accesses that break R8 -/

/-- The first access of a wrong form is counted, and its size, direction and offset are kept (R495). -/
theorem logMisaligned_first {f : Fun} {write : Bool} {off size : Nat} {s : State} (hf : setupFn s f = true) (hr : s.inReset.contains .pcie = false)
    (hs : ¬(size = 4 ∧ off % 4 = 0)) (hv : s.flag (ACCESS_LOG_INFO f) ACCESS_LOG_INFO_VALID = false) (ho : off < 2 ^ 26) :
    logMisaligned f write off size s =
      (s |> satF (ACCESS_LOG_COUNT f) ACCESS_LOG_COUNT_COUNT 1
        |> wrB (ACCESS_LOG_INFO f) ACCESS_LOG_INFO_VALID true |> wrB (ACCESS_LOG_INFO f) ACCESS_LOG_INFO_WRITE write
        |> wrF (ACCESS_LOG_INFO f) ACCESS_LOG_INFO_SIZE (logSize size) |> wrF (ACCESS_LOG_ADDR f) ACCESS_LOG_ADDR_OFFSET off) := by
  have hb : bar2Off off = none := bar2Off_of_lt (by omega)
  have hne : ACCESS_LOG_INFO f ≠ ACCESS_LOG_COUNT f := by unfold ACCESS_LOG_INFO ACCESS_LOG_COUNT; omega
  rw [logMisaligned, if_neg (by rw [hf, hr, hb]; simpa using hs)]
  dsimp only
  rw [flag_satF_ne hne, hv]
  rfl

theorem logSize_lt (size : Nat) : logSize size < 2 ^ 3 := by unfold logSize; split_ifs <;> decide

/-- An aligned doorbell apart, an access of a wrong form leaves what the access log does, and a read returns zero. -/
theorem misaligned_logs {f : Fun} {write : Bool} {off size : Nat} {s : State} (hs : ¬(size = 4 ∧ off % 4 = 0)) (hdb : onDoorbells f off = false) :
    ∃ w, misaligned f write off size s = { logMisaligned f write off size s with readData := w } ∧ (write = false → w = 0) := by
  rw [misaligned, hdb, if_neg (by simp)]
  cases write with
  | true => exact ⟨_, rfl, fun h => absurd h (by decide)⟩
  | false => exact ⟨0, by rw [if_neg hs]; rfl, fun _ => rfl⟩

theorem accessLog_apart (f : Fun) : ACCESS_LOG_INFO f ≠ ACCESS_LOG_ADDR f ∧ ACCESS_LOG_COUNT f ≠ ACCESS_LOG_ADDR f ∧ ACCESS_LOG_COUNT f ≠ ACCESS_LOG_INFO f := by
  unfold ACCESS_LOG_INFO ACCESS_LOG_COUNT ACCESS_LOG_ADDR
  omega

/-- Settles O8: the access log takes the first access, and nothing else but the word read changes. -/
theorem misalignedAccessIsLogged : Obligations.MisalignedAccessIsLogged := by
  intro f write off size s hf hr hs hdb hv ho
  obtain ⟨w, hw, hw0⟩ := misaligned_logs (f := f) (write := write) (s := fresh s) hs hdb
  rw [logMisaligned_first (s := fresh s) hf hr hs hv ho] at hw
  have hquiet : ran (misaligned f write off size) s = misaligned f write off size (fresh s) := by
    apply ran_silent <;> rw [hw] <;> rfl
  refine ⟨ran (misaligned f write off size) s, rfl, ?_⟩
  rw [hquiet, hw]
  refine ⟨hw0, ?_⟩
  generalize hu : (fresh s |> satF (ACCESS_LOG_COUNT f) ACCESS_LOG_COUNT_COUNT 1
        |> wrB (ACCESS_LOG_INFO f) ACCESS_LOG_INFO_VALID true |> wrB (ACCESS_LOG_INFO f) ACCESS_LOG_INFO_WRITE write
        |> wrF (ACCESS_LOG_INFO f) ACCESS_LOG_INFO_SIZE (logSize size) |> wrF (ACCESS_LOG_ADDR f) ACCESS_LOG_ADDR_OFFSET off) = u
  have hreads : (u.flag (ACCESS_LOG_INFO f) ACCESS_LOG_INFO_VALID = true ∧ u.flag (ACCESS_LOG_INFO f) ACCESS_LOG_INFO_WRITE = write)
      ∧ (u.rdF (ACCESS_LOG_INFO f) ACCESS_LOG_INFO_SIZE = logSize size ∧ u.rdF (ACCESS_LOG_ADDR f) ACCESS_LOG_ADDR_OFFSET = off)
      ∧ u.rdF (ACCESS_LOG_COUNT f) ACCESS_LOG_COUNT_COUNT = min 0xFFFFFFFF (s.rdF (ACCESS_LOG_COUNT f) ACCESS_LOG_COUNT_COUNT + 1) := by
    subst hu
    obtain ⟨hia, hca, hci⟩ := accessLog_apart f
    simp (disch := decide) only [flag_wrF_ne hia, flag_wrF_other, flag_wrB_same, flag_wrB_other, rdF_wrF_same, rdF_wrF_ne hia, rdF_wrF_ne hca, rdF_wrF_ne hci,
      rdF_wrB_ne hci, rdF_satF_same]
    exact ⟨⟨trivial, trivial⟩, ⟨Nat.mod_eq_of_lt (logSize_lt size), Nat.mod_eq_of_lt ho⟩, by simp [ACCESS_LOG_COUNT_COUNT]⟩
  obtain ⟨⟨hvalid, hwrite⟩, ⟨hsize, hoff⟩, hcount⟩ := hreads
  have hkeeps : u.rings = s.rings ∧ u.routes = s.routes ∧ u.mem = s.mem := by subst hu; exact ⟨rfl, rfl, rfl⟩
  have hflag : ∀ a g, { u with readData := w }.flag a g = u.flag a g := flag_congr rfl rfl
  have hrdF : ∀ a g, { u with readData := w }.rdF a g = u.rdF a g := rdF_congr rfl rfl
  exact ⟨(hflag _ _).trans hvalid, (hflag _ _).trans hwrite, (hrdF _ _).trans hsize, (hrdF _ _).trans hoff, (hrdF _ _).trans hcount, hkeeps⟩

/-! ## Plain writes -/

theorem all_ite {α : Type} {p : α → Bool} {c : Prop} [Decidable c] {a b : List α} (ha : a.all p = true) (hb : b.all p = true) :
    (if c then a else b).all p = true := by
  split
  · exact ha
  · exact hb

/-- The masks of every register entry are 32-bit words. -/
theorem blockRows_rw_lt (off : Nat) : (blockRows off).all (fun r => decide (r.rw < 2 ^ 32)) = true := by
  rw [blockRows]
  repeat refine all_ite (by decide +kernel) ?_
  decide +kernel

theorem rw_lt_of_accessRow {s : State} {f : Fun} {off : Nat} {r : RegRow} (h : accessRow s f off = some r) : r.rw < 2 ^ 32 :=
  of_decide_eq_true (List.all_eq_true.mp (blockRows_rw_lt off) r (List.mem_of_find?_eq_some (findRow_of_accessRow h)))

/-- A masked write bit by bit: a bit that software may write takes the value's, any other stays unless a one clears it. -/
theorem testBit_masked {r : RegRow} (h : r.rw < 2 ^ 32) (old : Nat) {v i : Nat} (hv : v < 2 ^ 32) (hi : i < 32) :
    (masked r old v).testBit i = if r.rw.testBit i then v.testBit i else old.testBit i && !(r.w1c.testBit i && v.testBit i) := by
  have hm : Nat.lor r.rw (Nat.land r.w1c v) < 2 ^ 32 := Nat.or_lt_two_pow h (Nat.lt_of_le_of_lt Nat.and_le_right hv)
  have hc : (2 ^ 32 - 1 - Nat.lor r.rw (Nat.land r.w1c v)).testBit i = !(r.rw.testBit i || r.w1c.testBit i && v.testBit i) := by
    rw [Nat.sub_sub, Nat.add_comm 1, Nat.testBit_two_pow_sub_succ hm]
    have hx : (Nat.lor r.rw (Nat.land r.w1c v)).testBit i = (r.rw.testBit i || r.w1c.testBit i && v.testBit i) := by
      rw [← Nat.testBit_and, ← Nat.testBit_or]; rfl
    rw [hx, decide_eq_true hi, Bool.true_and]
  have hm : masked r old v = (old &&& (2 ^ 32 - 1 - Nat.lor r.rw (Nat.land r.w1c v))) ||| (v &&& r.rw) := rfl
  rw [hm, Nat.testBit_or, Nat.testBit_and, Nat.testBit_and, hc]
  cases r.rw.testBit i <;> simp

/-- The word that a plain write gives a register. -/
def plainWord (s : State) (f : Fun) (r : RegRow) (off : Nat) (v : Word) : Word :=
  BitVec.ofNat 32 (masked r (s.rd (setupAddr f off)).toNat (writeShaped s f r off (s.rd (setupAddr f off)) v).toNat)

/-- Where nothing shapes the value, a plain write goes by the masks of the entry. -/
theorem getLsbD_plainWord {s : State} {f : Fun} {r : RegRow} {off : Nat} {v : Word} (ha : accessRow s f off = some r)
    (hs : writeShaped s f r off (s.rd (setupAddr f off)) v = v) {i : Nat} (hi : i < 32) :
    (plainWord s f r off v).getLsbD i = if r.rw.testBit i then v.getLsbD i
      else (s.rd (setupAddr f off)).getLsbD i && !(r.w1c.testBit i && v.getLsbD i) := by
  rw [plainWord, hs, BitVec.getLsbD_ofNat, decide_eq_true hi, Bool.true_and, testBit_masked (rw_lt_of_accessRow ha) _ v.isLt hi]
  rfl

/-- An entry without a rule of its own is none of those that have one. -/
theorem off_ne_of_ownRule {a b : Nat} (ha : ownRule a = false) (hb : ownRule b = true) : a ≠ b := by
  rintro rfl
  exact Bool.false_ne_true (ha.symm.trans hb)

/-- A write that an entry without a rule of its own takes, on the fabric side and toward its island. -/
theorem regWrite_plain {s : State} {f : Fun} {off : Nat} {v : Word} {r : RegRow} (hd : doorbellAt f off = none) (ha : accessRow s f off = some r)
    (hp : rowAbsent s f.ep r off = false) (hpair : r.pair = 0)
    (ho : ownRule r.off = false ∨ r.off = 0x3E00000) (hi : writeIgnored s f r off v = false) :
    regWrite f off v s = putReg f.ep r off (setupAddr f off) (plainWord s f r off v) s := by
  have hne : ∀ n, ownRule n = true → n ≠ 0x3E00000 → r.off ≠ n := by
    intro n hn hn'
    rcases ho with ho | ho
    · exact off_ne_of_ownRule ho hn
    · exact fun h => hn' (h.symm.trans ho)
  have hafter : ∀ t, afterWrite f r (setupAddr f off) v t = t := by
    intro t
    rw [afterWrite, if_neg, if_neg, if_neg]
    · exact hne _ (by decide) (by decide)
    · exact hne _ (by decide) (by decide)
    · rintro (h | h)
      · exact hne _ (by decide) (by decide) h
      · exact hne _ (by decide) (by decide) h
  have hplain : plainWrite f r off v s = putReg f.ep r off (setupAddr f off) (plainWord s f r off v) s := by
    simp only [plainWrite, hi, Bool.false_eq_true, if_false, hafter, plainWord]
  simp only [regWrite, bar2Off_of_accessRow ha, hd, ha, hp, hpair, Bool.false_eq_true, if_false]
  rw [if_neg (by decide), if_neg (by decide)]
  split
  case h_29 => exact hplain
  all_goals
    rename_i hoff
    exact absurd hoff (hne _ (by decide) (by decide))

/-! ## Values that cross to an island (R41) -/

theorem mem_queueBehind (a : Nat) (v : Word) (l : List (Nat × Word)) : (a, v) ∈ queueBehind a v l := by
  induction l with
  | nil => exact List.mem_singleton_self _
  | cons x t ih =>
    simp only [queueBehind]
    split
    · subst_vars; exact List.mem_cons_self
    · exact List.mem_cons_of_mem _ ih

theorem mem_queueValue (a : Nat) (v : Word) (l : List (Nat × Word)) : (a, v) ∈ queueValue a v l := by
  cases l with
  | nil => exact List.mem_singleton_self _
  | cons x t => exact List.mem_cons_of_mem _ (mem_queueBehind a v t)

theorem xing_setXing_same (d : Die) (n : Nat) (x : Xing) (s : State) : (setXing d n x s).xing d n = x := tget_tset_same _ _ _ _

theorem xing_setXing_ne {d : Die} {m n : Nat} (h : m ≠ n) (x : Xing) (s : State) : (setXing d n x s).xing d m = s.xing d m :=
  tget_tset_ne _ (by unfold xingKey; omega) _ _

/-- While the island's side is up, a value joins the crossing's queue, which shows it outstanding. -/
theorem carry_up {d : Die} {n : Nat} {s : State} (h : s.flag (XING_STATUS d n) XING_STATUS_PEER_RESET = false) (a : Nat) (v : Word) :
    carry d n a v s = (s |> wr a v |> setXing d n { s.xing d n with queue := queueValue a v (s.xing d n).queue }
      |> wrB (XING_STATUS d n) XING_STATUS_OUTSTANDING true) := by
  rw [carry, h]
  rfl

/-- The value waits in the crossing, which shows it outstanding. -/
def Crosses (d : Die) (a : Nat) (v : Word) (t : State) (n : Nat) : Prop :=
  t.flag (XING_STATUS d n) XING_STATUS_OUTSTANDING = true ∧ (a, v) ∈ (t.xing d n).queue

/-- The value of a register that is no crossing's status goes to each of a list of crossings whose island sides are up. -/
theorem carryAll_crosses {d : Die} {a : Nat} (ha : ∀ n, a ≠ XING_STATUS d n) (v : Word) (ns : List Nat) {s : State}
    (hup : ∀ n ∈ ns, s.flag (XING_STATUS d n) XING_STATUS_PEER_RESET = false) :
    let t := ns.foldl (fun t n => carry d n a v t) s
    (s.rd a = v → t.rd a = v) ∧ (∀ n ∈ ns, Crosses d a v t n) ∧ ∀ n, Crosses d a v s n → Crosses d a v t n := by
  induction ns generalizing s with
  | nil => exact ⟨id, by simp, fun _ => id⟩
  | cons n ns ih =>
    have hstep : carry d n a v s = _ := carry_up (hup n List.mem_cons_self) a v
    have hst : ∀ m, m ≠ n → XING_STATUS d m ≠ XING_STATUS d n := by intro m hm; unfold XING_STATUS; omega
    have hpeer : ∀ m, (carry d n a v s).flag (XING_STATUS d m) XING_STATUS_PEER_RESET = s.flag (XING_STATUS d m) XING_STATUS_PEER_RESET := by
      intro m
      rw [hstep]
      by_cases hm : m = n
      · subst hm
        rw [flag_wrB_other _ _ _ _ _ (by decide) (by decide)]
        simp only [setXing_keeps, flag_wr_ne (ha m).symm]
      · simp only [flag_wrB_ne (hst m hm), setXing_keeps, flag_wr_ne (ha m).symm]
    have hrd : (carry d n a v s).rd a = v := by
      simp only [hstep, rd_wrB_ne (ha n), setXing_keeps, rd_wr_same]
    have hself : Crosses d a v (carry d n a v s) n := by
      rw [hstep]
      refine ⟨flag_wrB_same _ _ _ _ (by decide) (by decide), ?_⟩
      simp only [wrB_keeps, xing_setXing_same]
      exact mem_queueValue _ _ _
    have hkeep : ∀ m, Crosses d a v s m → Crosses d a v (carry d n a v s) m := by
      intro m hm
      by_cases hmn : m = n
      · rw [hmn]; exact hself
      · rw [hstep]
        refine ⟨?_, ?_⟩
        · simp only [flag_wrB_ne (hst m hmn), setXing_keeps, flag_wr_ne (ha m).symm, hm.1]
        · simp only [wrB_keeps, xing_setXing_ne hmn, wr_keeps]
          exact hm.2
    obtain ⟨h1, h2, h3⟩ := ih (s := carry d n a v s) (fun m hm => (hpeer m).trans (hup m (List.mem_cons_of_mem _ hm)))
    refine ⟨fun _ => h1 hrd, ?_, fun m hm => h3 m (hkeep m hm)⟩
    rintro m (_ | ⟨_, hm⟩)
    · exact h3 n hself
    · exact h2 m hm

/-! ## EBRUM_CFG (Table 18.7) -/

/-- The entry of EBRUM_CFG stands at one offset, is no pair, and every part has it. -/
theorem ebrumCfg_row {s : State} {f : Fun} {off : Nat} {r : RegRow} (ha : accessRow s f off = some r) (hr : r.off = 0x3E00000) :
    off = 0x3E00000 ∧ r.pair = 0 ∧ rowAbsent s f.ep r off = false := by
  have hmem := List.mem_of_find?_eq_some (findRow_of_accessRow ha)
  have hhas : r.has off = true := by simpa only using List.find?_some (findRow_of_accessRow ha)
  have hlt := off_lt_of_findRow (findRow_of_accessRow ha)
  simp only [RegRow.has, Bool.and_eq_true, decide_eq_true_eq] at hhas
  obtain ⟨⟨⟨hlo, -⟩, hj⟩, hz⟩ := hhas
  have hrows : blockRows off = rowsEbrum := by
    simp only [blockRows]
    repeat rw [if_neg (by omega)]
  have hrow : ∀ r ∈ rowsEbrum, r.off = 0x3E00000 → r.s1 = 0x4000000 ∧ r.n2 = 1 ∧ r.s2 = 4 ∧ r.pair = 0 ∧ r.dom = .ebrum := by decide
  obtain ⟨h1, h2, h3, h4, h5⟩ := hrow r (hrows ▸ hmem) hr
  rw [h1, h3] at hj hz
  have hoff : off = 0x3E00000 := by omega
  refine ⟨hoff, h4, ?_⟩
  simp only [rowAbsent, h5, hoff]
  rfl

/-- An entry without a rule of its own has no island. -/
theorem carriedBy_of_ownRule {r : RegRow} (h : ownRule r.off = false) (off : Nat) : carriedBy r off = [] := by
  have hne : ∀ n, ownRule n = true → r.off ≠ n := fun n hn => off_ne_of_ownRule h hn
  rw [carriedBy, if_neg, if_neg, if_neg]
  · exact hne _ (by decide)
  · exact not_or.mpr ⟨hne _ (by decide), hne _ (by decide)⟩
  · exact not_or.mpr ⟨hne _ (by decide), hne _ (by decide)⟩

/-- Settles O10: the masks decide a plain write bit by bit, and the four crossings of EBRUM_CFG carry its new value. -/
theorem plainWriteTakesItsBits : Obligations.PlainWriteTakesItsBits := by
  refine ⟨fun f off v s r hd ha hp hpair ho hi hs => ?_, fun f off v s r hd ha hr hs hup => ?_⟩
  · have hw : regWrite f off v (fresh s) = wr (setupAddr f off) (plainWord s f r off v) (fresh s) := by
      rw [regWrite_plain (s := fresh s) hd ha hp hpair (.inl ho) hi, putReg, carriedBy_of_ownRule ho]; rfl
    refine ⟨ran (regWrite f off v) s, rfl, fun i hi32 => ?_, fun a hne => ?_⟩
    · rw [ran_rd, hw, rd_wr_same, getLsbD_plainWord ha hs hi32]
    · rw [ran_rd, hw, rd_wr_ne hne]; rfl
  · obtain ⟨rfl, hpair, hp⟩ := ebrumCfg_row ha hr
    have hi : writeIgnored s f r 0x3E00000 v = false := by simp [writeIgnored, hr]
    have hc : carriedBy r 0x3E00000 = [0xA2, 0xAA, 0xB2, 0xBA] := by simp [carriedBy, hr]
    have haddr : ∀ n, setupAddr f 0x3E00000 ≠ XING_STATUS f.ep n := by
      intro n
      rw [setupAddr, if_neg (by omega), XING_STATUS]
      omega
    have hw : regWrite f 0x3E00000 v (fresh s) = _ := regWrite_plain (s := fresh s) hd ha hp hpair (.inr hr) hi
    rw [putReg, hc, show plainWord (fresh s) f r 0x3E00000 v = plainWord s f r 0x3E00000 v from rfl] at hw
    generalize hu : wr (setupAddr f 0x3E00000) (plainWord s f r 0x3E00000 v) (fresh s) = u at hw
    have hrd : u.rd (setupAddr f 0x3E00000) = plainWord s f r 0x3E00000 v := by rw [← hu, rd_wr_same]
    obtain ⟨h1, h2, -⟩ := carryAll_crosses haddr (plainWord s f r 0x3E00000 v) [0xA2, 0xAA, 0xB2, 0xBA] (s := u) (fun n hn => by
      rw [← hu, flag_wr_ne (haddr n).symm]; exact hup n hn)
    refine ⟨ran (regWrite f 0x3E00000 v) s, rfl, fun i hi32 => ?_, ?_⟩
    · rw [ran_rd, hw, h1 hrd, getLsbD_plainWord ha hs hi32]
    · rw [ran_rd, hw, h1 hrd]
      simp only [ran_reads, hw]
      exact h2

end Sys2Proof.Machine
end

section
/-! The way of one descriptor: its checks, its work, and the posting of its completion (R63, R66, R75). -/
namespace Sys2Proof.Machine

/-! ## A descriptor whose route lives on the other die -/

/-- PF0 of die A, its SETUP ring, and a delete of route 0x8001, a route of die B. -/
def splitRing : RingId := ⟨⟨.a, 0⟩, 0⟩
def splitDelete : Desc := BitVec.ofNat 512 (0x12 + 0x8001 * 2 ^ 32)

/-- A layer route of die B that PF0 of die A created. -/
def splitRoute : Route := ⟨1, 1, ⟨.a, 0⟩, ⟨.a, 0⟩, 0, 0, 0, none⟩

/-- The dies are split, the ring is enabled, and the route is live. -/
def splitState : State :=
  { State.reset with inReset := [], split := true, routes := [(0x8001, splitRoute)], regs := [(RING_CFG splitRing, BitVec.ofNat 32 (4 + 2 ^ 16))] }

/-- Nothing that `Begins` names keeps the delete from its work. -/
theorem splitDelete_begins : Begins opRouteDelete splitRing splitDelete (fresh splitState) := by
  refine ⟨⟨?_, ?_, ?_, ?_, ?_⟩, ?_, ?_, ?_, ?_, ?_, ?_⟩ <;> decide +kernel

/-- In a split the work of a route of the other die is not done: the descriptor completes with PEER_LOST (R451). -/
theorem splitDelete_keeps_route : (ran (submit opRouteDelete splitRing splitDelete) splitState).routes = [(0x8001, splitRoute)] := by
  decide +kernel

/-- The opcode's own work deletes the route. -/
theorem splitDelete_work_deletes : (worked opRouteDelete splitRing splitDelete (fresh splitState)).2.routes = [] := by
  decide +kernel

/-- Posting leaves the routes. -/
theorem Posted.routes {s t : State} (h : Posted s t) : t.routes = s.routes := (congrArg State.routes h :)

/-- Refutes O11: `Begins` does not exclude a route of the other die in a split, whose descriptor completes with PEER_LOST (R14, R451) and
does none of its work: a ROUTE_DELETE leaves its route live. -/
theorem not_descriptorsDoTheirWork : ¬ Obligations.DescriptorsDoTheirWork := by
  intro h
  have hrow : descRow (.routeDelete splitRing splitDelete) = some (opRouteDelete, splitRing, splitDelete) := rfl
  obtain ⟨t, ht, -, hp, -⟩ := h _ _ _ _ splitState hrow splitDelete_begins
  rw [exec_descRow hrow, Host.Outcome.next.injEq] at ht
  have hr := hp.routes
  rw [← ht, splitDelete_keeps_route, splitDelete_work_deletes] at hr
  exact List.cons_ne_nil _ _ hr

/-! ## Descriptors that are held, and those that fail a check -/

/-- A descriptor that its ring, its units or its opcode holds stays unfetched (R63, R439). -/
theorem submit_held {o : OpSpec} {q : RingId} {d : Desc} {s : State}
    (h : ringServes s q = false ∨ (o.held = true ∧ unitsStopped s (o.units q d s) = true) ∨ o.defer q d s = true) : submit o q d s = s := if_pos h

/-- The flight of a descriptor that failed a check joins its ring, completed. -/
def failedState (s : State) (q : RingId) (d : Desc) (x : Nat × Nat) : State :=
  setRing q { s.ringAux q with flights := (s.ringAux q).flights ++ [complete (oneFlight s q d) x.1 x.2] } { s with nextTag := s.nextTag + 1 }

/-- The first check that fails ends the descriptor: its flight is completed, and its ring settles (R66). -/
theorem submit_failed {o : OpSpec} {q : RingId} {d : Desc} {s : State} {x : Nat × Nat} (ht : Taken o q d s)
    (hc : checkDesc (some o) q 0 d s = some x) : submit o q d s = settle q (failedState s q d x) := by
  have ⟨_, _, _, _, hfits⟩ := ht
  obtain ⟨st, dt⟩ := x
  rw [submit_taken ht]
  unfold submitAll
  rw [checkAll_one, if_pos hfits, hc]
  rfl

/-- Of a state only the number of the next flight was given back. -/
theorem unposted_nextTag {s t : State} (h : Posted s t) (n : Nat) : unposted { t with nextTag := n } = unposted { s with nextTag := n } :=
  congrArg (fun u : State => { u with nextTag := n }) h

theorem flights_failedState (s : State) (q : RingId) (d : Desc) (x : Nat × Nat) :
    ((failedState s q d x).ringAux q).flights = (s.ringAux q).flights ++ [complete (oneFlight s q d) x.1 x.2] := by
  simp [failedState, State.ringAux, setRing]

/-- A flight that joins a ring names the completion ring of the ring. -/
theorem cqsOk_failedState {s : State} {q : RingId} (hq : cqsOk s q) (hc : s.rdF (RING_CFG q) RING_CFG_CQ < 16) (d : Desc) (x : Nat × Nat) :
    cqsOk (failedState s q d x) q := by
  intro f hf
  rw [flights_failedState, List.mem_append, List.mem_singleton] at hf
  rcases hf with hf | rfl
  · exact hq f hf
  · exact hc

/-- Settles O12: a held descriptor leaves the state as it is, and the settling of a ring is all posting. -/
theorem heldOrFailedDescriptorsChangeNothingElse : Obligations.HeldOrFailedDescriptorsChangeNothingElse := by
  refine ⟨fun i o q d s hi hheld => ?_, fun i o q d s x hi ht hc => ?_⟩
  · rw [exec_descRow hi, ran_same (submit_held (s := fresh s) hheld)]
  · have hrun := submit_failed ht hc
    obtain ⟨hfields, hregs⟩ := posted_ran (submit o q d) s
    rw [hrun] at hfields hregs
    refine ⟨_, exec_descRow hi s, rfl, ?_, fun hq hcqs hcq => ?_⟩
    · obtain ⟨hset, -⟩ := settle_posts (ok := False) False.elim (s := failedState (fresh s) q d x) False.elim
      exact unposted_nextTag (hfields.trans hset) s.nextTag
    · obtain ⟨-, hset⟩ := settle_posts (ok := True) (fun _ => hq) (s := failedState (fresh s) q d x) (fun _ => cqsOk_failedState hcqs hcq d x)
      exact fun a ha => (hregs a ha).trans (hset trivial a ha)

end Sys2Proof.Machine
end

section
/-! Writes of PF0 with both stages off (4.3): where they land, and what a completion leaves in host memory (3.5). -/
namespace Sys2Proof.Machine

/-! ## What left the device -/

theorem outByte_append (k : Nat) (a b : List Out) : outByte k (a ++ b) = (outByte k b).or (outByte k a) := by
  induction a with
  | nil => simp [outByte]
  | cons x a ih =>
    cases x <;> simp only [List.cons_append, outByte, ih] <;> cases outByte k b <;> simp

/-- Nothing of it reached memory. -/
def NoMem (o : List Out) : Prop := ∀ k, outByte k o = none

theorem noMem_nil : NoMem [] := fun _ => rfl

theorem outByte_append_noMem {a b : List Out} (h : NoMem b) (k : Nat) : outByte k (a ++ b) = outByte k a := by
  rw [outByte_append, h k, Option.none_or]

/-- A byte of a write, or none outside it. -/
theorem outByte_mem (k j : Nat) (bs : List Byte) : outByte k [.mem j bs] = if j ≤ k then bs[k - j]? else none := rfl

/-! ## Translation with both stages off -/

/-- PF0 with both stages off and the link whole: the translations that the device holds leave an address as it is. -/
structure Untranslated (f : Fun) (s : State) : Prop where
  pf0 : f.fn = 0
  s1 : s.rdF (XLATE_CTRL f) XLATE_CTRL_S1_EN = 0
  s2 : s.rdF (XLATE_CTRL f) XLATE_CTRL_S2_EN = 0
  whole : s.split = false
  held : ∀ e ∈ s.tlb, e.out = e.page ∧ e.local_ = false

theorem Untranslated.congr {f : Fun} {s t : State} (h : Untranslated f s) (hx : ∀ g, t.rdF (XLATE_CTRL f) g = s.rdF (XLATE_CTRL f) g)
    (hs : t.split = s.split) (ht : t.tlb = s.tlb) : Untranslated f t :=
  ⟨h.pf0, by rw [hx, h.s1], by rw [hx, h.s2], by rw [hs, h.whole], by rw [ht]; exact h.held⟩

/-- Both stages answer the address itself. -/
theorem walkBoth_untranslated {f : Fun} {s : State} (h : Untranslated f s) (d : Die) {va : Nat} (hv : va < 2 ^ 48) (w : Bool) :
    walkBoth s d f va w = .ok (⟨va, false, true, true, true, 7⟩, ⟨va, false, true, true, true, 7⟩) := by
  have h1 : stage1 s d f va w = .ok ⟨va, false, true, true, true, 7⟩ := by rw [stage1, if_neg (by omega), if_pos h.s1]
  have h2 : stage2 s d f va w = .ok ⟨va, false, true, true, true, 7⟩ := by rw [stage2, if_pos h.s2]
  simp only [walkBoth, h.pf0, h1, h2, ne_eq, not_true_eq_false, false_and, if_false]

/-- A translation leads to host memory at the address, and what the device holds stays of that kind. -/
theorem xlate_untranslated {f : Fun} {s : State} (h : Untranslated f s) (d : Die) {va : Nat} (hv : va < 2 ^ 48) (w : Bool) :
    ∃ tl, xlate d f va w s = (.ok (hostKey s f.ep va), { s with tlb := tl }) ∧ Untranslated f { s with tlb := tl } := by
  have hhost : checkHost s d f va = .ok (hostKey s f.ep va) := by simp [checkHost, h.whole]
  have hwalk := walkBoth_untranslated h d hv w
  cases hf : tlbFind s f va w with
  | none =>
    refine ⟨⟨f, va / 4096, va / 4096, va / 4096, false, true, true, true⟩ :: s.tlb.filter (fun x => !(x.f == f && x.page == va / 4096)),
      by simp only [xlate, hf, hwalk, Bool.false_eq_true, if_false, hhost, Bool.and_self], h.pf0, h.s1, h.s2, h.whole, fun e he => ?_⟩
    simp only [List.mem_cons, List.mem_filter] at he
    rcases he with rfl | ⟨he, -⟩
    · exact ⟨rfl, rfl⟩
    · exact h.held e he
  | some e =>
    have hmem := List.mem_of_find?_eq_some hf
    have hpage : e.page = va / 4096 := by
      have := List.find?_some hf
      simp only [Bool.and_eq_true, beq_iff_eq] at this
      exact this.1.2
    obtain ⟨hout, hloc⟩ := h.held e hmem
    refine ⟨s.tlb, ?_, h⟩
    simp only [xlate, hf, hwalk, hout, hpage, hloc, and_self, if_true, Bool.false_eq_true, if_false, hhost]

/-- The state that a write of host memory at an address leaves, with what the device then holds of translations. -/
def landed (f : Fun) (va : Nat) (bs : List Byte) (tl : List TlbEntry) (s : State) : State :=
  { s with tlb := tl } |> emit (.mem (hostKey s f.ep va) bs) |> unpoison (hostKey s f.ep va) bs.length

theorem landed_out (f : Fun) (va : Nat) (bs : List Byte) (tl : List TlbEntry) (s : State) :
    (landed f va bs tl s).out = s.out ++ [.mem (hostKey s f.ep va) bs] ∧ (landed f va bs tl s).regs = s.regs ∧ (landed f va bs tl s).part = s.part :=
  ⟨rfl, rfl, rfl⟩

theorem hostKey_congr {s t : State} (h : t.part = s.part) (d : Die) (a : Nat) : hostKey t d a = hostKey s d a := by rw [hostKey, hostKey, h]

/-- A write that stays in its page lands in host memory. -/
theorem dmaWriteRaw_untranslated {f : Fun} {s : State} (h : Untranslated f s) (d : Die) {va : Nat} {bs : List Byte} (hn : bs ≠ [])
    (hv : va + bs.length ≤ 2 ^ 48) (hp : va % 4096 + bs.length ≤ 4096) :
    ∃ tl, dmaWriteRaw d f va bs s = (none, landed f va bs tl s) ∧ Untranslated f (landed f va bs tl s) := by
  have hl : 0 < bs.length := List.length_pos_iff.mpr hn
  obtain ⟨tl, hx, hu⟩ := xlate_untranslated h d (va := va) (by omega) true
  have hm : min bs.length (4096 - va % 4096) = bs.length := by omega
  have hr : xlateRange d f true (bs.length / 4096 + 2) va bs.length s = (.ok [(hostKey s f.ep va, bs.length)], { s with tlb := tl }) := by
    rw [xlateRange, if_neg (by omega)]
    simp only [hx, hm, Nat.sub_self]
    rw [xlateRange, if_pos rfl]
  refine ⟨tl, ?_, hu.congr (fun _ => rfl) rfl rfl⟩
  simp only [dmaWriteRaw, hr, putChunks, List.take_length]
  rfl

/-! ## The common opcodes (R65) -/

theorem dmaWrite_of_ok {d : Die} {f : Fun} {va ring : Nat} {bs : List Byte} {s t : State} (h : dmaWriteRaw d f va bs s = (none, t)) :
    dmaWrite d f ring va bs s = (none, t) := by
  simp only [dmaWrite, h]

theorem length_leBytes (n x : Nat) : (leBytes n x).length = n := by
  induction n generalizing x with
  | zero => rfl
  | succ n ih => rw [leBytes, List.length_cons, ih]

/-- What a descriptor's flight adds to the state bears on no translation. -/
theorem Untranslated.handed {o : OpSpec} {q : RingId} {d : Desc} {s : State} (h : Untranslated q.fn s) (hpre : ∀ t, o.pre q d t = (none, t)) :
    Untranslated q.fn (handed o q d s) := by
  rw [Machine.handed, hpre]
  exact h.congr (fun _ => rfl) rfl rfl

/-- An aligned write of eight bytes at ADDR leaves as they are, and succeeds. -/
theorem dmaWrite_word {f : Fun} {s : State} (h : Untranslated f s) (d : Die) (ring : Nat) {va : Nat} (x : Nat) (hv : va + 8 ≤ 2 ^ 48) (hp : va % 8 = 0) :
    ∃ t, dmaWrite d f ring va (leBytes 8 x) s = (none, t) ∧ t.out = s.out ++ [.mem (hostKey s f.ep va) (leBytes 8 x)] := by
  have hl := length_leBytes 8 x
  obtain ⟨tl, hw, -⟩ := dmaWriteRaw_untranslated h d (va := va) (bs := leBytes 8 x) (by rw [← List.length_pos_iff]; omega) (by omega) (by omega)
  exact ⟨_, dmaWrite_of_ok hw, rfl⟩

theorem worked_opTimestamp {q : RingId} {d : Desc} {s t : State} (h : dmaWrite q.fn.ep q.fn q.ring (dget d 8 0 64)
    (leBytes 8 ((handed opTimestamp q d s).now q.fn.ep)) (handed opTimestamp q d s) = (none, t)) : worked opTimestamp q d s = (some (stOk, 0), t) := by
  rw [worked]
  generalize handed opTimestamp q d s = u at *
  simp only [opTimestamp, mkOp, oneTicket, h]

theorem worked_opWriteValue {q : RingId} {d : Desc} {s t : State} (h : dmaWrite q.fn.ep q.fn q.ring (dget d 8 0 64)
    (leBytes 8 (dget d 16 0 64)) (handed opWriteValue q d s) = (none, t)) : worked opWriteValue q d s = (some (stOk, 0), t) := by
  rw [worked]
  generalize handed opWriteValue q d s = u at *
  simp only [opWriteValue, mkOp, oneTicket, h]

/-- Settles O20: NOP's work is nothing, and the eight bytes of the others are one write of host memory. -/
theorem commonOpcodesAct : Obligations.CommonOpcodesAct := by
  intro q d s hs hf h1 h2 hsp htlb hv hp
  have hu : Untranslated q.fn (fresh s) := ⟨hf, h1, h2, hsp, fun e he => by rw [show (fresh s).tlb = [] from htlb] at he; cases he⟩
  obtain ⟨t, ht, hto⟩ := dmaWrite_word (hu.handed (o := opTimestamp) (d := d) (fun _ => rfl)) q.fn.ep q.ring
    ((handed opTimestamp q d (fresh s)).now q.fn.ep) hv hp
  obtain ⟨w, hw, hwo⟩ := dmaWrite_word (hu.handed (o := opWriteValue) (d := d) (fun _ => rfl)) q.fn.ep q.ring (dget d 16 0 64) hv hp
  rw [worked_opTimestamp ht, worked_opWriteValue hw]
  exact ⟨fun u => rfl, rfl, hto, rfl, hwo⟩

/-! ## A completion in host memory (3.5) -/

theorem sendMsix_out (f : Fun) (v : Nat) (s : State) :
    (∃ r, NoMem r ∧ (sendMsix f v s).out = s.out ++ r) ∧ (sendMsix f v s).regs = s.regs ∧ (sendMsix f v s).part = s.part := by
  unfold sendMsix
  split
  · exact ⟨⟨_, fun _ => rfl, rfl⟩, rfl, rfl⟩
  · exact ⟨⟨[], noMem_nil, (List.append_nil _).symm⟩, rfl, rfl⟩

/-- Counting an entry toward a message writes no memory and no register. -/
theorem countInt_out (d : Die) (q : RingId) (s : State) :
    (∃ r, NoMem r ∧ (countInt d q s).out = s.out ++ r) ∧ (countInt d q s).regs = s.regs ∧ (countInt d q s).part = s.part := by
  unfold countInt
  dsimp only
  split
  · split
    · exact sendMsix_out _ _ _
    · exact ⟨⟨[], noMem_nil, (List.append_nil _).symm⟩, rfl, rfl⟩
  · exact ⟨⟨[], noMem_nil, (List.append_nil _).symm⟩, rfl, rfl⟩

theorem length_cqeBytes (e : Cqe) (p t : Nat) : (cqeBytes e p t).length = 16 := by
  simp only [cqeBytes, List.length_append, length_leBytes]

theorem rd64_wr_producer (q : RingId) (v : Word) (s : State) : (wr (RING_PRODUCER q) v s).rd64 (RING_SHADOW_LO q) = s.rd64 (RING_SHADOW_LO q) := by
  rw [State.rd64, rd_wr_ne, rd_wr_ne]
  · rfl
  · unfold RING_SHADOW_LO RING_PRODUCER; omega
  · unfold RING_SHADOW_LO RING_PRODUCER; omega

/-- An entry and then its shadow are written, and the producer index moves on (R67, R62): no other register changes. -/
theorem writeCqe_untranslated {c : RingId} {s : State} (h : Untranslated c.fn s) (d : Die) (e : Cqe) {ea sh : Nat}
    (hea : ea = ringBase s c + 16 * (ringProd s c % ringSize s c)) (hea1 : ea % 16 = 0) (hea2 : ea + 16 ≤ 2 ^ 48)
    (hsh : sh = s.rd64 (RING_SHADOW_LO c)) (hsh1 : sh % 8 = 0) (hsh2 : sh + 8 ≤ 2 ^ 48) :
    (∃ r, NoMem r ∧ (writeCqe d c e s).out = s.out ++ [Out.mem (hostKey s c.fn.ep ea) (cqeBytes e (phaseBit (ringProd s c) (ringSize s c)) (s.now d)),
        Out.mem (hostKey s c.fn.ep sh) (leBytes 8 ((ringProd s c + 1) % 2 ^ 32))] ++ r)
      ∧ (writeCqe d c e s).regs = (wr (RING_PRODUCER c) (BitVec.ofNat 32 (ringProd s c + 1)) s).regs ∧ (writeCqe d c e s).part = s.part := by
  have hl := length_cqeBytes e (phaseBit (ringProd s c) (ringSize s c)) (s.now d)
  have hl8 := length_leBytes 8 ((ringProd s c + 1) % 2 ^ 32)
  obtain ⟨tl, hw, hu⟩ := dmaWriteRaw_untranslated h d (va := ea) (bs := cqeBytes e (phaseBit (ringProd s c) (ringSize s c)) (s.now d))
    (by rw [← List.length_pos_iff]; omega) (by omega) (by omega)
  generalize hs1 : landed c.fn ea (cqeBytes e (phaseBit (ringProd s c) (ringSize s c)) (s.now d)) tl s = s1 at hw hu
  obtain ⟨hout1, hregs1, hpart1⟩ := hs1 ▸ landed_out c.fn ea (cqeBytes e (phaseBit (ringProd s c) (ringSize s c)) (s.now d)) tl s
  generalize hs2 : wr (RING_PRODUCER c) (BitVec.ofNat 32 (ringProd s c + 1)) s1 = s2
  have hu2 : Untranslated c.fn s2 := by
    rw [← hs2]
    exact hu.congr (fun g => rdF_wr_ne (by unfold XLATE_CTRL RING_PRODUCER; omega) _ _ _) rfl rfl
  have hsh' : s2.rd64 (RING_SHADOW_LO c) = sh := by
    rw [← hs2, rd64_wr_producer, hsh, State.rd64, State.rd64, rd_congr hregs1 hpart1, rd_congr hregs1 hpart1]
  obtain ⟨tl2, hw2, -⟩ := dmaWriteRaw_untranslated hu2 d (va := sh) (bs := leBytes 8 ((ringProd s c + 1) % 2 ^ 32))
    (by rw [← List.length_pos_iff]; omega) (by omega) (by omega)
  rw [← hsh'] at hw2
  obtain ⟨⟨r, hr, hro⟩, hregs, hpart⟩ := countInt_out d c (landed c.fn (s2.rd64 (RING_SHADOW_LO c)) (leBytes 8 ((ringProd s c + 1) % 2 ^ 32)) tl2 s2)
  have hrun : writeCqe d c e s = countInt d c (landed c.fn (s2.rd64 (RING_SHADOW_LO c)) (leBytes 8 ((ringProd s c + 1) % 2 ^ 32)) tl2 s2) := by
    simp only [writeCqe, ← hea, hw, hs2, shadowWrite, hw2]
  rw [hrun]
  obtain ⟨hout2, hregs2, hpart2⟩ := landed_out c.fn (s2.rd64 (RING_SHADOW_LO c)) (leBytes 8 ((ringProd s c + 1) % 2 ^ 32)) tl2 s2
  have hs2out : s2.out = s1.out := by rw [← hs2]; rfl
  have hs2part : s2.part = s.part := by rw [← hs2]; exact hpart1
  refine ⟨⟨r, hr, ?_⟩, ?_, ?_⟩
  · rw [hro, hout2, hsh', hs2out, hout1, hostKey_congr hs2part, List.append_assoc s.out]
    rfl
  · rw [hregs, hregs2, ← hs2, wr, wr, hregs1]
  · rw [hpart, hpart2, hs2part]

/-! ## The DONE of a descriptor that fails a check -/

/-- The state in which the failed flight has left its ring. -/
def failedOut (s : State) (q : RingId) (d : Desc) (x : Nat × Nat) : State :=
  setRing q { (failedState s q d x).ringAux q with flights := [] } (failedState s q d x)

/-- On a ring with nothing before it the DONE of the failed descriptor is posted at once. -/
theorem settle_failedState {s : State} {q : RingId} {d : Desc} {x : Nat × Nat} (hq : (s.ringAux q).flights = []) (hf : dFenceSignal d = false)
    (h1 : x.1 ≠ stOk) (h2 : x.1 ≠ stOkEmpty) :
    settle q (failedState s q d x) = refreshState q (postCqe q.fn.ep ⟨q.fn, s.rdF (RING_CFG q) RING_CFG_CQ⟩
      ⟨dSeq d, x.1, x.2 % 2 ^ 24, q.ring, 0, dOpcode d⟩ (failedOut s q d x)) := by
  have hfl := flights_failedState s q d x
  rw [hq, List.nil_append] at hfl
  have hdrain : drainRing q 1 (failedState s q d x) = postDone q (complete (oneFlight s q d) x.1 x.2) (failedOut s q d x) := by
    simp only [drainRing, hfl]
    exact if_pos ⟨rfl, hf⟩
  have hpost : postDone q (complete (oneFlight s q d) x.1 x.2) (failedOut s q d x) = postCqe q.fn.ep ⟨q.fn, s.rdF (RING_CFG q) RING_CFG_CQ⟩
      ⟨dSeq d, x.1, x.2 % 2 ^ 24, q.ring, 0, dOpcode d⟩ (failedOut s q d x) :=
    if_neg fun h => h.2.elim h1 h2
  rw [settle, hfl, List.length_singleton, hdrain, hpost]

/-- A completion is written at once into a ring that is enabled, has a free entry and holds none back (R70). -/
theorem postCqe_free {d : Die} {c : RingId} {e : Cqe} {s : State} (h1 : flrActive s c.fn = false) (h2 : ringOn s c = true) (h3 : frozen s c.fn = false)
    (h4 : (s.ringAux c).held = []) (h5 : freeEntries s c ≠ 0) : postCqe d c e s = writeCqe d c e s := by
  rw [postCqe, if_neg (by simp [h1, h2]), if_neg (by simp [h3]), if_neg (by simp [h4, h5])]

theorem held_failedOut (s : State) (q c : RingId) (d : Desc) (x : Nat × Nat) : ((failedOut s q d x).ringAux c).held = (s.ringAux c).held := by
  by_cases h : c.key = q.key
  · simp [failedOut, failedState, State.ringAux, setRing, h]
  · simp [failedOut, failedState, State.ringAux, setRing, tget_tset_ne _ h]

theorem refreshState_out (q : RingId) (s : State) : (refreshState q s).out = s.out ∧ ∀ a, a ≠ RING_STATUS q → (refreshState q s).rd a = s.rd a := by
  unfold refreshState
  dsimp only
  split_ifs
  · exact ⟨rfl, fun a ha => rd_wrF_ne ha _ _ _⟩
  · exact ⟨rfl, fun _ _ => rfl⟩
  · exact ⟨rfl, fun a ha => rd_wrF_ne ha _ _ _⟩
  · exact ⟨rfl, fun a ha => rd_wrF_ne ha _ _ _⟩

/-- A byte of one of two writes that do not overlap, the other a later one. -/
theorem outByte_two {ka kb : Nat} {a b : List Byte} {r : List Out} (hr : NoMem r) (hd : kb + b.length ≤ ka ∨ ka + a.length ≤ kb) :
    (∀ k, k < a.length → outByte (ka + k) ([Out.mem ka a, Out.mem kb b] ++ r) = a[k]?)
      ∧ ∀ k, k < b.length → outByte (kb + k) ([Out.mem ka a, Out.mem kb b] ++ r) = b[k]? := by
  refine ⟨fun k hk => ?_, fun k hk => ?_⟩
  · rw [outByte_append_noMem hr, show [Out.mem ka a, Out.mem kb b] = [Out.mem ka a] ++ [Out.mem kb b] from rfl, outByte_append, outByte_mem, outByte_mem]
    have : (if kb ≤ ka + k then b[ka + k - kb]? else none) = none := by
      split
      · exact List.getElem?_eq_none (by omega)
      · rfl
    rw [this, Option.none_or, if_pos (by omega), Nat.add_sub_cancel_left]
  · rw [outByte_append_noMem hr, show [Out.mem ka a, Out.mem kb b] = [Out.mem ka a] ++ [Out.mem kb b] from rfl, outByte_append, outByte_mem, if_pos (by omega),
      Nat.add_sub_cancel_left, List.getElem?_eq_getElem hk, Option.some_or]

theorem hostKey_add (s : State) (d : Die) (a k : Nat) : hostKey s d (a + k) = hostKey s d a + k := by
  unfold hostKey
  split <;> omega

/-- Settles O13: the failed flight is alone on its ring, so its DONE is written at once, the entry and then the shadow. -/
theorem completionReachesHostMemory : Obligations.CompletionReachesHostMemory := by
  intro i o q c d s st dt ea sh hi hinv ht hc h1 h2 hfs hq hf hcq hon hheld hfree hs1 hs2 hsp htlb hb hea hea2 hsh hsh1 hsh2 hdis
  have ⟨hserves, _, _, _, _⟩ := ht
  simp only [ringServes, Bool.and_eq_true, Bool.not_eq_true'] at hserves
  obtain ⟨⟨⟨⟨⟨-, hflr⟩, hfrozen⟩, -⟩, -⟩, -⟩ := hserves
  generalize hu : failedOut (fresh s) q d (st, dt) = u
  have hfn : c.fn = q.fn := by rw [hcq]
  have hregs : u.regs = s.regs := by rw [← hu]; rfl
  have hpart : u.part = s.part := by rw [← hu]; rfl
  have hrd := rd_congr hregs hpart
  have hrdF := rdF_congr hregs hpart
  have hflag := flag_congr hregs hpart
  have hprod : ringProd u c = ringProd s c := by rw [ringProd, ringProd, hrd]
  have hcons : ringCons u c = ringCons s c := by rw [ringCons, ringCons, hrd]
  have hsize : ringSize u c = ringSize s c := by rw [ringSize, ringSize, hrdF]
  have hbase : ringBase u c = ringBase s c := by rw [ringBase, ringBase, State.rd64, State.rd64, hrd, hrd]
  have hut : Untranslated c.fn u := by
    rw [hfn]
    refine ⟨hf, by rw [hrdF, hs1], by rw [hrdF, hs2], by rw [← hu]; exact hsp, fun e he => ?_⟩
    rw [show u.tlb = [] from by rw [← hu]; exact htlb] at he
    cases he
  have hsettle : submit o q d (fresh s) = refreshState q (writeCqe q.fn.ep c ⟨dSeq d, st, dt % 2 ^ 24, q.ring, 0, dOpcode d⟩ u) := by
    rw [submit_failed ht hc, settle_failedState (s := fresh s) (x := (st, dt)) hq hfs h1 h2, ← hu]
    rw [show (fresh s).rdF (RING_CFG q) RING_CFG_CQ = s.rdF (RING_CFG q) RING_CFG_CQ from rfl, ← hcq, postCqe_free]
    · rw [hu, flrActive, hflag, hfn]; exact hflr
    · rw [hu, ringOn, hrdF]; exact hon
    · rw [hu, frozen, hflag, hfn]; exact hfrozen
    · rw [held_failedOut]; exact hheld
    · rw [hu, freeEntries, hsize, hprod, hcons]; exact hfree
  obtain ⟨⟨r, hr, hout⟩, hwregs, hwpart⟩ := writeCqe_untranslated hut q.fn.ep ⟨dSeq d, st, dt % 2 ^ 24, q.ring, 0, dOpcode d⟩ (ea := ea) (sh := sh)
    (by rw [hea, hbase, hprod, hsize]) (by omega) hea2 (by rw [hsh, State.rd64, State.rd64, hrd, hrd]) hsh1 hsh2
  obtain ⟨hrout, hrrd⟩ := refreshState_out q (writeCqe q.fn.ep c ⟨dSeq d, st, dt % 2 ^ 24, q.ring, 0, dOpcode d⟩ u)
  have hempty : u.out = [] := by rw [← hu]; rfl
  have hnow : u.now q.fn.ep = s.now q.fn.ep := by rw [← hu]; rfl
  rw [hempty, List.nil_append, hprod, hsize, hnow, hostKey_congr hpart, hostKey_congr hpart, hfn] at hout
  have htout : (ran (submit o q d) s).out = _ := (congrArg State.out hsettle).trans (hrout.trans hout)
  obtain ⟨hentry, hshadow⟩ := outByte_two (ka := hostKey s q.fn.ep ea) (kb := hostKey s q.fn.ep sh)
    (a := cqeBytes ⟨dSeq d, st, dt % 2 ^ 24, q.ring, 0, dOpcode d⟩ (phaseBit (ringProd s c) (ringSize s c)) (s.now q.fn.ep))
    (b := leBytes 8 ((ringProd s c + 1) % 2 ^ 32)) hr (by
      rw [length_cqeBytes, length_leBytes, ← hostKey_add, ← hostKey_add]
      unfold hostKey
      split <;> omega)
  rw [length_cqeBytes] at hentry
  rw [length_leBytes] at hshadow
  refine ⟨_, exec_descRow hi s, ?_, fun k hk => ?_, fun k hk => ?_⟩
  · have hne : RING_PRODUCER c ≠ RING_STATUS q := by unfold RING_PRODUCER RING_STATUS; rw [hfn]; omega
    have hword := rd_congr (s := wr (RING_PRODUCER c) (BitVec.ofNat 32 (ringProd u c + 1)) u) hwregs hwpart
    rw [ringProd, ran_rd, hsettle, hrrd _ hne, hword, rd_wr_same, BitVec.toNat_ofNat, hprod]
  · rw [ran_memGet _ hinv, htout, hostKey_add, hentry k hk, List.getElem?_eq_getElem (by rw [length_cqeBytes]; exact hk)]; rfl
  · rw [ran_memGet _ hinv, htout, hostKey_add, hshadow k hk, List.getElem?_eq_getElem (by rw [length_leBytes]; exact hk)]; rfl

end Sys2Proof.Machine
end

section
/-! Set-up, doorbells and messages of rings (3.2, 3.3, 3.8). -/
namespace Sys2Proof.Machine

/-! ## Fields of a masked word -/

/-- A field that lies within a mask reads the same through it. -/
theorem get_and {f : Fld} {m : Word} (h : ∀ i < f.len, m.getLsbD (f.lo + i) = true) (v : Word) : f.get (v &&& m) = f.get v := by
  apply Nat.eq_of_testBit_eq
  intro i
  simp only [Fld.get, BitVec.toNat_and, Nat.testBit_mod_two_pow, Nat.testBit_div_two_pow, Nat.testBit_and]
  by_cases hi : i < f.len
  · have hm := h i hi
    rw [BitVec.getLsbD, Nat.add_comm] at hm
    rw [hm, Bool.and_true]
  · simp [hi]

theorem get_lt (f : Fld) (v : Word) : f.get v < 2 ^ f.len := Nat.mod_lt _ (Nat.two_pow_pos _)

theorem rdF_of_rd {s t : State} {a : Nat} (h : t.rd a = s.rd a) (f : Fld) : t.rdF a f = s.rdF a f := by rw [State.rdF, State.rdF, h]
theorem flag_of_rd {s t : State} {a : Nat} (h : t.rd a = s.rd a) (f : Fld) : t.flag a f = s.flag a f := by rw [State.flag, State.flag, rdF_of_rd h]
theorem rd64_of_rd {s t : State} {a : Nat} (h : t.rd a = s.rd a) (h' : t.rd (a + 4) = s.rd (a + 4)) : t.rd64 a = s.rd64 a := by
  rw [State.rd64, State.rd64, h, h']
theorem flag_fresh (s : State) (a : Nat) (f : Fld) : (fresh s).flag a f = s.flag a f := flag_congr rfl rfl a f
theorem rdF_fresh (s : State) (a : Nat) (f : Fld) : (fresh s).rdF a f = s.rdF a f := rdF_congr rfl rfl a f
theorem rd_fresh (s : State) (a : Nat) : (fresh s).rd a = s.rd a := rd_congr rfl rfl a

/-! ## What writes registers alone -/

/-- Nothing but registers differs. -/
def RegsOnly (s t : State) : Prop := ∃ r, t = { s with regs := r }

theorem RegsOnly.rfl {s : State} : RegsOnly s s := ⟨s.regs, by cases s; exact Eq.refl _⟩
theorem RegsOnly.trans {s t u : State} (h : RegsOnly s t) (h' : RegsOnly t u) : RegsOnly s u := by
  obtain ⟨r, hr⟩ := h
  obtain ⟨r', hr'⟩ := h'
  subst hr hr'
  exact ⟨r', Eq.refl _⟩
theorem regsOnly_wr (a : Nat) (v : Word) (s : State) : RegsOnly s (wr a v s) := ⟨_, Eq.refl _⟩
theorem regsOnly_wrF (a : Nat) (f : Fld) (v : Nat) (s : State) : RegsOnly s (wrF a f v s) := regsOnly_wr _ _ _
theorem RegsOnly.wr {s t : State} (h : RegsOnly s t) (a : Nat) (v : Word) : RegsOnly s (wr a v t) := h.trans (regsOnly_wr _ _ _)
theorem RegsOnly.wrF {s t : State} (h : RegsOnly s t) (a : Nat) (f : Fld) (v : Nat) : RegsOnly s (wrF a f v t) := h.trans (regsOnly_wrF _ _ _ _)
/-- A command whose effect changes registers alone leaves the effect's own state. -/
theorem RegsOnly.ran {g : State → State} {s : State} (h : RegsOnly (fresh s) (g (fresh s))) : ran g s = g (fresh s) := by
  obtain ⟨r, hr⟩ := h
  exact ran_silent (by rw [hr]; exact Eq.refl _) (by rw [hr]; exact Eq.refl _) (by rw [hr]; exact Eq.refl _)
theorem RegsOnly.fresh {s t : State} (h : RegsOnly (fresh s) t) : t = { s with regs := t.regs, out := [] } := by
  obtain ⟨r, hr⟩ := h
  subst hr
  exact Eq.refl _
theorem RegsOnly.eq {s t : State} (h : RegsOnly s t) : t = { s with regs := t.regs } := by
  obtain ⟨r, hr⟩ := h
  subst hr
  exact Eq.refl _

/-! ## The enabling write (R54, R55) -/

/-- Registers and the domains in reset decide which entries a function reaches. -/
theorem accessRow_congr {s t : State} (hr : t.regs = s.regs) (hp : t.part = s.part) (hi : t.inReset = s.inReset) (f : Fun) (off : Nat) :
    accessRow t f off = accessRow s f off := by
  simp only [accessRow, setupFn, spaceOpen, domainUp, flag_congr hr hp, hi]
  rfl

theorem ringWriter_fresh (s : State) (f : Fun) (q : RingId) : ringWriter (fresh s) f q = ringWriter s f q := by
  rw [ringWriter, ringWriter, accessRow_congr (s := s) (t := fresh s) rfl rfl rfl]

/-- A command whose effect is `g` where a condition holds, as it does. -/
theorem run_ite_eq {p : State → Bool} {g : State → State} {s : State} (h : p (fresh s) = true) :
    run (fun u => if p u then g u else u) s = .next (ran g s) := by
  rw [run_eq, ran_congr (f := fun u => if p u then g u else u) (g := g) (by simp only [h, if_true])]

theorem exec_ringEnable {f : Fun} {q : RingId} {s : State} (h : ringWriter s f q = true) (v : Word) :
    exec (.ringEnable f q v) s = .next (ran (ringCfgWrite q v) s) := by
  exact run_ite_eq (p := fun u => ringWriter u f q) ((ringWriter_fresh s f q).trans h)

/-- Another ring of the function is enabled with a type. -/
def OtherOn (s : State) (q : RingId) (k : Nat) : Prop := ∃ n, n < 16 ∧ n ≠ q.ring ∧ ringOn s ⟨q.fn, n⟩ = true ∧ ringType s ⟨q.fn, n⟩ = k

theorem others_iff (s : State) (q : RingId) (k : Nat) :
    (ringsOf q.fn).any (fun r => r.ring != q.ring && ringOn s r && ringType s r == k) = true ↔ OtherOn s q k := by
  simp only [OtherOn, ringsOf, upto, List.any_map, List.any_eq_true, List.mem_range, Function.comp_apply, Bool.and_eq_true, bne_iff_ne, beq_iff_eq,
    and_assoc]

/-- The conditions of R55's table that an enabling write breaks. -/
def BreaksTable (s : State) (q : RingId) (v : Word) : Prop :=
  0xA < RING_CFG_QTYPE.get v
    ∨ RING_CFG_SIZE_LOG2.get v < 4 ∨ 16 < RING_CFG_SIZE_LOG2.get v
    ∨ ringBase s q % 4096 ≠ 0
    ∨ (RING_CFG_QTYPE.get v = 0 ∧ q.fn.fn ≠ 0 ∧ q.fn.fn ≠ 63)
    ∨ ((RING_CFG_QTYPE.get v = 0 ∨ RING_CFG_QTYPE.get v = 9) ∧ OtherOn s q (RING_CFG_QTYPE.get v))
    ∨ (RING_CFG_QTYPE.get v < 9 ∧ (RING_CFG_CQ.get v = q.ring ∨ ringOn s ⟨q.fn, RING_CFG_CQ.get v⟩ = false
        ∨ ringType s ⟨q.fn, RING_CFG_CQ.get v⟩ ≠ 0xA))

/-- The table's condition on the SETUP and EVENT rings of the function, one type at a time. -/
theorem otherOn_type_iff (s : State) (q : RingId) (t : Nat) :
    ((t = 0 ∨ t = 9) ∧ OtherOn s q t) ↔ (t = 0 ∧ OtherOn s q 0) ∨ (t = 9 ∧ OtherOn s q 9) := by
  constructor
  · rintro ⟨rfl | rfl, h⟩
    · exact .inl ⟨rfl, h⟩
    · exact .inr ⟨rfl, h⟩
  · rintro (⟨rfl, h⟩ | ⟨rfl, h⟩)
    · exact ⟨.inl rfl, h⟩
    · exact ⟨.inr rfl, h⟩

/-- An enabling write that breaks the table is refused with INVALID_DESC. -/
theorem enableError_broken {s : State} {q : RingId} {v : Word} (h : BreaksTable s q v) : enableError s q v = some stInvalidDesc := by
  simp only [enableError, ← ite_or]
  refine if_pos ?_
  rw [others_iff s q 0, others_iff s q 9]
  rw [BreaksTable, otherOn_type_iff] at h
  simp only [and_or_left, or_assoc] at h ⊢
  exact h

/-- One that breaks nothing but needs the audio engine where it is absent is refused with UNIT_ABSENT. -/
theorem enableError_absent {s : State} {q : RingId} {v : Word} (h : ¬BreaksTable s q v)
    (ht : RING_CFG_QTYPE.get v = 6 ∨ RING_CFG_QTYPE.get v = 7) (ha : unitPresent s.part .a bitAudio = false) :
    enableError s q v = some stUnitAbsent := by
  simp only [enableError, ← ite_or]
  rw [if_neg, if_pos ⟨ht, ha⟩]
  rw [others_iff s q 0, others_iff s q 9]
  rw [BreaksTable, otherOn_type_iff] at h
  simp only [and_or_left, or_assoc] at h ⊢
  exact h

/-- What an accepted enabling write may not break. -/
theorem enableError_none {s : State} {q : RingId} {v : Word} (h : enableError s q v = none) : ¬BreaksTable s q v := fun hb => by
  rw [enableError_broken hb] at h
  cases h

theorem ringOn_congr {s t : State} (hr : t.regs = s.regs) (hp : t.part = s.part) (q : RingId) : ringOn t q = ringOn s q := by
  rw [ringOn, ringOn, rdF_congr hr hp]
theorem ringType_congr {s t : State} (hr : t.regs = s.regs) (hp : t.part = s.part) (q : RingId) : ringType t q = ringType s q := by
  rw [ringType, ringType, rdF_congr hr hp]

theorem enableError_fresh (s : State) (q : RingId) (v : Word) : enableError (fresh s) q v = enableError s q v := by
  simp only [enableError, ringOn, ringType, ringBase, fresh_keeps]
  rfl

/-- An enabling write that is refused shows why, and does nothing else. -/
theorem ringCfgWrite_refused {s : State} {q : RingId} {v : Word} {e : Nat} (hon : ringOn s q = false) (hz : RING_CFG_SIZE_LOG2.get v ≠ 0)
    (he : enableError s q v = some e) : ringCfgWrite q v s = wrF (RING_STATUS q) RING_STATUS_CFG_ERR e s := by
  rw [ringCfgWrite, if_neg (by rw [hon]; exact Bool.false_ne_true), if_neg hz, ringEnable]
  simp only [he]

/-- The ring as an accepted enabling write starts it: its configuration, empty, with no fence and no entry counted. -/
def startedRing (q : RingId) (v : Word) (s : State) : State :=
  s |> wr (RING_CFG q) (v &&& ringCfgMask) |> wr (RING_PRODUCER q) 0 |> wr (RING_CONSUMER q) 0
    |> wr64 (RING_FENCE_COUNT_LO q) 0 |> wrF (RING_STATUS q) RING_STATUS_STATE 1
    |> setRing q { s.ringAux q with intCount := 0, intFirst := 0, unshadowed := 0, chain := false }

theorem ringCfgWrite_accepted {s : State} {q : RingId} {v : Word} (hon : ringOn s q = false) (hz : RING_CFG_SIZE_LOG2.get v ≠ 0)
    (he : enableError s q v = none) :
    ringCfgWrite q v s = if RING_CFG_QTYPE.get v = 9 then reportGap q.fn.ep q.fn (writeShadow q 0 (refreshState q (startedRing q v s)))
      else writeShadow q 0 (refreshState q (startedRing q v s)) := by
  rw [ringCfgWrite, if_neg (by rw [hon]; exact Bool.false_ne_true), if_neg hz, ringEnable]
  simp only [he]
  rfl

theorem ringAux_setRing_same (q : RingId) (r : RingAux) (s : State) : (setRing q r s).ringAux q = r := tget_tset_same _ _ _ _

/-- The registers of a ring that has started. -/
theorem rd_startedRing (q : RingId) (v : Word) (s : State) :
    (startedRing q v s).rd (RING_CFG q) = v &&& ringCfgMask ∧ ringProd (startedRing q v s) q = 0 ∧ ringCons (startedRing q v s) q = 0
      ∧ (startedRing q v s).rd64 (RING_FENCE_COUNT_LO q) = 0 ∧ (startedRing q v s).rdF (RING_STATUS q) RING_STATUS_STATE = 1
      ∧ ∀ a, a ∉ [RING_CFG q, RING_PRODUCER q, RING_CONSUMER q, RING_FENCE_COUNT_LO q, RING_FENCE_COUNT_LO q + 4, RING_STATUS q] →
          (startedRing q v s).rd a = s.rd a := by
  have hst : (startedRing q v s).rdF (RING_STATUS q) RING_STATUS_STATE = 1 := by
    simp only [startedRing, setRing_keeps]
    exact rdF_wrF_of_lt (by decide) (by decide)
  refine ⟨?_, ?_, ?_, ?_, hst, fun a ha => ?_⟩
  · simp (disch := (simp only [RING_CFG, RING_PRODUCER, RING_CONSUMER, RING_FENCE_COUNT_LO, RING_STATUS]; omega)) only
      [startedRing, setRing_keeps, wr64, rd_wrF_ne, rd_wr_ne, rd_wr_same]
  · simp (disch := (simp only [RING_CFG, RING_PRODUCER, RING_CONSUMER, RING_FENCE_COUNT_LO, RING_STATUS]; omega)) only
      [ringProd, startedRing, setRing_keeps, wr64, rd_wrF_ne, rd_wr_ne, rd_wr_same]
    rfl
  · simp (disch := (simp only [RING_CFG, RING_PRODUCER, RING_CONSUMER, RING_FENCE_COUNT_LO, RING_STATUS]; omega)) only
      [ringCons, startedRing, setRing_keeps, wr64, rd_wrF_ne, rd_wr_ne, rd_wr_same]
    rfl
  · simp (disch := (simp only [RING_CFG, RING_PRODUCER, RING_CONSUMER, RING_FENCE_COUNT_LO, RING_STATUS]; omega)) only
      [State.rd64, startedRing, setRing_keeps, wr64, rd_wrF_ne, rd_wr_ne, rd_wr_same]
    rfl
  · simp only [List.mem_cons, List.not_mem_nil, or_false, not_or] at ha
    obtain ⟨h1, h2, h3, h4, h5, h6⟩ := ha
    simp only [startedRing, setRing_keeps, wr64, rd_wrF_ne h6, rd_wr_ne h5, rd_wr_ne h4, rd_wr_ne h3, rd_wr_ne h2, rd_wr_ne h1]

theorem ringAux_wrF (a : Nat) (f : Fld) (n : Nat) (s : State) (q : RingId) : (wrF a f n s).ringAux q = s.ringAux q := rfl

theorem ringAux_startedRing (q : RingId) (v : Word) (s : State) :
    (startedRing q v s).ringAux q = { s.ringAux q with intCount := 0, intFirst := 0, unshadowed := 0, chain := false } := by
  rw [startedRing, ringAux_setRing_same]

/-- A ring that starts changes registers and its own ring. -/
theorem startedRing_eq (q : RingId) (v : Word) (s : State) :
    ∃ r g, startedRing q v s = { s with regs := r, rings := g } := by
  obtain ⟨r, hr⟩ : RegsOnly s (wrF (RING_STATUS q) RING_STATUS_STATE 1 (wr64 (RING_FENCE_COUNT_LO q) 0 (wr (RING_CONSUMER q) 0
      (wr (RING_PRODUCER q) 0 (wr (RING_CFG q) (v &&& ringCfgMask) s))))) :=
    (((((RegsOnly.rfl.wr _ _).wr _ _).wr _ _).wr _ _).wr _ _).wrF _ _ _
  exact ⟨r, tset q.key { s.ringAux q with intCount := 0, intFirst := 0, unshadowed := 0, chain := false } s.rings, by rw [startedRing, hr]; rfl⟩

/-- STATE of an enabled ring that runs: 2 while something waits, else 1. -/
def waitingState (s : State) (q : RingId) : Nat :=
  if (s.ringAux q).wait.isSome = true ∨ (∃ g ∈ (s.ringAux q).flights, g.phase = 0)
    ∨ (ringType s q < 9 ∧ s.flag (RING_STATUS ⟨q.fn, s.rdF (RING_CFG q) RING_CFG_CQ⟩) RING_STATUS_CQ_FULL = true) then 2 else 1

theorem waitingState_lt (s : State) (q : RingId) : waitingState s q < 4 := by
  unfold waitingState
  split <;> decide

theorem refreshState_running {q : RingId} {s : State} (hon : ringOn s q = true) (hst : s.rdF (RING_STATUS q) RING_STATUS_STATE = 1)
    (hch : (s.ringAux q).chain = false) : refreshState q s = wrF (RING_STATUS q) RING_STATUS_STATE (waitingState s q) s := by
  rw [refreshState, if_neg (by simp [hon]), if_neg (by simp [hst]), waitingState, apply_ite (fun n => wrF (RING_STATUS q) RING_STATUS_STATE n s)]
  refine if_congr ?_ rfl rfl
  simp [hch]

/-- The ring's registers as an accepted enabling write leaves them, before the shadow is written. -/
theorem refreshState_startedRing {s : State} {q : RingId} {v : Word} (hz : RING_CFG_SIZE_LOG2.get v ≠ 0) (he : enableError s q v = none) :
    refreshState q (startedRing q v s) = wrF (RING_STATUS q) RING_STATUS_STATE
      (if (s.ringAux q).wait.isSome = true ∨ (∃ g ∈ (s.ringAux q).flights, g.phase = 0)
        ∨ (RING_CFG_QTYPE.get v < 9 ∧ s.flag (RING_STATUS ⟨q.fn, RING_CFG_CQ.get v⟩) RING_STATUS_CQ_FULL = true) then 2 else 1)
      (startedRing q v s) := by
  obtain ⟨hcfg, -, -, -, hst, hrest⟩ := rd_startedRing q v s
  have hF {g : Fld} (hm : ∀ i < g.len, ringCfgMask.getLsbD (g.lo + i) = true) : (startedRing q v s).rdF (RING_CFG q) g = g.get v := by
    rw [State.rdF, hcfg, get_and hm]
  have hon : ringOn (startedRing q v s) q = true := by
    rw [ringOn, hF (g := RING_CFG_SIZE_LOG2) (by decide)]
    exact bne_iff_ne.2 hz
  have haux := ringAux_startedRing q v s
  rw [refreshState_running hon hst (by rw [haux]), waitingState, haux, ringType, hF (g := RING_CFG_QTYPE) (by decide),
    hF (g := RING_CFG_CQ) (by decide)]
  refine congrArg (fun n => wrF (RING_STATUS q) RING_STATUS_STATE n _) (if_congr (or_congr Iff.rfl (or_congr Iff.rfl (and_congr_right fun ht => ?_))) rfl rfl)
  have hcq : RING_CFG_CQ.get v ≠ q.ring := fun h => enableError_none he (.inr (.inr (.inr (.inr (.inr (.inr ⟨ht, .inl h⟩))))))
  have hlt : RING_CFG_CQ.get v < 16 := get_lt RING_CFG_CQ v
  rw [flag_of_rd (hrest _ ?_)]
  simp only [RING_CFG, RING_PRODUCER, RING_CONSUMER, RING_FENCE_COUNT_LO, RING_STATUS, List.mem_cons, List.not_mem_nil, or_false, not_or]
  refine ⟨?_, ?_, ?_, ?_, ?_, ?_⟩ <;> omega

/-- Settles O14: a refused enabling write touches CFG_ERR alone; an accepted one writes the ring's registers, then its shadow. -/
theorem ringEnableIsCheckedAndStartsEmpty : Obligations.RingEnableIsCheckedAndStartsEmpty := by
  refine ⟨fun f q v s broken e hw hon hz hb hcase => ?_, fun f q v s hw hon hz he => ?_⟩
  · have hbt : broken ↔ BreaksTable s q v := hb
    have herr : enableError s q v = some e := by
      obtain ⟨h, rfl⟩ | ⟨h, ht, ha, rfl⟩ := hcase
      · exact enableError_broken (hbt.1 h)
      · exact enableError_absent (mt hbt.2 h) ht ha
    have hlt : e < 2 ^ 8 := by
      obtain ⟨-, rfl⟩ | ⟨-, -, -, rfl⟩ := hcase <;> decide
    have hr : ran (ringCfgWrite q v) s = wrF (RING_STATUS q) RING_STATUS_CFG_ERR e (fresh s) := by
      have hg := ringCfgWrite_refused (s := fresh s) ((ringOn_congr rfl rfl q).trans hon) hz ((enableError_fresh s q v).trans herr)
      rw [ran_silent] <;> rw [hg] <;> rfl
    refine ⟨_, (exec_ringEnable hw v).trans (congrArg _ hr), rfl, ?_, rdF_wrF_of_lt (by decide) hlt, fun a ha => ?_⟩
    · rw [ringOn, rdF_wrF_ne (by simp only [RING_CFG, RING_STATUS]; omega), rdF_fresh]
      exact hon
    · rw [rd_wrF_ne ha, rd_fresh]
  · have he' : enableError (fresh s) q v = none := (enableError_fresh s q v).trans he
    refine ⟨refreshState q (startedRing q v (fresh s)), ?_, ?_⟩
    · rw [refreshState_startedRing hz he', flag_fresh]
      obtain ⟨hcfg, hp, hc, hf, -, hrest⟩ := rd_startedRing q v (fresh s)
      have hne : RING_STATUS q ≠ RING_CFG q ∧ RING_STATUS q ≠ RING_PRODUCER q ∧ RING_STATUS q ≠ RING_CONSUMER q
          ∧ RING_STATUS q ≠ RING_FENCE_COUNT_LO q ∧ RING_STATUS q ≠ RING_FENCE_COUNT_LO q + 4 := by
        simp only [RING_CFG, RING_PRODUCER, RING_CONSUMER, RING_FENCE_COUNT_LO, RING_STATUS]
        omega
      obtain ⟨n1, n2, n3, n4, n5⟩ := hne
      have hw' {a : Nat} (h : RING_STATUS q ≠ a) (n : Nat) (t : State) : (wrF (RING_STATUS q) RING_STATUS_STATE n t).rd a = t.rd a :=
        rd_wrF_ne h.symm _ _ _
      have heq : ∀ n, wrF (RING_STATUS q) RING_STATUS_STATE n (startedRing q v (fresh s)) =
          { s with regs := (wrF (RING_STATUS q) RING_STATUS_STATE n (startedRing q v (fresh s))).regs, rings := (startedRing q v (fresh s)).rings, out := [] } := by
        intro n
        obtain ⟨r, g, h⟩ := startedRing_eq q v (fresh s)
        rw [h]
        rfl
      refine ⟨heq _, (hw' n1 _ _).trans hcfg, ?_, ?_, ?_, ?_, (ringAux_wrF _ _ _ _ _).trans (ringAux_startedRing _ _ _), fun a ha => ?_⟩
      · rw [ringProd, hw' n2]; exact hp
      · rw [ringCons, hw' n3]; exact hc
      · rw [rd64_of_rd (hw' n4 _ _) (hw' n5 _ _)]; exact hf
      · exact rdF_wrF_of_lt (by decide) (by split <;> decide)
      · rw [hw', hrest a ha, rd_fresh]
        simp only [List.mem_cons, not_or] at ha
        exact Ne.symm ha.2.2.2.2.2.1
    · rw [exec_ringEnable hw, ran_congr]
      exact ringCfgWrite_accepted ((ringOn_congr rfl rfl q).trans hon) hz he'

/-! ## Writes of an enabled ring (R57, R58) -/

theorem exec_ringDisable {f : Fun} {q : RingId} {s : State} (h : ringWriter s f q = true) (v : Word) :
    exec (.ringDisable f q v) s = .next (ran (ringCfgWrite q v) s) := by
  exact run_ite_eq (p := fun u => ringWriter u f q) ((ringWriter_fresh s f q).trans h)

theorem exec_ringCfgModify {f : Fun} {q : RingId} {s : State} (h : ringWriter s f q = true) (v : Word) :
    exec (.ringCfgModify f q v) s = .next (ran (ringCfgWrite q v) s) := by
  exact run_ite_eq (p := fun u => ringWriter u f q) ((ringWriter_fresh s f q).trans h)

/-- A write of an enabled ring that changes registers alone, as it does. -/
theorem ringCfgWrite_regsOnly {q : RingId} {v : Word} {s t : State} (hg : ringCfgWrite q v (fresh s) = t) (ht : RegsOnly (fresh s) t) :
    ran (ringCfgWrite q v) s = t ∧ t = { s with regs := t.regs, out := [] } := by
  subst hg
  exact ⟨ht.ran, ht.fresh⟩

theorem ringCfg_ne_status (q : RingId) : RING_CFG q ≠ RING_STATUS q := by simp only [RING_CFG, RING_STATUS]; omega

/-- A refused write of an enabled ring sets CFG_ERR alone. -/
theorem cfgErr_alone (q : RingId) (s : State) :
    (wrF (RING_STATUS q) RING_STATUS_CFG_ERR stInvalidDesc (fresh s)).rdF (RING_STATUS q) RING_STATUS_CFG_ERR = stInvalidDesc
      ∧ ∀ a, a ≠ RING_STATUS q → (wrF (RING_STATUS q) RING_STATUS_CFG_ERR stInvalidDesc (fresh s)).rd a = s.rd a :=
  ⟨rdF_wrF_of_lt (by decide) (by decide), fun a ha => by rw [rd_wrF_ne ha, rd_fresh]⟩

theorem cqOwed_fresh (s : State) (c : RingId) : cqOwed (fresh s) c = cqOwed s c := by
  simp only [cqOwed, ringOn, ringType, rdF_fresh]
  rfl

/-- Settles O15: by what the write asks for, and what the ring owes. -/
theorem enabledRingTakesFewWrites : Obligations.EnabledRingTakesFewWrites := by
  intro f q v s hw hon
  have hon' : ringOn (fresh s) q = true := (ringOn_congr rfl rfl q).trans hon
  have hty : ringType (fresh s) q = ringType s q := ringType_congr rfl rfl q
  refine ⟨fun hz hno => ?_, fun hz hyes => ?_, fun hz => ?_⟩
  · obtain ⟨hr, heq⟩ := ringCfgWrite_regsOnly (q := q) (v := v) (s := s)
      (t := wrF (RING_STATUS q) RING_STATUS_STATE 0 (wr (RING_CFG q) (v &&& ringCfgMask) (fresh s)))
      (by rw [ringCfgWrite, if_pos hon', if_pos hz, ringDisable, if_neg (by rw [hty, cqOwed_fresh]; exact hno)]) ((RegsOnly.rfl.wr _ _).wrF _ _ _)
    refine ⟨_, (exec_ringDisable hw v).trans (congrArg _ hr), heq, ?_, rdF_wrF_of_lt (by decide) (by decide), fun a h1 h2 => ?_⟩
    · rw [ringOn, rdF_wrF_ne (ringCfg_ne_status q), rdF_wr_same, get_and (by decide), hz]
      rfl
    · rw [rd_wrF_ne h2, rd_wr_ne h1, rd_fresh]
  · obtain ⟨hr, heq⟩ := ringCfgWrite_regsOnly (q := q) (v := v) (s := s) (t := wrF (RING_STATUS q) RING_STATUS_CFG_ERR stInvalidDesc (fresh s))
      (by rw [ringCfgWrite, if_pos hon', if_pos hz, ringDisable, if_pos (by rw [hty, cqOwed_fresh]; exact hyes)]) (RegsOnly.rfl.wrF _ _ _)
    refine ⟨_, (exec_ringDisable hw v).trans (congrArg _ hr), heq, ?_, cfgErr_alone q s⟩
    rw [ringOn, rdF_wrF_ne (ringCfg_ne_status q)]
    exact hon'
  · by_cases hsame : RING_CFG_SIZE_LOG2.get v = s.rdF (RING_CFG q) RING_CFG_SIZE_LOG2 ∧ RING_CFG_QTYPE.get v = ringType s q
        ∧ RING_CFG_CQ.get v = s.rdF (RING_CFG q) RING_CFG_CQ
    · obtain ⟨hr, heq⟩ := ringCfgWrite_regsOnly (q := q) (v := v) (s := s)
        (t := wrF (RING_CFG q) RING_CFG_EVICTABLE (RING_CFG_EVICTABLE.get v) (wrF (RING_CFG q) RING_CFG_PRIORITY (RING_CFG_PRIORITY.get v) (fresh s)))
        (by rw [ringCfgWrite, if_pos hon', if_neg hz, ringModify, if_pos (by rw [hty, rdF_fresh, rdF_fresh]; exact hsame)])
        ((RegsOnly.rfl.wrF _ _ _).wrF _ _ _)
      refine ⟨_, (exec_ringCfgModify hw v).trans (congrArg _ hr), heq, ?_⟩
      rw [if_pos hsame]
      obtain ⟨hsz, -, -⟩ := hsame
      refine ⟨?_, rdF_wrF_of_lt (by decide) (get_lt _ _), ?_, ?_, fun a ha => ?_⟩
      · rw [rdF_wrF_other _ _ _ _ _ (by decide) (by decide)]
        exact rdF_wrF_of_lt (by decide) (get_lt _ _)
      · rw [rdF_wrF_other _ _ _ _ _ (by decide) (by decide), rdF_wrF_other _ _ _ _ _ (by decide) (by decide), rdF_fresh, hsz]
      · rw [ringType, rdF_wrF_other _ _ _ _ _ (by decide) (by decide), rdF_wrF_other _ _ _ _ _ (by decide) (by decide), rdF_fresh]
        rfl
      · rw [rd_wrF_ne ha, rd_wrF_ne ha, rd_fresh]
    · obtain ⟨hr, heq⟩ := ringCfgWrite_regsOnly (q := q) (v := v) (s := s) (t := wrF (RING_STATUS q) RING_STATUS_CFG_ERR stInvalidDesc (fresh s))
        (by rw [ringCfgWrite, if_pos hon', if_neg hz, ringModify, if_neg (by rw [hty, rdF_fresh, rdF_fresh]; exact hsame)])
        (RegsOnly.rfl.wrF _ _ _)
      refine ⟨_, (exec_ringCfgModify hw v).trans (congrArg _ hr), heq, ?_⟩
      rw [if_neg hsame]
      exact cfgErr_alone q s

/-! ## Doorbells (R59, R60) -/

theorem exec_doorbell (q : RingId) (v : Word) (s : State) : exec (.doorbell q v) s = .next (ran (ringDoorbell q v) s) := rfl
theorem exec_consumerDoorbell (q : RingId) (v : Word) (s : State) : exec (.consumerDoorbell q v) s = .next (ran (ringDoorbell q v) s) := rfl

/-- Outside PEARL and the way there, nothing is a wake source. -/
theorem wakeUp_awake {d : Die} {src : Nat} {s : State} (h : s.rdF (POWER_STATUS (powerDie s d)) POWER_STATUS_STATE = 0) : wakeUp d src s = s := by
  rw [wakeUp]
  exact if_neg (fun hp => by rw [h] at hp; obtain ⟨h0 | h0, -⟩ := hp <;> cases h0)

theorem powerDie_fresh (s : State) (d : Die) : powerDie (fresh s) d = powerDie s d := rfl

/-- A doorbell in full power, by what the ring is. -/
theorem ringDoorbell_awake {q : RingId} {v : Word} {s : State} (h : s.rdF (POWER_STATUS (powerDie s q.fn.ep)) POWER_STATUS_STATE = 0) :
    ringDoorbell q v (fresh s) = if ringOn s q = false ∨ flrActive s q.fn = true then dropDoorbell q.fn (fresh s)
      else if ringType s q < 9 then producerDoorbell q v (fresh s) else hostDoorbell q v (fresh s) := by
  rw [ringDoorbell, wakeUp_awake (by rw [powerDie_fresh, rdF_fresh]; exact h)]
  rw [ringOn_congr (t := fresh s) (s := s) rfl rfl, ringType_congr (t := fresh s) (s := s) rfl rfl, flrActive, flrActive, flag_fresh]

theorem ringProd_fresh (s : State) (q : RingId) : ringProd (fresh s) q = ringProd s q := by rw [ringProd, ringProd, rd_fresh]
theorem ringCons_fresh (s : State) (q : RingId) : ringCons (fresh s) q = ringCons s q := by rw [ringCons, ringCons, rd_fresh]
theorem ringSize_fresh (s : State) (q : RingId) : ringSize (fresh s) q = ringSize s q := by rw [ringSize, ringSize, rdF_fresh]
theorem now_fresh (s : State) (d : Die) : (fresh s).now d = s.now d := rfl

theorem doorbellOk_fresh (s : State) (q : RingId) (v : Word) : doorbellOk (fresh s) q v = doorbellOk s q v := by
  rw [doorbellOk, doorbellOk, ringProd_fresh, ringCons_fresh, ringSize_fresh]

theorem doorbellOk_iff (s : State) (q : RingId) (v : Word) : doorbellOk s q v = true ↔
    (v.toNat + 2 ^ 32 - ringProd s q) % 2 ^ 32 ≤ (ringCons s q + ringSize s q + 2 ^ 32 - ringProd s q) % 2 ^ 32 := decide_eq_true_iff

/-- A command whose effect writes one register, as it leaves the state. -/
theorem ran_wr {g : State → State} {s : State} {a : Nat} {v : Word} (h : g (fresh s) = wr a v (fresh s)) :
    ran g s = wr a v (fresh s) ∧ wr a v (fresh s) = { s with regs := (wr a v (fresh s)).regs, out := [] } :=
  ⟨(RegsOnly.ran (h ▸ regsOnly_wr _ _ _)).trans h, (regsOnly_wr _ _ _).fresh⟩

/-- The host's doorbell on a ring that the device writes, its value taken. -/
theorem hostDoorbell_taken {q : RingId} {v : Word} {s : State}
    (h : (v.toNat + 2 ^ 32 - ringCons s q) % 2 ^ 32 ≤ (ringProd s q + 2 ^ 32 - ringCons s q) % 2 ^ 32) :
    hostDoorbell q v (fresh s) =
      if ringType s q = 9 then
        (if v.toNat = ringCons s q then wr (RING_CONSUMER q) v (fresh s) else reportGap q.fn.ep q.fn (wr (RING_CONSUMER q) v (fresh s)))
      else if frozen s q.fn = true then wr (RING_CONSUMER q) v (fresh s)
      else refreshRings q.fn (drainHeld q.fn.ep q ((s.ringAux q).held.length + 1) (wr (RING_CONSUMER q) v (fresh s))) := by
  rw [hostDoorbell, if_pos (by rw [ringCons_fresh, ringProd_fresh]; exact h), ringType_congr (t := fresh s) (s := s) rfl rfl, ringCons_fresh, frozen, frozen, flag_fresh]
  rfl

/-- Settles O16: by the type of the ring, and where the value lies. -/
theorem doorbellsMoveTheirIndices : Obligations.DoorbellsMoveTheirIndices := by
  refine ⟨fun q v s hpow => ⟨fun hon hflr hty => ?_, fun hoff => ?_⟩, fun q v s hpow hon hflr hty hok => ?_⟩
  · have hb := ringDoorbell_awake (v := v) hpow
    rw [if_neg (by simp [hon, hflr]), if_pos hty, producerDoorbell, doorbellOk_fresh] at hb
    refine ⟨fun hok => ?_, fun hbad => ?_⟩
    · rw [if_pos ((doorbellOk_iff s q v).2 hok)] at hb
      obtain ⟨hr, heq⟩ := ran_wr hb
      exact ⟨_, (exec_doorbell q v s).trans (congrArg _ hr), heq, congrArg BitVec.toNat (rd_wr_same _ _ _), fun a ha => by rw [rd_wr_ne ha, rd_fresh]⟩
    · rw [if_neg (mt (doorbellOk_iff s q v).1 (Nat.not_le.mpr hbad)), badDoorbell, now_fresh, ringErrorEvent, Nat.mod_eq_of_lt v.isLt] at hb
      exact (exec_doorbell q v s).trans (congrArg _ (ran_congr hb))
  · have hb := ringDoorbell_awake (v := v) hpow
    rw [if_pos hoff, dropDoorbell] at hb
    obtain ⟨hr, heq⟩ := ran_wr hb
    refine ⟨_, (exec_doorbell q v s).trans (congrArg _ hr), heq, ?_, fun a ha => by rw [rd_wr_ne ha, rd_fresh]⟩
    refine (rdF_satF_same _ _ _ (fresh s) (by decide)).trans ?_
    rw [rdF_fresh]
    rfl
  · have hb := ringDoorbell_awake (v := v) hpow
    rw [if_neg (by simp [hon, hflr]), if_neg (Nat.not_lt.mpr hty), hostDoorbell_taken hok] at hb
    refine ⟨fun h9 hgap => ?_, fun h9 hmove => ?_, fun h9 hfr => ?_⟩
    · have hsame : (if v.toNat = ringCons s q then wr (RING_CONSUMER q) v (fresh s) else reportGap q.fn.ep q.fn (wr (RING_CONSUMER q) v (fresh s)))
          = wr (RING_CONSUMER q) v (fresh s) := by
        refine ite_eq_left_iff.2 fun hne => ?_
        rw [reportGap]
        exact if_pos (.inl (hgap.resolve_right hne))
      rw [if_pos h9, hsame] at hb
      obtain ⟨hr, heq⟩ := ran_wr hb
      exact ⟨_, (exec_consumerDoorbell q v s).trans (congrArg _ hr), heq, congrArg BitVec.toNat (rd_wr_same _ _ _), fun a ha => by rw [rd_wr_ne ha, rd_fresh]⟩
    · rw [if_pos h9, if_neg hmove] at hb
      exact (exec_consumerDoorbell q v s).trans (congrArg _ (ran_congr hb))
    · rw [if_neg h9, if_neg (by simp [hfr])] at hb
      exact (exec_consumerDoorbell q v s).trans (congrArg _ (ran_congr hb))

/-! ## Messages (R79, R80, R53) -/

theorem fnAux_fresh (s : State) (f : Fun) : (fresh s).fnAux f = s.fnAux f := rfl
theorem fnAux_setFn_same (f : Fun) (x : FnAux) (s : State) : (setFn f x s).fnAux f = x := tget_tset_same _ _ _ _

/-- Commands whose effect changes no register, nor memory: what it leaves, with what left the device. -/
theorem ran_rings {g : State → State} {s : State} {r : Tab RingAux} {o : List Out} (h : g (fresh s) = { s with rings := r, out := o })
    (ho : applyOut o s.mem = s.mem) : ran g s = { s with rings := r, out := o } := by
  rw [ran, h]
  exact congrArg (fun m => { s with rings := r, out := o, mem := m }) ho

theorem ran_fns {g : State → State} {s : State} {x : Tab FnAux} {o : List Out} (h : g (fresh s) = { s with fns := x, out := o })
    (ho : applyOut o s.mem = s.mem) : ran g s = { s with fns := x, out := o } := by
  rw [ran, h]
  exact congrArg (fun m => { s with fns := x, out := o, mem := m }) ho

theorem exec_ringIntWrite {f : Fun} {q : RingId} {s : State} (h : ringWriter s f q = true) (v : Word) :
    exec (.ringIntWrite f q v) s = .next (ran (ringIntWrite q v) s) := by
  exact run_ite_eq (p := fun u => ringWriter u f q) ((ringWriter_fresh s f q).trans h)

/-- The message of a vector, with the address and data of its entry. -/
def vectorMsg (s : State) (f : Fun) (vec : Nat) : Out :=
  .msix f vec (tget (0, 0) vec (s.fnAux f).vectors).1 (tget (0, 0) vec (s.fnAux f).vectors).2

theorem sendMsix_unmasked {f : Fun} {vec : Nat} {s : State} (h : (s.fnAux f).unmasked.contains vec = true) :
    sendMsix f vec s = { s with out := s.out ++ [vectorMsg s f vec] } := if_pos h

/-- The delay of the first counted entry passes: the counted entries reach their message (R79). -/
theorem intDelay_sends {q : RingId} {s : State} (hen : s.flag (RING_INT q) RING_INT_INT_EN = true) (hc : (s.ringAux q).intCount ≠ 0)
    (hu : (s.fnAux q.fn).unmasked.contains (s.rdF (RING_INT q) RING_INT_VECTOR) = true) :
    intDelay q (fresh s) = { s with rings := tset q.key { s.ringAux q with intCount := 0, intFirst := 0 } s.rings,
                                    out := [vectorMsg s q.fn (s.rdF (RING_INT q) RING_INT_VECTOR)] } := by
  rw [intDelay, if_pos ⟨by rw [flag_fresh]; exact hen, hc⟩, sendRingInt, rdF_fresh]
  exact sendMsix_unmasked hu

/-- A vector is unmasked: what was pending is sent (R53). -/
theorem unmaskVector_fresh (f : Fun) (vec : Nat) (s : State) :
    unmaskVector f vec (fresh s) =
      { s with fns := tset f.key { s.fnAux f with unmasked := if (s.fnAux f).unmasked.contains vec then (s.fnAux f).unmasked else vec :: (s.fnAux f).unmasked, pba := (s.fnAux f).pba.filter (fun p => p != vec) } s.fns,
               out := if (s.fnAux f).pba.contains vec then [vectorMsg s f vec] else [] } := by
  rw [unmaskVector]
  by_cases h : (s.fnAux f).pba.contains vec = true
  · rw [if_pos h]
    refine (if_pos h).trans ?_
    rw [sendVector, fnAux_setFn_same]
    rfl
  · rw [if_neg h]
    exact if_neg h

theorem mem_unmasked (vec : Nat) (l : List Nat) : vec ∈ (if l.contains vec then l else vec :: l) := by
  split
  · next h => simpa using h
  · simp

/-- The 32 bits of a word of the pending array add up to the word. -/
theorem testBit_pendingSum (p : Nat → Bool) (n i : Nat) :
    ((List.range n).map (fun k => if p k then 2 ^ k else 0)).sum.testBit i = (decide (i < n) && p i)
      ∧ ((List.range n).map (fun k => if p k then 2 ^ k else 0)).sum < 2 ^ n := by
  induction n with
  | zero => simp
  | succ n ih =>
    obtain ⟨hb, hlt⟩ := ih
    have hpow : (2 : Nat) ^ (n + 1) = 2 ^ n + 2 ^ n := by rw [Nat.pow_succ, Nat.mul_two]
    rw [List.range_succ, List.map_append, List.sum_append]
    simp only [List.map_cons, List.map_nil, List.sum_cons, List.sum_nil, Nat.add_zero]
    by_cases hp : p n = true
    · rw [if_pos hp]
      refine ⟨?_, by omega⟩
      rw [Nat.add_comm]
      rcases Nat.lt_trichotomy i n with h | rfl | h
      · rw [Nat.testBit_two_pow_add_gt h, hb]
        simp [h, Nat.lt_succ_of_lt h]
      · rw [Nat.testBit_two_pow_add_eq, Nat.testBit_lt_two_pow hlt]
        simp [hp]
      · rw [Nat.testBit_lt_two_pow (Nat.lt_of_lt_of_le (by omega) (Nat.pow_le_pow_right (by decide) (h : n + 1 ≤ i)))]
        simp [show ¬i < n + 1 by omega]
    · rw [if_neg hp, Nat.add_zero]
      refine ⟨?_, by omega⟩
      rw [hb]
      rcases Nat.lt_trichotomy i n with h | rfl | h
      · simp [h, Nat.lt_succ_of_lt h]
      · simp [hp]
      · simp [show ¬i < n + 1 by omega, show ¬i < n by omega]

/-! ### BAR2 (R52, R53) -/

theorem exec_registerWrite (f : Fun) (off : Nat) (v : Word) (s : State) : exec (.registerWrite f off v) s = .next (ran (regWrite f off v) s) := rfl
theorem exec_loRead (f : Fun) (off : Nat) (s : State) : exec (.loRead f off) s = .next (ran (regRead f off) s) := rfl

theorem bar2Off_at (o : Nat) : bar2Off (0x4000000 + o) = some o := by
  rw [bar2Off, if_pos (Nat.le_add_right _ _), Nat.add_sub_cancel_left]

theorem regWrite_bar2 {f : Fun} {s : State} (h : bar2Open s f = true) (o : Nat) (v : Word) :
    regWrite f (0x4000000 + o) v s = bar2Write f o v s := by
  rw [regWrite, bar2Off_at]
  exact if_pos h

theorem regRead_bar2 {f : Fun} {s : State} (h : bar2Open s f = true) (o : Nat) :
    regRead f (0x4000000 + o) s = { s with readData := BitVec.ofNat 32 (bar2Word s f o) } := by
  rw [regRead, bar2Off_at]
  exact congrArg (fun w => { s with readData := w }) (if_pos h)

theorem bar2Open_fresh (s : State) (f : Fun) : bar2Open (fresh s) f = bar2Open s f := by
  rw [bar2Open, bar2Open, setupFn, setupFn, flag_fresh]
  rfl

/-- A word of the table is written. -/
theorem bar2Write_entry {vec field : Nat} (hv : vec < 64) (hf : field < 4) (f : Fun) (v : Word) (s : State) :
    bar2Write f (16 * vec + 4 * field) v s = vectorWrite f vec field v s := by
  rw [bar2Write, if_pos (by omega), show (16 * vec + 4 * field) / 16 = vec by omega, show (16 * vec + 4 * field) % 16 / 4 = field by omega]

theorem bar2Word_entry {vec field : Nat} (hv : vec < 64) (hf : field < 4) (f : Fun) (s : State) :
    bar2Word s f (16 * vec + 4 * field) = vectorWord s f vec field := by
  rw [bar2Word, if_pos (by omega), show (16 * vec + 4 * field) / 16 = vec by omega, show (16 * vec + 4 * field) % 16 / 4 = field by omega]

/-- The write of a word of a function's table, whatever its effect. -/
theorem exec_writeEntry {f : Fun} {s : State} {vec field : Nat} (hb : bar2Open s f = true) (hv : vec < 64) (hf : field < 4) (v : Word) :
    exec (.registerWrite f (0x4000000 + 16 * vec + 4 * field) v) s = .next (ran (vectorWrite f vec field v) s) := by
  rw [exec_registerWrite, Nat.add_assoc]
  exact congrArg _ (ran_congr ((regWrite_bar2 ((bar2Open_fresh s f).trans hb) _ v).trans (bar2Write_entry hv hf f v _)))

/-- The read of a word of a function's table. -/
theorem exec_readEntry {f : Fun} {s : State} {vec field : Nat} (hb : bar2Open s f = true) (hv : vec < 64) (hf : field < 4) :
    ∃ w, exec (.loRead f (0x4000000 + 16 * vec + 4 * field)) s = .next w ∧ w.readData = BitVec.ofNat 32 (vectorWord s f vec field) := by
  refine ⟨_, exec_loRead _ _ _, ?_⟩
  rw [ran_readData, Nat.add_assoc, regRead_bar2 ((bar2Open_fresh s f).trans hb), bar2Word_entry hv hf]
  rfl

/-- An entry of the table takes a new value, and nothing is sent. -/
theorem ran_putVector {f : Fun} {s : State} {vec field : Nat} {v : Word} {y : Nat × Nat}
    (h : vectorWrite f vec field v (fresh s) = setFn f { s.fnAux f with vectors := tset vec y (s.fnAux f).vectors } (fresh s)) :
    ran (vectorWrite f vec field v) s = { s with fns := tset f.key { s.fnAux f with vectors := tset vec y (s.fnAux f).vectors } s.fns, out := [] } :=
  ran_fns h rfl

/-- The function's table with one entry replaced. -/
theorem vectors_put (f : Fun) (s : State) (x : FnAux) : ({ s with fns := tset f.key x s.fns, out := [] } : State).fnAux f = x := tget_tset_same _ _ _ _

theorem vectorWrite_low (f : Fun) (vec : Nat) (v : Word) (s : State) :
    vectorWrite f vec 0 v s = setFn f { s.fnAux f with vectors := tset vec ((tget (0, 0) vec (s.fnAux f).vectors).1 / 2 ^ 32 * 2 ^ 32 + v.toNat / 4 * 4, (tget (0, 0) vec (s.fnAux f).vectors).2) (s.fnAux f).vectors } s := rfl
theorem vectorWrite_high (f : Fun) (vec : Nat) (v : Word) (s : State) :
    vectorWrite f vec 1 v s = setFn f { s.fnAux f with vectors := tset vec ((tget (0, 0) vec (s.fnAux f).vectors).1 % 2 ^ 32 + v.toNat * 2 ^ 32, (tget (0, 0) vec (s.fnAux f).vectors).2) (s.fnAux f).vectors } s := rfl
theorem vectorWrite_data (f : Fun) (vec : Nat) (v : Word) (s : State) :
    vectorWrite f vec 2 v s = setFn f { s.fnAux f with vectors := tset vec ((tget (0, 0) vec (s.fnAux f).vectors).1, v.toNat) (s.fnAux f).vectors } s := rfl
theorem vectorWrite_mask {f : Fun} {vec : Nat} {v : Word} (h : v.toNat % 2 = 1) (s : State) :
    vectorWrite f vec 3 v s = setFn f { s.fnAux f with unmasked := (s.fnAux f).unmasked.filter (fun p => p != vec) } s :=
  if_neg (by rw [h]; decide)
theorem vectorWrite_unmask {f : Fun} {vec : Nat} {v : Word} (h : v.toNat % 2 = 0) (s : State) :
    vectorWrite f vec 3 v s = unmaskVector f vec s := if_pos h

/-- RING_INT takes its value, and the ring has counted no entry. -/
def uncounted (q : RingId) (v : Word) (s : State) : State :=
  setRing q { s.ringAux q with intCount := 0, intFirst := 0 } (wr (RING_INT q) (v &&& ringIntMask) s)

theorem rd_uncounted_same (q : RingId) (v : Word) (s : State) : (uncounted q v s).rd (RING_INT q) = v &&& ringIntMask :=
  (rd_congr (s := wr (RING_INT q) (v &&& ringIntMask) s) rfl rfl _).trans (rd_wr_same _ _ _)
theorem rd_uncounted_ne {q : RingId} {a : Nat} (h : a ≠ RING_INT q) (v : Word) (s : State) : (uncounted q v s).rd a = s.rd a :=
  (rd_congr (s := wr (RING_INT q) (v &&& ringIntMask) s) rfl rfl _).trans (rd_wr_ne h _ _)
theorem ringAux_uncounted (q : RingId) (v : Word) (s : State) :
    (uncounted q v s).ringAux q = { s.ringAux q with intCount := 0, intFirst := 0 } := ringAux_setRing_same _ _ _

/-- A write of RING_INT that clears INT_EN discards the count (R80). -/
theorem ringIntWrite_discards {q : RingId} {v : Word} {s : State} (h : RING_INT_INT_EN.get v = 0) : ringIntWrite q v s = uncounted q v s := if_pos (.inl h)

/-- A write of RING_INT whose limit the count has reached sends the message (R80). -/
theorem ringIntWrite_sends {q : RingId} {v : Word} {s : State} (h : RING_INT_INT_EN.get v ≠ 0) (hen : s.flag (RING_INT q) RING_INT_INT_EN = true)
    (hc : (s.ringAux q).intCount ≠ 0) (hm : RING_INT_BATCH_M1.get v < (s.ringAux q).intCount) :
    ringIntWrite q v s = sendMsix q.fn (RING_INT_VECTOR.get v) (uncounted q v s) := by
  rw [ringIntWrite]
  refine (if_neg (by simp [h, hen])).trans ((if_pos ⟨hc, .inl hm⟩).trans ?_)
  rw [sendRingInt, rdF_wr_same, get_and (by decide)]
  rfl

/-- Whichever way a message goes, it changes the record of its function and the line to the host alone. -/
theorem sendMsix_eq (f : Fun) (vec : Nat) (s : State) : ∃ x,
    sendMsix f vec s = { s with fns := x, out := s.out ++ if (s.fnAux f).unmasked.contains vec then [vectorMsg s f vec] else [] } := by
  rw [sendMsix]
  split
  · exact ⟨s.fns, rfl⟩
  · exact ⟨_, by rw [List.append_nil]; rfl⟩

theorem sendMsix_keeps (f : Fun) (vec : Nat) (s : State) :
    (∀ a, (sendMsix f vec s).rd a = s.rd a) ∧ (∀ q, (sendMsix f vec s).ringAux q = s.ringAux q)
      ∧ (sendMsix f vec s).out = s.out ++ if (s.fnAux f).unmasked.contains vec then [vectorMsg s f vec] else [] := by
  obtain ⟨x, hx⟩ := sendMsix_eq f vec s
  rw [hx]
  exact ⟨fun a => rd_congr rfl rfl a, fun _ => rfl, rfl⟩

/-- A write of a table entry keeps BAR2 open. -/
theorem bar2Open_writeEntry {f : Fun} {s t : State} (ht : t = { s with fns := t.fns, out := [] }) : bar2Open t f = bar2Open s f := by
  have hr : t.regs = s.regs := (congrArg State.regs ht :)
  have hp : t.part = s.part := (congrArg State.part ht :)
  have hi : t.inReset = s.inReset := (congrArg State.inReset ht :)
  rw [bar2Open, bar2Open, setupFn, setupFn, flag_congr hr hp, hi]

/-- The word of the pending bits at a vector's place. -/
theorem bar2Word_pending {vec : Nat} (hv : vec < 64) (f : Fun) (s : State) :
    (BitVec.ofNat 32 (bar2Word s f (0x1000 + 4 * (vec / 32)))).getLsbD (vec % 32) = (s.fnAux f).pba.contains vec := by
  rw [bar2Word, if_neg (by omega), if_pos (by omega), BitVec.getLsbD_ofNat, show upto 32 = List.range 32 from rfl,
    (testBit_pendingSum (fun i => (s.fnAux f).pba.contains (i + 8 * (0x1000 + 4 * (vec / 32) - 0x1000))) 32 (vec % 32)).1,
    show vec % 32 + 8 * (0x1000 + 4 * (vec / 32) - 0x1000) = vec by omega]
  simp [Nat.mod_lt vec (show 0 < 32 by decide)]

/-- Settles O17: what is due is sent with its entry's address and data, and each word of BAR2 is the table's or the pending array's. -/
theorem ringMessages : Obligations.RingMessages := by
  refine ⟨fun q s hen hc hu => ?_, fun f q v s hw => ⟨fun hen => ?_, fun hen hwas hc hm => ?_⟩, fun f vec s => ?_,
    fun f vec v s hv hb => ⟨?_, ?_, ?_, fun hm => ?_, fun hm => ?_, ?_⟩⟩
  · exact ⟨_, congrArg Host.Outcome.next (ran_rings (intDelay_sends hen hc hu) rfl), rfl, rfl, tget_tset_same _ _ _ _⟩
  · have hg := ringIntWrite_discards (q := q) (s := fresh s) hen
    have hr : ran (ringIntWrite q v) s = uncounted q v (fresh s) := by rw [ran_silent] <;> rw [hg] <;> rfl
    exact ⟨_, (exec_ringIntWrite hw v).trans (congrArg _ hr), rfl, rd_uncounted_same _ _ _, ringAux_uncounted _ _ _,
      fun a ha => (rd_uncounted_ne ha _ _).trans (rd_fresh s a)⟩
  · have hg := ringIntWrite_sends (q := q) (s := fresh s) hen ((flag_fresh _ _ _).trans hwas) hc hm
    obtain ⟨hrd, haux, hout⟩ := sendMsix_keeps q.fn (RING_INT_VECTOR.get v) (uncounted q v (fresh s))
    rw [← hg] at hrd haux hout
    refine ⟨_, exec_ringIntWrite hw v, (hrd _).trans (rd_uncounted_same _ _ _), ?_, hout⟩
    exact congrArg RingAux.intCount ((haux q).trans (ringAux_uncounted _ _ _))
  · refine ⟨_, congrArg Host.Outcome.next (ran_fns (unmaskVector_fresh f vec s) (by split <;> rfl)), rfl, ?_, ?_, rfl⟩
    · rw [State.fnAux, tget_tset_same]
      exact mem_unmasked vec _
    · rw [State.fnAux, tget_tset_same]
      simp
  · refine ⟨_, (exec_writeEntry (field := 0) hb hv (by decide) v).trans (congrArg _ (ran_putVector (vectorWrite_low f vec v (fresh s)))), rfl, ?_⟩
    rw [vectors_put]
    dsimp only
    rw [tget_tset_same, fnAux_fresh]
    have hlt := v.isLt
    exact ⟨by dsimp only; omega, by dsimp only; omega, fun n hn => tget_tset_ne _ hn _ _⟩
  · refine ⟨_, (exec_writeEntry (field := 1) hb hv (by decide) v).trans (congrArg _ (ran_putVector (vectorWrite_high f vec v (fresh s)))), rfl, ?_⟩
    rw [vectors_put]
    dsimp only
    rw [tget_tset_same, fnAux_fresh]
  · have hr := ran_putVector (vectorWrite_data f vec v (fresh s))
    have heq : ran (vectorWrite f vec 2 v) s = { s with fns := (ran (vectorWrite f vec 2 v) s).fns, out := [] } := by rw [hr]
    obtain ⟨w, hw, hd⟩ := exec_readEntry (f := f) (field := 2) ((bar2Open_writeEntry heq).trans hb) hv (by decide)
    refine ⟨_, w, exec_writeEntry (field := 2) hb hv (by decide) v, heq, ?_, hw, ?_⟩
    · rw [hr, vectors_put]
      exact tget_tset_same _ _ _ _
    · rw [hd, vectorWord, hr, vectors_put]
      dsimp only
      rw [tget_tset_same]
      exact BitVec.ofNat_toNat 32 v
  · have hr : ran (vectorWrite f vec 3 v) s =
        { s with fns := tset f.key { s.fnAux f with unmasked := (s.fnAux f).unmasked.filter (fun p => p != vec) } s.fns, out := [] } :=
      ran_fns (vectorWrite_mask hm (fresh s)) rfl
    have heq : ran (vectorWrite f vec 3 v) s = { s with fns := (ran (vectorWrite f vec 3 v) s).fns, out := [] } := by rw [hr]
    obtain ⟨w, hw, hd⟩ := exec_readEntry (f := f) (field := 3) ((bar2Open_writeEntry heq).trans hb) hv (by decide)
    have haux : (ran (vectorWrite f vec 3 v) s).fnAux f = { s.fnAux f with unmasked := (s.fnAux f).unmasked.filter (fun p => p != vec) } := by
      rw [hr, vectors_put]
    refine ⟨_, w, exec_writeEntry (field := 3) hb hv (by decide) v, heq, ?_, ?_, hw, ?_⟩
    · rw [haux]
      simp
    · rw [haux]
    · rw [hd, vectorWord, haux]
      simp [b2n]
  · rw [exec_writeEntry (field := 3) hb hv (by decide)]
    exact congrArg _ (ran_congr (vectorWrite_unmask hm _))
  · refine ⟨_, exec_loRead _ _ _, ?_⟩
    rw [ran_readData, Nat.add_assoc, regRead_bar2 ((bar2Open_fresh s f).trans hb)]
    exact bar2Word_pending hv f (fresh s)

end Sys2Proof.Machine
end

section
/-! Fetching (R61, R66, R91), and what waits for a fence (R72). -/
namespace Sys2Proof.Machine

/-! ## A fetch -/

theorem exec_descriptorFetch (q : RingId) (s : State) : exec (.descriptorFetch q) s = .next (ran (fetchNext q) s) := rfl

theorem ringServes_fresh (s : State) (q : RingId) : ringServes (fresh s) q = ringServes s q := by
  simp only [ringServes, ringOn_congr (t := fresh s) (s := s) rfl rfl, ringType_congr (t := fresh s) (s := s) rfl rfl, flrActive, frozen, flag_fresh,
    rdF_fresh]
  rfl

theorem idxDiff_self (n : Nat) : idxDiff n n = 0 := by rw [idxDiff, Nat.add_sub_cancel_left, Nat.mod_self]

/-- A ring that serves and covers a slot reads on from the slot of its consumer index. -/
theorem fetchNext_serving {q : RingId} {s : State} (h : ringServes s q = true) (hc : idxDiff (ringProd s q) (ringCons s q) ≠ 0) :
    fetchNext q s =
      match readChain q (min (min 64 (ringSize s q)) (idxDiff (ringProd s q) (ringCons s q))) (ringCons s q) s with
      | (.error idx, s1) => fetchFault q idx s1
      | (.ok (ds, closed), s1) =>
        if closed = false ∧ ds.length < min 64 (ringSize s q) then s1 |> setRing q { s1.ringAux q with chain := true } |> wrF (RING_STATUS q) RING_STATUS_STATE 2
        else if closed ∧ ds.any (holdsBack q s1) then s1
        else
          let fail := if closed then none else some (stInvalidDesc, invalidDetail 0x06 1 + (min 64 (ringSize s q) - 1) * 2 ^ 16)
          s1 |> passSlots q ds.length |> submitAll (opFor (ringType s1 q)) q ds fail := by
  rw [fetchNext]
  exact if_neg (by simp [h, hc])

/-- The first slot is read at once, whatever the number of slots asked for. -/
theorem readChain_single {q : RingId} {n idx : Nat} {s s1 : State} {bs : List Byte} (hn : n ≠ 0)
    (h : dmaRead q.fn.ep q.fn q.ring (ringBase s q + 64 * (idx % ringSize s q)) 64 9 s = (.ok bs, s1)) (hc : dChain (descOf bs) = false) :
    readChain q n idx s = (.ok ([descOf bs], true), s1) := by
  obtain ⟨m, rfl⟩ := Nat.exists_eq_succ_of_ne_zero hn
  rw [readChain, h]
  exact if_neg (by simp [hc])

theorem readChain_error {q : RingId} {n idx : Nat} {s s1 : State} {e : DmaErr} (hn : n ≠ 0)
    (h : dmaRead q.fn.ep q.fn q.ring (ringBase s q + 64 * (idx % ringSize s q)) 64 9 s = (.error e, s1)) :
    readChain q n idx s = (.error idx, s1) := by
  obtain ⟨m, rfl⟩ := Nat.exists_eq_succ_of_ne_zero hn
  rw [readChain, h]

theorem slots_ne_zero {q : RingId} {s : State} (hc : idxDiff (ringProd s q) (ringCons s q) ≠ 0) :
    min (min 64 (ringSize s q)) (idxDiff (ringProd s q) (ringCons s q)) ≠ 0 := by
  have : 0 < ringSize s q := Nat.two_pow_pos _
  omega

/-- Settles O18: by whether a slot is covered, and whether it can be read. -/
theorem fetchTakesTheNextSlot : Obligations.FetchTakesTheNextSlot := by
  intro q s hsv
  have hsv' : ringServes (fresh s) q = true := (ringServes_fresh s q).trans hsv
  have hread : dmaRead q.fn.ep q.fn q.ring (ringBase (fresh s) q + 64 * (ringCons (fresh s) q % ringSize (fresh s) q)) 64 9 (fresh s)
      = dmaRead q.fn.ep q.fn q.ring (ringBase s q + 64 * (ringCons s q % ringSize s q)) 64 9 (fresh s) := by
    rw [ringCons_fresh, ringSize_fresh, ringBase, ringBase, rd64_of_rd (rd_fresh _ _) (rd_fresh _ _)]
  refine ⟨fun h => ?_, fun hc => ⟨fun bs s1 hr hch hb => ?_, fun err s1 hr => ?_⟩⟩
  · rw [exec_descriptorFetch, ran_same]
    rw [fetchNext, ringProd_fresh, ringCons_fresh, h, idxDiff_self]
    exact if_pos (.inr rfl)
  all_goals
    have hc' : idxDiff (ringProd (fresh s) q) (ringCons (fresh s) q) ≠ 0 := by rwa [ringProd_fresh, ringCons_fresh]
    rw [exec_descriptorFetch]
    refine congrArg _ (ran_congr ?_)
    rw [fetchNext_serving hsv' hc']
  · rw [readChain_single (slots_ne_zero hc') (hread.trans hr) hch]
    refine (if_neg (by simp)).trans ((if_neg (by simp [hb])).trans rfl)
  · rw [readChain_error (slots_ne_zero hc') (hread.trans hr)]
    dsimp only
    rw [fetchFault, ringErrorEvent, ringCons_fresh, Nat.mod_eq_of_lt (show ringCons s q < 2 ^ 32 from BitVec.isLt _)]

/-! ## A flight whose route went while it waited -/

/-- A ring of die A, a STOP with FENCE_WAIT on it, and the haptic route that it was fetched under. -/
def stopRing : RingId := ⟨⟨.a, 0⟩, 1⟩
def stopDesc : Desc := BitVec.ofNat 512 (0x11 + 0x18 * 2 ^ 8 + 1 * 2 ^ 32)
def stopRoute : Route := ⟨5, 1, ⟨.a, 0⟩, ⟨.a, 0⟩, 0, 0, 0, none⟩
def stopFlight : Flight := ⟨0, [stopDesc], 0, 0, 0, 0, false, 0, [], 0, [(1, stopRoute)]⟩

/-- The STOP waits; its route has been deleted meanwhile. -/
def goneState : State := { State.reset with rings := [(stopRing.key, { RingAux.empty with flights := [stopFlight] })] }

/-- It begins under the route it was fetched under, and its channel is scrubbed. -/
theorem stop_begins_under_route : (ran (releaseWaits stopRing) goneState).haptics.length = 1 := by decide +kernel

/-- Begun under the routes that stand, it finds no route and touches no channel. -/
theorem stop_begun_without_route :
    (ran (fun u => u |> begin_ (opFor (dQtype stopFlight.first)) stopRing stopFlight |> settle stopRing) goneState).haptics.length = 0 := by
  decide +kernel

theorem exec_fenceWaitRelease (q : RingId) (s : State) : exec (.fenceWaitRelease q) s = .next (ran (releaseWaits q) s) := rfl

/-- Refutes O19: a flight that waited begins under the routes it was fetched under (R23), so where one of them has gone its work is not
that of `begin_` under the routes that stand. -/
theorem not_fencesAndWaitsHoldAndEnd : ¬ Obligations.FencesAndWaitsHoldAndEnd := by
  rintro ⟨-, hwait, -⟩
  have h := hwait stopRing stopFlight goneState (by decide +kernel) (by decide +kernel) rfl rfl (by decide +kernel) (by decide +kernel)
  rw [exec_fenceWaitRelease, Host.Outcome.next.injEq] at h
  have hlen := congrArg (fun t => t.haptics.length) h
  rw [stop_begins_under_route, stop_begun_without_route] at hlen
  exact absurd hlen (by decide)

end Sys2Proof.Machine
end

section
/-! What a command leaves as it was: the state apart from the parts that its updates touch. -/
namespace Sys2Proof.Machine

/-- Two states differ at most in what `m` blanks. -/
def Only (m : State → State) (s t : State) : Prop := m t = m s

namespace Only
variable {m : State → State} {s t : State}

theorem rfl : Only m s s := Eq.refl _
theorem trans {u : State} (h : Only m s t) (h' : Only m t u) : Only m s u := Eq.trans h' h
theorem wr (h : Only m s t) (a : Nat) (v : Word) (hm : ∀ u r, m { u with regs := r } = m u := by intros; rfl) : Only m s (wr a v t) := (hm _ _).trans h
theorem wrF (h : Only m s t) (a : Nat) (f : Fld) (n : Nat) (hm : ∀ u r, m { u with regs := r } = m u := by intros; rfl) : Only m s (wrF a f n t) := (hm _ _).trans h
theorem wrB (h : Only m s t) (a : Nat) (f : Fld) (b : Bool) (hm : ∀ u r, m { u with regs := r } = m u := by intros; rfl) : Only m s (wrB a f b t) := (hm _ _).trans h
theorem satF (h : Only m s t) (a : Nat) (f : Fld) (n : Nat) (hm : ∀ u r, m { u with regs := r } = m u := by intros; rfl) : Only m s (satF a f n t) := (hm _ _).trans h
theorem setPace (h : Only m s t) (d : Die) (x : Pace) (hm : ∀ u r, m { u with pace := r } = m u := by intros; rfl) : Only m s (setPace d x t) := (hm _ _).trans h
theorem setXing (h : Only m s t) (d : Die) (n : Nat) (x : Xing) (hm : ∀ u r, m { u with xings := r } = m u := by intros; rfl) : Only m s (setXing d n x t) := (hm _ _).trans h
theorem setRin (h : Only m s t) (d : Die) (x : Rinlar) (hm : ∀ u r, m { u with rinlar := r } = m u := by intros; rfl) : Only m s (setRin d x t) := (hm _ _).trans h
theorem emit (h : Only m s t) (o : Out) (hm : ∀ u r, m { u with out := r } = m u := by intros; rfl) : Only m s (emit o t) := (hm _ _).trans h
theorem ite {p : Prop} [Decidable p] {u : State} (h : Only m s t) (h' : Only m s u) : Only m s (if p then t else u) := by
  split
  · exact h
  · exact h'

theorem of_regsOnly (h : RegsOnly s t) (hm : ∀ u r, m { u with regs := r } = m u := by intros; rfl) : Only m s t := by
  obtain ⟨r, hr⟩ := h
  rw [hr]
  exact hm s r

/-- What `m` allows to differ, `k` allows too. -/
theorem mono {k : State → State} (h : Only m s t) (hk : ∀ u, k (m u) = k u := by intros; rfl) : Only k s t :=
  (hk t).symm.trans ((congrArg k h).trans (hk s))

theorem regs_eq (h : Only m s t) (hm : ∀ u, (m u).regs = u.regs := by intros; rfl) : t.regs = s.regs := (hm t).symm.trans ((congrArg State.regs h).trans (hm s))
theorem part_eq (h : Only m s t) (hm : ∀ u, (m u).part = u.part := by intros; rfl) : t.part = s.part := (hm t).symm.trans ((congrArg State.part h).trans (hm s))
theorem xings_eq (h : Only m s t) (hm : ∀ u, (m u).xings = u.xings := by intros; rfl) : t.xings = s.xings :=
  (hm t).symm.trans ((congrArg State.xings h).trans (hm s))
theorem rd_eq (h : Only m s t) (a : Nat) (hr : ∀ u, (m u).regs = u.regs := by intros; rfl) (hp : ∀ u, (m u).part = u.part := by intros; rfl) :
    t.rd a = s.rd a := rd_congr (h.regs_eq hr) (h.part_eq hp) a
theorem mem_eq (h : Only m s t) (hm : ∀ u, (m u).mem = u.mem := by intros; rfl) : t.mem = s.mem := (hm t).symm.trans ((congrArg State.mem h).trans (hm s))
theorem pending_eq (h : Only m s t) (hm : ∀ u, (m u).pending = u.pending := by intros; rfl) : t.pending = s.pending :=
  (hm t).symm.trans ((congrArg State.pending h).trans (hm s))
theorem out_eq (h : Only m s t) (hm : ∀ u, (m u).out = u.out := by intros; rfl) : t.out = s.out := (hm t).symm.trans ((congrArg State.out h).trans (hm s))

theorem regsPaceOut (h : Only (fun u => { u with regs := [], pace := [], out := [] }) (fresh s) t) :
    t = { s with regs := t.regs, pace := t.pace, out := t.out } :=
  congrArg (fun u => { u with regs := t.regs, pace := t.pace, out := t.out }) h
theorem regsPace (h : Only (fun u => { u with regs := [], pace := [] }) (fresh s) t) : t = { s with regs := t.regs, pace := t.pace, out := [] } :=
  congrArg (fun u => { u with regs := t.regs, pace := t.pace }) h
theorem regsPaceRinlar (h : Only (fun u => { u with regs := [], pace := [], rinlar := [] }) (fresh s) t) :
    t = { s with regs := t.regs, pace := t.pace, rinlar := t.rinlar, out := [] } :=
  congrArg (fun u => { u with regs := t.regs, pace := t.pace, rinlar := t.rinlar }) h
theorem regsXings (h : Only (fun u => { u with regs := [], xings := [] }) (fresh s) t) : t = { s with regs := t.regs, xings := t.xings, out := [] } :=
  congrArg (fun u => { u with regs := t.regs, xings := t.xings }) h

end Only

/-! ## What writes only some registers -/

/-- Nothing but registers of a list differs. -/
def Touches (L : List Nat) (s t : State) : Prop := RegsOnly s t ∧ ∀ a, a ∉ L → t.rd a = s.rd a

namespace Touches
variable {L : List Nat} {s t : State}

theorem rfl : Touches L s s := ⟨RegsOnly.rfl, fun _ _ => Eq.refl _⟩
theorem trans {u : State} (h : Touches L s t) (h' : Touches L t u) : Touches L s u :=
  ⟨h.1.trans h'.1, fun a ha => (h'.2 a ha).trans (h.2 a ha)⟩
theorem wr (h : Touches L s t) {a : Nat} (v : Word) (ha : a ∈ L := by simp) : Touches L s (wr a v t) :=
  h.trans ⟨regsOnly_wr _ _ _, fun _ hb => rd_wr_ne (fun e => hb (by rw [e]; exact ha)) _ _⟩
theorem wrF (h : Touches L s t) {a : Nat} (f : Fld) (n : Nat) (ha : a ∈ L := by simp) : Touches L s (wrF a f n t) := h.wr _ ha
theorem wrB (h : Touches L s t) {a : Nat} (f : Fld) (b : Bool) (ha : a ∈ L := by simp) : Touches L s (wrB a f b t) := h.wr _ ha
theorem satF (h : Touches L s t) {a : Nat} (f : Fld) (n : Nat) (ha : a ∈ L := by simp) : Touches L s (satF a f n t) := h.wr _ ha
theorem ite {p : Prop} [Decidable p] {u : State} (h : Touches L s t) (h' : Touches L s u) : Touches L s (if p then t else u) := by
  split
  · exact h
  · exact h'
theorem foldl {α : Type} {g : State → α → State} (h : Touches L s t) {xs : List α} (hg : ∀ x ∈ xs, ∀ u, Touches L u (g u x)) : Touches L s (xs.foldl g t) := by
  induction xs generalizing t with
  | nil => exact h
  | cons x xs ih =>
    obtain ⟨hx, hxs⟩ := List.forall_mem_cons.1 hg
    exact ih (h.trans (hx t)) hxs

end Touches

/-- A command whose effect is `t`, which keeps memory, the queue, and sends nothing to memory. -/
theorem ran_quiet {g : State → State} {s t : State} (hg : g (fresh s) = t) (hm : t.mem = s.mem) (hp : t.pending = s.pending)
    (ho : applyOut t.out s.mem = s.mem) : ran g s = t := by
  have hmem : applyOut t.out s.mem = t.mem := ho.trans hm.symm
  rw [ran, hg, hmem, ← hp]

/-- A command whose effect keeps memory and the queue, and sends nothing out. -/
theorem Only.ran {m : State → State} {g : State → State} {s t : State} (h : Only m (fresh s) t) (hg : g (fresh s) = t)
    (hm : ∀ u, (m u).mem = u.mem := by intros; rfl) (hp : ∀ u, (m u).pending = u.pending := by intros; rfl)
    (ho : ∀ u, (m u).out = u.out := by intros; rfl) : Machine.ran g s = t :=
  ran_quiet hg (h.mem_eq hm) (h.pending_eq hp) (by rw [h.out_eq ho]; exact Eq.refl _)

end Sys2Proof.Machine
end

section
/-! Pace and the core regulator (R26–R36, R50, R51). -/
namespace Sys2Proof.Machine

/-! ## The regulator's commands (R32–R36) -/

theorem clampMv_congr {s t : State} {d : Die} (h : t.rd (AVS_LIMITS d) = s.rd (AVS_LIMITS d)) (mv : Nat) : clampMv t d mv = clampMv s d mv := by
  rw [clampMv, clampMv, rdF_of_rd h, rdF_of_rd h]


/-- A voltage write is sent to the rail, clamped, and shown in VOUT_MV. -/
theorem command_sends {d : Die} {s : State} (h : s.flag (AVS_STATUS d) AVS_STATUS_AVS_FAULT = false) (mv : Nat) :
    Only (fun u => { u with regs := [], pace := [], out := [] }) s (command d mv s)
      ∧ (command d mv s).out = s.out ++ [.avs d (s.rdF (AVS_CTRL d) AVS_CTRL_RAIL_SEL) 0 (clampMv s d mv)]
      ∧ (command d mv s).rdF (AVS_STATUS d) AVS_STATUS_VOUT_MV = clampMv s d mv % 2 ^ 16
      ∧ ∀ a, a ≠ AVS_STATUS d → (command d mv s).rd a = s.rd a := by
  have hc : command d mv s = emit (.avs d (s.rdF (AVS_CTRL d) AVS_CTRL_RAIL_SEL) 0 (clampMv s d mv))
      (setPace d { s.paceOf d with frame := some (clampMv s d mv, 0) } (wrF (AVS_STATUS d) AVS_STATUS_VOUT_MV (clampMv s d mv) s)) := by
    rw [command, if_neg (by simp [h])]
    simp only [avsSend, setPace_keeps, rdF_wrF_ne (show AVS_CTRL d ≠ AVS_STATUS d by simp [AVS_CTRL, AVS_STATUS])]
  rw [hc]
  refine ⟨((Only.rfl.wrF _ _ _).setPace _ _).emit _, ?_, ?_, fun a ha => ?_⟩
  · simp only [emit, setPace_keeps, wrF_keeps]
  · simp only [emit_keeps, setPace_keeps]
    exact rdF_wrF_same _ _ _ _ (by decide)
  · simp only [emit_keeps, setPace_keeps, rd_wrF_ne ha]

/-- The loop's command of a step, where it gives one. -/
theorem loopStep_up {d : Die} {s : State} (hen : s.flag (PACE_LOOP_CTRL d) PACE_LOOP_CTRL_LOOP_EN = true)
    (h : s.rdF (PACE_STATUS d) PACE_STATUS_PACE < s.rdF (PACE_STATUS d) PACE_STATUS_TARGET_EFF) :
    loopStep d s = command d (railMv s d + s.rdF (PACE_LOOP_CTRL d) PACE_LOOP_CTRL_STEP_UP_MV) s := by
  rw [loopStep, if_neg (by simp [hen]), if_pos h]

theorem loopStep_down {d : Die} {s : State} (hen : s.flag (PACE_LOOP_CTRL d) PACE_LOOP_CTRL_LOOP_EN = true)
    (h : s.rdF (PACE_STATUS d) PACE_STATUS_TARGET_EFF + s.rdF (PACE_MARGIN d) PACE_MARGIN_HYST < s.rdF (PACE_STATUS d) PACE_STATUS_PACE) :
    loopStep d s = command d (railMv s d - s.rdF (PACE_LOOP_CTRL d) PACE_LOOP_CTRL_STEP_DOWN_MV) s := by
  rw [loopStep, if_neg (by simp [hen]), if_neg (by omega), if_pos h]

theorem loopStep_rests {d : Die} {s : State} (h : s.rdF (PACE_STATUS d) PACE_STATUS_TARGET_EFF ≤ s.rdF (PACE_STATUS d) PACE_STATUS_PACE)
    (h' : s.rdF (PACE_STATUS d) PACE_STATUS_PACE ≤ s.rdF (PACE_STATUS d) PACE_STATUS_TARGET_EFF + s.rdF (PACE_MARGIN d) PACE_MARGIN_HYST) :
    loopStep d s = s := by
  rw [loopStep, if_neg (Nat.not_lt.mpr h), if_neg (Nat.not_lt.mpr h')]
  exact ite_self _

/-- A register of the fabric block whose entry both worlds reach answers wherever the block does. -/
theorem accessRow_fabric {off : Nat} {r : RegRow} (hr : findRow off = some r) (hd : r.dom = .fabric) (hs : r.s = true) (hh : r.h = true)
    (hlo : 0x200000 ≤ off) (hhi : off < 0x201C00) (s : State) (f : Fun) :
    (accessRow s f off).isSome = (setupFn s f && s.flag (BOOT_STATUS f.ep) BOOT_STATUS_READY && !s.inReset.contains .fabric) := by
  have h1 : ¬off < 0x200000 := Nat.not_lt.mpr hlo
  have h2 : ¬0x310000 ≤ off := by omega
  have h3 : ¬0x401000 ≤ off := by omega
  have h4 : ¬0x201C00 ≤ off := by omega
  rw [accessRow, hr]
  simp [spaceOpen, domainUp, hd, hs, hh, h1, h2, h3, h4, Bool.and_assoc]
  split <;> simp_all

theorem row_loopCtrl : findRow 0x200010 = some ⟨0x200010, 1, 0x4000000, 1, 0x4, .fabric, true, true, 0x51407, 0xFFFF07, 0x0, 0x0, 0⟩ := by decide +kernel
theorem row_manual : findRow 0x200014 = some ⟨0x200014, 1, 0x4000000, 1, 0x4, .fabric, true, true, 0x2EE, 0xFFFF, 0x0, 0x0, 0⟩ := by decide +kernel

/-- PACE_LOOP_CTRL and PACE_MANUAL answer together. -/
theorem accessRow_loopCtrl_manual (s : State) (f : Fun) : (accessRow s f 0x200010).isSome = (accessRow s f 0x200014).isSome := by
  rw [accessRow_fabric row_loopCtrl rfl rfl rfl (by decide) (by decide), accessRow_fabric row_manual rfl rfl rfl (by decide) (by decide)]

theorem addrOff_die (d : Die) {o : Nat} (h : o < 0x4000000) : addrOff (dieSpace d + o) = o := by
  rw [addrOff, dieSpace, Nat.mul_add_mod, Nat.mod_eq_of_lt h]

theorem accessRow_fresh (s : State) (f : Fun) (off : Nat) : accessRow (fresh s) f off = accessRow s f off := accessRow_congr rfl rfl rfl f off

theorem isNone_false_of_isSome {α : Type} {o : Option α} (h : o.isSome = true) : ¬o.isNone = true := by
  cases o
  · cases h
  · exact Bool.false_ne_true

/-- A write of PACE_MANUAL, where it is taken and the loop is off. -/
theorem manualWrite_off {f : Fun} {v : Word} {s : State} (ha : (accessRow s f 0x200014).isSome = true)
    (hoff : s.flag (PACE_LOOP_CTRL f.ep) PACE_LOOP_CTRL_LOOP_EN = false) :
    manualWrite f v s = command f.ep (PACE_MANUAL_MV.get v) (wrF (PACE_MANUAL f.ep) PACE_MANUAL_MV (PACE_MANUAL_MV.get v) s) := by
  rw [manualWrite, PACE_MANUAL, addrOff_die f.ep (by decide), if_neg (isNone_false_of_isSome ha), if_neg (by simp [hoff])]

/-- The fields of PACE_LOOP_CTRL that a write takes; a step up of 0 is ignored. -/
def loopCtrlTaken (d : Die) (v : Word) (s : State) : State :=
  s |> wrF (PACE_LOOP_CTRL d) PACE_LOOP_CTRL_STEP_DOWN_MV (PACE_LOOP_CTRL_STEP_DOWN_MV.get v)
    |> wrF (PACE_LOOP_CTRL d) PACE_LOOP_CTRL_STEP_UP_MV
        (if PACE_LOOP_CTRL_STEP_UP_MV.get v = 0 then s.rdF (PACE_LOOP_CTRL d) PACE_LOOP_CTRL_STEP_UP_MV else PACE_LOOP_CTRL_STEP_UP_MV.get v)
    |> wrF (PACE_LOOP_CTRL d) PACE_LOOP_CTRL_EV_AVS_FAULT (PACE_LOOP_CTRL_EV_AVS_FAULT.get v)
    |> wrF (PACE_LOOP_CTRL d) PACE_LOOP_CTRL_EV_SHORTFALL (PACE_LOOP_CTRL_EV_SHORTFALL.get v)
    |> wrF (PACE_LOOP_CTRL d) PACE_LOOP_CTRL_LOOP_EN (PACE_LOOP_CTRL_LOOP_EN.get v)

theorem rd_loopCtrlTaken_ne {d : Die} {a : Nat} (h : a ≠ PACE_LOOP_CTRL d) (v : Word) (s : State) : (loopCtrlTaken d v s).rd a = s.rd a := by
  simp only [loopCtrlTaken, rd_wrF_ne h]

theorem rdF_loopCtrlTaken (d : Die) (v : Word) (s : State) :
    (loopCtrlTaken d v s).rdF (PACE_LOOP_CTRL d) PACE_LOOP_CTRL_LOOP_EN = PACE_LOOP_CTRL_LOOP_EN.get v
      ∧ (loopCtrlTaken d v s).rdF (PACE_LOOP_CTRL d) PACE_LOOP_CTRL_STEP_DOWN_MV = PACE_LOOP_CTRL_STEP_DOWN_MV.get v := by
  constructor
  · exact rdF_wrF_of_lt (by decide) (get_lt _ _)
  · simp (disch := decide) only [loopCtrlTaken, rdF_wrF_other]
    exact rdF_wrF_of_lt (by decide) (get_lt _ _)

theorem loopCtrlTaken_regsOnly (d : Die) (v : Word) (s : State) : RegsOnly s (loopCtrlTaken d v s) :=
  (((((RegsOnly.rfl.wrF _ _ _).wrF _ _ _).wrF _ _ _).wrF _ _ _).wrF _ _ _)

theorem loopCtrlWrite_taken {f : Fun} {v : Word} {s : State} (ha : (accessRow s f 0x200010).isSome = true) :
    loopCtrlWrite f v s = if s.flag (PACE_LOOP_CTRL f.ep) PACE_LOOP_CTRL_LOOP_EN = true ∧ PACE_LOOP_CTRL_LOOP_EN.get v = 0
      then command f.ep (s.rdF (PACE_MANUAL f.ep) PACE_MANUAL_MV) (loopCtrlTaken f.ep v s) else loopCtrlTaken f.ep v s := by
  rw [loopCtrlWrite, show addrOff (PACE_LOOP_CTRL f.ep) = 0x200010 from addrOff_die f.ep (by decide), if_neg (isNone_false_of_isSome ha)]
  rfl

/-! ## Frames of the regulator's bus (R33, R34) -/

theorem avsSend_eq (d : Die) (kind mv : Nat) (s : State) : avsSend d kind mv s = emit (.avs d (s.rdF (AVS_CTRL d) AVS_CTRL_RAIL_SEL) kind mv) s := rfl

theorem avsCtrl_ne_status (d : Die) : AVS_CTRL d ≠ AVS_STATUS d := by simp [AVS_CTRL, AVS_STATUS]

/-- ALERT as the end of a frame shows it. -/
def alerted (d : Die) (alert : Bool) (s : State) : State := wrB (AVS_STATUS d) AVS_STATUS_ALERT alert (fresh s)

theorem alerted_keeps (d : Die) (alert : Bool) (s : State) :
    (alerted d alert s).out = [] ∧ (alerted d alert s).mem = s.mem ∧ (alerted d alert s).pending = s.pending
      ∧ (alerted d alert s).paceOf d = s.paceOf d ∧ (alerted d alert s).flag (AVS_STATUS d) AVS_STATUS_ALERT = alert
      ∧ (alerted d alert s).rdF (AVS_STATUS d) AVS_STATUS_RETRIES = s.rdF (AVS_STATUS d) AVS_STATUS_RETRIES
      ∧ (alerted d alert s).flag (AVS_STATUS d) AVS_STATUS_AVS_FAULT = s.flag (AVS_STATUS d) AVS_STATUS_AVS_FAULT
      ∧ ∀ a, a ≠ AVS_STATUS d → (alerted d alert s).rd a = s.rd a :=
  ⟨rfl, rfl, rfl, rfl, flag_wrB_same _ _ _ _ (by decide) (by decide), (rdF_wrB_other _ _ _ _ _ (by decide) (by decide)).trans (rdF_fresh _ _ _),
    (flag_wrB_other _ _ _ _ _ (by decide) (by decide)).trans (flag_fresh _ _ _), fun a ha => (rd_wrB_ne ha _ _ _).trans (rd_fresh _ _)⟩

theorem rdF_alerted (d : Die) (alert : Bool) (s : State) :
    (alerted d alert s).rdF (AVS_CTRL d) AVS_CTRL_RAIL_SEL = s.rdF (AVS_CTRL d) AVS_CTRL_RAIL_SEL := by
  obtain ⟨-, -, -, -, -, -, -, hrd⟩ := alerted_keeps d alert s
  exact rdF_of_rd (hrd _ (avsCtrl_ne_status d)) _

/-- A voltage write ends well. -/
theorem avsFrame_ok {d : Die} {alert : Bool} {mv n : Nat} {s : State} (h : (s.paceOf d).frame = some (mv, n)) :
    avsFrame d 0 alert (fresh s) = setPace d { s.paceOf d with frame := none } (alerted d alert s) := by
  rw [avsFrame, show ((fresh s).paceOf d).frame = some (mv, n) from h]
  rfl

/-- One that fails is sent again, up to three times. -/
theorem avsFrame_again {d : Die} {result : Nat} {alert : Bool} {mv n : Nat} {s : State} (h : (s.paceOf d).frame = some (mv, n)) (hr : result ≠ 0)
    (hn : n < 3) : avsFrame d result alert (fresh s) = emit (.avs d (s.rdF (AVS_CTRL d) AVS_CTRL_RAIL_SEL) 0 mv)
      (satF (AVS_STATUS d) AVS_STATUS_RETRIES 1 (setPace d { s.paceOf d with frame := some (mv, n + 1) } (alerted d alert s))) := by
  rw [avsFrame, show ((fresh s).paceOf d).frame = some (mv, n) from h]
  refine (if_neg hr).trans ((if_pos hn).trans ?_)
  simp only [avsSend_eq, rdF_satF_ne (avsCtrl_ne_status d), setPace_keeps]
  exact congrArg (fun r => emit (.avs d r 0 mv) _) (rdF_alerted d alert s)

/-- After the third retry AVS_FAULT is set, and nothing more is sent. -/
theorem avsFrame_fails {d : Die} {result : Nat} {alert : Bool} {mv n : Nat} {s : State} (h : (s.paceOf d).frame = some (mv, n)) (hr : result ≠ 0)
    (hn : 3 ≤ n) (hf : s.flag (AVS_STATUS d) AVS_STATUS_AVS_FAULT = false)
    (he : s.flag (PACE_LOOP_CTRL d) PACE_LOOP_CTRL_EV_AVS_FAULT = false) :
    avsFrame d result alert (fresh s) =
      rinlarCount d 6 1 (setPace d { s.paceOf d with frame := none } (wrB (AVS_STATUS d) AVS_STATUS_AVS_FAULT true (alerted d alert s))) := by
  have hfa := (alerted_keeps d alert s).2.2.2.2.2.2.1
  have hne : PACE_LOOP_CTRL d ≠ AVS_STATUS d := by simp [PACE_LOOP_CTRL, AVS_STATUS]
  rw [avsFrame, show ((fresh s).paceOf d).frame = some (mv, n) from h]
  refine (if_neg hr).trans ((if_neg (Nat.not_lt.mpr hn)).trans ?_)
  refine (if_neg (by rw [← alerted, hfa, hf]; exact Bool.false_ne_true)).trans ((if_neg ?_).trans rfl)
  rw [flag_wrB_ne hne, flag_fresh, he]
  exact Bool.false_ne_true

/-- A status read: its frame goes out, and ends well. -/
theorem avsFrame_status_ok {d : Die} {alert : Bool} {s : State} (h : (s.paceOf d).frame = none) :
    avsFrame d 0 alert (fresh s) = setPace d { s.paceOf d with statusTries := 0 }
      (emit (.avs d (s.rdF (AVS_CTRL d) AVS_CTRL_RAIL_SEL) 2 0) (alerted d alert s)) := by
  rw [avsFrame, show ((fresh s).paceOf d).frame = none from h, ← rdF_alerted d alert s]
  rfl

/-- A status read that fails is tried again. -/
theorem avsFrame_status_again {d : Die} {result : Nat} {alert : Bool} {s : State} (h : (s.paceOf d).frame = none) (hr : result ≠ 0)
    (hn : (s.paceOf d).statusTries < 3) :
    avsFrame d result alert (fresh s) = satF (AVS_STATUS d) AVS_STATUS_RETRIES 1 (setPace d { s.paceOf d with statusTries := (s.paceOf d).statusTries + 1 }
      (emit (.avs d (s.rdF (AVS_CTRL d) AVS_CTRL_RAIL_SEL) 2 0) (alerted d alert s))) := by
  rw [avsFrame, show ((fresh s).paceOf d).frame = none from h, ← rdF_alerted d alert s]
  exact (if_neg hr).trans (if_pos hn)

/-- A voltage read: its frame goes out, and its value is shown. -/
theorem avsRead_ok {d : Die} {mv : Nat} {s : State} (h : s.flag (AVS_CTRL d) AVS_CTRL_READBACK_EN = true) :
    avsRead d 0 mv (fresh s) = wrF (AVS_READBACK d) AVS_READBACK_VREAD_MV mv (setPace d { s.paceOf d with readTries := 0 }
      (emit (.avs d (s.rdF (AVS_CTRL d) AVS_CTRL_RAIL_SEL) 1 0) (fresh s))) := by
  rw [avsRead, flag_fresh, if_neg (by simp [h]), avsSend_eq, rdF_fresh]
  rfl

/-- A voltage read that fails is tried again. -/
theorem avsRead_again {d : Die} {result mv : Nat} {s : State} (h : s.flag (AVS_CTRL d) AVS_CTRL_READBACK_EN = true) (hr : result ≠ 0)
    (hn : (s.paceOf d).readTries < 3) :
    avsRead d result mv (fresh s) = satF (AVS_STATUS d) AVS_STATUS_RETRIES 1 (setPace d { s.paceOf d with readTries := (s.paceOf d).readTries + 1 }
      (emit (.avs d (s.rdF (AVS_CTRL d) AVS_CTRL_RAIL_SEL) 1 0) (fresh s))) := by
  rw [avsRead, flag_fresh, if_neg (by simp [h]), avsSend_eq, rdF_fresh]
  exact (if_neg hr).trans (if_pos hn)

theorem paceOf_setPace_same (d : Die) (x : Pace) (s : State) : (setPace d x s).paceOf d = x := tget_tset_same _ _ _ _

/-- A write of AVS_LIMITS: ignored as a whole where the minimum would exceed the maximum. -/
theorem limitsWrite_open {f : Fun} {v : Word} {s : State} (ha : (accessRow s f 0x200024).isSome = true) :
    limitsWrite f v s = if limitMv (AVS_LIMITS_VMAX_MV.get v) < limitMv (AVS_LIMITS_VMIN_MV.get v) then s
      else wrF (AVS_LIMITS f.ep) AVS_LIMITS_VMIN_MV (limitMv (AVS_LIMITS_VMIN_MV.get v))
        (wrF (AVS_LIMITS f.ep) AVS_LIMITS_VMAX_MV (limitMv (AVS_LIMITS_VMAX_MV.get v)) s) := by
  rw [limitsWrite, show addrOff (AVS_LIMITS f.ep) = 0x200024 from addrOff_die f.ep (by decide)]
  simp only [isNone_false_of_isSome ha, Bool.false_eq_true, false_or]

theorem limitMv_lt (v : Nat) : limitMv v < 2 ^ 16 := by
  unfold limitMv
  omega

/-- A clamped pair reads back whole. -/
theorem rdF_limits (f : Fun) (lo hi : Nat) (s : State) :
    let t := wrF (AVS_LIMITS f.ep) AVS_LIMITS_VMIN_MV (limitMv lo) (wrF (AVS_LIMITS f.ep) AVS_LIMITS_VMAX_MV (limitMv hi) s)
    t.rdF (AVS_LIMITS f.ep) AVS_LIMITS_VMAX_MV = limitMv hi ∧ t.rdF (AVS_LIMITS f.ep) AVS_LIMITS_VMIN_MV = limitMv lo := by
  constructor
  · rw [rdF_wrF_other _ _ _ _ _ (by decide) (by decide)]
    exact rdF_wrF_of_lt (by decide) (limitMv_lt _)
  · exact rdF_wrF_of_lt (by decide) (limitMv_lt _)

/-- A write of PACE_MANUAL with the loop off sends it, clamped (R36). -/
theorem paceManualWrite_sends {f : Fun} {v : Word} {s : State} (ha : (accessRow s f 0x200010).isSome = true)
    (hoff : s.flag (PACE_LOOP_CTRL f.ep) PACE_LOOP_CTRL_LOOP_EN = false) (hf : s.flag (AVS_STATUS f.ep) AVS_STATUS_AVS_FAULT = false) :
    ∃ t, exec (.paceManualWrite f v) s = .next t ∧ t = { s with regs := t.regs, pace := t.pace, out := t.out }
      ∧ t.out = [.avs f.ep (s.rdF (AVS_CTRL f.ep) AVS_CTRL_RAIL_SEL) 0 (clampMv s f.ep (PACE_MANUAL_MV.get v))] ∧ t.rdF (PACE_MANUAL f.ep) PACE_MANUAL_MV = PACE_MANUAL_MV.get v
      ∧ t.rdF (AVS_STATUS f.ep) AVS_STATUS_VOUT_MV = clampMv s f.ep (PACE_MANUAL_MV.get v) % 2 ^ 16
      ∧ ∀ a, a ≠ PACE_MANUAL f.ep → a ≠ AVS_STATUS f.ep → t.rd a = s.rd a := by
  have ha' : (accessRow (fresh s) f 0x200014).isSome = true := by rw [← accessRow_loopCtrl_manual, accessRow_fresh]; exact ha
  have hg := manualWrite_off (v := v) ha' ((flag_fresh s _ _).trans hoff)
  have hne : AVS_STATUS f.ep ≠ PACE_MANUAL f.ep ∧ AVS_CTRL f.ep ≠ PACE_MANUAL f.ep ∧ AVS_LIMITS f.ep ≠ PACE_MANUAL f.ep := by
    simp [AVS_STATUS, PACE_MANUAL, AVS_CTRL, AVS_LIMITS]
  obtain ⟨n1, n2, n3⟩ := hne
  obtain ⟨ho, hout, hv, hrd⟩ := command_sends (d := f.ep) (s := wrF (PACE_MANUAL f.ep) PACE_MANUAL_MV (PACE_MANUAL_MV.get v) (fresh s))
    (by rw [flag_wrF_ne n1, flag_fresh]; exact hf) (PACE_MANUAL_MV.get v)
  rw [clampMv_congr (s := s) (by rw [rd_wrF_ne n3, rd_fresh])] at hout hv
  rw [rdF_wrF_ne n2, rdF_fresh] at hout
  rw [← hg] at ho hout hv hrd
  refine ⟨_, congrArg Host.Outcome.next (ran_quiet rfl ho.mem_eq ho.pending_eq (by rw [hout]; rfl)),
    ((Only.rfl.wrF _ _ _).trans ho).regsPaceOut, hout, ?_, hv, fun a h1 h2 => ?_⟩
  · rw [rdF_of_rd (hrd _ n1.symm)]
    exact rdF_wrF_of_lt (by decide) (get_lt _ _)
  · rw [hrd a h2, rd_wrF_ne h1, rd_fresh]

/-- A write of PACE_LOOP_CTRL; one that turns the loop off sends PACE_MANUAL, clamped (R36). -/
theorem paceLoopCtrlWrite_takes {f : Fun} {v : Word} {s : State} (ha : (accessRow s f 0x200014).isSome = true)
    (hf : s.flag (AVS_STATUS f.ep) AVS_STATUS_AVS_FAULT = false) :
    ∃ t, exec (.paceLoopCtrlWrite f v) s = .next t ∧ t = { s with regs := t.regs, pace := t.pace, out := t.out }
      ∧ t.rdF (PACE_LOOP_CTRL f.ep) PACE_LOOP_CTRL_LOOP_EN = PACE_LOOP_CTRL_LOOP_EN.get v
      ∧ t.rdF (PACE_LOOP_CTRL f.ep) PACE_LOOP_CTRL_STEP_DOWN_MV = PACE_LOOP_CTRL_STEP_DOWN_MV.get v
      ∧ t.out = (if s.flag (PACE_LOOP_CTRL f.ep) PACE_LOOP_CTRL_LOOP_EN ∧ PACE_LOOP_CTRL_LOOP_EN.get v = 0
          then [.avs f.ep (s.rdF (AVS_CTRL f.ep) AVS_CTRL_RAIL_SEL) 0 (clampMv s f.ep (s.rdF (PACE_MANUAL f.ep) PACE_MANUAL_MV))] else [])
      ∧ ∀ a, a ≠ PACE_LOOP_CTRL f.ep → a ≠ AVS_STATUS f.ep → t.rd a = s.rd a := by
  have ha' : (accessRow (fresh s) f 0x200010).isSome = true := by rw [accessRow_loopCtrl_manual, accessRow_fresh]; exact ha
  have hg := loopCtrlWrite_taken (v := v) ha'
  rw [flag_fresh, rdF_fresh] at hg
  have htk := rdF_loopCtrlTaken f.ep v (fresh s)
  have hro := loopCtrlTaken_regsOnly f.ep v (fresh s)
  have honly : Only (fun u => { u with regs := [], pace := [], out := [] }) (fresh s) (loopCtrlTaken f.ep v (fresh s)) := .of_regsOnly hro
  have hquiet : (loopCtrlTaken f.ep v (fresh s)).out = [] := (Only.of_regsOnly (m := fun u => { u with regs := [] }) hro).out_eq
  by_cases hp : s.flag (PACE_LOOP_CTRL f.ep) PACE_LOOP_CTRL_LOOP_EN = true ∧ PACE_LOOP_CTRL_LOOP_EN.get v = 0
  · have hne : AVS_STATUS f.ep ≠ PACE_LOOP_CTRL f.ep ∧ AVS_CTRL f.ep ≠ PACE_LOOP_CTRL f.ep ∧ AVS_LIMITS f.ep ≠ PACE_LOOP_CTRL f.ep := by
      simp [AVS_STATUS, PACE_LOOP_CTRL, AVS_CTRL, AVS_LIMITS]
    obtain ⟨n1, n2, n3⟩ := hne
    obtain ⟨ho, hout, -, hrd⟩ := command_sends (d := f.ep) (s := loopCtrlTaken f.ep v (fresh s))
      (by rw [flag_of_rd (rd_loopCtrlTaken_ne n1 _ _), flag_fresh]; exact hf) (s.rdF (PACE_MANUAL f.ep) PACE_MANUAL_MV)
    rw [clampMv_congr (s := s) (by rw [rd_loopCtrlTaken_ne n3, rd_fresh]), rdF_of_rd (rd_loopCtrlTaken_ne n2 _ _), rdF_fresh,
      hquiet] at hout
    rw [if_pos hp] at hg ⊢
    rw [← hg] at ho hout hrd
    refine ⟨_, congrArg Host.Outcome.next (ran_quiet rfl (honly.trans ho).mem_eq (honly.trans ho).pending_eq (by rw [hout]; rfl)),
      (honly.trans ho).regsPaceOut, ?_, ?_, hout, fun a h1 h2 => ?_⟩
    · rw [rdF_of_rd (hrd _ n1.symm)]; exact htk.1
    · rw [rdF_of_rd (hrd _ n1.symm)]; exact htk.2
    · rw [hrd a h2, rd_loopCtrlTaken_ne h1, rd_fresh]
  · rw [if_neg hp] at hg ⊢
    exact ⟨_, congrArg Host.Outcome.next (ran_quiet hg honly.mem_eq honly.pending_eq (by rw [hquiet]; rfl)),
      honly.regsPaceOut, htk.1, htk.2, hquiet, fun a h1 _ => (rd_loopCtrlTaken_ne h1 _ _).trans (rd_fresh _ _)⟩

/-- An attempt of a voltage write ends (R34). -/
theorem avsFrameDone_write (d : Die) (result : Nat) (alert : Bool) (mv n : Nat) (s : State) (h : (s.paceOf d).frame = some (mv, n)) :
    (result = 0 → ∃ t, exec (.avsFrameDone d result alert) s = .next t ∧ t = { s with regs := t.regs, pace := t.pace, out := [] } ∧ (t.paceOf d).frame = none
      ∧ t.flag (AVS_STATUS d) AVS_STATUS_ALERT = alert ∧ ∀ a, a ≠ AVS_STATUS d → t.rd a = s.rd a)
    ∧ (result ≠ 0 → n < 3 → ∃ t, exec (.avsFrameDone d result alert) s = .next t ∧ t = { s with regs := t.regs, pace := t.pace, out := t.out }
      ∧ (t.paceOf d).frame = some (mv, n + 1) ∧ t.out = [.avs d (s.rdF (AVS_CTRL d) AVS_CTRL_RAIL_SEL) 0 mv]
      ∧ t.rdF (AVS_STATUS d) AVS_STATUS_RETRIES = min 255 (s.rdF (AVS_STATUS d) AVS_STATUS_RETRIES + 1) ∧ ∀ a, a ≠ AVS_STATUS d → t.rd a = s.rd a)
    ∧ (result ≠ 0 → 3 ≤ n → s.flag (AVS_STATUS d) AVS_STATUS_AVS_FAULT = false → s.flag (PACE_LOOP_CTRL d) PACE_LOOP_CTRL_EV_AVS_FAULT = false →
      ∃ t, exec (.avsFrameDone d result alert) s = .next t ∧ t = { s with regs := t.regs, pace := t.pace, rinlar := t.rinlar, out := [] }
        ∧ (t.paceOf d).frame = none ∧ t.flag (AVS_STATUS d) AVS_STATUS_AVS_FAULT = true ∧ ∀ a, a ≠ AVS_STATUS d → t.rd a = s.rd a) := by
  obtain ⟨-, -, -, -, hal, hret, -, hrd⟩ := alerted_keeps d alert s
  refine ⟨fun hr => ?_, fun hr hn => ?_, fun hr hn hf he => ?_⟩
  · subst hr
    refine ⟨_, congrArg Host.Outcome.next (ran_quiet (avsFrame_ok h) rfl rfl rfl), ((Only.rfl.wrB _ _ _).setPace _ _).regsPace, ?_, ?_, fun a ha => ?_⟩
    · rw [paceOf_setPace_same]
    · simp only [setPace_keeps, hal]
    · simp only [setPace_keeps, hrd a ha]
  · refine ⟨_, congrArg Host.Outcome.next (ran_quiet (avsFrame_again h hr hn) rfl rfl rfl), ((((Only.rfl.wrB _ _ _).setPace _ _).satF _ _ _).emit _).regsPaceOut,
      ?_, rfl, ?_, fun a ha => ?_⟩
    · simp only [emit_keeps, satF_keeps, paceOf_setPace_same]
    · simp only [emit_keeps]
      rw [rdF_satF_same _ _ _ _ (by decide), ← hret]
      simp only [setPace_keeps]
      rfl
    · simp only [emit_keeps, rd_satF_ne ha, setPace_keeps, hrd a ha]
  · refine ⟨_, congrArg Host.Outcome.next (ran_quiet (avsFrame_fails h hr hn hf he) rfl rfl rfl), ((((Only.rfl.wrB _ _ _).wrB _ _ _).setPace _ _).setRin _ _).regsPaceRinlar,
      ?_, ?_, fun a ha => ?_⟩
    · rw [rinlarCount, rinlarAdd]
      simp only [setRin_keeps, paceOf_setPace_same]
    · rw [rinlarCount, rinlarAdd]
      simp only [setRin_keeps, setPace_keeps]
      exact flag_wrB_same _ _ _ _ (by decide) (by decide)
    · rw [rinlarCount, rinlarAdd]
      simp only [setRin_keeps, setPace_keeps, rd_wrB_ne ha, hrd a ha]

/-- With no voltage write in flight, an attempt of a status read ends (R33, R34). -/
theorem avsFrameDone_status (d : Die) (result : Nat) (alert : Bool) (s : State) (h : (s.paceOf d).frame = none) :
    (result = 0 → ∃ t, exec (.avsFrameDone d result alert) s = .next t ∧ t = { s with regs := t.regs, pace := t.pace, out := t.out }
      ∧ t.out = [.avs d (s.rdF (AVS_CTRL d) AVS_CTRL_RAIL_SEL) 2 0] ∧ t.flag (AVS_STATUS d) AVS_STATUS_ALERT = alert ∧ ∀ a, a ≠ AVS_STATUS d → t.rd a = s.rd a)
    ∧ (result ≠ 0 → (s.paceOf d).statusTries < 3 → ∃ t, exec (.avsFrameDone d result alert) s = .next t ∧ t = { s with regs := t.regs, pace := t.pace, out := t.out }
      ∧ t.out = [.avs d (s.rdF (AVS_CTRL d) AVS_CTRL_RAIL_SEL) 2 0] ∧ (t.paceOf d).statusTries = (s.paceOf d).statusTries + 1
      ∧ t.rdF (AVS_STATUS d) AVS_STATUS_RETRIES = min 255 (s.rdF (AVS_STATUS d) AVS_STATUS_RETRIES + 1) ∧ ∀ a, a ≠ AVS_STATUS d → t.rd a = s.rd a) := by
  obtain ⟨-, -, -, -, hal, hret, -, hrd⟩ := alerted_keeps d alert s
  refine ⟨fun hr => ?_, fun hr hn => ?_⟩
  · subst hr
    refine ⟨_, congrArg Host.Outcome.next (ran_quiet (avsFrame_status_ok h) rfl rfl rfl), (((Only.rfl.wrB _ _ _).emit _).setPace _ _).regsPaceOut, rfl, ?_, fun a ha => ?_⟩
    · simp only [setPace_keeps, emit_keeps, hal]
    · simp only [setPace_keeps, emit_keeps, hrd a ha]
  · refine ⟨_, congrArg Host.Outcome.next (ran_quiet (avsFrame_status_again h hr hn) rfl rfl rfl),
      ((((Only.rfl.wrB _ _ _).emit _).setPace _ _).satF _ _ _).regsPaceOut, rfl, ?_, ?_, fun a ha => ?_⟩
    · simp only [satF_keeps, paceOf_setPace_same]
    · rw [rdF_satF_same _ _ _ _ (by decide), ← hret]
      simp only [setPace_keeps, emit_keeps]
      rfl
    · simp only [rd_satF_ne ha, setPace_keeps, emit_keeps, hrd a ha]

/-- Settles O23: the loop's step, the two writes that send PACE_MANUAL, the limits, and each way a frame ends. -/
theorem regulatorIsCommanded : Obligations.RegulatorIsCommanded := by
  refine ⟨⟨fun d s hen hf => ⟨fun h => ?_, fun h => ?_, loopStep_rests⟩, fun f v s => paceManualWrite_sends, fun f v s => paceLoopCtrlWrite_takes, fun f v s ha => ?_⟩,
    fun d result alert mv n s => avsFrameDone_write d result alert mv n s, fun d result alert s => avsFrameDone_status d result alert s,
    fun d result mv s hen hmv => ⟨fun hr => ?_, fun hr hn => ?_⟩, fun f s ha => ?_⟩
  · rw [loopStep_up hen h]
    exact (command_sends hf _).2.1
  · rw [loopStep_down hen h]
    exact (command_sends hf _).2.1
  · have hg := limitsWrite_open (v := v) (s := fresh s) (by rw [accessRow_fresh]; exact ha)
    by_cases hlt : limitMv (AVS_LIMITS_VMAX_MV.get v) < limitMv (AVS_LIMITS_VMIN_MV.get v)
    · rw [if_pos hlt] at hg
      refine ⟨_, congrArg Host.Outcome.next (ran_quiet hg rfl rfl rfl), rfl, fun a _ => rd_fresh s a, ?_⟩
      exact (if_pos hlt).mpr (rd_fresh s _)
    · rw [if_neg hlt] at hg
      refine ⟨_, congrArg Host.Outcome.next (ran_quiet hg rfl rfl rfl), ((RegsOnly.rfl.wrF _ _ _).wrF _ _ _).fresh, fun a ha => ?_, ?_⟩
      · rw [rd_wrF_ne ha, rd_wrF_ne ha, rd_fresh]
      · exact (if_neg hlt).mpr (rdF_limits f _ _ _)
  · subst hr
    refine ⟨_, congrArg Host.Outcome.next (ran_quiet (avsRead_ok hen) rfl rfl rfl), (((Only.rfl.emit _).setPace _ _).wrF _ _ _).regsPaceOut, rfl,
      rdF_wrF_of_lt (by decide) hmv, fun a ha => ?_⟩
    simp only [rd_wrF_ne ha, setPace_keeps, emit_keeps, rd_fresh]
  · refine ⟨_, congrArg Host.Outcome.next (ran_quiet (avsRead_again hen hr hn) rfl rfl rfl), (((Only.rfl.emit _).setPace _ _).satF _ _ _).regsPaceOut, rfl, ?_, ?_,
      fun a ha => ?_⟩
    · simp only [satF_keeps, paceOf_setPace_same]
    · rw [rdF_satF_same _ _ _ _ (by decide)]
      simp only [setPace_keeps, emit_keeps, rdF_fresh]
      rfl
    · simp only [rd_satF_ne ha, setPace_keeps, emit_keeps, rd_fresh]
  · have hg : avsClear f (fresh s) = wrB (AVS_STATUS f.ep) AVS_STATUS_AVS_FAULT false (fresh s) := by
      rw [avsClear, show addrOff (AVS_STATUS f.ep) = 0x200028 from addrOff_die f.ep (by decide)]
      exact if_neg (isNone_false_of_isSome (by rw [accessRow_fresh]; exact ha))
    exact ⟨_, congrArg Host.Outcome.next (ran_quiet hg rfl rfl rfl), (regsOnly_wrF _ _ _ _).fresh, flag_wrB_same _ _ _ _ (by decide) (by decide),
      (rdF_wrB_other _ _ _ _ _ (by decide) (by decide)).trans (rdF_fresh _ _ _), fun a ha => (rd_wrB_ne ha _ _ _).trans (rd_fresh _ _)⟩

end Sys2Proof.Machine
end

section
/-! Crossings (R39–R48) and the islands behind them. -/
namespace Sys2Proof.Machine

/-! ## The table of crossings -/

theorem xingForm_none {n : Nat} (h : 0xFF < n) : xingForm n = none := by
  have hn (k : Nat) (hk : k ≤ 0xFF) : ¬n < k := by omega
  simp [xingForm, hn]

theorem le_of_xingPresent {p : Part} {d : Die} {n : Nat} (h : xingPresent p d n = true) : n ≤ 0xFF := by
  by_contra hn
  rw [xingPresent, xingForm_none (Nat.lt_of_not_le hn)] at h
  cases h

/-- Crossings of other numbers and of the other die are other entries. -/
theorem xing_setXing_other {d e : Die} {n m : Nat} (hn : n ≤ 0xFF) (hm : m ≤ 0xFF) (h : ¬(e = d ∧ m = n)) (x : Xing) (s : State) :
    (setXing d n x s).xing e m = s.xing e m := by
  refine tget_tset_ne _ ?_ _ _
  cases d <;> cases e <;> simp only [xingKey, Die.idx] <;> simp at h <;> omega

/-! The registers of one crossing are four words. -/

theorem xingStatus_ne_count (d : Die) (n : Nat) : XING_STATUS d n ≠ XING_COUNT d n := by unfold XING_STATUS XING_COUNT; omega
theorem xingStatus_ne_cfg (d : Die) (n : Nat) : XING_STATUS d n ≠ XING_CFG d n := by unfold XING_STATUS XING_CFG; omega
theorem xingStatus_ne_dropped (d : Die) (n : Nat) : XING_STATUS d n ≠ XING_DROPPED d n := by unfold XING_STATUS XING_DROPPED; omega
theorem xingCount_ne_cfg (d : Die) (n : Nat) : XING_COUNT d n ≠ XING_CFG d n := by unfold XING_COUNT XING_CFG; omega
theorem xingDropped_ne_cfg (d : Die) (n : Nat) : XING_DROPPED d n ≠ XING_CFG d n := by unfold XING_DROPPED XING_CFG; omega

/-! ## Events (R42–R45) -/

/-- An event leaves the sender: it is outstanding with its count, which the other side sees unless its clock stands. -/
theorem sendEvent_rule (d : Die) (n c : Nat) (s : State) :
    Only (fun u => { u with regs := [], xings := [] }) s (sendEvent d n c s)
      ∧ (sendEvent d n c s).flag (XING_STATUS d n) XING_STATUS_OUTSTANDING = true
      ∧ (sendEvent d n c s).xing d n = { s.xing d n with count := 0, sent := c }
      ∧ ((s.xing d n).stopped = false → (sendEvent d n c s).rdF (XING_COUNT d n) XING_COUNT_LAST_COUNT = c % 2 ^ 16)
      ∧ (∀ e m, n ≤ 0xFF → m ≤ 0xFF → ¬(e = d ∧ m = n) → (sendEvent d n c s).xing e m = s.xing e m)
      ∧ ∀ a, a ≠ XING_STATUS d n → a ≠ XING_COUNT d n → (sendEvent d n c s).rd a = s.rd a := by
  unfold sendEvent
  dsimp only
  by_cases hst : (s.xing d n).stopped = true
  · rw [if_pos hst]
    refine ⟨((Only.rfl.wrB _ _ _).wrB _ _ _).setXing _ _ _, ?_, by rw [xing_setXing_same], fun h => ?_, fun e m hn hm h => ?_, fun a h1 _ => ?_⟩
    · simp only [setXing_keeps]
      rw [flag_wrB_other _ _ _ _ _ (by decide) (by decide)]
      exact flag_wrB_same _ _ _ _ (by decide) (by decide)
    · rw [hst] at h; cases h
    · rw [xing_setXing_other hn hm h]
      simp only [wrB_keeps]
    · simp only [setXing_keeps, rd_wrB_ne h1]
  · rw [if_neg hst]
    refine ⟨(((Only.rfl.wrB _ _ _).wrB _ _ _).setXing _ _ _).wrF _ _ _, ?_, by simp only [wrF_keeps, xing_setXing_same],
      fun _ => rdF_wrF_same _ _ _ _ (by decide), fun e m hn hm h => ?_, fun a h1 h2 => ?_⟩
    · rw [flag_wrF_ne (xingStatus_ne_count d n)]
      simp only [setXing_keeps]
      rw [flag_wrB_other _ _ _ _ _ (by decide) (by decide)]
      exact flag_wrB_same _ _ _ _ (by decide) (by decide)
    · simp only [wrF_keeps]
      rw [xing_setXing_other hn hm h]
      simp only [wrB_keeps]
    · simp only [rd_wrF_ne h2, setXing_keeps, rd_wrB_ne h1]

/-- The mode that waited is in effect: nothing else of the crossing changes. -/
theorem applyMode_rule (d : Die) (n : Nat) (s : State) :
    Only (fun u => { u with regs := [], xings := [] }) s (applyMode d n s)
      ∧ (applyMode d n s).xing d n = { s.xing d n with nextMode := none }
      ∧ (applyMode d n s).rdF (XING_CFG d n) XING_CFG_MODE = (match (s.xing d n).nextMode with
          | some m => m % 2
          | none => s.rdF (XING_CFG d n) XING_CFG_MODE)
      ∧ ∀ a, a ≠ XING_CFG d n → (applyMode d n s).rd a = s.rd a := by
  unfold applyMode
  cases h : (s.xing d n).nextMode with
  | none =>
    dsimp only
    refine ⟨Only.rfl, ?_, rfl, fun _ _ => rfl⟩
    rw [← h]
  | some m =>
    refine ⟨(Only.rfl.setXing _ _ _).wrF _ _ _, by simp only [wrF_keeps, xing_setXing_same], rdF_wrF_same _ _ _ _ (by decide), fun a ha => ?_⟩
    simp only [rd_wrF_ne ha, setXing_keeps]

/-- The acknowledge of an event behind which pulses were merged: they go out as one further event (R44). -/
theorem xingAck_further {d : Die} {n : Nat} {s : State} (hup : xingUp s d n = true) (hk : s.flag (XING_CFG d n) XING_CFG_KIND = true)
    (ho : s.flag (XING_STATUS d n) XING_STATUS_OUTSTANDING = true) (hs : (s.xing d n).stopped = false) (hc : (s.xing d n).count ≠ 0) :
    xingAck d n s = applyMode d n (sendEvent d n (s.xing d n).count s) := by
  rw [xingAck, if_neg (by simp [hup, hk, ho, hs]), if_neg hc]

theorem xingAck_last {d : Die} {n : Nat} {s : State} (hup : xingUp s d n = true) (hk : s.flag (XING_CFG d n) XING_CFG_KIND = true)
    (ho : s.flag (XING_STATUS d n) XING_STATUS_OUTSTANDING = true) (hs : (s.xing d n).stopped = false) (hc : (s.xing d n).count = 0) :
    xingAck d n s = applyMode d n (setXing d n { s.xing d n with sent := 0 } (wrB (XING_STATUS d n) XING_STATUS_STALLED false
      (wrB (XING_STATUS d n) XING_STATUS_OUTSTANDING false s))) := by
  rw [xingAck, if_neg (by simp [hup, hk, ho, hs]), if_pos hc]

theorem xingUp_fresh (s : State) (d : Die) (n : Nat) : xingUp (fresh s) d n = xingUp s d n := by
  rw [xingUp, xingUp, flag_fresh]
  rfl

/-- Merged pulses, where OUTSTANDING keeps them waiting (R42). -/
def mergedCount (s : State) (d : Die) (n : Nat) : Nat := min 0xFFFF ((s.xing d n).count + 1)

/-- A pulse toward a side that takes part, by what the crossing does then. -/
theorem xingPulse_cases {d : Die} {n : Nat} {s : State} (hp : xingPresent s.part d n = true) (hr : s.inReset.contains .fabric = false)
    (hk : s.flag (XING_CFG d n) XING_CFG_KIND = true) :
    xingPulse d n s =
      if s.flag (XING_STATUS d n) XING_STATUS_PEER_RESET = true then satF (XING_DROPPED d n) XING_DROPPED_DROPPED_ON_PEER_RESET 1 s
      else if s.flag (XING_STATUS d n) XING_STATUS_OUTSTANDING = false then sendEvent d n 1 s
      else if s.flag (XING_CFG d n) XING_CFG_MODE = true then
        (if n = 0x82 then wrB (TOUCH_STATUS d) TOUCH_STATUS_OVERRUN true else id)
          (satF (XING_STATUS d n) XING_STATUS_OVERRUN_COUNT 1 (wrB (XING_STATUS d n) XING_STATUS_OVERRUN true s))
      else (if mergedCount s d n = 0xFFFF then wrB (XING_STATUS d n) XING_STATUS_COUNT_SAT true else id)
        (setXing d n { s.xing d n with count := mergedCount s d n } s) := by
  rw [xingPulse, if_neg (by rw [hp, hr, hk]; decide)]
  rfl

theorem xingStatus_ne_touchStatus (d : Die) (n : Nat) : XING_STATUS d n ≠ TOUCH_STATUS d := by unfold XING_STATUS TOUCH_STATUS; omega

/-- R42, R43, R47: what a pulse does, by the side it goes toward, what is outstanding, and the mode. -/
theorem xingPulse_rule (d : Die) (n : Nat) (s : State) (hp : xingPresent s.part d n = true) (hr : s.inReset.contains .fabric = false)
    (hk : s.flag (XING_CFG d n) XING_CFG_KIND = true) :
    ∃ t, exec (.xingPulse d n) s = .next t ∧ t = { s with regs := t.regs, xings := t.xings, out := [] }
      ∧ (∀ e m, m ≤ 0xFF → ¬(e = d ∧ m = n) → t.xing e m = s.xing e m)
      ∧ if s.flag (XING_STATUS d n) XING_STATUS_PEER_RESET then
          t.xing d n = s.xing d n ∧ t.rdF (XING_DROPPED d n) XING_DROPPED_DROPPED_ON_PEER_RESET
              = min (2 ^ 32 - 1) (s.rdF (XING_DROPPED d n) XING_DROPPED_DROPPED_ON_PEER_RESET + 1)
            ∧ ∀ a, a ≠ XING_DROPPED d n → t.rd a = s.rd a
        else if s.flag (XING_STATUS d n) XING_STATUS_OUTSTANDING = false then
          t.flag (XING_STATUS d n) XING_STATUS_OUTSTANDING = true ∧ (t.xing d n).count = 0 ∧ (t.xing d n).sent = 1
            ∧ ((s.xing d n).stopped = false → t.rdF (XING_COUNT d n) XING_COUNT_LAST_COUNT = 1)
            ∧ ∀ a, a ≠ XING_STATUS d n → a ≠ XING_COUNT d n → t.rd a = s.rd a
        else if s.flag (XING_CFG d n) XING_CFG_MODE then
          t.xing d n = s.xing d n ∧ t.flag (XING_STATUS d n) XING_STATUS_OVERRUN = true
            ∧ t.rdF (XING_STATUS d n) XING_STATUS_OVERRUN_COUNT = min 0xFFFF (s.rdF (XING_STATUS d n) XING_STATUS_OVERRUN_COUNT + 1)
            ∧ ∀ a, a ≠ XING_STATUS d n → a ≠ TOUCH_STATUS d → t.rd a = s.rd a
        else (t.xing d n).count = min 0xFFFF ((s.xing d n).count + 1)
            ∧ ((t.xing d n).count = 0xFFFF → t.flag (XING_STATUS d n) XING_STATUS_COUNT_SAT = true)
            ∧ ∀ a, a ≠ XING_STATUS d n → t.rd a = s.rd a := by
  have hn := le_of_xingPresent hp
  have hg := xingPulse_cases (s := fresh s) hp hr ((flag_fresh _ _ _).trans hk)
  simp only [flag_fresh] at hg
  split at hg
  · next h =>
    refine ⟨_, congrArg Host.Outcome.next (ran_quiet hg rfl rfl rfl), (Only.rfl.satF _ _ _).regsXings, fun _ _ _ _ => rfl, ?_⟩
    rw [if_pos h]
    refine ⟨rfl, ?_, fun a ha => by rw [rd_satF_ne ha, rd_fresh]⟩
    rw [rdF_satF_same _ _ _ _ (by decide), rdF_fresh]
    rfl
  · next h =>
    split at hg
    · next h2 =>
      obtain ⟨ho, hout, hx, hl, hoth, hrd⟩ := sendEvent_rule d n 1 (fresh s)
      refine ⟨_, congrArg Host.Outcome.next (ho.ran hg), ho.regsXings,
        fun e m hm hne => hoth e m hn hm hne, ?_⟩
      rw [if_neg h, if_pos h2]
      exact ⟨hout, by rw [hx], by rw [hx], hl, fun a h1 h2 => (hrd a h1 h2).trans (rd_fresh _ _)⟩
    · next h2 =>
      split at hg
      · next h3 =>
        have hst : ∀ u : State, Only (fun u => { u with regs := [], xings := [] }) u ((if n = 0x82 then wrB (TOUCH_STATUS d) TOUCH_STATUS_OVERRUN true else id) u)
            ∧ ∀ a, a ≠ TOUCH_STATUS d → ((if n = 0x82 then wrB (TOUCH_STATUS d) TOUCH_STATUS_OVERRUN true else id) u).rd a = u.rd a := by
          intro u
          split
          · exact ⟨Only.rfl.wrB _ _ _, fun a ha => rd_wrB_ne ha _ _ _⟩
          · exact ⟨Only.rfl, fun _ _ => rfl⟩
        obtain ⟨ho, hrd⟩ := hst (satF (XING_STATUS d n) XING_STATUS_OVERRUN_COUNT 1 (wrB (XING_STATUS d n) XING_STATUS_OVERRUN true (fresh s)))
        have ho' := ((Only.rfl (s := fresh s)).wrB (XING_STATUS d n) XING_STATUS_OVERRUN true).satF (XING_STATUS d n) XING_STATUS_OVERRUN_COUNT 1 |>.trans ho
        have hxs : ∀ e m, (xingPulse d n (fresh s)).xing e m = s.xing e m := by
          intro e m
          rw [hg]
          split <;> rfl
        refine ⟨_, congrArg Host.Outcome.next (by rw [hg]; exact ho'.ran hg),
          (by rw [hg]; exact ho'.regsXings), fun e m _ _ => hxs e m, ?_⟩
        rw [if_neg h, if_neg h2, if_pos h3]
        have hs := hrd _ (xingStatus_ne_touchStatus d n)
        rw [← hg] at hs hrd
        refine ⟨hxs d n, ?_, ?_, fun a h1 h2 => ?_⟩
        · rw [flag_of_rd hs, satF, flag_wrF_other _ _ _ _ _ (by decide) (by decide)]
          exact flag_wrB_same _ _ _ _ (by decide) (by decide)
        · rw [rdF_of_rd hs, rdF_satF_same _ _ _ _ (by decide), rdF_wrB_other _ _ _ _ _ (by decide) (by decide), rdF_fresh]
          rfl
        · rw [hrd a h2, rd_satF_ne h1, rd_wrB_ne h1, rd_fresh]
      · next h3 =>
        have hst : ∀ u : State, Only (fun u => { u with regs := [], xings := [] }) u ((if mergedCount (fresh s) d n = 0xFFFF then wrB (XING_STATUS d n) XING_STATUS_COUNT_SAT true else id) u)
            ∧ (∀ e m, ((if mergedCount (fresh s) d n = 0xFFFF then wrB (XING_STATUS d n) XING_STATUS_COUNT_SAT true else id) u).xing e m = u.xing e m)
            ∧ (mergedCount (fresh s) d n = 0xFFFF → ((if mergedCount (fresh s) d n = 0xFFFF then wrB (XING_STATUS d n) XING_STATUS_COUNT_SAT true else id) u).flag
                (XING_STATUS d n) XING_STATUS_COUNT_SAT = true)
            ∧ ∀ a, a ≠ XING_STATUS d n → ((if mergedCount (fresh s) d n = 0xFFFF then wrB (XING_STATUS d n) XING_STATUS_COUNT_SAT true else id) u).rd a = u.rd a := by
          intro u
          split
          · exact ⟨Only.rfl.wrB _ _ _, fun _ _ => rfl, fun _ => flag_wrB_same _ _ _ _ (by decide) (by decide), fun a ha => rd_wrB_ne ha _ _ _⟩
          · next hne => exact ⟨Only.rfl, fun _ _ => rfl, fun h => absurd h hne, fun _ _ => rfl⟩
        obtain ⟨ho, hx, hfl, hrd⟩ := hst (setXing d n { (fresh s).xing d n with count := mergedCount (fresh s) d n } (fresh s))
        have ho' := ((Only.rfl (s := fresh s)).setXing d n { (fresh s).xing d n with count := mergedCount (fresh s) d n }).trans ho
        rw [← hg] at ho' hx hfl hrd
        have hcount : ((xingPulse d n (fresh s)).xing d n).count = mergedCount s d n := by rw [hx, xing_setXing_same]; rfl
        refine ⟨_, congrArg Host.Outcome.next (ho'.ran rfl), ho'.regsXings,
          fun e m hm hne => ?_, ?_⟩
        · rw [hx, xing_setXing_other hn hm hne]
          rfl
        · rw [if_neg h, if_neg h2, if_neg h3]
          refine ⟨hcount, fun hc => hfl (hcount.symm.trans hc), fun a ha => ?_⟩
          rw [hrd a ha]
          simp only [setXing_keeps, rd_fresh]

/-- The acknowledge ends the event, or sends what was merged, and puts a mode that waited into effect (R44, R45). -/
theorem xingAck_rule (d : Die) (n : Nat) (s : State) (hup : xingUp s d n = true) (hk : s.flag (XING_CFG d n) XING_CFG_KIND = true)
    (ho : s.flag (XING_STATUS d n) XING_STATUS_OUTSTANDING = true) (hs : (s.xing d n).stopped = false) :
    ∃ t, exec (.xingAck d n) s = .next t ∧ t = { s with regs := t.regs, xings := t.xings, out := [] }
      ∧ t.flag (XING_STATUS d n) XING_STATUS_OUTSTANDING = ((s.xing d n).count != 0) ∧ (t.xing d n).count = 0 ∧ (t.xing d n).sent = (s.xing d n).count
      ∧ ((s.xing d n).count ≠ 0 → t.rdF (XING_COUNT d n) XING_COUNT_LAST_COUNT = (s.xing d n).count % 2 ^ 16)
      ∧ (t.xing d n).nextMode = none
      ∧ t.rdF (XING_CFG d n) XING_CFG_MODE = (match (s.xing d n).nextMode with
          | some m => m % 2
          | none => s.rdF (XING_CFG d n) XING_CFG_MODE)
      ∧ ∀ a, a ≠ XING_STATUS d n → a ≠ XING_COUNT d n → a ≠ XING_CFG d n → t.rd a = s.rd a := by
  have hup' := (xingUp_fresh s d n).trans hup
  have hk' := (flag_fresh s (XING_CFG d n) XING_CFG_KIND).trans hk
  have ho' := (flag_fresh s (XING_STATUS d n) XING_STATUS_OUTSTANDING).trans ho
  by_cases hc : (s.xing d n).count = 0
  · have hg := xingAck_last hup' hk' ho' hs hc
    obtain ⟨hm, hx, hmode, hrd⟩ := applyMode_rule d n (setXing d n { s.xing d n with sent := 0 } (wrB (XING_STATUS d n) XING_STATUS_STALLED false
      (wrB (XING_STATUS d n) XING_STATUS_OUTSTANDING false (fresh s))))
    have hall := (((Only.rfl (s := fresh s)).wrB _ _ _).wrB _ _ _).setXing _ _ _ |>.trans hm
    rw [xing_setXing_same] at hx hmode
    refine ⟨_, congrArg Host.Outcome.next (hall.ran hg), hall.regsXings, ?_, by rw [hx]; exact hc,
      by rw [hx]; exact hc.symm, fun h => absurd hc h, by rw [hx], hmode.trans ?_, fun a h1 _ h3 => ?_⟩
    · rw [flag_of_rd (hrd _ (xingStatus_ne_cfg d n)), hc]
      simp only [setXing_keeps]
      rw [flag_wrB_other _ _ _ _ _ (by decide) (by decide)]
      exact flag_wrB_same _ _ _ _ (by decide) (by decide)
    · simp only [setXing_keeps]
      rw [rdF_wrB_ne (xingStatus_ne_cfg d n).symm, rdF_wrB_ne (xingStatus_ne_cfg d n).symm, rdF_fresh]
    · rw [hrd a h3]
      simp only [setXing_keeps, rd_wrB_ne h1, rd_fresh]
  · have hg := xingAck_further hup' hk' ho' hs hc
    obtain ⟨hse, hout, hx0, hl, -, hrd0⟩ := sendEvent_rule d n (s.xing d n).count (fresh s)
    obtain ⟨hm, hx, hmode, hrd⟩ := applyMode_rule d n (sendEvent d n (s.xing d n).count (fresh s))
    have hall := hse.trans hm
    rw [hx0] at hx hmode
    refine ⟨_, congrArg Host.Outcome.next (hall.ran hg), hall.regsXings, ?_, by rw [hx], by rw [hx],
      fun _ => ?_, by rw [hx], hmode.trans ?_, fun a h1 h2 h3 => ?_⟩
    · rw [flag_of_rd (hrd _ (xingStatus_ne_cfg d n)), hout]
      simp [hc]
    · rw [rdF_of_rd (hrd _ (xingCount_ne_cfg d n)), hl hs]
    · rw [rdF_of_rd (hrd0 _ (xingStatus_ne_cfg d n).symm (xingCount_ne_cfg d n).symm), rdF_fresh]
      rfl
    · rw [hrd a h3, hrd0 a h1 h2, rd_fresh]

theorem xingCfg_off (d : Die) {n : Nat} (hn : n ≤ 0xFF) : addrOff (XING_CFG d n) = 0x201000 + 0x10 * n := by
  rw [XING_CFG, Nat.add_assoc, addrOff_die d (by omega)]

/-- A write of XING_CFG.MODE waits for the event that is outstanding, and is in effect at once without one (R45). -/
theorem xingModeWrite_rule (f : Fun) (n : Nat) (v : Word) (s : State) (hn : n ≤ 0xFF) (ha : (accessRow s f (0x201000 + 0x10 * n)).isSome = true)
    (hp : xingPresent s.part f.ep n = true) (hk : s.flag (XING_CFG f.ep n) XING_CFG_KIND = true) :
    ∃ t, exec (.xingModeWrite f n v) s = .next t ∧ t = { s with regs := t.regs, xings := t.xings, out := [] } ∧ (∀ a, a ≠ XING_CFG f.ep n → t.rd a = s.rd a)
      ∧ if s.flag (XING_STATUS f.ep n) XING_STATUS_OUTSTANDING then
          t.xing f.ep n = { s.xing f.ep n with nextMode := some (XING_CFG_MODE.get v) } ∧ t.rd (XING_CFG f.ep n) = s.rd (XING_CFG f.ep n)
        else t.xings = s.xings ∧ t.rdF (XING_CFG f.ep n) XING_CFG_MODE = XING_CFG_MODE.get v := by
  have hg : modeWrite f n v (fresh s) = if s.flag (XING_STATUS f.ep n) XING_STATUS_OUTSTANDING = true
      then setXing f.ep n { s.xing f.ep n with nextMode := some (XING_CFG_MODE.get v) } (fresh s)
      else wrF (XING_CFG f.ep n) XING_CFG_MODE (XING_CFG_MODE.get v) (fresh s) := by
    rw [modeWrite, xingCfg_off f.ep hn, accessRow_fresh, flag_fresh, flag_fresh, hk]
    refine if_neg ?_
    rintro (h | h | h | h)
    · exact absurd hn (Nat.not_le.mpr h)
    · exact isNone_false_of_isSome ha h
    · rw [show (fresh s).part = s.part from rfl, hp] at h
      cases h
    · cases h
  by_cases h : s.flag (XING_STATUS f.ep n) XING_STATUS_OUTSTANDING = true
  · rw [if_pos h] at hg
    exact ⟨_, congrArg Host.Outcome.next (ran_quiet hg rfl rfl rfl), (Only.rfl.setXing _ _ _).regsXings, fun a _ => by simp only [setXing_keeps, rd_fresh],
      (if_pos h).mpr ⟨xing_setXing_same _ _ _ _, by simp only [setXing_keeps, rd_fresh]⟩⟩
  · rw [if_neg h] at hg
    exact ⟨_, congrArg Host.Outcome.next (ran_quiet hg rfl rfl rfl), (Only.rfl.wrF _ _ _).regsXings, fun a ha => by rw [rd_wrF_ne ha, rd_fresh],
      (if_neg h).mpr ⟨rfl, rdF_wrF_of_lt (by decide) (get_lt _ _)⟩⟩

/-! ## Values (R38, R41) -/

theorem valueCrosses_time {d : Die} {s : State} (hup : xingUp s d 0xC4 = true) (hk : s.flag (XING_CFG d 0xC4) XING_CFG_KIND = false)
    (hs : (s.xing d 0xC4).stopped = false) : valueCrosses d 0xC4 s = setNow d (s.tbase d).counter s := by
  rw [valueCrosses, if_neg (by rw [hup, hk, hs]; decide)]
  rfl

theorem valueCrosses_front {d : Die} {n a : Nat} {v : Word} {rest : List (Nat × Word)} {s : State} (hn : n ≠ 0xC4) (hup : xingUp s d n = true)
    (hk : s.flag (XING_CFG d n) XING_CFG_KIND = false) (hs : (s.xing d n).stopped = false) (hq : (s.xing d n).queue = (a, v) :: rest) :
    valueCrosses d n s = wrB (XING_STATUS d n) XING_STATUS_STALLED false (wrB (XING_STATUS d n) XING_STATUS_OUTSTANDING (rest != [])
      (lands d a v (setXing d n { s.xing d n with queue := rest } s))) := by
  rw [valueCrosses, if_neg (by rw [hup, hk, hs]; decide), if_neg hn, hq]

theorem now_setNow_same (d : Die) (t : Nat) (s : State) : (setNow d t s).now d = t := by cases d <;> rfl

theorem isl_setIsl_same (a : Nat) (v : Word) (s : State) : (setIsl a v s).isl a = v := tget_tset_same _ _ _ _
theorem isl_setIsl_ne {a b : Nat} (h : b ≠ a) (v : Word) (s : State) : (setIsl a v s).isl b = s.isl b := tget_tset_ne _ h _ _

/-- A value lands on the island's side; the second half of a slew begins it (R38). -/
theorem lands_rule (d : Die) (a : Nat) (v : Word) (s : State) :
    Only (fun u => { u with island := [], tbases := [] }) s (lands d a v s) ∧ (lands d a v s).isl a = v ∧ (∀ b, b ≠ a → (lands d a v s).isl b = s.isl b)
      ∧ (a ≠ slewHi d → (lands d a v s).tbases = s.tbases)
      ∧ (a = slewHi d → (lands d a v s).tbase d = { s.tbase d with slew := sgn 64 ((s.isl (slewLo d)).toNat + 2 ^ 32 * v.toNat), cycles := 0 }) := by
  unfold lands
  dsimp only
  split
  · next h =>
    refine ⟨rfl, ?_, fun b hb => ?_, fun hne => absurd h hne, fun _ => ?_⟩
    · simp only [setTbase_keeps, isl_setIsl_same]
    · simp only [setTbase_keeps, isl_setIsl_ne hb]
    · have hlo : slewLo d ≠ a := by rw [h]; unfold slewLo slewHi; omega
      rw [tbase_setTbase_same, isl_setIsl_ne hlo]
      rfl
  · next h => exact ⟨rfl, isl_setIsl_same _ _ _, fun b hb => isl_setIsl_ne hb _ _, fun _ => rfl, fun he => absurd he h⟩

theorem Only.regsXingsIslandTbases {s t : State} (h : Only (fun u => { u with regs := [], xings := [], island := [], tbases := [] }) (fresh s) t) :
    t = { s with regs := t.regs, xings := t.xings, island := t.island, tbases := t.tbases, out := [] } :=
  congrArg (fun u => { u with regs := t.regs, xings := t.xings, island := t.island, tbases := t.tbases }) h

/-- The value at the front of a crossing's queue is carried across (R39, R41). -/
theorem valueCrossing_front (d : Die) (n a : Nat) (v : Word) (rest : List (Nat × Word)) (s : State) (hn : n ≠ 0xC4) (hup : xingUp s d n = true)
    (hk : s.flag (XING_CFG d n) XING_CFG_KIND = false) (hs : (s.xing d n).stopped = false) (hq : (s.xing d n).queue = (a, v) :: rest) :
    ∃ t, exec (.valueCrossing d n) s = .next t ∧ t = { s with regs := t.regs, xings := t.xings, island := t.island, tbases := t.tbases, out := [] } ∧ t.isl a = v
      ∧ (a ≠ slewHi d → t.tbases = s.tbases)
      ∧ (a = slewHi d → t.tbase d = { s.tbase d with slew := sgn 64 ((s.isl (slewLo d)).toNat + 2 ^ 32 * v.toNat), cycles := 0 })
      ∧ (∀ b, b ≠ a → t.isl b = s.isl b) ∧ (t.xing d n).queue = rest
      ∧ t.flag (XING_STATUS d n) XING_STATUS_OUTSTANDING = (rest != []) ∧ ∀ b, b ≠ XING_STATUS d n → t.rd b = s.rd b := by
  have hg := valueCrosses_front (s := fresh s) hn ((xingUp_fresh s d n).trans hup) ((flag_fresh _ _ _).trans hk) hs hq
  obtain ⟨ho, hv, hoth, htb, hslew⟩ := lands_rule d a v (setXing d n { (fresh s).xing d n with queue := rest } (fresh s))
  have hall : Only (fun u => { u with regs := [], xings := [], island := [], tbases := [] }) (fresh s)
      (lands d a v (setXing d n { (fresh s).xing d n with queue := rest } (fresh s))) := (Only.rfl.setXing _ _ _).trans ho.mono
  have hx : (lands d a v (setXing d n { (fresh s).xing d n with queue := rest } (fresh s))).xing d n = { (fresh s).xing d n with queue := rest } := by
    rw [State.xing, ho.xings_eq]
    exact xing_setXing_same _ _ _ _
  have hout := (hall.wrB (XING_STATUS d n) XING_STATUS_OUTSTANDING (rest != [])).wrB (XING_STATUS d n) XING_STATUS_STALLED false
  refine ⟨_, congrArg Host.Outcome.next (hout.ran hg), hout.regsXingsIslandTbases, ?_, fun h => ?_, fun h => ?_, fun b hb => ?_, ?_, ?_, fun b hb => ?_⟩
  · simp only [wrB_keeps, hv]
  · simp only [wrB_keeps, htb h, setXing_keeps]
    rfl
  · simp only [wrB_keeps, hslew h, setXing_keeps]
    rfl
  · simp only [wrB_keeps, hoth b hb, setXing_keeps]
    rfl
  · simp only [wrB_keeps, hx]
  · rw [flag_wrB_other _ _ _ _ _ (by decide) (by decide)]
    exact flag_wrB_same _ _ _ _ (by decide) (by decide)
  · rw [rd_wrB_ne hb, rd_wrB_ne hb, ho.rd_eq]
    simp only [setXing_keeps, rd_fresh]

/-- Settles O24: by what crosses, a pulse, its acknowledge, a mode or a value. -/
theorem crossingEventsMergeFlagAndAcknowledge : Obligations.CrossingEventsMergeFlagAndAcknowledge := by
  refine ⟨xingPulse_rule, xingAck_rule, xingModeWrite_rule, fun d s hup hk hs => ?_, valueCrossing_front⟩
  have hg := valueCrosses_time ((xingUp_fresh s d 0xC4).trans hup) ((flag_fresh _ _ _).trans hk) hs
  refine ⟨_, congrArg Host.Outcome.next (ran_quiet hg ?_ ?_ ?_), ?_, now_setNow_same _ _ _, fun e he => now_setNow_ne he _ _⟩
  all_goals cases d <;> rfl

/-! ## Islands that stop, resume, enter reset and align again (R46–R48) -/

theorem Only.xings {s t : State} (h : Only (fun u => { u with xings := [] }) (fresh s) t) : t = { s with xings := t.xings, out := [] } :=
  congrArg (fun u => { u with xings := t.xings }) h

theorem islandXings_none {i : Nat} (h : 31 ≤ i) : islandXings i = [] := by
  have hn (k : Nat) (hk : k ≤ 30) : ¬i < k ∧ i ≠ k := by omega
  simp [islandXings, hn]

theorem islandXings_le {i n : Nat} (h : n ∈ islandXings i) : n ≤ 0xFF := by
  have hall : ∀ i < 31, ∀ n ∈ islandXings i, n ≤ 0xFF := by decide +kernel
  by_cases hi : i < 31
  · exact hall i hi n h
  · rw [islandXings_none (Nat.le_of_not_lt hi)] at h
    cases h

/-- The crossings of a list stop, and no other. -/
theorem haltXings_rule (d : Die) (ns : List Nat) (hns : ∀ n ∈ ns, n ≤ 0xFF) (s : State) :
    Only (fun u => { u with xings := [] }) s (haltXings d ns s)
      ∧ ∀ n, n ≤ 0xFF → (haltXings d ns s).xing d n = if n ∈ ns then { s.xing d n with stopped := true } else s.xing d n := by
  induction ns generalizing s with
  | nil => exact ⟨Only.rfl, fun n _ => (if_neg List.not_mem_nil).symm⟩
  | cons m ns ih =>
    obtain ⟨hm, hns⟩ := List.forall_mem_cons.1 hns
    obtain ⟨ho, hx⟩ := ih hns (setXing d m { s.xing d m with stopped := true } s)
    refine ⟨(Only.rfl.setXing _ _ _).trans ho, fun n hn => (hx n hn).trans ?_⟩
    by_cases h : n = m
    · subst h
      rw [xing_setXing_same, if_pos (List.mem_cons_self ..)]
      exact ite_self _
    · rw [xing_setXing_other hm hn (by simp [h])]
      simp [h]

/-- A crossing goes on from where it stopped. -/
theorem xingResumes_rule (d : Die) (n : Nat) (hn : n ≤ 0xFF) (s : State) :
    Only (fun u => { u with regs := [], xings := [] }) s (xingResumes d n s)
      ∧ (∀ m, m ≤ 0xFF → (xingResumes d n s).xing d m = if m = n then { s.xing d n with stopped := false } else s.xing d m)
      ∧ ((s.xing d n).stopped = true → (s.xing d n).sent ≠ 0 →
          (xingResumes d n s).rdF (XING_COUNT d n) XING_COUNT_LAST_COUNT = (s.xing d n).sent % 2 ^ 16
            ∧ (xingResumes d n s).flag (XING_STATUS d n) XING_STATUS_STALLED = false)
      ∧ ∀ a, a ≠ XING_COUNT d n → a ≠ XING_STATUS d n → (xingResumes d n s).rd a = s.rd a := by
  have hx (u : State) (hu : u.xings = (setXing d n { s.xing d n with stopped := false } s).xings) (m : Nat) (hm : m ≤ 0xFF) :
      u.xing d m = if m = n then { s.xing d n with stopped := false } else s.xing d m := by
    rw [State.xing, hu]
    by_cases h : m = n
    · subst h
      rw [if_pos rfl]
      exact xing_setXing_same _ _ _ _
    · rw [if_neg h]
      exact xing_setXing_other hn hm (by simp [h]) _ _
  unfold xingResumes
  dsimp only
  by_cases hst : (s.xing d n).stopped = true
  · rw [if_pos hst]
    by_cases hs : (s.xing d n).sent = 0
    · rw [if_pos hs]
      exact ⟨Only.rfl.setXing _ _ _, hx _ rfl, fun _ h => absurd hs h, fun a _ _ => by simp only [setXing_keeps]⟩
    · rw [if_neg hs]
      refine ⟨((Only.rfl.setXing _ _ _).wrF _ _ _).wrB _ _ _, hx _ rfl, fun _ _ => ⟨?_, flag_wrB_same _ _ _ _ (by decide) (by decide)⟩,
        fun a h1 h2 => ?_⟩
      · rw [rdF_wrB_ne (xingStatus_ne_count d n).symm]
        exact rdF_wrF_same _ _ _ _ (by decide)
      · simp only [rd_wrB_ne h2, rd_wrF_ne h1, setXing_keeps]
  · rw [if_neg hst]
    refine ⟨Only.rfl, fun m _ => ?_, fun h => absurd h hst, fun _ _ _ => rfl⟩
    by_cases h : m = n
    · subst h
      rw [if_pos rfl]
      simp only [Bool.not_eq_true] at hst
      rw [← hst]
    · rw [if_neg h]

theorem xingResumes_going {d : Die} {n : Nat} {s : State} (h : (s.xing d n).stopped = false) : xingResumes d n s = s :=
  if_neg (by rw [h]; exact Bool.false_ne_true)

/-- The words of crossings of one die are apart. -/
theorem xingCount_status_apart {d : Die} {m n : Nat} (h : m ≠ n) :
    XING_COUNT d m ≠ XING_COUNT d n ∧ XING_COUNT d m ≠ XING_STATUS d n ∧ XING_STATUS d m ≠ XING_COUNT d n ∧ XING_STATUS d m ≠ XING_STATUS d n := by
  unfold XING_COUNT XING_STATUS
  omega

/-- The crossings of a list go on, each from where it stopped. -/
theorem xingsResume_rule (d : Die) (ns : List Nat) (hns : ∀ n ∈ ns, n ≤ 0xFF) (s : State) :
    Only (fun u => { u with regs := [], xings := [] }) s (ns.foldl (fun t n => xingResumes d n t) s)
      ∧ (∀ n, n ≤ 0xFF → (ns.foldl (fun t n => xingResumes d n t) s).xing d n = if n ∈ ns then { s.xing d n with stopped := false } else s.xing d n)
      ∧ (∀ n ∈ ns, (s.xing d n).stopped = true → (s.xing d n).sent ≠ 0 →
          (ns.foldl (fun t n => xingResumes d n t) s).rdF (XING_COUNT d n) XING_COUNT_LAST_COUNT = (s.xing d n).sent % 2 ^ 16
            ∧ (ns.foldl (fun t n => xingResumes d n t) s).flag (XING_STATUS d n) XING_STATUS_STALLED = false)
      ∧ ∀ a, (∀ n ∈ ns, a ≠ XING_COUNT d n ∧ a ≠ XING_STATUS d n) → (ns.foldl (fun t n => xingResumes d n t) s).rd a = s.rd a := by
  induction ns using List.reverseRecOn with
  | nil => exact ⟨Only.rfl, fun n _ => (if_neg List.not_mem_nil).symm, fun n h => absurd h List.not_mem_nil, fun _ _ => rfl⟩
  | append_singleton ns m ih =>
    rw [List.forall_mem_append] at hns
    obtain ⟨ho, hx, hl, hrd⟩ := ih hns.1
    have hm : m ≤ 0xFF := hns.2 m (List.mem_singleton_self m)
    rw [List.foldl_append]
    obtain ⟨ho', hx', hl', hrd'⟩ := xingResumes_rule d m hm (ns.foldl (fun t n => xingResumes d n t) s)
    refine ⟨ho.trans ho', fun n hn => ?_, fun n hn hst hse => ?_, fun a ha => ?_⟩
    · refine (hx' n hn).trans ?_
      by_cases h : n = m
      · subst h
        rw [if_pos rfl, hx n hn, if_pos (List.mem_append_right _ (List.mem_singleton_self n))]
        by_cases hin : n ∈ ns
        · rw [if_pos hin]
        · rw [if_neg hin]
      · rw [if_neg h, hx n hn]
        simp [h]
    · by_cases h : n = m
      · subst h
        by_cases hin : n ∈ ns
        · have hgo : ((ns.foldl (fun t n => xingResumes d n t) s).xing d n).stopped = false := by rw [hx n hm, if_pos hin]
          rw [List.foldl_cons, List.foldl_nil, xingResumes_going hgo]
          exact hl n hin hst hse
        · have hsame := hx n hm
          rw [if_neg hin] at hsame
          rw [hsame] at hl'
          exact hl' hst hse
      · have hin : n ∈ ns := by simpa [h] using hn
        obtain ⟨c1, c2, c3, c4⟩ := xingCount_status_apart (d := d) h
        obtain ⟨hc, hs⟩ := hl n hin hst hse
        exact ⟨(rdF_of_rd (hrd' _ c1 c2) _).trans hc, (flag_of_rd (hrd' _ c3 c4) _).trans hs⟩
    · have hall := List.forall_mem_append.1 ha
      obtain ⟨h1, h2⟩ := hall.2 m (List.mem_singleton_self m)
      exact (hrd' a h1 h2).trans (hrd a hall.1)

theorem Only.regsXingsGarnets {s t : State} (h : Only (fun u => { u with regs := [], xings := [], garnets := [] }) (fresh s) t) :
    t = { s with regs := t.regs, xings := t.xings, garnets := t.garnets, out := [] } :=
  congrArg (fun u => { u with regs := t.regs, xings := t.xings, garnets := t.garnets }) h

/-- What a crossing discards when a side of it enters reset: an event not yet taken, what was merged behind it, and each value. -/
def discarded (d : Die) (n : Nat) (s : State) : Nat :=
  (if s.flag (XING_CFG d n) XING_CFG_KIND = true ∧ (s.xing d n).stopped = true ∧ (s.xing d n).sent ≠ 0 then 1 else 0)
    + (if (s.xing d n).count = 0 then 0 else 1) + (s.xing d n).queue.length

/-- The crossing toward a side that has entered reset. -/
def peerLost (d : Die) (n : Nat) (s : State) : State :=
  let own := s.flag (XING_CFG d n) XING_CFG_KIND = true ∧ towardIsland n = false
  s |> satF (XING_DROPPED d n) XING_DROPPED_DROPPED_ON_PEER_RESET (if own then 0 else discarded d n s) |> wrB (XING_STATUS d n) XING_STATUS_PEER_RESET true
    |> wrB (XING_STATUS d n) XING_STATUS_OUTSTANDING false |> wrB (XING_STATUS d n) XING_STATUS_STALLED false
    |> setXing d n { s.xing d n with count := 0, sent := 0, queue := [],
                                     ownDropped := (s.xing d n).ownDropped + (if own then discarded d n s else 0) }

theorem peerReset_eq {d : Die} {n : Nat} {s : State} (hp : xingPresent s.part d n = true) (hr : s.inReset.contains .fabric = false) :
    peerReset d n s = if 0xC0 ≤ n ∧ n < 0xC4 then setGarnet d { (applyMode d n (peerLost d n s)).garnet d with inFrame := false } (applyMode d n (peerLost d n s))
      else applyMode d n (peerLost d n s) := by
  have hk : b2n (s.flag (XING_CFG d n) XING_CFG_KIND && (s.xing d n).stopped && (s.xing d n).sent != 0) + b2n ((s.xing d n).count != 0)
      + (s.xing d n).queue.length = discarded d n s := by
    simp [discarded, b2n, and_assoc]
  have hown : (s.flag (XING_CFG d n) XING_CFG_KIND && !towardIsland n) = decide (s.flag (XING_CFG d n) XING_CFG_KIND = true ∧ towardIsland n = false) := by
    simp
  rw [peerReset, if_neg (by rw [hp, hr]; decide)]
  dsimp only
  rw [hk, hown]
  simp only [decide_eq_true_eq]
  rfl

theorem peerLost_rule (d : Die) (n : Nat) (s : State) :
    Only (fun u => { u with regs := [], xings := [], garnets := [] }) s (peerLost d n s)
      ∧ (peerLost d n s).flag (XING_STATUS d n) XING_STATUS_PEER_RESET = true ∧ (peerLost d n s).flag (XING_STATUS d n) XING_STATUS_OUTSTANDING = false
      ∧ (peerLost d n s).rdF (XING_DROPPED d n) XING_DROPPED_DROPPED_ON_PEER_RESET = min (2 ^ 32 - 1) (s.rdF (XING_DROPPED d n) XING_DROPPED_DROPPED_ON_PEER_RESET
          + (if s.flag (XING_CFG d n) XING_CFG_KIND = true ∧ towardIsland n = false then 0 else discarded d n s))
      ∧ (peerLost d n s).xing d n = { s.xing d n with count := 0, sent := 0, queue := [], ownDropped := (s.xing d n).ownDropped
          + (if s.flag (XING_CFG d n) XING_CFG_KIND = true ∧ towardIsland n = false then discarded d n s else 0) } := by
  refine ⟨((((Only.rfl.satF _ _ _).wrB _ _ _).wrB _ _ _).wrB _ _ _).setXing _ _ _, ?_, ?_, ?_, xing_setXing_same _ _ _ _⟩
  · simp (disch := decide) only [peerLost, setXing_keeps, flag_wrB_other]
    exact flag_wrB_same _ _ _ _ (by decide) (by decide)
  · simp (disch := decide) only [peerLost, setXing_keeps, flag_wrB_other]
    exact flag_wrB_same _ _ _ _ (by decide) (by decide)
  · simp only [peerLost, setXing_keeps, rdF_wrB_ne (xingStatus_ne_dropped d n).symm]
    exact rdF_satF_same _ _ _ _ (by decide)

/-- R47: a side of a crossing enters reset. -/
theorem xingPeerReset_rule (d : Die) (n : Nat) (s : State) (hp : xingPresent s.part d n = true) (hr : s.inReset.contains .fabric = false) :
    ∃ t, exec (.xingPeerReset d n) s = .next t ∧ t = { s with regs := t.regs, xings := t.xings, garnets := t.garnets, out := [] }
      ∧ (t.xing d n).count = 0 ∧ (t.xing d n).sent = 0 ∧ (t.xing d n).queue = [] ∧ t.flag (XING_STATUS d n) XING_STATUS_PEER_RESET = true
      ∧ t.flag (XING_STATUS d n) XING_STATUS_OUTSTANDING = false
      ∧ t.rdF (XING_DROPPED d n) XING_DROPPED_DROPPED_ON_PEER_RESET = min (2 ^ 32 - 1) (s.rdF (XING_DROPPED d n) XING_DROPPED_DROPPED_ON_PEER_RESET
          + (if s.flag (XING_CFG d n) XING_CFG_KIND = true ∧ towardIsland n = false then 0 else discarded d n s))
      ∧ (t.xing d n).ownDropped = (s.xing d n).ownDropped
          + (if s.flag (XING_CFG d n) XING_CFG_KIND = true ∧ towardIsland n = false then discarded d n s else 0) := by
  obtain ⟨hl, hpr, hos, hdr, hx⟩ := peerLost_rule d n (fresh s)
  obtain ⟨hm, hx', -, hrd⟩ := applyMode_rule d n (peerLost d n (fresh s))
  have hall : Only (fun u => { u with regs := [], xings := [], garnets := [] }) (fresh s) (applyMode d n (peerLost d n (fresh s))) := hl.trans hm.mono
  have hdisc : discarded d n (fresh s) = discarded d n s := by
    rw [discarded, discarded, flag_fresh]
    rfl
  rw [flag_fresh, rdF_fresh, hdisc] at hdr
  rw [hx, flag_fresh, hdisc] at hx'
  have hg := peerReset_eq (s := fresh s) hp hr
  have hkeep : Only (fun u => { u with garnets := [] }) (applyMode d n (peerLost d n (fresh s))) (peerReset d n (fresh s)) := by
    rw [hg]
    split <;> rfl
  have hxing : (peerReset d n (fresh s)).xing d n = (applyMode d n (peerLost d n (fresh s))).xing d n := by rw [State.xing, State.xing, hkeep.xings_eq]
  have hstat : (peerReset d n (fresh s)).rd (XING_STATUS d n) = (peerLost d n (fresh s)).rd (XING_STATUS d n) :=
    (hkeep.rd_eq _).trans (hrd _ (xingStatus_ne_cfg d n))
  have hdrop : (peerReset d n (fresh s)).rd (XING_DROPPED d n) = (peerLost d n (fresh s)).rd (XING_DROPPED d n) :=
    (hkeep.rd_eq _).trans (hrd _ (xingDropped_ne_cfg d n))
  have hend := hall.trans hkeep.mono
  refine ⟨_, congrArg Host.Outcome.next (hend.ran rfl), hend.regsXingsGarnets, ?_, ?_, ?_, (flag_of_rd hstat _).trans hpr, (flag_of_rd hstat _).trans hos,
    (rdF_of_rd hdrop _).trans hdr, ?_⟩
  all_goals rw [hxing, hx']
  rfl

/-- R48: the sides of a crossing have aligned, and what the island discarded meanwhile is counted. -/
theorem xingResync_rule (d : Die) (n island : Nat) (s : State) (hi : island < 31) (hn : n ∈ islandXings island) (ho : islandOut s d island = true) :
    ∃ t, exec (.xingResync d n) s = .next t ∧ t = { s with regs := t.regs, xings := t.xings, out := [] } ∧ t.flag (XING_STATUS d n) XING_STATUS_PEER_RESET = false
      ∧ t.xing d n = { s.xing d n with ownDropped := 0 }
      ∧ t.rdF (XING_DROPPED d n) XING_DROPPED_DROPPED_ON_PEER_RESET
          = min (2 ^ 32 - 1) (s.rdF (XING_DROPPED d n) XING_DROPPED_DROPPED_ON_PEER_RESET + (s.xing d n).ownDropped)
      ∧ t.flag (XING_STATUS d n) XING_STATUS_OUTSTANDING = s.flag (XING_STATUS d n) XING_STATUS_OUTSTANDING
      ∧ ∀ a, a ≠ XING_STATUS d n → a ≠ XING_DROPPED d n → t.rd a = s.rd a := by
  have hany : (upto 31).any (fun i => (islandXings i).contains n && islandOut (fresh s) d i) = true :=
    List.any_eq_true.2 ⟨island, List.mem_range.2 hi, by rw [Bool.and_eq_true]; exact ⟨List.contains_iff_mem.2 hn, ho⟩⟩
  have hg : resync d n (fresh s) = setXing d n { s.xing d n with ownDropped := 0 } (satF (XING_DROPPED d n) XING_DROPPED_DROPPED_ON_PEER_RESET (s.xing d n).ownDropped
      (wrB (XING_STATUS d n) XING_STATUS_PEER_RESET false (fresh s))) := if_pos hany
  have hend := (((Only.rfl (s := fresh s)).wrB (XING_STATUS d n) XING_STATUS_PEER_RESET false).satF (XING_DROPPED d n) XING_DROPPED_DROPPED_ON_PEER_RESET
    (s.xing d n).ownDropped).setXing d n { s.xing d n with ownDropped := 0 } (m := fun u => { u with regs := [], xings := [] })
  refine ⟨_, congrArg Host.Outcome.next (hend.ran hg), hend.regsXings, ?_, xing_setXing_same _ _ _ _, ?_, ?_, fun a h1 h2 => ?_⟩
  · simp only [setXing_keeps]
    rw [flag_satF_ne (xingStatus_ne_dropped d n)]
    exact flag_wrB_same _ _ _ _ (by decide) (by decide)
  · simp only [setXing_keeps]
    rw [rdF_satF_same _ _ _ _ (by decide), rdF_wrB_ne (xingStatus_ne_dropped d n).symm, rdF_fresh]
    rfl
  · simp only [setXing_keeps]
    rw [flag_satF_ne (xingStatus_ne_dropped d n), flag_wrB_other _ _ _ _ _ (by decide) (by decide), flag_fresh]
  · simp only [setXing_keeps, rd_satF_ne h2, rd_wrB_ne h1, rd_fresh]

/-- Settles O25: by what happens to the island, each over the list of its crossings. -/
theorem islandsHoldOrDropWhatCrosses : Obligations.IslandsHoldOrDropWhatCrosses := by
  refine ⟨⟨fun d i s => ?_, fun d n s hup ho => ?_, fun d i s => ?_⟩, xingPeerReset_rule, xingResync_rule⟩
  · obtain ⟨ho, hx⟩ := haltXings_rule d (islandXings i) (fun n => islandXings_le) (fresh s)
    exact ⟨_, congrArg Host.Outcome.next (ho.ran rfl), ho.xings, hx⟩
  · have hg : xingStalls d n (fresh s) = wrB (XING_STATUS d n) XING_STATUS_STALLED true (fresh s) :=
      if_pos ⟨(xingUp_fresh s d n).trans hup, (flag_fresh _ _ _).trans ho⟩
    refine ⟨_, congrArg Host.Outcome.next (ran_quiet hg rfl rfl rfl), (regsOnly_wrF _ _ _ _).fresh, flag_wrB_same _ _ _ _ (by decide) (by decide), ?_,
      fun a ha => by rw [rd_wrB_ne ha, rd_fresh]⟩
    rw [flag_wrB_other _ _ _ _ _ (by decide) (by decide), flag_fresh, ho]
  · obtain ⟨ho, hx, hl, hrd⟩ := xingsResume_rule d (islandXings i) (fun n => islandXings_le) (fresh s)
    exact ⟨_, congrArg Host.Outcome.next (ho.ran rfl), ho.regsXings, hx, fun n _ hin => hl n hin,
      fun a ha => (hrd a fun n hn => ha n (islandXings_le hn) hn).trans (rd_fresh _ _)⟩

end Sys2Proof.Machine
end

section
/-! The measured pace (R26, R28–R31), and the invalidation of translations (R105, R127). -/
namespace Sys2Proof.Machine

/-! ## The floor and the rates that follow the pace -/

/-- Registers that follow the measured pace and the pixel clock ceilings. -/
def rateRegs (d : Die) : List Nat :=
  [COMP_STATUS d, WARP_RATE d, GARNET_RENDER d, GPU_RATE d, COPY_STATUS d, HEAD_LOAD d 0, HEAD_LOAD d 1, HEAD_LOAD d 2, HEAD_LOAD d 3]

/-- The rates change their own registers alone. -/
theorem refreshRates_touches (d : Die) (s : State) : Touches (rateRegs d) s (refreshRates d s) := by
  unfold refreshRates
  dsimp only
  refine Touches.foldl ?_ fun n hn u => Touches.ite ((Touches.rfl).wrF _ _ ?_) Touches.rfl
  · refine (((((((Touches.rfl.wrF _ _ ?_).wrF _ _ ?_).wrF _ _ ?_).wrF _ _ ?_).wrF _ _ ?_).wrF _ _ ?_).wrF _ _ ?_)
    all_goals simp [rateRegs]
  · have hn4 := List.mem_range.1 hn
    have : n = 0 ∨ n = 1 ∨ n = 2 ∨ n = 3 := by omega
    rcases this with rfl | rfl | rfl | rfl <;> simp [rateRegs]

/-- Registers that follow the floor. -/
def floorRegs (d : Die) : List Nat := PACE_FLOOR d :: PACE_STATUS d :: rateRegs d

theorem Touches.mono {L M : List Nat} {s t : State} (h : Touches L s t) (hL : ∀ a ∈ L, a ∈ M) : Touches M s t :=
  ⟨h.1, fun a ha => h.2 a fun hin => ha (hL a hin)⟩

theorem refreshFloor_touches (d : Die) (s : State) : Touches (floorRegs d) s (refreshFloor d s) := by
  unfold refreshFloor
  refine (((Touches.rfl.wrF _ _ ?_).wrF _ _ ?_).wrF _ _ ?_).trans ((refreshRates_touches d _).mono fun a ha => ?_)
  all_goals simp [floorRegs]
  exact .inr (.inr ha)

theorem floor_notin_rates (d : Die) : PACE_FLOOR d ∉ rateRegs d ∧ PACE_STATUS d ∉ rateRegs d := by
  simp only [rateRegs, PACE_FLOOR, PACE_STATUS, COMP_STATUS, WARP_RATE, GARNET_RENDER, GPU_RATE, COPY_STATUS, HEAD_LOAD, List.mem_cons, List.not_mem_nil,
    or_false]
  omega

/-- The floor is shown as its terms give it, and the measured pace stands. -/
theorem refreshFloor_shows (d : Die) (s : State) :
    (refreshFloor d s).rdF (PACE_FLOOR d) PACE_FLOOR_FLOOR = (floorOf s d).1 % 2 ^ 16
      ∧ (refreshFloor d s).rdF (PACE_STATUS d) PACE_STATUS_PACE = s.rdF (PACE_STATUS d) PACE_STATUS_PACE := by
  have hne : PACE_FLOOR d ≠ PACE_STATUS d := by simp [PACE_FLOOR, PACE_STATUS]
  obtain ⟨h1, h2⟩ := floor_notin_rates d
  unfold refreshFloor
  constructor
  · refine (rdF_of_rd ((refreshRates_touches d _).2 _ h1) _).trans ?_
    rw [rdF_wrF_ne hne, rdF_wrF_other _ _ _ _ _ (by decide) (by decide)]
    exact rdF_wrF_same _ _ _ _ (by decide)
  · refine (rdF_of_rd ((refreshRates_touches d _).2 _ h2) _).trans ?_
    rw [rdF_wrF_other _ _ _ _ _ (by decide) (by decide), rdF_wrF_ne hne.symm, rdF_wrF_ne hne.symm]

/-- The floor's terms read no register that the pace is shown in. -/
theorem floorOf_pace (d : Die) (n : Nat) (s : State) : floorOf (wrF (PACE_STATUS d) PACE_STATUS_PACE n s) d = floorOf s d := by
  simp (disch := (simp only [POWER_STATUS, HEAD_CFG, HEAD_PCLK_CEIL, CAM_PORT_CFG, PACE_STATUS]; omega)) only
    [floorOf, inPearl, floorTerms, rdF_wrF_ne, flag_wrF_ne]
  rfl

/-- A window's pace: the lowest of the counts over 10.24 µs. -/
theorem paceOfCounts_eq {counts : List Nat} (h : counts ≠ []) : paceOfCounts counts = counts.foldl min (counts.headD 0) * 100 / 1024 := by
  cases counts with
  | nil => exact absurd rfl h
  | cons c t => rw [paceOfCounts, List.headD_cons, List.foldl_cons, Nat.min_self]

/-- The window closes: what it measured is shown, and the floor follows the units that run. -/
def measured (d : Die) (counts : List Nat) (s : State) : State :=
  refreshFloor d (wrF (PACE_STATUS d) PACE_STATUS_PACE (min 0xFFFF (paceOfCounts counts)) s)

theorem measured_rule (d : Die) (counts : List Nat) (s : State) :
    RegsOnly s (measured d counts s) ∧ (measured d counts s).rdF (PACE_STATUS d) PACE_STATUS_PACE = min 0xFFFF (paceOfCounts counts)
      ∧ (measured d counts s).rdF (PACE_FLOOR d) PACE_FLOOR_FLOOR = (floorOf s d).1 % 2 ^ 16 := by
  obtain ⟨hf, hp⟩ := refreshFloor_shows d (wrF (PACE_STATUS d) PACE_STATUS_PACE (min 0xFFFF (paceOfCounts counts)) s)
  rw [floorOf_pace] at hf
  refine ⟨(regsOnly_wrF _ _ _ _).trans (refreshFloor_touches d _).1, hp.trans (rdF_wrF_of_lt (by decide) ?_), hf⟩
  have : min 0xFFFF (paceOfCounts counts) ≤ 0xFFFF := Nat.min_le_left _ _
  exact Nat.lt_succ_of_le this

theorem RegsOnly.paceOf {s t : State} (h : RegsOnly s t) (d : Die) : t.paceOf d = s.paceOf d := by
  obtain ⟨r, hr⟩ := h
  rw [hr]
  exact Eq.refl _

/-- Settles O22: what the window shows, then the units, the loop and the shortfall in their order. -/
theorem windowMeasuresPace : Obligations.WindowMeasuresPace := by
  refine ⟨fun d counts s hc hr => ?_, fun d r rest s h => ?_⟩
  · obtain ⟨ho, hp, hf⟩ := measured_rule d counts (fresh s)
    refine ⟨measured d counts (fresh s), ⟨ho.fresh, ?_, hf⟩, congrArg Host.Outcome.next (ran_congr ?_)⟩
    · rw [hp, paceOfCounts_eq hc]
    · rw [paceWindow]
      refine (if_neg (by rw [show (fresh s).inReset.contains .fabric = false from hr]; simpa using hc)).trans ?_
      dsimp only
      rw [hp]
      rw [show s.paceOf d = (measured d counts (fresh s)).paceOf d from (ho.paceOf d).symm]
      rfl
  · exact congrArg Host.Outcome.next (ran_congr (by rw [raiseTimeout, show ((fresh s).paceOf d).raises = r :: rest from h]))


end Sys2Proof.Machine
end

section
/-! Invalidations (R105, R127). -/
namespace Sys2Proof.Machine

/-- A write of MMU_INV_CTRL leaves its fields. -/
def invAsked (d : Die) (v : Word) (s : State) : State :=
  s |> wrF (MMU_INV_CTRL d) MMU_INV_CTRL_STAGE (MMU_INV_CTRL_STAGE.get v) |> wrF (MMU_INV_CTRL d) MMU_INV_CTRL_ALL (MMU_INV_CTRL_ALL.get v)
    |> wrF (MMU_INV_CTRL d) MMU_INV_CTRL_FUNC (MMU_INV_CTRL_FUNC.get v) |> wrF (MMU_INV_CTRL d) MMU_INV_CTRL_PAGES (MMU_INV_CTRL_PAGES.get v)

theorem invAsked_rule (d : Die) (v : Word) (s : State) :
    Touches [MMU_INV_CTRL d] s (invAsked d v s) ∧ (invAsked d v s).rdF (MMU_INV_CTRL d) MMU_INV_CTRL_PAGES = MMU_INV_CTRL_PAGES.get v
      ∧ (invAsked d v s).rdF (MMU_INV_CTRL d) MMU_INV_CTRL_STAGE = MMU_INV_CTRL_STAGE.get v
      ∧ (invAsked d v s).flag (MMU_INV_CTRL d) MMU_INV_CTRL_ALL = (MMU_INV_CTRL_ALL.get v != 0) := by
  refine ⟨(((Touches.rfl.wrF _ _).wrF _ _).wrF _ _).wrF _ _, rdF_wrF_of_lt (by decide) (get_lt _ _), ?_, ?_⟩
  · simp (disch := decide) only [invAsked, rdF_wrF_other]
    exact rdF_wrF_of_lt (by decide) (get_lt _ _)
  · have hall : (invAsked d v s).rdF (MMU_INV_CTRL d) MMU_INV_CTRL_ALL = MMU_INV_CTRL_ALL.get v := by
      simp (disch := decide) only [invAsked, rdF_wrF_other]
      exact rdF_wrF_of_lt (by decide) (get_lt _ _)
    have hlt : MMU_INV_CTRL_ALL.get v < 2 := get_lt MMU_INV_CTRL_ALL v
    rw [State.flag, hall]
    have : MMU_INV_CTRL_ALL.get v = 0 ∨ MMU_INV_CTRL_ALL.get v = 1 := by omega
    rcases this with h | h <;> rw [h] <;> rfl

theorem Only.regsInvs {s t : State} (h : Only (fun u => { u with regs := [], invs := [] }) (fresh s) t) : t = { s with regs := t.regs, invs := t.invs, out := [] } :=
  congrArg (fun u => { u with regs := t.regs, invs := t.invs }) h

theorem Only.regsInvsTlb {s t : State} (h : Only (fun u => { u with regs := [], invs := [], tlb := [] }) (fresh s) t) :
    t = { s with regs := t.regs, invs := t.invs, tlb := t.tlb, out := [] } :=
  congrArg (fun u => { u with regs := t.regs, invs := t.invs, tlb := t.tlb }) h

def setInvs (x : Tab MmuInv) (s : State) : State := { s with invs := x }
def setTlb (x : List TlbEntry) (s : State) : State := { s with tlb := x }

theorem rd_setInvs (x : Tab MmuInv) (s : State) (a : Nat) : (setInvs x s).rd a = s.rd a := rd_congr rfl rfl a

theorem Only.setInvs {m : State → State} {s t : State} (h : Only m s t) (x : Tab MmuInv) (hm : ∀ u r, m { u with invs := r } = m u := by intros; rfl) :
    Only m s (setInvs x t) := (hm _ _).trans h
theorem Only.setTlb {m : State → State} {s t : State} (h : Only m s t) (x : List TlbEntry) (hm : ∀ u r, m { u with tlb := r } = m u := by intros; rfl) :
    Only m s (setTlb x t) := (hm _ _).trans h

/-- The invalidation that a write of MMU_INV_CTRL starts. -/
def invOf (f : Fun) (v : Word) (s : State) : MmuInv :=
  ⟨⟨f.ep, if f.fn = 63 ∧ MMU_INV_CTRL_FUNC.get v = 0 then 63 else MMU_INV_CTRL_FUNC.get v⟩, s.rd64 (MMU_INV_ADDR_LO f.ep) / 2 ^ 12 % 2 ^ 36,
    MMU_INV_CTRL_PAGES.get v, MMU_INV_CTRL_STAGE.get v, MMU_INV_CTRL_ALL.get v != 0⟩

theorem mmuInvalidate_go {f : Fun} {v : Word} {s : State} (ha : (accessRow s f (addrOff (MMU_INV_CTRL f.ep))).isSome = true)
    (hb : s.flag (MMU_INV_CTRL f.ep) MMU_INV_CTRL_BUSY = false) (hgo : MMU_INV_CTRL_GO.get v = 1) :
    mmuInvalidate f v s = wrB (MMU_INV_CTRL f.ep) MMU_INV_CTRL_BUSY true
      (setInvs (tset f.ep.idx (invOf f v s) (invAsked f.ep v s).invs) (invAsked f.ep v s)) := by
  obtain ⟨⟨-, hrd⟩, hp, hst, hal⟩ := invAsked_rule f.ep v s
  have hlo : MMU_INV_ADDR_LO f.ep ∉ [MMU_INV_CTRL f.ep] ∧ MMU_INV_ADDR_LO f.ep + 4 ∉ [MMU_INV_CTRL f.ep] := by
    simp [MMU_INV_ADDR_LO, MMU_INV_CTRL]
  have hg : mmuInvalidate f v s = wrB (MMU_INV_CTRL f.ep) MMU_INV_CTRL_BUSY true (setInvs (tset f.ep.idx
      ⟨⟨f.ep, if f.fn = 63 ∧ MMU_INV_CTRL_FUNC.get v = 0 then 63 else MMU_INV_CTRL_FUNC.get v⟩, (invAsked f.ep v s).rd64 (MMU_INV_ADDR_LO f.ep) / 2 ^ 12 % 2 ^ 36,
        (invAsked f.ep v s).rdF (MMU_INV_CTRL f.ep) MMU_INV_CTRL_PAGES, (invAsked f.ep v s).rdF (MMU_INV_CTRL f.ep) MMU_INV_CTRL_STAGE,
        (invAsked f.ep v s).flag (MMU_INV_CTRL f.ep) MMU_INV_CTRL_ALL⟩ (invAsked f.ep v s).invs) (invAsked f.ep v s)) := by
    rw [mmuInvalidate, if_neg (by rw [hb]; simpa using isNone_false_of_isSome ha), if_neg (by rw [hgo]; decide)]
    rfl
  rw [hg, hp, hst, hal, rd64_of_rd (hrd _ hlo.1) (hrd _ hlo.2), invOf]

theorem covers_iff (x : MmuInv) (e : TlbEntry) : x.covers e = true ↔ e.f = x.f ∧ (x.all = true
    ∨ (x.stage % 2 = 1 ∧ x.first ≤ e.page ∧ e.page < x.first + x.pages) ∨ (x.stage / 2 % 2 = 1 ∧ x.first ≤ e.ipa ∧ e.ipa < x.first + x.pages)) := by
  simp [MmuInv.covers, nbit, or_assoc]

/-- Settles O28: the invalidation is as the write asks, and it keeps what it does not cover. -/
theorem invalidationDropsTranslations : Obligations.InvalidationDropsTranslations := by
  refine ⟨fun f v s ha hb hgo => ?_, fun d x s hx => ?_⟩
  · have hg := mmuInvalidate_go (s := fresh s) (by rw [accessRow_fresh]; exact ha) ((flag_fresh _ _ _).trans hb) hgo
    have hinv : invOf f v (fresh s) = invOf f v s := by rw [invOf, invOf, rd64_of_rd (rd_fresh _ _) (rd_fresh _ _)]
    obtain ⟨⟨ho, hrd⟩, -⟩ := invAsked_rule f.ep v (fresh s)
    have hend : Only (fun u => { u with regs := [], invs := [] }) (fresh s) (wrB (MMU_INV_CTRL f.ep) MMU_INV_CTRL_BUSY true
        (setInvs (tset f.ep.idx (invOf f v (fresh s)) (invAsked f.ep v (fresh s)).invs) (invAsked f.ep v (fresh s)))) :=
      ((Only.of_regsOnly ho).setInvs _).wrB _ _ _
    refine ⟨_, congrArg Host.Outcome.next (hend.ran hg), hend.regsInvs, flag_wrB_same _ _ _ _ (by decide) (by decide), ?_, fun a h => ?_⟩
    · rw [hinv]
      simp only [wrB_keeps, setInvs]
      exact tfind_tset_same _ _ _
    · rw [rd_wrB_ne h, rd_setInvs, hrd a (by simpa using h), rd_fresh]
  · have hg : mmuInvDone d (fresh s) = wrB (MMU_INV_CTRL d) MMU_INV_CTRL_BUSY false
        (setInvs (tkeep (fun k => k != d.idx) s.invs) (setTlb (s.tlb.filter (fun e => !x.covers e)) (fresh s))) := by
      rw [mmuInvDone, show tfind d.idx (fresh s).invs = some x from hx]
      rfl
    have hend : Only (fun u => { u with regs := [], invs := [], tlb := [] }) (fresh s) (wrB (MMU_INV_CTRL d) MMU_INV_CTRL_BUSY false
        (setInvs (tkeep (fun k => k != d.idx) s.invs) (setTlb (s.tlb.filter (fun e => !x.covers e)) (fresh s)))) :=
      ((Only.rfl.setTlb _).setInvs _).wrB _ _ _
    have hmem : ∀ e, e ∈ (wrB (MMU_INV_CTRL d) MMU_INV_CTRL_BUSY false
        (setInvs (tkeep (fun k => k != d.idx) s.invs) (setTlb (s.tlb.filter (fun e => !x.covers e)) (fresh s)))).tlb ↔ e ∈ s.tlb ∧ ¬x.covers e = true := by
      intro e
      simp only [wrB_keeps, setInvs, setTlb, List.mem_filter, Bool.not_eq_true', Bool.not_eq_true]
    refine ⟨_, congrArg Host.Outcome.next (hend.ran hg), hend.regsInvsTlb, flag_wrB_same _ _ _ _ (by decide) (by decide), ?_, ?_, ?_, ?_, ?_, ?_⟩
    all_goals simp only [hmem, covers_iff]
    · exact fun e h => h.1
    · exact fun e h hne => ⟨h, fun hc => hne hc.1⟩
    · exact fun hall e h hf => h.2 ⟨hf, .inl hall⟩
    · exact fun e h hf hs hr => h.2 ⟨hf, .inr (.inl ⟨hs, hr⟩)⟩
    · exact fun e h hf hs hr => h.2 ⟨hf, .inr (.inr ⟨hs, hr⟩)⟩
    · intro hall e h h1 h2
      refine ⟨h, ?_⟩
      rintro ⟨-, hc | hc | hc⟩
      · rw [hall] at hc
        cases hc
      · exact h1 hc
      · exact h2 hc

end Sys2Proof.Machine
end

section
/-! The permit arbiter (16.8). -/
namespace Sys2Proof.Machine

/-- R416–R418: what the arbiter grants waits on the rail, is in no gap, and fits, or is alone where it is too large. -/
theorem grantable_fits {s : State} {d : Die} {r : Nat} {front : Bool} {as : List Ask} {a : Ask} (h : grantable s d r front as = some a) :
    a ∈ as ∧ inGap s d a = false ∧ (fits s d a.kind = true ∨ (oversize s d a.kind = true ∧ railIdle s d r = true)) := by
  induction as generalizing front with
  | nil => cases h
  | cons b bs ih =>
    rw [grantable] at h
    have later : ∀ {fr}, grantable s d r fr bs = some a →
        a ∈ b :: bs ∧ inGap s d a = false ∧ (fits s d a.kind = true ∨ (oversize s d a.kind = true ∧ railIdle s d r = true)) :=
      fun hb => ⟨List.mem_cons_of_mem _ (ih hb).1, (ih hb).2⟩
    split at h
    · next hroom =>
      split at h
      · exact later h
      · next hgap =>
        cases h
        refine ⟨List.mem_cons_self .., Bool.eq_false_iff.2 hgap, ?_⟩
        simpa [or_comm] using hroom
    · split at h
      · cases h
      · split at h
        · cases h
        · exact later h

theorem permit_fresh (s : State) (d : Die) : (fresh s).permit d = s.permit d := rfl
theorem permit_setPermit_same (d : Die) (p : Permit) (s : State) : (setPermit d p s).permit d = p := tget_tset_same _ _ _ _

/-- R416: a grant holds the step, gives leave and is counted. -/
theorem grant_rule (d : Die) (a : Ask) (s : State) (hk : a.kind ≠ 0) :
    grant d a s = { s with regs := (grant d a s).regs, permits := (grant d a s).permits } ∧ ((grant d a s).permit d).held = (s.permit d).held ++ [(a.kind, stepOf s d a.kind)]
      ∧ ((grant d a s).permit d).granted = (s.permit d).granted ++ [(a.kind, a.unit)] ∧ ((grant d a s).permit d).waiting = (s.permit d).waiting.erase a
      ∧ (grant d a s).rd (PERMIT_RAIL_GRANTS d (railOf s d a.kind)) = s.rd (PERMIT_RAIL_GRANTS d (railOf s d a.kind)) + 1 := by
  have hne : PERMIT_RAIL_GRANTS d (railOf s d a.kind) ≠ PERMIT_RAIL_WAIT d (railOf s d a.kind) := by
    simp only [PERMIT_RAIL_GRANTS, PERMIT_RAIL_WAIT]
    omega
  unfold grant
  dsimp only
  rw [if_neg hk, if_neg hk]
  refine ⟨rfl, ?_, ?_, ?_, ?_⟩
  · exact congrArg Permit.held (permit_setPermit_same d _ s)
  · exact congrArg Permit.granted (permit_setPermit_same d _ s)
  · exact congrArg Permit.waiting (permit_setPermit_same d _ s)
  · exact (rd_wrF_ne hne _ _ _).trans (rd_wr_same _ _ _)

/-- With nothing waiting the arbiter only shows the rails. -/
theorem arbitrate_idle {d : Die} {s : State} (h : (s.permit d).waiting = []) : arbitrate d s = refreshPermit d s := by
  have hfix : (upto 4).foldl (fun t r => grantRail d r (t.permit d).waiting.length t) s = s :=
    List.foldl_fixed' (fun r => by rw [h]; rfl) _
  rw [arbitrate, hfix]

/-- R421: an accepted budget is written and the arbiter serves again; one below its reserve is not taken. -/
theorem permitRailWrite_rule (f : Fun) (r : Nat) (v : Word) (s : State) (hr : r < 4) (ha : (accessRow s f (addrOff (PERMIT_RAIL f.ep r))).isSome = true) :
    permitRailWrite f r v (fresh s) =
      if PERMIT_RAIL_BUDGET_MA.get v < PERMIT_RAIL_RESERVED_MA.get v then fresh s else arbitrate f.ep (wr (PERMIT_RAIL f.ep r) v (fresh s)) := by
  have hn := isNone_false_of_isSome ha
  unfold permitRailWrite
  dsimp only
  rw [accessRow_fresh]
  exact if_congr (by simp [hn, Nat.not_le.2 hr]) rfl rfl

/-- Settles O53: a grant has room, and each of what may make room lets the arbiter grant again. -/
theorem permitsAreArbitrated : Obligations.PermitsAreArbitrated := by
  refine ⟨fun d r front as a s h => grantable_fits h, fun d a s hk hr t ht => ?_, fun d s => ⟨congrArg Host.Outcome.next (ran_congr rfl), fun kind h hh => ?_, fun kind unit a ha he => ?_, congrArg Host.Outcome.next (ran_congr rfl), arbitrate_idle⟩,
    fun f r v s hr ha => ⟨fun hb => ?_, fun hb => ?_⟩⟩
  · subst ht
    exact grant_rule d a s hk
  · refine congrArg Host.Outcome.next (ran_congr ?_)
    rw [holdEnds]
    dsimp only
    rw [permit_fresh, hh]
  · refine congrArg Host.Outcome.next (ran_congr ?_)
    have hoff : (setPermit d { s.permit d with waiting := markAged (fun x => x.kind == kind && x.unit == unit && !x.aged) (s.permit d).waiting } (fresh s)).flag
        (PERMIT_CFG d) PERMIT_CFG_EV_AGED = false := (flag_congr rfl rfl _ _).trans he
    rw [permitAged]
    dsimp only
    rw [permit_fresh, ha]
    dsimp only
    rw [hoff]
    rfl
  · have hsame : permitRailWrite f r v (fresh s) = fresh s := (permitRailWrite_rule f r v s hr ha).trans (if_pos hb)
    exact congrArg Host.Outcome.next (ran_same hsame)
  · exact congrArg Host.Outcome.next (ran_congr ((permitRailWrite_rule f r v s hr ha).trans (if_neg (Nat.not_lt.2 hb))))

end Sys2Proof.Machine
end

section
/-! Eye scan and margining (R464, R465). -/
namespace Sys2Proof.Machine

theorem ltest_fresh (s : State) (d : Die) : (fresh s).ltest d = s.ltest d := rfl
theorem ltest_setLtest_same (d : Die) (x : LinkTests) (s : State) : (setLtest d x s).ltest d = x := tget_tset_same _ _ _ _

theorem rd_setLtest (d : Die) (x : LinkTests) (s : State) (a : Nat) : (setLtest d x s).rd a = s.rd a := rd_congr rfl rfl a
theorem rdF_setLtest (d : Die) (x : LinkTests) (s : State) (a : Nat) (f : Fld) : (setLtest d x s).rdF a f = s.rdF a f := rdF_congr rfl rfl a f
theorem flag_setLtest (d : Die) (x : LinkTests) (s : State) (a : Nat) (f : Fld) : (setLtest d x s).flag a f = s.flag a f := flag_congr rfl rfl a f

theorem eyeUnit_fresh (s : State) (d : Die) : eyeUnit (fresh s) d = eyeUnit s d := rdF_fresh _ _ _
theorem eyeLane_fresh (s : State) (d : Die) : eyeLane (fresh s) d = eyeLane s d := rdF_fresh _ _ _
theorem eyeOk_fresh (s : State) (d : Die) : eyeOk (fresh s) d = eyeOk s d := by
  simp only [eyeOk, eyeUnit_fresh, eyeLane_fresh, ltRuns, ltState, rdF_fresh]
  rfl

/-! ## A write of LT_EYE_CTRL -/

/-- The word that a write of LT_EYE_CTRL leaves: DWELL within its limits (R464). -/
def eyeWord (v : Word) : Word := LT_EYE_CTRL_DWELL.put (max 20 (min 40 (LT_EYE_CTRL_DWELL.get v))) (v &&& 0x7FFFFF3F)

theorem get_eyeWord_dwell (v : Word) : LT_EYE_CTRL_DWELL.get (eyeWord v) = max 20 (min 40 (LT_EYE_CTRL_DWELL.get v)) :=
  (get_put _ _ _ (by decide)).trans (Nat.mod_eq_of_lt (by simp only [LT_EYE_CTRL_DWELL]; omega))

/-- A field of LT_EYE_CTRL beside DWELL that software may write. -/
theorem get_eyeWord {f : Fld} (hd : f.lo + f.len ≤ LT_EYE_CTRL_DWELL.lo ∨ LT_EYE_CTRL_DWELL.lo + LT_EYE_CTRL_DWELL.len ≤ f.lo)
    (hm : ∀ i < f.len, (0x7FFFFF3F : Word).getLsbD (f.lo + i) = true) (v : Word) : f.get (eyeWord v) = f.get v :=
  (get_put_ne _ _ _ _ (by decide) hd).trans (get_and hm v)

theorem eyeWrite_open {f : Fun} {v : Word} {s : State} (ha : (accessRow s f (addrOff (LT_EYE_CTRL f.ep))).isSome = true) :
    eyeWrite f v s = if LT_EYE_CTRL_GO.get v = 0 then wr (LT_EYE_CTRL f.ep) (eyeWord v) s
      else eyeBegin f.ep (setLtest f.ep { s.ltest f.ep with eye := 1 } (wr (LT_EYE_RESULT f.ep) 0 (wr (LT_EYE_CTRL f.ep) (eyeWord v) s))) := by
  unfold eyeWrite
  dsimp only
  rw [if_neg (isNone_false_of_isSome ha)]
  rfl

theorem ltEyeGo_rule (f : Fun) (v : Word) (s : State) (ha : (accessRow s f (addrOff (LT_EYE_CTRL f.ep))).isSome = true) :
    ∃ w, w = { s with regs := w.regs, out := [] }
      ∧ w.rdF (LT_EYE_CTRL f.ep) LT_EYE_CTRL_DWELL = max 20 (min 40 (LT_EYE_CTRL_DWELL.get v)) ∧ eyeUnit w f.ep = LT_EYE_CTRL_UNIT.get v ∧ eyeLane w f.ep = LT_EYE_CTRL_LANE.get v
      ∧ w.rdF (LT_EYE_CTRL f.ep) LT_EYE_CTRL_T_STEP = LT_EYE_CTRL_T_STEP.get v ∧ w.rdF (LT_EYE_CTRL f.ep) LT_EYE_CTRL_V_STEP = LT_EYE_CTRL_V_STEP.get v
      ∧ (∀ a, a ≠ LT_EYE_CTRL f.ep → w.rd a = s.rd a)
      ∧ (LT_EYE_CTRL_GO.get v = 0 → exec (.ltEyeGo f v) s = .next (ran (fun _ => w) s))
      ∧ (LT_EYE_CTRL_GO.get v = 1 → exec (.ltEyeGo f v) s = .next (ran (fun _ => eyeBegin f.ep (setLtest f.ep { s.ltest f.ep with eye := 1 } (wr (LT_EYE_RESULT f.ep) 0 w))) s)) := by
  have hopen := eyeWrite_open (v := v) (s := fresh s) (f := f) (by rw [accessRow_fresh]; exact ha)
  refine ⟨wr (LT_EYE_CTRL f.ep) (eyeWord v) (fresh s), (RegsOnly.rfl.wr _ _).fresh, ?_, ?_, ?_, ?_, ?_, fun a h => ?_, fun hgo => ?_, fun hgo => ?_⟩
  · exact (rdF_wr_same _ _ _ _).trans (get_eyeWord_dwell v)
  · exact (rdF_wr_same _ _ _ _).trans (get_eyeWord (by decide) (by decide) v)
  · exact (rdF_wr_same _ _ _ _).trans (get_eyeWord (by decide) (by decide) v)
  · exact (rdF_wr_same _ _ _ _).trans (get_eyeWord (by decide) (by decide) v)
  · exact (rdF_wr_same _ _ _ _).trans (get_eyeWord (by decide) (by decide) v)
  · exact (rd_wr_ne h _ _).trans (rd_fresh _ _)
  · exact congrArg Host.Outcome.next (ran_congr (hopen.trans (if_pos hgo)))
  · exact congrArg Host.Outcome.next (ran_congr (hopen.trans (if_neg (by rw [hgo]; decide))))

theorem ltEyeGo_closed (f : Fun) (v : Word) (s : State) (ha : (accessRow s f (addrOff (LT_EYE_CTRL f.ep))).isNone = true) :
    exec (.ltEyeGo f v) s = .next (fresh s) := by
  have hsame : eyeWrite f v (fresh s) = fresh s := by
    rw [eyeWrite]
    exact if_pos (by rw [accessRow_fresh]; exact ha)
  exact congrArg Host.Outcome.next (ran_same hsame)

/-! ## A point -/

theorem eyeResult_rule (d : Die) (bad : Bool) (n : Nat) (s : State) :
    (eyeResult d bad n s).flag (LT_EYE_RESULT d) LT_EYE_RESULT_DONE = true ∧ (eyeResult d bad n s).flag (LT_EYE_RESULT d) LT_EYE_RESULT_INVALID = bad
      ∧ (eyeResult d bad n s).rdF (LT_EYE_RESULT d) LT_EYE_RESULT_ERRORS = min 0x3FFFFFFF n ∧ ((eyeResult d bad n s).ltest d).eye = 0
      ∧ ∀ a, a ≠ LT_EYE_RESULT d → (eyeResult d bad n s).rd a = s.rd a := by
  have heq : eyeResult d bad n s = setLtest d { s.ltest d with eye := 0 } (wrF (LT_EYE_RESULT d) LT_EYE_RESULT_ERRORS (min 0x3FFFFFFF n)
      (wrB (LT_EYE_RESULT d) LT_EYE_RESULT_INVALID bad (wrB (LT_EYE_RESULT d) LT_EYE_RESULT_DONE true s))) := rfl
  rw [heq, flag_setLtest, flag_setLtest, rdF_setLtest, ltest_setLtest_same]
  refine ⟨?_, ?_, rdF_wrF_of_lt (by decide) ?_, rfl, fun a h => ?_⟩
  · rw [flag_wrF_other _ _ _ _ _ (by decide) (by decide), flag_wrB_other _ _ _ _ _ (by decide) (by decide)]
    exact flag_wrB_same _ _ _ _ (by decide) (by decide)
  · rw [flag_wrF_other _ _ _ _ _ (by decide) (by decide)]
    exact flag_wrB_same _ _ _ _ (by decide) (by decide)
  · simp only [LT_EYE_RESULT_ERRORS]
    omega
  · rw [rd_setLtest, rd_wrF_ne h, rd_wrB_ne h, rd_wrB_ne h]

/-! ## Margining -/

theorem Only.linkTests {s t : State} (h : Only (fun u => { u with linkTests := [] }) (fresh s) t) : t = { s with linkTests := t.linkTests, out := [] } :=
  congrArg (fun u => { u with linkTests := t.linkTests }) h

theorem Only.setLtest {m : State → State} {s t : State} (h : Only m s t) (d : Die) (x : LinkTests)
    (hm : ∀ u r, m { u with linkTests := r } = m u := by intros; rfl) : Only m s (setLtest d x t) := (hm _ _).trans h

theorem laneMargining_rule (d : Die) (l k : Nat) (s : State) (hl : l < 8) :
    (∃ t, exec (.laneMargining d l 0) s = .next t ∧ t = { s with linkTests := t.linkTests, out := [] } ∧ (t.ltest d).margin.contains l = true ∧ (t.ltest d).eye = (s.ltest d).eye)
      ∧ (∃ w, w = { s with linkTests := w.linkTests, out := [] } ∧ w.ltest d = { s.ltest d with margin := (s.ltest d).margin.filter (fun m => m != l) }
        ∧ exec (.laneMargining d l 1) s = .next (ran (fun _ => eyeBegin d w) s))
      ∧ (2 ≤ k → ∃ t, exec (.laneMargining d l k) s = .next t ∧ t = { s with out := [.margin d l [32, 50, 64, 16]] }) := by
  have hl' : ¬8 ≤ l := Nat.not_le.2 hl
  refine ⟨?_, ?_, fun hk => ?_⟩
  · have hend : Only (fun u => { u with linkTests := [] }) (fresh s)
        (setLtest d { s.ltest d with margin := l :: (s.ltest d).margin.filter (fun m => m != l) } (fresh s)) := Only.rfl.setLtest _ _
    refine ⟨_, congrArg Host.Outcome.next (hend.ran ?_), hend.linkTests, ?_, ?_⟩
    · rw [margining, if_neg hl', if_pos rfl]
      rfl
    · rw [ltest_setLtest_same]
      exact List.elem_cons_self
    · rw [ltest_setLtest_same]
  · have hend : Only (fun u => { u with linkTests := [] }) (fresh s) (setLtest d { s.ltest d with margin := (s.ltest d).margin.filter (fun m => m != l) } (fresh s)) :=
      Only.rfl.setLtest _ _
    refine ⟨_, hend.linkTests, ltest_setLtest_same _ _ _, congrArg Host.Outcome.next (ran_congr ?_)⟩
    rw [margining, if_neg hl', if_neg (by decide), if_pos rfl]
    rfl
  · refine ⟨_, congrArg Host.Outcome.next (ran_quiet (t := emit (.margin d l [32, 50, 64, 16]) (fresh s)) ?_ rfl rfl rfl), rfl⟩
    rw [margining, if_neg hl', if_neg (by omega), if_neg (by omega)]

/-- Settles O59: each branch of the eye point and of the margining command. -/
theorem eyesAreScanned : Obligations.EyesAreScanned := by
  refine ⟨fun f v s => ⟨ltEyeGo_closed f v s, ltEyeGo_rule f v s⟩, fun d s => ⟨fun h => if_pos h, fun h1 h2 => ?_, fun h1 h2 h3 h4 => ?_, fun h1 h2 h3 => ?_, fun bad n => eyeResult_rule d bad n s⟩,
    fun d n s => ⟨fun h => ?_, fun h1 h2 => ?_, fun h1 h2 => ?_⟩, fun d l k s => ⟨fun h => ?_, laneMargining_rule d l k s⟩⟩
  · rw [eyeBegin, if_neg (not_not.2 h1), if_pos h2]
  · rw [eyeBegin, if_neg (not_not.2 h1), if_neg (by rw [h2]; decide), if_pos ⟨h3, h4⟩]
  · rw [eyeBegin, if_neg (not_not.2 h1), if_neg (by rw [h2]; decide), if_neg fun h => h3.elim (fun h0 => h0 h.1) fun h0 => by rw [h0] at h; exact absurd h.2 (by decide)]
  · exact congrArg Host.Outcome.next (ran_same (if_neg h))
  · exact congrArg Host.Outcome.next (ran_congr ((if_pos h1).trans (if_pos ((eyeOk_fresh s d).trans h2))))
  · exact congrArg Host.Outcome.next (ran_congr ((if_pos h1).trans (if_neg (by rw [eyeOk_fresh, h2]; decide))))
  · exact congrArg Host.Outcome.next (ran_same (if_pos h))

end Sys2Proof.Machine
end

section
/-! Link test units (R459–R463). -/
namespace Sys2Proof.Machine

/-! ## Pairs and counters -/

theorem rd_wr64_ne {a b : Nat} (h : a ≠ b) (h' : a ≠ b + 4) (v : Nat) (s : State) : (wr64 b v s).rd a = s.rd a := (rd_wr_ne h' _ _).trans (rd_wr_ne h _ _)

theorem rd64_wr64_same (a v : Nat) (s : State) : (wr64 a v s).rd64 a = v % 2 ^ 64 := by
  have hlo : (wr64 a v s).rd a = BitVec.ofNat 32 v := (rd_wr_ne (by omega) _ _).trans (rd_wr_same _ _ _)
  have hhi : (wr64 a v s).rd (a + 4) = BitVec.ofNat 32 (v / 2 ^ 32) := rd_wr_same _ _ _
  rw [State.rd64, hlo, hhi, BitVec.toNat_ofNat, BitVec.toNat_ofNat]
  omega

theorem regsOnly_wr64 (a v : Nat) (s : State) : RegsOnly s (wr64 a v s) := (regsOnly_wr _ _ _).wr _ _

/-- Emissions of a list of outputs. -/
theorem foldl_emit {α : Type} (g : α → Out) (xs : List α) (s : State) :
    xs.foldl (fun t x => emit (g x) t) s = { s with out := s.out ++ xs.map g } := by
  induction xs generalizing s with
  | nil => rw [List.foldl_nil, List.map_nil, List.append_nil]
  | cons x xs ih =>
    rw [List.foldl_cons, ih, List.map_cons, List.append_cons]
    rfl

theorem Only.regsLinkTests {s t : State} (h : Only (fun u => { u with regs := [], linkTests := [] }) s t) : t = { s with regs := t.regs, linkTests := t.linkTests } :=
  congrArg (fun u => { u with regs := t.regs, linkTests := t.linkTests }) h

/-! ## Registers of a unit lie apart -/

theorem ltErr_ne_status {d : Die} {u : Nat} (hu : u ≤ 20) (l : Nat) : LT_ERR d u l ≠ LT_STATUS d u := by simp only [LT_ERR, LT_STATUS]; omega
theorem ltErr_ne_nolock {d : Die} {u : Nat} (hu : u ≤ 20) (l : Nat) : LT_ERR d u l ≠ LT_NOLOCK d u := by simp only [LT_ERR, LT_NOLOCK]; omega
theorem ltErr_ne_bits {d : Die} {u : Nat} (hu : u ≤ 20) (l : Nat) : LT_ERR d u l ≠ LT_BITS_LO d u ∧ LT_ERR d u l ≠ LT_BITS_LO d u + 4 := by
  simp only [LT_ERR, LT_BITS_LO]
  omega
theorem ltStatus_apart (d : Die) (u : Nat) : LT_STATUS d u ≠ LT_NOLOCK d u ∧ LT_STATUS d u ≠ LT_BITS_LO d u ∧ LT_STATUS d u ≠ LT_BITS_LO d u + 4 := by
  simp only [LT_STATUS, LT_NOLOCK, LT_BITS_LO]
  omega
theorem ltNolock_ne_bits (d : Die) (u : Nat) : LT_NOLOCK d u ≠ LT_BITS_LO d u ∧ LT_NOLOCK d u ≠ LT_BITS_LO d u + 4 := by
  simp only [LT_NOLOCK, LT_BITS_LO]
  omega

/-! ## The counters of a unit clear -/

/-- The error counters of the first `n` lanes clear. -/
def errsClear (d : Die) (u n : Nat) (s : State) : State := (upto n).foldl (fun t l => wr (LT_ERR d u l) 0 t) s

theorem errsClear_succ (d : Die) (u n : Nat) (s : State) : errsClear d u (n + 1) s = wr (LT_ERR d u n) 0 (errsClear d u n s) := by
  simp only [errsClear, upto, List.range_succ, List.foldl_append, List.foldl_cons, List.foldl_nil]

theorem errsClear_rule (d : Die) (u n : Nat) (s : State) :
    RegsOnly s (errsClear d u n s) ∧ (∀ l, l < n → (errsClear d u n s).rd (LT_ERR d u l) = 0)
      ∧ ∀ a, (∀ l, a ≠ LT_ERR d u l) → (errsClear d u n s).rd a = s.rd a := by
  induction n with
  | zero => exact ⟨.rfl, fun l h => absurd h (Nat.not_lt_zero _), fun _ _ => rfl⟩
  | succ n ih =>
    obtain ⟨hr, hz, hk⟩ := ih
    rw [errsClear_succ]
    refine ⟨hr.wr _ _, fun l hl => ?_, fun a ha => (rd_wr_ne (ha n) _ _).trans (hk a ha)⟩
    by_cases hln : l = n
    · rw [hln]
      exact rd_wr_same _ _ _
    · refine (rd_wr_ne ?_ _ _).trans (hz l (by omega))
      simp only [LT_ERR]
      omega

/-- A unit that starts: its counters are clear, and it runs, or is armed on PCIe. -/
def ltStarted (d : Die) (u : Nat) (s : State) : State :=
  wrF (LT_STATUS d u) LT_STATUS_STATE (if u = 0 then 1 else 2) (ltClear d u (wrB (LT_STATUS d u) LT_STATUS_RETRAIN false (wrF (LT_STATUS d u) LT_STATUS_START_ERR 0 s)))

theorem ltClear_eq (d : Die) (u : Nat) (s : State) : ltClear d u s = errsClear d u (ltLanes u)
    (setLtest d { s.ltest d with locked := tkeep (fun k => k != u) (s.ltest d).locked } (wrF (LT_STATUS d u) LT_STATUS_RELOCKS 0
      (wrF (LT_STATUS d u) LT_STATUS_NOLOCK_HI 0 (wr (LT_NOLOCK d u) 0 (wr64 (LT_BITS_LO d u) 0 s))))) := rfl

theorem Only.linkTests_ltest {s t : State} (h : RegsOnly s t) (d : Die) : t.ltest d = s.ltest d := by
  obtain ⟨r, hr⟩ := h
  rw [hr]
  exact Eq.refl _

theorem tget_tkeep_out {α : Type} (x : α) (k : Nat) (t : Tab α) : tget x k (tkeep (fun j => j != k) t) = x := by
  rw [tget_eq_tfind, tfind_tkeep]
  simp

theorem ltStarted_rule {d : Die} {u : Nat} (hu : u ≤ 20) (s : State) :
    Only (fun v => { v with regs := [], linkTests := [] }) s (ltStarted d u s) ∧ ltState (ltStarted d u s) d u = (if u = 0 then 1 else 2)
      ∧ (ltStarted d u s).rdF (LT_STATUS d u) LT_STATUS_START_ERR = 0 ∧ (ltStarted d u s).rdF (LT_STATUS d u) LT_STATUS_RELOCKS = 0 ∧ (ltStarted d u s).rd (LT_NOLOCK d u) = 0
      ∧ (ltStarted d u s).rd64 (LT_BITS_LO d u) = 0 ∧ (∀ l, l < ltLanes u → (ltStarted d u s).rd (LT_ERR d u l) = 0) ∧ tget [] u ((ltStarted d u s).ltest d).locked = [] := by
  obtain ⟨n1, n2, n3⟩ := ltStatus_apart d u
  obtain ⟨n4, n5⟩ := ltNolock_ne_bits d u
  set s1 := wrB (LT_STATUS d u) LT_STATUS_RETRAIN false (wrF (LT_STATUS d u) LT_STATUS_START_ERR 0 s) with hs1
  set s2 := wr (LT_NOLOCK d u) 0 (wr64 (LT_BITS_LO d u) 0 s1) with hs2
  set s3 := wrF (LT_STATUS d u) LT_STATUS_RELOCKS 0 (wrF (LT_STATUS d u) LT_STATUS_NOLOCK_HI 0 s2) with hs3
  set s4 := setLtest d { s1.ltest d with locked := tkeep (fun k => k != u) (s1.ltest d).locked } s3 with hs4
  obtain ⟨hr, hz, hk⟩ := errsClear_rule d u (ltLanes u) s4
  have heq : ltStarted d u s = wrF (LT_STATUS d u) LT_STATUS_STATE (if u = 0 then 1 else 2) (errsClear d u (ltLanes u) s4) := rfl
  have hstat : ∀ {f : Fld}, LT_STATUS_STATE.lo + LT_STATUS_STATE.len ≤ f.lo ∨ f.lo + f.len ≤ LT_STATUS_STATE.lo →
      (ltStarted d u s).rdF (LT_STATUS d u) f = s3.rdF (LT_STATUS d u) f := fun {f} hf => by
    rw [heq, rdF_wrF_other _ _ _ _ _ (by decide) hf.symm, rdF_of_rd (hk _ fun l => (ltErr_ne_status hu l).symm), hs4, rdF_setLtest]
  have hreg : ∀ {a : Nat}, (∀ l, a ≠ LT_ERR d u l) → a ≠ LT_STATUS d u → (ltStarted d u s).rd a = s2.rd a := fun h h' => by
    rw [heq, rd_wrF_ne h', hk _ h, hs4, rd_setLtest, hs3, rd_wrF_ne h', rd_wrF_ne h']
  refine ⟨?_, ?_, ?_, ?_, ?_, ?_, fun l hl => ?_, ?_⟩
  · have h12 : RegsOnly s s2 := (((regsOnly_wrF _ _ _ _).wrF _ _ _).trans (regsOnly_wr64 _ _ _)).wr _ _
    exact (((Only.of_regsOnly ((h12.wrF _ _ _).wrF _ _ _)).setLtest _ _).trans (.of_regsOnly hr)).wrF _ _ _
  · refine rdF_wrF_of_lt (by decide) ?_
    split <;> decide
  · rw [hstat (by decide), hs3, rdF_wrF_other _ _ _ _ _ (by decide) (by decide), rdF_wrF_other _ _ _ _ _ (by decide) (by decide), hs2, rdF_wr_ne n1,
      rdF_of_rd (rd_wr64_ne n2 n3 _ _), hs1, rdF_wrB_other _ _ _ _ _ (by decide) (by decide)]
    exact rdF_wrF_of_lt (by decide) (by decide)
  · rw [hstat (by decide)]
    exact rdF_wrF_of_lt (by decide) (by decide)
  · rw [hreg (fun l => (ltErr_ne_nolock hu l).symm) n1.symm]
    exact rd_wr_same _ _ _
  · rw [rd64_of_rd (hreg (fun l => (ltErr_ne_bits hu l).1.symm) n2.symm) (hreg (fun l => (ltErr_ne_bits hu l).2.symm) n3.symm), hs2,
      rd64_of_rd (rd_wr_ne n4.symm _ _) (rd_wr_ne n5.symm _ _)]
    exact rd64_wr64_same _ _ _
  · rw [heq, rd_wrF_ne (ltErr_ne_status hu l)]
    exact hz l hl
  · have hlt : (ltStarted d u s).ltest d = s4.ltest d := by
      rw [heq]
      exact Only.linkTests_ltest hr d
    rw [hlt, hs4, ltest_setLtest_same]
    exact tget_tkeep_out _ _ _

/-- START on a unit that neither runs nor is armed. -/
theorem ltBegin_idle {d : Die} {u : Nat} {s : State} (h1 : ltState s d u ≠ 1) (h2 : ltState s d u ≠ 2) :
    ltBegin d u s = if (if ltBusy s d u ≠ 0 then ltBusy s d u else if ltSupported s d u then 0 else 5) ≠ 0 then
        wrF (LT_STATUS d u) LT_STATUS_START_ERR (if ltBusy s d u ≠ 0 then ltBusy s d u else if ltSupported s d u then 0 else 5) s
      else if u = 0 then wrF (LT_STATUS d u) LT_STATUS_STATE 1 (ltClear d u (wrB (LT_STATUS d u) LT_STATUS_RETRAIN false
          (wrF (LT_STATUS d u) LT_STATUS_START_ERR (if ltBusy s d u ≠ 0 then ltBusy s d u else if ltSupported s d u then 0 else 5) s)))
        else ltRun d u (ltClear d u (wrB (LT_STATUS d u) LT_STATUS_RETRAIN false
          (wrF (LT_STATUS d u) LT_STATUS_START_ERR (if ltBusy s d u ≠ 0 then ltBusy s d u else if ltSupported s d u then 0 else 5) s))) :=
  if_neg (by simpa [ltRuns, h1] using h2)

theorem ltBegin_rule (d : Die) (u : Nat) (s : State) (hu : u ≤ 20) :
    (ltState s d u = 1 ∨ ltState s d u = 2 → ltBegin d u s = s)
    ∧ (ltState s d u ≠ 1 → ltState s d u ≠ 2 → ∀ r, r = (if ltBusy s d u ≠ 0 then ltBusy s d u else if ltSupported s d u then 0 else 5) →
      (r ≠ 0 → ltBegin d u s = wrF (LT_STATUS d u) LT_STATUS_START_ERR r s)
      ∧ (r = 0 → ∃ w, w = { s with regs := w.regs, linkTests := w.linkTests } ∧ ltState w d u = (if u = 0 then 1 else 2) ∧ w.rdF (LT_STATUS d u) LT_STATUS_START_ERR = 0
        ∧ w.rdF (LT_STATUS d u) LT_STATUS_RELOCKS = 0 ∧ w.rd (LT_NOLOCK d u) = 0 ∧ w.rd64 (LT_BITS_LO d u) = 0 ∧ (∀ l, l < ltLanes u → w.rd (LT_ERR d u l) = 0) ∧ tget [] u (w.ltest d).locked = []
        ∧ ltBegin d u s = (if u = 0 then w else if 5 ≤ u ∧ u ≤ 8 then (upto 4).foldl (fun t c => loseStream (4 * d.idx + (u - 5)) c 2 t) (generate d u w) else generate d u w))) := by
  refine ⟨fun h => if_pos (by simpa [ltRuns] using h), fun h1 h2 r hr => ⟨fun hne => ?_, fun h0 => ?_⟩⟩
  · rw [ltBegin_idle h1 h2, ← hr, if_pos hne]
  · obtain ⟨ho, hrest⟩ := ltStarted_rule (d := d) hu s
    obtain ⟨g1, g2, g3, g4, g5, g6, g7⟩ := hrest
    refine ⟨ltStarted d u s, ho.regsLinkTests, g1, g2, g3, g4, g5, g6, g7, ?_⟩
    rw [ltBegin_idle h1 h2, ← hr, h0, if_neg (by decide)]
    split
    · next hz => rw [ltStarted, if_pos hz]
    · next hz =>
      rw [ltStarted, if_neg hz]
      rfl

/-! ## The generator (R460) -/

theorem generate_silent {d : Die} {u : Nat} {s : State} (h : s.rdF (LT_CFG d u) LT_CFG_PATTERN = 0 ∨ s.rdF (LT_CFG d u) LT_CFG_MODE = 1
    ∨ (5 ≤ u ∧ u ≤ 8 ∧ s.rdF (LT_CFG d u) LT_CFG_MODE ≠ 3)) : generate d u s = s := if_pos h

/-- What a lane of the generator sends. -/
def laneSends (s : State) (d : Die) (u l : Nat) : Out :=
  .pattern d u l (s.rdF (LT_CFG d u) LT_CFG_PATTERN) (prbsPoly (s.rdF (LT_CFG d u) LT_CFG_PATTERN))
    (if s.rdF (LT_CFG d u) LT_CFG_PATTERN ≤ 5 then laneSeed (s.rdF (LT_CFG d u) LT_CFG_PATTERN) l
      else if s.rdF (LT_CFG d u) LT_CFG_PATTERN = 6 then s.rd64 (LT_USER_LO d) else 0)
    (s.flag (LT_CFG d u) LT_CFG_INVERT) (ltRate s d u)

theorem generate_sends {d : Die} {u : Nat} {s : State} (h : ¬(s.rdF (LT_CFG d u) LT_CFG_PATTERN = 0 ∨ s.rdF (LT_CFG d u) LT_CFG_MODE = 1
    ∨ (5 ≤ u ∧ u ≤ 8 ∧ s.rdF (LT_CFG d u) LT_CFG_MODE ≠ 3))) :
    generate d u s = { s with out := s.out ++ (lanesTested s d u).map (laneSends s d u) } :=
  (if_neg h).trans (foldl_emit (laneSends s d u) _ _)

theorem generate_frame (d : Die) (u : Nat) (s : State) : generate d u s = { s with out := (generate d u s).out } := by
  by_cases h : s.rdF (LT_CFG d u) LT_CFG_PATTERN = 0 ∨ s.rdF (LT_CFG d u) LT_CFG_MODE = 1 ∨ (5 ≤ u ∧ u ≤ 8 ∧ s.rdF (LT_CFG d u) LT_CFG_MODE ≠ 3)
  · rw [generate_silent h]
  · rw [generate_sends h]

theorem generate_lane {d : Die} {u l : Nat} {s : State} (hp : s.rdF (LT_CFG d u) LT_CFG_PATTERN ≠ 0) (hl : (lanesTested s d u).contains l = true)
    (hm : s.rdF (LT_CFG d u) LT_CFG_MODE = 3 ∨ s.rdF (LT_CFG d u) LT_CFG_MODE ≠ 1 ∧ (u < 5 ∨ 8 < u)) : laneSends s d u l ∈ (generate d u s).out := by
  rw [generate_sends (by omega)]
  refine List.mem_append_right _ (List.mem_map_of_mem ?_)
  simpa using hl

theorem generate_rule (d : Die) (u p l : Nat) (s : State) (hp : p = s.rdF (LT_CFG d u) LT_CFG_PATTERN) (rate : Option Nat) (hr : rate = ltRate s d u) :
    generate d u s = { s with out := (generate d u s).out }
    ∧ (p = 0 ∨ s.rdF (LT_CFG d u) LT_CFG_MODE = 1 → generate d u s = s)
    ∧ ((lanesTested s d u).contains l = true → s.rdF (LT_CFG d u) LT_CFG_MODE = 3 ∨ s.rdF (LT_CFG d u) LT_CFG_MODE ≠ 1 ∧ (u < 5 ∨ 8 < u) →
      (∀ n m, (p, n, m) ∈ [(1, 7, 6), (2, 9, 5), (3, 15, 14), (4, 23, 18), (5, 31, 28)] →
        .pattern d u l p (n, m) (2 ^ n - 64 + l + 1) (s.flag (LT_CFG d u) LT_CFG_INVERT) rate ∈ (generate d u s).out)
      ∧ (p = 6 → .pattern d u l 6 (0, 0) (s.rd64 (LT_USER_LO d)) (s.flag (LT_CFG d u) LT_CFG_INVERT) rate ∈ (generate d u s).out)) := by
  refine ⟨generate_frame d u s, fun h => generate_silent (by rw [← hp]; exact h.imp_right .inl), fun hl hm => ⟨fun n m hin => ?_, fun h6 => ?_⟩⟩
  · have hpoly : p ≠ 0 ∧ p ≤ 5 ∧ prbsPoly p = (n, m) := by
      simp only [List.mem_cons, Prod.mk.injEq, List.not_mem_nil, or_false] at hin
      rcases hin with ⟨rfl, rfl, rfl⟩ | ⟨rfl, rfl, rfl⟩ | ⟨rfl, rfl, rfl⟩ | ⟨rfl, rfl, rfl⟩ | ⟨rfl, rfl, rfl⟩ <;> decide
    obtain ⟨h0, h5, hpp⟩ := hpoly
    have hsent := generate_lane (d := d) (u := u) (by rw [← hp]; exact h0) hl hm
    rw [laneSends, ← hp, ← hr, if_pos h5, laneSeed, hpp] at hsent
    exact hsent
  · have hsent := generate_lane (d := d) (u := u) (by rw [← hp, h6]; decide) hl hm
    rw [laneSends, ← hp, ← hr, h6] at hsent
    exact hsent

/-! ## Counting (R461) -/

theorem ltCount_unlocked {d : Die} {u : Nat} {s : State} (h : tget [] u (s.ltest d).locked = []) (o : LtObs) : ltCount d u o s = s := by
  unfold ltCount
  dsimp only
  rw [h, if_pos rfl]
  exact List.foldl_fixed' (fun e => if_neg (by simp)) _

/-- The counters that a report of errors adds to are those of lanes. -/
theorem ltCount_frame (d : Die) (u : Nat) (o : LtObs) (s : State) :
    RegsOnly s (ltCount d u o s) ∧ ∀ a, (∀ l, a ≠ LT_ERR d u l) → a ≠ LT_BITS_LO d u → a ≠ LT_BITS_LO d u + 4 → (ltCount d u o s).rd a = s.rd a := by
  have hfold : ∀ (on : List Nat) (es : List (Nat × Nat)) (t : State),
      RegsOnly t (es.foldl (fun t e => if on.contains e.1 then satF (LT_ERR d u e.1) LT_ERR_COUNT e.2 t else t) t)
        ∧ ∀ a, (∀ l, a ≠ LT_ERR d u l) → (es.foldl (fun t e => if on.contains e.1 then satF (LT_ERR d u e.1) LT_ERR_COUNT e.2 t else t) t).rd a = t.rd a := by
    intro on es
    induction es with
    | nil => exact fun t => ⟨.rfl, fun _ _ => rfl⟩
    | cons e es ih =>
      intro t
      obtain ⟨hr, hk⟩ := ih (if on.contains e.1 then satF (LT_ERR d u e.1) LT_ERR_COUNT e.2 t else t)
      rw [List.foldl_cons]
      by_cases hc : on.contains e.1 = true
      · rw [if_pos hc] at hr hk ⊢
        exact ⟨(regsOnly_wrF _ _ _ _).trans hr, fun a ha => (hk a ha).trans (rd_satF_ne (ha _) _ _ _)⟩
      · rw [if_neg hc] at hr hk ⊢
        exact ⟨hr, hk⟩
  obtain ⟨hr, hk⟩ := hfold (tget [] u (s.ltest d).locked) o.errs s
  unfold ltCount
  dsimp only
  split
  · exact ⟨hr, fun a ha _ _ => hk a ha⟩
  · exact ⟨hr.trans (regsOnly_wr64 _ _ _), fun a ha h1 h2 => (rd_wr64_ne h1 h2 _ _).trans (hk a ha)⟩

theorem ltCount_lane {d : Die} {u l n : Nat} {o : LtObs} {s : State} (hu : u ≤ 20) (ho : o.errs = [(l, n)])
    (hl : (tget [] u (s.ltest d).locked).contains l = true) :
    (ltCount d u o s).rdF (LT_ERR d u l) LT_ERR_COUNT = min (2 ^ 32 - 1) (s.rdF (LT_ERR d u l) LT_ERR_COUNT + n)
      ∧ (ltCount d u o s).rd64 (LT_BITS_LO d u) = (s.rd64 (LT_BITS_LO d u) + o.bits) % 2 ^ 64 := by
  obtain ⟨n1, n2⟩ := ltErr_ne_bits (d := d) hu l
  have hon : ¬tget [] u (s.ltest d).locked = [] := fun h => by
    rw [h] at hl
    cases hl
  have heq : ltCount d u o s = add64 (LT_BITS_LO d u) o.bits (satF (LT_ERR d u l) LT_ERR_COUNT n s) := by
    unfold ltCount
    dsimp only
    rw [ho, if_neg hon, List.foldl_cons, List.foldl_nil, if_pos hl]
  have hbits : (satF (LT_ERR d u l) LT_ERR_COUNT n s).rd64 (LT_BITS_LO d u) = s.rd64 (LT_BITS_LO d u) :=
    rd64_of_rd (rd_satF_ne n1.symm _ _ _) (rd_satF_ne n2.symm _ _ _)
  rw [heq, add64, hbits]
  exact ⟨(rdF_of_rd (rd_wr64_ne n1 n2 _ _) _).trans (rdF_satF_same _ _ _ _ (by decide)), rd64_wr64_same _ _ _⟩

/-! ## Ends (R462) -/

/-- Lanes of a unit that were never locked, where its checker looked. -/
def lanesOff (s : State) (d : Die) (u : Nat) : List Nat :=
  (lanesTested s d u).filter (fun l => ltChecks u && s.rdF (LT_CFG d u) LT_CFG_MODE != 0 && !(tget [] u (s.ltest d).locked).contains l)

theorem lanesOff_eq (s : State) (d : Die) (u : Nat) : (if ltChecks u = true ∧ s.rdF (LT_CFG d u) LT_CFG_MODE ≠ 0 then
    (lanesTested s d u).filter (fun l => !(tget [] u (s.ltest d).locked).contains l) else []) = lanesOff s d u := by
  unfold lanesOff
  split
  · next h =>
    obtain ⟨h1, h2⟩ := h
    have hb : (s.rdF (LT_CFG d u) LT_CFG_MODE != 0) = true := bne_iff_ne.2 h2
    simp only [h1, hb, Bool.true_and]
  · next h =>
    refine (List.filter_eq_nil_iff.2 fun l _ => ?_).symm
    intro hl
    simp only [Bool.and_eq_true, bne_iff_ne] at hl
    exact h hl.1

theorem ltFree_keeps {d : Die} {u : Nat} {s : State} (h : (s.dram d).waitTarget = none ∨ u < 13) : ltFree d u s = s := by
  unfold ltFree
  split
  · next t ht =>
    have hu := h.resolve_left (by rw [ht]; exact Option.some_ne_none t)
    exact if_neg fun hc => absurd hc.1 (by omega)
  · rfl

/-- A unit whose test ended, as its registers show it. -/
def ltEnded (d : Die) (u c : Nat) (off : List Nat) (s : State) : State :=
  s |> wrF (LT_STATUS d u) LT_STATUS_STATE 3 |> wrF (LT_STATUS d u) LT_STATUS_CAUSE c
    |> wr (LT_NOLOCK d u) (BitVec.ofNat 32 (off.map (fun l => 2 ^ l)).sum) |> wrF (LT_STATUS d u) LT_STATUS_NOLOCK_HI ((off.map (fun l => 2 ^ l)).sum / 2 ^ 32)

theorem ltEnded_rule {d : Die} {u c : Nat} (hc : c < 4) (off : List Nat) (s : State) :
    RegsOnly s (ltEnded d u c off s) ∧ ltState (ltEnded d u c off s) d u = 3 ∧ (ltEnded d u c off s).rdF (LT_STATUS d u) LT_STATUS_CAUSE = c
      ∧ (ltEnded d u c off s).rd (LT_NOLOCK d u) = BitVec.ofNat 32 (off.map (fun l => 2 ^ l)).sum
      ∧ ∀ a, a ≠ LT_STATUS d u → a ≠ LT_NOLOCK d u → (ltEnded d u c off s).rd a = s.rd a := by
  obtain ⟨n1, -, -⟩ := ltStatus_apart d u
  unfold ltEnded
  refine ⟨(((regsOnly_wrF _ _ _ _).wrF _ _ _).wr _ _).wrF _ _ _, ?_, ?_, (rd_wrF_ne n1.symm _ _ _).trans (rd_wr_same _ _ _), fun a h1 h2 => ?_⟩
  · rw [ltState, rdF_wrF_other _ _ _ _ _ (by decide) (by decide), rdF_wr_ne n1, rdF_wrF_other _ _ _ _ _ (by decide) (by decide)]
    exact rdF_wrF_of_lt (by decide) (by decide)
  · rw [rdF_wrF_other _ _ _ _ _ (by decide) (by decide), rdF_wr_ne n1]
    exact rdF_wrF_of_lt (by decide) hc
  · rw [rd_wrF_ne h1, rd_wr_ne h2, rd_wrF_ne h1, rd_wrF_ne h1]

theorem RegsOnly.dram {s t : State} (h : RegsOnly s t) (d : Die) : t.dram d = s.dram d := by
  obtain ⟨r, hr⟩ := h
  rw [hr]
  exact Eq.refl _

theorem ltEnd_rule (d : Die) (u c : Nat) (s : State) (hc : c < 4) :
    (ltState s d u ≠ 1 → ltState s d u ≠ 2 → ltEnd d u c s = s)
    ∧ (ltState s d u = 1 ∨ ltState s d u = 2 → (s.dram d).waitTarget = none ∨ u < 13 → ∀ off wrong : List Nat,
      off = lanesOff s d u → wrong = (lanesTested s d u).filter (fun l => off.contains l || s.rd (LT_ERR d u l) != 0) →
      ∃ w, w = { s with regs := w.regs } ∧ ltState w d u = 3 ∧ w.rdF (LT_STATUS d u) LT_STATUS_CAUSE = c ∧ w.rd (LT_NOLOCK d u) = BitVec.ofNat 32 (off.map (fun l => 2 ^ l)).sum
        ∧ (∀ a, a ≠ LT_STATUS d u → a ≠ LT_NOLOCK d u → w.rd a = s.rd a)
        ∧ ltEnd d u c s = postPf0 d 0x0C00 d.idx (u + c * 2 ^ 8 + (wrong.map (fun l => 2 ^ l)).sum * 2 ^ 32) w) := by
  refine ⟨fun h1 h2 => if_pos (by simpa [ltRuns, h1] using h2), fun hst hw off wrong hoff hwrong => ?_⟩
  obtain ⟨ho, hs, hca, hn, hk⟩ := ltEnded_rule (d := d) (u := u) hc off s
  refine ⟨ltEnded d u c off s, ho.eq, hs, hca, hn, hk, ?_⟩
  have hgo : ¬(ltState s d u ≠ 1 ∧ ltRuns s d u = false) := by simpa [ltRuns, imp_iff_not_or] using hst
  have hfree : ltFree d u (ltEnded d u c off s) = ltEnded d u c off s := ltFree_keeps (by rw [ho.dram]; exact hw)
  unfold ltEnd
  rw [if_neg hgo]
  dsimp only
  rw [lanesOff_eq, ← hoff, ← hwrong]
  exact congrArg _ hfree

/-! ## Locks (R461) -/

/-- The list of locked lanes of a unit is set. -/
def setLocked (d : Die) (u : Nat) (ls : List Nat) (s : State) : State := setLtest d { s.ltest d with locked := tset u ls (s.ltest d).locked } s

theorem locked_setLocked (d : Die) (u : Nat) (ls : List Nat) (s : State) : tget [] u ((setLocked d u ls s).ltest d).locked = ls := by
  rw [setLocked, ltest_setLtest_same]
  exact tget_tset_same _ _ _ _

theorem checkerLock_stays {d : Die} {u l : Nat} {lock : Bool} {o : LtObs} {s : State}
    (h : ltState s d u ≠ 2 ∨ ltChecks u = false ∨ s.rdF (LT_CFG d u) LT_CFG_MODE = 0 ∨ (lanesTested s d u).contains l = false) :
    laneLock d u l lock o s = s := if_pos (by simpa [ltRuns] using h)

theorem checkerLock_serves {d : Die} {u l : Nat} {lock : Bool} {o : LtObs} {s : State} (h1 : ltState s d u = 2) (h2 : ltChecks u = true)
    (h3 : s.rdF (LT_CFG d u) LT_CFG_MODE ≠ 0) (h4 : (lanesTested s d u).contains l = true) {on : List Nat} (hon : on = tget [] u ((ltCount d u o s).ltest d).locked) :
    laneLock d u l lock o s = if lock then (if on.contains l then ltCount d u o s else setLocked d u (l :: on) (ltCount d u o s))
      else if on.contains l then satF (LT_STATUS d u) LT_STATUS_RELOCKS 1 (setLocked d u (on.filter (fun m => m != l)) (ltCount d u o s)) else ltCount d u o s := by
  subst hon
  exact if_neg (by simpa [ltRuns, h1, h2, h3] using h4)

theorem lanesTested_fresh (s : State) (d : Die) (u : Nat) : lanesTested (fresh s) d u = lanesTested s d u := by
  rw [lanesTested, lanesTested, rd_fresh, rdF_fresh]

theorem ltState_fresh (s : State) (d : Die) (u : Nat) : ltState (fresh s) d u = ltState s d u := rdF_fresh _ _ _

theorem contains_filter_ne {l m : Nat} (h : m ≠ l) (xs : List Nat) : (xs.filter (fun k => k != l)).contains m = xs.contains m := by
  rw [Bool.eq_iff_iff]
  simp [h]

theorem checkerLock_rule (d : Die) (u l : Nat) (lock : Bool) (o : LtObs) (s : State) (hu : u ≤ 20) (h1 : ltState s d u = 2) (h2 : ltChecks u = true)
    (h3 : s.rdF (LT_CFG d u) LT_CFG_MODE ≠ 0) (h4 : (lanesTested s d u).contains l = true) (w : State) (hw : w = ltCount d u o (fresh s)) :
    ((tget [] u (s.ltest d).locked).contains l = lock → exec (.checkerLock d u l lock o) s = .next (ran (fun _ => w) s))
      ∧ ((tget [] u (s.ltest d).locked).contains l ≠ lock → ∃ t, exec (.checkerLock d u l lock o) s = .next t ∧ t = { w with regs := t.regs, linkTests := t.linkTests }
        ∧ (tget [] u (t.ltest d).locked).contains l = lock ∧ (∀ m, m ≠ l → (tget [] u (t.ltest d).locked).contains m = (tget [] u (s.ltest d).locked).contains m)
        ∧ t.rdF (LT_STATUS d u) LT_STATUS_RELOCKS = (if lock then s.rdF (LT_STATUS d u) LT_STATUS_RELOCKS else min 255 (s.rdF (LT_STATUS d u) LT_STATUS_RELOCKS + 1))) := by
  obtain ⟨n1, n2, n3⟩ := ltStatus_apart d u
  obtain ⟨hr, hk⟩ := ltCount_frame d u o (fresh s)
  have hon : tget [] u (s.ltest d).locked = tget [] u ((ltCount d u o (fresh s)).ltest d).locked := by
    rw [Only.linkTests_ltest hr, ltest_fresh]
  have hrel : (ltCount d u o (fresh s)).rdF (LT_STATUS d u) LT_STATUS_RELOCKS = s.rdF (LT_STATUS d u) LT_STATUS_RELOCKS :=
    (rdF_of_rd (hk _ (fun l => (ltErr_ne_status hu l).symm) n2 n3) _).trans (rdF_fresh _ _ _)
  have hserve := checkerLock_serves (s := fresh s) (lock := lock) (o := o) ((ltState_fresh _ _ _).trans h1) h2 (by rw [rdF_fresh]; exact h3)
    (by rw [lanesTested_fresh]; exact h4) hon
  rw [← hw] at hserve hrel hr
  have hwOnly : Only (fun v => { v with regs := [], linkTests := [] }) (fresh s) w := .of_regsOnly hr
  have hset : ∀ ls, Only (fun v => { v with regs := [], linkTests := [] }) w (setLocked d u ls w) := fun ls => Only.rfl.setLtest _ _
  cases lock with
  | true =>
    refine ⟨fun hc => congrArg Host.Outcome.next (ran_congr ?_), fun hc => ?_⟩
    · exact hserve.trans ((if_pos rfl).trans (if_pos hc))
    · have hgo := hserve.trans ((if_pos rfl).trans (if_neg hc))
      refine ⟨_, congrArg Host.Outcome.next ((hwOnly.trans (hset _)).ran hgo), (hset _).regsLinkTests, ?_, fun m hm => ?_, ?_⟩
      · rw [locked_setLocked]
        exact List.elem_cons_self
      · rw [locked_setLocked, List.contains_cons, beq_false_of_ne hm, Bool.false_or]
      · rw [setLocked, rdF_setLtest, hrel, if_pos rfl]
  | false =>
    refine ⟨fun hc => congrArg Host.Outcome.next (ran_congr ?_), fun hc => ?_⟩
    · exact hserve.trans ((if_neg Bool.false_ne_true).trans (if_neg (by rw [hc]; exact Bool.false_ne_true)))
    · have hgo := hserve.trans ((if_neg Bool.false_ne_true).trans (if_pos ((Bool.not_eq_false _).mp hc)))
      have hend := (hset ((tget [] u (s.ltest d).locked).filter (fun m => m != l))).satF (LT_STATUS d u) LT_STATUS_RELOCKS 1
      have hlock : (satF (LT_STATUS d u) LT_STATUS_RELOCKS 1 (setLocked d u ((tget [] u (s.ltest d).locked).filter (fun m => m != l)) w)).ltest d
          = (setLocked d u ((tget [] u (s.ltest d).locked).filter (fun m => m != l)) w).ltest d := rfl
      refine ⟨_, congrArg Host.Outcome.next ((hwOnly.trans hend).ran hgo), hend.regsLinkTests, ?_, fun m hm => ?_, ?_⟩
      · rw [hlock, locked_setLocked]
        simp
      · rw [hlock, locked_setLocked]
        exact contains_filter_ne hm _
      · rw [rdF_satF_same _ _ _ _ (by decide), setLocked, rdF_setLtest, hrel, if_neg Bool.false_ne_true]
        rfl

/-! ## Writes of LT_CTRL, and the events of a test -/

theorem ltPresent_fresh (s : State) (d : Die) (u : Nat) : ltPresent (fresh s) d u = ltPresent s d u := rfl

theorem ltCtrlWrite_closed {f : Fun} {u : Nat} {v : Word} {o : LtObs} {s : State}
    (h : (accessRow s f (addrOff (LT_CTRL f.ep u))).isNone = true ∨ ltPresent s f.ep u = false) : ltCtrlWrite f u v o (fresh s) = fresh s :=
  if_pos (by rw [accessRow_fresh, ltPresent_fresh]; exact h)

theorem ltCtrlWrite_open {f : Fun} {u : Nat} {v : Word} {o : LtObs} {s : State} (h1 : (accessRow s f (addrOff (LT_CTRL f.ep u))).isSome = true)
    (h2 : ltPresent s f.ep u = true) : ltCtrlWrite f u v o (fresh s) = (if LT_CTRL_START.get v = 1 then ltBegin f.ep u else id)
      ((if LT_CTRL_STOP.get v = 1 then fun x => ltEnd f.ep u 1 (ltCount f.ep u o x) else id) (fresh s)) := by
  have hgo : ¬((accessRow (fresh s) f (addrOff (LT_CTRL f.ep u))).isNone = true ∨ ltPresent (fresh s) f.ep u = false) := by
    rw [accessRow_fresh, ltPresent_fresh, h2]
    simpa using isNone_false_of_isSome h1
  unfold ltCtrlWrite
  rw [if_neg hgo]
  by_cases hb : LT_CTRL_START.get v = 1 <;> by_cases he : LT_CTRL_STOP.get v = 1 <;> simp only [hb, he, if_true, if_false] <;> rfl

theorem ltPcieRun_rule (d : Die) (s : State) (h : ltState s d 0 = 1) :
    ∃ w, w = { s with regs := w.regs, out := [] } ∧ ltState w d 0 = 2 ∧ (∀ a, a ≠ LT_STATUS d 0 → w.rd a = s.rd a) ∧ exec (.ltPcieRun d) s = .next (ran (fun _ => generate d 0 w) s) := by
  refine ⟨wrF (LT_STATUS d 0) LT_STATUS_STATE 2 (fresh s), (regsOnly_wrF _ _ _ _).fresh, rdF_wrF_of_lt (by decide) (by decide),
    fun a ha => (rd_wrF_ne ha _ _ _).trans (rd_fresh _ _), congrArg Host.Outcome.next (ran_congr ?_)⟩
  rw [pcieRun, if_pos ((ltState_fresh _ _ _).trans h)]
  unfold ltRun
  dsimp only
  rw [if_neg (by decide)]

theorem linkTestEnd_rule (d : Die) (u : Nat) (o : LtObs) (s : State) :
    (ltState s d u = 2 → s.rdF (LT_CFG d u) LT_CFG_DURATION_MS ≠ 0 → s.flag (LT_STATUS d u) LT_STATUS_RETRAIN = false → exec (.linkTestEnd d u o) s = .next (ran (fun w => ltEnd d u 0 (ltCount d u o w)) s))
    ∧ (ltState s d u ≠ 2 ∨ s.rdF (LT_CFG d u) LT_CFG_DURATION_MS = 0 ∨ s.flag (LT_STATUS d u) LT_STATUS_RETRAIN = true → exec (.linkTestEnd d u o) s = .next (fresh s)) := by
  have hgo : (ltRuns (fresh s) d u = true ∧ (fresh s).rdF (LT_CFG d u) LT_CFG_DURATION_MS ≠ 0 ∧ (fresh s).flag (LT_STATUS d u) LT_STATUS_RETRAIN = false) ↔
      (ltState s d u = 2 ∧ s.rdF (LT_CFG d u) LT_CFG_DURATION_MS ≠ 0 ∧ s.flag (LT_STATUS d u) LT_STATUS_RETRAIN = false) := by
    rw [ltRuns, ltState_fresh, rdF_fresh, flag_fresh, beq_iff_eq]
  refine ⟨fun h1 h2 h3 => congrArg Host.Outcome.next (ran_congr (if_pos (hgo.2 ⟨h1, h2, h3⟩))), fun h => congrArg Host.Outcome.next (ran_same (if_neg fun hc => ?_))⟩
  obtain ⟨g1, g2, g3⟩ := hgo.1 hc
  rcases h with h | h | h
  · exact h g1
  · exact g2 h
  · rw [g3] at h
    cases h

/-- Settles O58: START and STOP, what the generator sends, what a checker counts, and how a test ends. -/
theorem linkTestsRunOnFreeLinks : Obligations.LinkTestsRunOnFreeLinks := by
  refine ⟨fun f u v o s => ⟨fun h => ?_, fun h1 h2 out hout => ?_⟩, ltBegin_rule, fun d u p l s hu hp rate hrate => generate_rule d u p l s hp rate hrate,
    fun d u c s hu hc => ?_, fun d u o s => ?_, fun d s => ⟨ltPcieRun_rule d s, fun h => ?_⟩, fun d u l lock o s hu => ⟨fun h => ?_, fun h1 h2 h3 h4 w hw => ?_⟩⟩
  · have hsame := ltCtrlWrite_closed (v := v) (o := o) h
    exact ⟨congrArg Host.Outcome.next (ran_same hsame), congrArg Host.Outcome.next (ran_same hsame)⟩
  · have hopen := ltCtrlWrite_open (v := v) (o := o) h1 h2
    rw [hout]
    exact ⟨congrArg Host.Outcome.next (ran_congr hopen), congrArg Host.Outcome.next (ran_congr hopen)⟩
  · exact ltEnd_rule d u c s hc
  · obtain ⟨h1, h2⟩ := linkTestEnd_rule d u o s
    exact ⟨h1, h2, fun h => ltCount_unlocked h o, fun l n hu hl ho hc => ltCount_lane hu ho hc⟩
  · have hsame : pcieRun d (fresh s) = fresh s := if_neg (by rw [ltState_fresh]; exact h)
    exact congrArg Host.Outcome.next (ran_same hsame)
  · have hsame : laneLock d u l lock o (fresh s) = fresh s := checkerLock_stays (by rw [ltState_fresh, rdF_fresh, lanesTested_fresh]; exact h)
    exact congrArg Host.Outcome.next (ran_same hsame)
  · exact checkerLock_rule d u l lock o s hu h1 h2 h3 h4 w hw

end Sys2Proof.Machine
end

section
/-! The Rinlar record (chapter 20). -/
namespace Sys2Proof.Machine

theorem idx_ne_of_ne : ∀ {d e : Die}, e ≠ d → e.idx ≠ d.idx
  | .a, .a, h => absurd rfl h
  | .a, .b, _ => by decide
  | .b, .a, _ => by decide
  | .b, .b, h => absurd rfl h

theorem rin_fresh (s : State) (d : Die) : (fresh s).rin d = s.rin d := rfl
theorem rin_setRin_same (d : Die) (r : Rinlar) (s : State) : (setRin d r s).rin d = r := tget_tset_same _ _ _ _
theorem rin_setRin_ne {d e : Die} (h : e ≠ d) (r : Rinlar) (s : State) : (setRin d r s).rin e = s.rin e := tget_tset_ne _ (idx_ne_of_ne h) _ _
theorem rd_setRin (d : Die) (r : Rinlar) (s : State) (a : Nat) : (setRin d r s).rd a = s.rd a := rd_congr rfl rfl a
theorem rin_wrB (d : Die) (a : Nat) (f : Fld) (b : Bool) (s : State) : (wrB a f b s).rin d = s.rin d := rfl
theorem recordRuns_fresh (s : State) (d : Die) : recordRuns (fresh s) d = recordRuns s d := by
  rw [recordRuns, recordRuns, rdF_fresh]
  rfl

/-- Nothing but a die's part of the record, and its status register, differs. -/
structure RinOnly (d : Die) (s t : State) : Prop where
  only : Only (fun u => { u with regs := [], rinlar := [] }) s t
  other : ∀ e, e ≠ d → t.rin e = s.rin e
  regs : ∀ a, a ≠ RINLAR_STATUS d → t.rd a = s.rd a

namespace RinOnly
variable {d : Die} {s t u : State}

theorem rfl : RinOnly d s s := ⟨.rfl, fun _ _ => Eq.refl _, fun _ _ => Eq.refl _⟩
theorem trans (h : RinOnly d s t) (h' : RinOnly d t u) : RinOnly d s u :=
  ⟨h.only.trans h'.only, fun e he => (h'.other e he).trans (h.other e he), fun a ha => (h'.regs a ha).trans (h.regs a ha)⟩
theorem setRin (r : Rinlar) (s : State) : RinOnly d s (setRin d r s) :=
  ⟨Only.rfl.setRin _ _, fun _ he => rin_setRin_ne he _ _, fun _ _ => rd_setRin _ _ _ _⟩
theorem refresh (s : State) : RinOnly d s (refreshRinlar d s) := ⟨Only.rfl.wrB _ _ _, fun _ _ => Eq.refl _, fun _ ha => rd_wrB_ne ha _ _ _⟩
theorem add (w n : Nat) (s : State) : RinOnly d s (rinlarAdd d w n s) := setRin _ _

theorem now (h : RinOnly d s t) (e : Die) : t.now e = s.now e := by
  have hA : t.timeA = s.timeA := (congrArg State.timeA h.only :)
  have hB : t.timeB = s.timeB := (congrArg State.timeB h.only :)
  cases e
  · exact hA
  · exact hB

theorem recordRuns (h : RinOnly d s t) (e : Die) : recordRuns t e = recordRuns s e := by
  have hr : t.inReset = s.inReset := (congrArg State.inReset h.only :)
  rw [Machine.recordRuns, Machine.recordRuns, hr, rdF_of_rd (h.regs _ (by simp only [POWER_STATUS, RINLAR_STATUS]; cases d <;> cases e <;> decide))]

end RinOnly

theorem Only.regsRinlar {s t : State} (h : Only (fun u => { u with regs := [], rinlar := [] }) s t) : t = { s with regs := t.regs, rinlar := t.rinlar } :=
  congrArg (fun u => { u with regs := t.regs, rinlar := t.rinlar }) h

/-! ## Requests and starts of snapshots (R469–R472) -/

/-- Where the search for the slot of a snapshot begins. -/
def lastSlot (r : Rinlar) : Nat :=
  match newestSlot r with
  | some x => x.1
  | none => 31

/-- The record as a snapshot begins in slot `n`. -/
def snapRecord (s : State) (d : Die) (c n : Nat) (k : Option Ticket) (q : List (Nat × Option Ticket)) : Rinlar :=
  { s.rin d with queue := q, writing := some (c, n, k), requestFrom := if c = 3 ∨ c = 4 then s.now d + 10000000000 else (s.rin d).requestFrom,
                 powerFailFrom := if c = 1 then s.now d + 10000000 else (s.rin d).powerFailFrom }

/-- A snapshot begins. -/
def snapBegins (d : Die) (r : Rinlar) (c : Nat) (s : State) : State :=
  refreshRinlar d (if c = 1 then rinlarCount d 3 1 (setRin d r s) else setRin d r s)

theorem startSnap_writing {d : Die} {s : State} {w : Nat × Nat × Option Ticket} (h : (s.rin d).writing = some w) : startSnap d s = s := by
  unfold startSnap
  dsimp only
  rw [h]
  rfl

theorem startSnap_idle {d : Die} {s : State} (h : (s.rin d).queue = []) : startSnap d s = s := by
  unfold startSnap
  dsimp only
  rw [h]
  exact ite_self _

theorem startSnap_one {d : Die} {c n : Nat} {k : Option Ticket} {s : State} (hw : (s.rin d).writing = none) (hq : (s.rin d).queue = [(c, k)])
    (hr : snapReady s d c = true) (hn : nextSlot (s.rin d) (lastSlot (s.rin d)) = some n) :
    startSnap d s = snapBegins d (snapRecord s d c n k []) c s := by
  have hi : (s.rin d).queue.findIdx? (fun x => snapReady s d x.1) = some 0 := by rw [hq, List.findIdx?_cons, if_pos hr]
  have h0 : (s.rin d).queue[0]? = some (c, k) := by rw [hq]; rfl
  have he : (s.rin d).queue.eraseIdx 0 = [] := by rw [hq]; rfl
  unfold startSnap
  dsimp only
  rw [if_neg (by rw [hw]; decide), hi]
  dsimp only
  rw [h0]
  dsimp only
  split
  · next hnone => exact absurd (hn.symm.trans hnone) (Option.some_ne_none _)
  · next m hm =>
    obtain rfl : n = m := Option.some.inj (hn.symm.trans hm)
    rw [he]
    rfl

theorem startSnap_rinOnly (d : Die) (s : State) : RinOnly d s (startSnap d s) := by
  unfold startSnap
  dsimp only
  split
  · exact .rfl
  · split
    · exact .rfl
    · split
      · exact .rfl
      · split
        · exact .setRin _ _
        · refine RinOnly.trans ?_ (.refresh _)
          split
          · exact (RinOnly.setRin _ _).trans (.add _ _ _)
          · exact .setRin _ _

theorem requestSnap_rinOnly (d : Die) (c : Nat) (k : Option Ticket) (s : State) : RinOnly d s (requestSnap d c k s) :=
  (RinOnly.setRin _ _).trans (startSnap_rinOnly _ _)

/-- The record with one more snapshot due. -/
def queued (r : Rinlar) (c : Nat) (k : Option Ticket) : Rinlar := { r with queue := if c = 1 then (1, k) :: r.queue else r.queue ++ [(c, k)] }

theorem requestSnap_eq (d : Die) (c : Nat) (k : Option Ticket) (s : State) : requestSnap d c k s = startSnap d (setRin d (queued (s.rin d) c k) s) := rfl

theorem requestSnap_waits {d : Die} {c : Nat} {k : Option Ticket} {s : State} {w : Nat × Nat × Option Ticket} (h : (s.rin d).writing = some w) :
    requestSnap d c k s = setRin d (queued (s.rin d) c k) s :=
  startSnap_writing (w := w) (by rw [rin_setRin_same]; exact h)

theorem snapBegins_rule (d : Die) (r : Rinlar) (c : Nat) (s : State) {w : Nat × Nat × Option Ticket} (hw : r.writing = some w) :
    ((snapBegins d r c s).rin d).writing = some w ∧ ((snapBegins d r c s).rin d).queue = r.queue ∧ ((snapBegins d r c s).rin d).slots = r.slots
      ∧ (snapBegins d r c s).flag (RINLAR_STATUS d) RINLAR_STATUS_BUSY = true := by
  have hrin : ∃ live, (if c = 1 then rinlarCount d 3 1 (setRin d r s) else setRin d r s).rin d = { r with live := live } := by
    split
    · exact ⟨_, (rin_setRin_same _ _ _).trans (by rw [rin_setRin_same])⟩
    · exact ⟨r.live, rin_setRin_same _ _ _⟩
  obtain ⟨live, hlive⟩ := hrin
  have hfin : (snapBegins d r c s).rin d = { r with live := live } := hlive
  rw [hfin]
  refine ⟨hw, rfl, rfl, (flag_wrB_same _ _ _ _ (by decide) (by decide)).trans ?_⟩
  rw [hlive, show ({ r with live := live } : Rinlar).writing = some w from hw]
  rfl

theorem requestSnap_begins (d : Die) (c n : Nat) (k : Option Ticket) (s : State) (hw : (s.rin d).writing = none) (hq : (s.rin d).queue = []) (hr : snapReady s d c = true)
    (hn : nextSlot (s.rin d) (lastSlot (s.rin d)) = some n) :
    ∃ t, requestSnap d c k s = t ∧ t = { s with regs := t.regs, rinlar := t.rinlar } ∧ (t.rin d).writing = some (c, n, k) ∧ (t.rin d).queue = [] ∧ (t.rin d).slots = (s.rin d).slots
        ∧ t.flag (RINLAR_STATUS d) RINLAR_STATUS_BUSY = true ∧ ∀ a, a ≠ RINLAR_STATUS d → t.rd a = s.rd a := by
  have hone : (queued (s.rin d) c k).queue = [(c, k)] := by
    unfold queued
    dsimp only
    rw [hq]
    split
    · next h => rw [h]
    · rfl
  have hgo : requestSnap d c k s = snapBegins d (snapRecord (setRin d (queued (s.rin d) c k) s) d c n k []) c (setRin d (queued (s.rin d) c k) s) := by
    refine startSnap_one ?_ ?_ ?_ ?_
    · rw [rin_setRin_same]
      exact hw
    · rw [rin_setRin_same]
      exact hone
    · rw [snapReady, rin_setRin_same]
      exact hr
    · rw [rin_setRin_same]
      exact hn
  have ho := requestSnap_rinOnly d c k s
  refine ⟨_, rfl, ho.only.regsRinlar, ?_⟩
  have hslots : (snapRecord (setRin d (queued (s.rin d) c k) s) d c n k []).slots = (s.rin d).slots := by
    unfold snapRecord
    dsimp only
    rw [rin_setRin_same]
    rfl
  rw [hgo] at ho ⊢
  obtain ⟨h1, h2, h3, h4⟩ := snapBegins_rule d (snapRecord (setRin d (queued (s.rin d) c k) s) d c n k []) c (setRin d (queued (s.rin d) c k) s) rfl
  exact ⟨h1, h2, h3.trans hslots, h4, ho.regs⟩

/-! ## Power failures (R470) -/

/-- A die takes a power-fail snapshot, unless its last one is too new. -/
def failSnap (d : Die) (s : State) : State := if s.now d < (s.rin d).powerFailFrom ∨ recordRuns s d = false then s else requestSnap d 1 none s

theorem powerFail_eq (s : State) : powerFail s = failSnap .b (failSnap .a s) := rfl

theorem failSnap_ignored {d : Die} {s : State} (h : s.now d < (s.rin d).powerFailFrom ∨ recordRuns s d = false) : failSnap d s = s := if_pos h

theorem failSnap_taken {d : Die} {s : State} (h : (s.rin d).powerFailFrom ≤ s.now d) (h' : recordRuns s d = true) : failSnap d s = requestSnap d 1 none s :=
  if_neg (by simpa [h'] using h)

/-- What the other die does leaves a die's own conditions. -/
theorem failSnap_conditions {d e : Die} (he : e ≠ d) (s : State) : (requestSnap d 1 none s).now e = s.now e ∧ (requestSnap d 1 none s).rin e = s.rin e
    ∧ recordRuns (requestSnap d 1 none s) e = recordRuns s e :=
  have h := requestSnap_rinOnly d 1 none s
  ⟨h.now e, h.other e he, h.recordRuns e⟩

theorem powerFail_ignored {s : State} (h : ∀ d, s.now d < (s.rin d).powerFailFrom ∨ recordRuns s d = false) : powerFail s = s := by
  rw [powerFail_eq, failSnap_ignored (h .a), failSnap_ignored (h .b)]

theorem powerFail_one {d : Die} {s : State} (h : (s.rin d).powerFailFrom ≤ s.now d) (h' : recordRuns s d = true)
    (ho : s.now d.other < (s.rin d.other).powerFailFrom ∨ recordRuns s d.other = false) : powerFail s = requestSnap d 1 none s := by
  rw [powerFail_eq]
  cases d with
  | a =>
    obtain ⟨h1, h2, h3⟩ := failSnap_conditions (d := .a) (e := .b) (by decide) s
    rw [failSnap_taken h h', failSnap_ignored (by rw [h1, h2, h3]; exact ho)]
  | b => rw [show failSnap .a s = s from failSnap_ignored ho, failSnap_taken h h']

theorem powerFail_both {s : State} (h : ∀ d, (s.rin d).powerFailFrom ≤ s.now d ∧ recordRuns s d = true) :
    powerFail s = requestSnap .b 1 none (requestSnap .a 1 none s) := by
  obtain ⟨h1, h2, h3⟩ := failSnap_conditions (d := .a) (e := .b) (by decide) s
  rw [powerFail_eq, failSnap_taken (h .a).1 (h .a).2, failSnap_taken (by rw [h1, h2]; exact (h .b).1) (h3.trans (h .b).2)]

/-! ## Images (R473) -/

/-- The header of an image, before its CRC. -/
def imageBody (d : Die) (cause seq : Nat) (live : Tab Nat) : Tab Nat :=
  tset 3 (seq / 2 ^ 32) (tset 2 (seq % 2 ^ 32) (tset 1 (1 + cause * 2 ^ 16 + d.idx * 2 ^ 24) (tset 0 0x5158524C live)))

theorem imageOf_eq (d : Die) (c q : Nat) (live : Tab Nat) :
    imageOf d c q live = tset 8 (crc32c (imageBytes (imageBody d c q live) 16)) (imageBody d c q live) := rfl

theorem imageOf_body {i : Nat} (h : 16 ≤ i) (d : Die) (c q : Nat) (live : Tab Nat) : tget 0 i (imageOf d c q live) = tget 0 i live := by
  rw [imageOf_eq, imageBody, tget_tset_ne _ (by omega), tget_tset_ne _ (by omega), tget_tset_ne _ (by omega), tget_tset_ne _ (by omega), tget_tset_ne _ (by omega)]

theorem imageBytes_congr {x y : Tab Nat} (h : ∀ i, 16 ≤ i → tget 0 i x = tget 0 i y) : imageBytes x 16 = imageBytes y 16 := by
  unfold imageBytes
  congr 1
  funext i
  rw [h (16 + i) (by omega)]

theorem image_rule (d : Die) (c q : Nat) (live : Tab Nat) (hc : c < 256) : slotValid (imageOf d c q live) = true ∧ imageSeq (imageOf d c q live) = q
    ∧ imageCause (imageOf d c q live) = c ∧ ∀ i, 16 ≤ i → tget 0 i (imageOf d c q live) = tget 0 i live := by
  have hd : d.idx ≤ 1 := by cases d <;> decide
  have hbytes : imageBytes (imageOf d c q live) 16 = imageBytes (imageBody d c q live) 16 :=
    imageBytes_congr fun i hi => by rw [imageOf_eq, tget_tset_ne _ (by omega)]
  refine ⟨?_, ?_, ?_, fun i hi => imageOf_body hi d c q live⟩
  · rw [slotValid, hbytes]
    simp [imageOf_eq, imageBody, tget_tset_ne]
  · simp (disch := decide) only [imageSeq, imageOf_eq, imageBody, tget_tset_ne, tget_tset_same]
    omega
  · simp (disch := decide) only [imageCause, imageOf_eq, imageBody, tget_tset_ne, tget_tset_same]
    omega

/-! ## A snapshot is written (R472) -/

/-- SEQ of the next snapshot. -/
def nextSeq (r : Rinlar) : Nat :=
  match newestSlot r with
  | some x => imageSeq x.2 + 1
  | none => 1

theorem snapDone_nothing {d : Die} {bad : Nat} {s : State} (hw : (s.rin d).writing = none) (hq : (s.rin d).queue = []) : snapDone d bad s = s := by
  unfold snapDone
  dsimp only
  rw [startSnap_idle hq]
  split
  · rfl
  · next h =>
    rw [hw] at h
    cases h

theorem snapDone_good {d : Die} {bad c n : Nat} {k : Option Ticket} {s : State} (hw : (s.rin d).writing = some (c, n, k)) (hb : bad < 2) {w : State}
    (h : w = refreshNewest d (setRin d { s.rin d with slots := tset n (imageOf d c (nextSeq (s.rin d)) (s.rin d).live) (s.rin d).slots, writing := none } s)) :
    snapDone d bad s = refreshRinlar d (startSnap d (match k with
      | some t => finish t stOk 0 w
      | none => w)) := by
  subst h
  unfold snapDone
  dsimp only
  rw [startSnap_writing hw]
  split
  · next h =>
    rw [hw] at h
    cases h
  · next c' n' k' h =>
    obtain ⟨rfl, rfl, rfl⟩ : c = c' ∧ n = n' ∧ k = k' := by simpa using hw.symm.trans h
    rw [if_neg (Nat.not_le.2 hb)]
    unfold nextSeq
    cases newestSlot (s.rin d) <;> cases k <;> rfl

theorem snapDone_bad {d : Die} {bad c n : Nat} {k : Option Ticket} {s : State} (hw : (s.rin d).writing = some (c, n, k)) (hb : 2 ≤ bad)
    (hn : (s.rin d).retired.contains n = false) {r : Rinlar} (hr : r = { s.rin d with retired := n :: (s.rin d).retired, slots := tkeep (fun j => j != n) (s.rin d).slots }) :
    snapDone d bad s = postRinlar d 0 n (refreshRinlar d (refreshNewest d (setRin d { r with writing := (nextSlot r n).map (fun m => (c, m, k)) } s))) := by
  subst hr
  unfold snapDone
  dsimp only
  rw [startSnap_writing hw]
  split
  · next h =>
    rw [hw] at h
    cases h
  · next c' n' k' h =>
    obtain ⟨rfl, rfl, rfl⟩ : c = c' ∧ n = n' ∧ k = k' := by simpa using hw.symm.trans h
    have hret : (if (s.rin d).retired.contains n = true then (s.rin d).retired else n :: (s.rin d).retired) = n :: (s.rin d).retired :=
      if_neg (by rw [hn]; exact Bool.false_ne_true)
    rw [if_pos hb, hret]

/-! ## Seconds (R473, R474) -/

/-- Words of the running record after an addition to one of them. -/
theorem live_rinlarAdd (d : Die) (w n i : Nat) (s : State) : tget 0 i ((rinlarAdd d w n s).rin d).live =
    if i = w then min 0xFFFFFFFF (tget 0 w (s.rin d).live + n) else tget 0 i (s.rin d).live := by
  rw [rinlarAdd, rin_setRin_same]
  split
  · next h => rw [h, tget_tset_same]
  · next h => rw [tget_tset_ne _ h]

/-- The record of a die differs at most in its running words. -/
theorem rin_rinlarAdd (d : Die) (w n : Nat) (s : State) : (rinlarAdd d w n s).rin d = { s.rin d with live := ((rinlarAdd d w n s).rin d).live } := by
  rw [rinlarAdd, rin_setRin_same]

/-- The lifetime seconds at word `w` of a running record, with one more. -/
def lifeAfter (w : Nat) (live : Tab Nat) : Nat := tget 0 w live + 2 ^ 32 * tget 0 (w + 1) live + 1

/-- The lifetime seconds of a die go on by one. -/
def lifeAdded (d : Die) (w : Nat) (s : State) : State :=
  setRin d { s.rin d with live := tset (w + 1) (lifeAfter w (s.rin d).live / 2 ^ 32 % 2 ^ 32) (tset w (lifeAfter w (s.rin d).live % 2 ^ 32) (s.rin d).live) } s

theorem lifeAdded_rule (d : Die) (w : Nat) (s : State) :
    ((lifeAdded d w s).rin d) = { s.rin d with live := ((lifeAdded d w s).rin d).live }
      ∧ tget 0 w ((lifeAdded d w s).rin d).live + 2 ^ 32 * tget 0 (w + 1) ((lifeAdded d w s).rin d).live
        = lifeAfter w (s.rin d).live % 2 ^ 64
      ∧ ∀ i, i ≠ w → i ≠ w + 1 → tget 0 i ((lifeAdded d w s).rin d).live = tget 0 i (s.rin d).live := by
  rw [lifeAdded, rin_setRin_same]
  refine ⟨rfl, ?_, fun i h1 h2 => ?_⟩
  · dsimp only
    rw [tget_tset_same, tget_tset_ne _ (by omega), tget_tset_same]
    omega
  · exact (tget_tset_ne _ h2 _ _).trans (tget_tset_ne _ h1 _ _)

/-- The bins of the three histograms that a second adds to. -/
def binsAdded (d : Die) (b1 b2 b3 : Nat) (s : State) : State := s |> rinlarAdd d b1 1 |> rinlarAdd d b2 1 |> rinlarAdd d b3 1

theorem binsAdded_rule (d : Die) {b1 b2 b3 : Nat} (h12 : b1 ≠ b2) (h13 : b1 ≠ b3) (h23 : b2 ≠ b3) (s : State) :
    ((binsAdded d b1 b2 b3 s).rin d) = { s.rin d with live := ((binsAdded d b1 b2 b3 s).rin d).live }
      ∧ (∀ b, b = b1 ∨ b = b2 ∨ b = b3 → tget 0 b ((binsAdded d b1 b2 b3 s).rin d).live = min 0xFFFFFFFF (tget 0 b (s.rin d).live + 1))
      ∧ ∀ i, i ≠ b1 → i ≠ b2 → i ≠ b3 → tget 0 i ((binsAdded d b1 b2 b3 s).rin d).live = tget 0 i (s.rin d).live := by
  unfold binsAdded
  refine ⟨?_, fun b hb => ?_, fun i h1 h2 h3 => ?_⟩
  · rw [rin_rinlarAdd, rin_rinlarAdd, rin_rinlarAdd]
  · simp only [live_rinlarAdd]
    rcases hb with rfl | rfl | rfl
    · rw [if_neg h13, if_neg h12, if_pos rfl]
    · rw [if_neg h23, if_pos rfl, if_neg h12.symm]
    · rw [if_pos rfl, if_neg h23.symm, if_neg h13.symm]
  · simp only [live_rinlarAdd]
    rw [if_neg h3, if_neg h2, if_neg h1]

end Sys2Proof.Machine
end

section
/-! The Rinlar record: seconds, and its readout (R473–R476). -/
namespace Sys2Proof.Machine

/-! ## Once per second -/

theorem inPearl_fresh (s : State) (d : Die) : inPearl (fresh s) d = inPearl s d := by rw [inPearl, inPearl, rdF_fresh]

/-- The voltage that a second samples, mV. -/
def sampledMv (s : State) (d : Die) : Nat := if s.flag (AVS_CTRL d) AVS_CTRL_READBACK_EN then s.rdF (AVS_READBACK d) AVS_READBACK_VREAD_MV else s.rdF (AVS_STATUS d) AVS_STATUS_VOUT_MV

theorem sampledMv_fresh (s : State) (d : Die) : sampledMv (fresh s) d = sampledMv s d := by rw [sampledMv, sampledMv, flag_fresh, rdF_fresh, rdF_fresh]

/-- A bin over samples that are natural numbers. -/
theorem histBin_nat (lo n x : Nat) {w : Nat} (hw : 0 < w) : histBin lo w n x = min (n - 1) ((x - lo) / w) := by
  rw [histBin]
  congr 1
  by_cases h : lo ≤ x
  · rw [← Int.ofNat_sub h, ← Int.natCast_div, Int.toNat_natCast]
  · have hx : x - lo = 0 := by omega
    rw [hx, Nat.zero_div]
    exact Int.toNat_of_nonpos (Int.ediv_neg_of_neg_of_pos (by omega) (by omega)).le

/-- What a second leaves: lifetime, histograms, and the shortfall counter. -/
def secondPassed (d : Die) (tj : Int) (s : State) : State :=
  let t := binsAdded d (0x240 + histBin (-40) 5 33 tj) (0x280 + histBin 600 10 30 (sampledMv s d)) (0x2A0 + histBin 500 50 32 (s.rdF (PACE_STATUS d) PACE_STATUS_PACE))
    (lifeAdded d (if inPearl s d then 6 else 4) s)
  if s.flag (PACE_FLOOR d) PACE_FLOOR_SHORTFALL then rinlarAdd d 0x17 1 t else t

theorem flag_setRin (d : Die) (r : Rinlar) (s : State) (a : Nat) (f : Fld) : (setRin d r s).flag a f = s.flag a f := flag_congr rfl rfl a f
theorem flag_rinlarAdd (d : Die) (w n : Nat) (s : State) (a : Nat) (f : Fld) : (rinlarAdd d w n s).flag a f = s.flag a f := flag_setRin _ _ _ _ _

theorem rinlarTick_eq {d : Die} {s : State} (h : recordRuns s d = true) (tj : Int) : rinlarTick d tj s = secondPassed d tj s := by
  have hfl : ∀ b1 b2 b3 w, (binsAdded d b1 b2 b3 (lifeAdded d w s)).flag (PACE_FLOOR d) PACE_FLOOR_SHORTFALL = s.flag (PACE_FLOOR d) PACE_FLOOR_SHORTFALL := by
    intros
    simp only [binsAdded, flag_rinlarAdd, lifeAdded, flag_setRin]
  unfold rinlarTick
  rw [if_neg (by rw [h]; decide), secondPassed, ← hfl]
  rfl

theorem Only.rinlar {s t : State} (h : Only (fun u => { u with rinlar := [] }) (fresh s) t) : t = { s with rinlar := t.rinlar, out := [] } :=
  congrArg (fun u => { u with rinlar := t.rinlar }) h

theorem rinlarSecond_rule (d : Die) (tj : Int) (s : State) (h : recordRuns s d = true) :
    ∃ t, exec (.rinlarSecond d tj) s = .next t ∧ t = { s with rinlar := t.rinlar, out := [] } ∧ t.rin d.other = s.rin d.other
    ∧ t.rin d = { s.rin d with live := (t.rin d).live }
    ∧ (∀ w, w = (if inPearl s d then 6 else 4) → tget 0 w (t.rin d).live + 2 ^ 32 * tget 0 (w + 1) (t.rin d).live = (tget 0 w (s.rin d).live + 2 ^ 32 * tget 0 (w + 1) (s.rin d).live + 1) % 2 ^ 64)
    ∧ (∀ b, b = 0x240 + min 32 ((tj + 40) / 5).toNat → tget 0 b (t.rin d).live = min 0xFFFFFFFF (tget 0 b (s.rin d).live + 1))
    ∧ (∀ mv b, mv = sampledMv s d → b = 0x280 + min 29 ((mv - 600) / 10) → tget 0 b (t.rin d).live = min 0xFFFFFFFF (tget 0 b (s.rin d).live + 1))
    ∧ (∀ b, b = 0x2A0 + min 31 ((s.rdF (PACE_STATUS d) PACE_STATUS_PACE - 500) / 50) → tget 0 b (t.rin d).live = min 0xFFFFFFFF (tget 0 b (s.rin d).live + 1))
    ∧ tget 0 0x17 (t.rin d).live = (if s.flag (PACE_FLOOR d) PACE_FLOOR_SHORTFALL then min 0xFFFFFFFF (tget 0 0x17 (s.rin d).live + 1) else tget 0 0x17 (s.rin d).live)
    ∧ ∀ i, 8 ≤ i → i < 0x240 → i ≠ 0x17 → tget 0 i (t.rin d).live = tget 0 i (s.rin d).live := by
  obtain ⟨w, hw⟩ : ∃ w, w = (if inPearl s d then 6 else 4) := ⟨_, rfl⟩
  have hw8 : w = 6 ∨ w = 4 := by
    rw [hw]
    split
    · exact .inl rfl
    · exact .inr rfl
  obtain ⟨b1, hb1⟩ : ∃ b, b = 0x240 + min 32 ((tj + 40) / 5).toNat := ⟨_, rfl⟩
  obtain ⟨b2, hb2⟩ : ∃ b, b = 0x280 + min 29 ((sampledMv s d - 600) / 10) := ⟨_, rfl⟩
  obtain ⟨b3, hb3⟩ : ∃ b, b = 0x2A0 + min 31 ((s.rdF (PACE_STATUS d) PACE_STATUS_PACE - 500) / 50) := ⟨_, rfl⟩
  obtain ⟨u, hu⟩ : ∃ u, u = binsAdded d b1 b2 b3 (lifeAdded d w (fresh s)) := ⟨_, rfl⟩
  obtain ⟨f, hf⟩ : ∃ f, f = s.flag (PACE_FLOOR d) PACE_FLOOR_SHORTFALL := ⟨_, rfl⟩
  have hgo : rinlarTick d tj (fresh s) = if f then rinlarAdd d 0x17 1 u else u := by
    rw [rinlarTick_eq (by rw [recordRuns_fresh]; exact h), secondPassed, sampledMv_fresh, rdF_fresh, inPearl_fresh, flag_fresh, ← hw, ← hf,
      show histBin 600 10 30 (sampledMv s d) = _ from histBin_nat 600 30 _ (by decide), show histBin 500 50 32 (s.rdF (PACE_STATUS d) PACE_STATUS_PACE) = _ from histBin_nat 500 32 _ (by decide),
      hu, hb1, hb2, hb3]
    rfl
  obtain ⟨hl1, hl2, hl3⟩ := lifeAdded_rule d w (fresh s)
  obtain ⟨hh1, hh2, hh3⟩ := binsAdded_rule d (b1 := b1) (b2 := b2) (b3 := b3) (by omega) (by omega) (by omega) (lifeAdded d w (fresh s))
  rw [rin_fresh] at hl1 hl2 hl3
  rw [← hu] at hh1 hh2 hh3
  obtain ⟨t, ht⟩ : ∃ t, t = if f then rinlarAdd d 0x17 1 u else u := ⟨_, rfl⟩
  have hother : t.rin d.other = s.rin d.other := by
    have hne : d.other ≠ d := by cases d <;> decide
    have huo : u.rin d.other = s.rin d.other := by
      rw [hu, binsAdded, rinlarAdd, rin_setRin_ne hne, rinlarAdd, rin_setRin_ne hne, rinlarAdd, rin_setRin_ne hne, lifeAdded, rin_setRin_ne hne, rin_fresh]
    rw [ht]
    split
    · rw [rinlarAdd, rin_setRin_ne hne, huo]
    · exact huo
  have htd : t.rin d = { s.rin d with live := (t.rin d).live } := by
    rw [ht]
    split
    · rw [rin_rinlarAdd, hh1, hl1]
    · rw [hh1, hl1]
  have hword : ∀ i, tget 0 i (t.rin d).live = if i = 0x17 ∧ f = true then min 0xFFFFFFFF (tget 0 0x17 (u.rin d).live + 1) else tget 0 i (u.rin d).live := by
    intro i
    rw [ht]
    cases f with
    | true => simp only [if_true, live_rinlarAdd, and_true]
    | false => simp
  have hrest : ∀ i, i ≠ 0x17 → tget 0 i (t.rin d).live = tget 0 i (u.rin d).live := fun i hi => by rw [hword, if_neg fun hc => hi hc.1]
  have hlow : ∀ i, 8 ≤ i → i < 0x240 → tget 0 i (u.rin d).live = tget 0 i (s.rin d).live := fun i h1 h2 => by
    rw [hh3 i (by omega) (by omega) (by omega), hl3 i (by omega) (by omega)]
  have hbin : ∀ b, b = b1 ∨ b = b2 ∨ b = b3 → tget 0 b (t.rin d).live = min 0xFFFFFFFF (tget 0 b (s.rin d).live + 1) := fun b hb => by
    rw [hrest b (by omega), hh2 b hb, hl3 b (by omega) (by omega)]
  have hend : Only (fun v => { v with rinlar := [] }) (fresh s) t := by
    rw [ht, hu]
    exact .ite (((((Only.rfl.setRin _ _).setRin _ _).setRin _ _).setRin _ _).setRin _ _) ((((Only.rfl.setRin _ _).setRin _ _).setRin _ _).setRin _ _)
  refine ⟨t, congrArg Host.Outcome.next (hend.ran (hgo.trans ht.symm)), hend.rinlar, hother, htd, ?_, ?_, ?_, ?_, ?_, fun i h1 h2 h3 => (hrest i h3).trans (hlow i h1 h2)⟩
  · rintro _ rfl
    rw [← hw, hrest w (by omega), hrest (w + 1) (by omega), hh3 w (by omega) (by omega) (by omega), hh3 (w + 1) (by omega) (by omega) (by omega)]
    exact hl2
  · exact fun b hb => hbin b (.inl (hb.trans hb1.symm))
  · rintro _ b rfl hb
    exact hbin b (.inr (.inl (hb.trans hb2.symm)))
  · exact fun b hb => hbin b (.inr (.inr (hb.trans hb3.symm)))
  · rw [hword, ← hf]
    simp only [true_and, hlow 0x17 (by omega) (by omega)]

/-! ## Reading (R476) -/

/-- The first `n` words of the readout buffer filled from an image. -/
def windowFilled (d : Die) (image : Option (Tab Nat)) (s : State) (n : Nat) (t : State) : State :=
  (upto n).foldl (fun t i => wr (RINLAR_WIN d i) (BitVec.ofNat 32 (imageWord s image i)) t) t

theorem windowFilled_succ (d : Die) (image : Option (Tab Nat)) (s : State) (n : Nat) (t : State) :
    windowFilled d image s (n + 1) t = wr (RINLAR_WIN d n) (BitVec.ofNat 32 (imageWord s image n)) (windowFilled d image s n t) := by
  simp only [windowFilled, upto, List.range_succ, List.foldl_append, List.foldl_cons, List.foldl_nil]

theorem windowFilled_rule (d : Die) (image : Option (Tab Nat)) (s t : State) (n : Nat) :
    RegsOnly t (windowFilled d image s n t) ∧ ∀ i, i < n → (windowFilled d image s n t).rd (RINLAR_WIN d i) = BitVec.ofNat 32 (imageWord s image i) := by
  induction n with
  | zero => exact ⟨.rfl, fun i h => absurd h (Nat.not_lt_zero _)⟩
  | succ n ih =>
    obtain ⟨hr, hi⟩ := ih
    rw [windowFilled_succ]
    refine ⟨hr.wr _ _, fun i hin => ?_⟩
    by_cases h : i = n
    · rw [h]
      exact rd_wr_same _ _ _
    · refine (rd_wr_ne ?_ _ _).trans (hi i (by omega))
      simp only [RINLAR_WIN]
      omega

theorem latchImage_rule (d : Die) (live : Bool) (s : State) : (latchImage d live s).flag (RINLAR_CTRL d) RINLAR_CTRL_LATCH_DONE = true
    ∧ (∀ i, i < 4096 → (latchImage d live s).rd (RINLAR_WIN d i) = BitVec.ofNat 32 (latchWord s d live i)) ∧ (latchImage d live s).rinlar = s.rinlar := by
  obtain ⟨⟨r, hr⟩, hi⟩ := windowFilled_rule d (latchSource s d live) s s 4096
  have heq : latchImage d live s = useFree 4096 (wrB (RINLAR_CTRL d) RINLAR_CTRL_LATCH_DONE true (windowFilled d (latchSource s d live) s 4096 s)) := rfl
  have hfree : ∀ (t : State) (a : Nat), (useFree 4096 t).rd a = t.rd a := fun t a => rd_congr rfl rfl a
  rw [heq]
  refine ⟨?_, fun i hin => ?_, ?_⟩
  · rw [flag_of_rd (hfree _ _)]
    exact flag_wrB_same _ _ _ _ (by decide) (by decide)
  · rw [hfree, rd_wrB_ne (by simp only [RINLAR_WIN, RINLAR_CTRL]; omega)]
    exact hi i hin
  · rw [hr]
    rfl

theorem latchWord_newest {s : State} {d : Die} {k : Nat} {img : Tab Nat} (h : newestSlot (s.rin d) = some (k, img)) (i : Nat) :
    latchWord s d false i = tget 0 i img ∧ latchWord s d true i = tget 0 i (imageOf d 0xFF (imageSeq img) (s.rin d).live) := by
  unfold latchWord latchSource
  dsimp only
  rw [h]
  exact ⟨rfl, rfl⟩

theorem rinlarCtrl_closed {f : Fun} {v : Word} {s : State} (h : (accessRow s f (addrOff (RINLAR_CTRL f.ep))).isNone = true) :
    rinlarCtrlWrite f v (fresh s) = fresh s := by
  rw [rinlarCtrlWrite]
  exact if_pos (by rw [accessRow_fresh]; exact h)

theorem rinlarCtrl_open {f : Fun} {v : Word} {s : State} (h : (accessRow s f (addrOff (RINLAR_CTRL f.ep))).isSome = true) :
    rinlarCtrlWrite f v (fresh s) = (if RINLAR_CTRL_LATCH.get v = 1 then latchImage f.ep (RINLAR_CTRL_LIVE.get v == 1) else id)
      ((if RINLAR_CTRL_SNAP.get v = 1 then requestSnap f.ep 4 none else id) (wrF (RINLAR_CTRL f.ep) RINLAR_CTRL_LIVE (RINLAR_CTRL_LIVE.get v) (fresh s))) := by
  unfold rinlarCtrlWrite
  dsimp only
  rw [if_neg (by rw [accessRow_fresh]; exact isNone_false_of_isSome h)]
  by_cases hs : RINLAR_CTRL_SNAP.get v = 1 <;> by_cases hl : RINLAR_CTRL_LATCH.get v = 1 <;> simp only [hs, hl, if_true, if_false, id]

theorem rinlarSnapshotDone_rule (d : Die) (bad : Nat) (s : State) :
    ((s.rin d).writing = none → (s.rin d).queue = [] → exec (.rinlarSnapshotDone d bad) s = .next (fresh s))
    ∧ (∀ c n k, (s.rin d).writing = some (c, n, k) → bad < 2 → ∀ q, q = nextSeq (s.rin d) → ∀ w,
      w = refreshNewest d (setRin d { s.rin d with slots := tset n (imageOf d c q (s.rin d).live) (s.rin d).slots, writing := none } (fresh s)) →
      (k = none → exec (.rinlarSnapshotDone d bad) s = .next (ran (fun _ => refreshRinlar d (startSnap d w)) s))
      ∧ (∀ t, k = some t → exec (.rinlarSnapshotDone d bad) s = .next (ran (fun _ => refreshRinlar d (startSnap d (finish t stOk 0 w))) s)))
    ∧ (∀ c n k, (s.rin d).writing = some (c, n, k) → 2 ≤ bad → (s.rin d).retired.contains n = false → ∀ r, r = { s.rin d with retired := n :: (s.rin d).retired, slots := tkeep (fun j => j != n) (s.rin d).slots } →
      exec (.rinlarSnapshotDone d bad) s = .next (ran (fun _ => postRinlar d 0 n (refreshRinlar d (refreshNewest d (setRin d { r with writing := (nextSlot r n).map (fun m => (c, m, k)) } (fresh s))))) s)) := by
  refine ⟨fun hw hq => congrArg Host.Outcome.next (ran_same (snapDone_nothing (s := fresh s) hw hq)), fun c n k hw hb q hq w h => ?_, fun c n k hw hb hn r hr => ?_⟩
  · subst hq
    have hgo := snapDone_good (s := fresh s) hw hb h
    refine ⟨fun hk => ?_, fun t hk => ?_⟩
    · subst hk
      exact congrArg Host.Outcome.next (ran_congr hgo)
    · subst hk
      exact congrArg Host.Outcome.next (ran_congr hgo)
  · exact congrArg Host.Outcome.next (ran_congr (snapDone_bad (s := fresh s) hw hb hn hr))

/-- Settles O60: when a snapshot begins and ends, what an image holds, what a second adds, and what the readout gives. -/
theorem rinlarSnapshotsCountAndRead : Obligations.RinlarSnapshotsCountAndRead := by
  refine ⟨⟨fun d c k s => ⟨fun w hw => requestSnap_waits hw, fun n hw hq hr hn => requestSnap_begins d c n k s hw hq hr hn, fun h => ?_, fun h tj => ⟨?_, ?_⟩⟩,
    fun s => ⟨fun h => ?_, fun d h h' ho => ?_, fun h => ?_⟩, fun d c q live hc => image_rule d c q live hc, rinlarSnapshotDone_rule⟩,
    fun d tj s h => rinlarSecond_rule d tj s h, fun f v s => ⟨fun h => ?_, fun h out hout => ?_⟩, latchImage_rule, fun d i s k img h => latchWord_newest h i⟩
  · exact congrArg Host.Outcome.next (ran_congr (if_pos ((recordRuns_fresh s d).trans h)))
  · exact congrArg Host.Outcome.next (ran_same (if_neg (by rw [recordRuns_fresh, h]; decide)))
  · have hsame : rinlarTick d tj (fresh s) = fresh s := if_pos ((recordRuns_fresh s d).trans h)
    exact congrArg Host.Outcome.next (ran_same hsame)
  · have hsame : powerFail (fresh s) = fresh s := powerFail_ignored fun d => by rw [recordRuns_fresh]; exact h d
    exact congrArg Host.Outcome.next (ran_same hsame)
  · exact congrArg Host.Outcome.next (ran_congr (powerFail_one (s := fresh s) h ((recordRuns_fresh _ _).trans h') (by rw [recordRuns_fresh]; exact ho)))
  · exact congrArg Host.Outcome.next (ran_congr (powerFail_both (s := fresh s) fun d => by rw [recordRuns_fresh]; exact h d))
  · have hsame := rinlarCtrl_closed (v := v) h
    exact ⟨congrArg Host.Outcome.next (ran_same hsame), congrArg Host.Outcome.next (ran_same hsame)⟩
  · have hopen := rinlarCtrl_open (v := v) h
    rw [hout]
    exact ⟨congrArg Host.Outcome.next (ran_congr hopen), congrArg Host.Outcome.next (ran_congr hopen)⟩

end Sys2Proof.Machine
end

section
/-! Line starts (R132, R144). -/
namespace Sys2Proof.Machine

theorem head_fresh (s : State) (h : Nat) : (fresh s).head h = s.head h := rfl
theorem head_setHead_same (h : Nat) (x : Head) (s : State) : (setHead h x s).head h = x := tget_tset_same _ _ _ _
theorem head_setHead_ne {h g : Nat} (hg : g ≠ h) (x : Head) (s : State) : (setHead h x s).head g = s.head g := tget_tset_ne _ hg _ _
theorem rd_setHead (h : Nat) (x : Head) (s : State) (a : Nat) : (setHead h x s).rd a = s.rd a := rd_congr rfl rfl a
theorem rdF_setHead (h : Nat) (x : Head) (s : State) (a : Nat) (f : Fld) : (setHead h x s).rdF a f = s.rdF a f := rdF_congr rfl rfl a f
theorem flag_setHead (h : Nat) (x : Head) (s : State) (a : Nat) (f : Fld) : (setHead h x s).flag a f = s.flag a f := flag_congr rfl rfl a f
theorem isl_fresh (s : State) (a : Nat) : (fresh s).isl a = s.isl a := rfl

theorem RegsOnly.head {s t : State} (h : RegsOnly s t) (g : Nat) : t.head g = s.head g := by
  obtain ⟨r, hr⟩ := h
  rw [hr]
  exact Eq.refl _

theorem Only.regsHeadsGarnets {s t : State} (h : Only (fun u => { u with regs := [], heads := [], garnets := [] }) (fresh s) t) :
    t = { s with regs := t.regs, heads := t.heads, garnets := t.garnets, out := [] } :=
  congrArg (fun u => { u with regs := t.regs, heads := t.heads, garnets := t.garnets }) h

theorem Only.setHead {m : State → State} {s t : State} (h : Only m s t) (g : Nat) (x : Head)
    (hm : ∀ u r, m { u with heads := r } = m u := by intros; rfl) : Only m s (setHead g x t) := (hm _ _).trans h
theorem Only.setGarnet {m : State → State} {s t : State} (h : Only m s t) (d : Die) (x : Garnet)
    (hm : ∀ u r, m { u with garnets := r } = m u := by intros; rfl) : Only m s (setGarnet d x t) := (hm _ _).trans h

/-- HEAD_STATUS of a head and POWER_STATUS do not follow the pace. -/
theorem status_notin_rates (d e : Die) {n : Nat} (hn : n < 4) : HEAD_STATUS d n ∉ rateRegs e ∧ POWER_STATUS d ∉ rateRegs e := by
  simp only [rateRegs, HEAD_STATUS, POWER_STATUS, COMP_STATUS, WARP_RATE, GARNET_RENDER, GPU_RATE, COPY_STATUS, HEAD_LOAD, dieSpace, List.mem_cons, List.not_mem_nil,
    or_false]
  cases d <;> cases e <;> simp only [Die.idx] <;> omega

/-! ## The timing that has landed -/

/-- A head with the timing that has landed on its island. -/
def landedTiming (s : State) (h : Nat) : Head :=
  { s.head h with ha := s.isl (TIMING_HA (headDie h) (headNo h)), hb := s.isl (TIMING_HB (headDie h) (headNo h)),
                  va := s.isl (TIMING_VA (headDie h) (headNo h)), vb := s.isl (TIMING_VB (headDie h) (headNo h)) }

/-- The timing comes into force; nothing else of any head changes but that a stored frame may be recomposed. -/
theorem applyTiming_rule (h : Nat) (s : State) :
    Only (fun u => { u with regs := [], heads := [], garnets := [] }) s (applyTiming h s)
      ∧ (∃ b, (applyTiming h s).head h = { landedTiming s h with recompose := b }) ∧ (∀ g, g ≠ h → (applyTiming h s).head g = s.head g)
      ∧ (∀ a, a ∉ rateRegs (headDie h) → (applyTiming h s).rd a = s.rd a)
      ∧ ((landedTiming s h).htotal = (s.head h).htotal → ∀ a, (applyTiming h s).rd a = s.rd a) := by
  obtain ⟨b, hb⟩ : ∃ b, applyTiming h s = if (landedTiming s h).htotal = (s.head h).htotal then setHead h { landedTiming s h with recompose := b } s
      else refreshRates (headDie h) (setHead h { landedTiming s h with recompose := b } s) := ⟨_, rfl⟩
  obtain ⟨hr, hk⟩ := refreshRates_touches (headDie h) (setHead h { landedTiming s h with recompose := b } s)
  have hset : Only (fun u => { u with regs := [], heads := [], garnets := [] }) s (setHead h { landedTiming s h with recompose := b } s) := Only.rfl.setHead _ _
  rw [hb]
  split
  · next heq =>
    exact ⟨hset, ⟨b, head_setHead_same _ _ _⟩, fun g hg => head_setHead_ne hg _ _, fun a _ => rd_setHead _ _ _ _, fun _ a => rd_setHead _ _ _ _⟩
  · next hne =>
    exact ⟨hset.trans (.of_regsOnly hr), ⟨b, (hr.head _).trans (head_setHead_same _ _ _)⟩, fun g hg => (hr.head _).trans (head_setHead_ne hg _ _),
      fun a ha => (hk a ha).trans (rd_setHead _ _ _ _), fun heq => absurd heq hne⟩

theorem scanTracks_rule (h : Nat) (s : State) : Only (fun u => { u with regs := [], heads := [], garnets := [] }) s (scanTracks h s)
    ∧ (∀ g, (scanTracks h s).head g = s.head g) ∧ ∀ a, (scanTracks h s).rd a = s.rd a := by
  unfold scanTracks
  dsimp only
  split
  · exact ⟨Only.rfl.setGarnet _ _, fun _ => rfl, fun a => rd_congr rfl rfl a⟩
  · exact ⟨.rfl, fun _ => rfl, fun _ => rfl⟩

/-! ## The line's number -/

/-- The head's view as a line starts: its landed timing, its scan back on its timing. -/
def lineReady (h : Nat) (s : State) : State := scanTracks h (applyTiming h s)

theorem lineReady_rule (h : Nat) (s : State) :
    Only (fun u => { u with regs := [], heads := [], garnets := [] }) s (lineReady h s)
      ∧ (∃ b, (lineReady h s).head h = { landedTiming s h with recompose := b }) ∧ (∀ g, g ≠ h → (lineReady h s).head g = s.head g)
      ∧ (lineReady h s).rd (HEAD_STATUS (headDie h) (headNo h)) = s.rd (HEAD_STATUS (headDie h) (headNo h)) ∧ powerState (lineReady h s) (headDie h) = powerState s (headDie h)
      ∧ ((landedTiming s h).htotal = (s.head h).htotal → ∀ a, (lineReady h s).rd a = s.rd a) := by
  obtain ⟨h1, ⟨b, h2⟩, h3, h4, h5⟩ := applyTiming_rule h s
  obtain ⟨g1, g2, g3⟩ := scanTracks_rule h (applyTiming h s)
  obtain ⟨n1, n2⟩ := status_notin_rates (headDie h) (headDie h) (n := headNo h) (Nat.mod_lt _ (by decide))
  refine ⟨h1.trans g1, ⟨b, (g2 h).trans h2⟩, fun g hg => (g2 g).trans (h3 g hg), (g3 _).trans (h4 _ n1), rdF_of_rd ((g3 _).trans (h4 _ n2)) _, fun he a => (g3 a).trans (h5 he a)⟩

/-- The number of a line that starts, from the head's timing and the line before (R132, R156). -/
def numberAfter (y : Head) (n : Nat) : Nat :=
  if y.phase = 2 ∨ y.snapIn = some 1 ∨ (y.snapIn = none ∧ y.vtotal ≤ n) then 0 else if y.snapIn.isSome then min n 8191 else n

theorem lineNumber_eq (s : State) (h : Nat) :
    lineNumber s h = numberAfter (s.head h) (s.rdF (HEAD_STATUS (headDie h) (headNo h)) HEAD_STATUS_LINE + 1) := by
  unfold lineNumber numberAfter
  dsimp only
  generalize s.head h = x
  by_cases hp : x.phase = 2
  · rw [if_pos hp, if_pos (.inl hp)]
  · rw [if_neg hp]
    rcases hs : x.snapIn with _ | k
    · simp [hp]
    · by_cases hk : k = 1
      · subst hk
        simp
      · simp [hp, hk]

/-! ## The grid stands at a line -/

theorem lineStands_rule (h c : Nat) (s : State) :
    Only (fun u => { u with regs := [], heads := [], garnets := [] }) s (lineStands h c s)
      ∧ (lineStands h c s).rdF (HEAD_STATUS (headDie h) (headNo h)) HEAD_STATUS_LINE = c % 2 ^ HEAD_STATUS_LINE.len
      ∧ (lineStands h c s).flag (HEAD_STATUS (headDie h) (headNo h)) HEAD_STATUS_IN_VBLANK = decide ((s.head h).vactive ≤ c)
      ∧ ((lineStands h c s).head h).ha = (s.head h).ha ∧ ((lineStands h c s).head h).va = (s.head h).va ∧ ((lineStands h c s).head h).vb = (s.head h).vb
      ∧ ((lineStands h c s).head h).snapDue = (if (s.head h).snapIn == some 1 then 0 else (s.head h).snapDue)
      ∧ (∀ g, g ≠ h → (lineStands h c s).head g = s.head g) ∧ ∀ a, a ≠ HEAD_STATUS (headDie h) (headNo h) → (lineStands h c s).rd a = s.rd a := by
  obtain ⟨x, b, v, hx, ha, hva, hvb, hsnap⟩ : ∃ x : Head, ∃ b : Bool, ∃ v, lineStands h c s = wrF (HEAD_STATUS (headDie h) (headNo h)) HEAD_STATUS_VBLANK_LEFT v
      (wrB (HEAD_STATUS (headDie h) (headNo h)) HEAD_STATUS_IN_VBLANK (decide ((s.head h).vactive ≤ c)) (wrF (HEAD_STATUS (headDie h) (headNo h)) HEAD_STATUS_LINE c (setHead h x s)))
      ∧ x.ha = (s.head h).ha ∧ x.va = (s.head h).va ∧ x.vb = (s.head h).vb ∧ x.snapDue = (if (s.head h).snapIn == some 1 then 0 else (s.head h).snapDue) :=
    ⟨_, false, _, rfl, rfl, rfl, rfl, rfl⟩
  have hhead : ∀ g, (lineStands h c s).head g = (setHead h x s).head g := fun g => by rw [hx]; rfl
  refine ⟨?_, ?_, ?_, ?_, ?_, ?_, ?_, fun g hg => (hhead g).trans (head_setHead_ne hg _ _), fun a hne => ?_⟩
  · rw [hx]
    exact (((Only.rfl.setHead _ _).wrF _ _ _).wrB _ _ _).wrF _ _ _
  · rw [hx, rdF_wrF_other _ _ _ _ _ (by decide) (by decide), rdF_wrB_other _ _ _ _ _ (by decide) (by decide)]
    exact rdF_wrF_same _ _ _ _ (by decide)
  · rw [hx, flag_wrF_other _ _ _ _ _ (by decide) (by decide)]
    exact flag_wrB_same _ _ _ _ (by decide) (by decide)
  · rw [hhead, head_setHead_same, ha]
  · rw [hhead, head_setHead_same, hva]
  · rw [hhead, head_setHead_same, hvb]
  · rw [hhead, head_setHead_same, hsnap]
  · rw [hx, rd_wrF_ne hne, rd_wrB_ne hne, rd_wrF_ne hne, rd_setHead]

theorem islandOut_fresh (s : State) (d : Die) (i : Nat) : islandOut (fresh s) d i = islandOut s d i := rfl

/-- A line of a head that scans: the grid moves, then the line's work is done. -/
theorem lineStart_moves {h : Nat} {obs : LineObs} {s : State} (hh : h < 8) (hp : (s.head h).phase = 2 ∨ (s.head h).phase = 3)
    (hl : s.flag (HEAD_STATUS (headDie h) (headNo h)) HEAD_STATUS_PLL_LOST = false) (hr : s.inReset.contains .heads = false)
    (hi : islandOut s (headDie h) (headNo h) = true) (hs : s.split = false) (hw : powerState s (headDie h) = 0) :
    lineStart h obs s = lineWork h (lineNumber (lineReady h s) h) obs (lineStands h (lineNumber (lineReady h s) h) (lineReady h s)) := by
  obtain ⟨-, -, -, -, hpw, -⟩ := lineReady_rule h s
  have hsplit : splitLayers h s = s := if_neg (by rw [hs]; decide)
  unfold lineStart
  dsimp only
  rw [if_neg (by rw [hr, hi]; simp; omega), if_neg (by rw [hl]; decide), if_neg (by omega), hsplit,
    show powerState (scanTracks h (applyTiming h s)) (headDie h) = 0 from hpw.trans hw, if_neg (by omega)]
  rfl

/-- Settles O33: the lines that start, and the grid of a head that scans. -/
theorem lineStartMovesTheGrid : Obligations.LineStartMovesTheGrid := by
  refine fun h obs s hh => ⟨fun hoff => ?_, fun h3 hl ha hr hi => ?_, fun hp hl hr hi hs hw y c n hy hn hc => ?_⟩
  · have hsame : lineStart h obs (fresh s) = fresh s := by
      unfold lineStart
      dsimp only
      split
      · rfl
      · next hgo =>
        rw [flag_fresh, flag_fresh, head_fresh]
        rw [head_fresh] at hgo
        simp only [not_or, Nat.not_lt] at hgo
        obtain ⟨-, hph, -, -⟩ := hgo
        obtain ⟨hl, hno⟩ := hoff.resolve_left (Nat.not_lt.2 hph)
        rw [if_pos hl, if_neg hno]
    exact congrArg Host.Outcome.next (ran_same hsame)
  · refine congrArg Host.Outcome.next (ran_congr ?_)
    unfold lineStart
    dsimp only
    rw [flag_fresh, flag_fresh, head_fresh, islandOut_fresh, if_neg (by rw [hi, h3, show (fresh s).inReset.contains .heads = false from hr]; simp; omega), if_pos hl, if_pos ⟨h3, ha⟩]
  · obtain ⟨o1, ⟨b, o2⟩, o3, o4, -, o6⟩ := lineReady_rule h (fresh s)
    have hnum : lineNumber (lineReady h (fresh s)) h = c := by
      rw [lineNumber_eq, o2, rdF_of_rd o4, rdF_fresh, ← hn, hc]
      subst hy
      rfl
    have hgo := lineStart_moves (obs := obs) (s := fresh s) hh hp ((flag_fresh _ _ _).trans hl) hr hi hs ((rdF_fresh _ _ _).trans hw)
    rw [hnum] at hgo
    obtain ⟨g1, g2, g3, g4, g5, g6, g7, g8, g9⟩ := lineStands_rule h c (lineReady h (fresh s))
    have hva : ((lineStands h c (lineReady h (fresh s))).head h).vactive = ((lineReady h (fresh s)).head h).vactive := by rw [Head.vactive, Head.vactive, g5]
    refine ⟨lineStands h c (lineReady h (fresh s)), ⟨(o1.trans g1).regsHeadsGarnets, g2, ?_, ?_, ?_, ?_, fun g hg => (g8 g hg).trans (o3 g hg), fun he a ha => ?_⟩,
      congrArg Host.Outcome.next (ran_congr hgo)⟩
    · rw [g3, hva]
    · rw [g4, o2]
      rfl
    · rw [g6, o2]
      rfl
    · rw [g7, o2]
      simp [landedTiming]
    · rw [g9 a ha, o6 ?_ a, rd_fresh]
      subst hy
      exact he

end Sys2Proof.Machine
end

section
/-! Commits that land, and releases (R146, R147, R183–R185). -/
namespace Sys2Proof.Machine

theorem layer_setLayer_same (h l : Nat) (y : Layer) (s : State) : ((setLayer h l y s).head h).layer l = y := by
  rw [setLayer, head_setHead_same]
  exact tget_tset_same _ _ _ _

theorem layer_setLayer_ne {h l m : Nat} (hm : m ≠ l) (y : Layer) (s : State) : ((setLayer h l y s).head h).layer m = (s.head h).layer m := by
  rw [setLayer, head_setHead_same]
  exact tget_tset_ne _ hm _ _

theorem head_setLayer_ne {h g : Nat} (hg : g ≠ h) (l : Nat) (y : Layer) (s : State) : (setLayer h l y s).head g = s.head g := head_setHead_ne hg _ _

/-- LAYER_STATUS is the one register that follows a layer's state. -/
theorem refreshLayer_touches (h l : Nat) (s : State) : Touches [LAYER_STATUS (headDie h) (headNo h) l] s (refreshLayer h l s) := by
  unfold refreshLayer
  dsimp only
  exact ((((Touches.rfl.wrB _ _).wrB _ _).wrB _ _).wrF _ _).wrF _ _

theorem refreshLayer_pending (h l : Nat) (s : State) : (refreshLayer h l s).flag (LAYER_STATUS (headDie h) (headNo h) l) LAYER_STATUS_PENDING
    = (((s.head h).layer l).pend.isSome || ((s.head h).layer l).pendColour.isSome) := by
  unfold refreshLayer
  dsimp only
  rw [flag_wrF_other _ _ _ _ _ (by decide) (by decide), flag_wrF_other _ _ _ _ _ (by decide) (by decide), flag_wrB_other _ _ _ _ _ (by decide) (by decide)]
  exact flag_wrB_same _ _ _ _ (by decide) (by decide)

/-- A layer takes something new, and its status follows. -/
theorem refreshed_setLayer (h l : Nat) (y : Layer) (s t : State) (ht : t.heads = (setLayer h l y s).heads) :
    ((refreshLayer h l t).head h).layer l = y ∧ (∀ m, m ≠ l → ((refreshLayer h l t).head h).layer m = (s.head h).layer m) ∧ ∀ g, g ≠ h → (refreshLayer h l t).head g = s.head g := by
  have hhead : ∀ g, (refreshLayer h l t).head g = (setLayer h l y s).head g := fun g => by
    rw [(refreshLayer_touches h l t).1.head]
    exact congrArg (tget Head.empty g) ht
  refine ⟨?_, fun m hm => ?_, fun g hg => ?_⟩
  · rw [hhead, layer_setLayer_same]
  · rw [hhead, layer_setLayer_ne hm]
  · rw [hhead, head_setLayer_ne hg]

/-! ## Commits (R146, R147) -/

/-- The ticket under which a descriptor's commit waits. -/
def landTicket (t : Ticket) (d : Desc) : Ticket := { t with seq := dSeq d, opcode := dOpcode d }

/-- The commit stands in the pending set of its layer. -/
def commitLanded (h l : Nat) (t : Ticket) (d : Desc) (s : State) : State := setLayer h l { (s.head h).layer l with pend := some ⟨landTicket t d, d⟩ } s

/-- A commit that replaces none. -/
theorem landCommit_fresh {t : Ticket} {d : Desc} {s : State} {r : Route} {h l : Nat} (hr : s.route (dRoute d) = some r) (hh : h = epUnit r.sink) (hl : l = epSub r.sink)
    (hp : ((s.head h).layer l).pend = none) : ∃ u, landCommit t d s = (none, refreshLayer h l u) ∧ u.heads = (commitLanded h l t d s).heads := by
  subst hh hl
  refine ⟨if cEn d then owe (landTicket t d) (commitLanded (epUnit r.sink) (epSub r.sink) t d s) else commitLanded (epUnit r.sink) (epSub r.sink) t d s, ?_, ?_⟩
  · unfold landCommit
    rw [hr]
    dsimp only
    rw [hp]
    rfl
  · split <;> rfl

theorem worked_opLayerCommit (q : RingId) (d : Desc) (s : State) : worked opLayerCommit q d s = landCommit (oneTicket s q d) d (handed opLayerCommit q d s) := rfl

/-- What a new flight leaves: routes and heads. -/
theorem handed_heads {o : OpSpec} {q : RingId} {d : Desc} {s : State} (hpre : ∀ t, (o.pre q d t).2 = t) :
    (handed o q d s).routes = s.routes ∧ (handed o q d s).heads = s.heads := by
  rw [handed, hpre]
  exact ⟨rfl, rfl⟩

/-! ## Colours (R183) -/

theorem colourTable_none {q : RingId} {d : Desc} (hd : dget d 9 0 2 ≠ 2) (s : State) : colourTable q d s = (.ok [], s) := if_neg hd

/-- The work of a LAYER_COLOUR without a table that replaces none. -/
theorem worked_opLayerColour {q : RingId} {d : Desc} {s : State} {r : Route} {h l : Nat} (hr : s.route (dRoute d) = some r) (hh : h = epUnit r.sink) (hl : l = epSub r.sink)
    (hp : ((s.head h).layer l).pendColour = none) (hd : dget d 9 0 2 ≠ 2) : ∃ u, worked opLayerColour q d s = (none, refreshLayer h l u)
      ∧ u.heads = (setLayer h l { (s.head h).layer l with pendColour := some ⟨oneTicket s q d, d, []⟩ } s).heads := by
  subst hh hl
  obtain ⟨hrt, hhd⟩ := handed_heads (o := opLayerColour) (q := q) (d := d) (s := s) fun t => by
    show (match colourTable q d t with
      | (.error e, s1) => (some e.completion, s1)
      | (.ok _, s1) => (none, s1) : Option (Nat × Nat) × State).2 = t
    rw [colourTable_none hd]
  have hr' : (handed opLayerColour q d s).route (dRoute d) = some r := (congrArg (tfind (dRoute d)) hrt).trans hr
  have hh' : (handed opLayerColour q d s).head (epUnit r.sink) = s.head (epUnit r.sink) := congrArg (tget Head.empty _) hhd
  refine ⟨setLayer (epUnit r.sink) (epSub r.sink) { ((handed opLayerColour q d s).head (epUnit r.sink)).layer (epSub r.sink) with pendColour := some ⟨oneTicket s q d, d, []⟩ }
    (handed opLayerColour q d s), ?_, ?_⟩
  · rw [worked]
    generalize handed opLayerColour q d s = u at *
    simp only [opLayerColour, OpSpec.onRing, mkOp, hr', colourTable_none hd, hh', hp]
  · rw [setLayer, setLayer, hh']
    exact congrArg (tset _ _) hhd

/-- DETAIL of the RELEASED of a buffer that was shown. -/
theorem releaseDetail_shown (f l h : Nat) : releaseDetail f l false h = f % 4096 * 4096 + l * 256 + h := by
  rw [releaseDetail, b2n]
  exact congrArg (· + h) (Nat.add_zero _)

/-- Settles O34: the layer's pending set after a commit or a colour, and the release of a replaced buffer. -/
theorem commitsLandAndRelease : Obligations.CommitsLandAndRelease := by
  refine ⟨fun q d s r h l hr hh hl _ hp t ht => ?_, fun q d s r h l hr hh hl hp hd t ht => ?_, fun h l r s hr => ?_⟩
  · obtain ⟨hrt, hhd⟩ := handed_heads (o := opLayerCommit) (q := q) (d := d) (s := s) fun _ => rfl
    have hr' : (handed opLayerCommit q d s).route (dRoute d) = some r := (congrArg (tfind (dRoute d)) hrt).trans hr
    have hh' : (handed opLayerCommit q d s).head h = s.head h := congrArg (tget Head.empty _) hhd
    obtain ⟨u, hu, huh⟩ := landCommit_fresh (t := oneTicket s q d) hr' hh hl (by rw [hh']; exact hp)
    rw [worked_opLayerCommit, hu] at ht ⊢
    subst ht
    obtain ⟨h1, h2, h3⟩ := refreshed_setLayer h l _ (handed opLayerCommit q d s) u huh
    have hpend : ((u.head h).layer l).pend.isSome = true := by
      rw [show u.head h = _ from congrArg (tget Head.empty h) huh]
      exact congrArg (fun y : Layer => y.pend.isSome) (layer_setLayer_same h l _ _)
    refine ⟨rfl, h1.trans (by rw [hh']; rfl), fun m hm => (h2 m hm).trans (by rw [hh']), fun g hg => (h3 g hg).trans (congrArg (tget Head.empty g) hhd), ?_⟩
    rw [refreshLayer_pending, hpend, Bool.true_or]
  · obtain ⟨u, hu, huh⟩ := worked_opLayerColour (q := q) hr hh hl hp hd
    rw [hu] at ht ⊢
    subst ht
    obtain ⟨h1, h2, h3⟩ := refreshed_setLayer h l _ s u huh
    exact ⟨rfl, h1, h2, h3⟩
  · refine congrArg Host.Outcome.next (ran_congr ?_)
    rw [bufferRelease, head_fresh, hr]
    dsimp only
    rw [releaseDetail_shown]

end Sys2Proof.Machine
end

section
/-! Underruns, the pixel PLL and the frame tier's scrub (R145, R152, R157). -/
namespace Sys2Proof.Machine

theorem tset_tset {α : Type} (k : Nat) (v w : α) (t : Tab α) : tset k v (tset k w t) = tset k v t := by
  induction t with
  | nil => simp [tset]
  | cons e t ih =>
    obtain ⟨j, x⟩ := e
    by_cases h2 : j = k
    · simp [tset, h2]
    · by_cases h1 : k < j
      · simp [tset, h1, h2]
      · simp [tset, h1, h2, ih]

theorem nbit_setBit_same (x l : Nat) : nbit (setBit x l true) l = true := by
  have hp : 0 < 2 ^ l := Nat.two_pow_pos l
  have hx := Nat.div_add_mod x (2 ^ l)
  have hr := Nat.mod_lt x hp
  generalize x / 2 ^ l = q at hx
  generalize x % 2 ^ l = r at hx hr
  have hset : setBit x l true = 2 ^ l * (q - q % 2 + 1) + r := by
    have hq : x / 2 ^ l = q := by
      rw [← hx]
      exact Nat.div_eq_of_lt_le (by rw [Nat.mul_comm]; omega) (by rw [Nat.add_mul, Nat.mul_comm q]; omega)
    have hle : q % 2 ≤ q := Nat.mod_le _ _
    have hmul : 2 ^ l * (q - q % 2 + 1) = 2 ^ l * q - q % 2 * 2 ^ l + 2 ^ l := by rw [Nat.mul_add, Nat.mul_sub, Nat.mul_comm (2 ^ l) (q % 2), Nat.mul_one]
    have hbound : q % 2 * 2 ^ l ≤ 2 ^ l * q := by
      rw [Nat.mul_comm]
      exact Nat.mul_le_mul_left _ hle
    rw [setBit, hq, hmul, if_pos rfl]
    omega
  rw [nbit, hset, Nat.mul_add_div hp, Nat.div_eq_of_lt hr]
  simp only [beq_iff_eq]
  omega

/-! ## Underruns (R152) -/

theorem Only.regsHeadsRinlar {s t : State} (h : Only (fun u => { u with regs := [], heads := [], rinlar := [] }) (fresh s) t) :
    t = { s with regs := t.regs, heads := t.heads, rinlar := t.rinlar, out := [] } :=
  congrArg (fun u => { u with regs := t.regs, heads := t.heads, rinlar := t.rinlar }) h

theorem layerStatus_ne_underrun (d e : Die) {n m l : Nat} (_hn : n < 4) (_hm : m < 4) (_hl : l < 16) : LAYER_STATUS d n l ≠ UNDERRUN_COUNT e m := by
  simp only [LAYER_STATUS, UNDERRUN_COUNT, dieSpace]
  cases d <;> cases e <;> simp only [Die.idx] <;> omega

theorem headNo_lt (h : Nat) : headNo h < 4 := Nat.mod_lt _ (by decide)

/-- The fetched lines of a head lose a layer from a line on. -/
theorem dropParts_eq (h l k frame : Nat) (s : State) : ∃ a, dropParts h l k frame s = setHead h { s.head h with ahead := a } s := ⟨_, rfl⟩

/-- An underrun's registers: the layer is off, and the head counts. -/
theorem underrun_rule (h line frame : Nat) {l : Nat} (hl : l < 16) (s : State) :
    Only (fun u => { u with regs := [], heads := [], rinlar := [] }) s (underrun h l line frame s)
      ∧ (underrun h l line frame s).flag (LAYER_STATUS (headDie h) (headNo h) l) LAYER_STATUS_OFF_UNDERRUN = true
      ∧ (if line = 0 then nbit ((underrun h l line frame s).head h).underNext l = true ∧ ((underrun h l line frame s).head h).underMask = (s.head h).underMask
          else nbit ((underrun h l line frame s).head h).underMask l = true ∧ ((underrun h l line frame s).head h).underFirst = min (s.head h).underFirst line)
      ∧ (underrun h l line frame s).rdF (UNDERRUN_COUNT (headDie h) (headNo h)) UNDERRUN_COUNT_COUNT
        = min (2 ^ 32 - 1) (s.rdF (UNDERRUN_COUNT (headDie h) (headNo h)) UNDERRUN_COUNT_COUNT + 1)
      ∧ ∀ a, a ≠ LAYER_STATUS (headDie h) (headNo h) l → a ≠ UNDERRUN_COUNT (headDie h) (headNo h) → (underrun h l line frame s).rd a = s.rd a := by
  have hne := layerStatus_ne_underrun (headDie h) (headDie h) (headNo_lt h) (headNo_lt h) hl
  obtain ⟨ah, ha⟩ := dropParts_eq h l line frame (wrB (LAYER_STATUS (headDie h) (headNo h) l) LAYER_STATUS_OFF_UNDERRUN true s)
  -- an underrun is one write of the layer's status, one of the head, one count, and one of the record
  have hshape : ∃ (y : Head) (r : Rinlar), underrun h l line frame s = setRin (headDie h) r (satF (UNDERRUN_COUNT (headDie h) (headNo h)) UNDERRUN_COUNT_COUNT 1
      (setHead h y (wrB (LAYER_STATUS (headDie h) (headNo h) l) LAYER_STATUS_OFF_UNDERRUN true s)))
      ∧ (if line = 0 then nbit y.underNext l = true ∧ y.underMask = (s.head h).underMask else nbit y.underMask l = true ∧ y.underFirst = min (s.head h).underFirst line) := by
    have hsame : ∀ (x y : Head) (t : State), setHead h y (setHead h x t) = setHead h y t := fun x y t => by rw [setHead, setHead, setHead, tset_tset]
    unfold underrun
    dsimp only
    rw [ha, head_setHead_same]
    by_cases h0 : line = 0
    · rw [if_pos h0, hsame]
      refine ⟨_, _, rfl, ?_⟩
      rw [if_pos h0]
      exact ⟨nbit_setBit_same _ _, rfl⟩
    · rw [if_neg h0, countUnderrun, head_setHead_same, hsame, hsame]
      refine ⟨_, _, rfl, ?_⟩
      rw [if_neg h0]
      exact ⟨nbit_setBit_same _ _, rfl⟩
  obtain ⟨y, r, hu, hy⟩ := hshape
  have hhead : (underrun h l line frame s).head h = y := by
    rw [hu]
    exact head_setHead_same h y _
  rw [hhead]
  rw [hu]
  refine ⟨(((Only.rfl.wrB _ _ _).setHead _ _).satF _ _ _).setRin _ _, ?_, hy, ?_, fun a h1 h2 => ?_⟩
  · rw [flag_setRin, flag_satF_ne hne, flag_setHead]
    exact flag_wrB_same _ _ _ _ (by decide) (by decide)
  · rw [rdF_of_rd (rd_setRin _ _ _ _), rdF_satF_same _ _ _ _ (by decide), rdF_setHead, rdF_wrB_ne hne.symm]
    rfl
  · rw [rd_setRin, rd_satF_ne h2, rd_setHead, rd_wrB_ne h1]

/-- A layer is late at a line's deadline. -/
def lateAt (s : State) (h line incomplete ecc m : Nat) : Prop :=
  nbit ecc m = true ∨ (nbit incomplete m = true ∧ ((s.head h).layer m).camera = 0)
    ∨ ∃ y, tfind line (s.head h).ahead = some y ∧ y.frame = s.headFrame h + (if line = 0 then 1 else 0) ∧ m ∈ y.waits

/-- A fold whose steps but one do nothing. -/
theorem foldl_once {α : Type} [DecidableEq α] {g : State → α → State} {xs : List α} {x : α} (hn : xs.Nodup) (hx : x ∈ xs) (s : State)
    (hg : ∀ y ∈ xs, y ≠ x → ∀ t, g t y = t) : xs.foldl g s = g s x := by
  induction xs generalizing s with
  | nil => cases hx
  | cons y ys ih =>
    obtain ⟨hy, hys⟩ := List.nodup_cons.1 hn
    have hrest : ∀ z ∈ ys, z ≠ x → ∀ t, g t z = t := fun z hz => hg z (List.mem_cons_of_mem _ hz)
    rw [List.foldl_cons]
    by_cases h : y = x
    · subst h
      have hall : ∀ (zs : List α) (t : State), (∀ z ∈ zs, z ≠ y ∧ ∀ t, g t z = t) → zs.foldl g t = t := by
        intro zs
        induction zs with
        | nil => exact fun _ _ => rfl
        | cons z zs ihz =>
          intro t hz
          obtain ⟨⟨-, h1⟩, h2⟩ := List.forall_mem_cons.1 hz
          rw [List.foldl_cons, h1]
          exact ihz t h2
      exact hall ys _ fun z hz => have hne : z ≠ y := fun e => hy (e ▸ hz); ⟨hne, hrest z hz hne⟩
    · rw [hg y (List.mem_cons_self ..) h]
      exact ih hys ((List.mem_cons.1 hx).resolve_left (Ne.symm h)) s hrest

theorem headFrame_fresh (s : State) (h : Nat) : (fresh s).headFrame h = s.headFrame h := rd64_of_rd (rd_fresh _ _) (rd_fresh _ _)
theorem headThrough_fresh (s : State) (h : Nat) : headThrough (fresh s) h = headThrough s h := flag_fresh _ _ _

/-- The deadline of a line but the last at which one visible layer is late: that layer underruns. -/
theorem layerDeadline_one {h line incomplete ecc l : Nat} {s : State} (hp : (s.head h).phase = 3) (ht : headThrough s h = true) (hv : line + 1 < (s.head h).vactive) (hl : l < 16)
    (hvis : visible s h l line ≠ []) (hlate : ∀ m, m < 16 → (m = l ↔ lateAt s h line incomplete ecc m)) :
    ∃ f, layerDeadline h line incomplete ecc s = underrun h l line f s ∨ layerDeadline h line incomplete ecc s = underrun h l line f (rinlarCount (headDie h) 27 1 s) := by
  obtain ⟨f, hf⟩ : ∃ f, f = s.headFrame h + b2n (line == 0) := ⟨_, rfl⟩
  obtain ⟨ws, hws⟩ : ∃ ws, ws = (match tfind line (s.head h).ahead with
      | some x => if x.frame = f then x.waits else []
      | none => []) := ⟨_, rfl⟩
  have hmem : ∀ m, m ∈ ws ↔ ∃ y, tfind line (s.head h).ahead = some y ∧ y.frame = s.headFrame h + (if line = 0 then 1 else 0) ∧ m ∈ y.waits := by
    have hf' : f = s.headFrame h + (if line = 0 then 1 else 0) := by
      rw [hf]
      by_cases h0 : line = 0 <;> simp [h0, b2n]
    intro m
    rw [hws, ← hf']
    cases tfind line (s.head h).ahead with
    | none => simp
    | some y =>
      by_cases hy : y.frame = f <;> simp [hy]
  have hiff : ∀ m, m < 16 → ((nbit ecc m || ws.contains m || (nbit incomplete m && ((s.head h).layer m).camera == 0)) = true ↔ m = l) := by
    intro m hm
    rw [hlate m hm, lateAt, ← hmem]
    simp only [Bool.or_eq_true, Bool.and_eq_true, List.contains_eq_mem, decide_eq_true_eq, beq_iff_eq]
    tauto
  refine ⟨f, ?_⟩
  have hgo : layerDeadline h line incomplete ecc s = underrun h l line f (if nbit ecc l = true ∧ ((s.head h).layer l).camera ≠ 0 then rinlarCount (headDie h) 27 1 s else s) := by
    unfold layerDeadline
    dsimp only
    rw [if_neg (by rw [hp, ht]; simp; omega), if_neg (by omega), ← hf]
    refine (foldl_once (x := l) (List.nodup_range) (List.mem_range.2 hl) s fun m hm hne t => if_neg fun hc => ?_).trans (if_pos ⟨?_, hvis⟩)
    · obtain ⟨hc, -⟩ := hc
      refine hne ((hiff m (List.mem_range.1 hm)).1 ?_)
      rw [hws]
      exact hc
    · have hll := (hiff l hl).2 rfl
      rw [hws] at hll
      exact hll
  rw [hgo]
  split
  · exact .inr rfl
  · exact .inl rfl

theorem layerGeo_fresh (s : State) (h l : Nat) : layerGeo (fresh s) h l = layerGeo s h l := by
  have hoff : layerOff (fresh s) h l = layerOff s h l := by rw [layerOff, layerOff, flag_fresh, flag_fresh]
  unfold layerGeo
  rw [hoff]
  rfl

theorem visible_fresh (s : State) (h l k : Nat) : visible (fresh s) h l k = visible s h l k := by
  unfold visible
  simp only [layerGeo_fresh, flag_fresh, head_fresh]

theorem layerDeadline_rule (h line incomplete ecc l : Nat) (s : State) (hp : (s.head h).phase = 3) (ht : headThrough s h = true) (hv : line + 1 < (s.head h).vactive) (hl : l < 16)
    (hvis : visible s h l line ≠ []) (hlate : ∀ m, m < 16 → (m = l ↔ lateAt s h line incomplete ecc m)) :
    ∃ t, exec (.layerDeadline h line ⟨incomplete, ecc⟩) s = .next t ∧ t = { s with regs := t.regs, heads := t.heads, rinlar := t.rinlar, out := [] }
      ∧ t.flag (LAYER_STATUS (headDie h) (headNo h) l) LAYER_STATUS_OFF_UNDERRUN = true
      ∧ (if line = 0 then nbit (t.head h).underNext l = true ∧ (t.head h).underMask = (s.head h).underMask
          else nbit (t.head h).underMask l = true ∧ (t.head h).underFirst = min (s.head h).underFirst line)
      ∧ t.rdF (UNDERRUN_COUNT (headDie h) (headNo h)) UNDERRUN_COUNT_COUNT = min (2 ^ 32 - 1) (s.rdF (UNDERRUN_COUNT (headDie h) (headNo h)) UNDERRUN_COUNT_COUNT + 1)
      ∧ ∀ a, a ≠ LAYER_STATUS (headDie h) (headNo h) l → a ≠ UNDERRUN_COUNT (headDie h) (headNo h) → t.rd a = s.rd a := by
  have hgo := layerDeadline_one (s := fresh s) (incomplete := incomplete) (ecc := ecc) hp ((headThrough_fresh _ _).trans ht) hv hl (by rw [visible_fresh]; exact hvis) fun m hm =>
    (hlate m hm).trans (by rw [lateAt, lateAt, headFrame_fresh]; exact Iff.rfl)
  have hcounted : Only (fun u => { u with regs := [], heads := [], rinlar := [] }) (fresh s) (rinlarCount (headDie h) 27 1 (fresh s)) := Only.rfl.setRin _ _
  have hrd : ∀ a, (rinlarCount (headDie h) 27 1 (fresh s)).rd a = s.rd a := fun a => (rd_setRin _ _ _ _).trans (rd_fresh _ _)
  obtain ⟨f, hgo | hgo⟩ := hgo
  · obtain ⟨h1, h2, h3, h4, h5⟩ := underrun_rule h line f hl (fresh s)
    refine ⟨_, congrArg Host.Outcome.next (h1.ran hgo), h1.regsHeadsRinlar, h2, h3, ?_, fun a ha hb => (h5 a ha hb).trans (rd_fresh _ _)⟩
    rw [h4, rdF_fresh]
  · obtain ⟨h1, h2, h3, h4, h5⟩ := underrun_rule h line f hl (rinlarCount (headDie h) 27 1 (fresh s))
    refine ⟨_, congrArg Host.Outcome.next ((hcounted.trans h1).ran hgo), (hcounted.trans h1).regsHeadsRinlar, h2, h3, ?_, fun a ha hb => (h5 a ha hb).trans (hrd a)⟩
    rw [h4, rdF_of_rd (hrd _)]

/-! ## The pixel PLL (R157) -/

theorem islandXings_display {n : Nat} (hn : n < 4) : islandXings n = displayXings n := by
  have hall : ∀ n < 4, islandXings n = displayXings n := by decide
  exact hall n hn

theorem mem_displayXings {n m : Nat} : m ∈ displayXings n ↔ ∃ i, i < 8 ∧ m = 8 * n + i := by
  simp only [displayXings, upto, List.mem_map, List.mem_range]
  exact ⟨fun ⟨i, hi, h⟩ => ⟨i, hi, h.symm⟩, fun ⟨i, hi, h⟩ => ⟨i, hi, h.symm⟩⟩

theorem displayXings_le {n : Nat} (hn : n < 4) : ∀ m ∈ displayXings n, m ≤ 0xFF := fun m hm => by
  obtain ⟨i, hi, rfl⟩ := mem_displayXings.1 hm
  omega

theorem xing_ne_headStatus {d e : Die} {n m : Nat} (_hn : n < 4) (_hm : m ≤ 0xFF) : HEAD_STATUS d n ≠ XING_COUNT e m ∧ HEAD_STATUS d n ≠ XING_STATUS e m := by
  simp only [HEAD_STATUS, XING_COUNT, XING_STATUS, dieSpace]
  cases d <;> cases e <;> simp only [Die.idx] <;> omega

theorem pixelPllLost_rule (h : Nat) (s : State) (hh : h < 8) (hp : 2 ≤ (s.head h).phase) :
    ∃ t, exec (.pixelPllLost h) s = .next t ∧ t = { s with regs := t.regs, xings := t.xings, out := [] } ∧ t.flag (HEAD_STATUS (headDie h) (headNo h)) HEAD_STATUS_PLL_LOST = true
      ∧ (∀ i, i < 8 → (t.xing (headDie h) (8 * headNo h + i)).stopped = true) ∧ ∀ a, a ≠ HEAD_STATUS (headDie h) (headNo h) → t.rd a = s.rd a := by
  have hn := headNo_lt h
  obtain ⟨ho, hx⟩ := haltXings_rule (headDie h) (displayXings (headNo h)) (displayXings_le hn) (wrB (HEAD_STATUS (headDie h) (headNo h)) HEAD_STATUS_PLL_LOST true (fresh s))
  have hend : Only (fun u => { u with regs := [], xings := [] }) (fresh s) _ := (Only.rfl.wrB _ _ _).trans ho.mono
  have hgo : pllLost h (fresh s) = haltXings (headDie h) (displayXings (headNo h)) (wrB (HEAD_STATUS (headDie h) (headNo h)) HEAD_STATUS_PLL_LOST true (fresh s)) :=
    if_neg (by rw [head_fresh]; omega)
  refine ⟨_, congrArg Host.Outcome.next (hend.ran hgo), hend.regsXings, ?_, fun i hi => ?_, fun a ha => ?_⟩
  · rw [flag_of_rd (ho.rd_eq _)]
    exact flag_wrB_same _ _ _ _ (by decide) (by decide)
  · rw [hx _ (by omega), if_pos (mem_displayXings.2 ⟨i, hi, rfl⟩)]
  · rw [ho.rd_eq, rd_wrB_ne ha, rd_fresh]

theorem pixelPllRelock_rule (h : Nat) (s : State) (hl : s.flag (HEAD_STATUS (headDie h) (headNo h)) HEAD_STATUS_PLL_LOST = true) :
    ∃ t, exec (.pixelPllRelock h) s = .next t ∧ t = { s with regs := t.regs, xings := t.xings, out := [] } ∧ t.flag (HEAD_STATUS (headDie h) (headNo h)) HEAD_STATUS_PLL_LOST = false
        ∧ (∀ i, i < 8 → (t.xing (headDie h) (8 * headNo h + i)).stopped = false
            ∧ ((s.xing (headDie h) (8 * headNo h + i)).stopped = true → (s.xing (headDie h) (8 * headNo h + i)).sent ≠ 0 →
                t.rdF (XING_COUNT (headDie h) (8 * headNo h + i)) XING_COUNT_LAST_COUNT = (s.xing (headDie h) (8 * headNo h + i)).sent % 2 ^ 16))
        ∧ ∀ a, a ≠ HEAD_STATUS (headDie h) (headNo h) →
            (∀ i, i < 8 → a ≠ XING_COUNT (headDie h) (8 * headNo h + i) ∧ a ≠ XING_STATUS (headDie h) (8 * headNo h + i)) → t.rd a = s.rd a := by
  have hn := headNo_lt h
  obtain ⟨u, hu⟩ : ∃ u, u = wrB (HEAD_STATUS (headDie h) (headNo h)) HEAD_STATUS_PLL_LOST false (fresh s) := ⟨_, rfl⟩
  have hux : ∀ n, u.xing (headDie h) n = s.xing (headDie h) n := fun n => by rw [hu]; rfl
  obtain ⟨ho, hx, hc, hrd⟩ := xingsResume_rule (headDie h) (displayXings (headNo h)) (displayXings_le hn) u
  have hend : Only (fun v => { v with regs := [], xings := [] }) (fresh s) _ := Only.trans (by rw [hu]; exact Only.rfl.wrB _ _ _) ho
  have hgo : pllRelock h (fresh s) = (displayXings (headNo h)).foldl (fun t n => xingResumes (headDie h) n t) u := by
    rw [pllRelock, if_pos ((flag_fresh _ _ _).trans hl), ← islandXings_display hn, hu]
    rfl
  refine ⟨_, congrArg Host.Outcome.next (hend.ran hgo), hend.regsXings, ?_, fun i hi => ⟨?_, fun hst hse => ?_⟩, fun a ha hax => ?_⟩
  · rw [flag_of_rd (hrd _ fun n hin => xing_ne_headStatus hn (displayXings_le hn n hin)), hu]
    exact flag_wrB_same _ _ _ _ (by decide) (by decide)
  · rw [hx _ (by omega), if_pos (mem_displayXings.2 ⟨i, hi, rfl⟩)]
  · rw [← hux] at hst hse ⊢
    exact (hc _ (mem_displayXings.2 ⟨i, hi, rfl⟩) hst hse).1
  · refine (hrd a fun n hin => ?_).trans ?_
    · obtain ⟨i, hi, rfl⟩ := mem_displayXings.1 hin
      exact hax i hi
    · rw [hu, rd_wrB_ne ha, rd_fresh]

/-! ## The frame tier's scrub (R145) -/

theorem Only.regsRinlarFresh {s t : State} (h : Only (fun u => { u with regs := [], rinlar := [] }) (fresh s) t) : t = { s with regs := t.regs, rinlar := t.rinlar, out := [] } :=
  congrArg (fun u => { u with regs := t.regs, rinlar := t.rinlar }) h

theorem ftPatrolScrub_rule (d : Die) (corr : Nat) (s : State) (hp : s.rdF (FT_SCRUB d) FT_SCRUB_PERIOD_S ≠ 0) (hr : s.inReset.contains .frameTier = false) (hc : corr ≠ 0) :
    ∃ t, exec (.ftPatrolScrub d corr []) s = .next t ∧ t = { s with regs := t.regs, rinlar := t.rinlar, out := [] }
      ∧ t.rdF (FT_ECC_CORR d) FT_ECC_CORR_COUNT = min (2 ^ FT_ECC_CORR_COUNT.len - 1) (s.rdF (FT_ECC_CORR d) FT_ECC_CORR_COUNT + corr) ∧ ∀ a, a ≠ FT_ECC_CORR d → t.rd a = s.rd a := by
  have hgo : ftScrub d corr [] (fresh s) = rinlarCount d 24 corr (satF (FT_ECC_CORR d) FT_ECC_CORR_COUNT corr (fresh s)) := by
    rw [ftScrub, if_neg (by rw [rdF_fresh, show (fresh s).inReset.contains .frameTier = false from hr]; simpa using hp), ftEcc]
    dsimp only
    rw [if_neg hc]
    rfl
  have hend : Only (fun u => { u with regs := [], rinlar := [] }) (fresh s) (rinlarCount d 24 corr (satF (FT_ECC_CORR d) FT_ECC_CORR_COUNT corr (fresh s))) :=
    (Only.rfl.satF _ _ _).setRin _ _
  refine ⟨_, congrArg Host.Outcome.next (hend.ran hgo), hend.regsRinlarFresh, ?_, fun a ha => ?_⟩
  · rw [rinlarCount, rinlarAdd, rdF_of_rd (rd_setRin _ _ _ _), rdF_satF_same _ _ _ _ (by decide), rdF_fresh]
  · exact (rd_setRin _ _ _ _).trans ((rd_satF_ne ha _ _ _).trans (rd_fresh _ _))

/-- Settles O36: the one layer that is late, the crossings of an island without its clock, and the corrected words. -/
theorem displayFaultsAreReported : Obligations.DisplayFaultsAreReported :=
  ⟨fun h line incomplete ecc l s hp ht hv hl hvis hlate => layerDeadline_rule h line incomplete ecc l s hp ht hv hl hvis hlate,
    fun h s hh hp => ⟨pixelPllLost_rule h s hh hp, pixelPllRelock_rule h s⟩, ftPatrolScrub_rule⟩

end Sys2Proof.Machine
end

section
/-! Compose passes (R148). -/
namespace Sys2Proof.Machine

/-! ## What a fetch keeps of its head -/

/-- The routes and tenants, and the frame that a head is fed, are as they were. -/
def SameFed (h : Nat) (s t : State) : Prop := t.routes = s.routes ∧ t.tenants = s.tenants ∧ (t.head h).fed = (s.head h).fed

namespace SameFed
variable {h : Nat} {s t u : State}

theorem rfl : SameFed h s s := ⟨Eq.refl _, Eq.refl _, Eq.refl _⟩
theorem trans (a : SameFed h s t) (b : SameFed h t u) : SameFed h s u := ⟨b.1.trans a.1, b.2.1.trans a.2.1, b.2.2.trans a.2.2⟩
theorem of_heads (a : t.heads = s.heads) (hr : t.routes = s.routes := by exact Eq.refl _) (ht : t.tenants = s.tenants := by exact Eq.refl _) : SameFed h s t :=
  ⟨hr, ht, congrArg (fun x => (tget Head.empty h x).fed) a⟩
theorem of_posts (a : Posts False s t) : SameFed h s t := of_heads (congrArg State.heads a.fields :) (congrArg State.routes a.fields :) (congrArg State.tenants a.fields :)
theorem of_only (a : Only (fun u => { u with regs := [] }) s t) : SameFed h s t := of_heads (congrArg State.heads a :) (congrArg State.routes a :) (congrArg State.tenants a :)
theorem setHead (x : Head) (a : x.fed = (s.head h).fed) : SameFed h s (setHead h x s) := ⟨Eq.refl _, Eq.refl _, (congrArg Head.fed (head_setHead_same h x s)).trans a⟩
theorem setLayer (l : Nat) (y : Layer) (s : State) : SameFed h s (setLayer h l y s) := setHead _ (Eq.refl _)
theorem post (f : Fun) (e : Event) (s : State) : SameFed h s (post f e s) := of_posts (posts_post False.elim e s)
theorem ite {p : Prop} [Decidable p] (a : SameFed h s t) (b : SameFed h s u) : SameFed h s (if p then t else u) := by
  split
  · exact a
  · exact b
theorem foldl {α : Type} {g : State → α → State} (xs : List α) (hg : ∀ x t, SameFed h t (g t x)) (s : State) : SameFed h s (xs.foldl g s) := by
  induction xs generalizing s with
  | nil => exact rfl
  | cons x xs ih => exact (hg x s).trans (ih _)
theorem counted (a : SameFed h s t) (g : Nat) (f : Fld) (n : Nat) (d : Die) (w k : Nat) : SameFed h s (rinlarCount d w k (satF g f n t)) := a.trans (of_heads (Eq.refl _))
theorem snd {α : Type} {x : α × State} {a : α} (hm : x = (a, t)) (hx : SameFed h s x.2) : SameFed h s t := by
  rw [hm] at hx
  exact hx

end SameFed

variable {h : Nat}

/-- A poisoned word that was read is counted and recorded. -/
def poisonNoted (f : Fun) (key port : Nat) (s : State) : State :=
  let m := localDie (key - localKey 0)
  let off := localOff (key - localKey 0)
  let s1 := satF (DRAM_ECC_POISON m) DRAM_ECC_POISON_COUNT 1 s
  if s1.flag (DRAM_ECC_INFO m) DRAM_ECC_INFO_VALID then s1
  else s1 |> wrB (DRAM_ECC_INFO m) DRAM_ECC_INFO_VALID true |> wrB (DRAM_ECC_INFO m) DRAM_ECC_INFO_POISON true
          |> wrB (DRAM_ECC_INFO m) DRAM_ECC_INFO_SCRUB false |> wrF (DRAM_ECC_INFO m) DRAM_ECC_INFO_CH (Nat.xor (Nat.xor (off / 2 ^ 8 % 8) (off / 2 ^ 13 % 8)) (off / 2 ^ 18 % 8))
          |> wrF (DRAM_ECC_INFO m) DRAM_ECC_INFO_PORT port |> wrF (DRAM_ECC_INFO m) DRAM_ECC_INFO_FUNC f.fn
          |> wrF (DRAM_ECC_INFO m) DRAM_ECC_INFO_EP (b2n (f.ep != m)) |> wr64 (DRAM_ECC_ADDR_LO m) (off / 4 * 4)

theorem poisonNoted_only (f : Fun) (key port : Nat) (s : State) : Only (fun u => { u with regs := [] }) s (poisonNoted f key port s) := by
  unfold poisonNoted
  dsimp only
  have h1 := Only.rfl (m := fun u => { u with regs := [] }) (s := s)
  exact .ite (h1.satF _ _ _) (((((((((h1.satF _ _ _).wrB _ _ _).wrB _ _ _).wrB _ _ _).wrF _ _ _).wrF _ _ _).wrF _ _ _).wrF _ _ _).wr _ _ |>.wr _ _)

theorem poisonRead_fed (f : Fun) (key port : Nat) (s : State) : SameFed h s (poisonRead f key port s) := by
  unfold poisonRead
  dsimp only
  have hs : ∀ {t : State}, SameFed h s t → ∀ d a b c, SameFed h s (postPf0 d a b c t) := fun ht d a b c => ht.trans (.post _ _ _)
  have h1 : SameFed h s (poisonNoted f key port s) := .of_only (poisonNoted_only f key port s)
  exact .ite ((hs h1 _ _ _ _).trans (.post _ _ _)) (hs h1 _ _ _ _)

theorem dmaReadP_fed (d : Die) (f : Fun) (ring va n port : Nat) (s : State) : SameFed h s (dmaReadP d f ring va n port s).2 := by
  have hx := posts_xlateRange (ok := False) d f false (n / 4096 + 2) va n s
  unfold dmaReadP
  split
  · next hm =>
    rw [hm] at hx
    exact .of_posts (hx.trans (posts_faultSeen False.elim _ _ _ _ _))
  · next hm =>
    rw [hm] at hx
    exact .of_posts hx
  · next hm =>
    rw [hm] at hx
    split
    · exact .of_posts hx
    · exact SameFed.trans (.of_posts hx) (poisonRead_fed _ _ _ _)

theorem readUnits_fed (d : Die) (f : Fun) (ring port : Nat) (old : Tab (List Byte)) (us : List (Nat × Nat)) (bl got : Tab (List Byte)) (s : State) :
    SameFed h s (readUnits d f ring port old us bl got s).2 := by
  induction us generalizing bl got s with
  | nil => exact .rfl
  | cons x us ih =>
    obtain ⟨a, n⟩ := x
    unfold readUnits
    dsimp only
    split
    · exact ih _ _ _
    · exact ih _ _ _
    · exact ih _ _ _
    · have hr := dmaReadP_fed (h := h) d f ring (a / 64 * 64) 64 port s
      split
      · next hm =>
        rw [hm] at hr
        exact hr
      · next hm =>
        rw [hm] at hr
        exact hr
      · next hm =>
        rw [hm] at hr
        exact hr.trans (ih _ _ _)

theorem postLayer_fed (g l typ payload : Nat) (s : State) : SameFed h s (postLayer g l typ payload s) := by
  unfold postLayer
  dsimp only
  split
  · exact .ite (.post _ _ _) ((SameFed.post _ _ _).trans (.post _ _ _))
  · exact .post _ _ _

theorem layerFault_fed (g l k frame : Nat) (e : DmaErr) (s : State) : SameFed h s (layerFault g l k frame e s) :=
  SameFed.trans (.of_heads rfl) (postLayer_fed _ _ _ _ _)

theorem fetchCommit_fed (k frame l : Nat) (g : Geo) (c : Commit) (s : State) : SameFed h s (fetchCommit h k frame l g c s).2 := by
  unfold fetchCommit
  dsimp only
  split
  · next hm => exact SameFed.trans (.snd hm (readUnits_fed _ _ _ _ _ _ _ _ _)) (layerFault_fed _ _ _ _ _ _)
  · next hm => exact SameFed.trans (.snd hm (readUnits_fed _ _ _ _ _ _ _ _ _)) (.setLayer _ _ _)

theorem readFrame_fed (d : Die) (ss : List (Nat × Taps × Taps × Nat)) (acc : Except DmaErr (Tab (Tab (List Byte))) × State) (i : Nat) :
    SameFed h acc.2 (readFrame d ss acc i).2 := by
  unfold readFrame
  dsimp only
  split
  · split
    · exact .rfl
    · split
      · next hm => exact SameFed.snd hm (readUnits_fed _ _ _ _ _ _ _ _ _)
      · next hm => exact SameFed.snd hm (readUnits_fed _ _ _ _ _ _ _ _ _)
  · exact .rfl

theorem readFrames_fed (d : Die) (ss : List (Nat × Taps × Taps × Nat)) (is : List Nat) (acc : Except DmaErr (Tab (Tab (List Byte))) × State) :
    SameFed h acc.2 (is.foldl (readFrame d ss) acc).2 := by
  induction is generalizing acc with
  | nil => exact .rfl
  | cons i is ih => exact (readFrame_fed d ss acc i).trans (ih _)

theorem warpParts_fed (k l : Nat) (g : Geo) (r : Route) (is : List (Int × Int)) (s : State) : SameFed h s (warpParts s h k l g r is).2 := by
  unfold warpParts
  dsimp only
  split
  · exact .rfl
  · split
    · split
      · next hm => exact SameFed.snd hm (readFrames_fed _ _ _ _)
      · next hm => exact SameFed.snd hm (readFrames_fed _ _ _ _)
    · exact .rfl

theorem latchFrames_fed (l : Nat) (r : Route) (s : State) : SameFed h s (latchFrames h l r s) := .ite .rfl (.setLayer _ _ _)

theorem fetchCamera_fed (k frame l : Nat) (g : Geo) (s : State) : SameFed h s (fetchCamera h k frame l g s).2.2 := by
  unfold fetchCamera
  split
  · exact .rfl
  · exact .rfl
  · next r _ _ =>
    dsimp only
    refine SameFed.trans (latchFrames_fed l r s) ?_
    split
    · have hw := warpParts_fed (h := h) k l g r (visible s h l k) (latchFrames h l r s)
      split
      · next hm =>
        rw [hm] at hw
        exact hw.trans (layerFault_fed _ _ _ _ _ _)
      · next hm =>
        rw [hm] at hw
        exact hw
      · next hm =>
        rw [hm] at hw
        exact hw
    · split
      · exact .rfl
      · exact .rfl

theorem fetchLayer_fed (k frame : Nat) (x : FtLine × State) (l : Nat) : SameFed h x.2 (fetchLayer h k frame x l).2 := by
  unfold fetchLayer
  split
  · exact .rfl
  · split
    · split
      · exact .rfl
      · exact fetchCommit_fed _ _ _ _ _ _
    · exact fetchCamera_fed _ _ _ _ _

theorem chargeLine_fed (k frame : Nat) (s : State) : SameFed h s (chargeLine h k frame s) := by
  unfold chargeLine
  dsimp only
  refine .ite (SameFed.trans (t := Machine.setHead h _ s) ?_ (.post _ _ _)) ?_
  · exact .setHead _ rfl
  · exact .setHead _ rfl

theorem fetchLine_fed (k frame : Nat) (s : State) : SameFed h s (fetchLine h k frame s).2 := by
  have hfold : ∀ (ls : List Nat) (x : FtLine × State), SameFed h x.2 (ls.foldl (fetchLayer h k frame) x).2 := by
    intro ls
    induction ls with
    | nil => exact fun _ => .rfl
    | cons l ls ih => exact fun x => (fetchLayer_fed k frame x l).trans (ih _)
  exact (chargeLine_fed k frame s).trans (hfold _ (_, _))

theorem underrun_fed (l line frame : Nat) (s : State) : SameFed h s (underrun h l line frame s) := by
  have hs : SameFed h s (dropParts h l line frame (wrB (LAYER_STATUS (headDie h) (headNo h) l) LAYER_STATUS_OFF_UNDERRUN true s)) :=
    SameFed.trans (.of_heads rfl) (.setHead _ rfl)
  refine hs.trans (.ite ?_ ?_)
  · refine .counted ?_ _ _ _ _ _ _
    exact .setHead _ rfl
  · refine .counted (SameFed.trans ?_ (.setHead _ ?_)) _ _ _ _ _ _
    · exact .setHead _ rfl
    · rfl


/-! ## The window opens -/

theorem head_wrB (h a : Nat) (f : Fld) (b : Bool) (s : State) : (wrB a f b s).head h = s.head h := rfl

theorem anyPending_fresh (s : State) (h : Nat) : anyPending (fresh s) h = anyPending s h := by
  have hf : ∀ y, layerFrozen (fresh s) y = layerFrozen s y := fun y => by
    unfold layerFrozen frozen
    simp only [flag_fresh]
    rfl
  unfold anyPending
  simp only [hf, head_fresh]

/-- A head whose pass begins at line 0, for frame `f`. -/
def passBegun (y : Head) (f : Nat) : Head :=
  { y with pass := some (0, f), recompose := false, opening := false, ftWidth := y.hactive,
           mode := y.mode.map (fun m => if m.wait = 0 then { m with passed := true } else m), pendColour := y.pendColour.map (fun c => (c.1, c.2.1, 1)) }

/-- With something to take, the pass begins at line 0 of the next frame. -/
theorem windowOpen_begins {h : Nat} {s : State} (hp : (s.head h).phase = 3) (ht : headThrough s h = false) (hno : (s.head h).pass = none)
    (ho : (s.head h).opening = true) (hany : anyPending s h = true ∨ (s.head h).recompose = true) :
    ∃ (y : Head) (u : State), windowOpen h s = wrB (HEAD_STATUS (headDie h) (headNo h)) HEAD_STATUS_COMPOSING true
      (freshLayers h (setHead h (passBegun y (s.headFrame h + 1)) u)) := by
  refine ⟨(takeAll h (s.headFrame h + 1) 0 .window s).head h, takeAll h (s.headFrame h + 1) 0 .window s, ?_⟩
  unfold windowOpen
  dsimp only
  rw [if_neg (by rw [hp, ho]; simp), if_neg (by rw [ht, hno]; simp), if_pos (hany.imp_right .inl)]
  rfl

/-- The layers of a head begin anew; the rest of the head is as it was. -/
theorem head_freshLayers (h : Nat) (s : State) : ∃ ls, (freshLayers h s).head h = { s.head h with layers := ls } := by
  have hon : ∀ (ls : List Nat) (t : State), (ls.foldl (fun t l =>
      t |> wrB (LAYER_STATUS (headDie h) (headNo h) l) LAYER_STATUS_OFF_UNDERRUN false
        |> wrB (LAYER_STATUS (headDie h) (headNo h) l) LAYER_STATUS_OFF_FAULT false) t).head h = t.head h := by
    intro ls
    induction ls with
    | nil => exact fun _ => rfl
    | cons l ls ih => exact fun t => (ih _).trans rfl
  exact ⟨_, (hon _ _).trans (head_setHead_same _ _ _)⟩

theorem composeWindowOpen_rule (h : Nat) (s : State) (hp : (s.head h).phase = 3) (ht : headThrough s h = false) (hm : (s.head h).mode = none) (hno : (s.head h).pass = none) :
    ((s.head h).opening = false → exec (.composeWindowOpen h) s = .next (fresh s))
    ∧ ((s.head h).opening = true → anyPending s h = false → (s.head h).recompose = false →
      exec (.composeWindowOpen h) s = .next (ran (setHead h { s.head h with opening := false }) s))
    ∧ ((s.head h).opening = true → anyPending s h = true ∨ (s.head h).recompose = true →
      ∃ t, exec (.composeWindowOpen h) s = .next t ∧ (t.head h).pass = some (0, s.headFrame h + 1) ∧ (t.head h).recompose = false ∧ (t.head h).opening = false
        ∧ t.flag (HEAD_STATUS (headDie h) (headNo h)) HEAD_STATUS_COMPOSING = true) := by
  refine ⟨fun ho => ?_, fun ho hany hre => ?_, fun ho hany => ?_⟩
  · have hsame : windowOpen h (fresh s) = fresh s := if_pos (.inr ho)
    exact congrArg Host.Outcome.next (ran_same hsame)
  · refine congrArg Host.Outcome.next (ran_congr ?_)
    unfold windowOpen
    dsimp only
    rw [headThrough_fresh, anyPending_fresh, head_fresh, if_neg (by rw [hp, ho]; simp), if_neg (by rw [ht, hno]; simp), if_neg (by rw [hany, hre, hm]; simp)]
  · obtain ⟨y, u, hgo⟩ := windowOpen_begins (s := fresh s) hp ((headThrough_fresh s h).trans ht) hno ho (by rw [anyPending_fresh]; exact hany)
    rw [headFrame_fresh] at hgo
    obtain ⟨ls, hls⟩ := head_freshLayers h (setHead h (passBegun y (s.headFrame h + 1)) u)
    have hhead : (ran (windowOpen h) s).head h = { passBegun y (s.headFrame h + 1) with layers := ls } := by
      rw [show (ran (windowOpen h) s).head h = (windowOpen h (fresh s)).head h from rfl, hgo, head_wrB, hls, head_setHead_same]
    refine ⟨ran (windowOpen h) s, rfl, ?_, ?_, ?_, ?_⟩
    · rw [hhead]
      rfl
    · rw [hhead]
      rfl
    · rw [hhead]
      rfl
    · rw [flag_of_rd (ran_rd _ _ _), hgo]
      exact flag_wrB_same _ _ _ _ (by decide) (by decide)

/-! ## A line of the pass -/

/-- The composer has turned to the next line: on line 0 the head is fed by the pass. -/
def lineTurned (h j f : Nat) (s : State) : State :=
  if j = 0 then
    let t := setHead h { s.head h with taken := [] } s
    let u := formPresets h ((s.head h).taken.foldl (fun u k => finishPart k true (commitDetail f 0) u) t)
    setHead h { u.head h with fed := f } u
  else s

theorem composeLine_eq {h j f : Nat} {s : State} (hp : (s.head h).pass = some (j, f)) (hj : j < (s.head h).vactive)
    (hq : nbit (s.rd (BLOCK_QUIESCE (headDie h))).toNat bitComposer = false) :
    ∃ (u : State) (l : FtLine) (ws : List Nat) (t : State), t = ws.foldl (fun t m => underrun h m j f t) (fetchLine h j f (lineTurned h j f u)).2
      ∧ composeLine h s = setHead h { t.head h with writing := some (j, l), pass := some (j + 1, f) } t := by
  unfold composeLine
  rw [hp]
  dsimp only
  rw [if_neg (by rw [hq]; simp; omega)]
  exact ⟨_, _, _, _, rfl, rfl⟩

theorem composeLine_rule (h j f : Nat) (s : State) (hp : (s.head h).pass = some (j, f)) (hj : j < (s.head h).vactive)
    (hq : nbit (s.rd (BLOCK_QUIESCE (headDie h))).toNat bitComposer = false) :
    ∃ t, exec (.composeLine h) s = .next t ∧ (t.head h).pass = some (j + 1, f) ∧ (∃ l, (t.head h).writing = some (j, l))
      ∧ (j = 0 → (t.head h).fed = f) := by
  obtain ⟨u, l, ws, t, ht, hgo⟩ := composeLine_eq (s := fresh s) hp hj (by rw [rd_fresh]; exact hq)
  obtain ⟨-, -, hfed⟩ : SameFed h (lineTurned h j f u) t := by
    rw [ht]
    exact (fetchLine_fed j f _).trans (.foldl _ (fun m v => underrun_fed m j f v) _)
  have hhead : (ran (composeLine h) s).head h = { t.head h with writing := some (j, l), pass := some (j + 1, f) } := by
    rw [show (ran (composeLine h) s).head h = (composeLine h (fresh s)).head h from rfl, hgo]
    exact head_setHead_same _ _ _
  refine ⟨_, rfl, ?_, ⟨l, ?_⟩, fun h0 => ?_⟩
  · rw [hhead]
  · rw [hhead]
  · rw [hhead]
    refine Eq.trans hfed ?_
    rw [lineTurned, if_pos h0]
    exact congrArg Head.fed (head_setHead_same _ _ _)

/-! ## The pass ends -/

theorem flushLine_writing (x : Head) : (flushLine x).writing = none ∧ (flushLine x).vactive = x.vactive := by
  unfold flushLine
  split
  · exact ⟨rfl, rfl⟩
  · next h => exact ⟨h, rfl⟩

theorem Only.heads {s t : State} (h : Only (fun u => { u with heads := [] }) (fresh s) t) : t = { s with heads := t.heads, out := [] } :=
  congrArg (fun u => { u with heads := t.heads }) h

/-- A head whose pass is over. -/
def passOver (x : Head) : Head := { flushLine x with pass := none, passLate := false, ft := tkeep (fun k => decide (k < (flushLine x).vactive)) (flushLine x).ft }

/-- Settles O35: the window that opens, each line of a pass, and its end. -/
theorem composePass : Obligations.ComposePass := by
  refine ⟨composeWindowOpen_rule, composeLine_rule, fun h j f s hp hj => ?_⟩
  have hend : ∀ x, Only (fun u => { u with heads := [] }) (fresh s) (setHead h x (fresh s)) := fun x => Only.rfl.setHead _ _
  refine ⟨setHead h (passOver (s.head h)) (fresh s), ⟨?_, ?_, (hend _).heads⟩, congrArg Host.Outcome.next (ran_congr ?_)⟩
  · rw [head_setHead_same]
    rfl
  · rw [head_setHead_same]
    exact (flushLine_writing _).1
  · unfold passEnd
    rw [head_fresh, hp]
    dsimp only
    rw [if_neg (Nat.not_lt.2 hj)]
    rfl

end Sys2Proof.Machine
end

section
/-! Ports and genlock (R138–R140, R153–R156). -/
namespace Sys2Proof.Machine

/-- What posting leaves as it was: the heads. -/
theorem Posted.head {s t : State} (h : Posted s t) (k : Nat) : t.head k = s.head k :=
  congrArg (tget Head.empty k) (congrArg State.heads h :)

/-! ## Link training and HPD (R138) -/

theorem port_fresh (s : State) (k : Nat) : (fresh s).port k = s.port k := rfl
theorem port_setPort_same (k : Nat) (x : Port) (s : State) : (setPort k x s).port k = x := tget_tset_same _ _ _ _

theorem Only.setPort {m : State → State} {s t : State} (h : Only m s t) (k : Nat) (x : Port)
    (hm : ∀ u r, m { u with ports := r } = m u := by intros; rfl) : Only m s (setPort k x t) := (hm _ _).trans h

theorem Only.regsPorts {s t : State} (h : Only (fun u => { u with regs := [], ports := [] }) (fresh s) t) : t = { s with regs := t.regs, ports := t.ports, out := [] } :=
  congrArg (fun u => { u with regs := t.regs, ports := t.ports }) h

theorem portKhz_fresh (s : State) (d : Die) (p : Nat) : portKhz (fresh s) d p = portKhz s d p := by
  simp only [portKhz, portHeads, rdF_fresh, flag_fresh]

theorem rate_lt {r : Nat} (h : rateKbps r ≠ 0) : r < 16 := by
  by_contra hc
  refine h ?_
  unfold rateKbps
  split
  all_goals omega

/-- A port whose link is up at a setting. -/
def linkedUp (d : Die) (p rate lanes : Nat) (s : State) : State :=
  s |> wrB (PORT_STATUS d p) PORT_STATUS_LINK_UP true |> wrF (PORT_STATUS d p) PORT_STATUS_TRAINED_RATE rate |> wrF (PORT_STATUS d p) PORT_STATUS_TRAINED_LANES lanes

theorem linkTrained_none {k : Nat} {s : State} (h : (s.port k).train = true) :
    linkTrained k none s = postPortLink (dieOf 4 k) (k % 4) 2 0 0 (linkDown (dieOf 4 k) (k % 4) (setPort k { s.port k with train := false } s)) :=
  if_neg (by rw [h]; decide)

theorem linkTrained_best {k : Nat} {s : State} (h : (s.port k).train = true) {rate lanes : Nat} (hr : rate = s.rdF (PORT_CFG (dieOf 4 k) (k % 4)) PORT_CFG_RATE)
    (hl : lanes = s.rdF (PORT_CFG (dieOf 4 k) (k % 4)) PORT_CFG_LANES) (hk : rateKbps rate ≠ 0) (hn : lanes = 1 ∨ lanes = 2 ∨ lanes = 4)
    (hb : bandwidthOk (s.rdF (PORT_CFG (dieOf 4 k) (k % 4)) PORT_CFG_PROTO) rate lanes (s.rdF (PORT_CFG (dieOf 4 k) (k % 4)) PORT_CFG_BPC) 0 (portKhz s (dieOf 4 k) (k % 4)) = true) :
    linkTrained k (some (rate, lanes)) s = postPf0 (dieOf 4 k) 0x0205 (portKey (dieOf 4 k) (k % 4)) (lanes * 256 + rate * 65536)
      (linkedUp (dieOf 4 k) (k % 4) rate lanes (setPort k { s.port k with train := false } s)) := by
  unfold linkTrained
  dsimp only
  rw [if_neg (by rw [h]; decide), if_pos ⟨hk, by rw [← hr], by rw [← hl], hn, hb⟩, if_pos ⟨hr, hl⟩, postPortLink, if_neg (by decide), Nat.zero_add]
  rfl

theorem linkTraining_rule (k : Nat) (s : State) (h : (s.port k).train = true) :
    exec (.linkTraining k none) s = .next (ran (fun u => u |> setPort k { s.port k with train := false } |> linkDown (dieOf 4 k) (k % 4) |> postPortLink (dieOf 4 k) (k % 4) 2 0 0) s)
    ∧ (∀ rate lanes, rate = s.rdF (PORT_CFG (dieOf 4 k) (k % 4)) PORT_CFG_RATE → lanes = s.rdF (PORT_CFG (dieOf 4 k) (k % 4)) PORT_CFG_LANES → rateKbps rate ≠ 0 →
      lanes = 1 ∨ lanes = 2 ∨ lanes = 4 →
      bandwidthOk (s.rdF (PORT_CFG (dieOf 4 k) (k % 4)) PORT_CFG_PROTO) rate lanes (s.rdF (PORT_CFG (dieOf 4 k) (k % 4)) PORT_CFG_BPC) 0 (portKhz s (dieOf 4 k) (k % 4)) = true →
      ∃ u, (u.flag (PORT_STATUS (dieOf 4 k) (k % 4)) PORT_STATUS_LINK_UP = true ∧ u.rdF (PORT_STATUS (dieOf 4 k) (k % 4)) PORT_STATUS_TRAINED_RATE = rate
          ∧ u.rdF (PORT_STATUS (dieOf 4 k) (k % 4)) PORT_STATUS_TRAINED_LANES = lanes ∧ (u.port k).train = false ∧ u = { s with regs := u.regs, ports := u.ports, out := [] })
        ∧ exec (.linkTraining k (some (rate, lanes))) s = .next (ran (fun _ => postPf0 (dieOf 4 k) 0x0205 (portKey (dieOf 4 k) (k % 4)) (lanes * 256 + rate * 65536) u) s)) := by
  refine ⟨congrArg Host.Outcome.next (ran_congr (linkTrained_none (s := fresh s) h)), fun rate lanes hr hl hk hn hb => ?_⟩
  have hgo := linkTrained_best (s := fresh s) h (by rw [rdF_fresh]; exact hr) (by rw [rdF_fresh]; exact hl) hk hn (by rw [rdF_fresh, rdF_fresh, portKhz_fresh]; exact hb)
  have hend : Only (fun u => { u with regs := [], ports := [] }) (fresh s)
      (linkedUp (dieOf 4 k) (k % 4) rate lanes (setPort k { s.port k with train := false } (fresh s))) := (((Only.rfl.setPort _ _).wrB _ _ _).wrF _ _ _).wrF _ _ _
  have hport : (linkedUp (dieOf 4 k) (k % 4) rate lanes (setPort k { s.port k with train := false } (fresh s))).port k
      = (setPort k { s.port k with train := false } (fresh s)).port k := rfl
  refine ⟨_, ⟨?_, ?_, ?_, ?_, hend.regsPorts⟩, congrArg Host.Outcome.next (ran_congr hgo)⟩
  · rw [linkedUp, flag_wrF_other _ _ _ _ _ (by decide) (by decide), flag_wrF_other _ _ _ _ _ (by decide) (by decide)]
    exact flag_wrB_same _ _ _ _ (by decide) (by decide)
  · rw [linkedUp, rdF_wrF_other _ _ _ _ _ (by decide) (by decide)]
    exact rdF_wrF_of_lt (by decide) (rate_lt hk)
  · refine rdF_wrF_of_lt (by decide) ?_
    simp only [PORT_STATUS_TRAINED_LANES]
    omega
  · rw [hport, port_setPort_same]

/-- A plug or an unplug of a port whose link is down. -/
theorem portHpd_rule (k : Nat) (s : State) (hk : k < 8) (hp : k % 4 < 2) (hr : s.inReset.contains .heads = false) (hl : s.flag (PORT_STATUS (dieOf 4 k) (k % 4)) PORT_STATUS_LINK_UP = false) :
    exec (.portHpd k 0 false) s = .next (ran (fun u => u |> wrB (PORT_STATUS (dieOf 4 k) (k % 4)) PORT_STATUS_HPD false |> postPf0 (dieOf 4 k) 0x0204 k 0) s)
    ∧ exec (.portHpd k 1 false) s = .next (ran (fun u => u |> wrB (PORT_STATUS (dieOf 4 k) (k % 4)) PORT_STATUS_HPD true |> postPf0 (dieOf 4 k) 0x0204 k 1 |> wantTraining (dieOf 4 k) (k % 4)) s) := by
  have hgo : ∀ kind, kind ≤ 1 → ¬(8 ≤ k ∨ 2 ≤ k % 4 ∨ 2 < kind ∨ (fresh s).inReset.contains .heads = true) := by
    intro kind hkind
    rw [show (fresh s).inReset.contains .heads = false from hr]
    simp
    omega
  refine ⟨congrArg Host.Outcome.next (ran_congr ?_), congrArg Host.Outcome.next (ran_congr ?_)⟩
  · unfold portHpd
    dsimp only
    rw [if_neg (hgo 0 (by decide)), flag_fresh, hl]
    simp
  · unfold portHpd
    dsimp only
    rw [if_neg (hgo 1 (by decide)), flag_fresh, hl]
    simp

/-! ## AUX and DSI (R139, R140) -/

theorem auxReply_write {k : Nat} {tk : Ticket} {d : Desc} {rest : List (Ticket × Desc)} {r : AuxReply} {s : State} (ha : (s.port k).aux = (tk, d) :: rest)
    (hd : dget d 9 0 1 = 1) (hc : r.code ≠ 2) : auxReply k (some r) s = auxEnd (dieOf 4 k) (k % 4) tk stOk (r.code % 256 + r.count % 256 * 256) s := by
  unfold auxReply
  dsimp only
  rw [ha]
  dsimp only
  rw [if_neg fun h => hc h.1, if_neg (by rw [hd]; decide)]

theorem dsiTimeout_front {k : Nat} {tk : Ticket} {d : Desc} {rest : List (Ticket × Desc)} {s : State} (h : (s.port k).dsi = (tk, d) :: rest) :
    dsiTimeout k s = dsiEnd k tk stTimeout 0 s := by
  unfold dsiTimeout
  rw [h]

theorem dsiResponse_front {k : Nat} {tk : Ticket} {d : Desc} {rest : List (Ticket × Desc)} {s s1 : State} {bytes : List Byte} (h : (s.port k).dsi = (tk, d) :: rest)
    (hw : dmaWrite (dieOf 4 k) tk.fn tk.ring.ring (dget d 48 0 64) (bytes.take 16) s = (none, s1)) :
    dsiResponse k bytes s = dsiEnd k tk stOk (bytes.take 16).length s1 := by
  unfold dsiResponse
  rw [h]
  dsimp only
  rw [hw]

/-! ## Genlock (R153–R156) -/

theorem Only.regsHeads {s t : State} (h : Only (fun u => { u with regs := [], heads := [] }) (fresh s) t) : t = { s with regs := t.regs, heads := t.heads, out := [] } :=
  congrArg (fun u => { u with regs := t.regs, heads := t.heads }) h

/-- A head without its source runs free. -/
def freeRun (h : Nat) (x : Head) (s : State) : State := wrB (GENLOCK_STATUS (headDie h) (headNo h)) GENLOCK_STATUS_FREE_RUN true (setHead h x s)

theorem genlockSourceTimeout_rule (h : Nat) (s : State) (hp : (s.head h).phase = 3) (hg : gSrc (s.head h).genlock ≠ 0)
    (hf : s.flag (GENLOCK_STATUS (headDie h) (headNo h)) GENLOCK_STATUS_FREE_RUN = false) :
    ∃ u, (u = { s with regs := u.regs, heads := u.heads, out := [] } ∧ u.flag (GENLOCK_STATUS (headDie h) (headNo h)) GENLOCK_STATUS_FREE_RUN = true ∧ (u.head h).refSeen = false
        ∧ ∀ a, a ≠ GENLOCK_STATUS (headDie h) (headNo h) → u.rd a = s.rd a) ∧ exec (.genlockSourceTimeout h) s = .next (ran (fun _ => postGenlock h 2 u) s) := by
  have hend : Only (fun u => { u with regs := [], heads := [] }) (fresh s) (freeRun h { s.head h with rangeRun := 0, lockRun := 0, refSeen := false } (fresh s)) :=
    (Only.rfl.setHead _ _).wrB _ _ _
  refine ⟨_, ⟨hend.regsHeads, flag_wrB_same _ _ _ _ (by decide) (by decide), ?_, fun a ha => ?_⟩, congrArg Host.Outcome.next (ran_congr ?_)⟩
  · rw [freeRun, head_wrB, head_setHead_same]
  · rw [freeRun, rd_wrB_ne ha, rd_setHead, rd_fresh]
  · unfold genTimeout
    dsimp only
    rw [head_fresh, flag_fresh, if_neg (by rw [hp, hf]; simpa using hg)]
    rfl

/-- A reference that reaches no head of the source does nothing. -/
theorem genReference_other {h : Nat} {src : GenSource} {pix : Nat} {inRange : Bool} {s : State} (hm : genMatches (s.head h).genlock h src = false) :
    genReference h src pix inRange s = s := if_pos (.inr (.inl hm))

/-- The event reaches the head: its source is followed, no chain leads back, the pixel PLL runs, and it has crossed. -/
structure Reaches (h : Nat) (src : GenSource) (s : State) : Prop where
  phase : (s.head h).phase = 3
  source : genMatches (s.head h).genlock h src = true
  chain : genLoop s h 8 h = false
  clock : s.flag (HEAD_STATUS (headDie h) (headNo h)) HEAD_STATUS_PLL_LOST = false
  crossed : (∃ d r, src = .vsync d r) ∨ (s.head h).refDue = true

/-- The head after a reference event. -/
def referenced (x : Head) (run inRange resumes : Bool) (e : Int) : Head :=
  let tracks := inRange && (!run || resumes)
  let snap := if resumes then GENLOCK_CTRL_SNAP.get x.genlock else x.snapDue
  { x with refSeen := true, refDue := false, err := e,
           snapIn := if tracks && snap == 1 && decide (x.htotal < e.natAbs) then some (max 1 (gOffset x.genlock % (x.vtotal : Int)).toNat) else x.snapIn,
           snapDue := if tracks then 0 else snap,
           rangeRun := if run ∧ inRange ∧ resumes = false then x.rangeRun + 1 else 0,
           lockRun := if resumes ∨ inRange = false then 0 else x.lockRun }

/-- What every reference event leaves: the phase error in lines, and the head. -/
def phaseShown (h : Nat) (x : Head) (e : Int) (s : State) : State :=
  setHead h x (wrF (GENLOCK_STATUS (headDie h) (headNo h)) GENLOCK_STATUS_PHASE_LINES (unsgn 14 (e.tdiv (s.head h).htotal)) s)

theorem genReference_eq {h : Nat} {src : GenSource} {pix : Nat} {inRange run resumes : Bool} {e : Int} {s : State} (hr : Reaches h src s)
    (hrun : run = s.flag (GENLOCK_STATUS (headDie h) (headNo h)) GENLOCK_STATUS_FREE_RUN) (hres : resumes = (run && inRange && decide (3 ≤ (s.head h).rangeRun)))
    (he : e = phaseError (s.head h) (s.rdF (HEAD_STATUS (headDie h) (headNo h)) HEAD_STATUS_LINE) pix) :
    genReference h src pix inRange s =
      if resumes then postGenlock h 0 (wrB (GENLOCK_STATUS (headDie h) (headNo h)) GENLOCK_STATUS_FREE_RUN false (phaseShown h (referenced (s.head h) run inRange resumes e) e s))
      else if run = false ∧ inRange = false then
        postGenlock h 1 (wrB (GENLOCK_STATUS (headDie h) (headNo h)) GENLOCK_STATUS_FREE_RUN true (phaseShown h (referenced (s.head h) run inRange resumes e) e s))
      else phaseShown h (referenced (s.head h) run inRange resumes e) e s := by
  obtain ⟨hp, hm, hc, hl, hx⟩ := hr
  subst hres hrun he
  unfold genReference
  dsimp only
  refine (if_neg ?_).trans rfl
  rw [hp, hm, hc, hl]
  rcases hx with ⟨d, r, rfl⟩ | hx
  · simp
  · simp [hx]

theorem phaseShown_rule (h : Nat) (x : Head) (e : Int) (s : State) :
    Only (fun u => { u with regs := [], heads := [] }) s (phaseShown h x e s) ∧ (phaseShown h x e s).head h = x
      ∧ (phaseShown h x e s).rdF (GENLOCK_STATUS (headDie h) (headNo h)) GENLOCK_STATUS_PHASE_LINES = unsgn 14 (e.tdiv (s.head h).htotal)
      ∧ (phaseShown h x e s).flag (GENLOCK_STATUS (headDie h) (headNo h)) GENLOCK_STATUS_FREE_RUN = s.flag (GENLOCK_STATUS (headDie h) (headNo h)) GENLOCK_STATUS_FREE_RUN
      ∧ ∀ a, a ≠ GENLOCK_STATUS (headDie h) (headNo h) → (phaseShown h x e s).rd a = s.rd a := by
  unfold phaseShown
  refine ⟨(Only.rfl.wrF _ _ _).setHead _ _, head_setHead_same _ _ _, ?_, ?_, fun a ha => ?_⟩
  · rw [rdF_setHead]
    refine rdF_wrF_of_lt (by decide) ?_
    simp only [unsgn, GENLOCK_STATUS_PHASE_LINES]
    omega
  · rw [flag_setHead, flag_wrF_other _ _ _ _ _ (by decide) (by decide)]
  · rw [rd_setHead, rd_wrF_ne ha]

theorem genLoop_fresh (s : State) (h n g : Nat) : genLoop (fresh s) h n g = genLoop s h n g := by
  induction n generalizing g with
  | zero => rfl
  | succ n ih => simp only [genLoop, ih, head_fresh]

theorem Reaches.fresh {h : Nat} {src : GenSource} {s : State} (r : Reaches h src s) : Reaches h src (fresh s) :=
  ⟨r.phase, r.source, (genLoop_fresh _ _ _ _).trans r.chain, (flag_fresh _ _ _).trans r.clock, r.crossed⟩

/-- GENLOCK_STATUS is no register that posting writes. -/
theorem postReg_genlock (d : Die) {n : Nat} (hn : n < 4) : postReg (GENLOCK_STATUS d n) = false := by
  have hoff : addrOff (GENLOCK_STATUS d n) = 0x800054 + 0x10000 * n := by
    rw [GENLOCK_STATUS, Nat.add_assoc]
    exact addrOff_die d (by omega)
  rw [postReg, hoff]
  simp
  omega

theorem genlockReference_rule (h : Nat) (src : GenSource) (pix : Nat) (s : State) (hr : Reaches h src s) :
    (s.flag (GENLOCK_STATUS (headDie h) (headNo h)) GENLOCK_STATUS_FREE_RUN = false →
      (∃ u, (u = { s with regs := u.regs, heads := u.heads, out := [] } ∧ u.flag (GENLOCK_STATUS (headDie h) (headNo h)) GENLOCK_STATUS_FREE_RUN = true
          ∧ ∀ a, a ≠ GENLOCK_STATUS (headDie h) (headNo h) → u.rd a = s.rd a) ∧ exec (.genlockReference h ⟨src, pix, false⟩) s = .next (ran (fun _ => postGenlock h 1 u) s))
      ∧ (∃ t, exec (.genlockReference h ⟨src, pix, true⟩) s = .next t ∧ t = { s with regs := t.regs, heads := t.heads, out := [] }
          ∧ (t.head h).refSeen = true ∧ (t.head h).refDue = false
          ∧ (t.head h).err = phaseError (s.head h) (s.rdF (HEAD_STATUS (headDie h) (headNo h)) HEAD_STATUS_LINE) pix
          ∧ t.rdF (GENLOCK_STATUS (headDie h) (headNo h)) GENLOCK_STATUS_PHASE_LINES = unsgn 14 ((t.head h).err.tdiv (s.head h).htotal)
          ∧ t.flag (GENLOCK_STATUS (headDie h) (headNo h)) GENLOCK_STATUS_FREE_RUN = false
          ∧ ∀ a, a ≠ GENLOCK_STATUS (headDie h) (headNo h) → t.rd a = s.rd a))
    ∧ (s.flag (GENLOCK_STATUS (headDie h) (headNo h)) GENLOCK_STATUS_FREE_RUN = true → (s.head h).rangeRun < 3 →
      ∃ t, exec (.genlockReference h ⟨src, pix, true⟩) s = .next t ∧ t = { s with regs := t.regs, heads := t.heads, out := [] }
        ∧ (t.head h).rangeRun = (s.head h).rangeRun + 1 ∧ t.flag (GENLOCK_STATUS (headDie h) (headNo h)) GENLOCK_STATUS_FREE_RUN = true)
    ∧ (s.flag (GENLOCK_STATUS (headDie h) (headNo h)) GENLOCK_STATUS_FREE_RUN = true → 3 ≤ (s.head h).rangeRun →
      ∃ t, exec (.genlockReference h ⟨src, pix, true⟩) s = .next t ∧ t.flag (GENLOCK_STATUS (headDie h) (headNo h)) GENLOCK_STATUS_FREE_RUN = false ∧ (t.head h).rangeRun = 0) := by
  obtain ⟨e, he⟩ : ∃ e, e = phaseError (s.head h) (s.rdF (HEAD_STATUS (headDie h) (headNo h)) HEAD_STATUS_LINE) pix := ⟨_, rfl⟩
  have he' : e = phaseError ((fresh s).head h) ((fresh s).rdF (HEAD_STATUS (headDie h) (headNo h)) HEAD_STATUS_LINE) pix := by rw [rdF_fresh, head_fresh, he]
  have hevent : ∀ (run inRange : Bool), run = s.flag (GENLOCK_STATUS (headDie h) (headNo h)) GENLOCK_STATUS_FREE_RUN → _ :=
    fun run inRange hrun => genReference_eq (pix := pix) (inRange := inRange) hr.fresh (hrun.trans (flag_fresh _ _ _).symm) rfl he'
  have hrule := fun x => phaseShown_rule h x e (fresh s)
  refine ⟨fun hf => ⟨?_, ?_⟩, fun hf hlt => ?_, fun hf hge => ?_⟩
  · have hgo := hevent false false hf.symm
    simp only [Bool.false_and, Bool.false_eq_true, if_false, and_self, if_true] at hgo
    obtain ⟨h1, -, -, -, h5⟩ := hrule (referenced ((fresh s).head h) false false false e)
    have hend := h1.wrB (GENLOCK_STATUS (headDie h) (headNo h)) GENLOCK_STATUS_FREE_RUN true
    refine ⟨_, ⟨hend.regsHeads, flag_wrB_same _ _ _ _ (by decide) (by decide), fun a ha => ?_⟩, congrArg Host.Outcome.next (ran_congr hgo)⟩
    rw [rd_wrB_ne ha, h5 a ha, rd_fresh]
  · have hgo := hevent false true hf.symm
    simp only [Bool.false_and, Bool.false_eq_true, if_false, and_false, Bool.true_eq_false] at hgo
    obtain ⟨h1, h2, h3, h4, h5⟩ := hrule (referenced ((fresh s).head h) false true false e)
    refine ⟨_, congrArg Host.Outcome.next (h1.ran hgo), h1.regsHeads, ?_, ?_, ?_, ?_, ?_, fun a ha => (h5 a ha).trans (rd_fresh _ _)⟩
    · rw [h2]
      rfl
    · rw [h2]
      rfl
    · rw [h2, ← he]
      rfl
    · rw [h3, h2]
      rfl
    · rw [h4, flag_fresh, hf]
  · have hgo := hevent true true hf.symm
    rw [head_fresh, decide_eq_false (Nat.not_le.2 hlt)] at hgo
    simp only [Bool.and_false, Bool.false_eq_true, if_false, Bool.true_eq_false, and_self] at hgo
    obtain ⟨h1, h2, -, h4, -⟩ := hrule (referenced (s.head h) true true false e)
    refine ⟨_, congrArg Host.Outcome.next (h1.ran hgo), h1.regsHeads, ?_, ?_⟩
    · rw [h2]
      rfl
    · rw [h4, flag_fresh, hf]
  · have hgo := hevent true true hf.symm
    rw [head_fresh, decide_eq_true hge] at hgo
    simp only [Bool.and_self, if_true] at hgo
    obtain ⟨-, h2, -⟩ := hrule (referenced (s.head h) true true true e)
    obtain ⟨hpost, hregs, -⟩ := posts_postPf0 (ok := True) (headDie h) 0x0203 h _
      (wrB (GENLOCK_STATUS (headDie h) (headNo h)) GENLOCK_STATUS_FREE_RUN false (phaseShown h (referenced (s.head h) true true true e) e (fresh s)))
    refine ⟨ran (genReference h src pix true) s, rfl, ?_, ?_⟩
    · rw [flag_of_rd (ran_rd _ _ _), hgo, postGenlock, flag_of_rd (hregs trivial _ (postReg_genlock _ (headNo_lt h)))]
      exact flag_wrB_same _ _ _ _ (by decide) (by decide)
    · rw [show (ran (genReference h src pix true) s).head h = (genReference h src pix true (fresh s)).head h from rfl, hgo, postGenlock,
        hpost.head, head_wrB, h2]
      rfl

/-- Settles O37: training and HPD, the fronts of the AUX and DSI queues, and the reference events of genlock. -/
theorem portsTrainTalkAndGenlock : Obligations.PortsTrainTalkAndGenlock := by
  refine ⟨⟨fun k s _ h => linkTraining_rule k s h, portHpd_rule, fun k tk d rest r s ha hd hc => ?_, fun k tk d rest s hd => ⟨?_, fun bytes s1 hw => ?_⟩⟩,
    genlockSourceTimeout_rule, fun h src pix inRange s hm => ?_, fun h src pix s h1 h2 h3 h4 h5 => genlockReference_rule h src pix s ⟨h1, h2, h3, h4, h5⟩⟩
  · exact congrArg Host.Outcome.next (ran_congr (auxReply_write (s := fresh s) ha hd hc))
  · exact congrArg Host.Outcome.next (ran_congr (dsiTimeout_front (s := fresh s) hd))
  · exact congrArg Host.Outcome.next (ran_congr (dsiResponse_front (s := fresh s) hd hw))
  · exact congrArg Host.Outcome.next (ran_same (genReference_other (s := fresh s) hm))

end Sys2Proof.Machine
end

section
/-! GPU windows, cluster power, context store and counters (R272, R273, R281, R289). -/
namespace Sys2Proof.Machine

/-! ## Folds whose every step has a register of its own -/

/-- A fold over indices whose step `i` writes register `A i` alone: that register is as its own step leaves it. -/
theorem foldl_ownReg {A : Nat → Nat} {g : State → Nat → State} (hA : ∀ i j, A i = A j → i = j) (hg : ∀ i t, Touches [A i] t (g t i)) {xs : List Nat} (hn : xs.Nodup) {i : Nat} (hi : i ∈ xs) (s : State) :
    ∃ t, RegsOnly s t ∧ t.rd (A i) = s.rd (A i) ∧ (xs.foldl g s).rd (A i) = (g t i).rd (A i) := by
  induction xs generalizing s with
  | nil => cases hi
  | cons y ys ih =>
    obtain ⟨hy, hys⟩ := List.nodup_cons.1 hn
    rw [List.foldl_cons]
    by_cases h : i = y
    · subst h
      refine ⟨s, RegsOnly.rfl, rfl, ?_⟩
      have hrest : Touches (ys.map A) (g s i) (ys.foldl g (g s i)) := by
        refine Touches.rfl.foldl fun z hz t => ⟨(hg z t).1, fun a ha => (hg z t).2 a fun e => ha ?_⟩
        rw [List.mem_singleton.1 e]
        exact List.mem_map_of_mem hz
      refine hrest.2 _ fun e => ?_
      obtain ⟨z, hz, he⟩ := List.mem_map.1 e
      exact hy (hA _ _ he ▸ hz)
    · obtain ⟨t, h1, h2, h3⟩ := ih hys ((List.mem_cons.1 hi).resolve_left h) (g s y)
      exact ⟨t, (hg y s).1.trans h1, h2.trans ((hg y s).2 _ fun e => h (hA _ _ (List.mem_singleton.1 e))), h3⟩

/-- What such a fold leaves as it was. -/
theorem foldl_ownReg_other {A : Nat → Nat} {g : State → Nat → State} (hg : ∀ i t, Touches [A i] t (g t i)) (xs : List Nat) (s : State) : Touches (xs.map A) s (xs.foldl g s) := by
  refine Touches.rfl.foldl fun z hz t => ⟨(hg z t).1, fun a ha => (hg z t).2 a fun e => ha ?_⟩
  rw [List.mem_singleton.1 e]
  exact List.mem_map_of_mem hz

/-- A command whose effect changes registers alone leaves its effect's state. -/
theorem ran_regsOnly {g : State → State} {s t : State} (h : RegsOnly (fresh s) t) (hg : g (fresh s) = t) : ran g s = t := by
  subst hg
  exact h.ran

theorem mem_upto {i n : Nat} (h : i < n) : i ∈ upto n := List.mem_range.2 h
theorem nodup_upto (n : Nat) : (upto n).Nodup := List.nodup_range

/-! ## Accounting cluster time (R273, R289) -/

theorem gpu_fresh (s : State) (d : Die) : (fresh s).gpu d = s.gpu d := rfl
theorem gpu_setGpu_same (d : Die) (x : Gpu) (s : State) : (setGpu d x s).gpu d = x := tget_tset_same _ _ _ _
theorem gpu_of_regsOnly {s t : State} (h : RegsOnly s t) (d : Die) : t.gpu d = s.gpu d := congrArg (tget Gpu.empty d.idx) (congrArg State.gpus h.eq :)
theorem rd_setGpu (d : Die) (x : Gpu) (s : State) (a : Nat) : (setGpu d x s).rd a = s.rd a := rd_congr rfl rfl a
theorem rdF_setGpu (d : Die) (x : Gpu) (s : State) (a : Nat) (f : Fld) : (setGpu d x s).rdF a f = s.rdF a f := rdF_of_rd (rd_setGpu _ _ _ _) _

theorem Only.setGpu {m : State → State} {s t : State} (h : Only m s t) (d : Die) (x : Gpu)
    (hm : ∀ u r, m { u with gpus := r } = m u := by intros; rfl) : Only m s (setGpu d x t) := (hm _ _).trans h

theorem Only.regsGpus {s t : State} (h : Only (fun u => { u with regs := [], gpus := [] }) (fresh s) t) : t = { s with regs := t.regs, gpus := t.gpus, out := [] } :=
  congrArg (fun u => { u with regs := t.regs, gpus := t.gpus }) h

/-- Only the counters of a die and its clusters' uncounted nanoseconds differ. -/
def Counted (d : Die) (s t : State) : Prop :=
  Only (fun u => { u with regs := [], gpus := [] }) s t ∧ (∃ b, t.gpu d = { s.gpu d with busyNs := b }) ∧ ∀ a, (∀ i, i < 24 → a ≠ GPU_PC d i) → t.rd a = s.rd a

namespace Counted
variable {d : Die} {s t u : State}

theorem rfl : Counted d s s := ⟨Only.rfl, ⟨_, Eq.refl _⟩, fun _ _ => Eq.refl _⟩
theorem trans (h : Counted d s t) (h' : Counted d t u) : Counted d s u := by
  obtain ⟨h1, ⟨b, h2⟩, h3⟩ := h
  obtain ⟨k1, ⟨c, k2⟩, k3⟩ := h'
  exact ⟨h1.trans k1, ⟨c, by rw [k2, h2]⟩, fun a ha => (k3 a ha).trans (h3 a ha)⟩
theorem busy (b : Tab Nat) (s : State) : Counted d s (setGpu d { s.gpu d with busyNs := b } s) :=
  ⟨Only.rfl.setGpu _ _, ⟨b, gpu_setGpu_same _ _ _⟩, fun _ _ => rd_setGpu _ _ _ _⟩
theorem pcAdd {i : Nat} (hi : i < 24) (n : Nat) (s : State) : Counted d s (pcAdd d i n s) := by
  unfold Machine.pcAdd
  split
  · exact rfl
  · exact ⟨Only.rfl.wr _ _, ⟨_, Eq.refl _⟩, fun a ha => rd_wr_ne (ha i hi) _ _⟩
theorem foldl {g : State → Nat → State} {xs : List Nat} (hg : ∀ i ∈ xs, ∀ t, Counted d t (g t i)) (s : State) : Counted d s (xs.foldl g s) := by
  induction xs generalizing s with
  | nil => exact rfl
  | cons x xs ih =>
    obtain ⟨hx, hxs⟩ := List.forall_mem_cons.1 hg
    exact (hx s).trans (ih hxs _)

end Counted

/-- The uses of the open window with the time up to now. -/
def usageNow (d : Die) (s : State) : Tab Nat :=
  (s.gpu d).jobs.foldl (fun u j => tset j.fn.key (tget 0 j.fn.key u + (s.now d - (s.gpu d).mark) * j.clusters.length) u) (s.gpu d).usage

/-- Accounting takes the uses up to now, and then only counts. -/
theorem account_counted (d : Die) (s : State) : Counted d (setGpu d { s.gpu d with usage := usageNow d s, mark := s.now d } s) (account d s) := by
  unfold account
  refine Counted.foldl (fun c hc t => ?_) _
  dsimp only
  split
  · exact (Counted.busy _ t).trans (Counted.pcAdd (by have := List.mem_range.1 hc; omega) _ _)
  · exact Counted.rfl

theorem account_only (d : Die) (s : State) : Only (fun u => { u with regs := [], gpus := [] }) s (account d s) :=
  (Only.rfl.setGpu _ _).trans (account_counted d s).1

theorem account_gpu (d : Die) (s : State) : ∃ b, (account d s).gpu d = { s.gpu d with usage := usageNow d s, mark := s.now d, busyNs := b } := by
  obtain ⟨-, ⟨b, hb⟩, -⟩ := account_counted d s
  exact ⟨b, by rw [hb, gpu_setGpu_same]⟩

theorem account_rd (d : Die) (s : State) {a : Nat} (ha : ∀ i, i < 24 → a ≠ GPU_PC d i) : (account d s).rd a = s.rd a := by
  obtain ⟨-, -, h⟩ := account_counted d s
  exact (h a ha).trans (rd_setGpu _ _ _ _)

/-! ## The share window (R273) -/

theorem funcUse_inj (d : Die) (i j : Nat) (h : GPU_FUNC_USE d i = GPU_FUNC_USE d j) : i = j := by
  unfold GPU_FUNC_USE at h
  omega

theorem funcUse_ne_pc {d : Die} (i : Nat) {j : Nat} (hj : j < 24) : GPU_FUNC_USE d i ≠ GPU_PC d j := by
  unfold GPU_FUNC_USE GPU_PC
  omega

/-- The use that the window shows of an entry. -/
def shownUse (d : Die) (g : Gpu) (whole : Nat) (i : Nat) (t : State) : Nat :=
  if whole = 0 ∨ t.rdF (GPU_FUNC_USE d i) GPU_FUNC_USE_SHARE = 0 then 0 else min 0xFF (tget 0 (Fun.key ⟨if i < 32 then d else d.other, i % 32⟩) g.usage * 256 / whole)

theorem shownUse_congr {d : Die} {g k : Gpu} {whole i : Nat} {s t : State} (hg : g.usage = k.usage)
    (h : s.rdF (GPU_FUNC_USE d i) GPU_FUNC_USE_SHARE = t.rdF (GPU_FUNC_USE d i) GPU_FUNC_USE_SHARE) : shownUse d g whole i s = shownUse d k whole i t := by
  unfold shownUse
  rw [hg, h]

/-- One entry of the window takes its use. -/
def useShown (d : Die) (g : Gpu) (whole : Nat) (t : State) (i : Nat) : State :=
  if t.rdF (GPU_FUNC_USE d i) GPU_FUNC_USE_USED = shownUse d g whole i t then t else wrF (GPU_FUNC_USE d i) GPU_FUNC_USE_USED (shownUse d g whole i t) t

theorem useShown_touches (d : Die) (g : Gpu) (whole i : Nat) (t : State) : Touches [GPU_FUNC_USE d i] t (useShown d g whole t i) :=
  Touches.rfl.ite (Touches.rfl.wrF _ _)

theorem useShown_used (d : Die) (g : Gpu) (whole i : Nat) (t : State) : (useShown d g whole t i).rdF (GPU_FUNC_USE d i) GPU_FUNC_USE_USED = shownUse d g whole i t := by
  unfold useShown
  split
  · assumption
  · refine rdF_wrF_of_lt (by decide) ?_
    unfold shownUse
    split <;> [decide; exact Nat.lt_of_le_of_lt (Nat.min_le_left _ _) (by decide)]

theorem shareWindow_folds (d : Die) (s : State) : ∀ u, u = (upto 64).foldl (useShown d ((account d s).gpu d) (10000000 * (presentClusters s d).length)) (account d s) →
    shareWindow d s = setGpu d { u.gpu d with usage := [] } u := by
  rintro u rfl
  unfold shareWindow useShown shownUse
  rfl

theorem shareWindow_eq (d : Die) (s : State) : ∃ u, Touches ((upto 64).map (GPU_FUNC_USE d)) (account d s) u ∧ shareWindow d s = setGpu d { u.gpu d with usage := [] } u
    ∧ ∀ i, i < 64 → u.rdF (GPU_FUNC_USE d i) GPU_FUNC_USE_USED = shownUse d ((account d s).gpu d) (10000000 * (presentClusters s d).length) i s := by
  refine ⟨(upto 64).foldl (useShown d ((account d s).gpu d) (10000000 * (presentClusters s d).length)) (account d s),
    foldl_ownReg_other (useShown_touches d _ _) _ _, shareWindow_folds d s _ rfl, fun i hi => ?_⟩
  obtain ⟨t, -, h2, h3⟩ := foldl_ownReg (funcUse_inj d) (useShown_touches d ((account d s).gpu d) (10000000 * (presentClusters s d).length)) (nodup_upto 64) (mem_upto hi) (account d s)
  rw [rdF_of_rd h3, useShown_used]
  have hshare : t.rdF (GPU_FUNC_USE d i) GPU_FUNC_USE_SHARE = s.rdF (GPU_FUNC_USE d i) GPU_FUNC_USE_SHARE :=
    (rdF_of_rd h2 _).trans (rdF_of_rd (account_rd d s fun j hj => funcUse_ne_pc i hj) _)
  exact shownUse_congr rfl hshare

theorem gpuShareWindow_rule (d : Die) (s : State) :
    ∃ t, exec (.gpuShareWindow d) s = .next t ∧ t = { s with regs := t.regs, gpus := t.gpus, out := [] } ∧ (t.gpu d).usage = [] ∧ (t.gpu d).jobs = (s.gpu d).jobs
      ∧ ∀ i, i < 64 → t.rdF (GPU_FUNC_USE d i) GPU_FUNC_USE_USED = shownUse d ((account d s).gpu d) (10000000 * (presentClusters s d).length) i s := by
  obtain ⟨u, hu, heq, huse⟩ := shareWindow_eq d (fresh s)
  have hend := ((account_only d (fresh s)).trans (Only.of_regsOnly hu.1)).setGpu d { u.gpu d with usage := [] }
  obtain ⟨b, hb⟩ := account_gpu d (fresh s)
  obtain ⟨c, hc⟩ := account_gpu d s
  refine ⟨_, congrArg Host.Outcome.next (hend.ran heq), hend.regsGpus, by rw [gpu_setGpu_same], ?_, fun i hi => ?_⟩
  · rw [gpu_setGpu_same, gpu_of_regsOnly hu.1, hb]
    rfl
  · have huses : ((account d (fresh s)).gpu d).usage = ((account d s).gpu d).usage := by
      rw [hb, hc]
      rfl
    exact (rdF_setGpu _ _ _ _ _).trans ((huse i hi).trans (shownUse_congr huses (rdF_fresh _ _ _)))

/-! ## Cluster power (R281, R413) -/

theorem nbit_setBit_clear (x l : Nat) : nbit (setBit x l false) l = false := by
  have hdiv : (x - 2 ^ l * (x / 2 ^ l % 2)) / 2 ^ l = x / 2 ^ l - x / 2 ^ l % 2 := Nat.sub_mul_div ..
  have heven : (x / 2 ^ l - x / 2 ^ l % 2) % 2 = 0 := by omega
  unfold nbit setBit
  simp only [Bool.false_eq_true, if_false, Nat.add_zero, Nat.mul_comm (x / 2 ^ l % 2), hdiv, heven]
  decide

theorem setBit_clear_le (x l : Nat) : setBit x l false ≤ x := by
  unfold setBit
  simp

/-- Powering a unit off clears its bit and no other register. -/
theorem setPowered_off (d : Die) (b : Nat) (s : State) : Touches [UNIT_POWERED d] s (setPowered d b false s) ∧ nbit ((setPowered d b false s).rd (UNIT_POWERED d)).toNat b = false := by
  refine ⟨Touches.rfl.wr _, ?_⟩
  have hlt : setBit (s.rd (UNIT_POWERED d)).toNat b false < 2 ^ 32 := Nat.lt_of_le_of_lt (setBit_clear_le _ _) (s.rd (UNIT_POWERED d)).isLt
  unfold setPowered
  rw [rd_wr_same, BitVec.toNat_ofNat, Nat.mod_eq_of_lt hlt]
  exact nbit_setBit_clear _ _

theorem clusterIdleOff_rule {d : Die} {c : Nat} {s : State} (hc : c < 8) (hj : clusterJob s d c = none) (hk : s.flag (GPU_POWER_CFG d) GPU_POWER_CFG_KEEP_ON = false)
    (hu : nbit (s.rd (UNIT_KEEP_ON d)).toNat (bitCluster c) = false) :
    ∃ t, exec (.clusterIdleOff d c) s = .next t ∧ t = { s with regs := t.regs, out := [] } ∧ t.flag (GPU_CLUSTER d c) GPU_CLUSTER_POWERED = false
      ∧ nbit (t.rd (UNIT_POWERED d)).toNat (bitCluster c) = false ∧ ∀ a, a ≠ GPU_CLUSTER d c → a ≠ UNIT_POWERED d → t.rd a = s.rd a := by
  have hgo : idleOff d c (fresh s) = wrB (GPU_CLUSTER d c) GPU_CLUSTER_POWERED false (setPowered d (bitCluster c) false (fresh s)) := by
    refine if_neg ?_
    rw [flag_fresh, rd_fresh, hk, hu, show clusterJob (fresh s) d c = none from hj]
    simp only [Option.isSome_none, Bool.false_eq_true, or_false]
    omega
  have hne : UNIT_POWERED d ≠ GPU_CLUSTER d c := by
    unfold UNIT_POWERED GPU_CLUSTER
    omega
  obtain ⟨h1, h2⟩ := setPowered_off d (bitCluster c) (fresh s)
  have hend : RegsOnly (fresh s) (wrB (GPU_CLUSTER d c) GPU_CLUSTER_POWERED false (setPowered d (bitCluster c) false (fresh s))) := h1.1.trans (regsOnly_wr _ _ _)
  refine ⟨_, congrArg Host.Outcome.next (ran_regsOnly hend hgo), hend.fresh, flag_wrB_same _ _ _ _ (by decide) (by decide), ?_, fun a ha hb => ?_⟩
  · rw [rd_wrB_ne hne, h2]
  · rw [rd_wrB_ne ha, h1.2 a (by simpa using hb), rd_fresh]

/-! ## The context store (R272) -/

theorem rangeTaken_congr {s t : State} (hr : ∀ a, t.rd a = s.rd a) (ht : t.tenants = s.tenants) (d : Die) (base size : Nat) : rangeTaken t d base size = rangeTaken s d base size := by
  unfold rangeTaken
  rw [rdF_of_rd (hr _), rdF_of_rd (hr _), ht]

/-- The context store's register as a write of it leaves it, where the write is taken. -/
def storeTaken (a : Nat) (v : Word) (s : State) : State :=
  if GPU_CTX_STORE_LOCK.get v = 0 then wrF a GPU_CTX_STORE_BASE_2M (GPU_CTX_STORE_BASE_2M.get v) s
  else wrB a GPU_CTX_STORE_LOCK true (wrF a GPU_CTX_STORE_BASE_2M (GPU_CTX_STORE_BASE_2M.get v) s)

theorem storeTaken_rule (a : Nat) (v : Word) (s : State) (hl : s.flag a GPU_CTX_STORE_LOCK = false) :
    RegsOnly s (storeTaken a v s) ∧ (storeTaken a v s).rdF a GPU_CTX_STORE_BASE_2M = GPU_CTX_STORE_BASE_2M.get v
      ∧ (storeTaken a v s).flag a GPU_CTX_STORE_LOCK = decide (GPU_CTX_STORE_LOCK.get v = 1) ∧ ∀ b, b ≠ a → (storeTaken a v s).rd b = s.rd b := by
  have hbase : GPU_CTX_STORE_BASE_2M.get v < 2 ^ GPU_CTX_STORE_BASE_2M.len := get_lt _ _
  have hlock : GPU_CTX_STORE_LOCK.get v < 2 := get_lt _ _
  unfold storeTaken
  split
  case isTrue h =>
    refine ⟨regsOnly_wr _ _ _, rdF_wrF_of_lt (by decide) hbase, ?_, fun b hb => rd_wr_ne hb _ _⟩
    rw [flag_wrF_other _ _ _ _ _ (by decide) (by decide), hl, h]
    rfl
  case isFalse h =>
    refine ⟨(regsOnly_wr _ _ _).trans (regsOnly_wr _ _ _), ?_, ?_, fun b hb => (rd_wr_ne hb _ _).trans (rd_wr_ne hb _ _)⟩
    · rw [rdF_wrB_other _ _ _ _ _ (by decide) (by decide)]
      exact rdF_wrF_of_lt (by decide) hbase
    · rw [flag_wrB_same _ _ _ _ (by decide) (by decide), decide_eq_true (by omega)]

theorem ctxStoreWrite_taken {f : Fun} {v : Word} {s : State} (hrow : (accessRow s f (addrOff (GPU_CTX_STORE f.ep))).isSome = true) (hl : s.flag (GPU_CTX_STORE f.ep) GPU_CTX_STORE_LOCK = false)
    (hok : GPU_CTX_STORE_LOCK.get v = 0 ∨ (GPU_CTX_STORE_BASE_2M.get v * 2 ^ 21 + 2 ^ 23 ≤ fitted s f.ep ∧ rangeTaken s f.ep (GPU_CTX_STORE_BASE_2M.get v * 2 ^ 21) (2 ^ 23) = false)) :
    ctxStoreWrite f v s = storeTaken (GPU_CTX_STORE f.ep) v s := by
  unfold ctxStoreWrite storeTaken
  dsimp only
  rw [if_neg (fun h => h.elim (isNone_false_of_isSome hrow) (by rw [hl]; exact Bool.false_ne_true))]
  by_cases h0 : GPU_CTX_STORE_LOCK.get v = 0
  · rw [if_pos h0, if_pos h0]
  · obtain ⟨hfit, hfree⟩ := hok.resolve_left h0
    rw [if_neg h0, if_neg h0, if_neg (by rw [hfree]; simp only [Bool.false_eq_true, or_false]; omega)]

theorem gpuCtxStoreLock_locked {f : Fun} {v : Word} {s : State} (hl : s.flag (GPU_CTX_STORE f.ep) GPU_CTX_STORE_LOCK = true) : exec (.gpuCtxStoreLock f v) s = .next (fresh s) := by
  have hsame : ctxStoreWrite f v (fresh s) = fresh s := by
    unfold ctxStoreWrite
    dsimp only
    rw [if_pos (.inr ((flag_fresh _ _ _).trans hl))]
  exact congrArg Host.Outcome.next (ran_same hsame)

theorem gpuCtxStoreLock_rule {f : Fun} {v : Word} {s : State} (hrow : (accessRow s f (addrOff (GPU_CTX_STORE f.ep))).isSome = true) (hl : s.flag (GPU_CTX_STORE f.ep) GPU_CTX_STORE_LOCK = false)
    (hok : GPU_CTX_STORE_LOCK.get v = 0 ∨ (GPU_CTX_STORE_BASE_2M.get v * 2 ^ 21 + 2 ^ 23 ≤ fitted s f.ep ∧ rangeTaken s f.ep (GPU_CTX_STORE_BASE_2M.get v * 2 ^ 21) (2 ^ 23) = false)) :
    ∃ t, exec (.gpuCtxStoreLock f v) s = .next t ∧ t = { s with regs := t.regs, out := [] } ∧ t.rdF (GPU_CTX_STORE f.ep) GPU_CTX_STORE_BASE_2M = GPU_CTX_STORE_BASE_2M.get v
      ∧ t.flag (GPU_CTX_STORE f.ep) GPU_CTX_STORE_LOCK = decide (GPU_CTX_STORE_LOCK.get v = 1) ∧ ∀ a, a ≠ GPU_CTX_STORE f.ep → t.rd a = s.rd a := by
  have hgo : ctxStoreWrite f v (fresh s) = storeTaken (GPU_CTX_STORE f.ep) v (fresh s) := by
    refine ctxStoreWrite_taken (by rw [accessRow_fresh, hrow]) (by rw [flag_fresh, hl]) ?_
    rw [rangeTaken_congr (rd_fresh s) rfl, show fitted (fresh s) f.ep = fitted s f.ep by rw [fitted, fitted, rdF_fresh]]
    exact hok
  obtain ⟨h1, h2, h3, h4⟩ := storeTaken_rule (GPU_CTX_STORE f.ep) v (fresh s) (by rw [flag_fresh, hl])
  exact ⟨_, congrArg Host.Outcome.next (ran_regsOnly h1 hgo), h1.fresh, h2, h3, fun a ha => (h4 a ha).trans (rd_fresh _ _)⟩

/-! ## The counters' register (R289) -/

theorem gpuPc_inj (d : Die) (i j : Nat) (h : GPU_PC d i = GPU_PC d j) : i = j := by
  unfold GPU_PC at h
  omega

theorem pcCtrl_ne_pc {d : Die} {i : Nat} (hi : i < 24) : GPU_PC_CTRL d ≠ GPU_PC d i := by
  unfold GPU_PC_CTRL GPU_PC
  omega

theorem schedStatus_ne_pc {d : Die} {i : Nat} (hi : i < 24) : GPU_SCHED_STATUS d ≠ GPU_PC d i := by
  unfold GPU_SCHED_STATUS GPU_PC
  omega

theorem pcCtrl_ne_schedStatus (d : Die) : GPU_PC_CTRL d ≠ GPU_SCHED_STATUS d := by
  unfold GPU_PC_CTRL GPU_SCHED_STATUS
  omega

/-- The counters of a die cleared. -/
def countersCleared (d : Die) (s : State) : State :=
  (upto 24).foldl (fun t i => wr (GPU_PC d i) 0 t) (wrF (GPU_SCHED_STATUS d) GPU_SCHED_STATUS_PREEMPT_MAX_US 0 s)

theorem countersCleared_rule (d : Die) (s : State) : RegsOnly s (countersCleared d s) ∧ (∀ i, i < 24 → (countersCleared d s).rd (GPU_PC d i) = 0)
    ∧ (countersCleared d s).rdF (GPU_SCHED_STATUS d) GPU_SCHED_STATUS_PREEMPT_MAX_US = 0
    ∧ ∀ a, a ≠ GPU_SCHED_STATUS d → (∀ i, i < 24 → a ≠ GPU_PC d i) → (countersCleared d s).rd a = s.rd a := by
  have hstep : ∀ i t, Touches [GPU_PC d i] t (wr (GPU_PC d i) 0 t) := fun i t => Touches.rfl.wr _
  have hkeep : ∀ a, (∀ i, i < 24 → a ≠ GPU_PC d i) → (countersCleared d s).rd a = (wrF (GPU_SCHED_STATUS d) GPU_SCHED_STATUS_PREEMPT_MAX_US 0 s).rd a := fun a ha => by
    refine (foldl_ownReg_other hstep (upto 24) _).2 a fun hm => ?_
    obtain ⟨i, hi, e⟩ := List.mem_map.1 hm
    exact ha i (List.mem_range.1 hi) e.symm
  refine ⟨(regsOnly_wr _ _ _).trans (foldl_ownReg_other hstep (upto 24) _).1, fun i hi => ?_, ?_, fun a ha hb => (hkeep a hb).trans (rd_wrF_ne ha _ _ _)⟩
  · obtain ⟨t, -, -, h3⟩ := foldl_ownReg (gpuPc_inj d) hstep (nodup_upto 24) (mem_upto hi) (wrF (GPU_SCHED_STATUS d) GPU_SCHED_STATUS_PREEMPT_MAX_US 0 s)
    exact h3.trans (rd_wr_same _ _ _)
  · rw [rdF_of_rd (hkeep _ fun i hi => schedStatus_ne_pc hi)]
    exact rdF_wrF_of_lt (by decide) (by decide)

theorem gpuPcClear_rule {f : Fun} {v : Word} {s : State} (hrow : (accessRow s f (addrOff (GPU_PC_CTRL f.ep))).isSome = true) :
    ∃ t, exec (.gpuPcClear f v) s = .next t ∧ t = { s with regs := t.regs, gpus := t.gpus, out := [] } ∧ t.rdF (GPU_PC_CTRL f.ep) GPU_PC_CTRL_FREEZE = GPU_PC_CTRL_FREEZE.get v
      ∧ (GPU_PC_CTRL_CLEAR.get v = 1 → (∀ i, i < 24 → t.rd (GPU_PC f.ep i) = 0) ∧ t.rdF (GPU_SCHED_STATUS f.ep) GPU_SCHED_STATUS_PREEMPT_MAX_US = 0)
      ∧ ∀ a, a ≠ GPU_PC_CTRL f.ep → a ≠ GPU_SCHED_STATUS f.ep → (∀ i, i < 24 → a ≠ GPU_PC f.ep i) → t.rd a = s.rd a := by
  obtain ⟨x, hx⟩ : ∃ x, x = wrF (GPU_PC_CTRL f.ep) GPU_PC_CTRL_FREEZE (GPU_PC_CTRL_FREEZE.get v) (account f.ep (fresh s)) := ⟨_, rfl⟩
  have hgo : pcCtrlWrite f v (fresh s) = if GPU_PC_CTRL_CLEAR.get v = 0 then x else countersCleared f.ep x := by
    unfold pcCtrlWrite countersCleared
    dsimp only
    rw [accessRow_fresh, if_neg (isNone_false_of_isSome hrow), ← hx]
  have hfreeze : x.rdF (GPU_PC_CTRL f.ep) GPU_PC_CTRL_FREEZE = GPU_PC_CTRL_FREEZE.get v := by
    rw [hx]
    exact rdF_wrF_of_lt (by decide) (get_lt _ _)
  have hx1 : Only (fun u => { u with regs := [], gpus := [] }) (fresh s) x := by
    rw [hx]
    exact (account_only _ _).wrF _ _ _
  have hxrd : ∀ a, a ≠ GPU_PC_CTRL f.ep → (∀ i, i < 24 → a ≠ GPU_PC f.ep i) → x.rd a = s.rd a := fun a ha hb => by
    rw [hx, rd_wrF_ne ha, account_rd _ _ hb, rd_fresh]
  obtain ⟨h1, h2, h3, h4⟩ := countersCleared_rule f.ep x
  split at hgo
  case isTrue h =>
    exact ⟨_, congrArg Host.Outcome.next (hx1.ran hgo), hx1.regsGpus, hfreeze, fun h1 => absurd (h.symm.trans h1) (by decide), fun a ha _ hb => hxrd a ha hb⟩
  case isFalse h =>
    have hend := hx1.trans (Only.of_regsOnly h1)
    refine ⟨_, congrArg Host.Outcome.next (hend.ran hgo), hend.regsGpus, ?_, fun _ => ⟨h2, h3⟩, fun a ha hb hc => (h4 a hb hc).trans (hxrd a ha hc)⟩
    rw [rdF_of_rd (h4 _ (pcCtrl_ne_schedStatus _) fun i hi => pcCtrl_ne_pc hi), hfreeze]

/-- Settles O45: the share window, cluster power, the context store and the counters. -/
theorem gpuRegistersAct : Obligations.GpuRegistersAct := by
  refine ⟨fun d s => ?_, fun d c s hc hj hk hu => clusterIdleOff_rule hc hj hk hu, fun f v s hrow => ⟨gpuCtxStoreLock_locked, gpuCtxStoreLock_rule hrow⟩,
    fun f v s hrow => gpuPcClear_rule hrow⟩
  obtain ⟨t, h1, h2, h3, h4, h5⟩ := gpuShareWindow_rule d s
  refine ⟨t, h1, h2, h3, h4, fun i hi h0 => (h5 i hi).trans (if_pos (.inr h0)), fun i hi h0 hp => (h5 i hi).trans (if_neg ?_)⟩
  have hpos : 0 < (presentClusters s d).length := List.length_pos_of_ne_nil hp
  exact fun h => h.elim (fun h => by omega) h0

end Sys2Proof.Machine
end

section
/-! Power states (R407–R412). -/
namespace Sys2Proof.Machine

/-! ## The power of a die -/

theorem power_fresh (s : State) (d : Die) : (fresh s).power d = s.power d := rfl
theorem power_setPower_same (d : Die) (x : Power) (s : State) : (setPower d x s).power d = x := tget_tset_same _ _ _ _
theorem power_setPower_ne {d e : Die} (h : e ≠ d) (x : Power) (s : State) : (setPower d x s).power e = s.power e := tget_tset_ne _ (idx_ne_of_ne h) _ _
theorem rd_setPower (d : Die) (x : Power) (s : State) (a : Nat) : (setPower d x s).rd a = s.rd a := rd_congr rfl rfl a
theorem power_of_regsOnly {s t : State} (h : RegsOnly s t) (d : Die) : t.power d = s.power d := congrArg (tget Power.empty d.idx) (congrArg State.powers h.eq :)
theorem powerState_fresh (s : State) (d : Die) : powerState (fresh s) d = powerState s d := rdF_fresh _ _ _
theorem powerState_of_rd {s t : State} {d : Die} (h : t.rd (POWER_STATUS d) = s.rd (POWER_STATUS d)) : powerState t d = powerState s d := rdF_of_rd h _

theorem Only.setPower {m : State → State} {s t : State} (h : Only m s t) (d : Die) (x : Power)
    (hm : ∀ u r, m { u with powers := r } = m u := by intros; rfl) : Only m s (setPower d x t) := (hm _ _).trans h
theorem Only.setBoot {m : State → State} {s t : State} (h : Only m s t) (d : Die) (x : Boot)
    (hm : ∀ u r, m { u with boots := r } = m u := by intros; rfl) : Only m s (setBoot d x t) := (hm _ _).trans h
theorem Only.setPermit {m : State → State} {s t : State} (h : Only m s t) (d : Die) (x : Permit)
    (hm : ∀ u r, m { u with permits := r } = m u := by intros; rfl) : Only m s (setPermit d x t) := (hm _ _).trans h

theorem Only.powersOnly {s t : State} (h : Only (fun u => { u with powers := [] }) (fresh s) t) : t = { s with powers := t.powers, out := [] } :=
  congrArg (fun u => { u with powers := t.powers }) h
theorem Only.powersPermits {s t : State} (h : Only (fun u => { u with powers := [], permits := [] }) (fresh s) t) : t = { s with powers := t.powers, permits := t.permits, out := [] } :=
  congrArg (fun u => { u with powers := t.powers, permits := t.permits }) h
theorem Only.regsPowers {s t : State} (h : Only (fun u => { u with regs := [], powers := [] }) (fresh s) t) : t = { s with regs := t.regs, powers := t.powers, out := [] } :=
  congrArg (fun u => { u with regs := t.regs, powers := t.powers }) h
theorem Only.regsPowersBoots {s t : State} (h : Only (fun u => { u with regs := [], powers := [], boots := [] }) (fresh s) t) :
    t = { s with regs := t.regs, powers := t.powers, boots := t.boots, out := [] } :=
  congrArg (fun u => { u with regs := t.regs, powers := t.powers, boots := t.boots }) h

theorem powerStatus_ne : ∀ {d e : Die}, e ≠ d → POWER_STATUS e ≠ POWER_STATUS d
  | .a, .a, h => absurd rfl h
  | .a, .b, _ => by decide
  | .b, .a, _ => by decide
  | .b, .b, h => absurd rfl h

theorem powerStatus_notin_floor (d e : Die) : POWER_STATUS e ∉ floorRegs d := by
  cases d <;> cases e <;> decide

/-! ## Entry to PEARL (R407) -/

theorem atRest_fresh (s : State) (d : Die) : atRest (fresh s) d = atRest s d := by
  unfold atRest
  simp only [flag_fresh, head_fresh, gpu_fresh]
  rfl

theorem pearlReached_waits {d : Die} {s : State} (h : powerState s (powerDie s d) ≠ 1 ∨ ∃ e ∈ actedDies s (powerDie s d), atRest s e = false) : pearlReached d s = s := by
  unfold pearlReached
  dsimp only
  rw [if_pos (h.imp_right fun ⟨e, he, hf⟩ => List.all_eq_false.2 ⟨e, he, by rw [hf]; exact Bool.false_ne_true⟩)]

theorem pearlReached_gates {d : Die} {s : State} (h1 : powerState s (powerDie s d) = 1) (h2 : ∀ e ∈ actedDies s (powerDie s d), atRest s e = true) :
    pearlReached d s = levelSources (powerDie s d) ((actedDies s (powerDie s d)).foldl (fun t e => postPower e 2 0xFF t) (requestDone (powerDie s d)
      (refreshFtRail ((actedDies s (powerDie s d)).foldl (fun t e => t |> gateDie e |> setPowerState e 2 |> refreshFloor e) s)))) := by
  unfold pearlReached
  dsimp only
  rw [if_neg (fun h => h.elim (fun h => h h1) fun h => absurd (h.symm.trans (List.all_eq_true.2 h2)) (by decide))]

/-! ## Leaving PEARL (R409) -/

/-- The exit begun on a die, for a wake source. -/
def exitBegun (bit : Nat) (t : State) (d : Die) : State :=
  t |> setPowerState d 3 |> wrF (POWER_STATUS d) POWER_STATUS_LAST_WAKE bit |> setPower d { t.power d with step := 1 } |> refreshFloor d

theorem exitBegun_same (bit : Nat) (t : State) (d : Die) : powerState (exitBegun bit t d) d = 3 ∧ ((exitBegun bit t d).power d).step = 1
    ∧ (exitBegun bit t d).rdF (POWER_STATUS d) POWER_STATUS_LAST_WAKE = bit % 2 ^ POWER_STATUS_LAST_WAKE.len := by
  obtain ⟨u, hu⟩ : ∃ u, u = setPower d { t.power d with step := 1 } (wrF (POWER_STATUS d) POWER_STATUS_LAST_WAKE bit (setPowerState d 3 t)) := ⟨_, rfl⟩
  have he : exitBegun bit t d = refreshFloor d u := by rw [hu]; rfl
  have hrd : (exitBegun bit t d).rd (POWER_STATUS d) = (wrF (POWER_STATUS d) POWER_STATUS_LAST_WAKE bit (setPowerState d 3 t)).rd (POWER_STATUS d) := by
    rw [he, (refreshFloor_touches d u).2 _ (powerStatus_notin_floor d d), hu, rd_setPower]
  refine ⟨?_, ?_, ?_⟩
  · refine (rdF_of_rd hrd _).trans ((rdF_wrF_other _ _ _ _ _ (by decide) (by decide)).trans ?_)
    exact rdF_wrF_of_lt (by decide) (by decide)
  · rw [he, power_of_regsOnly (refreshFloor_touches d u).1, hu, power_setPower_same]
  · exact (rdF_of_rd hrd _).trans (rdF_wrF_same _ _ _ _ (by decide))

theorem exitBegun_other (bit : Nat) (t : State) {d e : Die} (h : e ≠ d) : (exitBegun bit t d).rd (POWER_STATUS e) = t.rd (POWER_STATUS e) ∧ (exitBegun bit t d).power e = t.power e := by
  obtain ⟨u, hu⟩ : ∃ u, u = setPower d { t.power d with step := 1 } (wrF (POWER_STATUS d) POWER_STATUS_LAST_WAKE bit (setPowerState d 3 t)) := ⟨_, rfl⟩
  have he : exitBegun bit t d = refreshFloor d u := by rw [hu]; rfl
  have hne := powerStatus_ne h
  constructor
  · rw [he, (refreshFloor_touches d u).2 _ (powerStatus_notin_floor d e), hu, rd_setPower, rd_wrF_ne hne]
    exact rd_wr_ne hne _ _
  · rw [he, power_of_regsOnly (refreshFloor_touches d u).1, hu, power_setPower_ne h]
    rfl

/-- The exit has begun on a die. -/
def Leaving (bit : Nat) (t : State) (e : Die) : Prop :=
  powerState t e = 3 ∧ (t.power e).step = 1 ∧ t.rdF (POWER_STATUS e) POWER_STATUS_LAST_WAKE = bit % 2 ^ POWER_STATUS_LAST_WAKE.len

theorem leaving_exitBegun (bit : Nat) (t : State) (d : Die) : Leaving bit (exitBegun bit t d) d := exitBegun_same bit t d

theorem Leaving.exitBegun {bit : Nat} {t : State} {e : Die} (h : Leaving bit t e) {d : Die} (hne : e ≠ d) : Leaving bit (exitBegun bit t d) e := by
  obtain ⟨h1, h2, h3⟩ := h
  obtain ⟨k1, k2⟩ := exitBegun_other bit t hne
  exact ⟨(powerState_of_rd k1).trans h1, by rw [k2, h2], (rdF_of_rd k1 _).trans h3⟩

theorem foldl_bothDies {β : Type} (g : β → Die → β) (x : β) : bothDies.foldl g x = g (g x .a) .b := rfl

theorem leaving_all (bit : Nat) (s : State) (g : Die) : ∀ e ∈ actedDies s g, Leaving bit ((actedDies s g).foldl (exitBegun bit) s) e := by
  unfold actedDies
  split
  · intro e he
    rw [List.mem_singleton.1 he, List.foldl_cons, List.foldl_nil]
    exact leaving_exitBegun _ _ _
  · intro e _
    rw [foldl_bothDies]
    cases e
    · exact (leaving_exitBegun bit s .a).exitBegun (by decide)
    · exact leaving_exitBegun bit _ .b

/-- The rail's flag follows the states, and nothing else of a power register does. -/
theorem refreshFtRail_keeps (s : State) (e : Die) (f : Fld) (hf : POWER_STATUS_FT_RAIL_ON.lo + POWER_STATUS_FT_RAIL_ON.len ≤ f.lo ∨ f.lo + f.len ≤ POWER_STATUS_FT_RAIL_ON.lo) :
    (refreshFtRail s).rdF (POWER_STATUS e) f = s.rdF (POWER_STATUS e) f := by
  have hother : ∀ (d : Die) (on : Bool) (t : State), (wrB (POWER_STATUS d) POWER_STATUS_FT_RAIL_ON on t).rdF (POWER_STATUS e) f = t.rdF (POWER_STATUS e) f := fun d on t => by
    by_cases h : e = d
    · rw [h]
      exact rdF_wrB_other _ _ _ _ _ (by decide) hf.symm
    · exact rdF_wrB_ne (powerStatus_ne h) _ _ _ _
  exact (hother .b _ _).trans (hother .a _ _)

theorem refreshFtRail_power (s : State) (e : Die) : (refreshFtRail s).power e = s.power e := rfl

theorem refreshFtRail_on {s : State} {e : Die} (h : powerState s e ≠ 2) : (refreshFtRail s).flag (POWER_STATUS .a) POWER_STATUS_FT_RAIL_ON = true := by
  have hall : bothDies.all (fun d => powerState s d == 2) = false :=
    List.all_eq_false.2 ⟨e, by cases e <;> decide, fun hc => h (by simpa using hc)⟩
  unfold refreshFtRail
  rw [hall]
  exact (flag_wrB_ne (by decide) _ _ _ _).trans (flag_wrB_same _ _ _ _ (by decide) (by decide))

theorem beginExit_wakes {d : Die} {b : Nat} {rest : List Nat} {s : State} (h : powerState s (powerDie s d) = 2) (hw : (s.power (powerDie s d)).wakes = b :: rest) :
    beginExit d s = refreshFtRail ((actedDies s (powerDie s d)).foldl (exitBegun (2 ^ b)) s) := by
  unfold beginExit
  dsimp only
  rw [if_neg (fun hc => hc.elim (fun hc => hc h) fun hc => by rw [hw] at hc; cases hc.1), hw]
  rfl

theorem pearlExit_rule {d : Die} {b : Nat} {rest : List Nat} {s : State} (h : powerState s (powerDie s d) = 2) (hw : (s.power (powerDie s d)).wakes = b :: rest) :
    ∃ t, exec (.pearlExit d) s = .next t ∧ (∀ e ∈ actedDies s (powerDie s d), powerState t e = 3 ∧ (t.power e).step = 1 ∧ t.rdF (POWER_STATUS e) POWER_STATUS_LAST_WAKE = 2 ^ b % 2 ^ POWER_STATUS_LAST_WAKE.len)
      ∧ t.flag (POWER_STATUS .a) POWER_STATUS_FT_RAIL_ON = true := by
  obtain ⟨x, hx⟩ : ∃ x, x = (actedDies (fresh s) (powerDie (fresh s) d)).foldl (exitBegun (2 ^ b)) (fresh s) := ⟨_, rfl⟩
  have hgo : beginExit d (fresh s) = refreshFtRail x := by
    rw [hx]
    exact beginExit_wakes ((powerState_fresh _ _).trans h) hw
  have hall : ∀ e ∈ actedDies s (powerDie s d), Leaving (2 ^ b) x e := by
    rw [hx]
    exact leaving_all (2 ^ b) (fresh s) (powerDie (fresh s) d)
  have hrd : ∀ a, (ran (beginExit d) s).rd a = (refreshFtRail x).rd a := fun a => by rw [ran_rd, hgo]
  refine ⟨ran (beginExit d) s, rfl, fun e he => ?_, ?_⟩
  · obtain ⟨h1, h2, h3⟩ := hall e he
    refine ⟨(powerState_of_rd (hrd _)).trans ((refreshFtRail_keeps x e _ (by decide)).trans h1), ?_, (rdF_of_rd (hrd _) _).trans ((refreshFtRail_keeps x e _ (by decide)).trans h3)⟩
    have hp : (ran (beginExit d) s).power e = (beginExit d (fresh s)).power e := rfl
    rw [hp, hgo, refreshFtRail_power, h2]
  · have hg : powerDie s d ∈ actedDies s (powerDie s d) := by
      unfold actedDies
      split
      · exact List.mem_singleton_self _
      · cases powerDie s d <;> decide
    obtain ⟨h1, -⟩ := hall _ hg
    rw [flag_of_rd (hrd _)]
    exact refreshFtRail_on (h1.trans_ne (by decide))

theorem ftRailSettled_rule {d : Die} {s : State} (h : powerState s d = 3) (hs : (s.power d).step = 1) :
    ∃ t, exec (.ftRailSettled d) s = .next t ∧ t = { s with powers := t.powers, permits := t.permits, out := [] } ∧ t.power d = { s.power d with step := 2 }
      ∧ (t.permit d).asks = (s.permit d).asks ++ [⟨2, 0, true, s.now d, false⟩] := by
  have hgo : railSettled d (fresh s) = askLeave d 2 0 true (setPower d { s.power d with step := 2 } (fresh s)) := if_pos ⟨(powerState_fresh _ _).trans h, hs⟩
  have hend : Only (fun u => { u with powers := [], permits := [] }) (fresh s) (askLeave d 2 0 true (setPower d { s.power d with step := 2 } (fresh s))) := (Only.rfl.setPower _ _).setPermit _ _
  refine ⟨_, congrArg Host.Outcome.next (hend.ran hgo), hend.powersPermits, power_setPower_same _ _ _, ?_⟩
  exact congrArg Permit.asks (permit_setPermit_same d _ _)

/-! ## The bulk refresh (R409) -/

/-- A die whose bulk refresh has ended. -/
def refreshed (d : Die) (s : State) : State := setPower d { s.power d with step := 3 } (useLeave d 2 0 s)

theorem bulkDone_eq {d : Die} {s : State} (h1 : powerState s d = 3) (h2 : (s.power d).step = 2) (h3 : hasLeave s d 2 0 = true) :
    bulkDone d s = if (actedDies s (powerDie s d)).all (fun e => ((refreshed d s).power e).step == 3)
      then (actedDies s (powerDie s d)).foldl (fun t e => fullReached e (((refreshed d s).power (powerDie s d)).wakes.headD 0xFF) t) (refreshed d s) else refreshed d s := by
  unfold bulkDone
  rw [if_neg (by rw [h1, h2, h3]; decide)]
  rfl

theorem ftBulkRefreshDone_rule {d : Die} {s s1 : State} (hs1 : s1 = setPower d { s.power d with step := 3 } (useLeave d 2 0 (fresh s))) (h1 : powerState s d = 3) (h2 : (s.power d).step = 2)
    (h3 : hasLeave s d 2 0 = true) :
    ((∃ e ∈ actedDies s (powerDie s d), (s1.power e).step ≠ 3) → exec (.ftBulkRefreshDone d) s = .next (ran (fun _ => s1) s))
      ∧ ((∀ e ∈ actedDies s (powerDie s d), (s1.power e).step = 3) → exec (.ftBulkRefreshDone d) s =
          .next (ran (fun _ => (actedDies s (powerDie s d)).foldl (fun t e => fullReached e ((s1.power (powerDie s d)).wakes.headD 0xFF) t) s1) s)) := by
  have hr : refreshed d (fresh s) = s1 := hs1.symm
  have hgo := bulkDone_eq (d := d) (s := fresh s) ((powerState_fresh _ _).trans h1) h2 h3
  rw [hr] at hgo
  constructor
  · rintro ⟨e, he, hne⟩
    refine congrArg Host.Outcome.next (ran_congr (hgo.trans (if_neg fun hall => hne ?_)))
    exact beq_iff_eq.1 (List.all_eq_true.1 hall e he)
  · intro hall
    exact congrArg Host.Outcome.next (ran_congr (hgo.trans (if_pos (List.all_eq_true.2 fun e he => beq_iff_eq.2 (hall e he)))))

/-! ## Wake sources (R408) -/

theorem wakeUp_rule {d : Die} {src : Nat} {s : State} (h : powerState s (powerDie s d) = 1 ∨ powerState s (powerDie s d) = 2)
    (hen : nbit (s.rdF (POWER_CFG (powerDie s d)) POWER_CFG_WAKE_EN) src = true) (hc : (s.power (powerDie s d)).wakes.contains src = false) :
    wakeUp d src s = setPower (powerDie s d) { s.power (powerDie s d) with wakes := (s.power (powerDie s d)).wakes ++ [src] } s :=
  if_pos ⟨h, hen, hc⟩

theorem wakeUp_elsewhere {d : Die} {src : Nat} {s : State} (h1 : powerState s (powerDie s d) ≠ 1) (h2 : powerState s (powerDie s d) ≠ 2) : wakeUp d src s = s :=
  if_neg fun hc => hc.1.elim h1 h2

theorem rd64_fresh (s : State) (a : Nat) : (fresh s).rd64 a = s.rd64 a := rd64_of_rd (rd_fresh _ _) (rd_fresh _ _)

/-- The timer of a die is due. -/
def timerDue (d : Die) (s : State) : Prop :=
  s.rd64 (WAKE_TIMER_LO d) ≠ 0 ∧ s.rd64 (WAKE_TIMER_LO d) ≤ max (s.now d) (s.tbase d).counter ∧ powerDie s d = d

theorem timerDue_fresh (d : Die) (s : State) : timerDue d (fresh s) ↔ timerDue d s := by
  unfold timerDue
  rw [rd64_fresh]
  rfl

theorem wakeTimer_waits {d : Die} {s : State} (h : ¬timerDue d s) : exec (.wakeTimerReached d) s = .next (fresh s) := by
  have hsame : wakeTimer d (fresh s) = fresh s := if_neg (c := timerDue d (fresh s)) (by rwa [timerDue_fresh])
  exact congrArg Host.Outcome.next (ran_same hsame)

theorem wakeTimer_fires {d : Die} {s : State} (h : timerDue d s) : wakeTimer d s =
    if s.flag (XING_STATUS d 0xC7) XING_STATUS_PEER_RESET = true ∨ (s.xing d 0xC7).stopped = true then xingPulse d 0xC7 s else wakeUp d 5 (xingPulse d 0xC7 s) :=
  if_pos h

theorem wakeTimerReached_rule {d : Die} {s : State} (h : timerDue d s) :
    (s.flag (XING_STATUS d 0xC7) XING_STATUS_PEER_RESET = true ∨ (s.xing d 0xC7).stopped = true → exec (.wakeTimerReached d) s = .next (ran (xingPulse d 0xC7) s))
      ∧ (s.flag (XING_STATUS d 0xC7) XING_STATUS_PEER_RESET = false → (s.xing d 0xC7).stopped = false → exec (.wakeTimerReached d) s = .next (ran (fun u => wakeUp d 5 (xingPulse d 0xC7 u)) s)) := by
  have hgo := wakeTimer_fires ((timerDue_fresh d s).2 h)
  rw [flag_fresh] at hgo
  constructor
  · intro hup
    exact congrArg Host.Outcome.next (ran_congr (hgo.trans (if_pos hup)))
  · intro h1 h2
    refine congrArg Host.Outcome.next (ran_congr (hgo.trans (if_neg fun hc => ?_)))
    exact hc.elim (fun hc => absurd (h1.symm.trans hc) (by decide)) fun hc => absurd (h2.symm.trans hc) (by decide)

theorem wakenLow_rule (us : Nat) (s : State) : (us < 10 → ∃ t, exec (.wakenLow us) s = .next t ∧ t = { s with powers := t.powers, out := [] } ∧ ∀ d, t.power d = { s.power d with wakeLow := us })
    ∧ (10 ≤ us → exec (.wakenLow us) s = .next (ran (fun u => bothDies.foldl (fun t d =>
        if (t.power d).onyx then setPower d { t.power d with wakeLow := us } t else wakeUp d 0 (setPower d { t.power d with wakeLow := us } t)) u) s)) := by
  constructor
  · intro hus
    have hgo : wakenPin us (fresh s) = setPower .b { s.power .b with wakeLow := us } (setPower .a { s.power .a with wakeLow := us } (fresh s)) := by
      have hno : ∀ p : Prop, ¬(10 ≤ us ∧ p) := fun p h => by omega
      unfold wakenPin
      rw [foldl_bothDies]
      dsimp only
      rw [if_neg (hno _), if_neg (hno _), power_setPower_ne (by decide)]
      rfl
    have hend : Only (fun u => { u with powers := [] }) (fresh s) (setPower .b { s.power .b with wakeLow := us } (setPower .a { s.power .a with wakeLow := us } (fresh s))) :=
      (Only.rfl.setPower _ _).setPower _ _
    refine ⟨_, congrArg Host.Outcome.next (hend.ran hgo), hend.powersOnly, fun d => ?_⟩
    cases d
    · rw [power_setPower_ne (by decide), power_setPower_same]
    · exact power_setPower_same _ _ _
  · intro hus
    have hstep : ∀ t d, (let t1 := setPower d { t.power d with wakeLow := us } t
        if 10 ≤ us ∧ (t1.power d).onyx = false then wakeUp d 0 t1 else t1)
        = if (t.power d).onyx then setPower d { t.power d with wakeLow := us } t else wakeUp d 0 (setPower d { t.power d with wakeLow := us } t) := fun t d => by
      dsimp only
      rw [power_setPower_same]
      cases hx : (t.power d).onyx
      · rw [if_pos ⟨hus, rfl⟩, if_neg Bool.false_ne_true]
      · rw [if_neg (fun hc => absurd hc.2 (by decide)), if_pos rfl]
    have hgo : wakenPin us = fun u => bothDies.foldl (fun t d =>
        if (t.power d).onyx then setPower d { t.power d with wakeLow := us } t else wakeUp d 0 (setPower d { t.power d with wakeLow := us } t)) u := by
      funext u
      exact congrArg (fun g => bothDies.foldl g u) (funext fun t => funext fun d => hstep t d)
    exact congrArg (fun g => Host.Outcome.next (ran g s)) hgo

/-! ## ONYX (R410, R411) -/

theorem powerLost_rule (onyx : Bool) (s : State) : (powerLost onyx s).porLow = true
    ∧ (∀ d, ((powerLost onyx s).power d).onyx = onyx ∧ ((powerLost onyx s).boot d).pwrenAon = !onyx ∧ ((powerLost onyx s).boot d).running = false)
    ∧ (powerLost onyx s).routes = [] ∧ (powerLost onyx s).tenants = [] ∧ (powerLost onyx s).poison = []
    ∧ (powerLost onyx s).regs = keepRegs [.vstby] s.regs := by
  refine ⟨rfl, fun d => ?_, rfl, rfl, rfl, rfl⟩
  cases d <;> exact ⟨rfl, rfl, rfl⟩

theorem tfind_keepRegs (keep : List Domain) (regs : Tab Word) (a : Nat) : tfind a (keepRegs keep regs) = if (domainOf a).any keep.contains then tfind a regs else none :=
  tfind_tkeep _ _ _

theorem onyxReached_ends {s : State} (h1 : powerState s .a = 4) (h2 : s.split = false) (h3 : atRest s .a = true) (h4 : atRest s .b = true) : ∃ u, onyxReached s = powerLost true u := by
  have hall : bothDies.all (atRest s) = true := List.all_eq_true.2 fun e _ => by cases e <;> assumption
  unfold onyxReached
  rw [if_neg (by rw [h1, h2, hall]; decide)]
  exact ⟨_, rfl⟩

theorem onyxEntryComplete_rule {s : State} (h1 : powerState s .a = 4) (h2 : s.split = false) (h3 : atRest s .a = true) (h4 : atRest s .b = true) :
    ∃ t, exec .onyxEntryComplete s = .next t ∧ t.porLow = true ∧ (∀ d, (t.power d).onyx = true ∧ (t.boot d).pwrenAon = false ∧ (t.boot d).running = false) ∧ t.routes = [] ∧ t.tenants = []
      ∧ t.poison = [] ∧ ∀ a, (domainOf a).any [Domain.vstby].contains = false → tfind a t.regs = none := by
  obtain ⟨u, hu⟩ := onyxReached_ends (s := fresh s) ((powerState_fresh _ _).trans h1) h2 ((atRest_fresh _ _).trans h3) ((atRest_fresh _ _).trans h4)
  obtain ⟨k1, k2, k3, k4, k5, k6⟩ := powerLost_rule true u
  rw [← hu] at k1 k2 k3 k4 k5 k6
  refine ⟨ran onyxReached s, rfl, k1, k2, k3, k4, k5, fun a ha => ?_⟩
  have hregs : (ran onyxReached s).regs = keepRegs [.vstby] u.regs := k6
  rw [hregs, tfind_keepRegs, ha]
  rfl

/-- The power of a die that has come back, before its register shows it. -/
def railsBack (t : State) (d : Die) : State :=
  t |> setPower d { t.power d with onyx := false } |> setBoot d { t.boot d with pwrenAon := true, onyxExit := true }

/-- The power of a die that has come back. -/
def powerBack (t : State) (d : Die) : State :=
  railsBack t d |> wrB (WAKE_CAUSE d) WAKE_CAUSE_ONYX_EXIT true |> satF (WAKE_CAUSE d) WAKE_CAUSE_ONYX_EXITS 1

theorem boot_setBoot_same (d : Die) (x : Boot) (s : State) : (setBoot d x s).boot d = x := tget_tset_same _ _ _ _
theorem boot_setBoot_ne {d e : Die} (h : e ≠ d) (x : Boot) (s : State) : (setBoot d x s).boot e = s.boot e := tget_tset_ne _ (idx_ne_of_ne h) _ _
theorem rd_setBoot (d : Die) (x : Boot) (s : State) (a : Nat) : (setBoot d x s).rd a = s.rd a := rd_congr rfl rfl a
theorem boot_of_regsOnly {s t : State} (h : RegsOnly s t) (d : Die) : t.boot d = s.boot d := congrArg (tget Boot.empty d.idx) (congrArg State.boots h.eq :)

theorem wakeCause_ne {d e : Die} (h : e ≠ d) : WAKE_CAUSE e ≠ WAKE_CAUSE d := by
  have hidx := idx_ne_of_ne h
  unfold WAKE_CAUSE dieSpace
  omega

/-- The power has come back on a die, which shows it. -/
def Back (s t : State) (d : Die) : Prop :=
  (t.power d).onyx = false ∧ (t.boot d).pwrenAon = true ∧ t.flag (WAKE_CAUSE d) WAKE_CAUSE_ONYX_EXIT = true
    ∧ t.rdF (WAKE_CAUSE d) WAKE_CAUSE_ONYX_EXITS = min (2 ^ WAKE_CAUSE_ONYX_EXITS.len - 1) (s.rdF (WAKE_CAUSE d) WAKE_CAUSE_ONYX_EXITS + 1)

/-- What a die shows of its power is the same in two states. -/
def SamePower (s t : State) (d : Die) : Prop := t.power d = s.power d ∧ t.boot d = s.boot d ∧ t.rd (WAKE_CAUSE d) = s.rd (WAKE_CAUSE d)

theorem railsBack_power (t : State) (d e : Die) : (railsBack t d).power e = (setPower d { t.power d with onyx := false } t).power e := rfl
theorem railsBack_rd (t : State) (d : Die) (a : Nat) : (railsBack t d).rd a = t.rd a := (rd_setBoot _ _ _ _).trans (rd_setPower _ _ _ _)
theorem powerBack_regsOnly (t : State) (d : Die) : RegsOnly (railsBack t d) (powerBack t d) := (regsOnly_wr _ _ _).trans (regsOnly_wr _ _ _)

theorem powerBack_same (t : State) (d : Die) : Back t (powerBack t d) d := by
  refine ⟨?_, ?_, ?_, ?_⟩
  · rw [power_of_regsOnly (powerBack_regsOnly t d), railsBack_power, power_setPower_same]
  · rw [boot_of_regsOnly (powerBack_regsOnly t d), railsBack, boot_setBoot_same]
  · exact (flag_wrF_other _ _ _ _ _ (by decide) (by decide)).trans (flag_wrB_same _ _ _ _ (by decide) (by decide))
  · refine (rdF_satF_same _ _ _ _ (by decide)).trans ?_
    rw [rdF_wrB_other _ _ _ _ _ (by decide) (by decide), rdF_of_rd (railsBack_rd _ _ _)]

theorem powerBack_other (t : State) {d e : Die} (h : e ≠ d) : SamePower t (powerBack t d) e := by
  have hne := wakeCause_ne h
  refine ⟨?_, ?_, ?_⟩
  · rw [power_of_regsOnly (powerBack_regsOnly t d), railsBack_power, power_setPower_ne h]
  · rw [boot_of_regsOnly (powerBack_regsOnly t d), railsBack, boot_setBoot_ne h]
    rfl
  · exact (rd_satF_ne hne _ _ _).trans ((rd_wrB_ne hne _ _ _).trans (railsBack_rd _ _ _))

theorem Back.of_samePower {r s t u : State} {d : Die} (h : Back s t d) (ha : SamePower r s d) (hb : SamePower t u d) : Back r u d := by
  obtain ⟨h1, h2, h3, h4⟩ := h
  obtain ⟨-, -, a3⟩ := ha
  obtain ⟨b1, b2, b3⟩ := hb
  exact ⟨by rw [b1, h1], by rw [b2, h2], (flag_of_rd b3 _).trans h3, (rdF_of_rd b3 _).trans (h4.trans (by rw [rdF_of_rd a3]))⟩

theorem samePower_refl (s : State) (d : Die) : SamePower s s d := ⟨rfl, rfl, rfl⟩
theorem samePower_fresh (s : State) (d : Die) : SamePower s (fresh s) d := ⟨rfl, rfl, rd_fresh _ _⟩

theorem onyxWake_rule {s : State} (h1 : (s.power .a).onyx = true) (h2 : 100 ≤ (s.power .a).wakeLow) :
    ∃ t, exec .onyxWake s = .next t ∧ t = { s with regs := t.regs, powers := t.powers, boots := t.boots, out := [] } ∧ ∀ d, Back s t d := by
  have hgo : onyxWakes (fresh s) = powerBack (powerBack (fresh s) .a) .b := by
    unfold onyxWakes
    rw [power_fresh, if_neg (fun hc => hc.elim (fun hc => absurd (h1.symm.trans hc) (by decide)) fun hc => by omega), foldl_bothDies]
    rfl
  have hone : ∀ d t, Only (fun u => { u with regs := [], powers := [], boots := [] }) t (powerBack t d) := fun d t => (((Only.rfl.setPower _ _).setBoot _ _).wrB _ _ _).satF _ _ _
  have hend := (hone .a (fresh s)).trans (hone .b _)
  refine ⟨_, congrArg Host.Outcome.next (hend.ran hgo), hend.regsPowersBoots, fun d => ?_⟩
  cases d
  · exact (powerBack_same (fresh s) .a).of_samePower (samePower_fresh s .a) (powerBack_other _ (by decide))
  · refine (powerBack_same (powerBack (fresh s) .a) .b).of_samePower ?_ (samePower_refl _ _)
    obtain ⟨k1, k2, k3⟩ := powerBack_other (fresh s) (d := .a) (e := .b) (by decide)
    exact ⟨k1, k2, k3.trans (rd_fresh _ _)⟩

/-- The wake logic of a die reset. -/
def wakesCleared (t : State) (d : Die) : State := t |> wr (WAKE_CAUSE d) 0 |> setPower d { t.power d with wakes := [], wakeLow := 0 }

theorem wakesCleared_same (t : State) (d : Die) : (wakesCleared t d).rd (WAKE_CAUSE d) = 0 ∧ (wakesCleared t d).power d = { t.power d with wakes := [], wakeLow := 0 } :=
  ⟨(rd_setPower _ _ _ _).trans (rd_wr_same _ _ _), power_setPower_same _ _ _⟩

theorem wakesCleared_other (t : State) {d e : Die} (h : e ≠ d) : (wakesCleared t d).power e = t.power e := power_setPower_ne h _ _
theorem wakesCleared_rd (t : State) {d : Die} {a : Nat} (h : a ≠ WAKE_CAUSE d) : (wakesCleared t d).rd a = t.rd a := (rd_setPower _ _ _ _).trans (rd_wr_ne h _ _)

theorem vstbyRise_rule (s : State) : ∃ t, exec .vstbyRise s = .next t ∧ t = { s with regs := t.regs, powers := t.powers, out := [] }
    ∧ (∀ d, t.rd (WAKE_CAUSE d) = 0 ∧ t.power d = { s.power d with wakes := [], wakeLow := 0 }) ∧ ∀ a, a ≠ WAKE_CAUSE .a → a ≠ WAKE_CAUSE .b → t.rd a = s.rd a := by
  have hgo : vstbyRises (fresh s) = wakesCleared (wakesCleared (fresh s) .a) .b := rfl
  have hone : ∀ d t, Only (fun u => { u with regs := [], powers := [] }) t (wakesCleared t d) := fun d t => (Only.rfl.wr _ _).setPower _ _
  have hend := (hone .a (fresh s)).trans (hone .b _)
  obtain ⟨a1, a2⟩ := wakesCleared_same (fresh s) .a
  obtain ⟨b1, b2⟩ := wakesCleared_same (wakesCleared (fresh s) .a) .b
  refine ⟨_, congrArg Host.Outcome.next (hend.ran hgo), hend.regsPowers, fun d => ?_, fun a ha hb => ?_⟩
  · cases d
    · exact ⟨(wakesCleared_rd _ (by decide)).trans a1, (wakesCleared_other _ (by decide)).trans a2⟩
    · exact ⟨b1, b2.trans (by rw [wakesCleared_other _ (by decide), power_fresh])⟩
  · rw [wakesCleared_rd _ hb, wakesCleared_rd _ ha, rd_fresh]

/-- Settles O52: entry to PEARL and the exit from it, the wake sources, and ONYX. -/
theorem powerStatesChange : Obligations.PowerStatesChange := by
  refine ⟨?_, fun d src s => ⟨?_, wakeUp_elsewhere, fun h => wakeTimer_waits ?_, fun h0 h1 h2 => wakeTimerReached_rule ⟨h0, ?_, h2⟩⟩, wakenLow_rule,
    fun s => ⟨fun h1 h2 h3 h4 => onyxEntryComplete_rule h1 h2 h3 h4, onyxWake_rule, vstbyRise_rule s⟩⟩
  · rintro d g ds s rfl rfl
    refine ⟨fun h => ?_, fun h1 h2 => ?_, fun b rest => pearlExit_rule, ftRailSettled_rule, fun s1 hs1 => ftBulkRefreshDone_rule hs1⟩
    · have hsame : pearlReached d (fresh s) = fresh s := pearlReached_waits (h.imp (fun h => by rwa [powerState_fresh]) fun ⟨e, he, hf⟩ => ⟨e, he, by rwa [atRest_fresh]⟩)
      exact congrArg Host.Outcome.next (ran_same hsame)
    · exact congrArg Host.Outcome.next (ran_congr (pearlReached_gates (s := fresh s) ((powerState_fresh _ _).trans h1) fun e he => (atRest_fresh _ _).trans (h2 e he)))
  · rintro e rfl h hen hc
    rw [wakeUp_rule h hen hc]
    exact ⟨congrArg Power.wakes (power_setPower_same _ _ _), rfl⟩
  · rintro ⟨h0, h1, h2⟩
    rcases h with h | h | ⟨ha, hb⟩
    · exact h0 h
    · exact h h2
    · exact absurd h1 (by rw [le_max_iff]; omega)
  · exact le_max_iff.2 h1

end Sys2Proof.Machine
end

section
/-! Garnet records (R196–R200). -/
namespace Sys2Proof.Machine

theorem garnet_fresh (s : State) (d : Die) : (fresh s).garnet d = s.garnet d := rfl
theorem garnet_setGarnet_same (d : Die) (g : Garnet) (s : State) : (setGarnet d g s).garnet d = g := tget_tset_same _ _ _ _
theorem garnet_of_regsOnly {s t : State} (h : RegsOnly s t) (d : Die) : t.garnet d = s.garnet d := congrArg (tget Garnet.empty d.idx) (congrArg State.garnets h.eq :)
theorem rd_setGarnet (d : Die) (g : Garnet) (s : State) (a : Nat) : (setGarnet d g s).rd a = s.rd a := rd_congr rfl rfl a

theorem Only.regsGarnetsTag {s t : State} (h : Only (fun u => { u with regs := [], garnets := [], nextTag := 0 }) (fresh s) t) :
    t = { s with regs := t.regs, garnets := t.garnets, nextTag := t.nextTag, out := [] } :=
  congrArg (fun u => { u with regs := t.regs, garnets := t.garnets, nextTag := t.nextTag }) h

theorem linkOn_fresh (s : State) (d : Die) : linkOn (fresh s) d = linkOn s d := by
  unfold linkOn
  simp only [flag_fresh, rdF_fresh, xingUp_fresh]
  rfl

/-! ## The one record of a frame -/

theorem linkRecord_eq (op slot : Nat) (args : List Byte) :
    linkRecord op slot args = BitVec.ofNat 8 op :: BitVec.ofNat 8 slot :: BitVec.ofNat 8 args.length :: BitVec.ofNat 8 (args.length / 256) :: args := rfl

theorem length_linkRecord (op slot : Nat) (args : List Byte) : (linkRecord op slot args).length = args.length + 4 := rfl

theorem op_le_of_argLen {op : Nat} {args : List Byte} {n : Nat} (h : argLen op args = some n) : op ≤ 10 ∧ n < 2 ^ 16 := by
  have hb : byteAt args 1 < 256 := (args[1]?.getD 0).isLt
  unfold argLen at h
  split at h
  case h_4 =>
    simp only [cdiv, Option.some.injEq] at h
    omega
  case h_12 => cases h
  all_goals
    injection h with h
    omega

theorem recOp_linkRecord {op slot : Nat} {args : List Byte} (h : op ≤ 10) : byteAt (linkRecord op slot args) 0 = op :=
  Nat.mod_eq_of_lt (show op < 2 ^ 8 by omega)
theorem recSlot_linkRecord {op slot : Nat} {args : List Byte} (h : slot < 256) : byteAt (linkRecord op slot args) 1 = slot := Nat.mod_eq_of_lt h
theorem recLen_linkRecord {op slot : Nat} {args : List Byte} (h : args.length < 2 ^ 16) : le16 (linkRecord op slot args) 2 = args.length := by
  have : le16 (linkRecord op slot args) 2 = args.length % 2 ^ 8 + 256 * (args.length / 256 % 2 ^ 8 + 256 * 0) := rfl
  omega

/-- A payload of one right record is that record. -/
theorem parseRecords_one {d : Die} {g : Garnet} {n op slot : Nat} {args : List Byte} (hslot : slot < 256) (hok : slotOk g op slot = true) (hlen : argLen op args = some args.length)
    (hargs : argsOk d op n args = true) (fuel : Nat) : parseRecords d g n (fuel + 2) 0 (linkRecord op slot args) = .ok [linkRecord op slot args] := by
  obtain ⟨hop, hn⟩ := op_le_of_argLen hlen
  have hdrop : (linkRecord op slot args).drop (4 + args.length) = [] := List.drop_eq_nil_of_le (by rw [length_linkRecord, Nat.add_comm])
  have htake : (linkRecord op slot args).take (4 + args.length) = linkRecord op slot args := List.take_of_length_le (by rw [length_linkRecord, Nat.add_comm])
  have hargs' : ((linkRecord op slot args).drop 4).take args.length = args := List.take_length
  have hne : linkRecord op slot args ≠ [] := by
    rw [linkRecord_eq]
    exact List.cons_ne_nil _ _
  have hend : parseRecords d g n (fuel + 1) 1 [] = .ok [] := rfl
  rw [parseRecords, if_neg hne]
  dsimp only
  rw [recOp_linkRecord hop, recSlot_linkRecord hslot, recLen_linkRecord hn, hargs', length_linkRecord, if_neg (by omega), if_neg (by omega), hok, if_neg Bool.false_ne_true.symm,
    if_neg (by omega), if_neg (by simp [hlen]), hargs, if_neg Bool.false_ne_true.symm, hdrop, hend, htake]

/-! ## A frame taken (R196, R197) -/

/-- The next sequence number of a link. -/
def linkSeq (d : Die) (s : State) : Nat := (s.rdF (GARNET_LINK_STATUS d) GARNET_LINK_STATUS_LAST_SEQ + 1) % 2 ^ 16

theorem rdF_lt (s : State) (a : Nat) (f : Fld) : s.rdF a f < 2 ^ f.len := get_lt _ _

theorem linkSeq_ne (d : Die) (s : State) : linkSeq d s ≠ s.rdF (GARNET_LINK_STATUS d) GARNET_LINK_STATUS_LAST_SEQ := by
  have h : s.rdF (GARNET_LINK_STATUS d) GARNET_LINK_STATUS_LAST_SEQ < 2 ^ 16 := rdF_lt _ _ _
  unfold linkSeq
  omega

/-- A change brought by the link joins the queue. -/
def changeQueued (d : Die) (seq : Nat) (r : List Byte) (s : State) : State :=
  refreshQueue d (setGarnet d { s.garnet d with
    queue := (s.garnet d).queue ++ [⟨s.nextTag, true, seq, [r], [], none⟩],
    unshown := (s.garnet d).unshown ++ [⟨s.nextTag, seq, touched (s.garnet d).slots [r], [], []⟩] } { s with nextTag := s.nextTag + 1 })

/-- What an accepted record does. -/
def recordTaken (d : Die) (seq : Nat) (r : List Byte) (s : State) : State :=
  if recOp r = 9 then ackFault d s
  else if recOp r = 10 then setGarnet d { s.garnet d with report := some (byteAt r 4, byteAt r 5) } s
  else if isDrawing r = true then changeQueued d seq r s
  else s

theorem frameBody_one {d : Die} {r payload : List Byte} {s : State} (hre : s.flag (GARNET_LINK_STATUS d) GARNET_LINK_STATUS_RESYNC_WAIT = false)
    (hp : parseRecords d (s.garnet d) (atlasEntries s d) (payload.length + 1) 0 payload = .ok [r]) (hq : queuedFrames (s.garnet d) < 4) :
    frameBody d (linkSeq d s) false payload s = recordTaken d (linkSeq d s) r (acceptSeq d (linkSeq d s) false s) := by
  have hnext : linkSeq d s = (s.rdF (GARNET_LINK_STATUS d) GARNET_LINK_STATUS_LAST_SEQ + 1) % 2 ^ 16 := rfl
  have hne := linkSeq_ne d s
  have hdraws : [r].filter isDrawing = if isDrawing r = true then [r] else [] := by
    cases h : isDrawing r <;> simp [h]
  unfold frameBody
  dsimp only
  rw [hre, if_neg (fun h => Bool.false_ne_true h.2), if_neg (fun h => hne h.2), if_neg (fun h => h.2 hnext), hp]
  dsimp only
  rw [if_neg (by omega), List.foldl_cons, List.foldl_nil, hdraws]
  unfold recordTaken
  by_cases h9 : recOp r = 9
  · have hno : ¬isDrawing r = true := by simp [isDrawing, h9]
    rw [if_pos h9, if_pos h9, if_neg hno, if_pos rfl]
  · rw [if_neg h9, if_neg h9]
    by_cases h10 : recOp r = 10
    · have hno : ¬isDrawing r = true := by simp [isDrawing, h10]
      rw [if_pos h10, if_pos h10, if_neg hno, if_pos rfl]
    · rw [if_neg h10, if_neg h10]
      by_cases hd : isDrawing r = true
      · rw [if_pos hd, if_pos hd, if_neg (List.cons_ne_nil _ _)]
        rfl
      · rw [if_neg hd, if_neg hd, if_pos rfl]

/-- The link receives, and a record's frame is right. -/
structure Received (d : Die) (op slot : Nat) (args : List Byte) (s : State) : Prop where
  on : linkOn s d = true
  noResync : s.flag (GARNET_LINK_STATUS d) GARNET_LINK_STATUS_RESYNC_WAIT = false
  slot_lt : slot < 256
  slot_ok : slotOk (s.garnet d) op slot = true
  len_ok : argLen op args = some args.length
  args_ok : argsOk d op (atlasEntries s d) args = true
  room : queuedFrames (s.garnet d) < 4

theorem Received.fresh {d : Die} {op slot : Nat} {args : List Byte} {s : State} (h : Received d op slot args s) : Received d op slot args (fresh s) :=
  { h with on := (linkOn_fresh s d).trans h.on, noResync := (flag_fresh _ _ _).trans h.noResync }

theorem oneRecord_received {d : Die} {op slot : Nat} {args : List Byte} {s : State} (h : Received d op slot args s) :
    oneRecord d op slot args s = recordTaken d (linkSeq d s) (linkRecord op slot args) (acceptSeq d (linkSeq d s) false s) := by
  refine (if_pos h.on).trans ?_
  exact frameBody_one h.noResync (parseRecords_one h.slot_lt h.slot_ok h.len_ok h.args_ok (args.length + 3)) h.room

/-- An accepted sequence number changes the link's register alone. -/
theorem acceptSeq_rule (d : Die) (s : State) : Touches [GARNET_LINK_STATUS d] s (acceptSeq d (linkSeq d s) false s)
    ∧ (acceptSeq d (linkSeq d s) false s).rdF (GARNET_LINK_STATUS d) GARNET_LINK_STATUS_LAST_SEQ = linkSeq d s
    ∧ (acceptSeq d (linkSeq d s) false s).flag (GARNET_LINK_STATUS d) GARNET_LINK_STATUS_LINK_STALE = false := by
  have hlt : linkSeq d s < 2 ^ 16 := Nat.mod_lt _ (by decide)
  have heq : acceptSeq d (linkSeq d s) false s = wrB (GARNET_LINK_STATUS d) GARNET_LINK_STATUS_LINK_STALE false (wrF (GARNET_LINK_STATUS d) GARNET_LINK_STATUS_LAST_SEQ (linkSeq d s) s) := by
    unfold acceptSeq
    dsimp only
    rw [if_neg Bool.false_ne_true]
  rw [heq]
  refine ⟨(Touches.rfl.wrF _ _).wrB _ _, ?_, flag_wrB_same _ _ _ _ (by decide) (by decide)⟩
  rw [rdF_wrB_other _ _ _ _ _ (by decide) (by decide)]
  exact rdF_wrF_of_lt (by decide) hlt

theorem changeQueued_rule (d : Die) (seq : Nat) (r : List Byte) (s : State) :
    Only (fun u => { u with regs := [], garnets := [], nextTag := 0 }) s (changeQueued d seq r s)
      ∧ (changeQueued d seq r s).rdF (GARNET_LINK_STATUS d) GARNET_LINK_STATUS_LAST_SEQ = s.rdF (GARNET_LINK_STATUS d) GARNET_LINK_STATUS_LAST_SEQ
      ∧ (changeQueued d seq r s).flag (GARNET_LINK_STATUS d) GARNET_LINK_STATUS_LINK_STALE = s.flag (GARNET_LINK_STATUS d) GARNET_LINK_STATUS_LINK_STALE
      ∧ (∀ a, a ≠ GARNET_LINK_STATUS d → (changeQueued d seq r s).rd a = s.rd a)
      ∧ (changeQueued d seq r s).garnet d = { s.garnet d with
          queue := (s.garnet d).queue ++ [⟨s.nextTag, true, seq, [r], [], none⟩],
          unshown := (s.garnet d).unshown ++ [⟨s.nextTag, seq, touched (s.garnet d).slots [r], [], []⟩] } := by
  obtain ⟨u, hu⟩ : ∃ u, u = setGarnet d { s.garnet d with
    queue := (s.garnet d).queue ++ [⟨s.nextTag, true, seq, [r], [], none⟩],
    unshown := (s.garnet d).unshown ++ [⟨s.nextTag, seq, touched (s.garnet d).slots [r], [], []⟩] } { s with nextTag := s.nextTag + 1 } := ⟨_, rfl⟩
  have heq : changeQueued d seq r s = refreshQueue d u := by
    rw [hu]
    rfl
  have hreg : RegsOnly u (refreshQueue d u) := (regsOnly_wr _ _ _).trans (regsOnly_wr _ _ _)
  have hu1 : Only (fun u => { u with regs := [], garnets := [], nextTag := 0 }) s u := by
    have htag : Only (fun u => { u with regs := [], garnets := [], nextTag := 0 }) s { s with nextTag := s.nextTag + 1 } := rfl
    rw [hu]
    exact htag.setGarnet _ _
  have hrd : ∀ a, u.rd a = s.rd a := fun a => by
    rw [hu, rd_setGarnet]
    exact rd_congr rfl rfl a
  have hfield : ∀ f : Fld, (f.lo + f.len ≤ 24 ∨ f.lo = 29) → (refreshQueue d u).rdF (GARNET_LINK_STATUS d) f = u.rdF (GARNET_LINK_STATUS d) f := fun f hf => by
    unfold refreshQueue
    refine (rdF_wrB_other _ _ _ _ _ (by decide) ?_).trans (rdF_wrF_other _ _ _ _ _ (by decide) ?_)
    all_goals
      simp only [GARNET_LINK_STATUS_BUSY, GARNET_LINK_STATUS_QUEUED]
      omega
  rw [heq]
  refine ⟨hu1.trans (Only.of_regsOnly hreg), ?_, ?_, fun a ha => ?_, ?_⟩
  · rw [hfield _ (.inl (by decide)), rdF_of_rd (hrd _)]
  · rw [State.flag, hfield _ (.inr rfl), rdF_of_rd (hrd _)]
    rfl
  · unfold refreshQueue
    rw [rd_wrB_ne ha, rd_wrF_ne ha, hrd]
  · rw [garnet_of_regsOnly hreg, hu, garnet_setGarnet_same]

/-! ## The rows (R199, R200) -/

theorem exec_recordRow {c : Instr} {d : Die} {op slot : Nat} {args : List Byte} (h : recordRow c = some (d, op, slot, args)) (s : State) :
    exec c s = .next (ran (oneRecord d op slot args) s) := by
  unfold recordRow at h
  split at h
  case h_12 => cases h
  all_goals
    cases h
    rfl

theorem recordTaken_draw {d : Die} {seq : Nat} {r : List Byte} {s : State} (h1 : 1 ≤ recOp r) (h8 : recOp r ≤ 8) : recordTaken d seq r s = changeQueued d seq r s := by
  have hd : isDrawing r = true := decide_eq_true ⟨h1, h8⟩
  unfold recordTaken
  rw [if_neg (by omega), if_neg (by omega), if_pos hd]

theorem recordTaken_nop {d : Die} {seq : Nat} {r : List Byte} {s : State} (h : recOp r = 0) : recordTaken d seq r s = s := by
  have hd : ¬isDrawing r = true := by simp [isDrawing, h]
  unfold recordTaken
  rw [if_neg (by omega), if_neg (by omega), if_neg hd]

theorem recordTaken_ack {d : Die} {seq : Nat} {r : List Byte} {s : State} (h : recOp r = 9) : recordTaken d seq r s = ackFault d s := if_pos h

theorem recordTaken_report {d : Die} {seq : Nat} {r : List Byte} {s : State} (h : recOp r = 10) :
    recordTaken d seq r s = setGarnet d { s.garnet d with report := some (byteAt r 4, byteAt r 5) } s := by
  unfold recordTaken
  rw [if_neg (by omega), if_pos h]

theorem recordRow_rule {c : Instr} {d : Die} {op slot : Nat} {args : List Byte} {s : State} (hc : recordRow c = some (d, op, slot, args)) (h : Received d op slot args s) :
    ∃ u, (u = { s with regs := u.regs, garnets := u.garnets, nextTag := u.nextTag, out := [] }
        ∧ u.rdF (GARNET_LINK_STATUS d) GARNET_LINK_STATUS_LAST_SEQ = linkSeq d s
        ∧ u.flag (GARNET_LINK_STATUS d) GARNET_LINK_STATUS_LINK_STALE = false ∧ (∀ a, a ≠ GARNET_LINK_STATUS d → u.rd a = s.rd a)
        ∧ (1 ≤ op → op ≤ 8 → (u.garnet d).queue = (s.garnet d).queue ++ [⟨s.nextTag, true, linkSeq d s, [linkRecord op slot args], [], none⟩])
        ∧ (op = 0 ∨ op = 9 → u.garnets = s.garnets)
        ∧ (op = 10 → u.garnet d = { s.garnet d with report := some (byteAt (linkRecord op slot args) 4, byteAt (linkRecord op slot args) 5) })
        ∧ (s.garnet d).windows = (u.garnet d).windows ∧ (s.garnet d).slots = (u.garnet d).slots)
      ∧ exec c s = .next (ran (fun _ => if op = 9 then ackFault d u else u) s) := by
  obtain ⟨hop, -⟩ := op_le_of_argLen h.len_ok
  have hrec : recOp (linkRecord op slot args) = op := recOp_linkRecord hop
  have hseq : linkSeq d (fresh s) = linkSeq d s := by
    unfold linkSeq
    rw [rdF_fresh]
  obtain ⟨a, ha⟩ : ∃ a, a = acceptSeq d (linkSeq d s) false (fresh s) := ⟨_, rfl⟩
  obtain ⟨⟨a1, a2⟩, a3, a4⟩ := acceptSeq_rule d (fresh s)
  have hgo := oneRecord_received h.fresh
  rw [hseq] at a1 a2 a3 a4 hgo
  rw [← ha] at a1 a2 a3 a4 hgo
  have hrd : ∀ b, b ≠ GARNET_LINK_STATUS d → a.rd b = s.rd b := fun b hb => (a2 b (by simpa using hb)).trans (rd_fresh _ _)
  have hgar : a.garnet d = s.garnet d := garnet_of_regsOnly a1 d
  have htag : a.nextTag = s.nextTag := (congrArg State.nextTag a1.eq :)
  have hall : a.garnets = s.garnets := (congrArg State.garnets a1.eq :)
  have hgive : ∀ u, (if op = 9 then ackFault d u else u) = recordTaken d (linkSeq d s) (linkRecord op slot args) a → exec c s = .next (ran (fun _ => if op = 9 then ackFault d u else u) s) := fun u hu =>
    (exec_recordRow hc s).trans (congrArg Host.Outcome.next (ran_congr (hgo.trans hu.symm)))
  have hOnly : Only (fun u => { u with regs := [], garnets := [], nextTag := 0 }) (fresh s) a := Only.of_regsOnly a1
  by_cases hdraw : 1 ≤ op ∧ op ≤ 8
  · obtain ⟨b1, b2, b3, b4, b5⟩ := changeQueued_rule d (linkSeq d s) (linkRecord op slot args) a
    refine ⟨_, ⟨(hOnly.trans b1).regsGarnetsTag, b2.trans a3, b3.trans a4, fun b hb => (b4 b hb).trans (hrd b hb), fun _ _ => ?_, fun h0 => ?_, fun h10 => ?_, ?_, ?_⟩, hgive _ ?_⟩
    · rw [b5, hgar, htag]
    · omega
    · omega
    · rw [b5, hgar]
    · rw [b5, hgar]
    · rw [if_neg (by omega), recordTaken_draw (by rw [hrec]; exact hdraw.1) (by rw [hrec]; exact hdraw.2)]
  · by_cases h10 : op = 10
    · refine ⟨setGarnet d { a.garnet d with report := some (byteAt (linkRecord op slot args) 4, byteAt (linkRecord op slot args) 5) } a,
        ⟨(hOnly.setGarnet _ _).regsGarnetsTag, (rdF_of_rd (rd_setGarnet _ _ _ _) _).trans a3, (flag_of_rd (rd_setGarnet _ _ _ _) _).trans a4,
          fun b hb => (rd_setGarnet _ _ _ _).trans (hrd b hb), fun h1 h8 => absurd ⟨h1, h8⟩ hdraw, fun h0 => by omega, fun _ => ?_, ?_, ?_⟩, hgive _ ?_⟩
      · rw [garnet_setGarnet_same, hgar]
      · rw [garnet_setGarnet_same, hgar]
      · rw [garnet_setGarnet_same, hgar]
      · rw [if_neg (by omega), recordTaken_report (by rw [hrec, h10])]
    · refine ⟨a, ⟨hOnly.regsGarnetsTag, a3, a4, hrd, fun h1 h8 => absurd ⟨h1, h8⟩ hdraw, fun _ => hall, fun h => absurd h h10, by rw [hgar], by rw [hgar]⟩, hgive _ ?_⟩
      by_cases h9 : op = 9
      · rw [if_pos h9, recordTaken_ack (by rw [hrec, h9])]
      · rw [if_neg h9, recordTaken_nop (by rw [hrec]; omega)]

/-- Settles O38: what each accepted record does, by the kind of its OP. -/
theorem garnetRecordsAreAccepted : Obligations.GarnetRecordsAreAccepted :=
  fun _ _ _ _ _ _ hc h1 h2 h3 h4 h5 h6 h7 => recordRow_rule hc ⟨h1, h2, h3, h4, h5, h6, h7⟩

end Sys2Proof.Machine
end

section
/-! The renderer and the Garnet scan (R205–R212). -/
namespace Sys2Proof.Machine

/-! ## The renderer takes a change (R205, R206) -/

theorem Only.garnetsFree {m : State → State} {s t : State} (h : Only m s t) (n : Nat) (hm : ∀ u r, m { u with free := r } = m u := by intros; rfl) : Only m s (useFree n t) :=
  (hm _ _).trans h

theorem Only.regsGarnets {s t : State} (h : Only (fun u => { u with regs := [], garnets := [] }) (fresh s) t) : t = { s with regs := t.regs, garnets := t.garnets, out := [] } :=
  congrArg (fun u => { u with regs := t.regs, garnets := t.garnets }) h
theorem Only.regsGarnetsFree {s t : State} (h : Only (fun u => { u with regs := [], garnets := [], free := 0 }) (fresh s) t) :
    t = { s with regs := t.regs, garnets := t.garnets, free := t.free, out := [] } :=
  congrArg (fun u => { u with regs := t.regs, garnets := t.garnets, free := t.free }) h

/-- The words of the atlas that can be read in neither copy. -/
def atlasLost (ecc : List (Bool × Nat × Nat)) (d : Die) (s : State) : List Nat :=
  (ecc.filter (fun e => e.1 && e.2.1 == 0xFF)).map (fun e => e.2.2 % (s.rdF (GARNET_STORE d) GARNET_STORE_ATLAS_UNITS / 2 * 16384))

/-- The renderer holds the oldest change. -/
def changeTaken (d : Die) (ecc : List (Bool × Nat × Nat)) (j : GJob) (rest : List GJob) (s : State) : State :=
  refreshQueue d (setGarnet d { s.garnet d with
    slots := j.recs.foldl (applyRecord (atlasLost ecc d s)) (s.garnet d).slots, queue := rest,
    rendering := some (j, (touched (s.garnet d).slots j.recs ++ j.wins).eraseDups) } s)

theorem renderStart_takes {d : Die} {ecc : List (Bool × Nat × Nat)} {j : GJob} {rest : List GJob} {s : State} (hr : (s.garnet d).rendering = none) (hq : (s.garnet d).queue = j :: rest)
    (hh : (s.boot d).halted = false) (hw : ∀ w ∈ touched (s.garnet d).slots j.recs ++ j.wins, ∀ x, tfind w (s.garnet d).windows = some x → x.back = none) :
    renderStart d ecc s = ecc.foldl (fun t e => postPf1 d 0x0307 e.2.1 (b2n e.1 + e.2.2 % 2 ^ 32 * 2 ^ 32) t) (changeTaken d ecc j rest s) := by
  have hany : ((touched (s.garnet d).slots j.recs ++ j.wins).eraseDups).any (fun w => (tfind w (s.garnet d).windows).any (fun x => x.back.isSome)) = false := by
    rw [List.any_eq_false]
    intro w hmem
    cases hf : tfind w (s.garnet d).windows with
    | none => exact Bool.false_ne_true
    | some x => simp [hw w (List.mem_eraseDups.1 hmem) x hf]
  unfold renderStart changeTaken
  dsimp only
  rw [hr, hq]
  dsimp only
  rw [if_neg (fun h => h.elim (fun h => Bool.false_ne_true (hh.symm.trans h)) fun h => Bool.false_ne_true (hany.symm.trans h))]
  rfl

theorem refreshQueue_touches (d : Die) (s : State) : Touches [GARNET_LINK_STATUS d] s (refreshQueue d s) := (Touches.rfl.wrF _ _).wrB _ _

theorem garnetRender_rule {d : Die} {j : GJob} {rest : List GJob} {ecc : List (Bool × Nat × Nat)} {s : State} (hr : (s.garnet d).rendering = none) (hq : (s.garnet d).queue = j :: rest)
    (hh : (s.boot d).halted = false) (hw : ∀ w ∈ touched (s.garnet d).slots j.recs ++ j.wins, ∀ x, tfind w (s.garnet d).windows = some x → x.back = none) :
    ∃ u, (u = { s with regs := u.regs, garnets := u.garnets, out := [] } ∧ (u.garnet d).queue = rest
        ∧ (u.garnet d).rendering = some (j, (touched (s.garnet d).slots j.recs ++ j.wins).eraseDups) ∧ (u.garnet d).slots = j.recs.foldl (applyRecord (atlasLost ecc d s)) (s.garnet d).slots
        ∧ (u.garnet d).windows = (s.garnet d).windows ∧ ∀ a, a ≠ GARNET_LINK_STATUS d → u.rd a = s.rd a)
      ∧ exec (.garnetRender d ecc) s = .next (ran (fun _ => ecc.foldl (fun t e => postPf1 d 0x0307 e.2.1 (b2n e.1 + e.2.2 % 2 ^ 32 * 2 ^ 32) t) u) s) := by
  have hgo := renderStart_takes (ecc := ecc) (s := fresh s) hr hq hh hw
  have hlost : atlasLost ecc d (fresh s) = atlasLost ecc d s := by
    unfold atlasLost
    rw [rdF_fresh]
  obtain ⟨v, hv⟩ : ∃ v, v = setGarnet d { (fresh s).garnet d with
    slots := j.recs.foldl (applyRecord (atlasLost ecc d (fresh s))) ((fresh s).garnet d).slots, queue := rest,
    rendering := some (j, (touched ((fresh s).garnet d).slots j.recs ++ j.wins).eraseDups) } (fresh s) := ⟨_, rfl⟩
  have hu : changeTaken d ecc j rest (fresh s) = refreshQueue d v := by
    rw [hv]
    rfl
  obtain ⟨h1, h2⟩ := refreshQueue_touches d v
  have hg : (refreshQueue d v).garnet d = { s.garnet d with
      slots := j.recs.foldl (applyRecord (atlasLost ecc d s)) (s.garnet d).slots, queue := rest, rendering := some (j, (touched (s.garnet d).slots j.recs ++ j.wins).eraseDups) } := by
    rw [garnet_of_regsOnly h1, hv, garnet_setGarnet_same, hlost]
    rfl
  have hv1 : Only (fun u => { u with regs := [], garnets := [] }) (fresh s) v := by
    rw [hv]
    exact Only.rfl.setGarnet _ _
  have hend := hv1.trans (Only.of_regsOnly h1)
  rw [hu] at hgo
  refine ⟨refreshQueue d v, ⟨hend.regsGarnets, by rw [hg], by rw [hg], by rw [hg], by rw [hg], fun a ha => ?_⟩, congrArg Host.Outcome.next (ran_congr hgo)⟩
  rw [h2 a (by simpa using ha), hv, rd_setGarnet, rd_fresh]

/-! ## A render completes (R206) -/

/-- A window of a change has its back buffer. -/
def windowDrawn (d : Die) (t : State) (w : Nat) : State :=
  match tfind w (t.garnet d).windows with
  | none => t
  | some x => useFree 1 (setWindow d w { x with back := some (slotsIn (t.garnet d) w), nextExpect := some (expectOf t d w x (slotsIn (t.garnet d) w)) } t)

/-- The windows of a list, where there are any, have the slots as their back buffers; nothing but windows differs. -/
def Drawn (d : Die) (ws : List Nat) (s t : State) : Prop :=
  Only (fun u => { u with regs := [], garnets := [], free := 0 }) s t ∧ t.regs = s.regs ∧ (∃ w, t.garnet d = { s.garnet d with windows := w })
    ∧ (∀ w ∈ ws, (tfind w (s.garnet d).windows).isSome = true → (tfind w (t.garnet d).windows).map (fun x => x.back) = some (some (slotsIn (s.garnet d) w)))
    ∧ (∀ w, w ∉ ws → tfind w (t.garnet d).windows = tfind w (s.garnet d).windows)
    ∧ ∀ w, (tfind w (t.garnet d).windows).isSome = (tfind w (s.garnet d).windows).isSome

theorem drawn_nil (d : Die) (s : State) : Drawn d [] s s :=
  ⟨Only.rfl, rfl, ⟨_, rfl⟩, fun _ h => absurd h (List.not_mem_nil), fun _ _ => rfl, fun _ => rfl⟩

theorem windowDrawn_drawn (d : Die) (w : Nat) (s : State) : Drawn d [w] s (windowDrawn d s w) := by
  cases hf : tfind w (s.garnet d).windows with
  | none =>
    have heq : windowDrawn d s w = s := by
      unfold windowDrawn
      rw [hf]
    rw [heq]
    refine ⟨Only.rfl, rfl, ⟨_, rfl⟩, fun v hv hs => ?_, fun _ _ => rfl, fun _ => rfl⟩
    rw [List.mem_singleton.1 hv, hf] at hs
    cases hs
  | some x =>
    obtain ⟨y, hy⟩ : ∃ y : GWindow, y = { x with back := some (slotsIn (s.garnet d) w), nextExpect := some (expectOf s d w x (slotsIn (s.garnet d) w)) } := ⟨_, rfl⟩
    have heq : windowDrawn d s w = useFree 1 (setWindow d w y s) := by
      unfold windowDrawn
      rw [hf, hy]
    have hg : (windowDrawn d s w).garnet d = { s.garnet d with windows := tset w y (s.garnet d).windows } := by
      rw [heq]
      exact garnet_setGarnet_same d _ s
    refine ⟨?_, by rw [heq]; rfl, ⟨_, hg⟩, fun v hv _ => ?_, fun v hv => ?_, fun v => ?_⟩
    · rw [heq]
      exact (Only.rfl.setGarnet _ _).garnetsFree 1
    · rw [List.mem_singleton.1 hv, hg, tfind_tset_same, hy]
      rfl
    · rw [hg, tfind_tset_ne (by simpa using hv)]
    · rw [hg]
      by_cases hvw : v = w
      · rw [hvw, tfind_tset_same, hf]
        rfl
      · rw [tfind_tset_ne hvw]

theorem drawn_foldl (d : Die) (ws : List Nat) (s : State) : Drawn d ws s (ws.foldl (windowDrawn d) s) := by
  induction ws generalizing s with
  | nil => exact drawn_nil d s
  | cons w ws ih =>
    obtain ⟨a1, a2, ⟨aw, a3⟩, a4, a5, a6⟩ := windowDrawn_drawn d w s
    obtain ⟨b1, b2, ⟨bw, b3⟩, b4, b5, b6⟩ := ih (windowDrawn d s w)
    have hslots : ∀ v, slotsIn ((windowDrawn d s w).garnet d) v = slotsIn (s.garnet d) v := fun v => by
      rw [a3]
      rfl
    rw [List.foldl_cons]
    refine ⟨a1.trans b1, b2.trans a2, ⟨bw, by rw [b3, a3]⟩, fun v hv hs => ?_, fun v hv => ?_, fun v => (b6 v).trans (a6 v)⟩
    · by_cases hin : v ∈ ws
      · rw [b4 v hin ((a6 v).trans hs), hslots]
      · have hvw : v = w := (List.mem_cons.1 hv).resolve_right hin
        rw [b5 v hin, hvw]
        exact a4 w (List.mem_singleton_self _) (hvw ▸ hs)
    · obtain ⟨h1, h2⟩ := not_or.1 (fun h => hv (List.mem_cons.2 h))
      rw [b5 v h2, a5 v (by simpa using h1)]

theorem renderDone_eq {d : Die} {j : GJob} {ws : List Nat} {s : State} (hr : (s.garnet d).rendering = some (j, ws)) (hh : (s.boot d).halted = false) (hp : j.palette = none) :
    ∀ t, t = ws.foldl (windowDrawn d) (setGarnet d { s.garnet d with rendering := none } s) →
    renderDone d s = wrF (GARNET_RENDER d) GARNET_RENDER_RENDERS ((t.rdF (GARNET_RENDER d) GARNET_RENDER_RENDERS + 1) % 2 ^ 16) t := by
  rintro t rfl
  unfold renderDone
  rw [hh, if_neg Bool.false_ne_true, hr]
  dsimp only
  rw [hp]
  rfl

theorem garnetRenderDone_rule {d : Die} {j : GJob} {ws : List Nat} {s : State} (hr : (s.garnet d).rendering = some (j, ws)) (hh : (s.boot d).halted = false) (hp : j.palette = none) :
    ∃ t, exec (.garnetRenderDone d) s = .next t ∧ t = { s with regs := t.regs, garnets := t.garnets, free := t.free, out := [] } ∧ (t.garnet d).rendering = none
      ∧ (t.garnet d).queue = (s.garnet d).queue ∧ (t.garnet d).slots = (s.garnet d).slots
      ∧ (∀ w ∈ ws, (tfind w (s.garnet d).windows).isSome = true → (tfind w (t.garnet d).windows).map (fun x => x.back) = some (some (slotsIn (s.garnet d) w)))
      ∧ (∀ w, w ∉ ws → tfind w (t.garnet d).windows = tfind w (s.garnet d).windows)
      ∧ t.rdF (GARNET_RENDER d) GARNET_RENDER_RENDERS = (s.rdF (GARNET_RENDER d) GARNET_RENDER_RENDERS + 1) % 2 ^ 16 ∧ ∀ a, a ≠ GARNET_RENDER d → t.rd a = s.rd a := by
  obtain ⟨x, hx⟩ : ∃ x, x = setGarnet d { s.garnet d with rendering := none } (fresh s) := ⟨_, rfl⟩
  obtain ⟨u, hu⟩ : ∃ u, u = ws.foldl (windowDrawn d) x := ⟨_, rfl⟩
  have hgo := renderDone_eq (s := fresh s) hr hh hp u (by rw [hu, hx]; rfl)
  obtain ⟨h1, h2, ⟨w, h3⟩, h4, h5, -⟩ := drawn_foldl d ws x
  rw [← hu] at h1 h2 h3 h4 h5
  have hxg : x.garnet d = { s.garnet d with rendering := none } := by rw [hx, garnet_setGarnet_same]
  have hx1 : Only (fun u => { u with regs := [], garnets := [], free := 0 }) (fresh s) x := by
    rw [hx]
    exact Only.rfl.setGarnet _ _
  have hrd : ∀ a, u.rd a = s.rd a := fun a => by
    rw [rd_congr h2 (h1.part_eq) a, hx, rd_setGarnet, rd_fresh]
  have hend := (hx1.trans h1).wrF (GARNET_RENDER d) GARNET_RENDER_RENDERS ((u.rdF (GARNET_RENDER d) GARNET_RENDER_RENDERS + 1) % 2 ^ 16)
  have hg : (wrF (GARNET_RENDER d) GARNET_RENDER_RENDERS ((u.rdF (GARNET_RENDER d) GARNET_RENDER_RENDERS + 1) % 2 ^ 16) u).garnet d = u.garnet d := rfl
  refine ⟨_, congrArg Host.Outcome.next (hend.ran hgo), hend.regsGarnetsFree, ?_, ?_, ?_, fun v hv hs => ?_, fun v hv => ?_, ?_, fun a ha => (rd_wrF_ne ha _ _ _).trans (hrd a)⟩
  · rw [hg, h3, hxg]
  · rw [hg, h3, hxg]
  · rw [hg, h3, hxg]
  · rw [hg, h4 v hv (by rw [hxg]; exact hs), hxg]
    rfl
  · rw [hg, h5 v hv, hxg]
  · exact (rdF_wrF_of_lt (by decide) (Nat.mod_lt _ (by decide))).trans (congrArg (fun n => (n + 1) % 2 ^ 16) (rdF_of_rd (hrd _) _))

/-! ## Latched causes (R212) -/

/-- A register outside the blocks that posting writes. -/
theorem postReg_outside (d : Die) {x : Nat} (h1 : 0x402000 ≤ x) (h2 : x < 0x4000000) : postReg (dieSpace d + x) = false := by
  rw [postReg, addrOff_die d h2]
  exact decide_eq_false (by omega)

theorem postReg_fault (d : Die) : postReg (GARNET_FAULT d) = false := postReg_outside d (by decide) (by decide)

/-- The latched causes as a field of GARNET_FAULT. -/
def faultCauses : Fld := ⟨0, 31⟩

theorem causeBits_eq (s : State) (d : Die) : causeBits s d = s.rdF (GARNET_FAULT d) faultCauses := by
  unfold causeBits State.rdF Fld.get faultCauses
  rw [Nat.pow_zero, Nat.div_one]

theorem setBit_set_lt {x b n : Nat} (hx : x < 2 ^ n) (hb : b < n) (h : nbit x b = false) : setBit x b true < 2 ^ n := by
  have hbit : x / 2 ^ b % 2 = 0 := by
    unfold nbit at h
    have := beq_eq_false_iff_ne.1 h
    omega
  have hdvd : 2 ^ n = 2 ^ b * (2 * 2 ^ (n - b - 1)) := by
    rw [← Nat.pow_succ', ← Nat.pow_add]
    congr 1
    omega
  have hdiv : x / 2 ^ b < 2 * 2 ^ (n - b - 1) := Nat.div_lt_of_lt_mul (by rw [← hdvd]; exact hx)
  have hnext : x / 2 ^ b + 1 < 2 * 2 ^ (n - b - 1) := by omega
  have hlt : x < 2 ^ b * (x / 2 ^ b + 1) := by
    rw [Nat.mul_add, Nat.mul_one]
    have := Nat.div_add_mod x (2 ^ b)
    have := Nat.mod_lt x (Nat.two_pow_pos b)
    omega
  have hstep : 2 ^ b * (x / 2 ^ b + 1 + 1) ≤ 2 ^ n := by
    rw [hdvd]
    exact Nat.mul_le_mul_left _ hnext
  unfold setBit
  rw [hbit, Nat.zero_mul, Nat.sub_zero, if_pos rfl]
  rw [Nat.mul_add, Nat.mul_one] at hstep
  omega

/-- The pin follows the causes: what driving it leaves as it was, and that it is driven where a cause is latched. -/
theorem drivePin_rule (d : Die) (s : State) : (drivePin d s).garnets = s.garnets ∧ (∀ a, a ≠ GARNET_FAULT d → postReg a = false → (drivePin d s).rd a = s.rd a)
    ∧ causeBits (drivePin d s) d = causeBits s d ∧ (causeBits s d ≠ 0 → (drivePin d s).flag (GARNET_FAULT d) GARNET_FAULT_ASSERTED = true) := by
  obtain ⟨on, hon⟩ : ∃ on, on = (causeBits s d != 0) := ⟨_, rfl⟩
  by_cases h : on = s.flag (GARNET_FAULT d) GARNET_FAULT_ASSERTED
  · have heq : drivePin d s = s := if_pos (by rw [← hon, h])
    rw [heq]
    refine ⟨rfl, fun _ _ _ => rfl, rfl, fun hc => ?_⟩
    rw [← h, hon]
    exact bne_iff_ne.2 hc
  · obtain ⟨v, hv⟩ : ∃ v, v = (if on = true then rinlarCount d 37 1 (wrB (GARNET_FAULT d) GARNET_FAULT_ASSERTED on s) else wrB (GARNET_FAULT d) GARNET_FAULT_ASSERTED on s) := ⟨_, rfl⟩
    have heq : drivePin d s = postPf1 d 0x0306 d.idx (b2n (!on) + (v.rd (GARNET_FAULT d)).toNat * 2 ^ 32) v := by
      unfold drivePin
      dsimp only
      rw [← hon, if_neg h, ← hv]
    have hvg : v.garnets = s.garnets := by
      rw [hv]
      split <;> rfl
    have hvr : ∀ a, v.rd a = (wrB (GARNET_FAULT d) GARNET_FAULT_ASSERTED on s).rd a := fun a => by
      rw [hv]
      split
      · exact rd_setRin _ _ _ _
      · rfl
    obtain ⟨hp, hregs, -⟩ := posts_postPf1 (ok := True) d 0x0306 d.idx (b2n (!on) + (v.rd (GARNET_FAULT d)).toNat * 2 ^ 32) v
    have hf : (drivePin d s).rd (GARNET_FAULT d) = (wrB (GARNET_FAULT d) GARNET_FAULT_ASSERTED on s).rd (GARNET_FAULT d) := by
      rw [heq, hregs trivial _ (postReg_fault d), hvr]
    refine ⟨?_, fun a ha hb => ?_, ?_, fun hc => ?_⟩
    · rw [heq]
      exact (congrArg State.garnets hp :).trans hvg
    · rw [heq, hregs trivial a hb, hvr, rd_wrB_ne ha]
    · rw [causeBits_eq, rdF_of_rd hf, rdF_wrB_other _ _ _ _ _ (by decide) (by decide), causeBits_eq]
    · rw [flag_of_rd hf, flag_wrB_same _ _ _ _ (by decide) (by decide), hon]
      exact bne_iff_ne.2 hc

theorem nbit_mod {x b n : Nat} (h : b < n) : nbit (x % 2 ^ n) b = nbit x b := by
  unfold nbit
  have hmod : x % 2 ^ n / 2 ^ b % 2 = x / 2 ^ b % 2 := by
    rw [show n = b + (n - b) by omega, Nat.pow_add, Nat.mod_mul_right_div_self, Nat.mod_mod_of_dvd]
    exact Dvd.intro_left (2 ^ (n - b - 1)) (by rw [← Nat.pow_succ]; congr 1; omega)
  rw [hmod]

theorem ne_zero_of_nbit {x b : Nat} (h : nbit x b = true) : x ≠ 0 := by
  rintro rfl
  unfold nbit at h
  rw [Nat.zero_div] at h
  exact absurd h (by decide)

theorem nbit_causeBits (s : State) (d : Die) {b : Nat} (h : b < 31) : nbit (causeBits s d) b = nbit (s.rd (GARNET_FAULT d)).toNat b := nbit_mod h

/-- A cause is latched: it shows, and the pin is driven. -/
theorem latchCause_rule (d : Die) (c : Cause) (s : State) (hb : c.bit < 31) : (latchCause d c s).garnets = s.garnets
    ∧ (∀ a, a ≠ GARNET_FAULT d → postReg a = false → (latchCause d c s).rd a = s.rd a) ∧ nbit (causeBits (latchCause d c s) d) c.bit = true
    ∧ (nbit (causeBits s d) c.bit = false → (latchCause d c s).flag (GARNET_FAULT d) GARNET_FAULT_ASSERTED = true) := by
  by_cases h : nbit (causeBits s d) c.bit = true
  · have heq : latchCause d c s = s := if_pos h
    rw [heq]
    exact ⟨rfl, fun _ _ _ => rfl, h, fun hf => absurd (hf.symm.trans h) Bool.false_ne_true⟩
  · obtain ⟨w, hw⟩ : ∃ w, w = wr (GARNET_FAULT d) (BitVec.ofNat 32 (setBit (s.rd (GARNET_FAULT d)).toNat c.bit true)) s := ⟨_, rfl⟩
    obtain ⟨v, hv⟩ : ∃ v, v = (match c.counter with
      | some i => rinlarCount d i 1 w
      | none => w) := ⟨_, rfl⟩
    have heq : latchCause d c s = drivePin d v := by
      rw [hv, hw]
      exact if_neg h
    have hvg : v.garnets = s.garnets := by
      rw [hv]
      split
      · rw [hw]; rfl
      · rw [hw]; rfl
    have hvr : ∀ a, v.rd a = w.rd a := fun a => by
      rw [hv]
      split
      · exact rd_setRin _ _ _ _
      · rfl
    obtain ⟨k1, k2, k3, k4⟩ := drivePin_rule d v
    have hlt : setBit (s.rd (GARNET_FAULT d)).toNat c.bit true < 2 ^ 32 :=
      setBit_set_lt (s.rd (GARNET_FAULT d)).isLt (by omega) (by rw [← nbit_causeBits s d hb]; exact Bool.eq_false_iff.2 h)
    have hset : nbit (causeBits v d) c.bit = true := by
      rw [nbit_causeBits v d hb, hvr, hw, rd_wr_same, BitVec.toNat_ofNat, Nat.mod_eq_of_lt hlt]
      exact nbit_setBit_same _ _
    rw [heq]
    refine ⟨k1.trans hvg, fun a ha hp => ?_, by rw [k3, hset], fun _ => k4 (ne_zero_of_nbit hset)⟩
    rw [k2 a ha hp, hvr, hw, rd_wr_ne ha]

/-! ## The takeover of a head (R209, R210) -/

theorem postReg_gscan (d : Die) {n : Nat} (hn : n < 4) : postReg (GSCAN_STATUS d n) = false := by
  rw [GSCAN_STATUS, Nat.add_assoc]
  exact postReg_outside d (by omega) (by omega)

theorem gscan_ne_fault (d : Die) (n : Nat) : GSCAN_STATUS d n ≠ GARNET_FAULT d := by
  unfold GSCAN_STATUS GARNET_FAULT
  omega

theorem scan_setScan_same (d : Die) (n : Nat) (x : GScan) (s : State) : ((setScan d n x s).garnet d).scan n = x := by
  unfold setScan
  rw [garnet_setGarnet_same]
  exact tget_tset_same _ _ _ _
theorem rd_setScan (d : Die) (n : Nat) (x : GScan) (s : State) (a : Nat) : (setScan d n x s).rd a = s.rd a := rd_setGarnet _ _ _ _

theorem composerHeartbeatTimeout_rule {h : Nat} {s : State} (hh : h < 8) (hp : 3 ≤ (s.head h).phase) :
    ∃ t, exec (.composerHeartbeatTimeout h) s = .next t ∧ t = { s with regs := t.regs, garnets := t.garnets, out := [] }
      ∧ t.flag (GSCAN_STATUS (headDie h) (headNo h)) GSCAN_STATUS_CLEAN = false ∧ ((t.garnet (headDie h)).scan (headNo h)).detector = true
      ∧ ∀ a, a ≠ GSCAN_STATUS (headDie h) (headNo h) → t.rd a = s.rd a := by
  obtain ⟨x, hx⟩ : ∃ x : GScan, x = { ((fresh s).garnet (headDie h)).scan (headNo h) with detector := true, frames := 0, broken := true } := ⟨_, rfl⟩
  have hgo : heartbeatLost h (fresh s) = wrB (GSCAN_STATUS (headDie h) (headNo h)) GSCAN_STATUS_CLEAN false (setScan (headDie h) (headNo h) x (fresh s)) := by
    unfold heartbeatLost
    dsimp only
    rw [head_fresh, if_neg (by omega), hx]
  have hscan : Only (fun u => { u with regs := [], garnets := [] }) (fresh s) (setScan (headDie h) (headNo h) x (fresh s)) := Only.rfl.setGarnet _ _
  have hend := hscan.wrB (GSCAN_STATUS (headDie h) (headNo h)) GSCAN_STATUS_CLEAN false
  refine ⟨_, congrArg Host.Outcome.next (hend.ran hgo), hend.regsGarnets, flag_wrB_same _ _ _ _ (by decide) (by decide), ?_, fun a ha => ?_⟩
  · have hkeep : (wrB (GSCAN_STATUS (headDie h) (headNo h)) GSCAN_STATUS_CLEAN false (setScan (headDie h) (headNo h) x (fresh s))).garnet (headDie h)
        = (setScan (headDie h) (headNo h) x (fresh s)).garnet (headDie h) := rfl
    rw [hkeep, scan_setScan_same, hx]
  · rw [rd_wrB_ne ha, rd_setScan, rd_fresh]

/-- The scan's part of a takeover by a detector: windows on the line are cut. -/
def scanCut (h line : Nat) (s : State) : GScan :=
  { (s.garnet (headDie h)).scan (headNo h) with
    detector := true, frames := 0, broken := true,
    cut := ((s.garnet (headDie h)).windows.filter (fun x => x.1 / 8 == headNo h && decide (x.2.y ≤ line ∧ line < x.2.y + x.2.h))).map (fun x => x.1 % 8) }

/-- The scan drives the port, for a detector's cause. -/
def scanDriven (h cause line : Nat) (s : State) : State :=
  setScan (headDie h) (headNo h) (scanCut h line s) s
    |> wrB (GSCAN_STATUS (headDie h) (headNo h)) GSCAN_STATUS_ACTIVE true |> wrB (GSCAN_STATUS (headDie h) (headNo h)) GSCAN_STATUS_FORCED false
    |> wrB (GSCAN_STATUS (headDie h) (headNo h)) GSCAN_STATUS_CLEAN false |> wrF (GSCAN_STATUS (headDie h) (headNo h)) GSCAN_STATUS_CAUSE cause
    |> satF (GSCAN_STATUS (headDie h) (headNo h)) GSCAN_STATUS_TAKEOVERS 1

theorem takeOver_eq {h cause line : Nat} {s : State} (h8 : cause < 8) (hoff : s.flag (GSCAN_STATUS (headDie h) (headNo h)) GSCAN_STATUS_ACTIVE = false) :
    takeOver h cause line s = postPf1 (headDie h) 0x0304 h (cause + line % 2 ^ 16 * 2 ^ 16 + s.headFrame h % 2 ^ 32 * 2 ^ 32)
      (if s.flag (GARNET_LINK_CFG (headDie h)) GARNET_LINK_CFG_TAKEOVER_FAULT = true then latchCause (headDie h) (.takeover (headNo h)) (scanDriven h cause line s) else scanDriven h cause line s) := by
  have hne : (cause == 8) = false := beq_eq_false_iff_ne.2 (by omega)
  have hbne : (cause != 8) = true := bne_iff_ne.2 (by omega)
  have hno : ¬cause = 8 := by omega
  unfold takeOver scanDriven scanCut
  dsimp only
  rw [hoff, if_neg Bool.false_ne_true, hne, hbne, if_neg hno, if_neg hno, Bool.or_true]
  split <;> rfl

theorem scanDriven_rule (h cause line : Nat) (hc : cause < 16) (s : State) :
    (scanDriven h cause line s).flag (GSCAN_STATUS (headDie h) (headNo h)) GSCAN_STATUS_ACTIVE = true
      ∧ (scanDriven h cause line s).rdF (GSCAN_STATUS (headDie h) (headNo h)) GSCAN_STATUS_CAUSE = cause
      ∧ (scanDriven h cause line s).flag (GSCAN_STATUS (headDie h) (headNo h)) GSCAN_STATUS_FORCED = false
      ∧ (scanDriven h cause line s).rdF (GSCAN_STATUS (headDie h) (headNo h)) GSCAN_STATUS_TAKEOVERS
          = min (2 ^ GSCAN_STATUS_TAKEOVERS.len - 1) (s.rdF (GSCAN_STATUS (headDie h) (headNo h)) GSCAN_STATUS_TAKEOVERS + 1)
      ∧ (((scanDriven h cause line s).garnet (headDie h)).scan (headNo h)).detector = true
      ∧ ∀ a, a ≠ GSCAN_STATUS (headDie h) (headNo h) → (scanDriven h cause line s).rd a = s.rd a := by
  obtain ⟨v, hv⟩ : ∃ v, v = setScan (headDie h) (headNo h) (scanCut h line s) s := ⟨_, rfl⟩
  obtain ⟨a, ha⟩ : ∃ a, a = GSCAN_STATUS (headDie h) (headNo h) := ⟨_, rfl⟩
  have heq : scanDriven h cause line s = satF a GSCAN_STATUS_TAKEOVERS 1 (wrF a GSCAN_STATUS_CAUSE cause (wrB a GSCAN_STATUS_CLEAN false
      (wrB a GSCAN_STATUS_FORCED false (wrB a GSCAN_STATUS_ACTIVE true v)))) := by
    rw [hv, ha]
    rfl
  have hsat : ∀ (g : Fld) (n : Nat) (t : State), 16 ≤ g.lo → (satF a GSCAN_STATUS_TAKEOVERS n t).rdF a g = t.rdF a g := fun g n t hg =>
    rdF_wrF_other _ _ _ _ _ (by decide) (.inr hg)
  have hg : (scanDriven h cause line s).garnet (headDie h) = v.garnet (headDie h) := by
    rw [heq]
    rfl
  rw [← ha]
  refine ⟨?_, ?_, ?_, ?_, ?_, fun b hb => ?_⟩
  · rw [heq, State.flag, hsat _ _ _ (by decide), rdF_wrF_other _ _ _ _ _ (by decide) (by decide), rdF_wrB_other _ _ _ _ _ (by decide) (by decide), rdF_wrB_other _ _ _ _ _ (by decide) (by decide)]
    exact flag_wrB_same _ _ _ _ (by decide) (by decide)
  · rw [heq, hsat _ _ _ (by decide)]
    exact rdF_wrF_of_lt (by decide) hc
  · rw [heq, State.flag, hsat _ _ _ (by decide), rdF_wrF_other _ _ _ _ _ (by decide) (by decide), rdF_wrB_other _ _ _ _ _ (by decide) (by decide)]
    exact flag_wrB_same _ _ _ _ (by decide) (by decide)
  · rw [heq, rdF_satF_same _ _ _ _ (by decide), rdF_wrF_other _ _ _ _ _ (by decide) (by decide), rdF_wrB_other _ _ _ _ _ (by decide) (by decide),
      rdF_wrB_other _ _ _ _ _ (by decide) (by decide), rdF_wrB_other _ _ _ _ _ (by decide) (by decide), hv, rdF_of_rd (rd_setScan _ _ _ _ _)]
  · rw [hg, hv, scan_setScan_same, scanCut]
  · rw [heq, rd_satF_ne hb, rd_wrF_ne hb, rd_wrB_ne hb, rd_wrB_ne hb, rd_wrB_ne hb, hv, rd_setScan]

/-- What a head that has been taken over shows. -/
def TakenOver (h cause : Nat) (s t : State) : Prop :=
  t.flag (GSCAN_STATUS (headDie h) (headNo h)) GSCAN_STATUS_ACTIVE = true
    ∧ t.rdF (GSCAN_STATUS (headDie h) (headNo h)) GSCAN_STATUS_CAUSE = cause ∧ t.flag (GSCAN_STATUS (headDie h) (headNo h)) GSCAN_STATUS_FORCED = false
    ∧ t.rdF (GSCAN_STATUS (headDie h) (headNo h)) GSCAN_STATUS_TAKEOVERS
        = min (2 ^ GSCAN_STATUS_TAKEOVERS.len - 1) (s.rdF (GSCAN_STATUS (headDie h) (headNo h)) GSCAN_STATUS_TAKEOVERS + 1)
    ∧ ((t.garnet (headDie h)).scan (headNo h)).detector = true
    ∧ (s.flag (GARNET_LINK_CFG (headDie h)) GARNET_LINK_CFG_TAKEOVER_FAULT = true → nbit (causeBits s (headDie h)) (12 + headNo h) = false → nbit (causeBits t (headDie h)) (12 + headNo h) = true
        ∧ t.flag (GARNET_FAULT (headDie h)) GARNET_FAULT_ASSERTED = true)

theorem takenOver_of_rd {h cause : Nat} {r s t u : State} (ht : TakenOver h cause s t) (hs : ∀ a, s.rd a = r.rd a) (hu : u.garnets = t.garnets)
    (h1 : u.rd (GSCAN_STATUS (headDie h) (headNo h)) = t.rd (GSCAN_STATUS (headDie h) (headNo h))) (h2 : u.rd (GARNET_FAULT (headDie h)) = t.rd (GARNET_FAULT (headDie h))) :
    TakenOver h cause r u := by
  obtain ⟨k1, k2, k3, k4, k5, k6⟩ := ht
  have hg : u.garnet (headDie h) = t.garnet (headDie h) := congrArg (tget Garnet.empty _) hu
  have hbits : causeBits r (headDie h) = causeBits s (headDie h) := by rw [causeBits_eq, causeBits_eq, rdF_of_rd (hs _)]
  unfold TakenOver
  rw [hbits, ← rdF_of_rd (hs _), ← flag_of_rd (hs _)]
  refine ⟨(flag_of_rd h1 _).trans k1, (rdF_of_rd h1 _).trans k2, (flag_of_rd h1 _).trans k3, (rdF_of_rd h1 _).trans k4, by rw [hg, k5], fun a b => ?_⟩
  obtain ⟨m1, m2⟩ := k6 a b
  exact ⟨by rw [causeBits_eq, rdF_of_rd h2, ← causeBits_eq, m1], (flag_of_rd h2 _).trans m2⟩

theorem takeOver_rule {h cause line : Nat} {s : State} (h8 : cause < 8) (hoff : s.flag (GSCAN_STATUS (headDie h) (headNo h)) GSCAN_STATUS_ACTIVE = false) :
    TakenOver h cause s (takeOver h cause line s) := by
  obtain ⟨k1, k2, k3, k4, k5, k6⟩ := scanDriven_rule h cause line (by omega) s
  have hfault : (scanDriven h cause line s).rd (GARNET_FAULT (headDie h)) = s.rd (GARNET_FAULT (headDie h)) := k6 _ (gscan_ne_fault _ _).symm
  have hbits : causeBits (scanDriven h cause line s) (headDie h) = causeBits s (headDie h) := by rw [causeBits_eq, causeBits_eq, rdF_of_rd hfault]
  obtain ⟨v, hv⟩ : ∃ v, v = (if s.flag (GARNET_LINK_CFG (headDie h)) GARNET_LINK_CFG_TAKEOVER_FAULT = true then latchCause (headDie h) (.takeover (headNo h)) (scanDriven h cause line s)
      else scanDriven h cause line s) := ⟨_, rfl⟩
  have hno : headNo h < 4 := headNo_lt h
  have hbit : (Cause.takeover (headNo h)).bit = 12 + headNo h := congrArg (12 + ·) (Nat.mod_eq_of_lt hno)
  obtain ⟨l1, l2, l3, l4⟩ := latchCause_rule (headDie h) (.takeover (headNo h)) (scanDriven h cause line s) (by rw [hbit]; omega)
  rw [hbit] at l3 l4
  have hlatched : TakenOver h cause s v := by
    rw [hv]
    split
    case isTrue hf =>
      have hscan := l2 _ (gscan_ne_fault (headDie h) (headNo h)) (postReg_gscan _ hno)
      refine ⟨(flag_of_rd hscan _).trans k1, (rdF_of_rd hscan _).trans k2, (flag_of_rd hscan _).trans k3, (rdF_of_rd hscan _).trans k4, ?_, fun _ hb => ⟨l3, l4 (by rw [hbits, hb])⟩⟩
      rw [show (latchCause (headDie h) (.takeover (headNo h)) (scanDriven h cause line s)).garnet (headDie h) = (scanDriven h cause line s).garnet (headDie h) from congrArg (tget Garnet.empty _) l1, k5]
    case isFalse hf => exact ⟨k1, k2, k3, k4, k5, fun hc => absurd hc hf⟩
  rw [takeOver_eq h8 hoff, ← hv]
  obtain ⟨hp, hregs, -⟩ := posts_postPf1 (ok := True) (headDie h) 0x0304 h (cause + line % 2 ^ 16 * 2 ^ 16 + s.headFrame h % 2 ^ 32 * 2 ^ 32) v
  exact takenOver_of_rd hlatched (fun _ => rfl) (congrArg State.garnets hp :) (hregs trivial _ (postReg_gscan _ hno)) (hregs trivial _ (postReg_fault _))

theorem garnetTakeover_rule {h cause line : Nat} {s : State} (hh : h < 8) (hp : 3 ≤ (s.head h).phase) (h1 : 1 ≤ cause) (h7 : cause ≤ 7)
    (hoff : s.flag (GSCAN_STATUS (headDie h) (headNo h)) GSCAN_STATUS_ACTIVE = false) : ∃ t, exec (.garnetTakeover h cause line) s = .next t ∧ TakenOver h cause s t := by
  obtain ⟨v, hv⟩ : ∃ v, v = (if cause = 4 then rinlarCount (headDie h) 27 1 (fresh s) else fresh s) := ⟨_, rfl⟩
  have hgo : detectorFires h cause line (fresh s) = takeOver h cause line v := by
    unfold detectorFires
    rw [head_fresh, if_neg (by omega), hv]
  have hrd : ∀ a, v.rd a = s.rd a := fun a => by
    rw [hv]
    split
    · exact (rd_setRin _ _ _ _).trans (rd_fresh _ _)
    · exact rd_fresh _ _
  have hrun : ∀ a, (ran (detectorFires h cause line) s).rd a = (takeOver h cause line v).rd a := fun a => by rw [ran_rd, hgo]
  refine ⟨ran (detectorFires h cause line) s, rfl, ?_⟩
  refine takenOver_of_rd (takeOver_rule (by omega) ((flag_of_rd (hrd _) _).trans hoff)) hrd ?_ (hrun _) (hrun _)
  exact (congrArg State.garnets hgo :)

/-- Settles O40: the renderer takes and completes changes, and a detector takes a head over. -/
theorem rendererAndGarnetScan : Obligations.RendererAndGarnetScan := by
  refine ⟨fun d j rest ecc s hr hq hh hw _ => garnetRender_rule hr hq hh hw, fun d j ws s => garnetRenderDone_rule,
    fun h s hh hp => ⟨composerHeartbeatTimeout_rule hh hp, fun cause line h1 h7 hoff => ?_⟩⟩
  obtain ⟨t, ht, k1, k2, k3, k4, k5, k6⟩ := garnetTakeover_rule (line := line) hh hp h1 h7 hoff
  exact ⟨t, ht, k1, k2, k3, k4, k5, k6⟩

end Sys2Proof.Machine
end

section
/-! The supervisor, block resets, quiescence and pins (R434–R439, R486–R492). -/
namespace Sys2Proof.Machine

/-! ## Bits of the block registers -/

theorem setBit_of_set {x b : Nat} (h : nbit x b = true) : setBit x b true = x := by
  have hbit : x / 2 ^ b % 2 = 1 := beq_iff_eq.1 h
  have hle : 2 ^ b ≤ x := by
    by_contra hc
    rw [Nat.div_eq_of_lt (by omega)] at hbit
    omega
  unfold setBit
  rw [hbit, Nat.one_mul, if_pos rfl]
  omega

theorem setBit_lt {x b n : Nat} (on : Bool) (hx : x < 2 ^ n) (hb : b < n) : setBit x b on < 2 ^ n := by
  cases on with
  | false => exact Nat.lt_of_le_of_lt (setBit_clear_le _ _) hx
  | true =>
    cases h : nbit x b with
    | true => rwa [setBit_of_set h]
    | false => exact setBit_set_lt hx hb h

theorem nbit_setBit (x b : Nat) (on : Bool) : nbit (setBit x b on) b = on := by
  cases on with
  | false => exact nbit_setBit_clear _ _
  | true => exact nbit_setBit_same _ _

/-- A bit of a block register reads as it was set, and no other register changes. -/
theorem setBlock_touches (a b : Nat) (on : Bool) (s : State) : Touches [a] s (setBlock a b on s) := Touches.rfl.wr _

theorem nbit_setBlock (a : Nat) {b : Nat} (hb : b < 32) (on : Bool) (s : State) : nbit ((setBlock a b on s).rd a).toNat b = on := by
  have hlt : setBit (s.rd a).toNat b on < 2 ^ 32 := setBit_lt on (s.rd a).isLt hb
  unfold setBlock
  rw [rd_wr_same, BitVec.toNat_ofNat, Nat.mod_eq_of_lt hlt]
  exact nbit_setBit _ _ _

theorem rd_setBlock_ne {a c : Nat} (h : c ≠ a) (b : Nat) (on : Bool) (s : State) : (setBlock a b on s).rd c = s.rd c := rd_wr_ne h _ _

theorem Only.regsBoots {s t : State} (h : Only (fun u => { u with regs := [], boots := [] }) (fresh s) t) : t = { s with regs := t.regs, boots := t.boots, out := [] } :=
  congrArg (fun u => { u with regs := t.regs, boots := t.boots }) h
theorem Only.bootsOnly {s t : State} (h : Only (fun u => { u with boots := [] }) (fresh s) t) : t = { s with boots := t.boots, out := [] } :=
  congrArg (fun u => { u with boots := t.boots }) h
theorem Only.regsRinlarBoots {s t : State} (h : Only (fun u => { u with regs := [], rinlar := [], boots := [] }) (fresh s) t) :
    t = { s with regs := t.regs, rinlar := t.rinlar, boots := t.boots, out := [] } :=
  congrArg (fun u => { u with regs := t.regs, rinlar := t.rinlar, boots := t.boots }) h

theorem boot_fresh (s : State) (d : Die) : (fresh s).boot d = s.boot d := rfl
theorem boot_setRin (d e : Die) (r : Rinlar) (s : State) : (setRin e r s).boot d = s.boot d := rfl

/-! ## The watchdog and lockstep (R435) -/

/-- The watchdog's registers after it has fired. -/
def wdogShown (d : Die) (s : State) : State := satF (WDOG_COUNT d) WDOG_COUNT_COUNT 1 (wrB (WDOG_STATUS d) WDOG_STATUS_EXPIRED true s)

theorem wdogCount_ne (d : Die) : WDOG_COUNT d ≠ WDOG_STATUS d := by
  unfold WDOG_COUNT WDOG_STATUS
  omega

theorem wdogFires_eq {d : Die} {s : State} (h : s.flag (WDOG_STATUS d) WDOG_STATUS_EXPIRED = false) : wdogFires d s = rinlarCount d 5 1 (wdogShown d s) :=
  if_neg (by rw [h]; exact Bool.false_ne_true)

theorem wdogShown_touches (d : Die) (s : State) : Touches [WDOG_STATUS d, WDOG_COUNT d] s (wdogShown d s) := (Touches.rfl.wrB _ _).satF _ _

/-- The watchdog has fired, and FAILOVER_n is gone. -/
def wdogFired (d : Die) (s : State) : State := refreshFailover d (rinlarCount d 5 1 (wdogShown d s))

theorem wdogFired_rule (d : Die) (s : State) : Only (fun u => { u with regs := [], rinlar := [], boots := [] }) s (wdogFired d s)
    ∧ (wdogFired d s).flag (WDOG_STATUS d) WDOG_STATUS_EXPIRED = true
    ∧ (wdogFired d s).flag (WDOG_STATUS d) WDOG_STATUS_LOCKSTEP = s.flag (WDOG_STATUS d) WDOG_STATUS_LOCKSTEP
    ∧ (wdogFired d s).rdF (WDOG_COUNT d) WDOG_COUNT_COUNT = min (2 ^ WDOG_COUNT_COUNT.len - 1) (s.rdF (WDOG_COUNT d) WDOG_COUNT_COUNT + 1)
    ∧ (wdogFired d s).boot d = { s.boot d with failover := false } ∧ ∀ a, a ≠ WDOG_STATUS d → a ≠ WDOG_COUNT d → (wdogFired d s).rd a = s.rd a := by
  obtain ⟨v, hv⟩ : ∃ v, v = rinlarCount d 5 1 (wdogShown d s) := ⟨_, rfl⟩
  obtain ⟨h1, h2⟩ := wdogShown_touches d s
  have hvr : ∀ a, v.rd a = (wdogShown d s).rd a := fun a => by
    rw [hv]
    exact rd_setRin _ _ _ _
  have hfired : v.flag (WDOG_STATUS d) WDOG_STATUS_EXPIRED = true := by
    rw [flag_of_rd (hvr _), wdogShown, flag_satF_ne (wdogCount_ne d).symm]
    exact flag_wrB_same _ _ _ _ (by decide) (by decide)
  have hboot : v.boot d = s.boot d := by
    rw [hv]
    exact boot_of_regsOnly h1 d
  have heq : wdogFired d s = setBoot d { v.boot d with failover := false } v := by
    unfold wdogFired refreshFailover
    rw [← hv, hfired, Bool.not_true, Bool.and_false, Bool.false_and]
  have hrd : ∀ a, (wdogFired d s).rd a = (wdogShown d s).rd a := fun a => by rw [heq, rd_setBoot, hvr]
  refine ⟨?_, ?_, ?_, ?_, ?_, fun a ha hb => (hrd a).trans (h2 a (by simp [ha, hb]))⟩
  · have hv1 : Only (fun u => { u with regs := [], rinlar := [], boots := [] }) s v := by
      rw [hv]
      exact (Only.of_regsOnly h1).setRin _ _
    rw [heq]
    exact hv1.setBoot _ _
  · rw [flag_of_rd (hrd _), ← flag_of_rd (hvr _), hfired]
  · rw [flag_of_rd (hrd _), wdogShown, flag_satF_ne (wdogCount_ne d).symm]
    exact flag_wrF_other _ _ _ _ _ (by decide) (by decide)
  · rw [rdF_of_rd (hrd _), wdogShown, rdF_satF_same _ _ _ _ (by decide), rdF_wrB_ne (wdogCount_ne d)]
  · rw [heq, boot_setBoot_same, hboot]

theorem watchdogExpiry_rule {d : Die} {s : State} (hr : s.inReset.contains .supervisor = false) (he : s.flag (WDOG_STATUS d) WDOG_STATUS_EXPIRED = false) :
    ∃ t, exec (.watchdogExpiry d) s = .next t ∧ t = { s with regs := t.regs, rinlar := t.rinlar, boots := t.boots, out := [] } ∧ t.flag (WDOG_STATUS d) WDOG_STATUS_EXPIRED = true
      ∧ t.rdF (WDOG_COUNT d) WDOG_COUNT_COUNT = min (2 ^ WDOG_COUNT_COUNT.len - 1) (s.rdF (WDOG_COUNT d) WDOG_COUNT_COUNT + 1) ∧ t.boot d = { s.boot d with failover := false }
      ∧ ∀ a, a ≠ WDOG_STATUS d → a ≠ WDOG_COUNT d → t.rd a = s.rd a := by
  have hgo : wdogExpires d (fresh s) = wdogFired d (fresh s) := by
    unfold wdogExpires wdogFired
    rw [if_neg (by rw [show (fresh s).inReset = s.inReset from rfl, hr]; exact Bool.false_ne_true), wdogFires_eq (by rw [flag_fresh, he])]
  obtain ⟨h1, h2, -, h4, h5, h6⟩ := wdogFired_rule d (fresh s)
  exact ⟨_, congrArg Host.Outcome.next (h1.ran hgo), h1.regsRinlarBoots, h2, h4.trans (by rw [rdF_fresh]), h5, fun a ha hb => (h6 a ha hb).trans (rd_fresh _ _)⟩

theorem lockstepFailure_rule {d : Die} {s : State} (hr : s.inReset.contains .supervisor = false) (he : s.flag (WDOG_STATUS d) WDOG_STATUS_EXPIRED = false) :
    ∃ t, exec (.lockstepFailure d) s = .next t ∧ t = { s with regs := t.regs, rinlar := t.rinlar, boots := t.boots, out := [] } ∧ t.flag (WDOG_STATUS d) WDOG_STATUS_EXPIRED = true
      ∧ t.flag (WDOG_STATUS d) WDOG_STATUS_LOCKSTEP = true ∧ t.boot d = { s.boot d with halted := true, failover := false }
      ∧ ∀ a, a ≠ WDOG_STATUS d → a ≠ WDOG_COUNT d → t.rd a = s.rd a := by
  obtain ⟨x, hx⟩ : ∃ x, x = setBoot d { s.boot d with halted := true } (wrB (WDOG_STATUS d) WDOG_STATUS_LOCKSTEP true (fresh s)) := ⟨_, rfl⟩
  have hx1 : Only (fun u => { u with regs := [], rinlar := [], boots := [] }) (fresh s) x := by
    rw [hx]
    exact (Only.rfl.wrB _ _ _).setBoot _ _
  have hxe : x.flag (WDOG_STATUS d) WDOG_STATUS_EXPIRED = false := by
    rw [hx, flag_of_rd (rd_setBoot _ _ _ _)]
    exact (flag_wrF_other _ _ _ _ _ (by decide) (by decide)).trans ((flag_fresh _ _ _).trans he)
  have hxl : x.flag (WDOG_STATUS d) WDOG_STATUS_LOCKSTEP = true := by
    rw [hx, flag_of_rd (rd_setBoot _ _ _ _)]
    exact flag_wrB_same _ _ _ _ (by decide) (by decide)
  have hgo : lockstepFails d (fresh s) = wdogFired d x := by
    unfold lockstepFails wdogFired
    rw [if_neg (by rw [show (fresh s).inReset = s.inReset from rfl, hr]; exact Bool.false_ne_true), ← wdogFires_eq hxe, hx]
    dsimp only
    rw [if_neg (by rw [flag_fresh, he]; exact Bool.false_ne_true)]
    rfl
  obtain ⟨h1, h2, h3, -, h5, h6⟩ := wdogFired_rule d x
  have hend := hx1.trans h1
  refine ⟨_, congrArg Host.Outcome.next (hend.ran hgo), hend.regsRinlarBoots, h2, h3.trans hxl, ?_, fun a ha hb => ?_⟩
  · rw [h5, hx, boot_setBoot_same]
  · rw [h6 a ha hb, hx, rd_setBoot, rd_wrB_ne ha, rd_fresh]

/-! ## Block resets and quiescence (R436–R439) -/

theorem blockResetWrite_open {f : Fun} {v : Word} {un : Nat} {s : State} (h : (accessRow s f (addrOff (BLOCK_RESET f.ep))).isSome = true) :
    ran (blockResetWrite f v un) s = ran (fun u => (turned s f.ep (s.rd (BLOCK_RESET f.ep)).toNat v.toNat false).foldl (fun t b => releaseUnit f.ep un b t)
      ((turned s f.ep (s.rd (BLOCK_RESET f.ep)).toNat v.toNat true).foldl (fun t b =>
        if f.fn = 0 ∧ claimed t f.ep b then setBlock (BLOCK_REFUSED f.ep) b true t else assertUnit f.ep b t) u)) s := by
  refine ran_congr ?_
  unfold blockResetWrite
  dsimp only
  rw [accessRow_fresh, if_neg (isNone_false_of_isSome h), rd_fresh]
  rfl

theorem blockQuiesceWrite_open {f : Fun} {v : Word} {s : State} (h : (accessRow s f (addrOff (BLOCK_QUIESCE f.ep))).isSome = true) :
    ran (blockQuiesceWrite f v) s = ran (fun u => (turned s f.ep (s.rd (BLOCK_QUIESCE f.ep)).toNat v.toNat false).foldl
        (fun t b => t |> setBlock (BLOCK_QUIESCE f.ep) b false |> setBlock (BLOCK_QUIESCED f.ep) b false)
      ((turned s f.ep (s.rd (BLOCK_QUIESCE f.ep)).toNat v.toNat true).foldl (fun t b => t |> setBlock (BLOCK_QUIESCE f.ep) b true |> quiesceUnit f.ep b) u)) s := by
  refine ran_congr ?_
  unfold blockQuiesceWrite
  dsimp only
  rw [accessRow_fresh, if_neg (isNone_false_of_isSome h), rd_fresh]
  rfl

theorem releaseUnit_noIsland {d : Die} {un b : Nat} (h : nbit un b = false) (hi : unitIslands b = []) (s : State) : releaseUnit d un b s = setBlock (BLOCK_RESET d) b false s := by
  unfold releaseUnit
  rw [h, hi, if_neg (fun hc => Bool.false_ne_true hc.1)]
  rfl

theorem blockReleaseTimeout_rule {d : Die} {b : Nat} {s : State} (hb : b < 28) (h : nbit (s.rd (BLOCK_PENDING d)).toNat b = true) :
    ∃ t, exec (.blockReleaseTimeout d b) s = .next t ∧ t = { s with regs := t.regs, boots := t.boots, out := [] }
      ∧ nbit (t.rd (BLOCK_PENDING d)).toNat b = false ∧ nbit (t.rd (BLOCK_CLK_FAIL d)).toNat b = true ∧ (t.boot d).stuck = b :: (s.boot d).stuck ∧ unitReset t d b = true
      ∧ ∀ a, a ≠ BLOCK_PENDING d → a ≠ BLOCK_CLK_FAIL d → t.rd a = s.rd a := by
  have hne : BLOCK_PENDING d ≠ BLOCK_CLK_FAIL d := by
    unfold BLOCK_PENDING BLOCK_CLK_FAIL
    omega
  obtain ⟨x, hx⟩ : ∃ x : Boot, x = { s.boot d with stuck := b :: (s.boot d).stuck, due := (s.boot d).due.filter (fun i => !(unitIslands b).contains i) } := ⟨_, rfl⟩
  obtain ⟨v, hv⟩ : ∃ v, v = setBlock (BLOCK_CLK_FAIL d) b true (setBlock (BLOCK_PENDING d) b false (fresh s)) := ⟨_, rfl⟩
  have hgo : releaseFails d b (fresh s) = setBoot d x v := by
    unfold releaseFails
    rw [rd_fresh, h, if_neg (fun hc => hc.elim (fun hc => by omega) Bool.false_ne_true.symm), hx, hv]
    rfl
  have hend : Only (fun u => { u with regs := [], boots := [] }) (fresh s) (setBoot d x v) := by
    rw [hv]
    exact ((Only.rfl.wr _ _).wr _ _).setBoot _ _
  have hstuck : ((setBoot d x v).boot d).stuck = b :: (s.boot d).stuck := by rw [boot_setBoot_same, hx]
  refine ⟨_, congrArg Host.Outcome.next (hend.ran hgo), hend.regsBoots, ?_, ?_, hstuck, ?_, fun a ha hc => ?_⟩
  · rw [rd_setBoot, hv, rd_setBlock_ne hne, nbit_setBlock _ (by omega)]
  · rw [rd_setBoot, hv, nbit_setBlock _ (by omega)]
  · unfold unitReset
    rw [hstuck]
    simp
  · rw [rd_setBoot, hv, rd_setBlock_ne hc, rd_setBlock_ne ha, rd_fresh]

theorem blockQuiesced_rule {d : Die} {b : Nat} {s : State} (hb : b < 28) (hq : unitQuiet s d b = true) (hr : s.inReset.contains .fabric = false) :
    ∃ t, exec (.blockQuiesced d b) s = .next t ∧ t = { s with regs := t.regs, out := [] }
      ∧ nbit (t.rd (BLOCK_QUIESCED d)).toNat b = true ∧ ∀ a, a ≠ BLOCK_QUIESCED d → t.rd a = s.rd a := by
  have hquiet : unitQuiet (fresh s) d b = true := by
    unfold unitQuiet
    rw [rd_fresh]
    exact hq
  have hgo : blockQuiet d b (fresh s) = setBlock (BLOCK_QUIESCED d) b true (fresh s) := if_pos ⟨hb, hquiet, hr⟩
  have hend := (setBlock_touches (BLOCK_QUIESCED d) b true (fresh s)).1
  exact ⟨_, congrArg Host.Outcome.next (ran_regsOnly hend hgo), hend.fresh, nbit_setBlock _ (by omega) _ _, fun a ha => (rd_setBlock_ne ha _ _ _).trans (rd_fresh _ _)⟩

/-! ## LIFE and THERMTRIP (R487, R492) -/

theorem thermtrip_rule {d : Die} {s : State} (h : alwaysOnUp s = true) :
    ∃ t, exec (.thermtrip d) s = .next t ∧ t = { s with boots := t.boots, out := [] } ∧ t.boot d = { s.boot d with tripped := true } := by
  have hgo : trips d (fresh s) = setBoot d { s.boot d with tripped := true } (fresh s) := if_pos h
  have hend : Only (fun u => { u with boots := [] }) (fresh s) (setBoot d { s.boot d with tripped := true } (fresh s)) := Only.rfl.setBoot _ _
  exact ⟨_, congrArg Host.Outcome.next (hend.ran hgo), hend.bootsOnly, boot_setBoot_same _ _ _⟩

theorem lifeToggle_runs {d : Die} {s : State} (h : supRuns s d = true) :
    ∃ t, exec (.lifeToggle d) s = .next t ∧ t = { s with boots := t.boots, out := [] } ∧ t.boot d = { s.boot d with life := !(s.boot d).life } := by
  have hgo : lifeToggles d (fresh s) = setBoot d { s.boot d with life := !(s.boot d).life } (fresh s) := if_pos h
  have hend : Only (fun u => { u with boots := [] }) (fresh s) (setBoot d { s.boot d with life := !(s.boot d).life } (fresh s)) := Only.rfl.setBoot _ _
  exact ⟨_, congrArg Host.Outcome.next (hend.ran hgo), hend.bootsOnly, boot_setBoot_same _ _ _⟩

theorem lifeToggle_stopped {d : Die} {s : State} (h : supRuns s d = false) : exec (.lifeToggle d) s = .next (fresh s) := by
  have hsame : lifeToggles d (fresh s) = fresh s := if_neg (by rw [show supRuns (fresh s) d = supRuns s d from rfl, h]; exact Bool.false_ne_true)
  exact congrArg Host.Outcome.next (ran_same hsame)

/-! ## Pins (R486–R488, Table 21.8) -/

theorem pinState_absent {s : State} {d : Die} {p : Pin} (h : pinPresent s d p = false) (on : Bool) : pinState s d on p = .unconnected := if_pos h

theorem pinState_powered {s : State} {d : Die} {p : Pin} (h : pinPresent s d p = true) : pinState s d true p = poweredPin s d p := by
  unfold pinState
  rw [h, if_neg Bool.false_ne_true.symm, if_pos rfl]

theorem pinState_unpowered {s : State} {d : Die} {p : Pin} (h : pinPresent s d p = true) :
    pinState s d false p = if p = .pwrenAon ∨ p = .pwrenMain ∨ p = .pwrenFt then .low else .highZ := by
  unfold pinState
  rw [h, if_neg Bool.false_ne_true.symm, if_neg Bool.false_ne_true]
  cases p <;> rfl

/-- What the pins of a domain in reset do. -/
theorem pins_inReset (s : State) (d : Die) :
    (s.inReset.contains .pcie = true → pinState s d true .pcie = .idle)
    ∧ (s.inReset.contains .memory = true → pinState s d true .memCa = .low ∧ pinState s d true .memCs = .low ∧ pinState s d true .dramReset = .low ∧ pinState s d true .memDq = .highZ)
    ∧ (s.inReset.contains .supervisor = true → pinState s d true .xspi = .highZ ∧ pinState s d true .life = .low ∧ pinState s d true .failover = .highZ
      ∧ pinState s d true .safeFault = .highZ ∧ pinState s d true .wdogOut = .highZ)
    ∧ (s.inReset.contains .heads = true → ∀ q, pinState s d true (.de q false) = .idle ∧ pinState s d true (.de q true) = .highZ ∧ pinState s d true (.ld q) = .highZ) := by
  refine ⟨fun h => ?_, fun h => ⟨?_, ?_, ?_, ?_⟩, fun h => ⟨?_, ?_, ?_, ?_, ?_⟩, fun h q => ⟨?_, ?_, ?_⟩⟩
  all_goals
    rw [pinState_powered rfl]
    simp only [poweredPin, h, Bool.not_true, Bool.false_and, Bool.false_eq_true, if_false, if_true]
  exact rfl

/-- The pins of a unit that is off or in reset, and the GPIO pins. -/
theorem pins_unit (s : State) (d : Die) (q : Nat) :
    (s.inReset.contains .camera = true ∨ s.flag (CAM_PORT_CFG d q) CAM_PORT_CFG_EN = false → pinPresent s d (.csi q) = true → pinState s d true (.csi q) = .unterminated)
      ∧ (∀ c, s.inReset.contains .audio = true ∨ s.flag (AUDIO_TDM_CFG d q) AUDIO_TDM_CFG_EN = false → pinPresent s d (.tdm q c) = true → pinState s d true (.tdm q c) = .low)
      ∧ (s.inReset.contains .haptic = true ∨ powerState s d ≠ 0 ∨ s.flag (HAP_CFG d q) HAP_CFG_EN = false → pinPresent s d (.hap q) = true → pinState s d true (.hap q) = .low)
      ∧ (s.inReset.contains .touch = true → pinPresent s d (.tch q) = true → pinState s d true (.tch q) = .held) := by
  refine ⟨fun h hp => ?_, fun c h hp => ?_, fun h hp => ?_, fun h hp => ?_⟩
  all_goals
    rw [pinState_powered hp]
    unfold poweredPin
  · refine if_neg ?_
    rcases h with h | h <;> simp only [h, Bool.not_true, Bool.false_and, Bool.and_false, Bool.false_eq_true, not_false_eq_true]
  · refine if_neg ?_
    rcases h with h | h <;> simp only [h, Bool.not_true, Bool.false_and, Bool.and_false, Bool.false_eq_true, not_false_eq_true]
  · refine if_neg ?_
    rcases h with h | h | h
    · simp only [h, Bool.not_true, Bool.false_and, Bool.false_eq_true, not_false_eq_true]
    · simp only [beq_eq_false_iff_ne.2 h, Bool.false_and, Bool.and_false, Bool.false_eq_true, not_false_eq_true]
    · simp only [h, Bool.and_false, Bool.false_eq_true, not_false_eq_true]
  · refine if_neg ?_
    simp only [h, Bool.not_true, Bool.false_and, Bool.false_eq_true, not_false_eq_true]

theorem pins_gpio (s : State) (d : Die) (q : Nat) :
    (s.inReset.contains .fabric = true → pinState s d true (.gpio q) = .pullDown)
      ∧ (s.inReset.contains .fabric = false → nbit (s.rdF (GPIO_DIR d) GPIO_DIR_OE) q = true →
          pinState s d true (.gpio q) = (if nbit (s.rdF (GPIO_OUT d) GPIO_OUT_LEVEL) q then .high else .low))
      ∧ (s.inReset.contains .fabric = false → nbit (s.rdF (GPIO_DIR d) GPIO_DIR_OE) q = false →
          nbit (s.rdF (GPIO_PULL d) GPIO_PULL_UP) q = true → nbit (s.rdF (GPIO_PULL d) GPIO_PULL_DOWN) q = true → pinState s d true (.gpio q) = .highZ) := by
  refine ⟨fun h => ?_, fun h ho => ?_, fun h ho hu hd => ?_⟩
  all_goals
    rw [pinState_powered rfl]
    unfold poweredPin
  · exact if_pos h
  · exact (if_neg (fun hc => Bool.false_ne_true (h.symm.trans hc))).trans (if_pos ho)
  · refine (if_neg (fun hc => Bool.false_ne_true (h.symm.trans hc))).trans ((if_neg (by rw [ho]; exact Bool.false_ne_true)).trans ?_)
    rw [hu, hd]

theorem pins_supervisor (s : State) (d : Die) (h : s.inReset.contains .supervisor = false) : pinState s d true .life = (if (s.boot d).life then .high else .low)
      ∧ pinState s d true .failover = (if (s.boot d).failover then .high else .highZ)
      ∧ pinState s d true .safeFault = (if s.flag (GARNET_FAULT d) GARNET_FAULT_ASSERTED then .low else .high)
      ∧ pinState s d true .wdogOut = (if s.flag (WDOG_STATUS d) WDOG_STATUS_EXPIRED then .low else .highZ) := by
  refine ⟨?_, ?_, ?_, ?_⟩
  all_goals
    rw [pinState_powered rfl]
    simp only [poweredPin, h, drive, Bool.not_false, Bool.true_and, Bool.false_eq_true, if_false]
  cases s.flag (GARNET_FAULT d) GARNET_FAULT_ASSERTED <;> rfl

/-- Settles O55: the watchdog and lockstep, hot reset, block resets and quiescence, and the pins by the rows of Table 21.8. -/
theorem supervisorAndBlockResets : Obligations.SupervisorAndBlockResets := by
  refine ⟨fun d s hr he => ⟨watchdogExpiry_rule hr he, lockstepFailure_rule hr he⟩, fun d lost s hr => ?_, fun f v un s h out hout => ?_, fun d un b s _ h hi => releaseUnit_noIsland h hi s,
    fun f v s h => congrArg Host.Outcome.next (blockQuiesceWrite_open h), fun d b s hb => ⟨blockReleaseTimeout_rule hb, blockQuiesced_rule hb⟩,
    fun d s => ⟨thermtrip_rule, lifeToggle_runs, lifeToggle_stopped⟩, fun d s p => ?_⟩
  · refine congrArg Host.Outcome.next (ran_congr (if_neg ?_))
    rw [show (fresh s).inReset = s.inReset from rfl, hr]
    exact Bool.false_ne_true
  · rw [hout, ← blockResetWrite_open h]
    exact ⟨rfl, rfl⟩
  · obtain ⟨h1, h2, h3, h4⟩ := pins_inReset s d
    refine ⟨pinState_unpowered, fun on h => pinState_absent h on, h1, h2, h3, h4, fun q => ?_, pins_supervisor s d, pinState_powered rfl, ?_⟩
    · obtain ⟨k1, k2, k3, k4⟩ := pins_unit s d q
      obtain ⟨g1, g2, g3⟩ := pins_gpio s d q
      exact ⟨k1, k2, k3, k4, g1, g2, g3⟩
    · exact congrArg Boot.failover (boot_setBoot_same _ _ _)

end Sys2Proof.Machine
end

section
/-! Chip resets, the release order and boot (R422–R433). -/
namespace Sys2Proof.Machine

/-! ## The power-on reset (R422, R424) -/

theorem por_asserted {s : State} (h : (s.power .a).onyx = false) :
    ∃ t, exec (.por true) s = .next t ∧ t.porLow = true ∧ t.inReset = releaseOrder ∧ t.routes = [] ∧ t.tenants = [] ∧ t.heads = [] ∧ t.timeA = 0 ∧ t.part = s.part
      ∧ (∀ a, (domainOf a).any [Domain.vstby].contains = false → tfind a t.regs = none) ∧ (∀ a, (domainOf a).any [Domain.vstby].contains = true → tfind a t.regs = tfind a s.regs) := by
  have hgo : porEdge true (fresh s) = powerLost false (fresh s) := by
    unfold porEdge
    rw [power_fresh, h, if_neg Bool.false_ne_true, if_pos rfl]
  have hregs : (powerLost false (fresh s)).regs = keepRegs [.vstby] s.regs := rfl
  refine ⟨ran (porEdge true) s, rfl, ?_⟩
  rw [ran, hgo]
  refine ⟨rfl, rfl, rfl, rfl, rfl, rfl, rfl, fun a ha => ?_, fun a ha => ?_⟩
  · exact (congrArg (tfind a) hregs).trans ((tfind_keepRegs _ _ _).trans (by rw [ha]; rfl))
  · exact (congrArg (tfind a) hregs).trans ((tfind_keepRegs _ _ _).trans (by rw [ha]; rfl))

theorem por_released {s : State} (h : (s.power .a).onyx = false) : exec (.por false) s = .next { s with porLow := false, out := [] } := by
  have hgo : porEdge false (fresh s) = { fresh s with porLow := false } := by
    unfold porEdge
    rw [power_fresh, h, if_neg Bool.false_ne_true, if_neg Bool.false_ne_true]
  exact congrArg Host.Outcome.next (ran_quiet hgo rfl rfl rfl)

theorem resetnRelease_rule (s : State) : exec .resetnRelease s = .next { s with resetnHigh := true, out := [] } :=
  congrArg Host.Outcome.next (ran_quiet (g := fun s => { s with resetnHigh := true }) rfl rfl rfl rfl)

/-! ## RESETn (R422, R425) -/

/-- SAFE_FAULT_n becomes asserted with the cause INIT: the record counts it. -/
def initNoted (s : State) : State := bothDies.foldl (fun t d => if t.flag (GARNET_FAULT d) GARNET_FAULT_ASSERTED then t else rinlarCount d 37 1 t) s

theorem initNoted_only (s : State) : Only (fun u => { u with rinlar := [] }) s (initNoted s) := by
  unfold initNoted
  rw [foldl_bothDies]
  have hstep : ∀ (d : Die) (t : State), Only (fun u => { u with rinlar := [] }) t (if t.flag (GARNET_FAULT d) GARNET_FAULT_ASSERTED then t else rinlarCount d 37 1 t) := fun d t => by
    split
    · exact Only.rfl
    · exact Only.rfl.setRin _ _
  exact (hstep .a s).trans (hstep .b _)

/-- The state of the domains that RESETn resets, before its registers show it. -/
def domainsReset (s r : State) : State :=
  { allUnits [.vstby, .alwaysOn] r with
    resetnHigh := false, inReset := releaseOrder.filter (fun d => d != .alwaysOn),
    rinlar := r.rinlar.map (fun x => (x.1, rinlarKeeps (r.now (if x.1 = 0 then .a else .b)) x.2)),
    powers := bothDies.map (fun d => (d.idx, { Power.empty with wakeLow := (s.power d).wakeLow })),
    boots := bothDies.map (fun d => (d.idx, { Boot.empty with tripped := (s.boot d).tripped, pwrenMain := (s.boot d).pwrenMain })) }

/-- A die's registers show a reset by RESETn. -/
def resetShown (seen : Bool) (d : Die) (t : State) : State :=
  t |> wrB (RESET_CAUSE d) RESET_CAUSE_LAST true |> wrB (RESET_CAUSE d) RESET_CAUSE_WDOG_SEEN seen |> satF (RESET_CAUSE d) RESET_CAUSE_RESETN_COUNT 1
    |> wrF (SEQ_STATUS d) SEQ_STATUS_STEP 1 |> wrB (SEQ_STATUS d) SEQ_STATUS_DONE false |> setPowerState d 0 |> wrB (POWER_STATUS d) POWER_STATUS_HELD false |> rinlarCount d 1 1

theorem resetnFalls_eq {s : State} (h : s.resetnHigh = true) (hu : alwaysOnUp s = true) :
    resetnFalls s = refreshFtRail (resetShown (s.flag (WDOG_STATUS .b) WDOG_STATUS_EXPIRED) .b (resetShown (s.flag (WDOG_STATUS .a) WDOG_STATUS_EXPIRED) .a (domainsReset s (initNoted s)))) := by
  unfold resetnFalls
  rw [h, hu, if_neg Bool.false_ne_true.symm, if_neg Bool.false_ne_true.symm]
  rfl

/-- What the registers of a die show after RESETn: the cause, the count, the step and the state. -/
def ShowsReset (seen : Bool) (count : Nat) (d : Die) (t : State) : Prop :=
  t.flag (RESET_CAUSE d) RESET_CAUSE_LAST = true ∧ t.flag (RESET_CAUSE d) RESET_CAUSE_WDOG_SEEN = seen ∧ t.rdF (RESET_CAUSE d) RESET_CAUSE_RESETN_COUNT = count
    ∧ t.rdF (SEQ_STATUS d) SEQ_STATUS_STEP = 1 ∧ powerState t d = 0

theorem resetRegs_ne (d : Die) : RESET_CAUSE d ≠ SEQ_STATUS d ∧ RESET_CAUSE d ≠ POWER_STATUS d ∧ SEQ_STATUS d ≠ POWER_STATUS d := by
  cases d <;> decide

theorem resetShown_rd (seen : Bool) (d : Die) (t : State) {a : Nat} (h1 : a ≠ RESET_CAUSE d) (h2 : a ≠ SEQ_STATUS d) (h3 : a ≠ POWER_STATUS d) : (resetShown seen d t).rd a = t.rd a := by
  refine (rd_setRin _ _ _ _).trans ?_
  rw [rd_wrB_ne h3, setPowerState, rd_wrF_ne h3, rd_wrB_ne h2, rd_wrF_ne h2, rd_satF_ne h1, rd_wrB_ne h1, rd_wrB_ne h1]

theorem resetShown_only (seen : Bool) (d : Die) (t : State) : Only (fun u => { u with regs := [], rinlar := [] }) t (resetShown seen d t) :=
  (((((((Only.rfl.wrB _ _ _).wrB _ _ _).satF _ _ _).wrF _ _ _).wrB _ _ _).wrF _ _ _).wrB _ _ _).setRin _ _

theorem refreshFtRail_only (s : State) : Only (fun u => { u with regs := [], rinlar := [] }) s (refreshFtRail s) := by
  unfold refreshFtRail
  rw [foldl_bothDies]
  exact (Only.rfl.wrB _ _ _).wrB _ _ _

theorem resetShown_shows (seen : Bool) (d : Die) (t : State) :
    ShowsReset seen (min (2 ^ RESET_CAUSE_RESETN_COUNT.len - 1) (t.rdF (RESET_CAUSE d) RESET_CAUSE_RESETN_COUNT + 1)) d (resetShown seen d t) := by
  obtain ⟨n1, n2, n3⟩ := resetRegs_ne d
  obtain ⟨c, hc⟩ : ∃ c, c = satF (RESET_CAUSE d) RESET_CAUSE_RESETN_COUNT 1 (wrB (RESET_CAUSE d) RESET_CAUSE_WDOG_SEEN seen (wrB (RESET_CAUSE d) RESET_CAUSE_LAST true t)) := ⟨_, rfl⟩
  obtain ⟨q, hq⟩ : ∃ q, q = wrB (SEQ_STATUS d) SEQ_STATUS_DONE false (wrF (SEQ_STATUS d) SEQ_STATUS_STEP 1 c) := ⟨_, rfl⟩
  have heq : resetShown seen d t = rinlarCount d 1 1 (wrB (POWER_STATUS d) POWER_STATUS_HELD false (setPowerState d 0 q)) := by
    rw [hq, hc]
    rfl
  have hrd : ∀ a, (resetShown seen d t).rd a = (wrB (POWER_STATUS d) POWER_STATUS_HELD false (setPowerState d 0 q)).rd a := fun a => by
    rw [heq]
    exact rd_setRin _ _ _ _
  have hcause : (resetShown seen d t).rd (RESET_CAUSE d) = c.rd (RESET_CAUSE d) := by
    rw [hrd, rd_wrB_ne n2, setPowerState, rd_wrF_ne n2, hq, rd_wrB_ne n1, rd_wrF_ne n1]
  refine ⟨?_, ?_, ?_, ?_, ?_⟩
  · rw [flag_of_rd hcause, hc]
    refine (flag_wrF_other _ _ _ _ _ (by decide) (by decide)).trans ((flag_wrF_other _ _ _ _ _ (by decide) (by decide)).trans ?_)
    exact flag_wrB_same _ _ _ _ (by decide) (by decide)
  · rw [flag_of_rd hcause, hc]
    exact (flag_wrF_other _ _ _ _ _ (by decide) (by decide)).trans (flag_wrB_same _ _ _ _ (by decide) (by decide))
  · rw [rdF_of_rd hcause, hc, rdF_satF_same _ _ _ _ (by decide), rdF_wrB_other _ _ _ _ _ (by decide) (by decide), rdF_wrB_other _ _ _ _ _ (by decide) (by decide)]
  · rw [rdF_of_rd (hrd _), rdF_wrB_ne n3, setPowerState, rdF_wrF_ne n3, hq, rdF_wrB_other _ _ _ _ _ (by decide) (by decide)]
    exact rdF_wrF_of_lt (by decide) (by decide)
  · refine (rdF_of_rd (hrd _) _).trans ((rdF_wrB_other _ _ _ _ _ (by decide) (by decide)).trans ?_)
    exact rdF_wrF_of_lt (by decide) (by decide)

theorem refreshFtRail_rd (s : State) {a : Nat} (h1 : a ≠ POWER_STATUS .a) (h2 : a ≠ POWER_STATUS .b) : (refreshFtRail s).rd a = s.rd a := by
  unfold refreshFtRail
  rw [foldl_bothDies, rd_wrB_ne h2, rd_wrB_ne h1]

theorem ShowsReset.railRefreshed {seen : Bool} {count : Nat} {d : Die} {t : State} (h : ShowsReset seen count d t) : ShowsReset seen count d (refreshFtRail t) := by
  obtain ⟨h1, h2, h3, h4, h5⟩ := h
  have ha : (refreshFtRail t).rd (RESET_CAUSE d) = t.rd (RESET_CAUSE d) := refreshFtRail_rd t (by cases d <;> decide) (by cases d <;> decide)
  have hb : (refreshFtRail t).rd (SEQ_STATUS d) = t.rd (SEQ_STATUS d) := refreshFtRail_rd t (by cases d <;> decide) (by cases d <;> decide)
  exact ⟨(flag_of_rd ha _).trans h1, (flag_of_rd ha _).trans h2, (rdF_of_rd ha _).trans h3, (rdF_of_rd hb _).trans h4, (refreshFtRail_keeps t d _ (by decide)).trans h5⟩

theorem ShowsReset.otherShown {seen seen' : Bool} {count : Nat} {t : State} (h : ShowsReset seen count .a t) : ShowsReset seen count .a (resetShown seen' .b t) := by
  obtain ⟨h1, h2, h3, h4, h5⟩ := h
  have ha : (resetShown seen' .b t).rd (RESET_CAUSE .a) = t.rd (RESET_CAUSE .a) := resetShown_rd _ _ _ (by decide) (by decide) (by decide)
  have hb : (resetShown seen' .b t).rd (SEQ_STATUS .a) = t.rd (SEQ_STATUS .a) := resetShown_rd _ _ _ (by decide) (by decide) (by decide)
  have hc : (resetShown seen' .b t).rd (POWER_STATUS .a) = t.rd (POWER_STATUS .a) := resetShown_rd _ _ _ (by decide) (by decide) (by decide)
  exact ⟨(flag_of_rd ha _).trans h1, (flag_of_rd ha _).trans h2, (rdF_of_rd ha _).trans h3, (rdF_of_rd hb _).trans h4, (powerState_of_rd hc).trans h5⟩

/-- RESET_CAUSE is in no domain that RESETn resets. -/
theorem domainOf_resetCause (d : Die) : (domainOf (RESET_CAUSE d)).any [Domain.vstby, Domain.alwaysOn].contains = true := by
  cases d <;> decide +kernel

theorem tget_tkeep {α : Type} (d : α) (p : Nat → Bool) (k : Nat) (t : Tab α) : tget d k (tkeep p t) = if p k then tget d k t else d := by
  induction t with
  | nil => exact (ite_self _).symm
  | cons e t ih =>
    obtain ⟨j, v⟩ := e
    by_cases hj : j = k
    · subst hj
      by_cases hp : p j = true
      · simp [tkeep, tget, hp]
      · simp [tkeep, hp, ih]
    · by_cases hp : p j = true
      · simp [tkeep, tget, hp, hj, ih]
      · simp [tkeep, tget, hp, hj, ih]

theorem rd_of_keepRegs {s t : State} {keep : List Domain} {a : Nat} (hk : (domainOf a).any keep.contains = true) (hr : t.regs = keepRegs keep s.regs) (hp : t.part = s.part) : t.rd a = s.rd a := by
  unfold State.rd
  rw [hr, hp, keepRegs, tget_tkeep, if_pos hk]

theorem domainsReset_rd (s r : State) (d : Die) : (domainsReset s r).rd (RESET_CAUSE d) = r.rd (RESET_CAUSE d) :=
  rd_of_keepRegs (s := r) (t := domainsReset s r) (keep := [.vstby, .alwaysOn]) (domainOf_resetCause d) rfl rfl

theorem resetnAssert_rule {s : State} (h : s.resetnHigh = true) (hu : alwaysOnUp s = true) :
    ∃ t, exec .resetnAssert s = .next t ∧ t.resetnHigh = false ∧ t.inReset = releaseOrder.filter (fun d => d != .alwaysOn) ∧ t.routes = [] ∧ t.tenants = [] ∧ t.mem = s.mem ∧ t.timeA = 0
      ∧ ∀ d, ShowsReset (s.flag (WDOG_STATUS d) WDOG_STATUS_EXPIRED) (min (2 ^ RESET_CAUSE_RESETN_COUNT.len - 1) (s.rdF (RESET_CAUSE d) RESET_CAUSE_RESETN_COUNT + 1)) d t := by
  have hgo := resetnFalls_eq (s := fresh s) h hu
  rw [flag_fresh, flag_fresh] at hgo
  obtain ⟨r, hr⟩ : ∃ r, r = initNoted (fresh s) := ⟨_, rfl⟩
  have hnote := initNoted_only (fresh s)
  rw [← hr] at hgo hnote
  have hout : r.out = [] := hnote.out_eq
  have hkeep : ∀ d, (domainsReset (fresh s) r).rd (RESET_CAUSE d) = s.rd (RESET_CAUSE d) := fun d =>
    (domainsReset_rd (fresh s) r d).trans ((hnote.rd_eq _).trans (rd_fresh _ _))
  have hfields : Only (fun u => { u with regs := [], rinlar := [] }) (domainsReset (fresh s) r) (resetnFalls (fresh s)) := by
    rw [hgo]
    exact ((resetShown_only _ .a _).trans (resetShown_only _ .b _)).trans (refreshFtRail_only _)
  refine ⟨ran resetnFalls s, rfl, ?_⟩
  have hmem : (ran resetnFalls s).mem = s.mem := by
    have hm : (ran resetnFalls s).mem = applyOut (resetnFalls (fresh s)).out s.mem := rfl
    have ho : (resetnFalls (fresh s)).out = r.out := (congrArg State.out hfields :)
    rw [hm, ho, hout]
    rfl
  have hrd : ∀ a, (ran resetnFalls s).rd a = (refreshFtRail (resetShown (s.flag (WDOG_STATUS .b) WDOG_STATUS_EXPIRED) .b
      (resetShown (s.flag (WDOG_STATUS .a) WDOG_STATUS_EXPIRED) .a (domainsReset (fresh s) r)))).rd a := fun a => by rw [ran_rd, hgo]
  refine ⟨(congrArg State.resetnHigh hfields :), (congrArg State.inReset hfields :), (congrArg State.routes hfields :), (congrArg State.tenants hfields :), hmem, (congrArg State.timeA hfields :), fun d => ?_⟩
  have hend : ShowsReset (s.flag (WDOG_STATUS d) WDOG_STATUS_EXPIRED) (min (2 ^ RESET_CAUSE_RESETN_COUNT.len - 1) (s.rdF (RESET_CAUSE d) RESET_CAUSE_RESETN_COUNT + 1)) d
      (refreshFtRail (resetShown (s.flag (WDOG_STATUS .b) WDOG_STATUS_EXPIRED) .b (resetShown (s.flag (WDOG_STATUS .a) WDOG_STATUS_EXPIRED) .a (domainsReset (fresh s) r)))) := by
    cases d
    · have hone := resetShown_shows (s.flag (WDOG_STATUS .a) WDOG_STATUS_EXPIRED) .a (domainsReset (fresh s) r)
      rw [rdF_of_rd (hkeep .a)] at hone
      exact hone.otherShown.railRefreshed
    · have hone := resetShown_shows (s.flag (WDOG_STATUS .b) WDOG_STATUS_EXPIRED) .b (resetShown (s.flag (WDOG_STATUS .a) WDOG_STATUS_EXPIRED) .a (domainsReset (fresh s) r))
      rw [rdF_of_rd (resetShown_rd (a := RESET_CAUSE .b) _ _ _ (by decide) (by decide) (by decide)), rdF_of_rd (hkeep .b)] at hone
      exact hone.railRefreshed
  obtain ⟨k1, k2, k3, k4, k5⟩ := hend
  exact ⟨(flag_of_rd (hrd _) _).trans k1, (flag_of_rd (hrd _) _).trans k2, (rdF_of_rd (hrd _) _).trans k3, (rdF_of_rd (hrd _) _).trans k4, (powerState_of_rd (hrd _)).trans k5⟩

/-! ## The release order (R423, R426) -/

/-- Neither the release order's register nor anything but registers, start-up and the record differs. -/
def SeqKept (s t : State) : Prop :=
  Only (fun u => { u with regs := [], boots := [], rinlar := [] }) s t ∧ ∀ e, t.rd (SEQ_STATUS e) = s.rd (SEQ_STATUS e)

namespace SeqKept
variable {s t u : State}

theorem rfl : SeqKept s s := ⟨Only.rfl, fun _ => Eq.refl _⟩
theorem trans (h : SeqKept s t) (h' : SeqKept t u) : SeqKept s u := ⟨h.1.trans h'.1, fun e => (h'.2 e).trans (h.2 e)⟩
theorem wr (h : SeqKept s t) {a : Nat} (v : Word) (ha : ∀ e, SEQ_STATUS e ≠ a) : SeqKept s (wr a v t) :=
  ⟨h.1.wr _ _, fun e => (rd_wr_ne (ha e) _ _).trans (h.2 e)⟩
theorem setBoot (h : SeqKept s t) (d : Die) (x : Boot) : SeqKept s (setBoot d x t) := ⟨h.1.setBoot _ _, fun e => (rd_setBoot _ _ _ _).trans (h.2 e)⟩
theorem setRin (h : SeqKept s t) (d : Die) (x : Rinlar) : SeqKept s (setRin d x t) := ⟨h.1.setRin _ _, fun e => (rd_setRin _ _ _ _).trans (h.2 e)⟩
theorem ite {p : Prop} [Decidable p] (h : SeqKept s t) (h' : SeqKept s u) : SeqKept s (if p then t else u) := by
  split
  · exact h
  · exact h'
theorem foldl {α : Type} {g : State → α → State} {xs : List α} (hg : ∀ x ∈ xs, ∀ t, SeqKept t (g t x)) (s : State) : SeqKept s (xs.foldl g s) := by
  induction xs generalizing s with
  | nil => exact rfl
  | cons x xs ih =>
    obtain ⟨hx, hxs⟩ := List.forall_mem_cons.1 hg
    exact (hx s).trans (ih hxs _)

end SeqKept

theorem seqStatus_ne_xing {d : Die} {n : Nat} (hn : n < 256) (e : Die) : SEQ_STATUS e ≠ XING_STATUS d n := by
  unfold SEQ_STATUS XING_STATUS dieSpace
  cases d <;> cases e <;> simp only [Die.idx] <;> omega

theorem dueIsland_seqKept (d : Die) (i : Nat) (s : State) : SeqKept s (dueIsland d i s) := SeqKept.ite SeqKept.rfl (SeqKept.rfl.setBoot _ _)

theorem refreshNewest_seqKept (d : Die) (s : State) : SeqKept s (refreshNewest d s) := by
  unfold refreshNewest
  dsimp only
  split
  · exact SeqKept.rfl.wr _ fun e => by cases d <;> cases e <;> decide
  · refine ((((((SeqKept.rfl.wr _ ?_).wr _ ?_).wr _ ?_).wr _ ?_).wr _ ?_).wr _ ?_)
    all_goals
      intro e
      cases d <;> cases e <;> decide

theorem loadRinlar_seqKept (d : Die) (s : State) : SeqKept s (loadRinlar d s) := by
  obtain ⟨v, hv⟩ : ∃ v, v = (match newestSlot (s.rin d) with
    | none => setRin d { s.rin d with live := [] } s
    | some x =>
      let loss := imageCause x.2 != 1 && imageCause x.2 != 2
      let t := setRin d { s.rin d with live := x.2, lossDue := loss } s
      if loss then rinlarCount d 4 1 t else t) := ⟨_, rfl⟩
  have hkept : SeqKept s v := by
    rw [hv]
    split
    · exact SeqKept.rfl.setRin _ _
    · exact SeqKept.ite ((SeqKept.rfl.setRin _ _).setRin _ _) (SeqKept.rfl.setRin _ _)
  have hcounted : SeqKept s (rinlarCount d 0 1 (refreshNewest d v)) := (hkept.trans (refreshNewest_seqKept d v)).setRin _ _
  have heq : loadRinlar d s = (if (v.boot d).onyxExit then rinlarCount d 2 1 else id) (rinlarCount d 0 1 (refreshNewest d v)) := by
    have hboot : v.boot d = s.boot d := by
      rw [hv]
      split
      · exact rfl
      · dsimp only
        split <;> exact rfl
    rw [hboot, hv]
    exact rfl
  rw [heq]
  split
  · exact hcounted.setRin _ _
  · exact hcounted

/-- What a die does at a step before its islands are due. -/
def stepUnits (d : Die) (dom : Domain) (s : State) : State :=
  match dom with
  | .alwaysOn => s |> loadRinlar d |> setBoot d { s.boot d with pwrenMain := true, onyxExit := false }
  | .supervisor => romStarts d s
  | .fabric => xingsHeld d s
  | _ => s

theorem stepUnits_seqKept (d : Die) (dom : Domain) (s : State) : SeqKept s (stepUnits d dom s) := by
  unfold stepUnits
  split
  · exact (loadRinlar_seqKept d s).setBoot _ _
  · refine SeqKept.ite ((SeqKept.rfl.wr _ ?_).wr _ ?_) SeqKept.rfl
    all_goals
      intro e
      cases d <;> cases e <;> decide
  · refine SeqKept.foldl (fun n hn t => SeqKept.rfl.wr _ (seqStatus_ne_xing ?_)) s
    exact List.mem_range.1 (List.mem_filter.1 hn).1
  · exact SeqKept.rfl

theorem stepOn_eq (d : Die) (dom : Domain) (s : State) : stepOn d dom s = (stepIslands (stepUnits d dom s) d dom).foldl (fun t i => dueIsland d i t) (stepUnits d dom s) := by
  cases dom <;> exact rfl

theorem stepOn_seqKept (d : Die) (dom : Domain) (s : State) : SeqKept s (stepOn d dom s) := by
  rw [stepOn_eq]
  exact (stepUnits_seqKept d dom s).trans (SeqKept.foldl (fun i _ t => dueIsland_seqKept d i t) _)

/-- A die's register shows a step. -/
def stepShown (n : Nat) (t : State) (d : Die) : State := t |> wrF (SEQ_STATUS d) SEQ_STATUS_STEP (n + 1) |> wrB (SEQ_STATUS d) SEQ_STATUS_DONE (n == 14)

/-- What SEQ_STATUS shows of a step. -/
def ShowsStep (n : Nat) (d : Die) (t : State) : Prop := t.rdF (SEQ_STATUS d) SEQ_STATUS_STEP = n + 1 ∧ t.flag (SEQ_STATUS d) SEQ_STATUS_DONE = (n == 14)

theorem stepShown_same {n : Nat} (hn : n < 15) (t : State) (d : Die) : ShowsStep n d (stepShown n t d) := by
  refine ⟨?_, flag_wrB_same _ _ _ _ (by decide) (by decide)⟩
  refine (rdF_wrB_other _ _ _ _ _ (by decide) (by decide)).trans (rdF_wrF_of_lt (by decide) ?_)
  exact (by omega : n + 1 < 2 ^ 4)

theorem ShowsStep.of_rd {n : Nat} {d : Die} {s t : State} (h : ShowsStep n d s) (hr : t.rd (SEQ_STATUS d) = s.rd (SEQ_STATUS d)) : ShowsStep n d t :=
  ⟨(rdF_of_rd hr _).trans h.1, (flag_of_rd hr _).trans h.2⟩

theorem stepShown_other (n : Nat) (t : State) : (stepShown n t .b).rd (SEQ_STATUS .a) = t.rd (SEQ_STATUS .a) := by
  unfold stepShown
  rw [rd_wrB_ne (by decide), rd_wrF_ne (by decide)]

theorem lastStep_fresh (s : State) : lastStep_ (fresh s) = lastStep_ s := rdF_fresh _ _ _

theorem releaseNext_eq {s : State} {dom : Domain} (hd : releaseOrder[lastStep_ s]? = some dom) (hp : s.porLow = false) (hr : lastStep_ s = 0 ∨ s.resetnHigh = true) :
    ∃ v, Only (fun u => { u with regs := [] }) { s with inReset := s.inReset.filter (fun x => x != dom) } v
      ∧ releaseNext s = stepOn .b dom (stepOn .a dom (stepShown (lastStep_ s) (stepShown (lastStep_ s) v .a) .b)) := by
  obtain ⟨v, hv⟩ : ∃ v, v = (if lastStep_ s = 0 then latchStraps { s with inReset := s.inReset.filter (fun x => x != dom) } else { s with inReset := s.inReset.filter (fun x => x != dom) }) := ⟨_, rfl⟩
  refine ⟨v, ?_, ?_⟩
  · rw [hv]
    split
    · unfold latchStraps
      rw [foldl_bothDies]
      exact ((((Only.rfl.wr _ _).wrB _ _ _).wr _ _).wrB _ _ _)
    · exact Only.rfl
  · unfold releaseNext
    dsimp only
    rw [hd]
    dsimp only
    rw [if_neg (fun hc => hc.elim (fun h => Bool.false_ne_true (hp.symm.trans h)) fun hc => hr.elim hc.1 fun h => Bool.false_ne_true (hc.2.symm.trans h)), hv, foldl_bothDies, foldl_bothDies]
    exact rfl

theorem domainRelease_rule {s : State} {dom : Domain} (hd : releaseOrder[lastStep_ s]? = some dom) (hp : s.porLow = false) (hr : lastStep_ s = 0 ∨ s.resetnHigh = true) :
    ∃ t, exec .domainRelease s = .next t ∧ t.inReset = s.inReset.filter (fun x => x != dom) ∧ t.mem = s.mem ∧ ∀ d, ShowsStep (lastStep_ s) d t := by
  have hlt : lastStep_ s < 15 := by
    obtain ⟨h, -⟩ := List.getElem?_eq_some_iff.1 hd
    exact h
  obtain ⟨v, hv, hgo⟩ := releaseNext_eq (s := fresh s) (by rw [lastStep_fresh]; exact hd) hp (by rw [lastStep_fresh]; exact hr)
  rw [lastStep_fresh] at hgo
  obtain ⟨w, hw⟩ : ∃ w, w = stepShown (lastStep_ s) (stepShown (lastStep_ s) v .a) .b := ⟨_, rfl⟩
  rw [← hw] at hgo
  have hshow : ∀ d, ShowsStep (lastStep_ s) d w := fun d => by
    rw [hw]
    cases d
    · exact (stepShown_same hlt v .a).of_rd (stepShown_other _ _)
    · exact stepShown_same hlt _ .b
  have hw1 : Only (fun u => { u with regs := [], boots := [], rinlar := [] }) v w := by
    rw [hw]
    exact (((Only.rfl.wrF _ _ _).wrB _ _ _).wrF _ _ _).wrB _ _ _
  obtain ⟨k1, k2⟩ := (stepOn_seqKept .a dom w).trans (stepOn_seqKept .b dom _)
  rw [← hgo] at k1 k2
  have hfields : Only (fun u => { u with regs := [], boots := [], rinlar := [] }) { fresh s with inReset := s.inReset.filter (fun x => x != dom) } (releaseNext (fresh s)) :=
    (hv.mono.trans hw1).trans k1
  have hmem : (ran releaseNext s).mem = s.mem := by
    have hm : (ran releaseNext s).mem = applyOut (releaseNext (fresh s)).out s.mem := rfl
    rw [hm, hfields.out_eq]
    exact rfl
  exact ⟨ran releaseNext s, rfl, (congrArg State.inReset hfields :), hmem, fun d => ((hshow d).of_rd (k2 d)).of_rd (ran_rd _ _ _)⟩

end Sys2Proof.Machine
end

section
/-! Islands, the boot ROM and initial training (R426, R427, R429–R433). -/
namespace Sys2Proof.Machine

/-! ## The peer at boot (R432) -/

theorem Only.regsSplit {s t : State} (h : Only (fun u => { u with regs := [], split := false }) (fresh s) t) : t = { s with regs := t.regs, split := t.split, out := [] } :=
  congrArg (fun u => { u with regs := t.regs, split := t.split }) h

theorem funcStatus_ne {f : Fun} {d : Die} {x : Nat} (h : x < 0x310000 ∨ 0x402000 ≤ x) (hx : x < 0x4000000) (hf : f.fn ≤ 63) : dieSpace d + x ≠ FUNC_STATUS f := by
  have hslot : f.slot ≤ 63 := by
    unfold Fun.slot
    split <;> omega
  unfold FUNC_STATUS fnSpace dieSpace
  rcases f with ⟨e, n⟩
  dsimp only at *
  cases d <;> cases e <;> simp only [Die.idx] <;> split <;> omega

theorem fn_le_of_mem_epFuns {d : Die} {f : Fun} (h : f ∈ epFuns d) : f.fn ≤ 63 := by
  obtain ⟨n, hn, rfl⟩ := List.mem_map.1 h
  rcases List.mem_append.1 hn with hn | hn
  · have := List.mem_range.1 hn
    dsimp only
    omega
  · rw [List.mem_singleton.1 hn]

/-- The functions of a die show that the peer is lost: no register outside their own changes. -/
theorem peersLost_rule (d e : Die) (s : State) : RegsOnly s ((epFuns d).foldl (fun t f => wrB (FUNC_STATUS f) FUNC_STATUS_PEER_LOST true t) s)
    ∧ ∀ x, (x < 0x310000 ∨ 0x402000 ≤ x) → x < 0x4000000 → ((epFuns d).foldl (fun t f => wrB (FUNC_STATUS f) FUNC_STATUS_PEER_LOST true t) s).rd (dieSpace e + x) = s.rd (dieSpace e + x) := by
  have htouch : Touches ((epFuns d).map FUNC_STATUS) s ((epFuns d).foldl (fun t f => wrB (FUNC_STATUS f) FUNC_STATUS_PEER_LOST true t) s) :=
    Touches.rfl.foldl fun f hf t => Touches.rfl.wrB _ _ (List.mem_map_of_mem hf)
  refine ⟨htouch.1, fun x h hx => htouch.2 _ fun hmem => ?_⟩
  obtain ⟨f, hf, he⟩ := List.mem_map.1 hmem
  exact funcStatus_ne h hx (fn_le_of_mem_epFuns hf) he.symm

/-- Die B goes on alone: its registers, before its functions show it. -/
def bootedAlone (s : State) : State :=
  { s with split := true } |> wrB (BOOT_STATUS .b) BOOT_STATUS_SPLIT_BOOT true |> wrF (EBRUM_STATUS .b) EBRUM_STATUS_STATE 2 |> wrF (EBRUM_STATUS .b) EBRUM_STATUS_CAUSE 0

theorem bootedAlone_rule (s : State) : Only (fun u => { u with regs := [], split := false }) s (bootedAlone s) ∧ (bootedAlone s).split = true
    ∧ (bootedAlone s).flag (BOOT_STATUS .b) BOOT_STATUS_SPLIT_BOOT = true ∧ (bootedAlone s).rdF (EBRUM_STATUS .b) EBRUM_STATUS_STATE = 2 := by
  have hsplit : Only (fun u => { u with regs := [], split := false }) s { s with split := true } := rfl
  refine ⟨((hsplit.wrB _ _ _).wrF _ _ _).wrF _ _ _, rfl, ?_, ?_⟩
  · refine (flag_wrF_ne (by decide) _ _ _ _).trans ((flag_wrF_ne (by decide) _ _ _ _).trans ?_)
    exact flag_wrB_same _ _ _ _ (by decide) (by decide)
  · refine (rdF_wrF_other _ _ _ _ _ (by decide) (by decide)).trans ?_
    exact rdF_wrF_of_lt (by decide) (by decide)

theorem peerBootTimeout_rule {s : State} (h1 : s.inReset.contains .supervisor = false) (h2 : (s.boot .b).running = false) (h3 : s.rdF (BOOT_STATUS .b) BOOT_STATUS_STAGE ≠ 15) (h4 : s.split = false) :
    ∃ t, exec .peerBootTimeout s = .next t ∧ t = { s with regs := t.regs, split := t.split, out := [] }
      ∧ (s.flag (STRAPS .b) STRAPS_FLASH_B = true → t.split = true ∧ t.flag (BOOT_STATUS .b) BOOT_STATUS_SPLIT_BOOT = true ∧ t.rdF (EBRUM_STATUS .b) EBRUM_STATUS_STATE = 2)
      ∧ (s.flag (STRAPS .b) STRAPS_FLASH_B = false → t.split = false ∧ t.rdF (BOOT_STATUS .b) BOOT_STATUS_STAGE = 4 ∧ ∀ a, a ≠ BOOT_STATUS .b → t.rd a = s.rd a) := by
  have hgo : peerLate (fresh s) = if s.flag (STRAPS .b) STRAPS_FLASH_B = true then (epFuns .b).foldl (fun t f => wrB (FUNC_STATUS f) FUNC_STATUS_PEER_LOST true t) (bootedAlone (fresh s))
      else wrF (BOOT_STATUS .b) BOOT_STATUS_STAGE 4 (fresh s) := by
    unfold peerLate
    dsimp only
    rw [rdF_fresh, flag_fresh, if_neg]
    · rfl
    · rintro (h | h | h | h)
      · exact Bool.false_ne_true (h1.symm.trans h)
      · exact Bool.false_ne_true (h2.symm.trans h)
      · exact h3 h
      · exact Bool.false_ne_true (h4.symm.trans h)
  cases hf : s.flag (STRAPS .b) STRAPS_FLASH_B with
  | true =>
    rw [hf, if_pos rfl] at hgo
    obtain ⟨k1, k2, k3, k4⟩ := bootedAlone_rule (fresh s)
    obtain ⟨v, hv⟩ : ∃ v, v = bootedAlone (fresh s) := ⟨_, rfl⟩
    rw [← hv] at hgo k1 k2 k3 k4
    obtain ⟨p1, p2⟩ := peersLost_rule Die.b Die.b v
    have hend := k1.trans (Only.of_regsOnly p1)
    refine ⟨_, congrArg Host.Outcome.next (hend.ran hgo), hend.regsSplit, fun _ => ⟨?_, ?_, ?_⟩, fun h => absurd h Bool.false_ne_true.symm⟩
    · exact (congrArg State.split p1.eq :).trans k2
    · exact (flag_of_rd (p2 0x100010 (by decide) (by decide)) _).trans k3
    · exact (rdF_of_rd (p2 0x3E00004 (by decide) (by decide)) _).trans k4
  | false =>
    rw [hf, if_neg Bool.false_ne_true] at hgo
    have hend : Only (fun u => { u with regs := [], split := false }) (fresh s) (wrF (BOOT_STATUS .b) BOOT_STATUS_STAGE 4 (fresh s)) := Only.rfl.wrF _ _ _
    refine ⟨_, congrArg Host.Outcome.next (hend.ran hgo), hend.regsSplit, fun h => absurd h Bool.false_ne_true, fun _ => ⟨h4, rdF_wrF_of_lt (by decide) (by decide), fun a ha => ?_⟩⟩
    rw [rd_wrF_ne ha, rd_fresh]

/-! ## Islands (R426, R427) -/

/-- The start-up state of a die whose island is out of reset. -/
def islandBooted (b : Boot) (i : Nat) : Boot :=
  { b with due := b.due.filter (fun j => j != i), islandsOut := if b.islandsOut.contains i then b.islandsOut else b.islandsOut ++ [i] }

theorem islandUp_rule (d : Die) (i : Nat) (s : State) : ∃ t, islandUp d i s = t ∧ RegsOnly (setBoot d (islandBooted (s.boot d) i) s) t := by
  refine ⟨_, rfl, ?_⟩
  unfold islandUp
  dsimp only
  split
  · exact regsOnly_wr _ _ _
  · exact RegsOnly.rfl

theorem islandRelease_shape {d : Die} {i : Nat} {s : State} (h : (s.boot d).due.contains i = true) : RegsOnly (setBoot d (islandBooted (s.boot d) i) s) (islandRelease d i s) := by
  obtain ⟨t, ht, hr⟩ := islandUp_rule d i s
  unfold islandRelease
  rw [h, if_neg Bool.false_ne_true.symm, ht]
  dsimp only
  split
  · split
    · exact hr.trans (regsOnly_wr _ _ _)
    · exact hr
  · exact hr

theorem contains_filter_self (l : List Nat) (i : Nat) : (l.filter (fun j => j != i)).contains i = false := by
  simp

theorem islandRelease_rule {d : Die} {i : Nat} {s : State} (h : (s.boot d).due.contains i = true) :
    ∃ t, exec (.islandRelease d i) s = .next t ∧ t = { s with regs := t.regs, boots := t.boots, out := [] } ∧ islandOut t d i = true ∧ (t.boot d).due.contains i = false
      ∧ (∀ j, islandOut s d j = true → islandOut t d j = true) := by
  have hshape := islandRelease_shape (d := d) (i := i) (s := fresh s) h
  have hset : Only (fun u => { u with regs := [], boots := [] }) (fresh s) (setBoot d (islandBooted ((fresh s).boot d) i) (fresh s)) := Only.rfl.setBoot _ _
  have hend := hset.trans (Only.of_regsOnly hshape)
  have hboot : (islandRelease d i (fresh s)).boot d = islandBooted (s.boot d) i := by
    rw [boot_of_regsOnly hshape, boot_setBoot_same]
    rfl
  refine ⟨_, congrArg Host.Outcome.next (hend.ran rfl), hend.regsBoots, ?_, ?_, fun j hj => ?_⟩
  · unfold islandOut
    rw [hboot]
    unfold islandBooted
    dsimp only
    split
    · assumption
    · simp
  · rw [hboot]
    exact contains_filter_self _ _
  · unfold islandOut at hj ⊢
    rw [hboot]
    unfold islandBooted
    dsimp only
    split
    · exact hj
    · rw [List.contains_eq_mem, decide_eq_true_eq] at hj ⊢
      exact List.mem_append_left _ hj

theorem clkFailBit_lt {i b : Nat} (h : clkFailBit i = some b) : b < 32 := by
  unfold clkFailBit at h
  split at h
  case h_1 u hu =>
    cases h
    unfold islandUnit bitCamera bitAudio bitTouch bitHaptic at hu
    split at hu
    · cases hu; omega
    · split at hu
      · cases hu; omega
      · split at hu
        · cases hu; omega
        · split at hu
          · cases hu; omega
          · split at hu
            · cases hu; omega
            · cases hu
  case h_2 =>
    split at h
    · cases h; omega
    · split at h
      · cases h; omega
      · split at h
        · cases h; omega
        · split at h
          · cases h; omega
          · cases h

theorem islandPllTimeout_rule {d : Die} {i : Nat} {s : State} (h : (s.boot d).due.contains i = true) :
    ∃ t, exec (.islandPllTimeout d i) s = .next t ∧ t = { s with regs := t.regs, boots := t.boots, out := [] } ∧ (t.boot d).islandsOut = (s.boot d).islandsOut
      ∧ (t.boot d).due.contains i = false ∧ (∀ b, clkFailBit i = some b → nbit (t.rd (BLOCK_CLK_FAIL d)).toNat b = true) ∧ ∀ a, a ≠ BLOCK_CLK_FAIL d → t.rd a = s.rd a := by
  obtain ⟨v, hv⟩ : ∃ v, v = setBoot d { s.boot d with due := (s.boot d).due.filter (fun j => j != i) } (fresh s) := ⟨_, rfl⟩
  have hv1 : Only (fun u => { u with regs := [], boots := [] }) (fresh s) v := by
    rw [hv]
    exact Only.rfl.setBoot _ _
  have hboot : v.boot d = { s.boot d with due := (s.boot d).due.filter (fun j => j != i) } := by rw [hv, boot_setBoot_same]
  have hrd : ∀ a, v.rd a = s.rd a := fun a => by rw [hv, rd_setBoot, rd_fresh]
  have hfail : islandFails d i (fresh s) = match clkFailBit i with
      | some b => setBlock (BLOCK_CLK_FAIL d) b true v
      | none => v := by
    rw [hv]
    exact if_neg (by rw [boot_fresh, h]; exact Bool.false_ne_true.symm)
  cases hb : clkFailBit i with
  | none =>
    rw [hb] at hfail
    refine ⟨_, congrArg Host.Outcome.next (hv1.ran hfail), hv1.regsBoots, by rw [hboot], by rw [hboot]; exact contains_filter_self _ _, fun b hc => absurd hc.symm (Option.some_ne_none b), fun a _ => hrd a⟩
  | some b =>
    rw [hb] at hfail
    have hend : Only (fun u => { u with regs := [], boots := [] }) (fresh s) (setBlock (BLOCK_CLK_FAIL d) b true v) := hv1.wr _ _
    have hboot' : (setBlock (BLOCK_CLK_FAIL d) b true v).boot d = v.boot d := rfl
    refine ⟨_, congrArg Host.Outcome.next (hend.ran hfail), hend.regsBoots, by rw [hboot', hboot], by rw [hboot', hboot]; exact contains_filter_self _ _, fun c hc => ?_, fun a ha => ?_⟩
    · cases hc
      exact nbit_setBlock _ (clkFailBit_lt hb) _ _
    · rw [rd_setBlock_ne ha, hrd]

/-! ## The boot ROM (R429–R431) -/

/-- The ROM of a die may run: the supervisor is out of reset, no firmware runs, and nothing has stopped it. -/
structure RomReady (d : Die) (s : State) : Prop where
  up : s.inReset.contains .supervisor = false
  idle : (s.boot d).running = false
  going : s.rdF (BOOT_STATUS d) BOOT_STATUS_STAGE ≠ 15

theorem RomReady.fresh {d : Die} {s : State} (h : RomReady d s) : RomReady d (fresh s) := { h with going := by rw [rdF_fresh]; exact h.going }

/-- The die reads its own flash. -/
def ownFlash (d : Die) (s : State) : Bool := d == .a || s.flag (BOOT_STATUS d) BOOT_STATUS_SPLIT_BOOT

theorem ownFlash_fresh (d : Die) (s : State) : ownFlash d (fresh s) = ownFlash d s := by
  unfold ownFlash
  rw [flag_fresh]

theorem ownFlash_iff {d : Die} {s : State} : ownFlash d s = true ↔ d = .a ∨ s.flag (BOOT_STATUS d) BOOT_STATUS_SPLIT_BOOT = true := by
  unfold ownFlash
  rw [Bool.or_eq_true, beq_iff_eq]

/-- The images that the ROM has accepted take effect. -/
def imagesTaken (d : Die) (i j : Nat) (fw : BootSlot) (cfg : BootSlot × BootConfig) (s : State) : State :=
  loadConfig d cfg.2 (setBoot d { s.boot d with running := true, fwVersion := fw.version, cfgVersion := cfg.1.version, config := some cfg.2 }
    (wrF (BOOT_STATUS d) BOOT_STATUS_STAGE 5 (wrF (BOOT_STATUS d) BOOT_STATUS_CFG_SLOT j (wrF (BOOT_STATUS d) BOOT_STATUS_FW_SLOT i s))))

theorem boots_noFlash {d : Die} {o : BootObs} {s : State} (h : RomReady d s) (ho : ownFlash d s = true) (hf : o.flashOk = false) : boots d o s = bootFails d 6 s := by
  have hown : (d == .a || s.flag (BOOT_STATUS d) BOOT_STATUS_SPLIT_BOOT) = true := ho
  unfold boots
  dsimp only
  rw [hown, if_neg, if_pos ⟨rfl, hf⟩]
  rintro (hc | hc | hc | hc)
  · exact Bool.false_ne_true (h.up.symm.trans hc)
  · exact Bool.false_ne_true (h.idle.symm.trans hc)
  · exact h.going hc
  · exact Bool.false_ne_true hc.1.symm

theorem boots_badHeader {d : Die} {o : BootObs} {s : State} (h : RomReady d s) (ho : ownFlash d s = true) (hf : o.flashOk = true) (hh : headerOk o = false) : boots d o s = bootFails d 1 s := by
  have hown : (d == .a || s.flag (BOOT_STATUS d) BOOT_STATUS_SPLIT_BOOT) = true := ho
  unfold boots
  dsimp only
  rw [hown, if_neg, if_neg (fun hc => Bool.false_ne_true (hc.2.symm.trans hf)), if_pos ⟨rfl, hh⟩]
  rintro (hc | hc | hc | hc)
  · exact Bool.false_ne_true (h.up.symm.trans hc)
  · exact Bool.false_ne_true (h.idle.symm.trans hc)
  · exact h.going hc
  · exact Bool.false_ne_true hc.1.symm

/-- The ROM reads its images: the flash and its header are good, or die A sends them. -/
structure ReadsImages (d : Die) (o : BootObs) (s : State) : Prop where
  ready : RomReady d s
  flash : ownFlash d s = true → o.flashOk = true ∧ headerOk o = true
  sent : ownFlash d s = false → (s.boot .a).running = true

theorem ReadsImages.fresh {d : Die} {o : BootObs} {s : State} (h : ReadsImages d o s) : ReadsImages d o (fresh s) :=
  ⟨h.ready.fresh, fun ho => h.flash ((ownFlash_fresh d s).symm.trans ho), fun ho => h.sent ((ownFlash_fresh d s).symm.trans ho)⟩

theorem boots_reads {d : Die} {o : BootObs} {s : State} (h : ReadsImages d o s) :
    (∀ e, pickSlot fwImage s.part.fwMin 0 (bootSlots (ownFlash d s) o 12 o.firmware) = .error e → boots d o s = bootFails d (2 + e) s)
      ∧ ∀ i fw j cfg, pickSlot fwImage s.part.fwMin 0 (bootSlots (ownFlash d s) o 12 o.firmware) = .ok (i, fw) →
        pickSlot Prod.fst s.part.cfgMin 0 (bootSlots (ownFlash d s) o 20 o.config) = .ok (j, cfg) → boots d o s = imagesTaken d i j fw cfg s := by
  obtain ⟨own, hown⟩ : ∃ own, own = ownFlash d s := ⟨_, rfl⟩
  have hown' : (d == .a || s.flag (BOOT_STATUS d) BOOT_STATUS_SPLIT_BOOT) = own := hown.symm
  have hgate : ¬(s.inReset.contains .supervisor = true ∨ (s.boot d).running = true ∨ s.rdF (BOOT_STATUS d) BOOT_STATUS_STAGE = 15 ∨ (own = false ∧ (s.boot .a).running = false)) := by
    rintro (hc | hc | hc | hc)
    · exact Bool.false_ne_true (h.ready.up.symm.trans hc)
    · exact Bool.false_ne_true (h.ready.idle.symm.trans hc)
    · exact h.ready.going hc
    · exact Bool.false_ne_true (hc.2.symm.trans (h.sent (hown.symm.trans hc.1)))
  have hflash : ¬(own = true ∧ o.flashOk = false) := fun hc => Bool.false_ne_true (hc.2.symm.trans (h.flash (hown.symm.trans hc.1)).1)
  have hhead : ¬(own = true ∧ headerOk o = false) := fun hc => Bool.false_ne_true (hc.2.symm.trans (h.flash (hown.symm.trans hc.1)).2)
  rw [← hown]
  constructor
  · intro e he
    unfold boots
    dsimp only
    rw [hown', if_neg hgate, if_neg hflash, if_neg hhead, he]
  · intro i fw j cfg hi hj
    unfold boots
    dsimp only
    rw [hown', if_neg hgate, if_neg hflash, if_neg hhead, hi]
    dsimp only
    rw [hj]
    rfl

/-- Neither the boot status nor the memory configuration differs, and nothing but registers does. -/
def ConfigKept (d : Die) (s t : State) : Prop := RegsOnly s t ∧ t.rd (BOOT_STATUS d) = s.rd (BOOT_STATUS d) ∧ t.rd (DRAM_CFG d) = s.rd (DRAM_CFG d)

namespace ConfigKept
variable {d : Die} {s t u : State}

theorem rfl : ConfigKept d s s := ⟨RegsOnly.rfl, Eq.refl _, Eq.refl _⟩
theorem trans (h : ConfigKept d s t) (h' : ConfigKept d t u) : ConfigKept d s u := ⟨h.1.trans h'.1, h'.2.1.trans h.2.1, h'.2.2.trans h.2.2⟩
theorem wr (h : ConfigKept d s t) {a : Nat} (v : Word) (h1 : BOOT_STATUS d ≠ a) (h2 : DRAM_CFG d ≠ a) : ConfigKept d s (wr a v t) :=
  h.trans ⟨regsOnly_wr _ _ _, rd_wr_ne h1 _ _, rd_wr_ne h2 _ _⟩
theorem foldl {g : State → Nat → State} {xs : List Nat} (hg : ∀ x ∈ xs, ∀ t, ConfigKept d t (g t x)) (s : State) : ConfigKept d s (xs.foldl g s) := by
  induction xs generalizing s with
  | nil => exact rfl
  | cons x xs ih =>
    obtain ⟨hx, hxs⟩ := List.forall_mem_cons.1 hg
    exact (hx s).trans (ih hxs _)
theorem ite {p : Prop} [Decidable p] (h : ConfigKept d s t) (h' : ConfigKept d s u) : ConfigKept d s (if p then t else u) := by
  split
  · exact h
  · exact h'

end ConfigKept

/-- What loading a configuration leaves: the boot status as it was, and the capacity of a channel as the configuration has it. -/
theorem loadConfig_rule (d : Die) (c : BootConfig) (s : State) : RegsOnly s (loadConfig d c s) ∧ (loadConfig d c s).rd (BOOT_STATUS d) = s.rd (BOOT_STATUS d)
    ∧ (loadConfig d c s).rdF (DRAM_CFG d) DRAM_CFG_CH_CAP = c.chCap % 2 ^ DRAM_CFG_CH_CAP.len := by
  obtain ⟨v, hv⟩ : ∃ v, v = wrB (DRAM_CFG d) DRAM_CFG_RANKS2 c.ranks2 (wrF (DRAM_CFG d) DRAM_CFG_CH_CAP c.chCap s) := ⟨_, rfl⟩
  have hb : BOOT_STATUS d ≠ DRAM_CFG d := by
    unfold BOOT_STATUS DRAM_CFG
    omega
  have hrest : ConfigKept d v (loadConfig d c s) := by
    unfold loadConfig
    dsimp only
    rw [← hv]
    refine (((((ConfigKept.rfl.wr _ ?_ ?_).trans (ConfigKept.foldl (fun i hi t => ConfigKept.rfl.wr _ ?_ ?_) _)).trans
      (ConfigKept.foldl (fun i hi t => (ConfigKept.rfl.wr _ ?_ ?_).wr _ ?_ ?_) _)).trans (ConfigKept.foldl (fun i hi t => (ConfigKept.rfl.wr _ ?_ ?_).wr _ ?_ ?_) _)).trans
      (ConfigKept.ite (ConfigKept.rfl.wr _ ?_ ?_) ConfigKept.rfl)).trans (((ConfigKept.rfl.wr _ ?_ ?_).wr _ ?_ ?_).wr _ ?_ ?_)
    all_goals
      try have hi := List.mem_range.1 hi
      simp only [BOOT_STATUS, DRAM_CFG, CAP_COMPUTE, DRAM_FSP, DRAM_ECC_REGION_BASE, DRAM_ECC_REGION_SIZE, PF1_REQID, WDOG_STATUS, PF1_ACCESS]
      omega
  obtain ⟨h1, h2, h3⟩ := hrest
  have hv1 : RegsOnly s v := by
    rw [hv]
    exact (regsOnly_wr _ _ _).trans (regsOnly_wr _ _ _)
  refine ⟨hv1.trans h1, ?_, ?_⟩
  · rw [h2, hv, rd_wrB_ne hb, rd_wrF_ne hb]
  · rw [rdF_of_rd h3, hv, rdF_wrB_other _ _ _ _ _ (by decide) (by decide)]
    exact rdF_wrF_same _ _ _ _ (by decide)

theorem imagesTaken_rule (d : Die) (i j : Nat) (fw : BootSlot) (cfg : BootSlot × BootConfig) (s : State) :
    Only (fun u => { u with regs := [], boots := [] }) s (imagesTaken d i j fw cfg s)
      ∧ (imagesTaken d i j fw cfg s).boot d = { s.boot d with running := true, fwVersion := fw.version, cfgVersion := cfg.1.version, config := some cfg.2 }
      ∧ (imagesTaken d i j fw cfg s).rdF (BOOT_STATUS d) BOOT_STATUS_STAGE = 5 ∧ (imagesTaken d i j fw cfg s).rdF (BOOT_STATUS d) BOOT_STATUS_FW_SLOT = i % 2 ^ BOOT_STATUS_FW_SLOT.len
      ∧ (imagesTaken d i j fw cfg s).rdF (DRAM_CFG d) DRAM_CFG_CH_CAP = cfg.2.chCap % 2 ^ DRAM_CFG_CH_CAP.len := by
  obtain ⟨v, hv⟩ : ∃ v, v = setBoot d { s.boot d with running := true, fwVersion := fw.version, cfgVersion := cfg.1.version, config := some cfg.2 }
    (wrF (BOOT_STATUS d) BOOT_STATUS_STAGE 5 (wrF (BOOT_STATUS d) BOOT_STATUS_CFG_SLOT j (wrF (BOOT_STATUS d) BOOT_STATUS_FW_SLOT i s))) := ⟨_, rfl⟩
  have heq : imagesTaken d i j fw cfg s = loadConfig d cfg.2 v := by
    rw [hv]
    rfl
  have hv1 : Only (fun u => { u with regs := [], boots := [] }) s v := by
    rw [hv]
    exact (((Only.rfl.wrF _ _ _).wrF _ _ _).wrF _ _ _).setBoot _ _
  obtain ⟨h1, h2, h3⟩ := loadConfig_rule d cfg.2 v
  rw [heq]
  refine ⟨hv1.trans (Only.of_regsOnly h1), ?_, ?_, ?_, h3⟩
  · rw [boot_of_regsOnly h1, hv, boot_setBoot_same]
  · rw [rdF_of_rd h2, hv, rdF_of_rd (rd_setBoot _ _ _ _)]
    exact rdF_wrF_of_lt (by decide) (by decide)
  · rw [rdF_of_rd h2, hv, rdF_of_rd (rd_setBoot _ _ _ _), rdF_wrF_other _ _ _ _ _ (by decide) (by decide), rdF_wrF_other _ _ _ _ _ (by decide) (by decide)]
    exact rdF_wrF_same _ _ _ _ (by decide)

/-! ## Initial training (R307, R433) -/

theorem trained_failed {d : Die} {failed : Nat} {s : State} (h1 : (s.boot d).running = true) (h2 : s.rdF (BOOT_STATUS d) BOOT_STATUS_STAGE = 5) (hf : failed % 256 ≠ 0) :
    trained d failed s = bootFails d 8 (wrF (DRAM_STATUS d) DRAM_STATUS_INIT_FAIL failed s) := by
  unfold trained
  dsimp only
  rw [if_neg (fun hc => hc.elim (fun hc => Bool.false_ne_true (hc.symm.trans h1)) fun hc => hc h2), if_pos hf]

theorem dramStatus_ne_boot (d : Die) : DRAM_STATUS d ≠ BOOT_STATUS d := by
  unfold DRAM_STATUS BOOT_STATUS
  omega

theorem trainingReady_failed {d : Die} {failed : Nat} {s : State} (h1 : (s.boot d).running = true) (h2 : s.rdF (BOOT_STATUS d) BOOT_STATUS_STAGE = 5) (hf : failed % 256 ≠ 0) :
    ∃ t, exec (.trainingReady d failed) s = .next t ∧ t = { s with regs := t.regs, out := [] } ∧ t.rdF (DRAM_STATUS d) DRAM_STATUS_INIT_FAIL = failed % 256
      ∧ t.rdF (BOOT_STATUS d) BOOT_STATUS_STAGE = 15 ∧ t.rdF (BOOT_STATUS d) BOOT_STATUS_ERROR = 8 := by
  have hgo := trained_failed (failed := failed) (s := fresh s) h1 ((rdF_fresh _ _ _).trans h2) hf
  have hend : RegsOnly (fresh s) (bootFails d 8 (wrF (DRAM_STATUS d) DRAM_STATUS_INIT_FAIL failed (fresh s))) := ((regsOnly_wr _ _ _).trans (regsOnly_wr _ _ _)).trans (regsOnly_wr _ _ _)
  refine ⟨_, congrArg Host.Outcome.next (ran_regsOnly hend hgo), hend.fresh, ?_, ?_, ?_⟩
  · rw [bootFails, rdF_wrF_ne (dramStatus_ne_boot d), rdF_wrF_ne (dramStatus_ne_boot d)]
    exact rdF_wrF_same _ _ _ _ (by decide)
  · rw [bootFails, rdF_wrF_other _ _ _ _ _ (by decide) (by decide)]
    exact rdF_wrF_of_lt (by decide) (by decide)
  · rw [bootFails]
    exact rdF_wrF_of_lt (by decide) (by decide)

/-- The die is READY, before the record's findings are posted. -/
def memoryReady (d : Die) (s : State) : State :=
  s |> wrB (DRAM_STATUS d) DRAM_STATUS_READY true |> setDram d { s.dram d with phy := (upto 96).map (fun i => (i, s.freeNat i)) } |> useFree 96
    |> wrB (BOOT_STATUS d) BOOT_STATUS_READY true |> wrF (BOOT_STATUS d) BOOT_STATUS_STAGE 6 |> refreshFailover d

theorem rd_useFree (n : Nat) (s : State) (a : Nat) : (useFree n s).rd a = s.rd a := rd_congr rfl rfl a

theorem rd_setDram (d : Die) (x : Dram) (s : State) (a : Nat) : (setDram d x s).rd a = s.rd a := rd_congr rfl rfl a

theorem memoryReady_rule (d : Die) (s : State) : (memoryReady d s).rinlar = s.rinlar ∧ (memoryReady d s).flag (DRAM_STATUS d) DRAM_STATUS_READY = true
    ∧ (memoryReady d s).flag (BOOT_STATUS d) BOOT_STATUS_READY = true ∧ (memoryReady d s).rdF (BOOT_STATUS d) BOOT_STATUS_STAGE = 6 := by
  obtain ⟨v, hv⟩ : ∃ v, v = useFree 96 (setDram d { s.dram d with phy := (upto 96).map (fun i => (i, s.freeNat i)) } (wrB (DRAM_STATUS d) DRAM_STATUS_READY true s)) := ⟨_, rfl⟩
  have hvr : v.rinlar = s.rinlar := by rw [hv]; rfl
  have hvd : v.rd (DRAM_STATUS d) = (wrB (DRAM_STATUS d) DRAM_STATUS_READY true s).rd (DRAM_STATUS d) := by
    rw [hv]
    exact (rd_useFree _ _ _).trans (rd_setDram _ _ _ _)
  have hrd : ∀ a, (memoryReady d s).rd a = (wrF (BOOT_STATUS d) BOOT_STATUS_STAGE 6 (wrB (BOOT_STATUS d) BOOT_STATUS_READY true v)).rd a := fun a => by
    rw [hv]
    exact rd_setBoot _ _ _ _
  have hrin : (memoryReady d s).rinlar = v.rinlar := by
    rw [hv]
    rfl
  refine ⟨hrin.trans hvr, ?_, ?_, ?_⟩
  · rw [flag_of_rd (hrd _), flag_wrF_ne (dramStatus_ne_boot d), flag_wrB_ne (dramStatus_ne_boot d), flag_of_rd hvd]
    exact flag_wrB_same _ _ _ _ (by decide) (by decide)
  · rw [flag_of_rd (hrd _), flag_wrF_other _ _ _ _ _ (by decide) (by decide)]
    exact flag_wrB_same _ _ _ _ (by decide) (by decide)
  · rw [rdF_of_rd (hrd _)]
    exact rdF_wrF_of_lt (by decide) (by decide)

/-- An unannounced loss of power is posted, and is due no more. -/
def lossPosted (d : Die) (slot : Nat) (s : State) : State := postRinlar d 2 slot (setRin d { s.rin d with lossDue := false } s)

/-- A record whose good slots are few is posted. -/
def degradedPosted (d : Die) (s : State) : State := if s.flag (RINLAR_STATUS d) RINLAR_STATUS_DEGRADED then postRinlar d 1 0xFF s else s

theorem trained_ready {d : Die} {failed : Nat} {s : State} (h1 : (s.boot d).running = true) (h2 : s.rdF (BOOT_STATUS d) BOOT_STATUS_STAGE = 5) (hf : failed % 256 = 0) :
    ∃ slot, trained d failed s = degradedPosted d (if (s.rin d).lossDue = true then lossPosted d slot (memoryReady d s) else memoryReady d s) := by
  unfold trained
  dsimp only
  rw [if_neg (fun hc => hc.elim (fun hc => Bool.false_ne_true (hc.symm.trans h1)) fun hc => hc h2), if_neg (fun hc => hc hf)]
  split
  · exact ⟨_, rfl⟩
  · exact ⟨0, rfl⟩

/-- The record of a die is as it is in another state, and so are the registers that posting does not write. -/
theorem postRinlar_keeps (d : Die) (k n : Nat) (s : State) : (postRinlar d k n s).rinlar = s.rinlar ∧ ∀ a, postReg a = false → (postRinlar d k n s).rd a = s.rd a := by
  obtain ⟨hp, hregs, -⟩ := posts_postPf0 (ok := True) d 0x0C80 d.idx (k + n * 256) s
  exact ⟨(congrArg State.rinlar hp :), hregs trivial⟩

theorem postReg_below (d : Die) {x : Nat} (h : x < 0x310000) : postReg (dieSpace d + x) = false := by
  rw [postReg, addrOff_die d (by omega)]
  exact decide_eq_false (by omega)

theorem degradedPosted_keeps (d : Die) (s : State) : (degradedPosted d s).rinlar = s.rinlar ∧ ∀ a, postReg a = false → (degradedPosted d s).rd a = s.rd a := by
  unfold degradedPosted
  split
  · exact postRinlar_keeps _ _ _ _
  · exact ⟨rfl, fun _ _ => rfl⟩

theorem trainingReady_ready {d : Die} {failed : Nat} {s : State} (h1 : (s.boot d).running = true) (h2 : s.rdF (BOOT_STATUS d) BOOT_STATUS_STAGE = 5) (hf : failed % 256 = 0) :
    ∃ t, exec (.trainingReady d failed) s = .next t ∧ t.flag (DRAM_STATUS d) DRAM_STATUS_READY = true ∧ t.flag (BOOT_STATUS d) BOOT_STATUS_READY = true
      ∧ t.rdF (BOOT_STATUS d) BOOT_STATUS_STAGE = 6 ∧ (t.rin d).lossDue = false := by
  obtain ⟨slot, hgo⟩ := trained_ready (failed := failed) (s := fresh s) h1 ((rdF_fresh _ _ _).trans h2) hf
  obtain ⟨m1, m2, m3, m4⟩ := memoryReady_rule d (fresh s)
  obtain ⟨v, hv⟩ : ∃ v, v = (if ((fresh s).rin d).lossDue = true then lossPosted d slot (memoryReady d (fresh s)) else memoryReady d (fresh s)) := ⟨_, rfl⟩
  rw [← hv] at hgo
  have hvloss : (v.rin d).lossDue = false := by
    rw [hv]
    split
    · obtain ⟨k1, -⟩ := postRinlar_keeps d 2 slot (setRin d { (memoryReady d (fresh s)).rin d with lossDue := false } (memoryReady d (fresh s)))
      have hr : (lossPosted d slot (memoryReady d (fresh s))).rin d = { (memoryReady d (fresh s)).rin d with lossDue := false } :=
        (congrArg (tget Rinlar.empty d.idx) k1).trans (rin_setRin_same _ _ _)
      rw [hr]
    · rename_i hno
      rw [show (memoryReady d (fresh s)).rin d = (fresh s).rin d from congrArg (tget Rinlar.empty d.idx) m1]
      exact Bool.eq_false_iff.2 hno
  have hvrd : ∀ a, postReg a = false → v.rd a = (memoryReady d (fresh s)).rd a := fun a ha => by
    rw [hv]
    split
    · obtain ⟨-, k2⟩ := postRinlar_keeps d 2 slot (setRin d { (memoryReady d (fresh s)).rin d with lossDue := false } (memoryReady d (fresh s)))
      exact (k2 a ha).trans (rd_setRin _ _ _ _)
    · rfl
  obtain ⟨g1, g2⟩ := degradedPosted_keeps d v
  have hrd : ∀ a, postReg a = false → (ran (trained d failed) s).rd a = (memoryReady d (fresh s)).rd a := fun a ha => by rw [ran_rd, hgo, g2 a ha, hvrd a ha]
  have hdram : postReg (DRAM_STATUS d) = false := postReg_outside d (by decide) (by decide)
  have hbst : postReg (BOOT_STATUS d) = false := postReg_below d (by decide)
  refine ⟨ran (trained d failed) s, rfl, (flag_of_rd (hrd _ hdram) _).trans m2, (flag_of_rd (hrd _ hbst) _).trans m3, (rdF_of_rd (hrd _ hbst) _).trans m4, ?_⟩
  have hrin : (ran (trained d failed) s).rinlar = v.rinlar := (congrArg State.rinlar hgo : (trained d failed (fresh s)).rinlar = _).trans g1
  rw [show (ran (trained d failed) s).rin d = v.rin d from congrArg (tget Rinlar.empty d.idx) hrin, hvloss]

/-- Settles O54: POR and RESETn, the release order, islands, the ROM's images, the peer at boot, and initial training. -/
theorem resetAndBootAreOrdered : Obligations.ResetAndBootAreOrdered := by
  refine ⟨fun s => ⟨fun h => ⟨por_asserted h, por_released h⟩, resetnRelease_rule s, resetnAssert_rule, fun dom => domainRelease_rule, peerBootTimeout_rule⟩,
    fun d i s h => ⟨islandRelease_rule h, islandPllTimeout_rule h⟩, fun d o s h1 h2 h3 => ⟨fun ho => ⟨fun hf => ?_, fun hf hh => ?_⟩, fun hf hs own hown => ?_⟩,
    fun d failed s h1 h2 => ⟨trainingReady_failed h1 h2, trainingReady_ready h1 h2⟩⟩
  · have hready : RomReady d s := ⟨h1, h2, h3⟩
    exact congrArg Host.Outcome.next (ran_congr (boots_noFlash hready.fresh ((ownFlash_fresh d s).trans (ownFlash_iff.2 ho)) hf))
  · have hready : RomReady d s := ⟨h1, h2, h3⟩
    exact congrArg Host.Outcome.next (ran_congr (boots_badHeader hready.fresh ((ownFlash_fresh d s).trans (ownFlash_iff.2 ho)) hf hh))
  · have hreads : ReadsImages d o s := by
      refine ⟨⟨h1, h2, h3⟩, fun ho => hf (ownFlash_iff.1 ho), fun ho => ?_⟩
      obtain ⟨ha, hb⟩ := not_or.1 (fun hc => Bool.false_ne_true (ho.symm.trans (ownFlash_iff.2 hc)))
      exact hs (by cases d <;> [exact absurd rfl ha; rfl]) (Bool.eq_false_iff.2 hb)
    obtain ⟨k1, k2⟩ := boots_reads hreads.fresh
    rw [ownFlash_fresh, show ownFlash d s = own from hown.symm] at k1 k2
    refine ⟨fun e he => congrArg Host.Outcome.next (ran_congr (k1 e he)), fun i fw j cfg hi hj => ?_⟩
    obtain ⟨m1, m2, m3, m4, m5⟩ := imagesTaken_rule d i j fw cfg (fresh s)
    exact ⟨_, congrArg Host.Outcome.next (m1.ran (k2 i fw j cfg hi hj)), m1.regsBoots, m2, m3, m4, m5⟩

end Sys2Proof.Machine
end

section
/-! Camera streams: the loss of a stream, the lane status, and the clearing of the error counters (O42; R219, R226, R238, R239). -/
namespace Sys2Proof.Machine

/-! ## The layers that show a lost stream -/

/-- The sink of a route is a layer that shows the stream. -/
def Shows (s : State) (p v : Nat) (x : Nat × Route) : Prop := epType x.2.sink = 0x01 ∧ layerStream s x.2 = some (p, v)


/-- The layer that a route feeds goes transparent, where it shows the stream. -/
def goesDark (s : State) (p v : Nat) (t : State) (x : Nat × Route) : State :=
  if epType x.2.sink = 0x01 ∧ layerStream s x.2 = some (p, v) then
    setLayer (epUnit x.2.sink) (epSub x.2.sink) { (t.head (epUnit x.2.sink)).layer (epSub x.2.sink) with camOn := false } t
  else t

theorem layer_setLayer_other {h l g m : Nat} (hne : ¬(h = g ∧ l = m)) (y : Layer) (s : State) : ((setLayer h l y s).head g).layer m = (s.head g).layer m := by
  by_cases hg : g = h
  · subst hg
    rw [show (setLayer g l y s).head g = { s.head g with layers := tset l y (s.head g).layers } from tget_tset_same _ _ _ _]
    exact tget_tset_ne _ (fun hc => hne ⟨rfl, hc.symm⟩) _ _
  · exact congrArg (fun x : Head => x.layer m) (head_setHead_ne hg _ s)

theorem goesDark_heads (s : State) (p v : Nat) (t : State) (x : Nat × Route) : Only (fun u => { u with heads := [] }) t (goesDark s p v t x) := by
  unfold goesDark
  split <;> rfl

theorem goesDark_other {s : State} {p v : Nat} {x : Nat × Route} {h l : Nat} (hx : ¬(Shows s p v x ∧ epUnit x.2.sink = h ∧ epSub x.2.sink = l)) (t : State) :
    ((goesDark s p v t x).head h).layer l = (t.head h).layer l := by
  unfold goesDark
  split
  · rename_i hs
    exact layer_setLayer_other (fun hc => hx ⟨hs, hc⟩) _ _
  · rfl

theorem goesDark_shown {s : State} {p v : Nat} {x : Nat × Route} (hx : Shows s p v x) (t : State) :
    ((goesDark s p v t x).head (epUnit x.2.sink)).layer (epSub x.2.sink) = { (t.head (epUnit x.2.sink)).layer (epSub x.2.sink) with camOn := false } := by
  unfold goesDark
  split
  · exact layer_setLayer_same _ _ _ _
  · rename_i hno
    exact absurd hx hno

theorem goesDark_keepsDark (s : State) (p v : Nat) {t : State} (x : Nat × Route) {h l : Nat} (hoff : ((t.head h).layer l).camOn = false) :
    (((goesDark s p v t x).head h).layer l).camOn = false := by
  by_cases hx : Shows s p v x ∧ epUnit x.2.sink = h ∧ epSub x.2.sink = l
  · obtain ⟨hs, rfl, rfl⟩ := hx
    rw [goesDark_shown hs]
  · rw [goesDark_other hx, hoff]

theorem foldl_goesDark_heads (s : State) (p v : Nat) (xs : List (Nat × Route)) (t : State) : Only (fun u => { u with heads := [] }) t (xs.foldl (goesDark s p v) t) := by
  induction xs generalizing t with
  | nil => rfl
  | cons x xs ih => exact (goesDark_heads s p v t x).trans (ih _)

theorem foldl_goesDark_other {s : State} {p v h l : Nat} {xs : List (Nat × Route)} (hx : ∀ x ∈ xs, ¬(Shows s p v x ∧ epUnit x.2.sink = h ∧ epSub x.2.sink = l)) (t : State) :
    ((xs.foldl (goesDark s p v) t).head h).layer l = (t.head h).layer l := by
  induction xs generalizing t with
  | nil => rfl
  | cons x xs ih => exact (ih (fun y hy => hx y (List.mem_cons_of_mem _ hy)) _).trans (goesDark_other (hx x List.mem_cons_self) t)

theorem foldl_goesDark_keepsDark (s : State) (p v : Nat) (xs : List (Nat × Route)) {t : State} {h l : Nat} (hoff : ((t.head h).layer l).camOn = false) :
    (((xs.foldl (goesDark s p v) t).head h).layer l).camOn = false := by
  induction xs generalizing t with
  | nil => exact hoff
  | cons x xs ih => exact ih (goesDark_keepsDark s p v x hoff)

theorem foldl_goesDark_shown {s : State} {p v : Nat} {xs : List (Nat × Route)} {x : Nat × Route} (hm : x ∈ xs) (hx : Shows s p v x) (t : State) :
    (((xs.foldl (goesDark s p v) t).head (epUnit x.2.sink)).layer (epSub x.2.sink)).camOn = false := by
  induction xs generalizing t with
  | nil => exact absurd hm List.not_mem_nil
  | cons y ys ih =>
    rcases List.mem_cons.1 hm with rfl | hm
    · exact foldl_goesDark_keepsDark s p v ys (by rw [goesDark_shown hx])
    · exact ih hm _

/-! ## The loss of a stream -/

/-- The registers that say what the camera inputs of a die are. -/
def cameraRegs (d : Die) : List Nat := [CAM_LINESTORE d, WARP_STATUS d, WARP_STORE d]

theorem refreshCamera_touches (d : Die) (s : State) : Touches (cameraRegs d) s (refreshCamera d s) := by
  unfold refreshCamera
  dsimp only
  have hmem : CAM_LINESTORE d ∈ cameraRegs d ∧ WARP_STATUS d ∈ cameraRegs d ∧ WARP_STORE d ∈ cameraRegs d := by
    simp only [cameraRegs, List.mem_cons, true_or, or_true, and_self]
  obtain ⟨h1, h2, h3⟩ := hmem
  exact (((Touches.rfl.wrF _ _ h1).wrF _ _ h2).wrF _ _ h2).wrF _ _ h3

theorem streamStatus_notin (d : Die) {n v : Nat} (hn : n < 4) (hv : v < 4) : STREAM_STATUS d n v ∉ cameraRegs d := by
  simp only [cameraRegs, STREAM_STATUS, CAM_LINESTORE, WARP_STATUS, WARP_STORE, List.mem_cons, List.not_mem_nil, or_false, not_or]
  omega

theorem Only.regsHeadsKept {s t : State} (h : Only (fun u => { u with regs := [], heads := [] }) s t) : t = { s with regs := t.regs, heads := t.heads } :=
  congrArg (fun w => { w with regs := t.regs, heads := t.heads }) h

/-- The stream is lost, before it is posted. -/
def streamGone (p v : Nat) (s : State) : State :=
  refreshCamera (camDie p) ((routesOf s 2).foldl (goesDark s p v) (wrB (STREAM_STATUS (camDie p) (camNo p) v) STREAM_STATUS_LOST true s))

theorem camNo_lt (p : Nat) : camNo p < 4 := Nat.mod_lt _ (by decide)

theorem loseStream_lost {p v cause : Nat} {s : State} (h : s.flag (STREAM_STATUS (camDie p) (camNo p) v) STREAM_STATUS_LOST = true) : loseStream p v cause s = s := by
  unfold loseStream
  exact if_pos h

theorem loseStream_shown {p v cause : Nat} {s : State} (h : s.flag (STREAM_STATUS (camDie p) (camNo p) v) STREAM_STATUS_LOST = false) :
    loseStream p v cause s = postStream p v 0x0401 (v + cause * 2 ^ 8) (streamGone p v s) := by
  unfold loseStream
  dsimp only
  rw [if_neg (fun hc => Bool.false_ne_true (h.symm.trans hc))]
  rfl

theorem streamGone_rule {p v : Nat} (hv : v < 4) (s : State) :
    streamGone p v s = { s with regs := (streamGone p v s).regs, heads := (streamGone p v s).heads } ∧ (streamGone p v s).flag (STREAM_STATUS (camDie p) (camNo p) v) STREAM_STATUS_LOST = true
      ∧ (∀ h, (streamGone p v s).head h = (((routesOf s 2).foldl (goesDark s p v) (wrB (STREAM_STATUS (camDie p) (camNo p) v) STREAM_STATUS_LOST true s))).head h)
      ∧ ∀ a, a ≠ STREAM_STATUS (camDie p) (camNo p) v → a ∉ cameraRegs (camDie p) → (streamGone p v s).rd a = s.rd a := by
  obtain ⟨w, hw⟩ : ∃ w, w = wrB (STREAM_STATUS (camDie p) (camNo p) v) STREAM_STATUS_LOST true s := ⟨_, rfl⟩
  obtain ⟨u, hu⟩ : ∃ u, u = (routesOf s 2).foldl (goesDark s p v) w := ⟨_, rfl⟩
  have hwr : RegsOnly s w := hw ▸ regsOnly_wr _ _ _
  have hur : Only (fun u => { u with heads := [] }) w u := hu ▸ foldl_goesDark_heads _ _ _ _ _
  have hrd : ∀ a, u.rd a = w.rd a := fun a => rd_congr (congrArg State.regs hur :) (congrArg State.part hur :) a
  obtain ⟨tr, trd⟩ := refreshCamera_touches (camDie p) u
  have hgone : streamGone p v s = refreshCamera (camDie p) u := by rw [streamGone, ← hw, ← hu]
  rw [hgone, ← hw, ← hu]
  refine ⟨?_, ?_, fun h => tr.head h, fun a ha hl => ?_⟩
  · have h1 : Only (fun u => { u with regs := [], heads := [] }) s (refreshCamera (camDie p) u) :=
      (Only.of_regsOnly hwr).trans (hur.mono.trans (Only.of_regsOnly tr))
    exact h1.regsHeadsKept
  · rw [flag_of_rd (trd _ (streamStatus_notin _ (camNo_lt p) hv)), flag_of_rd (hrd _), hw]
    exact flag_wrB_same _ _ _ _ (by decide) (by decide)
  · rw [trd a hl, hrd, hw]
    exact rd_wrB_ne ha _ _ _

theorem loseStream_rule {p v : Nat} (hv : v < 4) (cause : Nat) (s : State) (h : s.flag (STREAM_STATUS (camDie p) (camNo p) v) STREAM_STATUS_LOST = false) :
    ∃ u, (u = { s with regs := u.regs, heads := u.heads } ∧ u.flag (STREAM_STATUS (camDie p) (camNo p) v) STREAM_STATUS_LOST = true
        ∧ (∀ h l, (∀ x ∈ routesOf s 2, ¬ (epType x.2.sink = 0x01 ∧ layerStream s x.2 = some (p, v) ∧ epUnit x.2.sink = h ∧ epSub x.2.sink = l)) → (u.head h).layer l = (s.head h).layer l)
        ∧ (∀ x ∈ routesOf s 2, epType x.2.sink = 0x01 → layerStream s x.2 = some (p, v) → ((u.head (epUnit x.2.sink)).layer (epSub x.2.sink)).camOn = false)
        ∧ ∀ a, a ≠ STREAM_STATUS (camDie p) (camNo p) v → a ≠ CAM_LINESTORE (camDie p) → a ≠ WARP_STATUS (camDie p) → a ≠ WARP_STORE (camDie p) → u.rd a = s.rd a)
      ∧ loseStream p v cause s = postStream p v 0x0401 (v + cause * 2 ^ 8) u := by
  obtain ⟨h1, h2, h3, h4⟩ := streamGone_rule (p := p) hv s
  refine ⟨streamGone p v s, ⟨h1, h2, fun g l hx => ?_, fun x hm ht hs => ?_, fun a ha hb hc hd => h4 a ha ?_⟩, loseStream_shown h⟩
  · rw [h3]
    exact (foldl_goesDark_other (fun x hm hc => hx x hm ⟨hc.1.1, hc.1.2, hc.2⟩) _).trans (congrArg (fun y : Head => y.layer l) ((regsOnly_wr _ _ _).head g))
  · rw [h3]
    exact foldl_goesDark_shown hm ⟨ht, hs⟩ _
  · simp only [cameraRegs, List.mem_cons, List.not_mem_nil, or_false, not_or]
    exact ⟨hb, hc, hd⟩

/-! ## The lane status (R219) -/

/-- The lane status of an enabled port. -/
def lanesShown (a : Nat) (clk : Bool) (hs ulps : Nat) (deskew : Bool) (s : State) : State :=
  (if deskew then wrB a CAM_PORT_STATUS_DESKEW_DONE true else id)
    (wrF a CAM_PORT_STATUS_LANE_ULPS ulps (wrF a CAM_PORT_STATUS_LANE_HS hs (wrB a CAM_PORT_STATUS_CLK_ACTIVE clk s)))

theorem laneState_enabled {p : Nat} {clk : Bool} {hs ulps : Nat} {deskew : Bool} {s : State} (hp : p < 8) (he : s.flag (CAM_PORT_CFG (camDie p) (camNo p)) CAM_PORT_CFG_EN = true) :
    laneState p clk hs ulps deskew s = lanesShown (CAM_PORT_STATUS (camDie p) (camNo p)) clk hs ulps deskew s := by
  unfold laneState
  dsimp only
  rw [if_neg (fun hc => hc.elim (fun hc => by omega) fun hc => Bool.false_ne_true (hc.symm.trans he))]
  rfl

theorem lanesShown_rule (a : Nat) (clk : Bool) {hs ulps : Nat} (deskew : Bool) (s : State) (h1 : hs < 16) (h2 : ulps < 16) :
    Touches [a] s (lanesShown a clk hs ulps deskew s) ∧ (lanesShown a clk hs ulps deskew s).flag a CAM_PORT_STATUS_CLK_ACTIVE = clk
      ∧ (lanesShown a clk hs ulps deskew s).rdF a CAM_PORT_STATUS_LANE_HS = hs ∧ (lanesShown a clk hs ulps deskew s).rdF a CAM_PORT_STATUS_LANE_ULPS = ulps
      ∧ (lanesShown a clk hs ulps deskew s).flag a CAM_PORT_STATUS_DESKEW_DONE = (deskew || s.flag a CAM_PORT_STATUS_DESKEW_DONE) := by
  obtain ⟨u, hu⟩ : ∃ u, u = wrF a CAM_PORT_STATUS_LANE_ULPS ulps (wrF a CAM_PORT_STATUS_LANE_HS hs (wrB a CAM_PORT_STATUS_CLK_ACTIVE clk s)) := ⟨_, rfl⟩
  have ht : Touches [a] s u := hu ▸ ((Touches.rfl.wrB _ _).wrF _ _).wrF _ _
  have hclk : u.flag a CAM_PORT_STATUS_CLK_ACTIVE = clk := by
    rw [hu, flag_wrF_other _ _ _ _ _ (by decide) (by decide), flag_wrF_other _ _ _ _ _ (by decide) (by decide)]
    exact flag_wrB_same _ _ _ _ (by decide) (by decide)
  have hhs : u.rdF a CAM_PORT_STATUS_LANE_HS = hs := by
    rw [hu, rdF_wrF_other _ _ _ _ _ (by decide) (by decide)]
    exact rdF_wrF_of_lt (by decide) h1
  have hulps : u.rdF a CAM_PORT_STATUS_LANE_ULPS = ulps := by
    rw [hu]
    exact rdF_wrF_of_lt (by decide) h2
  have hdesk : u.flag a CAM_PORT_STATUS_DESKEW_DONE = s.flag a CAM_PORT_STATUS_DESKEW_DONE := by
    rw [hu, flag_wrF_other _ _ _ _ _ (by decide) (by decide), flag_wrF_other _ _ _ _ _ (by decide) (by decide), flag_wrB_other _ _ _ _ _ (by decide) (by decide)]
  rw [lanesShown, ← hu]
  cases deskew with
  | false => exact ⟨ht, hclk, hhs, hulps, hdesk⟩
  | true =>
    refine ⟨ht.wrB _ _, (flag_wrB_other _ _ _ _ _ (by decide) (by decide)).trans hclk, (rdF_wrB_other _ _ _ _ _ (by decide) (by decide)).trans hhs,
      (rdF_wrB_other _ _ _ _ _ (by decide) (by decide)).trans hulps, flag_wrB_same _ _ _ _ (by decide) (by decide)⟩

theorem camLaneState_rule {p : Nat} {s : State} (hp : p < 8) (he : s.flag (CAM_PORT_CFG (camDie p) (camNo p)) CAM_PORT_CFG_EN = true)
    (clk : Bool) {hs ulps : Nat} (deskew : Bool) (h1 : hs < 16) (h2 : ulps < 16) :
    ∃ t, exec (.camLaneState p clk hs ulps deskew) s = .next t ∧ t = { s with regs := t.regs, out := [] }
      ∧ t.flag (CAM_PORT_STATUS (camDie p) (camNo p)) CAM_PORT_STATUS_CLK_ACTIVE = clk ∧ t.rdF (CAM_PORT_STATUS (camDie p) (camNo p)) CAM_PORT_STATUS_LANE_HS = hs
      ∧ t.rdF (CAM_PORT_STATUS (camDie p) (camNo p)) CAM_PORT_STATUS_LANE_ULPS = ulps
      ∧ t.flag (CAM_PORT_STATUS (camDie p) (camNo p)) CAM_PORT_STATUS_DESKEW_DONE = (deskew || s.flag (CAM_PORT_STATUS (camDie p) (camNo p)) CAM_PORT_STATUS_DESKEW_DONE)
      ∧ ∀ a, a ≠ CAM_PORT_STATUS (camDie p) (camNo p) → t.rd a = s.rd a := by
  have hgo := laneState_enabled (clk := clk) (hs := hs) (ulps := ulps) (deskew := deskew) (s := fresh s) hp ((flag_fresh _ _ _).trans he)
  obtain ⟨⟨t1, t2⟩, k1, k2, k3, k4⟩ := lanesShown_rule (CAM_PORT_STATUS (camDie p) (camNo p)) clk deskew (fresh s) h1 h2
  exact ⟨_, congrArg Host.Outcome.next (ran_regsOnly t1 hgo), t1.fresh, k1, k2, k3, k4.trans (congrArg (deskew || ·) (flag_fresh _ _ _)),
    fun a ha => (t2 a (by rw [List.mem_singleton]; exact ha)).trans (rd_fresh _ _)⟩

/-! ## Clearing the error counters (R239) -/

/-- The error counters of a stream are cleared. -/
def streamCleared (d : Die) (n : Nat) (s : State) (v : Nat) : State := wr (STREAM_ERR1 d n v) 0 (wr (STREAM_ERR0 d n v) 0 s)

/-- The error counters of a port and its streams are cleared. -/
def countsCleared (d : Die) (n : Nat) (s : State) : State :=
  (upto 4).foldl (streamCleared d n) (wr (CAM_PORT_ERR2 d n) 0 (wr (CAM_PORT_ERR1 d n) 0 (wr (CAM_PORT_ERR0 d n) 0 s)))

theorem portClear_zero {f : Fun} {n : Nat} {v : Word} {s : State} (h : CAM_PORT_CLR_CLEAR.get v = 0) : portClear f n v s = s := by
  unfold portClear
  exact if_pos (.inr (.inr h))

theorem portClear_one {f : Fun} {n : Nat} {v : Word} {s : State} (hn : n < 4) (hrow : (accessRow s f (addrOff (CAM_PORT_CLR f.ep n))).isSome = true) (h : CAM_PORT_CLR_CLEAR.get v = 1) :
    portClear f n v s = countsCleared f.ep n s := by
  unfold portClear
  dsimp only
  rw [if_neg (fun hc => hc.elim (fun hc => by omega) fun hc => hc.elim (isNone_false_of_isSome hrow) fun hc => by omega)]
  rfl

/-- A register that is clear stays so while others are cleared. -/
theorem rd_wr_zero {a b : Nat} {s : State} (h : a = b ∨ s.rd a = 0) : (wr b 0 s).rd a = 0 := by
  by_cases hab : a = b
  · rw [hab]
    exact rd_wr_same _ _ _
  · exact (rd_wr_ne hab _ _).trans (h.resolve_left hab)

theorem foldl_streamCleared_zero {d : Die} {n a : Nat} {xs : List Nat} {s : State} (h : (∃ v ∈ xs, a = STREAM_ERR0 d n v ∨ a = STREAM_ERR1 d n v) ∨ s.rd a = 0) :
    (xs.foldl (streamCleared d n) s).rd a = 0 := by
  induction xs generalizing s with
  | nil =>
    rcases h with ⟨v, hv, -⟩ | h
    · exact absurd hv List.not_mem_nil
    · exact h
  | cons x xs ih =>
    refine ih ?_
    rcases h with ⟨v, hv, ha⟩ | h
    · rcases List.mem_cons.1 hv with rfl | hv
      · rcases ha with ha | ha
        · exact .inr (rd_wr_zero (.inr (rd_wr_zero (.inl ha))))
        · exact .inr (rd_wr_zero (.inl ha))
      · exact .inl ⟨v, hv, ha⟩
    · exact .inr (rd_wr_zero (.inr (rd_wr_zero (.inr h))))

theorem foldl_streamCleared_other {d : Die} {n a : Nat} {xs : List Nat} (h : ∀ v ∈ xs, a ≠ STREAM_ERR0 d n v ∧ a ≠ STREAM_ERR1 d n v) (s : State) :
    (xs.foldl (streamCleared d n) s).rd a = s.rd a := by
  induction xs generalizing s with
  | nil => rfl
  | cons x xs ih =>
    obtain ⟨h0, h1⟩ := h x List.mem_cons_self
    exact (ih (fun v hv => h v (List.mem_cons_of_mem _ hv)) _).trans ((rd_wr_ne h1 _ _).trans (rd_wr_ne h0 _ _))

theorem foldl_regsOnly {α : Type} {g : State → α → State} (hg : ∀ t x, RegsOnly t (g t x)) (xs : List α) (s : State) : RegsOnly s (xs.foldl g s) := by
  induction xs generalizing s with
  | nil => exact RegsOnly.rfl
  | cons x xs ih => exact (hg s x).trans (ih _)

theorem streamCleared_regs (d : Die) (n : Nat) (s : State) (v : Nat) : RegsOnly s (streamCleared d n s v) := (regsOnly_wr _ _ _).trans (regsOnly_wr _ _ _)

theorem countsCleared_rule (d : Die) (n : Nat) (s : State) : RegsOnly s (countsCleared d n s)
    ∧ (countsCleared d n s).rd (CAM_PORT_ERR0 d n) = 0 ∧ (countsCleared d n s).rd (CAM_PORT_ERR1 d n) = 0 ∧ (countsCleared d n s).rd (CAM_PORT_ERR2 d n) = 0
    ∧ (∀ w, w < 4 → (countsCleared d n s).rd (STREAM_ERR0 d n w) = 0 ∧ (countsCleared d n s).rd (STREAM_ERR1 d n w) = 0)
    ∧ ∀ a, a ≠ CAM_PORT_ERR0 d n → a ≠ CAM_PORT_ERR1 d n → a ≠ CAM_PORT_ERR2 d n → (∀ w, w < 4 → a ≠ STREAM_ERR0 d n w ∧ a ≠ STREAM_ERR1 d n w) → (countsCleared d n s).rd a = s.rd a := by
  refine ⟨(((regsOnly_wr _ _ _).trans (regsOnly_wr _ _ _)).trans (regsOnly_wr _ _ _)).trans (foldl_regsOnly (streamCleared_regs d n) _ _),
    foldl_streamCleared_zero (.inr (rd_wr_zero (.inr (rd_wr_zero (.inr (rd_wr_zero (.inl rfl))))))), foldl_streamCleared_zero (.inr (rd_wr_zero (.inr (rd_wr_zero (.inl rfl))))),
    foldl_streamCleared_zero (.inr (rd_wr_zero (.inl rfl))),
    fun w hw => ⟨foldl_streamCleared_zero (.inl ⟨w, mem_upto hw, .inl rfl⟩), foldl_streamCleared_zero (.inl ⟨w, mem_upto hw, .inr rfl⟩)⟩, fun a h0 h1 h2 h => ?_⟩
  have k := foldl_streamCleared_other (d := d) (n := n) (a := a) (xs := upto 4) (fun v hv => h v (List.mem_range.1 hv)) (wr (CAM_PORT_ERR2 d n) 0 (wr (CAM_PORT_ERR1 d n) 0 (wr (CAM_PORT_ERR0 d n) 0 s)))
  rw [countsCleared, k, rd_wr_ne h2, rd_wr_ne h1, rd_wr_ne h0]

/-! ## The statement -/

/-- Settles O42: a stream is lost once, the lane status follows the lanes, and CAM_PORT_CLR clears the counters. -/
theorem cameraLossAndStatus : Obligations.CameraLossAndStatus := by
  refine ⟨fun p v cause s hp hv => ⟨loseStream_lost, loseStream_rule hv cause s⟩, fun p s hp he => ⟨fun v hv => ?_, ?_, fun clk hs ulps deskew => camLaneState_rule hp he clk deskew⟩,
    fun f n v s hn hrow => ⟨fun h => ?_, fun h => ?_⟩⟩
  · refine congrArg Host.Outcome.next (ran_congr (if_neg ?_))
    rw [flag_fresh, he]
    exact fun hc => hc.elim (fun hc => by omega) fun hc => hc.elim (fun hc => by omega) fun hc => Bool.false_ne_true hc.symm
  · refine congrArg Host.Outcome.next (ran_congr (if_neg ?_))
    rw [flag_fresh, he]
    exact fun hc => hc.elim (fun hc => by omega) fun hc => Bool.false_ne_true hc.symm
  · exact congrArg Host.Outcome.next (ran_same (portClear_zero h))
  · have hgo := portClear_one (s := fresh s) hn ((congrArg Option.isSome (accessRow_fresh _ _ _)).trans hrow) h
    obtain ⟨k0, k1, k2, k3, k4, k5⟩ := countsCleared_rule f.ep n (fresh s)
    exact ⟨_, congrArg Host.Outcome.next (ran_regsOnly k0 hgo), k0.fresh, k1, k2, k3, k4, fun a h0 h1 h2 h => (k5 a h0 h1 h2 h).trans (rd_fresh _ _)⟩

end Sys2Proof.Machine
end

section
/-! Ebrum lanes and bundles: replays, remaps, a bundle that goes down or comes back, and the spreading of requests (O56; R442, R444 to R449). -/
namespace Sys2Proof.Machine

/-! ## The registers of the link -/

theorem bundle_ne {d e : Die} {n m : Nat} (hn : n < 4) (hm : m < 4) (h : ¬(d = e ∧ n = m)) : EBRUM_BUNDLE d n ≠ EBRUM_BUNDLE e m := by
  unfold EBRUM_BUNDLE dieSpace
  cases d <;> cases e <;> simp only [Die.idx, reduceCtorEq, true_and, false_and, not_false_eq_true] at h ⊢ <;> omega

theorem bundle_ne_status (d e : Die) {n : Nat} (hn : n < 4) : EBRUM_BUNDLE d n ≠ EBRUM_STATUS e := by
  unfold EBRUM_BUNDLE EBRUM_STATUS dieSpace
  cases d <;> cases e <;> simp only [Die.idx] <;> omega

theorem bundle_ne_counts (d e : Die) {n : Nat} (hn : n < 4) : EBRUM_BUNDLE d n ≠ EBRUM_COUNTS0 e := by
  unfold EBRUM_BUNDLE EBRUM_COUNTS0 dieSpace
  cases d <;> cases e <;> simp only [Die.idx] <;> omega

theorem ebrumStatus_ne {d e : Die} (h : d ≠ e) : EBRUM_STATUS d ≠ EBRUM_STATUS e := by
  unfold EBRUM_STATUS dieSpace
  cases d <;> cases e <;> simp only [Die.idx, ne_eq, not_true_eq_false] at h ⊢ <;> omega

theorem ebrumCounts_ne {d e : Die} (h : d ≠ e) : EBRUM_COUNTS0 d ≠ EBRUM_COUNTS0 e := by
  unfold EBRUM_COUNTS0 dieSpace
  cases d <;> cases e <;> simp only [Die.idx, ne_eq, not_true_eq_false] at h ⊢ <;> omega

theorem ebrumCounts_ne_status (d e : Die) : EBRUM_COUNTS0 d ≠ EBRUM_STATUS e := by
  unfold EBRUM_COUNTS0 EBRUM_STATUS dieSpace
  cases d <;> cases e <;> simp only [Die.idx] <;> omega

theorem ebrum_fresh (s : State) (d : Die) : (fresh s).ebrum d = s.ebrum d := rfl
theorem ebrum_setEbrum_same (d : Die) (x : Ebrum) (s : State) : (setEbrum d x s).ebrum d = x := tget_tset_same _ _ _ _
theorem ebrum_setEbrum_ne {d e : Die} (h : e ≠ d) (x : Ebrum) (s : State) : (setEbrum d x s).ebrum e = s.ebrum e :=
  tget_tset_ne _ (idx_ne_of_ne h) _ _
theorem rd_setEbrum (d : Die) (x : Ebrum) (s : State) (a : Nat) : (setEbrum d x s).rd a = s.rd a := rd_congr rfl rfl a

theorem Only.setEbrum {m : State → State} {s t : State} (h : Only m s t) (d : Die) (x : Ebrum)
    (hm : ∀ u r, m { u with ebrums := r } = m u := by intros; rfl) : Only m s (setEbrum d x t) := (hm _ _).trans h
theorem Only.regsEbrums {s t : State} (h : Only (fun u => { u with regs := [], ebrums := [] }) (fresh s) t) : t = { s with regs := t.regs, ebrums := t.ebrums, out := [] } :=
  congrArg (fun u => { u with regs := t.regs, ebrums := t.ebrums }) h
theorem Only.regsEbrumsKept {s t : State} (h : Only (fun u => { u with regs := [], ebrums := [] }) s t) : t = { s with regs := t.regs, ebrums := t.ebrums } :=
  congrArg (fun u => { u with regs := t.regs, ebrums := t.ebrums }) h
theorem Only.regsEbrumsRinlar {s t : State} (h : Only (fun u => { u with regs := [], ebrums := [], rinlar := [] }) (fresh s) t) :
    t = { s with regs := t.regs, ebrums := t.ebrums, rinlar := t.rinlar, out := [] } :=
  congrArg (fun u => { u with regs := t.regs, ebrums := t.ebrums, rinlar := t.rinlar }) h

theorem bundleState_of_rd {s t : State} {n : Nat} (h : t.rd (EBRUM_BUNDLE .a n) = s.rd (EBRUM_BUNDLE .a n)) : bundleState t n = bundleState s n := rdF_of_rd h _

theorem liveBundles_congr {s t : State} (h : ∀ n, n < 4 → t.rd (EBRUM_BUNDLE .a n) = s.rd (EBRUM_BUNDLE .a n)) : liveBundles t = liveBundles s :=
  List.filter_congr fun n hn => by rw [bundleState_of_rd (h n (List.mem_range.1 hn))]

/-! ## The state of a bundle (R442) -/

/-- The state of a bundle as one die sees it. -/
def bundleSeen (n k : Nat) (t : State) (d : Die) : State :=
  wrF (EBRUM_STATUS d) EBRUM_STATUS_BUNDLES_UP (setBit (t.rdF (EBRUM_STATUS d) EBRUM_STATUS_BUNDLES_UP) n (k == 0)) (wrF (EBRUM_BUNDLE d n) EBRUM_BUNDLE_STATE k t)

/-- The state of a bundle as both dies see it. -/
def bundlesSeen (n k : Nat) (s : State) : State := bundleSeen n k (bundleSeen n k s .a) .b

theorem bundleSeen_touches (n k : Nat) (t : State) (d : Die) : Touches [EBRUM_BUNDLE d n, EBRUM_STATUS d] t (bundleSeen n k t d) := (Touches.rfl.wrF _ _).wrF _ _

theorem bundleSeen_state {n : Nat} (hn : n < 4) (k : Nat) (t : State) (d : Die) : (bundleSeen n k t d).rdF (EBRUM_BUNDLE d n) EBRUM_BUNDLE_STATE = k % 4
    ∧ nbit ((bundleSeen n k t d).rdF (EBRUM_STATUS d) EBRUM_STATUS_BUNDLES_UP) n = (k == 0)
    ∧ ∀ f : Fld, f.lo + f.len ≤ 30 → (bundleSeen n k t d).rdF (EBRUM_BUNDLE d n) f = t.rdF (EBRUM_BUNDLE d n) f := by
  have hne := bundle_ne_status d d hn
  refine ⟨?_, ?_, fun f hf => ?_⟩
  · rw [bundleSeen, rdF_wrF_ne hne]
    exact rdF_wrF_same _ _ _ _ (by decide)
  · rw [bundleSeen, rdF_wrF_of_lt (by decide) (setBit_lt _ (rdF_lt _ _ _) hn)]
    exact nbit_setBit _ _ _
  · rw [bundleSeen, rdF_wrF_ne hne]
    exact rdF_wrF_other _ _ _ _ _ (by decide) (.inl hf)

theorem bundlesSeen_rule {n : Nat} (hn : n < 4) (k : Nat) (s : State) : RegsOnly s (bundlesSeen n k s)
    ∧ (∀ e, (bundlesSeen n k s).rdF (EBRUM_BUNDLE e n) EBRUM_BUNDLE_STATE = k % 4 ∧ nbit ((bundlesSeen n k s).rdF (EBRUM_STATUS e) EBRUM_STATUS_BUNDLES_UP) n = (k == 0)
      ∧ ∀ f : Fld, f.lo + f.len ≤ 30 → (bundlesSeen n k s).rdF (EBRUM_BUNDLE e n) f = s.rdF (EBRUM_BUNDLE e n) f)
    ∧ ∀ a, (∀ e, a ≠ EBRUM_BUNDLE e n ∧ a ≠ EBRUM_STATUS e) → (bundlesSeen n k s).rd a = s.rd a := by
  obtain ⟨a1, a2⟩ := bundleSeen_touches n k s .a
  obtain ⟨b1, b2⟩ := bundleSeen_touches n k (bundleSeen n k s .a) .b
  have hab : EBRUM_BUNDLE .a n ∉ [EBRUM_BUNDLE .b n, EBRUM_STATUS .b] := by
    simp only [List.mem_cons, List.not_mem_nil, or_false, not_or]
    exact ⟨bundle_ne hn hn (fun hc => Die.noConfusion hc.1), bundle_ne_status _ _ hn⟩
  have hba : EBRUM_BUNDLE .b n ∉ [EBRUM_BUNDLE .a n, EBRUM_STATUS .a] := by
    simp only [List.mem_cons, List.not_mem_nil, or_false, not_or]
    exact ⟨bundle_ne hn hn (fun hc => Die.noConfusion hc.1), bundle_ne_status _ _ hn⟩
  have hst : EBRUM_STATUS .a ∉ [EBRUM_BUNDLE .b n, EBRUM_STATUS .b] := by
    simp only [List.mem_cons, List.not_mem_nil, or_false, not_or]
    exact ⟨(bundle_ne_status _ _ hn).symm, ebrumStatus_ne (fun hc => Die.noConfusion hc)⟩
  obtain ⟨s1, s2, s3⟩ := bundleSeen_state hn k s .a
  obtain ⟨t1, t2, t3⟩ := bundleSeen_state hn k (bundleSeen n k s .a) .b
  refine ⟨a1.trans b1, fun e => ?_, fun a ha => ?_⟩
  · cases e with
    | a => exact ⟨(rdF_of_rd (b2 _ hab) _).trans s1, (congrArg (nbit · n) (rdF_of_rd (b2 _ hst) _)).trans s2, fun f hf => (rdF_of_rd (b2 _ hab) _).trans (s3 f hf)⟩
    | b => exact ⟨t1, t2, fun f hf => (t3 f hf).trans (rdF_of_rd (a2 _ hba) _)⟩
  · refine (b2 a ?_).trans (a2 a ?_)
    all_goals
      simp only [List.mem_cons, List.not_mem_nil, or_false, not_or]
      exact ha _

theorem noteSet_only (before : List Nat) (s : State) : Only (fun u => { u with ebrums := [] }) s (noteSet before s) := by
  unfold noteSet
  split
  · rfl
  · rfl

theorem setBundle_eq (n k : Nat) (s : State) : setBundle n k s = noteSet (liveBundles s) (bundlesSeen n k s) := rfl

theorem setBundle_rd (n k : Nat) (s : State) (a : Nat) : (setBundle n k s).rd a = (bundlesSeen n k s).rd a := by
  rw [setBundle_eq]
  exact (noteSet_only _ _).rd_eq a

theorem setBundle_only {n : Nat} (hn : n < 4) (k : Nat) (s : State) : Only (fun u => { u with regs := [], ebrums := [] }) s (setBundle n k s) := by
  obtain ⟨h, -⟩ := bundlesSeen_rule hn k s
  rw [setBundle_eq]
  exact (Only.of_regsOnly h).trans (noteSet_only _ _).mono

theorem setBundle_rule {n : Nat} (hn : n < 4) (k : Nat) (s : State) :
    (∀ e, (setBundle n k s).rdF (EBRUM_BUNDLE e n) EBRUM_BUNDLE_STATE = k % 4 ∧ nbit ((setBundle n k s).rdF (EBRUM_STATUS e) EBRUM_STATUS_BUNDLES_UP) n = (k == 0)
      ∧ ∀ f : Fld, f.lo + f.len ≤ 30 → (setBundle n k s).rdF (EBRUM_BUNDLE e n) f = s.rdF (EBRUM_BUNDLE e n) f)
    ∧ ∀ a, (∀ e, a ≠ EBRUM_BUNDLE e n ∧ a ≠ EBRUM_STATUS e) → (setBundle n k s).rd a = s.rd a := by
  obtain ⟨-, h2, h3⟩ := bundlesSeen_rule hn k s
  refine ⟨fun e => ?_, fun a ha => (setBundle_rd _ _ _ _).trans (h3 a ha)⟩
  obtain ⟨k1, k2, k3⟩ := h2 e
  exact ⟨(rdF_of_rd (setBundle_rd _ _ _ _) _).trans k1, (congrArg (nbit · n) (rdF_of_rd (setBundle_rd _ _ _ _) _)).trans k2,
    fun f hf => (rdF_of_rd (setBundle_rd _ _ _ _) _).trans (k3 f hf)⟩

theorem setBundle_other {n m : Nat} (hn : n < 4) (hm : m < 4) (hne : m ≠ n) (k : Nat) (s : State) : bundleState (setBundle n k s) m = bundleState s m := by
  obtain ⟨-, h⟩ := setBundle_rule hn k s
  exact bundleState_of_rd (h _ fun e => ⟨bundle_ne hm hn (fun hc => hne hc.2), bundle_ne_status _ _ hm⟩)

theorem liveBundles_setBundle (n k : Nat) (s : State) : liveBundles (setBundle n k s) = liveBundles (bundlesSeen n k s) := liveBundles_congr fun _ _ => setBundle_rd _ _ _ _

theorem setBundle_sameSet {n : Nat} (hn : n < 4) {k : Nat} {s : State} (h : liveBundles (setBundle n k s) = liveBundles s) : (setBundle n k s).ebrums = s.ebrums := by
  obtain ⟨hr, -⟩ := bundlesSeen_rule hn k s
  rw [liveBundles_setBundle] at h
  rw [setBundle_eq, noteSet, if_pos h]
  exact (congrArg State.ebrums hr.eq :)

/-- A die notes the set of bundles that carries traffic from now. -/
def setNoted (t : State) (d : Die) : State := setEbrum d { t.ebrum d with sets := (t.now d, liveBundles t) :: (t.ebrum d).sets } t

theorem setNoted_same (t : State) (d : Die) : (setNoted t d).ebrum d = { t.ebrum d with sets := (t.now d, liveBundles t) :: (t.ebrum d).sets } := ebrum_setEbrum_same _ _ _
theorem setNoted_ne {d e : Die} (h : e ≠ d) (t : State) : (setNoted t d).ebrum e = t.ebrum e := ebrum_setEbrum_ne h _ _
theorem setNoted_live (t : State) (d : Die) : liveBundles (setNoted t d) = liveBundles t := liveBundles_congr fun _ _ => rd_setEbrum _ _ _ _

theorem setBundle_newSet {n : Nat} (hn : n < 4) {k : Nat} {s : State} (h : liveBundles (setBundle n k s) ≠ liveBundles s) (e : Die) :
    (setBundle n k s).ebrum e = { s.ebrum e with sets := (s.now e, liveBundles (setBundle n k s)) :: (s.ebrum e).sets } := by
  obtain ⟨hr, -⟩ := bundlesSeen_rule hn k s
  rw [liveBundles_setBundle] at h ⊢
  obtain ⟨u, hu⟩ : ∃ u, u = bundlesSeen n k s := ⟨_, rfl⟩
  rw [← hu] at h hr ⊢
  have hnow : u.now e = s.now e := congrArg (fun t => t.now e) hr.eq
  have heb : u.ebrum e = s.ebrum e := congrArg (tget Ebrum.empty e.idx) (congrArg State.ebrums hr.eq :)
  have hset : setBundle n k s = setNoted (setNoted u .a) .b := by
    rw [setBundle_eq, ← hu, noteSet, if_neg h]
    rfl
  rw [hset, ← hnow, ← heb]
  cases e with
  | a => rw [setNoted_ne (fun hc => Die.noConfusion hc), setNoted_same]
  | b =>
    rw [setNoted_same, setNoted_ne (fun hc => Die.noConfusion hc), setNoted_live]
    rfl

/-! ## A failing lane (R445) -/

theorem spareField_below (d : Die) : (spareField d).lo + (spareField d).len ≤ 30 := by
  unfold spareField
  split <;> decide

theorem spareField_above (d : Die) : 14 ≤ (spareField d).lo := by
  unfold spareField
  split <;> decide

/-- The lane that failed last is shown. -/
def failShown (d : Die) (n l : Nat) (s : State) : State := wrF (EBRUM_BUNDLE d n) EBRUM_BUNDLE_LAST_FAIL l s

theorem failShown_rule (d : Die) {n l : Nat} (hl : l < 34) (s : State) : Touches [EBRUM_BUNDLE d n] s (failShown d n l s)
    ∧ (failShown d n l s).rdF (EBRUM_BUNDLE d n) EBRUM_BUNDLE_LAST_FAIL = l
    ∧ ∀ e, ∀ f : Fld, 14 ≤ f.lo → (failShown d n l s).rdF (EBRUM_BUNDLE e n) f = s.rdF (EBRUM_BUNDLE e n) f := by
  refine ⟨Touches.rfl.wrF _ _, rdF_wrF_of_lt (by decide) (Nat.lt_trans hl (by decide)), fun e f hf => ?_⟩
  by_cases he : EBRUM_BUNDLE e n = EBRUM_BUNDLE d n
  · rw [he]
    exact rdF_wrF_other _ _ _ _ _ (by decide) (.inr hf)
  · exact rdF_wrF_ne he _ _ _ _

/-- A failing lane joins the queue of its bundle's remaps. -/
def remapQueued (d : Die) (n l : Nat) (x : Ebrum) (s : State) : State := setEbrum .a { x with remaps := tset n (tget [] n x.remaps ++ [(d, l)]) x.remaps } s

theorem remapQueued_remaps (d : Die) (n l : Nat) (x : Ebrum) (s : State) : tget [] n ((remapQueued d n l x s).ebrum .a).remaps = tget [] n x.remaps ++ [(d, l)] := by
  rw [remapQueued, ebrum_setEbrum_same]
  exact tget_tset_same _ _ _ _

theorem remapQueued_rd (d : Die) (n l : Nat) (x : Ebrum) (s : State) (a : Nat) : (remapQueued d n l x s).rd a = s.rd a := rd_setEbrum _ _ _ _

theorem laneFail_cases {d : Die} {n l : Nat} {s : State} (hn : n < 4) (hl : l < 34) : laneFail d n l s =
    if bundleState s n = 0 then beginRemap d n l (failShown d n l s)
    else if bundleState s n = 1 then remapQueued d n l ((failShown d n l s).ebrum .a) (failShown d n l s)
    else if bundleState s n = 3 ∧ inRetrain s n = false ∧ 2 ≤ s.rdF (EBRUM_BUNDLE d n) (spareField d) then bundleDown d n l (failShown d n l s)
    else s := by
  unfold laneFail
  dsimp only
  rw [if_neg (by omega)]
  rfl

theorem beginRemap_noSpare {d : Die} {n l : Nat} {s : State} (h : 2 ≤ s.rdF (EBRUM_BUNDLE d n) (spareField d)) : beginRemap d n l s = bundleDown d n l s := by
  unfold beginRemap
  exact if_pos h

theorem beginRemap_spare {d : Die} {n l : Nat} {s : State} (h : s.rdF (EBRUM_BUNDLE d n) (spareField d) < 2) : beginRemap d n l s = remapQueued d n l (s.ebrum .a) (setBundle n 1 s) := by
  unfold beginRemap
  rw [if_neg (by omega)]
  rfl

/-- What a bundle shows of itself, in a state that differs in no register of the link. -/
theorem bundleState_fresh (s : State) (n : Nat) : bundleState (fresh s) n = bundleState s n := rdF_fresh _ _ _
theorem inRetrain_fresh (s : State) (n : Nat) : inRetrain (fresh s) n = inRetrain s n := rfl

theorem failShown_spares (d : Die) (n : Nat) {l : Nat} (hl : l < 34) (s : State) : (failShown d n l (fresh s)).rdF (EBRUM_BUNDLE d n) (spareField d) = s.rdF (EBRUM_BUNDLE d n) (spareField d) := by
  obtain ⟨-, -, h⟩ := failShown_rule d (n := n) hl (fresh s)
  exact (h d _ (spareField_above d)).trans (rdF_fresh _ _ _)

section
variable {d : Die} {n l : Nat} {s : State} (hn : n < 4) (hl : l < 34)
include hn hl

theorem laneFail_left (h : bundleState s n = 2 ∨ bundleState s n = 3 ∧ (inRetrain s n = true ∨ s.rdF (EBRUM_BUNDLE d n) (spareField d) < 2)) :
    exec (.ebrumLaneFail d n l) s = .next (fresh s) := by
  refine congrArg Host.Outcome.next (ran_same ?_)
  rw [laneFail_cases hn hl, bundleState_fresh, inRetrain_fresh, rdF_fresh, if_neg (by omega), if_neg (by omega), if_neg]
  rintro ⟨h3, hr, h2⟩
  rcases h with h | ⟨-, h | h⟩
  · omega
  · exact Bool.false_ne_true (hr.symm.trans h)
  · omega

theorem laneFail_trains (h : bundleState s n = 3) (hr : inRetrain s n = false) (h2 : 2 ≤ s.rdF (EBRUM_BUNDLE d n) (spareField d)) :
    exec (.ebrumLaneFail d n l) s = .next (ran (fun u => bundleDown d n l (failShown d n l u)) s) := by
  refine congrArg Host.Outcome.next (ran_congr ?_)
  rw [laneFail_cases hn hl, bundleState_fresh, inRetrain_fresh, rdF_fresh, if_neg (by omega), if_neg (by omega), if_pos ⟨h, hr, h2⟩]

theorem laneFail_noSpare (h : bundleState s n = 0) (h2 : 2 ≤ s.rdF (EBRUM_BUNDLE d n) (spareField d)) :
    exec (.ebrumLaneFail d n l) s = .next (ran (fun u => bundleDown d n l (failShown d n l u)) s) := by
  refine congrArg Host.Outcome.next (ran_congr ?_)
  rw [laneFail_cases hn hl, bundleState_fresh, if_pos h, beginRemap_noSpare ((failShown_spares d n hl s).symm ▸ h2)]

theorem laneFail_spare (h : bundleState s n = 0) (h2 : s.rdF (EBRUM_BUNDLE d n) (spareField d) < 2) :
    ∃ t, exec (.ebrumLaneFail d n l) s = .next t ∧ t = { s with regs := t.regs, ebrums := t.ebrums, out := [] }
      ∧ bundleState t n = 1 ∧ t.rdF (EBRUM_BUNDLE d n) EBRUM_BUNDLE_LAST_FAIL = l ∧ tget [] n (t.ebrum .a).remaps = tget [] n (s.ebrum .a).remaps ++ [(d, l)]
      ∧ ∀ a, (∀ e, a ≠ EBRUM_BUNDLE e n ∧ a ≠ EBRUM_STATUS e) → t.rd a = s.rd a := by
  obtain ⟨⟨f1, f2⟩, f3, f4⟩ := failShown_rule d (n := n) hl (fresh s)
  have hgo : laneFail d n l (fresh s) = remapQueued d n l ((failShown d n l (fresh s)).ebrum .a) (setBundle n 1 (failShown d n l (fresh s))) := by
    rw [laneFail_cases hn hl, bundleState_fresh, if_pos h, beginRemap_spare ((failShown_spares d n hl s).symm ▸ h2)]
  obtain ⟨v, hv⟩ : ∃ v, v = failShown d n l (fresh s) := ⟨_, rfl⟩
  rw [← hv] at hgo f1 f2 f3
  have heb : v.ebrum .a = s.ebrum .a := congrArg (tget Ebrum.empty 0) (congrArg State.ebrums f1.eq :)
  obtain ⟨b1, b2⟩ := setBundle_rule hn 1 v
  obtain ⟨c1, -, -⟩ := b1 .a
  obtain ⟨-, -, c3⟩ := b1 d
  have hend : Only (fun u => { u with regs := [], ebrums := [] }) (fresh s) (remapQueued d n l (v.ebrum .a) (setBundle n 1 v)) :=
    ((Only.of_regsOnly f1).trans (setBundle_only hn 1 v)).setEbrum _ _
  refine ⟨_, congrArg Host.Outcome.next (hend.ran hgo), hend.regsEbrums, (bundleState_of_rd (remapQueued_rd _ _ _ _ _ _)).trans c1,
    (rdF_of_rd (remapQueued_rd _ _ _ _ _ _) _).trans ((c3 _ (by decide)).trans f3), (remapQueued_remaps _ _ _ _ _).trans (by rw [heb]), fun a ha => ?_⟩
  rw [remapQueued_rd, b2 a ha, f2 a (by rw [List.mem_singleton]; exact (ha d).1), rd_fresh]

theorem laneFail_remapping (h : bundleState s n = 1) :
    ∃ t, exec (.ebrumLaneFail d n l) s = .next t ∧ t = { s with regs := t.regs, ebrums := t.ebrums, out := [] }
      ∧ tget [] n (t.ebrum .a).remaps = tget [] n (s.ebrum .a).remaps ++ [(d, l)] ∧ bundleState t n = 1 ∧ t.rdF (EBRUM_BUNDLE d n) EBRUM_BUNDLE_LAST_FAIL = l
      ∧ ∀ a, a ≠ EBRUM_BUNDLE d n → t.rd a = s.rd a := by
  obtain ⟨⟨f1, f2⟩, f3, f4⟩ := failShown_rule d (n := n) hl (fresh s)
  have hgo : laneFail d n l (fresh s) = remapQueued d n l ((failShown d n l (fresh s)).ebrum .a) (failShown d n l (fresh s)) := by
    rw [laneFail_cases hn hl, bundleState_fresh, if_neg (by omega), if_pos h]
  obtain ⟨v, hv⟩ : ∃ v, v = failShown d n l (fresh s) := ⟨_, rfl⟩
  rw [← hv] at hgo f1 f2 f3 f4
  have heb : v.ebrum .a = s.ebrum .a := congrArg (tget Ebrum.empty 0) (congrArg State.ebrums f1.eq :)
  have hend : Only (fun u => { u with regs := [], ebrums := [] }) (fresh s) (remapQueued d n l (v.ebrum .a) v) := (Only.of_regsOnly f1).setEbrum _ _
  refine ⟨_, congrArg Host.Outcome.next (hend.ran hgo), hend.regsEbrums, (remapQueued_remaps _ _ _ _ _).trans (by rw [heb]),
    (bundleState_of_rd (remapQueued_rd _ _ _ _ _ _)).trans ((f4 .a _ (by decide)).trans ((rdF_fresh _ _ _).trans h)),
    (rdF_of_rd (remapQueued_rd _ _ _ _ _ _) _).trans f3, fun a ha => ?_⟩
  rw [remapQueued_rd, f2 a (by rw [List.mem_singleton]; exact ha), rd_fresh]

end

/-! ## A remap that is done (R445) -/

/-- A remap is counted, and its spare in use, as a die sees it. -/
def remapCounted (n : Nat) (f : Fld) (t : State) (e : Die) : State :=
  rinlarCount e 38 1 (satF (EBRUM_COUNTS0 e) EBRUM_COUNTS0_REMAPS 1 (wrF (EBRUM_BUNDLE e n) f (t.rdF (EBRUM_BUNDLE e n) f + 1) t))

/-- A remap is counted, and its spare in use. -/
def remapsCounted (n : Nat) (f : Fld) (s : State) : State := remapCounted n f (remapCounted n f s .a) .b

/-- The remap at the front is done, before it is posted. -/
def remapped (n : Nat) (f : Fld) (s : State) : State :=
  setEbrum .a { (remapsCounted n f s).ebrum .a with remaps := tset n [] ((remapsCounted n f s).ebrum .a).remaps } (setBundle n 0 (remapsCounted n f s))

theorem remapCounted_only (n : Nat) (f : Fld) (t : State) (e : Die) : Only (fun u => { u with regs := [], rinlar := [] }) t (remapCounted n f t e) :=
  ((Only.rfl.wrF _ _ _).satF _ _ _).setRin _ _

theorem remapCounted_rd (n : Nat) (f : Fld) (t : State) (e : Die) (a : Nat) :
    (remapCounted n f t e).rd a = (satF (EBRUM_COUNTS0 e) EBRUM_COUNTS0_REMAPS 1 (wrF (EBRUM_BUNDLE e n) f (t.rdF (EBRUM_BUNDLE e n) f + 1) t)).rd a := rd_setRin _ _ _ _

theorem remapCounted_other (n : Nat) (f : Fld) (t : State) (e : Die) {a : Nat} (h : a ≠ EBRUM_BUNDLE e n) (h' : a ≠ EBRUM_COUNTS0 e) : (remapCounted n f t e).rd a = t.rd a := by
  rw [remapCounted_rd, rd_satF_ne h', rd_wrF_ne h]

theorem remapCounted_spares {n : Nat} (hn : n < 4) {f : Fld} (hf : f.lo + f.len ≤ 32) (hl : 2 ≤ f.len) {t : State} {e : Die} (h : t.rdF (EBRUM_BUNDLE e n) f < 2) :
    (remapCounted n f t e).rdF (EBRUM_BUNDLE e n) f = t.rdF (EBRUM_BUNDLE e n) f + 1 := by
  rw [rdF_of_rd (remapCounted_rd _ _ _ _ _), rdF_satF_ne (bundle_ne_counts _ _ hn)]
  refine rdF_wrF_of_lt hf (Nat.lt_of_lt_of_le (m := 2 ^ 2) (by omega) (Nat.pow_le_pow_right (by decide) hl))

theorem remapCounted_counts {n : Nat} (hn : n < 4) (f : Fld) (t : State) (e : Die) :
    (remapCounted n f t e).rdF (EBRUM_COUNTS0 e) EBRUM_COUNTS0_REMAPS = min (2 ^ EBRUM_COUNTS0_REMAPS.len - 1) (t.rdF (EBRUM_COUNTS0 e) EBRUM_COUNTS0_REMAPS + 1) := by
  rw [rdF_of_rd (remapCounted_rd _ _ _ _ _), rdF_satF_same _ _ _ _ (by decide), rdF_wrF_ne (bundle_ne_counts _ _ hn).symm]

theorem remapsCounted_rule {n : Nat} (hn : n < 4) {f : Fld} (hf : f.lo + f.len ≤ 32) (hl : 2 ≤ f.len) {s : State} (h : ∀ e, s.rdF (EBRUM_BUNDLE e n) f < 2) :
    Only (fun u => { u with regs := [], rinlar := [] }) s (remapsCounted n f s)
      ∧ (∀ e, (remapsCounted n f s).rdF (EBRUM_BUNDLE e n) f = s.rdF (EBRUM_BUNDLE e n) f + 1
        ∧ (remapsCounted n f s).rdF (EBRUM_COUNTS0 e) EBRUM_COUNTS0_REMAPS = min (2 ^ EBRUM_COUNTS0_REMAPS.len - 1) (s.rdF (EBRUM_COUNTS0 e) EBRUM_COUNTS0_REMAPS + 1))
      ∧ ∀ a, (∀ e, a ≠ EBRUM_BUNDLE e n ∧ a ≠ EBRUM_COUNTS0 e) → (remapsCounted n f s).rd a = s.rd a := by
  have hab : EBRUM_BUNDLE .a n ≠ EBRUM_BUNDLE .b n := bundle_ne hn hn fun hc => Die.noConfusion hc.1
  have hcab : EBRUM_COUNTS0 .a ≠ EBRUM_COUNTS0 .b := ebrumCounts_ne fun hc => Die.noConfusion hc
  have hbn := fun d e => bundle_ne_counts d e hn
  refine ⟨(remapCounted_only _ _ _ _).trans (remapCounted_only _ _ _ _), fun e => ?_, fun a ha => ?_⟩
  · cases e with
    | a =>
      exact ⟨(rdF_of_rd (remapCounted_other _ _ _ _ hab (hbn _ _)) _).trans (remapCounted_spares hn hf hl (h .a)),
        (rdF_of_rd (remapCounted_other _ _ _ _ (hbn _ _).symm hcab) _).trans (remapCounted_counts hn _ _ _)⟩
    | b =>
      have hb := rdF_of_rd (remapCounted_other n f s .a hab.symm (hbn _ _)) f
      have hc := rdF_of_rd (remapCounted_other n f s .a (hbn _ _).symm hcab.symm) EBRUM_COUNTS0_REMAPS
      exact ⟨(remapCounted_spares hn hf hl (hb ▸ h .b)).trans (by rw [hb]), (remapCounted_counts hn _ _ _).trans (by rw [hc])⟩
  · obtain ⟨a1, a2⟩ := ha .a
    obtain ⟨b1, b2⟩ := ha .b
    exact (remapCounted_other _ _ _ _ b1 b2).trans (remapCounted_other _ _ _ _ a1 a2)

theorem remapped_rule {n : Nat} (hn : n < 4) (d : Die) {s : State} (h : ∀ e, s.rdF (EBRUM_BUNDLE e n) (spareField d) < 2) :
    remapped n (spareField d) (fresh s) = { s with regs := (remapped n (spareField d) (fresh s)).regs, ebrums := (remapped n (spareField d) (fresh s)).ebrums, rinlar := (remapped n (spareField d) (fresh s)).rinlar, out := [] }
      ∧ bundleState (remapped n (spareField d) (fresh s)) n = 0 ∧ tget [] n ((remapped n (spareField d) (fresh s)).ebrum .a).remaps = []
      ∧ (∀ e, (remapped n (spareField d) (fresh s)).rdF (EBRUM_BUNDLE e n) (spareField d) = s.rdF (EBRUM_BUNDLE e n) (spareField d) + 1
        ∧ (remapped n (spareField d) (fresh s)).rdF (EBRUM_COUNTS0 e) EBRUM_COUNTS0_REMAPS = min (2 ^ EBRUM_COUNTS0_REMAPS.len - 1) (s.rdF (EBRUM_COUNTS0 e) EBRUM_COUNTS0_REMAPS + 1)
        ∧ nbit ((remapped n (spareField d) (fresh s)).rdF (EBRUM_STATUS e) EBRUM_STATUS_BUNDLES_UP) n = true)
      ∧ ∀ a, (∀ e, a ≠ EBRUM_BUNDLE e n ∧ a ≠ EBRUM_STATUS e ∧ a ≠ EBRUM_COUNTS0 e) → (remapped n (spareField d) (fresh s)).rd a = s.rd a := by
  have hbelow := spareField_below d
  have hlen : 2 ≤ (spareField d).len := by
    unfold spareField
    split <;> decide
  obtain ⟨v, hv⟩ : ∃ v, v = remapsCounted n (spareField d) (fresh s) := ⟨_, rfl⟩
  obtain ⟨c1, c2, c3⟩ := remapsCounted_rule (s := fresh s) hn (by omega) hlen (fun e => (rdF_fresh s _ _).symm ▸ h e)
  rw [remapped, ← hv]
  rw [← hv] at c1 c2 c3
  obtain ⟨b1, b2⟩ := setBundle_rule hn 0 v
  have hrd : ∀ a, (setEbrum .a { v.ebrum .a with remaps := tset n [] (v.ebrum .a).remaps } (setBundle n 0 v)).rd a = (setBundle n 0 v).rd a := fun a => rd_setEbrum _ _ _ _
  have hend : Only (fun u => { u with regs := [], ebrums := [], rinlar := [] }) (fresh s) (setEbrum .a { v.ebrum .a with remaps := tset n [] (v.ebrum .a).remaps } (setBundle n 0 v)) :=
    (c1.mono.trans (setBundle_only hn 0 v).mono).setEbrum _ _
  refine ⟨hend.regsEbrumsRinlar, ?_, ?_, fun e => ?_, fun a ha => ?_⟩
  · obtain ⟨k1, -, -⟩ := b1 .a
    exact (bundleState_of_rd (hrd _)).trans k1
  · rw [ebrum_setEbrum_same]
    exact tget_tset_same _ _ _ _
  · obtain ⟨-, k2, k3⟩ := b1 e
    obtain ⟨g1, g2⟩ := c2 e
    refine ⟨(rdF_of_rd (hrd _) _).trans ((k3 _ hbelow).trans (g1.trans (by rw [rdF_fresh]))),
      (rdF_of_rd (hrd _) _).trans ((rdF_of_rd (b2 _ fun g => ⟨(bundle_ne_counts g e hn).symm, ebrumCounts_ne_status e g⟩) _).trans (g2.trans (by rw [rdF_fresh]))), ?_⟩
    rw [rdF_of_rd (hrd _), k2]
    rfl
  · rw [hrd, b2 a (fun e => ⟨(ha e).1, (ha e).2.1⟩), c3 a (fun e => ⟨(ha e).1, (ha e).2.2⟩), rd_fresh]

theorem remapDone_nothing {n : Nat} {s : State} (h : tget [] n (s.ebrum .a).remaps = [] ∨ bundleState s n ≠ 1) : remapDone n s = s := by
  unfold remapDone
  split
  · rfl
  · rename_i hq
    exact if_pos (h.resolve_left (by rw [hq]; exact List.cons_ne_nil _ _))

theorem remapDone_last {n l : Nat} {d : Die} {s : State} (hq : tget [] n (s.ebrum .a).remaps = [(d, l)]) (h : bundleState s n = 1) :
    remapDone n s = postLane d n l 0 (remapped n (spareField d) s) := by
  unfold remapDone
  rw [hq]
  exact if_neg (fun hc => hc h)

theorem remapDone_next {n l k : Nat} {d e : Die} {more : List (Die × Nat)} {s : State} (hq : tget [] n (s.ebrum .a).remaps = (d, l) :: (e, k) :: more) (h : bundleState s n = 1) :
    ∀ v, v = beginRemap e n k (postLane d n l 0 (remapped n (spareField d) s)) →
      (bundleState v n = 1 → remapDone n s = setEbrum .a { v.ebrum .a with remaps := tset n ((e, k) :: more) (v.ebrum .a).remaps } v)
      ∧ (bundleState v n ≠ 1 → remapDone n s = v) := by
  intro v hv
  have hgo : remapDone n s = if bundleState v n = 1 then setEbrum .a { v.ebrum .a with remaps := tset n ((e, k) :: more) (v.ebrum .a).remaps } v else v := by
    unfold remapDone
    rw [hq, hv]
    exact if_neg (fun hc => hc h)
  exact ⟨fun h1 => hgo.trans (if_pos h1), fun h1 => hgo.trans (if_neg h1)⟩

theorem ebrumRemapDone_rule {n : Nat} (hn : n < 4) {d : Die} {l : Nat} {rest : List (Die × Nat)} {s : State} (hq : tget [] n (s.ebrum .a).remaps = (d, l) :: rest) (hb : bundleState s n = 1)
    (hs : ∀ e, s.rdF (EBRUM_BUNDLE e n) (spareField d) < 2) :
    ∃ u, (u = { s with regs := u.regs, ebrums := u.ebrums, rinlar := u.rinlar, out := [] } ∧ bundleState u n = 0 ∧ tget [] n (u.ebrum .a).remaps = []
        ∧ (∀ e, u.rdF (EBRUM_BUNDLE e n) (spareField d) = s.rdF (EBRUM_BUNDLE e n) (spareField d) + 1
          ∧ u.rdF (EBRUM_COUNTS0 e) EBRUM_COUNTS0_REMAPS = min (2 ^ EBRUM_COUNTS0_REMAPS.len - 1) (s.rdF (EBRUM_COUNTS0 e) EBRUM_COUNTS0_REMAPS + 1)
          ∧ nbit (u.rdF (EBRUM_STATUS e) EBRUM_STATUS_BUNDLES_UP) n = true)
        ∧ ∀ a, (∀ e, a ≠ EBRUM_BUNDLE e n ∧ a ≠ EBRUM_STATUS e ∧ a ≠ EBRUM_COUNTS0 e) → u.rd a = s.rd a)
      ∧ (∀ p, p = postLane d n l 0 u → (rest = [] → exec (.ebrumRemapDone n) s = .next (ran (fun _ => p) s))
        ∧ (∀ e k more, rest = (e, k) :: more → ∀ v, v = beginRemap e n k p →
          (bundleState v n = 1 → exec (.ebrumRemapDone n) s = .next (ran (fun _ => setEbrum .a { v.ebrum .a with remaps := tset n ((e, k) :: more) (v.ebrum .a).remaps } v) s))
          ∧ (bundleState v n ≠ 1 → exec (.ebrumRemapDone n) s = .next (ran (fun _ => v) s)))) := by
  have hb' : bundleState (fresh s) n = 1 := (bundleState_fresh _ _).trans hb
  refine ⟨_, remapped_rule hn d hs, fun p hp => ⟨fun hr => ?_, fun e k more hr v hv => ⟨fun h1 => ?_, fun h1 => ?_⟩⟩⟩
  · subst hr hp
    exact congrArg Host.Outcome.next (ran_congr (remapDone_last hq hb'))
  · subst hr hp
    obtain ⟨k1, -⟩ := remapDone_next (s := fresh s) hq hb' v hv
    exact congrArg Host.Outcome.next (ran_congr (k1 h1))
  · subst hr hp
    obtain ⟨-, k2⟩ := remapDone_next (s := fresh s) hq hb' v hv
    exact congrArg Host.Outcome.next (ran_congr (k2 h1))

/-! ## The main link (R446, R449) -/

theorem forwardedClockLoss_rule (d : Die) {n : Nat} (hn : n < 4) (s : State) :
    exec (.forwardedClockLoss d n) s = .next (if bundleState s n = 2 ∨ inRetrain s n then fresh s else ran (fun u => bundleDown d n (u.freeNat 0 % 34) (useFree 1 u)) s) := by
  split
  · rename_i h
    exact congrArg Host.Outcome.next (ran_same (if_pos (.inr ((bundleState_fresh s n).symm ▸ h))))
  · rename_i h
    refine congrArg Host.Outcome.next (ran_congr (if_neg ?_))
    rw [bundleState_fresh, inRetrain_fresh]
    exact fun hc => hc.elim (fun hc => by omega) h

theorem bundleDown_rule (d : Die) (n l : Nat) (s u : State)
    (hu : u = bothDies.foldl (fun t e => t |> setEbrum e { t.ebrum e with remaps := tkeep (fun k => k != n) (t.ebrum e).remaps } |> satF (EBRUM_COUNTS0 e) EBRUM_COUNTS0_BUNDLES_DOWN 1 |> rinlarCount e 39 1)
      (postLane d n l 1 (setBundle n 2 s))) :
    (allDown u = false → bundleDown d n l s = u) ∧ (allDown u = true → bundleDown d n l s = loseMain .b (loseMain .a u)) := by
  have hgo : bundleDown d n l s = if allDown u then loseMain .b (loseMain .a u) else u := by
    rw [hu]
    rfl
  rw [hgo]
  exact ⟨fun h => if_neg (fun hc => Bool.false_ne_true (h.symm.trans hc)), fun h => if_pos h⟩

theorem inRetrain_iff (s : State) (n : Nat) : inRetrain s n = true ↔ ∃ e ∈ s.ebrums, ∃ t m, e.2.retrain = some (t, m) ∧ nbit m n = true := by
  simp only [inRetrain, List.any_eq_true, Option.any_eq_true, Prod.exists]

/-- The main link is back as a die sees it, before it is posted. -/
def linkUpAgain (d : Die) (s : State) : State := wrF (EBRUM_STATUS d) EBRUM_STATUS_STATE 0 (setEbrum d { s.ebrum d with lost := none } s)

/-- A die notes that the main link is back. -/
def backSeen (t : State) (d : Die) : State :=
  match (t.ebrum d).lost with
  | none => t
  | some since => postEbrum d 0x0B01 (1 + min 0xFFFFFFFF ((t.now d - since) / 1000) * 2 ^ 32) false (linkUpAgain d t)

theorem linkBack_eq (s : State) : linkBack s = backSeen (backSeen s .a) .b := rfl

theorem backSeen_none {d : Die} {s : State} (h : (s.ebrum d).lost = none) : backSeen s d = s := by
  unfold backSeen
  rw [h]

theorem backSeen_some {d : Die} {s : State} {since : Nat} (h : (s.ebrum d).lost = some since) :
    backSeen s d = postEbrum d 0x0B01 (1 + min 0xFFFFFFFF ((s.now d - since) / 1000) * 2 ^ 32) false (linkUpAgain d s) := by
  unfold backSeen
  rw [h]

theorem postEbrum_ebrum (d : Die) (typ pay : Nat) (s : State) (e : Die) : (postEbrum d typ pay false s).ebrum e = s.ebrum e := by
  obtain ⟨hp, -, -⟩ := posts_postPf0 (ok := True) d typ d.idx pay s
  exact congrArg (tget Ebrum.empty e.idx) (congrArg State.ebrums hp :)

theorem linkBack_one {d : Die} {s : State} {since : Nat} (h : (s.ebrum d).lost = some since) (ho : (s.ebrum d.other).lost = none) :
    linkBack s = postEbrum d 0x0B01 (1 + min 0xFFFFFFFF ((s.now d - since) / 1000) * 2 ^ 32) false (linkUpAgain d s) := by
  cases d with
  | a =>
    rw [linkBack_eq, backSeen_some h]
    refine backSeen_none ?_
    rw [postEbrum_ebrum]
    exact (congrArg Ebrum.lost (ebrum_setEbrum_ne (fun hc => Die.noConfusion hc) _ _)).trans ho
  | b =>
    rw [linkBack_eq, backSeen_none (d := .a) ho]
    exact backSeen_some h

theorem linkUpAgain_rule (d : Die) (s : State) : linkUpAgain d s = { s with regs := (linkUpAgain d s).regs, ebrums := (linkUpAgain d s).ebrums }
    ∧ (linkUpAgain d s).ebrum d = { s.ebrum d with lost := none } ∧ (linkUpAgain d s).rdF (EBRUM_STATUS d) EBRUM_STATUS_STATE = 0
    ∧ ∀ a, a ≠ EBRUM_STATUS d → (linkUpAgain d s).rd a = s.rd a :=
  ⟨rfl, ebrum_setEbrum_same _ _ _, rdF_wrF_of_lt (by decide) (by decide), fun a ha => (rd_wrF_ne ha _ _ _).trans (rd_setEbrum _ _ _ _)⟩

theorem mainBack_trains {n : Nat} (hn : n < 4) {s : State} (h3 : bundleState s n = 3) (hr : inRetrain s n = false) : mainBack n s = linkBack (setBundle n 0 s) := by
  unfold mainBack
  exact if_neg (fun hc => hc.elim (fun hc => by omega) fun hc => hc.elim (fun hc => hc h3) fun hc => Bool.false_ne_true (hr.symm.trans hc))

theorem mainBack_left {n : Nat} {s : State} (h : bundleState s n ≠ 3 ∨ inRetrain s n = true) : mainBack n s = s := by
  unfold mainBack
  exact if_pos (.inr h)

/-- A change of the set of bundles leaves each die's view of the link apart from the set. -/
theorem lost_setBundle {n : Nat} (hn : n < 4) (k : Nat) (s : State) (e : Die) : ((setBundle n k s).ebrum e).lost = (s.ebrum e).lost := by
  by_cases h : liveBundles (setBundle n k s) = liveBundles s
  · exact congrArg (fun x : Tab Ebrum => (tget Ebrum.empty e.idx x).lost) (setBundle_sameSet hn h)
  · rw [setBundle_newSet hn h e]

theorem now_setBundle {n : Nat} (hn : n < 4) (k : Nat) (s : State) (e : Die) : (setBundle n k s).now e = s.now e :=
  congrArg (fun t => t.now e) (setBundle_only hn k s).regsEbrumsKept

theorem carrier_first {d : Die} {r : MemReq} {since b : Nat} {bs : List Nat} {rest : List (Nat × List Nat)} {s : State} (hs : (s.ebrum d).sets = (since, bs) :: rest) (ht : since ≤ r.since)
    (hb : bs[r.addr / 256 % bs.length]? = some b) : carrier s d r = if (liveBundles s).contains b then some b else lowestUp s := by
  have hwas : (((s.ebrum d).sets.find? (fun x => decide (x.1 ≤ r.since))).map (fun x => x.2)).getD (liveBundles s) = bs := by
    rw [hs, List.find?_cons_of_pos (p := fun x : Nat × List Nat => decide (x.1 ≤ r.since)) (decide_eq_true ht)]
    rfl
  unfold carrier
  dsimp only
  rw [hwas, spread, hb]

/-! ## Replays (R444) -/

theorem replay_rule (d : Die) (flits : Nat) (s : State) : Only (fun u => { u with regs := [], rinlar := [] }) s (replay d flits s)
    ∧ (replay d flits s).rdF (EBRUM_REPLAYS d) EBRUM_REPLAYS_COUNT = min (2 ^ 32 - 1) (s.rdF (EBRUM_REPLAYS d) EBRUM_REPLAYS_COUNT + flits)
    ∧ ∀ a, a ≠ EBRUM_REPLAYS d → (replay d flits s).rd a = s.rd a := by
  have hrd : ∀ a, (replay d flits s).rd a = (satF (EBRUM_REPLAYS d) EBRUM_REPLAYS_COUNT flits s).rd a := fun a => rd_setRin _ _ _ _
  exact ⟨(Only.rfl.satF _ _ _).setRin _ _, (rdF_of_rd (hrd _) _).trans (rdF_satF_same _ _ _ _ (by decide)), fun a ha => (hrd a).trans (rd_satF_ne ha _ _ _)⟩

theorem Only.regsRinlarRun {s t : State} (h : Only (fun u => { u with regs := [], rinlar := [] }) (fresh s) t) : t = { s with regs := t.regs, rinlar := t.rinlar, out := [] } :=
  congrArg (fun u => { u with regs := t.regs, rinlar := t.rinlar }) h

theorem ebrumFlitReplay_rule (d : Die) {n : Nat} (flits : Nat) (s : State) (hn : n < 4) :
    ∃ t, exec (.ebrumFlitReplay d n flits) s = .next t ∧ t = { s with regs := t.regs, rinlar := t.rinlar, out := [] }
      ∧ t.rdF (EBRUM_REPLAYS d) EBRUM_REPLAYS_COUNT = min (2 ^ 32 - 1) (s.rdF (EBRUM_REPLAYS d) EBRUM_REPLAYS_COUNT + flits) ∧ ∀ a, a ≠ EBRUM_REPLAYS d → t.rd a = s.rd a := by
  obtain ⟨h1, h2, h3⟩ := replay_rule d flits (fresh s)
  have hgo : (if 4 ≤ n then fresh s else replay d flits (fresh s)) = replay d flits (fresh s) := if_neg (by omega)
  exact ⟨_, congrArg Host.Outcome.next (h1.ran hgo), h1.regsRinlarRun, h2.trans (by rw [rdF_fresh]), fun a ha => (h3 a ha).trans (rd_fresh _ _)⟩

/-! ## The statement -/

/-- Settles O56: replays, failing lanes, remaps, forwarded clocks, the main link's return, and the spreading over the bundles. -/
theorem lanesAndBundlesFollowTheirLink : Obligations.LanesAndBundlesFollowTheirLink := by
  refine ⟨fun d n flits s => ⟨fun h => congrArg Host.Outcome.next (ran_same (if_pos h)), ebrumFlitReplay_rule d flits s⟩, fun d n l s hn hl q hq => ?_,
    fun n s hn => ⟨fun h => congrArg Host.Outcome.next (ran_same (remapDone_nothing h)), fun d l rest hq hb hs => ebrumRemapDone_rule hn hq hb hs⟩,
    fun d n l s hn => ⟨forwardedClockLoss_rule d hn s, fun k => ?_, bundleDown_rule d n l s⟩, fun n s hn w hw => ⟨fun h => ?_, fun h3 hr => ?_⟩, fun d r since b bs rest s hs ht hb => ?_⟩
  · subst hq
    exact ⟨fun h => laneFail_left hn hl (.inl h), fun h h' => laneFail_left hn hl (.inr ⟨h, h'⟩), laneFail_trains hn hl, laneFail_spare hn hl, laneFail_noSpare hn hl, laneFail_remapping hn hl⟩
  · obtain ⟨h1, h2⟩ := setBundle_rule hn k s
    exact ⟨(h1 .a).1, fun e => (h1 e).2.1, fun m hm hne => setBundle_other hn hm hne k s, setBundle_sameSet hn, setBundle_newSet hn, h2⟩
  · refine congrArg Host.Outcome.next (ran_same (mainBack_left ?_))
    rw [bundleState_fresh, inRetrain_fresh, inRetrain_iff]
    exact h
  · have hr' : inRetrain s n = false := Bool.eq_false_iff.2 fun hc => by
      obtain ⟨e, he, t, m, hm, hb⟩ := (inRetrain_iff s n).1 hc
      exact Bool.false_ne_true ((hr e he t m hm).symm.trans hb)
    have hgo := mainBack_trains (s := fresh s) hn ((bundleState_fresh s n).trans h3) hr'
    rw [← hw] at hgo
    have hlost : ∀ e, (w.ebrum e).lost = (s.ebrum e).lost := fun e => hw ▸ lost_setBundle hn 0 (fresh s) e
    refine ⟨fun hl => congrArg Host.Outcome.next (ran_congr (hgo.trans ?_)), fun d since hl ho => ⟨_, linkUpAgain_rule d w, congrArg Host.Outcome.next (ran_congr (hgo.trans ?_))⟩⟩
    · rw [linkBack_eq, backSeen_none ((hlost .a).trans (hl .a)), backSeen_none ((hlost .b).trans (hl .b))]
    · have hnow : w.now d = s.now d := hw ▸ now_setBundle hn 0 (fresh s) d
      rw [linkBack_one ((hlost d).trans hl) ((hlost d.other).trans ho), hnow]
  · rw [carrier_first hs ht hb]
    exact ⟨fun h => if_pos h, fun h => if_neg (fun hc => Bool.false_ne_true (h.symm.trans hc))⟩

end Sys2Proof.Machine
end

section
/-! Tenants: grants, their registers, the end of a destruction and of a freeze (O26; R95, R97, R121). -/
namespace Sys2Proof.Machine

/-! ## A descriptor with one byte replaced (R95) -/

/-- The byte at B of a number is replaced. -/
def byteSet (x B v : Nat) : Nat := x - x / B % 256 * B + v * B

theorem byteSet_parts {x B v : Nat} (hB : 0 < B) (hv : v < 256) :
    byteSet x B v % B = x % B ∧ byteSet x B v / B % 256 = v ∧ byteSet x B v / (B * 256) = x / (B * 256) := by
  have hlow := Nat.div_add_mod x B
  have hmid := Nat.div_add_mod (x / B) 256
  have hlt := Nat.mod_lt x hB
  obtain ⟨l, hl⟩ : ∃ l, l = x % B := ⟨_, rfl⟩
  obtain ⟨m, hm⟩ : ∃ m, m = x / B % 256 := ⟨_, rfl⟩
  obtain ⟨h, hh⟩ : ∃ h, h = x / B / 256 := ⟨_, rfl⟩
  rw [← hm, ← hh] at hmid
  rw [← hl, ← hmid] at hlow
  have hx : x = (256 * h + m) * B + l := by rw [← hlow, Nat.mul_comm]
  have hset : byteSet x B v = (256 * h + v) * B + l := by
    rw [byteSet, ← hm]
    have e1 : (256 * h + m) * B = 256 * h * B + m * B := Nat.add_mul _ _ _
    have e2 : (256 * h + v) * B = 256 * h * B + v * B := Nat.add_mul _ _ _
    omega
  have hlB : l < B := hl ▸ hlt
  have hdiv : byteSet x B v / B = 256 * h + v := by rw [hset, Nat.mul_comm, Nat.mul_add_div hB, Nat.div_eq_of_lt hlB, Nat.add_zero]
  refine ⟨?_, ?_, ?_⟩
  · rw [hset, ← hl, Nat.mul_comm, Nat.mul_add_mod, Nat.mod_eq_of_lt hlB]
  · rw [hdiv]
    omega
  · rw [← Nat.div_div_eq_div_mul, ← Nat.div_div_eq_div_mul, hdiv, ← hh]
    omega

theorem div_mod_of_mod {x y i j : Nat} (h : x % 2 ^ (8 * i) = y % 2 ^ (8 * i)) (hij : j < i) : x / 2 ^ (8 * j) % 2 ^ 8 = y / 2 ^ (8 * j) % 2 ^ 8 := by
  have hd : 2 ^ (8 * j) * 2 ^ 8 ∣ 2 ^ (8 * i) := by
    rw [← Nat.pow_add]
    exact Nat.pow_dvd_pow 2 (by omega)
  rw [← Nat.mod_mul_right_div_self, ← Nat.mod_mul_right_div_self, ← Nat.mod_mod_of_dvd x hd, h, Nat.mod_mod_of_dvd y hd]

theorem div_mod_of_div {x y i j : Nat} (h : x / (2 ^ (8 * i) * 256) = y / (2 ^ (8 * i) * 256)) (hij : i < j) : x / 2 ^ (8 * j) % 2 ^ 8 = y / 2 ^ (8 * j) % 2 ^ 8 := by
  have hp : 2 ^ (8 * j) = 2 ^ (8 * i) * 256 * 2 ^ (8 * (j - i - 1)) := by
    rw [show (256 : Nat) = 2 ^ 8 from rfl, ← Nat.pow_add, ← Nat.pow_add]
    congr 1
    omega
  rw [hp, ← Nat.div_div_eq_div_mul x (2 ^ (8 * i) * 256), ← Nat.div_div_eq_div_mul y (2 ^ (8 * i) * 256), h]

theorem byteSet_lt {x i v w : Nat} (hi : 8 * i + 8 ≤ w) (hv : v < 256) (hx : x < 2 ^ w) : byteSet x (2 ^ (8 * i)) v < 2 ^ w := by
  obtain ⟨-, -, h⟩ := byteSet_parts (x := x) (Nat.two_pow_pos (8 * i)) hv
  have hk : 0 < 2 ^ (8 * i) * 256 := Nat.mul_pos (Nat.two_pow_pos _) (by decide)
  have hp : 2 ^ w = 2 ^ (w - 8 * i - 8) * (2 ^ (8 * i) * 256) := by
    rw [show (256 : Nat) = 2 ^ 8 from rfl, ← Nat.pow_add, ← Nat.pow_add]
    congr 1
    omega
  rw [hp] at hx ⊢
  exact (Nat.div_lt_iff_lt_mul hk).1 (h ▸ (Nat.div_lt_iff_lt_mul hk).2 hx)

theorem ofNat_byteSet {w : Nat} (x : BitVec w) {i v : Nat} (hi : 8 * i + 8 ≤ w) (hv : v < 256) : (BitVec.ofNat w (byteSet x.toNat (2 ^ (8 * i)) v)).toNat = byteSet x.toNat (2 ^ (8 * i)) v := by
  rw [BitVec.toNat_ofNat]
  exact Nat.mod_eq_of_lt (byteSet_lt hi hv x.isLt)

theorem setByte_toNat (d : Desc) {i v : Nat} (hi : i < 64) (hv : v < 256) : (setByte d i v).toNat = byteSet d.toNat (2 ^ (8 * i)) v := ofNat_byteSet d (by omega) hv

theorem dget_byte (d : Desc) (i : Nat) : dget d i 0 8 = d.toNat / 2 ^ (8 * i) % 2 ^ 8 := rfl
theorem dget_byte_lt (d : Desc) (i : Nat) : dget d i 0 8 < 256 := Nat.mod_lt _ (by decide)

theorem dget_setByte_same (d : Desc) {i v : Nat} (hi : i < 64) (hv : v < 256) : dget (setByte d i v) i 0 8 = v := by
  obtain ⟨-, h, -⟩ := byteSet_parts (x := d.toNat) (Nat.two_pow_pos (8 * i)) hv
  rw [dget_byte, setByte_toNat d hi hv]
  exact h

theorem dget_setByte_ne (d : Desc) {i j v : Nat} (hi : i < 64) (hv : v < 256) (hne : j ≠ i) : dget (setByte d i v) j 0 8 = dget d j 0 8 := by
  obtain ⟨h1, -, h3⟩ := byteSet_parts (x := d.toNat) (Nat.two_pow_pos (8 * i)) hv
  rw [dget_byte, dget_byte, setByte_toNat d hi hv]
  rcases Nat.lt_or_gt_of_ne hne with h | h
  · exact div_mod_of_mod h1 h
  · exact div_mod_of_div h3 h

theorem modified_bytes (old d : Desc) : dget (modified old d) 9 0 8 = dget old 9 0 8 ∧ dget (modified old d) 10 0 8 = dget old 10 0 8
    ∧ ∀ i, i < 64 → i ≠ 9 → i ≠ 10 → dget (modified old d) i 0 8 = dget d i 0 8 := by
  have h9 := dget_byte_lt old 9
  have h10 := dget_byte_lt old 10
  refine ⟨?_, dget_setByte_same _ (by decide) h10, fun i hi n9 n10 => ?_⟩
  · exact (dget_setByte_ne _ (by decide) h10 (by decide)).trans (dget_setByte_same _ (by decide) h9)
  · exact (dget_setByte_ne _ (by decide) h10 n10).trans (dget_setByte_ne _ (by decide) h9 n9)

/-! ## The table of tenants -/

theorem key_ne {f g : Fun} (hf : f.fn ≤ 31) (hg : g.fn ≤ 31) (h : g ≠ f) : g.key ≠ f.key := by
  intro hc
  obtain ⟨d, n⟩ := f
  obtain ⟨e, m⟩ := g
  refine h ?_
  unfold Fun.key at hc
  cases d <;> cases e <;> simp only [Die.idx] at hc hf hg <;> simp only [Fun.mk.injEq, reduceCtorEq, true_and, false_and] <;> omega

theorem tenant_setTenant_same (f : Fun) (x : Tenant) (s : State) : (setTenant f x s).tenant f = some x := tfind_tset_same _ _ _
theorem tenant_setTenant_ne {f g : Fun} (hf : f.fn ≤ 31) (hg : g.fn ≤ 31) (h : g ≠ f) (x : Tenant) (s : State) : (setTenant f x s).tenant g = s.tenant g :=
  tfind_tset_ne (key_ne hf hg h) _ _
theorem tenant_congr {s t : State} (h : t.tenants = s.tenants) (f : Fun) : t.tenant f = s.tenant f := congrArg (tfind f.key) h

/-! ## The registers that show a tenant (R95) -/

/-- The registers that show a tenant's grants. -/
def grantRegs (f : Fun) : List Nat := TENANT_CFG f :: bothDies.flatMap (fun d => [DRAM_FUNC_USE d (funcIdx d f), GPU_FUNC_USE d (funcIdx d f)])

/-- TENANT_CFG of a function with its grants. -/
def cfgShown (f : Fun) (created : Bool) (g : Desc) (s : State) : State :=
  s |> wrB (TENANT_CFG f) TENANT_CFG_CREATED created |> wrF (TENANT_CFG f) TENANT_CFG_CLASS (dget g 9 0 2) |> wrF (TENANT_CFG f) TENANT_CFG_GPU_DIE (dget g 10 0 1)
    |> wrF (TENANT_CFG f) TENANT_CFG_GPU_CTX (dget g 11 0 5) |> wrF (TENANT_CFG f) TENANT_CFG_GPU_SHARE (dget g 12 0 8) |> wrF (TENANT_CFG f) TENANT_CFG_DRAM_SHARE (dget g 13 0 8)

/-- The shares of a function as a die shows them. -/
def shareShown (f : Fun) (g : Desc) (t : State) (d : Die) : State :=
  wrF (GPU_FUNC_USE d (funcIdx d f)) GPU_FUNC_USE_SHARE (if grantDie g = d then dget g 12 0 8 else 0) (wrF (DRAM_FUNC_USE d (funcIdx d f)) DRAM_FUNC_USE_SHARE (dget g 13 0 8) t)

theorem showGrants_eq (f : Fun) (created : Bool) (g : Desc) (s : State) : showGrants f created g s = shareShown f g (shareShown f g (cfgShown f created g s) .a) .b := rfl

theorem shareShown_touches (f : Fun) (g : Desc) (t : State) (d : Die) : Touches [DRAM_FUNC_USE d (funcIdx d f), GPU_FUNC_USE d (funcIdx d f)] t (shareShown f g t d) :=
  (Touches.rfl.wrF _ _).wrF _ _

theorem funcIdx_lt {f : Fun} (hf : f.fn ≤ 31) (d : Die) : funcIdx d f < 64 := by
  unfold funcIdx
  split <;> omega

theorem tenantCfg_notin {f : Fun} (hf : f.fn ≤ 31) (d : Die) : TENANT_CFG f ∉ [DRAM_FUNC_USE d (funcIdx d f), GPU_FUNC_USE d (funcIdx d f)] := by
  have hi := funcIdx_lt hf d
  have h63 : f.fn ≠ 63 := by omega
  simp only [List.mem_cons, List.not_mem_nil, or_false, not_or]
  unfold TENANT_CFG DRAM_FUNC_USE GPU_FUNC_USE fnSpace dieSpace Fun.slot
  rw [if_neg h63, if_neg h63]
  cases f.ep <;> cases d <;> simp only [Die.idx] <;> omega

theorem cfgShown_rule (f : Fun) (created : Bool) (g : Desc) (s : State) : Touches [TENANT_CFG f] s (cfgShown f created g s)
    ∧ (cfgShown f created g s).flag (TENANT_CFG f) TENANT_CFG_CREATED = created ∧ (cfgShown f created g s).rdF (TENANT_CFG f) TENANT_CFG_CLASS = dget g 9 0 2
    ∧ (cfgShown f created g s).rdF (TENANT_CFG f) TENANT_CFG_GPU_CTX = dget g 11 0 5 := by
  unfold cfgShown
  refine ⟨(((((Touches.rfl.wrB _ _).wrF _ _).wrF _ _).wrF _ _).wrF _ _).wrF _ _, ?_, ?_, ?_⟩
  · simp (disch := decide) only [flag_wrF_other, flag_wrB_same]
  · rw [rdF_wrF_other _ _ _ _ _ (by decide) (by decide), rdF_wrF_other _ _ _ _ _ (by decide) (by decide), rdF_wrF_other _ _ _ _ _ (by decide) (by decide),
      rdF_wrF_other _ _ _ _ _ (by decide) (by decide)]
    exact rdF_wrF_of_lt (by decide) (Nat.mod_lt _ (by decide))
  · rw [rdF_wrF_other _ _ _ _ _ (by decide) (by decide), rdF_wrF_other _ _ _ _ _ (by decide) (by decide)]
    exact rdF_wrF_of_lt (by decide) (Nat.mod_lt _ (by decide))

theorem showGrants_rule {f : Fun} (hf : f.fn ≤ 31) (created : Bool) (g : Desc) (s : State) : RegsOnly s (showGrants f created g s)
    ∧ (showGrants f created g s).flag (TENANT_CFG f) TENANT_CFG_CREATED = created ∧ (showGrants f created g s).rdF (TENANT_CFG f) TENANT_CFG_CLASS = dget g 9 0 2
    ∧ (showGrants f created g s).rdF (TENANT_CFG f) TENANT_CFG_GPU_CTX = dget g 11 0 5 := by
  obtain ⟨⟨c1, -⟩, c2, c3, c4⟩ := cfgShown_rule f created g s
  obtain ⟨a1, a2⟩ := shareShown_touches f g (cfgShown f created g s) .a
  obtain ⟨b1, b2⟩ := shareShown_touches f g (shareShown f g (cfgShown f created g s) .a) .b
  rw [showGrants_eq]
  have hrd := (b2 _ (tenantCfg_notin hf .b)).trans (a2 _ (tenantCfg_notin hf .a))
  exact ⟨(c1.trans a1).trans b1, (flag_of_rd hrd _).trans c2, (rdF_of_rd hrd _).trans c3, (rdF_of_rd hrd _).trans c4⟩

/-! ## Create, modify, and the size of the image (R95, R97, R121) -/

theorem handed_tenants {o : OpSpec} {q : RingId} {d : Desc} {s : State} (hpre : ∀ t, (o.pre q d t).2 = t) : (handed o q d s).tenants = s.tenants := by
  rw [handed, hpre]
  rfl

theorem tenants_of_regsOnly {s t : State} (h : RegsOnly s t) : t.tenants = s.tenants := (congrArg State.tenants h.eq :)

theorem worked_opTenantCreate (q : RingId) (d : Desc) (s : State) :
    worked opTenantCreate q d s = (some (stOk, 0), showGrants (vfOf q d) true d (setTenant (vfOf q d) ⟨d, none, none⟩ (handed opTenantCreate q d s))) := rfl

theorem tenantCreate_rule {q : RingId} {d : Desc} {f : Fun} (hf : f = ⟨q.fn.ep, dget d 8 0 6⟩) (hfn : f.fn ≤ 31) (s : State) :
    (worked opTenantCreate q d s).1 = some (stOk, 0) ∧ (worked opTenantCreate q d s).2.tenant f = some ⟨d, none, none⟩
    ∧ (worked opTenantCreate q d s).2.flag (TENANT_CFG f) TENANT_CFG_CREATED = true ∧ (worked opTenantCreate q d s).2.rdF (TENANT_CFG f) TENANT_CFG_CLASS = dget d 9 0 2
    ∧ (worked opTenantCreate q d s).2.rdF (TENANT_CFG f) TENANT_CFG_GPU_CTX = dget d 11 0 5
    ∧ ∀ g : Fun, g.fn ≤ 31 → g ≠ f → (worked opTenantCreate q d s).2.tenant g = s.tenant g := by
  have hvf : vfOf q d = f := hf.symm
  rw [worked_opTenantCreate, hvf]
  obtain ⟨k1, k2, k3, k4⟩ := showGrants_rule hfn true d (setTenant f ⟨d, none, none⟩ (handed opTenantCreate q d s))
  refine ⟨rfl, ?_, k2, k3, k4, fun g hg hne => ?_⟩
  · exact (tenant_congr (tenants_of_regsOnly k1) f).trans (tenant_setTenant_same _ _ _)
  · exact (tenant_congr (tenants_of_regsOnly k1) g).trans ((tenant_setTenant_ne hfn hg hne _ _).trans (tenant_congr (handed_tenants fun _ => rfl) g))

theorem worked_opTenantModify {q : RingId} {d : Desc} {s : State} {x : Tenant} (hx : s.tenant (vfOf q d) = some x) : worked opTenantModify q d s =
    (some (stOk, 0), showGrants (vfOf q d) true (modified x.grants d) (setTenant (vfOf q d) { x with grants := modified x.grants d } (handed opTenantModify q d s))) := by
  have hx' : (handed opTenantModify q d s).tenant (vfOf (oneTicket s q d).ring d) = some x := (tenant_congr (handed_tenants fun _ => rfl) _).trans hx
  unfold worked opTenantModify mkOp
  dsimp only
  unfold opTenantModify mkOp at hx'
  rw [hx']
  rfl

theorem tenantModify_rule {q : RingId} {d : Desc} {f : Fun} (hf : f = ⟨q.fn.ep, dget d 8 0 6⟩) (hfn : f.fn ≤ 31) {s : State} {x : Tenant} (hx : s.tenant f = some x) :
    (worked opTenantModify q d s).1 = some (stOk, 0)
    ∧ (∃ g, (worked opTenantModify q d s).2.tenant f = some { x with grants := g } ∧ dget g 9 0 8 = dget x.grants 9 0 8 ∧ dget g 10 0 8 = dget x.grants 10 0 8
        ∧ ∀ i, i < 64 → i ≠ 9 → i ≠ 10 → dget g i 0 8 = dget d i 0 8)
    ∧ ∀ g : Fun, g.fn ≤ 31 → g ≠ f → (worked opTenantModify q d s).2.tenant g = s.tenant g := by
  have hvf : vfOf q d = f := hf.symm
  rw [worked_opTenantModify (hvf ▸ hx), hvf]
  obtain ⟨k1, -⟩ := showGrants_rule hfn true (modified x.grants d) (setTenant f { x with grants := modified x.grants d } (handed opTenantModify q d s))
  refine ⟨rfl, ⟨modified x.grants d, ?_, modified_bytes _ _⟩, fun g hg hne => ?_⟩
  · exact (tenant_congr (tenants_of_regsOnly k1) f).trans (tenant_setTenant_same _ _ _)
  · exact (tenant_congr (tenants_of_regsOnly k1) g).trans ((tenant_setTenant_ne hfn hg hne _ _).trans (tenant_congr (handed_tenants fun _ => rfl) g))

theorem imageSize_pages (g : Desc) : imageSize g / 4096 = ((16 + 64 * dget g 11 0 8 + 4 * dget g 16 0 8 + 8 * dget g 17 0 8 + 2 * dget g 18 0 8
    + ((upto 8).filter (nbit (dget g 19 0 8))).length + dget g 20 0 16) + 3) / 4 := by
  unfold imageSize cdiv
  dsimp only
  omega

theorem grantsOf_tenant {s : State} {f : Fun} {x : Tenant} (h : s.tenant f = some x) : grantsOf s f = x.grants := by
  unfold grantsOf
  rw [show tfind f.key s.tenants = some x from h]

theorem worked_opStateSize {q : RingId} {d : Desc} {s : State} {x : Tenant} (hx : s.tenant (vfOf q d) = some x) :
    worked opStateSize q d s = (some (stOk, imageSize x.grants / 4096), handed opStateSize q d s) := by
  have hg : tenantGrants (handed opStateSize q d s) (vfOf q d) = x.grants := grantsOf_tenant ((tenant_congr (handed_tenants fun _ => rfl) _).trans hx)
  rw [← hg]
  rfl

/-! ## The end of a freeze (R121) -/

theorem Only.setTenant {m : State → State} {s t : State} (h : Only m s t) (f : Fun) (x : Tenant)
    (hm : ∀ u r, m { u with tenants := r } = m u := by intros; rfl) : Only m s (setTenant f x t) := (hm _ _).trans h

/-- The freeze is done, before its DONE is posted. -/
def frozenNow (f : Fun) (x : Tenant) (s : State) : State :=
  s |> setTenant f { x with freezing := none } |> wrB (FUNC_STATUS f) FUNC_STATUS_FROZEN true |> wrB (TENANT_CFG f) TENANT_CFG_FROZEN true

theorem freezeDone_frozen {f : Fun} {x : Tenant} {tk : Ticket} {s : State} (hx : s.tenant f = some x) (hk : x.freezing = some tk) (hp : partsFrozen s f = true) :
    freezeDone f s = finish tk stOk 0 (frozenNow f x s) := by
  unfold freezeDone
  rw [hx]
  dsimp only
  rw [hk]
  exact if_neg (fun hc => Bool.false_ne_true (hc.symm.trans hp))

theorem Only.regsTenants {s t : State} (h : Only (fun u => { u with regs := [], tenants := [] }) (fresh s) t) : t = { s with regs := t.regs, tenants := t.tenants, out := [] } :=
  congrArg (fun u => { u with regs := t.regs, tenants := t.tenants }) h

theorem frozen_wrB  {a : Nat} {f : Fun} {s : State} (b : Bool) (h : frozen s f = true) : frozen (wrB a TENANT_CFG_FROZEN b s) f = true := by
  unfold frozen at h ⊢
  by_cases ha : FUNC_STATUS f = a
  · rw [← ha]
    exact (flag_wrB_other _ _ _ _ _ (by decide) (by decide)).trans h
  · exact (flag_wrB_ne ha _ _ _ _).trans h

theorem rd_setTenant (f : Fun) (x : Tenant) (s : State) (a : Nat) : (setTenant f x s).rd a = s.rd a := rd_congr rfl rfl a

theorem frozenNow_rule (f : Fun) (x : Tenant) (s : State) : Only (fun u => { u with regs := [], tenants := [] }) s (frozenNow f x s) ∧ (frozenNow f x s).tenant f = some { x with freezing := none }
    ∧ frozen (frozenNow f x s) f = true ∧ (frozenNow f x s).flag (TENANT_CFG f) TENANT_CFG_FROZEN = true ∧ ∀ a, a ≠ FUNC_STATUS f → a ≠ TENANT_CFG f → (frozenNow f x s).rd a = s.rd a := by
  refine ⟨((Only.rfl.setTenant _ _).wrB _ _ _).wrB _ _ _, ?_, frozen_wrB _ (flag_wrB_same _ _ _ _ (by decide) (by decide)), flag_wrB_same _ _ _ _ (by decide) (by decide), fun a h1 h2 => ?_⟩
  · exact (tenant_congr rfl f).trans (tenant_setTenant_same _ _ _)
  · exact (rd_wrB_ne h2 _ _ _).trans ((rd_wrB_ne h1 _ _ _).trans (rd_setTenant _ _ _ _))

theorem tenantFreezeDone_rule {f : Fun} {x : Tenant} {tk : Ticket} {s : State} (hx : s.tenant f = some x) (hk : x.freezing = some tk) (hp : partsFrozen s f = true) :
    ∃ u, (u = { s with regs := u.regs, tenants := u.tenants, out := [] } ∧ u.tenant f = some { x with freezing := none }
        ∧ frozen u f = true ∧ u.flag (TENANT_CFG f) TENANT_CFG_FROZEN = true ∧ ∀ a, a ≠ FUNC_STATUS f → a ≠ TENANT_CFG f → u.rd a = s.rd a)
      ∧ exec (.tenantFreezeDone f) s = .next (ran (fun _ => finish tk stOk 0 u) s) := by
  obtain ⟨h1, h2, h3, h4, h5⟩ := frozenNow_rule f x (fresh s)
  exact ⟨_, ⟨h1.regsTenants, h2, h3, h4, fun a ha hb => (h5 a ha hb).trans (rd_fresh _ _)⟩, congrArg Host.Outcome.next (ran_congr (freezeDone_frozen (s := fresh s) hx hk hp))⟩

/-! ## What leaves routes and tenants as they are -/

/-- Routes and tenants are as they were. -/
def KeepsGrants (s t : State) : Prop := t.routes = s.routes ∧ t.tenants = s.tenants

namespace KeepsGrants
variable {s t u : State}

theorem rfl : KeepsGrants s s := ⟨Eq.refl _, Eq.refl _⟩
theorem trans (h : KeepsGrants s t) (h' : KeepsGrants t u) : KeepsGrants s u := ⟨h'.1.trans h.1, h'.2.trans h.2⟩
theorem of_regsOnly (h : RegsOnly s t) : KeepsGrants s t := ⟨(congrArg State.routes h.eq :), (congrArg State.tenants h.eq :)⟩
theorem of_posted (h : Posted s t) : KeepsGrants s t := ⟨(congrArg State.routes h :), (congrArg State.tenants h :)⟩
theorem foldl {α : Type} {g : State → α → State} (hg : ∀ t x, KeepsGrants t (g t x)) (xs : List α) (s : State) : KeepsGrants s (xs.foldl g s) := by
  induction xs generalizing s with
  | nil => exact rfl
  | cons x xs ih => exact (hg s x).trans (ih _)
theorem ite {p : Prop} [Decidable p] (h : KeepsGrants s t) (h' : KeepsGrants s u) : KeepsGrants s (if p then t else u) := by
  split
  · exact h
  · exact h'

end KeepsGrants

theorem postPf0_keepsGrants (d : Die) (a b c : Nat) (s : State) : KeepsGrants s (postPf0 d a b c s) := by
  obtain ⟨h, -, -⟩ := posts_postPf0 (ok := True) d a b c s
  exact .of_posted h

theorem postPf1_keepsGrants (d : Die) (a b c : Nat) (s : State) : KeepsGrants s (postPf1 d a b c s) := by
  obtain ⟨h, -, -⟩ := posts_postPf1 (ok := True) d a b c s
  exact .of_posted h

theorem finish_posted (t : Ticket) (st dt : Nat) (s : State) : Posted s (finish t st dt s) := by
  unfold finish
  split
  · exact Eq.refl _
  · obtain ⟨h, -⟩ := settle_posts (ok := False) (q := t.ring) False.elim False.elim
    exact Eq.trans h (Eq.refl _)

theorem scrubFault_keepsGrants (d : Die) (bit : Nat) (last : Fun) (s : State) : KeepsGrants s (scrubFault d bit last s) := by
  have h0 : KeepsGrants s { s with outOfService := unitKey d bit :: s.outOfService } := ⟨rfl, rfl⟩
  have h1 := h0.trans (postPf0_keepsGrants d 0x0012 bit last.fn _)
  unfold scrubFault
  exact .ite (h1.trans (postPf1_keepsGrants _ _ _ _ _)) h1

theorem scrub_keepsGrants (d : Die) (bit : Nat) (last : Fun) (s : State) : KeepsGrants s (scrub d bit last s) := by
  unfold scrub
  exact .ite (scrubFault_keepsGrants _ _ _ _) .rfl

/-- The status of a channel's trigger entry. -/
def armShown (c : Nat) (arms : Tab HapArm) (t : State) (i : Nat) : State :=
  let b := HAP_ARM (hapDie c) (hapNo c) i
  match tfind i arms with
  | none => wr b 0 t
  | some m =>
    let pin := match t.route m.route with
      | some r => epSub r.source
      | none => 0
    t |> wrB b HAP_ARM_ARMED (m.armed && (hapRoute t c).isSome) |> wrF b HAP_ARM_PIN pin |> wrF b HAP_ARM_EFFECT m.start.effect |> wrF b HAP_ARM_ROUTE m.route

theorem armShown_regs (c : Nat) (arms : Tab HapArm) (t : State) (i : Nat) : RegsOnly t (armShown c arms t i) := by
  unfold armShown
  dsimp only
  split
  · exact regsOnly_wr _ _ _
  · exact (((regsOnly_wr _ _ _).trans (regsOnly_wr _ _ _)).trans (regsOnly_wr _ _ _)).trans (regsOnly_wr _ _ _)

theorem refreshHap_regs (c : Nat) (s : State) : RegsOnly s (refreshHap c s) := by
  obtain ⟨u, hu, hgo⟩ : ∃ u, RegsOnly s u ∧ refreshHap c s = (upto 4).foldl (armShown c (s.hap c).arms) u :=
    ⟨_, ((((regsOnly_wr _ _ _).trans (regsOnly_wr _ _ _)).trans (regsOnly_wr _ _ _)).trans (regsOnly_wr _ _ _)).trans (regsOnly_wr _ _ _), rfl⟩
  rw [hgo]
  exact hu.trans (foldl_regsOnly (armShown_regs c _) _ _)

theorem hapScrub_keepsGrants (c : Nat) (last : Fun) (s : State) : KeepsGrants s (hapScrub c last s) := by
  have h1 : ∀ t x, KeepsGrants t (setHap c x t) := fun _ _ => ⟨rfl, rfl⟩
  exact (((scrub_keepsGrants _ _ _ _).trans (h1 _ _)).trans (.foldl (fun t p => .of_posted (finish_posted _ _ _ _)) _ _)).trans (.of_regsOnly (refreshHap_regs _ _))

theorem hapOwnerGone_keepsGrants (f : Fun) (s : State) : KeepsGrants s (hapOwnerGone f s) := by
  have h1 : ∀ c x t, KeepsGrants t (setHap c x t) := fun _ _ _ => ⟨rfl, rfl⟩
  exact .foldl (fun t x => ((hapScrub_keepsGrants _ f t).trans (h1 _ _ _)).trans (.of_regsOnly (refreshHap_regs _ _))) _ _

theorem scrubDsps_keepsGrants (f : Fun) (s : State) : KeepsGrants s (scrubDsps f s) := by
  have h1 : ∀ b x t, KeepsGrants t (setBus b x t) := fun _ _ _ => ⟨rfl, rfl⟩
  exact .foldl (fun t b => (h1 _ _ _).trans (scrub_keepsGrants _ _ _ _)) _ _

theorem scrubAll_keepsGrants (f : Fun) (fails : List Nat) (s : State) : KeepsGrants s (scrubAll f fails s) := by
  have h1 : ∀ d x t, KeepsGrants t (setGpu d x t) := fun _ _ _ => ⟨rfl, rfl⟩
  exact (((KeepsGrants.foldl (fun t k => scrubFault_keepsGrants _ _ f t) _ _).trans (hapOwnerGone_keepsGrants f _)).trans (scrubDsps_keepsGrants f _)).trans
    (.foldl (fun t d => h1 _ _ _) _ _)

/-! ## The end of a destruction (R97) -/

/-- The table without a tenant. -/
def tenantGone (f : Fun) (s : State) : State := { s with tenants := tkeep (fun k => k != f.key) s.tenants }

theorem dropTenant_eq (f : Fun) (s : State) : dropTenant f s = wrB (FUNC_STATUS f) FUNC_STATUS_FROZEN false (wrB (TENANT_CFG f) TENANT_CFG_FROZEN false (showGrants f false 0 (tenantGone f s))) := rfl

theorem tenantCfg_ne_funcStatus {f : Fun} (hf : f.fn ≤ 31) : TENANT_CFG f ≠ FUNC_STATUS f := by
  have h63 : f.fn ≠ 63 := by omega
  unfold TENANT_CFG FUNC_STATUS Fun.slot
  rw [if_neg h63]
  omega

theorem tenantGone_tenant (f : Fun) (s : State) : (tenantGone f s).tenant f = none := by
  unfold tenantGone State.tenant
  rw [tfind_tkeep, bne_self_eq_false]
  rfl

theorem tenantGone_other {f g : Fun} (hf : f.fn ≤ 31) (hg : g.fn ≤ 31) (h : g ≠ f) (s : State) : (tenantGone f s).tenant g = s.tenant g := by
  unfold tenantGone State.tenant
  rw [tfind_tkeep, bne_iff_ne.2 (key_ne hf hg h)]
  rfl

theorem dropTenant_rule {f : Fun} (hf : f.fn ≤ 31) (s : State) : (dropTenant f s).tenant f = none ∧ (dropTenant f s).routes = s.routes
    ∧ (dropTenant f s).flag (TENANT_CFG f) TENANT_CFG_CREATED = false ∧ (dropTenant f s).flag (FUNC_STATUS f) FUNC_STATUS_FROZEN = false
    ∧ ∀ g : Fun, g.fn ≤ 31 → g ≠ f → (dropTenant f s).tenant g = s.tenant g := by
  rw [dropTenant_eq]
  obtain ⟨h1, h2, -⟩ := showGrants_rule hf false 0 (tenantGone f s)
  have hr : RegsOnly (tenantGone f s) (wrB (FUNC_STATUS f) FUNC_STATUS_FROZEN false (wrB (TENANT_CFG f) TENANT_CFG_FROZEN false (showGrants f false 0 (tenantGone f s)))) :=
    (h1.trans (regsOnly_wr _ _ _)).trans (regsOnly_wr _ _ _)
  refine ⟨(tenant_congr (tenants_of_regsOnly hr) f).trans (tenantGone_tenant _ _), (congrArg State.routes hr.eq :), ?_, flag_wrB_same _ _ _ _ (by decide) (by decide),
    fun g hg hne => (tenant_congr (tenants_of_regsOnly hr) g).trans (tenantGone_other hf hg hne s)⟩
  rw [flag_wrB_ne (tenantCfg_ne_funcStatus hf), flag_wrB_other _ _ _ _ _ (by decide) (by decide)]
  exact h2

theorem destroyDone_gone {f : Fun} {fails : List Nat} {x : Tenant} {tk : Ticket} {s : State} (hx : s.tenant f = some x) (hd : x.destroying = some (some tk)) (hr : grantedRoutes s f = []) :
    destroyDone f fails s = postLast tk 2 stOk 0 (dropTenant f (scrubAll f fails s)) := by
  unfold destroyDone
  rw [hx]
  dsimp only
  rw [hd]
  exact if_neg (fun hc => hc hr)

theorem tenantDestroyDone_rule {f : Fun} (fails : List Nat) {x : Tenant} {tk : Ticket} {s : State} (hx : s.tenant f = some x) (hd : x.destroying = some (some tk)) (hr : grantedRoutes s f = [])
    (hf : f.fn ≤ 31) : ∃ u, (u.tenant f = none ∧ u.routes = s.routes ∧ u.flag (TENANT_CFG f) TENANT_CFG_CREATED = false ∧ u.flag (FUNC_STATUS f) FUNC_STATUS_FROZEN = false
        ∧ ∀ g : Fun, g.fn ≤ 31 → g ≠ f → u.tenant g = s.tenant g)
      ∧ exec (.tenantDestroyDone f fails) s = .next (ran (fun _ => postLast tk 2 stOk 0 u) s) := by
  obtain ⟨k1, k2⟩ := scrubAll_keepsGrants f fails (fresh s)
  obtain ⟨h1, h2, h3, h4, h5⟩ := dropTenant_rule hf (scrubAll f fails (fresh s))
  exact ⟨_, ⟨h1, h2.trans k1, h3, h4, fun g hg hne => (h5 g hg hne).trans (tenant_congr k2 g)⟩, congrArg Host.Outcome.next (ran_congr (destroyDone_gone (s := fresh s) hx hd hr))⟩

/-! ## The statement -/

/-- Settles O26: create, modify and STATE_SIZE, the end of a destruction, and the end of a freeze. -/
theorem tenantsHoldGrantsAndEnd : Obligations.TenantsHoldGrantsAndEnd := by
  refine ⟨fun q d s f hf h1 h31 => ?_, fun f fails x tk s hx hd hr hfn => tenantDestroyDone_rule fails hx hd hr hfn, fun f x tk s hx hk hp => tenantFreezeDone_rule hx hk hp⟩
  obtain ⟨c1, c2, c3, c4, c5, c6⟩ := tenantCreate_rule (q := q) (d := d) hf h31 s
  refine ⟨c1, c2, c3, c4, c5, c6, fun x hx => ?_⟩
  obtain ⟨m1, m2, m3⟩ := tenantModify_rule (q := q) (d := d) hf h31 hx
  have hvf : vfOf q d = f := hf.symm
  exact ⟨m1, m2, m3, (worked_opStateSize (hvf ▸ hx)).trans (by rw [imageSize_pages])⟩

end Sys2Proof.Machine
end

section
/-! The COPY and CRC engines: switching at a boundary, choosing, and the spans of a plain copy (O51; R392, R395, R397, R398, R499). -/
namespace Sys2Proof.Machine

theorem check_fresh (s : State) (d : Die) : (fresh s).check d = s.check d := rfl
theorem check_setCheck_same (d : Die) (x : Checks) (s : State) : (setCheck d x s).check d = x := tget_tset_same _ _ _ _
theorem check_of_regsOnly {s t : State} (h : RegsOnly s t) (d : Die) : t.check d = s.check d := congrArg (tget Checks.empty d.idx) (congrArg State.checks h.eq :)

/-! ## Switching (R392, R499) -/

/-- A COPY engine lets its job do one span, and leaves it. -/
def copyLeft (d : Die) (j : CheckJob) (s : State) : State :=
  setCheck d { (span d j s).check d with copying := none, serving := ((span d j s).check d).serving.filter (fun x => x.2 != j.ticket.tag) } (span d j s)

/-- A CRC engine lets its job do one span, and leaves it. -/
def crcLeft_ (d : Die) (e : Nat) (j : CheckJob) (s : State) : State :=
  setCheck d { (span d j s).check d with serving := tkeep (fun k => k != e) ((span d j s).check d).serving } (span d j s)

theorem copySwitch_idle {d : Die} {s : State} (h : (s.check d).copying = none) : copySwitch d s = pickCopy d s := by
  unfold copySwitch
  rw [h]
  rfl

theorem copySwitch_job {d : Die} {s : State} {g : Nat} {j : CheckJob} (h : (s.check d).copying = some g) (hj : (s.check d).jobs.find? (fun k => k.ticket.tag == g) = some j) :
    copySwitch d s = pickCopy d ((if usesCrc j then pickCrc d (j.engine % 4) else id) (copyLeft d j s)) := by
  have hb : (s.check d).copying.bind (fun g => (s.check d).jobs.find? (fun j => j.ticket.tag == g)) = some j := by
    rw [h]
    exact hj
  have hgo : copySwitch d s = pickCopy d (if usesCrc j then pickCrc d (j.engine % 4) (copyLeft d j s) else copyLeft d j s) := by
    unfold copySwitch
    rw [hb]
    exact rfl
  rw [hgo]
  split <;> rfl

theorem crcSwitch_idle {e : Nat} {s : State} (he : e < 8) (h : tfind (e % 4) (s.check (engineDie e)).serving = none) : crcSwitch e s = pickCrc (engineDie e) (e % 4) s := by
  unfold crcSwitch
  dsimp only
  rw [if_neg (by omega), h]
  rfl

theorem crcSwitch_job {e g : Nat} {s : State} {j : CheckJob} (he : e < 8) (h : tfind (e % 4) (s.check (engineDie e)).serving = some g)
    (hj : (s.check (engineDie e)).jobs.find? (fun k => k.ticket.tag == g) = some j) :
    crcSwitch e s = if usesCopy j then s else pickCrc (engineDie e) (e % 4) (crcLeft_ (engineDie e) (e % 4) j s) := by
  have hb : (tfind (e % 4) (s.check (engineDie e)).serving).bind (fun g => (s.check (engineDie e)).jobs.find? (fun j => j.ticket.tag == g)) = some j := by
    rw [h]
    exact hj
  unfold crcSwitch
  dsimp only
  rw [if_neg (by omega), hb]
  rfl

/-! ## Choosing (R499) -/

/-- The entry of a route's engine in the status of the engines. -/
def engineShown (d : Die) (x : Checks) (t : State) (e : Nat) : State :=
  let job := (tfind e x.serving).bind (fun g => x.jobs.find? (fun j => j.ticket.tag == g))
  t |> wrB (CRC_ENGINE_STATUS d e) CRC_ENGINE_STATUS_BUSY job.isSome
    |> wrF (CRC_ENGINE_STATUS d e) CRC_ENGINE_STATUS_ROUTE (match job with
        | some j => j.handle
        | none => 0)
    |> wrF (CRC_ENGINE_STATUS d e) CRC_ENGINE_STATUS_ROUTES ((routesOf t 7).filter (fun r => epUnit r.2.source == 4 * d.idx + e)).length

theorem refreshChecks_regs (d : Die) (s : State) : RegsOnly s (refreshChecks d s) := by
  have hgo : refreshChecks d s = (upto 4).foldl (engineShown d (s.check d)) (wrB (COPY_STATUS d) COPY_STATUS_BUSY (s.check d).copying.isSome s) := rfl
  rw [hgo]
  exact (regsOnly_wr _ _ _).trans (foldl_regsOnly (fun t e => ((regsOnly_wr _ _ _).trans (regsOnly_wr _ _ _)).trans (regsOnly_wr _ _ _)) _ _)

/-- A leave that is used leaves the engines as they are, but for their list of jobs. -/
theorem takeLeave_engines (d : Die) (j : CheckJob) (s : State) : ((takeLeave d j s).check d).serving = (s.check d).serving ∧ ((takeLeave d j s).check d).copying = (s.check d).copying := by
  unfold takeLeave
  split
  · exact ⟨rfl, rfl⟩
  · have hl : (useLeave d 1 j.ticket.tag s).check d = s.check d := rfl
    have hc : ((s |> useLeave d 1 j.ticket.tag |> setCheckJob d { j with leave := true }).check d) = _ := check_setCheck_same _ _ _
    rw [hc, hl]
    exact ⟨rfl, rfl⟩

theorem pickCopy_busy {d : Die} {s : State} (h : (s.check d).copying.isSome = true) : pickCopy d s = s := by
  unfold pickCopy
  exact if_pos h

theorem pickCrc_chooses {d : Die} {e : Nat} {s : State} {j : CheckJob} (hs : (s.check d).serving = []) (hu : unitsStopped s [unitKey d (bitCrc e)] = false)
    (hj : leastRank (fun j => (if crcBelowShare s d j.ticket.fn then 0 else 2) + b2n (isOpal s j.ticket.fn)) (engineFronts s d e) = some j) :
    pickCrc d e s = refreshChecks d (pickCopy d (takeLeave d j (setCheck d { s.check d with serving := tset e j.ticket.tag (s.check d).serving } s))) := by
  unfold pickCrc
  dsimp only
  rw [if_neg (by rw [hs, hu]; exact fun hc => hc.elim Bool.false_ne_true Bool.false_ne_true), hj]

theorem pickCrc_serving {d : Die} {e : Nat} {s : State} {j : CheckJob} (hs : (s.check d).serving = []) (hu : unitsStopped s [unitKey d (bitCrc e)] = false) (hc : (s.check d).copying.isSome = true)
    (hj : leastRank (fun j => (if crcBelowShare s d j.ticket.fn then 0 else 2) + b2n (isOpal s j.ticket.fn)) (engineFronts s d e) = some j) : ((pickCrc d e s).check d).serving = [(e, j.ticket.tag)] := by
  obtain ⟨u, hu'⟩ : ∃ u, u = setCheck d { s.check d with serving := tset e j.ticket.tag (s.check d).serving } s := ⟨_, rfl⟩
  have hx : u.check d = { s.check d with serving := tset e j.ticket.tag (s.check d).serving } := hu' ▸ check_setCheck_same _ _ _
  obtain ⟨t1, t2⟩ := takeLeave_engines d j u
  have hbusy : ((takeLeave d j u).check d).copying.isSome = true := by
    rw [t2, hx]
    exact hc
  rw [pickCrc_chooses hs hu hj, ← hu', pickCopy_busy hbusy, check_of_regsOnly (refreshChecks_regs _ _), t1, hx, hs]
  rfl

/-! ## The spans of a plain copy (R395, R397, R398) -/

theorem lastStep_copy {d : Die} {j : CheckJob} {s : State} (h : jobOp j = 0x10) : lastStep d j s = endJob_ d j stOk 0 s := by
  unfold lastStep
  dsimp only
  rw [if_neg (by omega), if_pos (.inl h)]

theorem destBytes_apart {j : CheckJob} {bs : List Byte} {s : State} (h : rangesMeet j = false) : destBytes j bs s = (bs, s) := by
  unfold destBytes
  exact if_neg (by rw [h]; exact Bool.false_ne_true)

/-- The bytes of the next span of a job. -/
def spanLen (j : CheckJob) : Nat := min 4096 (jobLen j - j.pos)

/-- A plain copy's job after its span. -/
def spanned (j : CheckJob) : CheckJob := { j with pos := j.pos + spanLen j, value := none }

theorem span_copy {d : Die} {j : CheckJob} {s s0 s1 s2 : State} {bs ws : List Byte} {marks : List Bool} (hc : usesCopy j = true) (hk : usesCrc j = false)
    (hr : copyRead d j.ticket.fn j.ticket.ring.ring ((dget j.desc 8 0 64 + j.pos) % 2 ^ 64) (spanLen j) 20 s = (.ok (bs, marks), s1))
    (hd : destBytes j bs s1 = (ws, s0)) (hw : copyWrite d j.ticket.fn j.ticket.ring.ring ((dget j.desc 16 0 64 + j.pos) % 2 ^ 64) ws marks s0 = (none, s2)) :
    span d j s = if marks.any id then endJob_ d j stEccUncorr 0 (add64 (COPY_BYTES_LO d) (spanLen j) s2)
      else if jobLen j ≤ j.pos + spanLen j then lastStep d (spanned j) (setCheckJob d (spanned j) (add64 (COPY_BYTES_LO d) (spanLen j) s2))
      else setCheckJob d (spanned j) (add64 (COPY_BYTES_LO d) (spanLen j) s2) := by
  have hport : (if usesCopy j = true then 20 else 21) = 20 := if_pos hc
  unfold spanLen at hr
  unfold span
  dsimp only
  rw [hport, hr]
  dsimp only
  rw [if_pos hc, hk, if_neg Bool.false_ne_true, hd]
  dsimp only
  rw [hw]
  rfl

/-! ## The statement -/

/-- Settles O51: the engines at a boundary, the choice of the job of least rank, and the spans of a plain copy. -/
theorem enginesMoveAndCheck : Obligations.EnginesMoveAndCheck := by
  refine ⟨fun d s => ⟨fun h => congrArg Host.Outcome.next (ran_congr (copySwitch_idle h)), fun g j h hj => congrArg Host.Outcome.next (ran_congr (copySwitch_job h hj))⟩,
    fun e s he => ⟨fun h => congrArg Host.Outcome.next (ran_congr (crcSwitch_idle he h)), fun g j h hj => ⟨fun hc => ?_, fun hc => ?_⟩⟩,
    fun d e s hs hu hc j hj => pickCrc_serving hs hu hc hj, fun d j s s0 s1 s2 bs ws marks hc hk hr hd hw => ?_⟩
  · refine congrArg Host.Outcome.next (ran_same ((crcSwitch_job (s := fresh s) he h hj).trans (if_pos hc)))
  · refine congrArg Host.Outcome.next (ran_congr ((crcSwitch_job (s := fresh s) he h hj).trans (if_neg ?_)))
    rw [hc]
    exact Bool.false_ne_true
  · have hgo := span_copy hc hk hr hd hw
    have hno : marks.any id = false → ¬ marks.any id = true := fun h hc => Bool.false_ne_true (h.symm.trans hc)
    refine ⟨fun h => ?_, fun h => hgo.trans (if_pos h), fun h hl => hgo.trans ((if_neg (hno h)).trans (if_pos hl)), fun h hl => hgo.trans ((if_neg (hno h)).trans (if_neg (by unfold spanLen; omega))), lastStep_copy⟩
    rw [destBytes_apart h] at hd
    exact ⟨(congrArg Prod.fst hd).symm, (congrArg Prod.snd hd).symm⟩

end Sys2Proof.Machine
end

section
/-! Memory is maintained: uncorrectable words, the patrol scrub, periodic training, refresh, and set-points (O47; R295 to R311). -/
namespace Sys2Proof.Machine

theorem dram_fresh (s : State) (d : Die) : (fresh s).dram d = s.dram d := rfl
theorem dram_setDram_same (d : Die) (x : Dram) (s : State) : (setDram d x s).dram d = x := tget_tset_same _ _ _ _
theorem dram_congr {s t : State} (h : t.drams = s.drams) (d : Die) : t.dram d = s.dram d := congrArg (tget Dram.empty d.idx) h

theorem Only.setDram {m : State → State} {s t : State} (h : Only m s t) (d : Die) (x : Dram)
    (hm : ∀ u r, m { u with drams := r } = m u := by intros; rfl) : Only m s (setDram d x t) := (hm _ _).trans h
theorem Only.regsDramsXings {s t : State} (h : Only (fun u => { u with regs := [], drams := [], xings := [] }) (fresh s) t) :
    t = { s with regs := t.regs, drams := t.drams, xings := t.xings, out := [] } := congrArg (fun u => { u with regs := t.regs, drams := t.drams, xings := t.xings }) h
theorem Only.regsDrams {s t : State} (h : Only (fun u => { u with regs := [], drams := [] }) (fresh s) t) : t = { s with regs := t.regs, drams := t.drams, out := [] } :=
  congrArg (fun u => { u with regs := t.regs, drams := t.drams }) h
theorem Only.drams {s t : State} (h : Only (fun u => { u with drams := [] }) (fresh s) t) : t = { s with drams := t.drams, out := [] } :=
  congrArg (fun u => { u with drams := t.drams }) h

/-! ## Uncorrectable words (R295, R296) -/

theorem channelOf_lt (off : Nat) : channelOf off < 8 :=
  Nat.xor_lt_two_pow (n := 3) (Nat.xor_lt_two_pow (n := 3) (Nat.mod_lt _ (by decide)) (Nat.mod_lt _ (by decide))) (Nat.mod_lt _ (by decide))

/-- The word is marked and counted. -/
def wordMarked (d : Die) (w : Nat) (s : State) : State :=
  rinlarCount d (16 + channelOf w) 1 (satF (DRAM_ECC_UNCORR d (channelOf w)) DRAM_ECC_UNCORR_COUNT 1 { s with poison := localKey (2 ^ 35 * d.idx + w) :: s.poison })

/-- The record of the first word since VALID was cleared. -/
def wordRecorded (d : Die) (f : Fun) (port w : Nat) (scrub : Bool) (s : State) : State :=
  if s.flag (DRAM_ECC_INFO d) DRAM_ECC_INFO_VALID then s
  else s |> wrB (DRAM_ECC_INFO d) DRAM_ECC_INFO_VALID true |> wrB (DRAM_ECC_INFO d) DRAM_ECC_INFO_POISON false
    |> wrB (DRAM_ECC_INFO d) DRAM_ECC_INFO_SCRUB scrub |> wrF (DRAM_ECC_INFO d) DRAM_ECC_INFO_CH (channelOf w)
    |> wrF (DRAM_ECC_INFO d) DRAM_ECC_INFO_PORT port |> wrF (DRAM_ECC_INFO d) DRAM_ECC_INFO_FUNC f.fn
    |> wrF (DRAM_ECC_INFO d) DRAM_ECC_INFO_EP (b2n (f.ep != d)) |> wr64 (DRAM_ECC_ADDR_LO d) w

theorem eccFound_marked {d : Die} {f : Fun} {port off : Nat} {scrub : Bool} {s : State} (h : s.poison.contains (localKey (2 ^ 35 * d.idx + off / 4 * 4)) = true) :
    eccFound d f port off scrub s = s := by
  unfold eccFound
  exact if_pos (.inr h)

theorem eccFound_new {d : Die} {f : Fun} {port off : Nat} {scrub : Bool} {s : State} (he : inEccData s d (off / 4 * 4) = true)
    (hp : s.poison.contains (localKey (2 ^ 35 * d.idx + off / 4 * 4)) = false) (hc : inCarve s d (off / 4 * 4) = false) :
    eccFound d f port off scrub s = postPf0 d 0x0600 (channelOf (off / 4 * 4))
      (off / 4 * 4 + port * 2 ^ 64 + f.fn * 2 ^ 72 + (b2n (f.ep != d) + 4 * b2n scrub) * 2 ^ 80) (wordRecorded d f port (off / 4 * 4) scrub (wordMarked d (off / 4 * 4) s)) := by
  obtain ⟨v, hv⟩ : ∃ v, v = wordMarked d (off / 4 * 4) s := ⟨_, rfl⟩
  have hcond : ¬(inEccData s d (off / 4 * 4) = false ∨ s.poison.contains (localKey (2 ^ 35 * d.idx + off / 4 * 4)) = true) := by
    rw [he, hp]
    exact fun hc => hc.elim Bool.noConfusion Bool.noConfusion
  have hgo : eccFound d f port off scrub s = if inEccData s d (off / 4 * 4) = false ∨ s.poison.contains (localKey (2 ^ 35 * d.idx + off / 4 * 4)) = true then s
      else if inCarve s d (off / 4 * 4) then
        postPf1 d 0x0600 (channelOf (off / 4 * 4)) (off / 4 * 4 + port * 2 ^ 64 + f.fn * 2 ^ 72 + (b2n (f.ep != d) + 4 * b2n scrub) * 2 ^ 80)
          (postPf0 d 0x0600 (channelOf (off / 4 * 4)) ((if inCarve s d (off / 4 * 4) then 0 else off / 4 * 4) + port * 2 ^ 64 + f.fn * 2 ^ 72 + (b2n (f.ep != d) + 4 * b2n scrub) * 2 ^ 80)
            (wordRecorded d f port (off / 4 * 4) scrub v))
      else postPf0 d 0x0600 (channelOf (off / 4 * 4)) ((if inCarve s d (off / 4 * 4) then 0 else off / 4 * 4) + port * 2 ^ 64 + f.fn * 2 ^ 72 + (b2n (f.ep != d) + 4 * b2n scrub) * 2 ^ 80)
        (wordRecorded d f port (off / 4 * 4) scrub v) := by
    rw [hv]
    rfl
  rw [hgo, if_neg hcond, hc, if_neg Bool.false_ne_true, if_neg Bool.false_ne_true, hv]

theorem eccInfo_ne_uncorr (d : Die) (w : Nat) : DRAM_ECC_UNCORR d (channelOf w) ≠ DRAM_ECC_INFO d ∧ DRAM_ECC_UNCORR d (channelOf w) ≠ DRAM_ECC_ADDR_LO d
    ∧ DRAM_ECC_UNCORR d (channelOf w) ≠ DRAM_ECC_ADDR_LO d + 4 ∧ DRAM_ECC_INFO d ≠ DRAM_ECC_ADDR_LO d ∧ DRAM_ECC_INFO d ≠ DRAM_ECC_ADDR_LO d + 4 := by
  have := channelOf_lt w
  unfold DRAM_ECC_UNCORR DRAM_ECC_INFO DRAM_ECC_ADDR_LO
  omega

theorem wordRecorded_rule (d : Die) (f : Fun) (port w : Nat) (scrub : Bool) (s : State) : RegsOnly s (wordRecorded d f port w scrub s)
    ∧ (wordRecorded d f port w scrub s).rd (DRAM_ECC_UNCORR d (channelOf w)) = s.rd (DRAM_ECC_UNCORR d (channelOf w))
    ∧ (wordRecorded d f port w scrub s).flag (DRAM_ECC_INFO d) DRAM_ECC_INFO_VALID = true := by
  obtain ⟨h1, h2, h3, h4, h5⟩ := eccInfo_ne_uncorr d w
  unfold wordRecorded
  split
  · rename_i hv
    exact ⟨.rfl, rfl, hv⟩
  · refine ⟨((((((((regsOnly_wr _ _ _).trans (regsOnly_wr _ _ _)).trans (regsOnly_wr _ _ _)).trans (regsOnly_wr _ _ _)).trans (regsOnly_wr _ _ _)).trans (regsOnly_wr _ _ _)).trans
      (regsOnly_wr _ _ _)).trans (regsOnly_wr _ _ _)).trans (regsOnly_wr _ _ _), ?_, ?_⟩
    · simp only [rd_wr64_ne h2 h3, rd_wrF_ne h1, rd_wrB_ne h1]
    · rw [flag_of_rd (rd_wr64_ne h4 h5 _ _)]
      simp (disch := decide) only [flag_wrF_other, flag_wrB_other, flag_wrB_same]

theorem wordMarked_rule (d : Die) (w : Nat) (s : State) :
    Only (fun u => { u with regs := [], rinlar := [], poison := [] }) s (wordMarked d w s) ∧ (wordMarked d w s).poison = localKey (2 ^ 35 * d.idx + w) :: s.poison
    ∧ (wordMarked d w s).rdF (DRAM_ECC_UNCORR d (channelOf w)) DRAM_ECC_UNCORR_COUNT
      = min (2 ^ DRAM_ECC_UNCORR_COUNT.len - 1) (s.rdF (DRAM_ECC_UNCORR d (channelOf w)) DRAM_ECC_UNCORR_COUNT + 1) := by
  have h0 : Only (fun u => { u with regs := [], rinlar := [], poison := [] }) s { s with poison := localKey (2 ^ 35 * d.idx + w) :: s.poison } := rfl
  refine ⟨(h0.satF _ _ _).setRin _ _, rfl, ?_⟩
  rw [wordMarked, rinlarCount, rinlarAdd, rdF_of_rd (rd_setRin _ _ _ _), rdF_satF_same _ _ _ _ (by decide)]
  exact congrArg (fun n => min (2 ^ DRAM_ECC_UNCORR_COUNT.len - 1) (n + 1)) (rdF_congr rfl rfl _ _)

theorem eccFound_rule {d : Die} {f : Fun} {port off : Nat} {scrub : Bool} {s : State} (he : inEccData s d (off / 4 * 4) = true)
    (hp : s.poison.contains (localKey (2 ^ 35 * d.idx + off / 4 * 4)) = false) (hc : inCarve s d (off / 4 * 4) = false) :
    ∃ u, (u = { s with regs := u.regs, rinlar := u.rinlar, poison := localKey (2 ^ 35 * d.idx + off / 4 * 4) :: s.poison }
        ∧ u.rdF (DRAM_ECC_UNCORR d (channelOf (off / 4 * 4))) DRAM_ECC_UNCORR_COUNT
            = min (2 ^ DRAM_ECC_UNCORR_COUNT.len - 1) (s.rdF (DRAM_ECC_UNCORR d (channelOf (off / 4 * 4))) DRAM_ECC_UNCORR_COUNT + 1)
        ∧ u.flag (DRAM_ECC_INFO d) DRAM_ECC_INFO_VALID = true)
      ∧ eccFound d f port off scrub s = postPf0 d 0x0600 (channelOf (off / 4 * 4)) (off / 4 * 4 + port * 2 ^ 64 + f.fn * 2 ^ 72 + (b2n (f.ep != d) + 4 * b2n scrub) * 2 ^ 80) u := by
  obtain ⟨m1, m2, m3⟩ := wordMarked_rule d (off / 4 * 4) s
  obtain ⟨r1, r2, r3⟩ := wordRecorded_rule d f port (off / 4 * 4) scrub (wordMarked d (off / 4 * 4) s)
  refine ⟨_, ⟨?_, (rdF_of_rd r2 _).trans m3, r3⟩, eccFound_new he hp hc⟩
  obtain ⟨v, hv⟩ : ∃ v, v = wordRecorded d f port (off / 4 * 4) scrub (wordMarked d (off / 4 * 4) s) := ⟨_, rfl⟩
  rw [← hv] at r1 ⊢
  have hpo : v.poison = localKey (2 ^ 35 * d.idx + off / 4 * 4) :: s.poison := (congrArg State.poison r1.eq :).trans m2
  have h := m1.trans (Only.of_regsOnly r1)
  rw [← hpo]
  exact congrArg (fun u => { u with regs := v.regs, rinlar := v.rinlar, poison := v.poison }) h

/-! ## The patrol scrub (R298) -/

theorem patrol_runs {d : Die} {bad : List Nat} {s : State} (hp : s.rdF (DRAM_SCRUB d) DRAM_SCRUB_PERIOD_H ≠ 0) (hr : s.flag (DRAM_STATUS d) DRAM_STATUS_SELF_REFRESH = false)
    (hy : s.flag (DRAM_STATUS d) DRAM_STATUS_READY = true) : patrol d [] bad s = bad.foldl (fun t w => eccFound d (pf0 d) 23 w true t) s := by
  unfold patrol
  exact if_neg (fun hc => hc.elim hp fun hc => hc.elim (fun hc => Bool.false_ne_true (hr.symm.trans hc)) fun hc => Bool.false_ne_true (hc.symm.trans hy))

/-! ## Periodic training (R308, R311) -/

theorem trainPass_begins {d : Die} {s : State} (h1 : s.flag (DRAM_TRAIN_CFG d) DRAM_TRAIN_CFG_PERIODIC_EN = true) (h2 : s.flag (DRAM_STATUS d) DRAM_STATUS_READY = true)
    (h3 : s.flag (DRAM_STATUS d) DRAM_STATUS_SELF_REFRESH = false) (h4 : (s.dram d).training = none) : trainPass d s = setDram d { s.dram d with training := some ⟨0, 0, 0, false⟩ } s := by
  unfold trainPass
  exact if_pos ⟨h1, h2, h3, h4⟩

theorem trainStart_gathers {d : Die} {tr : Training} {s : State} (ht : (s.dram d).training = some tr) (hb : s.flag (DRAM_STATUS d) DRAM_STATUS_FSP_BUSY = false)
    (hr : s.flag (DRAM_STATUS d) DRAM_STATUS_SELF_REFRESH = false) (hg : s.rdF (DRAM_STATUS d) DRAM_STATUS_GATHERING = 0) :
    trainStart d [] s = wrF (DRAM_STATUS d) DRAM_STATUS_GATHERING (2 ^ tr.ch) s := by
  unfold trainStart
  rw [ht]
  refine if_neg ?_
  rw [hb, hr, hg]
  exact fun hc => hc.elim Bool.false_ne_true fun hc => hc.elim Bool.false_ne_true fun hc => hc.elim Bool.false_ne_true fun hc => hc rfl

theorem trainStepStart_rule {d : Die} {tr : Training} {s : State} (ht : (s.dram d).training = some tr) (hb : s.flag (DRAM_STATUS d) DRAM_STATUS_FSP_BUSY = false)
    (hr : s.flag (DRAM_STATUS d) DRAM_STATUS_SELF_REFRESH = false) (hg : s.rdF (DRAM_STATUS d) DRAM_STATUS_GATHERING = 0) (hch : tr.ch < 8) :
    ∃ t, exec (.trainStepStart d []) s = .next t ∧ t = { s with regs := t.regs, out := [] } ∧ t.rdF (DRAM_STATUS d) DRAM_STATUS_GATHERING = 2 ^ tr.ch ∧ ∀ a, a ≠ DRAM_STATUS d → t.rd a = s.rd a := by
  have hgo := trainStart_gathers (s := fresh s) ht ((flag_fresh _ _ _).trans hb) ((flag_fresh _ _ _).trans hr) ((rdF_fresh _ _ _).trans hg)
  have hend : RegsOnly (fresh s) (wrF (DRAM_STATUS d) DRAM_STATUS_GATHERING (2 ^ tr.ch) (fresh s)) := regsOnly_wr _ _ _
  exact ⟨_, congrArg Host.Outcome.next (ran_regsOnly hend hgo), hend.fresh, rdF_wrF_of_lt (by decide) (Nat.pow_lt_pow_right (by decide) hch), fun a ha => (rd_wrF_ne ha _ _ _).trans (rd_fresh _ _)⟩

/-- The step has ended, and the pass is at another place. -/
def stepEnded (d : Die) (x : Option Training) (s : State) : State :=
  setDram d { (wrF (DRAM_STATUS d) DRAM_STATUS_GATHERING 0 s).dram d with training := x } (wrF (DRAM_STATUS d) DRAM_STATUS_GATHERING 0 s)

theorem stepEnded_rule (d : Die) (x : Option Training) (s : State) : Only (fun u => { u with regs := [], drams := [] }) s (stepEnded d x s)
    ∧ (stepEnded d x s).dram d = { s.dram d with training := x } ∧ (stepEnded d x s).rdF (DRAM_STATUS d) DRAM_STATUS_GATHERING = 0
    ∧ ∀ a, a ≠ DRAM_STATUS d → (stepEnded d x s).rd a = s.rd a := by
  refine ⟨(Only.rfl.wrF _ _ _).setDram _ _, ?_, ?_, fun a ha => (rd_setDram _ _ _ _).trans (rd_wrF_ne ha _ _ _)⟩
  · rw [stepEnded, dram_setDram_same]
    rfl
  · rw [stepEnded, rdF_of_rd (rd_setDram _ _ _ _)]
    exact rdF_wrF_of_lt (by decide) (by decide)

section
variable {d : Die} {outside : Bool} {tr : Training} {s : State} (ht : (s.dram d).training = some tr) (hg : s.rdF (DRAM_STATUS d) DRAM_STATUS_GATHERING ≠ 0)
include ht hg

theorem trainDone_discarded (h : tr.discard = true) : trainDone d outside s = haltXings d dramXings (stepEnded d (some { tr with step := 0, discard := false }) s) := by
  unfold trainDone
  rw [ht]
  dsimp only
  rw [if_neg hg, if_pos h]
  rfl

theorem trainDone_counted (h : tr.discard = false) (hs : tr.step + 1 < trainSteps tr.kind) : trainDone d outside s = stepEnded d (some { tr with step := tr.step + 1 }) s := by
  unfold trainDone
  rw [ht]
  dsimp only
  rw [if_neg hg, if_neg (by rw [h]; exact Bool.false_ne_true), if_pos hs]
  rfl

theorem trainDone_last (h : tr.discard = false) (hs : trainSteps tr.kind ≤ tr.step + 1) : trainDone d outside s = if outside then
      postPf0 d 0x0603 tr.ch ((if tr.kind = 0 then 4 else tr.kind + 1) + s.rdF (DRAM_STATUS d) DRAM_STATUS_FSP_CUR * 2 ^ 8)
        (rinlarCount d 43 1 (satF (DRAM_TRAIN_STATUS d) DRAM_TRAIN_STATUS_FAILS 1 (stepEnded d (trainNext tr) s)))
    else useFree 1 (setDram d { (stepEnded d (trainNext tr) s).dram d with
      results := tset (32 * s.rdF (DRAM_STATUS d) DRAM_STATUS_FSP_CUR + 4 * tr.ch + tr.kind) (s.freeNat 0) ((stepEnded d (trainNext tr) s).dram d).results } (stepEnded d (trainNext tr) s)) := by
  unfold trainDone
  rw [ht]
  dsimp only
  rw [if_neg hg, if_neg (by rw [h]; exact Bool.false_ne_true), if_neg (by omega)]
  rfl

end

theorem dramXings_le : ∀ n ∈ dramXings, n ≤ 0xFF := by decide
theorem mem_dramXings {i : Nat} (h : i < 32) : 0x20 + i ∈ dramXings := List.mem_map_of_mem (mem_upto h)

theorem trainStepDone_goesOn {d : Die} (outside : Bool) {tr : Training} {s : State} (ht : (s.dram d).training = some tr) (hg : s.rdF (DRAM_STATUS d) DRAM_STATUS_GATHERING ≠ 0)
    (h : tr.discard = true ∨ tr.step + 1 < trainSteps tr.kind) :
    ∃ t, exec (.trainStepDone d outside) s = .next t ∧ t = { s with regs := t.regs, drams := t.drams, xings := t.xings, out := [] } ∧ t.rdF (DRAM_STATUS d) DRAM_STATUS_GATHERING = 0
      ∧ (tr.discard = false → t.xings = s.xings) ∧ (tr.discard = true → ∀ i, i < 32 → (t.xing d (0x20 + i)).stopped = true)
      ∧ (t.dram d).training = some (if tr.discard then { tr with step := 0, discard := false } else { tr with step := tr.step + 1 })
      ∧ ∀ a, a ≠ DRAM_STATUS d → t.rd a = s.rd a := by
  have hg' : (fresh s).rdF (DRAM_STATUS d) DRAM_STATUS_GATHERING ≠ 0 := by
    rw [rdF_fresh]
    exact hg
  rcases Bool.eq_false_or_eq_true tr.discard with hd | hd
  · have hgo := trainDone_discarded (outside := outside) (s := fresh s) ht hg' hd
    obtain ⟨e1, e2, e3, e4⟩ := stepEnded_rule d (some { tr with step := 0, discard := false }) (fresh s)
    obtain ⟨v, hv⟩ : ∃ v, v = stepEnded d (some { tr with step := 0, discard := false }) (fresh s) := ⟨_, rfl⟩
    rw [← hv] at hgo e1 e2 e3 e4
    obtain ⟨x1, x2⟩ := haltXings_rule d dramXings dramXings_le v
    have hend := (e1.mono (k := fun u => { u with regs := [], drams := [], xings := [] })).trans x1.mono
    have hrd : ∀ a, (haltXings d dramXings v).rd a = v.rd a := fun a => x1.rd_eq a
    refine ⟨_, congrArg Host.Outcome.next (hend.ran hgo), hend.regsDramsXings, (rdF_of_rd (hrd _) _).trans e3, fun hc => absurd (hc.symm.trans hd) Bool.false_ne_true, fun _ i hi => ?_, ?_,
      fun a ha => (hrd a).trans ((e4 a ha).trans (rd_fresh _ _))⟩
    · rw [x2 _ (dramXings_le _ (mem_dramXings hi)), if_pos (mem_dramXings hi)]
    · have hdr : (haltXings d dramXings v).drams = v.drams := (congrArg State.drams x1 :)
      rw [dram_congr hdr, e2, if_pos hd]
  · have hgo := trainDone_counted (outside := outside) (s := fresh s) ht hg' hd (h.resolve_left (by rw [hd]; exact Bool.false_ne_true))
    obtain ⟨e1, e2, e3, e4⟩ := stepEnded_rule d (some { tr with step := tr.step + 1 }) (fresh s)
    refine ⟨_, congrArg Host.Outcome.next (e1.ran hgo), e1.mono.regsDramsXings, e3, fun _ => e1.xings_eq, fun hc => absurd (hd.symm.trans hc) Bool.false_ne_true, ?_, fun a ha => (e4 a ha).trans (rd_fresh _ _)⟩
    rw [e2, if_neg (by rw [hd]; exact Bool.false_ne_true)]

theorem trainStepDone_outside {d : Die} {tr : Training} {s : State} (ht : (s.dram d).training = some tr) (hg : s.rdF (DRAM_STATUS d) DRAM_STATUS_GATHERING ≠ 0)
    (h : tr.discard = false) (hs : trainSteps tr.kind ≤ tr.step + 1) :
    ∃ t, exec (.trainStepDone d true) s = .next t ∧ (t.dram d).training = trainNext tr ∧ (t.dram d).results = (s.dram d).results
      ∧ t.rdF (DRAM_TRAIN_STATUS d) DRAM_TRAIN_STATUS_FAILS = min (2 ^ DRAM_TRAIN_STATUS_FAILS.len - 1) (s.rdF (DRAM_TRAIN_STATUS d) DRAM_TRAIN_STATUS_FAILS + 1) := by
  have hg' : (fresh s).rdF (DRAM_STATUS d) DRAM_STATUS_GATHERING ≠ 0 := by
    rw [rdF_fresh]
    exact hg
  have hgo := (trainDone_last (outside := true) (s := fresh s) ht hg' h hs).trans (if_pos rfl)
  obtain ⟨-, e2, -, e4⟩ := stepEnded_rule d (trainNext tr) (fresh s)
  obtain ⟨v, hv⟩ : ∃ v, v = stepEnded d (trainNext tr) (fresh s) := ⟨_, rfl⟩
  rw [← hv] at hgo e2 e4
  obtain ⟨w, hw⟩ : ∃ w, w = rinlarCount d 43 1 (satF (DRAM_TRAIN_STATUS d) DRAM_TRAIN_STATUS_FAILS 1 v) := ⟨_, rfl⟩
  rw [← hw] at hgo
  obtain ⟨p1, p2, -⟩ := posts_postPf0 (ok := True) d 0x0603 tr.ch ((if tr.kind = 0 then 4 else tr.kind + 1) + (fresh s).rdF (DRAM_STATUS d) DRAM_STATUS_FSP_CUR * 2 ^ 8) w
  have hdram : (ran (trainDone d true) s).dram d = { s.dram d with training := trainNext tr } := by
    have h1 : (ran (trainDone d true) s).drams = w.drams := (congrArg State.drams hgo : (trainDone d true (fresh s)).drams = _).trans (congrArg State.drams p1 :)
    have h2 : w.drams = v.drams := by rw [hw]; rfl
    exact (dram_congr (h1.trans h2) d).trans e2
  refine ⟨ran (trainDone d true) s, rfl, by rw [hdram], by rw [hdram], ?_⟩
  have hrd : (ran (trainDone d true) s).rd (DRAM_TRAIN_STATUS d) = (satF (DRAM_TRAIN_STATUS d) DRAM_TRAIN_STATUS_FAILS 1 v).rd (DRAM_TRAIN_STATUS d) := by
    rw [ran_rd, hgo, p2 trivial (DRAM_TRAIN_STATUS d) (postReg_outside d (by decide) (by decide)), hw]
    exact rd_setRin _ _ _ _
  have hne : DRAM_TRAIN_STATUS d ≠ DRAM_STATUS d := by
    unfold DRAM_TRAIN_STATUS DRAM_STATUS
    omega
  rw [rdF_of_rd hrd, rdF_satF_same _ _ _ _ (by decide), rdF_of_rd (e4 _ hne), rdF_fresh]

theorem trainStepDone_inside {d : Die} {tr : Training} {s : State} (ht : (s.dram d).training = some tr) (hg : s.rdF (DRAM_STATUS d) DRAM_STATUS_GATHERING ≠ 0)
    (h : tr.discard = false) (hs : trainSteps tr.kind ≤ tr.step + 1) :
    ∃ t, exec (.trainStepDone d false) s = .next t ∧ (t.dram d).training = trainNext tr
      ∧ (tfind (32 * s.rdF (DRAM_STATUS d) DRAM_STATUS_FSP_CUR + 4 * tr.ch + tr.kind) (t.dram d).results).isSome = true := by
  have hg' : (fresh s).rdF (DRAM_STATUS d) DRAM_STATUS_GATHERING ≠ 0 := by
    rw [rdF_fresh]
    exact hg
  have hgo := (trainDone_last (outside := false) (s := fresh s) ht hg' h hs).trans (if_neg Bool.false_ne_true)
  obtain ⟨-, e2, -, -⟩ := stepEnded_rule d (trainNext tr) (fresh s)
  obtain ⟨v, hv⟩ : ∃ v, v = stepEnded d (trainNext tr) (fresh s) := ⟨_, rfl⟩
  rw [← hv, rdF_fresh] at hgo
  rw [← hv] at e2
  have hdram : (ran (trainDone d false) s).dram d = { v.dram d with
      results := tset (32 * s.rdF (DRAM_STATUS d) DRAM_STATUS_FSP_CUR + 4 * tr.ch + tr.kind) ((fresh s).freeNat 0) (v.dram d).results } :=
    (dram_congr (congrArg State.drams hgo : (trainDone d false (fresh s)).drams = _) d).trans (tget_tset_same _ _ _ _)
  refine ⟨ran (trainDone d false) s, rfl, ?_, ?_⟩
  · rw [hdram, e2]
  · rw [hdram]
    exact congrArg Option.isSome (tfind_tset_same _ _ _)

/-! ## Refresh (R308) -/

/-- The results that wait on a channel are applied. -/
def applied (ch : Nat) (x : Dram) : Dram :=
  { x with phy := (x.results.filter (fun r => r.1 / 4 % 8 == ch)).foldl (fun p r => tset r.1 r.2 p) x.phy, results := x.results.filter (fun r => r.1 / 4 % 8 != ch) }

theorem refreshes_eq {d : Die} {ch : Nat} {s : State} (hch : ch < 8) (hr : s.inReset.contains .memory = false) : refreshes d ch s = setDram d (applied ch (s.dram d)) s := by
  unfold refreshes
  dsimp only
  rw [if_neg (fun hc => hc.elim (fun hc => by omega) fun hc => Bool.false_ne_true (hr.symm.trans hc))]
  rfl

theorem applied_one {ch : Nat} {x : Dram} {r : Nat × Nat} (hx : x.results = [r]) (hr : r.1 / 4 % 8 = ch) : tfind r.1 (applied ch x).phy = some r.2 := by
  unfold applied
  dsimp only
  rw [hx, List.filter_cons_of_pos (p := fun r : Nat × Nat => r.1 / 4 % 8 == ch) (beq_iff_eq.2 hr), List.filter_nil]
  exact tfind_tset_same _ _ _

theorem dramRefresh_rule {d : Die} {ch : Nat} {s : State} (hch : ch < 8) (hr : s.inReset.contains .memory = false) :
    ∃ t, exec (.dramRefresh d ch) s = .next t ∧ t = { s with drams := t.drams, out := [] } ∧ (t.dram d).results = (s.dram d).results.filter (fun r => r.1 / 4 % 8 != ch)
      ∧ ∀ r, (s.dram d).results = [r] → r.1 / 4 % 8 = ch → tfind r.1 (t.dram d).phy = some r.2 := by
  have hgo := refreshes_eq (d := d) (s := fresh s) hch hr
  have hend : Only (fun u => { u with drams := [] }) (fresh s) (setDram d (applied ch (s.dram d)) (fresh s)) := Only.rfl.setDram _ _
  refine ⟨_, congrArg Host.Outcome.next (hend.ran hgo), hend.drams, ?_, fun r hx hr => ?_⟩
  · rw [dram_setDram_same]
    rfl
  · rw [dram_setDram_same]
    exact applied_one hx hr

/-! ## A new set-point (R309, R310) -/

/-- The channels halt for a set-point: at once, or at the end of the step that gathers. -/
def fspHalted (d : Die) (s : State) : State :=
  (if s.rdF (DRAM_STATUS d) DRAM_STATUS_GATHERING != 0 then id else haltXings d dramXings) (wrB (DRAM_STATUS d) DRAM_STATUS_FSP_BUSY true s)

theorem fspHalted_rule (d : Die) (s : State) : Only (fun u => { u with regs := [], xings := [] }) s (fspHalted d s) ∧ (fspHalted d s).flag (DRAM_STATUS d) DRAM_STATUS_FSP_BUSY = true
    ∧ (fspHalted d s).rdF (DRAM_STATUS d) DRAM_STATUS_FSP_CUR = s.rdF (DRAM_STATUS d) DRAM_STATUS_FSP_CUR
    ∧ (s.rdF (DRAM_STATUS d) DRAM_STATUS_GATHERING = 0 → ∀ i, i < 32 → ((fspHalted d s).xing d (0x20 + i)).stopped = true)
    ∧ (s.rdF (DRAM_STATUS d) DRAM_STATUS_GATHERING ≠ 0 → (fspHalted d s).xings = s.xings) := by
  have hb : (wrB (DRAM_STATUS d) DRAM_STATUS_FSP_BUSY true s).flag (DRAM_STATUS d) DRAM_STATUS_FSP_BUSY = true := flag_wrB_same _ _ _ _ (by decide) (by decide)
  have hc := rdF_wrB_other (DRAM_STATUS d) DRAM_STATUS_FSP_BUSY DRAM_STATUS_FSP_CUR true s (by decide) (by decide)
  obtain ⟨v, hv⟩ : ∃ v, v = wrB (DRAM_STATUS d) DRAM_STATUS_FSP_BUSY true s := ⟨_, rfl⟩
  have hvs : RegsOnly s v := hv ▸ regsOnly_wr _ _ _
  rw [fspHalted, ← hv]
  rw [← hv] at hb hc
  by_cases hg : s.rdF (DRAM_STATUS d) DRAM_STATUS_GATHERING = 0
  · obtain ⟨x1, x2⟩ := haltXings_rule d dramXings dramXings_le v
    have hrd : ∀ a, (haltXings d dramXings v).rd a = v.rd a := fun a => x1.rd_eq a
    rw [if_neg (by rw [hg]; exact Bool.false_ne_true)]
    refine ⟨(Only.of_regsOnly hvs).trans x1.mono, (flag_of_rd (hrd _) _).trans hb, (rdF_of_rd (hrd _) _).trans hc, fun _ i hi => ?_, fun h => absurd hg h⟩
    rw [x2 _ (dramXings_le _ (mem_dramXings hi)), if_pos (mem_dramXings hi)]
  · rw [if_pos (bne_iff_ne.2 hg)]
    exact ⟨Only.of_regsOnly hvs, hb, hc, fun h => absurd h hg, fun _ => (congrArg State.xings hvs.eq :)⟩

/-- The set-point is latched, and a training type that has begun restarts. -/
def fspLatched (d : Die) (target : Nat) (s0 s : State) : State :=
  match (s0.dram d).training with
  | some t =>
    if t.step ≠ 0 ∨ s0.rdF (DRAM_STATUS d) DRAM_STATUS_GATHERING != 0 then
      satF (DRAM_TRAIN_STATUS d) DRAM_TRAIN_STATUS_RESTARTS 1
        (setDram d { s0.dram d with target := some target, goTime := s0.now d, training := some { t with step := 0, discard := s0.rdF (DRAM_STATUS d) DRAM_STATUS_GATHERING != 0 } } s)
    else setDram d { s0.dram d with target := some target, goTime := s0.now d } s
  | none => setDram d { s0.dram d with target := some target, goTime := s0.now d } s

theorem beginFsp_eq (d : Die) (target : Nat) (s : State) : beginFsp d target s = fspLatched d target s (fspHalted d s) := rfl

theorem dramStatus_ne_train (d : Die) : DRAM_STATUS d ≠ DRAM_TRAIN_STATUS d := by
  unfold DRAM_STATUS DRAM_TRAIN_STATUS
  omega

theorem fspLatched_rule (d : Die) (target : Nat) (s0 s : State) : Only (fun u => { u with regs := [], drams := [] }) s (fspLatched d target s0 s) ∧ ((fspLatched d target s0 s).dram d).target = some target
    ∧ (fspLatched d target s0 s).rd (DRAM_STATUS d) = s.rd (DRAM_STATUS d) := by
  have hset : ∀ x : Dram, x.target = some target → Only (fun u => { u with regs := [], drams := [] }) s (setDram d x s) ∧ ((setDram d x s).dram d).target = some target
      ∧ (setDram d x s).rd (DRAM_STATUS d) = s.rd (DRAM_STATUS d) := fun x hx =>
    ⟨Only.rfl.setDram _ _, by rw [dram_setDram_same, hx], rd_setDram _ _ _ _⟩
  unfold fspLatched
  split
  · split
    · rename_i t _ _
      obtain ⟨h1, h2, h3⟩ := hset { s0.dram d with target := some target, goTime := s0.now d, training := some { t with step := 0, discard := s0.rdF (DRAM_STATUS d) DRAM_STATUS_GATHERING != 0 } } rfl
      exact ⟨h1.satF _ _ _, h2, (rd_satF_ne (dramStatus_ne_train d) _ _ _).trans h3⟩
    · exact hset _ rfl
  · exact hset _ rfl

theorem fspWrite_busy {f : Fun} {v : Word} {s : State} (hrow : (accessRow s f (addrOff (DRAM_FSP_CTRL f.ep))).isSome = true) (hgo : DRAM_FSP_CTRL_GO.get v = 1)
    (hb : s.flag (DRAM_STATUS f.ep) DRAM_STATUS_FSP_BUSY = true) : fspWrite f v s = s := by
  unfold fspWrite
  dsimp only
  rw [if_neg (isNone_false_of_isSome hrow), if_neg (by omega), if_pos (.inr (.inl hb))]

theorem fspWrite_begins {f : Fun} {v : Word} {s : State} (hrow : (accessRow s f (addrOff (DRAM_FSP_CTRL f.ep))).isSome = true) (hgo : DRAM_FSP_CTRL_GO.get v = 1)
    (hy : s.flag (DRAM_STATUS f.ep) DRAM_STATUS_READY = true) (hb : s.flag (DRAM_STATUS f.ep) DRAM_STATUS_FSP_BUSY = false) (ht : DRAM_FSP_CTRL_TARGET.get v < 3)
    (hc : DRAM_FSP_CTRL_TARGET.get v ≠ s.rdF (DRAM_STATUS f.ep) DRAM_STATUS_FSP_CUR) (hr : s.flag (DRAM_STATUS f.ep) DRAM_STATUS_SELF_REFRESH = false)
    (hd : ∀ ch, ch < 8 → dqTest s f.ep ch = false) :
    fspWrite f v s = beginFsp f.ep (DRAM_FSP_CTRL_TARGET.get v) (wrF (DRAM_FSP_CTRL f.ep) DRAM_FSP_CTRL_TARGET (DRAM_FSP_CTRL_TARGET.get v) s) := by
  have hany : (upto 8).any (dqTest s f.ep) = false := List.any_eq_false.2 fun ch h => by
    rw [hd ch (List.mem_range.1 h)]
    exact Bool.false_ne_true
  unfold fspWrite
  dsimp only
  rw [if_neg (isNone_false_of_isSome hrow), if_neg (by omega), if_neg (by rw [hy, hb]; exact fun h => h.elim Bool.noConfusion fun h => h.elim Bool.noConfusion fun h => by omega), if_neg hc,
    if_neg (by rw [hr, hany]; exact fun h => h.elim Bool.noConfusion Bool.noConfusion)]

theorem dramStatus_ne_fspCtrl (d : Die) : DRAM_STATUS d ≠ DRAM_FSP_CTRL d := by
  unfold DRAM_STATUS DRAM_FSP_CTRL
  omega

theorem dqTest_fresh (s : State) (d : Die) (ch : Nat) : dqTest (fresh s) d ch = dqTest s d ch := congrArg (· == 2) (rdF_fresh s _ _)

theorem fspChange_rule {f : Fun} {v : Word} {s : State} (hrow : (accessRow s f (addrOff (DRAM_FSP_CTRL f.ep))).isSome = true) (hgo : DRAM_FSP_CTRL_GO.get v = 1)
    (hy : s.flag (DRAM_STATUS f.ep) DRAM_STATUS_READY = true) (hb : s.flag (DRAM_STATUS f.ep) DRAM_STATUS_FSP_BUSY = false) (ht : DRAM_FSP_CTRL_TARGET.get v < 3)
    (hc : DRAM_FSP_CTRL_TARGET.get v ≠ s.rdF (DRAM_STATUS f.ep) DRAM_STATUS_FSP_CUR) (hr : s.flag (DRAM_STATUS f.ep) DRAM_STATUS_SELF_REFRESH = false)
    (hd : ∀ ch, ch < 8 → dqTest s f.ep ch = false) :
    ∃ t, exec (.fspChange f v) s = .next t ∧ t = { s with regs := t.regs, drams := t.drams, xings := t.xings, out := [] }
      ∧ t.flag (DRAM_STATUS f.ep) DRAM_STATUS_FSP_BUSY = true ∧ (t.dram f.ep).target = some (DRAM_FSP_CTRL_TARGET.get v)
      ∧ (s.rdF (DRAM_STATUS f.ep) DRAM_STATUS_GATHERING = 0 → ∀ i, i < 32 → (t.xing f.ep (0x20 + i)).stopped = true)
      ∧ (s.rdF (DRAM_STATUS f.ep) DRAM_STATUS_GATHERING ≠ 0 → t.xings = s.xings)
      ∧ t.rdF (DRAM_STATUS f.ep) DRAM_STATUS_FSP_CUR = s.rdF (DRAM_STATUS f.ep) DRAM_STATUS_FSP_CUR := by
  have hrun := fspWrite_begins (s := fresh s) ((congrArg Option.isSome (accessRow_fresh _ _ _)).trans hrow) hgo ((flag_fresh _ _ _).trans hy) ((flag_fresh _ _ _).trans hb) ht
    (by rw [rdF_fresh]; exact hc) ((flag_fresh _ _ _).trans hr) (fun ch h => (dqTest_fresh _ _ _).trans (hd ch h))
  obtain ⟨w, hw⟩ : ∃ w, w = wrF (DRAM_FSP_CTRL f.ep) DRAM_FSP_CTRL_TARGET (DRAM_FSP_CTRL_TARGET.get v) (fresh s) := ⟨_, rfl⟩
  have hws : RegsOnly (fresh s) w := hw ▸ regsOnly_wr _ _ _
  have hwrd : ∀ g, w.rdF (DRAM_STATUS f.ep) g = s.rdF (DRAM_STATUS f.ep) g := fun g => hw ▸ (rdF_wrF_ne (dramStatus_ne_fspCtrl _) _ _ _ _).trans (rdF_fresh _ _ _)
  rw [← hw, beginFsp_eq] at hrun
  obtain ⟨h1, h2, h3, h4, h5⟩ := fspHalted_rule f.ep w
  obtain ⟨x, hx⟩ : ∃ x, x = fspHalted f.ep w := ⟨_, rfl⟩
  rw [← hx] at hrun h1 h2 h3 h4 h5
  obtain ⟨l1, l2, l3⟩ := fspLatched_rule f.ep (DRAM_FSP_CTRL_TARGET.get v) w x
  have hxs : (fspLatched f.ep (DRAM_FSP_CTRL_TARGET.get v) w x).xings = x.xings := l1.xings_eq
  have hend : Only (fun u => { u with regs := [], drams := [], xings := [] }) (fresh s) (fspLatched f.ep (DRAM_FSP_CTRL_TARGET.get v) w x) :=
    (Only.of_regsOnly hws).trans (h1.mono.trans l1.mono)
  refine ⟨_, congrArg Host.Outcome.next (hend.ran hrun), hend.regsDramsXings, (flag_of_rd l3 _).trans h2, l2, fun hg i hi => ?_, fun hg => ?_, (rdF_of_rd l3 _).trans (h3.trans (hwrd _))⟩
  · unfold State.xing
    rw [hxs]
    exact h4 ((hwrd _).trans hg) i hi
  · exact hxs.trans ((h5 (by rw [hwrd]; exact hg)).trans (congrArg State.xings hws.eq :))

/-! ## The set-point is in force (R311) -/

/-- A set-point comes into force, and the crossings of the memory PHYs go on. -/
def fspInForce (d : Die) (tg : Nat) (s : State) : State :=
  dramXings.foldl (fun u n => xingResumes d n u)
    (wrB (DRAM_STATUS d) DRAM_STATUS_FSP_BUSY false (wrF (DRAM_STATUS d) DRAM_STATUS_FSP_CUR tg (setDram d { s.dram d with target := none } s)))

theorem fspEnds_eq {d : Die} {tg ns : Nat} {s : State} (ht : (s.dram d).target = some tg) (hg : s.rdF (DRAM_STATUS d) DRAM_STATUS_GATHERING = 0) :
    fspEnds d ns s = postPf0 d 0x0604 d.idx (s.rdF (DRAM_STATUS d) DRAM_STATUS_FSP_CUR + tg * 2 ^ 8 + ns % 2 ^ 32 * 2 ^ 32) (fspInForce d tg s) := by
  unfold fspEnds
  rw [ht]
  exact if_neg (fun hc => hc hg)

theorem dramStatus_ne_xing (d : Die) {i : Nat} (h : i ∈ dramXings) : DRAM_STATUS d ≠ XING_COUNT d i ∧ DRAM_STATUS d ≠ XING_STATUS d i := by
  have := dramXings_le i h
  unfold DRAM_STATUS XING_COUNT XING_STATUS
  omega

theorem fspInForce_rule {d : Die} {tg : Nat} (htg : tg < 4) (s : State) :
    fspInForce d tg (fresh s) = { s with regs := (fspInForce d tg (fresh s)).regs, drams := (fspInForce d tg (fresh s)).drams, xings := (fspInForce d tg (fresh s)).xings, out := [] }
      ∧ (fspInForce d tg (fresh s)).rdF (DRAM_STATUS d) DRAM_STATUS_FSP_CUR = tg ∧ (fspInForce d tg (fresh s)).flag (DRAM_STATUS d) DRAM_STATUS_FSP_BUSY = false
      ∧ ((fspInForce d tg (fresh s)).dram d).target = none ∧ (∀ i, i < 32 → ((fspInForce d tg (fresh s)).xing d (0x20 + i)).stopped = false)
      ∧ (∀ i, i < 32 → (s.xing d (0x20 + i)).stopped = true → (s.xing d (0x20 + i)).sent ≠ 0 →
          (fspInForce d tg (fresh s)).rdF (XING_COUNT d (0x20 + i)) XING_COUNT_LAST_COUNT = (s.xing d (0x20 + i)).sent % 2 ^ 16)
      ∧ ∀ a, a ≠ DRAM_STATUS d → (∀ i, i < 32 → a ≠ XING_COUNT d (0x20 + i) ∧ a ≠ XING_STATUS d (0x20 + i)) → (fspInForce d tg (fresh s)).rd a = s.rd a := by
  obtain ⟨v, hv⟩ : ∃ v, v = wrB (DRAM_STATUS d) DRAM_STATUS_FSP_BUSY false (wrF (DRAM_STATUS d) DRAM_STATUS_FSP_CUR tg (setDram d { (fresh s).dram d with target := none } (fresh s))) := ⟨_, rfl⟩
  have hvo : Only (fun u => { u with regs := [], drams := [] }) (fresh s) v := hv ▸ ((Only.rfl.setDram _ _).wrF _ _ _).wrB _ _ _
  have hvx : v.xings = s.xings := hvo.xings_eq
  have hvd : (v.dram d).target = none := by
    rw [hv, show ∀ t : State, ∀ a b : Nat, ∀ f g : Fld, ∀ n c, (wrB a f c (wrF b g n t)).dram d = t.dram d from fun _ _ _ _ _ _ _ => rfl, dram_setDram_same]
  have hvc : v.rdF (DRAM_STATUS d) DRAM_STATUS_FSP_CUR = tg := by
    rw [hv, rdF_wrB_other _ _ _ _ _ (by decide) (by decide)]
    exact rdF_wrF_of_lt (by decide) htg
  have hvb : v.flag (DRAM_STATUS d) DRAM_STATUS_FSP_BUSY = false := hv ▸ flag_wrB_same _ _ _ _ (by decide) (by decide)
  have hvr : ∀ a, a ≠ DRAM_STATUS d → v.rd a = s.rd a := fun a ha => by
    rw [hv, rd_wrB_ne ha, rd_wrF_ne ha, rd_setDram, rd_fresh]
  obtain ⟨x1, x2, x3, x4⟩ := xingsResume_rule d dramXings dramXings_le v
  have hxing : ∀ n, v.xing d n = s.xing d n := fun n => by
    unfold State.xing
    rw [hvx]
  rw [fspInForce, ← hv]
  obtain ⟨w, hw⟩ : ∃ w, w = dramXings.foldl (fun u n => xingResumes d n u) v := ⟨_, rfl⟩
  rw [← hw] at x1 x2 x3 x4 ⊢
  have hst := x4 (DRAM_STATUS d) (fun n hn => dramStatus_ne_xing d hn)
  refine ⟨(hvo.mono.trans x1.mono).regsDramsXings, (rdF_of_rd hst _).trans hvc, (flag_of_rd hst _).trans hvb, ?_, fun i hi => ?_, fun i hi hstop hsent => ?_, fun a ha hx => ?_⟩
  · have hdr : w.drams = v.drams := (congrArg State.drams x1 :)
    rw [dram_congr hdr, hvd]
  · rw [x2 _ (dramXings_le _ (mem_dramXings hi)), if_pos (mem_dramXings hi)]
  · rw [← hxing] at hstop hsent ⊢
    obtain ⟨k, -⟩ := x3 _ (mem_dramXings hi) hstop hsent
    exact k
  · refine (x4 a fun n hn => ?_).trans (hvr a ha)
    obtain ⟨i, hi, rfl⟩ := List.mem_map.1 hn
    exact hx i (List.mem_range.1 hi)

/-! ## The statement -/

/-- Settles O47: uncorrectable words, the patrol scrub, the places of a training pass, refresh, and the two ends of a set-point change. -/
theorem memoryIsMaintained : Obligations.MemoryIsMaintained := by
  refine ⟨fun d f port off scrub s hf k hk => ?_, fun d bad s h1 h2 h3 => ?_, fun d s hr => ⟨fun h1 h2 h3 => ?_, fun tr ht => ⟨fun hg hb hch => trainStepStart_rule ht hb hr hg hch,
      fun hg => ⟨fun outside h => trainStepDone_goesOn outside ht hg h, fun h hs => ⟨trainStepDone_outside ht hg h hs, trainStepDone_inside ht hg h hs⟩⟩⟩⟩,
    fun d ch s hch hr => dramRefresh_rule hch hr, fun f v s hrow hgo hy => ⟨fun hb => ?_, fun hb ht hc hr hd => fspChange_rule hrow hgo hy hb ht hc hr hd⟩, fun d tg ns s ht hg htg => ?_⟩
  · subst hk
    exact ⟨eccFound_marked, eccFound_rule⟩
  · exact congrArg Host.Outcome.next (ran_congr (patrol_runs (by rw [rdF_fresh]; exact h1) ((flag_fresh _ _ _).trans h2) ((flag_fresh _ _ _).trans h3)))
  · exact congrArg Host.Outcome.next (ran_congr (trainPass_begins ((flag_fresh _ _ _).trans h1) ((flag_fresh _ _ _).trans h2) ((flag_fresh _ _ _).trans hr) h3))
  · exact congrArg Host.Outcome.next (ran_same (fspWrite_busy ((congrArg Option.isSome (accessRow_fresh _ _ _)).trans hrow) hgo ((flag_fresh _ _ _).trans hb)))
  · have hgo := fspEnds_eq (ns := ns) (s := fresh s) ht ((rdF_fresh _ _ _).trans hg)
    rw [rdF_fresh] at hgo
    refine ⟨_, fspInForce_rule htg s, congrArg Host.Outcome.next (ran_congr ?_)⟩
    exact congrArg (tryEntry (powerDie s d)) hgo

end Sys2Proof.Machine
end

section
/-! What posting sends: no request of memory crosses the link with it. -/
namespace Sys2Proof.Machine

/-- A request of memory that crosses the link (R442). -/
def isRequest : Out → Bool
  | .link _ _ (some _) => true
  | _ => false

/-- Where no request of memory has left, none leaves. -/
def NoRequest (s t : State) : Prop := (∀ o ∈ s.out, isRequest o = false) → ∀ o ∈ t.out, isRequest o = false

namespace NoRequest
variable {s t u : State}

theorem rfl : NoRequest s s := fun h => h
theorem trans (h : NoRequest s t) (h' : NoRequest t u) : NoRequest s u := fun hs => h' (h hs)
theorem of_out (h : t.out = s.out) : NoRequest s t := fun hs => by
  rw [h]
  exact hs
theorem emit {o : Out} (h : isRequest o = false) (s : State) : NoRequest s (emit o s) := fun hs x hx => by
  rcases List.mem_append.1 hx with hx | hx
  · exact hs x hx
  · rw [List.mem_singleton.1 hx]
    exact h
theorem ite {p : Prop} [Decidable p] (h : NoRequest s t) (h' : NoRequest s u) : NoRequest s (if p then t else u) := by
  split
  · exact h
  · exact h'

theorem putChunks (ks : List (Nat × Nat)) (bs : List Byte) (s : State) : NoRequest s (putChunks ks bs s) := by
  induction ks generalizing bs s with
  | nil => exact rfl
  | cons c t ih => exact ((emit (o := .mem c.1 (bs.take c.2)) (Eq.refl _) s).trans (of_out (Eq.refl _))).trans (ih _ (unpoison c.1 c.2 (Machine.emit (.mem c.1 (bs.take c.2)) s)))

end NoRequest

theorem out_xlate (d : Die) (f : Fun) (va : Nat) (w : Bool) (s : State) : (xlate d f va w s).2.out = s.out := by
  unfold xlate
  dsimp only
  split
  · split
    · rfl
    · split <;> rfl
  · split <;> rfl
  · rfl
  · rfl

theorem out_xlateRange (d : Die) (f : Fun) (w : Bool) (n va k : Nat) (s : State) : (xlateRange d f w n va k s).2.out = s.out := by
  induction n generalizing va k s with
  | zero => rfl
  | succ n ih =>
    have h1 := out_xlate d f va w s
    have h2 := ih (va + min k (4096 - va % 4096)) (k - min k (4096 - va % 4096)) (xlate d f va w s).2
    unfold xlateRange
    dsimp only
    split
    · rfl
    · split
      · rename_i hx
        rw [hx] at h1
        exact h1
      · rename_i hx
        rw [hx] at h1 h2
        split <;> (rename_i hr; rw [hr] at h2; exact h2.trans h1)

theorem dmaWriteRaw_noRequest (d : Die) (f : Fun) (va : Nat) (bs : List Byte) (s : State) : NoRequest s (dmaWriteRaw d f va bs s).2 := by
  have h := out_xlateRange d f true (bs.length / 4096 + 2) va bs.length s
  unfold dmaWriteRaw
  split <;> (rename_i hx; rw [hx] at h)
  · exact .of_out h
  · exact (NoRequest.of_out h).trans (.putChunks _ _ _)

theorem sendRingInt_noRequest (q : RingId) (s : State) : NoRequest s (sendRingInt q s) := by
  have hm : ∀ (f : Fun) (v : Nat) (t : State), NoRequest t (sendMsix f v t) := fun f v t => by
    unfold sendMsix
    exact .ite (.emit rfl _) (.of_out rfl)
  exact (NoRequest.of_out (t := setRing q { s.ringAux q with intCount := 0, intFirst := 0 } s) rfl).trans (hm _ _ _)

theorem countInt_noRequest (d : Die) (q : RingId) (s : State) : NoRequest s (countInt d q s) := by
  have hset : ∀ r, NoRequest s (setRing q r s) := fun _ => .of_out rfl
  unfold countInt
  exact .ite (.ite ((hset _).trans (sendRingInt_noRequest q _)) (hset _)) .rfl

theorem out_loseEvent (f : Fun) (t : Nat) (s : State) : (loseEvent f t s).out = s.out := rfl
theorem out_recordFault (f : Fun) (va dt : Nat) (s : State) : (recordFault f va dt s).out = s.out := by
  unfold recordFault
  split <;> rfl

theorem writeEvent_noRequest {again : Fun → Event → State → State} (ha : ∀ g x t, NoRequest t (again g x t)) (f : Fun) (e : Event) (q : RingId) (s : State) :
    NoRequest s (writeEvent again f e q s) := by
  have hentry : ∀ va dt t, NoRequest t (entryLost again f e q va dt t) := fun va dt t => by
    have h1 : NoRequest t (t |> useFree 1 |> recordFault f va dt |> wrB (RING_STATUS q) RING_STATUS_ENTRY_FAULT true |> loseEvent f e.time |> loseEvent f e.time) :=
      .of_out (out_recordFault _ _ _ _)
    unfold entryLost
    exact .ite (h1.trans (ha _ _ _)) h1
  have hshadow : ∀ va p dt t, NoRequest t (shadowLost again f e q va p dt t) := fun va p dt t => by
    have h1 : NoRequest t (t |> useFree 1 |> recordFault f va dt |> wrB (RING_STATUS q) RING_STATUS_SHADOW_FAULT true) := .of_out (out_recordFault _ _ _ _)
    unfold shadowLost
    exact .ite h1 ((h1.trans (ha _ _ _)).trans (ha _ _ _))
  unfold writeEvent
  dsimp only
  obtain ⟨w, hw⟩ : ∃ w, w = dmaWriteRaw e.die f (ringBase s q + 32 * (ringProd s q % ringSize s q)) (eventBytes e (phaseBit (ringProd s q) (ringSize s q))) s := ⟨_, rfl⟩
  have h1 : NoRequest s w.2 := by
    rw [hw]
    exact dmaWriteRaw_noRequest _ _ _ _ _
  rw [← hw]
  obtain ⟨y, hy⟩ : ∃ y, y = wr (RING_PRODUCER q) (BitVec.ofNat 32 (ringProd s q + 1)) w.2 := ⟨_, rfl⟩
  have hout : y.out = w.2.out := by
    rw [hy]
    rfl
  obtain ⟨x, hx⟩ : ∃ x, x = shadowWrite e.die q (ringProd s q + 1) y := ⟨_, rfl⟩
  have h2 : NoRequest y x.2 := by
    rw [hx]
    exact dmaWriteRaw_noRequest _ _ _ _ _
  have h3 : NoRequest s (countInt e.die q x.2) := ((h1.trans (.of_out hout)).trans h2).trans (countInt_noRequest _ _ _)
  rw [← hy, ← hx]
  cases w.1 with
  | none =>
    cases x.1 with
    | none => exact h3
    | some b => exact h3.trans (hshadow _ _ _ _)
  | some a =>
    cases x.1 with
    | none => exact h3.trans (hentry _ _ _)
    | some b => exact (h3.trans (hentry _ _ _)).trans (hshadow _ _ _ _)

theorem postEvent_noRequest (n : Nat) (f : Fun) (e : Event) (s : State) : NoRequest s (postEvent n f e s) := by
  induction n generalizing f e s with
  | zero => exact .of_out (out_loseEvent _ _ _)
  | succ n ih =>
    have hlost : NoRequest s (loseEvent f e.time s) := .of_out (out_loseEvent _ _ _)
    have hfn : ∀ x, NoRequest s (setFn f x s) := fun _ => .of_out rfl
    rw [postEvent]
    refine .ite hlost (.ite (hfn _) (.ite (.ite (hfn _) hlost) ?_))
    cases eventRing s f with
    | none => exact hlost
    | some q => exact .ite hlost (writeEvent_noRequest (fun g x t => ih g x t) f e q s)

theorem post_noRequest (f : Fun) (e : Event) (s : State) : NoRequest s (post f e s) := by
  have hs : NoRequest s (sendAcross e.die s) := by
    unfold sendAcross
    split
    · exact .emit rfl _
    · exact .rfl
  exact (NoRequest.ite hs .rfl).trans (postEvent_noRequest 3 f e _)

theorem postPf0_noRequest (d : Die) (a b c : Nat) (s : State) : NoRequest s (postPf0 d a b c s) := post_noRequest _ _ _

end Sys2Proof.Machine
end

section
/-! Memory serves requests (O46; R112, R113, R299, R301, R305, R306, R442). -/
namespace Sys2Proof.Machine

/-! ## Which request goes first does not depend on what has left the device -/

theorem bankKey_out (o : List Out) (s : State) (d : Die) (a : Nat) : bankKey { s with out := o } d a = bankKey s d a := rfl
theorem rowOf_out (o : List Out) (s : State) (d : Die) (a : Nat) : rowOf { s with out := o } d a = rowOf s d a := rfl
theorem liveBundles_fresh (s : State) : liveBundles (fresh s) = liveBundles s := liveBundles_congr fun _ _ => rd_fresh _ _

theorem carrier_fresh (s : State) (d : Die) (r : MemReq) : carrier (fresh s) d r = carrier s d r := by
  unfold carrier lowestUp
  dsimp only
  simp only [liveBundles_fresh, bundleState_fresh]
  rfl

theorem openHit_fresh (s : State) (d : Die) (l : List MemReq) (r : MemReq) : openHit (fresh s) d l r = openHit s d l r := rfl

theorem held_fresh (s : State) (d : Die) (l : List MemReq) (r : MemReq) : held (fresh s) d l r = held s d l r := by
  unfold held linkHolds
  dsimp only
  simp only [carrier_fresh, bundleState_fresh]
  rfl

theorem servedBefore_fresh (s : State) (d : Die) (l : List MemReq) (a b : MemReq) : servedBefore (fresh s) d l a b = servedBefore s d l a b := rfl

theorem bestReq_fresh (s : State) (d : Die) (all l : List MemReq) : bestReq (fresh s) d all l = bestReq s d all l := by
  induction l with
  | nil => rfl
  | cons r t ih =>
    rw [bestReq, bestReq, ih]
    cases bestReq s d all t with
    | none => rfl
    | some x => exact if_congr (by rw [servedBefore_fresh]) rfl rfl

/-- The requests that a channel may serve. -/
def servable (s : State) (d : Die) (ch : Nat) (waiting : List MemReq) : List MemReq :=
  waiting.filter (fun r => channelOf r.addr == ch && decide (r.addr < fitted s d) && decide (r.port < 24) && s.flag (DRAM_PORT_STATUS d r.port) DRAM_PORT_STATUS_PRESENT)

/-- The request that R301 puts first, of those that nothing holds. -/
def firstReq (s : State) (d : Die) (ch : Nat) (waiting : List MemReq) : Option MemReq :=
  bestReq s d (servable s d ch waiting) ((servable s d ch waiting).filter (fun r => !held s d (servable s d ch waiting) r))

theorem servable_fresh (s : State) (d : Die) (ch : Nat) (w : List MemReq) : servable (fresh s) d ch w = servable s d ch w := rfl
theorem firstReq_fresh (s : State) (d : Die) (ch : Nat) (w : List MemReq) : firstReq (fresh s) d ch w = firstReq s d ch w := by
  unfold firstReq
  simp only [servable_fresh, bestReq_fresh, held_fresh]

/-! ## Activations (R305, R306) -/

/-- The row group of a request, with its bank. -/
def groupKey (s : State) (d : Die) (r : MemReq) : Nat := bankKey s d r.addr * 2 ^ 24 + rowOf s d r.addr / 256

/-- Activations of the group in the window, with this one. -/
def groupActs (s : State) (d : Die) (r : MemReq) : Nat := tget 0 (groupKey s d r) (s.dram d).acts + 1

/-- Activations of the group at which an RFM command is due. -/
def rfmNext (s : State) (d : Die) (r : MemReq) : Nat :=
  match tfind (groupKey s d r) (s.dram d).rfmAt with
  | none => s.rdF (DRAM_RD_CFG d) DRAM_RD_CFG_THRESH
  | some m => m + max 1 (s.rdF (DRAM_RD_CFG d) DRAM_RD_CFG_RFM_STRIDE)

/-- The bank's row is opened for the request, and the activation counted. -/
def rowOpened (s : State) (d : Die) (r : MemReq) : Dram :=
  { s.dram d with
    openRow := tset (bankKey s d r.addr) (rowOf s d r.addr) (s.dram d).openRow
    hits := tset (bankKey s d r.addr) 0 (s.dram d).hits
    acts := tset (groupKey s d r) (groupActs s d r) (s.dram d).acts
    lastAct := tset (bankKey s d r.addr * 32 + r.port) (s.now d) (s.dram d).lastAct
    rfmAt := if decide (rfmNext s d r ≤ groupActs s d r) then tset (groupKey s d r) (groupActs s d r) (s.dram d).rfmAt else (s.dram d).rfmAt }

/-- The row is open, and its RFM command has gone out where one is due. -/
def rowActivated (d : Die) (r : MemReq) (s : State) : State :=
  (if decide (rfmNext s d r ≤ groupActs s d r) then emit (.rfm d (bankKey s d r.addr / 32) (bankKey s d r.addr % 32)) else id) (setDram d (rowOpened s d r) s)

/-- Mitigation that begins throttles the port on the bank; the port's first bank is shown, counted and posted. -/
def portThrottled (s0 : State) (d : Die) (r : MemReq) (s : State) : State :=
  if !((s.dram d).throttled.any (fun t => t.1 == r.port)) then
    setDram d { s.dram d with throttled := (r.port, bankKey s0 d r.addr) :: (s.dram d).throttled } s
      |> satF (DRAM_RD_STATUS d) DRAM_RD_STATUS_THROTTLES 1 |> rinlarCount d 42 1
      |> wrF (DRAM_RD_THROTTLED d) DRAM_RD_THROTTLED_PORTS (setBit ((setDram d { s.dram d with throttled := (r.port, bankKey s0 d r.addr) :: (s.dram d).throttled } s).rdF
          (DRAM_RD_THROTTLED d) DRAM_RD_THROTTLED_PORTS) r.port true)
      |> wrB (DRAM_PORT_STATUS d r.port) DRAM_PORT_STATUS_THROTTLED true
      |> postPf0 d 0x0602 r.port (bankKey s0 d r.addr / 32 + rankOf s0 d r.addr * 2 ^ 8 + bankOf s0 d r.addr % 16 * 2 ^ 16 + rowOf s0 d r.addr / 256 * 2 ^ 32 + r.fn.fn * 2 ^ 64)
  else setDram d { s.dram d with throttled := (r.port, bankKey s0 d r.addr) :: (s.dram d).throttled } s

theorem activate_eq (d : Die) (r : MemReq) (s : State) : activate d r s =
    if (tfind (groupKey s d r) (s.dram d).rfmAt).isNone = false ∨ decide (rfmNext s d r ≤ groupActs s d r) = false ∨ (if r.port = 22 then r.cls else portClass s d r.port) ≤ 1
      ∨ s.rdF (DRAM_RD_GAP d) DRAM_RD_GAP_GAP_NS = 0 then rowActivated d r s
    else portThrottled s d r (rowActivated d r s) := rfl

theorem activate_cases (d : Die) (r : MemReq) (s : State) : activate d r s = rowActivated d r s ∨ activate d r s = portThrottled s d r (rowActivated d r s) := by
  rw [activate_eq]
  exact ite_eq_or_eq _ _ _

theorem rowActivated_dram (d : Die) (r : MemReq) (s : State) : (rowActivated d r s).dram d = rowOpened s d r := by
  unfold rowActivated
  split <;> exact dram_setDram_same _ _ _

theorem rowActivated_out (d : Die) (r : MemReq) (s : State) : (rowActivated d r s).out =
    if decide (rfmNext s d r ≤ groupActs s d r) then s.out ++ [.rfm d (bankKey s d r.addr / 32) (bankKey s d r.addr % 32)] else s.out := by
  unfold rowActivated
  split <;> rfl

theorem portThrottled_rule (s0 : State) (d : Die) (r : MemReq) (s : State) : (∃ th, (portThrottled s0 d r s).dram d = { s.dram d with throttled := th }) ∧ NoRequest s (portThrottled s0 d r s) := by
  unfold portThrottled
  split
  · obtain ⟨v, hv⟩ : ∃ v, v = (setDram d { s.dram d with throttled := (r.port, bankKey s0 d r.addr) :: (s.dram d).throttled } s
      |> satF (DRAM_RD_STATUS d) DRAM_RD_STATUS_THROTTLES 1 |> rinlarCount d 42 1
      |> wrF (DRAM_RD_THROTTLED d) DRAM_RD_THROTTLED_PORTS (setBit ((setDram d { s.dram d with throttled := (r.port, bankKey s0 d r.addr) :: (s.dram d).throttled } s).rdF
          (DRAM_RD_THROTTLED d) DRAM_RD_THROTTLED_PORTS) r.port true)
      |> wrB (DRAM_PORT_STATUS d r.port) DRAM_PORT_STATUS_THROTTLED true) := ⟨_, rfl⟩
    have hd : v.drams = (setDram d { s.dram d with throttled := (r.port, bankKey s0 d r.addr) :: (s.dram d).throttled } s).drams := by
      rw [hv]
      rfl
    have ho : v.out = s.out := by
      rw [hv]
      rfl
    rw [← hv]
    obtain ⟨hp, -, -⟩ := posts_postPf0 (ok := True) d 0x0602 r.port
      (bankKey s0 d r.addr / 32 + rankOf s0 d r.addr * 2 ^ 8 + bankOf s0 d r.addr % 16 * 2 ^ 16 + rowOf s0 d r.addr / 256 * 2 ^ 32 + r.fn.fn * 2 ^ 64) v
    exact ⟨⟨_, (dram_congr ((congrArg State.drams hp :).trans hd) d).trans (dram_setDram_same _ _ _)⟩, (NoRequest.of_out ho).trans (postPf0_noRequest _ _ _ _ _)⟩
  · exact ⟨⟨_, dram_setDram_same _ _ _⟩, .of_out rfl⟩

theorem activate_dram (d : Die) (r : MemReq) (s : State) : ∃ th, (activate d r s).dram d = { rowOpened s d r with throttled := th } := by
  rcases activate_cases d r s with h0 | h0 <;> rw [h0]
  · exact ⟨_, rowActivated_dram d r s⟩
  · obtain ⟨⟨th, h⟩, -⟩ := portThrottled_rule s d r (rowActivated d r s)
    rw [rowActivated_dram] at h
    exact ⟨th, h⟩

theorem activate_noRequest (d : Die) (r : MemReq) (s : State) : NoRequest s (activate d r s) := by
  have h1 : NoRequest s (rowActivated d r s) := by
    unfold rowActivated
    split
    · exact (NoRequest.of_out (t := setDram d (rowOpened s d r) s) rfl).trans (.emit rfl _)
    · exact .of_out rfl
  rcases activate_cases d r s with h0 | h0 <;> rw [h0]
  · exact h1
  · exact h1.trans (portThrottled_rule s d r _).2

theorem activate_notDue {d : Die} {r : MemReq} {s : State} (h : groupActs s d r < rfmNext s d r) : (activate d r s).out = s.out ∧ ((activate d r s).dram d).rfmAt = (s.dram d).rfmAt := by
  have hdue : decide (rfmNext s d r ≤ groupActs s d r) = false := decide_eq_false (by omega)
  rw [activate_eq, if_pos (.inr (.inl hdue)), rowActivated_out, rowActivated_dram, rowOpened, hdue]
  exact ⟨rfl, rfl⟩

theorem activate_due {d : Die} {r : MemReq} {s : State} (h : rfmNext s d r ≤ groupActs s d r) : tfind (groupKey s d r) ((activate d r s).dram d).rfmAt = some (groupActs s d r) := by
  obtain ⟨th, hd⟩ := activate_dram d r s
  rw [hd, rowOpened, decide_eq_true h]
  exact tfind_tset_same _ _ _

theorem activate_further {d : Die} {r : MemReq} {s : State} {m : Nat} (hm : tfind (groupKey s d r) (s.dram d).rfmAt = some m) (h : rfmNext s d r ≤ groupActs s d r) :
    (activate d r s).out = s.out ++ [.rfm d (bankKey s d r.addr / 32) (bankKey s d r.addr % 32)] := by
  rw [activate_eq, if_pos (.inl (by rw [hm]; rfl)), rowActivated_out, decide_eq_true h]
  rfl

/-- R306: mitigation begins at THRESH, and an RFM command follows every RFM_STRIDE activations. -/
theorem activate_rule (d : Die) (r : MemReq) (s : State) : ∀ key, key = bankKey s d r.addr * 2 ^ 24 + rowOf s d r.addr / 256 → ∀ n, n = tget 0 key (s.dram d).acts + 1 →
    (tfind key (s.dram d).rfmAt = none → n < s.rdF (DRAM_RD_CFG d) DRAM_RD_CFG_THRESH → (activate d r s).out = s.out ∧ ((activate d r s).dram d).rfmAt = (s.dram d).rfmAt)
    ∧ (tfind key (s.dram d).rfmAt = none → s.rdF (DRAM_RD_CFG d) DRAM_RD_CFG_THRESH ≤ n → tfind key ((activate d r s).dram d).rfmAt = some n)
    ∧ (∀ m, tfind key (s.dram d).rfmAt = some m → m + max 1 (s.rdF (DRAM_RD_CFG d) DRAM_RD_CFG_RFM_STRIDE) ≤ n →
        tfind key ((activate d r s).dram d).rfmAt = some n ∧ (activate d r s).out = s.out ++ [.rfm d (bankKey s d r.addr / 32) (bankKey s d r.addr % 32)]) := by
  intro key hkey n hn
  have hk : key = groupKey s d r := hkey
  subst hk
  have hn' : n = groupActs s d r := hn
  subst hn'
  have hnone : tfind (groupKey s d r) (s.dram d).rfmAt = none → rfmNext s d r = s.rdF (DRAM_RD_CFG d) DRAM_RD_CFG_THRESH := fun h => by rw [rfmNext, h]
  have hsome : ∀ m, tfind (groupKey s d r) (s.dram d).rfmAt = some m → rfmNext s d r = m + max 1 (s.rdF (DRAM_RD_CFG d) DRAM_RD_CFG_RFM_STRIDE) := fun m h => by rw [rfmNext, h]
  exact ⟨fun h hlt => activate_notDue ((hnone h).symm ▸ hlt), fun h hle => activate_due ((hnone h).symm ▸ hle),
    fun m h hle => ⟨activate_due ((hsome m h).symm ▸ hle), activate_further h ((hsome m h).symm ▸ hle)⟩⟩

/-! ## The cache that holds nothing, and takes nothing (R112, R299) -/

theorem lineAt_empty {s : State} {d : Die} (h : (s.dram d).cache = []) (a : Nat) : lineAt s d a = none := by
  rw [lineAt, h]
  rfl

theorem allocWays_none {s : State} {d : Die} {r : MemReq} (h : r.alloc = false) : allocWays s d r = [] := by
  unfold allocWays
  exact if_pos (.inl h)

theorem cacheHit_empty {s : State} {d : Die} (h : (s.dram d).cache = []) (r : MemReq) : cacheHit s d r = false := by
  unfold cacheHit reqLines upto
  rw [List.range_succ_eq_map, List.map_cons, List.all_cons, lineAt_empty h]
  rfl

theorem cacheLine_unallocated {s : State} {d : Die} {r : MemReq} {line : Nat} (hl : lineAt s d (64 * line) = none) (ha : allocWays s d r = []) (cls u : Nat) : cacheLine d r cls u line s = s := by
  unfold cacheLine
  dsimp only
  rw [hl, ha]

theorem cacheLines_none {s : State} {d : Die} {r : MemReq} (h : (s.dram d).cache = []) (ha : r.alloc = false) (c u : Nat) (ls : List Nat) :
    ls.foldl (fun t l => cacheLine d r c u l t) s = s :=
  List.foldl_fixed' (fun _ => cacheLine_unallocated (lineAt_empty h _) (allocWays_none ha) c u) ls

theorem eccCorrected_zero (d : Die) (ch : Nat) (s : State) : eccCorrected d ch 0 s = s := by
  unfold eccCorrected
  dsimp only
  rw [if_pos rfl, Nat.sub_self]
  split <;> rfl

/-! ## A channel serves (R301, R304) -/

/-- A request of the other die comes over its bundle. -/
def linked (d : Die) (r : MemReq) (s : State) : State := if r.port = 22 then linkRequest d r s else s

/-- A hit of the open row is counted. -/
def hitCounted (b : Nat) (d : Die) (s : State) : State := setDram d { s.dram d with hits := tset b (tget 0 b (s.dram d).hits + 1) (s.dram d).hits } s

/-- The 1 ms window with a request served: its function's bytes, and its port's urgency. -/
def servedWindow (r : MemReq) (c u : Nat) (x : Dram) : Dram :=
  { x with
    bytes := if 2 ≤ c ∧ false = false then tset r.fn.key (tget 0 r.fn.key x.bytes + r.len) x.bytes else x.bytes
    urgency := tset r.port (max u (tget 0 r.port x.urgency)) x.urgency }

/-- What the channel served is counted: in the window and by port; and no error of the cache. -/
def servedCounted (d : Die) (r : MemReq) (c u : Nat) (s : State) : State :=
  setDram d (servedWindow r c u (s.dram d)) s |> add64 (DRAM_PORT_BYTES_LO d r.port) r.len |> rinlarCount d 26 0 |> rinlarCount d 27 0

theorem serve_none {d : Die} {ch : Nat} {w : List MemReq} {e : MemErrs} {s : State} (hc : channelClosed s d ch = false) (h : firstReq s d ch w = none) : serve d ch w e s = s := by
  unfold serve
  rw [if_neg (by rw [hc]; exact Bool.false_ne_true)]
  unfold firstReq servable at h
  dsimp only
  rw [h]

theorem servedCounted_dram (d : Die) (r : MemReq) (c u : Nat) (s : State) : (servedCounted d r c u s).dram d = servedWindow r c u (s.dram d) :=
  (dram_congr (s := setDram d (servedWindow r c u (s.dram d)) s) rfl d).trans (dram_setDram_same _ _ _)

theorem serve_some {d : Die} {ch : Nat} {w : List MemReq} {s : State} {r : MemReq} (hc : channelClosed s d ch = false) (h : firstReq s d ch w = some r)
    (he : (s.dram d).cache = []) (ha : r.alloc = false) : ∀ t, t = (if openHit s d (servable s d ch w) r then hitCounted (bankKey s d r.addr) d (linked d r s) else activate d r (linked d r s)) →
      (t.dram d).cache = [] → serve d ch w ⟨0, [], 0, []⟩ s = servedCounted d r (reqClass s d r) (reqUrgency s d r) t := by
  intro t ht htc
  obtain ⟨v, hv⟩ : ∃ v, v = servedCounted d r (reqClass s d r) (reqUrgency s d r) t := ⟨_, rfl⟩
  have hvc : (v.dram d).cache = [] := by rw [hv, servedCounted_dram, servedWindow, htc]
  have hgo : serve d ch w ⟨0, [], 0, []⟩ s = (reqLines r).foldl (fun t l => cacheLine d r (reqClass s d r) (reqUrgency s d r) l t) v := by
    unfold serve
    rw [if_neg (by rw [hc]; exact Bool.false_ne_true)]
    unfold firstReq servable at h
    unfold linked servable hitCounted at ht
    dsimp only
    rw [h]
    dsimp only
    rw [cacheHit_empty he, if_neg Bool.false_ne_true, ← ht, eccCorrected_zero, hv]
    rfl
  rw [hgo, cacheLines_none hvc ha, hv]

theorem portBytes_hi (d : Die) (p : Nat) : DRAM_PORT_BYTES_HI d p = DRAM_PORT_BYTES_LO d p + 4 := by
  unfold DRAM_PORT_BYTES_HI DRAM_PORT_BYTES_LO
  omega

theorem servedCounted_rule (d : Die) (r : MemReq) (c u : Nat) (s : State) :
    Only (fun x => { x with regs := [], drams := [], rinlar := [] }) s (servedCounted d r c u s)
    ∧ (servedCounted d r c u s).rd64 (DRAM_PORT_BYTES_LO d r.port) = (s.rd64 (DRAM_PORT_BYTES_LO d r.port) + r.len) % 2 ^ 64
    ∧ ∀ a, a ≠ DRAM_PORT_BYTES_LO d r.port → a ≠ DRAM_PORT_BYTES_HI d r.port → (servedCounted d r c u s).rd a = s.rd a := by
  obtain ⟨v, hv⟩ : ∃ v, v = setDram d (servedWindow r c u (s.dram d)) s := ⟨_, rfl⟩
  have h0 : Only (fun x => { x with regs := [], drams := [], rinlar := [] }) s v := by
    rw [hv]
    exact Only.rfl.setDram _ _
  have hrd : ∀ a, v.rd a = s.rd a := by
    rw [hv]
    exact rd_setDram _ _ _
  have hw : ∀ a, (rinlarCount d 27 0 (rinlarCount d 26 0 (add64 (DRAM_PORT_BYTES_LO d r.port) r.len v))).rd a = (add64 (DRAM_PORT_BYTES_LO d r.port) r.len v).rd a :=
    fun a => (rd_setRin _ _ _ _).trans (rd_setRin _ _ _ _)
  rw [servedCounted, ← hv]
  refine ⟨((h0.trans (.of_regsOnly (regsOnly_wr64 _ _ _))).setRin _ _).setRin _ _, ?_, fun a h1 h2 => (hw a).trans ((rd_wr64_ne h1 (portBytes_hi d r.port ▸ h2) _ _).trans (hrd a))⟩
  rw [rd64_of_rd (hw _) (hw _), add64, rd64_wr64_same, rd64_of_rd (hrd _) (hrd _)]

theorem hitCounted_dram (b : Nat) (d : Die) (s : State) : (hitCounted b d s).dram d = { s.dram d with hits := tset b (tget 0 b (s.dram d).hits + 1) (s.dram d).hits } := dram_setDram_same _ _ _

theorem linked_out (d : Die) (r : MemReq) (s : State) : ∃ o, linked d r s = { s with out := o } ∧ (r.port ≠ 22 → o = s.out)
    ∧ (s.out = [] → ∀ m, applyOut o m = m)
    ∧ ∀ b, r.port = 22 → carrier s d r = some b → o = s.out ++ [.link d.other b (some r.addr)] := by
  unfold linked
  by_cases hp : r.port = 22
  · rw [if_pos hp, linkRequest]
    cases carrier s d r with
    | none => exact ⟨s.out, rfl, fun _ => rfl, fun h m => by rw [h]; rfl, fun b _ h => by cases h⟩
    | some b =>
      refine ⟨_, rfl, fun h => absurd hp h, fun h m => ?_, fun c _ h => by cases h; rfl⟩
      rw [h]
      rfl
  · rw [if_neg hp]
    exact ⟨s.out, rfl, fun _ => rfl, fun h m => by rw [h]; rfl, fun b h => absurd h hp⟩

/-- The bundle of a granule, among those that carry traffic (R442). -/
theorem carrier_noSets {s : State} {d : Die} {r : MemReq} (hs : (s.ebrum d).sets = []) (hl : liveBundles s ≠ []) :
    carrier s d r = some ((liveBundles s).getD (r.addr / 256 % (liveBundles s).length) 0) := by
  have hlt : r.addr / 256 % (liveBundles s).length < (liveBundles s).length := Nat.mod_lt _ (List.length_pos_of_ne_nil hl)
  have hget : spread (liveBundles s) r.addr = some (liveBundles s)[r.addr / 256 % (liveBundles s).length] := List.getElem?_eq_getElem hlt
  unfold carrier
  dsimp only
  rw [hs, List.find?_nil, Option.map_none, Option.getD_none, hget, List.getD_eq_getElem _ _ hlt]
  exact if_pos (List.contains_iff_mem.2 (List.getElem_mem _))

theorem channelClosed_fresh (s : State) (d : Die) (ch : Nat) : channelClosed (fresh s) d ch = channelClosed s d ch := rfl

theorem memRequestServe_hit {d : Die} {ch : Nat} {w : List MemReq} {s : State} {r : MemReq} (hc : channelClosed s d ch = false) (h : firstReq s d ch w = some r)
    (he : (s.dram d).cache = []) (ha : r.alloc = false) (ho : openHit s d (servable s d ch w) r = true) :
    ∃ t, exec (.memRequestServe d ch w ⟨0, [], 0, []⟩) s = .next t ∧ t = { s with regs := t.regs, drams := t.drams, rinlar := t.rinlar, out := t.out }
      ∧ (r.port ≠ 22 → t.out = [])
      ∧ (r.port = 22 → (s.ebrum d).sets = [] → liveBundles s ≠ [] →
          t.out = [.link d.other ((liveBundles s).getD (r.addr / 256 % (liveBundles s).length) 0) (some r.addr)])
      ∧ t.rd64 (DRAM_PORT_BYTES_LO d r.port) = (s.rd64 (DRAM_PORT_BYTES_LO d r.port) + r.len) % 2 ^ 64
      ∧ (t.dram d).openRow = (s.dram d).openRow ∧ (t.dram d).acts = (s.dram d).acts
      ∧ tget 0 (bankKey s d r.addr) (t.dram d).hits = tget 0 (bankKey s d r.addr) (s.dram d).hits + 1
      ∧ tget 0 r.port (t.dram d).urgency = max (reqUrgency s d r) (tget 0 r.port (s.dram d).urgency)
      ∧ ∀ a, a ≠ DRAM_PORT_BYTES_LO d r.port → a ≠ DRAM_PORT_BYTES_HI d r.port → t.rd a = s.rd a := by
  obtain ⟨o, hl, hl1, hl2, hl3⟩ := linked_out d r (fresh s)
  obtain ⟨x, hx⟩ : ∃ x, x = hitCounted (bankKey s d r.addr) d { fresh s with out := o } := ⟨_, rfl⟩
  have hxd : x.dram d = { s.dram d with hits := tset (bankKey s d r.addr) (tget 0 (bankKey s d r.addr) (s.dram d).hits + 1) (s.dram d).hits } := by
    rw [hx, hitCounted_dram]
    rfl
  have hgo := serve_some (s := fresh s) (w := w) ((channelClosed_fresh s d ch).trans hc) ((firstReq_fresh s d ch w).trans h) he ha x
    (by rw [servable_fresh, openHit_fresh, ho, if_pos rfl, hl, hx]; rfl) (by rw [hxd, he])
  obtain ⟨c1, c2, c3⟩ := servedCounted_rule d r (reqClass (fresh s) d r) (reqUrgency (fresh s) d r) x
  have c4 := servedCounted_dram d r (reqClass (fresh s) d r) (reqUrgency (fresh s) d r) x
  obtain ⟨t, ht⟩ : ∃ t, t = servedCounted d r (reqClass (fresh s) d r) (reqUrgency (fresh s) d r) x := ⟨_, rfl⟩
  rw [← ht] at hgo c1 c2 c3 c4
  have hxr : ∀ a, x.rd a = s.rd a := by
    rw [hx]
    exact fun a => rd_congr rfl rfl a
  have hto : t.out = o := (congrArg State.out c1 :).trans (by rw [hx]; rfl)
  have hmem : t.mem = s.mem := (congrArg State.mem c1 :).trans (by rw [hx]; rfl)
  have hpen : t.pending = s.pending := (congrArg State.pending c1 :).trans (by rw [hx]; rfl)
  have hox : Only (fun u => { u with regs := [], drams := [], rinlar := [], out := [] }) s x := by
    rw [hx]
    exact Eq.refl _
  refine ⟨t, congrArg Host.Outcome.next (ran_quiet hgo hmem hpen (by rw [hto]; exact hl2 rfl _)),
    congrArg (fun u => { u with regs := t.regs, drams := t.drams, rinlar := t.rinlar, out := t.out }) (hox.trans c1.mono), fun hp => hto.trans (hl1 hp), fun hp hs hlive => ?_, ?_, ?_, ?_, ?_, ?_,
    fun a h1 h2 => (c3 a h1 h2).trans (hxr a)⟩
  · rw [hto, hl3 _ hp ((carrier_fresh s d r).trans (carrier_noSets hs hlive))]
    rfl
  · rw [c2, rd64_of_rd (hxr _) (hxr _)]
  · rw [c4, hxd, servedWindow]
  · rw [c4, hxd, servedWindow]
  · rw [c4, hxd, servedWindow]
    exact tget_tset_same _ _ _ _
  · rw [c4, hxd, servedWindow]
    exact tget_tset_same _ _ _ _

theorem memRequestServe_opens {d : Die} {ch : Nat} {w : List MemReq} {s : State} {r : MemReq} (hc : channelClosed s d ch = false) (h : firstReq s d ch w = some r)
    (he : (s.dram d).cache = []) (ha : r.alloc = false) (ho : openHit s d (servable s d ch w) r = false) :
    ∃ t, exec (.memRequestServe d ch w ⟨0, [], 0, []⟩) s = .next t ∧ (r.port ≠ 22 → ∀ b, .link d.other b (some r.addr) ∉ t.out)
      ∧ tfind (bankKey s d r.addr) (t.dram d).openRow = some (rowOf s d r.addr)
      ∧ tget 0 (bankKey s d r.addr * 2 ^ 24 + rowOf s d r.addr / 256) (t.dram d).acts = tget 0 (bankKey s d r.addr * 2 ^ 24 + rowOf s d r.addr / 256) (s.dram d).acts + 1
      ∧ tfind (bankKey s d r.addr * 32 + r.port) (t.dram d).lastAct = some (s.now d) := by
  obtain ⟨o, hl, hl1, -, -⟩ := linked_out d r (fresh s)
  obtain ⟨y, hy⟩ : ∃ y, y = rowOpened s d r := ⟨_, rfl⟩
  obtain ⟨th, hth⟩ := activate_dram d r { fresh s with out := o }
  have hnr := activate_noRequest d r { fresh s with out := o }
  obtain ⟨x, hx⟩ : ∃ x, x = activate d r { fresh s with out := o } := ⟨_, rfl⟩
  have hxd : x.dram d = { y with throttled := th } := by
    rw [hx, hth, hy]
    rfl
  have hgo := serve_some (s := fresh s) (w := w) ((channelClosed_fresh s d ch).trans hc) ((firstReq_fresh s d ch w).trans h) he ha x
    (by rw [servable_fresh, openHit_fresh, ho, if_neg Bool.false_ne_true, hl, hx]) (by rw [hxd, hy]; exact he)
  obtain ⟨c1, -, -⟩ := servedCounted_rule d r (reqClass (fresh s) d r) (reqUrgency (fresh s) d r) x
  have c4 := servedCounted_dram d r (reqClass (fresh s) d r) (reqUrgency (fresh s) d r) x
  have hdram : (ran (serve d ch w ⟨0, [], 0, []⟩) s).dram d = servedWindow r (reqClass (fresh s) d r) (reqUrgency (fresh s) d r) { y with throttled := th } :=
    (dram_congr (congrArg State.drams hgo : (serve d ch w ⟨0, [], 0, []⟩ (fresh s)).drams = _) d).trans (c4.trans (by rw [hxd]))
  refine ⟨ran (serve d ch w ⟨0, [], 0, []⟩) s, rfl, fun hp b hb => ?_, ?_, ?_, ?_⟩
  · have hout : (ran (serve d ch w ⟨0, [], 0, []⟩) s).out = x.out := (congrArg State.out hgo : (serve d ch w ⟨0, [], 0, []⟩ (fresh s)).out = _).trans (congrArg State.out c1 :)
    rw [hout, hx] at hb
    rw [hl1 hp] at hnr hb
    exact Bool.noConfusion ((hnr (fun _ hm => by cases hm) _ hb) : isRequest (.link d.other b (some r.addr)) = false)
  · rw [hdram, servedWindow, hy]
    exact tfind_tset_same _ _ _
  · rw [hdram, servedWindow, hy]
    exact tget_tset_same _ _ _ _
  · rw [hdram, servedWindow, hy]
    exact tfind_tset_same _ _ _

end Sys2Proof.Machine
end

section
/-! The ways of the system cache, promotion and the windows of memory (O46; R112, R113, R303 to R305). -/
namespace Sys2Proof.Machine

/-! ## Ways (R112, R113, R299) -/

theorem mem_allocWays {s : State} {d : Die} {r : MemReq} {w : Nat} (h : w ∈ allocWays s d r) : w < 16 ∧ (secureReq r = true → nbit (s.rdF (CACHE_S_WAYS d) CACHE_S_WAYS_S_MASK) w = true)
    ∧ (secureReq r = false → sRouteLives s d = true → nbit (s.rdF (CACHE_S_WAYS d) CACHE_S_WAYS_S_MASK) w = false) := by
  unfold allocWays at h
  dsimp only at h
  split at h
  · cases h
  · obtain ⟨hw, hp⟩ := List.mem_filter.1 h
    refine ⟨List.mem_range.1 hw, fun hs => ?_, fun hs hl => ?_⟩
    · rw [hs, if_pos rfl] at hp
      exact hp
    · rw [hs, if_neg Bool.false_ne_true, hl, Bool.true_and, Bool.and_eq_true] at hp
      exact Bool.not_inj hp.1

theorem getD_mem {l : List Nat} {j : Nat} (h : j < l.length) : l.getD j 0 ∈ l := by
  rw [List.getD_eq_getElem _ _ h]
  exact List.getElem_mem _

/-- A line that is not in the cache goes into one of the ways allowed. -/
theorem cacheLine_filled {s : State} {d : Die} {r : MemReq} {line : Nat} (hl : lineAt s d (64 * line) = none) (ha : allocWays s d r ≠ []) (cls u : Nat) :
    ∃ k, k % 16 ∈ allocWays s d r ∧ tfind k ((cacheLine d r cls u line s).dram d).cache = some ⟨line, r.write, secureReq r⟩ := by
  obtain ⟨w, ws, hws⟩ := List.exists_cons_of_ne_nil ha
  have hmem : (w :: ws).getD (s.freeNat 0 % (ws.length + 1)) 0 ∈ allocWays s d r := by
    rw [hws]
    exact getD_mem (Nat.mod_lt _ (Nat.succ_pos _))
  obtain ⟨hlt, -, -⟩ := mem_allocWays hmem
  refine ⟨16 * (Config.cacheSet line % 16384) + (w :: ws).getD (s.freeNat 0 % (ws.length + 1)) 0, ?_, ?_⟩
  · rw [Nat.mul_add_mod, Nat.mod_eq_of_lt hlt]
    exact hmem
  · unfold cacheLine
    dsimp only
    rw [hl, hws]
    dsimp only
    rw [dram_setDram_same]
    exact tfind_tset_same _ _ _

theorem cacheFlush_rule (d : Die) (gone : Nat → CacheLine → Bool) (s : State) : ∀ e ∈ ((cacheFlush d gone s).dram d).cache, gone e.1 e.2 = false := by
  unfold cacheFlush
  split
  · intro e he
    rw [dram_setDram_same] at he
    exact Bool.not_inj (List.mem_filter.1 he).2
  · next h =>
    intro e he
    exact Bool.eq_false_iff.2 fun hc => h (List.any_eq_true.2 ⟨e, he, hc⟩)

theorem cacheWays_rule (d : Die) (r : MemReq) (cls u line : Nat) (s : State) :
    (r.alloc = false → allocWays s d r = [])
    ∧ (∀ w ∈ allocWays s d r, nbit (s.rdF (CACHE_S_WAYS d) CACHE_S_WAYS_S_MASK) w = true → secureReq r = true ∨ sRouteLives s d = false)
    ∧ (secureReq r = true → ∀ w ∈ allocWays s d r, nbit (s.rdF (CACHE_S_WAYS d) CACHE_S_WAYS_S_MASK) w = true)
    ∧ (lineAt s d (64 * line) = none → allocWays s d r = [] → cacheLine d r cls u line s = s)
    ∧ (lineAt s d (64 * line) = none → allocWays s d r ≠ [] → ∃ k, k % 16 ∈ allocWays s d r
        ∧ tfind k ((cacheLine d r cls u line s).dram d).cache = some ⟨line, r.write, secureReq r⟩)
    ∧ (sRouteLives s d = false → (∀ e ∈ ((sRouteComes d s).dram d).cache, inSWay s d e.1 = true → e.2.secure = true)
        ∧ ∀ e ∈ ((sRouteGoes d s).dram d).cache, inSWay s d e.1 = false) := by
  refine ⟨allocWays_none, fun w hw hs => ?_, fun hs w hw => ?_, fun hl ha => cacheLine_unallocated hl ha cls u, fun hl ha => cacheLine_filled hl ha cls u, fun h => ⟨fun e he hin => ?_, fun e he => ?_⟩⟩
  · obtain ⟨-, -, hn⟩ := mem_allocWays hw
    by_contra hc
    obtain ⟨h1, h2⟩ := not_or.1 hc
    exact Bool.false_ne_true ((hn (Bool.eq_false_iff.2 h1) (Bool.not_eq_false _ ▸ h2)).symm.trans hs)
  · obtain ⟨-, hsec, -⟩ := mem_allocWays hw
    exact hsec hs
  · rw [sRouteComes, if_neg (by rw [h]; exact Bool.false_ne_true)] at he
    have hg := cacheFlush_rule d _ s e he
    rw [hin, Bool.true_and] at hg
    exact Bool.not_inj hg
  · rw [sRouteGoes, if_neg (by rw [h]; exact Bool.false_ne_true)] at he
    exact cacheFlush_rule d _ s e he

/-! ## Promotion, and the windows (R303 to R305) -/

theorem agePromotion_rule {d : Die} {p : Nat} {s : State} (hp : p < 24) (hc : 2 ≤ portClass s d p) :
    ∃ t, exec (.agePromotion d p) s = .next t ∧ t = { s with regs := t.regs, out := [] }
      ∧ t.rdF (DRAM_PORT_STATUS d p) DRAM_PORT_STATUS_PROMOTIONS = min (2 ^ 16 - 1) (s.rdF (DRAM_PORT_STATUS d p) DRAM_PORT_STATUS_PROMOTIONS + 1)
      ∧ ∀ a, a ≠ DRAM_PORT_STATUS d p → t.rd a = s.rd a := by
  have hgo : promote d p (fresh s) = satF (DRAM_PORT_STATUS d p) DRAM_PORT_STATUS_PROMOTIONS 1 (fresh s) := if_pos ⟨hp, hc⟩
  have hend : RegsOnly (fresh s) (satF (DRAM_PORT_STATUS d p) DRAM_PORT_STATUS_PROMOTIONS 1 (fresh s)) := regsOnly_wr _ _ _
  exact ⟨_, congrArg Host.Outcome.next (ran_regsOnly hend hgo), hend.fresh, by rw [rdF_satF_same _ _ _ _ (by decide), rdF_fresh]; rfl, fun a ha => (rd_satF_ne ha _ _ _).trans (rd_fresh _ _)⟩

theorem portStatus_inj (d : Die) (i j : Nat) (h : DRAM_PORT_STATUS d i = DRAM_PORT_STATUS d j) : i = j := by
  unfold DRAM_PORT_STATUS at h
  omega

theorem dramFuncUse_inj (d : Die) (i j : Nat) (h : DRAM_FUNC_USE d i = DRAM_FUNC_USE d j) : i = j := by
  unfold DRAM_FUNC_USE at h
  omega

theorem portStatus_apart (d : Die) {p : Nat} (hp : p < 24) : DRAM_RD_THROTTLED d ≠ DRAM_PORT_STATUS d p ∧ ∀ i, DRAM_FUNC_USE d i ≠ DRAM_PORT_STATUS d p := by
  unfold DRAM_RD_THROTTLED DRAM_PORT_STATUS DRAM_FUNC_USE
  exact ⟨by omega, fun i => by omega⟩

/-- The window of row disturbance begins anew. -/
def rdBegun (d : Die) (s : State) : State :=
  wrF (DRAM_RD_THROTTLED d) DRAM_RD_THROTTLED_PORTS 0 (setDram d { s.dram d with acts := [], throttled := [], rfmAt := [] } s)

theorem rdWindow_rule (d : Die) (s : State) :
    ∃ t, exec (.rdWindow d) s = .next t ∧ t = { s with regs := t.regs, drams := t.drams, out := [] } ∧ (t.dram d).acts = [] ∧ (t.dram d).throttled = []
      ∧ t.rdF (DRAM_RD_THROTTLED d) DRAM_RD_THROTTLED_PORTS = 0 ∧ (∀ p, p < 24 → t.flag (DRAM_PORT_STATUS d p) DRAM_PORT_STATUS_THROTTLED = false)
      ∧ ∀ a, a ≠ DRAM_RD_THROTTLED d → (∀ p, p < 24 → a ≠ DRAM_PORT_STATUS d p) → t.rd a = s.rd a := by
  have hstep : ∀ p t, Touches [DRAM_PORT_STATUS d p] t (wrB (DRAM_PORT_STATUS d p) DRAM_PORT_STATUS_THROTTLED false t) := fun p t => Touches.rfl.wrB _ _
  obtain ⟨v, hv⟩ : ∃ v, v = rdBegun d (fresh s) := ⟨_, rfl⟩
  have h0 : Only (fun u => { u with regs := [], drams := [] }) (fresh s) v := by
    rw [hv]
    exact (Only.rfl.setDram _ _).wrF _ _ _
  have hvd : v.dram d = { s.dram d with acts := [], throttled := [], rfmAt := [] } := by
    rw [hv]
    exact dram_setDram_same _ _ _
  have hvt : v.rdF (DRAM_RD_THROTTLED d) DRAM_RD_THROTTLED_PORTS = 0 := by
    rw [hv]
    exact rdF_wrF_of_lt (by decide) (by decide)
  have hvr : ∀ a, a ≠ DRAM_RD_THROTTLED d → v.rd a = s.rd a := fun a ha => by
    rw [hv, rdBegun, rd_wrF_ne ha, rd_setDram, rd_fresh]
  have hfold := foldl_ownReg_other hstep (upto 24) v
  have hown := fun p (hp : p < 24) => foldl_ownReg (portStatus_inj d) hstep (nodup_upto 24) (mem_upto hp) v
  obtain ⟨t, ht⟩ : ∃ t, t = (upto 24).foldl (fun t p => wrB (DRAM_PORT_STATUS d p) DRAM_PORT_STATUS_THROTTLED false t) v := ⟨_, rfl⟩
  rw [← ht] at hfold hown
  obtain ⟨hr, hk⟩ := hfold
  have hgo : rdWindowEnds d (fresh s) = t := by
    rw [ht, hv]
    rfl
  have hout : ∀ a, (∀ p, p < 24 → a ≠ DRAM_PORT_STATUS d p) → t.rd a = v.rd a := fun a ha => hk a fun hm => by
    obtain ⟨p, hp, e⟩ := List.mem_map.1 hm
    exact ha p (List.mem_range.1 hp) e.symm
  have hend := h0.trans (.of_regsOnly hr)
  refine ⟨t, congrArg Host.Outcome.next (hend.ran hgo), hend.regsDrams, ?_, ?_, ?_, fun p hp => ?_, fun a h1 h2 => (hout a h2).trans (hvr a h1)⟩
  · rw [hr.dram, hvd]
  · rw [hr.dram, hvd]
  · rw [rdF_of_rd (hout _ fun p hp => (portStatus_apart d hp).1), hvt]
  · obtain ⟨u, -, -, h3⟩ := hown p hp
    rw [flag_of_rd h3]
    exact flag_wrB_same _ _ _ _ (by decide) (by decide)

/-- The use of a function in the 1 ms window, as its entry shows it. -/
def dramUse (d : Die) (x : Dram) (peak i : Nat) : Nat := if peak = 0 then 0 else min 0xFF (tget 0 (Fun.key ⟨if i < 32 then d else d.other, i % 32⟩) x.bytes * 256 / peak)

/-- An entry shows the use of its function. -/
def dramUseShown (d : Die) (x : Dram) (peak : Nat) (t : State) (i : Nat) : State :=
  if t.rdF (DRAM_FUNC_USE d i) DRAM_FUNC_USE_USED = dramUse d x peak i then t else wrF (DRAM_FUNC_USE d i) DRAM_FUNC_USE_USED (dramUse d x peak i) t

/-- A port shows its highest urgency. -/
def urgencyShown (d : Die) (x : Dram) (t : State) (p : Nat) : State := wrF (DRAM_PORT_STATUS d p) DRAM_PORT_STATUS_URG_MAX (tget 0 p x.urgency) t

theorem dramUseShown_touches (d : Die) (x : Dram) (peak i : Nat) (t : State) : Touches [DRAM_FUNC_USE d i] t (dramUseShown d x peak t i) := by
  unfold dramUseShown
  split
  · exact .rfl
  · exact Touches.rfl.wrF _ _

theorem dramUseShown_used (d : Die) (x : Dram) (peak i : Nat) (t : State) : (dramUseShown d x peak t i).rdF (DRAM_FUNC_USE d i) DRAM_FUNC_USE_USED = dramUse d x peak i := by
  unfold dramUseShown
  split
  · assumption
  · refine rdF_wrF_of_lt (by decide) ?_
    unfold dramUse
    split
    · decide
    · exact Nat.lt_of_le_of_lt (Nat.min_le_left _ _) (by decide)

theorem dramShareWindow_rule (d : Die) (s : State) :
    ∃ t, exec (.dramShareWindow d) s = .next t ∧ t = { s with regs := t.regs, drams := t.drams, out := [] } ∧ (t.dram d).bytes = [] ∧ (t.dram d).urgency = []
      ∧ (∀ p, p < 24 → t.rdF (DRAM_PORT_STATUS d p) DRAM_PORT_STATUS_URG_MAX = tget 0 p (s.dram d).urgency % 8)
      ∧ (∀ i, i < 64 → peakBytes s d ≠ 0 → t.rdF (DRAM_FUNC_USE d i) DRAM_FUNC_USE_USED =
          min 0xFF (tget 0 (Fun.key ⟨if i < 32 then d else d.other, i % 32⟩) (s.dram d).bytes * 256 / peakBytes s d)) := by
  have hurg : ∀ p t, Touches [DRAM_PORT_STATUS d p] t (urgencyShown d (s.dram d) t p) := fun p t => Touches.rfl.wrF _ _
  have huse1 := foldl_ownReg_other (dramUseShown_touches d (s.dram d) (peakBytes s d)) (upto 64) (fresh s)
  have huse2 := fun i (hi : i < 64) => foldl_ownReg (dramFuncUse_inj d) (dramUseShown_touches d (s.dram d) (peakBytes s d)) (nodup_upto 64) (mem_upto hi) (fresh s)
  obtain ⟨u, hu⟩ : ∃ u, u = (upto 64).foldl (dramUseShown d (s.dram d) (peakBytes s d)) (fresh s) := ⟨_, rfl⟩
  rw [← hu] at huse1 huse2
  have hurg1 := foldl_ownReg_other hurg (upto 24) u
  have hurg2 := fun p (hp : p < 24) => foldl_ownReg (portStatus_inj d) hurg (nodup_upto 24) (mem_upto hp) u
  obtain ⟨v, hv⟩ : ∃ v, v = (upto 24).foldl (urgencyShown d (s.dram d)) u := ⟨_, rfl⟩
  rw [← hv] at hurg1 hurg2
  have hgo : dramWindow d (fresh s) = setDram d { v.dram d with bytes := [], urgency := [] } v := by
    rw [hv, hu]
    rfl
  have hend : Only (fun u => { u with regs := [], drams := [] }) (fresh s) (setDram d { v.dram d with bytes := [], urgency := [] } v) :=
    ((Only.of_regsOnly huse1.1).trans (.of_regsOnly hurg1.1)).setDram _ _
  refine ⟨_, congrArg Host.Outcome.next (hend.ran hgo), hend.regsDrams, ?_, ?_, fun p hp => ?_, fun i hi hpk => ?_⟩
  · rw [dram_setDram_same]
  · rw [dram_setDram_same]
  · obtain ⟨w, -, -, h3⟩ := hurg2 p hp
    rw [rdF_of_rd (rd_setDram _ _ _ _), rdF_of_rd h3]
    exact rdF_wrF_same _ _ _ _ (by decide)
  · obtain ⟨w, -, -, h3⟩ := huse2 i hi
    have hkeep : v.rd (DRAM_FUNC_USE d i) = u.rd (DRAM_FUNC_USE d i) := hurg1.2 _ fun hm => by
      obtain ⟨p, hp, e⟩ := List.mem_map.1 hm
      exact (portStatus_apart d (List.mem_range.1 hp)).2 i e.symm
    rw [rdF_of_rd (rd_setDram _ _ _ _), rdF_of_rd hkeep, rdF_of_rd h3, dramUseShown_used]
    exact if_neg hpk

/-- Settles O46. -/
theorem memoryServesRequests : Obligations.MemoryServesRequests := by
  refine ⟨fun d ch waiting s hc mine hm => ?_, activate_rule, cacheWays_rule, fun d s => ⟨fun p hp h => agePromotion_rule hp h, rdWindow_rule d s, dramShareWindow_rule d s⟩⟩
  have hmine : mine = servable s d ch waiting := hm
  subst hmine
  exact ⟨fun h => congrArg Host.Outcome.next (ran_same (serve_none (s := fresh s) ((channelClosed_fresh s d ch).trans hc) ((firstReq_fresh s d ch waiting).trans h))),
    fun r h he ha ho => memRequestServe_hit hc h he ha ho, fun r h he ha ho => memRequestServe_opens hc h he ha ho⟩

end Sys2Proof.Machine
end

section
/-! What scans and reports leave alone: the start of a unit, what waits to be reloaded, and the ports (O50; R362 to R381). -/
namespace Sys2Proof.Machine

theorem touch_setTouch_same (d : Die) (x : Touch) (s : State) : (setTouch d x s).touch d = x := tget_tset_same _ _ _ _
theorem touch_congr {s t : State} (h : t.touches = s.touches) (d : Die) : t.touch d = s.touch d := congrArg (tget Touch.empty d.idx) h

/-- Of a unit: whether its next scan is its first, the worlds to be reloaded, and its ports. -/
def touchStart (x : Touch) : Bool × List Nat × Tab TshPort := (x.fresh, x.reload, x.ports)

/-- Those of a die are as they were. -/
def KeepsStart (d : Die) (s t : State) : Prop := touchStart (t.touch d) = touchStart (s.touch d)

namespace KeepsStart
variable {d : Die} {s t u : State}

theorem rfl : KeepsStart d s s := Eq.refl _
theorem trans (h : KeepsStart d s t) (h' : KeepsStart d t u) : KeepsStart d s u := Eq.trans h' h
theorem of_touches (h : t.touches = s.touches) : KeepsStart d s t := congrArg touchStart (touch_congr h d)
theorem of_regsOnly (h : RegsOnly s t) : KeepsStart d s t := of_touches (congrArg State.touches h.eq :)
theorem of_posted (h : Posted s t) : KeepsStart d s t := of_touches (congrArg State.touches h :)
theorem setTouch {x : Touch} (h : touchStart x = touchStart (s.touch d)) : KeepsStart d s (setTouch d x s) := (congrArg touchStart (touch_setTouch_same d x s)).trans h
theorem foldl {α : Type} {g : State → α → State} (hg : ∀ t x, KeepsStart d t (g t x)) (xs : List α) (s : State) : KeepsStart d s (xs.foldl g s) := by
  induction xs generalizing s with
  | nil => exact rfl
  | cons x xs ih => exact (hg s x).trans (ih _)
theorem foldlSnd {α β : Type} {g : β × State → α → β × State} (hg : ∀ a x, KeepsStart d a.2 (g a x).2) (xs : List α) (a : β × State) : KeepsStart d a.2 (xs.foldl g a).2 := by
  induction xs generalizing a with
  | nil => exact rfl
  | cons x xs ih => exact (hg a x).trans (ih _)
theorem ite {p : Prop} [Decidable p] (h : KeepsStart d s t) (h' : KeepsStart d s u) : KeepsStart d s (if p then t else u) := by
  split
  · exact h
  · exact h'

theorem fresh_eq (h : KeepsStart d s t) : (t.touch d).fresh = (s.touch d).fresh := congrArg Prod.fst h
theorem reload_eq (h : KeepsStart d s t) : (t.touch d).reload = (s.touch d).reload := congrArg (fun x => x.2.1) h
theorem ports_eq (h : KeepsStart d s t) : (t.touch d).ports = (s.touch d).ports := congrArg (fun x => x.2.2) h

end KeepsStart

section
variable (d : Die)

theorem post_keepsStart (f : Fun) (e : Event) (s : State) : KeepsStart d s (post f e s) := by
  obtain ⟨h, -, -⟩ := posts_post (ok := False) (f := f) False.elim e s
  exact .of_posted h
theorem postPf0_keepsStart (e : Die) (a b c : Nat) (s : State) : KeepsStart d s (postPf0 e a b c s) := post_keepsStart d _ _ s
theorem postPf1_keepsStart (e : Die) (a b c : Nat) (s : State) : KeepsStart d s (postPf1 e a b c s) := post_keepsStart d _ _ s
theorem postWorld_keepsStart (e : Die) (w typ pay : Nat) (s : State) : KeepsStart d s (postWorld e w typ pay s) := .ite (postPf1_keepsStart d _ _ _ _ s) (postPf0_keepsStart d _ _ _ _ s)
theorem postGarnetFault_keepsStart (e : Die) (r : Option Nat) (src c : Nat) (b : Bool) (s : State) : KeepsStart d s (postGarnetFault e r src c b s) :=
  (postPf1_keepsStart d _ _ _ _ s).trans (.of_touches rfl)
theorem postTouch_keepsStart (e : Die) (c : Contact) (ph : Nat) (s : State) : KeepsStart d s (postTouch e c ph s) := by
  unfold postTouch
  split
  · exact .ite (post_keepsStart d _ _ _) .rfl
  · exact .rfl
theorem satF_keepsStart (a : Nat) (f : Fld) (n : Nat) (s : State) : KeepsStart d s (satF a f n s) := .of_regsOnly (regsOnly_wr _ _ _)
theorem rinlarCount_keepsStart (e : Die) (i n : Nat) (s : State) : KeepsStart d s (rinlarCount e i n s) := .of_touches rfl

theorem setSensor_keepsStart (k : Nat) (x : Sensor) (s : State) : KeepsStart d s (setSensor d k x s) := .setTouch rfl
theorem setMeas_keepsStart (m : Nat) (x : Meas) (s : State) : KeepsStart d s (setMeas d m x s) := .setTouch rfl
theorem setContact_keepsStart (c : Contact) (s : State) : KeepsStart d s (setContact d c s) := .setTouch rfl
theorem dropContact_keepsStart (c : Contact) (s : State) : KeepsStart d s (dropContact d c s) := .setTouch rfl
theorem rebase_keepsStart (ms : List Nat) (s : State) : KeepsStart d s (rebase d ms s) := .foldl (fun t m => setMeas_keepsStart d m _ t) ms s

/-! ## Contacts -/

theorem releaseContact_keepsStart (ph : Nat) (c : Contact) (s : State) : KeepsStart d s (releaseContact d ph c s) := by
  have h := (postTouch_keepsStart d d c ph s).trans (dropContact_keepsStart d c _)
  exact .ite (h.trans (postGarnetFault_keepsStart d _ _ _ _ _ _)) h

theorem loseContacts_keepsStart (p : Nat → Bool) (s : State) : KeepsStart d s (loseContacts d p s) := .foldl (fun t c => releaseContact_keepsStart d 4 c t) _ s

theorem touchDown_keepsStart (src key x y : Nat) (dl : Int) (s : State) : KeepsStart d s (touchDown d src key x y dl s) := by
  have hset : ∀ c, KeepsStart d s (setTouch d { s.touch d with contacts := (s.touch d).contacts ++ [c] } s) := fun c => .setTouch rfl
  unfold touchDown
  cases freeId s d src with
  | none => exact .rfl
  | some i => exact .ite ((hset _).trans (postTouch_keepsStart d _ _ _ _)) (.ite ((hset _).trans (satF_keepsStart d _ _ _ _)) (hset _))

theorem moveTo_keepsStart (c : Contact) (x y : Nat) (dl : Int) (s : State) : KeepsStart d s (moveTo d c x y dl s) := by
  unfold moveTo
  cases contactRoute s d c with
  | none => exact setContact_keepsStart d _ s
  | some r => exact .ite ((setContact_keepsStart d _ s).trans (postTouch_keepsStart d _ _ _ _)) (setContact_keepsStart d _ s)

theorem stuckRule_keepsStart (c : Contact) (ms : List Nat) (s : State) : KeepsStart d s (stuckRule d c ms s) := by
  have hend : KeepsStart d s (s |> rebase d ms |> releaseContact d 3 c |> postPf0 d 0x0901 d.idx (regionByte s c.region + c.src * 2 ^ 8 + c.id * 2 ^ 16) |> useFree 1
      |> satF (TOUCH_COUNTS d) TOUCH_COUNTS_STUCK 1 |> rinlarCount d 44 1) :=
    (((((rebase_keepsStart d ms s).trans (releaseContact_keepsStart d 3 c _)).trans (postPf0_keepsStart d _ _ _ _ _)).trans (.of_touches rfl)).trans
      (satF_keepsStart d _ _ _ (useFree 1 _))).trans (rinlarCount_keepsStart d _ _ _ _)
  exact .ite .rfl (.ite (.ite .rfl ((setContact_keepsStart d _ s).trans (postGarnetFault_keepsStart d _ _ _ _ _ _))) hend)

/-! ## Sensors -/

theorem lineSensor_keepsStart (k : Nat) (s : State) : KeepsStart d s (lineSensor d k s) := by
  have hset := fun x => setSensor_keepsStart d k x s
  unfold lineSensor
  dsimp only
  generalize (if sKind (s.sensor d k).setup = 1 then some 0 else linePos (sKind (s.sensor d k).setup) _) = pos
  cases (contactsOf s d k).head? with
  | none => exact .ite (hset _) ((hset _).trans (touchDown_keepsStart d _ _ _ _ _ _))
  | some c =>
    refine .ite ((hset _).trans (releaseContact_keepsStart d _ _ _)) ?_
    have hmove := fun x y z w => (hset x).trans (moveTo_keepsStart d c y z w _)
    split
    · exact hmove _ _ _ _
    · exact (hmove _ _ _ _).trans (stuckRule_keepsStart d _ _ _)

/-- A contact of a matrix that a scan finds released, at rest, or moved. -/
theorem servedContact_keepsStart {s s1 : State} (h : KeepsStart d s s1) {rest : List (Nat × Nat × Nat)} {c1 c2 c3 : Contact} {ms : List Nat} {r : Option Nat} {k : Nat} {b : Bool} {p q : Prop}
    [Decidable p] [Decidable q] : KeepsStart d s (if p then (rest, releaseContact d 2 c1 s1) else if q then (rest, s1 |> setContact d c2 |> stuckRule d c2 ms)
      else (rest, if b then postGarnetFault d r k 0 true (setContact d c3 s1) else setContact d c3 s1)).2 := by
  have hset := fun c => h.trans (setContact_keepsStart d c s1)
  split
  · exact h.trans (releaseContact_keepsStart d _ _ _)
  · split
    · exact (hset _).trans (stuckRule_keepsStart d _ _ _)
    · exact .ite ((hset _).trans (postGarnetFault_keepsStart d _ _ _ _ _ _)) (hset _)

theorem matrixContact_keepsStart (k : Nat) (ds : List Int) (a : List (Nat × Nat × Nat) × State) (c : Contact) : KeepsStart d a.2 (matrixContact d k ds a c).2 := by
  unfold matrixContact
  cases nearest (c.x, c.y) a.1 with
  | none => exact servedContact_keepsStart d .rfl
  | some p =>
    have hmove := moveTo_keepsStart d c p.2.1 p.2.2 (ds.getD p.1 0) a.2
    dsimp only
    split
    · exact hmove
    · exact servedContact_keepsStart d hmove

/-- The contacts of a matrix meet the peaks of the scan; what is left are the peaks that none took. -/
def matrixMatched (d : Die) (k : Nat) (x : Desc) (ds : List Int) (s : State) : List (Nat × Nat × Nat) × State :=
  (contactsOf s d k).foldl (matrixContact d k ds) ((matrixPeaks x ds).map (fun i => (i, nodePos x ds i)), s)

/-- A peak that no contact took: a touch-down after its scans, or a candidate. -/
def peakServed (d : Die) (k : Nat) (x : Desc) (ds : List Int) (old : List (Nat × Nat × Nat)) (a : List (Nat × Nat × Nat) × State) (p : Nat × Nat × Nat) : List (Nat × Nat × Nat) × State :=
  let n := match nearest (p.2.1, p.2.2) (old.map (fun o => (o.2.2, o.1, o.2.1))) with
    | some o => o.1 + 1
    | none => 1
  if dget x 38 0 8 ≤ n ∧ (contactsOf a.2 d k).length < dget x 15 0 8 then (a.1, touchDown d k 0 p.2.1 p.2.2 (ds.getD p.1 0) a.2) else (a.1 ++ [(p.2.1, p.2.2, n)], a.2)

theorem matrixSensor_eq (k : Nat) (s : State) : ∀ x ds m q, x = (s.sensor d k).setup → ds = (sMeas x).map (fun n => delta x (s.measOf d n)) → m = matrixMatched d k x ds s →
    q = m.1.foldl (peakServed d k x ds (m.2.sensor d k).peaks) ([], m.2) → matrixSensor d k s = setSensor d k { q.2.sensor d k with peaks := q.1 } q.2 := by
  rintro x ds m q rfl rfl rfl rfl
  rfl

theorem matrixSensor_keepsStart (k : Nat) (s : State) : KeepsStart d s (matrixSensor d k s) := by
  have hm : ∀ x ds, KeepsStart d s (matrixMatched d k x ds s).2 := fun x ds => .foldlSnd (matrixContact_keepsStart d k ds) _ _
  have hp : ∀ x ds old a p, KeepsStart d a.2 (peakServed d k x ds old a p).2 := fun x ds old a p => by
    unfold peakServed
    extract_lets n
    split
    · exact touchDown_keepsStart d _ _ _ _ _ _
    · exact .rfl
  rw [matrixSensor_eq d k s _ _ _ _ rfl rfl rfl rfl]
  exact ((hm _ _).trans (.foldlSnd (hp _ _ _) _ ([], (matrixMatched d k _ _ s).2))).trans (setSensor_keepsStart d _ _ _)

theorem antiRule_keepsStart (k : Nat) (ds : List (Nat × Int)) (s : State) : KeepsStart d s (antiRule d k ds s) := by
  unfold antiRule
  extract_lets x limit now s1 due guard raised sensor s2
  have h1 : KeepsStart d s s1 := .foldl (fun t m => setMeas_keepsStart d _ _ t) ds s
  have h2 : KeepsStart d s s2 := .ite h1 ((h1.trans (setSensor_keepsStart d _ _ _)).trans (postGarnetFault_keepsStart d _ _ _ _ _ _))
  exact .ite h2 ((h2.trans (rebase_keepsStart d _ _)).trans (postWorld_keepsStart d _ _ _ _ _))

theorem faultRule_keepsStart (k : Nat) (s : State) : KeepsStart d s (faultRule d k s) := by
  unfold faultRule
  extract_lets x world s1
  have h1 : KeepsStart d s s1 := .foldl (fun t m => by
    extract_lets y ok y1 ev
    have hev : ∀ u f, KeepsStart d u (ev u f) := fun u f => postWorld_keepsStart d _ _ _ _ u
    exact .ite ((((setMeas_keepsStart d _ _ t).trans (loseContacts_keepsStart d _ _)).trans (rinlarCount_keepsStart d _ _ _ _)).trans (hev _ _))
      (.ite ((setMeas_keepsStart d _ _ t).trans (hev _ _)) (setMeas_keepsStart d _ _ t))) _ s
  exact .ite (h1.trans (setSensor_keepsStart d _ _ _)) h1

/-! ## A scan (R363) -/

theorem refreshTouch_regs (s : State) : RegsOnly s (refreshTouch d s) := by
  have hite : ∀ {p : Prop} [Decidable p] {u v w : State}, RegsOnly u v → RegsOnly u w → RegsOnly u (if p then v else w) := fun h h' => by
    split
    · exact h
    · exact h'
  unfold refreshTouch
  extract_lets t xs s0 s1 s2
  have h0 : RegsOnly s s0 := hite ((regsOnly_wr _ _ _).trans (regsOnly_wr _ _ _)) .rfl
  have h1 : RegsOnly s0 s1 := foldl_regsOnly (fun u k => by
    extract_lets x a cs u1 u2
    have hu1 : RegsOnly u u1 := (((((regsOnly_wr _ _ _).trans (regsOnly_wr _ _ _)).trans (regsOnly_wr _ _ _)).trans (regsOnly_wr _ _ _)).trans (regsOnly_wr _ _ _)).trans (regsOnly_wr _ _ _)
    have hu2 : RegsOnly u1 u2 := foldl_regsOnly (fun v c => regsOnly_wr _ _ _) _ _
    refine (hu1.trans hu2).trans (foldl_regsOnly (fun v m => ?_) _ _)
    extract_lets c y many v1 v2
    have hv1 : RegsOnly v v1 := (regsOnly_wr _ _ _).trans (regsOnly_wr _ _ _)
    have hv2 : RegsOnly v v2 := hv1.trans (regsOnly_wr _ _ _)
    exact hite hv1 (hite hv2 ((hv2.trans (regsOnly_wr _ _ _)).trans (regsOnly_wr _ _ _)))) _ _
  have h2 : RegsOnly s1 s2 := foldl_regsOnly (fun u r => by
    extract_lets a rt
    exact (((regsOnly_wr _ _ _).trans (regsOnly_wr _ _ _)).trans (regsOnly_wr _ _ _)).trans (regsOnly_wr _ _ _)) _ _
  exact ((h0.trans h1).trans h2).trans (foldl_regsOnly (fun u p => hite (regsOnly_wr _ _ _) .rfl) _ _)

theorem scanStages_keepsStart (s : State) : KeepsStart d s (scanStages d s) := by
  unfold scanStages
  extract_lets ks held s3 live s4 active frozenNow s5 hz s6
  have h3 : KeepsStart d s s3 := .foldl (fun t k => faultRule_keepsStart d k t) _ _
  have h4 : KeepsStart d s3 s4 := .foldl (fun t k => by
    extract_lets x ds
    exact (KeepsStart.ite (matrixSensor_keepsStart d k t) (lineSensor_keepsStart d k t)).trans (antiRule_keepsStart d k _ _)) _ _
  have h5 : KeepsStart d s4 s5 := .foldl (fun t k => setSensor_keepsStart d _ _ t) _ _
  have h6 : KeepsStart d s5 s6 := .foldl (fun t k => .foldl (fun u m => setMeas_keepsStart d _ _ u) _ _) _ _
  exact ((((h3.trans h4).trans h5).trans h6).trans (.of_touches (t := useFree 0x1000 s6) rfl)).trans (.of_regsOnly (refreshTouch_regs d _))

theorem fillBaselines_begun (s : State) : ((fillBaselines d s).touch d).fresh = false ∧ ((fillBaselines d s).touch d).reload = [] := by
  unfold fillBaselines
  extract_lets t s1 count ev unit s2
  have hs2 : s2.touch d = { s1.touch d with fresh := false, reload := [] } := touch_setTouch_same _ _ _
  have hev : ∀ w u, KeepsStart d u (ev w u) := fun w u => .ite (postWorld_keepsStart d _ _ _ _ _) .rfl
  have h : KeepsStart d s2 (ev 1 (ev 0 s2)) := (hev _ _).trans (hev _ _)
  exact ⟨h.fresh_eq.trans (by rw [hs2]), h.reload_eq.trans (by rw [hs2])⟩

/-! ## A report (R380, R381) -/

theorem applyReport_keepsStart (p : Nat) (bs : List Byte) (s : State) : KeepsStart (tshDie p) s (applyReport p bs s) := by
  unfold applyReport
  extract_lets e src rs s1
  have h1 : KeepsStart (tshDie p) s s1 := .foldl (fun t c => .ite .rfl (releaseContact_keepsStart _ _ _ _)) _ _
  refine h1.trans (.foldl (fun t r => ?_) _ _)
  split
  · exact moveTo_keepsStart _ _ _ _ _ _
  · exact touchDown_keepsStart _ _ _ _ _ _ _

end
end Sys2Proof.Machine
end

section
/-! Touch sensors are scanned, and touchscreens read (O50; R363 to R384). -/
namespace Sys2Proof.Machine

theorem Only.setTouch {m : State → State} {s t : State} (h : Only m s t) (d : Die) (x : Touch) (hm : ∀ u r, m { u with touches := r } = m u := by intros; rfl) : Only m s (setTouch d x t) := (hm _ _).trans h
theorem rd_setTouch (d : Die) (x : Touch) (s : State) (a : Nat) : (setTouch d x s).rd a = s.rd a := rd_congr rfl rfl a

/-! ## The counts of a scan (R363) -/

theorem measOf_setMeas_same (d : Die) (m : Nat) (x : Meas) (s : State) : (setMeas d m x s).measOf d m = x := by
  rw [State.measOf, setMeas, touch_setTouch_same]
  exact tget_tset_same _ _ _ _
theorem measOf_setMeas_ne (d : Die) {m n : Nat} (h : n ≠ m) (x : Meas) (s : State) : (setMeas d m x s).measOf d n = s.measOf d n := by
  rw [State.measOf, setMeas, touch_setTouch_same]
  exact tget_tset_ne _ h _ _

/-- Measurements take their counts. -/
def countsTaken (d : Die) (o : TouchObs) (ms : List Nat) (s : State) : State := ms.foldl (fun u m => setMeas d m { u.measOf d m with raw := tget 0 m o.counts % 2 ^ 16 } u) s

theorem countsTaken_only (d : Die) (o : TouchObs) (ms : List Nat) (s : State) : Only (fun u => { u with touches := [] }) s (countsTaken d o ms s)
    ∧ ((countsTaken d o ms s).touch d).sensors = (s.touch d).sensors := by
  induction ms generalizing s with
  | nil => exact ⟨.rfl, rfl⟩
  | cons m ms ih =>
    obtain ⟨h1, h2⟩ := ih (setMeas d m { s.measOf d m with raw := tget 0 m o.counts % 2 ^ 16 } s)
    refine ⟨(Only.rfl.setTouch _ _).trans h1, h2.trans ?_⟩
    rw [setMeas, touch_setTouch_same]

theorem countsTaken_meas (d : Die) (o : TouchObs) (ms : List Nat) (s : State) (n : Nat) : ((countsTaken d o ms s).measOf d n).base = (s.measOf d n).base
    ∧ (n ∈ ms ∨ (s.measOf d n).raw = tget 0 n o.counts % 2 ^ 16 → ((countsTaken d o ms s).measOf d n).raw = tget 0 n o.counts % 2 ^ 16) := by
  induction ms generalizing s with
  | nil => exact ⟨rfl, fun h => h.elim (fun h => by cases h) id⟩
  | cons m ms ih =>
    obtain ⟨h1, h2⟩ := ih (setMeas d m { s.measOf d m with raw := tget 0 m o.counts % 2 ^ 16 } s)
    by_cases hn : n = m
    · subst hn
      rw [measOf_setMeas_same] at h1 h2
      exact ⟨h1, fun _ => h2 (.inr rfl)⟩
    · rw [measOf_setMeas_ne d hn] at h1 h2
      exact ⟨h1, fun h => h2 (h.imp_left fun h => (List.mem_cons.1 h).resolve_left hn)⟩

theorem takeCounts_eq (d : Die) (o : TouchObs) (s : State) :
    takeCounts d o s = countsTaken d o (((s.touch d).sensors.map Prod.fst).flatMap (fun k => sMeas (s.sensor d k).setup)) s := by
  have hfold : ∀ (ks : List Nat) (t : State), (t.touch d).sensors = (s.touch d).sensors →
      ks.foldl (fun t k => countsTaken d o (sMeas (t.sensor d k).setup) t) t = countsTaken d o (ks.flatMap (fun k => sMeas (s.sensor d k).setup)) t := by
    intro ks
    induction ks with
    | nil => exact fun t _ => rfl
    | cons k ks ih =>
      intro t ht
      have hk : t.sensor d k = s.sensor d k := by rw [State.sensor, State.sensor, ht]
      rw [List.foldl_cons, hk, ih _ ((countsTaken_only d o _ t).2.trans ht), List.flatMap_cons, countsTaken, countsTaken, countsTaken, List.foldl_append]
  exact hfold _ s rfl

theorem takeCounts_rule (d : Die) (o : TouchObs) (s : State) : takeCounts d o s = { s with touches := (takeCounts d o s).touches }
    ∧ (∀ k ∈ (s.touch d).sensors, ∀ m ∈ sMeas (s.sensor d k.1).setup, ((takeCounts d o s).measOf d m).raw = tget 0 m o.counts % 2 ^ 16)
    ∧ ∀ m, ((takeCounts d o s).measOf d m).base = (s.measOf d m).base := by
  have hgo := takeCounts_eq d o s
  refine ⟨?_, fun k hk m hm => ?_, fun m => ?_⟩
  · obtain ⟨h, -⟩ := countsTaken_only d o (((s.touch d).sensors.map Prod.fst).flatMap (fun k => sMeas (s.sensor d k).setup)) s
    rw [← hgo] at h
    exact congrArg (fun u => { u with touches := (takeCounts d o s).touches }) h
  · obtain ⟨-, h⟩ := countsTaken_meas d o (((s.touch d).sensors.map Prod.fst).flatMap (fun k => sMeas (s.sensor d k).setup)) s m
    rw [hgo]
    exact h (.inl (List.mem_flatMap.2 ⟨k.1, List.mem_map_of_mem hk, hm⟩))
  · obtain ⟨h, -⟩ := countsTaken_meas d o (((s.touch d).sensors.map Prod.fst).flatMap (fun k => sMeas (s.sensor d k).setup)) s m
    rw [hgo]
    exact h

section
variable {d : Die} {o : TouchObs} {s : State}

theorem scan_idle (h : scanning s d = false) : scan d o s = s := if_pos h

theorem scan_runs (h : scanning s d = true) (he : s.flag (TOUCH_STATUS d) TOUCH_STATUS_EN = true) (hl : hasLeave s d 4 0 = false) :
    scan d o s = if o.overrun then wrB (TOUCH_STATUS d) TOUCH_STATUS_OVERRUN true s else scanStages d (fillBaselines d (takeCounts d o s)) := by
  have hleave : touchLeave d s = s := if_neg (by rw [hl]; exact Bool.false_ne_true)
  unfold scan
  dsimp only
  rw [if_neg (by rw [h]; exact Bool.noConfusion), hleave, if_neg (by rw [he]; exact Bool.noConfusion)]

end

/-! ## The low-power scan (R382) -/

/-- The baseline that a low-power scan compares with. -/
def lpFrom (s : State) (d : Die) (n : Nat) : Nat := (s.touch d).lpBase.getD (n * 256)

/-- How far the count is above it. -/
def lpOver (s : State) (d : Die) (n : Nat) : Int := sat16 ((n : Int) - lpFrom s d n / 256)

/-- Scans at LP_TH in a row, with this one. -/
def lpScans (s : State) (d : Die) (n : Nat) : Nat := if (dget (s.touch d).setup 30 0 16 : Int) ≤ lpOver s d n then (s.touch d).lpRun + 1 else 0

/-- The baseline after the scan. -/
def lpFollowed (s : State) (d : Die) (n : Nat) : Nat :=
  if (dget (s.touch d).setup 30 0 16 : Int) ≤ 2 * lpOver s d n then lpFrom s d n
  else (follow (BitVec.ofNat 512 (8 * 2 ^ (8 * 39))) (dget (s.touch d).setup 28 0 8) (s.freeNat 0) { Meas.empty with raw := n, base := lpFrom s d n }).base

/-- The scan is the one that wakes the device. -/
def lpWakes (s : State) (d : Die) (n : Nat) : Bool := decide (dget (s.touch d).setup 29 0 8 ≤ lpScans s d n) && (s.touch d).lpDelta.isNone

/-- The electrode after the scan. -/
def lpElectrode (s : State) (d : Die) (n : Nat) : Touch :=
  { s.touch d with
    lpBase := some (lpFollowed s d n)
    lpRun := lpScans s d n
    lpDelta := if lpWakes s d n then some (unsgn 16 (lpOver s d n)) else (s.touch d).lpDelta }

/-- A low-power scan is taken. -/
def lpTaken (d : Die) (n : Nat) (s : State) : State := setTouch d (lpElectrode s d n) (useFree 1 s)

theorem lpScan_idle {d : Die} {n : Nat} {s : State} (h : s.rdF (POWER_STATUS d) POWER_STATUS_STATE ≠ 2 ∨ s.flag (TOUCH_STATUS d) TOUCH_STATUS_LP_ACTIVE = false) : lpScan d n s = s := if_pos h

theorem lpScan_active {d : Die} {s : State} (hp : s.rdF (POWER_STATUS d) POWER_STATUS_STATE = 2) (ha : s.flag (TOUCH_STATUS d) TOUCH_STATUS_LP_ACTIVE = true) (n : Nat) :
    lpScan d n s = if lpWakes s d n then wakeUp d 1 (lpTaken d n s) else lpTaken d n s :=
  if_neg fun h => h.elim (fun h => h hp) (fun h => Bool.noConfusion (ha.symm.trans h))

theorem lpTaken_touch (d : Die) (n : Nat) (s : State) : (lpTaken d n (fresh s)).touch d = lpElectrode s d n := touch_setTouch_same _ _ _

/-- A low-power scan that wakes nobody. -/
theorem touchLpScan_rests {d : Die} {n : Nat} {s : State} (hp : s.rdF (POWER_STATUS d) POWER_STATUS_STATE = 2) (ha : s.flag (TOUCH_STATUS d) TOUCH_STATUS_LP_ACTIVE = true) (hw : lpWakes s d n = false) :
    exec (.touchLpScan d n) s = .next (lpTaken d n (fresh s)) ∧ lpTaken d n (fresh s) = { s with touches := (lpTaken d n (fresh s)).touches, free := s.free + 1, out := [] }
      ∧ (lpTaken d n (fresh s)).touch d = { s.touch d with lpBase := some (lpFollowed s d n), lpRun := lpScans s d n } := by
  have hgo := (lpScan_active (s := fresh s) ((rdF_fresh _ _ _).trans hp) ((flag_fresh _ _ _).trans ha) n).trans (if_neg (by rw [show lpWakes (fresh s) d n = lpWakes s d n from rfl, hw]; exact Bool.false_ne_true))
  have hend : Only (fun u => { u with touches := [], free := 0 }) (fresh s) (lpTaken d n (fresh s)) := Eq.refl _
  refine ⟨congrArg Host.Outcome.next (hend.ran hgo), rfl, ?_⟩
  rw [lpTaken_touch, lpElectrode, if_neg (by rw [hw]; exact Bool.false_ne_true)]

theorem lpScans_below {s : State} {d : Die} {n : Nat} (h : lpOver s d n < (dget (s.touch d).setup 30 0 16 : Int)) : lpScans s d n = 0 := if_neg (by omega)
theorem lpWakes_below {s : State} {d : Die} {n : Nat} (h : lpOver s d n < (dget (s.touch d).setup 30 0 16 : Int)) (hw : 0 < dget (s.touch d).setup 29 0 8) : lpWakes s d n = false := by
  rw [lpWakes, lpScans_below h, decide_eq_false (by omega), Bool.false_and]

/-- With no baseline the first count is it. -/
theorem lpOver_first {s : State} {d : Die} (h : (s.touch d).lpBase = none) (n : Nat) : lpOver s d n = 0 := by
  have h0 : (n : Int) - (n * 256 : Nat) / 256 = 0 := by omega
  rw [lpOver, lpFrom, h, Option.getD_none, h0]
  rfl

theorem touchLpScan_rule (d : Die) (n : Nat) (s : State) (hp : s.rdF (POWER_STATUS d) POWER_STATUS_STATE = 2) (ha : s.flag (TOUCH_STATUS d) TOUCH_STATUS_LP_ACTIVE = true) :
    ((s.touch d).lpBase = none → 0 < dget (s.touch d).setup 30 0 16 → 0 < dget (s.touch d).setup 29 0 8 →
      ∃ t, exec (.touchLpScan d n) s = .next t ∧ t = { s with touches := t.touches, free := s.free + 1, out := [] } ∧ (t.touch d).lpBase.isSome = true ∧ (t.touch d).lpRun = 0
        ∧ (t.touch d).lpDelta = (s.touch d).lpDelta)
    ∧ (∀ b : Nat, (s.touch d).lpBase = some b → (s.touch d).lpDelta = none → (dget (s.touch d).setup 30 0 16 : Int) ≤ sat16 ((n : Int) - b / 256) →
      ((s.touch d).lpRun + 1 < dget (s.touch d).setup 29 0 8 → ∃ t, exec (.touchLpScan d n) s = .next t ∧ t = { s with touches := t.touches, free := s.free + 1, out := [] }
        ∧ (t.touch d).lpRun = (s.touch d).lpRun + 1 ∧ (t.touch d).lpBase = some b ∧ (t.touch d).lpDelta = none)
      ∧ (dget (s.touch d).setup 29 0 8 ≤ (s.touch d).lpRun + 1 →
        ∃ t u, exec (.touchLpScan d n) s = .next t ∧ t = ran (fun _ => wakeUp d 1 u) s ∧ (u = { s with touches := u.touches, free := s.free + 1, out := [] } ∧ (u.touch d).lpRun = (s.touch d).lpRun + 1
          ∧ (u.touch d).lpBase = some b ∧ (u.touch d).lpDelta = some (unsgn 16 (sat16 ((n : Int) - b / 256))))))
    ∧ (∀ b : Nat, (s.touch d).lpBase = some b → sat16 ((n : Int) - b / 256) < (dget (s.touch d).setup 30 0 16 : Int) → 0 < dget (s.touch d).setup 29 0 8 →
      ∃ t, exec (.touchLpScan d n) s = .next t ∧ t = { s with touches := t.touches, free := s.free + 1, out := [] } ∧ (t.touch d).lpRun = 0 ∧ (t.touch d).lpBase.isSome = true
        ∧ (t.touch d).lpDelta = (s.touch d).lpDelta) := by
  have hover : ∀ b : Nat, (s.touch d).lpBase = some b → lpOver s d n = sat16 ((n : Int) - b / 256) := fun b hb => by rw [lpOver, lpFrom, hb, Option.getD_some]
  have hrest : lpOver s d n < (dget (s.touch d).setup 30 0 16 : Int) → 0 < dget (s.touch d).setup 29 0 8 →
      ∃ t, exec (.touchLpScan d n) s = .next t ∧ t = { s with touches := t.touches, free := s.free + 1, out := [] } ∧ (t.touch d).lpRun = 0 ∧ (t.touch d).lpBase.isSome = true
        ∧ (t.touch d).lpDelta = (s.touch d).lpDelta := fun h hw => by
    obtain ⟨h1, h2, h3⟩ := touchLpScan_rests hp ha (lpWakes_below h hw)
    exact ⟨_, h1, h2, by rw [h3, lpScans_below h], by rw [h3]; rfl, by rw [h3]⟩
  refine ⟨fun hb h30 h29 => ?_, fun b hb hdl hth => ?_, fun b hb hlt h29 => hrest (by rw [hover b hb]; exact hlt) h29⟩
  · obtain ⟨t, h1, h2, h3, h4, h5⟩ := hrest (by rw [lpOver_first hb]; omega) h29
    exact ⟨t, h1, h2, h4, h3, h5⟩
  · have hscans : lpScans s d n = (s.touch d).lpRun + 1 := if_pos (by rw [hover b hb]; exact hth)
    have hbase : lpFollowed s d n = b := by
      have h2 : lpFollowed s d n = lpFrom s d n := if_pos (show (dget (s.touch d).setup 30 0 16 : Int) ≤ 2 * lpOver s d n by rw [hover b hb]; omega)
      rw [h2, lpFrom, hb, Option.getD_some]
    refine ⟨fun hlt => ?_, fun hle => ?_⟩
    · have hw : lpWakes s d n = false := by rw [lpWakes, hscans, decide_eq_false (by omega), Bool.false_and]
      obtain ⟨h1, h2, h3⟩ := touchLpScan_rests hp ha hw
      exact ⟨_, h1, h2, by rw [h3, hscans], by rw [h3, hbase], by rw [h3, hdl]⟩
    · have hw : lpWakes s d n = true := by rw [lpWakes, hscans, decide_eq_true hle, hdl]; rfl
      have hgo := (lpScan_active (s := fresh s) ((rdF_fresh _ _ _).trans hp) ((flag_fresh _ _ _).trans ha) n).trans (if_pos (show lpWakes (fresh s) d n = true from hw))
      have ht := lpTaken_touch d n s
      rw [lpElectrode, if_pos hw, hbase, hscans, hover b hb] at ht
      exact ⟨_, lpTaken d n (fresh s), congrArg Host.Outcome.next (ran_congr hgo), rfl, rfl, by rw [ht], by rw [ht], by rw [ht]⟩

/-! ## The self-test (R384) -/

/-- The test is over. -/
def testOver (d : Die) (s : State) : State := setTouch d { s.touch d with test := none } s

/-- The records of the 96 channels. -/
def testRecords (s : State) (d : Die) (tk : Ticket) (desc : Desc) (counts : List (Nat × Nat × Nat)) : List (List Byte × Bool) := (upto 96).map (testRecord s d (fnWorld tk.fn) (dget desc 10 0 16) counts)

theorem testRecords_fresh (s : State) (d : Die) (tk : Ticket) (desc : Desc) (counts : List (Nat × Nat × Nat)) : testRecords (fresh s) d tk desc counts = testRecords s d tk desc counts := rfl

theorem length_testRecord (s : State) (d : Die) (w th : Nat) (counts : List (Nat × Nat × Nat)) (c : Nat) : (testRecord s d w th counts c).1.length = 8 := by
  unfold testRecord
  split
  · exact length_leBytes 8 _
  · dsimp only
    exact length_leBytes 8 _

theorem length_records {rs : List (List Byte × Bool)} (h : ∀ r ∈ rs, r.1.length = 8) : (rs.flatMap Prod.fst).length = 8 * rs.length := by
  induction rs with
  | nil => rfl
  | cons r rs ih => rw [List.flatMap_cons, List.length_append, h r List.mem_cons_self, ih fun x hx => h x (List.mem_cons_of_mem _ hx), List.length_cons, Nat.mul_succ, Nat.add_comm]

theorem length_testRecords (s : State) (d : Die) (tk : Ticket) (desc : Desc) (counts : List (Nat × Nat × Nat)) : ((testRecords s d tk desc counts).flatMap Prod.fst).length = 768 := by
  rw [length_records fun r hr => ?_, testRecords, List.length_map, upto, List.length_range]
  obtain ⟨c, -, rfl⟩ := List.mem_map.1 hr
  exact length_testRecord _ _ _ _ _ _

theorem selftestDone_none {d : Die} {counts : List (Nat × Nat × Nat)} {s : State} (h : (s.touch d).test = none) : selftestDone d counts s = s := by rw [selftestDone, h]

theorem selftestDone_written {d : Die} {counts : List (Nat × Nat × Nat)} {tk : Ticket} {desc : Desc} {s s2 : State} (h : (s.touch d).test = some (tk, desc))
    (hw : dmaWrite d tk.fn tk.ring.ring (dget desc 16 0 64) ((testRecords s d tk desc counts).flatMap Prod.fst) (testOver d s) = (none, s2)) :
    selftestDone d counts s = finish tk stOk ((testRecords s d tk desc counts).filter (fun r => r.2)).length s2 := by
  unfold testRecords testOver at hw
  rw [selftestDone, h]
  dsimp only
  rw [hw]
  exact rfl

theorem touchSelftestDone_ok {d : Die} {counts : List (Nat × Nat × Nat)} {tk : Ticket} {desc : Desc} {s s2 : State} (h : (s.touch d).test = some (tk, desc))
    (hw : dmaWrite d tk.fn tk.ring.ring (dget desc 16 0 64) ((testRecords s d tk desc counts).flatMap Prod.fst) (testOver d (fresh s)) = (none, s2)) :
    exec (.touchSelftestDone d counts) s = .next (ran (fun _ => finish tk stOk ((testRecords s d tk desc counts).filter (fun r => r.2)).length s2) s) :=
  congrArg Host.Outcome.next (ran_congr (selftestDone_written (s := fresh s) h hw))

theorem touchSelftestDone_untranslated {d : Die} {counts : List (Nat × Nat × Nat)} {tk : Ticket} {desc : Desc} {s : State} (h : (s.touch d).test = some (tk, desc)) (hu : Untranslated tk.fn s)
    (hp : dget desc 16 0 64 % 4096 + 768 ≤ 4096) (hv : dget desc 16 0 64 + 768 ≤ 2 ^ 48) :
    ∃ t u, exec (.touchSelftestDone d counts) s = .next t ∧ t.pending = s.pending ∧ t = ran (fun _ => finish tk stOk ((testRecords s d tk desc counts).filter (fun r => r.2)).length u) s
      ∧ (u.touch d).test = none ∧ u.out = [.mem (hostKey s tk.fn.ep (dget desc 16 0 64)) ((testRecords s d tk desc counts).flatMap Prod.fst)]
      ∧ ((testRecords s d tk desc counts).flatMap Prod.fst).length = 768 := by
  have hl := length_testRecords s d tk desc counts
  obtain ⟨bs, hbs⟩ : ∃ bs, bs = (testRecords s d tk desc counts).flatMap Prod.fst := ⟨_, rfl⟩
  rw [← hbs] at hl
  obtain ⟨tl, hw, -⟩ := dmaWriteRaw_untranslated (hu.congr (t := testOver d (fresh s)) (fun _ => rfl) rfl rfl) d (va := dget desc 16 0 64) (bs := bs)
    (by rw [← List.length_pos_iff]; omega) (by omega) (by omega)
  have hgo := touchSelftestDone_ok (counts := counts) h (by rw [← hbs]; exact dmaWrite_of_ok hw)
  rw [← hbs]
  exact ⟨_, _, hgo, rfl, rfl, congrArg Touch.test (touch_setTouch_same d { s.touch d with test := none } (fresh s)), rfl, hl⟩

end Sys2Proof.Machine
end

section
/-! External touchscreens are read (O50; R379 to R381). -/
namespace Sys2Proof.Machine

theorem tsh_setTsh_same (p : Nat) (x : TshPort) (s : State) : (setTsh p x s).tsh p = x := by
  rw [State.tsh, setTsh, touch_setTouch_same]
  exact tget_tset_same _ _ _ _
theorem tsh_congr {s t : State} (h : t.touches = s.touches) (p : Nat) : t.tsh p = s.tsh p := congrArg (fun x : Touch => tget TshPort.empty (tshNo p) x.ports) (touch_congr h (tshDie p))
theorem rd_setTsh (p : Nat) (x : TshPort) (s : State) (a : Nat) : (setTsh p x s).rd a = s.rd a := rd_setTouch _ _ _ _
theorem KeepsStart.tsh {p : Nat} {s t : State} (h : KeepsStart (tshDie p) s t) : t.tsh p = s.tsh p := congrArg (tget TshPort.empty (tshNo p)) h.ports_eq
theorem Only.setTsh {m : State → State} {s t : State} (h : Only m s t) (p : Nat) (x : TshPort) (hm : ∀ u r, m { u with touches := r } = m u := by intros; rfl) : Only m s (setTsh p x t) := (hm _ _).trans h

/-! ## A read starts (R379, R380) -/

/-- Why no read starts on a port. -/
def ReadRefused (p : Nat) (s : State) : Prop :=
  4 ≤ p ∨ s.flag (TSH_STATUS (tshDie p) (tshNo p)) TSH_STATUS_EN = false ∨ (s.tsh p).reading = true ∨ s.rdF (POWER_STATUS (tshDie p)) POWER_STATUS_STATE ≠ 0

theorem not_readRefused {p : Nat} {s : State} (hp : p < 4) (he : s.flag (TSH_STATUS (tshDie p) (tshNo p)) TSH_STATUS_EN = true) (hr : (s.tsh p).reading = false)
    (hw : s.rdF (POWER_STATUS (tshDie p)) POWER_STATUS_STATE = 0) : ¬ReadRefused p s := by
  rintro (hc | hc | hc | hc)
  · omega
  · exact Bool.noConfusion (he.symm.trans hc)
  · exact Bool.noConfusion (hr.symm.trans hc)
  · exact hc hw

/-- A read has started. -/
def readBegun (p : Nat) (s : State) : State := emit (readI2c p (s.tsh p).setup) (setTsh p { s.tsh p with reading := true, retry := false } s)

theorem readRefused_fresh {p : Nat} {s : State} (h : ReadRefused p s) : ReadRefused p (fresh s) := by
  unfold ReadRefused
  rw [flag_fresh, rdF_fresh]
  exact h

theorem beginRead_refused {p : Nat} {s : State} (h : ReadRefused p s) : beginRead p s = s := if_pos h
theorem beginRead_starts {p : Nat} {s : State} (h : ¬ReadRefused p s) : beginRead p s = readBegun p s := if_neg h

theorem tshRead_refused {p : Nat} {s : State} (h : ReadRefused p s) : exec (.tshRead p) s = .next (fresh s) ∧ exec (.tshInt p) s = .next (fresh s) := by
  have hgo := beginRead_refused (readRefused_fresh h)
  have hint : (if dget ((fresh s).tsh p).setup 9 3 1 = 1 then beginRead p (fresh s) else fresh s) = fresh s := by
    rw [hgo]
    exact ite_self _
  exact ⟨congrArg Host.Outcome.next (ran_same hgo), congrArg Host.Outcome.next (ran_same hint)⟩

theorem tshRead_starts {p : Nat} {s : State} (h : ¬ReadRefused p s) :
    ∃ t, exec (.tshRead p) s = .next t ∧ t = { s with touches := t.touches, out := [readI2c p (s.tsh p).setup] } ∧ t.tsh p = { s.tsh p with reading := true, retry := false }
      ∧ (dget (s.tsh p).setup 9 3 1 = 1 → exec (.tshInt p) s = .next t) ∧ (dget (s.tsh p).setup 9 3 1 = 0 → exec (.tshInt p) s = .next (fresh s)) := by
  have hnot : ¬ReadRefused p (fresh s) := fun hc => h (by
    unfold ReadRefused at hc
    rw [flag_fresh, rdF_fresh] at hc
    exact hc)
  have hgo := beginRead_starts hnot
  have hran : ∀ g : State → State, g (fresh s) = readBegun p (fresh s) → ran g s = readBegun p (fresh s) := fun g hg => ran_quiet hg rfl rfl rfl
  refine ⟨readBegun p (fresh s), congrArg Host.Outcome.next (hran _ hgo), rfl, tsh_setTsh_same _ _ _, fun h1 => ?_, fun h0 => ?_⟩
  · have hint : (if dget ((fresh s).tsh p).setup 9 3 1 = 1 then beginRead p (fresh s) else fresh s) = readBegun p (fresh s) := (if_pos h1).trans hgo
    exact congrArg Host.Outcome.next (hran _ hint)
  · have h1 : ¬dget (s.tsh p).setup 9 3 1 = 1 := by omega
    have hint : (if dget ((fresh s).tsh p).setup 9 3 1 = 1 then beginRead p (fresh s) else fresh s) = fresh s := if_neg h1
    exact congrArg Host.Outcome.next (ran_same hint)

/-! ## A read ends (R380, R381) -/

/-- The port after a failed read; `again` where it is read a second time. -/
def readFailed (p why : Nat) (again : Bool) (s : State) : State :=
  satF (TSH_STATUS (tshDie p) (tshNo p)) TSH_STATUS_FAILS 1 (setTsh p { s.tsh p with reading := again, retry := again, fails := (s.tsh p).fails + 1, why := why % 256 } s)

section
variable {p : Nat} {s : State}

theorem readDone_idle (h : 4 ≤ p ∨ (s.tsh p).reading = false) (r : TshReply) : readDone p r s = s := if_pos h

variable (hp : p < 4) (hr : (s.tsh p).reading = true)
include hp hr

theorem readDone_open : ¬(4 ≤ p ∨ (s.tsh p).reading = false) := fun h => h.elim (by omega) fun h => Bool.noConfusion (hr.symm.trans h)

theorem readDone_report (hl : s.flag (TSH_STATUS (tshDie p) (tshNo p)) TSH_STATUS_LOST = false) (bs : List Byte) :
    readDone p (.report bs) s = refreshTouch (tshDie p) (applyReport p bs (setTsh p { s.tsh p with reading := false, retry := false, fails := 0 } s)) := by
  unfold readDone
  dsimp only
  rw [if_neg (readDone_open hp hr), flag_of_rd (rd_setTsh _ _ _ _), if_neg (by rw [hl]; exact Bool.false_ne_true)]

theorem readDone_again (ht : (s.tsh p).retry = false) (hf : (s.tsh p).fails < 2) (why : Nat) : readDone p (.failed why) s = emit (readI2c p (s.tsh p).setup) (readFailed p why true s) := by
  unfold readDone
  dsimp only
  rw [if_neg (readDone_open hp hr), ht, if_neg (fun hc => by omega)]
  exact if_pos rfl

theorem readDone_lost (ht : (s.tsh p).retry = true) (hf : 2 ≤ (s.tsh p).fails) (hl : s.flag (TSH_STATUS (tshDie p) (tshNo p)) TSH_STATUS_LOST = false) (why : Nat) :
    readDone p (.failed why) s = (wrB (TSH_STATUS (tshDie p) (tshNo p)) TSH_STATUS_LOST true (readFailed p why false s)
      |> loseContacts (tshDie p) (fun c => c == 64 + tshNo p) |> postTsh p 0 |> refreshTouch (tshDie p)) := by
  unfold readDone
  dsimp only
  rw [if_neg (readDone_open hp hr), ht, if_pos ⟨by omega, hl⟩]
  rfl

end

theorem tshReadDone_report {p : Nat} {s : State} (hp : p < 4) (hr : (s.tsh p).reading = true) (hl : s.flag (TSH_STATUS (tshDie p) (tshNo p)) TSH_STATUS_LOST = false) (bs : List Byte) :
    ∃ t, exec (.tshReadDone p (.report bs)) s = .next t ∧ t.pending = s.pending ∧ (t.tsh p).reading = false ∧ (t.tsh p).fails = 0
      ∧ t = ran (fun u => u |> setTsh p { s.tsh p with reading := false, retry := false, fails := 0 } |> applyReport p bs |> refreshTouch (tshDie p)) s := by
  have hgo := readDone_report (s := fresh s) hp hr ((flag_fresh _ _ _).trans hl) bs
  obtain ⟨x, hx⟩ : ∃ x, x = setTsh p { s.tsh p with reading := false, retry := false, fails := 0 } (fresh s) := ⟨_, rfl⟩
  have hxt : x.tsh p = { s.tsh p with reading := false, retry := false, fails := 0 } := by
    rw [hx, tsh_setTsh_same]
  have hkeep : KeepsStart (tshDie p) x (refreshTouch (tshDie p) (applyReport p bs x)) := (applyReport_keepsStart p bs x).trans (.of_regsOnly (refreshTouch_regs _ _))
  have ht : (ran (readDone p (.report bs)) s).tsh p = { s.tsh p with reading := false, retry := false, fails := 0 } := by
    have h1 : (ran (readDone p (.report bs)) s).touches = (refreshTouch (tshDie p) (applyReport p bs x)).touches := by
      rw [hx]
      exact (congrArg State.touches hgo :)
    rw [tsh_congr h1, hkeep.tsh, hxt]
  exact ⟨_, rfl, rfl, by rw [ht], by rw [ht], ran_congr hgo⟩

theorem readFailed_rule (p why : Nat) (again : Bool) (s : State) : Only (fun u => { u with regs := [], touches := [] }) s (readFailed p why again s)
    ∧ (readFailed p why again s).tsh p = { s.tsh p with reading := again, retry := again, fails := (s.tsh p).fails + 1, why := why % 256 }
    ∧ (readFailed p why again s).rdF (TSH_STATUS (tshDie p) (tshNo p)) TSH_STATUS_FAILS = min (2 ^ TSH_STATUS_FAILS.len - 1) (s.rdF (TSH_STATUS (tshDie p) (tshNo p)) TSH_STATUS_FAILS + 1) := by
  refine ⟨(Only.rfl.setTsh _ _).satF _ _ _, (tsh_congr (s := setTsh p _ s) rfl p).trans (tsh_setTsh_same _ _ _), ?_⟩
  rw [readFailed, rdF_satF_same _ _ _ _ (by decide), rdF_of_rd (rd_setTsh _ _ _ _)]

theorem tshReadDone_again {p : Nat} {s : State} (hp : p < 4) (hr : (s.tsh p).reading = true) (ht : (s.tsh p).retry = false) (hf : (s.tsh p).fails < 2) (why : Nat) :
    ∃ t, exec (.tshReadDone p (.failed why)) s = .next t ∧ t = { s with regs := t.regs, touches := t.touches, out := [readI2c p (s.tsh p).setup] }
      ∧ t.tsh p = { s.tsh p with reading := true, retry := true, fails := (s.tsh p).fails + 1, why := why % 256 }
      ∧ t.rdF (TSH_STATUS (tshDie p) (tshNo p)) TSH_STATUS_FAILS = min (2 ^ TSH_STATUS_FAILS.len - 1) (s.rdF (TSH_STATUS (tshDie p) (tshNo p)) TSH_STATUS_FAILS + 1) := by
  have hgo := readDone_again (s := fresh s) hp hr ht hf why
  obtain ⟨h1, h2, h3⟩ := readFailed_rule p why true (fresh s)
  obtain ⟨v, hv⟩ : ∃ v, v = readFailed p why true (fresh s) := ⟨_, rfl⟩
  rw [← hv] at hgo h1 h2 h3
  have hout : (emit (readI2c p (s.tsh p).setup) v).out = [readI2c p (s.tsh p).setup] := congrArg (fun o => o ++ [readI2c p (s.tsh p).setup]) (congrArg State.out h1 :)
  have hend : Only (fun u => { u with regs := [], touches := [], out := [] }) s (emit (readI2c p (s.tsh p).setup) v) := by
    have h0 : Only (fun u => { u with regs := [], touches := [], out := [] }) s (fresh s) := Eq.refl _
    exact (h0.trans h1.mono).emit _
  refine ⟨emit (readI2c p (s.tsh p).setup) v, congrArg Host.Outcome.next (ran_quiet hgo (congrArg State.mem hend :) (congrArg State.pending hend :) (by rw [hout]; rfl)), ?_,
    (tsh_congr (s := v) rfl p).trans h2, h3.trans (by rw [rdF_fresh])⟩
  rw [← hout]
  exact congrArg (fun u => { u with regs := v.regs, touches := v.touches, out := (emit (readI2c p (s.tsh p).setup) v).out }) hend

theorem tshReadDone_lost {p : Nat} {s : State} (hp : p < 4) (hr : (s.tsh p).reading = true) (ht : (s.tsh p).retry = true) (hf : 2 ≤ (s.tsh p).fails)
    (hl : s.flag (TSH_STATUS (tshDie p) (tshNo p)) TSH_STATUS_LOST = false) (why : Nat) :
    ∃ t u, exec (.tshReadDone p (.failed why)) s = .next t ∧ t = ran (fun _ => u |> loseContacts (tshDie p) (fun c => c == 64 + tshNo p) |> postTsh p 0 |> refreshTouch (tshDie p)) s
      ∧ u = { s with regs := u.regs, touches := u.touches, out := [] } ∧ u.flag (TSH_STATUS (tshDie p) (tshNo p)) TSH_STATUS_LOST = true
      ∧ u.tsh p = { s.tsh p with reading := false, retry := false, fails := (s.tsh p).fails + 1, why := why % 256 } := by
  have hgo := readDone_lost (s := fresh s) hp hr ht hf ((flag_fresh _ _ _).trans hl) why
  obtain ⟨h1, h2, -⟩ := readFailed_rule p why false (fresh s)
  obtain ⟨v, hv⟩ : ∃ v, v = readFailed p why false (fresh s) := ⟨_, rfl⟩
  rw [← hv] at hgo h1 h2
  have hend := h1.wrB (TSH_STATUS (tshDie p) (tshNo p)) TSH_STATUS_LOST true
  exact ⟨_, wrB (TSH_STATUS (tshDie p) (tshNo p)) TSH_STATUS_LOST true v, congrArg Host.Outcome.next (ran_congr hgo), rfl,
    congrArg (fun u => { u with regs := (wrB (TSH_STATUS (tshDie p) (tshNo p)) TSH_STATUS_LOST true v).regs, touches := v.touches }) hend, flag_wrB_same _ _ _ _ (by decide) (by decide),
    (tsh_congr (s := v) rfl p).trans h2⟩

/-! ## A scan as a command (R363) -/

theorem scanning_fresh (s : State) (d : Die) : scanning (fresh s) d = scanning s d := rfl

theorem touchScan_overrun {d : Die} {o : TouchObs} {s : State} (h : scanning s d = true) (he : s.flag (TOUCH_STATUS d) TOUCH_STATUS_EN = true) (hl : hasLeave s d 4 0 = false) (ho : o.overrun = true) :
    ∃ t, exec (.touchScan d o) s = .next t ∧ t.pending = s.pending ∧ t = { s with regs := t.regs, out := [] } ∧ t.flag (TOUCH_STATUS d) TOUCH_STATUS_OVERRUN = true
      ∧ ∀ a, a ≠ TOUCH_STATUS d → t.rd a = s.rd a := by
  have hgo := (scan_runs (o := o) ((scanning_fresh s d).trans h) ((flag_fresh _ _ _).trans he) hl).trans (if_pos ho)
  have hend : RegsOnly (fresh s) (wrB (TOUCH_STATUS d) TOUCH_STATUS_OVERRUN true (fresh s)) := regsOnly_wr _ _ _
  exact ⟨_, congrArg Host.Outcome.next (ran_regsOnly hend hgo), rfl, hend.fresh, flag_wrB_same _ _ _ _ (by decide) (by decide), fun a ha => (rd_wrB_ne ha _ _ _).trans (rd_fresh _ _)⟩

theorem touchScan_taken {d : Die} {o : TouchObs} {s : State} (h : scanning s d = true) (he : s.flag (TOUCH_STATUS d) TOUCH_STATUS_EN = true) (hl : hasLeave s d 4 0 = false) (ho : o.overrun = false) :
    ∃ t, exec (.touchScan d o) s = .next t ∧ t.pending = s.pending ∧ (t.touch d).fresh = false ∧ (t.touch d).reload = []
      ∧ t = ran (fun u => scanStages d (fillBaselines d (takeCounts d o u))) s := by
  have hgo := (scan_runs (o := o) ((scanning_fresh s d).trans h) ((flag_fresh _ _ _).trans he) hl).trans (if_neg (by rw [ho]; exact Bool.false_ne_true))
  obtain ⟨f1, f2⟩ := fillBaselines_begun d (takeCounts d o (fresh s))
  have hkeep := scanStages_keepsStart d (fillBaselines d (takeCounts d o (fresh s)))
  have ht : (ran (scan d o) s).touch d = (scanStages d (fillBaselines d (takeCounts d o (fresh s)))).touch d := touch_congr (congrArg State.touches hgo : (scan d o (fresh s)).touches = _) d
  exact ⟨_, rfl, rfl, by rw [ht, hkeep.fresh_eq, f1], by rw [ht, hkeep.reload_eq, f2], ran_congr hgo⟩

/-- Settles O50. -/
theorem touchIsScanned : Obligations.TouchIsScanned := by
  refine ⟨fun d o s h he hl => ⟨touchScan_overrun h he hl, fun ho => ?_⟩, fun d o s h => congrArg Host.Outcome.next (ran_same (scan_idle ((scanning_fresh s d).trans h))),
    fun d n s h => congrArg Host.Outcome.next (ran_same (lpScan_idle (by rw [rdF_fresh, flag_fresh]; exact h))), touchLpScan_rule, fun d counts tk desc s s2 h hw => touchSelftestDone_ok h hw,
    fun d counts s h => congrArg Host.Outcome.next (ran_same (selftestDone_none (s := fresh s) h)), ?_, fun p s hp he hr hw => ?_, fun p s hp he hr hw h1 => ?_, fun p s h => tshRead_refused h,
    fun p r s h => congrArg Host.Outcome.next (ran_same (readDone_idle (s := fresh s) h r)), fun p s hp hr => ⟨fun bs hl => tshReadDone_report hp hr hl bs, fun why ht hf => tshReadDone_again hp hr ht hf why,
      fun why ht hf hl => tshReadDone_lost hp hr ht hf hl why⟩⟩
  · obtain ⟨c1, c2, c3⟩ := takeCounts_rule d o s
    exact ⟨touchScan_taken h he hl ho, c1, c2, c3⟩
  · rintro d counts tk desc _ _ s h rfl rfl hf h1 h2 hsp htlb hp hv
    exact touchSelftestDone_untranslated h ⟨hf, h1, h2, hsp, fun e he => by rw [htlb] at he; cases he⟩ hp hv
  · exact tshRead_starts (not_readRefused hp he hr hw)
  · obtain ⟨t, -, h3, h4, h5, -⟩ := tshRead_starts (not_readRefused hp he hr hw)
    exact ⟨t, h5 h1, h3, h4⟩

end Sys2Proof.Machine
end

section
/-! What a die sees of the other, and the split (O57; R449 to R451). -/
namespace Sys2Proof.Machine

theorem ebrumCounts1_ne_status (d e : Die) : EBRUM_COUNTS1 d ≠ EBRUM_STATUS e := by
  unfold EBRUM_COUNTS1 EBRUM_STATUS dieSpace
  cases d <;> cases e <;> simp only [Die.idx] <;> omega

theorem bundle_inj (d : Die) (i j : Nat) (h : EBRUM_BUNDLE d i = EBRUM_BUNDLE d j) : i = j := by
  unfold EBRUM_BUNDLE at h
  omega

/-! ## The check of every 10 µs (R449, R450) -/

/-- The smallest eye of a bundle is shown. -/
def eyeShown (d : Die) (o : HealthObs) (t : State) (n : Nat) : State := wrF (EBRUM_BUNDLE d n) EBRUM_BUNDLE_EYE_MIN (o.eyes.getD n 0 % 256) t

/-- The sideband and the peer, as the status shows them. -/
def peerShown (d : Die) (o : HealthObs) (s : State) : State :=
  wrB (EBRUM_STATUS d) EBRUM_STATUS_PEER_PEARL (inPearl s d.other) (wrB (EBRUM_STATUS d) EBRUM_STATUS_PEER_OK (o.okLowUs == 0) (wrB (EBRUM_STATUS d) EBRUM_STATUS_SB_UP (decide (o.sideUs ≤ 1000)) s))

/-- What the check reports. -/
def healthShown (d : Die) (o : HealthObs) (s : State) : State := (upto 4).foldl (eyeShown d o) (peerShown d o s)

theorem eyeShown_touches (d : Die) (o : HealthObs) (n : Nat) (t : State) : Touches [EBRUM_BUNDLE d n] t (eyeShown d o t n) := Touches.rfl.wrF _ _

theorem peerShown_rule (d : Die) (o : HealthObs) (s : State) : Touches [EBRUM_STATUS d] s (peerShown d o s) ∧ (peerShown d o s).flag (EBRUM_STATUS d) EBRUM_STATUS_SB_UP = decide (o.sideUs ≤ 1000)
    ∧ (peerShown d o s).flag (EBRUM_STATUS d) EBRUM_STATUS_PEER_OK = (o.okLowUs == 0) ∧ (peerShown d o s).flag (EBRUM_STATUS d) EBRUM_STATUS_PEER_PEARL = inPearl s d.other
    ∧ (peerShown d o s).rdF (EBRUM_STATUS d) EBRUM_STATUS_STATE = s.rdF (EBRUM_STATUS d) EBRUM_STATUS_STATE := by
  refine ⟨((Touches.rfl.wrB _ _).wrB _ _).wrB _ _, ?_, ?_, flag_wrB_same _ _ _ _ (by decide) (by decide), ?_⟩
  · rw [peerShown, flag_wrB_other _ _ _ _ _ (by decide) (by decide), flag_wrB_other _ _ _ _ _ (by decide) (by decide)]
    exact flag_wrB_same _ _ _ _ (by decide) (by decide)
  · rw [peerShown, flag_wrB_other _ _ _ _ _ (by decide) (by decide)]
    exact flag_wrB_same _ _ _ _ (by decide) (by decide)
  · rw [peerShown, rdF_wrB_other _ _ _ _ _ (by decide) (by decide), rdF_wrB_other _ _ _ _ _ (by decide) (by decide), rdF_wrB_other _ _ _ _ _ (by decide) (by decide)]

theorem healthShown_rule (d : Die) (o : HealthObs) (s : State) : RegsOnly s (healthShown d o s) ∧ (healthShown d o s).flag (EBRUM_STATUS d) EBRUM_STATUS_SB_UP = decide (o.sideUs ≤ 1000)
    ∧ (healthShown d o s).flag (EBRUM_STATUS d) EBRUM_STATUS_PEER_OK = (o.okLowUs == 0) ∧ (healthShown d o s).flag (EBRUM_STATUS d) EBRUM_STATUS_PEER_PEARL = inPearl s d.other
    ∧ (∀ n, n < 4 → (healthShown d o s).rdF (EBRUM_BUNDLE d n) EBRUM_BUNDLE_EYE_MIN = o.eyes.getD n 0 % 256)
    ∧ (healthShown d o s).rdF (EBRUM_STATUS d) EBRUM_STATUS_STATE = s.rdF (EBRUM_STATUS d) EBRUM_STATUS_STATE
    ∧ (∀ n, n < 4 → bundleState (healthShown d o s) n = bundleState s n)
    ∧ ∀ a, a ≠ EBRUM_STATUS d → (∀ n, n < 4 → a ≠ EBRUM_BUNDLE d n) → (healthShown d o s).rd a = s.rd a := by
  obtain ⟨⟨p1, p2⟩, p3, p4, p5, p6⟩ := peerShown_rule d o s
  obtain ⟨v, hv⟩ : ∃ v, v = peerShown d o s := ⟨_, rfl⟩
  rw [← hv] at p1 p2 p3 p4 p5 p6
  obtain ⟨f1, f2⟩ := foldl_ownReg_other (eyeShown_touches d o) (upto 4) v
  have hown := fun n (hn : n < 4) => foldl_ownReg (bundle_inj d) (eyeShown_touches d o) (nodup_upto 4) (mem_upto hn) v
  have hw : healthShown d o s = (upto 4).foldl (eyeShown d o) v := by rw [healthShown, hv]
  rw [← hw] at f1 f2 hown
  have hout : ∀ a, (∀ n, n < 4 → a ≠ EBRUM_BUNDLE d n) → (healthShown d o s).rd a = v.rd a := fun a ha => f2 a fun hm => by
    obtain ⟨n, hn, e⟩ := List.mem_map.1 hm
    exact ha n (List.mem_range.1 hn) e.symm
  have hst := hout (EBRUM_STATUS d) fun n hn => (bundle_ne_status d d hn).symm
  have hvr : ∀ a, a ≠ EBRUM_STATUS d → v.rd a = s.rd a := fun a ha => p2 a (by rw [List.mem_singleton]; exact ha)
  refine ⟨p1.trans f1, (flag_of_rd hst _).trans p3, (flag_of_rd hst _).trans p4, (flag_of_rd hst _).trans p5, fun n hn => ?_, (rdF_of_rd hst _).trans p6, fun n hn => ?_,
    fun a h1 h2 => (hout a h2).trans (hvr a h1)⟩
  · obtain ⟨t, -, -, h3⟩ := hown n hn
    rw [rdF_of_rd h3]
    exact rdF_wrF_of_lt (by decide) (Nat.mod_lt _ (by decide))
  · by_cases hd : d = .a
    · subst hd
      obtain ⟨t, -, h2, h3⟩ := hown n hn
      rw [bundleState, rdF_of_rd h3, eyeShown, rdF_wrF_other _ _ _ _ _ (by decide) (by decide), rdF_of_rd h2, rdF_of_rd (hvr _ (bundle_ne_status _ _ hn)), bundleState]
    · exact bundleState_of_rd ((hout _ fun m hm => bundle_ne hn hm fun hc => hd hc.1.symm).trans (hvr _ (bundle_ne_status _ _ hn)))

/-- No traffic crosses the main link as the die sees it (R449). -/
def mainSilent (d : Die) (o : HealthObs) (s w : State) : Bool :=
  s.rdF (POWER_STATUS d) POWER_STATUS_STATE != 2 && s.rdF (POWER_STATUS d) POWER_STATUS_STATE != 3 && (decide (50 ≤ o.mainUs) || allDown w)

theorem allDown_iff (s : State) : allDown s = true ↔ ∀ n, n < 4 → bundleState s n = 2 := by
  unfold allDown
  rw [List.all_eq_true]
  exact ⟨fun h n hn => beq_iff_eq.1 (h n (mem_upto hn)), fun h n hn => beq_iff_eq.2 (h n (List.mem_range.1 hn))⟩

theorem mainSilent_iff {d : Die} {o : HealthObs} {s w : State} (h : ∀ n, n < 4 → bundleState w n = bundleState s n) : mainSilent d o s w = true ↔
    (s.rdF (POWER_STATUS d) POWER_STATUS_STATE ≠ 2 ∧ s.rdF (POWER_STATUS d) POWER_STATUS_STATE ≠ 3) ∧ (50 ≤ o.mainUs ∨ ∀ n, n < 4 → bundleState s n = 2) := by
  rw [mainSilent, Bool.and_eq_true, Bool.and_eq_true, Bool.or_eq_true, bne_iff_ne, bne_iff_ne, decide_eq_true_iff, allDown_iff]
  exact and_congr_right fun _ => or_congr_right (forall₂_congr fun n hn => by rw [h n hn])

section
variable {d : Die} {o : HealthObs} {s : State} (hr : s.inReset.contains .ebrum = false) (w : State) (hw : w = healthShown d o s)
include hr hw

theorem healthCheck_rejoining (h5 : w.rdF (EBRUM_STATUS d) EBRUM_STATUS_STATE = 5) : healthCheck d o s =
    if o.okLowUs ≠ 0 then setEbrum d { (rejoinEnds w).ebrum d with splitDue := some 2 } (rejoinEnds w) else if mainSilent d o s w then rejoinEnds w else w := by
  unfold healthCheck
  rw [if_neg (by rw [hr]; exact Bool.false_ne_true)]
  unfold healthShown peerShown eyeShown at hw
  dsimp only
  rw [← hw, if_pos h5]
  rfl

theorem healthCheck_split (h2 : 2 ≤ w.rdF (EBRUM_STATUS d) EBRUM_STATUS_STATE) (h5 : w.rdF (EBRUM_STATUS d) EBRUM_STATUS_STATE ≠ 5) : healthCheck d o s =
    if (w.ebrum d).splitDue = some 2 ∧ 1000 < o.okLowUs ∧ supRuns w d = true then declareSplit d 2 w else w := by
  unfold healthCheck
  rw [if_neg (by rw [hr]; exact Bool.false_ne_true)]
  unfold healthShown peerShown eyeShown at hw
  dsimp only
  rw [← hw, if_neg h5, if_pos h2]

theorem healthCheck_joined (h2 : w.rdF (EBRUM_STATUS d) EBRUM_STATUS_STATE < 2) : ∀ v, v = (if mainSilent d o s w then loseMain d w else w) →
    (splitCause v d o = none ∨ supRuns v d = false → healthCheck d o s = v) ∧ ∀ c, splitCause v d o = some c → supRuns v d = true → healthCheck d o s = splitNow d c v := by
  rintro v hv
  have hgo : healthCheck d o s = match splitCause v d o with
      | none => v
      | some c => if supRuns v d then splitNow d c v else v := by
    unfold healthCheck
    rw [if_neg (by rw [hr]; exact Bool.false_ne_true)]
    unfold healthShown peerShown eyeShown at hw
    unfold mainSilent at hv
    dsimp only
    rw [← hw, if_neg (by omega), if_neg (by omega), ← hv] <;> rfl
  refine ⟨fun h => ?_, fun c hc hs => ?_⟩
  · rw [hgo]
    cases hcause : splitCause v d o with
    | none => rfl
    | some c => exact if_neg (by rw [h.resolve_left (by rw [hcause]; exact Option.some_ne_none c)]; exact Bool.false_ne_true)
  · rw [hgo, hc]
    exact if_pos hs

end

theorem ebrumHealthCheck_reset {d : Die} {o : HealthObs} {s : State} (h : s.inReset.contains .ebrum = true) : exec (.ebrumHealthCheck d o) s = .next (fresh s) := by
  have hgo : healthCheck d o (fresh s) = fresh s := if_pos h
  exact congrArg Host.Outcome.next (ran_same hgo)

theorem ebrumHealthCheck_rule {d : Die} {o : HealthObs} {s : State} (hr : s.inReset.contains .ebrum = false) : ∀ st, st = s.rdF (EBRUM_STATUS d) EBRUM_STATUS_STATE →
    ∃ w, (w = { s with regs := w.regs, out := [] } ∧ w.flag (EBRUM_STATUS d) EBRUM_STATUS_SB_UP = decide (o.sideUs ≤ 1000) ∧ w.flag (EBRUM_STATUS d) EBRUM_STATUS_PEER_OK = (o.okLowUs == 0)
        ∧ w.flag (EBRUM_STATUS d) EBRUM_STATUS_PEER_PEARL = inPearl s d.other ∧ (∀ n, n < 4 → w.rdF (EBRUM_BUNDLE d n) EBRUM_BUNDLE_EYE_MIN = o.eyes.getD n 0 % 256)
        ∧ w.rdF (EBRUM_STATUS d) EBRUM_STATUS_STATE = st ∧ ∀ a, a ≠ EBRUM_STATUS d → (∀ n, n < 4 → a ≠ EBRUM_BUNDLE d n) → w.rd a = s.rd a)
      ∧ (∀ gone : Prop, (gone ↔ (s.rdF (POWER_STATUS d) POWER_STATUS_STATE ≠ 2 ∧ s.rdF (POWER_STATUS d) POWER_STATUS_STATE ≠ 3) ∧ (50 ≤ o.mainUs ∨ ∀ n, n < 4 → bundleState s n = 2)) →
        (∀ v, st < 2 → (gone → v = loseMain d w) → (¬ gone → v = w) →
          (splitCause v d o = none ∨ supRuns v d = false → exec (.ebrumHealthCheck d o) s = .next (ran (fun _ => v) s))
          ∧ (∀ c, splitCause v d o = some c → supRuns v d = true → exec (.ebrumHealthCheck d o) s = .next (ran (fun _ => splitNow d c v) s)))
        ∧ (∀ due : Prop, (due ↔ (s.ebrum d).splitDue = some 2 ∧ 1000 < o.okLowUs ∧ supRuns s d = true) → 2 ≤ st → st ≠ 5 →
          (due → exec (.ebrumHealthCheck d o) s = .next (ran (fun _ => declareSplit d 2 w) s)) ∧ (¬ due → exec (.ebrumHealthCheck d o) s = .next (ran (fun _ => w) s)))
        ∧ (st = 5 → ∀ v, v = rejoinEnds w →
          (o.okLowUs ≠ 0 → exec (.ebrumHealthCheck d o) s = .next (ran (fun _ => setEbrum d { v.ebrum d with splitDue := some 2 } v) s))
          ∧ (o.okLowUs = 0 → gone → exec (.ebrumHealthCheck d o) s = .next (ran (fun _ => v) s))
          ∧ (o.okLowUs = 0 → ¬ gone → exec (.ebrumHealthCheck d o) s = .next (ran (fun _ => w) s)))) := by
  rintro st rfl
  obtain ⟨h1, h2, h3, h4, h5, h6, h7, h8⟩ := healthShown_rule d o (fresh s)
  obtain ⟨w, hw⟩ : ∃ w, w = healthShown d o (fresh s) := ⟨_, rfl⟩
  rw [← hw] at h1 h2 h3 h4 h5 h6 h7 h8
  rw [rdF_fresh] at h6
  have hexec : ∀ x, healthCheck d o (fresh s) = x → exec (.ebrumHealthCheck d o) s = .next (ran (fun _ => x) s) := fun x hx => congrArg Host.Outcome.next (ran_congr hx)
  have heb : w.ebrum d = s.ebrum d := congrArg (tget Ebrum.empty d.idx) (congrArg State.ebrums h1.eq :)
  have hboot : w.boot d = s.boot d := congrArg (tget Boot.empty d.idx) (congrArg State.boots h1.eq :)
  have hsup : supRuns w d = supRuns s d := by rw [supRuns, supRuns, hboot]
  refine ⟨w, ⟨h1.fresh, h2, h3, h4, h5, h6, fun a ha hb => (h8 a ha hb).trans (rd_fresh _ _)⟩, fun gone hgone => ?_⟩
  have hsilent : mainSilent d o (fresh s) w = true ↔ gone := by
    rw [mainSilent_iff h7, rdF_fresh, hgone]
    exact Iff.rfl
  have hquiet : ¬gone → ¬mainSilent d o (fresh s) w = true := fun hg hc => hg (hsilent.1 hc)
  refine ⟨fun v hst hv1 hv2 => ?_, fun due hdue h2 hn5 => ?_, fun hst v hv => ?_⟩
  · have hv : v = if mainSilent d o (fresh s) w then loseMain d w else w := by
      by_cases hg : gone
      · rw [if_pos (hsilent.2 hg), hv1 hg]
      · rw [if_neg (hquiet hg), hv2 hg]
    obtain ⟨c1, c2⟩ := healthCheck_joined (s := fresh s) hr w hw (by omega) v hv
    exact ⟨fun h => hexec _ (c1 h), fun c hc hs => hexec _ (c2 c hc hs)⟩
  · have hgo := healthCheck_split (s := fresh s) hr w hw (by omega) (by omega)
    rw [heb, hsup] at hgo
    exact ⟨fun hd => hexec _ (hgo.trans (if_pos (hdue.1 hd))), fun hd => hexec _ (hgo.trans (if_neg fun hc => hd (hdue.2 hc)))⟩
  · have hgo := healthCheck_rejoining (s := fresh s) hr w hw (by omega)
    rw [← hv] at hgo
    exact ⟨fun hk => hexec _ (hgo.trans (if_pos hk)), fun hk hg => hexec _ (hgo.trans ((if_neg (not_not_intro hk)).trans (if_pos (hsilent.2 hg)))),
      fun hk hg => hexec _ (hgo.trans ((if_neg (not_not_intro hk)).trans (if_neg (hquiet hg))))⟩

/-! ## The causes of a split (R450) -/

theorem splitCause_rule (d : Die) (o : HealthObs) (s : State) :
    (1000 < o.okLowUs → splitCause s d o = some 2)
    ∧ (o.okLowUs = 0 → 1000 < o.mainUs → 1000 < o.sideUs → splitCause s d o = some 0)
    ∧ (o.okLowUs ≤ 1000 → o.sideUs ≤ 1000 → (s.ebrum d).lost = none → splitCause s d o = none)
    ∧ (∀ since, o.okLowUs ≤ 1000 → o.sideUs ≤ 1000 → (s.ebrum d).lost = some since →
      (splitCause s d o = some 1 ↔ since + max 1 (s.rdF (EBRUM_CFG d) EBRUM_CFG_MAIN_HOLD_MS) * 1000000 ≤ s.now d)) := by
  have hlow : o.okLowUs ≤ 1000 → o.sideUs ≤ 1000 → splitCause s d o =
      if (s.ebrum d).lost.any (fun t => decide (t + max 1 (s.rdF (EBRUM_CFG d) EBRUM_CFG_MAIN_HOLD_MS) * 1000000 ≤ s.now d)) ∧ o.sideUs ≤ 1000 then some 1 else none := fun h1 h2 => by
    unfold splitCause
    dsimp only
    rw [if_neg (by omega), if_neg (by omega)]
  refine ⟨fun h => ?_, fun h1 h2 h3 => ?_, fun h1 h2 hl => ?_, fun since h1 h2 hl => ?_⟩
  · unfold splitCause
    exact if_pos h
  · unfold splitCause
    dsimp only
    rw [if_neg (by omega), if_pos ⟨h2, h3, h1⟩]
  · rw [hlow h1 h2, hl]
    exact if_neg fun hc => Bool.false_ne_true hc.1
  · rw [hlow h1 h2, hl, Option.any_some]
    by_cases hs : since + max 1 (s.rdF (EBRUM_CFG d) EBRUM_CFG_MAIN_HOLD_MS) * 1000000 ≤ s.now d
    · rw [if_pos ⟨decide_eq_true hs, h2⟩]
      exact ⟨fun _ => hs, fun _ => rfl⟩
    · rw [if_neg fun hc => hs (of_decide_eq_true hc.1)]
      exact ⟨fun hc => (Option.some_ne_none _ hc.symm).elim, fun hc => absurd hc hs⟩

/-! ## A split (R450, R451) -/

/-- The die shows its split, before its work across the link is dropped. -/
def splitShown (d : Die) (c : Nat) (s : State) : State :=
  { s with split := true }
    |> wrF (EBRUM_STATUS d) EBRUM_STATUS_STATE 2 |> wrF (EBRUM_STATUS d) EBRUM_STATUS_CAUSE c |> satF (EBRUM_COUNTS1 d) EBRUM_COUNTS1_SPLITS 1 |> rinlarCount d 40 1
    |> setEbrum d { s.ebrum d with lost := none, splitDue := none }

theorem splitShown_rule (d : Die) {c : Nat} (hc : c < 3) (s : State) :
    splitShown d c s = { s with split := true, regs := (splitShown d c s).regs, rinlar := (splitShown d c s).rinlar, ebrums := (splitShown d c s).ebrums }
    ∧ (splitShown d c s).rdF (EBRUM_STATUS d) EBRUM_STATUS_STATE = 2 ∧ (splitShown d c s).rdF (EBRUM_STATUS d) EBRUM_STATUS_CAUSE = c
    ∧ (splitShown d c s).rdF (EBRUM_COUNTS1 d) EBRUM_COUNTS1_SPLITS = min (2 ^ EBRUM_COUNTS1_SPLITS.len - 1) (s.rdF (EBRUM_COUNTS1 d) EBRUM_COUNTS1_SPLITS + 1)
    ∧ (splitShown d c s).ebrum d = { s.ebrum d with lost := none, splitDue := none } ∧ ∀ a, a ≠ EBRUM_STATUS d → a ≠ EBRUM_COUNTS1 d → (splitShown d c s).rd a = s.rd a := by
  obtain ⟨v, hv⟩ : ∃ v : State, v = { s with split := true } := ⟨_, rfl⟩
  have hvr : ∀ a, v.rd a = s.rd a := fun a => by
    rw [hv]
    exact rd_congr rfl rfl a
  obtain ⟨x, hx⟩ : ∃ x, x = satF (EBRUM_COUNTS1 d) EBRUM_COUNTS1_SPLITS 1 (wrF (EBRUM_STATUS d) EBRUM_STATUS_CAUSE c (wrF (EBRUM_STATUS d) EBRUM_STATUS_STATE 2 v)) := ⟨_, rfl⟩
  have hgo : splitShown d c s = setEbrum d { s.ebrum d with lost := none, splitDue := none } (rinlarCount d 40 1 x) := by
    rw [hx, hv]
    rfl
  have hne := (ebrumCounts1_ne_status d d).symm
  have hrd : ∀ a, (splitShown d c s).rd a = x.rd a := fun a => by
    rw [hgo]
    exact (rd_setEbrum _ _ _ _).trans (rd_setRin _ _ _ _)
  have hend : Only (fun u => { u with split := true, regs := [], rinlar := [], ebrums := [] }) s (splitShown d c s) := by
    have h0 : Only (fun u => { u with split := true, regs := [], rinlar := [], ebrums := [] }) s v := by
      rw [hv]
      exact Eq.refl _
    rw [hgo, hx]
    exact ((((h0.wrF _ _ _).wrF _ _ _).satF _ _ _).setRin _ _).setEbrum _ _
  have hsplit : (splitShown d c s).split = true := rfl
  refine ⟨?_, ?_, ?_, ?_, ?_, fun a h1 h2 => ?_⟩
  · have h := congrArg (fun u => { u with split := (splitShown d c s).split, regs := (splitShown d c s).regs, rinlar := (splitShown d c s).rinlar, ebrums := (splitShown d c s).ebrums }) hend
    rw [hsplit] at h
    exact h
  · rw [rdF_of_rd (hrd _), hx, rdF_satF_ne hne, rdF_wrF_other _ _ _ _ _ (by decide) (by decide)]
    exact rdF_wrF_of_lt (by decide) (by decide)
  · rw [rdF_of_rd (hrd _), hx, rdF_satF_ne hne]
    exact rdF_wrF_of_lt (by decide) (Nat.lt_of_lt_of_le hc (by decide))
  · rw [rdF_of_rd (hrd _), hx, rdF_satF_same _ _ _ _ (by decide), rdF_wrF_ne hne.symm, rdF_wrF_ne hne.symm, rdF_of_rd (hvr _)]
  · rw [hgo]
    exact ebrum_setEbrum_same _ _ _
  · rw [hrd, hx, rd_satF_ne h2, rd_wrF_ne h1, rd_wrF_ne h1, hvr]

theorem declareSplit_eq {d : Die} {c n : Nat} {s t : State} (h : dropAcross (splitShown d c s) = (n, t)) : declareSplit d c s =
    postEbrum d 0x0B02 (c + min 0xFFFFFFFF n * 2 ^ 32) true (cancelGone d ((epFuns d).foldl (fun t f => wrB (FUNC_STATUS f) FUNC_STATUS_PEER_LOST true t) t)) := by
  unfold splitShown at h
  unfold declareSplit
  dsimp only
  rw [h]

theorem splitNow_rule (d : Die) (c : Nat) (s : State) (hc : c < 3) :
    (s.rdF (POWER_STATUS d) POWER_STATUS_STATE = 0 →
      ∃ u, (u = { s with split := true, regs := u.regs, rinlar := u.rinlar, ebrums := u.ebrums } ∧ u.rdF (EBRUM_STATUS d) EBRUM_STATUS_STATE = 2 ∧ u.rdF (EBRUM_STATUS d) EBRUM_STATUS_CAUSE = c
          ∧ u.rdF (EBRUM_COUNTS1 d) EBRUM_COUNTS1_SPLITS = min (2 ^ EBRUM_COUNTS1_SPLITS.len - 1) (s.rdF (EBRUM_COUNTS1 d) EBRUM_COUNTS1_SPLITS + 1)
          ∧ u.ebrum d = { s.ebrum d with lost := none, splitDue := none } ∧ ∀ a, a ≠ EBRUM_STATUS d → a ≠ EBRUM_COUNTS1 d → u.rd a = s.rd a)
        ∧ splitNow d c s = postEbrum d 0x0B02 (c + min 0xFFFFFFFF (dropAcross u).1 * 2 ^ 32) true
            (cancelGone d ((epFuns d).foldl (fun t f => wrB (FUNC_STATUS f) FUNC_STATUS_PEER_LOST true t) (dropAcross u).2)))
    ∧ (s.rdF (POWER_STATUS d) POWER_STATUS_STATE ≠ 0 → (s.ebrum d).splitDue = none → splitNow d c s = setEbrum d { s.ebrum d with splitDue := some c } s) := by
  refine ⟨fun hp => ⟨splitShown d c s, splitShown_rule d hc s, (if_pos hp).trans (declareSplit_eq Prod.mk.eta.symm)⟩, fun hp hdue => ?_⟩
  unfold splitNow
  rw [if_neg hp, hdue]
  exact if_neg Bool.false_ne_true

end Sys2Proof.Machine
end

section
/-! A retrain of bundles ends (O57; R452). -/
namespace Sys2Proof.Machine

/-! ## A bundle's test and training end -/

/-- The test of a bundle is done and its spares are free, as a die sees it. -/
def testShown (n : Nat) (t : State) (e : Die) : State :=
  t |> wrF (LT_STATUS e (9 + n)) LT_STATUS_STATE 3 |> wrF (LT_STATUS e (9 + n)) LT_STATUS_CAUSE 0
    |> wrF (EBRUM_BUNDLE e n) EBRUM_BUNDLE_SPARES_AB 0 |> wrF (EBRUM_BUNDLE e n) EBRUM_BUNDLE_SPARES_BA 0

/-- A bundle that was retrained is UP where it passed, else DOWN. -/
def bundleTested (passed : Nat) (t : State) (n : Nat) : State := setBundle n (if nbit passed n then 0 else 2) (testShown n (testShown n t .a) .b)

/-- What a retrained bundle shows. -/
def Tested (passed n : Nat) (t : State) : Prop :=
  bundleState t n = (if nbit passed n then 0 else 2)
    ∧ ∀ e, ltState t e (9 + n) = 3 ∧ t.rdF (EBRUM_BUNDLE e n) EBRUM_BUNDLE_SPARES_AB = 0 ∧ t.rdF (EBRUM_BUNDLE e n) EBRUM_BUNDLE_SPARES_BA = 0

/-- The registers of a bundle and of its test are as they were. -/
def BundleKept (n : Nat) (s t : State) : Prop := ∀ e, t.rd (EBRUM_BUNDLE e n) = s.rd (EBRUM_BUNDLE e n) ∧ t.rd (LT_STATUS e (9 + n)) = s.rd (LT_STATUS e (9 + n))

theorem Tested.kept {passed n : Nat} {s t : State} (h : Tested passed n s) (hk : BundleKept n s t) : Tested passed n t := by
  obtain ⟨h1, h2⟩ := h
  refine ⟨(bundleState_of_rd (hk .a).1).trans h1, fun e => ?_⟩
  obtain ⟨k1, k2⟩ := hk e
  obtain ⟨e1, e2, e3⟩ := h2 e
  exact ⟨(rdF_of_rd k2 _).trans e1, (rdF_of_rd k1 _).trans e2, (rdF_of_rd k1 _).trans e3⟩

theorem ltStatus_ne {d e : Die} {n m : Nat} (hn : n < 4) (hm : m < 4) (h : ¬(d = e ∧ n = m)) : LT_STATUS d (9 + n) ≠ LT_STATUS e (9 + m) := by
  unfold LT_STATUS dieSpace
  cases d <;> cases e <;> simp only [Die.idx, reduceCtorEq, true_and, false_and, not_false_eq_true] at h ⊢ <;> omega

theorem ltStatus_ne_bundle (d e : Die) {n m : Nat} (hn : n < 4) (hm : m < 4) : LT_STATUS d (9 + n) ≠ EBRUM_BUNDLE e m := by
  unfold LT_STATUS EBRUM_BUNDLE dieSpace
  cases d <;> cases e <;> simp only [Die.idx] <;> omega

theorem ltStatus_ne_status (d e : Die) {n : Nat} (hn : n < 4) : LT_STATUS d (9 + n) ≠ EBRUM_STATUS e := by
  unfold LT_STATUS EBRUM_STATUS dieSpace
  cases d <;> cases e <;> simp only [Die.idx] <;> omega

theorem testShown_touches (n : Nat) (t : State) (e : Die) : Touches [LT_STATUS e (9 + n), EBRUM_BUNDLE e n] t (testShown n t e) :=
  (((Touches.rfl.wrF _ _).wrF _ _).wrF _ _).wrF _ _

theorem testShown_rule {n : Nat} (hn : n < 4) (t : State) (e : Die) : ltState (testShown n t e) e (9 + n) = 3 ∧ (testShown n t e).rdF (EBRUM_BUNDLE e n) EBRUM_BUNDLE_SPARES_AB = 0
    ∧ (testShown n t e).rdF (EBRUM_BUNDLE e n) EBRUM_BUNDLE_SPARES_BA = 0 := by
  have hne := ltStatus_ne_bundle e e hn hn
  refine ⟨?_, ?_, rdF_wrF_of_lt (by decide) (by decide)⟩
  · rw [ltState, testShown, rdF_wrF_ne hne, rdF_wrF_ne hne, rdF_wrF_other _ _ _ _ _ (by decide) (by decide)]
    exact rdF_wrF_of_lt (by decide) (by decide)
  · rw [testShown, rdF_wrF_other _ _ _ _ _ (by decide) (by decide)]
    exact rdF_wrF_of_lt (by decide) (by decide)

/-- Registers that retraining a bundle may write. -/
def testRegs (n : Nat) : List Nat := [LT_STATUS .a (9 + n), EBRUM_BUNDLE .a n, LT_STATUS .b (9 + n), EBRUM_BUNDLE .b n]

theorem testsShown_touches (n : Nat) (s : State) : Touches (testRegs n) s (testShown n (testShown n s .a) .b) := by
  obtain ⟨a1, a2⟩ := testShown_touches n s .a
  obtain ⟨b1, b2⟩ := testShown_touches n (testShown n s .a) .b
  refine ⟨a1.trans b1, fun a ha => (b2 a fun hm => ha ?_).trans (a2 a fun hm => ha ?_)⟩
  · exact List.mem_cons_of_mem _ (List.mem_cons_of_mem _ hm)
  · exact List.mem_append_left [LT_STATUS .b (9 + n), EBRUM_BUNDLE .b n] hm

theorem testsShown_rule {n : Nat} (hn : n < 4) (s : State) (e : Die) : ltState (testShown n (testShown n s .a) .b) e (9 + n) = 3
    ∧ (testShown n (testShown n s .a) .b).rdF (EBRUM_BUNDLE e n) EBRUM_BUNDLE_SPARES_AB = 0 ∧ (testShown n (testShown n s .a) .b).rdF (EBRUM_BUNDLE e n) EBRUM_BUNDLE_SPARES_BA = 0 := by
  cases e with
  | b => exact testShown_rule hn _ _
  | a =>
    obtain ⟨-, b2⟩ := testShown_touches n (testShown n s .a) .b
    obtain ⟨h1, h2, h3⟩ := testShown_rule hn s .a
    have hlt := b2 (LT_STATUS .a (9 + n)) (by
      simp only [List.mem_cons, List.not_mem_nil, or_false, not_or]
      exact ⟨ltStatus_ne hn hn (fun hc => Die.noConfusion hc.1), ltStatus_ne_bundle _ _ hn hn⟩)
    have hbu := b2 (EBRUM_BUNDLE .a n) (by
      simp only [List.mem_cons, List.not_mem_nil, or_false, not_or]
      exact ⟨(ltStatus_ne_bundle _ _ hn hn).symm, bundle_ne hn hn (fun hc => Die.noConfusion hc.1)⟩)
    exact ⟨(rdF_of_rd hlt _).trans h1, (rdF_of_rd hbu _).trans h2, (rdF_of_rd hbu _).trans h3⟩

/-- What a change of a bundle's state leaves of the status: every field but BUNDLES_UP. -/
theorem setBundle_status {n : Nat} (hn : n < 4) (k : Nat) (s : State) (e : Die) : (setBundle n k s).rdF (EBRUM_STATUS e) EBRUM_STATUS_STATE = s.rdF (EBRUM_STATUS e) EBRUM_STATUS_STATE := by
  have hsame : ∀ t d, (bundleSeen n k t d).rdF (EBRUM_STATUS d) EBRUM_STATUS_STATE = t.rdF (EBRUM_STATUS d) EBRUM_STATUS_STATE := fun t d => by
    rw [bundleSeen, rdF_wrF_other _ _ _ _ _ (by decide) (by decide), rdF_wrF_ne (bundle_ne_status _ _ hn).symm]
  have hne : ∀ t d, e ≠ d → (bundleSeen n k t d).rdF (EBRUM_STATUS e) EBRUM_STATUS_STATE = t.rdF (EBRUM_STATUS e) EBRUM_STATUS_STATE := fun t d h => by
    rw [bundleSeen, rdF_wrF_ne (ebrumStatus_ne h), rdF_wrF_ne (bundle_ne_status _ _ hn).symm]
  rw [rdF_of_rd (setBundle_rd _ _ _ _), bundlesSeen]
  cases e with
  | a => rw [hne _ _ (fun hc => Die.noConfusion hc), hsame]
  | b => rw [hsame, hne _ _ (fun hc => Die.noConfusion hc)]

theorem setBundle_ebrum {n : Nat} (hn : n < 4) (k : Nat) (s : State) (e : Die) : (setBundle n k s).ebrum e = { s.ebrum e with sets := ((setBundle n k s).ebrum e).sets } := by
  by_cases h : liveBundles (setBundle n k s) = liveBundles s
  · have he : (setBundle n k s).ebrum e = s.ebrum e := congrArg (tget Ebrum.empty e.idx) (setBundle_sameSet hn h)
    rw [he]
  · rw [setBundle_newSet hn h]

/-! ## Several bundles -/

/-- What retraining bundles leaves of the rest. -/
def RetrainKept (s t : State) : Prop :=
  Only (fun u => { u with regs := [], ebrums := [] }) s t ∧ (∀ e, t.ebrum e = { s.ebrum e with sets := (t.ebrum e).sets })
    ∧ (∀ e, t.rdF (EBRUM_STATUS e) EBRUM_STATUS_STATE = s.rdF (EBRUM_STATUS e) EBRUM_STATUS_STATE) ∧ ∀ e, t.rd (EBRUM_CFG e) = s.rd (EBRUM_CFG e)

theorem RetrainKept.refl (s : State) : RetrainKept s s := ⟨.rfl, fun _ => rfl, fun _ => rfl, fun _ => rfl⟩
theorem RetrainKept.trans {s t u : State} (h : RetrainKept s t) (h' : RetrainKept t u) : RetrainKept s u := by
  obtain ⟨h1, h2, h3, h4⟩ := h
  obtain ⟨k1, k2, k3, k4⟩ := h'
  exact ⟨h1.trans k1, fun e => by rw [k2 e, h2 e], fun e => (k3 e).trans (h3 e), fun e => (k4 e).trans (h4 e)⟩

theorem ebrumCfg_apart (d e : Die) {n : Nat} (hn : n < 4) : EBRUM_CFG d ≠ EBRUM_BUNDLE e n ∧ EBRUM_CFG d ≠ EBRUM_STATUS e ∧ EBRUM_CFG d ≠ LT_STATUS e (9 + n) := by
  unfold EBRUM_CFG EBRUM_BUNDLE EBRUM_STATUS LT_STATUS dieSpace
  cases d <;> cases e <;> simp only [Die.idx] <;> omega

theorem notMem_testRegs {a n : Nat} (h : ∀ e, a ≠ LT_STATUS e (9 + n) ∧ a ≠ EBRUM_BUNDLE e n) : a ∉ testRegs n := by
  simp only [testRegs, List.mem_cons, List.not_mem_nil, or_false, not_or]
  exact ⟨(h .a).1, (h .a).2, (h .b).1, (h .b).2⟩

theorem bundleTested_rule (passed : Nat) {n : Nat} (hn : n < 4) (s : State) : RetrainKept s (bundleTested passed s n) ∧ Tested passed n (bundleTested passed s n)
    ∧ ∀ m, m < 4 → m ≠ n → BundleKept m s (bundleTested passed s n) := by
  obtain ⟨a1, a2⟩ := testsShown_touches n s
  have hshown := testsShown_rule hn s
  obtain ⟨v, hv⟩ : ∃ v, v = testShown n (testShown n s .a) .b := ⟨_, rfl⟩
  rw [← hv] at a1 a2 hshown
  rw [bundleTested, ← hv]
  obtain ⟨b1, b2⟩ := setBundle_rule hn (if nbit passed n then 0 else 2) v
  have heb : ∀ e, v.ebrum e = s.ebrum e := fun e => congrArg (tget Ebrum.empty e.idx) (congrArg State.ebrums a1.eq :)
  refine ⟨⟨(Only.of_regsOnly a1).trans (setBundle_only hn _ _), fun e => by rw [setBundle_ebrum hn, heb], fun e => ?_, fun e => ?_⟩, ⟨?_, fun e => ?_⟩, fun m hm hne e => ⟨?_, ?_⟩⟩
  · rw [setBundle_status hn, rdF_of_rd (a2 _ (notMem_testRegs fun e' => ⟨(ltStatus_ne_status _ _ hn).symm, (bundle_ne_status _ _ hn).symm⟩))]
  · rw [b2 _ fun e' => ⟨(ebrumCfg_apart e e' hn).1, (ebrumCfg_apart e e' hn).2.1⟩, a2 _ (notMem_testRegs fun e' => ⟨(ebrumCfg_apart e e' hn).2.2, (ebrumCfg_apart e e' hn).1⟩)]
  · obtain ⟨k, -, -⟩ := b1 .a
    rw [bundleState, k]
    split <;> rfl
  · obtain ⟨k1, k2, k3⟩ := hshown e
    obtain ⟨-, -, hf⟩ := b1 e
    exact ⟨(rdF_of_rd (b2 _ fun e' => ⟨ltStatus_ne_bundle _ _ hn hn, ltStatus_ne_status _ _ hn⟩) _).trans k1, (hf _ (by decide)).trans k2, (hf _ (by decide)).trans k3⟩
  · rw [b2 _ fun e' => ⟨bundle_ne hm hn fun hc => hne hc.2, bundle_ne_status _ _ hm⟩,
      a2 _ (notMem_testRegs fun e' => ⟨(ltStatus_ne_bundle _ _ hn hm).symm, bundle_ne hm hn fun hc => hne hc.2⟩)]
  · rw [b2 _ fun e' => ⟨ltStatus_ne_bundle _ _ hm hn, ltStatus_ne_status _ _ hm⟩,
      a2 _ (notMem_testRegs fun e' => ⟨ltStatus_ne hm hn fun hc => hne hc.2, ltStatus_ne_bundle _ _ hm hn⟩)]

theorem foldl_bundleTested (passed : Nat) {ns : List Nat} (hns : ∀ n ∈ ns, n < 4) (s : State) : RetrainKept s (ns.foldl (bundleTested passed) s)
    ∧ (∀ n, n < 4 → n ∈ ns ∨ Tested passed n s → Tested passed n (ns.foldl (bundleTested passed) s)) ∧ ∀ n, n < 4 → n ∉ ns → BundleKept n s (ns.foldl (bundleTested passed) s) := by
  induction ns generalizing s with
  | nil => exact ⟨.refl s, fun n _ h => h.elim (fun h => by cases h) id, fun n _ _ e => ⟨rfl, rfl⟩⟩
  | cons x xs ih =>
    obtain ⟨s1, s2, s3⟩ := bundleTested_rule passed (hns x List.mem_cons_self) s
    obtain ⟨i1, i2, i3⟩ := ih (fun n hn => hns n (List.mem_cons_of_mem _ hn)) (bundleTested passed s x)
    refine ⟨s1.trans i1, fun n hn h => i2 n hn ?_, fun n hn h e => ?_⟩
    · by_cases hx : n = x
      · rw [hx]
        exact .inr s2
      · exact h.imp (fun h => (List.mem_cons.1 h).resolve_left hx) fun h => h.kept (s3 n hn hx)
    · obtain ⟨h1, h2⟩ := not_or.1 fun hc => h (List.mem_cons.2 hc)
      obtain ⟨k1, k2⟩ := s3 n hn h1 e
      obtain ⟨j1, j2⟩ := i3 n hn h2 e
      exact ⟨j1.trans k1, j2.trans k2⟩

/-! ## The end of a retrain (R452) -/

/-- The bundles that a mask names. -/
def namedBundles (m : Nat) : List Nat := (upto 4).filter (nbit m)

theorem mem_namedBundles {m n : Nat} : n ∈ namedBundles m ↔ n < 4 ∧ nbit m n = true := List.mem_filter.trans (and_congr_left fun _ => List.mem_range)

/-- The mask of those that passed. -/
def passedMask (passed m : Nat) : Nat := ((namedBundles m).map (fun n => if nbit passed n then 2 ^ n else 0)).sum

/-- The retrain is over, and its bundles show it. -/
def retrainShown (d : Die) (passed m : Nat) (s : State) : State :=
  setEbrum d { ((namedBundles m).foldl (bundleTested passed) s).ebrum d with retrain := none } ((namedBundles m).foldl (bundleTested passed) s)

/-- In a split, enough bundles make the link TESTED, as a die sees it. -/
def linkTested (passed m : Nat) (t : State) (e : Die) : State :=
  wrF (EBRUM_STATUS e) EBRUM_STATUS_STATE (if t.rdF (EBRUM_CFG e) EBRUM_CFG_MIN_BUNDLES ≤ (namedBundles m).countP (fun n => nbit passed n) then 4 else 2) t

theorem retrainDone_eq {d : Die} {k : Ticket} {m : Nat} {s : State} (h : (s.ebrum d).retrain = some (k, m)) (passed lanes : Nat) : retrainDone d passed lanes s =
    bothDies.foldl (fun u e => postEbrum e 0x0B04 (m + passedMask passed m * 2 ^ 8 + min 0xFFFF lanes * 2 ^ 16) false u) (finish k stOk (m * 16 + passedMask passed m)
      (if (retrainShown d passed m s).split then linkTested passed m (linkTested passed m (retrainShown d passed m s) .a) .b
       else if passedMask passed m = 0 then retrainShown d passed m s else linkBack (retrainShown d passed m s))) := by
  unfold retrainDone
  rw [h]
  rfl

theorem retrainDone_none {d : Die} {s : State} (h : (s.ebrum d).retrain = none) (passed lanes : Nat) : retrainDone d passed lanes s = s := by rw [retrainDone, h]

theorem retrainShown_rule (d : Die) (passed m : Nat) (s : State) : Only (fun u => { u with regs := [], ebrums := [] }) s (retrainShown d passed m s)
    ∧ (retrainShown d passed m s).ebrum d = { s.ebrum d with retrain := none, sets := ((retrainShown d passed m s).ebrum d).sets }
    ∧ (∀ n, n < 4 → nbit m n = true → Tested passed n (retrainShown d passed m s)) ∧ (∀ n, n < 4 → nbit m n = false → bundleState (retrainShown d passed m s) n = bundleState s n)
    ∧ (∀ e, (retrainShown d passed m s).rdF (EBRUM_STATUS e) EBRUM_STATUS_STATE = s.rdF (EBRUM_STATUS e) EBRUM_STATUS_STATE)
    ∧ ∀ e, (retrainShown d passed m s).rd (EBRUM_CFG e) = s.rd (EBRUM_CFG e) := by
  obtain ⟨⟨f1, f2, f3, f4⟩, g1, g2⟩ := foldl_bundleTested passed (fun n hn => (mem_namedBundles.1 hn).1) s
  obtain ⟨v, hv⟩ : ∃ v, v = (namedBundles m).foldl (bundleTested passed) s := ⟨_, rfl⟩
  rw [retrainShown, ← hv]
  rw [← hv] at f1 f2 f3 f4 g1 g2
  have hrd : ∀ a, (setEbrum d { v.ebrum d with retrain := none } v).rd a = v.rd a := rd_setEbrum _ _ _
  refine ⟨f1.setEbrum _ _, ?_, fun n hn hm => (g1 n hn (.inl (mem_namedBundles.2 ⟨hn, hm⟩))).kept fun e => ⟨hrd _, hrd _⟩, fun n hn hm => ?_, fun e => (rdF_of_rd (hrd _) _).trans (f3 e), fun e => (hrd _).trans (f4 e)⟩
  · rw [ebrum_setEbrum_same, f2 d]
  · exact bundleState_of_rd ((hrd _).trans (g2 n hn (fun hc => Bool.false_ne_true (hm.symm.trans (mem_namedBundles.1 hc).2)) .a).1)

theorem ebrumCfg_ne_status (d e : Die) : EBRUM_CFG d ≠ EBRUM_STATUS e := (ebrumCfg_apart d e (n := 0) (by decide)).2.1

theorem countP_named (passed m : Nat) : (namedBundles m).countP (fun n => nbit passed n) = (upto 4).countP (fun n => nbit m n && nbit passed n) := by
  rw [namedBundles, List.countP_filter]
  exact List.countP_congr fun n _ => by rw [Bool.and_comm]

theorem linksTested_rule (passed m : Nat) (s : State) : RegsOnly s (linkTested passed m (linkTested passed m s .a) .b)
    ∧ (∀ e, (linkTested passed m (linkTested passed m s .a) .b).rdF (EBRUM_STATUS e) EBRUM_STATUS_STATE
      = (if s.rdF (EBRUM_CFG e) EBRUM_CFG_MIN_BUNDLES ≤ (upto 4).countP (fun n => nbit m n && nbit passed n) then 4 else 2))
    ∧ ∀ a, (∀ e, a ≠ EBRUM_STATUS e) → (linkTested passed m (linkTested passed m s .a) .b).rd a = s.rd a := by
  have hself : ∀ t e, (linkTested passed m t e).rdF (EBRUM_STATUS e) EBRUM_STATUS_STATE
      = (if t.rdF (EBRUM_CFG e) EBRUM_CFG_MIN_BUNDLES ≤ (upto 4).countP (fun n => nbit m n && nbit passed n) then 4 else 2) := fun t e => by
    rw [linkTested, countP_named]
    refine rdF_wrF_of_lt (by decide) ?_
    split <;> decide
  refine ⟨(regsOnly_wr _ _ _).trans (regsOnly_wr _ _ _), fun e => ?_, fun a ha => (rd_wrF_ne (ha .b) _ _ _).trans (rd_wrF_ne (ha .a) _ _ _)⟩
  cases e with
  | a => exact (rdF_wrF_ne (ebrumStatus_ne fun hc => Die.noConfusion hc) _ _ _ _).trans (hself s .a)
  | b =>
    rw [hself]
    exact if_congr (by rw [linkTested, rdF_wrF_ne (ebrumCfg_ne_status _ _)]) rfl rfl

theorem linkRetrainDone_rule (d : Die) (passed lanes : Nat) (s : State) :
    ((s.ebrum d).retrain = none → exec (.linkRetrainDone d passed lanes) s = .next (fresh s))
    ∧ (∀ k m, (s.ebrum d).retrain = some (k, m) → ∀ good, good = (((upto 4).filter (nbit m)).map (fun n => if nbit passed n then 2 ^ n else 0)).sum →
      ∃ u, (u = { s with regs := u.regs, ebrums := u.ebrums, out := [] } ∧ u.ebrum d = { s.ebrum d with retrain := none, sets := (u.ebrum d).sets }
          ∧ (∀ n, n < 4 → bundleState u n = (if nbit m n then (if nbit passed n then 0 else 2) else bundleState s n))
          ∧ (∀ n, n < 4 → nbit m n = true → ∀ e, ltState u e (9 + n) = 3 ∧ u.rdF (EBRUM_BUNDLE e n) EBRUM_BUNDLE_SPARES_AB = 0 ∧ u.rdF (EBRUM_BUNDLE e n) EBRUM_BUNDLE_SPARES_BA = 0)
          ∧ (s.split = true → ∀ e, u.rdF (EBRUM_STATUS e) EBRUM_STATUS_STATE = (if s.rdF (EBRUM_CFG e) EBRUM_CFG_MIN_BUNDLES ≤ (upto 4).countP (fun n => nbit m n && nbit passed n) then 4 else 2))
          ∧ (s.split = false → ∀ e, u.rdF (EBRUM_STATUS e) EBRUM_STATUS_STATE = s.rdF (EBRUM_STATUS e) EBRUM_STATUS_STATE))
        ∧ exec (.linkRetrainDone d passed lanes) s = .next (ran (fun _ => bothDies.foldl (fun v e => postEbrum e 0x0B04 (m + good * 2 ^ 8 + min 0xFFFF lanes * 2 ^ 16) false v)
            (finish k stOk (m * 16 + good) (if s.split = false ∧ good ≠ 0 then linkBack u else u))) s)) := by
  refine ⟨fun h => congrArg Host.Outcome.next (ran_same (retrainDone_none (s := fresh s) h passed lanes)), fun k m h good hgood => ?_⟩
  have hg : good = passedMask passed m := hgood
  subst hg
  have hgo := retrainDone_eq (s := fresh s) h passed lanes
  obtain ⟨r1, r2, r3, r4, r5, r6⟩ := retrainShown_rule d passed m (fresh s)
  obtain ⟨x, hx⟩ : ∃ x, x = retrainShown d passed m (fresh s) := ⟨_, rfl⟩
  rw [← hx] at hgo r1 r2 r3 r4 r5 r6
  have hsplit : x.split = s.split := (congrArg State.split r1 :)
  rw [hsplit] at hgo
  have hbundle : ∀ n, n < 4 → bundleState x n = (if nbit m n then (if nbit passed n then 0 else 2) else bundleState s n) := fun n hn => by
    rcases Bool.eq_false_or_eq_true (nbit m n) with hm | hm
    · rw [if_pos hm]
      exact (r3 n hn hm).1
    · rw [if_neg (by rw [hm]; exact Bool.false_ne_true)]
      exact (r4 n hn hm).trans (bundleState_fresh s n)
  rcases Bool.eq_false_or_eq_true s.split with hs | hs
  · obtain ⟨t1, t2, t3⟩ := linksTested_rule passed m x
    obtain ⟨u, hu⟩ : ∃ u, u = linkTested passed m (linkTested passed m x .a) .b := ⟨_, rfl⟩
    rw [← hu] at t1 t2 t3
    rw [if_pos hs, ← hu] at hgo
    have heb : u.ebrum d = x.ebrum d := congrArg (tget Ebrum.empty d.idx) (congrArg State.ebrums t1.eq :)
    have hkept : ∀ n, n < 4 → BundleKept n x u := fun n hn e => ⟨t3 _ fun _ => bundle_ne_status _ _ hn, t3 _ fun _ => ltStatus_ne_status _ _ hn⟩
    refine ⟨u, ⟨(r1.trans (Only.of_regsOnly t1)).regsEbrums, by rw [heb]; exact r2, fun n hn => (bundleState_of_rd (hkept n hn .a).1).trans (hbundle n hn),
      fun n hn hm => ((r3 n hn hm).kept (hkept n hn)).2, fun _ e => ?_, fun hc => Bool.noConfusion (hs.symm.trans hc)⟩, ?_⟩
    · rw [t2 e, rdF_of_rd (r6 e), rdF_fresh]
    · rw [if_neg fun hc => Bool.noConfusion (hs.symm.trans hc.1)]
      exact congrArg Host.Outcome.next (ran_congr hgo)
  · rw [if_neg (by rw [hs]; exact Bool.false_ne_true)] at hgo
    refine ⟨x, ⟨r1.regsEbrums, r2, hbundle, fun n hn hm => (r3 n hn hm).2, fun hc => Bool.noConfusion (hs.symm.trans hc), fun _ e => (r5 e).trans (rdF_fresh _ _ _)⟩, ?_⟩
    have hback : (if passedMask passed m = 0 then x else linkBack x) = if s.split = false ∧ passedMask passed m ≠ 0 then linkBack x else x := by
      by_cases h0 : passedMask passed m = 0
      · rw [if_pos h0, if_neg fun hc => hc.2 h0]
      · rw [if_neg h0, if_pos ⟨hs, h0⟩]
    rw [hback] at hgo
    exact congrArg Host.Outcome.next (ran_congr hgo)

end Sys2Proof.Machine
end

section
/-! The rejoin (O57; R453). -/
namespace Sys2Proof.Machine

/-! ## Slewing across the crossing (R38, Table 18.4) -/

theorem carry_up_only {d : Die} {n : Nat} {s : State} (h : s.flag (XING_STATUS d n) XING_STATUS_PEER_RESET = false) {a : Nat} (ha : XING_STATUS d n ≠ a) (v : Word) :
    Only (fun u => { u with regs := [], xings := [] }) s (carry d n a v s) ∧ (carry d n a v s).flag (XING_STATUS d n) XING_STATUS_PEER_RESET = false
    ∧ ((carry d n a v s).xing d n).queue = queueValue a v (s.xing d n).queue := by
  rw [carry_up h]
  refine ⟨((Only.rfl.wr a v).setXing d n _).wrB _ _ _, ?_, ?_⟩
  · rw [flag_wrB_other _ _ _ _ _ (by decide) (by decide)]
    exact (flag_of_rd (s := s) (rd_wr_ne ha v s) _).trans h
  · exact congrArg Xing.queue (xing_setXing_same d n _ (wr a v s))

theorem slewHalves_ne_status (d : Die) : XING_STATUS d 0xC5 ≠ slewLo d ∧ XING_STATUS d 0xC5 ≠ slewHi d := by
  unfold XING_STATUS slewLo slewHi
  omega

theorem slewBy_up {d : Die} {s : State} (h : s.flag (XING_STATUS d 0xC5) XING_STATUS_PEER_RESET = false) (off : Int) :
    Only (fun u => { u with regs := [], xings := [] }) s (slewBy d off s)
    ∧ ((s.xing d 0xC5).queue = [] → ((slewBy d off s).xing d 0xC5).queue = [(slewLo d, BitVec.ofNat 32 (unsgn 64 off)), (slewHi d, BitVec.ofNat 32 (unsgn 64 off / 2 ^ 32))]) := by
  obtain ⟨lo, hi⟩ := slewHalves_ne_status d
  obtain ⟨a1, a2, a3⟩ := carry_up_only h lo (BitVec.ofNat 32 (unsgn 64 off))
  obtain ⟨b1, -, b3⟩ := carry_up_only a2 hi (BitVec.ofNat 32 (unsgn 64 off / 2 ^ 32))
  refine ⟨a1.trans b1, fun hq => b3.trans ?_⟩
  rw [a3, hq]
  rfl

/-! ## The dies begin to rejoin -/

/-- Both dies are rejoining, with an offset still to be removed. -/
def rejoining (off : Int) (v : State) : State :=
  bothDies.foldl (fun t d => t |> wrF (EBRUM_STATUS d) EBRUM_STATUS_STATE 5 |> setEbrum d { t.ebrum d with offset := off }) v

theorem ebrumStatus_apart : EBRUM_STATUS .a ≠ EBRUM_STATUS .b := ebrumStatus_ne fun h => Die.noConfusion h

theorem rejoining_rule (off : Int) (v : State) : Only (fun u => { u with regs := [], ebrums := [] }) v (rejoining off v)
    ∧ (∀ e, (rejoining off v).rdF (EBRUM_STATUS e) EBRUM_STATUS_STATE = 5 ∧ (rejoining off v).ebrum e = { v.ebrum e with offset := off })
    ∧ ∀ a, (∀ e, a ≠ EBRUM_STATUS e) → (rejoining off v).rd a = v.rd a := by
  obtain ⟨x, hx⟩ : ∃ x, x = setEbrum .a { v.ebrum .a with offset := off } (wrF (EBRUM_STATUS .a) EBRUM_STATUS_STATE 5 v) := ⟨_, rfl⟩
  have hgo : rejoining off v = setEbrum .b { x.ebrum .b with offset := off } (wrF (EBRUM_STATUS .b) EBRUM_STATUS_STATE 5 x) := by
    rw [hx]
    rfl
  have hxa : x.ebrum .a = { v.ebrum .a with offset := off } := by rw [hx, ebrum_setEbrum_same]
  have hxb : x.ebrum .b = v.ebrum .b := by
    rw [hx, ebrum_setEbrum_ne fun h => Die.noConfusion h]
    rfl
  have hxrd : ∀ a, x.rd a = (wrF (EBRUM_STATUS .a) EBRUM_STATUS_STATE 5 v).rd a := fun a => by rw [hx, rd_setEbrum]
  have hfirst : Only (fun u => { u with regs := [], ebrums := [] }) v x := by
    rw [hx]
    exact (Only.rfl.wrF _ _ _).setEbrum _ _
  rw [hgo]
  refine ⟨(hfirst.wrF _ _ _).setEbrum _ _, fun e => ?_, fun a ha => ?_⟩
  · cases e with
    | a =>
      refine ⟨?_, ?_⟩
      · rw [rdF_of_rd (rd_setEbrum _ _ _ _), rdF_wrF_ne ebrumStatus_apart, rdF_of_rd (hxrd _)]
        exact rdF_wrF_of_lt (by decide) (by decide)
      · rw [ebrum_setEbrum_ne fun h => Die.noConfusion h]
        exact hxa
    | b =>
      refine ⟨?_, ?_⟩
      · rw [rdF_of_rd (rd_setEbrum _ _ _ _)]
        exact rdF_wrF_of_lt (by decide) (by decide)
      · rw [ebrum_setEbrum_same, hxb]
  · rw [rd_setEbrum, rd_wrF_ne (ha .b), hxrd, rd_wrF_ne (ha .a)]

theorem rejoinBegins_none {s : State} (h : (s.ebrum .a).rejoin = none ∨ (s.ebrum .b).rejoin = none) : rejoinBegins s = s := by
  unfold rejoinBegins
  rcases h with h | h
  · rw [h]
  · cases ha : (s.ebrum .a).rejoin with
    | none => rfl
    | some ta => rw [h]

section
variable {s : State} {ta tb : Ticket} (ha : (s.ebrum .a).rejoin = some ta) (hb : (s.ebrum .b).rejoin = some tb)
include ha hb

theorem rejoinBegins_agree (hv : (s.boot .a).fwVersion = (s.boot .b).fwVersion) :
    rejoinBegins s = rejoining (timeOffset s) (if timeOffset s = 0 then s else slewBy .b (timeOffset s) s) := by
  unfold rejoinBegins
  rw [ha, hb]
  exact if_pos hv

/-- Neither die holds its request any more. -/
def rejoinDropped (s : State) : State :=
  s |> setEbrum .a { s.ebrum .a with rejoin := none } |> setEbrum .b { s.ebrum .b with rejoin := none }
    |> wrB (EBRUM_STATUS .a) EBRUM_STATUS_PEER_REJOIN false |> wrB (EBRUM_STATUS .b) EBRUM_STATUS_PEER_REJOIN false

theorem rejoinBegins_differ (hv : (s.boot .a).fwVersion ≠ (s.boot .b).fwVersion) :
    rejoinBegins s = finish tb stInvalidDesc (invalidDetail 0x08 0) (finish ta stInvalidDesc (invalidDetail 0x08 0) (rejoinDropped s)) := by
  unfold rejoinBegins
  rw [ha, hb]
  exact if_neg hv

end

theorem rejoinDropped_rule (s : State) : Only (fun u => { u with regs := [], ebrums := [] }) s (rejoinDropped s)
    ∧ (∀ e, ((rejoinDropped s).ebrum e).rejoin = none ∧ (rejoinDropped s).flag (EBRUM_STATUS e) EBRUM_STATUS_PEER_REJOIN = false)
    ∧ ∀ a, (∀ e, a ≠ EBRUM_STATUS e) → (rejoinDropped s).rd a = s.rd a := by
  obtain ⟨x, hx⟩ : ∃ x, x = setEbrum .b { s.ebrum .b with rejoin := none } (setEbrum .a { s.ebrum .a with rejoin := none } s) := ⟨_, rfl⟩
  have hgo : rejoinDropped s = wrB (EBRUM_STATUS .b) EBRUM_STATUS_PEER_REJOIN false (wrB (EBRUM_STATUS .a) EBRUM_STATUS_PEER_REJOIN false x) := by
    rw [hx]
    rfl
  have hxa : (x.ebrum .a).rejoin = none := by rw [hx, ebrum_setEbrum_ne fun h => Die.noConfusion h, ebrum_setEbrum_same]
  have hxb : (x.ebrum .b).rejoin = none := by rw [hx, ebrum_setEbrum_same]
  have hxrd : ∀ a, x.rd a = s.rd a := fun a => by rw [hx, rd_setEbrum, rd_setEbrum]
  have hfirst : Only (fun u => { u with regs := [], ebrums := [] }) s x := by
    rw [hx]
    exact (Only.rfl.setEbrum _ _).setEbrum _ _
  rw [hgo]
  refine ⟨(hfirst.wrB _ _ _).wrB _ _ _, fun e => ?_, fun a h => ?_⟩
  · cases e with
    | a => exact ⟨hxa, (flag_wrB_ne ebrumStatus_apart _ _ _ _).trans (flag_wrB_same _ _ _ _ (by decide) (by decide))⟩
    | b => exact ⟨hxb, flag_wrB_same _ _ _ _ (by decide) (by decide)⟩
  · rw [rd_wrB_ne (h .b), rd_wrB_ne (h .a), hxrd]

/-! ## The sideband (R449, R453) -/

/-- The peer's request is noted. -/
def peerNoted (d : Die) (held : Bool) (s : State) : State := wrB (EBRUM_STATUS d) EBRUM_STATUS_PEER_REJOIN held s

theorem peerNoted_rule (d : Die) (held : Bool) (s : State) : RegsOnly (fresh s) (peerNoted d held (fresh s)) ∧ (peerNoted d held (fresh s)).flag (EBRUM_STATUS d) EBRUM_STATUS_PEER_REJOIN = held
    ∧ ∀ a, a ≠ EBRUM_STATUS d → (peerNoted d held (fresh s)).rd a = s.rd a :=
  ⟨regsOnly_wr _ _ _, flag_wrB_same _ _ _ _ (by decide) (by decide), fun a h => (rd_wrB_ne h _ _ _).trans (rd_fresh _ _)⟩

theorem Only.regsEbrumsXings {s t : State} (h : Only (fun u => { u with regs := [], ebrums := [], xings := [] }) (fresh s) t) :
    t = { s with regs := t.regs, ebrums := t.ebrums, xings := t.xings, out := [] } := congrArg (fun u => { u with regs := t.regs, ebrums := t.ebrums, xings := t.xings }) h

theorem xingStatus_ne_ebrum (d e : Die) : XING_STATUS e 0xC5 ≠ EBRUM_STATUS d := by
  unfold XING_STATUS EBRUM_STATUS dieSpace
  cases d <;> cases e <;> simp only [Die.idx] <;> omega

section
variable {d : Die} {s : State} (hr : s.inReset.contains .ebrum = false)
include hr

theorem sideband_heartbeat : sideband d .heartbeat s = wrB (EBRUM_STATUS d) EBRUM_STATUS_SB_UP true s := if_neg (by rw [hr]; exact Bool.false_ne_true)
theorem sideband_rejoin (held : Bool) : sideband d (.rejoin held) s = if held then rejoinBegins (peerNoted d held s) else peerNoted d held s :=
  if_neg (by rw [hr]; exact Bool.false_ne_true)

theorem heartbeat_rule : ∃ t, exec (.ebrumSidebandMsg d .heartbeat) s = .next t ∧ t = { s with regs := t.regs, out := [] } ∧ t.flag (EBRUM_STATUS d) EBRUM_STATUS_SB_UP = true
    ∧ ∀ a, a ≠ EBRUM_STATUS d → t.rd a = s.rd a := by
  have hk : RegsOnly (fresh s) (wrB (EBRUM_STATUS d) EBRUM_STATUS_SB_UP true (fresh s)) := regsOnly_wr _ _ _
  exact ⟨_, congrArg Host.Outcome.next (ran_regsOnly hk (sideband_heartbeat (s := fresh s) hr)), hk.fresh, flag_wrB_same _ _ _ _ (by decide) (by decide),
    fun a h => (rd_wrB_ne h _ _ _).trans (rd_fresh _ _)⟩

theorem rejoinMsg_waits {held : Bool} (h : held = false ∨ (s.ebrum .a).rejoin = none ∨ (s.ebrum .b).rejoin = none) : ∃ t, exec (.ebrumSidebandMsg d (.rejoin held)) s = .next t
    ∧ t = { s with regs := t.regs, out := [] } ∧ t.flag (EBRUM_STATUS d) EBRUM_STATUS_PEER_REJOIN = held ∧ ∀ a, a ≠ EBRUM_STATUS d → t.rd a = s.rd a := by
  obtain ⟨h1, h2, h3⟩ := peerNoted_rule d held s
  have hgo : sideband d (.rejoin held) (fresh s) = peerNoted d held (fresh s) := by
    rw [sideband_rejoin (s := fresh s) hr]
    rcases h with rfl | h
    · rfl
    · rw [rejoinBegins_none (s := peerNoted d held (fresh s)) h, ite_self]
  exact ⟨_, congrArg Host.Outcome.next (ran_regsOnly h1 hgo), h1.fresh, h2, h3⟩

section
variable {ta tb : Ticket} (ha : (s.ebrum .a).rejoin = some ta) (hb : (s.ebrum .b).rejoin = some tb)
include ha hb

theorem rejoinMsg_aligned (hv : (s.boot .a).fwVersion = (s.boot .b).fwVersion) (h0 : timeOffset s = 0) : ∃ t, exec (.ebrumSidebandMsg d (.rejoin true)) s = .next t
    ∧ t = { s with regs := t.regs, ebrums := t.ebrums, out := [] }
    ∧ (∀ e, t.rdF (EBRUM_STATUS e) EBRUM_STATUS_STATE = 5 ∧ t.ebrum e = { s.ebrum e with offset := 0 }) ∧ ∀ a, (∀ e, a ≠ EBRUM_STATUS e) → t.rd a = s.rd a := by
  obtain ⟨p1, -, p3⟩ := peerNoted_rule d true s
  have hgo : sideband d (.rejoin true) (fresh s) = rejoining 0 (peerNoted d true (fresh s)) := by
    have hbegins := rejoinBegins_agree (s := peerNoted d true (fresh s)) ha hb hv
    have hoff : timeOffset (peerNoted d true (fresh s)) = 0 := h0
    rw [hoff, if_pos rfl] at hbegins
    rw [sideband_rejoin (s := fresh s) hr, if_pos rfl, hbegins]
  obtain ⟨r1, r2, r3⟩ := rejoining_rule 0 (peerNoted d true (fresh s))
  have hk := (Only.of_regsOnly (m := fun u => { u with regs := [], ebrums := [] }) p1).trans r1
  exact ⟨_, congrArg Host.Outcome.next (hk.ran hgo), hk.regsEbrums, r2, fun a h => (r3 a h).trans (p3 a (h d))⟩

theorem rejoinMsg_slews (hv : (s.boot .a).fwVersion = (s.boot .b).fwVersion) (h0 : timeOffset s ≠ 0) (hx : s.flag (XING_STATUS .b 0xC5) XING_STATUS_PEER_RESET = false) :
    ∃ t, exec (.ebrumSidebandMsg d (.rejoin true)) s = .next t ∧ t = { s with regs := t.regs, ebrums := t.ebrums, xings := t.xings, out := [] }
    ∧ (∀ e, t.rdF (EBRUM_STATUS e) EBRUM_STATUS_STATE = 5 ∧ t.ebrum e = { s.ebrum e with offset := timeOffset s })
    ∧ ((s.xing .b 0xC5).queue = [] → (t.xing .b 0xC5).queue = [(slewLo .b, BitVec.ofNat 32 (unsgn 64 (timeOffset s))), (slewHi .b, BitVec.ofNat 32 (unsgn 64 (timeOffset s) / 2 ^ 32))]) := by
  obtain ⟨p1, -, p3⟩ := peerNoted_rule d true s
  have hgo : sideband d (.rejoin true) (fresh s) = rejoining (timeOffset s) (slewBy .b (timeOffset s) (peerNoted d true (fresh s))) := by
    have hbegins := rejoinBegins_agree (s := peerNoted d true (fresh s)) ha hb hv
    have hoff : timeOffset (peerNoted d true (fresh s)) = timeOffset s := rfl
    rw [hoff, if_neg h0] at hbegins
    rw [sideband_rejoin (s := fresh s) hr, if_pos rfl, hbegins]
  obtain ⟨w, hw⟩ : ∃ w, w = peerNoted d true (fresh s) := ⟨_, rfl⟩
  rw [← hw] at p1 p3 hgo
  obtain ⟨l1, l2⟩ := slewBy_up (s := w) ((flag_of_rd (p3 _ (xingStatus_ne_ebrum d .b)) _).trans hx) (timeOffset s)
  obtain ⟨v, hv'⟩ : ∃ v, v = slewBy .b (timeOffset s) w := ⟨_, rfl⟩
  rw [← hv'] at l1 l2 hgo
  obtain ⟨r1, r2, -⟩ := rejoining_rule (timeOffset s) v
  have hk : Only (fun u => { u with regs := [], ebrums := [], xings := [] }) (fresh s) (rejoining (timeOffset s) v) := ((Only.of_regsOnly p1).trans l1.mono).trans r1.mono
  have heb : ∀ e, v.ebrum e = s.ebrum e := fun e =>
    (congrArg (fun u : State => u.ebrum e) l1 :).trans (congrArg (fun u : State => u.ebrum e) p1.eq :)
  refine ⟨_, congrArg Host.Outcome.next (hk.ran hgo), hk.regsEbrumsXings, fun e => ⟨(r2 e).1, by rw [(r2 e).2, heb]⟩, fun hq => ?_⟩
  have hxw : (w.xing .b 0xC5).queue = [] := (congrArg (fun u : State => (u.xing .b 0xC5).queue) p1.eq :).trans hq
  exact (congrArg (fun u : State => (u.xing .b 0xC5).queue) r1 :).trans (l2 hxw)

theorem rejoinMsg_differs (hv : (s.boot .a).fwVersion ≠ (s.boot .b).fwVersion) :
    ∃ u, (u = { s with regs := u.regs, ebrums := u.ebrums, out := [] } ∧ (∀ e, (u.ebrum e).rejoin = none ∧ u.flag (EBRUM_STATUS e) EBRUM_STATUS_PEER_REJOIN = false)
        ∧ ∀ a, (∀ e, a ≠ EBRUM_STATUS e) → u.rd a = s.rd a)
      ∧ exec (.ebrumSidebandMsg d (.rejoin true)) s = .next (ran (fun _ => finish tb stInvalidDesc (invalidDetail 0x08 0) (finish ta stInvalidDesc (invalidDetail 0x08 0) u)) s) := by
  obtain ⟨p1, -, p3⟩ := peerNoted_rule d true s
  have hgo : sideband d (.rejoin true) (fresh s) = finish tb stInvalidDesc (invalidDetail 0x08 0) (finish ta stInvalidDesc (invalidDetail 0x08 0) (rejoinDropped (peerNoted d true (fresh s)))) := by
    rw [sideband_rejoin (s := fresh s) hr, if_pos rfl]
    exact rejoinBegins_differ (s := peerNoted d true (fresh s)) ha hb hv
  obtain ⟨r1, r2, r3⟩ := rejoinDropped_rule (peerNoted d true (fresh s))
  have hk := (Only.of_regsOnly (m := fun u => { u with regs := [], ebrums := [] }) p1).trans r1
  exact ⟨_, ⟨hk.regsEbrums, r2, fun a h => (r3 a h).trans (p3 a (h d))⟩, congrArg Host.Outcome.next (ran_congr hgo)⟩

end
end

/-! ## A request that comes too late -/

theorem rejoinTimeout_rule (d : Die) (s : State) : ((s.ebrum d).rejoin = none ∨ s.rdF (EBRUM_STATUS d) EBRUM_STATUS_STATE = 5 → exec (.rejoinTimeout d) s = .next (fresh s))
    ∧ (∀ k, (s.ebrum d).rejoin = some k → s.rdF (EBRUM_STATUS d) EBRUM_STATUS_STATE ≠ 5 →
      exec (.rejoinTimeout d) s = .next (ran (fun u => finish k stTimeout 0 (emit (.sideband d 1 0) (setEbrum d { s.ebrum d with rejoin := none } u))) s)) := by
  have hst := rdF_fresh s (EBRUM_STATUS d) EBRUM_STATUS_STATE
  refine ⟨fun h => ?_, fun k hk h5 => ?_⟩
  · have hgo : rejoinLate d (fresh s) = fresh s := by
      unfold rejoinLate
      cases hk : ((fresh s).ebrum d).rejoin with
      | none => rfl
      | some k => exact if_pos (hst.trans (h.resolve_left fun hn => Option.some_ne_none k (hk.symm.trans hn)))
    exact congrArg Host.Outcome.next (ran_same hgo)
  · have hgo : rejoinLate d (fresh s) = finish k stTimeout 0 (emit (.sideband d 1 0) (setEbrum d { s.ebrum d with rejoin := none } (fresh s))) := by
      unfold rejoinLate
      have hk' : ((fresh s).ebrum d).rejoin = some k := hk
      rw [hk']
      exact if_neg fun hc => h5 (hst.symm.trans hc)
    exact congrArg Host.Outcome.next (ran_congr hgo)

/-! ## The dies have rejoined -/

/-- The registers that show a die joined. -/
def joinRegs (d : Die) : List Nat := EBRUM_STATUS d :: EBRUM_COUNTS1 d :: (epFuns d).map FUNC_STATUS

theorem addrDie_joinRegs {d : Die} {a : Nat} (h : a ∈ joinRegs d) : addrDie a = d := by
  have hdie : addrDie (EBRUM_STATUS d) = d ∧ addrDie (EBRUM_COUNTS1 d) = d := by cases d <;> decide
  rcases List.mem_cons.1 h with rfl | h
  · exact hdie.1
  rcases List.mem_cons.1 h with rfl | h
  · exact hdie.2
  obtain ⟨f, hf, rfl⟩ := List.mem_map.1 h
  have hall : (∀ g ∈ epFuns .a, addrDie (FUNC_STATUS g) = .a) ∧ ∀ g ∈ epFuns .b, addrDie (FUNC_STATUS g) = .b := by decide
  cases d with
  | a => exact hall.1 f hf
  | b => exact hall.2 f hf

theorem notMem_joinRegs {d : Die} {a : Nat} (h : addrDie a ≠ d) : a ∉ joinRegs d := fun hm => h (addrDie_joinRegs hm)

/-- The functions of the die see the peer again. -/
def peersFound (d : Die) (s : State) : State := (epFuns d).foldl (fun u f => wrB (FUNC_STATUS f) FUNC_STATUS_PEER_LOST false u) s

theorem foldl_peerFound (fs : List Fun) (s : State) : Touches (fs.map FUNC_STATUS) s (fs.foldl (fun u f => wrB (FUNC_STATUS f) FUNC_STATUS_PEER_LOST false u) s)
    ∧ ∀ a, a ∈ fs.map FUNC_STATUS ∨ s.flag a FUNC_STATUS_PEER_LOST = false → (fs.foldl (fun u f => wrB (FUNC_STATUS f) FUNC_STATUS_PEER_LOST false u) s).flag a FUNC_STATUS_PEER_LOST = false := by
  refine ⟨Touches.rfl.foldl fun f hf t => Touches.rfl.wrB _ _ (List.mem_map_of_mem hf), ?_⟩
  induction fs generalizing s with
  | nil => exact fun a h => h.resolve_left List.not_mem_nil
  | cons f fs ih =>
    refine fun a h => ih _ a ?_
    have hself := flag_wrB_same (FUNC_STATUS f) FUNC_STATUS_PEER_LOST false s (by decide) (by decide)
    by_cases ha : a = FUNC_STATUS f
    · rw [ha]
      exact .inr hself
    · rw [flag_wrB_ne ha]
      exact h.imp_left fun hm => (List.mem_cons.1 hm).resolve_left ha

/-- The die shows that it has rejoined. -/
def dieJoined (t : State) (d : Die) : State :=
  peersFound d t |> wrF (EBRUM_STATUS d) EBRUM_STATUS_STATE 0 |> wrB (EBRUM_STATUS d) EBRUM_STATUS_PEER_REJOIN false |> satF (EBRUM_COUNTS1 d) EBRUM_COUNTS1_REJOINS 1 |> rinlarCount d 41 1

/-- What a die that has rejoined shows, with its count of rejoins. -/
def Joined (d : Die) (n : Nat) (u : State) : Prop :=
  u.rdF (EBRUM_STATUS d) EBRUM_STATUS_STATE = 0 ∧ u.flag (EBRUM_STATUS d) EBRUM_STATUS_PEER_REJOIN = false ∧ (∀ f ∈ epFuns d, u.flag (FUNC_STATUS f) FUNC_STATUS_PEER_LOST = false)
    ∧ u.rdF (EBRUM_COUNTS1 d) EBRUM_COUNTS1_REJOINS = n

theorem Joined.kept {d : Die} {n : Nat} {s t : State} (h : Joined d n s) (hk : ∀ a, addrDie a = d → t.rd a = s.rd a) : Joined d n t := by
  obtain ⟨h1, h2, h3, h4⟩ := h
  have hk' : ∀ a ∈ joinRegs d, t.rd a = s.rd a := fun a ha => hk a (addrDie_joinRegs ha)
  have hst := hk' (EBRUM_STATUS d) List.mem_cons_self
  exact ⟨(rdF_of_rd hst _).trans h1, (flag_of_rd hst _).trans h2,
    fun f hf => (flag_of_rd (hk' _ (List.mem_cons_of_mem _ (List.mem_cons_of_mem _ (List.mem_map_of_mem hf)))) _).trans (h3 f hf),
    (rdF_of_rd (hk' _ (List.mem_cons_of_mem _ List.mem_cons_self)) _).trans h4⟩

theorem dieJoined_rule (t : State) (d : Die) : Only (fun u => { u with regs := [], rinlar := [] }) t (dieJoined t d)
    ∧ Joined d (min (2 ^ EBRUM_COUNTS1_REJOINS.len - 1) (t.rdF (EBRUM_COUNTS1 d) EBRUM_COUNTS1_REJOINS + 1)) (dieJoined t d) ∧ ∀ a, addrDie a ≠ d → (dieJoined t d).rd a = t.rd a := by
  obtain ⟨⟨f1, f2⟩, f3⟩ := foldl_peerFound (epFuns d) t
  obtain ⟨v, hv⟩ : ∃ v, v = peersFound d t := ⟨_, rfl⟩
  unfold peersFound at hv
  rw [← hv] at f1 f2 f3
  obtain ⟨x, hx⟩ : ∃ x, x = satF (EBRUM_COUNTS1 d) EBRUM_COUNTS1_REJOINS 1 (wrB (EBRUM_STATUS d) EBRUM_STATUS_PEER_REJOIN false (wrF (EBRUM_STATUS d) EBRUM_STATUS_STATE 0 v)) := ⟨_, rfl⟩
  have hgo : dieJoined t d = rinlarCount d 41 1 x := by
    rw [dieJoined, hx, hv]
    rfl
  have hrd : ∀ a, (dieJoined t d).rd a = x.rd a := fun a => by
    rw [hgo]
    exact rd_setRin _ _ _ _
  have hne := ebrumCounts1_ne_status d d
  have hfun : ∀ f ∈ epFuns d, FUNC_STATUS f ≠ EBRUM_STATUS d ∧ FUNC_STATUS f ≠ EBRUM_COUNTS1 d := fun f hf =>
    ⟨(funcStatus_ne (d := d) (x := 0x3E00004) (.inr (by decide)) (by decide) (fn_le_of_mem_epFuns hf)).symm,
      (funcStatus_ne (d := d) (x := 0x3E00024) (.inr (by decide)) (by decide) (fn_le_of_mem_epFuns hf)).symm⟩
  have hcounts : v.rd (EBRUM_COUNTS1 d) = t.rd (EBRUM_COUNTS1 d) := f2 _ fun hm => by
    obtain ⟨f, hf, he⟩ := List.mem_map.1 hm
    exact (hfun f hf).2 he
  refine ⟨?_, ⟨?_, ?_, fun f hf => ?_, ?_⟩, fun a ha => ?_⟩
  · rw [hgo, hx]
    exact (((((Only.of_regsOnly f1).wrF _ _ _).wrB _ _ _).satF _ _ _).setRin _ _)
  · rw [rdF_of_rd (hrd _), hx, rdF_satF_ne hne.symm, rdF_wrB_other _ _ _ _ _ (by decide) (by decide)]
    exact rdF_wrF_of_lt (by decide) (by decide)
  · rw [flag_of_rd (hrd _), hx, flag_of_rd (rd_satF_ne hne.symm _ _ _)]
    exact flag_wrB_same _ _ _ _ (by decide) (by decide)
  · obtain ⟨h1, h2⟩ := hfun f hf
    rw [flag_of_rd (hrd _), hx, flag_of_rd (rd_satF_ne h2 _ _ _), flag_wrB_ne h1, flag_of_rd (rd_wrF_ne h1 _ _ _)]
    exact f3 _ (.inl (List.mem_map_of_mem hf))
  · rw [rdF_of_rd (hrd _), hx, rdF_satF_same _ _ _ _ (by decide), rdF_of_rd (rd_wrB_ne hne _ _ _), rdF_of_rd (rd_wrF_ne hne _ _ _), rdF_of_rd hcounts]
  · have hmem := notMem_joinRegs ha
    obtain ⟨h1, hmem⟩ := not_or.1 fun hc => hmem (List.mem_cons.2 hc)
    obtain ⟨h2, h3⟩ := not_or.1 fun hc => hmem (List.mem_cons.2 hc)
    rw [hrd, hx, rd_satF_ne h2, rd_wrB_ne h1, rd_wrF_ne h1, f2 a h3]

/-- The dies show that they are one again. -/
def joinShown (s : State) : State := dieJoined (dieJoined { s with split := false } .a) .b

theorem joinShown_rule (s : State) : joinShown s = { s with regs := (joinShown s).regs, rinlar := (joinShown s).rinlar, split := false }
    ∧ ∀ d, Joined d (min (2 ^ EBRUM_COUNTS1_REJOINS.len - 1) (s.rdF (EBRUM_COUNTS1 d) EBRUM_COUNTS1_REJOINS + 1)) (joinShown s) := by
  obtain ⟨v, hv⟩ : ∃ v : State, v = { s with split := false } := ⟨_, rfl⟩
  have hvr : ∀ a, v.rd a = s.rd a := fun a => by
    rw [hv]
    exact rd_congr rfl rfl a
  have h0 : Only (fun u => { u with split := false, regs := [], rinlar := [] }) s v := by
    rw [hv]
    exact Eq.refl _
  have hsplit : v.split = false := by rw [hv]
  obtain ⟨a1, a2, a3⟩ := dieJoined_rule v .a
  obtain ⟨b1, b2, b3⟩ := dieJoined_rule (dieJoined v .a) .b
  have hgo : joinShown s = dieJoined (dieJoined v .a) .b := by rw [joinShown, hv]
  rw [hgo]
  obtain ⟨u, hu⟩ : ∃ u, u = dieJoined (dieJoined v .a) .b := ⟨_, rfl⟩
  rw [← hu] at b1 b2 b3 ⊢
  have hend : Only (fun u => { u with split := false, regs := [], rinlar := [] }) s u := (h0.trans a1.mono).trans b1.mono
  have husplit : u.split = false := (congrArg State.split b1 :).trans ((congrArg State.split a1 :).trans hsplit)
  refine ⟨?_, fun d => ?_⟩
  · have h := congrArg (fun w => { w with regs := u.regs, rinlar := u.rinlar, split := u.split }) hend
    rw [husplit] at h
    exact (congrArg (fun b => { u with split := b }) husplit.symm :).symm.trans h
  · cases d with
    | a =>
      rw [← rdF_of_rd (hvr _)]
      exact a2.kept fun a ha => b3 a (by rw [ha]; exact fun h => Die.noConfusion h)
    | b =>
      have hne : addrDie (EBRUM_COUNTS1 .b) ≠ .a := by decide
      rw [rdF_of_rd (a3 _ hne), rdF_of_rd (hvr _)] at b2
      exact b2

/-- A die's request is answered. -/
def rejoinAnswered (s t : State) (d : Die) : State :=
  let t1 := match (s.ebrum d).rejoin with
    | some k => finish k stOk 0 t
    | none => t
  setEbrum d { t1.ebrum d with rejoin := none, splitDue := none } t1

/-- The sound routes across the dies are heard again, and both dies report the rejoin. -/
def rejoinReported (s x : State) : State :=
  bothDies.foldl (fun t d => postEbrum d 0x0B03 (upMask s * 2 ^ 8 + unsgn 32 (s.ebrum .b).offset * 2 ^ 32) true t)
    ((audioRoutes x).foldl (fun t r => if acrossTo .a r.2.grantee then setEnv r.1 true t else t) x)

theorem rejoined_same {s : State} (h : bothDies.any (fun d => s.rdF (EBRUM_STATUS d) EBRUM_STATUS_STATE != 5) = true ∨ timeOffset s ≠ 0) : rejoined s = s := if_pos h

theorem rejoined_eq {s : State} (h : ¬(bothDies.any (fun d => s.rdF (EBRUM_STATUS d) EBRUM_STATUS_STATE != 5) = true ∨ timeOffset s ≠ 0)) :
    rejoined s = rejoinReported s (rejoinAnswered s (rejoinAnswered s (joinShown s) .a) .b) := if_neg h

theorem rejoinAnswered_some {s : State} {d : Die} {k : Ticket} (h : (s.ebrum d).rejoin = some k) (t : State) :
    rejoinAnswered s t d = setEbrum d { (finish k stOk 0 t).ebrum d with rejoin := none, splitDue := none } (finish k stOk 0 t) := by
  unfold rejoinAnswered
  rw [h]

theorem anyNotRejoining_iff (s : State) : bothDies.any (fun d => s.rdF (EBRUM_STATUS d) EBRUM_STATUS_STATE != 5) = true ↔ ∃ d, s.rdF (EBRUM_STATUS d) EBRUM_STATUS_STATE ≠ 5 := by
  rw [List.any_eq_true]
  refine ⟨fun ⟨d, _, h⟩ => ⟨d, bne_iff_ne.1 h⟩, fun ⟨d, h⟩ => ⟨d, ?_, bne_iff_ne.2 h⟩⟩
  cases d <;> decide

theorem upMask_fresh (s : State) : upMask (fresh s) = upMask s := by
  unfold upMask
  simp only [bundleState_fresh]

theorem rejoinDone_rule (s : State) : ((∃ d, s.rdF (EBRUM_STATUS d) EBRUM_STATUS_STATE ≠ 5) ∨ timeOffset s ≠ 0 → exec .rejoinDone s = .next (fresh s))
    ∧ (∀ ta tb, (∀ d, s.rdF (EBRUM_STATUS d) EBRUM_STATUS_STATE = 5) → timeOffset s = 0 → (s.ebrum .a).rejoin = some ta → (s.ebrum .b).rejoin = some tb →
      ∃ u, (u = { s with regs := u.regs, rinlar := u.rinlar, split := false, out := [] }
          ∧ (∀ d, u.rdF (EBRUM_STATUS d) EBRUM_STATUS_STATE = 0 ∧ u.flag (EBRUM_STATUS d) EBRUM_STATUS_PEER_REJOIN = false ∧ (∀ f ∈ epFuns d, u.flag (FUNC_STATUS f) FUNC_STATUS_PEER_LOST = false)
            ∧ u.rdF (EBRUM_COUNTS1 d) EBRUM_COUNTS1_REJOINS = min (2 ^ EBRUM_COUNTS1_REJOINS.len - 1) (s.rdF (EBRUM_COUNTS1 d) EBRUM_COUNTS1_REJOINS + 1)))
        ∧ exec .rejoinDone s = .next (ran (fun _ =>
            let v := finish ta stOk 0 u
            let w := finish tb stOk 0 (setEbrum .a { v.ebrum .a with rejoin := none, splitDue := none } v)
            let x := setEbrum .b { w.ebrum .b with rejoin := none, splitDue := none } w
            bothDies.foldl (fun t d => postEbrum d 0x0B03 (upMask s * 2 ^ 8 + unsgn 32 (s.ebrum .b).offset * 2 ^ 32) true t)
              ((audioRoutes x).foldl (fun t r => if acrossTo .a r.2.grantee then setEnv r.1 true t else t) x)) s)) := by
  have hst : ∀ d, (fresh s).rdF (EBRUM_STATUS d) EBRUM_STATUS_STATE = s.rdF (EBRUM_STATUS d) EBRUM_STATUS_STATE := fun d => rdF_fresh _ _ _
  refine ⟨fun h => ?_, fun ta tb h5 h0 ha hb => ?_⟩
  · have hgo : rejoined (fresh s) = fresh s := rejoined_same (h.imp_left fun ⟨d, hd⟩ => (anyNotRejoining_iff _).2 ⟨d, fun hc => hd ((hst d).symm.trans hc)⟩)
    exact congrArg Host.Outcome.next (ran_same hgo)
  · obtain ⟨j1, j2⟩ := joinShown_rule (fresh s)
    have hgo := rejoined_eq (s := fresh s) fun hc => hc.elim (fun hc => (((anyNotRejoining_iff _).1 hc).elim fun d hd => hd ((hst d).trans (h5 d)))) fun hc => hc h0
    rw [rejoinAnswered_some (s := fresh s) ha, rejoinAnswered_some (s := fresh s) hb, rejoinReported, upMask_fresh] at hgo
    obtain ⟨u, hu⟩ : ∃ u, u = joinShown (fresh s) := ⟨_, rfl⟩
    rw [← hu] at j1 j2 hgo
    refine ⟨u, ⟨j1, fun d => ?_⟩, congrArg Host.Outcome.next (ran_congr hgo)⟩
    have h := j2 d
    rw [rdF_fresh] at h
    exact h

/-- Settles O57, by one rule per event: the check, the causes of a split, the split, the end of a retrain, the sideband, a request that comes too late, and the end of a rejoin. -/
theorem diesSplitAndRejoin : Obligations.DiesSplitAndRejoin := by
  unfold Obligations.DiesSplitAndRejoin
  refine ⟨fun d o s => ⟨ebrumHealthCheck_reset, ebrumHealthCheck_rule⟩, splitCause_rule, splitNow_rule, linkRetrainDone_rule,
    fun d s hr => ⟨heartbeat_rule hr, fun held h => rejoinMsg_waits hr h, fun ta tb ha hb hv => ⟨rejoinMsg_aligned hr ha hb hv, rejoinMsg_slews hr ha hb hv⟩,
      fun ta tb ha hb hv => rejoinMsg_differs hr ha hb hv⟩, rejoinTimeout_rule, rejoinDone_rule⟩

end Sys2Proof.Machine
end

section
/-! The packets of a draw stream, and partial renders (O43; R255 to R266). -/
namespace Sys2Proof.Machine

/-! ## A packet held whole and right -/

theorem lenOk_pos {ty len : Nat} (h : lenOk ty len = true) : 1 ≤ len := by
  have hzero : lenOk ty 0 = false := by
    unfold lenOk
    simp
  rcases Nat.eq_zero_or_pos len with rfl | hpos
  · rw [hzero] at h
    exact Bool.noConfusion h
  · exact hpos

/-- What a packet of a type does once it is read. -/
def packetWork (d : Die) (j : Job) (ty arg len : Nat) (b : List Byte) (out : DrawOut) (acc : List ShaderAccess) (s : State) : State :=
  let q := nextPacket j len
  if ty = 0x00 then setPass d j q s
  else if ty = 0x01 then
    match bindPipe d j (fb b 4 8) s with
    | (.error (st, dt), t) => failJob d j st dt t
    | (.ok o, t) => setPass d { j with waves := max j.waves o.waves } { q with pipe := some o } t
  else if ty = 0x02 then setPass d j { q with res := fb b 4 8 } s
  else if ty = 0x03 then setPass d j { q with consts := (upto (len - 1)).foldl (fun c i => tset (arg + i) (fb b (4 + 4 * i) 4) c) q.consts } s
  else if ty = 0x04 then setPass d j { q with vbs := (upto ((len - 1) / 3)).foldl (fun v i => tset (arg + i) (fb b (4 + 12 * i) 8, fb b (12 + 12 * i) 4) v) q.vbs } s
  else if ty = 0x05 then setPass d j { q with ib := some (fb b 4 8, fb b 12 4, arg == 1) } s
  else if ty = 0x06 then setPass d j { q with viewport := b.drop 4 } s
  else if ty = 0x07 then setPass d j { q with dynamic := b.drop 4 } s
  else if ty = 0x08 then runDraws d j ty len arg false [drawOf false (b.drop 4)] out acc s
  else if ty = 0x09 then runDraws d j ty len arg true [drawOf true (b.drop 4)] out acc s
  else if ty = 0x0A then
    let ix := fbit b 16 0 1 == 1
    let n := fb b 12 2
    let size := if ix then 20 else 16
    if fb b 4 8 % 4 ≠ 0 then streamErr d j 3 ty s
    else if n ≠ 0 ∧ 2 ^ 48 < fb b 4 8 + (n - 1) * fb b 14 2 + size then streamErr d j 5 ty s
    else
      match readRecords d j (fb b 4 8) (fb b 14 2) size n s with
      | (.error e, t) => failDma d j e t
      | (.ok rs, t) => runDraws d j ty len arg ix (rs.map (drawOf ix)) out acc t
  else setJob d { j with phase := 3, pass := some q } s

section
variable {d : Die} {s s2 : State} {j : Job} {arg len : Nat} {b : List Byte}

theorem packet_at {ty : Nat} (h : PacketAt d ty s j arg len b s2) (out : DrawOut) (acc : List ShaderAccess) : packet d ty out acc s = packetWork d j ty arg len b out acc s2 := by
  obtain ⟨hjob, hty, hlen, hend, harg, hd, s1, hhead, h1, h2, h3, hbody⟩ := h
  have hpos := lenOk_pos hlen
  subst h1 h2 h3
  unfold packet
  rw [hjob]
  dsimp only
  rw [if_neg (by omega), hhead]
  dsimp only
  rw [if_neg (Nat.not_lt.2 hty), if_neg (not_not_intro rfl), if_neg (by rw [hlen]; exact Bool.noConfusion), if_neg (by omega), hbody]
  dsimp only
  rw [if_neg (by rw [harg]; exact Bool.noConfusion)]
  rfl

/-- A command that takes the packet at the binner leaves what the packet's work leaves. -/
theorem exec_packet {c : Instr} {ty : Nat} {out : DrawOut} {acc : List ShaderAccess} (hc : exec c s = .next (ran (packet d ty out acc) s)) (h : PacketAt d ty (fresh s) j arg len b s2)
    {t : State} (hw : packetWork d j ty arg len b out acc s2 = t) : exec c s = .next (ran (fun _ => t) s) :=
  hc.trans (congrArg Host.Outcome.next (ran_congr ((packet_at h out acc).trans hw)))

theorem packetWork_pipeline {o : Pipe} {s3 : State} (h : bindPipe d j (fb b 4 8) s2 = (.ok o, s3)) (out : DrawOut) (acc : List ShaderAccess) :
    packetWork d j 0x01 arg len b out acc s2 = setPass d { j with waves := max j.waves o.waves } { nextPacket j len with pipe := some o } s3 := by
  unfold packetWork
  dsimp only
  rw [if_neg (by decide), if_pos rfl, h]

theorem packetWork_indirect {rs : List (List Byte)} {s3 : State} (hal : fb b 4 8 % 4 = 0)
    (hin : fb b 12 2 ≠ 0 → fb b 4 8 + (fb b 12 2 - 1) * fb b 14 2 + (if fbit b 16 0 1 = 1 then 20 else 16) ≤ 2 ^ 48)
    (hread : readRecords d j (fb b 4 8) (fb b 14 2) (if fbit b 16 0 1 = 1 then 20 else 16) (fb b 12 2) s2 = (.ok rs, s3)) (out : DrawOut) (acc : List ShaderAccess) :
    packetWork d j 0x0A arg len b out acc s2 = runDraws d j 0x0A len arg (fbit b 16 0 1 == 1) (rs.map (drawOf (fbit b 16 0 1 == 1))) out acc s3 := by
  have hsize : (if (fbit b 16 0 1 == 1) = true then 20 else 16) = if fbit b 16 0 1 = 1 then 20 else 16 := if_congr beq_iff_eq rfl rfl
  unfold packetWork
  iterate 10 rw [if_neg (by decide)]
  rw [if_pos rfl]
  dsimp only
  rw [hsize, if_neg (not_not_intro hal), if_neg fun hc => Nat.not_lt.2 (hin hc.1) hc.2, hread]

end

/-! ## The draws of a packet -/

section
variable {d : Die} {j : Job} {ty len query : Nat} {indexed : Bool} {cs : List DrawCall} {out : DrawOut} {acc : List ShaderAccess} {s : State} {o : Pipe}

theorem runDraws_noPipe (h : (passOf j).pipe = none) : runDraws d j ty len query indexed cs out acc s = streamErr d j 4 ty s := by
  unfold runDraws
  dsimp only
  rw [h]

section
variable (ho : (passOf j).pipe = some o)
include ho

theorem runDraws_noBuffer (h : ∃ a ∈ attrsOf o.obj, tfind a.1 (passOf j).vbs = none) : runDraws d j ty len query indexed cs out acc s = streamErr d j 4 ty s := by
  obtain ⟨a, ha, hn⟩ := h
  unfold runDraws
  dsimp only
  rw [ho]
  exact if_pos (.inl (List.any_eq_true.2 ⟨a, ha, by rw [hn]; rfl⟩))

variable (hb : ∀ a ∈ attrsOf o.obj, (tfind a.1 (passOf j).vbs).isSome = true)
include hb

omit ho in
theorem buffers_set (hi : indexed = true → (passOf j).ib.isSome = true) :
    ¬((attrsOf o.obj).any (fun a => (tfind a.1 (passOf j).vbs).isNone) = true ∨ (indexed = true ∧ (passOf j).ib.isNone = true)) := by
  rintro (hc | ⟨hx, hn⟩)
  · obtain ⟨a, ha, hn⟩ := List.any_eq_true.1 hc
    exact isNone_false_of_isSome (hb a ha) hn
  · exact isNone_false_of_isSome (hi hx) hn

theorem runDraws_beyond {addr size : Nat} {wide : Bool} (hi : indexed = true) (hib : (passOf j).ib = some (addr, size, wide))
    (h : ∃ c ∈ cs, c.count ≠ 0 ∧ c.inst ≠ 0 ∧ size ≤ c.first * (if wide then 4 else 2)) : runDraws d j ty len query indexed cs out acc s = streamErr d j 5 ty s := by
  obtain ⟨c, hc, h1, h2, h3⟩ := h
  have hset := buffers_set (indexed := indexed) hb fun _ => by rw [hib]; rfl
  have hwork : c ∈ cs.filter (fun c => c.count != 0 && c.inst != 0) := List.mem_filter.2 ⟨hc, by rw [Bool.and_eq_true, bne_iff_ne, bne_iff_ne]; exact ⟨h1, h2⟩⟩
  unfold runDraws
  dsimp only
  rw [ho]
  dsimp only
  rw [if_neg hset, hib]
  refine if_pos ⟨hi, List.any_eq_true.2 ⟨c, hwork, decide_eq_true ?_⟩⟩
  cases wide <;> exact h3

theorem runDraws_empty (hi : indexed = true → (passOf j).ib.isSome = true) (h : ∀ c ∈ cs, c.count = 0 ∨ c.inst = 0) :
    runDraws d j ty len query indexed cs out acc s = setJob d { j with pass := some (nextPacket j len) } s := by
  have hwork : cs.filter (fun c => c.count != 0 && c.inst != 0) = [] := List.filter_eq_nil_iff.2 fun c hc => by
    rw [Bool.and_eq_true, bne_iff_ne, bne_iff_ne]
    exact fun hk => (h c hc).elim hk.1 hk.2
  unfold runDraws
  extract_lets p j0 n size work
  have hp : p.pipe = some o := ho
  rw [hp]
  dsimp only
  rw [if_neg (buffers_set hb hi), show work = [] from hwork, if_neg fun hc => Bool.false_ne_true hc.2, if_pos rfl]
  rfl

theorem runDraws_one {c : DrawCall} {vs : List (Option Int)} {s1 s2 : State} {ps : List Prim} {st : DrawState} (h1 : c.count ≠ 0) (h2 : c.inst ≠ 0) (hres : o.res = 0)
    (hfetch : fetchDraw d { j with pass := some (nextPacket j len) } o.obj false c s = (.ok vs, s1))
    (hacc : tryAll (shaderAccess d { j with pass := some (nextPacket j len) }) acc s1 = (none, s2)) (hst : st = ⟨o, (passOf j).viewport, (passOf j).dynamic, query⟩)
    (hps : ps = numbered j st out (passOf j).pos (drawShapes j st out (passOf j).pos 0 c vs) 0) :
    runDraws d j ty len query false [c] out acc s =
      binPrims d { j with pass := some { nextPacket j len with count := (passOf j).count + ps.length } } ps (16 * (1 + o.vary) * (c.count * c.inst)) s2 := by
  have hwork : [c].filter (fun c => c.count != 0 && c.inst != 0) = [c] := List.filter_eq_self.2 fun x hx => by
    rw [List.mem_singleton.1 hx, Bool.and_eq_true, bne_iff_ne, bne_iff_ne]
    exact ⟨h1, h2⟩
  have hall : collect (fetchDraw d { j with pass := some (nextPacket j len) } o.obj false) [c] s = (.ok [vs], s1) := by
    unfold collect
    rw [hfetch]
    rfl
  have hshapes : packetShapes j st out (passOf j).pos [(c, vs)] 0 = drawShapes j st out (passOf j).pos 0 c vs := List.append_nil _
  have hsum : [c.count * c.inst].sum = c.count * c.inst := List.sum_singleton
  unfold runDraws
  extract_lets p j0 n size work
  have hp : p.pipe = some o := ho
  have hj0 : j0 = { j with pass := some (nextPacket j len) } := rfl
  rw [← hj0] at hall hacc
  rw [hp]
  dsimp only
  rw [if_neg (buffers_set hb fun hc => Bool.noConfusion hc), show work = [c] from hwork, if_neg fun hc => Bool.false_ne_true hc.1, if_neg (List.cons_ne_nil _ _), if_pos (.inr hres)]
  dsimp only
  rw [if_pos (.inl rfl), hall]
  dsimp only
  rw [hacc]
  dsimp only
  rw [List.zip_cons_cons, List.zip_nil_right, ← hst, hshapes, ← hps, List.map_singleton, hsum]
  rfl

end
end

/-! ## Partial renders -/

theorem partialDone_all {d : Die} {j : Job} {acc : List ShaderAccess} {frags : List FragOut} {tiles : List (Nat × List TilePx)} {s s1 s2 s3 : State}
    (hj : (s.gpu d).jobs.find? (fun k => k.kind == 0 && k.phase == 2 && k.clusters != []) = some j) (htake : collect (takeTile d j) (passOf j).lists s = (.ok tiles, s1))
    (hacc : tryAll (shaderAccess d j) acc s1 = (none, s2)) (hspill : tryAll (spillTile d j) (passOf j).lists s2 = (none, s3)) :
    partialDone d acc frags s = (s3 |> pcAdd d 9 (passOf j).lists.length |> satF (GPU_BIN_OVERFLOWS d) GPU_BIN_OVERFLOWS_COUNT 1
      |> binPrims d { j with phase := 1, pass := some (reclaimed (passOf j) (drawTiles j frags tiles (passOf j).queries)) } (passOf j).rest
          ((passOf j).restExtra + (((passOf j).rest.head?).map (fun b => b.share)).getD 0)) := by
  unfold partialDone
  rw [hj]
  dsimp only
  rw [htake]
  dsimp only
  rw [hacc]
  dsimp only
  rw [hspill]

/-- Settles O43: a packet held whole and right is handed to its type's work, a draw packet's work follows the checks of R261 in order, and a partial render's three passes over its tiles succeed. -/
theorem drawPacketsAct : Obligations.DrawPacketsAct := by
  unfold Obligations.DrawPacketsAct
  refine ⟨fun d s s2 j arg len b => ⟨fun h => exec_packet rfl h rfl, fun h o s3 hp => exec_packet rfl h (packetWork_pipeline hp _ _), fun h => exec_packet rfl h rfl, fun h => exec_packet rfl h rfl,
    fun h => exec_packet rfl h rfl, fun h => exec_packet rfl h rfl, fun h => exec_packet rfl h rfl, fun h => exec_packet rfl h rfl,
    fun out acc => ⟨fun h => exec_packet rfl h rfl, fun h => exec_packet rfl h rfl, fun h hal hin rs s3 hread => exec_packet rfl h (packetWork_indirect hal hin hread _ _)⟩,
    fun h => exec_packet rfl h rfl⟩, ?_, ?_⟩
  · rintro d j _ ty len query indexed cs out acc s rfl
    refine ⟨runDraws_noPipe, fun o ho => ⟨runDraws_noBuffer ho, fun hb => ⟨fun addr size wide => runDraws_beyond ho hb, runDraws_empty ho hb, ?_⟩⟩⟩
    rintro c vs s1 s2 ps st rfl h1 h2 rfl hres hfetch hacc hst hps
    exact runDraws_one ho hb h1 h2 hres hfetch hacc hst hps
  · exact fun d j acc frags tiles s s1 s2 s3 hj htake hacc hspill => congrArg Host.Outcome.next (ran_congr (partialDone_all (s := fresh s) hj htake hacc hspill))

end Sys2Proof.Machine
end

section
/-! The audio engine's samples, its buses, and what a tick puts in force (O48; R317 to R319, R329). -/
namespace Sys2Proof.Machine

/-! ## Samples (R317) -/

theorem satQ_rule (x : Int) : -2 ^ 31 ≤ satQ x ∧ satQ x < 2 ^ 31 ∧ (-2 ^ 31 ≤ x → x < 2 ^ 31 → satQ x = x) := by
  unfold satQ
  omega

theorem roundNear_exact {n : Int} {den : Nat} (hd : 0 < den) : roundNear (n * den) den = n := by
  have h0 : n * (den : Int) % den = 0 := Int.mul_emod_left _ _
  have hd' : (den : Int) ≠ 0 := by omega
  unfold roundNear
  dsimp only
  rw [h0, if_pos (by omega), Int.mul_ediv_cancel _ hd', add_zero]

theorem fromInt_toInt {bits : Nat} {v : Int} (hb : bits = 16 ∨ bits = 24) (h1 : -2 ^ (bits - 1) ≤ v) (h2 : v < 2 ^ (bits - 1)) :
    fromInt bits v = v * 2 ^ (25 - bits) ∧ toInt bits (fromInt bits v) = v := by
  have hfrom : fromInt bits v = v * 2 ^ (25 - bits) := if_pos (by omega)
  have hround : roundNear (v * (2 ^ 24 : Nat)) (2 ^ 24) = v := roundNear_exact (by decide)
  rw [hfrom]
  refine ⟨rfl, ?_⟩
  unfold toInt oneQ
  rcases hb with rfl | rfl
  · have hscale : max (-16777216) (min 16777216 (v * 2 ^ (25 - 16))) * 2 ^ (16 - 1) = v * (2 ^ 24 : Nat) := by omega
    rw [hscale, hround]
    omega
  · have hscale : max (-16777216) (min 16777216 (v * 2 ^ (25 - 24))) * 2 ^ (24 - 1) = v * (2 ^ 24 : Nat) := by omega
    rw [hscale, hround]
    omega

theorem clips_iff (v : Int) : clips v = true ↔ v < -2 ^ 24 ∨ 2 ^ 24 < v := decide_eq_true_iff

theorem toInt_clipped (bits : Nat) (v : Int) : (2 ^ 24 < v → toInt bits v = 2 ^ (bits - 1) - 1) ∧ (v < -2 ^ 24 → toInt bits v = -2 ^ (bits - 1)) := by
  have hpow : (0 : Int) < 2 ^ (bits - 1) := by positivity
  have hround : ∀ x : Int, roundNear (x * (2 ^ 24 : Nat)) (2 ^ 24) = x := fun x => roundNear_exact (by decide)
  unfold toInt oneQ
  refine ⟨fun h => ?_, fun h => ?_⟩
  · have hfull : max (-16777216) (min 16777216 v) = 16777216 := by omega
    have hscale : (16777216 : Int) * 2 ^ (bits - 1) = 2 ^ (bits - 1) * (2 ^ 24 : Nat) := mul_comm _ _
    rw [hfull, hscale, hround]
    exact min_eq_left (by omega)
  · have hfull : max (-16777216) (min 16777216 v) = -16777216 := by omega
    have hscale : (-16777216 : Int) * 2 ^ (bits - 1) = -2 ^ (bits - 1) * (2 ^ 24 : Nat) := by
      rw [neg_mul, neg_mul, mul_comm]
      rfl
    rw [hfull, hscale, hround]
    exact min_eq_right (by omega)

/-! ## Ramps from mute (R329) -/

theorem gainBy_zero (x : Int) : gainBy 0 x = x := (if_neg (by decide)).trans (if_pos (.inl rfl))

theorem rampGain_done {r : Ramp} {t : Nat} (h : r.start + r.len ≤ t) (x : Int) : rampGain r t x = gainBy r.dst x := if_pos h

theorem rampFromMute_rule {start len k : Nat} {x : Int} (hk : k < len) (hx : x * k % len = 0) : rampGain ⟨muteCb, 0, start, len⟩ (start + k) x = x * k / len
    ∧ rampGain ⟨muteCb, 0, start, len⟩ (start + len + k) x = x ∧ rampGain (Ramp.flat muteCb) (start + k) x = 0 := by
  refine ⟨?_, (rampGain_done (Nat.le_add_right _ _) x).trans (gainBy_zero x), (rampGain_done (Nat.zero_le _) x).trans (if_pos rfl)⟩
  have hopen : openRound (x * k) len = x * k / len := by
    unfold openRound
    rw [if_pos hx, add_zero]
  unfold rampGain
  dsimp only
  rw [if_neg (by omega), if_pos rfl, Nat.add_sub_cancel_left, hopen, gainBy_zero]

/-! ## A bus without effects (R318) -/

theorem biquads_off (coef : List Nat) (n : Nat) (st : List (List Int)) (x : Int) : (biquads coef 0 n st x).1 = x := by
  have hoff : ∀ m, nbit 0 m = false := fun m => by
    unfold nbit
    simp
  induction st generalizing n x with
  | nil => rfl
  | cons s st ih =>
    unfold biquads
    rw [hoff]
    exact ih (n + 1) x

theorem busStage4_plain {x : AudioBus} {t : Nat} (hm : x.master = Ramp.flat 0) (hs : x.scale = 1) (he : x.scaleEnd ≤ t) (v : Int) : busStage4 x none t v = v := by
  unfold busStage4
  dsimp only
  rw [if_pos he, if_pos (Nat.le_of_eq hs), hm, rampGain_done (Nat.zero_le _)]
  exact gainBy_zero v

theorem map_getD_upto (v : Frame) : (upto v.length).map (fun c => v.getD c 0) = v := by
  refine List.ext_getElem (by rw [List.length_map, upto, List.length_range]) fun i h1 h2 => ?_
  rw [List.getElem_map]
  unfold upto
  rw [List.getElem_range]
  exact List.getD_eq_getElem _ _ h2

theorem faded_whole (v : Frame) : v.map (fun s => faded (96, 96) s) = v := by
  have hone : ∀ s, faded (96, 96) s = s := fun s => if_pos rfl
  rw [List.map_congr_left fun s _ => hone s, List.map_id']

theorem busDelay_none {x : AudioBus} (hd : x.delay = 0) (hp : x.delayPos = 0) (v : Frame) : (busDelay x v).1 = v ∧ (busDelay x v).2.ahead = x.ahead ∧ (busDelay x v).2.fx = x.fx := by
  refine ⟨?_, rfl, rfl⟩
  unfold busDelay
  dsimp only
  rw [hp, hd]
  exact faded_whole v

theorem dget_zero (byte bit n : Nat) : dget 0 byte bit n = 0 := by
  have hzero : (0 : Desc).toNat = 0 := BitVec.toNat_zero
  rw [dget, hzero, Nat.zero_div, Nat.zero_mod]

theorem busLimit_off {x : AudioBus} (h : x.fx = 0) (t gain : Nat) (v : Frame) : (busLimit x t gain v).1 = x.ahead.getD 95 [] ∧ (busLimit x t gain v).2.ahead = v :: x.ahead.take 95 := by
  refine ⟨?_, rfl⟩
  have hon : (dget x.fx 9 0 1 == 1) = false := by
    rw [h, dget_zero]
    rfl
  unfold busLimit
  dsimp only
  rw [hon]
  rfl

theorem busSample_plain {x : AudioBus} {t g : Nat} {v : Frame} (hm : x.master = Ramp.flat 0) (hs : x.scale = 1) (he : x.scaleEnd ≤ t) (hfx : x.fx = 0) (hd : x.delay = 0) (hp : x.delayPos = 0)
    (hv : v ≠ []) (ha : x.ahead.getD 95 [] ≠ []) : (busSample x none t g v).1 = x.ahead.getD 95 [] ∧ (busSample x none t g v).2.ahead = v :: x.ahead.take 95 := by
  have heq : dget x.fx 10 0 8 = 0 := by rw [hfx, dget_zero]
  obtain ⟨r, hr⟩ : ∃ r, r = (upto v.length).map (fun c => biquads x.coef (dget x.fx 10 0 8) 0 (x.filt.getD c (List.replicate 8 [])) (busStage4 x none t (v.getD c 0))) := ⟨_, rfl⟩
  have hr1 : r.map (fun y => y.1) = v := by
    have hone : ∀ c, (biquads x.coef (dget x.fx 10 0 8) 0 (x.filt.getD c (List.replicate 8 [])) (busStage4 x none t (v.getD c 0))).1 = v.getD c 0 := fun c => by
      rw [heq, biquads_off, busStage4_plain hm hs he]
    rw [hr, List.map_map]
    exact (List.map_congr_left fun c _ => hone c).trans (map_getD_upto v)
  obtain ⟨d1, d2, d3⟩ := busDelay_none (x := { x with filt := r.map (fun y => y.2) }) hd hp v
  obtain ⟨y, hy⟩ : ∃ y, busDelay { x with filt := r.map (fun y => y.2) } v = y := ⟨_, rfl⟩
  rw [hy] at d1 d2 d3
  obtain ⟨l1, l2⟩ := busLimit_off (x := y.2) (d3.trans hfx) t g v
  rw [d2] at l1 l2
  unfold busSample
  rw [← hr]
  dsimp only
  rw [hr1, hy, d1, if_neg hv, l1, if_neg ha]
  exact ⟨rfl, l2⟩

/-! ## A block of a bus (R317, R319) -/

theorem rd_setBus (b : Nat) (x : AudioBus) (s : State) (a : Nat) : (setBus b x s).rd a = s.rd a := rd_congr rfl rfl a

theorem busClip_ne_meter {b c : Nat} (hc : c < 8) : AUDIO_BUS_CLIP .a b ≠ AUDIO_METER_PEAK .a b c ∧ AUDIO_BUS_CLIP .a b ≠ AUDIO_METER_RMS .a b c ∧ AUDIO_BUS_CLIP .a b ≠ AUDIO_METER_HOLD .a b c := by
  unfold AUDIO_BUS_CLIP AUDIO_METER_PEAK AUDIO_METER_RMS AUDIO_METER_HOLD
  omega

theorem meterBus_clip (b : Nat) (fs : List Frame) (sat : Nat) (s : State) : (meterBus b fs sat s).rdF (AUDIO_BUS_CLIP .a b) AUDIO_BUS_CLIP_COUNT
    = min (2 ^ 32 - 1) (s.rdF (AUDIO_BUS_CLIP .a b) AUDIO_BUS_CLIP_COUNT + sat) := by
  unfold meterBus
  extract_lets x n chan peaks peak hold holds sq s1
  have hfold : ∀ cs : List Nat, (∀ c ∈ cs, c < 8) → ∀ t : State, (cs.foldl (fun t c =>
      t |> wr (AUDIO_METER_PEAK .a b c) (BitVec.ofNat 32 (if c < n then peak c else 0))
        |> wr (AUDIO_METER_RMS .a b c) (BitVec.ofNat 32 (if sq.getD c 0 = 0 then 0 else Config.rootOf (sq.getD c 0)))
        |> wr (AUDIO_METER_HOLD .a b c) (BitVec.ofNat 32 (holds.getD c (0, 0)).1)) t).rd (AUDIO_BUS_CLIP .a b) = t.rd (AUDIO_BUS_CLIP .a b) := fun cs => by
    induction cs with
    | nil => exact fun _ _ => rfl
    | cons c cs ih =>
      intro hcs t
      obtain ⟨hc, hrest⟩ := List.forall_mem_cons.1 hcs
      obtain ⟨h1, h2, h3⟩ := busClip_ne_meter (b := b) hc
      exact (ih hrest _).trans ((rd_wr_ne h3 _ _).trans ((rd_wr_ne h2 _ _).trans (rd_wr_ne h1 _ _)))
  rw [rdF_of_rd (hfold (upto 8) (fun c => List.mem_range.1) _), rdF_satF_same _ _ _ _ (by decide), rdF_of_rd (rd_setBus _ _ _ _)]
  rfl

/-- A block of a bus from the block of its sums. -/
def busBlockOf (s : State) (b : Nat) (sums : List Frame) : List Frame × AudioBus :=
  busBlock (if busClass s b = 2 then some s.audio.atten else none) s.timeA (fun i => s.freeNat i) 0 (sums.map (fun f => f.map satQ)) (s.bus b)

/-- The samples of a block of sums that saturate. -/
def saturated (sums : List Frame) : Nat := (sums.map (fun f => (f.filter (fun v => v != satQ v)).length)).sum

theorem runBus_on {src : Tab (List Frame)} {a : Tab (List Frame) × State} {b : Nat} (hon : busOn a.2 b = true) {sums : List Frame} (hs : (upto 48).map (busSum a.2 src b) = sums)
    {y : List Frame × AudioBus} (hy : busBlockOf a.2 b sums = y) {n : Nat} (hn : saturated sums = n) : runBus src a b = (tset b y.1 a.1, meterBus b y.1 n (setBus b y.2 (useFree 48 a.2))) := by
  unfold busBlockOf at hy
  unfold saturated at hn
  unfold runBus
  extract_lets s sums' sat
  rw [if_neg (by rw [hon]; exact Bool.noConfusion)]
  have hs' : sums' = sums := hs
  have hsat : sat = n := by rw [← hn, ← hs']
  have hb : busBlock (if busClass s b = 2 then some s.audio.atten else none) s.timeA (fun i => s.freeNat i) 0 (sums'.map (fun f => f.map satQ)) (s.bus b) = y := by rw [hs']; exact hy
  rw [hb, hsat]

theorem runBus_rule {src outs : Tab (List Frame)} {b : Nat} {s : State} (hon : busOn s b = true) : ∀ sums, sums = (upto 48).map (busSum s src b) →
    (runBus src (outs, s) b).2.rdF (AUDIO_BUS_CLIP .a b) AUDIO_BUS_CLIP_COUNT
      = min (2 ^ 32 - 1) (s.rdF (AUDIO_BUS_CLIP .a b) AUDIO_BUS_CLIP_COUNT + (sums.map (fun f => (f.filter (fun v => v != satQ v)).length)).sum)
    ∧ tfind b (runBus src (outs, s) b).1 = some (busBlock (if busClass s b = 2 then some s.audio.atten else none) s.timeA (fun i => s.freeNat i) 0
        (sums.map (fun f => f.map satQ)) (s.bus b)).1 := by
  intro sums hs
  obtain ⟨y, hy⟩ : ∃ y, busBlockOf s b sums = y := ⟨_, rfl⟩
  obtain ⟨n, hn⟩ : ∃ n, saturated sums = n := ⟨_, rfl⟩
  have hgo := runBus_on (src := src) (a := (outs, s)) hon hs.symm hy hn
  unfold busBlockOf at hy
  unfold saturated at hn
  rw [hgo, hy, hn]
  refine ⟨?_, tfind_tset_same _ _ _⟩
  rw [meterBus_clip, rdF_of_rd (rd_setBus _ _ _ _), rdF_of_rd (rd_useFree _ _ _)]

/-! ## What was set since the last tick (R319) -/

/-- What was set for a bus is in force. -/
def fxTaken (t : State) (b : Nat) : State :=
  match (t.bus b).nextFx with
  | some (d, c) => setBus b { t.bus b with fx := d, coef := if c = [] then (t.bus b).coef else c, nextFx := none, delayPos := delayMove (t.bus b) (dget d 12 0 16) } t
  | none => t

/-- Tones set since the last tick are in force. -/
def tonesTaken (s : State) : State :=
  { s with audio := { s.audio with nextGains := [], nextTones := [],
                                   tones := s.audio.nextTones.foldl (fun t x => tset x.1 (x.2.1, x.2.2.1, x.2.2.2) t) s.audio.tones,
                                   toneLevels := s.audio.nextTones.foldl (fun t x => tset x.1 (toneAim s x.1 x.2.2.1) t) s.audio.toneLevels } }

theorem audioPending_eq (s : State) : audioPending s = (upto 16).foldl fxTaken (s.audio.nextGains.foldl (fun t g => aimGain g.1 g.2.1 g.2.2 t) (tonesTaken s)) := rfl

/-- Only routes and buses of the engine differ. -/
def SameQueues (s t : State) : Prop := t.audio.nextGains = s.audio.nextGains ∧ t.audio.nextTones = s.audio.nextTones ∧ t.audio.tones = s.audio.tones

theorem SameQueues.foldl {α : Type} {g : State → α → State} (hg : ∀ t x, SameQueues t (g t x)) (xs : List α) (s : State) : SameQueues s (xs.foldl g s) := by
  induction xs generalizing s with
  | nil => exact ⟨rfl, rfl, rfl⟩
  | cons x xs ih =>
    obtain ⟨h1, h2, h3⟩ := hg s x
    obtain ⟨i1, i2, i3⟩ := ih (g s x)
    exact ⟨i1.trans h1, i2.trans h2, i3.trans h3⟩

theorem fxTaken_sameQueues (t : State) (b : Nat) : SameQueues t (fxTaken t b) := by
  unfold fxTaken
  split <;> exact ⟨rfl, rfl, rfl⟩

theorem fxTaken_routes (t : State) (b : Nat) : (fxTaken t b).audio.routes = t.audio.routes := by
  unfold fxTaken
  split <;> rfl

theorem bus_setBus_same (b : Nat) (x : AudioBus) (s : State) : (setBus b x s).bus b = x := tget_tset_same _ _ _ _
theorem bus_setBus_ne {b c : Nat} (h : c ≠ b) (x : AudioBus) (s : State) : (setBus b x s).bus c = s.bus c := tget_tset_ne _ h _ _

theorem fxTaken_nextFx (t : State) (b c : Nat) : ((fxTaken t b).bus c).nextFx = if c = b then none else (t.bus c).nextFx := by
  unfold fxTaken
  by_cases hc : c = b
  · subst hc
    rw [if_pos rfl]
    split
    · rw [bus_setBus_same]
    · assumption
  · rw [if_neg hc]
    split
    · rw [bus_setBus_ne hc]
    · rfl

theorem foldl_fxTaken (bs : List Nat) (t : State) (c : Nat) (h : c ∈ bs ∨ (t.bus c).nextFx = none) : ((bs.foldl fxTaken t).bus c).nextFx = none := by
  induction bs generalizing t with
  | nil => exact h.resolve_left List.not_mem_nil
  | cons b bs ih =>
    refine ih _ ?_
    rw [fxTaken_nextFx]
    by_cases hc : c = b
    · exact .inr (if_pos hc)
    · rw [if_neg hc]
      exact h.imp_left fun hm => (List.mem_cons.1 hm).resolve_left hc

theorem aroute_setARoute_same (h : Nat) (x : AudioRoute) (s : State) : (setARoute h x s).aroute h = x := tget_tset_same _ _ _ _
theorem aroute_setARoute_ne {h k : Nat} (hk : k ≠ h) (x : AudioRoute) (s : State) : (setARoute h x s).aroute k = s.aroute k := tget_tset_ne _ hk _ _

/-- A route's gain and mute, as set, are in force. -/
def gainTaken (t : State) (g : Nat × Bool × Int) : State := aimGain g.1 g.2.1 g.2.2 t

theorem gainTaken_sameQueues (t : State) (g : Nat × Bool × Int) : SameQueues t (gainTaken t g) := ⟨rfl, rfl, rfl⟩

theorem gainTaken_aroute (t : State) (g : Nat × Bool × Int) : ((gainTaken t g).aroute g.1).gain = g.2.2 ∧ ((gainTaken t g).aroute g.1).mute = g.2.1 := by
  unfold gainTaken aimGain
  dsimp only
  rw [aroute_setARoute_same]
  exact ⟨rfl, rfl⟩

theorem foldl_fxTaken_aroute (bs : List Nat) (t : State) (h : Nat) : (bs.foldl fxTaken t).aroute h = t.aroute h := by
  have hall : ∀ t : State, (bs.foldl fxTaken t).audio.routes = t.audio.routes := by
    induction bs with
    | nil => exact fun _ => rfl
    | cons b bs ih => exact fun t => (ih _).trans (fxTaken_routes t b)
  exact congrArg (tget AudioRoute.empty h) (hall t)

theorem audioPending_rule (s : State) : (audioPending s).audio.nextGains = [] ∧ (audioPending s).audio.nextTones = []
    ∧ (∀ b, b < 16 → (tget AudioBus.empty b (audioPending s).audio.buses).nextFx = none)
    ∧ (∀ h m g, s.audio.nextGains = [(h, m, g)] → ((audioPending s).aroute h).gain = g ∧ ((audioPending s).aroute h).mute = m)
    ∧ (∀ k m lv f, s.audio.nextTones = [(k, m, lv, f)] → tfind k (audioPending s).audio.tones = some (m, lv, f)) := by
  have hgo : audioPending s = (upto 16).foldl fxTaken (s.audio.nextGains.foldl gainTaken (tonesTaken s)) := audioPending_eq s
  obtain ⟨g1, g2, g3⟩ := SameQueues.foldl gainTaken_sameQueues s.audio.nextGains (tonesTaken s)
  obtain ⟨v, hv⟩ : ∃ v, v = s.audio.nextGains.foldl gainTaken (tonesTaken s) := ⟨_, rfl⟩
  rw [← hv] at g1 g2 g3 hgo
  obtain ⟨f1, f2, f3⟩ := SameQueues.foldl fxTaken_sameQueues (upto 16) v
  rw [hgo]
  refine ⟨f1.trans g1, f2.trans g2, fun b hb => ?_, fun h m g hg => ?_, fun k m lv f hf => ?_⟩
  · exact foldl_fxTaken (upto 16) v b (.inl (mem_upto hb))
  · rw [foldl_fxTaken_aroute, hv, hg]
    exact gainTaken_aroute (tonesTaken s) (h, m, g)
  · have htones : (tonesTaken s).audio.tones = tset k (m, lv, f) s.audio.tones := by
      unfold tonesTaken
      rw [hf]
      rfl
    rw [f3, g3, htones]
    exact tfind_tset_same _ _ _

theorem audioTick_runs {o : AudioObs} {s : State} (h1 : unitPresent s.part .a bitAudio = true) (h2 : unitsStopped s [unitKey .a bitAudio] = false) (h3 : s.inReset.contains .audio = false)
    (h4 : islandOut s .a 17 = true) (h5 : s.rdF (POWER_STATUS .a) POWER_STATUS_STATE < 2) (h0 : o.missed = 0) :
    tick o s = (upto 16).foldl postClips (audioBlock o (audioPending s)) := by
  unfold tick
  rw [if_neg (by rw [h1, h2, h3, h4]; simp only [reduceCtorEq, false_or, Bool.false_eq_true]; omega), if_pos h0, h0]
  rfl

end Sys2Proof.Machine
end

section
/-! The clock of a slave port, and the audio engine's obligation (O48; R322). -/
namespace Sys2Proof.Machine

theorem Only.setARoute {m : State → State} {s t : State} (h : Only m s t) (k : Nat) (x : AudioRoute) (hm : ∀ u r, m { u with audio := r } = m u := by intros; rfl) : Only m s (setARoute k x t) :=
  (hm _ _).trans h

theorem Only.regsAudio {s t : State} (h : Only (fun u => { u with regs := [], audio := Audio.empty }) (fresh s) t) : t = { s with regs := t.regs, audio := t.audio, out := [] } :=
  congrArg (fun u => { u with regs := t.regs, audio := t.audio }) h

theorem audioStatus_ne_rate (p : Nat) : AUDIO_TDM_STATUS .a p ≠ AUDIO_TDM_RATE .a p := by
  unfold AUDIO_TDM_STATUS AUDIO_TDM_RATE
  omega

/-! ## Envelopes of a port's inputs -/

/-- The ports that are lost, and everything but the engine's own state, are kept. -/
def LostKept (s t : State) : Prop := Only (fun u => { u with audio := Audio.empty }) s t ∧ t.audio.lost = s.audio.lost

theorem LostKept.trans {s t u : State} (h : LostKept s t) (h' : LostKept t u) : LostKept s u := ⟨h.1.trans h'.1, h'.2.trans h.2⟩

theorem LostKept.foldl {α : Type} {g : State → α → State} (hg : ∀ t x, LostKept t (g t x)) (xs : List α) (s : State) : LostKept s (xs.foldl g s) := by
  induction xs generalizing s with
  | nil => exact ⟨.rfl, rfl⟩
  | cons x xs ih => exact (hg s x).trans (ih _)

theorem setARoute_lostKept (h : Nat) (x : AudioRoute) (s : State) : LostKept s (setARoute h x s) := ⟨.setARoute .rfl _ _, rfl⟩

theorem setEnv_lostKept (h : Nat) (up : Bool) (s : State) : LostKept s (setEnv h up s) := by
  unfold setEnv
  split
  · exact ⟨.rfl, rfl⟩
  · exact setARoute_lostKept _ _ _

theorem LostKept.rd {s t : State} (h : LostKept s t) (a : Nat) : t.rd a = s.rd a := h.1.rd_eq a

/-- An input of a lost port begins to fade out over 1 ms. -/
def inputFades (t : State) (x : Nat × Route) : State :=
  setARoute x.1 { t.aroute x.1 with up := false, envFrom := (t.aroute x.1).env t.timeA, envLen := 1000000, envEnd := t.timeA + 1000000 } t

theorem inputFades_lostKept (t : State) (x : Nat × Route) : LostKept t (inputFades t x) := setARoute_lostKept _ _ _

/-- The input of a handle fades out until a time. -/
def Fading (until_ h : Nat) (t : State) : Prop := (t.aroute h).up = false ∧ (t.aroute h).envEnd = until_

theorem inputFades_fading (t : State) (x : Nat × Route) (h : Nat) (hf : h = x.1 ∨ Fading (t.timeA + 1000000) h t) : Fading (t.timeA + 1000000) h (inputFades t x) := by
  unfold Fading inputFades
  by_cases hx : h = x.1
  · rw [hx, aroute_setARoute_same]
    exact ⟨rfl, rfl⟩
  · rw [aroute_setARoute_ne hx]
    exact hf.resolve_left hx

theorem foldl_inputFades (xs : List (Nat × Route)) (t : State) (h : Nat) (hf : (∃ x ∈ xs, x.1 = h) ∨ Fading (t.timeA + 1000000) h t) :
    Fading (t.timeA + 1000000) h (xs.foldl inputFades t) := by
  induction xs generalizing t with
  | nil => exact hf.resolve_left fun ⟨x, hx, _⟩ => List.not_mem_nil hx
  | cons x xs ih =>
    refine ih (inputFades t x) ?_
    by_cases hx : h = x.1
    · exact .inr (inputFades_fading t x h (.inl hx))
    · refine hf.imp (fun ⟨y, hy, hyh⟩ => ⟨y, (List.mem_cons.1 hy).resolve_left fun hc => hx (by rw [← hyh, hc]), hyh⟩) fun hk => ?_
      exact inputFades_fading t x h (.inr hk)

/-! ## The loss of a clock -/

/-- A slave port shows that its clock is lost. -/
def lossShown (p : Nat) (s : State) : State :=
  s |> wrB (AUDIO_TDM_STATUS .a p) AUDIO_TDM_STATUS_CLOCKED false |> satF (AUDIO_TDM_STATUS .a p) AUDIO_TDM_STATUS_LOSSES 1
    |> wr (AUDIO_TDM_RATE .a p) 0 |> (fun t => { t with audio := { t.audio with lost := p :: t.audio.lost } })

section
variable {p : Nat} {s : State}

theorem lossShown_rule : Only (fun u => { u with regs := [], audio := Audio.empty }) s (lossShown p s) ∧ (lossShown p s).flag (AUDIO_TDM_STATUS .a p) AUDIO_TDM_STATUS_CLOCKED = false
    ∧ (lossShown p s).rd (AUDIO_TDM_RATE .a p) = 0
    ∧ (lossShown p s).rdF (AUDIO_TDM_STATUS .a p) AUDIO_TDM_STATUS_LOSSES = min (2 ^ AUDIO_TDM_STATUS_LOSSES.len - 1) (s.rdF (AUDIO_TDM_STATUS .a p) AUDIO_TDM_STATUS_LOSSES + 1)
    ∧ (lossShown p s).audio.lost = p :: s.audio.lost ∧ ∀ a, a ≠ AUDIO_TDM_STATUS .a p → a ≠ AUDIO_TDM_RATE .a p → (lossShown p s).rd a = s.rd a := by
  obtain ⟨x, hx⟩ : ∃ x, x = wr (AUDIO_TDM_RATE .a p) 0 (satF (AUDIO_TDM_STATUS .a p) AUDIO_TDM_STATUS_LOSSES 1 (wrB (AUDIO_TDM_STATUS .a p) AUDIO_TDM_STATUS_CLOCKED false s)) := ⟨_, rfl⟩
  have hgo : lossShown p s = { x with audio := { x.audio with lost := p :: x.audio.lost } } := by
    rw [hx]
    rfl
  have hregs : RegsOnly s x := by
    rw [hx]
    exact ((regsOnly_wr _ _ _).trans (regsOnly_wr _ _ _)).trans (regsOnly_wr _ _ _)
  have hrd : ∀ a, (lossShown p s).rd a = x.rd a := fun a => by
    rw [hgo]
    exact rd_congr rfl rfl a
  have hlost : x.audio.lost = s.audio.lost := (congrArg (fun u : State => u.audio.lost) hregs.eq :)
  have hne := audioStatus_ne_rate p
  refine ⟨?_, ?_, ?_, ?_, ?_, fun a h1 h2 => ?_⟩
  · have hx' : Only (fun u => { u with regs := [], audio := Audio.empty }) s x := .of_regsOnly hregs
    rw [hgo]
    exact hx'
  · rw [flag_of_rd (hrd _), hx, flag_wr_ne hne, satF, flag_wrF_other _ _ _ _ _ (by decide) (by decide)]
    exact flag_wrB_same _ _ _ _ (by decide) (by decide)
  · rw [hrd, hx, rd_wr_same]
  · rw [rdF_of_rd (hrd _), hx, rdF_of_rd (rd_wr_ne hne _ _), rdF_satF_same _ _ _ _ (by decide), rdF_wrB_other _ _ _ _ _ (by decide) (by decide)]
  · rw [hgo, ← hlost]
  · rw [hrd, hx, rd_wr_ne h2, rd_satF_ne h1, rd_wrB_ne h1]

theorem clockLoss_eq (hon : slaveOn s p = true) (hc : s.flag (AUDIO_TDM_STATUS .a p) AUDIO_TDM_STATUS_CLOCKED = true) :
    clockLoss p s = postClock p 0 0 ((portRoutes (lossShown p s) p).foldl inputFades (lossShown p s)) := if_pos ⟨hon, hc⟩

theorem clockLoss_unclocked (hc : s.flag (AUDIO_TDM_STATUS .a p) AUDIO_TDM_STATUS_CLOCKED = false) : clockLoss p s = s := if_neg fun h => Bool.noConfusion (hc.symm.trans h.2)

theorem clockBack_clocked (rate : Nat) (hc : s.flag (AUDIO_TDM_STATUS .a p) AUDIO_TDM_STATUS_CLOCKED = true) : clockBack p rate s = s :=
  if_neg fun h => Bool.noConfusion (hc.symm.trans h.2)

theorem slaveOn_fresh (hp : p < 4) (he : s.flag (AUDIO_TDM_CFG .a p) AUDIO_TDM_CFG_EN = true) (hm : s.flag (AUDIO_TDM_CFG .a p) AUDIO_TDM_CFG_MASTER = false) : slaveOn (fresh s) p = true := by
  rw [slaveOn, flag_fresh, flag_fresh, he, hm, decide_eq_true hp]
  rfl

theorem audioClockLoss_rule (hp : p < 4) (he : s.flag (AUDIO_TDM_CFG .a p) AUDIO_TDM_CFG_EN = true) (hm : s.flag (AUDIO_TDM_CFG .a p) AUDIO_TDM_CFG_MASTER = false)
    (hc : s.flag (AUDIO_TDM_STATUS .a p) AUDIO_TDM_STATUS_CLOCKED = true) :
    ∃ u, (u = { s with regs := u.regs, audio := u.audio, out := [] } ∧ u.flag (AUDIO_TDM_STATUS .a p) AUDIO_TDM_STATUS_CLOCKED = false ∧ u.rd (AUDIO_TDM_RATE .a p) = 0
        ∧ u.rdF (AUDIO_TDM_STATUS .a p) AUDIO_TDM_STATUS_LOSSES = min (2 ^ AUDIO_TDM_STATUS_LOSSES.len - 1) (s.rdF (AUDIO_TDM_STATUS .a p) AUDIO_TDM_STATUS_LOSSES + 1)
        ∧ u.audio.lost = p :: s.audio.lost ∧ (∀ x ∈ portRoutes s p, (u.aroute x.1).up = false ∧ (u.aroute x.1).envEnd = s.timeA + 1000000)
        ∧ ∀ a, a ≠ AUDIO_TDM_STATUS .a p → a ≠ AUDIO_TDM_RATE .a p → u.rd a = s.rd a)
      ∧ exec (.audioClockLoss p) s = .next (ran (fun _ => postClock p 0 0 u) s) := by
  have hgo := clockLoss_eq (slaveOn_fresh hp he hm) ((flag_fresh _ _ _).trans hc)
  obtain ⟨l1, l2, l3, l4, l5, l6⟩ := lossShown_rule (p := p) (s := fresh s)
  obtain ⟨v, hv⟩ : ∃ v, v = lossShown p (fresh s) := ⟨_, rfl⟩
  rw [← hv] at hgo l1 l2 l3 l4 l5 l6
  have htime : v.timeA = s.timeA := (congrArg State.timeA l1 :)
  have hroutes : portRoutes v p = portRoutes s p := (congrArg (fun u : State => portRoutes u p) l1 :)
  rw [hroutes] at hgo
  obtain ⟨k1, k2⟩ := LostKept.foldl inputFades_lostKept (portRoutes s p) v
  have hfade := fun x (hx : x ∈ portRoutes s p) => foldl_inputFades (portRoutes s p) v x.1 (.inl ⟨x, hx, rfl⟩)
  obtain ⟨u, hu⟩ : ∃ u, u = (portRoutes s p).foldl inputFades v := ⟨_, rfl⟩
  rw [← hu] at hgo k1 k2 hfade
  have hrd : ∀ a, u.rd a = v.rd a := fun a => k1.rd_eq a
  rw [rdF_fresh] at l4
  exact ⟨u, ⟨(l1.trans k1.mono).regsAudio, (flag_of_rd (hrd _) _).trans l2, (hrd _).trans l3, (rdF_of_rd (hrd _) _).trans l4, k2.trans l5,
    fun x hx => by rw [← htime]; exact hfade x hx, fun a h1 h2 => (hrd a).trans ((l6 a h1 h2).trans (rd_fresh _ _))⟩, congrArg Host.Outcome.next (ran_congr hgo)⟩

/-! ## The return of a clock -/

/-- A slave port shows its clock. -/
def clockShown (p rate : Nat) (s : State) : State := s |> wrB (AUDIO_TDM_STATUS .a p) AUDIO_TDM_STATUS_CLOCKED true |> wrF (AUDIO_TDM_RATE .a p) AUDIO_TDM_RATE_RATE_HZ rate

/-- A port is no longer lost. -/
def portFound (p : Nat) (s : State) : State := { s with audio := { s.audio with lost := s.audio.lost.filter (fun k => k != p) } }

/-- The inputs of a port that was lost ramp in. -/
def portReturns (p : Nat) (s : State) : State := (portRoutes (portFound p s) p).foldl (fun t x => setEnv x.1 true t) (portFound p s)

theorem clockShown_rule {rate : Nat} (hr : rate < 2 ^ 18) : RegsOnly s (clockShown p rate s) ∧ (clockShown p rate s).flag (AUDIO_TDM_STATUS .a p) AUDIO_TDM_STATUS_CLOCKED = true
    ∧ (clockShown p rate s).rdF (AUDIO_TDM_RATE .a p) AUDIO_TDM_RATE_RATE_HZ = rate ∧ ∀ a, a ≠ AUDIO_TDM_STATUS .a p → a ≠ AUDIO_TDM_RATE .a p → (clockShown p rate s).rd a = s.rd a := by
  refine ⟨(regsOnly_wr _ _ _).trans (regsOnly_wr _ _ _), ?_, rdF_wrF_of_lt (by decide) hr, fun a h1 h2 => (rd_wrF_ne h2 _ _ _).trans (rd_wrB_ne h1 _ _ _)⟩
  rw [clockShown, flag_of_rd (rd_wrF_ne (audioStatus_ne_rate p) _ _ _)]
  exact flag_wrB_same _ _ _ _ (by decide) (by decide)

theorem portReturns_rule (p : Nat) (s : State) : Only (fun u => { u with audio := Audio.empty }) s (portReturns p s) ∧ (portReturns p s).audio.lost.contains p = false := by
  obtain ⟨k1, k2⟩ := LostKept.foldl (fun t (x : Nat × Route) => setEnv_lostKept x.1 true t) (portRoutes (portFound p s) p) (portFound p s)
  have hfound : Only (fun u => { u with audio := Audio.empty }) s (portFound p s) := rfl
  refine ⟨hfound.trans k1, ?_⟩
  rw [portReturns, k2]
  exact contains_filter_self _ _

theorem clockBack_eq (rate : Nat) (hon : slaveOn s p = true) (hc : s.flag (AUDIO_TDM_STATUS .a p) AUDIO_TDM_STATUS_CLOCKED = false) :
    clockBack p rate s = if s.audio.lost.contains p then postClock p 1 rate (portReturns p (clockShown p rate s)) else clockShown p rate s := if_pos ⟨hon, hc⟩

theorem audioClockBack_rule (hp : p < 4) (he : s.flag (AUDIO_TDM_CFG .a p) AUDIO_TDM_CFG_EN = true) (hm : s.flag (AUDIO_TDM_CFG .a p) AUDIO_TDM_CFG_MASTER = false)
    (hc : s.flag (AUDIO_TDM_STATUS .a p) AUDIO_TDM_STATUS_CLOCKED = false) {rate : Nat} (hr : rate < 2 ^ 18) :
    ∃ u, (u = { s with regs := u.regs, audio := u.audio, out := [] } ∧ u.flag (AUDIO_TDM_STATUS .a p) AUDIO_TDM_STATUS_CLOCKED = true
        ∧ u.rdF (AUDIO_TDM_RATE .a p) AUDIO_TDM_RATE_RATE_HZ = rate ∧ u.audio.lost.contains p = false
        ∧ ∀ a, a ≠ AUDIO_TDM_STATUS .a p → a ≠ AUDIO_TDM_RATE .a p → u.rd a = s.rd a)
      ∧ (s.audio.lost.contains p = false → exec (.audioClockBack p rate) s = .next (ran (fun _ => u) s))
      ∧ (s.audio.lost.contains p = true → exec (.audioClockBack p rate) s = .next (ran (fun _ => postClock p 1 rate u) s)) := by
  have hgo := clockBack_eq rate (slaveOn_fresh hp he hm) ((flag_fresh _ _ _).trans hc)
  obtain ⟨c1, c2, c3, c4⟩ := clockShown_rule (p := p) (s := fresh s) hr
  obtain ⟨v, hv⟩ : ∃ v, v = clockShown p rate (fresh s) := ⟨_, rfl⟩
  rw [← hv] at hgo c1 c2 c3 c4
  have hv0 : Only (fun u => { u with regs := [], audio := Audio.empty }) (fresh s) v := .of_regsOnly c1
  have hlost : (fresh s).audio.lost.contains p = s.audio.lost.contains p := rfl
  have hvlost : v.audio.lost.contains p = s.audio.lost.contains p := (congrArg (fun u : State => u.audio.lost.contains p) c1.eq :)
  have hframe : ∀ a, a ≠ AUDIO_TDM_STATUS .a p → a ≠ AUDIO_TDM_RATE .a p → v.rd a = s.rd a := fun a h1 h2 => (c4 a h1 h2).trans (rd_fresh _ _)
  rw [hlost] at hgo
  rcases Bool.eq_false_or_eq_true (s.audio.lost.contains p) with hl | hl
  · obtain ⟨r1, r2⟩ := portReturns_rule p v
    rw [hl, if_pos rfl] at hgo
    obtain ⟨u, hu⟩ : ∃ u, u = portReturns p v := ⟨_, rfl⟩
    rw [← hu] at hgo r1 r2
    have hrd : ∀ a, u.rd a = v.rd a := fun a => r1.rd_eq a
    exact ⟨u, ⟨(hv0.trans r1.mono).regsAudio, (flag_of_rd (hrd _) _).trans c2, (rdF_of_rd (hrd _) _).trans c3, r2, fun a h1 h2 => (hrd a).trans (hframe a h1 h2)⟩,
      fun h => Bool.noConfusion (hl.symm.trans h), fun _ => congrArg Host.Outcome.next (ran_congr hgo)⟩
  · rw [hl, if_neg Bool.false_ne_true] at hgo
    exact ⟨v, ⟨hv0.regsAudio, c2, c3, hvlost.trans hl, hframe⟩, fun _ => congrArg Host.Outcome.next (ran_congr hgo), fun h => Bool.noConfusion (hl.symm.trans h)⟩

end

theorem unitsStopped_fresh (s : State) (us : List Nat) : unitsStopped (fresh s) us = unitsStopped s us := by
  unfold unitsStopped unitQuiet unitReset
  simp only [rd_fresh]
  rfl

theorem audioTick_rule {o : AudioObs} {s : State} (h1 : unitPresent s.part .a bitAudio = true) (h2 : unitsStopped s [unitKey .a bitAudio] = false) (h3 : s.inReset.contains .audio = false)
    (h4 : islandOut s .a 17 = true) (h5 : s.rdF (POWER_STATUS .a) POWER_STATUS_STATE < 2) (h0 : o.missed = 0) :
    exec (.audioTick o) s = .next (ran (fun u => (upto 16).foldl postClips (audioBlock o (audioPending u))) s) := by
  have hgo : tick o (fresh s) = (upto 16).foldl postClips (audioBlock o (audioPending (fresh s))) :=
    audioTick_runs h1 ((unitsStopped_fresh _ _).trans h2) h3 h4 (by rw [rdF_fresh]; exact h5) h0
  exact congrArg Host.Outcome.next (ran_congr hgo)

/-- Settles O48: what a tick puts in force, the arithmetic of samples, ramps and plain buses, and the loss and return of a slave port's clock. -/
theorem audioEngineTicks : Obligations.AudioEngineTicks := by
  unfold Obligations.AudioEngineTicks
  refine ⟨fun o s h1 h2 h3 h4 h5 => ⟨audioTick_rule h1 h2 h3 h4 h5, audioPending_rule s⟩, ⟨satQ_rule, fun bits v => fromInt_toInt,
    fun bits v _ => ⟨clips_iff v, toInt_clipped bits v⟩, fun start len k x => rampFromMute_rule, fun x t g v => busSample_plain, fun src outs b s _ => runBus_rule⟩,
    fun p s hp he hm => ⟨fun hc => ⟨audioClockLoss_rule hp he hm hc, fun rate => ?_⟩, fun hc rate hr => ⟨?_, audioClockBack_rule hp he hm hc hr⟩⟩⟩
  · exact congrArg Host.Outcome.next (ran_same (clockBack_clocked rate ((flag_fresh _ _ _).trans hc)))
  · exact congrArg Host.Outcome.next (ran_same (clockLoss_unclocked ((flag_fresh _ _ _).trans hc)))

end Sys2Proof.Machine
end

section
/-! What leaves the live routes and the tenants as they are: posts, haptic channels, heads, touch units, votes (R88, R99, R118). -/
namespace Sys2Proof.Machine

/-! ## Posts -/

theorem post_keepsGrants (f : Fun) (e : Event) (s : State) : KeepsGrants s (post f e s) := .of_posted (posts_post (ok := False) False.elim e s).fields

theorem postLater_keepsGrants (t : Ticket) (ck st dt : Nat) (s : State) : KeepsGrants s (postLater t ck st dt s) := by
  unfold postLater
  exact .ite ⟨rfl, rfl⟩ (.of_posted (posts_postCqe (ok := False) False.elim _ _ s).fields)

theorem postLast_keepsGrants (t : Ticket) (ck st dt : Nat) (s : State) : KeepsGrants s (postLast t ck st dt s) :=
  (postLater_keepsGrants t ck st dt s).trans ⟨rfl, rfl⟩

theorem finish_keepsGrants (t : Ticket) (st dt : Nat) (s : State) : KeepsGrants s (finish t st dt s) := .of_posted (finish_posted _ _ _ _)

theorem finishPart_keepsGrants (t : Ticket) (shown : Bool) (dt : Nat) (s : State) : KeepsGrants s (finishPart t shown dt s) := by
  unfold finishPart
  split
  · exact .rfl
  · obtain ⟨h, -⟩ := settle_posts (ok := False) (q := t.ring) False.elim False.elim
    exact .of_posted (Eq.trans h (Eq.refl _))

theorem finishAny_keepsGrants (t : Ticket) (st dt : Nat) (s : State) : KeepsGrants s (finishAny t st dt s) := .ite (postLast_keepsGrants _ _ _ _ _) (finish_keepsGrants _ _ _ _)

theorem wr_keepsGrants (a : Nat) (v : Word) (s : State) : KeepsGrants s (wr a v s) := ⟨rfl, rfl⟩
theorem wrF_keepsGrants (a : Nat) (f : Fld) (n : Nat) (s : State) : KeepsGrants s (wrF a f n s) := ⟨rfl, rfl⟩
theorem wrB_keepsGrants (a : Nat) (f : Fld) (b : Bool) (s : State) : KeepsGrants s (wrB a f b s) := ⟨rfl, rfl⟩
theorem satF_keepsGrants (a : Nat) (f : Fld) (n : Nat) (s : State) : KeepsGrants s (satF a f n s) := ⟨rfl, rfl⟩
theorem useFree_keepsGrants (n : Nat) (s : State) : KeepsGrants s (useFree n s) := ⟨rfl, rfl⟩
theorem setTouch_keepsGrants (d : Die) (x : Touch) (s : State) : KeepsGrants s (setTouch d x s) := ⟨rfl, rfl⟩
theorem askLeave_keepsGrants (d : Die) (k u : Nat) (j : Bool) (s : State) : KeepsGrants s (askLeave d k u j s) := ⟨rfl, rfl⟩
theorem dueIsland_keepsGrants (d : Die) (i : Nat) (s : State) : KeepsGrants s (dueIsland d i s) := by
  unfold dueIsland
  split <;> exact ⟨rfl, rfl⟩
theorem islTakes_keepsGrants (a : Nat) (s : State) : KeepsGrants s (islTakes a s) := ⟨rfl, rfl⟩
theorem rinlarCount_keepsGrants (d : Die) (i n : Nat) (s : State) : KeepsGrants s (rinlarCount d i n s) := ⟨rfl, rfl⟩

/-! ## Haptic channels -/

theorem setHap_keepsGrants (c : Nat) (x : HapChan) (s : State) : KeepsGrants s (setHap c x s) := ⟨rfl, rfl⟩

theorem refreshHap_keepsGrants (c : Nat) (s : State) : KeepsGrants s (refreshHap c s) := .of_regsOnly (refreshHap_regs c s)

theorem endPlay_keepsGrants (p : Option (Ticket × Nat)) (code us : Nat) (s : State) : KeepsGrants s (endPlay p code us s) := by
  unfold endPlay
  split
  · exact .rfl
  · exact finish_keepsGrants _ _ _ _

theorem postHap_keepsGrants (c typ pay : Nat) (b : Bool) (s : State) : KeepsGrants s (postHap c typ pay b s) := by
  unfold postHap
  extract_lets d e s1
  have h1 : KeepsGrants s s1 := .ite (postPf0_keepsGrants _ _ _ _ _) .rfl
  split
  · exact h1
  · exact .ite h1 (h1.trans (post_keepsGrants _ _ _))

theorem trip_keepsGrants (c code : Nat) (s : State) : KeepsGrants s (trip c code s) := by
  unfold trip
  exact .ite .rfl (((satF_keepsGrants _ _ _ _).trans (rinlarCount_keepsGrants _ _ _ _)).trans (postHap_keepsGrants _ _ _ _ _))

theorem beginRun_keepsGrants (c : Nat) (st : HapStart) (s : State) : KeepsGrants s (beginRun c st s) := (setHap_keepsGrants _ _ _).trans (refreshHap_keepsGrants _ _)

theorem startEffect_keepsGrants (c : Nat) (st : HapStart) (s : State) : KeepsGrants s (startEffect c st s).2 := by
  unfold startEffect
  extract_lets x policy
  split
  · exact .rfl
  split
  · exact (endPlay_keepsGrants _ _ _ _).trans (trip_keepsGrants _ _ _)
  split
  · exact beginRun_keepsGrants _ _ _
  split
  · exact .rfl
  split
  · exact (((setHap_keepsGrants _ _ _).trans (endPlay_keepsGrants _ _ _ _)).trans (trip_keepsGrants _ _ _)).trans (beginRun_keepsGrants _ _ _)
  split
  · exact (setHap_keepsGrants _ _ _).trans (refreshHap_keepsGrants _ _)
  · exact .rfl

theorem nextPlay_keepsGrants (c n : Nat) (s : State) : KeepsGrants s (nextPlay c n s) := by
  induction n generalizing s with
  | zero => exact .rfl
  | succ n ih =>
    unfold nextPlay
    extract_lets x
    split
    · exact .rfl
    · exact .ite .rfl (.ite .rfl (((setHap_keepsGrants _ _ _).trans (startEffect_keepsGrants _ _ _)).trans (ih _)))

theorem effectEnds_keepsGrants (c code : Nat) (s : State) : KeepsGrants s (effectEnds c code s) := by
  unfold effectEnds
  extract_lets x s1
  split
  · exact .rfl
  next r _ =>
  extract_lets src s2 src' s3
  have h1 : KeepsGrants s s1 := setHap_keepsGrants _ _ _
  have h2 : KeepsGrants s s2 := by
    refine h1.trans ?_
    unfold s2
    split
    · split
      · split
        · exact (endPlay_keepsGrants _ _ _ _).trans (trip_keepsGrants _ _ _)
        · exact .ite (endPlay_keepsGrants _ _ _ _) ((beginRun_keepsGrants _ _ _).trans (setHap_keepsGrants _ _ _))
      · exact endPlay_keepsGrants _ _ _ _
    · exact (endPlay_keepsGrants _ _ _ _).trans (trip_keepsGrants _ _ _)
  have h3 : KeepsGrants s s3 := by
    refine h2.trans ?_
    unfold s3
    split
    · exact .ite (startEffect_keepsGrants _ _ _) (setHap_keepsGrants _ _ _)
    · exact .rfl
  exact (h3.trans (nextPlay_keepsGrants _ _ _)).trans (refreshHap_keepsGrants _ _)

theorem brakeWith_keepsGrants (c code : Nat) (s : State) : KeepsGrants s (brakeWith c code s) := by
  unfold brakeWith
  extract_lets x
  split
  · exact .rfl
  · exact .ite (effectEnds_keepsGrants _ _ _) ((setHap_keepsGrants _ _ _).trans (refreshHap_keepsGrants _ _))

theorem dropLeave_keepsGrants (d : Die) (k u : Nat) (s : State) : KeepsGrants s (dropLeave d k u s) := ⟨rfl, rfl⟩

theorem gateIdle_keepsGrants (d : Die) (b : Nat) (s : State) : KeepsGrants s (gateIdle d b s) := .ite .rfl ⟨rfl, rfl⟩

theorem hapOff_keepsGrants (c : Nat) (s : State) : KeepsGrants s (hapOff c s) := by
  unfold hapOff
  extract_lets d n x src s1 s2 s3 s4 s5
  have h1 : KeepsGrants s s1 := (((setHap_keepsGrants _ _ _).trans (wrB_keepsGrants _ _ _ _)).trans (dropLeave_keepsGrants _ _ _ _)).trans (gateIdle_keepsGrants _ _ _)
  have h2 : KeepsGrants s s2 := h1.trans (by
    unfold s2
    split
    · exact finish_keepsGrants _ _ _ _
    · exact .rfl)
  have h3 : KeepsGrants s s3 := h2.trans (.foldl (fun t p => endPlay_keepsGrants _ _ _ t) _ _)
  have h4 : KeepsGrants s s4 := h3.trans (by
    unfold s4
    split
    · exact endPlay_keepsGrants _ _ _ _
    · exact .rfl)
  have h5 : KeepsGrants s s5 := h4.trans (by
    unfold s5
    split
    · exact finishAny_keepsGrants _ _ _ _
    · exact .rfl)
  exact h5.trans (refreshHap_keepsGrants _ _)

theorem stopChan_keepsGrants (c : Nat) (t : Option Ticket) (s : State) : KeepsGrants s (stopChan c t s).2 := by
  unfold stopChan
  extract_lets x s1 src
  split
  · exact .rfl
  split
  · exact hapOff_keepsGrants _ _
  have h1 : KeepsGrants s s1 := (setHap_keepsGrants _ _ _).trans (brakeWith_keepsGrants _ _ _)
  split
  · exact (h1.trans (setHap_keepsGrants _ _ _)).trans (hapOff_keepsGrants _ _)
  · exact h1

/-! ## Heads -/

theorem setHead_keepsGrants (h : Nat) (x : Head) (s : State) : KeepsGrants s (setHead h x s) := ⟨rfl, rfl⟩

theorem dropRaise_keepsGrants (d : Die) (k u : Nat) (s : State) : KeepsGrants s (dropRaise d k u s) := ⟨rfl, rfl⟩
theorem refreshStreams_keepsGrants (d : Die) (p : Nat) (s : State) : KeepsGrants s (refreshStreams d p s) := ⟨rfl, rfl⟩
theorem portIdle_keepsGrants (d : Die) (p : Nat) (s : State) : KeepsGrants s (portIdle d p s) := ⟨rfl, rfl⟩

theorem refreshRates_regs (d : Die) (s : State) : RegsOnly s (refreshRates d s) := by
  unfold refreshRates
  extract_lets pace p s1
  have h1 : RegsOnly s s1 := (((((((regsOnly_wr _ _ _).trans (regsOnly_wr _ _ _)).trans (regsOnly_wr _ _ _)).trans (regsOnly_wr _ _ _)).trans (regsOnly_wr _ _ _)).trans (regsOnly_wr _ _ _)).trans
    (regsOnly_wr _ _ _))
  exact h1.trans (foldl_regsOnly (fun t n => by
    split
    · exact regsOnly_wr _ _ _
    · exact .rfl) _ _)

theorem refreshFloor_regs (d : Die) (s : State) : RegsOnly s (refreshFloor d s) := by
  unfold refreshFloor
  exact (((regsOnly_wr _ _ _).trans (regsOnly_wr _ _ _)).trans (regsOnly_wr _ _ _)).trans (refreshRates_regs d _)

theorem refreshFloor_keepsGrants (d : Die) (s : State) : KeepsGrants s (refreshFloor d s) := .of_regsOnly (refreshFloor_regs d s)

theorem stopHead_keepsGrants (h : Nat) (s : State) : KeepsGrants s (stopHead h s) := by
  unfold stopHead
  extract_lets d n x p s1 s2 frame s3 y s4 s5 s6
  have h1 : KeepsGrants s s1 := by
    unfold s1
    split
    · exact finish_keepsGrants _ _ _ _
    · exact .rfl
  have h2 : KeepsGrants s s2 := h1.trans (by
    unfold s2
    split
    · exact postLast_keepsGrants _ _ _ _ _
    · exact .rfl)
  have h3 : KeepsGrants s s3 := h2.trans (.foldl (fun t k => finishPart_keepsGrants _ _ _ t) _ _)
  have h4 : KeepsGrants s s4 := h3.trans ((((((setHead_keepsGrants _ _ _).trans (wrB_keepsGrants _ _ _ _)).trans (wrB_keepsGrants _ _ _ _)).trans (wrB_keepsGrants _ _ _ _)).trans
    (wrB_keepsGrants _ _ _ _)).trans (dropRaise_keepsGrants _ _ _ _) |>.trans (refreshStreams_keepsGrants _ _ _))
  have h5 : KeepsGrants s s5 := h4.trans (.ite (portIdle_keepsGrants _ _ _) .rfl)
  have h6 : KeepsGrants s s6 := (h5.trans (gateIdle_keepsGrants _ _ _)).trans (refreshFloor_keepsGrants _ _)
  exact .ite h6 (h6.trans (gateIdle_keepsGrants _ _ _))

theorem disableHead_keepsGrants (h : Nat) (s : State) : KeepsGrants s (disableHead h s) := .ite (setHead_keepsGrants _ _ _) (.ite .rfl (stopHead_keepsGrants _ _))

/-! ## Touch units -/

theorem postTouch_keepsGrants (d : Die) (c : Contact) (ph : Nat) (s : State) : KeepsGrants s (postTouch d c ph s) := by
  unfold postTouch
  split
  · exact .ite (post_keepsGrants _ _ _) .rfl
  · exact .rfl

theorem releaseContact_keepsGrants (d : Die) (ph : Nat) (c : Contact) (s : State) : KeepsGrants s (releaseContact d ph c s) := by
  unfold releaseContact
  extract_lets s1
  have h1 : KeepsGrants s s1 := (postTouch_keepsGrants _ _ _ _).trans (setTouch_keepsGrants _ _ _)
  exact .ite ((h1.trans (postPf1_keepsGrants _ _ _ _ _)).trans (useFree_keepsGrants _ _)) h1

theorem loseContacts_keepsGrants (d : Die) (p : Nat → Bool) (s : State) : KeepsGrants s (loseContacts d p s) := .foldl (fun t _ => releaseContact_keepsGrants _ _ _ t) _ _

theorem refreshTouch_keepsGrants (d : Die) (s : State) : KeepsGrants s (refreshTouch d s) := .of_regsOnly (refreshTouch_regs d s)

theorem touchOff_keepsGrants (d : Die) (s : State) : KeepsGrants s (touchOff d s) := by
  unfold touchOff
  exact (((((loseContacts_keepsGrants _ _ _).trans (setTouch_keepsGrants _ _ _)).trans (wrB_keepsGrants _ _ _ _)).trans (dropLeave_keepsGrants _ _ _ _)).trans (gateIdle_keepsGrants _ _ _)).trans
    (refreshTouch_keepsGrants _ _)

/-! ## Votes (R118) -/

theorem dropVote_keepsGrants (d : Die) (b : Nat) (s : State) : KeepsGrants s (dropVote d b s) := by
  unfold dropVote
  split
  · exact .rfl
  · exact KeepsGrants.trans ⟨rfl, rfl⟩ (postLast_keepsGrants _ _ _ _ _)

theorem holdVote_keepsGrants (d : Die) (b : Nat) (t : Ticket) (desc : Desc) (s : State) : KeepsGrants s (holdVote d b t desc s).2 := by
  unfold holdVote
  exact (dropVote_keepsGrants _ _ _).trans ⟨rfl, rfl⟩

theorem powerRequest_keepsGrants (d : Die) (b : Nat) (t : Ticket) (desc : Desc) {act : State → Option (Nat × Nat) × State} (hact : ∀ u, KeepsGrants u (act u).2) (s : State) :
    KeepsGrants s (powerRequest d b t desc act s).2 := by
  unfold powerRequest
  split
  · exact holdVote_keepsGrants _ _ _ _ _
  · exact (dropVote_keepsGrants _ _ _).trans (hact _)

theorem carry_keepsGrants (d : Die) (n a : Nat) (v : Word) (s : State) : KeepsGrants s (carry d n a v s) := by
  unfold carry
  exact .ite ⟨rfl, rfl⟩ ⟨rfl, rfl⟩

theorem powerCluster_keepsGrants (d : Die) (c : Nat) (on : Bool) (s : State) : KeepsGrants s (powerCluster d c on s) := ⟨rfl, rfl⟩

theorem unitAction_keepsGrants (d : Die) (b act : Nat) (s : State) : KeepsGrants s (unitAction d b act s) := by
  unfold unitAction
  extract_lets s1
  have h1 : KeepsGrants s s1 := ⟨rfl, rfl⟩
  exact .ite h1 (.ite (.ite (h1.trans (powerCluster_keepsGrants _ _ _ _)) h1) (h1.trans ⟨rfl, rfl⟩))

theorem headDisable_keepsGrants (t : Ticket) (d : Desc) (s : State) : KeepsGrants s (opHeadDisable.work t d s).2 := by
  unfold opHeadDisable mkOp
  dsimp only
  split
  · exact holdVote_keepsGrants _ _ _ _ _
  · exact powerRequest_keepsGrants _ _ _ _ (fun u => disableHead_keepsGrants _ u) _

theorem audioPort_keepsGrants (t : Ticket) (d : Desc) (s : State) : KeepsGrants s (opAudioPort.work t d s).2 := by
  unfold opAudioPort OpSpec.crossing mkOp
  dsimp only
  split
  · split
    · exact holdVote_keepsGrants _ _ _ _ _
    · exact (carry_keepsGrants _ _ _ _ _).trans ⟨rfl, rfl⟩
  · have h1 := carry_keepsGrants .a (0x6A + 4 * dget d 8 0 2) (AUDIO_TDM_CFG .a (dget d 8 0 2)) (tdmWord d) s
    exact .ite (h1.trans ⟨rfl, rfl⟩) h1

theorem hapticChannel_keepsGrants (t : Ticket) (d : Desc) (s : State) : KeepsGrants s (opHapticChannel.work t d s).2 := by
  unfold opHapticChannel mkOp
  dsimp only
  split
  · exact powerRequest_keepsGrants _ _ _ _ (fun u => stopChan_keepsGrants _ _ u) _
  · exact (((((((wr_keepsGrants _ _ _).trans (wr_keepsGrants _ _ _)).trans (islTakes_keepsGrants _ _)).trans (islTakes_keepsGrants _ _)).trans (setHap_keepsGrants _ _ _)).trans
      (askLeave_keepsGrants _ _ _ _ _)).trans (dueIsland_keepsGrants _ _ _)).trans (refreshHap_keepsGrants _ _)

theorem touchUnit_keepsGrants (t : Ticket) (d : Desc) (s : State) : KeepsGrants s (opTouchUnit.work t d s).2 := by
  unfold opTouchUnit mkOp
  dsimp only
  split
  · exact powerRequest_keepsGrants _ _ _ _ (fun u => .ite (touchOff_keepsGrants _ _) .rfl) _
  · exact ((((dropVote_keepsGrants _ _ _).trans (setTouch_keepsGrants _ _ _)).trans (askLeave_keepsGrants _ _ _ _ _)).trans (dueIsland_keepsGrants _ _ _)).trans (refreshTouch_keepsGrants _ _)

theorem unitPower_keepsGrants (t : Ticket) (d : Desc) (s : State) : KeepsGrants s (opUnitPower.work t d s).2 := by
  unfold opUnitPower mkOp
  dsimp only
  split
  · exact holdVote_keepsGrants _ _ _ _ _
  · exact (dropVote_keepsGrants _ _ _).trans (unitAction_keepsGrants _ _ _ _)

theorem voteOp_keepsGrants {opcode : Nat} {o : OpSpec} (h : voteOp opcode = some o) (t : Ticket) (d : Desc) (s : State) : KeepsGrants s (o.work t d s).2 := by
  have hm := List.mem_of_find?_eq_some h
  simp only [List.mem_cons, List.not_mem_nil, or_false] at hm
  rcases hm with rfl | rfl | rfl | rfl | rfl
  · exact headDisable_keepsGrants t d s
  · exact audioPort_keepsGrants t d s
  · exact hapticChannel_keepsGrants t d s
  · exact touchUnit_keepsGrants t d s
  · exact unitPower_keepsGrants t d s

theorem carryUnitVote_keepsGrants (d : Die) (bit : Nat) (s : State) : KeepsGrants s (carryUnitVote d bit s) := by
  unfold carryUnitVote
  split
  · exact .rfl
  split
  · exact .rfl
  extract_lets s0
  have h0 : KeepsGrants s s0 := ⟨rfl, rfl⟩
  split
  · exact h0
  next o ho =>
  split
  · exact h0.trans (postLater_keepsGrants _ _ _ _ _)
  · next v _ _ _ _ _ =>
    have hw := voteOp_keepsGrants ho v.ticket v.desc s0
    split
    · next hm =>
      rw [hm] at hw
      exact (h0.trans hw).trans ⟨rfl, rfl⟩
    · next hm =>
      rw [hm] at hw
      exact .ite (h0.trans hw) ((h0.trans hw).trans (postLater_keepsGrants _ _ _ _ _))

end Sys2Proof.Machine
end

section
/-! Changes of routes at their effect points (O21; R89). -/
namespace Sys2Proof.Machine

/-! ## The vote on the device state -/

theorem setARoute_keepsGrants (h : Nat) (x : AudioRoute) (s : State) : KeepsGrants s (setARoute h x s) := ⟨rfl, rfl⟩

theorem setEnv_keepsGrants (h : Nat) (up : Bool) (s : State) : KeepsGrants s (setEnv h up s) := by
  unfold setEnv
  split
  · exact .rfl
  · exact setARoute_keepsGrants _ _ _

theorem setJob_keepsGrants (d : Die) (j : Job) (s : State) : KeepsGrants s (setJob d j s) := ⟨rfl, rfl⟩

theorem askJob_keepsGrants (d : Die) (tr : Nat) (cs : List Nat) (s : State) (j : Job) : KeepsGrants s (askJob d tr cs s j) := by
  unfold askJob
  split
  · exact .rfl
  · exact .ite .rfl (setJob_keepsGrants _ _ _)

theorem refreshFailover_keepsGrants (d : Die) (s : State) : KeepsGrants s (refreshFailover d s) := ⟨rfl, rfl⟩

theorem beginEntry_keepsGrants (g : Die) (what : Nat) (s : State) : KeepsGrants s (beginEntry g what s) := by
  unfold beginEntry
  extract_lets ds s1 s2 s3 s4
  have h1 : KeepsGrants s s1 := .foldl (fun t d => wrF_keepsGrants _ _ _ t) _ _
  have h2 : KeepsGrants s s2 := h1.trans (.foldl (fun t d => .foldl (fun u j => askJob_keepsGrants _ _ _ u j) _ t) _ _)
  have h3 : KeepsGrants s s3 := .ite (h2.trans (.foldl (fun t x => setEnv_keepsGrants _ _ t) _ _)) h2
  have h4 : KeepsGrants s s4 := h3.trans (.foldl (fun t c => by
    refine KeepsGrants.trans ?_ (brakeWith_keepsGrants _ _ _)
    split
    · exact (setHap_keepsGrants _ _ _).trans (endPlay_keepsGrants _ _ _ _)
    · exact .rfl) _ _)
  exact h4.trans (.foldl (fun t d => ((loseContacts_keepsGrants _ _ _).trans (refreshTouch_keepsGrants _ _)).trans (refreshFailover_keepsGrants _ _)) _ _)

theorem tryEntry_keepsGrants (g : Die) (s : State) : KeepsGrants s (tryEntry g s) := by
  unfold tryEntry
  split
  · exact .rfl
  · exact .ite .rfl (beginEntry_keepsGrants _ _ _)

theorem setVoteBit_keepsGrants (d : Die) (b : Nat) (on : Bool) (s : State) : KeepsGrants s (setVoteBit d b on s) := ⟨rfl, rfl⟩

theorem markDeviceVote_keepsGrants (g : Die) (on : Bool) (s : State) : KeepsGrants s (markDeviceVote g on s) :=
  .foldl (fun _ _ => (setVoteBit_keepsGrants _ _ _ _).trans (wrB_keepsGrants _ _ _ _)) _ _

theorem setPower_keepsGrants (d : Die) (x : Power) (s : State) : KeepsGrants s (setPower d x s) := ⟨rfl, rfl⟩

theorem carryDeviceVote_keepsGrants (g : Die) (s : State) : KeepsGrants s (carryDeviceVote g s) := by
  unfold carryDeviceVote
  split
  · exact .rfl
  next v _ =>
  have h0 : KeepsGrants s { s with votes := tkeep (fun k => k != unitKey g bitDevice) s.votes } := ⟨rfl, rfl⟩
  exact .ite .rfl (((h0.trans (markDeviceVote_keepsGrants _ _ _)).trans (setPower_keepsGrants _ _ _)).trans (tryEntry_keepsGrants _ _))

theorem carryVote_keepsGrants (d : Die) (bit : Nat) (s : State) : KeepsGrants s (carryVote d bit s) := by
  unfold carryVote
  exact (carryUnitVote_keepsGrants _ _ _).trans (carryDeviceVote_keepsGrants _ _)

/-! ## Layers -/

theorem refreshLayer_keepsGrants (h l : Nat) (s : State) : KeepsGrants s (refreshLayer h l s) := by
  unfold refreshLayer
  extract_lets a y on hd cls
  exact ((((wrB_keepsGrants _ _ _ _).trans (wrB_keepsGrants _ _ _ _)).trans (wrB_keepsGrants _ _ _ _)).trans (wrF_keepsGrants _ _ _ _)).trans (wrF_keepsGrants _ _ _ _)

theorem setLayer_keepsGrants (h l : Nat) (y : Layer) (s : State) : KeepsGrants s (setLayer h l y s) := ⟨rfl, rfl⟩

theorem fetchLayer_keepsGrants (h k frame : Nat) (x : FtLine × State) (l : Nat) : KeepsGrants x.2 (fetchLayer h k frame x l).2 := by
  obtain ⟨h1, h2, -⟩ := fetchLayer_fed (h := h) k frame x l
  exact ⟨h1, h2⟩

theorem relayAhead_keepsGrants (h l : Nat) (s : State) : KeepsGrants s (relayAhead h l s) :=
  .foldl (fun t (z : Nat × FtLine) => (fetchLayer_keepsGrants h z.1 (z.2.without l).frame ({ z.2.without l with parts := [], waits := [] }, t) l).trans (setHead_keepsGrants _ _ _)) _ _

theorem moveLayer_keepsGrants (h hd l hd' l' : Nat) (s : State) : KeepsGrants s (moveLayer h hd l hd' l' s) := by
  unfold moveLayer
  exact .ite (relayAhead_keepsGrants _ _ _) ((((((setLayer_keepsGrants _ _ _ _).trans (refreshLayer_keepsGrants _ _ _)).trans (relayAhead_keepsGrants _ _ _)).trans
    (setLayer_keepsGrants _ _ _ _)).trans (refreshLayer_keepsGrants _ _ _)).trans (relayAhead_keepsGrants _ _ _))

theorem recomposeHead_keepsGrants (hd : Nat) (s : State) : KeepsGrants s (recomposeHead hd s) := .ite (setHead_keepsGrants _ _ _) .rfl

/-! ## Cameras, haptic triggers and checks -/

theorem refreshCamera_keepsGrants (d : Die) (s : State) : KeepsGrants s (refreshCamera d s) := by
  unfold refreshCamera
  extract_lets used ins bits span live
  exact (((wrF_keepsGrants _ _ _ _).trans (wrF_keepsGrants _ _ _ _)).trans (wrF_keepsGrants _ _ _ _)).trans (wrF_keepsGrants _ _ _ _)

theorem refreshHtrig_keepsGrants (d : Die) (s : State) : KeepsGrants s (refreshHtrig d s) := wrF_keepsGrants _ _ _ _

theorem trigGone_keepsGrants (r : Route) (s : State) : KeepsGrants s (trigGone r s) :=
  ((setHap_keepsGrants _ _ _).trans (refreshHtrig_keepsGrants _ _)).trans (refreshHap_keepsGrants _ _)

theorem trigBegins_keepsGrants (h : Nat) (r : Route) (s : State) : KeepsGrants s (trigBegins h r s) :=
  ((setHap_keepsGrants _ _ _).trans (refreshHtrig_keepsGrants _ _)).trans (refreshHap_keepsGrants _ _)

theorem setCheck_keepsGrants (d : Die) (x : Checks) (s : State) : KeepsGrants s (setCheck d x s) := ⟨rfl, rfl⟩

theorem refreshChecks_keepsGrants (d : Die) (s : State) : KeepsGrants s (refreshChecks d s) :=
  (wrB_keepsGrants _ _ _ _).trans (.foldl (fun _ _ => ((wrB_keepsGrants _ _ _ _).trans (wrF_keepsGrants _ _ _ _)).trans (wrF_keepsGrants _ _ _ _)) _ _)

theorem checkGone_keepsGrants (h : Nat) (r : Route) (s : State) : KeepsGrants s (checkGone h r s) := (setCheck_keepsGrants _ _ _).trans (refreshChecks_keepsGrants _ _)

theorem checkBegins_keepsGrants (h : Nat) (r : Route) (s : State) : KeepsGrants s (checkBegins h r s) := (setCheck_keepsGrants _ _ _).trans (refreshChecks_keepsGrants _ _)

/-! ## Audio routes -/

theorem dmaWrite_keepsGrants (d : Die) (f : Fun) (ring va : Nat) (bs : List Byte) (s : State) : KeepsGrants s (dmaWrite d f ring va bs s).2 := by
  have hraw : KeepsGrants s (dmaWriteRaw d f va bs s).2 := .of_posted (posts_dmaWriteRaw (ok := False) d f va bs s).fields
  unfold dmaWrite
  split
  · next hm =>
    rw [hm] at hraw
    exact hraw.trans (.of_posted (posts_faultSeen (ok := False) False.elim _ _ _ _ _).fields)
  · exact hraw

theorem audioGone_keepsGrants (h : Nat) (r : Route) (s : State) : KeepsGrants s (audioGone h r s) := by
  unfold audioGone
  extract_lets x a s1
  have h1 : KeepsGrants s s1 := ⟨rfl, rfl⟩
  refine h1.trans (.foldl (fun t b => ?_) _ _)
  split
  · extract_lets n
    have hw := dmaWrite_keepsGrants .a r.grantee b.ticket.ring.ring (dget b.desc 8 0 64 + b.frames * frameBytes r) (List.replicate (n * frameBytes r) 0) t
    split
    next hm =>
    rw [hm] at hw
    refine hw.trans ?_
    split <;> exact finish_keepsGrants _ _ _ _
  · exact finish_keepsGrants _ _ _ _

theorem aimGain_keepsGrants (h : Nat) (m : Bool) (g : Int) (s : State) : KeepsGrants s (aimGain h m g s) := ⟨rfl, rfl⟩

theorem audioBegins_keepsGrants (h : Nat) (r : Route) (s : State) : KeepsGrants s (audioBegins h r s) := (setARoute_keepsGrants _ _ _).trans (setEnv_keepsGrants _ _ _)

/-! ## A route begins -/

theorem setPowered_keepsGrants (d : Die) (b : Nat) (on : Bool) (s : State) : KeepsGrants s (setPowered d b on s) := ⟨rfl, rfl⟩

theorem routeBegins_keepsGrants (h : Nat) (r : Route) (s : State) : KeepsGrants s (routeBegins h r s) := by
  unfold routeBegins
  split
  · exact (setLayer_keepsGrants _ _ _ _).trans (refreshLayer_keepsGrants _ _ _)
  · extract_lets src s1 s2
    have h1 : KeepsGrants s s1 := .ite ((setLayer_keepsGrants _ _ _ _).trans (refreshLayer_keepsGrants _ _ _)) .rfl
    have h2 : KeepsGrants s s2 := .ite (h1.trans (setPowered_keepsGrants _ _ _ _)) h1
    exact h2.trans (refreshCamera_keepsGrants _ _)
  · exact audioBegins_keepsGrants _ _ _
  · exact refreshTouch_keepsGrants _ _
  · exact refreshHap_keepsGrants _ _
  · exact trigBegins_keepsGrants _ _ _
  · exact checkBegins_keepsGrants _ _ _
  · exact .rfl

/-! ## A deletion takes effect -/

/-- No live route has the handle. -/
def Unrouted (h : Nat) (s : State) : Prop := s.route h = none

theorem route_of_keepsGrants {s t : State} (hk : KeepsGrants s t) (h : Nat) : t.route h = s.route h := congrArg (tfind h) hk.1

theorem Unrouted.kept {h : Nat} {s t : State} (hu : Unrouted h s) (hk : KeepsGrants s t) : Unrouted h t := (route_of_keepsGrants hk h).trans hu

/-- The route leaves the table. -/
def routeDropped (h : Nat) (s : State) : State := { s with routes := tkeep (fun k => k != h) s.routes }

theorem routeDropped_unrouted (h : Nat) (s : State) : Unrouted h (routeDropped h s) := by
  unfold Unrouted routeDropped State.route
  rw [tfind_tkeep]
  exact if_neg (by simp)

theorem garnetUse_keepsGrants (d : Die) (bit : Nat) (b : Bool) (s : State) : KeepsGrants s (garnetUse d bit b s) := ⟨rfl, rfl⟩

theorem sRouteGoes_keepsGrants (d : Die) (s : State) : KeepsGrants s (sRouteGoes d s) := by
  unfold sRouteGoes cacheFlush
  exact .ite .rfl (.ite ⟨rfl, rfl⟩ .rfl)

/-- What is left to do for a route of a kind once its layer is gone. -/
def kindGone (h : Nat) (r : Route) (s0 : State) : State :=
  match r.kind with
  | 1 => s0 |> routeDropped h |> refreshLayer (epUnit r.sink) (epSub r.sink)
  | 2 =>
    let e := camRouteDie r
    s0 |> cameraGone h r |> routeDropped h |> refreshCamera e |> refreshFloor e
       |> (fun t => if isWarpRoute r ∧ t.routes.any (fun x => isWarpRoute x.2 && camRouteDie x.2 == e) = false then t |> scrub e bitWarp r.grantee |> gateIdle e bitWarp else t)
  | 3 => s0 |> routeDropped h |> audioGone h r |> refreshFloor .a
  | 4 => s0 |> routeDropped h |> refreshTouch (routeDie r)
  | 5 => s0 |> routeDropped h |> hapScrub (epUnit r.source) r.grantee
  | 6 => s0 |> routeDropped h |> trigGone r
  | 7 => s0 |> routeDropped h |> checkGone h r
  | _ => s0 |> removeWindow (handleDie h) h |> routeDropped h

theorem kindGone_unrouted (h : Nat) (r : Route) (s : State) : Unrouted h (kindGone h r s) := by
  unfold kindGone
  split
  · exact (routeDropped_unrouted h s).kept (refreshLayer_keepsGrants _ _ _)
  · extract_lets e
    have h1 := ((routeDropped_unrouted h (cameraGone h r s)).kept (refreshCamera_keepsGrants e _)).kept (refreshFloor_keepsGrants e _)
    exact h1.kept (.ite ((scrub_keepsGrants _ _ _ _).trans (gateIdle_keepsGrants _ _ _)) .rfl)
  · exact ((routeDropped_unrouted h s).kept (audioGone_keepsGrants _ _ _)).kept (refreshFloor_keepsGrants _ _)
  · exact (routeDropped_unrouted h s).kept (refreshTouch_keepsGrants _ _)
  · exact (routeDropped_unrouted h s).kept (hapScrub_keepsGrants _ _ _)
  · exact (routeDropped_unrouted h s).kept (trigGone_keepsGrants _ _)
  · exact (routeDropped_unrouted h s).kept (checkGone_keepsGrants _ _ _)
  · exact routeDropped_unrouted _ _

/-- The units that a Garnet route claims, or a window's head and its composer. -/
def routeClaims (s : State) (h : Nat) (r : Route) : List (Die × Nat) :=
  if r.kind = 8 then [(handleDie h, bitHead (epUnit r.sink % 4)), (handleDie h, bitComposer)] else garnetUnits s r

/-- The claims of a route that is gone end, and what they held is carried out. -/
def claimsEnd (h : Nat) (r : Route) (claims : List (Die × Nat)) (s1 : State) : State :=
  let s2 := if r.kind = 8 then s1 else claims.foldl (fun t k => garnetUse k.1 k.2 false t) s1
  claims.foldl (fun t k => carryVote k.1 k.2 t) (if r.cls = 0 then sRouteGoes (handleDie h) s2 else s2)

theorem claimsEnd_keepsGrants (h : Nat) (r : Route) (claims : List (Die × Nat)) (s : State) : KeepsGrants s (claimsEnd h r claims s) := by
  unfold claimsEnd
  extract_lets s2
  have h2 : KeepsGrants s s2 := .ite .rfl (.foldl (fun t k => garnetUse_keepsGrants _ _ _ t) _ _)
  exact (KeepsGrants.ite (h2.trans (sRouteGoes_keepsGrants _ _)) h2).trans (.foldl (fun t k => carryVote_keepsGrants _ _ t) _ _)

theorem routeGone_eq {h : Nat} {r : Route} {s : State} (hr : s.route h = some r) : routeGone h s =
    claimsEnd h r (routeClaims s h r) (kindGone h r (if epType r.sink = 0x01 ∧ r.kind ≠ 8 then layerGone (epUnit r.sink) (epSub r.sink) s else s)) := by
  unfold routeGone
  rw [hr]
  rfl

theorem routeGone_unrouted {h : Nat} {r : Route} {s : State} (hr : s.route h = some r) : Unrouted h (routeGone h s) := by
  rw [routeGone_eq hr]
  exact (kindGone_unrouted _ _ _).kept (claimsEnd_keepsGrants _ _ _ _)

/-! ## A modification takes effect -/

/-- The route stands changed in the table. -/
def routePut (h : Nat) (r : Route) (s : State) : State := { s with routes := tset h r s.routes }

/-- The live route of the handle. -/
def Routed (h : Nat) (r : Route) (s : State) : Prop := s.route h = some r

theorem routePut_routed (h : Nat) (r : Route) (s : State) : Routed h r (routePut h r s) := tfind_tset_same _ _ _

theorem Routed.kept {h : Nat} {r : Route} {s t : State} (hu : Routed h r s) (hk : KeepsGrants s t) : Routed h r t := (route_of_keepsGrants hk h).trans hu

theorem routeModified_routed (h : Nat) (r : Route) (c : RouteChange) (s : State) : Routed h { r with sink := c.sink, params := c.params, change := none } (routeModified h r c s) := by
  unfold routeModified
  extract_lets r1 put
  have hput : ∀ t, Routed h r1 (put t) := fun t => routePut_routed h r1 t
  split
  · exact ((((hput s).kept (moveLayer_keepsGrants _ _ _ _ _ _)).kept (refreshLayer_keepsGrants _ _ _)).kept (recomposeHead_keepsGrants _ _)).kept (recomposeHead_keepsGrants _ _)
  · exact ((hput _).kept (routeBegins_keepsGrants _ _ _)).kept (refreshFloor_keepsGrants _ _)
  · have h1 := (hput s).kept (aimGain_keepsGrants h (s.aroute h).mute (aGain r1) _)
    split
    · exact h1
    · exact (h1.kept (setARoute_keepsGrants _ _ _)).kept (refreshFloor_keepsGrants _ _)
  · exact (hput s).kept (refreshTouch_keepsGrants _ _)
  · exact (hput s).kept (refreshHap_keepsGrants _ _)
  · exact ((hput s).kept (trigGone_keepsGrants _ _)).kept (trigBegins_keepsGrants _ _ _)
  · exact ((hput s).kept (checkGone_keepsGrants _ _ _)).kept (checkBegins_keepsGrants _ _ _)
  · exact hput s

/-! ## The effect point -/

/-- The change has taken effect, before it is reported. -/
def changeMade (h : Nat) (r : Route) (c : RouteChange) (s : State) : State := if c.delete then routeGone h s else routeModified h r c s

/-- The report of a change. -/
def changeReport (c : RouteChange) : State → State :=
  match c.ticket with
  | some k => postLast k 2 stOk 0
  | none => id

theorem changeReport_apply (c : RouteChange) (s : State) : changeReport c s = match c.ticket with
    | some k => postLast k 2 stOk 0 s
    | none => s := by
  unfold changeReport
  cases c.ticket <;> rfl

theorem changeReport_keepsGrants (c : RouteChange) (s : State) : KeepsGrants s (changeReport c s) := by
  rw [changeReport_apply]
  split
  · exact postLast_keepsGrants _ _ _ _ _
  · exact .rfl

section
variable {h : Nat} {r : Route} {c : RouteChange} {s : State} (hr : s.route h = some r) (hc : r.change = some c)
include hr

theorem changeMade_route : (changeMade h r c s).route h = if c.delete then none else some { r with sink := c.sink, params := c.params, change := none } := by
  unfold changeMade
  split
  · exact routeGone_unrouted hr
  · exact routeModified_routed h r c s

theorem changeDue_waits (he : effectNow s h r = false) : changeDue h s = s := by
  unfold changeDue
  rw [hr]
  exact if_neg fun hk => Bool.false_ne_true (he.symm.trans hk.2)

include hc

theorem changeDue_effect (he : effectNow s h r = true) : changeDue h s = changeReport c (changeMade h r c s) := by
  unfold changeDue
  rw [hr]
  dsimp only
  rw [if_pos ⟨by rw [hc]; rfl, he⟩]
  unfold changeEffect
  rw [hr]
  dsimp only
  rw [hc, changeReport_apply]
  rfl

end

/-- Settles O21: every unit's part in a deletion or a modification keeps the table of routes, so the route itself is gone or changed once its effect point has come. -/
theorem routeChangeTakesEffectAtItsPoint : Obligations.RouteChangeTakesEffectAtItsPoint := by
  unfold Obligations.RouteChangeTakesEffectAtItsPoint
  intro h r c s hr hc
  have hfresh : effectNow (fresh s) h r = effectNow s h r := rfl
  refine ⟨fun he => ?_, fun he => ?_, fun hk => ?_, fun hk => ?_, fun hk => ?_, fun hk => ?_, fun hk => ?_⟩
  · have hgo := changeDue_effect (s := fresh s) hr hc (hfresh.trans he)
    refine ⟨_, rfl, rfl, ?_, ran_congr hgo⟩
    have hroute : (ran (changeDue h) s).route h = (changeDue h (fresh s)).route h := rfl
    rw [hroute, hgo, route_of_keepsGrants (changeReport_keepsGrants c _)]
    exact changeMade_route (s := fresh s) hr
  · exact congrArg Host.Outcome.next (ran_same (changeDue_waits (s := fresh s) hr (hfresh.trans he)))
  all_goals
    unfold effectNow
    rw [hk]
  · rfl
  · rfl
  · rfl
  · rw [hc]
    rfl
  · rfl

end Sys2Proof.Machine
end

section
/-! Function-level resets (O27; R99, R100). -/
namespace Sys2Proof.Machine

/-! ## The ring registers of a function -/

theorem resetWord_ringReg (p : Part) {a : Nat} (hlo : 0x300000 ≤ addrOff a) (hhi : addrOff a < 0x400000) : resetWord p a = 0 := by
  have hrows : blockRows (addrOff a) = rowsRings := by
    unfold blockRows
    rw [if_neg (by omega), if_neg (by omega), if_neg (by omega), if_pos hhi]
  unfold resetWord
  split
  · rfl
  next r hr =>
  have hmem : r ∈ rowsRings := by
    unfold findRow at hr
    rw [hrows] at hr
    exact List.mem_of_find?_eq_some hr
  obtain ⟨hrst, h1, h2⟩ : r.rst = 0 ∧ 0x310000 ≤ r.off ∧ r.off < 0x400000 :=
    (by decide : ∀ r ∈ rowsRings, r.rst = 0 ∧ 0x310000 ≤ r.off ∧ r.off < 0x400000) r hmem
  have hsp : specialReset p (addrDie a) r (addrOff a) = 0 := by
    unfold specialReset
    simp only [show r.off ≠ 0x0 by omega, show r.off ≠ 0x4 by omega, show r.off ≠ 0x8 by omega, show r.off ≠ 0x14 by omega, show r.off ≠ 0x18 by omega, show r.off ≠ 0x201000 by omega,
      show r.off ≠ 0x400018 by omega, show r.off ≠ 0x1800000 by omega, show r.off ≠ 0x1800100 by omega, show r.off ≠ 0x2001000 by omega, show r.off ≠ 0x2001004 by omega,
      show r.off ≠ 0x208000 by omega, show r.off ≠ 0x208100 by omega, if_false]
  rw [hrst, hsp]
  rfl

section
variable {f : Fun} (hf : f.fn ≤ 31 ∨ f.fn = 63)
include hf

theorem slot_le : f.slot ≤ 31 := by
  unfold Fun.slot
  split <;> omega

omit hf in
theorem addrOff_fnSpace {n : Nat} (h : n < 0x4000000) : addrOff (fnSpace f + n) = n := by
  unfold addrOff fnSpace
  omega

omit hf in
theorem ringBlock_eq : ringBlock f = fnSpace f + (0x310000 + 0x800 * f.slot) := by
  unfold ringBlock RING_CFG fnSpace
  generalize (if f.fn = 63 then 2 else 0) = k
  dsimp only
  omega

omit hf in
theorem rd_clearRings (s : State) (a : Nat) : (clearRings f s).rd a = if a < ringBlock f ∨ ringBlock f + 0x400 ≤ a then s.rd a else resetWord s.part a := by
  have h := tget_tkeep (resetWord s.part a) (fun k => decide (k < ringBlock f ∨ ringBlock f + 0x400 ≤ k)) a s.regs
  simp only [decide_eq_true_eq] at h
  exact h

theorem ringOn_clearRings {n : Nat} (hn : n < 16) (s : State) : ringOn (clearRings f s) ⟨f, n⟩ = false := by
  have hs := slot_le hf
  have hoff : addrOff (RING_CFG ⟨f, n⟩) = 0x310008 + 0x800 * f.slot + 0x40 * n := by
    unfold RING_CFG
    dsimp only
    rw [Nat.add_assoc, Nat.add_assoc, addrOff_fnSpace (by omega)]
    omega
  have hin : ¬(RING_CFG ⟨f, n⟩ < ringBlock f ∨ ringBlock f + 0x400 ≤ RING_CFG ⟨f, n⟩) := by
    rw [ringBlock_eq]
    unfold RING_CFG
    dsimp only
    omega
  unfold ringOn State.rdF
  rw [rd_clearRings, if_neg hin, resetWord_ringReg _ (by omega) (by omega)]
  rfl

theorem rd_clearRings_other {a : Nat} (ha : postReg a = false) (s : State) : (clearRings f s).rd a = s.rd a := by
  have hs := slot_le hf
  have hpost : ¬(0x310000 ≤ addrOff a ∧ addrOff a < 0x402000) := of_decide_eq_false ha
  rw [rd_clearRings, ringBlock_eq]
  refine if_pos (Classical.byContradiction fun hin => hpost ?_)
  obtain ⟨k, rfl⟩ : ∃ k, a = fnSpace f + k := ⟨a - fnSpace f, by omega⟩
  rw [addrOff_fnSpace (by omega)]
  omega

end

/-! ## What the rings hold is dropped -/

theorem ringAux_setRing_empty {q : RingId} {s : State} (p : RingId) (h : s.ringAux q = RingAux.empty) : (setRing p RingAux.empty s).ringAux q = RingAux.empty := by
  unfold State.ringAux setRing at *
  by_cases hk : q.key = p.key
  · rw [hk]
    exact tget_tset_same _ _ _ _
  · exact (tget_tset_ne _ hk _ _).trans h

/-- The rings' own state starts anew. -/
def emptyRings (qs : List RingId) (s : State) : State := qs.foldl (fun t q => setRing q RingAux.empty t) s

theorem emptyRings_only (qs : List RingId) (s : State) : Only (fun u => { u with rings := [] }) s (emptyRings qs s) :=
  List.foldlRecOn qs _ Only.rfl fun _ h _ _ => Only.trans h rfl

theorem ringAux_emptyRings {q : RingId} {qs : List RingId} (hq : q ∈ qs) (s : State) : (emptyRings qs s).ringAux q = RingAux.empty := by
  unfold emptyRings
  induction qs generalizing s with
  | nil => cases hq
  | cons p qs ih =>
    by_cases h : q ∈ qs
    · exact ih h _
    · obtain rfl : q = p := (List.mem_cons.1 hq).resolve_right h
      exact List.foldlRecOn (motive := fun t : State => t.ringAux q = RingAux.empty) qs _ (ringAux_setRing_same _ _ _) fun t ht x _ => ringAux_setRing_empty x ht

/-- Nothing is owed to the function's rings. -/
def owedDropped (f : Fun) (s : State) : State := { s with owed := s.owed.filter (fun t => t.ring.fn != f) }

theorem dropRings_eq (f : Fun) (s : State) : dropRings f s = emptyRings (ringsOf f) (owedDropped f s) := rfl

theorem dropRings_only (f : Fun) (s : State) : Only (fun u => { u with rings := [], owed := [] }) s (dropRings f s) := by
  rw [dropRings_eq]
  exact congrArg (fun u => { u with owed := [] }) (emptyRings_only (ringsOf f) (owedDropped f s))

theorem ringAux_dropRings {f : Fun} {n : Nat} (hn : n < 16) (s : State) : (dropRings f s).ringAux ⟨f, n⟩ = RingAux.empty :=
  ringAux_emptyRings (List.mem_map.2 ⟨n, mem_upto hn, rfl⟩) _

theorem owed_dropRings {f : Fun} {s : State} {tk : Ticket} (h : tk ∈ (dropRings f s).owed) : tk.ring.fn ≠ f := by
  have ho : (dropRings f s).owed = (owedDropped f s).owed := (congrArg State.owed (emptyRings_only (ringsOf f) (owedDropped f s)) :)
  rw [ho] at h
  exact bne_iff_ne.1 (List.mem_filter.1 h).2

/-! ## The units of a function stop -/

theorem setGpu_keepsGrants (d : Die) (x : Gpu) (s : State) : KeepsGrants s (setGpu d x s) := ⟨rfl, rfl⟩
theorem setCapture_keepsGrants (h : Nat) (x : Capture) (s : State) : KeepsGrants s (setCapture h x s) := ⟨rfl, rfl⟩
theorem setWarp_keepsGrants (d : Die) (x : Warp) (s : State) : KeepsGrants s (setWarp d x s) := ⟨rfl, rfl⟩

theorem pcAdd_keepsGrants (d : Die) (i n : Nat) (s : State) : KeepsGrants s (pcAdd d i n s) := .ite .rfl (wr_keepsGrants _ _ _)

theorem account_keepsGrants (d : Die) (s : State) : KeepsGrants s (account d s) := by
  unfold account
  extract_lets g dt use s1
  have h1 : KeepsGrants s s1 := setGpu_keepsGrants _ _ _
  exact h1.trans (.foldl (fun t c => .ite ((setGpu_keepsGrants _ _ _).trans (pcAdd_keepsGrants _ _ _ _)) .rfl) _ _)

theorem refreshGpu_keepsGrants (d : Die) (s : State) : KeepsGrants s (refreshGpu d s) := by
  unfold refreshGpu
  extract_lets js busy s1 s2
  have h1 : KeepsGrants s s1 := (wrF_keepsGrants _ _ _ _).trans (wrF_keepsGrants _ _ _ _)
  have h2 : KeepsGrants s s2 := h1.trans (.foldl (fun t c => by
    extract_lets a
    split
    · exact (((((wrF_keepsGrants _ _ _ _).trans (wrF_keepsGrants _ _ _ _)).trans (wrF_keepsGrants _ _ _ _)).trans (wrF_keepsGrants _ _ _ _)).trans (wrF_keepsGrants _ _ _ _)).trans (useFree_keepsGrants _ _)
    · exact ((((wrF_keepsGrants _ _ _ _).trans (wrF_keepsGrants _ _ _ _)).trans (wrF_keepsGrants _ _ _ _)).trans (wrF_keepsGrants _ _ _ _)).trans (wrF_keepsGrants _ _ _ _)) _ _)
  exact h2.trans (.foldl (fun t i => .ite .rfl (wrF_keepsGrants _ _ _ _)) _ _)

theorem dropJobs_keepsGrants (f : Fun) (s : State) : KeepsGrants s (dropJobs f s).2 :=
  List.foldlRecOn (motive := fun x : Nat × State => KeepsGrants s x.2) [Die.a, Die.b] _ .rfl fun _ h _ _ =>
    ((h.trans (account_keepsGrants _ _)).trans (setGpu_keepsGrants _ _ _)).trans (refreshGpu_keepsGrants _ _)

theorem dropJob_keepsGrants (d : Die) (tag : Nat) (s : State) : KeepsGrants s (dropJob d tag s) := setCheck_keepsGrants _ _ _

theorem dropChecks_keepsGrants (f : Fun) (s : State) : KeepsGrants s (dropChecks f s).2 :=
  List.foldlRecOn (motive := fun x : Nat × State => KeepsGrants s x.2) [Die.a, Die.b] _ .rfl fun _ h _ _ =>
    (h.trans (.foldl (fun _ _ => (dropJob_keepsGrants _ _ _).trans (dropLeave_keepsGrants _ _ _ _)) _ _)).trans (refreshChecks_keepsGrants _ _)

theorem dropCaptures_keepsGrants (f : Fun) (s : State) : KeepsGrants s (dropCaptures f s) :=
  .foldl (fun t x => by
    extract_lets d w
    split
    · exact setCapture_keepsGrants _ _ _
    · exact (setWarp_keepsGrants _ _ _).trans (wrB_keepsGrants _ _ _ _)
    · exact setWarp_keepsGrants _ _ _
    · exact .rfl) _ _

theorem audioSilence_keepsGrants (h : Nat) (st : Option Nat) (s : State) : KeepsGrants s (audioSilence h st s) := by
  unfold audioSilence
  extract_lets x s1
  have h1 : KeepsGrants s s1 := setARoute_keepsGrants _ _ _
  split
  · exact h1.trans (.foldl (fun t b => finish_keepsGrants _ _ _ t) _ _)
  · exact h1

theorem hapReset_keepsGrants (f : Fun) (s : State) : KeepsGrants s (hapReset f s) := by
  unfold hapReset
  extract_lets s1
  have h1 : KeepsGrants s s1 := .foldl (fun t x => .ite (((setHap_keepsGrants _ _ _).trans (brakeWith_keepsGrants _ _ _)).trans (refreshHap_keepsGrants _ _)) .rfl) _ _
  exact h1.trans (.foldl (fun t x => .ite ((setHap_keepsGrants _ _ _).trans (refreshHap_keepsGrants _ _)) .rfl) _ _)

theorem layersOff_keepsGrants (f : Fun) (hd : Nat) (s : State) : KeepsGrants s (layersOff f hd s) :=
  .foldl (fun _ _ => .ite (((setLayer_keepsGrants _ _ _ _).trans (refreshLayer_keepsGrants _ _ _)).trans (recomposeHead_keepsGrants _ _)) .rfl) _ _

theorem dropCommits_keepsGrants (f : Fun) (s : State) : KeepsGrants s (dropCommits f s) :=
  .foldl (fun t hd => by
    extract_lets t1
    have h1 : KeepsGrants t t1 := .foldl (fun u l => .ite ((setLayer_keepsGrants _ _ _ _).trans (refreshLayer_keepsGrants _ _ _)) .rfl) _ _
    exact .ite (h1.trans (layersOff_keepsGrants _ _ _)) h1) _ _

/-- A freeze of the function's tenant that waits ends. -/
def freezeEnds (f : Fun) (s : State) : State :=
  match s.tenant f with
  | some x => (match x.freezing with
      | some t => s |> setTenant f { x with freezing := none } |> finish t stAbortedReset 0
      | none => s)
  | none => s

theorem freezeEnds_routes (f : Fun) (s : State) : (freezeEnds f s).routes = s.routes := by
  unfold freezeEnds
  split
  · split
    · exact (finish_keepsGrants _ _ _ _).1
    · rfl
  · rfl

/-- What the function's units do is dropped. -/
def unitsStop (f : Fun) (s : State) : State :=
  s |> dropCaptures f |> (fun t => ((audioRoutes t).filter (fun x => x.2.grantee == f)).foldl (fun u x => audioSilence x.1 none u) t) |> hapReset f |> dropCommits f

theorem unitsStop_keepsGrants (f : Fun) (s : State) : KeepsGrants s (unitsStop f s) :=
  (((dropCaptures_keepsGrants _ _).trans (.foldl (fun t _ => audioSilence_keepsGrants _ _ t) _ _)).trans (hapReset_keepsGrants _ _)).trans (dropCommits_keepsGrants _ _)

/-! ## A reset begins -/

/-- A reset ends in the rings' drop, FLR_ACTIVE, and the counts that its end will report. -/
theorem startFlr_begins {f : Fun} {s : State} (h : flrActive s f = false) : ∃ (u : State) (x : FnAux), u.routes = s.routes ∧ x.flrDescs = inFlight s f
    ∧ startFlr f false s = setFn f x (setFlr f true (dropRings f u)) := by
  have h1 := dropJobs_keepsGrants f s
  unfold startFlr
  rw [if_neg (fun hc => Bool.false_ne_true (h.symm.trans hc))]
  generalize dropJobs f s = p at h1 ⊢
  obtain ⟨ctxs, s1⟩ := p
  have h2 := h1.trans (dropChecks_keepsGrants f s1)
  dsimp -zeta only
  generalize dropChecks f s1 = p at h2 ⊢
  obtain ⟨n, s2⟩ := p
  dsimp -zeta only
  extract_lets n s3 s4 has src s5
  have h3 : s3.routes = s.routes := (freezeEnds_routes f s2).trans h2.1
  have h4 : s4 = setFlr f true (dropRings f (unitsStop f s3)) := rfl
  have h5 : (unitsStop f s3).routes = s.routes := (unitsStop_keepsGrants f s3).1.trans h3
  clear_value s3 s4
  exact ⟨unitsStop f s3, { src with flrDescs := n, flrCtxs := ctxs, flrEvents := 0, frozenEvents := [], flrDestroys := false && has }, h5, rfl,
    (if_neg Bool.false_ne_true).trans (congrArg (setFn f _) h4)⟩

theorem funcReset_vf {f : Fun} (h1 : 1 ≤ f.fn) (h2 : f.fn ≤ 31) (s : State) : funcReset f s = startFlr f false s := by
  unfold funcReset
  rw [if_neg (by omega), if_neg (by omega), if_pos h2]

theorem tenantCfg_ne_status {f : Fun} (hf : f.fn ≤ 31 ∨ f.fn = 63) : TENANT_CFG f ≠ FUNC_STATUS f := by
  have hs := slot_le hf
  unfold TENANT_CFG FUNC_STATUS
  omega

theorem flrActive_setFlr {f : Fun} (hf : f.fn ≤ 31 ∨ f.fn = 63) (on : Bool) (s : State) : flrActive (setFlr f on s) f = on := by
  unfold flrActive setFlr
  rw [flag_wrB_ne (tenantCfg_ne_status hf).symm]
  exact flag_wrB_same _ _ _ _ (by decide) (by decide)

theorem vfReset_rule {f : Fun} {s : State} (h1 : 1 ≤ f.fn) (h2 : f.fn ≤ 31) (h : flrActive s f = false) : ∃ t, exec (.pcieFlr f) s = .next t ∧ flrActive t f = true
    ∧ t.flag (TENANT_CFG f) TENANT_CFG_FLR_ACTIVE = true ∧ (∀ n, n < 16 → t.ringAux ⟨f, n⟩ = RingAux.empty) ∧ (∀ tk ∈ t.owed, tk.ring.fn ≠ f)
    ∧ (t.fnAux f).flrDescs = inFlight s f ∧ t.routes = s.routes := by
  obtain ⟨u, x, hu, hx, hgo⟩ := startFlr_begins (f := f) (s := fresh s) h
  have hring : ∀ n, n < 16 → (dropRings f u).ringAux ⟨f, n⟩ = RingAux.empty := fun n hn => ringAux_dropRings hn u
  have howed : ∀ tk ∈ (dropRings f u).owed, tk.ring.fn ≠ f := fun tk hk => owed_dropRings hk
  have hroutes : (dropRings f u).routes = s.routes := (congrArg State.routes (dropRings_only f u) :).trans hu
  generalize dropRings f u = w at hring howed hroutes hgo
  have hrun : exec (.pcieFlr f) s = .next (ran (fun _ => setFn f x (setFlr f true w)) s) :=
    congrArg Host.Outcome.next (ran_congr ((funcReset_vf h1 h2 (fresh s)).trans hgo))
  have hfn : (setFn f x (setFlr f true w)).fnAux f = x := fnAux_setFn_same _ _ _
  have hflag : (setFlr f true w).flag (TENANT_CFG f) TENANT_CFG_FLR_ACTIVE = true := flag_wrB_same _ _ _ _ (by decide) (by decide)
  exact ⟨_, hrun, flrActive_setFlr (.inl h2) true w, hflag, hring, howed, (congrArg FnAux.flrDescs hfn).trans hx, hroutes⟩

theorem flrCtrl_resets {f : Fun} {target : Nat} {v : Word} {s : State} (h1 : 1 ≤ target) (h2 : target ≤ 31) (hf : f.fn = 0)
    (ha : (accessRow s f (addrOff (FLR_CTRL ⟨f.ep, target⟩))).isSome = true) (hv : FLR_CTRL_FLR.get v = 1) : flrCtrl f target v s = funcReset ⟨f.ep, target⟩ s := by
  rw [funcReset_vf h1 h2]
  unfold flrCtrl
  refine if_neg ?_
  rintro (h | h | h | h | h)
  · omega
  · omega
  · exact h hf
  · rw [Option.isNone_iff_eq_none] at h
    rw [h] at ha
    exact Bool.false_ne_true ha
  · omega

theorem pf1Reset_rule {f : Fun} (hf : f.fn = 63) (s : State) : ∃ t, exec (.pcieFlr f) s = .next t ∧ t = { s with regs := t.regs, rings := t.rings, owed := t.owed, out := [] }
    ∧ (∀ n, n < 16 → t.ringAux ⟨f, n⟩ = RingAux.empty ∧ ringOn t ⟨f, n⟩ = false) ∧ ∀ a, postReg a = false → t.rd a = s.rd a := by
  have hgo : funcReset f (fresh s) = clearRings f (dropRings f (fresh s)) := if_pos hf
  have hdrop := dropRings_only f (fresh s)
  have hring : ∀ n, n < 16 → (dropRings f (fresh s)).ringAux ⟨f, n⟩ = RingAux.empty := fun n hn => ringAux_dropRings hn _
  generalize dropRings f (fresh s) = w at hgo hdrop hring
  have hrd : ∀ a, w.rd a = s.rd a := fun a => (rd_congr (congrArg State.regs hdrop :) (congrArg State.part hdrop :) a).trans (rd_fresh s a)
  have hran : ran (funcReset f) s = clearRings f w :=
    (ran_silent (by rw [hgo]; exact (congrArg State.out hdrop :)) (by rw [hgo]; exact (congrArg State.mem hdrop :)) (by rw [hgo]; exact (congrArg State.pending hdrop :))).trans hgo
  refine ⟨_, congrArg Host.Outcome.next hran, ?_, fun n hn => ⟨hring n hn, ringOn_clearRings (.inr hf) hn _⟩, fun a ha => (rd_clearRings_other (.inr hf) ha _).trans (hrd a)⟩
  exact (congrArg (fun u : State => { u with regs := (clearRings f w).regs, rings := w.rings, owed := w.owed }) hdrop :)

/-! ## A reset ends -/

/-- The function's layers go, its units are scrubbed, and its ring registers are back at reset. -/
def unitsFreed (f : Fun) (fails : List Nat) (s : State) : State := (upto 8).foldl (fun t hd => layersOff f hd t) s |> scrubAll f fails |> clearRings f

theorem unitsFreed_keepsGrants (f : Fun) (fails : List Nat) (s : State) : KeepsGrants s (unitsFreed f fails s) :=
  ((KeepsGrants.foldl (fun t hd => layersOff_keepsGrants f hd t) _ _).trans (scrubAll_keepsGrants _ _ _)).trans ⟨rfl, rfl⟩

theorem wr64_keepsGrants (a v : Nat) (s : State) : KeepsGrants s (wr64 a v s) := ⟨rfl, rfl⟩
theorem setFn_keepsGrants (f : Fun) (x : FnAux) (s : State) : KeepsGrants s (setFn f x s) := ⟨rfl, rfl⟩
theorem setFlr_keepsGrants (f : Fun) (on : Bool) (s : State) : KeepsGrants s (setFlr f on s) := (wrB_keepsGrants _ _ _ _).trans (wrB_keepsGrants _ _ _ _)

/-- The function's translation registers are back at reset. -/
def rootsCleared (f : Fun) (s : State) : State := s |> wr64 (S1_ROOT_LO f) 0 |> wrB (XLATE_CTRL f) XLATE_CTRL_S1_EN false |> wr (FAULT_INFO f) 0

/-- The function is no longer shown frozen or in reset. -/
def statusCleared (f : Fun) (x : FnAux) (s : State) : State :=
  s |> wrB (FUNC_STATUS f) FUNC_STATUS_FROZEN false |> wrB (TENANT_CFG f) TENANT_CFG_FROZEN false |> setFn f x |> setFlr f false

theorem rootsCleared_keepsGrants (f : Fun) (s : State) : KeepsGrants s (rootsCleared f s) := ((wr64_keepsGrants _ _ _).trans (wrB_keepsGrants _ _ _ _)).trans (wr_keepsGrants _ _ _)

theorem statusCleared_keepsGrants (f : Fun) (x : FnAux) (s : State) : KeepsGrants s (statusCleared f x s) :=
  (((wrB_keepsGrants _ _ _ _).trans (wrB_keepsGrants _ _ _ _)).trans (setFn_keepsGrants _ _ _)).trans (setFlr_keepsGrants _ _ _)

/-- The function's audio routes may sound again. -/
def envsUp (f : Fun) (s : State) : State := ((audioRoutes s).filter (fun y => y.2.grantee == f)).foldl (fun u y => setEnv y.1 true u) s

theorem envsUp_keepsGrants (f : Fun) (s : State) : KeepsGrants s (envsUp f s) := .foldl (fun t _ => setEnv_keepsGrants _ _ t) _ _

theorem rd_setEnv (h : Nat) (up : Bool) (s : State) (a : Nat) : (setEnv h up s).rd a = s.rd a := by
  unfold setEnv
  split <;> rfl

theorem rd_envsUp (f : Fun) (s : State) (a : Nat) : (envsUp f s).rd a = s.rd a :=
  List.foldlRecOn (motive := fun t : State => t.rd a = s.rd a) _ _ rfl fun _ h _ _ => (rd_setEnv _ _ _ _).trans h

theorem rd_setFn (f : Fun) (x : FnAux) (s : State) (a : Nat) : (setFn f x s).rd a = s.rd a := rd_congr rfl rfl a

theorem rd_statusCleared {f : Fun} {a : Nat} (h1 : a ≠ FUNC_STATUS f) (h2 : a ≠ TENANT_CFG f) (x : FnAux) (s : State) : (statusCleared f x s).rd a = s.rd a := by
  unfold statusCleared setFlr
  rw [rd_wrB_ne h2, rd_wrB_ne h1, rd_setFn]
  exact (rd_wrB_ne h2 _ _ _).trans (rd_wrB_ne h1 _ _ _)

theorem rd_rootsCleared {f : Fun} {a : Nat} (h1 : a ≠ S1_ROOT_LO f) (h2 : a ≠ S1_ROOT_LO f + 4) (h3 : a ≠ XLATE_CTRL f) (h4 : a ≠ FAULT_INFO f) (s : State) : (rootsCleared f s).rd a = s.rd a :=
  (rd_wr_ne h4 _ _).trans ((rd_wrB_ne h3 _ _ _).trans (rd_wr64_ne h1 h2 _ _))

theorem rd_zeroes (f : Fun) (s : State) : (rootsCleared f s).rd64 (S1_ROOT_LO f) = 0 ∧ (rootsCleared f s).flag (XLATE_CTRL f) XLATE_CTRL_S1_EN = false ∧ (rootsCleared f s).rd (FAULT_INFO f) = 0 := by
  have hx : S1_ROOT_LO f ≠ XLATE_CTRL f ∧ S1_ROOT_LO f + 4 ≠ XLATE_CTRL f := by
    unfold S1_ROOT_LO XLATE_CTRL
    omega
  have hi : S1_ROOT_LO f ≠ FAULT_INFO f ∧ S1_ROOT_LO f + 4 ≠ FAULT_INFO f ∧ XLATE_CTRL f ≠ FAULT_INFO f := by
    unfold S1_ROOT_LO XLATE_CTRL FAULT_INFO
    omega
  obtain ⟨hx1, hx2⟩ := hx
  obtain ⟨hi1, hi2, hi3⟩ := hi
  refine ⟨?_, ?_, rd_wr_same _ _ _⟩
  · exact (rd64_of_rd (rd_wr_ne hi1 _ _) (rd_wr_ne hi2 _ _)).trans ((rd64_of_rd (rd_wrB_ne hx1 _ _ _) (rd_wrB_ne hx2 _ _ _)).trans (rd64_wr64_same _ _ _))
  · exact (flag_of_rd (rd_wr_ne hi3 _ _) _).trans (flag_wrB_same _ _ _ _ (by decide) (by decide))

/-- The function is out of reset, before FLR_DONE is posted. -/
def flrEnded (f : Fun) (fails : List Nat) (x : FnAux) (s : State) : State := s |> unitsFreed f fails |> rootsCleared f |> statusCleared f x |> envsUp f

theorem flrEnded_keepsGrants (f : Fun) (fails : List Nat) (x : FnAux) (s : State) : KeepsGrants s (flrEnded f fails x s) :=
  (((unitsFreed_keepsGrants _ _ _).trans (rootsCleared_keepsGrants _ _)).trans (statusCleared_keepsGrants _ _ _)).trans (envsUp_keepsGrants _ _)

section
variable {f : Fun} (hf : f.fn ≤ 31 ∨ f.fn = 63) (fails : List Nat) (x : FnAux) (s : State)
include hf

theorem flrActive_flrEnded : flrActive (flrEnded f fails x s) f = false :=
  (flag_of_rd (rd_envsUp _ _ _) _).trans (flrActive_setFlr hf false _)

theorem rd_flrEnded {a : Nat} (h : fnSpace f + 0x401000 + 0x40 * f.slot < a) : (flrEnded f fails x s).rd a = (rootsCleared f (unitsFreed f fails s)).rd a := by
  have hs := slot_le hf
  refine (rd_envsUp _ _ _).trans (rd_statusCleared ?_ ?_ _ _)
  · unfold FUNC_STATUS
    omega
  · unfold TENANT_CFG
    omega

theorem flrEnded_zeroes : (flrEnded f fails x s).rd64 (S1_ROOT_LO f) = 0 ∧ (flrEnded f fails x s).flag (XLATE_CTRL f) XLATE_CTRL_S1_EN = false ∧ (flrEnded f fails x s).rd (FAULT_INFO f) = 0 := by
  obtain ⟨h1, h2, h3⟩ := rd_zeroes f (unitsFreed f fails s)
  have hrd {a : Nat} := rd_flrEnded (a := a) hf fails x s
  refine ⟨(rd64_of_rd (hrd ?_) (hrd ?_)).trans h1, (flag_of_rd (hrd ?_) _).trans h2, (hrd ?_).trans h3⟩
  · unfold S1_ROOT_LO
    omega
  · unfold S1_ROOT_LO
    omega
  · unfold XLATE_CTRL
    omega
  · unfold FAULT_INFO
    omega

theorem ringOn_flrEnded {n : Nat} (hn : n < 16) : ringOn (flrEnded f fails x s) ⟨f, n⟩ = false := by
  have hs := slot_le hf
  have hle : RING_CFG ⟨f, n⟩ < fnSpace f + 0x310400 + 0x800 * f.slot := by
    unfold RING_CFG
    dsimp only
    omega
  have hrd : (flrEnded f fails x s).rd (RING_CFG ⟨f, n⟩) = (unitsFreed f fails s).rd (RING_CFG ⟨f, n⟩) := by
    refine (rd_envsUp _ _ _).trans ((rd_statusCleared ?_ ?_ _ _).trans (rd_rootsCleared ?_ ?_ ?_ ?_ _))
    · unfold FUNC_STATUS
      omega
    · unfold TENANT_CFG
      omega
    · unfold S1_ROOT_LO
      omega
    · unfold S1_ROOT_LO
      omega
    · unfold XLATE_CTRL
      omega
    · unfold FAULT_INFO
      omega
  exact (congrArg (fun w => RING_CFG_SIZE_LOG2.get w != 0) hrd).trans (ringOn_clearRings hf hn _)

end

theorem flrDone_ends {f : Fun} {s : State} (fails : List Nat) (ha : flrActive s f = true) (hd : (s.fnAux f).flrDestroys = false) : ∃ x, flrDone f fails s =
    postPf0 f.ep 0x0011 (fnSource f) ((s.fnAux f).flrDescs % 2 ^ 32 + (s.fnAux f).flrCtxs % 2 ^ 32 * 2 ^ 32 + (s.fnAux f).flrEvents % 2 ^ 32 * 2 ^ 64) (flrEnded f fails x s) := by
  have hgo : ¬(flrActive s f = false ∨ ((s.fnAux f).flrDestroys = true ∧ grantedRoutes s f ≠ [])) := by
    rintro (h | ⟨h, -⟩)
    · exact Bool.false_ne_true (h.symm.trans ha)
    · exact Bool.false_ne_true (hd.symm.trans h)
  unfold flrDone
  extract_lets x s1 s2 s3
  rw [if_neg hgo]
  have h3 : s3 = s2 := if_neg fun h => Bool.false_ne_true (hd.symm.trans h)
  exact ⟨{ x with flrDescs := 0, flrCtxs := 0, flrEvents := 0, frozenEvents := [], flrDestroys := false, unmasked := [], pba := [], vectors := [] }, congrArg _ h3⟩

/-- Settles O27: a reset drops what the function's rings hold after its units have stopped, and its end gives the registers back before FLR_DONE is posted. -/
theorem functionLevelReset : Obligations.FunctionLevelReset := by
  refine ⟨fun f s h1 h2 h => vfReset_rule h1 h2 h, fun f target v s h1 h2 hf ha hv => ?_, fun f s hf => pf1Reset_rule hf s, fun f fails s h1 h2 ha hd => ?_⟩
  · exact congrArg Host.Outcome.next (ran_congr (flrCtrl_resets h1 h2 hf (by rw [accessRow_fresh]; exact ha) hv))
  · obtain ⟨x, hgo⟩ := flrDone_ends (s := fresh s) fails ha hd
    obtain ⟨hr, ht⟩ := flrEnded_keepsGrants f fails x (fresh s)
    obtain ⟨hz1, hz2, hz3⟩ := flrEnded_zeroes (.inl h2) fails x (fresh s)
    rw [show fnSource f = f.fn from Nat.mod_eq_of_lt (by omega)] at hgo
    exact ⟨_, ⟨flrActive_flrEnded (.inl h2) fails x _, ht, hr, hz1, hz2, hz3, fun n hn => ringOn_flrEnded (.inl h2) fails x _ hn⟩, congrArg Host.Outcome.next (ran_congr hgo)⟩

end Sys2Proof.Machine
end

end
